-- ==== Sys2Proof/Word.lean ====
section
/-! DEFINITION. The words of the block: one eight-byte dictionary slot (R15, R22) and one byte. -/

namespace Sys2Proof

/-- One eight-byte slot of the dictionary (R22). -/
abbrev Word := BitVec 64

/-- One byte of a record, a datagram, an argument or a memory. -/
abbrev Byte := BitVec 8

end Sys2Proof
end

