-- ==== Sys2Proof/Machine/Crc.lean ====
section
/-! DEFINITION. Bytes and numbers, little-endian (R8), and the check-value algorithms of R409. -/

namespace Sys2Proof.Machine

/-- `v` as `n` bytes, least significant first (R8). -/
def le : Nat → Nat → List Byte
  | 0, _ => []
  | n + 1, v => BitVec.ofNat 8 v :: le n (v / 256)

/-- The number that bytes spell, least significant first (R8). -/
def ofLe : List Byte → Nat
  | [] => 0
  | b :: bs => b.toNat + 256 * ofLe bs

/-- The bits of `v` below `w`, in reverse order. -/
def revBits : Nat → Nat → Nat
  | 0, _ => 0
  | w + 1, v => (v % 2) * 2 ^ w + revBits w (v / 2)

/-- A check-value algorithm (R409): width, polynomial, initial value, reflected, XOR out. -/
structure CrcAlg where
  w : Nat
  poly : Nat
  init : Nat
  refl : Bool
  xout : Nat
  deriving DecidableEq, Repr

/-- The algorithms of R409 by code. -/
def crcAlg : Nat → CrcAlg
  | 0 => ⟨8, 0x1D, 0xFF, false, 0xFF⟩
  | 1 => ⟨16, 0x1021, 0xFFFF, false, 0⟩
  | 2 => ⟨32, 0x04C11DB7, 0xFFFFFFFF, true, 0xFFFFFFFF⟩
  | 3 => ⟨32, 0x1EDC6F41, 0xFFFFFFFF, true, 0xFFFFFFFF⟩
  | 4 => ⟨32, 0xF4ACFB13, 0xFFFFFFFF, true, 0xFFFFFFFF⟩
  | _ => ⟨64, 0x42F0E1EBA9EA3693, 0, false, 0⟩

/-- Shift `n` bits out of a register that runs from its high end. -/
def crcShiftHigh (a : CrcAlg) : Nat → Nat → Nat
  | 0, r => r
  | n + 1, r =>
    let d := r * 2
    crcShiftHigh a n (if d / 2 ^ a.w % 2 = 1 then d % 2 ^ a.w ^^^ a.poly else d % 2 ^ a.w)

/-- Shift `n` bits out of a register that runs from its low end, with the reversed polynomial `p`. -/
def crcShiftLow (p : Nat) : Nat → Nat → Nat
  | 0, r => r
  | n + 1, r => crcShiftLow p n (if r % 2 = 1 then r / 2 ^^^ p else r / 2)

/-- The register after the bytes `bs`. -/
def crcBytes (a : CrcAlg) (p : Nat) : List Byte → Nat → Nat
  | [], r => r
  | b :: bs, r =>
    crcBytes a p bs
      (if a.refl then crcShiftLow p 8 (r ^^^ b.toNat) else crcShiftHigh a 8 (r ^^^ b.toNat * 2 ^ (a.w - 8)))

/-- The check value of `bs` under algorithm `code` (R409). -/
def crc (code : Nat) (bs : List Byte) : Nat :=
  let a := crcAlg code
  crcBytes a (if a.refl then revBits a.w a.poly else 0) bs a.init ^^^ a.xout

/-- CRC-32C, the check value of DOMAIN data, tiles and completion records. -/
def crc32c (bs : List Byte) : Nat := crc 3 bs

/-- Two's complement: the integer a `w`-bit number stands for. -/
def toSigned (w v : Nat) : Int := if 2 ^ (w - 1) ≤ v % 2 ^ w then Int.ofNat (v % 2 ^ w) - 2 ^ w else Int.ofNat (v % 2 ^ w)

/-- Two's complement: the `w`-bit number that stands for an integer. -/
def ofSigned (w : Nat) (i : Int) : Nat := (i % (2 ^ w : Int)).toNat

/-- How many of the lowest `n` bits of `m` are set. -/
def popcount : Nat → Nat → Nat
  | 0, _ => 0
  | n + 1, m => m % 2 + popcount n (m / 2)

/-- Whether bit `b` of `m` is set. -/
def bit (m b : Nat) : Bool := m / 2 ^ b % 2 = 1

/-- `m` with bit `b` set. -/
def setBit (m b : Nat) : Nat := if bit m b then m else m + 2 ^ b

/-- `m` with bit `b` clear. -/
def clearBit (m b : Nat) : Nat := if bit m b then m - 2 ^ b else m

/-- `a ÷ b`, rounded up. -/
def ceilDiv (a b : Nat) : Nat := (a + b - 1) / b

end Sys2Proof.Machine
end

