-- ==== Sys2Proof/Machine/Arith.lean ====
section
/-! DEFINITION. Numbers: the formats of R70, exact values, the one rounding (R83), conversion (R85), the exact accumulator (R87 to R91), the wide-sum form
(R81, R92, R93), the FP32 split (R95), block scales (R99) and in-flight quantisation (R105 to R107). -/

namespace Sys2Proof.Machine

/-- A value: NaN, an infinity, or (−1)^neg × m × 2^e. -/
inductive Num where
  | nan (neg : Bool)
  | inf (neg : Bool)
  | fin (neg : Bool) (m : Nat) (e : Int)
  deriving DecidableEq, Repr

/-- +0. -/
abbrev Num.zero : Num := .fin false 0 0

/-- A zero of either sign as +0 (R91). -/
def Num.plusZero : Num → Num
  | .fin _ 0 _ => .zero
  | n => n

/-- An integer times a power of two. -/
def Num.ofInt (i : Int) (e : Int) : Num := .fin (decide (i < 0)) i.natAbs e

/-- Signed mantissa of a finite value. -/
def signed (neg : Bool) (m : Nat) : Int := if neg then -(Int.ofNat m) else Int.ofNat m

/-- `m ÷ 2^s`, to the nearest, ties to even (R83). -/
def roundShift (m s : Nat) : Nat :=
  if s = 0 then m
  else
    let q := m / 2 ^ s
    let r := m % 2 ^ s
    if 2 ^ (s - 1) < r ∨ (r = 2 ^ (s - 1) ∧ q % 2 = 1) then q + 1 else q

/-- `m × 2^e` on the grid of multiples of 2^q, rounded. -/
def toGrid (m : Nat) (e q : Int) : Nat := if q ≤ e then m * 2 ^ (e - q).toNat else roundShift m (q - e).toNat

/-- Whether `m × 2^e` lies on the grid of multiples of 2^q. -/
def onGrid (m : Nat) (e q : Int) : Bool := decide (q ≤ e) || m % 2 ^ (q - e).toNat == 0

/-! ## Formats (R70 to R75) -/

/-- A floating-point layout (R71): exponent and mantissa bits, bias, whether it has infinities, whether it has NaN. -/
structure Layout where
  eb : Nat
  mb : Nat
  bias : Nat
  hasInf : Bool
  hasNan : Bool
  deriving DecidableEq, Repr

/-- The layout of a floating-point format code. -/
def layout : Nat → Option Layout
  | 0x0 => some ⟨8, 23, 127, true, true⟩
  | 0x1 => some ⟨8, 7, 127, true, true⟩
  | 0x2 => some ⟨5, 10, 15, true, true⟩
  | 0x3 => some ⟨4, 3, 7, false, true⟩
  | 0x4 => some ⟨5, 2, 15, true, true⟩
  | 0x5 => some ⟨3, 2, 3, false, false⟩
  | 0x6 => some ⟨2, 3, 1, false, false⟩
  | 0x7 => some ⟨2, 1, 1, false, false⟩
  | _ => none

/-- The width of a format in bits (R70). -/
def fmtBits : Nat → Nat
  | 0x0 | 0x8 | 0xE => 32
  | 0x1 | 0x2 | 0x9 => 16
  | 0x5 | 0x6 => 6
  | 0x7 | 0xB | 0xD => 4
  | _ => 8

/-- The integer formats (R74). -/
def isIntFmt (c : Nat) : Bool := 8 ≤ c && c ≤ 0xB

/-- The value of a floating-point element (R71, R72). -/
def Layout.decode (l : Layout) (b : Nat) : Num :=
  let neg := b / 2 ^ (l.eb + l.mb) % 2 == 1
  let ex := b / 2 ^ l.mb % 2 ^ l.eb
  let m := b % 2 ^ l.mb
  let top := 2 ^ l.eb - 1
  if l.hasInf ∧ ex = top then (if m = 0 then .inf neg else .nan neg)
  else if ¬ l.hasInf ∧ l.hasNan ∧ ex = top ∧ m = 2 ^ l.mb - 1 then .nan neg
  else if ex = 0 then .fin neg m (1 - Int.ofNat l.bias - Int.ofNat l.mb)
  else .fin neg (2 ^ l.mb + m) (Int.ofNat ex - Int.ofNat l.bias - Int.ofNat l.mb)

/-- The value of an element of a format; `book` gives the BF16 entries of a codebook format, where −0 reads as +0 (R76, R78). -/
def decodeElt (c : Nat) (book : List Nat) (b : Nat) : Num :=
  match layout c with
  | some l => l.decode b
  | none =>
    if isIntFmt c then .ofInt (toSigned (fmtBits c) b) 0
    else if c = 0xF then (if b % 256 = 255 then .nan false else .fin false 1 (Int.ofNat (b % 256) - 127))
    else match (⟨8, 7, 127, true, true⟩ : Layout).decode (book.getD b 0) with
      | .fin _ 0 _ => .zero
      | n => n

/-- What conversions, groups and wide sums count in `ARITH_EVENTS` (R86). -/
structure Counts where
  saturated : Nat := 0
  nan : Nat := 0
  nanToZero : Nat := 0
  infSat : Nat := 0
  zeroScale : Nat := 0
  nonfiniteScale : Nat := 0
  inexact : Nat := 0
  stalls : Nat := 0
  deriving DecidableEq, Repr

/-- Counts together. -/
def Counts.add (a b : Counts) : Counts :=
  ⟨a.saturated + b.saturated, a.nan + b.nan, a.nanToZero + b.nanToZero, a.infSat + b.infSat, a.zeroScale + b.zeroScale,
    a.nonfiniteScale + b.nonfiniteScale, a.inexact + b.inexact, a.stalls + b.stalls⟩

/-- Convert a value to a floating-point layout (R83 to R85). `sat` is SATURATE; the bits of a NaN in a format with several are open: they come from `free`
(log entry 46). -/
def Layout.encode (l : Layout) (sat : Bool) (free : Nat) (n : Num) : Nat × Counts :=
  let sb (neg : Bool) : Nat := if neg then 2 ^ (l.eb + l.mb) else 0
  let maxFin : Nat := if l.hasInf then (2 ^ l.eb - 1) * 2 ^ l.mb - 1
    else if l.hasNan then 2 ^ (l.eb + l.mb) - 2 else 2 ^ (l.eb + l.mb) - 1
  match n with
  | .nan neg =>
    if l.hasInf then (2 ^ l.mb * (2 ^ l.eb - 1) + 1 + free % (2 ^ l.mb - 1), { nan := 1 })
    else if l.hasNan then (sb neg + 2 ^ (l.eb + l.mb) - 1, { nan := 1 })
    else (0, { nanToZero := 1 })
  | .inf neg =>
    if l.hasInf ∧ ¬ sat then (sb neg + (2 ^ l.eb - 1) * 2 ^ l.mb, {}) else (sb neg + maxFin, { infSat := 1 })
  | .fin neg m e =>
    if m = 0 then (sb neg, {})
    else
      let q := max (e + Int.ofNat (Nat.log2 m) - Int.ofNat l.mb) (1 - Int.ofNat l.bias - Int.ofNat l.mb)
      let g := toGrid m e q
      -- the code of `g × 2^q` counts up through the exponents
      let code := if g < 2 ^ l.mb then g else ((q + Int.ofNat l.mb + Int.ofNat l.bias - 1) * 2 ^ l.mb + Int.ofNat g).toNat
      if maxFin < code then
        if l.hasInf ∧ ¬ sat then (sb neg + (2 ^ l.eb - 1) * 2 ^ l.mb, {}) else (sb neg + maxFin, { saturated := 1 })
      else (sb neg + code, {})

/-- Convert a value to a `w`-bit integer (R83, R85). An infinity counts in `INF_SATURATED` alone (log entry 148). -/
def encodeInt (w : Nat) (n : Num) : Nat × Counts :=
  let hi : Int := 2 ^ (w - 1) - 1
  let lo : Int := -(2 ^ (w - 1))
  match n with
  | .nan _ => (0, { nanToZero := 1 })
  | .inf neg => (ofSigned w (if neg then lo else hi), { infSat := 1 })
  | .fin neg m e =>
    let i := signed neg (toGrid m e 0)
    if hi < i then (ofSigned w hi, { saturated := 1 })
    else if i < lo then (ofSigned w lo, { saturated := 1 })
    else (ofSigned w i, {})

/-- Convert a value to a format. For CB8, CB4, BFP24 and UE8M0, to which nothing is converted so, the code is free (log entry 149). -/
def encodeElt (c : Nat) (sat : Bool) (free : Nat) (n : Num) : Nat × Counts :=
  match layout c with
  | some l => l.encode sat free n
  | none => if isIntFmt c then encodeInt (fmtBits c) n else (free % 2 ^ fmtBits c, {})

/-- FP32 (R71). -/
def fp32 : Layout := ⟨8, 23, 127, true, true⟩

/-- A value rounded once to FP32. -/
def toFp32 (free : Nat) (n : Num) : Nat := (fp32.encode false free n).1

/-! ## Exact arithmetic -/

/-- The exact product; infinity times zero is NaN (R90). -/
def Num.mul : Num → Num → Num
  | .nan n, _ => .nan n
  | _, .nan n => .nan n
  | .inf a, .inf b => .inf (a != b)
  | .inf a, .fin b m _ => if m = 0 then .nan false else .inf (a != b)
  | .fin b m _, .inf a => if m = 0 then .nan false else .inf (a != b)
  | .fin a m e, .fin b n f => .fin (a != b) (m * n) (e + f)

/-- The exact sum of finite values, a zero sum being +0 (R91); infinities of both signs make NaN. -/
def Num.add : Num → Num → Num
  | .nan n, _ => .nan n
  | _, .nan n => .nan n
  | .inf a, .inf b => if a = b then .inf a else .nan false
  | .inf a, _ => .inf a
  | _, .inf a => .inf a
  | .fin a m e, .fin b n f =>
    let q := min e f
    .ofInt (signed a (m * 2 ^ (e - q).toNat) + signed b (n * 2 ^ (f - q).toNat)) q

/-- The value times 2^k. -/
def Num.scale (k : Int) : Num → Num
  | .fin a m e => .fin a m (e + k)
  | n => n

/-- The magnitude. -/
def Num.abs : Num → Num
  | .nan _ => .nan false
  | .inf _ => .inf false
  | .fin _ m e => .fin false m e

/-- Whether one finite value is below another. -/
def Num.lt : Num → Num → Bool
  | .fin a m e, .fin b n f =>
    let q := min e f
    decide (signed a (m * 2 ^ (e - q).toNat) < signed b (n * 2 ^ (f - q).toNat))
  | .fin _ _ _, .inf b => !b
  | .inf a, .fin _ _ _ => a
  | .inf a, .inf b => a && !b
  | _, _ => false

/-- The floor of the square root, bit by bit from bit `n - 1` down. -/
def isqrt (v : Nat) : Nat → Nat → Nat
  | 0, r => r
  | n + 1, r => if (r + 2 ^ n) * (r + 2 ^ n) ≤ v then isqrt v n (r + 2 ^ n) else isqrt v n r

/-- `x ÷ y`, or `x ÷ (y √2)`, to 80 bits and a sticky bit: enough for one correct rounding to FP32 or narrower (R105). -/
def ratio (x y : Num) (root2 : Bool) : Num :=
  match x, y with
  | .fin a m e, .fin b n f =>
    if n = 0 then .nan false
    else if m = 0 then .fin (a != b) 0 0
    else
      let k := 80 + Nat.log2 n
      if root2 then
        let v := m * m * 2 ^ (2 * k)
        let w := 2 * n * n
        let r := isqrt (v / w) (Nat.log2 (v / w) / 2 + 1) 0
        .fin (a != b) (2 * r + if r * r * w = v then 0 else 1) (e - f - Int.ofNat k - 1)
      else
        let v := m * 2 ^ k
        .fin (a != b) (2 * (v / n) + if v % n = 0 then 0 else 1) (e - f - Int.ofNat k - 1)
  | _, _ => .nan false

/-! ## FP32 arithmetic, every operation correctly rounded (R83, R301) -/

/-- The value of an FP32 code. -/
def fp (b : Nat) : Num := fp32.decode b

/-- A value rounded to FP32; NaN stays NaN. -/
def Num.r32 : Num → Num
  | .nan a => .nan a
  | n => fp (toFp32 0 n)

/-- A value with its sign turned. -/
def Num.minus : Num → Num
  | .nan a => .nan a
  | .inf a => .inf (!a)
  | .fin a m e => .fin (!a) m e

def add32 (a b : Num) : Num := (a.add b).r32
def sub32 (a b : Num) : Num := (a.add b.minus).r32
def mul32 (a b : Num) : Num := (a.mul b).r32

/-- The quotient; a finite value other than zero over zero is an infinity, zero over zero NaN. -/
def div32 (a b : Num) : Num := match a, b with
  | .nan n, _ => .nan n
  | _, .nan n => .nan n
  | .inf _, .inf _ => .nan false
  | .inf x, .fin y _ _ => .inf (x != y)
  | .fin x _ _, .inf y => .fin (x != y) 0 0
  | .fin x m e, .fin y n f => if n = 0 then (if m = 0 then .nan false else .inf (x != y)) else (ratio (.fin x m e) (.fin y n f) false).r32

/-- The square root. -/
def sqrt32 : Num → Num
  | .nan n => .nan n
  | .inf a => if a then .nan false else .inf false
  | .fin a m e =>
    if m = 0 then .fin a 0 0
    else if a then .nan false
    else
      let h := (e - 120) / 2
      let v := m * 2 ^ (e - 2 * h).toNat
      let r := isqrt v (Nat.log2 v / 2 + 1) 0
      (Num.fin false (2 * r + if r * r = v then 0 else 1) (h - 1)).r32

/-- Whether one value is at most another; false beside NaN. -/
def Num.le (a b : Num) : Bool := match a, b with
  | .nan _, _ => false
  | _, .nan _ => false
  | a, b => !b.lt a

def Num.max (a b : Num) : Num := if a.lt b then b else a
def Num.min (a b : Num) : Num := if b.lt a then b else a

/-- A value that is neither NaN nor an infinity. -/
def Num.isFin : Num → Bool
  | .fin _ _ _ => true
  | _ => false

/-- An integer as a value. -/
def num (i : Int) : Num := .ofInt i 0

/-! ## The exact accumulator (R87 to R91) -/

/-- The exact set (R87). -/
def exactFmt (c : Nat) : Bool := (3 ≤ c && c ≤ 7) || (0xA ≤ c && c ≤ 0xD)

/-- Formats an engine takes as operands (R70). -/
def operandFmt (c : Nat) : Bool := c ≤ 7 || (0xA ≤ c && c ≤ 0xD)

/-- The binade of a nonzero BF16 entry of a book. -/
def entryExp (b : Nat) : Option Int := match (⟨8, 7, 127, true, true⟩ : Layout).decode b with
  | .fin _ 0 _ => none
  | .fin _ m e => some (e + Int.ofNat (Nat.log2 m))
  | _ => none

/-- The least binade of a book's nonzero entries, 0 for a book of zeros. -/
def bookMin (book : List Nat) : Int := match book.filterMap entryExp with
  | [] => 0
  | x :: xs => xs.foldl min x

/-- A book is valid when its entries are finite and its nonzero entries span no more than 16 binades (R78). -/
def bookValid (book : List Nat) : Bool :=
  let es := book.filterMap entryExp
  book.all (fun b => match (⟨8, 7, 127, true, true⟩ : Layout).decode b with
    | .fin _ _ _ => true
    | _ => false)
  && match es with
    | [] => true
    | x :: xs => decide (xs.foldl max x - xs.foldl min x ≤ 15)

/-- The lowest bit weight of an operand of the exact set (R88). -/
def lowBit (c : Nat) (book : List Nat) : Int :=
  match c with
  | 0x3 => -9
  | 0x4 => -16
  | 0x5 => -4
  | 0x6 => -3
  | 0x7 => -1
  | 0xC | 0xD => bookMin book - 7
  | _ => 0

/-- An accumulator: 96-bit two's complement at its anchor, and the three flags (R88, R90). -/
structure Accum where
  v : Int := 0
  anchor : Int := 0
  nan : Bool := false
  pinf : Bool := false
  ninf : Bool := false
  deriving DecidableEq, Repr

/-- An accumulator takes a product (R90). -/
def Accum.take (a : Accum) : Num → Accum
  | .nan _ => { a with nan := true }
  | .inf neg => if neg then { a with ninf := true } else { a with pinf := true }
  | .fin neg m e => { a with v := a.v + signed neg (m * 2 ^ (e - a.anchor).toNat) }

/-- What an accumulator gives at output (R90, R91). -/
def Accum.value (a : Accum) : Num :=
  if a.nan ∨ (a.pinf ∧ a.ninf) then .nan false
  else if a.pinf then .inf false
  else if a.ninf then .inf true
  else .ofInt a.v a.anchor

/-- The accumulator's value lies within its 96 bits (R278). -/
def Accum.fits (a : Accum) : Bool := decide (-(2 ^ 95) ≤ a.v) && decide (a.v < 2 ^ 95)

/-! ## The wide-sum form (R81, R92 to R94) -/

/-- A value rounded to 64 significant bits, and whether it rounded: a zero is +0, and a carry out of bit 63 moves into the exponent. -/
def round64 : Num → Num × Nat
  | .fin _ 0 _ => (.zero, 0)
  | .fin a m e =>
    let w := Nat.log2 m + 1
    if w ≤ 64 then (.fin a m e, 0)
    else
      let r := roundShift m (w - 64)
      let f := e + Int.ofNat (w - 64)
      (if r = 2 ^ 64 then .fin a (2 ^ 63) (f + 1) else .fin a r f, if m % 2 ^ (w - 64) = 0 then 0 else 1)
  | n => (n, 0)

/-- A wide-sum addition. -/
def wideAdd (a b : Num × Nat) : Num × Nat :=
  let r := round64 (a.1.add b.1)
  (r.1, a.2 + b.2 + r.2)

/-- One level of a balanced pairwise tree. -/
def pairUp : List (Num × Nat) → List (Num × Nat)
  | a :: b :: t => wideAdd a b :: pairUp t
  | t => t

/-- The root of the balanced tree over the values in their order (R93; log entry 47). -/
def treeSum : Nat → List (Num × Nat) → Num × Nat
  | 0, xs => xs.headD (.zero, 0)
  | n + 1, xs => match xs with
    | [] => (.zero, 0)
    | [x] => x
    | _ => treeSum n (pairUp xs)

/-- Values enter the wide-sum form, each rounded to 64 bits, and are combined (R92). -/
def wideSum (xs : List Num) : Num × Nat := treeSum 64 (xs.map round64)

/-- The 16 bytes of a wide-sum value (R81); the significand of a NaN is any nonzero one, from `free`. -/
def wideBytes (free : Nat) (n : Num) : List Byte :=
  let enc (neg : Bool) (s : Nat) (e : Int) : List Byte := le 8 s ++ le 8 (e.toNat + if neg then 32768 else 0)
  match n with
  | .nan neg => enc neg (1 + free % (2 ^ 64 - 1)) 0xFFF
  | .inf neg => enc neg 0 0xFFF
  | .fin neg m e =>
    if m = 0 then enc false 0 0
    else
      let w := Nat.log2 m
      enc neg (m * 2 ^ (63 - w)) (e - Int.ofNat (63 - w) + 2110)

/-- The number of a stored wide-sum value (R81). -/
def wideNum (bs : List Byte) : Num :=
  let m := ofLe (bs.take 8)
  let t := ofLe ((bs.drop 8).take 2)
  let neg := t / 32768 % 2 == 1
  let e := t % 4096
  if e = 0xFFF then (if m = 0 then .inf neg else .nan neg) else .fin neg m (Int.ofNat e - 2110)

/-! ## FP32 by splitting (R95) -/

/-- A finite value rounded to an 8-bit significand. -/
def round8 : Num → Num
  | .fin a m e =>
    let w := Nat.log2 m + 1
    if w ≤ 8 then .fin a m e else .fin a (roundShift m (w - 8)) (e + Int.ofNat (w - 8))
  | n => n

/-- The three pieces of an FP32 operand. -/
def split3 (x : Num) : Num × Num × Num := match x with
  | .fin _ _ _ =>
    let a0 := round8 x
    let r := x.add a0.minus
    let a1 := round8 r
    (a0, a1, r.add a1.minus)
  | n => (n, .zero, .zero)

/-- What a term of a pass that is not of the exact set brings to its wide sum: the product, or with an FP32 operand the six products of the split, added exactly, so
that they take no level of the tree (R93). The partner of an FP32 operand is split too, whatever its format; an operand that is not finite makes its one product (log
entry 150). -/
def wideTerm (split : Bool) (x y : Num) : Num :=
  match x, y, split with
  | .fin _ _ _, .fin _ _ _, true =>
    let a := split3 x
    let b := split3 y
    [a.1.mul b.2.1, a.2.1.mul b.1, a.1.mul b.2.2, a.2.1.mul b.2.1, a.2.2.mul b.1].foldl Num.add (a.1.mul b.1)
  | _, _, _ => x.mul y

/-! ## Rotation (R103) -/

/-- The order-2^n Sylvester-Hadamard transform of a block by butterflies, each rounded to FP32: n roundings reach an output. -/
def hadamard : Nat → List Num → List Num
  | 0, xs => xs
  | n + 1, xs =>
    let a := xs.take (2 ^ n)
    let b := xs.drop (2 ^ n)
    hadamard n ((a.zip b).map fun e => add32 e.1 e.2) ++ hadamard n ((a.zip b).map fun e => sub32 e.1 e.2)

/-- A rotated row in blocks of `n`, scaled by the power of two of R103; a block size of 0 is no rotation. -/
def rotateRow (n : Nat) (xs : List Num) : List Num :=
  if n = 0 then xs
  else
    let k := Nat.log2 n
    (List.range (ceilDiv xs.length n)).flatMap fun i =>
      (hadamard k ((xs.drop (n * i)).take n)).map (Num.scale (-Int.ofNat (k / 2)))

/-- Whether a rotation carries the factor √2 into the scales (R103, R105). -/
def carriesRoot2 (n : Nat) : Bool := n != 0 && Nat.log2 n % 2 == 1

/-! ## In-flight quantisation (R105 to R107) -/

/-- qmax of a target (R105). -/
def qmax : Nat → Num
  | 0x3 => .fin false 448 0
  | 0x4 => .fin false 57344 0
  | 0x5 => .fin false 28 0
  | 0x6 => .fin false 15 (-1)
  | 0x7 => .fin false 6 0
  | 0xA => .fin false 127 0
  | _ => .fin false 7 0

/-- Saturate a code to ±qmax of its target: only the integer targets have a code beyond it. -/
def capCode (c b : Nat) : Nat :=
  if c = 0xA then ofSigned 8 (max (-127) (toSigned 8 b))
  else if c = 0xB then ofSigned 4 (max (-7) (toSigned 4 b))
  else b

/-- A group or block quantised on the fly: its scale's code, its elements' codes, what it counts (R86, R105 to R107). -/
structure Quant where
  scale : Nat
  codes : List Nat
  counts : Counts := {}
  deriving DecidableEq, Repr

/-- The largest magnitude of finite values. -/
def amax (xs : List Num) : Num := xs.foldl (fun a x => if a.lt x.abs then x.abs else a) Num.zero

/-- Values converted to codes of a target within ±qmax, with what the conversions count. -/
def toCodes (target : Nat) (xs : List Num) : List Nat × Counts :=
  let cs := xs.map (fun x => encodeElt target true 0 x)
  (cs.map (fun c => capCode target c.1), cs.foldl (fun a c => a.add (if capCode target c.1 = c.1 then c.2 else { saturated := 1 })) {})

/-- Quantise a group on the fly (R105, R106). A scale that is NaN takes its bits from `free`. -/
def quantGroup (target : Nat) (root2 : Bool) (free : Nat) (xs : List Num) : Quant :=
  if ¬ xs.all Num.isFin then ⟨toFp32 free (.nan false), xs.map (fun _ => 0), { nonfiniteScale := 1 }⟩
  else
    let s := toFp32 free (ratio (amax xs) (qmax target) root2)
    if s = 0 then ⟨0, xs.map (fun _ => 0), { zeroScale := 1 }⟩
    else
      let c := toCodes target (xs.map (fun x => ratio x (fp32.decode s) root2))
      ⟨s, c.1, c.2⟩

/-- The exponent of the largest normal of a block-scaled element format (R107). -/
def elemMaxExp : Nat → Int
  | 0x3 => 8
  | 0x4 => 15
  | 0x5 => 4
  | 0x6 => 2
  | 0x7 => 2
  | _ => 0

/-- Quantise a block to a UE8M0 scale (R107): a block with zero amax gets 0; one that is not finite the NaN scale (R106). -/
def quantBlock (target : Nat) (xs : List Num) : Quant :=
  if ¬ xs.all Num.isFin then ⟨255, xs.map (fun _ => 0), { nonfiniteScale := 1 }⟩
  else
    match amax xs with
    | .fin _ m e =>
      if m = 0 then ⟨0, xs.map (fun _ => 0), { zeroScale := 1 }⟩
      else
        let x := (max 0 (min 254 (e + Int.ofNat (Nat.log2 m) - elemMaxExp target + 127))).toNat
        let shift : Int := 127 - Int.ofNat x + if target = 0xA then 6 else 0
        let c := toCodes target (xs.map (Num.scale shift))
        ⟨x, c.1, c.2⟩
    | _ => ⟨255, [], { nonfiniteScale := 1 }⟩

/-! ## Packing (R73) -/

/-- Elements packed from the least significant bit upward, as bytes. -/
def packBits (w : Nat) (xs : List Nat) : List Byte :=
  let v := xs.foldr (fun x acc => x % 2 ^ w + 2 ^ w * acc) 0
  le (ceilDiv (w * xs.length) 8) v

/-- Element `i` of packed bytes. -/
def unpackAt (w : Nat) (bs : List Byte) (i : Nat) : Nat := ofLe ((bs.drop (w * i / 8)).take 5) / 2 ^ (w * i % 8) % 2 ^ w

/-- The BF16 entries of book `b` of a book tile's bytes (R77). -/
def bookOf (c b : Nat) (tile : List Byte) : List Nat :=
  if c = 0xC then (List.range 256).map (fun i => ofLe ((tile.drop (512 * b + 2 * i)).take 2))
  else (List.range 16).map (fun i => ofLe ((tile.drop (32 * b + 2 * i)).take 2))

end Sys2Proof.Machine
end

