-- ==== Sys2Proof/Machine/Vector.lean ====
section
/-! DEFINITION. The vector unit (R126 to R128, R295): its functions on exact values, and the choice that a bound leaves. The functions that R127 bounds by ulp are
computed in fixed point to 320 fraction bits, and the result is any FP32 value within the bound (log entry 151). -/

namespace Sys2Proof.Machine

/-! ## Fixed point -/

/-- A value as a multiple of 2^-320, held within ±2^10, beyond which every function here has reached its limit in FP32. -/
def toFx : Num → Int
  | .fin a m e => max (-(2 ^ 330)) (min (2 ^ 330) (signed a (toGrid m e (-320))))
  | .inf a => if a then -(2 ^ 330) else 2 ^ 330
  | .nan _ => 0

/-- A multiple of 2^-320 as a value. -/
def ofFx (i : Int) : Num := .ofInt i (-320)

/-- A product of fixed-point numbers. -/
def fxMul (a b : Int) : Int := a * b / 2 ^ 320

/-- ln 2, log2 e, 2π, 2 ÷ √π, √(2 ÷ π) and 1 ÷ √2, each times 2^320; 1 ÷ 2π times 2^480. -/
def fxLn2 : Int := 0xb17217f7d1cf79abc9e3b39803f2f6af40f343267298b62d8a0d175b8baafa2be7b876206debac98
def fxLog2e : Int := 0x171547652b82fe1777d0ffda0d23a7d11d6aef551bad2b4b1164a2cd9a342648fbc3887eeaa2ed9ac
def fxTwoPi : Int := 0x6487ed5110b4611a62633145c06e0e68948127044533e63a0105df531d89cd9128a5043cc71a026ef
def fxErf : Int := 0x120dd750429b6d11ae3a914fed7fd8688281341d7587cea2e7342b06199cc416180eb39f0b24e1e22
def fxGelu : Int := 0xcc42299ea1b284687e59e2805d5c717fa7053e60a24e0db1808e369004c73a5d3bf158aa88fa7b6e
def fxHalfRoot : Int := 0xb504f333f9de6484597d89b3754abe9f1d6f60ba893ba84ced17ac85833399154afc83043ab8a2c3
def invTwoPi : Int := 0x28be60db9391054a7f09d5f47d4d377036d8a5664f10e4107f9458eaf7aef1586dc91b8e909374b801924bba827464873f877ac72c4a69cfba208d7d

/-- Terms of a power series from `t` on, each the last times `x` over the next of its divisors `d`, `d + step`, …, until one is zero. -/
def powerSeries (x : Int) (step : Nat) : Nat → Nat → Int → Int
  | 0, _, _ => 0
  | n + 1, d, t => if t = 0 then 0 else t + powerSeries x step n (d + step) (fxMul t x / Int.ofNat d)

/-- 2 to a fixed-point power. -/
def exp2Fx (y : Int) : Num :=
  .fin false (powerSeries (fxMul (y % 2 ^ 320) fxLn2) 1 100 1 (2 ^ 320)).toNat (y / 2 ^ 320 - 320)

/-- e to a fixed-point power. -/
def expFx (y : Int) : Num := exp2Fx (fxMul y fxLog2e)

/-- Odd powers of `z` over their exponents, for the inverse hyperbolic tangent. -/
def atanhSeries (z2 : Int) : Nat → Nat → Int → Int
  | 0, _, _ => 0
  | n + 1, d, t => if t = 0 then 0 else t / Int.ofNat d + atanhSeries z2 n (d + 2) (fxMul t z2)

/-- The natural logarithm of a value above zero. -/
def lnFx : Num → Int
  | .fin _ m e =>
    let w := Nat.log2 m
    let f := toGrid m (-Int.ofNat w) (-320)
    let z := Int.ofNat ((f - 2 ^ 320) * 2 ^ 320 / (f + 2 ^ 320))
    (e + Int.ofNat w) * fxLn2 + 2 * atanhSeries (fxMul z z) 120 1 z
  | _ => 0

/-- A quotient to 80 bits. -/
def Num.over (a b : Num) : Num := ratio a b false

/-- 1 ÷ (1 + e^-x). -/
def sigmoidFx (y : Int) : Num := (num 1).over ((num 1).add (expFx (-y)))

/-- erf x, its argument held within ±15: e^(-x²) times a series whose terms have one sign. -/
def erfFx (x : Int) : Num :=
  let y := max (-(15 * 2 ^ 320)) (min (15 * 2 ^ 320) x)
  let sq := fxMul y y
  (ofFx (fxMul (powerSeries (2 * sq) 2 1400 3 y) fxErf)).mul (expFx (-sq))

/-- The square root of a value above zero, to 120 bits and more. -/
def rootOf : Num → Num
  | .fin _ m e =>
    let h := (e - 320) / 2
    let v := m * 2 ^ (e - 2 * h).toNat
    .fin false (isqrt v (Nat.log2 v / 2 + 1) 0) h
  | n => n

/-- The sine of 2π times a fixed-point number. -/
def sineTurn (t : Int) : Int :=
  let x := fxMul (t % 2 ^ 320) fxTwoPi
  let rec go (x2 : Int) : Nat → Nat → Int → Int
    | 0, _, _ => 0
    | n + 1, d, u => if u = 0 then 0 else u + go x2 n (d + 2) (-(fxMul u x2) / Int.ofNat (d * (d + 1)))
  go (fxMul x x) 120 2 x

/-- A value over 2π, as a fixed-point number of turns. -/
def turns : Num → Int
  | .fin a m e => signed a m * invTwoPi / 2 ^ (160 - e).toNat * 2 ^ (e - 160).toNat
  | _ => 0

/-! ## What a bound leaves open -/

/-- The FP32 ulp of an exact value (R96). -/
def ulp32 : Num → Num
  | .fin _ m e => .fin false 1 (if m = 0 then -149 else max (e + Int.ofNat (Nat.log2 m)) (-126) - 23)
  | n => n

/-- An FP32 code within `tol` of the exact value `y`, any of them, by `free`. -/
def near (y tol : Num) (free : Nat) : Nat :=
  let c := toFp32 0 (y.add (tol.mul (.ofInt (Int.ofNat (free % (2 ^ 33 + 1)) - 2 ^ 32) (-32))))
  match fp c with
  | .fin a m e => if tol.lt ((Num.fin a m e).add y.minus).abs then toFp32 free y else c
  | _ => toFp32 free y

/-- Within `k` ulp (R127). -/
def ulps (k : Int) (free : Nat) (y : Num) : Num := match y with
  | .fin _ _ _ => fp (near y ((ulp32 y).mul (num k)) free)
  | n => n

/-- A result that the spec does not state. -/
def open32 (free : Nat) : Num := fp (free % 2 ^ 32)

/-! ## Lane functions (R127) -/

/-- A function of FP32 lanes. -/
inductive LaneFn where
  | add | sub | mul | fma | abs | neg | copy | select
  | min | max | less | lessEq | equal
  | div | sqrt | recip | rsqrt | exp | exp2 | log | log2
  | tanh | sigmoid | erf | softplus | silu | gelu | geluTanh | sin | cos
  deriving DecidableEq, Repr

/-- The smaller of two values, −0 below +0, NaN beside NaN (R126); with `up` the larger. -/
def minMax (up : Bool) (a b : Num) : Num := match a, b with
  | .nan n, _ => .nan n
  | _, .nan n => .nan n
  | .fin x 0 _, .fin y 0 _ => .fin (if up then x && y else x || y) 0 0
  | a, b => if a.lt b == up then b else a

/-- The truth of a comparison: 1 or +0 (log entry 152). -/
def truth (b : Bool) : Num := num (if b then 1 else 0)

/-- A finite value that is zero. -/
def Num.isZero : Num → Bool
  | .fin _ m _ => m == 0
  | _ => false

/-- A value at or below zero, for which logarithms and roots of R127 state nothing. -/
def Num.nonPos (x : Num) : Bool := !(Num.zero.lt x)

/-- A function of one finite value that R127 bounds by ulp: the exact value, and the bound; none where the spec states no result. -/
def LaneFn.exact (f : LaneFn) (x : Num) : Option (Num × Int) :=
  let y := toFx x
  let bound (v : Num) (k : Int) : Option (Num × Int) := some (v, k)
  match f with
  | .recip => if x.isZero then none else bound ((num 1).over x) 1
  | .rsqrt => if x.nonPos then none else bound ((num 1).over (rootOf x)) 1
  | .exp => bound (expFx y) 2
  | .exp2 => bound (exp2Fx y) 2
  | .log => if x.nonPos then none else bound (ofFx (lnFx x)) 2
  | .log2 => if x.nonPos then none else bound (ofFx (fxMul (lnFx x) fxLog2e)) 2
  | .tanh => let e := expFx (2 * y); bound ((e.add (num (-1))).over (e.add (num 1))) 3
  | .sigmoid => bound (sigmoidFx y) 3
  | .erf => bound (erfFx y) 3
  | .softplus => if (num 200).lt x then bound x 3 else bound (ofFx (lnFx ((num 1).add (expFx y)))) 3
  | .silu => bound (x.mul (sigmoidFx y)) 3
  | .gelu => bound (x.mul (((num 1).add (erfFx (fxMul y fxHalfRoot))).scale (-1))) 3
  | .geluTanh =>
    let z := Max.max (-(2 ^ 327)) (Min.min (2 ^ 327) y)
    bound (x.mul (sigmoidFx (2 * fxMul fxGelu (z + fxMul (fxMul z z) z * 44715 / 1000000)))) 3
  | _ => none

/-- The result of a lane function on its operands: correctly rounded, or within its bound by `free`. A NaN operand gives NaN (R126). What R127 states no result for
(a zero divisor, a logarithm or root at or below zero, an infinity under a bounded function) is free (log entry 151). -/
def LaneFn.run (f : LaneFn) (free : Nat) (xs : List Num) : Num :=
  let a := xs.getD 0 .zero
  let b := xs.getD 1 .zero
  let c := xs.getD 2 .zero
  let isNan (x : Num) : Bool := match x with
    | .nan _ => true
    | _ => false
  match f with
  | .add => add32 a b
  | .sub => sub32 a b
  | .mul => mul32 a b
  | .fma => ((a.mul b).add c).r32
  | .abs => a.abs
  | .neg => a.minus
  | .copy => a
  | .select => if c.isZero then b else a
  | .min => minMax false a b
  | .max => minMax true a b
  | .less => truth (a.lt b)
  | .lessEq => truth (a.le b)
  | .equal => truth (a.le b && b.le a)
  | .div => if b.isZero && a.isFin then open32 free else div32 a b
  | .sqrt => match a with
    | .fin true (_ + 1) _ => open32 free
    | x => sqrt32 x
  | .sin | .cos =>
    if isNan a then a
    else if ¬ a.isFin then open32 free
    else
      let v := match f with
        | .sin => ofFx (sineTurn (turns a))
        | _ => ofFx (sineTurn (turns a + 2 ^ 318))
      let near0 : Num := .fin false 1 (-24)
      let tol := if (Num.fin false 1 20).lt a.abs then .fin false 1 (-20) else if ((ulp32 v).scale 1).lt near0 then near0 else (ulp32 v).scale 1
      fp (near v tol free)
  | g =>
    if isNan a then a
    else match a, g.exact a with
      | .fin _ _ _, some r => ulps r.2 free r.1
      | _, _ => open32 free

/-! ## Integer lanes (R127) -/

/-- A function of INT32 or INT16 lanes. -/
inductive IntFn where
  | add | sub | mulLow | shl | shrLogical | shrArith | and | or | xor | min | max
  deriving DecidableEq, Repr

/-- An exact result that wraps, or saturates where the output is declared SATURATE, and whether it was clamped. -/
def fitInt (w : Nat) (sat : Bool) (i : Int) : Nat × Counts :=
  if ¬ sat then (ofSigned w i, {})
  else
    let r := max (-(2 ^ (w - 1))) (min (2 ^ (w - 1) - 1) i)
    (ofSigned w r, if r = i then {} else { saturated := 1 })

/-- An integer function on two codes of width `w`; a shift by the width or more is free (log entry 151). -/
def IntFn.run (f : IntFn) (w : Nat) (sat : Bool) (free a b : Nat) : Nat × Counts :=
  let x := toSigned w a
  let y := toSigned w b
  let shift (v : Nat × Counts) : Nat × Counts := if w ≤ b then (free % 2 ^ w, {}) else v
  match f with
  | .add => fitInt w sat (x + y)
  | .sub => fitInt w sat (x - y)
  | .mulLow => fitInt w sat (x * y)
  | .shl => shift (fitInt w sat (x * 2 ^ b))
  | .shrLogical => shift (a / 2 ^ b, {})
  | .shrArith => shift (ofSigned w (x / 2 ^ b), {})
  | .and => (a &&& b, {})
  | .or => (a ||| b, {})
  | .xor => (a ^^^ b, {})
  | .min => (ofSigned w (Min.min x y), {})
  | .max => (ofSigned w (Max.max x y), {})

/-! ## Functions of a row (R127, R128) -/

/-- A function of a row. -/
inductive RowFn where
  | sum | max | min | argmax | argmin | softmax | rmsNorm | layerNorm
  deriving DecidableEq, Repr

/-- Where the largest, or smallest, element of a row stands: the first of equals, or the first NaN. -/
def bestAt (up : Bool) : Nat → List Num → Nat × Num → Nat
  | _, [], best => best.1
  | i, x :: xs, best =>
    match x with
    | .nan _ => i
    | _ => bestAt up (i + 1) xs (if (if up then best.2.lt x else x.lt best.2) then (i, x) else best)

/-- The largest, or smallest, element of a row; a NaN gives NaN. -/
def bestOf (up : Bool) (xs : List Num) : Num := xs.getD (bestAt up 0 xs (0, xs.headD .zero)) .zero

/-- The exponentials of a row less its maximum, exactly; an element of −∞ gives 0. -/
def expsBelow (m : Num) (xs : List Num) : List Num := xs.map fun x => match x with
  | .inf _ => .zero
  | x => expFx (toFx (x.add m.minus))

/-- Softmax of a row, within 4 ulp, with m and l (R128): l is held to the bound of R248 (log entry 151). A row of length 0 writes nothing; a NaN makes every output NaN,
and of a row with +∞ or with nothing above −∞ the spec states nothing. -/
def softmaxRow (free : Nat → Nat) (xs : List Num) : List Num × Option (Num × Num) :=
  match xs with
  | [] => ([], none)
  | _ =>
    match bestOf true xs with
    | .nan n => (xs.map (fun _ => .nan n), some (.nan n, .nan n))
    | .inf _ => ((List.range xs.length).map (fun i => open32 (free i)), some (open32 (free xs.length), open32 (free (xs.length + 1))))
    | m =>
      let es := expsBelow m xs
      let total := es.foldl Num.add .zero
      (((List.range es.length).zip es).map (fun e => ulps 4 (free e.1) (e.2.over total)), some (m, ulps 4 (free xs.length) (m.add (ofFx (lnFx total)))))

/-- The mean of some values, to 80 bits. -/
def meanOf (xs : List Num) : Num := (xs.foldl Num.add .zero).over (num (Int.ofNat xs.length))

/-- A norm of a row with gain, and for layer norm bias: x, or x less the mean, times the rsqrt of the mean square plus ε times the gain (R127). -/
def normRow (layer : Bool) (eps : Num) (gain bias : List Num) (free : Nat → Nat) (xs : List Num) : List Num :=
  let mean := if layer then meanOf xs else .zero
  let ys := if layer then xs.map (fun x => x.add mean.minus) else xs
  let sq := (meanOf (ys.map (fun y => y.mul y))).add eps
  ((List.range ys.length).zip ys).map fun e =>
    if ¬ xs.all Num.isFin ∨ ¬ sq.isFin then (if xs.any (fun x => x == .nan false || x == .nan true) then .nan false else open32 (free e.1))
    else if sq.nonPos then open32 (free e.1)
    else
      let r := (num 1).over (rootOf sq)
      let g := gain.getD e.1 (num 1)
      let y := ((e.2.mul r).mul g).add (if layer then bias.getD e.1 .zero else .zero)
      let tol := (ulp32 y).mul (num 3)
      if ¬ y.isFin then y
      else fp (near y (if layer then tol.add (((mean.abs.mul r).mul g.abs).scale (-24)) else tol) (free e.1))

/-- The sum of a row, held in wide-sum form and rounded once, and its wide-sum roundings. -/
def sumRow (xs : List Num) : Num × Nat :=
  let w := wideSum xs
  (w.1.r32, w.2)

/-! ## Pooling (R295) -/

/-- Max, average with padding excluded or included, global average. -/
inductive PoolMode where
  | max | avgExcluded | avgIncluded | global
  deriving DecidableEq, Repr

/-- The value of a pooling window, where an element of none is padding, which has the value `pad` (R290); an average is divided once by the count, and one of nothing is
+0. The wide-sum roundings beside it. -/
def PoolMode.window (mode : PoolMode) (pad : Num) (xs : List (Option Num)) : Num × Nat :=
  let mean (ys : List Num) : Num × Nat := match ys with
    | [] => (.zero, 0)
    | _ =>
      let w := wideSum ys
      (match w.1 with
        | .fin a m e => if m = 0 then .zero else (Num.fin a m e).over (num (Int.ofNat ys.length))
        | n => n, w.2)
  match mode with
  | .max => (bestOf true (xs.map (·.getD pad)), 0)
  | .avgIncluded => mean (xs.map (·.getD pad))
  | .avgExcluded | .global => mean (xs.filterMap id)

end Sys2Proof.Machine
end

