-- ==== Sys2Proof/Machine/Types.lean ====
section
/-! DEFINITION. The data that commands carry and State keeps: written values, MDP operation heads, tokens, job
declarations, table entries, bricks and samples. -/

namespace Sys2Proof.Machine

/-! ## Sparse tables -/

/-- A table of records under numbers, kept in rising order of the number. -/
abbrev Tab (α : Type) := List (Nat × α)

/-- The record under `k`, if there is one. -/
def Tab.get? {α : Type} : Tab α → Nat → Option α
  | [], _ => none
  | (j, a) :: t, k => if j = k then some a else Tab.get? t k

/-- The record under `k`, or `d`. -/
def Tab.at {α : Type} (t : Tab α) (k : Nat) (d : α) : α := (Tab.get? t k).getD d

/-- `t` with record `a` under `k`. -/
def Tab.set {α : Type} : Tab α → Nat → α → Tab α
  | [], k, a => [(k, a)]
  | (j, b) :: t, k, a =>
    if k < j then (k, a) :: (j, b) :: t
    else if k = j then (k, a) :: t
    else (j, b) :: Tab.set t k a

/-- `t` with nothing under `k`. -/
def Tab.del {α : Type} (t : Tab α) (k : Nat) : Tab α := t.filter (fun e => decide (e.1 ≠ k))

/-- `t` with the record under `k` changed by `f`; `d` stands for an absent one. -/
def Tab.upd {α : Type} (t : Tab α) (k : Nat) (d : α) (f : α → α) : Tab α := Tab.set t k (f (Tab.at t k d))

/-- The least number under which `t` has nothing, from `n` on, looking at no more than `fuel` numbers. -/
def Tab.fresh {α : Type} (t : Tab α) : Nat → Nat → Nat
  | 0, n => n
  | fuel + 1, n => if (Tab.get? t n).isSome then Tab.fresh t fuel (n + 1) else n

/-! ## Sorted lists -/

/-- Insert into a list kept in the order of `le`. -/
def insertBy {α : Type} (le : α → α → Bool) (a : α) : List α → List α
  | [] => [a]
  | b :: t => if le a b then a :: b :: t else b :: insertBy le a t

/-- Sort by `le`; equal elements keep their order. -/
def sortBy {α : Type} (le : α → α → Bool) (xs : List α) : List α :=
  xs.foldr (insertBy le) []

/-! ## Written values (R14, R23, R26, R34) -/

/-- What an access carries. A write: a number of `width` bytes, the bytes of an octet string, a DOMAIN descriptor with what
the device's fetch of the named data brings (none: the host answers with an error or not in time, R14), or DOMAIN data written inline. The other services of the SDO
protocol (R26): the upload of an object, Complete Access to every object of an index from subindex 0 or 1 on (a download with what
its DOMAIN descriptors fetch), the list of the indices, the description of an index, that of
one subindex. -/
inductive WVal where
  | num (n width : Nat)
  | octets (bs : List Byte)
  | desc (addr len crc : Nat) (data : Option (List Byte))
  | inline (data : List Byte)
  | upload
  | uploadAll
  | downloadAll (bs : List Byte) (fetched : List (Option (List Byte)))
  | odList
  | odIndex
  | odEntry
  deriving DecidableEq, Repr

/-- DOMAIN data written inline, which PCIe cannot carry (R14). -/
def WVal.isInline : WVal → Bool
  | .inline _ => true
  | _ => false

/-- A service that only SDO has (R26). -/
def WVal.isSdo : WVal → Bool
  | .upload | .uploadAll | .downloadAll _ _ | .odList | .odIndex | .odEntry => true
  | _ => false

/-- What every operation of an MDP REQUEST carries (R34 to R37): the session, the request's SEQUENCE, OP and SIZE of each operation of the request, and the
operation's place in it. -/
structure MdpHead where
  ses : Nat
  seq : Nat
  ops : List (Nat × Nat)
  op : Nat
  deriving DecidableEq, Repr

/-- How many operations the REQUEST has. -/
def MdpHead.nOps (h : MdpHead) : Nat := h.ops.length

/-- The bytes of the REQUEST's datagram: header, tag, and for each operation its head and, but for a READ, its data (R27, R34). -/
def MdpHead.bytes (h : MdpHead) : Nat := h.ops.foldl (fun n e => n + 6 + (if e.1 = 1 then 0 else e.2)) 32

/-- The bytes of the RESPONSE it asks for: header, tag, and for each operation its code and what a READ returns (R35). -/
def MdpHead.answerBytes (h : MdpHead) : Nat := h.ops.foldl (fun n e => n + 4 + (if e.1 = 1 then e.2 else 0)) 32

/-! ## Pins and links -/

/-- Output pins of the module. -/
inductive Pin where
  | safeHoldN | outA | outB | alertN | thermtripN | pwrGood
  deriving DecidableEq, Repr

/-- Where a frame leaves the module. -/
inductive LinkOut where
  | ecatCommand (line : Nat)
  | ecatInput (line : Nat)
  | spi (port : Nat)
  | peerRead (lease slot : Nat)
  | peerWrite (lease slot : Nat)
  | ethernet (port : Nat)
  | roce (qp : Nat)
  | alStatus
  deriving DecidableEq, Repr

/-! ## Job declarations (R198) -/

/-- A semaphore of a declaration: its rank in the unit, maximum and initial count (R220). -/
structure SemDecl where
  rank : Nat
  max : Nat
  init : Nat
  deriving DecidableEq, Repr

/-- The declaration of an attention job (R243): `scale` is σ, an FP32 code; `gradFmt` the gradient format of a backward job (R254). -/
structure AttDecl where
  backward : Bool := false
  d : Nat
  heads : Nat
  group : Nat
  qFmt : Nat
  pFmt : Nat
  outFmt : Nat
  sat : Bool := false
  scale : Nat := 0x3F800000
  mask : Nat := 0
  window : Nat := 0
  batch : Nat
  floor : Nat := 0
  strict : Bool := false
  saveStats : Bool := false
  gradFmt : Nat := 0
  deriving DecidableEq, Repr

/-- An entry of a lengths table (R244), with the latched epoch and length of the forward's header for a backward job (R253). -/
structure LenRow where
  seq : Nat
  keysAll : Bool
  qTokens : Nat
  keyLimit : Nat
  qOffset : Nat
  epoch : Nat := 0
  len : Nat := 0
  deriving DecidableEq, Repr

/-- The declaration of a stream step (R269, R270): which arguments name the local number and the step count, and the state it declares; `carryOk`: its carry
factors and update formats are those R277 admits; `out` whether it has output arguments. -/
structure ChunkDecl where
  localArg : Nat
  stepsArg : Nat
  elements : Nat
  format : Nat
  group : Nat
  carryOk : Bool := true
  deriving DecidableEq, Repr

/-- A Harrow layer's parameters (R289): kernel, strides, dilations, padding, mode (0 standard, 1 depthwise, 2 pooling), line width in pixels, channel group
and element bits. -/
structure HarrowDecl where
  kh : Nat
  kw : Nat
  sy : Nat
  sx : Nat
  dy : Nat
  dx : Nat
  pads : List Nat
  mode : Nat
  width : Nat
  group : Nat
  bits : Nat
  deriving DecidableEq, Repr

/-- A Sieve operation (R303 to R310): a crop, or the decoding of the anchors of one image and their suppression. Reals are FP32 codes; `grid` that the anchors' centres come
from the grid of `stride`, `act` how scores are taken (0 raw, 1 sigmoid, 2 softmax), `soft` σ of the soft mode, `clip` the width and height that coordinates are clamped
to; of a crop `format`, `sat` and `group` are its output's, `map` the feature map's width, height, format and channel group (R288). -/
structure SieveOp where
  crop : Bool := false
  variant : Nat := 0
  anchors : Nat := 0
  classes : Nat := 1
  grid : Bool := false
  act : Nat := 0
  dropZero : Bool := false
  scoreMin : Nat := 0
  topk : Nat := 0
  iouMax : Nat := 0
  soft : Option Nat := none
  agnostic : Bool := false
  maxOut : Nat := 0
  clip : Option (Nat × Nat) := none
  stride : Nat := 0
  image : Nat := 0
  images : Nat := 1
  ho : Nat := 1
  wo : Nat := 1
  ratio : Nat := 1
  channels : Nat := 1
  format : Nat := 0
  sat : Bool := false
  group : Nat := 16
  map : Nat × Nat × Nat × Nat := (0, 0, 0, 16)
  deriving DecidableEq, Repr

/-- The declaration of a planning run (R358): configurations are FP32 codes, a goal has its tolerances beside it. -/
structure PlanRun where
  model : Nat
  start : List Nat
  goals : List (List Nat × List Nat)
  method : Nat := 0
  samples : Nat := 0
  target : Nat := 1
  shortcuts : Nat := 0
  seed : Nat := 0
  waypoints : Nat := 2
  deriving DecidableEq, Repr

/-- A collective (R478): its group; its operation, 0 SEND, 1 RECV, 2 BROADCAST, 3 ALL_GATHER, 4 REDUCE_SCATTER, 5 ALL_REDUCE; its bytes; its tiles, of which only
those of this module are written here. -/
structure CollDecl where
  group : Nat
  op : Nat
  bytes : Nat
  tiles : List Nat := []
  deriving DecidableEq, Repr

/-- What a collective exchange brings (R478, R480): operation, group and byte count of the neighbour's declaration; the hop of the ring it is, from 0; which of the
declared tiles it is for, with tag and payload (none: it carries no tile). -/
structure Exchange where
  op : Nat
  group : Nat
  bytes : Nat
  hop : Nat := 0
  place : Nat := 0
  tag : List Byte := []
  data : List Byte := []
  deriving DecidableEq, Repr

/-- What a stage asks of a fixed-function unit (R300, R355, R358, R364): of the Sieve, or of the planner a run, a query against the newest epoch or a declared
one, or an update batch. -/
inductive UnitOp where
  | sieve (o : SieveOp)
  | run (p : PlanRun)
  | spheres (epoch : Option Nat)
  | segments (model : Nat) (epoch : Option Nat)
  | batch
  deriving DecidableEq, Repr

/-- The power domain of the unit (R415). -/
def UnitOp.domain : UnitOp → Nat
  | .sieve _ => 76
  | _ => 75

/-- The declaration of one stage, as the Timetable reads it (R198). `deps` are the earlier stages whose output
the stage consumes (R200), `phases` its phase points in mV (R428), `tiles` the tiles it declares resident
(R162); then what the arithmetic checks read (R110): operand formats, books (tile and book), rotations (block sizes of both operands, reduction length), smoothing
vectors (length, reduction length), in-flight targets with their groups (0 a whole row). -/
structure Decl where
  fields : Nat := 0
  engines : Nat := 1
  slate : Nat := 0
  store : Nat := 0
  sems : List SemDecl := []
  barriers : List Nat := []
  power : Nat := 0
  fullSave : Bool := false
  gap : Nat := 1
  live : Nat := 0
  tiles : List Nat := []
  phases : List Nat := []
  deps : List Nat := []
  operands : List Nat := []
  books : List (Nat × Nat) := []
  rotations : List (Nat × Nat × Nat) := []
  smooths : List (Nat × Nat) := []
  quants : List (Nat × Nat) := []
  harrows : List HarrowDecl := []
  att : Option AttDecl := none
  chunk : Option ChunkDecl := none
  op : Option UnitOp := none
  sources : List Nat := []
  coll : Option CollDecl := none
  deriving DecidableEq, Repr

/-- An entry point of a unit: its stages, the KIND and DIR of its arguments (R58), how many tensors it binds
(R209), how many golden inputs it has, of each output shape, format and tiles (R404), and the output argument that is its golden stamp (R407). -/
structure Entry where
  stages : List Decl := []
  args : List (Nat × Nat) := []
  binds : Nat := 0
  goldIn : Nat := 0
  goldOut : List (Nat × Nat × Nat) := []
  stamp : Option Nat := none
  deriving DecidableEq, Repr

/-- A program unit's declarations: its size and its entries. -/
structure UnitDecl where
  kib : Nat := 0
  entries : List Entry := []
  deriving DecidableEq, Repr

/-- An authorisation token (R457): kind 1 elevation, 2 debug; level; lifetime in seconds; the device and the challenge it names; the certificates of its chain, signer first;
whether its zero bytes are zero, its signature and those of its chain verify. -/
structure Token where
  kind : Nat
  level : Nat
  lifetime : Nat
  device : List Byte
  challenge : List Byte
  certs : List (List Byte)
  zeros : Bool := true
  sigOk : Bool := true
  chainOk : Bool := true
  deriving DecidableEq, Repr

/-! ## Images (R451) -/

/-- An image in a flash slot (R451, R452): version, security version, the device it is bound to (16 bytes), `PAYLOAD_DIGEST` (48 bytes), the payload where the ROM reads it
(kind 1), the values and DOMAIN contents a settings image holds (kind 4), whether signature, chain and digest verify. -/
structure Img where
  version : Nat
  rollback : Nat := 0
  target : List Byte := []
  digest : List Byte := []
  payload : List Byte := []
  vals : List (Nat × Nat) := []
  blobs : List (Nat × List Byte) := []
  sound : Bool := true
  deriving DecidableEq, Repr

/-! ## Engine passes (R101, R112 to R117) -/

/-- A place in the memories of a field: the store, or the slate of an engine, and a byte offset in it. -/
structure Place where
  inStore : Bool
  engine : Nat := 0
  offset : Nat
  deriving DecidableEq, Repr

/-- The bank of a field's store that holds byte `a` of it (R121), and the bank of a slate that holds byte `a` of it (R118). -/
def storeBank (a : Nat) : Nat := a / 64 % 16
def slateBank (a : Nat) : Nat := a / 16384 % 4

/-- Where an operand's elements come from (R113): the command brings them, as codes; the engine's slate or the field's store, packed row-major or column-major from
`place` on; or the Harrow's window register, which shows for each row and term an element of the line buffers by its number, or none for padding (R290). -/
inductive Source where
  | brought
  | memory (colMajor : Bool) (place : Place) (rows : Nat)
  | window (taps : List (List (Option Nat)))
  deriving DecidableEq, Repr

/-- In-flight quantisation (R105, R107): the format the elements arrive in, the group size (0 a whole row), whether the target is block-scaled, and where the
scales are written if they are declared an output. -/
structure InFlight where
  source : Nat
  group : Nat
  block : Bool := false
  scalesTo : Option Place := none
  deriving DecidableEq, Repr

/-- One operand of a pass: its format, up to 16 rows of element codes (fewer are padded with zeros, R115) or where they come from, and what the Scaler does with them:
smoothing factors (FP32 codes, R102), the block size of the rotation (0 none, R103), in-flight quantisation; books in runs of elements, each a global tile address and a
number, or the index tiles whose tags name them (R76, R108); zero points per row for groups of 32 (one for all if alone, R109); UE8M0 scales per row and block of 32
(R99); FP32 scales per row (R97). -/
structure Operand where
  fmt : Nat
  els : List (List Nat) := []
  source : Source := .brought
  smooth : List Nat := []
  rotate : Nat := 0
  quant : Option InFlight := none
  books : List (Nat × Nat) := []
  indexTiles : List Nat := []
  bookRun : Nat := 1
  zeros : List (List Int) := []
  blocks : List (List Nat) := []
  rowScale : List Nat := []
  deriving DecidableEq, Repr

/-- Where a drain goes (R117): an output format with SATURATE, or wide-sum partials, into the slate or the store at a byte offset; or resident. -/
inductive Drain where
  | format (fmt : Nat) (sat inStore : Bool) (offset : Nat)
  | wide (inStore : Bool) (offset : Nat)
  | resident
  deriving DecidableEq, Repr

/-! ## The vector unit (R126 to R128, R295) -/

/-- What the vector unit does: a lane function, an integer function of a width, a function of a row (`eps` the ε of a norm), or pooling over windows of element codes, none
for padding, whose code is `pad`. -/
inductive VecFn where
  | lane (f : LaneFn)
  | int (f : IntFn) (width : Nat)
  | row (f : RowFn) (eps : Nat)
  | pool (mode : PoolMode) (fmt pad : Nat) (windows : List (List (Option Nat)))
  deriving DecidableEq, Repr

/-- An operand of the vector unit: elements in the store or in a slate, packed in a format; the drained accumulators of an engine; or codes that the program holds. -/
inductive VecSrc where
  | memory (place : Place) (fmt : Nat)
  | drained (engine : Nat)
  | codes (fmt : Nat) (cs : List Nat)
  deriving DecidableEq, Repr

/-- Work of the vector unit: its function over `rows` rows of `n` elements, where the results go and in which format, and where m and l of a softmax go if they are
asked for. -/
structure VecOp where
  fn : VecFn
  rows : Nat := 1
  n : Nat := 0
  srcs : List VecSrc := []
  fmt : Nat := 0
  sat : Bool := false
  dest : Place
  statsTo : Option Place := none
  deriving DecidableEq, Repr

/-! ## Attention (R247, R248, R254) -/

/-- One page as the walker brings it: its first token, its keys and its values, a row of d elements for each token; a value page's scale per token and per channel (FP32
codes, R239, R240). -/
structure AttPage where
  first : Nat
  k : Operand
  v : Operand
  vToken : List Nat := []
  vChannel : List Nat := []
  deriving DecidableEq, Repr

/-- What a backward job brings for its query rows (R253): dO, O, and m and l of each row (FP32 codes); the partial sums of dK and dV of earlier rows that reach the
page; where dQ, and dK and dV of the pages, go, and whether dK and dV are complete. -/
structure AttBack where
  dOut : Operand
  out : Operand
  stats : List (Nat × Nat)
  partials : Option Place := none
  final : Bool := true
  dqTo : Place
  dkvTo : Place
  deriving DecidableEq, Repr

/-- The work of an attention job on up to 16 query rows that share their pages' head: the rows' place in the job's lengths table and the query token of each, the pages of
their key range in increasing order, where output, statistics and header go. -/
structure AttWork where
  q : Operand
  tokens : List (LenRow × Nat)
  pages : List AttPage
  outTo : Place
  statsTo : Option Place := none
  headerTo : Option Place := none
  back : Option AttBack := none
  deriving DecidableEq, Repr

/-- What a Harrow pass is (R291, R292): kernel, channels, whether depthwise, and how many steps its engine stalled (R294). -/
structure HarrowPass where
  kh : Nat
  kw : Nat
  channels : Nat
  depthwise : Bool := false
  stalls : Nat := 0
  deriving DecidableEq, Repr

/-- A pass that ends (R114, R120): the engine, its operands over K terms, whether it continues on resident accumulators (R277), its drain, the stored partials of the
same output tile that are combined with it (R89, R93), the slate banks that feed it (R118), the words corrected as they were read (R119), what the Harrow fed it, whether
a residue or parity check fails; then what the vector unit and the attention of the job do after it, the array taking no part where `vecOnly` (log entry 153). -/
structure Pass where
  field : Nat
  engine : Nat
  a : Operand
  b : Operand
  k : Nat
  cont : Bool := false
  drain : Drain
  partials : List Place := []
  feed : List Nat := []
  corrected : Nat := 0
  harrow : Option HarrowPass := none
  mismatch : Bool := false
  vecOnly : Bool := false
  vec : List VecOp := []
  att : Option AttWork := none
  deriving DecidableEq, Repr

/-! ## What the memory and job commands carry -/

/-- Where a copy of a tile lies: a payload slot of this module, or a slot on borrowed lease n. -/
inductive Home where
  | slot (s : Nat)
  | lease (n k : Nat)
  deriving DecidableEq, Repr

/-- How a tile read or write fared: whole, corrected, uncorrectable, a CHECK mismatch, a host error, a tag error
(R156, R178). -/
inductive MoveErr where
  | none | corrected | uncorrectable | check | hostRefused | tag
  deriving DecidableEq, Repr

/-- Where the device side of a Drill move lies: the home of the tile, or a slate, a store, or the Harrow's line buffers of the field. -/
inductive MoveSide where
  | home
  | place (p : Place)
  | lines (offset : Nat)
  deriving DecidableEq, Repr

/-- A Drill move that completes (R163). `tile` is a global tile address, `write` a write of the home copy, `host`
a move between host memory at `host` and the device, in which with a `side` in the field the tile takes no part and `write` is a write to the host; `addr` and `row` the module address and DRAM row an error was found at, `tag` and `data` what a
write brings: 32 bytes (R154), and 4 KiB when the tile is written whole; `compress` that the output declaration asks for compression (R297); `side` where the
data lands or comes from in the field; `barrier` the barrier, by its place in the declaration, before whose arrival the write was issued (R136); `joined` the other jobs whose
requests for the tile it serves (R175). -/
structure Move where
  field : Nat
  job : Option Nat
  tile : Nat
  write : Bool
  host : Option Nat
  bytes : Nat
  err : MoveErr
  addr : Nat
  row : Nat
  tag : List Byte
  data : List Byte
  compress : Bool := false
  side : MoveSide := .home
  barrier : Option Nat := none
  joined : List Nat := []
  deriving DecidableEq, Repr

/-- A decision of the Surveyor and its firmware (R165, R169 to R173): migrate a tile to a payload slot or to a borrowed lease, hold a copy of it in a
field or drop that copy; take a lease that a lender has granted, note its recall, give it back. -/
inductive TierMove where
  | toSlot (tile slot : Nat)
  | toLease (tile lease : Nat)
  | copy (tile field : Nat)
  | dropCopy (tile field : Nat)
  | takeLease (n lender id slots : Nat)
  | noteRecall (n deadline : Nat)
  | giveLease (n : Nat)
  deriving DecidableEq, Repr

/-- Who edits a sequence (R256, R262): a session, by its `SEQ_EDIT` objects, or a job of the sequence's context, with the values of those objects that its
operation brings: sequence, page, head, length, FORCE, tiles, formats, geometry, books; and with the timeout that it declares in µs, none for NO_LIMIT (R259). -/
inductive Editor where
  | ses (n : Nat)
  | job (j seq page head length : Nat) (force : Bool) (k v formats geometry : Nat) (books : List Nat) (timeout : Option Nat)
  deriving DecidableEq, Repr

/-- One step of a stream's carry for one element: the carry factor, the update, and the sum of the magnitudes of the update's terms (R283, R284). -/
abbrev CarryStep := Num × Num × Num

/-- What a job ends with: its own status and DETAIL, the flags it gathered, the stalls of R230, whether it produced output, the
steps of a stream chunk, element by element (R283). -/
structure JobResult where
  status : Nat
  detail : Nat
  flags : Nat := 0
  stallNs : Nat := 0
  output : Bool := true
  steps : List (List CarryStep) := []
  deriving DecidableEq, Repr

/-- One anchor of a Sieve decode (R303, R304): the anchor quadruple and its grid cell; deltas, variances, class scores as they come, the objectness; FP32 codes. -/
structure SieveRow where
  anchor : List Nat
  cell : Nat × Nat := (0, 0)
  deltas : List Nat
  vars : List Nat := []
  scores : List Nat
  obj : Option Nat := none
  deriving DecidableEq, Repr

/-- What a Sieve operation reads, and where it writes: the anchors, the lengths of the anchor table and of the score input; for a crop the boxes' corners and the codes of
the feature map in the order of R288; the output tiles with their tags. -/
structure SieveData where
  rows : List SieveRow := []
  tableLen : Nat := 0
  scoreLen : Nat := 0
  boxes : List (List Nat) := []
  map : List Nat := []
  outs : List (Nat × List Byte) := []
  deriving DecidableEq, Repr

/-- What a slice of a planning run comes to: nothing yet; start and goals checked (R359); the end of search and shortcutting (R360, R361); final validation (R362). A run that
can end with its slice has its output tiles, and whether the record's CRC is found wrong before it leaves (R408). -/
inductive PlanStep where
  | work
  | begin (outs : List (Nat × List Byte)) (crcBad : Bool)
  | search
  | validate (outs : List (Nat × List Byte)) (crcBad : Bool)
  deriving DecidableEq, Repr

/-- A brick operation of an update batch (R347): the brick, and 2,048 voxels as INT16 codes. -/
inductive MapOp where
  | replace (brick : Nat) (vs : List Nat)
  | min (brick : Nat) (vs : List Nat)
  | forget (brick : Nat)
  deriving DecidableEq, Repr

/-- An estimate of a fusion filter (R328 to R330): its states and its covariance, row by row, as FP32 codes; the propagation input held; its ToV. -/
structure Est where
  x : List Nat := []
  p : List Nat := []
  held : List Nat := []
  tov : Nat := 0
  frac : Nat := 0
  deriving DecidableEq, Repr

/-- What the payload of a sample spells (R328): the values measured, the rows of H of a linear measurement, the earlier ToV of a delta pose; FP32 codes. -/
structure Meas where
  vals : List Nat := []
  h : List Nat := []
  earlier : Nat := 0
  deriving DecidableEq, Repr

end Sys2Proof.Machine
end

