-- ==== Sys2Proof/Syntax.lean ====
section
/-! DEFINITION. The commands of the module, one constructor per row of spec/opcode_table.json. -/

namespace Sys2Proof

open Machine in
/-- A command: what reaches the module from outside, or comes due inside it. -/
inductive Instr where
  -- Dictionary, sessions, request slots, event log
  /-- OBJECT_WRITE: session `ses` writes the object at `idx:sub` (R18); over CoE any SDO service (R26) -/
  | objectWrite (ses idx sub : Nat) (v : WVal)
  /-- BAR0_SLOT_WRITE: a BAR0 write of `width` bytes at byte address `addr`, or with no value a read (R22 to R25); `fetch` is what a completed DOMAIN write fetches -/
  | bar0SlotWrite (addr width : Nat) (value : Option Nat) (fetch : Option (List Byte))
  /-- MDP_HELLO: a HELLO, header and payload; `chainOk`: the signatures of its chain verify under the owner root (R29, R30, R450) -/
  | mdpHello (header payload : List Byte) (chainOk : Bool)
  /-- MDP_FINISH: a FINISH; `verifies`: its signature does (R31) -/
  | mdpFinish (ses : Nat) (verifies : Bool)
  /-- MDP_FINISH_TIMEOUT: 1 s passed with no FINISH that verifies (R30) -/
  | mdpFinishTimeout (ses : Nat)
  /-- MDP_READ: a READ operation (R34) -/
  | mdpRead (h : MdpHead) (idx sub size : Nat)
  /-- MDP_WRITE: a WRITE operation of `size` bytes (R34) -/
  | mdpWrite (h : MdpHead) (idx sub size : Nat) (v : WVal)
  /-- INLINE_START: an INLINE_START operation (R36) -/
  | inlineStart (h : MdpHead) (idx sub total crc : Nat)
  /-- INLINE_DATA: an INLINE_DATA operation (R36) -/
  | inlineData (h : MdpHead) (idx sub : Nat) (data : List Byte)
  /-- MDP_CLOSE: a CLOSE from the client with its abort code (R33) -/
  | mdpClose (ses code : Nat)
  /-- SESSION_IDLE_TIMEOUT: `IDLE_TIMEOUT_MS` passed with no accepted REQUEST (R38) -/
  | sessionIdleTimeout (ses : Nat)
  /-- LEASE_RECALL_NOTIFY: 100 ms passed since the last NOTIFY of the recall of lent lease `lease` (R32) -/
  | leaseRecallNotify (lease : Nat)
  /-- ELEVATE: session `ses` writes `ELEVATE` of session `n` (R537) -/
  | elevate (ses n : Nat) (t : Token)
  /-- DROP_LEVEL: session `ses` writes `DROP_LEVEL` of session `n` (R537) -/
  | dropLevel (ses n v : Nat)
  /-- GROUP_COMMIT: session `ses` writes 1 to `COMMIT` at index `g` (R46) -/
  | groupCommit (ses g : Nat)
  /-- GROUP_DISCARD: session `ses` writes 2 to `COMMIT` at index `g` (R50) -/
  | groupDiscard (ses g : Nat)
  /-- GROUP_APPLY: the block of group `g` meets its safe boundary (R47); `g` is the index of the group, plus 65,536 times the furrow for one of a furrow -/
  | groupApply (g : Nat)
  /-- STORE_PARAMETERS: a write of 0x1010:sub (R51) -/
  | storeParameters (ses sub sig : Nat)
  /-- RESTORE_DEFAULT_PARAMETERS: a write of 0x1011:sub (R51) -/
  | restoreDefaultParameters (ses sub sig : Nat)
  /-- SLOT_CLAIM: session `ses` writes FILLING to an IDLE slot (R55) -/
  | slotClaim (ses n : Nat)
  /-- SLOT_DISCARD: session `ses` writes IDLE to a FILLING slot (R55) -/
  | slotDiscard (ses n : Nat)
  /-- SLOT_POST: session `ses` writes POSTED (R58) (R55) -/
  | slotPost (ses n : Nat)
  /-- SLOT_ABANDON: session `ses` writes ABANDONED (R60) (R55) -/
  | slotAbandon (ses n : Nat)
  /-- SLOT_REUSE: session `ses` writes FILLING to a DONE slot (R55) -/
  | slotReuse (ses n : Nat)
  /-- SLOT_RELEASE: session `ses` writes IDLE to a DONE or ABANDONED slot (R55) -/
  | slotRelease (ses n : Nat)
  /-- MSIX_HOLDOFF_EXPIRY: the holdoff of vector `v` ends (R63) -/
  | msixHoldoffExpiry (v : Nat)
  /-- EVENT_ACK: a write of `EVENT_ACK` (R68) -/
  | eventAck (ses v : Nat)
  -- Arithmetic and fields
  /-- ARITH_CLEAR: a write of `ARITH_CLEAR` (R86) -/
  | arithClear (ses v : Nat)
  /-- ENGINE_PASS_DRAIN: a pass of job `job` ends with its drain (R114) -/
  | enginePassDrain (job : Nat) (p : Pass)
  /-- LAB_MISS_FILL: a walker of the field looks an entry up for a job and reads it where its buffer does not hold it; `bad`: its CHECK fails (R250, R251) -/
  | labMissFill (field job seq entry : Nat) (bad : Bool)
  /-- ENGINE_STEP_TIMEOUT: a step of the engine does not complete within 10 µs (R120) -/
  | engineStepTimeout (field engine : Nat) (job : Option Nat)
  /-- ENGINE_FAULT: an engine fault with its DETAIL; `job`: the job whose logical engine it carried; `line`: with DETAIL 0x0302 the 64-byte line of the store (R140, R141) -/
  | engineFault (field engine detail line : Nat) (job : Option Nat)
  /-- FIELD_FAULT: a fault of a unit of the field other than an engine (R139) -/
  | fieldFault (field : Nat)
  /-- BARRIER_ARRIVAL: a participant of job `job` arrives at its `b`-th declared barrier, with `owed` Drill writes to LPDDR4X issued before and not complete (R135, R136) -/
  | barrierArrival (job b owed : Nat)
  /-- FALLOW_REQUEST_PUT: a write of 1 to `FALLOW_REQUEST` (R144, R148) -/
  | fallowRequestPut (ses field : Nat)
  /-- FALLOW_REQUEST_RETURN: a write of 2 to `FALLOW_REQUEST` (R145, R148) -/
  | fallowRequestReturn (ses field : Nat)
  /-- SPARE_FIELD_READY: the spare field being brought up is ready (R144) -/
  | spareFieldReady (field : Nat)
  /-- JOB_STATE_INSTALLED: a paused job's state is installed on the replacement field (R144) -/
  | jobStateInstalled (job : Nat)
  /-- FIELD_SELFTEST_DONE: a field's self-test ends: the mask of engines found bad, the lines of the store found in failing rows (R125, R145, R443) -/
  | fieldSelftestDone (field badEngines : Nat) (rows : List Nat) (pass : Bool)
  /-- FLIT_REPLAY: the flit held for replay on the link is sent again; `ok`: it arrives whole (R133) -/
  | flitReplay (router dir : Nat) (ok : Bool)
  /-- SCRUB_GRANULE: scrub takes one 64-byte granule of the field (R146); `unc`: 0 no uncorrectable error, 1 in a store word with a copy elsewhere, 2 in the slate of `engine`, 3 in a store word without one; `line`: the granule of the store; `busy`: foreground work waits there (R179) -/
  | scrubGranule (field engine line unc : Nat) (job : Option Nat) (corrected passEnd late busy : Bool)
  /-- CALIBRATION_STEP: calibration takes one 256 ns step of the engine (R146, R147) -/
  | calibrationStep (field engine : Nat)
  /-- TELEMETRY_RECORD: a telemetry record is sent; `busy`: foreground work waits there (R146, R179) -/
  | telemetryRecord (field : Nat) (busy : Bool)
  /-- BACKGROUND_OVERDUE: background activity `act` of R179 made no progress on the unit for its overdue period -/
  | backgroundOverdue (act unit : Nat)
  -- Memory tiers
  /-- GLEANER_GRANULE: the Gleaner takes the 64-byte granule at module address `addr`; `busy`: foreground work waits for the channel (R179, R180) -/
  | gleanerGranule (addr row : Nat) (corrected uncorrectable passEnd late busy : Bool)
  /-- PER_BANK_REFRESH: a per-bank refresh of one bank (R181) -/
  | perBankRefresh (ch bank : Nat)
  /-- ZQ_CALIBRATION: a ZQ calibration window of the channel; `wait`: the longest wait it gave foreground work, ns (R182) -/
  | zqCalibration (ch wait : Nat)
  /-- DQS_TRACKING: a DQS tracking window with its MR4 read: the refresh multiple the code asks for (R181, R182) -/
  | dqsTracking (ch mult wait : Nat)
  /-- CATCHUP_REFRESH: an all-bank catch-up refresh window (R182) -/
  | catchupRefresh (ch wait : Nat)
  /-- DRILL_MOVE_DONE: a Drill tile move completes (R163) -/
  | drillMoveDone (m : Move)
  /-- SEED_REBUILD: the Surveyor rebuilds a tile's home, or its replica, in places it chose (R174, R175) -/
  | seedRebuild (tile : Nat) (home replica : Option Home)
  /-- HOST_COMPLETION_TIMEOUT: a host read of the job gets no completion in time (R178, R469) -/
  | hostCompletionTimeout (job : Nat)
  /-- SURVEYOR_PERIOD: a Surveyor period ends with these tier decisions (R172) -/
  | surveyorPeriod (ds : List TierMove)
  /-- MIGRATION_SWITCH: a migration's copy is complete; `verified`: its CHECK verifies at the destination; `busy`: foreground work waits (R171, R179) -/
  | migrationSwitch (tile : Nat) (verified busy : Bool)
  /-- MIGRATION_RETRY: the back-off or the quiet wait of an aborted migration ends (R171) -/
  | migrationRetry (tile : Nat)
  /-- RETIRE_REQUEST: a write of `RETIRE_REQUEST` (R186, R191) -/
  | retireRequest (ses ch v : Nat)
  /-- STRIPE_SWITCH: the next `stripes` stripes of a retiring channel switch to the relocated mapping (R186) -/
  | stripeSwitch (ch stripes : Nat)
  /-- CHANNEL_DEAD: a channel stops answering (R185, R189) -/
  | channelDead (ch : Nat)
  /-- LEASE_REQUEST: a write of `LEASE_REQUEST_MIB`; queue pair, key and base that the firmware gives the lease (R165) -/
  | leaseRequest (ses mib qpn rkey base : Nat)
  /-- LEASE_RELEASE: a write of `LEASE_RELEASE` -/
  | leaseRelease (ses lease : Nat)
  /-- LEASE_RECALL: policy recalls `slots` slots of a lent lease (R169) -/
  | leaseRecall (lease slots : Nat)
  /-- RECALL_NOTICE_EXPIRY: the recall notice of a lent lease, or of borrowed lease n, runs out (R169) -/
  | recallNoticeExpiry (lease : Nat) (lent : Bool)
  /-- PEER_LENDER_LOST: the lender of borrowed lease n resets or loses power (R169) -/
  | peerLenderLost (n : Nat)
  /-- PEER_ACCESS_DONE: a peer access completes (R166, R167) -/
  | peerAccessDone (n tile : Nat) (write authOk : Bool) (job : Option Nat)
  /-- PEER_ACCESS_TIMEOUT: a peer access is not complete within `PEER_TIMEOUT_US` (R168) -/
  | peerAccessTimeout (n tile : Nat) (job : Option Nat)
  -- Timetable
  /-- CONTEXT_OPEN: a write of 1 to `CTX_STATE` (R193) -/
  | contextOpen (ses n : Nat)
  /-- CONTEXT_CLOSE: a write of 0 to `CTX_STATE` (R197) -/
  | contextClose (ses n : Nat)
  /-- CTX_CLEAR: a write of `CTX_CLEAR` -/
  | ctxClear (ses n v : Nat)
  /-- JOB_DISPATCH: the Surveyor offers fields to a ready job (R201); `host`: what the buffers of a request’s arguments hold, under slot × 32 + argument (R54); `rows`: the lengths table of an attention job (R244) -/
  | jobDispatch (job : Nat) (place : List Nat) (host : List (Nat × List Byte)) (rows : List LenRow)
  /-- GRANT_RETRY: a job left waiting for power asks again after its back-off (R205) -/
  | grantRetry (job : Nat)
  /-- JOB_YIELD_POINT: a native job reaches a yield point (R217); `steps`: the whole steps of a stream chunk so far (R274) -/
  | jobYieldPoint (job : Nat) (steps : List (List CarryStep))
  /-- JOB_SAVE_DONE: a pausing job's state is saved (R217, R219) -/
  | jobSaveDone (job : Nat)
  /-- JOB_RESUME: the Surveyor offers fields to a paused job (R218) -/
  | jobResume (job : Nat) (place : List Nat)
  /-- JOB_END: a running job ends with what it produced (R200) -/
  | jobEnd (job : Nat) (r : JobResult)
  /-- FURROW_ARM: a write of 1 to `FURROW_COMMAND` of the selected furrow (R213) -/
  | furrowArm (ses : Nat)
  /-- FURROW_STOP: a write of 2 to `FURROW_COMMAND` (R213) -/
  | furrowStop (ses : Nat)
  /-- FURROW_CLEAR: a write of 3 to `FURROW_COMMAND` (R213) -/
  | furrowClear (ses : Nat)
  /-- FURROW_TRIGGER: a trigger with its time of validity reaches a furrow (R210) -/
  | furrowTrigger (f tov tovFrac : Nat) (revised : Bool)
  /-- TICK_TRIGGER: device time reaches `TRIGGER_PHASE_NS` + k × `TRIGGER_PERIOD_NS` of a kind 2 furrow (R209) -/
  | tickTrigger (f k : Nat)
  /-- SEMAPHORE_ACQUIRE: a job acquires the unit's semaphore of that rank (R221) -/
  | semaphoreAcquire (job rank timeoutUs : Nat) (noLimit : Bool)
  /-- SEMAPHORE_RELEASE: a job releases a unit of the semaphore (R221) -/
  | semaphoreRelease (job rank : Nat)
  /-- SEMAPHORE_TIMEOUT: the timeout of a waiting acquire expires (R221) -/
  | semaphoreTimeout (job : Nat)
  /-- BLOCK_REPORT: a job has waited longer than `BLOCK_REPORT_MS` on one semaphore or barrier (R233) -/
  | blockReport (job : Nat)
  /-- ENERGY_INTERVAL: a 10 µs interval ends with the energy that a field or a memory group measured, in µJ (R229) -/
  | energyInterval (dom uj : Nat)
  -- Safety island
  /-- SAFETY_TICK: a safety tick: the outputs of cores 0 to 3 (R394, R395; none: no output within 1 µs), the time the tasks took, whether the time base monitor finds a fault (true) or has agreed for 1 s (false) -/
  | safetyTick (outs : List (Option Nat)) (taskUs : Nat) (monitor : Option Bool)
  /-- RESYNC_DONE: the resynchronisation of the odd core completes after `ns` (R396) -/
  | resyncDone (ns : Nat)
  /-- SAFETY_INPUT_CHANGE: the filtered safety inputs become closed (true) or open (R402) -/
  | safetyInputChange (a b : Bool)
  /-- SAFE_HOLD_N_CHANGE: the filtered SAFE_HOLD_N line: whether another party holds it low (R403) -/
  | safeHoldNChange (othersLow : Bool)
  /-- OUTPUT_TEST_PULSE: a test pulse of a safety output begins or ends (R401) -/
  | outputTestPulse (ch : Nat) (low : Bool)
  /-- READBACK_FAULT: a readback differs from the commanded level for more than 50 µs (R401) -/
  | readbackFault (ch : Nat)
  /-- SAFETY_ACK: a write of `SAFETY_ACK` (R400) -/
  | safetyAck (ses v : Nat)
  /-- OUTPUTS_ENABLE: a write of `OUTPUTS_ENABLE` (R400) -/
  | outputsEnable (ses v : Nat)
  /-- SAFE_HOLD_REQUEST: a write of `SAFE_HOLD_REQUEST` (R398) -/
  | safeHoldRequest (ses v : Nat)
  /-- E2E_WINDOW_END: an `E2E_WINDOW_MS` of a source or output ends (R408) -/
  | e2eWindowEnd (source : Nat)
  /-- CHECK_UNIT_RUN: the period of a check-value unit ends; the bytes it reads and, for kind 4, the CRC recorded for the program image whose turn it is, if there is one (R410) -/
  | checkUnitRun (n : Nat) (data : List Byte) (image : Option Nat)
  /-- CV_RUN: a write of `CV_RUN` (R410) -/
  | cvRun (ses n v : Nat) (data : List Byte) (image : Option Nat)
  /-- QUIZ_SLICE_START: a gap: the Quiz starts a slice of a checker, on an engine of a field where it is a field-side slice, or defers it if a safety task is ready (R411, R412) -/
  | quizSliceStart (checker slice : Nat) (taskReady : Bool) (unit : Option (Nat × Nat))
  /-- QUIZ_SLICE_DONE: the slice in progress ends; `flagged`: the checker flagged the injected fault (R413); the sensor a slice of checker 10 tests (R433) -/
  | quizSliceDone (flagged : Bool) (sensor : Nat)
  /-- DIAG_INTERVAL_EXPIRY: a `DIAG_INTERVAL_MS` elapses without a completed pass (R413) -/
  | diagIntervalExpiry (checker : Nat)
  -- Power and thermal
  /-- RAIL_INCREMENT: 2 µs passed: the rail of a domain in a step moves one increment (R418, R429) -/
  | railIncrement (d : Nat)
  /-- DROOP_DETECT: a droop detector of the domain stretches (R430) -/
  | droopDetect (d : Nat)
  /-- DROOP_CLEAR: the supply has held above the threshold for 50 ns (R430) -/
  | droopClear (d : Nat)
  /-- STEP_RESUME: 2 µs passed since the droop cleared (R431) -/
  | stepResume (d : Nat)
  /-- STEP_HOLDOFF_END: the hold-off after an abandoned step ends (R431) -/
  | stepHoldoffEnd (d : Nat)
  /-- POWER_SAMPLE: `ms` milliseconds at an average input power and an input voltage, with the power measured on domains (R423) -/
  | powerSample (mw mv ms : Nat) (doms : List (Nat × Nat))
  /-- PHASE_RETIRE: a regulator phase departs from the mean for 1 ms (R417) -/
  | phaseRetire (n : Nat)
  /-- IDLE_GATE: a domain has met its gating condition for its time (R415) -/
  | idleGate (d : Nat)
  /-- DOMAIN_WAKE_DONE: a waking domain is ready (R415) -/
  | domainWakeDone (d : Nat)
  /-- DOM_SET_MV: a write of `DOM_SET_MV` (R432) -/
  | domSetMv (ses d mv : Nat)
  /-- BUDGET_W: a write of `BUDGET_W`, `HOST_LIMIT_EN` or `HOST_LIMIT_W` (0x2E80:03 to 05, R421) -/
  | budgetW (ses sub v : Nat)
  /-- THERMAL_WARNING: a junction sensor reads 100 °C or more, in tenths of a degree (R435) -/
  | thermalWarning (sensor : Nat) (temp : Int)
  /-- THERMAL_STEP_TICK: 100 µs passed: the readings of the junction sensors, and of the hottest regulator (R433, R435) -/
  | thermalStepTick (temps : List (Nat × Int)) (vr : Option Int)
  /-- OVERCURRENT_TRIP: input current above 250 W ÷ V for 1 µs (R436) -/
  | overcurrentTrip (mw mv : Nat)
  /-- JUNCTION_TRIP: a junction sensor at 115 °C or more for 10 µs (R436) -/
  | junctionTrip (sensor : Nat) (temp : Int)
  /-- COLD_PLATE_TEMPERATURE_CHANGE: the cold plate reads `temp` tenths of a degree (R422) -/
  | coldPlateTemperatureChange (temp : Int)
  /-- FULL_SAVE_MIN_RUN_ELAPSED: a resumed full-save job has run for `FULL_SAVE_MIN_RUN_US` (R218) -/
  | fullSaveMinRunElapsed (job : Nat)
  /-- PHASE_BOUNDARY: a running job reaches the boundary of its declared phase (R428) -/
  | phaseBoundary (job phase : Nat)
  /-- JUNCTION_SHUTDOWN: a junction sensor at 120 °C or more (R436) -/
  | junctionShutdown (sensor : Nat) (temp : Int)
  /-- INPUT_VOLTAGE_TRIP: V_in below 38 V or above 60 V for 100 µs (R436) -/
  | inputVoltageTrip (mw mv : Nat)
  /-- TILE_NUMBER_ALLOCATION: a job frees tile numbers and allocates `n` (R159) -/
  | tileNumberAllocation (job n : Nat) (freed : List Nat)
  /-- LENT_SLOT_RDMA_ACCESS: an RDMA READ, or a WRITE of 4,160 bytes, of a slot of a lent lease arrives (R166) -/
  | lentSlotRdmaAccess (lease slot : Nat) (write : Option (List Byte))
  -- Sequences
  /-- SEQ_OPEN: EDIT_OP 1 (R256) -/
  | seqOpen (e : Editor)
  /-- SEQ_WRITE_ENTRY: EDIT_OP 2 (R257) -/
  | seqWriteEntry (e : Editor)
  /-- SEQ_SET_LENGTH: EDIT_OP 3 (R257) -/
  | seqSetLength (e : Editor)
  /-- SEQ_CLOSE: EDIT_OP 4 (R258) -/
  | seqClose (e : Editor)
  /-- EDIT_APPLY_TIMEOUT: the timeout that a job declared for its deferred edit runs out (R259) -/
  | editApplyTimeout (job : Nat)
  -- Streams
  /-- STREAM_START: a write of 1 to `STREAM_COMMAND` of stream `n` (R279) -/
  | streamStart (ses n : Nat)
  /-- STREAM_PAUSE: a write of 2 to `STREAM_COMMAND` of stream `n` (R279) -/
  | streamPause (ses n : Nat)
  /-- STREAM_RESUME: a write of 3 to `STREAM_COMMAND` of stream `n` (R279) -/
  | streamResume (ses n : Nat)
  /-- STREAM_RESET: a write of 4 to `STREAM_COMMAND` of stream `n` (R279) -/
  | streamReset (ses n : Nat)
  /-- STREAM_END: a write of 5 to `STREAM_COMMAND` of stream `n` (R279) -/
  | streamEnd (ses n : Nat)
  /-- STREAM_CHECKPOINT: a write of 6 to `STREAM_COMMAND` of stream `n` (R279) -/
  | streamCheckpoint (ses n : Nat)
  /-- STREAM_RESTORE: a write of 7 to `STREAM_COMMAND` of stream `n` (R279) -/
  | streamRestore (ses n : Nat)
  /-- STREAM_EVICT: a write of 8 to `STREAM_COMMAND` of stream `n` (R279) -/
  | streamEvict (ses n : Nat)
  /-- STREAM_SWAP_OUT: the Surveyor takes a STORE stream's granules (R275) -/
  | streamSwapOut (n : Nat)
  /-- STREAM_SWAP_IN: the Drill swaps a stream's state into granules of a field (R275) -/
  | streamSwapIn (n field : Nat)
  -- Sieve and planner
  /-- SIEVE_SLICE: a slice of `ns` nanoseconds of a Sieve operation; `last`: it completes, with what it read (R300) -/
  | sieveSlice (job ns : Nat) (last : Option SieveData)
  /-- MAP_BATCH_COMMIT: a job commits an update batch with its ToV (R347) -/
  | mapBatchCommit (job tov : Nat) (ops : List MapOp)
  /-- PLANNER_SLICE: a slice of a planning run, with the brick buffer misses it met (R364) -/
  | plannerSlice (job misses : Nat) (step : PlanStep)
  /-- SPHERE_QUERY: the planner answers a sphere query: centres and radii as FP32 codes (R356) -/
  | sphereQuery (job : Nat) (spheres : List (Nat × Nat × Nat × Nat)) (outs : List (Nat × List Byte))
  /-- SEGMENT_QUERY: the planner answers a segment query: pairs of configurations (R356) -/
  | segmentQuery (job : Nat) (pairs : List (List Nat × List Nat)) (outs : List (Nat × List Byte))
  /-- MAP_CLEAR: a write of `MAP_CLEAR` (R346) -/
  | mapClear (ses v : Nat)
  /-- ROADMAP_CLEAR: a write of `ROADMAP_CLEAR` (R360) -/
  | roadmapClear (ses n v : Nat)
  -- Time base and fusion
  /-- PTP_MESSAGE: a message of the PTP (1) or EtherCAT (2) source: its time in ns, and the rates in ppb that the discipline comes to: what it has learnt, and the slew beside it (R312, R313) -/
  | ptpMessage (kind : Nat) (t learnt slew : Int)
  /-- TB_SET: a write of `TB_SET` (R312) -/
  | tbSet (ses v : Nat)
  /-- TIME_NOW_READ: a read of `TIME_NOW` (R311) -/
  | timeNowRead (ses : Nat)
  /-- TRIGGER_EDGE: a trigger output reaches its next edge (R316) -/
  | triggerEdge (n : Nat)
  /-- CAPTURE_EDGE: a level change at a capture input, with its stamp, and how long the new level holds (R320) -/
  | captureEdge (n ns frac held : Nat) (rising lost : Bool) (learnt slew : Int)
  /-- CAP_READ: a read of `CAP_READ` (R321) -/
  | capRead (ses n : Nat)
  /-- FUSION_SAMPLE_ARRIVAL: a sample of a source arrives for fusion: its header, its payload, and what that spells (R324) -/
  | fusionSampleArrival (src : Nat) (header payload : List Byte) (m : Meas)
  /-- FUSION_INPUT_RELEASE: device time has passed an input's ToV + `ALIGN_DELAY_NS`: the filter processes it (R330) -/
  | fusionInputRelease (n : Nat) (crcBad : List Nat)
  /-- PERIODIC_PUBLICATION: an output reaches ToV `k` × `OUT_PERIOD_NS` (R335) -/
  | periodicPublication (o k : Nat) (crcBad : Bool)
  /-- FILTER_START: a write of 1 to `FILTER_COMMAND` -/
  | filterStart (ses n : Nat)
  /-- FILTER_STOP: a write of 2 to `FILTER_COMMAND` -/
  | filterStop (ses n : Nat)
  /-- FILTER_RESET: a write of 3 to `FILTER_COMMAND` -/
  | filterReset (ses n : Nat)
  /-- PROGRAM_MEASUREMENT: a job publishes a measurement of a program source (R341) -/
  | programMeasurement (job src tov frac : Nat) (m : Meas)
  -- Control
  /-- CONTROL_SAMPLE_ARRIVAL: the sample that a channel's source delivered last reaches its unit: the measured time to departure, and a failed end-to-end check (R376) -/
  | controlSampleArrival (ch lat : Nat) (e2e : Option (Nat × Nat × Nat))
  /-- BACKGROUND_UPDATE_DONE: a background unit completes what is due for a channel (R376) -/
  | backgroundUpdateDone (ch : Nat)
  /-- SAMPLE_MISSED: sample `k` of a channel has not arrived by its source instant plus `MISS_AFTER_NS` (R383) -/
  | sampleMissed (ch k lat : Nat)
  /-- REF_GO: a write of 1 to `REF_GO` (R389) -/
  | refGo (ses ch : Nat)
  /-- JOB_REFERENCE_WRITE: a job writes a reference: FP32 codes and a ToV (R390) -/
  | jobReferenceWrite (job ch tov : Nat) (vals : List Nat)
  /-- CH_START: a write of 1 to `CH_COMMAND` (R393) -/
  | chStart (ses ch : Nat)
  /-- CH_STOP: a write of 2 to `CH_COMMAND` (R393) -/
  | chStop (ses ch : Nat)
  /-- CH_CLEAR: a write of 3 to `CH_COMMAND` (R393) -/
  | chClear (ses ch : Nat)
  -- Links
  /-- ECAT_SYNC0: SYNC0 of cycle `k` of a line falls (R482) -/
  | ecatSync0 (line k : Nat)
  /-- ECAT_INPUT_LAUNCH: the input frames of the line's cycle leave (R482) -/
  | ecatInputLaunch (line : Nat)
  /-- ECAT_INPUT_FRAME: an input frame of cycle `k` returns (R483) -/
  | ecatInputFrame (line k : Nat) (image : List Byte) (fcsOk wkcOk : Bool)
  /-- ECAT_RING_CHANGE: the ring breaks, is repaired or loses a slave: the line's state, its ring delay, the slaves found (R485) -/
  | ecatRingChange (line st delay found : Nat)
  /-- ECAT_LINE_PROBE: a LOST line is probed; `answer`: every configured slave answers (R485) -/
  | ecatLineProbe (line found st delay : Nat) (answer : Bool)
  /-- PCIE_LINK_CHANGE: the PCIe link, Bus Master Enable or D3hot changes (R470) -/
  | pcieLinkChange (l0 bme d3 : Bool) (rate width aerC aerU : Nat) (jobs : List Nat)
  /-- ETH_LANE_RETIRE_AUTO: a lane is retired for its bit errors (0) or its training failures (1) (R474) -/
  | ethLaneRetireAuto (lane cause : Nat)
  /-- LANE_RETIRE: a write of `LANE_RETIRE` (R474) -/
  | laneRetire (ses port k : Nat)
  /-- ROCE_ACK_TIMEOUT: a queue pair's request gets no ACK in time; `jobs`: those with a collective on it (R477) -/
  | roceAckTimeout (qp : Nat) (jobs : List Nat)
  /-- COLLECTIVE_EXCHANGE: a collective exchange arrives from a neighbour (R480) -/
  | collectiveExchange (job : Nat) (x : Exchange)
  /-- COLLECTIVE_TIMEOUT: no progress from a neighbour for `COLL_TIMEOUT_US` (R480) -/
  | collectiveTimeout (job : Nat)
  /-- CSI_FRAME_START: a frame-start packet; `hdr`: 0 whole, 1 corrected, 2 not to be corrected (R322) -/
  | csiFrameStart (port vc num hdr : Nat)
  /-- CSI_LINE_PACKET: a long packet with a line (R491) -/
  | csiLinePacket (port vc dt hdr : Nat) (crcOk : Bool) (data : List Byte)
  /-- CSI_FRAME_END: a frame-end packet (R492) -/
  | csiFrameEnd (port vc hdr : Nat)
  /-- CSI_FRAME_TIMEOUT: no frame end within `CSI_FRAME_TIMEOUT_US` (R491) -/
  | csiFrameTimeout (port : Nat)
  /-- SPI_SAMPLE_TRANSFER: a role 0 transfer starts, the `k`-th of its schedule or at a capture edge (R495) -/
  | spiSampleTransfer (port k : Nat) (edge : Bool)
  /-- SPI_TRANSFER_END: a transfer ends with the bytes received (R370) -/
  | spiTransferEnd (port : Nat) (bytes : List Byte)
  /-- VIO_OUT_OF_RANGE: the supply of an SPI bank leaves its range (R528) -/
  | vioOutOfRange (port mv : Nat)
  /-- ETH_PORT_LINK_CHANGE: an Ethernet port's link comes up at a rate, or goes down (R498) -/
  | ethPortLinkChange (port rate : Nat)
  /-- SLAVE_LINK_RETURN: the slave port's link comes back up (R489) -/
  | slaveLinkReturn (station : Nat)
  /-- VIO_BACK_IN_RANGE: the supply of an SPI bank is back in its range (R528) -/
  | vioBackInRange (port mv : Nat)
  /-- ARP_OR_ICMP_ECHO_REQUEST: an ARP or ICMP echo request arrives, with the answer to it (R475) -/
  | arpOrIcmpEchoRequest (port : Nat) (reply : List Byte)
  -- Power-up, resets, device states
  /-- POWER_ON: the input rises into its range; the straps SMB_ADDR and PCIE_REFCLK_SEL (R508) -/
  | powerOn (addr : Nat) (refclk : Bool) (mv : Nat)
  /-- SHUTDOWN_RESTART: the conditions of a restart after a shutdown have come together, with the input at `mv` (R539) -/
  | shutdownRestart (mv : Nat)
  /-- RESET_N_PULSE: RESET_N has been low for `ns`; `stays`: it stays low (R445, R510) -/
  | resetNPulse (ns : Nat) (stays : Bool)
  /-- IDENTITY_RECONSTRUCTED: the seed is recovered and checked against the certificate in flash (R448) -/
  | identityReconstructed (ok : Bool) (cert : List Byte) (issuers : List (List Byte))
  /-- IMAGE_VERIFY: the ROM verifies the slots of a kind (R452): what they hold, and whether the one it takes fails during boot -/
  | imageVerify (kind : Nat) (s0 s1 : Option Img) (fails : Bool)
  /-- LPDDR_TRAINING_DONE: training completes: channels that failed it, rows repaired (R184, R443) -/
  | lpddrTrainingDone (ns : Nat) (failed : List Nat) (repaired : List (Nat × Nat × Nat))
  /-- INIT_COMPLETE: boot chain, training and island self-test are complete; the cores that failed the self-test (R440) -/
  | initComplete (bad : List Nat)
  /-- CMD_OPERATIONAL: a write of 1 to `DEVICE_COMMAND` (R440, R445) -/
  | cmdOperational (ses : Nat)
  /-- CMD_PRE_OPERATIONAL: a write of 2 to `DEVICE_COMMAND` (R440, R445) -/
  | cmdPreOperational (ses : Nat)
  /-- CMD_SERVICE: a write of 3 to `DEVICE_COMMAND` (R440, R445) -/
  | cmdService (ses : Nat)
  /-- CMD_LEAVE_SERVICE: a write of 4 to `DEVICE_COMMAND` (R440, R445) -/
  | cmdLeaveService (ses : Nat)
  /-- CMD_WARM_RESET: a write of 5 to `DEVICE_COMMAND` (R440, R445) -/
  | cmdWarmReset (ses : Nat)
  /-- CMD_COLD_RESET: a write of 6 to `DEVICE_COMMAND` (R440, R445) -/
  | cmdColdReset (ses : Nat)
  /-- AL_STATE_REQUEST: the EtherCAT master requests an AL state (R488) -/
  | alStateRequest (al : Nat)
  -- Images, policy firmware, programs
  /-- IMG_WRITE: a write of `IMG_WRITE` (R454) -/
  | imgWrite (ses kind : Nat) (v : WVal)
  /-- IMAGE_WRITE_VERIFIED: the image is in flash and is verified; what a settings image holds (R454) -/
  | imageWriteVerified (sigOk chainOk : Bool) (vals : List (Nat × Nat)) (blobs : List (Nat × List Byte))
  /-- IMG_ACTIVATE: a write of `IMG_ACTIVATE` (R452, R461) -/
  | imgActivate (ses kind v : Nat)
  /-- IMG_COUNTER_COMMIT: a write of `IMG_COUNTER_COMMIT` (R453) -/
  | imgCounterCommit (ses kind v : Nat)
  /-- PROG_IMAGE: a write of `PROG_IMAGE` (R462) -/
  | progImage (ses : Nat) (v : WVal)
  /-- PROG_LOAD_DONE: the checks of a load of session `ses` (16: of one that has closed): signature and chain of a signed unit, and its declarations as far as the Timetable accepts them (R462) -/
  | progLoadDone (ses : Nat) (sigOk chainOk : Bool) (decl : Option UnitDecl)
  /-- PROG_UNLOAD: a write of `PROG_UNLOAD` (R463) -/
  | progUnload (ses h : Nat)
  /-- PROG_COUNTER_COMMIT: a write of `PROG_COUNTER_COMMIT` (R453) -/
  | progCounterCommit (ses v : Nat)
  -- Attestation, tokens, debug
  /-- ATTEST_GO: a write of `ATTEST_GO` (R455) -/
  | attestGo (ses v : Nat)
  /-- ATTEST_REPORT_READY: the report is signed (R455) -/
  | attestReportReady (ses : Nat)
  /-- AUTH_CHALLENGE: a read of `AUTH_CHALLENGE` (R457) -/
  | authChallenge (ses : Nat)
  /-- DEBUG_TOKEN: a write of `DEBUG_TOKEN` (R457, R459) -/
  | debugToken (ses : Nat) (t : Token)
  /-- DEBUG_END: a write of `DEBUG_END` (R459) -/
  | debugEnd (ses v : Nat)
  /-- TOKEN_LIFETIME_EXPIRY: the lifetime of an elevation or debug token ends (R458) -/
  | tokenLifetimeExpiry (ses : Nat) (debug : Bool)
  -- Module hardware, management port, boundary scan
  /-- SENSE_INVALID: sense and blade voltage (mV) have differed by more than 2 V for 10 ms (R503) -/
  | senseInvalid (sense blade : Nat)
  /-- SENSE_VALID_RETURN: sense and blade voltage agree again (R503) -/
  | senseValidReturn (sense blade : Nat)
  /-- MFR_PIN_LIMIT: PMBus MFR_PIN_LIMIT: a write of `w`, or a read (R519, R520) -/
  | mfrPinLimit (w : Option Nat)
  /-- MFR_PIN_LIMIT_EN: PMBus MFR_PIN_LIMIT_EN: a write of `w`, or a read (R519, R520) -/
  | mfrPinLimitEn (w : Option Nat)
  /-- PMBUS_UNSUPPORTED_COMMAND: a PMBus command that the table does not list (R520) -/
  | pmbusUnsupportedCommand (code : Nat)
  /-- UART_RX_CHARACTER: a character arrives on the console (R521) -/
  | uartRxCharacter (ch : Byte)
  /-- TEST_EN_CHANGE: the filtered TEST_EN level changes (R522) -/
  | testEnChange (level : Bool)
  /-- EXTEST: the TAP updates instruction EXTEST and shifts `din` through its data register; `cap`: the levels that the input cells see (R522 to R527) -/
  | extest (din cap : Nat)
  /-- SAMPLE_PRELOAD: the TAP updates instruction SAMPLE_PRELOAD and shifts `din` through its data register; `cap`: the levels that the input cells see (R522 to R527) -/
  | samplePreload (din cap : Nat)
  /-- EXTEST_PULSE: the TAP updates instruction EXTEST_PULSE and shifts `din` through its data register; `cap`: the levels that the input cells see (R522 to R527) -/
  | extestPulse (din cap : Nat)
  /-- EXTEST_TRAIN: the TAP updates instruction EXTEST_TRAIN and shifts `din` through its data register; `cap`: the levels that the input cells see (R522 to R527) -/
  | extestTrain (din cap : Nat)
  /-- IDCODE: the TAP updates instruction IDCODE and shifts `din` through its data register; `cap`: the levels that the input cells see (R522 to R527) -/
  | idcode (din cap : Nat)
  /-- CLAMP: the TAP updates instruction CLAMP and shifts `din` through its data register; `cap`: the levels that the input cells see (R522 to R527) -/
  | clamp (din cap : Nat)
  /-- HIGHZ: the TAP updates instruction HIGHZ and shifts `din` through its data register; `cap`: the levels that the input cells see (R522 to R527) -/
  | highz (din cap : Nat)
  /-- BYPASS: the TAP updates instruction BYPASS and shifts `din` through its data register; `cap`: the levels that the input cells see (R522 to R527) -/
  | bypass (din cap : Nat)
  -- The commands without operands come last: Lean can build a constructor with operands only up to number 244
  -- Dictionary, sessions, request slots, event log
  /-- EVENT_FLASH_COPY: the next Error or Safety event is copied to the flash ring (R66) -/
  | eventFlashCopy
  -- Arithmetic and fields
  /-- START_WAVE_SLOT: the next slot of the start wave begins (R137) -/
  | startWaveSlot
  -- Timetable
  /-- FLOOR_WINDOW_END: a window of `FLOOR_WINDOW_MS` ends (R203) -/
  | floorWindowEnd
  -- Safety island
  /-- RESYNC_TIMEOUT: the resynchronisation is not complete within 80 µs (R397) -/
  | resyncTimeout
  /-- DISCREPANCY_TIMEOUT: exactly one input channel has been open for longer than `DISCREPANCY_MS` (R402) -/
  | discrepancyTimeout
  -- Power and thermal
  /-- INPUT_POWER_CLAMP: the average stayed above 180 W for 40 ms (R437) -/
  | inputPowerClamp
  /-- CLAMP_RELEASE: the average stayed below 170 W for 1 ms (R437) -/
  | clampRelease
  /-- OVERCURRENT_CLEAR: input below 180 W for 100 ms (R436) -/
  | overcurrentClear
  /-- JUNCTION_TRIP_CLEAR: every sensor below 95 °C (R436) -/
  | junctionTripClear
  -- Time base and fusion
  /-- SOURCE_TIMEOUT: `SOURCE_TIMEOUT_MS` passed with no source message (R313) -/
  | sourceTimeout
  -- Links
  /-- FUNCTION_LEVEL_RESET: a Function Level Reset or hot reset (R471) -/
  | functionLevelReset
  /-- PERST_RELEASE: PCIE_PERST_N is released (R472) -/
  | perstRelease
  /-- SLAVE_LINK_LOSS: the EtherCAT slave port's link goes down (R489) -/
  | slaveLinkLoss
  -- Power-up, resets, device states
  /-- POWER_LOSS: the input has fallen below 38 V and the hold-up ends (R511) -/
  | powerLoss
  /-- POWER_GOOD_RISE: PWR_GOOD rises (R508) -/
  | powerGoodRise
  /-- PWR_GOOD_DRIVEN: the carrier drives PWR_GOOD low (R509) -/
  | pwrGoodDriven
  /-- AUTO_OPERATIONAL: what R538 asks for holds together -/
  | autoOperational
  -- Images, policy firmware, programs
  /-- HANDOVER_POINT: the running policy firmware reaches its handover point, or is stopped (R461) -/
  | handoverPoint
  /-- POLICY_READY: the new policy firmware declares itself ready (R461) -/
  | policyReady
  /-- HANDOVER_READY_TIMEOUT: 30 ms passed since the handover point (R461) -/
  | handoverReadyTimeout
  /-- POLICY_TRIAL_END: 60 s of the trial passed without a watchdog expiry (R461) -/
  | policyTrialEnd
  /-- POLICY_WATCHDOG_EXPIRY: the policy watchdog expires (R446) -/
  | policyWatchdogExpiry
  /-- SETTINGS_STORE_DONE: the flash write of a settings image finishes (R52, R453) -/
  | settingsStoreDone
  -- Module hardware, management port, boundary scan
  /-- CLEAR_FAULTS: PMBus CLEAR_FAULTS (R519) -/
  | clearFaults
  /-- CAPABILITY: PMBus CAPABILITY (R519) -/
  | capability
  /-- STATUS_WORD: PMBus STATUS_WORD (R519) -/
  | statusWord
  /-- STATUS_INPUT: PMBus STATUS_INPUT (R519) -/
  | statusInput
  /-- STATUS_TEMPERATURE: PMBus STATUS_TEMPERATURE (R519) -/
  | statusTemperature
  /-- STATUS_CML: PMBus STATUS_CML (R519) -/
  | statusCml
  /-- READ_VIN: PMBus READ_VIN (R519) -/
  | readVin
  /-- READ_IIN: PMBus READ_IIN (R519) -/
  | readIin
  /-- READ_TEMPERATURE_1: PMBus READ_TEMPERATURE_1 (R519) -/
  | readTemperature1
  /-- READ_TEMPERATURE_2: PMBus READ_TEMPERATURE_2 (R519) -/
  | readTemperature2
  /-- READ_PIN: PMBus READ_PIN (R519) -/
  | readPin
  /-- PMBUS_REVISION: PMBus PMBUS_REVISION (R519) -/
  | pmbusRevision
  /-- MFR_ID: PMBus MFR_ID (R519) -/
  | mfrId
  /-- MFR_MODEL: PMBus MFR_MODEL (R519) -/
  | mfrModel
  /-- MFR_DEVICE_STATE: PMBus MFR_DEVICE_STATE (R519) -/
  | mfrDeviceState
  /-- MFR_ACTIVE_CAUSES: PMBus MFR_ACTIVE_CAUSES (R519) -/
  | mfrActiveCauses
  /-- ALERT_RESPONSE: a read at the SMBus Alert Response Address (R519) -/
  | alertResponse
  /-- TAP_TEST_LOGIC_RESET: the TAP reaches Test-Logic-Reset (R522, R524) -/
  | tapTestLogicReset
  deriving DecidableEq, Repr

end Sys2Proof
end

