-- ==== Sys2Proof/Machine/Lane.lean ====
section
/-! DEFINITION. Who is served next at a bank of a field store, how packets cross the Lane network, and which transfer takes a credit of a path (R121, R124,
R130 to R132, R226). No command of the module brings a request, a flit or a
credit: what arbitration decides is timing alone (log entry 161). -/

namespace Sys2Proof.Machine

/-! ## A bank of a field store (R121, R124) -/

/-- A requester of a bank. -/
inductive Requester where
  | slatePort (p : Nat)
  | drill | vector | harrow | walker | bookLoader | scrub
  deriving DecidableEq, Repr

/-- The slate port of an engine: eight to a port, engines 32 and 33 on port 3. -/
def slatePort (engine : Nat) : Requester := .slatePort (min 3 (engine / 8))

/-- The place of a requester among the ten, in which they take turns. -/
def Requester.turn : Requester → Nat
  | .slatePort p => p
  | .drill => 4
  | .vector => 5
  | .harrow => 6
  | .walker => 7
  | .bookLoader => 8
  | .scrub => 9

/-- A request that waits at a bank: its class, 1 to 3 for C, P and B, and the accesses of the bank it has waited through. -/
structure BankRequest where
  from' : Requester
  cls : Nat
  waited : Nat := 0
  deriving DecidableEq, Repr

/-- How many turns after requester number `last` a request comes. -/
def BankRequest.after (last : Nat) (r : BankRequest) : Nat := (r.from'.turn + 9 - last) % 10

/-- The request that a bank serves in a step, `last` the requester it served before: one that has waited through 256 accesses, else the highest class, in turn; scrub only
where nothing else waits, or where the overdue rule has given it its granule (R146). -/
def bankServes (last : Nat) (scrubDue : Bool) (waiting : List BankRequest) : Option BankRequest :=
  let foreground := waiting.filter (fun r => r.from' != .scrub)
  let first (rs : List BankRequest) : Option BankRequest :=
    (sortBy (fun a b => decide (a.cls < b.cls) || (a.cls == b.cls && decide (a.after last ≤ b.after last))) rs).head?
  match (if scrubDue then waiting.find? (fun r => r.from' == .scrub) else none) with
  | some r => some r
  | none => match (foreground.filter (fun r => decide (256 ≤ r.waited))) with
    | r :: rs => first (r :: rs)
    | [] => match foreground with
      | [] => waiting.head?
      | _ => first foreground

/-- The requests after a step in which one was served. -/
def bankStep (last : Nat) (scrubDue : Bool) (waiting : List BankRequest) : List BankRequest :=
  match bankServes last scrubDue waiting with
  | none => waiting
  | some r => (waiting.erase r).map fun x => { x with waited := x.waited + 1 }

/-! ## The mesh (R130) -/

/-- What stands at one end of a link. -/
inductive Node where
  | field (f : Nat)
  | memory (controller : Nat)
  | west (row : Nat)
  | east (row : Nat)
  deriving DecidableEq, Repr

/-- Row and column of a field's router. -/
def meshRow (f : Nat) : Nat := f / 11
def meshCol (f : Nat) : Nat := f % 11

/-- What lies next to router `f` in direction `d`, 0 to 3 for north, east, south and west (log entry 162): another router, or at an edge the agent that attaches there. -/
def neighbour (f d : Nat) : Option Node :=
  let row := meshRow f
  let col := meshCol f
  match d with
  | 0 => if 0 < row then some (.field (f - 11)) else if 1 ≤ col ∧ col ≤ 8 then some (.memory (col - 1)) else none
  | 1 => if col < 10 then some (.field (f + 1)) else some (.east row)
  | 2 => if row < 5 then some (.field (f + 11)) else if 1 ≤ col ∧ col ≤ 8 then some (.memory (col + 7)) else none
  | 3 => if 0 < col then some (.field (f - 1)) else some (.west row)
  | _ => none

/-- The memory group of a memory controller. -/
def Node.group : Node → Option Nat
  | .memory c => some (c / 4)
  | _ => none

/-! ## Routing and forwarding (R132) -/

/-- The routers a packet passes on its way from field to field: along the row first, then along the column. -/
def route (a b : Nat) : List Nat :=
  let line (n x y : Nat) (f : Nat → Nat) : List Nat := (List.range n).map fun i => f (if x < y then x + i + 1 else x - (i + 1))
  let dist (x y : Nat) : Nat := if x < y then y - x else x - y
  a :: line (dist (meshCol a) (meshCol b)) (meshCol a) (meshCol b) (fun c => meshRow a * 11 + c)
    ++ line (dist (meshRow a) (meshRow b)) (meshRow a) (meshRow b) (fun r => r * 11 + meshCol b)

/-- The two virtual channels of a link. -/
inductive Channel where
  | request | response
  deriving DecidableEq, Repr

/-- The sender's side of a link: the credits it holds for each channel's buffer of 16 flits. -/
structure Credits where
  request : Nat := 16
  response : Nat := 16
  deriving DecidableEq, Repr

/-- A flit may leave on a channel while that channel has a credit, whatever the other has. -/
def Credits.maySend (c : Credits) : Channel → Bool
  | .request => c.request != 0
  | .response => c.response != 0

/-- A flit that leaves takes a credit, and the credit returns when the flit leaves the buffer. -/
def Credits.send (c : Credits) : Channel → Credits
  | .request => { c with request := c.request - 1 }
  | .response => { c with response := c.response - 1 }
def Credits.return (c : Credits) : Channel → Credits
  | .request => { c with request := min 16 (c.request + 1) }
  | .response => { c with response := min 16 (c.response + 1) }

/-- A flit that waits at a router: its class and since how many nanoseconds. -/
structure Waiting where
  cls : Nat
  ns : Nat
  deriving DecidableEq, Repr

/-- The flit of a virtual channel that a router forwards next, and whether the rule of 1 µs decided. -/
def forwards (ws : List Waiting) : Option (Waiting × Bool) :=
  match ws.find? (fun w => decide (1000 ≤ w.ns)) with
  | some w => some (w, true)
  | none => ((sortBy (fun a b => decide (a.cls ≤ b.cls)) ws).head?).map (·, false)

/-! ## The credit pools of the paths to memory, peers and host (R226) -/

/-- A path's pool of `size` credits: those that classes C, P and B have taken of their reserves, and those taken of the shared part. -/
structure Pool where
  size : Nat
  c : Nat := 0
  p : Nat := 0
  b : Nat := 0
  shared : Nat := 0
  deriving DecidableEq, Repr

/-- The credits reserved for a class, 1 to 3 for C, P and B, and those of the shared part. -/
def Pool.reserve (x : Pool) : Nat → Nat
  | 1 => x.size * 25 / 100
  | 2 => x.size * 25 / 100
  | 3 => x.size * 10 / 100
  | _ => x.size * 40 / 100

/-- A credit of the shared part, if one is free. -/
def Pool.ofShared (x : Pool) : Option (Pool × Bool) := if x.shared < x.reserve 0 then some ({ x with shared := x.shared + 1 }, true) else none

/-- A transfer of a class takes a credit: of its class's reserve first, then of the shared part; with none it waits. The second part says whether the shared part gave it. -/
def Pool.take (x : Pool) : Nat → Option (Pool × Bool)
  | 1 => if x.c < x.reserve 1 then some ({ x with c := x.c + 1 }, false) else x.ofShared
  | 2 => if x.p < x.reserve 2 then some ({ x with p := x.p + 1 }, false) else x.ofShared
  | 3 => if x.b < x.reserve 3 then some ({ x with b := x.b + 1 }, false) else x.ofShared
  | _ => none

/-- The transfer completes or fails, and its credit returns to where it came from. -/
def Pool.give (x : Pool) (cls : Nat) (fromShared : Bool) : Pool :=
  if fromShared then { x with shared := x.shared - 1 }
  else match cls with
    | 1 => { x with c := x.c - 1 }
    | 2 => { x with p := x.p - 1 }
    | _ => { x with b := x.b - 1 }

/-- The class whose transfer takes a credit that has come free, of the classes that wait for one: the highest that may take one. -/
def Pool.serves (x : Pool) (waiting : List Nat) : Option Nat := [1, 2, 3].find? fun c => waiting.contains c && (x.take c).isSome

end Sys2Proof.Machine
end

