-- ==== Sys2Proof/Config.lean ====
section
/-! DEFINITION. What the spec leaves open: the free values. `free n` is the n-th free value that a
run uses up; nothing constrains it (log entry 1). -/

namespace Sys2Proof.Config

/-- The `n`-th free value: a value the spec does not state, on a device that goes on. It has no body, so
that no proof can see what it is. -/
opaque free : Nat → BitVec 64

/-- Whether the signature and the chain in the bytes of an authorisation token verify (R449, R450, R457): the arithmetic of the keys is not modelled
(log entry 62). -/
opaque verifies : List (BitVec 8) → Bool

/-- Byte `i` of what AES-256-GCM makes of a plaintext under the key that an info names, with a nonce and additional data: the ciphertext, then the 16-byte tag (R167; log
entry 157). -/
opaque sealed : List (BitVec 8) → List (BitVec 8) → List (BitVec 8) → List (BitVec 8) → Nat → BitVec 8

/-- Byte `i` of what the key exchange of an MDP session derives under an info, from the salt and the two ephemeral keys (R31; log entry 177). -/
opaque derived : List (BitVec 8) → List (BitVec 8) → List (BitVec 8) → Nat → BitVec 8

/-- What a bound leaves open in a fixed-function unit whose results are the same for the same operands (R301): the choice for some operands (log entry 151). -/
opaque choice : List Nat → BitVec 64

/-- The motion of the fusion models, the parts of it the spec does not state (R328; log entry 181): dynamics and Jacobians of models 1 and 2, what a transition and a noise
density come to over an interval, the measurements that depend on a geometry. An FP32 code for numbers that name the part and its operands. -/
opaque motion : List Nat → BitVec 32

/-- What the search and the shortcuts of a planning run come to (R360, R361), the same for the same model, inputs, seed, road map and epoch, which are its arguments as
numbers: the candidate paths in the order found, the samples drawn, the nodes of the trees, the nodes a road map gains, whether a tree filled (log entry 166). -/
opaque search : List (List Nat) → List (List (List Nat)) × Nat × Nat × List (List Nat) × Bool

end Sys2Proof.Config
end

