-- ==== Sys2Proof/Machine/Codes.lean ====
section
/-! DEFINITION. The codes of the chapter "Status, abort and event codes; index map" (R529 to R534). -/

namespace Sys2Proof.Machine

/-! Completion status codes (R529). -/

abbrev St.DONE : Nat := 0x00
abbrev St.DONE_FLAGGED : Nat := 0x01
abbrev St.CANCELLED : Nat := 0x08
abbrev St.SUPERSEDED : Nat := 0x09
abbrev St.TILE_LOST : Nat := 0x10
abbrev St.TIER_FAIL : Nat := 0x11
abbrev St.STATE_LOST : Nat := 0x12
abbrev St.KEY_FORMAT : Nat := 0x18
abbrev St.TABLE_CHANGED : Nat := 0x19
abbrev St.MAP_CHANGED : Nat := 0x20
abbrev St.NO_PATH : Nat := 0x21
abbrev St.ENGINE_FAULT : Nat := 0x28
abbrev St.CONFIG_INVALID : Nat := 0x30
abbrev St.ACCESS_DENIED : Nat := 0x31
abbrev St.SAFETY_HOLD : Nat := 0x38
abbrev St.INTERNAL : Nat := 0x3F

/-! Completion flags (R530). -/

abbrev Fl.DEGRADED_POINT : Nat := 256
abbrev Fl.STALE_INPUT : Nat := 128
abbrev Fl.RETRIED : Nat := 64
abbrev Fl.REPLICA_USED : Nat := 32
abbrev Fl.CONFLICT : Nat := 16
abbrev Fl.REVISED : Nat := 8
abbrev Fl.GOLDEN_FAIL : Nat := 4
abbrev Fl.GOLDEN_PENDING : Nat := 2
abbrev Fl.BELOW_FLOOR : Nat := 1

/-! Abort codes (R532, R69). -/

abbrev Ab.SDO_TIMEOUT : Nat := 0x05040000
abbrev Ab.UNSUPPORTED : Nat := 0x06010000
abbrev Ab.READ_WO : Nat := 0x06010001
abbrev Ab.WRITE_RO : Nat := 0x06010002
abbrev Ab.NO_OBJECT : Nat := 0x06020000
abbrev Ab.LENGTH : Nat := 0x06070010
abbrev Ab.NO_SUB : Nat := 0x06090011
abbrev Ab.RANGE : Nat := 0x06090030
abbrev Ab.GENERAL : Nat := 0x08000000
abbrev Ab.NOT_STORED : Nat := 0x08000020
abbrev Ab.STATE : Nat := 0x08000022
abbrev Ab.VENDOR_GENERAL : Nat := 0x0F000000
abbrev Ab.ACCESS_LEVEL : Nat := 0x0F000001
abbrev Ab.GROUP_OWNED : Nat := 0x0F000002
abbrev Ab.COMMIT_BUSY : Nat := 0x0F000003
abbrev Ab.COMMIT_INCONSISTENT : Nat := 0x0F000004
abbrev Ab.SLOT_STATE : Nat := 0x0F000005
abbrev Ab.SLOT_OWNED : Nat := 0x0F000006
abbrev Ab.PARTIAL_ACCESS : Nat := 0x0F000007
abbrev Ab.DOMAIN_CHECK : Nat := 0x0F000008
abbrev Ab.SESSION_EXPIRED : Nat := 0x0F000009
abbrev Ab.AUTH_FAILED : Nat := 0x0F00000A
abbrev Ab.REPLAY : Nat := 0x0F00000B
abbrev Ab.IMAGE_ROLLBACK : Nat := 0x0F00000C
abbrev Ab.FLASH_BUSY : Nat := 0x0F00000D
abbrev Ab.STATE_FORBIDS : Nat := 0x0F00000E
abbrev Ab.SESSION_LIMIT : Nat := 0x0F00000F
abbrev Ab.SKIPPED : Nat := 0x0F000010
abbrev Ab.TOO_LONG : Nat := 0x0F000011

/-! Event codes (R534). -/

abbrev Ev.CLAMP : Nat := 0x0001
abbrev Ev.GENERAL_ABORT : Nat := 0x0002
abbrev Ev.POLICY_RESTART : Nat := 0x0101
abbrev Ev.POLICY_FAILED : Nat := 0x0102
abbrev Ev.POLICY_HANDBACK : Nat := 0x0103
abbrev Ev.PWR_GOOD_DRIVEN : Nat := 0x0104
abbrev Ev.SETTINGS_DEFAULTS : Nat := 0x0105
abbrev Ev.IMAGE_REFUSED : Nat := 0x0201
abbrev Ev.TB_STEP : Nat := 0x0301
abbrev Ev.TB_HOLDOVER : Nat := 0x0302
abbrev Ev.ENGINE_RETIRED : Nat := 0x0401
abbrev Ev.FIELD_FALLOW : Nat := 0x0402
abbrev Ev.FIELD_FAILED : Nat := 0x0403
abbrev Ev.JOB_MOVED : Nat := 0x0404
abbrev Ev.LANE_LINK_FAILED : Nat := 0x0501
abbrev Ev.MEM_UNCORRECTABLE : Nat := 0x0601
abbrev Ev.ROW_MARKED : Nat := 0x0602
abbrev Ev.CHANNEL_RETIRED : Nat := 0x0603
abbrev Ev.SYSTEM_REGION_ERROR : Nat := 0x0604
abbrev Ev.TILE_LOST : Nat := 0x0701
abbrev Ev.POLICY_REFUSED : Nat := 0x0702
abbrev Ev.BLOCK_REPORT : Nat := 0x0801
abbrev Ev.ORDER_VIOLATION : Nat := 0x0802
abbrev Ev.E2E_FAIL : Nat := 0x0B01
abbrev Ev.FILTER_DIVERGED : Nat := 0x0B02
abbrev Ev.SOURCE_CONFLICT : Nat := 0x0B03
abbrev Ev.CHANNEL_FAULT : Nat := 0x0D01
abbrev Ev.CAUSE_RAISED : Nat := 0x0E00
abbrev Ev.TWO_OF_TWO : Nat := 0x0E10
abbrev Ev.GOLDEN_RUN_ENDED : Nat := 0x0E11
abbrev Ev.PHASE_RETIRED : Nat := 0x0F01
abbrev Ev.STEP_ABANDONED : Nat := 0x0F02
abbrev Ev.THERMAL_WARNING : Nat := 0x0F03
abbrev Ev.HW_TRIP : Nat := 0x0F04
abbrev Ev.DOMAIN_SENSORS_LOST : Nat := 0x0F05
abbrev Ev.ETH_LANE_RETIRED : Nat := 0x1101
abbrev Ev.VIO_OUT_OF_RANGE : Nat := 0x1401
abbrev Ev.SENSE_INVALID : Nat := 0x1501
abbrev Ev.PIN_CONTROL_REFUSED : Nat := 0x1502

/-- The severity of an event code (R534): 0 Info, 1 Notice, 2 Warning, 3 Error, 4 Safety. -/
def Ev.severity (c : Nat) : Nat :=
  if c = 0x0501 ∨ c = 0x0604 ∨ (0x0E00 ≤ c ∧ c ≤ 0x0E0E) ∨ c = 0x0F04 then 4 else
  if c = 0x0102 ∨ c = 0x0103 ∨ c = 0x0403 ∨ c = 0x0601 ∨ c = 0x0701 ∨ c = 0x0B01 ∨ c = 0x0D01 ∨ c = 0x0F05 then 3 else
  if c = 0x0101 ∨ c = 0x0105 ∨ c = 0x0302 ∨ c = 0x0401 ∨ c = 0x0603 ∨ c = 0x0802 ∨ c = 0x0B02 ∨ c = 0x0B03 ∨ c = 0x0E10 ∨ c = 0x0F01 ∨ c = 0x0F02 ∨ c = 0x0F03 ∨ c = 0x1101 ∨ c = 0x1401 ∨ c = 0x1501 then 2 else
  if c = 0x0404 then 0 else
  1

end Sys2Proof.Machine
end

