-- ==== Sys2Proof/Machine/Headland.lean ====
section
/-! DEFINITION. Where the pieces of module memory lie, before and after channels retire (R151, R152, R187, R188): 256-byte pieces, one on each of 64 channels in
every stripe of 16 KiB, and the headland that takes those of retired channels. -/

namespace Sys2Proof.Machine

/-! ## Addresses (R151, R152) -/

/-- The channel of piece number `p` (address ÷ 256): a[13:8] XOR a[19:14]. -/
def pieceChan (p : Nat) : Nat := (p % 64) ^^^ (p / 64 % 64)

/-- The piece of channel `c` in stripe `s`. -/
def pieceOf (s c : Nat) : Nat := 64 * s + (c ^^^ (s % 64))

/-- The offset of an address on its channel. -/
def chanOffset (a : Nat) : Nat := a / 16384 * 256 + a % 256

/-- The 32-byte burst of a channel's raw array that holds a channel offset: every sixteenth burst is a check burst. -/
def rawBurst (offset : Nat) : Nat := offset / 32 / 15 * 16 + offset / 32 % 15

/-- The check burst that covers a data burst, and the byte at which that burst's code stands in it. -/
def checkBurst (burst : Nat) : Nat × Nat := (burst / 16 * 16 + 15, burst % 16 * 2)

/-! ## Relocations (R187) -/

/-- A headland unit that holds relocated pieces: its first stripe, and the piece number below which its pieces on channels then in service are taken. -/
abbrev UsedUnit := Nat × Nat

/-- One retirement: its channel, the first stripe of the headland and the used units it found, the channels that could take no piece, and the runs of targets it took:
first stripe of the unit, the piece number they begin at, how many. -/
structure Reloc where
  ch : Nat
  base : Nat
  used : List UsedUnit
  excl : List Nat
  targets : List (Nat × Nat × Nat)
  deriving DecidableEq, Repr

/-- The stripes of a used unit in which channel `c` holds a piece. -/
def unitPieces (c : Nat) (u : UsedUnit) : Nat := u.2 / 64 - u.1 + if pieceOf (u.2 / 64) c < u.2 then 1 else 0

/-- The pieces that a retirement of channel `c` relocates: one for each stripe below the headland, and those in used units. -/
def piecesOf (base : Nat) (used : List UsedUnit) (c : Nat) : Nat := used.foldl (fun n u => n + unitPieces c u) base

/-- The free pieces of one stripe from piece `p` on, which lies in it. -/
def freeOf (excl : List Nat) (p : Nat) : List Nat := ((List.range (64 - p % 64)).map (p + ·)).filter (fun q => !excl.contains (pieceChan q))

/-- The free pieces of a unit of `size` stripes from its mark on. -/
def unitFree (size : Nat) (excl : List Nat) (u : UsedUnit) : Nat :=
  (if u.2 % 64 = 0 then 0 else (freeOf excl u.2).length) + (u.1 + size - ceilDiv u.2 64) * (64 - excl.length)

/-- The `k`-th free piece from piece `p` on. -/
def nthFree (excl : List Nat) (p k : Nat) : Nat :=
  let here := if p % 64 = 0 then [] else freeOf excl p
  match here[k]? with
  | some q => q
  | none =>
    let j := k - here.length
    let n := max 1 (64 - excl.length)
    let s := 64 * (ceilDiv p 64 + j / n)
    (freeOf excl s).getD (j % n) s

/-- The runs of `n` targets: what is free in the used units, then in units not yet used, from the lowest. -/
def takeTargets (size : Nat) (excl : List Nat) : Nat → List UsedUnit → List (Nat × Nat × Nat)
  | _, [] => []
  | n, u :: us =>
    let k := min n (unitFree size excl u)
    if n = 0 then [] else (if k = 0 then [] else [(u.1, u.2, k)]) ++ takeTargets size excl (n - k) us

/-- The units of a headland that begins at stripe `base`, the used ones first, each part in rising order. -/
def unitsOf (size base : Nat) (used : List UsedUnit) : List UsedUnit :=
  let all := (List.range ((64 * size - base) / max 1 size)).map (fun i => base + i * size)
  sortBy (fun a b => decide (a.1 ≤ b.1)) used ++ (all.filter (fun f => !used.any (fun u => u.1 == f))).map (fun f => (f, 64 * f))

/-- The targets a retirement finds. -/
def targetsOf (size base : Nat) (used : List UsedUnit) (excl : List Nat) : Nat := (unitsOf size base used).foldl (fun n u => n + unitFree size excl u) 0

/-- The retirement of channel `c`, after those of the channels `gone`, with the targets in rising order of address. -/
def relocOf (size base : Nat) (used : List UsedUnit) (gone : List Nat) (c : Nat) : Reloc :=
  let excl := (c :: gone).eraseDups
  ⟨c, base, used, excl, sortBy (fun a b => decide (a.1 ≤ b.1)) (takeTargets size excl (piecesOf base used c) (unitsOf size base used))⟩

/-- The used units after a retirement. -/
def Reloc.usedAfter (r : Reloc) : List UsedUnit :=
  r.targets.foldl (fun us t => (t.1, nthFree r.excl t.2.1 (t.2.2 - 1) + 1) :: us.filter (fun u => u.1 != t.1)) r.used

/-- The number of piece `p` among those that a retirement relocates, if it is one. -/
def Reloc.number (r : Reloc) (p : Nat) : Option Nat :=
  let s := p / 64
  if pieceChan p ≠ r.ch then none
  else if s < r.base then some s
  else
    let us := sortBy (fun a b => decide (a.1 ≤ b.1)) r.used
    let rec go : Nat → List UsedUnit → Option Nat
      | _, [] => none
      | n, u :: rest => if u.1 ≤ s ∧ p < u.2 then some (n + (s - u.1)) else go (n + unitPieces r.ch u) rest
    go r.base us

/-- Target number `k` of a retirement. -/
def Reloc.target (r : Reloc) (k : Nat) : Option Nat :=
  let rec go : Nat → List (Nat × Nat × Nat) → Option Nat
    | _, [] => none
    | n, t :: rest => if n < t.2.2 then some (nthFree r.excl t.2.1 n) else go (n - t.2.2) rest
  go k r.targets

/-- Where piece `p` lies after retirements, in their order; `moved` tells how many of a retirement's pieces have switched. -/
def locatePiece (moved : Reloc → Nat) (rs : List Reloc) (p : Nat) : Nat :=
  rs.foldl (fun p r => match r.number p with
    | some k => if k < moved r then (r.target k).getD p else p
    | none => p) p

end Sys2Proof.Machine
end

