-- ==== Sys2Proof/Machine/Objects.lean ====
section
/-! DEFINITION. The object dictionary as data: every object table of the spec, one row per object
(index range, subindices, type, access, level, range, reset value), and a name for every object's key.
A key is `index * 256 + subindex`, plus `16777216 * inst` where a window shows one of several instances
(a furrow's objects behind `FURROW_SELECT`, R207) or an object is held per session. -/

namespace Sys2Proof.Machine

/-- Object types (R13). -/
inductive Typ where
  | bool | u8 | u16 | u32 | u64 | i8 | i16 | i32 | i64 | real
  | vis (n : Nat)
  | oct (n : Nat)
  | domain
  deriving DecidableEq, Repr

/-- How many bytes an object of the type has (R13 to R15). -/
def Typ.bytes : Typ → Nat
  | .bool => 1 | .u8 => 1 | .u16 => 2 | .u32 => 4 | .u64 => 8
  | .i8 => 1 | .i16 => 2 | .i32 => 4 | .i64 => 8 | .real => 4
  | .vis n => n
  | .oct n => n
  | .domain => 16

/-- Access codes (R16). -/
inductive Acc where
  | ro | rw | wo | const | rws
  deriving DecidableEq, Repr

/-- The lowest session level that may write (R16): none named, Supervisor, Service, Safety. -/
inductive Lvl where
  | host | sup | svc | saf
  deriving DecidableEq, Repr

/-- The Range/unit column as a check on the written number (R19). -/
inductive Rng where
  | any
  | le (lo hi : Nat)
  | leOr (lo hi x : Nat)
  | step (lo hi d : Nat)
  | stepOr (lo hi d x : Nat)
  | enum (xs : List Nat)
  | mask (m : Nat)
  | finite
  | finitePos
  | realLe (lo hi : Nat)
  | argMeta
  deriving DecidableEq, Repr

/-- One row of an object table. `count` objects stand `stride` subindices apart from `sub` on, each on
`span` subindices; `others` gives the reset value where it differs by index (offsets from the table's first
index, both included); `perIdx` adds the offset to the reset value. -/
structure Row where
  sub : Nat
  count : Nat
  stride : Nat
  span : Nat
  typ : Typ
  acc : Acc
  lvl : Lvl
  rng : Rng
  reset : Nat
  others : List (Nat × Nat × Nat) := []
  perIdx : Bool := false
  deriving DecidableEq, Repr

namespace Obj

/-- 0x1000. -/
def tab1000 : List Row := [
  ⟨0x01, 1, 1, 1, .u32, .const, .host, .any, 0, [], false⟩]

/-- 0x1001. -/
def tab1001 : List Row := [
  ⟨0x01, 1, 1, 1, .u8, .ro, .host, .any, 0, [], false⟩]

/-- 0x1008. -/
def tab1008 : List Row := [
  ⟨0x01, 1, 1, 1, .vis 8, .const, .host, .any, 0, [], false⟩]

/-- 0x1010. -/
def tab1010 : List Row := [
  ⟨0x01, 3, 1, 1, .u32, .rw, .sup, .any, 0, [], false⟩]

/-- 0x1011. -/
def tab1011 : List Row := [
  ⟨0x01, 3, 1, 1, .u32, .rw, .sup, .any, 0, [], false⟩]

/-- 0x1018. -/
def tab1018 : List Row := [
  ⟨0x01, 4, 1, 1, .u32, .const, .host, .any, 0, [], false⟩]

/-- 0x1A00. -/
def tab1A00 : List Row := [
  ⟨0x01, 1, 1, 2, .oct 16, .ro, .host, .any, 0, [], false⟩]

/-- 0x1C00 to 0x1C13. -/
def tab1C00 : List Row := [
  ⟨0x01, 1, 1, 1, .u8, .ro, .host, .any, 0, [], false⟩]

/-- 0x2000. -/
def tab2000 : List Row := [
  ⟨0x01, 1, 1, 1, .u8, .ro, .host, .le 0 5, 1, [], false⟩,
  ⟨0x02, 1, 1, 1, .u8, .wo, .sup, .le 1 6, 0, [], false⟩,
  ⟨0x03, 1, 1, 1, .bool, .rw, .sup, .le 0 1, 0, [], false⟩,
  ⟨0x04, 1, 1, 1, .u32, .ro, .host, .any, 0, [], false⟩,
  ⟨0x05, 1, 1, 1, .u8, .ro, .host, .le 0 4, 0, [], false⟩,
  ⟨0x06, 1, 1, 1, .u32, .ro, .host, .any, 1, [], false⟩,
  ⟨0x07, 1, 1, 1, .u32, .ro, .host, .any, 0, [], false⟩,
  ⟨0x08, 1, 1, 1, .u32, .ro, .host, .any, 0, [], false⟩,
  ⟨0x09, 1, 1, 1, .u32, .ro, .host, .any, 0, [], false⟩,
  ⟨0x0A, 1, 1, 1, .u64, .ro, .host, .any, 0, [], false⟩,
  ⟨0x0B, 1, 1, 1, .u8, .ro, .host, .le 0 4, 0, [], false⟩,
  ⟨0x0C, 1, 1, 1, .u16, .const, .host, .any, 100, [], false⟩,
  ⟨0x0D, 1, 1, 1, .u32, .ro, .host, .any, 0, [], false⟩,
  ⟨0x0E, 1, 1, 1, .u32, .ro, .host, .any, 0, [], false⟩,
  ⟨0x0F, 1, 1, 1, .u32, .ro, .host, .any, 0, [], false⟩]

/-- 0x2010. -/
def tab2010 : List Row := [
  ⟨0x01, 1, 1, 2, .domain, .wo, .sup, .any, 0, [], false⟩,
  ⟨0x03, 1, 1, 1, .u8, .ro, .host, .le 0 3, 0, [], false⟩,
  ⟨0x04, 1, 1, 1, .u32, .ro, .host, .any, 0, [], false⟩,
  ⟨0x05, 1, 1, 1, .u16, .ro, .host, .any, 0, [], false⟩,
  ⟨0x06, 1, 1, 1, .u32, .wo, .sup, .any, 0, [], false⟩,
  ⟨0x07, 1, 1, 1, .u16, .ro, .host, .le 0 256, 0, [], false⟩,
  ⟨0x08, 1, 1, 1, .u32, .ro, .host, .any, 40960, [], false⟩,
  ⟨0x09, 1, 1, 1, .u32, .ro, .host, .any, 0, [], false⟩,
  ⟨0x0A, 1, 1, 1, .u8, .wo, .svc, .le 1 1, 0, [], false⟩]

/-- 0x2021 to 0x2024. -/
def tab2021 : List Row := [
  ⟨0x01, 1, 1, 2, .domain, .wo, .svc, .any, 0, [], false⟩,
  ⟨0x03, 1, 1, 1, .u8, .ro, .host, .le 0 4, 0, [], false⟩,
  ⟨0x04, 1, 1, 1, .u16, .ro, .host, .any, 0, [], false⟩,
  ⟨0x05, 1, 1, 1, .u8, .ro, .host, .le 0 1, 0, [], false⟩,
  ⟨0x06, 1, 1, 1, .u32, .ro, .host, .any, 0, [], false⟩,
  ⟨0x07, 1, 1, 1, .u32, .ro, .host, .any, 0, [], false⟩,
  ⟨0x08, 1, 1, 1, .u8, .ro, .host, .any, 0, [], false⟩,
  ⟨0x09, 1, 1, 1, .u32, .ro, .host, .any, 0, [], false⟩,
  ⟨0x0A, 1, 1, 1, .u8, .wo, .svc, .le 1 1, 0, [], false⟩,
  ⟨0x0B, 1, 1, 1, .u8, .wo, .svc, .le 1 1, 0, [], false⟩,
  ⟨0x10, 1, 1, 6, .oct 48, .ro, .host, .any, 0, [], false⟩]

/-- 0x2080. -/
def tab2080 : List Row := [
  ⟨0x01, 1, 1, 2, .oct 16, .ro, .host, .any, 0, [], false⟩,
  ⟨0x03, 1, 1, 1, .u8, .ro, .host, .le 0 1, 0, [], false⟩,
  ⟨0x04, 1, 1, 6, .oct 48, .ro, .host, .any, 0, [], false⟩,
  ⟨0x0E, 1, 1, 4, .oct 32, .ro, .host, .any, 0, [], false⟩,
  ⟨0x20, 1, 1, 34, .oct 272, .ro, .host, .any, 0, [], false⟩,
  ⟨0x50, 1, 1, 34, .oct 272, .ro, .host, .any, 0, [], false⟩]

/-- 0x2081. -/
def tab2081 : List Row := [
  ⟨0x01, 1, 1, 4, .oct 32, .wo, .host, .any, 0, [], false⟩,
  ⟨0x05, 1, 1, 1, .u8, .wo, .host, .le 1 1, 0, [], false⟩,
  ⟨0x06, 1, 1, 1, .u8, .ro, .host, .le 0 2, 0, [], false⟩,
  ⟨0x10, 1, 1, 62, .oct 496, .ro, .host, .any, 0, [], false⟩]

/-- 0x2082. -/
def tab2082 : List Row := [
  ⟨0x01, 1, 1, 1, .u8, .ro, .host, .le 0 3, 0, [], false⟩,
  ⟨0x02, 1, 1, 2, .domain, .wo, .svc, .any, 0, [], false⟩,
  ⟨0x04, 1, 1, 1, .u8, .ro, .host, .le 0 3, 0, [], false⟩,
  ⟨0x05, 1, 1, 1, .u8, .wo, .svc, .le 1 1, 0, [], false⟩]

/-- 0x2101. -/
def tab2101 : List Row := [
  ⟨0x01, 1, 1, 1, .u64, .rws, .sup, .any, 0, [], false⟩,
  ⟨0x02, 1, 1, 1, .bool, .rws, .sup, .le 0 1, 0, [], false⟩]

/-- 0x2102. -/
def tab2102 : List Row := [
  ⟨0x01, 64, 1, 1, .u32, .rw, .sup, .any, 0, [], false⟩]

/-- 0x2110 to 0x211F. -/
def tab2110 : List Row := [
  ⟨0x01, 1, 1, 1, .u8, .ro, .host, .le 0 3, 0, [], false⟩,
  ⟨0x02, 1, 1, 1, .u8, .ro, .host, .le 0 3, 0, [], false⟩,
  ⟨0x03, 1, 1, 1, .u64, .ro, .host, .any, 0, [], false⟩,
  ⟨0x04, 1, 1, 1, .u32, .rw, .sup, .le 0 3600000, 30000, [], false⟩,
  ⟨0x05, 1, 1, 1, .u64, .ro, .host, .any, 0, [], false⟩,
  ⟨0x06, 1, 1, 1, .u16, .ro, .host, .any, 0, [], false⟩,
  ⟨0x07, 1, 1, 1, .u32, .ro, .host, .any, 0, [], false⟩,
  ⟨0x08, 1, 1, 1, .u32, .ro, .host, .any, 0, [], false⟩,
  ⟨0x09, 1, 1, 1, .u32, .ro, .host, .any, 0, [], false⟩,
  ⟨0x0A, 1, 1, 2, .domain, .wo, .host, .any, 0, [], false⟩,
  ⟨0x0C, 1, 1, 1, .u8, .wo, .host, .le 1 1, 0, [], false⟩]

/-- 0x2180. -/
def tab2180 : List Row := [
  ⟨0x01, 1, 1, 1, .u32, .ro, .host, .any, 0, [], false⟩,
  ⟨0x02, 1, 1, 1, .u16, .const, .host, .any, 1008, [], false⟩,
  ⟨0x03, 1, 1, 1, .bool, .rw, .host, .le 0 1, 0, [], false⟩,
  ⟨0x04, 1, 1, 1, .u8, .rw, .host, .le 0 63, 0, [], false⟩,
  ⟨0x05, 1, 1, 1, .u8, .rw, .host, .le 0 4, 2, [], false⟩,
  ⟨0x06, 1, 1, 1, .bool, .rw, .sup, .le 0 1, 1, [], false⟩,
  ⟨0x07, 1, 1, 1, .u8, .rw, .sup, .le 0 4, 3, [], false⟩,
  ⟨0x08, 1, 1, 1, .bool, .rw, .sup, .le 0 1, 0, [], false⟩,
  ⟨0x09, 1, 1, 1, .u8, .rw, .sup, .le 0 4, 3, [], false⟩,
  ⟨0x0A, 1, 1, 1, .u32, .ro, .host, .any, 0, [], false⟩]

/-- 0x2181. -/
def tab2181 : List Row := [
  ⟨0x01, 1, 1, 1, .u8, .rw, .host, .le 0 255, 0, [], false⟩,
  ⟨0x02, 1, 1, 4, .oct 32, .ro, .host, .any, 0, [], false⟩,
  ⟨0x06, 1, 1, 1, .u32, .ro, .host, .any, 0, [], false⟩,
  ⟨0x07, 1, 1, 1, .u8, .ro, .host, .le 0 255, 0, [], false⟩]

/-- 0x2190 to 0x219F. -/
def tab2190 : List Row := [
  ⟨0x01, 252, 1, 1, .u64, .ro, .host, .any, 0, [], false⟩]

/-- 0x2200. -/
def tab2200 : List Row := [
  ⟨0x01, 1, 1, 1, .u8, .rw, .sup, .le 0 3, 0, [], false⟩,
  ⟨0x02, 1, 1, 1, .u8, .ro, .host, .le 0 3, 0, [], false⟩,
  ⟨0x03, 1, 1, 1, .i64, .ro, .host, .any, 0, [], false⟩,
  ⟨0x04, 1, 1, 1, .i32, .ro, .host, .any, 0, [], false⟩,
  ⟨0x05, 1, 1, 1, .u32, .rw, .sup, .le 1 1000000, 100, [], false⟩,
  ⟨0x06, 1, 1, 1, .u32, .rw, .sup, .le 0 60000, 3000, [], false⟩,
  ⟨0x07, 1, 1, 1, .u64, .rw, .sup, .any, 1000000, [], false⟩,
  ⟨0x08, 1, 1, 1, .u16, .rw, .sup, .le 10 500, 200, [], false⟩,
  ⟨0x09, 1, 1, 1, .u64, .rw, .sup, .any, 946684800000000000, [], false⟩,
  ⟨0x0A, 1, 1, 1, .u64, .wo, .sup, .any, 0, [], false⟩,
  ⟨0x0B, 1, 1, 1, .u64, .ro, .host, .any, 0, [], false⟩,
  ⟨0x0C, 1, 1, 1, .u16, .ro, .host, .any, 0, [], false⟩,
  ⟨0x0D, 1, 1, 1, .u32, .ro, .host, .any, 0, [], false⟩,
  ⟨0x0E, 1, 1, 1, .u32, .ro, .host, .any, 0, [], false⟩,
  ⟨0x0F, 1, 1, 1, .u64, .ro, .host, .any, 0, [], false⟩]

/-- 0x2210 to 0x221F. -/
def tab2210 : List Row := [
  ⟨0x01, 1, 1, 1, .u8, .rws, .sup, .le 0 2, 0, [], false⟩,
  ⟨0x02, 1, 1, 1, .u64, .rws, .sup, .any, 0, [], false⟩,
  ⟨0x03, 1, 1, 1, .u32, .rws, .sup, .any, 0, [], false⟩,
  ⟨0x04, 1, 1, 1, .u32, .rws, .sup, .any, 0, [], false⟩,
  ⟨0x05, 1, 1, 1, .u32, .rws, .sup, .any, 0, [], false⟩,
  ⟨0x06, 1, 1, 1, .bool, .rws, .sup, .le 0 1, 0, [], false⟩,
  ⟨0x07, 1, 1, 1, .u8, .rws, .sup, .le 0 1, 0, [], false⟩,
  ⟨0x08, 1, 1, 1, .u8, .rws, .sup, .le 0 2, 2, [], false⟩,
  ⟨0x09, 1, 1, 1, .u8, .rw, .saf, .le 0 1, 0, [], false⟩,
  ⟨0x0A, 1, 1, 1, .u64, .ro, .host, .any, 0, [], false⟩,
  ⟨0x0B, 1, 1, 1, .u64, .ro, .host, .any, 0, [], false⟩,
  ⟨0x0C, 1, 1, 1, .u32, .ro, .host, .any, 0, [], false⟩]

/-- 0x2220 to 0x222F. -/
def tab2220 : List Row := [
  ⟨0x01, 1, 1, 1, .u8, .rw, .sup, .le 0 3, 0, [], false⟩,
  ⟨0x02, 1, 1, 1, .u16, .rw, .sup, .stepOr 20 640 20 0, 100, [], false⟩,
  ⟨0x03, 1, 1, 1, .u64, .ro, .host, .any, 0, [], false⟩,
  ⟨0x04, 1, 1, 1, .u32, .ro, .host, .any, 0, [], false⟩,
  ⟨0x05, 1, 1, 1, .bool, .ro, .host, .le 0 1, 0, [], false⟩,
  ⟨0x06, 1, 1, 1, .u8, .ro, .host, .le 0 64, 0, [], false⟩,
  ⟨0x07, 1, 1, 1, .u64, .ro, .host, .any, 0, [], false⟩,
  ⟨0x08, 1, 1, 1, .u32, .ro, .host, .any, 0, [], false⟩]

/-- 0x2230 to 0x223F. -/
def tab2230 : List Row := [
  ⟨0x01, 1, 1, 1, .u8, .rw, .sup, .le 0 2, 0, [], false⟩,
  ⟨0x02, 1, 1, 1, .u8, .rw, .sup, .le 0 15, 255, [], false⟩,
  ⟨0x03, 1, 1, 1, .i32, .rw, .sup, .any, 0, [], false⟩,
  ⟨0x04, 1, 1, 1, .u32, .rw, .sup, .le 0 1000000000, 100000, [], false⟩,
  ⟨0x05, 1, 1, 1, .u64, .ro, .host, .any, 0, [], false⟩,
  ⟨0x06, 1, 1, 1, .u32, .ro, .host, .any, 0, [], false⟩]

/-- 0x2300 to 0x2341. -/
def tab2300 : List Row := [
  ⟨0x01, 1, 1, 1, .u8, .ro, .host, .le 0 3, 0, [(64, 65, 1)], false⟩,
  ⟨0x02, 1, 1, 1, .u8, .ro, .host, .le 0 32, 0, [(0, 63, 32)], false⟩,
  ⟨0x03, 1, 1, 1, .u8, .ro, .host, .le 0 34, 34, [], false⟩,
  ⟨0x04, 1, 1, 1, .u64, .ro, .host, .any, 0, [(0, 63, 4294967295)], false⟩,
  ⟨0x05, 1, 1, 1, .u64, .ro, .host, .any, 0, [], false⟩,
  ⟨0x06, 1, 1, 1, .u64, .ro, .host, .any, 0, [], false⟩,
  ⟨0x07, 1, 1, 1, .u64, .ro, .host, .any, 0, [], false⟩,
  ⟨0x08, 1, 1, 1, .u16, .ro, .host, .le 550 900, 750, [], false⟩,
  ⟨0x09, 1, 1, 1, .u8, .ro, .host, .le 1 32, 32, [], false⟩,
  ⟨0x0A, 1, 1, 1, .u32, .ro, .host, .any, 0, [], false⟩,
  ⟨0x0B, 1, 1, 1, .u64, .ro, .host, .any, 0, [], false⟩,
  ⟨0x0C, 1, 1, 1, .u32, .ro, .host, .any, 0, [], false⟩,
  ⟨0x0D, 1, 1, 1, .u16, .ro, .host, .le 0 128, 0, [], false⟩,
  ⟨0x0E, 1, 1, 1, .u16, .ro, .host, .any, 0, [], false⟩,
  ⟨0x0F, 1, 1, 1, .u32, .ro, .host, .any, 0, [], false⟩,
  ⟨0x10, 1, 1, 1, .u8, .wo, .svc, .le 1 2, 0, [], false⟩,
  ⟨0x11, 1, 1, 1, .u8, .ro, .host, .le 0 3, 0, [], false⟩,
  ⟨0x12, 1, 1, 1, .u64, .ro, .host, .any, 0, [], false⟩]

/-- 0x2380. -/
def tab2380 : List Row := [
  ⟨0x01, 1, 1, 1, .u8, .ro, .host, .le 0 64, 64, [], false⟩,
  ⟨0x02, 1, 1, 1, .u8, .ro, .host, .le 0 2, 2, [], false⟩,
  ⟨0x03, 1, 1, 1, .u16, .ro, .host, .le 0 2048, 2048, [], false⟩,
  ⟨0x04, 1, 1, 1, .u16, .ro, .host, .le 0 196, 196, [], false⟩,
  ⟨0x05, 1, 1, 1, .u16, .ro, .host, .le 0 2244, 0, [], false⟩,
  ⟨0x06, 1, 1, 1, .u32, .ro, .host, .any, 0, [], false⟩,
  ⟨0x07, 1, 1, 1, .u32, .ro, .host, .any, 0, [], false⟩,
  ⟨0x08, 1, 1, 1, .u32, .ro, .host, .any, 0, [], false⟩,
  ⟨0x09, 1, 1, 1, .bool, .rw, .svc, .le 0 1, 1, [], false⟩]

/-- 0x2381. -/
def tab2381 : List Row := [
  ⟨0x01, 1, 1, 1, .u64, .ro, .host, .any, 0, [], false⟩,
  ⟨0x02, 1, 1, 1, .u64, .ro, .host, .any, 0, [], false⟩,
  ⟨0x03, 1, 1, 1, .u64, .ro, .host, .any, 0, [], false⟩,
  ⟨0x04, 1, 1, 1, .u64, .ro, .host, .any, 0, [], false⟩,
  ⟨0x05, 1, 1, 1, .u64, .ro, .host, .any, 0, [], false⟩,
  ⟨0x06, 1, 1, 1, .u32, .ro, .host, .any, 0, [], false⟩]

/-- 0x2382. -/
def tab2382 : List Row := [
  ⟨0x01, 1, 1, 1, .u16, .const, .host, .any, 128, [], false⟩,
  ⟨0x02, 1, 1, 1, .u16, .const, .host, .any, 40, [], false⟩,
  ⟨0x03, 1, 1, 1, .u64, .ro, .host, .any, 0, [], false⟩,
  ⟨0x04, 1, 1, 1, .u32, .ro, .host, .any, 0, [], false⟩,
  ⟨0x05, 1, 1, 1, .u32, .ro, .host, .any, 0, [], false⟩,
  ⟨0x06, 1, 1, 1, .u8, .ro, .host, .le 0 65, 0, [], false⟩]

/-- 0x2383. -/
def tab2383 : List Row := [
  ⟨0x01, 1, 1, 1, .u32, .rw, .svc, .le 10 1000, 100, [], false⟩,
  ⟨0x02, 1, 1, 1, .u32, .rw, .sup, .le 0 3600000, 10000, [], false⟩,
  ⟨0x03, 1, 1, 1, .u32, .rw, .sup, .le 1 1000000, 1000, [], false⟩,
  ⟨0x04, 1, 1, 1, .u32, .ro, .host, .any, 0, [], false⟩,
  ⟨0x05, 1, 1, 1, .u32, .ro, .host, .any, 0, [], false⟩]

/-- 0x23F0. -/
def tab23F0 : List Row := [
  ⟨0x01, 1, 1, 1, .u64, .ro, .host, .any, 0, [], false⟩,
  ⟨0x02, 1, 1, 1, .u64, .ro, .host, .any, 0, [], false⟩,
  ⟨0x03, 1, 1, 1, .u64, .ro, .host, .any, 0, [], false⟩,
  ⟨0x04, 1, 1, 1, .u64, .ro, .host, .any, 0, [], false⟩,
  ⟨0x05, 1, 1, 1, .u64, .ro, .host, .any, 0, [], false⟩,
  ⟨0x06, 1, 1, 1, .u64, .ro, .host, .any, 0, [], false⟩,
  ⟨0x07, 1, 1, 1, .u64, .ro, .host, .any, 0, [], false⟩,
  ⟨0x08, 1, 1, 1, .u64, .ro, .host, .any, 0, [], false⟩,
  ⟨0x09, 1, 1, 1, .u8, .wo, .sup, .le 1 1, 0, [], false⟩]

/-- 0x2400. -/
def tab2400 : List Row := [
  ⟨0x01, 1, 1, 1, .u8, .ro, .host, .le 0 64, 64, [], false⟩,
  ⟨0x02, 1, 1, 1, .u8, .ro, .host, .le 0 3, 1, [], false⟩,
  ⟨0x03, 1, 1, 1, .u32, .ro, .host, .any, 122880, [], false⟩,
  ⟨0x04, 1, 1, 1, .u32, .ro, .host, .any, 30580736, [], false⟩,
  ⟨0x05, 1, 1, 1, .bool, .rw, .svc, .le 0 1, 1, [], false⟩,
  ⟨0x06, 1, 1, 1, .u32, .rw, .svc, .le 1 1000000, 1000, [], false⟩,
  ⟨0x07, 1, 1, 1, .u64, .ro, .host, .any, 0, [], false⟩,
  ⟨0x08, 1, 1, 1, .u32, .ro, .host, .any, 0, [], false⟩]

/-- 0x2401. -/
def tab2401 : List Row := [
  ⟨0x01, 1, 1, 1, .u16, .rw, .sup, .le 0 32767, 0, [], false⟩,
  ⟨0x02, 1, 1, 1, .u8, .rw, .sup, .le 0 3, 1, [], false⟩,
  ⟨0x03, 1, 1, 1, .u64, .ro, .host, .any, 67108864, [], false⟩,
  ⟨0x04, 1, 1, 1, .u64, .ro, .host, .any, 570425344, [], false⟩,
  ⟨0x05, 1, 1, 1, .u64, .ro, .host, .any, 1577058304, [], false⟩,
  ⟨0x06, 1, 1, 1, .u64, .ro, .host, .any, 126835752960, [], false⟩,
  ⟨0x07, 1, 1, 1, .u32, .ro, .host, .any, 62914560, [], false⟩]

/-- 0x2402. -/
def tab2402 : List Row := [
  ⟨0x01, 1, 1, 1, .u32, .rw, .sup, .le 0 604800, 21600, [], false⟩,
  ⟨0x02, 1, 1, 1, .u32, .rw, .sup, .le 1 1000000, 1000, [], false⟩,
  ⟨0x03, 1, 1, 1, .u32, .ro, .host, .any, 0, [], false⟩,
  ⟨0x04, 1, 1, 1, .u32, .ro, .host, .any, 0, [], false⟩,
  ⟨0x05, 1, 1, 1, .u64, .ro, .host, .any, 0, [], false⟩,
  ⟨0x06, 1, 1, 1, .u32, .ro, .host, .any, 0, [], false⟩]

/-- 0x2403. -/
def tab2403 : List Row := [
  ⟨0x01, 1, 1, 1, .u32, .rw, .sup, .le 1 100000, 500, [], false⟩,
  ⟨0x02, 1, 1, 1, .u32, .rw, .sup, .le 1 10000, 100, [], false⟩,
  ⟨0x03, 1, 1, 1, .u64, .ro, .host, .any, 0, [], false⟩,
  ⟨0x04, 1, 1, 1, .u64, .ro, .host, .any, 0, [], false⟩]

/-- 0x2410. -/
def tab2410 : List Row := [
  ⟨0x01, 1, 1, 1, .u32, .rw, .sup, .le 0 1000000, 1000, [], false⟩,
  ⟨0x02, 1, 1, 1, .u32, .rw, .sup, .le 0 64000, 4000, [], false⟩,
  ⟨0x03, 1, 1, 1, .u8, .rw, .sup, .le 0 100, 50, [], false⟩,
  ⟨0x04, 1, 1, 1, .bool, .rw, .sup, .le 0 1, 0, [], false⟩,
  ⟨0x05, 1, 1, 1, .bool, .rw, .sup, .le 0 1, 1, [], false⟩,
  ⟨0x06, 1, 1, 1, .u8, .rw, .sup, .le 60 110, 90, [], false⟩,
  ⟨0x07, 1, 1, 1, .u8, .rw, .sup, .le 0 1, 0, [], false⟩]

/-- 0x2411. -/
def tab2411 : List Row := [
  ⟨0x01, 1, 1, 1, .u32, .ro, .host, .any, 0, [], false⟩,
  ⟨0x02, 1, 1, 1, .u32, .ro, .host, .any, 30580736, [], false⟩,
  ⟨0x03, 1, 1, 1, .u32, .ro, .host, .any, 0, [], false⟩,
  ⟨0x04, 1, 1, 1, .u32, .ro, .host, .any, 0, [], false⟩,
  ⟨0x05, 1, 1, 1, .u32, .ro, .host, .any, 0, [], false⟩,
  ⟨0x06, 1, 1, 1, .u32, .ro, .host, .any, 0, [], false⟩,
  ⟨0x07, 1, 1, 1, .u64, .ro, .host, .any, 0, [], false⟩,
  ⟨0x08, 1, 1, 1, .u64, .ro, .host, .any, 0, [], false⟩,
  ⟨0x09, 1, 1, 1, .u64, .ro, .host, .any, 0, [], false⟩,
  ⟨0x0A, 1, 1, 1, .u64, .ro, .host, .any, 0, [], false⟩,
  ⟨0x0B, 1, 1, 1, .u32, .ro, .host, .any, 0, [], false⟩,
  ⟨0x0C, 1, 1, 1, .u32, .ro, .host, .any, 0, [], false⟩,
  ⟨0x0D, 1, 1, 1, .u32, .ro, .host, .any, 0, [], false⟩]

/-- 0x2412. -/
def tab2412 : List Row := [
  ⟨0x01, 1, 1, 1, .u16, .rw, .host, .le 0 4095, 0, [], false⟩,
  ⟨0x02, 1, 1, 1, .u32, .ro, .host, .any, 0, [], false⟩,
  ⟨0x03, 1, 1, 1, .u32, .ro, .host, .any, 0, [], false⟩,
  ⟨0x04, 1, 1, 1, .u32, .ro, .host, .any, 0, [], false⟩,
  ⟨0x05, 1, 1, 1, .u16, .ro, .host, .any, 0, [], false⟩,
  ⟨0x06, 1, 1, 1, .u64, .ro, .host, .any, 0, [], false⟩,
  ⟨0x07, 1, 1, 1, .u32, .ro, .host, .any, 0, [], false⟩]

/-- 0x2420. -/
def tab2420 : List Row := [
  ⟨0x01, 1, 1, 1, .u32, .rw, .sup, .le 0 100000, 500, [], false⟩,
  ⟨0x02, 1, 1, 1, .u8, .ro, .host, .le 0 8, 0, [], false⟩,
  ⟨0x03, 1, 1, 1, .u64, .ro, .host, .any, 0, [], false⟩,
  ⟨0x04, 1, 1, 1, .u32, .ro, .host, .any, 0, [], false⟩,
  ⟨0x05, 1, 1, 1, .u32, .ro, .host, .any, 0, [], false⟩]

/-- 0x2421 to 0x2428. -/
def tab2421 : List Row := [
  ⟨0x01, 1, 1, 1, .u8, .ro, .host, .le 0 3, 0, [], false⟩,
  ⟨0x02, 1, 1, 1, .u16, .ro, .host, .le 0 32767, 0, [], false⟩,
  ⟨0x03, 1, 1, 1, .u16, .ro, .host, .any, 0, [], false⟩,
  ⟨0x04, 1, 1, 1, .u32, .ro, .host, .any, 0, [], false⟩,
  ⟨0x05, 1, 1, 1, .u32, .ro, .host, .any, 0, [], false⟩,
  ⟨0x06, 1, 1, 1, .u64, .ro, .host, .any, 0, [], false⟩]

/-- 0x2430. -/
def tab2430 : List Row := [
  ⟨0x01, 1, 1, 1, .u32, .rw, .sup, .any, 0, [], false⟩,
  ⟨0x02, 1, 1, 1, .u32, .ro, .host, .any, 0, [], false⟩,
  ⟨0x03, 1, 1, 1, .u32, .rw, .sup, .le 0 60000, 2000, [], false⟩,
  ⟨0x04, 1, 1, 1, .u32, .wo, .sup, .any, 0, [], false⟩,
  ⟨0x05, 1, 1, 1, .u32, .ro, .host, .any, 0, [], false⟩,
  ⟨0x06, 1, 1, 1, .u32, .ro, .host, .any, 0, [], false⟩,
  ⟨0x07, 1, 1, 1, .u32, .ro, .host, .any, 0, [], false⟩,
  ⟨0x08, 1, 1, 1, .u64, .ro, .host, .any, 0, [], false⟩,
  ⟨0x09, 1, 1, 1, .u16, .wo, .sup, .any, 0, [], false⟩,
  ⟨0x0A, 1, 1, 1, .u16, .ro, .host, .any, 0, [], false⟩]

/-- 0x2440 to 0x247F. -/
def tab2440 : List Row := [
  ⟨0x01, 1, 1, 1, .u8, .ro, .host, .le 0 3, 0, [], false⟩,
  ⟨0x02, 1, 1, 1, .u64, .ro, .host, .any, 0, [], false⟩,
  ⟨0x03, 1, 1, 1, .u32, .ro, .host, .any, 0, [], false⟩,
  ⟨0x04, 1, 1, 1, .u16, .ro, .host, .any, 0, [], false⟩,
  ⟨0x05, 1, 1, 1, .u8, .ro, .host, .le 0 8, 0, [], false⟩,
  ⟨0x06, 1, 1, 1, .u8, .ro, .host, .enum [1, 2, 4], 1, [], false⟩,
  ⟨0x07, 1, 1, 1, .u64, .ro, .host, .any, 0, [], false⟩,
  ⟨0x08, 1, 1, 1, .u8, .wo, .svc, .le 1 1, 0, [], false⟩,
  ⟨0x09, 1, 1, 1, .u8, .ro, .host, .le 0 100, 0, [], false⟩]

/-- 0x2500. -/
def tab2500 : List Row := [
  ⟨0x01, 1, 1, 1, .u32, .ro, .host, .any, 0, [], false⟩,
  ⟨0x02, 1, 1, 1, .u32, .ro, .host, .any, 0, [], false⟩,
  ⟨0x03, 1, 1, 1, .u32, .ro, .host, .any, 0, [], false⟩,
  ⟨0x04, 1, 1, 1, .u64, .ro, .host, .any, 0, [], false⟩,
  ⟨0x05, 1, 1, 1, .u64, .ro, .host, .any, 0, [], false⟩,
  ⟨0x06, 1, 1, 1, .u64, .ro, .host, .any, 0, [], false⟩,
  ⟨0x07, 1, 1, 1, .u32, .ro, .host, .any, 0, [], false⟩,
  ⟨0x08, 1, 1, 1, .u64, .ro, .host, .any, 0, [], false⟩,
  ⟨0x09, 1, 1, 1, .u64, .ro, .host, .any, 0, [], false⟩,
  ⟨0x0A, 1, 1, 1, .u16, .ro, .host, .le 0 1024, 0, [], false⟩,
  ⟨0x0B, 1, 1, 1, .u16, .ro, .host, .le 0 256, 0, [], false⟩,
  ⟨0x0C, 1, 1, 1, .u32, .ro, .host, .any, 0, [], false⟩,
  ⟨0x0D, 1, 1, 1, .u32, .ro, .host, .any, 0, [], false⟩,
  ⟨0x0E, 1, 1, 1, .u32, .ro, .host, .any, 0, [], false⟩]

/-- 0x2501. -/
def tab2501 : List Row := [
  ⟨0x01, 1, 1, 1, .u16, .rw, .sup, .le 0 500, 0, [], false⟩,
  ⟨0x02, 1, 1, 1, .u16, .rw, .sup, .le 0 500, 0, [], false⟩,
  ⟨0x03, 1, 1, 1, .u16, .rw, .sup, .le 0 1000, 10, [], false⟩,
  ⟨0x04, 1, 1, 1, .u8, .rw, .sup, .le 0 1, 0, [], false⟩,
  ⟨0x05, 1, 1, 1, .u8, .rw, .sup, .le 0 1, 1, [], false⟩,
  ⟨0x06, 1, 1, 1, .u8, .rw, .sup, .le 0 1, 1, [], false⟩,
  ⟨0x07, 1, 1, 1, .u8, .rw, .sup, .mask 7, 7, [], false⟩,
  ⟨0x08, 1, 1, 1, .u32, .rw, .sup, .le 0 100000, 200, [], false⟩,
  ⟨0x09, 1, 1, 1, .bool, .rw, .saf, .le 0 1, 0, [], false⟩,
  ⟨0x0A, 1, 1, 1, .u32, .rw, .sup, .le 0 60000, 100, [], false⟩,
  ⟨0x0B, 1, 1, 1, .u8, .const, .host, .any, 25, [], false⟩,
  ⟨0x0C, 1, 1, 1, .u8, .const, .host, .any, 25, [], false⟩,
  ⟨0x0D, 1, 1, 1, .u8, .const, .host, .any, 10, [], false⟩]

/-- 0x2502. -/
def tab2502 : List Row := [
  ⟨0x01, 1, 1, 1, .u16, .rw, .host, .le 0 1023, 0, [], false⟩,
  ⟨0x02, 1, 1, 1, .u16, .ro, .host, .le 0 4095, 65535, [], false⟩,
  ⟨0x03, 1, 1, 1, .u16, .ro, .host, .any, 0, [], false⟩,
  ⟨0x04, 1, 1, 1, .u16, .ro, .host, .any, 0, [], false⟩,
  ⟨0x05, 1, 1, 1, .u16, .ro, .host, .any, 0, [], false⟩,
  ⟨0x06, 1, 1, 1, .u16, .ro, .host, .any, 0, [], false⟩]

/-- 0x2503. -/
def tab2503 : List Row := [
  ⟨0x01, 1, 1, 1, .u8, .rw, .host, .le 0 255, 0, [], false⟩,
  ⟨0x02, 1, 1, 1, .u16, .ro, .host, .le 0 4095, 65535, [], false⟩,
  ⟨0x03, 1, 1, 1, .u16, .ro, .host, .le 0 2048, 0, [], false⟩,
  ⟨0x04, 1, 1, 1, .u16, .ro, .host, .any, 0, [], false⟩,
  ⟨0x05, 1, 1, 1, .u32, .ro, .host, .any, 0, [], false⟩]

/-- 0x2504. -/
def tab2504 : List Row := [
  ⟨0x01, 1, 1, 1, .u16, .rw, .host, .le 0 4095, 0, [], false⟩,
  ⟨0x02, 1, 1, 1, .u16, .ro, .host, .any, 0, [], false⟩,
  ⟨0x03, 1, 1, 1, .u16, .ro, .host, .any, 0, [], false⟩,
  ⟨0x10, 1, 1, 2, .oct 16, .ro, .host, .any, 0, [], false⟩,
  ⟨0x12, 1, 1, 2, .oct 16, .ro, .host, .any, 0, [], false⟩,
  ⟨0x14, 1, 1, 2, .oct 16, .ro, .host, .any, 0, [], false⟩,
  ⟨0x16, 1, 1, 2, .oct 16, .ro, .host, .any, 0, [], false⟩]

/-- 0x2505. -/
def tab2505 : List Row := [
  ⟨0x01, 1, 1, 1, .u32, .rw, .sup, .le 0 60000, 100, [], false⟩,
  ⟨0x02, 1, 1, 1, .u32, .ro, .host, .any, 0, [], false⟩,
  ⟨0x03, 1, 1, 1, .u16, .ro, .host, .le 0 4095, 65535, [], false⟩]

/-- 0x2580. -/
def tab2580 : List Row := [
  ⟨0x01, 1, 1, 1, .u8, .rw, .host, .le 0 255, 0, [], false⟩]

/-- 0x2581. -/
def tab2581 : List Row := [
  ⟨0x01, 1, 1, 1, .u8, .ro, .host, .le 0 2, 0, [], false⟩,
  ⟨0x02, 1, 1, 1, .u8, .wo, .sup, .le 1 3, 0, [], false⟩,
  ⟨0x03, 1, 1, 1, .u16, .rws, .sup, .le 0 4095, 0, [], false⟩,
  ⟨0x04, 1, 1, 1, .u32, .rws, .sup, .any, 0, [], false⟩,
  ⟨0x05, 1, 1, 1, .u16, .rws, .sup, .any, 0, [], false⟩,
  ⟨0x06, 1, 1, 1, .u8, .rws, .sup, .le 0 7, 0, [], false⟩,
  ⟨0x07, 1, 1, 1, .u32, .rws, .sup, .any, 0, [], false⟩,
  ⟨0x08, 1, 1, 1, .u64, .rws, .sup, .any, 0, [], false⟩,
  ⟨0x09, 1, 1, 1, .u64, .rws, .sup, .any, 0, [], false⟩,
  ⟨0x0A, 1, 1, 1, .u16, .rws, .sup, .le 1 65535, 1, [], false⟩,
  ⟨0x0B, 1, 1, 1, .u8, .rws, .sup, .le 1 16, 1, [], false⟩,
  ⟨0x0C, 1, 1, 1, .u8, .rws, .sup, .le 0 1, 0, [], false⟩,
  ⟨0x0D, 1, 1, 1, .bool, .rws, .sup, .le 0 1, 0, [], false⟩,
  ⟨0x0E, 1, 1, 1, .u8, .rws, .sup, .le 0 63, 0, [], false⟩,
  ⟨0x0F, 1, 1, 1, .u64, .ro, .host, .any, 0, [], false⟩,
  ⟨0x10, 1, 1, 1, .u64, .ro, .host, .any, 0, [], false⟩,
  ⟨0x11, 1, 1, 1, .u32, .ro, .host, .any, 0, [], false⟩,
  ⟨0x12, 1, 1, 1, .u32, .ro, .host, .any, 0, [], false⟩,
  ⟨0x13, 1, 1, 1, .u32, .ro, .host, .any, 0, [], false⟩,
  ⟨0x14, 1, 1, 1, .u64, .ro, .host, .any, 0, [], false⟩,
  ⟨0x20, 16, 1, 1, .u64, .rws, .sup, .any, 0, [], false⟩,
  ⟨0x70, 8, 1, 1, .u64, .ro, .host, .any, 0, [], false⟩]

/-- 0x2582. -/
def tab2582 : List Row := [
  ⟨0x01, 4, 1, 1, .u64, .ro, .host, .any, 0, [], false⟩]

/-- 0x2600. -/
def tab2600 : List Row := [
  ⟨0x01, 1, 1, 1, .u16, .ro, .host, .any, 0, [], false⟩,
  ⟨0x02, 1, 1, 1, .u64, .ro, .host, .any, 0, [], false⟩,
  ⟨0x03, 1, 1, 1, .u64, .ro, .host, .any, 0, [], false⟩,
  ⟨0x04, 1, 1, 1, .u64, .ro, .host, .any, 0, [], false⟩,
  ⟨0x05, 1, 1, 1, .u16, .ro, .host, .any, 0, [], false⟩,
  ⟨0x06, 1, 1, 1, .u64, .ro, .host, .any, 0, [], false⟩,
  ⟨0x07, 1, 1, 1, .u32, .ro, .host, .any, 0, [], false⟩,
  ⟨0x08, 1, 1, 1, .u32, .ro, .host, .any, 0, [], false⟩,
  ⟨0x09, 1, 1, 1, .u64, .ro, .host, .any, 0, [], false⟩,
  ⟨0x0A, 1, 1, 1, .u32, .ro, .host, .any, 0, [], false⟩,
  ⟨0x0B, 1, 1, 1, .u32, .ro, .host, .any, 0, [], false⟩]

/-- 0x2601. -/
def tab2601 : List Row := [
  ⟨0x01, 1, 1, 1, .u8, .rw, .sup, .le 0 64, 16, [], false⟩,
  ⟨0x02, 1, 1, 1, .u16, .const, .host, .any, 256, [], false⟩]

/-- 0x2610. -/
def tab2610 : List Row := [
  ⟨0x01, 1, 1, 1, .u16, .rw, .host, .le 0 4095, 0, [], false⟩,
  ⟨0x02, 1, 1, 1, .u16, .rw, .host, .le 0 65535, 0, [], false⟩,
  ⟨0x03, 1, 1, 1, .u8, .rw, .host, .le 1 4, 1, [], false⟩,
  ⟨0x04, 1, 1, 1, .u32, .rw, .host, .any, 0, [], false⟩,
  ⟨0x05, 1, 1, 1, .u8, .rw, .host, .le 0 63, 0, [], false⟩,
  ⟨0x06, 1, 1, 1, .u32, .rw, .host, .le 0 16777216, 0, [], false⟩,
  ⟨0x07, 1, 1, 1, .bool, .rw, .host, .le 0 1, 0, [], false⟩,
  ⟨0x08, 1, 1, 1, .u64, .rw, .host, .any, 0, [], false⟩,
  ⟨0x09, 1, 1, 1, .u64, .rw, .host, .any, 0, [], false⟩,
  ⟨0x0A, 1, 1, 1, .u8, .rw, .host, .any, 0, [], false⟩,
  ⟨0x0B, 1, 1, 1, .u32, .rw, .host, .any, 0, [], false⟩,
  ⟨0x0C, 1, 1, 1, .u8, .wo, .host, .le 1 1, 0, [], false⟩,
  ⟨0x0D, 1, 1, 1, .u8, .ro, .host, .le 0 4, 0, [], false⟩,
  ⟨0x0E, 1, 1, 1, .u32, .ro, .host, .any, 0, [], false⟩,
  ⟨0x0F, 1, 1, 1, .u16, .ro, .host, .any, 0, [], false⟩,
  ⟨0x10, 1, 1, 1, .u16, .ro, .host, .any, 0, [], false⟩,
  ⟨0x11, 4, 1, 1, .u64, .rw, .host, .any, 0, [], false⟩]

/-- 0x2620. -/
def tab2620 : List Row := [
  ⟨0x01, 1, 1, 1, .u16, .rw, .sup, .step 16 256 16, 64, [], false⟩,
  ⟨0x02, 1, 1, 1, .u16, .ro, .host, .le 0 4096, 0, [], false⟩,
  ⟨0x03, 1, 1, 1, .u16, .ro, .host, .any, 0, [], false⟩,
  ⟨0x04, 1, 1, 1, .u16, .ro, .host, .le 0 2048, 0, [], false⟩,
  ⟨0x05, 1, 1, 1, .u32, .ro, .host, .any, 0, [], false⟩]

/-- 0x2700. -/
def tab2700 : List Row := [
  ⟨0x01, 1, 1, 1, .u64, .ro, .host, .any, 0, [], false⟩,
  ⟨0x02, 1, 1, 1, .u64, .ro, .host, .any, 0, [], false⟩,
  ⟨0x03, 1, 1, 1, .u64, .ro, .host, .any, 0, [], false⟩,
  ⟨0x04, 1, 1, 1, .u64, .ro, .host, .any, 0, [], false⟩,
  ⟨0x05, 1, 1, 1, .u64, .ro, .host, .any, 0, [], false⟩]

/-- 0x2701. -/
def tab2701 : List Row := [
  ⟨0x01, 1, 1, 1, .bool, .rw, .sup, .le 0 1, 1, [], false⟩,
  ⟨0x02, 1, 1, 1, .u64, .ro, .host, .any, 0, [], false⟩,
  ⟨0x03, 1, 1, 1, .u64, .ro, .host, .any, 0, [], false⟩,
  ⟨0x04, 1, 1, 1, .u64, .ro, .host, .any, 0, [], false⟩]

/-- 0x2710. -/
def tab2710 : List Row := [
  ⟨0x01, 1, 1, 1, .u16, .const, .host, .any, 2000, [], false⟩,
  ⟨0x02, 1, 1, 1, .real, .rw, .sup, .realLe 0 1098907648, 1082413548, [], false⟩,
  ⟨0x03, 1, 1, 1, .u64, .ro, .host, .any, 0, [], false⟩,
  ⟨0x04, 1, 1, 1, .u64, .ro, .host, .any, 0, [], false⟩,
  ⟨0x05, 1, 1, 1, .u64, .ro, .host, .any, 0, [], false⟩,
  ⟨0x06, 1, 1, 1, .u64, .ro, .host, .any, 0, [], false⟩,
  ⟨0x07, 1, 1, 1, .u64, .ro, .host, .any, 0, [], false⟩,
  ⟨0x08, 1, 1, 1, .u32, .ro, .host, .any, 0, [], false⟩]

/-- 0x2800. -/
def tab2800 : List Row := [
  ⟨0x01, 1, 1, 1, .u8, .ro, .host, .le 0 8, 0, [], false⟩,
  ⟨0x02, 1, 1, 1, .u64, .ro, .host, .any, 0, [], false⟩,
  ⟨0x03, 1, 1, 1, .u64, .ro, .host, .any, 0, [], false⟩,
  ⟨0x04, 1, 1, 1, .u32, .ro, .host, .any, 0, [], false⟩]

/-- 0x2810 to 0x2817. -/
def tab2810 : List Row := [
  ⟨0x01, 1, 1, 1, .u8, .rws, .sup, .le 0 3, 0, [], false⟩,
  ⟨0x02, 1, 1, 1, .u8, .ro, .host, .le 0 3, 0, [], false⟩,
  ⟨0x03, 1, 1, 1, .u8, .rws, .sup, .le 0 32, 0, [], false⟩,
  ⟨0x04, 1, 1, 1, .u8, .rws, .sup, .le 0 63, 255, [], false⟩,
  ⟨0x05, 1, 1, 2, .domain, .rws, .sup, .any, 0, [], false⟩,
  ⟨0x07, 1, 1, 1, .u16, .rws, .sup, .le 0 500, 50, [], false⟩,
  ⟨0x08, 1, 1, 1, .u32, .rws, .sup, .le 0 500000000, 5000000, [], false⟩,
  ⟨0x09, 1, 1, 1, .u32, .rws, .sup, .le 0 100000000, 0, [], false⟩,
  ⟨0x0A, 1, 1, 1, .u8, .wo, .sup, .le 1 3, 0, [], false⟩,
  ⟨0x0B, 1, 1, 1, .u64, .ro, .host, .any, 0, [], false⟩,
  ⟨0x0C, 1, 1, 1, .u32, .ro, .host, .any, 0, [], false⟩,
  ⟨0x0D, 1, 1, 1, .u16, .ro, .host, .any, 0, [], false⟩,
  ⟨0x0E, 1, 1, 1, .u32, .ro, .host, .any, 0, [], false⟩]

/-- 0x2840 to 0x287F. -/
def tab2840 : List Row := [
  ⟨0x01, 1, 1, 1, .u8, .rws, .sup, .le 0 4, 0, [], false⟩,
  ⟨0x02, 1, 1, 1, .u32, .rws, .sup, .any, 0, [], false⟩,
  ⟨0x03, 1, 1, 1, .u8, .rws, .sup, .le 0 7, 0, [], false⟩,
  ⟨0x04, 1, 1, 1, .u8, .rws, .sup, .le 1 8, 0, [], false⟩,
  ⟨0x05, 1, 1, 1, .u8, .rws, .sup, .le 0 31, 0, [], false⟩,
  ⟨0x06, 1, 1, 1, .bool, .rws, .sup, .le 0 1, 1, [], false⟩,
  ⟨0x07, 1, 1, 1, .real, .rws, .sup, .finitePos, 1099047109, [], false⟩,
  ⟨0x08, 1, 1, 1, .bool, .rws, .sup, .le 0 1, 0, [], false⟩,
  ⟨0x09, 1, 1, 1, .u8, .rws, .sup, .le 0 1, 0, [], false⟩,
  ⟨0x0A, 1, 1, 1, .u32, .rws, .sup, .any, 1291845632, [], true⟩,
  ⟨0x0B, 1, 1, 1, .u32, .rws, .sup, .any, 0, [], false⟩,
  ⟨0x0C, 1, 1, 1, .u16, .rws, .sup, .le 1 65535, 1, [], false⟩,
  ⟨0x10, 6, 1, 1, .real, .rws, .sup, .finitePos, 1065353216, [], false⟩,
  ⟨0x20, 1, 1, 1, .u64, .ro, .host, .any, 0, [], false⟩,
  ⟨0x21, 1, 1, 1, .u64, .ro, .host, .any, 0, [], false⟩,
  ⟨0x22, 1, 1, 1, .u32, .ro, .host, .any, 0, [], false⟩,
  ⟨0x23, 1, 1, 1, .u32, .ro, .host, .any, 0, [], false⟩,
  ⟨0x24, 1, 1, 1, .u32, .ro, .host, .any, 0, [], false⟩,
  ⟨0x25, 1, 1, 1, .u32, .ro, .host, .any, 0, [], false⟩,
  ⟨0x26, 1, 1, 1, .u32, .ro, .host, .any, 0, [], false⟩,
  ⟨0x27, 1, 1, 1, .u32, .ro, .host, .any, 0, [], false⟩,
  ⟨0x28, 1, 1, 1, .u64, .ro, .host, .any, 0, [], false⟩]

/-- 0x2880 to 0x28BF. -/
def tab2880 : List Row := [
  ⟨0x01, 1, 1, 1, .u8, .rws, .sup, .le 0 7, 255, [], false⟩,
  ⟨0x02, 1, 1, 2, .oct 16, .rws, .sup, .any, 18446744073709551615, [], false⟩,
  ⟨0x04, 1, 1, 1, .u32, .rws, .sup, .any, 0, [], false⟩,
  ⟨0x05, 1, 1, 1, .bool, .rws, .sup, .le 0 1, 0, [], false⟩,
  ⟨0x06, 1, 1, 1, .u64, .rws, .sup, .any, 0, [], false⟩,
  ⟨0x07, 1, 1, 1, .u32, .rws, .sup, .any, 0, [], false⟩,
  ⟨0x08, 1, 1, 1, .u64, .rws, .sup, .any, 0, [], false⟩,
  ⟨0x09, 1, 1, 1, .bool, .rws, .sup, .le 0 1, 0, [], false⟩,
  ⟨0x0A, 1, 1, 1, .bool, .rws, .sup, .le 0 1, 0, [], false⟩,
  ⟨0x0B, 1, 1, 1, .u8, .rws, .sup, .le 0 63, 0, [], false⟩,
  ⟨0x0C, 1, 1, 1, .u32, .rws, .sup, .any, 1291911168, [], true⟩,
  ⟨0x0D, 1, 1, 1, .u64, .ro, .host, .any, 0, [], false⟩,
  ⟨0x0E, 1, 1, 1, .u32, .ro, .host, .any, 0, [], false⟩,
  ⟨0x40, 32, 1, 1, .u64, .ro, .host, .any, 0, [], false⟩]

/-- 0x2900. -/
def tab2900 : List Row := [
  ⟨0x01, 1, 1, 1, .u64, .ro, .host, .any, 0, [], false⟩,
  ⟨0x02, 1, 1, 1, .u32, .ro, .host, .any, 0, [], false⟩,
  ⟨0x03, 1, 1, 1, .u32, .ro, .host, .any, 0, [], false⟩,
  ⟨0x04, 1, 1, 1, .u64, .ro, .host, .any, 0, [], false⟩,
  ⟨0x05, 1, 1, 1, .u64, .ro, .host, .any, 0, [], false⟩,
  ⟨0x06, 1, 1, 1, .u64, .ro, .host, .any, 0, [], false⟩,
  ⟨0x07, 1, 1, 1, .u16, .const, .host, .any, 1000, [], false⟩]

/-- 0x2901. -/
def tab2901 : List Row := [
  ⟨0x01, 1, 1, 1, .u16, .rws, .sup, .le 0 4095, 0, [], false⟩,
  ⟨0x02, 1, 1, 1, .u8, .rws, .sup, .le 5 100, 20, [], false⟩,
  ⟨0x03, 1, 1, 1, .u8, .rws, .sup, .le 1 64, 32, [], false⟩,
  ⟨0x04, 1, 1, 1, .u8, .rws, .sup, .le 1 64, 32, [], false⟩,
  ⟨0x05, 1, 1, 1, .u8, .rws, .sup, .le 1 32, 16, [], false⟩,
  ⟨0x06, 1, 1, 1, .real, .rws, .sup, .any, 0, [], false⟩,
  ⟨0x07, 1, 1, 1, .real, .rws, .sup, .any, 0, [], false⟩,
  ⟨0x08, 1, 1, 1, .real, .rws, .sup, .any, 0, [], false⟩,
  ⟨0x09, 1, 1, 1, .bool, .rws, .sup, .le 0 1, 0, [], false⟩]

/-- 0x2902. -/
def tab2902 : List Row := [
  ⟨0x01, 1, 1, 1, .u32, .ro, .host, .any, 1, [], false⟩,
  ⟨0x02, 1, 1, 1, .u64, .ro, .host, .any, 0, [], false⟩,
  ⟨0x03, 1, 1, 1, .u8, .ro, .host, .le 1 8, 1, [], false⟩,
  ⟨0x04, 1, 1, 1, .u8, .const, .host, .any, 8, [], false⟩,
  ⟨0x05, 1, 1, 1, .u32, .ro, .host, .any, 0, [], false⟩,
  ⟨0x06, 1, 1, 1, .u64, .ro, .host, .any, 0, [], false⟩,
  ⟨0x07, 1, 1, 1, .u32, .ro, .host, .any, 0, [], false⟩,
  ⟨0x08, 1, 1, 1, .u32, .ro, .host, .any, 0, [], false⟩,
  ⟨0x09, 1, 1, 1, .u8, .wo, .sup, .le 1 1, 0, [], false⟩]

/-- 0x2910 to 0x2913. -/
def tab2910 : List Row := [
  ⟨0x01, 1, 1, 2, .domain, .rws, .sup, .any, 0, [], false⟩,
  ⟨0x03, 1, 1, 1, .u32, .rws, .sup, .le 0 65536, 16384, [], false⟩,
  ⟨0x04, 1, 1, 1, .u8, .ro, .host, .le 0 32, 0, [], false⟩,
  ⟨0x05, 1, 1, 1, .u16, .ro, .host, .le 0 1024, 0, [], false⟩,
  ⟨0x06, 1, 1, 1, .u32, .ro, .host, .any, 0, [], false⟩,
  ⟨0x07, 1, 1, 1, .u8, .wo, .sup, .le 1 1, 0, [], false⟩]

/-- 0x2920. -/
def tab2920 : List Row := [
  ⟨0x01, 1, 1, 1, .u16, .rw, .sup, .le 1 100, 10, [], false⟩,
  ⟨0x02, 1, 1, 1, .u16, .rw, .sup, .le 0 500, 20, [], false⟩]

/-- 0x2A00. -/
def tab2A00 : List Row := [
  ⟨0x01, 1, 1, 1, .u16, .const, .host, .any, 800, [], false⟩,
  ⟨0x02, 1, 1, 1, .u8, .const, .host, .any, 16, [], false⟩,
  ⟨0x03, 1, 1, 1, .u8, .const, .host, .any, 4, [], false⟩,
  ⟨0x04, 1, 1, 1, .u8, .const, .host, .any, 4, [], false⟩,
  ⟨0x05, 1, 1, 1, .u16, .ro, .host, .le 0 288, 0, [], false⟩,
  ⟨0x06, 1, 1, 1, .u16, .ro, .host, .le 0 288, 0, [], false⟩,
  ⟨0x07, 1, 1, 1, .u32, .ro, .host, .any, 0, [], false⟩,
  ⟨0x08, 1, 1, 1, .u32, .ro, .host, .any, 0, [], false⟩,
  ⟨0x09, 1, 1, 1, .u32, .ro, .host, .any, 0, [], false⟩,
  ⟨0x0A, 1, 1, 1, .u32, .ro, .host, .any, 0, [], false⟩]

/-- 0x2B00 to 0x2C1F. -/
def tab2B00 : List Row := [
  ⟨0x01, 1, 1, 1, .u8, .ro, .host, .le 0 4, 0, [], false⟩,
  ⟨0x02, 1, 1, 1, .u8, .wo, .sup, .le 1 3, 0, [], false⟩,
  ⟨0x03, 1, 1, 1, .u8, .const, .host, .le 1 2, 0, [(0, 255, 1), (256, 287, 2)], false⟩,
  ⟨0x04, 1, 1, 1, .u8, .ro, .host, .le 0 1, 0, [], false⟩,
  ⟨0x05, 1, 1, 2, .domain, .rws, .sup, .any, 0, [], false⟩,
  ⟨0x07, 1, 1, 2, .domain, .rws, .sup, .any, 0, [], false⟩,
  ⟨0x09, 1, 1, 1, .u32, .rws, .sup, .any, 1000000, [], false⟩,
  ⟨0x0A, 1, 1, 1, .u32, .rws, .sup, .any, 20000, [], false⟩,
  ⟨0x0B, 1, 1, 1, .u8, .rws, .sup, .le 0 255, 3, [], false⟩,
  ⟨0x0C, 1, 1, 1, .u8, .rws, .sup, .le 0 2, 0, [], false⟩,
  ⟨0x0D, 1, 1, 1, .u8, .rws, .sup, .le 0 2, 1, [], false⟩,
  ⟨0x0E, 1, 1, 1, .u8, .rws, .sup, .le 0 7, 4, [], false⟩,
  ⟨0x0F, 1, 1, 1, .u16, .rws, .sup, .le 0 4095, 0, [], false⟩,
  ⟨0x10, 1, 1, 1, .u8, .rw, .saf, .le 0 2, 1, [], false⟩,
  ⟨0x11, 8, 1, 1, .real, .rw, .host, .finite, 0, [], false⟩,
  ⟨0x19, 1, 1, 1, .u8, .wo, .host, .le 1 1, 0, [], false⟩,
  ⟨0x1A, 1, 1, 1, .u64, .ro, .host, .any, 0, [], false⟩,
  ⟨0x20, 1, 1, 1, .u64, .ro, .host, .any, 0, [], false⟩,
  ⟨0x21, 1, 1, 1, .u32, .ro, .host, .any, 0, [], false⟩,
  ⟨0x22, 1, 1, 1, .u8, .ro, .host, .any, 0, [], false⟩,
  ⟨0x23, 1, 1, 1, .u32, .ro, .host, .any, 0, [], false⟩,
  ⟨0x24, 1, 1, 1, .u32, .ro, .host, .any, 0, [], false⟩,
  ⟨0x25, 1, 1, 1, .u32, .ro, .host, .any, 0, [], false⟩,
  ⟨0x26, 1, 1, 1, .u32, .ro, .host, .any, 0, [], false⟩,
  ⟨0x27, 1, 1, 1, .u32, .ro, .host, .any, 0, [], false⟩,
  ⟨0x28, 1, 1, 1, .u32, .ro, .host, .any, 0, [], false⟩,
  ⟨0x29, 1, 1, 1, .u32, .ro, .host, .any, 0, [], false⟩,
  ⟨0x2A, 1, 1, 1, .u64, .ro, .host, .any, 0, [], false⟩,
  ⟨0x2B, 1, 1, 1, .u64, .ro, .host, .any, 0, [], false⟩,
  ⟨0x2C, 1, 1, 1, .u64, .ro, .host, .any, 0, [], false⟩,
  ⟨0x30, 8, 1, 1, .real, .ro, .host, .any, 0, [], false⟩]

/-- 0x2D00. -/
def tab2D00 : List Row := [
  ⟨0x01, 1, 1, 1, .u8, .ro, .host, .le 0 2, 0, [], false⟩,
  ⟨0x02, 1, 1, 1, .u32, .ro, .host, .any, 0, [], false⟩,
  ⟨0x03, 1, 1, 1, .u32, .ro, .host, .any, 0, [], false⟩,
  ⟨0x04, 1, 1, 1, .u8, .wo, .saf, .le 1 1, 0, [], false⟩,
  ⟨0x05, 1, 1, 1, .u8, .wo, .saf, .le 1 1, 0, [], false⟩,
  ⟨0x06, 1, 1, 1, .u8, .rw, .saf, .le 0 2, 0, [], false⟩,
  ⟨0x07, 1, 1, 1, .u32, .ro, .host, .any, 0, [], false⟩,
  ⟨0x08, 1, 1, 1, .u8, .rw, .saf, .le 0 2, 0, [], false⟩,
  ⟨0x09, 1, 1, 1, .u8, .rw, .saf, .le 1 2, 2, [], false⟩,
  ⟨0x0A, 1, 1, 1, .u32, .wo, .saf, .any, 0, [], false⟩,
  ⟨0x0B, 1, 1, 1, .u16, .const, .host, .any, 100, [], false⟩,
  ⟨0x0C, 1, 1, 1, .u16, .ro, .host, .any, 0, [], false⟩,
  ⟨0x0D, 1, 1, 1, .u32, .ro, .host, .any, 0, [], false⟩]

/-- 0x2D01. -/
def tab2D01 : List Row := [
  ⟨0x01, 1, 1, 1, .u8, .ro, .host, .le 0 2, 0, [], false⟩,
  ⟨0x02, 1, 1, 1, .u8, .ro, .host, .any, 64, [], false⟩,
  ⟨0x03, 1, 1, 1, .u32, .ro, .host, .any, 0, [], false⟩,
  ⟨0x04, 1, 1, 1, .u32, .ro, .host, .any, 0, [], false⟩,
  ⟨0x05, 1, 1, 1, .u32, .ro, .host, .any, 0, [], false⟩,
  ⟨0x06, 1, 1, 1, .u8, .rw, .saf, .le 1 255, 3, [], false⟩,
  ⟨0x07, 1, 1, 1, .u8, .ro, .host, .le 0 1, 1, [], false⟩]

/-- 0x2D02. -/
def tab2D02 : List Row := [
  ⟨0x01, 1, 1, 1, .u8, .ro, .host, .any, 0, [], false⟩,
  ⟨0x02, 1, 1, 1, .u8, .ro, .host, .any, 0, [], false⟩,
  ⟨0x03, 1, 1, 1, .u16, .rw, .saf, .le 10 1000, 100, [], false⟩,
  ⟨0x04, 1, 1, 1, .u16, .rw, .saf, .le 100 1000, 200, [], false⟩,
  ⟨0x05, 1, 1, 1, .u8, .rw, .saf, .le 2 100, 3, [], false⟩,
  ⟨0x06, 1, 1, 1, .u16, .rw, .saf, .le 5 1000, 50, [], false⟩,
  ⟨0x07, 1, 1, 1, .u32, .ro, .host, .any, 0, [], false⟩,
  ⟨0x08, 1, 1, 1, .u32, .ro, .host, .any, 0, [], false⟩,
  ⟨0x09, 1, 1, 1, .bool, .ro, .host, .le 0 1, 1, [], false⟩]

/-- 0x2D10 to 0x2D1F. -/
def tab2D10 : List Row := [
  ⟨0x01, 1, 1, 1, .u32, .rw, .saf, .le 10 86400000, 0, [(0, 0, 1000), (1, 1, 10000), (2, 4, 1000), (5, 6, 60000), (7, 7, 10000), (8, 8, 60000), (9, 11, 10000), (12, 15, 1000)], false⟩,
  ⟨0x02, 1, 1, 1, .u16, .const, .host, .any, 0, [(0, 0, 8), (1, 1, 256), (2, 2, 4), (3, 3, 16), (4, 4, 8), (5, 6, 64), (7, 7, 16), (8, 9, 64), (10, 10, 128), (11, 13, 4), (14, 14, 2), (15, 15, 16)], false⟩,
  ⟨0x03, 1, 1, 1, .u8, .const, .host, .any, 0, [(0, 0, 2), (1, 1, 20), (2, 3, 5), (4, 5, 10), (6, 8, 5), (9, 10, 2), (11, 11, 5), (12, 13, 2), (14, 14, 5), (15, 15, 2)], false⟩,
  ⟨0x04, 1, 1, 1, .u32, .ro, .host, .any, 0, [], false⟩,
  ⟨0x05, 1, 1, 1, .u64, .ro, .host, .any, 0, [], false⟩,
  ⟨0x06, 1, 1, 1, .u32, .ro, .host, .any, 0, [], false⟩,
  ⟨0x07, 1, 1, 1, .u32, .ro, .host, .any, 0, [], false⟩,
  ⟨0x08, 1, 1, 1, .u32, .ro, .host, .any, 0, [], false⟩,
  ⟨0x09, 1, 1, 1, .u32, .ro, .host, .any, 0, [], false⟩]

/-- 0x2D20. -/
def tab2D20 : List Row := [
  ⟨0x01, 1, 1, 1, .u8, .rw, .host, .any, 0, [], false⟩]

/-- 0x2D21. -/
def tab2D21 : List Row := [
  ⟨0x01, 1, 1, 1, .u32, .rws, .saf, .any, 0, [], false⟩,
  ⟨0x02, 1, 1, 1, .u16, .rws, .saf, .le 1 1000, 3, [], false⟩,
  ⟨0x03, 1, 1, 1, .u8, .rws, .saf, .le 0 2, 0, [], false⟩,
  ⟨0x04, 1, 1, 1, .u8, .ro, .host, .le 0 3, 3, [], false⟩,
  ⟨0x05, 1, 1, 1, .u64, .ro, .host, .any, 18446744073709551615, [], false⟩,
  ⟨0x06, 1, 1, 1, .u32, .ro, .host, .any, 0, [], false⟩,
  ⟨0x07, 1, 1, 1, .u32, .ro, .host, .any, 0, [], false⟩,
  ⟨0x08, 1, 1, 1, .u32, .ro, .host, .any, 0, [], false⟩,
  ⟨0x09, 1, 1, 1, .u16, .ro, .host, .any, 0, [], false⟩,
  ⟨0x0A, 1, 1, 1, .u32, .ro, .host, .any, 0, [], false⟩,
  ⟨0x10, 8, 1, 1, .u64, .rws, .saf, .any, 0, [], false⟩,
  ⟨0x20, 8, 1, 1, .u64, .rws, .saf, .any, 0, [], false⟩,
  ⟨0x30, 8, 1, 1, .real, .rws, .saf, .any, 0, [], false⟩,
  ⟨0x38, 8, 1, 1, .real, .rws, .saf, .any, 0, [], false⟩,
  ⟨0x40, 8, 1, 1, .u32, .rws, .saf, .any, 0, [], false⟩]

/-- 0x2D30. -/
def tab2D30 : List Row := [
  ⟨0x01, 1, 1, 1, .u16, .rw, .saf, .le 1 1000, 3, [], false⟩,
  ⟨0x02, 1, 1, 1, .u32, .rw, .saf, .le 1 60000, 100, [], false⟩,
  ⟨0x03, 1, 1, 1, .u8, .rw, .saf, .le 0 2, 1, [], false⟩,
  ⟨0x04, 1, 1, 1, .u64, .ro, .host, .any, 0, [], false⟩,
  ⟨0x05, 1, 1, 1, .u32, .ro, .host, .any, 0, [], false⟩,
  ⟨0x06, 1, 1, 1, .u16, .ro, .host, .any, 65535, [], false⟩]

/-- 0x2D40 to 0x2D4F. -/
def tab2D40 : List Row := [
  ⟨0x01, 1, 1, 1, .u8, .rws, .saf, .le 0 4, 0, [(0, 0, 1), (1, 1, 2), (2, 2, 3), (3, 3, 4)], false⟩,
  ⟨0x02, 1, 1, 1, .u8, .rws, .saf, .le 0 5, 3, [], false⟩,
  ⟨0x03, 1, 1, 1, .u64, .rws, .saf, .any, 0, [], false⟩,
  ⟨0x04, 1, 1, 1, .u32, .rws, .saf, .any, 0, [], false⟩,
  ⟨0x05, 1, 1, 1, .u64, .rws, .saf, .any, 0, [], false⟩,
  ⟨0x06, 1, 1, 1, .u32, .rws, .saf, .le 0 3600000, 0, [(0, 0, 10), (1, 3, 100)], false⟩,
  ⟨0x07, 1, 1, 1, .u8, .rws, .saf, .le 0 2, 1, [], false⟩,
  ⟨0x08, 1, 1, 1, .u8, .wo, .saf, .le 1 1, 0, [], false⟩,
  ⟨0x09, 1, 1, 1, .u64, .ro, .host, .any, 0, [], false⟩,
  ⟨0x0A, 1, 1, 1, .u64, .ro, .host, .any, 0, [], false⟩,
  ⟨0x0B, 1, 1, 1, .u32, .ro, .host, .any, 0, [], false⟩]

/-- 0x2E00 to 0x2E4F. -/
def tab2E00 : List Row := [
  ⟨0x01, 1, 1, 1, .u8, .ro, .host, .le 0 3, 0, [(77, 77, 2)], false⟩,
  ⟨0x02, 1, 1, 1, .u8, .const, .host, .le 0 1, 0, [(66, 73, 1), (77, 79, 1)], false⟩,
  ⟨0x03, 1, 1, 1, .u16, .ro, .host, .le 550 900, 0, [(0, 72, 750), (73, 73, 800), (74, 79, 750)], false⟩,
  ⟨0x04, 1, 1, 1, .u16, .ro, .host, .le 550 900, 0, [(0, 72, 750), (73, 73, 800), (74, 79, 750)], false⟩,
  ⟨0x05, 1, 1, 1, .u8, .ro, .host, .le 1 32, 32, [], false⟩,
  ⟨0x06, 1, 1, 1, .u16, .rw, .sup, .step 550 900 10, 750, [], false⟩,
  ⟨0x07, 1, 1, 1, .u32, .ro, .host, .any, 0, [], false⟩,
  ⟨0x08, 1, 1, 1, .u32, .ro, .host, .any, 0, [], false⟩,
  ⟨0x09, 1, 1, 1, .u64, .ro, .host, .any, 0, [], false⟩,
  ⟨0x0A, 1, 1, 1, .i16, .ro, .host, .any, 250, [], false⟩,
  ⟨0x0B, 1, 1, 1, .u32, .ro, .host, .any, 0, [], false⟩,
  ⟨0x0C, 1, 1, 1, .u32, .ro, .host, .any, 0, [], false⟩,
  ⟨0x0D, 1, 1, 1, .u32, .ro, .host, .any, 0, [], false⟩,
  ⟨0x0E, 1, 1, 1, .u32, .ro, .host, .any, 0, [], false⟩,
  ⟨0x0F, 1, 1, 1, .u32, .const, .host, .any, 0, [(66, 69, 7000), (70, 70, 2500), (71, 71, 4000), (72, 72, 1500), (73, 73, 2500), (74, 74, 2500), (75, 75, 3000), (76, 76, 2000), (77, 77, 1000), (78, 79, 500)], false⟩]

/-- 0x2E80. -/
def tab2E80 : List Row := [
  ⟨0x01, 1, 1, 1, .u32, .ro, .host, .any, 0, [], false⟩,
  ⟨0x02, 1, 1, 1, .u32, .ro, .host, .any, 48000, [], false⟩,
  ⟨0x03, 1, 1, 1, .u16, .rw, .sup, .le 60 180, 150, [], false⟩,
  ⟨0x04, 1, 1, 1, .bool, .rw, .host, .le 0 1, 0, [], false⟩,
  ⟨0x05, 1, 1, 1, .u16, .rw, .host, .le 60 180, 180, [], false⟩,
  ⟨0x06, 1, 1, 1, .bool, .ro, .host, .le 0 1, 0, [], false⟩,
  ⟨0x07, 1, 1, 1, .u16, .ro, .host, .le 60 180, 180, [], false⟩,
  ⟨0x08, 1, 1, 1, .u16, .ro, .host, .any, 150, [], false⟩,
  ⟨0x09, 1, 1, 1, .u8, .ro, .host, .le 0 3, 0, [], false⟩,
  ⟨0x0A, 1, 1, 1, .u16, .ro, .host, .le 60 180, 180, [], false⟩,
  ⟨0x0B, 1, 1, 1, .u32, .ro, .host, .any, 0, [], false⟩,
  ⟨0x0C, 1, 1, 1, .u32, .ro, .host, .any, 0, [], false⟩,
  ⟨0x0D, 1, 1, 1, .u32, .ro, .host, .any, 0, [], false⟩,
  ⟨0x0E, 1, 1, 1, .u16, .ro, .host, .le 1000 1500, 1000, [], false⟩,
  ⟨0x0F, 1, 1, 1, .u64, .ro, .host, .any, 0, [], false⟩,
  ⟨0x10, 1, 1, 1, .u64, .ro, .host, .any, 0, [], false⟩,
  ⟨0x11, 1, 1, 1, .u32, .ro, .host, .any, 0, [], false⟩,
  ⟨0x12, 1, 1, 1, .u32, .ro, .host, .any, 0, [], false⟩,
  ⟨0x13, 1, 1, 1, .u32, .ro, .host, .any, 0, [], false⟩,
  ⟨0x14, 1, 1, 1, .u64, .ro, .host, .any, 0, [], false⟩,
  ⟨0x15, 1, 1, 1, .u16, .rw, .sup, .le 1 1000, 10, [], false⟩,
  ⟨0x16, 1, 1, 1, .bool, .rw, .sup, .le 0 1, 1, [], false⟩,
  ⟨0x17, 1, 1, 1, .u32, .rw, .sup, .le 0 1000000, 200, [], false⟩]

/-- 0x2E81. -/
def tab2E81 : List Row := [
  ⟨0x01, 1, 1, 1, .i16, .ro, .host, .any, 250, [], false⟩,
  ⟨0x02, 1, 1, 1, .u8, .ro, .host, .le 0 127, 0, [], false⟩,
  ⟨0x03, 1, 1, 1, .i16, .ro, .host, .any, 250, [], false⟩,
  ⟨0x04, 1, 1, 1, .i16, .ro, .host, .any, 250, [], false⟩,
  ⟨0x05, 1, 1, 1, .u8, .rw, .sup, .le 70 99, 95, [], false⟩,
  ⟨0x06, 1, 1, 1, .u8, .const, .host, .any, 100, [], false⟩,
  ⟨0x07, 1, 1, 1, .u8, .const, .host, .any, 115, [], false⟩,
  ⟨0x08, 1, 1, 1, .u8, .const, .host, .any, 120, [], false⟩,
  ⟨0x09, 1, 1, 1, .u32, .ro, .host, .any, 0, [], false⟩,
  ⟨0x0A, 1, 1, 1, .u32, .ro, .host, .any, 0, [], false⟩,
  ⟨0x0B, 1, 1, 1, .u8, .ro, .host, .le 0 128, 0, [], false⟩,
  ⟨0x0E, 1, 1, 1, .u8, .rw, .host, .le 0 127, 0, [], false⟩,
  ⟨0x0F, 1, 1, 1, .i16, .ro, .host, .any, 250, [], false⟩,
  ⟨0x10, 1, 1, 1, .u8, .ro, .host, .le 0 3, 0, [], false⟩,
  ⟨0x11, 1, 1, 1, .u8, .ro, .host, .le 0 127, 255, [], false⟩]

/-- 0x2E82. -/
def tab2E82 : List Row := [
  ⟨0x01, 1, 1, 1, .u16, .const, .host, .any, 250, [], false⟩,
  ⟨0x02, 1, 1, 1, .u32, .ro, .host, .any, 0, [], false⟩,
  ⟨0x03, 1, 1, 1, .u32, .const, .host, .any, 38000, [], false⟩,
  ⟨0x04, 1, 1, 1, .u32, .const, .host, .any, 60000, [], false⟩,
  ⟨0x05, 1, 1, 1, .u32, .ro, .host, .any, 0, [], false⟩,
  ⟨0x06, 1, 1, 1, .u8, .ro, .host, .le 0 20, 18, [], false⟩,
  ⟨0x07, 1, 1, 1, .u8, .ro, .host, .le 0 2, 2, [], false⟩,
  ⟨0x08, 1, 1, 1, .u8, .ro, .host, .le 0 20, 0, [], false⟩]

/-- 0x2F00. -/
def tab2F00 : List Row := [
  ⟨0x01, 1, 1, 1, .u8, .ro, .host, .le 0 6, 0, [], false⟩,
  ⟨0x02, 1, 1, 1, .u8, .ro, .host, .le 0 8, 0, [], false⟩,
  ⟨0x03, 1, 1, 1, .bool, .rw, .sup, .le 0 1, 1, [], false⟩,
  ⟨0x04, 1, 1, 1, .u32, .ro, .host, .any, 0, [], false⟩,
  ⟨0x05, 1, 1, 1, .u32, .ro, .host, .any, 0, [], false⟩,
  ⟨0x06, 1, 1, 1, .u32, .ro, .host, .any, 0, [], false⟩,
  ⟨0x07, 1, 1, 1, .u32, .ro, .host, .any, 0, [], false⟩]

/-- 0x2F10. -/
def tab2F10 : List Row := [
  ⟨0x01, 1, 1, 1, .u8, .rw, .sup, .le 0 2, 0, [], false⟩,
  ⟨0x02, 1, 1, 1, .u8, .rw, .sup, .le 0 3, 0, [], false⟩,
  ⟨0x03, 1, 1, 1, .u8, .rw, .sup, .le 0 1, 0, [], false⟩,
  ⟨0x04, 1, 1, 1, .u8, .rw, .sup, .le 0 1, 0, [], false⟩,
  ⟨0x05, 1, 1, 1, .u8, .rw, .sup, .le 0 127, 0, [], false⟩,
  ⟨0x06, 1, 1, 1, .u8, .rw, .sup, .le 0 31, 5, [], false⟩,
  ⟨0x07, 1, 1, 1, .u32, .rw, .sup, .any, 1000000, [], false⟩,
  ⟨0x08, 1, 1, 1, .bool, .rw, .sup, .le 0 1, 0, [], false⟩,
  ⟨0x09, 1, 1, 1, .u8, .ro, .host, .le 0 3, 255, [], false⟩]

/-- 0x2F11 to 0x2F14. -/
def tab2F11 : List Row := [
  ⟨0x01, 1, 1, 1, .bool, .rw, .sup, .le 0 1, 0, [], false⟩,
  ⟨0x02, 1, 1, 1, .u8, .ro, .host, .le 0 5, 0, [], false⟩,
  ⟨0x03, 1, 1, 1, .u32, .rw, .sup, .any, 0, [], false⟩,
  ⟨0x04, 1, 1, 1, .u32, .rw, .sup, .any, 0, [], false⟩,
  ⟨0x05, 1, 1, 1, .u32, .rw, .sup, .any, 0, [], false⟩,
  ⟨0x06, 1, 1, 1, .u16, .rw, .sup, .le 0 4094, 0, [], false⟩,
  ⟨0x07, 1, 1, 1, .u32, .ro, .host, .any, 0, [], false⟩,
  ⟨0x08, 1, 1, 1, .u64, .ro, .host, .any, 0, [], false⟩,
  ⟨0x09, 1, 1, 1, .u8, .wo, .svc, .le 0 3, 0, [], false⟩,
  ⟨0x0A, 1, 1, 1, .u32, .ro, .host, .any, 0, [], false⟩]

/-- 0x2F20 to 0x2F21. -/
def tab2F20 : List Row := [
  ⟨0x01, 1, 1, 1, .bool, .rws, .sup, .le 0 1, 0, [], false⟩,
  ⟨0x02, 1, 1, 2, .domain, .rws, .sup, .any, 0, [], false⟩,
  ⟨0x04, 1, 1, 1, .u32, .rws, .sup, .step 10000 10000000 1000, 1000000, [], false⟩,
  ⟨0x05, 1, 1, 1, .u32, .rws, .sup, .any, 0, [], false⟩,
  ⟨0x06, 1, 1, 1, .u32, .rws, .sup, .any, 1000, [], false⟩,
  ⟨0x07, 1, 1, 1, .u32, .rws, .sup, .any, 50000, [], false⟩,
  ⟨0x08, 1, 1, 1, .bool, .rws, .sup, .le 0 1, 1, [], false⟩,
  ⟨0x09, 1, 1, 1, .u8, .ro, .host, .le 0 3, 0, [], false⟩,
  ⟨0x0A, 1, 1, 1, .u32, .ro, .host, .any, 0, [], false⟩,
  ⟨0x0B, 1, 1, 1, .u32, .ro, .host, .any, 0, [], false⟩,
  ⟨0x0C, 1, 1, 1, .u32, .ro, .host, .any, 0, [], false⟩,
  ⟨0x0D, 1, 1, 1, .u32, .ro, .host, .any, 0, [], false⟩,
  ⟨0x0E, 1, 1, 1, .u32, .ro, .host, .any, 0, [], false⟩,
  ⟨0x0F, 1, 1, 1, .u16, .ro, .host, .le 0 512, 0, [], false⟩]

/-- 0x2F28. -/
def tab2F28 : List Row := [
  ⟨0x01, 1, 1, 1, .u8, .ro, .host, .le 1 8, 1, [], false⟩,
  ⟨0x02, 1, 1, 1, .u16, .ro, .host, .any, 0, [], false⟩,
  ⟨0x03, 1, 1, 1, .u32, .ro, .host, .any, 0, [], false⟩,
  ⟨0x04, 1, 1, 1, .u32, .ro, .host, .any, 0, [], false⟩]

/-- 0x2F30 to 0x2F37. -/
def tab2F30 : List Row := [
  ⟨0x01, 1, 1, 1, .bool, .rws, .sup, .le 0 1, 0, [], false⟩,
  ⟨0x02, 1, 1, 1, .u8, .rws, .sup, .enum [1, 2, 4], 4, [], false⟩,
  ⟨0x03, 1, 1, 1, .u8, .rws, .sup, .le 0 15, 0, [], false⟩,
  ⟨0x04, 1, 1, 1, .u8, .rws, .sup, .any, 44, [], false⟩,
  ⟨0x05, 1, 1, 1, .bool, .rws, .sup, .le 0 1, 0, [], false⟩,
  ⟨0x06, 1, 1, 1, .u16, .rws, .sup, .any, 0, [], false⟩,
  ⟨0x07, 1, 1, 1, .u8, .rws, .sup, .le 2 32, 4, [], false⟩,
  ⟨0x08, 1, 1, 1, .u16, .rws, .sup, .le 0 4095, 0, [], false⟩,
  ⟨0x09, 1, 1, 1, .u32, .rws, .sup, .any, 100000, [], false⟩,
  ⟨0x0A, 1, 1, 1, .bool, .rws, .sup, .le 0 1, 0, [], false⟩,
  ⟨0x0B, 1, 1, 1, .u64, .ro, .host, .any, 0, [], false⟩,
  ⟨0x0C, 1, 1, 1, .u32, .ro, .host, .any, 0, [], false⟩,
  ⟨0x0D, 1, 1, 1, .u32, .ro, .host, .any, 0, [], false⟩,
  ⟨0x0E, 1, 1, 1, .u32, .ro, .host, .any, 0, [], false⟩,
  ⟨0x0F, 1, 1, 1, .u32, .ro, .host, .any, 0, [], false⟩,
  ⟨0x10, 1, 1, 1, .u32, .ro, .host, .any, 0, [], false⟩]

/-- 0x2F40 to 0x2F47. -/
def tab2F40 : List Row := [
  ⟨0x01, 1, 1, 1, .u8, .rws, .sup, .le 0 1, 0, [], false⟩,
  ⟨0x02, 1, 1, 1, .u8, .rws, .sup, .le 4 200, 20, [], false⟩,
  ⟨0x03, 1, 1, 1, .u8, .rws, .sup, .le 0 3, 0, [], false⟩,
  ⟨0x04, 1, 1, 1, .u8, .rws, .sup, .enum [8, 16, 24, 32], 8, [], false⟩,
  ⟨0x05, 1, 1, 1, .u8, .rws, .sup, .le 0 64, 0, [], false⟩,
  ⟨0x06, 1, 1, 1, .u32, .rws, .sup, .any, 0, [], false⟩,
  ⟨0x07, 1, 1, 1, .u32, .rws, .sup, .any, 0, [], false⟩,
  ⟨0x08, 1, 1, 1, .u8, .rws, .sup, .le 0 15, 255, [], false⟩,
  ⟨0x09, 1, 1, 8, .oct 64, .rws, .sup, .any, 0, [], false⟩,
  ⟨0x11, 1, 1, 1, .u8, .rws, .sup, .le 0 1, 1, [], false⟩,
  ⟨0x12, 1, 1, 1, .bool, .rws, .sup, .le 0 1, 1, [], false⟩,
  ⟨0x13, 1, 1, 1, .u64, .ro, .host, .any, 0, [], false⟩]

/-- 0x2F60 to 0x2F67. -/
def tab2F60 : List Row := [
  ⟨0x01, 1, 1, 2, .domain, .rws, .sup, .any, 0, [], false⟩,
  ⟨0x03, 1, 1, 1, .u16, .rws, .sup, .le 0 1023, 0, [], false⟩,
  ⟨0x04, 1, 1, 1, .u32, .rws, .sup, .any, 0, [], false⟩,
  ⟨0x05, 1, 1, 1, .u32, .rws, .sup, .any, 0, [], false⟩,
  ⟨0x06, 1, 1, 1, .u64, .ro, .host, .any, 0, [], false⟩,
  ⟨0x07, 1, 1, 1, .u32, .ro, .host, .any, 0, [], false⟩]

/-- 0x2F80. -/
def tab2F80 : List Row := [
  ⟨0x01, 1, 1, 1, .bool, .ro, .host, .le 0 1, 0, [], false⟩,
  ⟨0x02, 1, 1, 1, .bool, .ro, .host, .le 0 1, 1, [], false⟩,
  ⟨0x03, 1, 1, 1, .u8, .ro, .host, .any, 4, [], false⟩,
  ⟨0x04, 1, 1, 1, .bool, .ro, .host, .le 0 1, 0, [], false⟩,
  ⟨0x05, 1, 1, 1, .u32, .ro, .host, .any, 0, [], false⟩,
  ⟨0x06, 1, 1, 1, .u32, .ro, .host, .any, 0, [], false⟩,
  ⟨0x07, 1, 1, 1, .u32, .const, .host, .any, 454198607, [], false⟩,
  ⟨0x08, 1, 1, 1, .u16, .const, .host, .any, 726, [], false⟩]

/-- 0x2F81. -/
def tab2F81 : List Row := [
  ⟨0x01, 1, 1, 1, .u8, .const, .host, .le 0 1, 0, [], false⟩,
  ⟨0x02, 1, 1, 1, .u8, .ro, .host, .le 64 71, 64, [], false⟩,
  ⟨0x03, 1, 1, 1, .bool, .ro, .host, .le 0 1, 1, [], false⟩,
  ⟨0x04, 1, 1, 1, .u32, .ro, .host, .any, 48000, [], false⟩,
  ⟨0x05, 1, 1, 1, .bool, .ro, .host, .le 0 1, 0, [], false⟩,
  ⟨0x06, 1, 1, 1, .u16, .ro, .host, .any, 3300, [], false⟩,
  ⟨0x07, 1, 1, 1, .u16, .ro, .host, .any, 3300, [], false⟩,
  ⟨0x08, 1, 1, 1, .i16, .ro, .host, .any, 250, [], false⟩]

/-- 0x3000 to 0x3FFF. -/
def tab3000 : List Row := [
  ⟨0x01, 1, 1, 1, .u8, .rw, .host, .le 0 5, 0, [], false⟩,
  ⟨0x02, 1, 1, 1, .u8, .ro, .host, .le 0 15, 255, [], false⟩,
  ⟨0x03, 1, 1, 1, .u16, .rw, .host, .le 0 4095, 0, [], false⟩,
  ⟨0x04, 1, 1, 1, .u32, .rw, .host, .any, 0, [], false⟩,
  ⟨0x05, 1, 1, 1, .u16, .rw, .host, .any, 0, [], false⟩,
  ⟨0x06, 1, 1, 1, .u8, .rw, .host, .le 0 32, 0, [], false⟩,
  ⟨0x07, 1, 1, 1, .u32, .rw, .host, .mask 0xF, 0, [], false⟩,
  ⟨0x08, 1, 1, 1, .u8, .rw, .host, .le 0 63, 0, [], false⟩,
  ⟨0x09, 1, 1, 1, .u64, .rw, .host, .any, 0, [], false⟩,
  ⟨0x0A, 1, 1, 1, .u32, .ro, .host, .any, 0, [], false⟩,
  ⟨0x10, 32, 3, 1, .u64, .rw, .host, .any, 0, [], false⟩,
  ⟨0x11, 32, 3, 1, .u64, .rw, .host, .any, 0, [], false⟩,
  ⟨0x12, 32, 3, 1, .u64, .rw, .host, .argMeta, 0, [], false⟩,
  ⟨0x70, 8, 1, 1, .u64, .ro, .host, .any, 0, [], false⟩]

/-- 0x4000 to 0x4FFF. -/
def tab4000 : List Row := [
  ⟨0x01, 1, 1, 1, .u8, .rw, .sup, .le 0 1, 0, [], false⟩,
  ⟨0x02, 1, 1, 1, .u8, .rws, .sup, .le 1 3, 3, [], false⟩,
  ⟨0x03, 1, 1, 1, .u16, .rws, .sup, .any, 0, [], false⟩,
  ⟨0x04, 1, 1, 1, .u16, .rws, .sup, .le 0 4096, 0, [], false⟩,
  ⟨0x05, 1, 1, 1, .u32, .rws, .sup, .any, 0, [], false⟩,
  ⟨0x06, 1, 1, 1, .u8, .rws, .sup, .le 0 64, 0, [], false⟩,
  ⟨0x07, 1, 1, 1, .u16, .rws, .sup, .le 1 1000, 100, [], false⟩,
  ⟨0x08, 1, 1, 1, .u16, .rws, .sup, .step 550 900 10, 750, [], false⟩,
  ⟨0x09, 1, 1, 1, .u64, .rws, .sup, .any, 0, [], false⟩,
  ⟨0x0A, 1, 1, 1, .u64, .rws, .sup, .any, 0, [], false⟩,
  ⟨0x0B, 1, 1, 1, .u64, .ro, .host, .any, 0, [], false⟩,
  ⟨0x0C, 1, 1, 1, .u64, .ro, .host, .any, 0, [], false⟩,
  ⟨0x0D, 1, 1, 1, .u64, .ro, .host, .any, 0, [], false⟩,
  ⟨0x0E, 1, 1, 1, .u32, .ro, .host, .any, 0, [], false⟩,
  ⟨0x0F, 1, 1, 1, .u32, .ro, .host, .any, 0, [], false⟩,
  ⟨0x10, 1, 1, 1, .u64, .ro, .host, .any, 0, [], false⟩,
  ⟨0x11, 1, 1, 1, .u32, .ro, .host, .any, 0, [], false⟩,
  ⟨0x12, 1, 1, 1, .u32, .ro, .host, .any, 0, [], false⟩,
  ⟨0x13, 1, 1, 1, .u64, .ro, .host, .any, 0, [], false⟩,
  ⟨0x14, 1, 1, 1, .u32, .ro, .host, .any, 0, [], false⟩,
  ⟨0x15, 1, 1, 1, .u8, .wo, .sup, .le 1 1, 0, [], false⟩]

/-- 0x5000 to 0x5FFF. -/
def tab5000 : List Row := [
  ⟨0x01, 1, 1, 1, .u8, .ro, .host, .le 0 4, 0, [], false⟩,
  ⟨0x02, 1, 1, 1, .u8, .wo, .host, .le 1 8, 0, [], false⟩,
  ⟨0x03, 1, 1, 1, .u16, .rws, .host, .le 0 4095, 0, [], false⟩,
  ⟨0x04, 1, 1, 1, .u16, .rws, .host, .le 0 4095, 0, [], false⟩,
  ⟨0x05, 1, 1, 1, .u8, .rws, .host, .le 0 255, 0, [], false⟩,
  ⟨0x06, 1, 1, 1, .u32, .rws, .host, .le 0 1048576, 0, [], false⟩,
  ⟨0x07, 1, 1, 1, .u8, .rws, .host, .le 0 2, 0, [], false⟩,
  ⟨0x08, 1, 1, 1, .u8, .rws, .host, .le 0 1, 0, [], false⟩,
  ⟨0x09, 1, 1, 1, .u8, .rws, .host, .le 0 2, 0, [], false⟩,
  ⟨0x0A, 1, 1, 1, .u8, .rws, .host, .le 0 32, 0, [], false⟩,
  ⟨0x0B, 1, 1, 1, .u8, .rws, .host, .any, 0, [], false⟩,
  ⟨0x0C, 1, 1, 1, .bool, .rws, .host, .le 0 1, 0, [], false⟩,
  ⟨0x0D, 1, 1, 1, .u32, .rws, .host, .any, 0, [], false⟩,
  ⟨0x0E, 1, 1, 1, .bool, .rws, .host, .le 0 1, 1, [], false⟩,
  ⟨0x0F, 1, 1, 1, .u64, .rws, .host, .any, 0, [], false⟩,
  ⟨0x10, 1, 1, 1, .u64, .ro, .host, .any, 0, [], false⟩,
  ⟨0x11, 1, 1, 1, .u8, .ro, .host, .le 0 4, 0, [], false⟩,
  ⟨0x12, 1, 1, 1, .u8, .ro, .host, .le 0 65, 255, [], false⟩,
  ⟨0x13, 1, 1, 1, .u64, .ro, .host, .any, 0, [], false⟩,
  ⟨0x14, 1, 1, 1, .u16, .ro, .host, .any, 0, [], false⟩,
  ⟨0x15, 1, 1, 1, .u64, .ro, .host, .any, 0, [], false⟩,
  ⟨0x16, 1, 1, 1, .i16, .ro, .host, .any, 0, [], false⟩,
  ⟨0x17, 1, 1, 1, .i16, .ro, .host, .any, 0, [], false⟩,
  ⟨0x18, 1, 1, 1, .real, .ro, .host, .any, 0, [], false⟩,
  ⟨0x19, 1, 1, 1, .real, .ro, .host, .any, 0, [], false⟩,
  ⟨0x1A, 1, 1, 1, .u32, .ro, .host, .any, 0, [], false⟩,
  ⟨0x1B, 1, 1, 1, .u32, .ro, .host, .any, 0, [], false⟩,
  ⟨0x1C, 1, 1, 1, .u32, .ro, .host, .any, 0, [], false⟩,
  ⟨0x1D, 1, 1, 1, .u32, .ro, .host, .any, 0, [], false⟩,
  ⟨0x1E, 1, 1, 1, .u16, .ro, .host, .any, 0, [], false⟩,
  ⟨0x1F, 1, 1, 1, .u8, .ro, .host, .le 0 8, 0, [], false⟩,
  ⟨0x20, 1, 1, 1, .u64, .ro, .host, .any, 0, [], false⟩,
  ⟨0x21, 1, 1, 1, .u64, .ro, .host, .any, 18446744073709551615, [], false⟩]

abbrev DEVICE_TYPE : Nat := 0x100001
abbrev ERROR_REGISTER : Nat := 0x100101
abbrev DEVICE_NAME : Nat := 0x100801
abbrev STORE_PARAMETERS (a : Nat) : Nat := 0x101001 + a
abbrev RESTORE_DEFAULTS (a : Nat) : Nat := 0x101101 + a
abbrev STANDARD_IDENTITY (a : Nat) : Nat := 0x101801 + a
abbrev TXPDO : Nat := 0x1A0001
abbrev SYNC_MANAGER (n : Nat) : Nat := 0x1C0001 + n * 256
abbrev DEVICE_STATE : Nat := 0x200001
abbrev DEVICE_COMMAND : Nat := 0x200002
abbrev AUTO_OPERATIONAL : Nat := 0x200003
abbrev BOOT_STATUS : Nat := 0x200004
abbrev RESET_CAUSE : Nat := 0x200005
abbrev BOOT_COUNT : Nat := 0x200006
abbrev T_PREOP_NS : Nat := 0x200007
abbrev T_TRAINING_NS : Nat := 0x200008
abbrev T_FIELDS_NS : Nat := 0x200009
abbrev T_OPERATIONAL_NS : Nat := 0x20000A
abbrev POLICY_STATE : Nat := 0x20000B
abbrev POLICY_WATCHDOG_MS : Nat := 0x20000C
abbrev POLICY_RESTARTS : Nat := 0x20000D
abbrev HANDOVER_LAST_NS : Nat := 0x20000E
abbrev STATE_CHANGES : Nat := 0x20000F
abbrev PROG_IMAGE (ses : Nat) : Nat := ses * 16777216 + 0x201001
abbrev PROG_LOAD_STATUS (ses : Nat) : Nat := ses * 16777216 + 0x201003
abbrev PROG_HANDLE (ses : Nat) : Nat := ses * 16777216 + 0x201004
abbrev PROG_REASON (ses : Nat) : Nat := ses * 16777216 + 0x201005
abbrev PROG_UNLOAD : Nat := 0x201006
abbrev PROGRAMS_LOADED : Nat := 0x201007
abbrev PROGRAM_SPACE_FREE_KIB : Nat := 0x201008
abbrev PROG_COUNTER : Nat := 0x201009
abbrev PROG_COUNTER_COMMIT : Nat := 0x20100A
abbrev IMG_WRITE (n : Nat) : Nat := 0x202101 + n * 256
abbrev IMG_WRITE_STATUS (n : Nat) : Nat := 0x202103 + n * 256
abbrev IMG_REASON (n : Nat) : Nat := 0x202104 + n * 256
abbrev IMG_ACTIVE_SLOT (n : Nat) : Nat := 0x202105 + n * 256
abbrev IMG_VERSION_0 (n : Nat) : Nat := 0x202106 + n * 256
abbrev IMG_VERSION_1 (n : Nat) : Nat := 0x202107 + n * 256
abbrev IMG_SLOT_STATE (n : Nat) : Nat := 0x202108 + n * 256
abbrev IMG_COUNTER (n : Nat) : Nat := 0x202109 + n * 256
abbrev IMG_COUNTER_COMMIT (n : Nat) : Nat := 0x20210A + n * 256
abbrev IMG_ACTIVATE (n : Nat) : Nat := 0x20210B + n * 256
abbrev IMG_RUNNING_DIGEST (n : Nat) : Nat := 0x202110 + n * 256
abbrev DEVICE_ID : Nat := 0x208001
abbrev OWNER_STATE : Nat := 0x208003
abbrev OWNER_KEY_ID : Nat := 0x208004
abbrev AUTH_CHALLENGE (ses : Nat) : Nat := ses * 16777216 + 0x20800E
abbrev IDENTITY_CERT : Nat := 0x208020
abbrev ATTEST_CERT : Nat := 0x208050
abbrev ATTEST_NONCE (ses : Nat) : Nat := ses * 16777216 + 0x208101
abbrev ATTEST_GO (ses : Nat) : Nat := ses * 16777216 + 0x208105
abbrev ATTEST_STATUS (ses : Nat) : Nat := ses * 16777216 + 0x208106
abbrev ATTEST_REPORT (ses : Nat) : Nat := ses * 16777216 + 0x208110
abbrev DEBUG_LEVEL : Nat := 0x208201
abbrev DEBUG_TOKEN : Nat := 0x208202
abbrev DEBUG_SINCE_BOOT : Nat := 0x208204
abbrev DEBUG_END : Nat := 0x208205
abbrev HOST_COMPLETION_BASE : Nat := 0x210101
abbrev HOST_COMPLETION_ENABLE : Nat := 0x210102
abbrev VECTOR_HOLDOFF_NS (a : Nat) : Nat := 0x210201 + a
abbrev TRANSPORT (n : Nat) : Nat := 0x211001 + n * 256
abbrev LEVEL (n : Nat) : Nat := 0x211002 + n * 256
abbrev PEER_ID (n : Nat) : Nat := 0x211003 + n * 256
abbrev IDLE_TIMEOUT_MS (n : Nat) : Nat := 0x211004 + n * 256
abbrev OPENED_TIME (n : Nat) : Nat := 0x211005 + n * 256
abbrev OPENED_TIME_FRAC (n : Nat) : Nat := 0x211006 + n * 256
abbrev ABORT_COUNT (n : Nat) : Nat := 0x211007 + n * 256
abbrev LAST_ABORT (n : Nat) : Nat := 0x211008 + n * 256
abbrev LAST_ABORT_OBJECT (n : Nat) : Nat := 0x211009 + n * 256
abbrev ELEVATE (n : Nat) : Nat := 0x21100A + n * 256
abbrev DROP_LEVEL (n : Nat) : Nat := 0x21100C + n * 256
abbrev EVENT_TOTAL : Nat := 0x218001
abbrev EVENT_CAPACITY : Nat := 0x218002
abbrev EVENT_MSIX_EN : Nat := 0x218003
abbrev EVENT_MSIX_VECTOR : Nat := 0x218004
abbrev EVENT_MSIX_SEVERITY : Nat := 0x218005
abbrev EMCY_EN : Nat := 0x218006
abbrev EMCY_SEVERITY : Nat := 0x218007
abbrev MDP_NOTIFY_EN : Nat := 0x218008
abbrev MDP_NOTIFY_SEVERITY : Nat := 0x218009
abbrev EVENT_FLASH_COUNT : Nat := 0x21800A
abbrev FLASH_SELECT (ses : Nat) : Nat := ses * 16777216 + 0x218101
abbrev FLASH_ENTRY : Nat := 0x218102
abbrev FLASH_ENTRY_BOOT : Nat := 0x218106
abbrev FLASH_NEWEST : Nat := 0x218107
abbrev EVENT_RING (n a : Nat) : Nat := 0x219001 + n * 256 + a
abbrev TB_SOURCE : Nat := 0x220001
abbrev TB_STATE : Nat := 0x220002
abbrev TB_OFFSET_NS : Nat := 0x220003
abbrev TB_RATE_PPB : Nat := 0x220004
abbrev LOCK_THRESHOLD_NS : Nat := 0x220005
abbrev SOURCE_TIMEOUT_MS : Nat := 0x220006
abbrev STEP_THRESHOLD_NS : Nat := 0x220007
abbrev SLEW_MAX_PPM : Nat := 0x220008
abbrev DC_EPOCH_OFFSET_NS : Nat := 0x220009
abbrev TB_SET : Nat := 0x22000A
abbrev TIME_NOW : Nat := 0x22000B
abbrev TIME_NOW_FRAC (ses : Nat) : Nat := ses * 16777216 + 0x22000C
abbrev TB_STEPS : Nat := 0x22000D
abbrev TB_LOCK_LOSSES : Nat := 0x22000E
abbrev HOLDOVER_NS : Nat := 0x22000F
abbrev TRIG_MODE (n : Nat) : Nat := 0x221001 + n * 256
abbrev TRIG_START (n : Nat) : Nat := 0x221002 + n * 256
abbrev TRIG_PERIOD_NS (n : Nat) : Nat := 0x221003 + n * 256
abbrev TRIG_WIDTH_NS (n : Nat) : Nat := 0x221004 + n * 256
abbrev TRIG_COUNT (n : Nat) : Nat := 0x221005 + n * 256
abbrev TRIG_UNLIMITED (n : Nat) : Nat := 0x221006 + n * 256
abbrev TRIG_POLARITY (n : Nat) : Nat := 0x221007 + n * 256
abbrev TRIG_EDGE_RATE (n : Nat) : Nat := 0x221008 + n * 256
abbrev TRIG_SAFEHOLD (n : Nat) : Nat := 0x221009 + n * 256
abbrev TRIG_PULSES (n : Nat) : Nat := 0x22100A + n * 256
abbrev TRIG_LAST_EDGE (n : Nat) : Nat := 0x22100B + n * 256
abbrev TRIG_SKIPPED (n : Nat) : Nat := 0x22100C + n * 256
abbrev CAP_EDGES (n : Nat) : Nat := 0x222001 + n * 256
abbrev CAP_FILTER_NS (n : Nat) : Nat := 0x222002 + n * 256
abbrev CAP_COUNT (n : Nat) : Nat := 0x222003 + n * 256
abbrev CAP_DROPPED (n : Nat) : Nat := 0x222004 + n * 256
abbrev CAP_LEVEL (n : Nat) : Nat := 0x222005 + n * 256
abbrev CAP_FIFO_FILL (n : Nat) : Nat := 0x222006 + n * 256
abbrev CAP_READ (n : Nat) : Nat := 0x222007 + n * 256
abbrev CAP_READ_INFO (ses n : Nat) : Nat := ses * 16777216 + 0x222008 + n * 256
abbrev STAMP_RULE (n : Nat) : Nat := 0x223001 + n * 256
abbrev STAMP_LINK (n : Nat) : Nat := 0x223002 + n * 256
abbrev STAMP_OFFSET_NS (n : Nat) : Nat := 0x223003 + n * 256
abbrev STAMP_LINK_WINDOW_NS (n : Nat) : Nat := 0x223004 + n * 256
abbrev ARRIVALS (n : Nat) : Nat := 0x223005 + n * 256
abbrev LINK_MISSES (n : Nat) : Nat := 0x223006 + n * 256
abbrev FIELD_ROLE (n : Nat) : Nat := 0x230001 + n * 256
abbrev FIELD_ACTIVE_ENGINES (n : Nat) : Nat := 0x230002 + n * 256
abbrev HEALTHY_ENGINES (n : Nat) : Nat := 0x230003 + n * 256
abbrev ENGINE_ACTIVE_MASK (n : Nat) : Nat := 0x230004 + n * 256
abbrev ENGINE_RETIRED_MASK (n : Nat) : Nat := 0x230005 + n * 256
abbrev ARRAY_STEPS (n : Nat) : Nat := 0x230006 + n * 256
abbrev BUSY_NS (n : Nat) : Nat := 0x230007 + n * 256
abbrev RAIL_MV (n : Nat) : Nat := 0x230008 + n * 256
abbrev PACER_STEP (n : Nat) : Nat := 0x230009 + n * 256
abbrev DROOP_EVENTS (n : Nat) : Nat := 0x23000A + n * 256
abbrev ECC_CORRECTED (n : Nat) : Nat := 0x23000B + n * 256
abbrev ECC_UNCORRECTED (n : Nat) : Nat := 0x23000C + n * 256
abbrev ROWS_SPARED (n : Nat) : Nat := 0x23000D + n * 256
abbrev ROWS_MARKED (n : Nat) : Nat := 0x23000E + n * 256
abbrev ENGINE_FAULTS (n : Nat) : Nat := 0x23000F + n * 256
abbrev FALLOW_REQUEST (n : Nat) : Nat := 0x230010 + n * 256
abbrev FALLOW_STATUS (n : Nat) : Nat := 0x230011 + n * 256
abbrev CALIB_LAST_TIME (n : Nat) : Nat := 0x230012 + n * 256
abbrev FIELDS_ACTIVE : Nat := 0x238001
abbrev SPARE_FIELDS : Nat := 0x238002
abbrev ENGINES_ACTIVE : Nat := 0x238003
abbrev SPARE_ENGINES : Nat := 0x238004
abbrev ENGINES_RETIRED : Nat := 0x238005
abbrev SUBSTITUTIONS : Nat := 0x238006
abbrev JOBS_RETRIED : Nat := 0x238007
abbrev JOBS_FAULT_ENDED : Nat := 0x238008
abbrev AUTO_FALLOW_EN : Nat := 0x238009
abbrev FLITS_REQUEST : Nat := 0x238101
abbrev FLITS_RESPONSE : Nat := 0x238102
abbrev CREDIT_STALL_NS : Nat := 0x238103
abbrev AGED_FORWARDS : Nat := 0x238104
abbrev LANE_CORRECTED : Nat := 0x238105
abbrev LANE_REPLAYS : Nat := 0x238106
abbrev WAVE_SLOT_ENGINES : Nat := 0x238201
abbrev WAVE_SLOT_NS : Nat := 0x238202
abbrev WAVE_RELEASES : Nat := 0x238203
abbrev WAVE_LAST_NS : Nat := 0x238204
abbrev WAVE_DROOPS : Nat := 0x238205
abbrev WAVE_NEXT_FIELD : Nat := 0x238206
abbrev CALIB_OVERDUE_MS : Nat := 0x238301
abbrev SCRUB_PASS_MS : Nat := 0x238302
abbrev SCRUB_OVERDUE_US : Nat := 0x238303
abbrev SCRUB_PASSES : Nat := 0x238304
abbrev SCRUB_LATE : Nat := 0x238305
abbrev SATURATED : Nat := 0x23F001
abbrev NAN_PRODUCED : Nat := 0x23F002
abbrev NAN_TO_ZERO : Nat := 0x23F003
abbrev INF_SATURATED : Nat := 0x23F004
abbrev ZERO_SCALE : Nat := 0x23F005
abbrev NONFINITE_SCALE : Nat := 0x23F006
abbrev WIDE_SUM_INEXACT : Nat := 0x23F007
abbrev BOOK_STALLS : Nat := 0x23F008
abbrev ARITH_CLEAR : Nat := 0x23F009
abbrev CHANNELS_ACTIVE : Nat := 0x240001
abbrev HEADLAND_FREE : Nat := 0x240002
abbrev USABLE_MIB : Nat := 0x240003
abbrev PAYLOAD_SLOTS : Nat := 0x240004
abbrev AUTO_RETIRE_EN : Nat := 0x240005
abbrev RETIRE_CE_PER_HOUR : Nat := 0x240006
abbrev MAINT_WINDOWS : Nat := 0x240007
abbrev MAINT_MAX_WAIT_NS : Nat := 0x240008
abbrev MODULE_NUMBER : Nat := 0x240101
abbrev HEADLAND_UNITS : Nat := 0x240102
abbrev MAP_BASE : Nat := 0x240103
abbrev TAG_BASE : Nat := 0x240104
abbrev PAYLOAD_BASE : Nat := 0x240105
abbrev HEADLAND_BASE : Nat := 0x240106
abbrev MAP_ENTRIES : Nat := 0x240107
abbrev GLEANER_PASS_S : Nat := 0x240201
abbrev GLEANER_OVERDUE_US : Nat := 0x240202
abbrev GLEANER_PASSES : Nat := 0x240203
abbrev GLEANER_LATE : Nat := 0x240204
abbrev GLEANER_CORRECTED : Nat := 0x240205
abbrev GLEANER_UNCORRECTED : Nat := 0x240206
abbrev TELEMETRY_OVERDUE_US : Nat := 0x240301
abbrev FLASH_BG_OVERDUE_MS : Nat := 0x240302
abbrev BG_YIELDS : Nat := 0x240303
abbrev BG_OVERDUE_GRANTS : Nat := 0x240304
abbrev SURVEYOR_PERIOD_US : Nat := 0x241001
abbrev MIGRATE_LIMIT_MBPS : Nat := 0x241002
abbrev STORE_COPY_SHARE : Nat := 0x241003
abbrev PEER_TIER_EN : Nat := 0x241004
abbrev SEED_STOCK_EN : Nat := 0x241005
abbrev HEAT_AVOID_C : Nat := 0x241006
abbrev PLACE_MODE : Nat := 0x241007
abbrev TILES_ALLOCATED : Nat := 0x241101
abbrev SLOTS_FREE : Nat := 0x241102
abbrev TILES_ON_PEER : Nat := 0x241103
abbrev TILES_SHARED : Nat := 0x241104
abbrev SEED_MISSING : Nat := 0x241105
abbrev TILES_LOST : Nat := 0x241106
abbrev MIGRATIONS : Nat := 0x241107
abbrev MIGRATE_ABORTS : Nat := 0x241108
abbrev BYTES_MIGRATED : Nat := 0x241109
abbrev DISPATCH_PLACEMENTS : Nat := 0x24110A
abbrev JOB_MOVES : Nat := 0x24110B
abbrev REPLICA_READS : Nat := 0x24110C
abbrev REFUSED_DECISIONS : Nat := 0x24110D
abbrev QUERY_CONTEXT (ses : Nat) : Nat := ses * 16777216 + 0x241201
abbrev Q_TILES_LOCAL : Nat := 0x241202
abbrev Q_TILES_PEER : Nat := 0x241203
abbrev Q_TILES_COPIED : Nat := 0x241204
abbrev Q_GRANULES : Nat := 0x241205
abbrev Q_FIELD_MASK : Nat := 0x241206
abbrev Q_TILES_LOST : Nat := 0x241207
abbrev PEER_TIMEOUT_US : Nat := 0x242001
abbrev LEASES_ACTIVE : Nat := 0x242002
abbrev PEER_ACCESSES : Nat := 0x242003
abbrev PEER_TIMEOUTS : Nat := 0x242004
abbrev PEER_AUTH_FAILS : Nat := 0x242005
abbrev LEASE_STATE (n : Nat) : Nat := 0x242101 + n * 256
abbrev LENDER_MODULE (n : Nat) : Nat := 0x242102 + n * 256
abbrev LEASE_ID (n : Nat) : Nat := 0x242103 + n * 256
abbrev LEASE_SLOTS (n : Nat) : Nat := 0x242104 + n * 256
abbrev SLOTS_USED (n : Nat) : Nat := 0x242105 + n * 256
abbrev RECALL_DEADLINE (n : Nat) : Nat := 0x242106 + n * 256
abbrev LEND_LIMIT_MIB : Nat := 0x243001
abbrev LENT_MIB : Nat := 0x243002
abbrev RECALL_NOTICE_MS : Nat := 0x243003
abbrev LEASE_REQUEST_MIB : Nat := 0x243004
abbrev GRANT_SLOTS (ses : Nat) : Nat := ses * 16777216 + 0x243005
abbrev GRANT_QPN (ses : Nat) : Nat := ses * 16777216 + 0x243006
abbrev GRANT_RKEY (ses : Nat) : Nat := ses * 16777216 + 0x243007
abbrev GRANT_BASE (ses : Nat) : Nat := ses * 16777216 + 0x243008
abbrev LEASE_RELEASE : Nat := 0x243009
abbrev GRANT_LEASE_ID (ses : Nat) : Nat := ses * 16777216 + 0x24300A
abbrev CHANNEL_ROLE (n : Nat) : Nat := 0x244001 + n * 256
abbrev CH_CORRECTED (n : Nat) : Nat := 0x244002 + n * 256
abbrev CH_UNCORRECTED (n : Nat) : Nat := 0x244003 + n * 256
abbrev CH_ROWS_MARKED (n : Nat) : Nat := 0x244004 + n * 256
abbrev CH_ROWS_REPAIRED (n : Nat) : Nat := 0x244005 + n * 256
abbrev REFRESH_MULT (n : Nat) : Nat := 0x244006 + n * 256
abbrev LAST_ZQ_TIME (n : Nat) : Nat := 0x244007 + n * 256
abbrev RETIRE_REQUEST (n : Nat) : Nat := 0x244008 + n * 256
abbrev RETIRE_PROGRESS (n : Nat) : Nat := 0x244009 + n * 256
abbrev JOBS_READY : Nat := 0x250001
abbrev JOBS_RUNNING : Nat := 0x250002
abbrev JOBS_PAUSED : Nat := 0x250003
abbrev DISPATCHES : Nat := 0x250004
abbrev PAUSES_NATIVE : Nat := 0x250005
abbrev PAUSES_FULL_SAVE : Nat := 0x250006
abbrev INHERITANCES : Nat := 0x250007
abbrev GRANTS_SHORT : Nat := 0x250008
abbrev GRANT_BACKOFFS : Nat := 0x250009
abbrev SEMS_IN_USE : Nat := 0x25000A
abbrev BARRIERS_IN_USE : Nat := 0x25000B
abbrev ORDER_VIOLATIONS : Nat := 0x25000C
abbrev CYCLES_REFUSED : Nat := 0x25000D
abbrev BLOCK_REPORTS : Nat := 0x25000E
abbrev P_FLOOR_PERMILLE : Nat := 0x250101
abbrev B_FLOOR_PERMILLE : Nat := 0x250102
abbrev FLOOR_WINDOW_MS : Nat := 0x250103
abbrev SHORT_GRANT_MODE_C : Nat := 0x250104
abbrev SHORT_GRANT_MODE_P : Nat := 0x250105
abbrev SHORT_GRANT_MODE_B : Nat := 0x250106
abbrev PREEMPT_MASK : Nat := 0x250107
abbrev FULL_SAVE_MIN_RUN_US : Nat := 0x250108
abbrev SAFEHOLD_KEEP_C : Nat := 0x250109
abbrev BLOCK_REPORT_MS : Nat := 0x25010A
abbrev CREDIT_SHARE_C : Nat := 0x25010B
abbrev CREDIT_SHARE_P : Nat := 0x25010C
abbrev CREDIT_SHARE_B : Nat := 0x25010D
abbrev SEM_SELECT (ses : Nat) : Nat := ses * 16777216 + 0x250201
abbrev SEM_CONTEXT : Nat := 0x250202
abbrev SEM_COUNT : Nat := 0x250203
abbrev SEM_MAX : Nat := 0x250204
abbrev SEM_WAITERS : Nat := 0x250205
abbrev SEM_BOOSTED : Nat := 0x250206
abbrev BAR_SELECT (ses : Nat) : Nat := ses * 16777216 + 0x250301
abbrev BAR_CONTEXT : Nat := 0x250302
abbrev BAR_PARTICIPANTS : Nat := 0x250303
abbrev BAR_ARRIVED : Nat := 0x250304
abbrev BAR_PHASE : Nat := 0x250305
abbrev JR_CONTEXT (ses : Nat) : Nat := ses * 16777216 + 0x250401
abbrev JR_RUNNING : Nat := 0x250402
abbrev JR_PAUSED : Nat := 0x250403
abbrev Q_FIELDS_0 : Nat := 0x250410
abbrev Q_FIELDS_1 : Nat := 0x250412
abbrev Q_FIELDS_2 : Nat := 0x250414
abbrev Q_FIELDS_3 : Nat := 0x250416
abbrev SLOWDOWN_WINDOW_MS : Nat := 0x250501
abbrev SLOWDOWN_MAX_MILLI : Nat := 0x250502
abbrev SLOWDOWN_MAX_CONTEXT : Nat := 0x250503
abbrev FURROW_SELECT (ses : Nat) : Nat := ses * 16777216 + 0x258001
abbrev FURROW_STATE (f : Nat) : Nat := f * 16777216 + 0x258101
abbrev FURROW_COMMAND (f : Nat) : Nat := f * 16777216 + 0x258102
abbrev F_CONTEXT (f : Nat) : Nat := f * 16777216 + 0x258103
abbrev F_PROGRAM (f : Nat) : Nat := f * 16777216 + 0x258104
abbrev F_ENTRY (f : Nat) : Nat := f * 16777216 + 0x258105
abbrev TRIGGER_KIND (f : Nat) : Nat := f * 16777216 + 0x258106
abbrev TRIGGER_SOURCE (f : Nat) : Nat := f * 16777216 + 0x258107
abbrev TRIGGER_PERIOD_NS (f : Nat) : Nat := f * 16777216 + 0x258108
abbrev TRIGGER_PHASE_NS (f : Nat) : Nat := f * 16777216 + 0x258109
abbrev TRIGGER_DIVIDER (f : Nat) : Nat := f * 16777216 + 0x25810A
abbrev QUEUE_DEPTH (f : Nat) : Nat := f * 16777216 + 0x25810B
abbrev OVERRUN_MODE (f : Nat) : Nat := f * 16777216 + 0x25810C
abbrev F_MSIX_EN (f : Nat) : Nat := f * 16777216 + 0x25810D
abbrev F_MSIX_VECTOR (f : Nat) : Nat := f * 16777216 + 0x25810E
abbrev FIRINGS (f : Nat) : Nat := f * 16777216 + 0x25810F
abbrev FIRINGS_DONE (f : Nat) : Nat := f * 16777216 + 0x258110
abbrev TRIGGERS_DROPPED (f : Nat) : Nat := f * 16777216 + 0x258111
abbrev FIRINGS_SUPERSEDED (f : Nat) : Nat := f * 16777216 + 0x258112
abbrev TRIGGERS_HELD (f : Nat) : Nat := f * 16777216 + 0x258113
abbrev APPLIED_FIRING (f : Nat) : Nat := f * 16777216 + 0x258114
abbrev F_BIND (f a : Nat) : Nat := f * 16777216 + 0x258120 + a
abbrev F_COMPLETION (f a : Nat) : Nat := f * 16777216 + 0x258170 + a
abbrev ARMED_MASK (a : Nat) : Nat := 0x258201 + a
abbrev WALKS_ACTIVE : Nat := 0x260001
abbrev LAB_HITS : Nat := 0x260002
abbrev LAB_MISSES : Nat := 0x260003
abbrev LAB_EPOCH_DROPS : Nat := 0x260004
abbrev EDITS_PENDING : Nat := 0x260005
abbrev EDITS_APPLIED : Nat := 0x260006
abbrev EDITS_REFUSED : Nat := 0x260007
abbrev JOBS_TABLE_CHANGED : Nat := 0x260008
abbrev PAGES_BELOW_FLOOR : Nat := 0x260009
abbrev JOBS_KEY_FORMAT : Nat := 0x26000A
abbrev ENTRY_FAULTS : Nat := 0x26000B
abbrev PREFETCH_ENTRIES : Nat := 0x260101
abbrev DEFERRED_LIMIT : Nat := 0x260102
abbrev EDIT_CONTEXT (ses : Nat) : Nat := ses * 16777216 + 0x261001
abbrev EDIT_SEQUENCE (ses : Nat) : Nat := ses * 16777216 + 0x261002
abbrev EDIT_OP (ses : Nat) : Nat := ses * 16777216 + 0x261003
abbrev EDIT_PAGE (ses : Nat) : Nat := ses * 16777216 + 0x261004
abbrev EDIT_HEAD (ses : Nat) : Nat := ses * 16777216 + 0x261005
abbrev EDIT_LENGTH (ses : Nat) : Nat := ses * 16777216 + 0x261006
abbrev EDIT_FORCE (ses : Nat) : Nat := ses * 16777216 + 0x261007
abbrev EDIT_K_TILE (ses : Nat) : Nat := ses * 16777216 + 0x261008
abbrev EDIT_V_TILE (ses : Nat) : Nat := ses * 16777216 + 0x261009
abbrev EDIT_FORMATS (ses : Nat) : Nat := ses * 16777216 + 0x26100A
abbrev EDIT_GEOMETRY (ses : Nat) : Nat := ses * 16777216 + 0x26100B
abbrev EDIT_GO (ses : Nat) : Nat := ses * 16777216 + 0x26100C
abbrev EDIT_STATUS (ses : Nat) : Nat := ses * 16777216 + 0x26100D
abbrev EDIT_EPOCH (ses : Nat) : Nat := ses * 16777216 + 0x26100E
abbrev EDIT_ENDED_JOBS (ses : Nat) : Nat := ses * 16777216 + 0x26100F
abbrev EDIT_REASON (ses : Nat) : Nat := ses * 16777216 + 0x261010
abbrev EDIT_BOOK (ses a : Nat) : Nat := ses * 16777216 + 0x261011 + a
abbrev BATCH_LIMIT : Nat := 0x262001
abbrev STREAMS_ACTIVE : Nat := 0x262002
abbrev STREAMS_LOST : Nat := 0x262003
abbrev ENGINES_HELD : Nat := 0x262004
abbrev THRASH_TOTAL : Nat := 0x262005
abbrev HARROW_PASSES : Nat := 0x270001
abbrev HARROW_STALLS : Nat := 0x270002
abbrev ROW_STEPS_USED : Nat := 0x270003
abbrev ROW_STEPS_OFFERED : Nat := 0x270004
abbrev POOL_OUTPUTS : Nat := 0x270005
abbrev CODEC_EN : Nat := 0x270101
abbrev CODEC_TILES_ENCODED : Nat := 0x270102
abbrev CODEC_TILES_RAW : Nat := 0x270103
abbrev CODEC_BYTES_SAVED : Nat := 0x270104
abbrev SIEVE_SLICE_NS : Nat := 0x271001
abbrev DW_CLAMP : Nat := 0x271002
abbrev SIEVE_OPS : Nat := 0x271003
abbrev SIEVE_BUSY_NS : Nat := 0x271004
abbrev CANDIDATES : Nat := 0x271005
abbrev BOXES_KEPT : Nat := 0x271006
abbrev BOXES_TRUNCATED : Nat := 0x271007
abbrev DEGENERATE_BOXES : Nat := 0x271008
abbrev FILTERS_RUNNING : Nat := 0x280001
abbrev FUSION_OPS : Nat := 0x280002
abbrev CONFLICT_NOW : Nat := 0x280003
abbrev PROGRAM_REFUSED : Nat := 0x280004
abbrev FILTER_MODEL (n : Nat) : Nat := 0x281001 + n * 256
abbrev FILTER_STATE (n : Nat) : Nat := 0x281002 + n * 256
abbrev STATE_DIM (n : Nat) : Nat := 0x281003 + n * 256
abbrev PROPAGATE_SOURCE (n : Nat) : Nat := 0x281004 + n * 256
abbrev FILTER_MODEL_DATA (n : Nat) : Nat := 0x281005 + n * 256
abbrev RETRO_WINDOW_MS (n : Nat) : Nat := 0x281007 + n * 256
abbrev GATE_WINDOW_NS (n : Nat) : Nat := 0x281008 + n * 256
abbrev ALIGN_DELAY_NS (n : Nat) : Nat := 0x281009 + n * 256
abbrev FILTER_COMMAND (n : Nat) : Nat := 0x28100A + n * 256
abbrev UPDATES (n : Nat) : Nat := 0x28100B + n * 256
abbrev RETRODICTIONS (n : Nat) : Nat := 0x28100C + n * 256
abbrev HISTORY_SPAN_MS (n : Nat) : Nat := 0x28100D + n * 256
abbrev DIVERGENCES (n : Nat) : Nat := 0x28100E + n * 256
abbrev SRC_KIND (n : Nat) : Nat := 0x284001 + n * 256
abbrev SRC_LOCATOR (n : Nat) : Nat := 0x284002 + n * 256
abbrev SRC_FILTER (n : Nat) : Nat := 0x284003 + n * 256
abbrev SRC_MEAS_KIND (n : Nat) : Nat := 0x284004 + n * 256
abbrev SRC_GROUP (n : Nat) : Nat := 0x284005 + n * 256
abbrev SRC_GATE_EN (n : Nat) : Nat := 0x284006 + n * 256
abbrev SRC_GATE_CHI2 (n : Nat) : Nat := 0x284007 + n * 256
abbrev SRC_INNOV_GATE_EN (n : Nat) : Nat := 0x284008 + n * 256
abbrev SRC_E2E_MODE (n : Nat) : Nat := 0x284009 + n * 256
abbrev SRC_DATA_ID (n : Nat) : Nat := 0x28400A + n * 256
abbrev SRC_SENSOR_DATA_ID (n : Nat) : Nat := 0x28400B + n * 256
abbrev SRC_MAX_DELTA (n : Nat) : Nat := 0x28400C + n * 256
abbrev SRC_SIGMA (n a : Nat) : Nat := 0x284010 + n * 256 + a
abbrev SRC_SAMPLES (n : Nat) : Nat := 0x284020 + n * 256
abbrev SRC_FUSED (n : Nat) : Nat := 0x284021 + n * 256
abbrev SRC_EXCLUDED (n : Nat) : Nat := 0x284022 + n * 256
abbrev SRC_CONFLICTS (n : Nat) : Nat := 0x284023 + n * 256
abbrev SRC_INNOV_REJECTS (n : Nat) : Nat := 0x284024 + n * 256
abbrev SRC_LATE_REVISED (n : Nat) : Nat := 0x284025 + n * 256
abbrev SRC_LATE_DROPPED (n : Nat) : Nat := 0x284026 + n * 256
abbrev SRC_E2E_FAILS (n : Nat) : Nat := 0x284027 + n * 256
abbrev SRC_LAST_TOV (n : Nat) : Nat := 0x284028 + n * 256
abbrev OUT_FILTER (n : Nat) : Nat := 0x288001 + n * 256
abbrev OUT_ELEMENTS (n : Nat) : Nat := 0x288002 + n * 256
abbrev OUT_PERIOD_NS (n : Nat) : Nat := 0x288004 + n * 256
abbrev OUT_ON_UPDATE (n : Nat) : Nat := 0x288005 + n * 256
abbrev OUT_REQUIRED (n : Nat) : Nat := 0x288006 + n * 256
abbrev OUT_STALE_NS (n : Nat) : Nat := 0x288007 + n * 256
abbrev OUT_HOST_BASE (n : Nat) : Nat := 0x288008 + n * 256
abbrev OUT_HOST_EN (n : Nat) : Nat := 0x288009 + n * 256
abbrev OUT_MSIX_EN (n : Nat) : Nat := 0x28800A + n * 256
abbrev OUT_MSIX_VECTOR (n : Nat) : Nat := 0x28800B + n * 256
abbrev OUT_DATA_ID (n : Nat) : Nat := 0x28800C + n * 256
abbrev OUT_PUBLISHED (n : Nat) : Nat := 0x28800D + n * 256
abbrev OUT_REVISIONS (n : Nat) : Nat := 0x28800E + n * 256
abbrev OUT_LATEST (n a : Nat) : Nat := 0x288040 + n * 256 + a
abbrev RUNS_DONE : Nat := 0x290001
abbrev RUNS_NO_PATH : Nat := 0x290002
abbrev CANDIDATES_REJECTED : Nat := 0x290003
abbrev POSES_RECHECKED : Nat := 0x290004
abbrev QUERY_SPHERES : Nat := 0x290005
abbrev BRICK_MISSES : Nat := 0x290006
abbrev PLANNER_SLICE_NS : Nat := 0x290007
abbrev MAP_CONTEXT : Nat := 0x290101
abbrev VOXEL_MM : Nat := 0x290102
abbrev BRICKS_X : Nat := 0x290103
abbrev BRICKS_Y : Nat := 0x290104
abbrev BRICKS_Z : Nat := 0x290105
abbrev ORIGIN_X : Nat := 0x290106
abbrev ORIGIN_Y : Nat := 0x290107
abbrev ORIGIN_Z : Nat := 0x290108
abbrev UNKNOWN_FREE : Nat := 0x290109
abbrev EPOCH_NEWEST : Nat := 0x290201
abbrev EPOCH_NEWEST_TOV : Nat := 0x290202
abbrev EPOCHS_HELD : Nat := 0x290203
abbrev EPOCHS_MAX : Nat := 0x290204
abbrev BRICKS_WRITTEN : Nat := 0x290205
abbrev UPDATES_APPLIED : Nat := 0x290206
abbrev UPDATES_MERGED : Nat := 0x290207
abbrev UPDATES_REFUSED : Nat := 0x290208
abbrev MAP_CLEAR : Nat := 0x290209
abbrev ROBOT_MODEL_MODEL_DATA (n : Nat) : Nat := 0x291001 + n * 256
abbrev ROADMAP_LIMIT (n : Nat) : Nat := 0x291003 + n * 256
abbrev MODEL_JOINTS (n : Nat) : Nat := 0x291004 + n * 256
abbrev MODEL_SPHERES (n : Nat) : Nat := 0x291005 + n * 256
abbrev ROADMAP_NODES (n : Nat) : Nat := 0x291006 + n * 256
abbrev ROADMAP_CLEAR (n : Nat) : Nat := 0x291007 + n * 256
abbrev CHECK_STEP_MM : Nat := 0x292001
abbrev CLEARANCE_MARGIN_MM : Nat := 0x292002
abbrev CTRL_RAIL_MV : Nat := 0x2A0001
abbrev SF_UNITS : Nat := 0x2A0002
abbrev COMP_UNITS : Nat := 0x2A0003
abbrev BG_UNITS : Nat := 0x2A0004
abbrev CHANNELS_RUNNING : Nat := 0x2A0005
abbrev CHANNELS_FAULT : Nat := 0x2A0006
abbrev LAT_MAX_SF_NS : Nat := 0x2A0007
abbrev LAT_MAX_COMP_NS : Nat := 0x2A0008
abbrev OVER_HEADLINE : Nat := 0x2A0009
abbrev CTRL_DROOPS : Nat := 0x2A000A
abbrev CH_STATE (n : Nat) : Nat := 0x2B0001 + n * 256
abbrev CH_COMMAND (n : Nat) : Nat := 0x2B0002 + n * 256
abbrev CH_KIND (n : Nat) : Nat := 0x2B0003 + n * 256
abbrev BANK_ACTIVE (n : Nat) : Nat := 0x2B0004 + n * 256
abbrev COEFFS (n : Nat) : Nat := 0x2B0005 + n * 256
abbrev IO_MAP (n : Nat) : Nat := 0x2B0007 + n * 256
abbrev CH_PERIOD_NS (n : Nat) : Nat := 0x2B0009 + n * 256
abbrev MISS_AFTER_NS (n : Nat) : Nat := 0x2B000A + n * 256
abbrev MAX_MISSED (n : Nat) : Nat := 0x2B000B + n * 256
abbrev LOSS_MODE (n : Nat) : Nat := 0x2B000C + n * 256
abbrev FAULT_MODE (n : Nat) : Nat := 0x2B000D + n * 256
abbrev CH_PRIORITY (n : Nat) : Nat := 0x2B000E + n * 256
abbrev REF_CONTEXT (n : Nat) : Nat := 0x2B000F + n * 256
abbrev SAFEHOLD_MODE (n : Nat) : Nat := 0x2B0010 + n * 256
abbrev REF (n a : Nat) : Nat := 0x2B0011 + n * 256 + a
abbrev REF_GO (n : Nat) : Nat := 0x2B0019 + n * 256
abbrev REF_TOV (n : Nat) : Nat := 0x2B001A + n * 256
abbrev SAMPLES (n : Nat) : Nat := 0x2B0020 + n * 256
abbrev MISSED (n : Nat) : Nat := 0x2B0021 + n * 256
abbrev CONSEC_MISSED (n : Nat) : Nat := 0x2B0022 + n * 256
abbrev LATE (n : Nat) : Nat := 0x2B0023 + n * 256
abbrev OUT_OF_ORDER (n : Nat) : Nat := 0x2B0024 + n * 256
abbrev IMPLAUSIBLE (n : Nat) : Nat := 0x2B0025 + n * 256
abbrev LIMIT_HITS (n : Nat) : Nat := 0x2B0026 + n * 256
abbrev ACC_OVERFLOWS (n : Nat) : Nat := 0x2B0027 + n * 256
abbrev LAT_LAST_NS (n : Nat) : Nat := 0x2B0028 + n * 256
abbrev LAT_MAX_NS (n : Nat) : Nat := 0x2B0029 + n * 256
abbrev LAST_TOV (n : Nat) : Nat := 0x2B002A + n * 256
abbrev LAST_DEPART (n : Nat) : Nat := 0x2B002B + n * 256
abbrev SWAP_SAMPLE (n : Nat) : Nat := 0x2B002C + n * 256
abbrev U_LAST (n a : Nat) : Nat := 0x2B0030 + n * 256 + a
abbrev SAFETY_STATE : Nat := 0x2D0001
abbrev ACTIVE_CAUSES : Nat := 0x2D0002
abbrev LATCHED_CAUSES : Nat := 0x2D0003
abbrev SAFETY_ACK : Nat := 0x2D0004
abbrev OUTPUTS_ENABLE : Nat := 0x2D0005
abbrev SAFE_HOLD_REQUEST : Nat := 0x2D0006
abbrev LATENT_MASK : Nat := 0x2D0007
abbrev LATENT_ACTION : Nat := 0x2D0008
abbrev QUIZ_FAIL_ACTION : Nat := 0x2D0009
abbrev EVENT_ACK : Nat := 0x2D000A
abbrev SAFETY_TICK_US : Nat := 0x2D000B
abbrev TASK_BUDGET_US : Nat := 0x2D000C
abbrev SAFETY_EVENTS : Nat := 0x2D000D
abbrev VOTE_MODE : Nat := 0x2D0101
abbrev CORE_ROLES : Nat := 0x2D0102
abbrev ODD_EVENTS : Nat := 0x2D0103
abbrev RESYNCS : Nat := 0x2D0104
abbrev LAST_RESYNC_NS : Nat := 0x2D0105
abbrev ODD_LIMIT : Nat := 0x2D0106
abbrev RESERVE_LEFT : Nat := 0x2D0107
abbrev OUT_STATE : Nat := 0x2D0201
abbrev IN_STATE : Nat := 0x2D0202
abbrev PULSE_PERIOD_MS : Nat := 0x2D0203
abbrev PULSE_WIDTH_US : Nat := 0x2D0204
abbrev IN_FILTER_MS : Nat := 0x2D0205
abbrev DISCREPANCY_MS : Nat := 0x2D0206
abbrev OUT_FAULTS : Nat := 0x2D0207
abbrev IN_DEMANDS : Nat := 0x2D0208
abbrev HOLD_N_LEVEL : Nat := 0x2D0209
abbrev DIAG_INTERVAL_MS (n : Nat) : Nat := 0x2D1001 + n * 256
abbrev SLICES_PER_PASS (n : Nat) : Nat := 0x2D1002 + n * 256
abbrev SLICE_US (n : Nat) : Nat := 0x2D1003 + n * 256
abbrev QUIZ_PASSES (n : Nat) : Nat := 0x2D1004 + n * 256
abbrev LAST_PASS_TIME (n : Nat) : Nat := 0x2D1005 + n * 256
abbrev SLICES_DEFERRED (n : Nat) : Nat := 0x2D1006 + n * 256
abbrev SLICES_ABORTED (n : Nat) : Nat := 0x2D1007 + n * 256
abbrev QUIZ_FAILS (n : Nat) : Nat := 0x2D1008 + n * 256
abbrev INTERVAL_OVERRUNS (n : Nat) : Nat := 0x2D1009 + n * 256
abbrev DICTATION_SELECT (ses : Nat) : Nat := ses * 16777216 + 0x2D2001
abbrev GOLDEN_EVERY (f : Nat) : Nat := f * 16777216 + 0x2D2101
abbrev MISS_LIMIT (f : Nat) : Nat := f * 16777216 + 0x2D2102
abbrev GOLDEN_FAIL_ACTION (f : Nat) : Nat := f * 16777216 + 0x2D2103
abbrev GOLDEN_STATUS (f : Nat) : Nat := f * 16777216 + 0x2D2104
abbrev GOLDEN_FIRING (f : Nat) : Nat := f * 16777216 + 0x2D2105
abbrev GOLDEN_RUNS (f : Nat) : Nat := f * 16777216 + 0x2D2106
abbrev GOLDEN_FAILS (f : Nat) : Nat := f * 16777216 + 0x2D2107
abbrev GOLDEN_ABANDONED (f : Nat) : Nat := f * 16777216 + 0x2D2108
abbrev CONSEC_UNCOVERED (f : Nat) : Nat := f * 16777216 + 0x2D2109
abbrev LAST_OUT_COUNT (f : Nat) : Nat := f * 16777216 + 0x2D210A
abbrev GOLDEN_IN (f a : Nat) : Nat := f * 16777216 + 0x2D2110 + a
abbrev GOLDEN_REF (f a : Nat) : Nat := f * 16777216 + 0x2D2120 + a
abbrev ABS_TOL (f a : Nat) : Nat := f * 16777216 + 0x2D2130 + a
abbrev REL_TOL (f a : Nat) : Nat := f * 16777216 + 0x2D2138 + a
abbrev MAX_OUT_TOL (f a : Nat) : Nat := f * 16777216 + 0x2D2140 + a
abbrev E2E_FAIL_LIMIT : Nat := 0x2D3001
abbrev E2E_WINDOW_MS : Nat := 0x2D3002
abbrev E2E_ACTION : Nat := 0x2D3003
abbrev E2E_CHECKED : Nat := 0x2D3004
abbrev E2E_FAILED : Nat := 0x2D3005
abbrev E2E_LAST_SOURCE : Nat := 0x2D3006
abbrev CV_KIND (n : Nat) : Nat := 0x2D4001 + n * 256
abbrev CV_ALGORITHM (n : Nat) : Nat := 0x2D4002 + n * 256
abbrev CV_ADDRESS (n : Nat) : Nat := 0x2D4003 + n * 256
abbrev CV_LENGTH (n : Nat) : Nat := 0x2D4004 + n * 256
abbrev CV_EXPECTED (n : Nat) : Nat := 0x2D4005 + n * 256
abbrev CV_PERIOD_MS (n : Nat) : Nat := 0x2D4006 + n * 256
abbrev CV_ACTION (n : Nat) : Nat := 0x2D4007 + n * 256
abbrev CV_RUN (n : Nat) : Nat := 0x2D4008 + n * 256
abbrev CV_RESULT (n : Nat) : Nat := 0x2D4009 + n * 256
abbrev CV_RUNS (n : Nat) : Nat := 0x2D400A + n * 256
abbrev CV_MISMATCHES (n : Nat) : Nat := 0x2D400B + n * 256
abbrev DOM_STATE (n : Nat) : Nat := 0x2E0001 + n * 256
abbrev DOM_KIND (n : Nat) : Nat := 0x2E0002 + n * 256
abbrev DOM_RAIL_MV (n : Nat) : Nat := 0x2E0003 + n * 256
abbrev DOM_TARGET_MV (n : Nat) : Nat := 0x2E0004 + n * 256
abbrev DOM_PACER (n : Nat) : Nat := 0x2E0005 + n * 256
abbrev DOM_SET_MV (n : Nat) : Nat := 0x2E0006 + n * 256
abbrev DOM_GRANT_UNITS (n : Nat) : Nat := 0x2E0007 + n * 256
abbrev DOM_POWER_MW (n : Nat) : Nat := 0x2E0008 + n * 256
abbrev DOM_ENERGY_UJ (n : Nat) : Nat := 0x2E0009 + n * 256
abbrev DOM_TJ (n : Nat) : Nat := 0x2E000A + n * 256
abbrev DOM_DROOPS (n : Nat) : Nat := 0x2E000B + n * 256
abbrev DOM_STEPS (n : Nat) : Nat := 0x2E000C + n * 256
abbrev DOM_STEP_ABANDONS (n : Nat) : Nat := 0x2E000D + n * 256
abbrev DOM_WAKES (n : Nat) : Nat := 0x2E000E + n * 256
abbrev DOM_MAX_MW (n : Nat) : Nat := 0x2E000F + n * 256
abbrev INPUT_MW : Nat := 0x2E8001
abbrev INPUT_MV : Nat := 0x2E8002
abbrev BUDGET_W : Nat := 0x2E8003
abbrev HOST_LIMIT_EN : Nat := 0x2E8004
abbrev HOST_LIMIT_W : Nat := 0x2E8005
abbrev PMBUS_LIMIT_EN : Nat := 0x2E8006
abbrev PMBUS_LIMIT_W : Nat := 0x2E8007
abbrev BUDGET_EFFECTIVE_W : Nat := 0x2E8008
abbrev BUDGET_SOURCE : Nat := 0x2E8009
abbrev HW_CEILING_W : Nat := 0x2E800A
abbrev FIELD_UNITS_AVAILABLE : Nat := 0x2E800B
abbrev GRANTED_UNITS : Nat := 0x2E800C
abbrev RESERVED_UNITS : Nat := 0x2E800D
abbrev MODEL_SCALE_PERMILLE : Nat := 0x2E800E
abbrev GRANT_ANSWERS : Nat := 0x2E800F
abbrev SHORT_ANSWERS : Nat := 0x2E8010
abbrev BUDGET_STEP_DOWNS : Nat := 0x2E8011
abbrev PHASE_STEPS_REFUSED : Nat := 0x2E8012
abbrev CLAMP_EVENTS : Nat := 0x2E8013
abbrev INPUT_ENERGY_UJ : Nat := 0x2E8014
abbrev STEP_HOLDOFF_MS : Nat := 0x2E8015
abbrev IDLE_GATE_EN : Nat := 0x2E8016
abbrev IDLE_GATE_US : Nat := 0x2E8017
abbrev TJ_MAX : Nat := 0x2E8101
abbrev TJ_MAX_SENSOR : Nat := 0x2E8102
abbrev PLATE_C : Nat := 0x2E8103
abbrev VR_TEMP : Nat := 0x2E8104
abbrev THERMAL_TARGET_C : Nat := 0x2E8105
abbrev WARN_C : Nat := 0x2E8106
abbrev TRIP_C : Nat := 0x2E8107
abbrev SHUTDOWN_C : Nat := 0x2E8108
abbrev WARN_EVENTS : Nat := 0x2E8109
abbrev TRIP_EVENTS : Nat := 0x2E810A
abbrev SENSORS_FAILED : Nat := 0x2E810B
abbrev SENSOR_SELECT (ses : Nat) : Nat := ses * 16777216 + 0x2E810E
abbrev SENSOR_TEMP : Nat := 0x2E810F
abbrev SENSOR_ROLE : Nat := 0x2E8110
abbrev SENSOR_STANDS_FOR : Nat := 0x2E8111
abbrev OC_TRIP_W : Nat := 0x2E8201
abbrev OC_EVENTS : Nat := 0x2E8202
abbrev UV_MV : Nat := 0x2E8203
abbrev OV_MV : Nat := 0x2E8204
abbrev VOLTAGE_EVENTS : Nat := 0x2E8205
abbrev REG_PHASES_ACTIVE : Nat := 0x2E8206
abbrev REG_PHASES_SPARE : Nat := 0x2E8207
abbrev REG_PHASES_RETIRED : Nat := 0x2E8208
abbrev PCIE_RATE : Nat := 0x2F0001
abbrev PCIE_WIDTH : Nat := 0x2F0002
abbrev PCIE_SSC_EN : Nat := 0x2F0003
abbrev LINK_DOWNS : Nat := 0x2F0004
abbrev HOST_ACCESS_FAILS : Nat := 0x2F0005
abbrev AER_CORRECTABLE : Nat := 0x2F0006
abbrev AER_UNCORRECTABLE : Nat := 0x2F0007
abbrev ETH_MODE : Nat := 0x2F1001
abbrev PTP_PORT : Nat := 0x2F1002
abbrev PTP_PROFILE : Nat := 0x2F1003
abbrev PTP_ROLE : Nat := 0x2F1004
abbrev PTP_DOMAIN : Nat := 0x2F1005
abbrev ROCE_ACK_TIMEOUT : Nat := 0x2F1006
abbrev COLL_TIMEOUT_US : Nat := 0x2F1007
abbrev COLL_NO_LIMIT : Nat := 0x2F1008
abbrev SPARE_LANE_USED : Nat := 0x2F1009
abbrev PORT_ENABLE (n : Nat) : Nat := 0x2F1101 + n * 256
abbrev PORT_LINK (n : Nat) : Nat := 0x2F1102 + n * 256
abbrev IP_ADDR (n : Nat) : Nat := 0x2F1103 + n * 256
abbrev IP_MASK (n : Nat) : Nat := 0x2F1104 + n * 256
abbrev IP_GATEWAY (n : Nat) : Nat := 0x2F1105 + n * 256
abbrev VLAN_ID (n : Nat) : Nat := 0x2F1106 + n * 256
abbrev PREFEC_BER_E9 (n : Nat) : Nat := 0x2F1107 + n * 256
abbrev FEC_UNCORRECTED (n : Nat) : Nat := 0x2F1108 + n * 256
abbrev LANE_RETIRE (n : Nat) : Nat := 0x2F1109 + n * 256
abbrev PORT_LINK_DOWNS (n : Nat) : Nat := 0x2F110A + n * 256
abbrev LINE_ENABLE (n : Nat) : Nat := 0x2F2001 + n * 256
abbrev LINE_CONFIG (n : Nat) : Nat := 0x2F2002 + n * 256
abbrev LINE_CYCLE_NS (n : Nat) : Nat := 0x2F2004 + n * 256
abbrev LINE_PHASE_NS (n : Nat) : Nat := 0x2F2005 + n * 256
abbrev INPUT_LAUNCH_NS (n : Nat) : Nat := 0x2F2006 + n * 256
abbrev APPLY_OFFSET_NS (n : Nat) : Nat := 0x2F2007 + n * 256
abbrev AUTO_RECOVER (n : Nat) : Nat := 0x2F2008 + n * 256
abbrev LINE_STATE (n : Nat) : Nat := 0x2F2009 + n * 256
abbrev RING_DELAY_NS (n : Nat) : Nat := 0x2F200A + n * 256
abbrev WKC_ERRORS (n : Nat) : Nat := 0x2F200B + n * 256
abbrev FCS_ERRORS (n : Nat) : Nat := 0x2F200C + n * 256
abbrev FRAMES_STALE (n : Nat) : Nat := 0x2F200D + n * 256
abbrev COMMAND_LATE (n : Nat) : Nat := 0x2F200E + n * 256
abbrev SLAVES_FOUND (n : Nat) : Nat := 0x2F200F + n * 256
abbrev AL_STATE : Nat := 0x2F2801
abbrev STATION_ADDRESS : Nat := 0x2F2802
abbrev AL_REFUSED : Nat := 0x2F2803
abbrev SLAVE_LINK_DOWNS : Nat := 0x2F2804
abbrev CSI_ENABLE (n : Nat) : Nat := 0x2F3001 + n * 256
abbrev CSI_LANES (n : Nat) : Nat := 0x2F3002 + n * 256
abbrev CSI_VC (n : Nat) : Nat := 0x2F3003 + n * 256
abbrev CSI_DT (n : Nat) : Nat := 0x2F3004 + n * 256
abbrev CSI_EMBEDDED (n : Nat) : Nat := 0x2F3005 + n * 256
abbrev CSI_HEIGHT (n : Nat) : Nat := 0x2F3006 + n * 256
abbrev CSI_SLOTS (n : Nat) : Nat := 0x2F3007 + n * 256
abbrev CSI_CONTEXT (n : Nat) : Nat := 0x2F3008 + n * 256
abbrev CSI_FRAME_TIMEOUT_US (n : Nat) : Nat := 0x2F3009 + n * 256
abbrev CSI_DROP_DAMAGED (n : Nat) : Nat := 0x2F300A + n * 256
abbrev FRAMES_STORED (n : Nat) : Nat := 0x2F300B + n * 256
abbrev FRAMES_DAMAGED (n : Nat) : Nat := 0x2F300C + n * 256
abbrev FRAME_GAPS (n : Nat) : Nat := 0x2F300D + n * 256
abbrev FRAMES_BUSY (n : Nat) : Nat := 0x2F300E + n * 256
abbrev ECC_CORRECTED_HDR (n : Nat) : Nat := 0x2F300F + n * 256
abbrev PACKETS_DROPPED (n : Nat) : Nat := 0x2F3010 + n * 256
abbrev SPI_ROLE (n : Nat) : Nat := 0x2F4001 + n * 256
abbrev SPI_DIVIDER (n : Nat) : Nat := 0x2F4002 + n * 256
abbrev SPI_MODE (n : Nat) : Nat := 0x2F4003 + n * 256
abbrev SPI_WORD_BITS (n : Nat) : Nat := 0x2F4004 + n * 256
abbrev SPI_LENGTH (n : Nat) : Nat := 0x2F4005 + n * 256
abbrev SPI_PERIOD_NS (n : Nat) : Nat := 0x2F4006 + n * 256
abbrev SPI_PHASE_NS (n : Nat) : Nat := 0x2F4007 + n * 256
abbrev SPI_EDGE_INPUT (n : Nat) : Nat := 0x2F4008 + n * 256
abbrev SPI_TX (n : Nat) : Nat := 0x2F4009 + n * 256
abbrev SPI_EDGE (n : Nat) : Nat := 0x2F4011 + n * 256
abbrev SPI_SSC_EN (n : Nat) : Nat := 0x2F4012 + n * 256
abbrev SPI_TRANSFERS (n : Nat) : Nat := 0x2F4013 + n * 256
abbrev COLL_MEMBERS (n : Nat) : Nat := 0x2F6001 + n * 256
abbrev COLL_RANK (n : Nat) : Nat := 0x2F6003 + n * 256
abbrev COLL_QP_NEXT (n : Nat) : Nat := 0x2F6004 + n * 256
abbrev COLL_QP_PREV (n : Nat) : Nat := 0x2F6005 + n * 256
abbrev COLL_OPS (n : Nat) : Nat := 0x2F6006 + n * 256
abbrev COLL_FAILS (n : Nat) : Nat := 0x2F6007 + n * 256
abbrev TEST_EN_LEVEL : Nat := 0x2F8001
abbrev TAP_RESET : Nat := 0x2F8002
abbrev IR_ACTIVE : Nat := 0x2F8003
abbrev PIN_CONTROL_ACTIVE : Nat := 0x2F8004
abbrev PIN_CONTROL_ENTRIES : Nat := 0x2F8005
abbrev PIN_CONTROL_REFUSED : Nat := 0x2F8006
abbrev IDCODE_VALUE : Nat := 0x2F8007
abbrev BSR_LENGTH : Nat := 0x2F8008
abbrev ORDERING_CODE : Nat := 0x2F8101
abbrev PMBUS_ADDRESS : Nat := 0x2F8102
abbrev SENSE_VALID : Nat := 0x2F8103
abbrev BLADE_MV : Nat := 0x2F8104
abbrev REFCLK_SEL_LEVEL : Nat := 0x2F8105
abbrev VIO_SPI_A_MV : Nat := 0x2F8106
abbrev VIO_SPI_B_MV : Nat := 0x2F8107
abbrev PLATE_MAX_C : Nat := 0x2F8108
abbrev STATE (n : Nat) : Nat := 0x300001 + n * 256
abbrev OWNER_SESSION (n : Nat) : Nat := 0x300002 + n * 256
abbrev CONTEXT (n : Nat) : Nat := 0x300003 + n * 256
abbrev PROGRAM (n : Nat) : Nat := 0x300004 + n * 256
abbrev ENTRY (n : Nat) : Nat := 0x300005 + n * 256
abbrev ARG_COUNT (n : Nat) : Nat := 0x300006 + n * 256
abbrev FLAGS (n : Nat) : Nat := 0x300007 + n * 256
abbrev MSIX_VECTOR (n : Nat) : Nat := 0x300008 + n * 256
abbrev USER_TAG (n : Nat) : Nat := 0x300009 + n * 256
abbrev SEQUENCE (n : Nat) : Nat := 0x30000A + n * 256
abbrev ARG_ADDR (n a : Nat) : Nat := 0x300010 + n * 256 + a * 3
abbrev ARG_LEN_CHECK (n a : Nat) : Nat := 0x300011 + n * 256 + a * 3
abbrev ARG_META (n a : Nat) : Nat := 0x300012 + n * 256 + a * 3
abbrev COMPLETION (n a : Nat) : Nat := 0x300070 + n * 256 + a
abbrev CTX_STATE (n : Nat) : Nat := 0x400001 + n * 256
abbrev CTX_CLASS (n : Nat) : Nat := 0x400002 + n * 256
abbrev ADMIT_SESSIONS (n : Nat) : Nat := 0x400003 + n * 256
abbrev POST_ALLOWANCE (n : Nat) : Nat := 0x400004 + n * 256
abbrev TILE_ALLOWANCE (n : Nat) : Nat := 0x400005 + n * 256
abbrev FIELD_ALLOWANCE (n : Nat) : Nat := 0x400006 + n * 256
abbrev SHARE_WEIGHT (n : Nat) : Nat := 0x400007 + n * 256
abbrev PREFERRED_MV (n : Nat) : Nat := 0x400008 + n * 256
abbrev SEQ_ROOT (n : Nat) : Nat := 0x400009 + n * 256
abbrev STREAM_ROOT (n : Nat) : Nat := 0x40000A + n * 256
abbrev ENGINE_NS (n : Nat) : Nat := 0x40000B + n * 256
abbrev CTX_BYTES_MOVED (n : Nat) : Nat := 0x40000C + n * 256
abbrev ENERGY_UJ (n : Nat) : Nat := 0x40000D + n * 256
abbrev JOBS_DONE (n : Nat) : Nat := 0x40000E + n * 256
abbrev JOBS_ENDED (n : Nat) : Nat := 0x40000F + n * 256
abbrev CTX_WAIT_NS (n : Nat) : Nat := 0x400010 + n * 256
abbrev CTX_PAUSES (n : Nat) : Nat := 0x400011 + n * 256
abbrev CTX_INHERITED (n : Nat) : Nat := 0x400012 + n * 256
abbrev DEGRADED_NS (n : Nat) : Nat := 0x400013 + n * 256
abbrev SLOWDOWN_MILLI (n : Nat) : Nat := 0x400014 + n * 256
abbrev CTX_CLEAR (n : Nat) : Nat := 0x400015 + n * 256
abbrev STREAM_STATE (n : Nat) : Nat := 0x500001 + n * 256
abbrev STREAM_COMMAND (n : Nat) : Nat := 0x500002 + n * 256
abbrev S_CONTEXT (n : Nat) : Nat := 0x500003 + n * 256
abbrev S_LOCAL (n : Nat) : Nat := 0x500004 + n * 256
abbrev WEIGHT_GROUP (n : Nat) : Nat := 0x500005 + n * 256
abbrev STATE_ELEMENTS (n : Nat) : Nat := 0x500006 + n * 256
abbrev STATE_FORMAT (n : Nat) : Nat := 0x500007 + n * 256
abbrev STATE_MODE (n : Nat) : Nat := 0x500008 + n * 256
abbrev RESIDENCY_MODE (n : Nat) : Nat := 0x500009 + n * 256
abbrev RESIDENT_ENGINES (n : Nat) : Nat := 0x50000A + n * 256
abbrev RESIDENT_FORMATS (n : Nat) : Nat := 0x50000B + n * 256
abbrev WRITE_THROUGH (n : Nat) : Nat := 0x50000C + n * 256
abbrev REANCHOR_STEPS (n : Nat) : Nat := 0x50000D + n * 256
abbrev REANCHOR_AUTO (n : Nat) : Nat := 0x50000E + n * 256
abbrev INIT_TILE (n : Nat) : Nat := 0x50000F + n * 256
abbrev STATE_HOME (n : Nat) : Nat := 0x500010 + n * 256
abbrev RESIDENCY_NOW (n : Nat) : Nat := 0x500011 + n * 256
abbrev STATE_FIELD (n : Nat) : Nat := 0x500012 + n * 256
abbrev STEP_COUNT (n : Nat) : Nat := 0x500013 + n * 256
abbrev CHUNKS_QUEUED (n : Nat) : Nat := 0x500014 + n * 256
abbrev CHUNKS_DONE (n : Nat) : Nat := 0x500015 + n * 256
abbrev REF_EXP (n : Nat) : Nat := 0x500016 + n * 256
abbrev ANCHOR_EXP (n : Nat) : Nat := 0x500017 + n * 256
abbrev DRIFT_BOUND (n : Nat) : Nat := 0x500018 + n * 256
abbrev DRIFT_EST (n : Nat) : Nat := 0x500019 + n * 256
abbrev REANCHORS (n : Nat) : Nat := 0x50001A + n * 256
abbrev SWAPS_OUT (n : Nat) : Nat := 0x50001B + n * 256
abbrev SWAPS_IN (n : Nat) : Nat := 0x50001C + n * 256
abbrev STREAM_THRASH (n : Nat) : Nat := 0x50001D + n * 256
abbrev LOST_CAUSE (n : Nat) : Nat := 0x50001E + n * 256
abbrev PENDING_COMMAND (n : Nat) : Nat := 0x50001F + n * 256
abbrev LAST_STEP_TIME (n : Nat) : Nat := 0x500020 + n * 256
abbrev CHECKPOINT_STEP (n : Nat) : Nat := 0x500021 + n * 256

/-- The table that defines index `i`, with the first index of its range; none where the index map (R536) has
no such index. -/
def tableOf (i : Nat) : Option (Nat × List Row) :=
  if i < 0x2505 then
    if i < 0x2230 then
      if i < 0x2080 then
        if i < 0x1018 then
          if i < 0x1008 then
            if i < 0x1001 then
              if i = 0x1000 then some (0x1000, tab1000) else none
            else
              if i = 0x1001 then some (0x1001, tab1001) else none
          else
            if i < 0x1010 then
              if i = 0x1008 then some (0x1008, tab1008) else none
            else
              if i < 0x1011 then
                if i = 0x1010 then some (0x1010, tab1010) else none
              else
                if i = 0x1011 then some (0x1011, tab1011) else none
        else
          if i < 0x2000 then
            if i < 0x1A00 then
              if i = 0x1018 then some (0x1018, tab1018) else none
            else
              if i < 0x1C00 then
                if i = 0x1A00 then some (0x1A00, tab1A00) else none
              else
                if 0x1C00 ≤ i ∧ i ≤ 0x1C13 then some (0x1C00, tab1C00) else none
          else
            if i < 0x2010 then
              if i = 0x2000 then some (0x2000, tab2000) else none
            else
              if i < 0x2021 then
                if i = 0x2010 then some (0x2010, tab2010) else none
              else
                if 0x2021 ≤ i ∧ i ≤ 0x2024 then some (0x2021, tab2021) else none
      else
        if i < 0x2180 then
          if i < 0x2101 then
            if i < 0x2081 then
              if i = 0x2080 then some (0x2080, tab2080) else none
            else
              if i < 0x2082 then
                if i = 0x2081 then some (0x2081, tab2081) else none
              else
                if i = 0x2082 then some (0x2082, tab2082) else none
          else
            if i < 0x2102 then
              if i = 0x2101 then some (0x2101, tab2101) else none
            else
              if i < 0x2110 then
                if i = 0x2102 then some (0x2102, tab2102) else none
              else
                if 0x2110 ≤ i ∧ i ≤ 0x211F then some (0x2110, tab2110) else none
        else
          if i < 0x2200 then
            if i < 0x2181 then
              if i = 0x2180 then some (0x2180, tab2180) else none
            else
              if i < 0x2190 then
                if i = 0x2181 then some (0x2181, tab2181) else none
              else
                if 0x2190 ≤ i ∧ i ≤ 0x219F then some (0x2190, tab2190) else none
          else
            if i < 0x2210 then
              if i = 0x2200 then some (0x2200, tab2200) else none
            else
              if i < 0x2220 then
                if 0x2210 ≤ i ∧ i ≤ 0x221F then some (0x2210, tab2210) else none
              else
                if 0x2220 ≤ i ∧ i ≤ 0x222F then some (0x2220, tab2220) else none
    else
      if i < 0x2410 then
        if i < 0x2383 then
          if i < 0x2380 then
            if i < 0x2300 then
              if 0x2230 ≤ i ∧ i ≤ 0x223F then some (0x2230, tab2230) else none
            else
              if 0x2300 ≤ i ∧ i ≤ 0x2341 then some (0x2300, tab2300) else none
          else
            if i < 0x2381 then
              if i = 0x2380 then some (0x2380, tab2380) else none
            else
              if i < 0x2382 then
                if i = 0x2381 then some (0x2381, tab2381) else none
              else
                if i = 0x2382 then some (0x2382, tab2382) else none
        else
          if i < 0x2401 then
            if i < 0x23F0 then
              if i = 0x2383 then some (0x2383, tab2383) else none
            else
              if i < 0x2400 then
                if i = 0x23F0 then some (0x23F0, tab23F0) else none
              else
                if i = 0x2400 then some (0x2400, tab2400) else none
          else
            if i < 0x2402 then
              if i = 0x2401 then some (0x2401, tab2401) else none
            else
              if i < 0x2403 then
                if i = 0x2402 then some (0x2402, tab2402) else none
              else
                if i = 0x2403 then some (0x2403, tab2403) else none
      else
        if i < 0x2440 then
          if i < 0x2420 then
            if i < 0x2411 then
              if i = 0x2410 then some (0x2410, tab2410) else none
            else
              if i < 0x2412 then
                if i = 0x2411 then some (0x2411, tab2411) else none
              else
                if i = 0x2412 then some (0x2412, tab2412) else none
          else
            if i < 0x2421 then
              if i = 0x2420 then some (0x2420, tab2420) else none
            else
              if i < 0x2430 then
                if 0x2421 ≤ i ∧ i ≤ 0x2428 then some (0x2421, tab2421) else none
              else
                if i = 0x2430 then some (0x2430, tab2430) else none
        else
          if i < 0x2502 then
            if i < 0x2500 then
              if 0x2440 ≤ i ∧ i ≤ 0x247F then some (0x2440, tab2440) else none
            else
              if i < 0x2501 then
                if i = 0x2500 then some (0x2500, tab2500) else none
              else
                if i = 0x2501 then some (0x2501, tab2501) else none
          else
            if i < 0x2503 then
              if i = 0x2502 then some (0x2502, tab2502) else none
            else
              if i < 0x2504 then
                if i = 0x2503 then some (0x2503, tab2503) else none
              else
                if i = 0x2504 then some (0x2504, tab2504) else none
  else
    if i < 0x2D01 then
      if i < 0x2800 then
        if i < 0x2601 then
          if i < 0x2581 then
            if i < 0x2580 then
              if i = 0x2505 then some (0x2505, tab2505) else none
            else
              if i = 0x2580 then some (0x2580, tab2580) else none
          else
            if i < 0x2582 then
              if i = 0x2581 then some (0x2581, tab2581) else none
            else
              if i < 0x2600 then
                if i = 0x2582 then some (0x2582, tab2582) else none
              else
                if i = 0x2600 then some (0x2600, tab2600) else none
        else
          if i < 0x2700 then
            if i < 0x2610 then
              if i = 0x2601 then some (0x2601, tab2601) else none
            else
              if i < 0x2620 then
                if i = 0x2610 then some (0x2610, tab2610) else none
              else
                if i = 0x2620 then some (0x2620, tab2620) else none
          else
            if i < 0x2701 then
              if i = 0x2700 then some (0x2700, tab2700) else none
            else
              if i < 0x2710 then
                if i = 0x2701 then some (0x2701, tab2701) else none
              else
                if i = 0x2710 then some (0x2710, tab2710) else none
      else
        if i < 0x2902 then
          if i < 0x2880 then
            if i < 0x2810 then
              if i = 0x2800 then some (0x2800, tab2800) else none
            else
              if i < 0x2840 then
                if 0x2810 ≤ i ∧ i ≤ 0x2817 then some (0x2810, tab2810) else none
              else
                if 0x2840 ≤ i ∧ i ≤ 0x287F then some (0x2840, tab2840) else none
          else
            if i < 0x2900 then
              if 0x2880 ≤ i ∧ i ≤ 0x28BF then some (0x2880, tab2880) else none
            else
              if i < 0x2901 then
                if i = 0x2900 then some (0x2900, tab2900) else none
              else
                if i = 0x2901 then some (0x2901, tab2901) else none
        else
          if i < 0x2A00 then
            if i < 0x2910 then
              if i = 0x2902 then some (0x2902, tab2902) else none
            else
              if i < 0x2920 then
                if 0x2910 ≤ i ∧ i ≤ 0x2913 then some (0x2910, tab2910) else none
              else
                if i = 0x2920 then some (0x2920, tab2920) else none
          else
            if i < 0x2B00 then
              if i = 0x2A00 then some (0x2A00, tab2A00) else none
            else
              if i < 0x2D00 then
                if 0x2B00 ≤ i ∧ i ≤ 0x2C1F then some (0x2B00, tab2B00) else none
              else
                if i = 0x2D00 then some (0x2D00, tab2D00) else none
    else
      if i < 0x2F10 then
        if i < 0x2D40 then
          if i < 0x2D20 then
            if i < 0x2D02 then
              if i = 0x2D01 then some (0x2D01, tab2D01) else none
            else
              if i < 0x2D10 then
                if i = 0x2D02 then some (0x2D02, tab2D02) else none
              else
                if 0x2D10 ≤ i ∧ i ≤ 0x2D1F then some (0x2D10, tab2D10) else none
          else
            if i < 0x2D21 then
              if i = 0x2D20 then some (0x2D20, tab2D20) else none
            else
              if i < 0x2D30 then
                if i = 0x2D21 then some (0x2D21, tab2D21) else none
              else
                if i = 0x2D30 then some (0x2D30, tab2D30) else none
        else
          if i < 0x2E81 then
            if i < 0x2E00 then
              if 0x2D40 ≤ i ∧ i ≤ 0x2D4F then some (0x2D40, tab2D40) else none
            else
              if i < 0x2E80 then
                if 0x2E00 ≤ i ∧ i ≤ 0x2E4F then some (0x2E00, tab2E00) else none
              else
                if i = 0x2E80 then some (0x2E80, tab2E80) else none
          else
            if i < 0x2E82 then
              if i = 0x2E81 then some (0x2E81, tab2E81) else none
            else
              if i < 0x2F00 then
                if i = 0x2E82 then some (0x2E82, tab2E82) else none
              else
                if i = 0x2F00 then some (0x2F00, tab2F00) else none
      else
        if i < 0x2F60 then
          if i < 0x2F28 then
            if i < 0x2F11 then
              if i = 0x2F10 then some (0x2F10, tab2F10) else none
            else
              if i < 0x2F20 then
                if 0x2F11 ≤ i ∧ i ≤ 0x2F14 then some (0x2F11, tab2F11) else none
              else
                if 0x2F20 ≤ i ∧ i ≤ 0x2F21 then some (0x2F20, tab2F20) else none
          else
            if i < 0x2F30 then
              if i = 0x2F28 then some (0x2F28, tab2F28) else none
            else
              if i < 0x2F40 then
                if 0x2F30 ≤ i ∧ i ≤ 0x2F37 then some (0x2F30, tab2F30) else none
              else
                if 0x2F40 ≤ i ∧ i ≤ 0x2F47 then some (0x2F40, tab2F40) else none
        else
          if i < 0x3000 then
            if i < 0x2F80 then
              if 0x2F60 ≤ i ∧ i ≤ 0x2F67 then some (0x2F60, tab2F60) else none
            else
              if i < 0x2F81 then
                if i = 0x2F80 then some (0x2F80, tab2F80) else none
              else
                if i = 0x2F81 then some (0x2F81, tab2F81) else none
          else
            if i < 0x4000 then
              if 0x3000 ≤ i ∧ i ≤ 0x3FFF then some (0x3000, tab3000) else none
            else
              if i < 0x5000 then
                if 0x4000 ≤ i ∧ i ≤ 0x4FFF then some (0x4000, tab4000) else none
              else
                if 0x5000 ≤ i ∧ i ≤ 0x5FFF then some (0x5000, tab5000) else none

/-- The indices that hold a staged group of their own (R44). -/
def isGroupIndex (i : Nat) : Bool :=
  (0x2210 ≤ i && i ≤ 0x221F) || i == 0x2581 || (0x2810 ≤ i && i ≤ 0x2817) || (0x2840 ≤ i && i ≤ 0x287F) || (0x2880 ≤ i && i ≤ 0x28BF) || i == 0x2901 || (0x2910 ≤ i && i ≤ 0x2913) || (0x2B00 ≤ i && i ≤ 0x2C1F) || i == 0x2D21 || (0x2D40 ≤ i && i ≤ 0x2D4F) || (0x2F20 ≤ i && i ≤ 0x2F21) || (0x2F30 ≤ i && i ≤ 0x2F37) || (0x2F40 ≤ i && i ≤ 0x2F47) || (0x2F60 ≤ i && i ≤ 0x2F67) || (0x4000 ≤ i && i ≤ 0x4FFF) || (0x5000 ≤ i && i ≤ 0x5FFF)

/-- Objects of which each session has its own (their tables say "per session", or the reply of a request is). -/
def perSession (k : Nat) : Bool :=
  k == 0x201001 ||
  k == 0x201003 ||
  k == 0x201004 ||
  k == 0x201005 ||
  k == 0x20800E ||
  k == 0x218101 ||
  k == 0x22000C ||
  k == 0x241201 ||
  k == 0x243005 ||
  k == 0x243006 ||
  k == 0x243007 ||
  k == 0x243008 ||
  k == 0x24300A ||
  k == 0x250201 ||
  k == 0x250301 ||
  k == 0x250401 ||
  k == 0x258001 ||
  k == 0x2D2001 ||
  k == 0x2E810E ||
  k / 256 == 0x2610 ||
  k / 256 == 0x2081 ||
  (0x2220 ≤ k / 256 && k / 256 ≤ 0x222F && k % 256 == 8)

/-- The row that subindex `sub` belongs to, with the object's first subindex. -/
def rowAt : List Row → Nat → Option (Row × Nat)
  | [], _ => none
  | r :: rs, sub =>
    if r.sub ≤ sub ∧ (sub - r.sub) / r.stride < r.count ∧ (sub - r.sub) % r.stride = 0 ∧ (r.span = 1 ∨ r.count = 1)
    then some (r, sub)
    else if r.sub ≤ sub ∧ sub < r.sub + r.span ∧ r.count = 1 then some (r, r.sub)
    else rowAt rs sub

/-- The reset value of a row's objects at offset `d` from the table's first index. -/
def resetOf (r : Row) (d : Nat) : Nat :=
  match r.others.find? (fun o => decide (o.1 ≤ d ∧ d ≤ o.2.1)) with
  | some o => o.2.2
  | none => if r.perIdx then r.reset + d else r.reset

/-- The reset value of the dictionary slot with key `k`; slots that no table names, the control blocks of staged
groups among them (R44), read zero but for `SHADOW_OWNER`. -/
def reset (k : Nat) : Nat :=
  let i := k / 256 % 65536
  let sub := k % 256
  if 0xF8 ≤ sub then (if sub = 0xFD ∧ (isGroupIndex i ∨ i = 0x2120) then 0xFF else 0)
  else match tableOf i with
  | none => 0
  | some (lo, rs) =>
    match rowAt rs sub with
    | none => 0
    | some (r, _) => resetOf r (i - lo) % 18446744073709551616

/-- The highest subindex of a list of rows (R11). -/
def highestRow : List Row → Nat
  | [] => 0
  | r :: rs => max (r.sub + (r.count - 1) * r.stride + (r.span - 1)) (highestRow rs)

/-- The highest implemented subindex of index `i`, or none where the index does not exist (R11, R536). -/
def highest (i : Nat) : Option Nat :=
  if i = 0x2120 then some 0xFF
  else match tableOf i with
  | none => none
  | some (_, rs) => some (if isGroupIndex i then 0xFF else highestRow rs)

/-- The control block keys of the staged group with control index key `c` (`inst * 65536 + index`, R44). -/
abbrev COMMIT_STATUS (c : Nat) : Nat := c * 256 + 0xF9
abbrev COMMIT_ABORT (c : Nat) : Nat := c * 256 + 0xFA
abbrev COMMIT_FAULT_OBJECT (c : Nat) : Nat := c * 256 + 0xFB
abbrev COMMIT_COUNT (c : Nat) : Nat := c * 256 + 0xFC
abbrev SHADOW_OWNER (c : Nat) : Nat := c * 256 + 0xFD
abbrev APPLIED_TIME (c : Nat) : Nat := c * 256 + 0xFE
abbrev APPLIED_TIME_FRAC (c : Nat) : Nat := c * 256 + 0xFF

end Obj
end Sys2Proof.Machine
end

