-- ==== Sys2Proof/Machine/State.lean ====
section
/-! DEFINITION. The state of the module as plain data: the command queue, the object dictionary (every register of
the part, R11), the shadows of the staged groups, one sparse memory, device time, the event log, what the last
command sent out, and the records of the units that no object shows. `State.reset` is the part right after
power-on reset, in INIT. -/

namespace Sys2Proof.Machine

/-- The one stop of the model. -/
inductive Fault where
  /-- Raised by every meaning whose operand names a unit, a session or a subindex that R10 and the tables do not
  have: no such command can reach the part. Safe: the model stops where the part does nothing at all. -/
  | noSuchUnit
  deriving DecidableEq, Repr

/-- Why a command has no meaning here. -/
inductive Refusal where
  /-- Raised by the dispatch for a command that has no meaning yet. Safe: the model stops. -/
  | notModelled (mnemonic : String)
  deriving DecidableEq, Repr

/-- Dictionary slots that differ from their reset value, in rising order of key. -/
abbrev Slots := List (Nat × Word)

/-! ## Event log (R64 to R68) -/

/-- One entry of the event log (R64). -/
structure Event where
  ns : Nat
  frac : Nat
  sev : Nat
  code : Nat
  inst : Nat
  data0 : Nat
  data1 : Nat
  seq : Nat
  deriving DecidableEq, Repr

/-- The log: the number of the latest event, the latest 1,008 entries newest first, the events not yet copied to
flash, the flash ring of 256 with the boot each entry was logged in, the highest acknowledged event number, the
latest Error or Safety event, and the latest event logged by an overcurrent, a voltage and a temperature condition
(R68 bits 1 to 3). -/
structure EventLog where
  total : Nat := 0
  ring : List Event := []
  toFlash : List (Event × Nat) := []
  flash : List (Event × Nat) := []
  flashCount : Nat := 0
  acked : Nat := 0
  lastError : Nat := 0
  lastCurrent : Nat := 0
  lastVoltage : Nat := 0
  lastThermal : Nat := 0
  deriving DecidableEq, Repr

/-! ## What the part sends -/

/-- What a command makes the part send, in order: to a session, over MDP, to the host, on pins and links. -/
inductive Emit where
  /-- the answer to a dictionary access: abort code (0 success) and read bytes -/
  | reply (ses code : Nat) (data : List Byte)
  /-- a HELLO_REPLY: the session of its header and its payload (R30) -/
  | helloReply (ses : Nat) (payload : List Byte)
  /-- a RESPONSE: session, SEQUENCE, and each operation's abort code and read bytes (R34) -/
  | response (ses seq : Nat) (ops : List (Nat × List Byte))
  /-- a NOTIFY: session, SEQUENCE, kind and records (R27, R32) -/
  | notify (ses seq kind : Nat) (records : List (List Byte))
  /-- a CLOSE (R33) -/
  | close (ses code : Nat)
  /-- a posted write to host memory (R62, R337) -/
  | hostWrite (addr : Nat) (data : List Byte)
  /-- an MSI-X message (R63) -/
  | msix (vector : Nat)
  /-- a CoE Emergency message (R68) -/
  | emcy (data : List Byte)
  /-- an output pin takes a level -/
  | pin (p : Pin) (level : Bool)
  /-- a pulse edge on a trigger output (R316) -/
  | trigger (n : Nat) (level : Bool)
  /-- a frame or transfer on a link: an EtherCAT line's command or input frame, an SPI transfer, a peer access -/
  | frame (l : LinkOut) (data : List Byte)
  /-- the answer to a PMBus command -/
  | pmbus (data : List Byte)
  /-- TDO data of a boundary-scan operation -/
  | tdo (bits : Nat)
  /-- the contacts follow the boundary register under the pin-control instruction with this opcode -/
  | contacts (opcode cells : Nat)
  deriving DecidableEq, Repr

/-! ## Sessions (R27 to R40) -/

/-- An inline transfer that is open (R36). -/
structure Inline where
  idx : Nat
  sub : Nat
  total : Nat
  crc : Nat
  data : List Byte
  deriving DecidableEq, Repr

/-- The REQUEST being executed (R34, R35, R37): its SEQUENCE, whether it is too long, whether an operation has aborted, and the results so far. -/
structure Request where
  seq : Nat
  tooLong : Bool
  aborted : Bool
  results : List (Nat × List Byte)
  deriving DecidableEq, Repr

/-- What a session holds beside its objects: its opening level; of an MDP session the first bytes of its client key's digest, whether its FINISH is awaited, the role, the
payloads of its HELLO and HELLO_REPLY, the key and salt of the direction to the device and of that to the client (R31), the time of its latest accepted REQUEST; the slots collected over BAR0 (index, first subindex, bytes, R25); the highest SEQUENCE received, the latest one sent, the last 16 REQUESTs with the
SEQUENCE and the results of their RESPONSEs (R37), the REQUEST in progress, the inline transfer (R36); whether a token raised its level, the challenge drawn (R457). -/
structure Session where
  openLevel : Nat := 0
  certKey : Nat := 0
  waiting : Bool := false
  role : Nat := 0
  hello : List Byte := []
  reply : List Byte := []
  keys : List Byte × List Byte := ([], [])
  lastReq : Nat := 0
  slots : Option (Nat × Nat × List Byte) := none
  rxHigh : Nat := 0
  txSeq : Nat := 0
  cache : List (Nat × Nat × List (Nat × List Byte)) := []
  cur : Option Request := none
  inline : Option Inline := none
  token : Bool := false
  challenge : Option (List Byte) := none
  deriving DecidableEq, Repr

/-- The dictionary engine: sessions, groups PENDING in the order of their commits (R49), DOMAIN contents live and in
shadow, MSI-X holdoffs running and raised again. -/
structure DictS where
  ses : Tab Session := []
  pendingGroups : List Nat := []
  blobs : Tab (List Byte) := []
  blobShadow : Tab (List Byte) := []
  holdoff : List Nat := []
  raised : List Nat := []
  deriving DecidableEq, Repr

/-! ## Jobs (R193 to R234) -/

/-- What a run of an entry belongs to: a request slot, a firing of a furrow, or a golden run of a furrow due at a
firing. -/
inductive Owner where
  | slot (n : Nat)
  | firing (f k : Nat)
  | golden (f k : Nat)
  deriving DecidableEq, Repr

/-- What a golden run latches of an output (R404, R405): its reference, the tolerances as FP32 codes, the count tolerated, its format and tiles, its first scratch tile. -/
structure Gold where
  ref : Nat
  abs : Nat
  rel : Nat
  most : Nat
  fmt : Nat
  tiles : Nat
  scratch : Nat
  deriving DecidableEq, Repr

/-- One run of an entry (R200, R211, R212). `cls` 1 to 3 is C, P, B; `tov` the time of validity, `args` the values of its arguments; `done` the stages
that completed, `gone` the stages that ended otherwise or never run, `binds` the tensors bound to its furrow, `sent` what it has written to host memory, `forSlot` the slot, its sequence and tag where a post made the firing (R209), `demoted` that its request runs at class B whatever its context's class, `gold` what a golden run latched of each output and `counts` what its compare stage found; `bad` the first status other than DONE or DONE_FLAGGED with its
DETAIL. -/
structure Run where
  owner : Owner
  ctx : Nat
  prog : Nat
  entry : Nat
  stages : List Decl
  cls : Nat
  strict : Bool := false
  posted : Nat
  tov : Nat := 0
  tovFrac : Nat := 0
  tag : Nat := 0
  seq : Nat := 0
  args : List Nat := []
  done : List Nat := []
  gone : List Nat := []
  bad : Option (Nat × Nat) := none
  flags : Nat := 0
  first : Option Nat := none
  engNs : Nat := 0
  bytes : Nat := 0
  uj : Nat := 0
  cancelled : Bool := false
  forSlot : Option (Nat × Nat × Nat) := none
  gold : List Gold := []
  counts : List Nat := []
  demoted : Bool := false
  binds : List Nat := []
  sent : List (Nat × List Byte) := []
  deriving DecidableEq, Repr

/-- Where a job stands: ready, running, asked to pause, saving, paused, restoring, or moving to another field. -/
inductive Phase where
  | ready | running | draining | saving | paused | restoring | moving
  deriving DecidableEq, Repr

/-- An input tile as a job sees it from its first fetch on (R161): its generation, tag and payload then. -/
structure Seen where
  gen : Nat
  tag : List Byte
  data : List Byte
  deriving DecidableEq, Repr

/-- What a save area holds of a paused job (R217, R219): slate and accumulators of each of its engines, and its granules, as cells from their starts on. -/
structure Image where
  slates : List (List Host.Cell × List Accum) := []
  grans : List (List Host.Cell) := []
  deriving DecidableEq, Repr

/-- A job: one stage of one run. `weight` is the `SHARE_WEIGHT` it was dispatched with, `left` the fields it ran on before and the cause of JOB_MOVED, `image` its save area. `place` is the physical field of each logical field, `bars` its barriers, `grans` and `engs` the granules and engines it holds (field, number), `resumed` when it last resumed, `pausedFor` the context that paused it (R227), `units` its
grant at rail `mv` (10 mW), `want` the point in force, `since` the time its engines have counted from, `stop` the
status it ends with at its next yield point, `stream` the stream its chunk was dispatched for, `merged` the job it rides on (R271) `mergedSteps` and `mergedMax` the steps of all that ride together and the most of any, `mergedNs` and `mergedUj` what they were charged so far (R272), `held` the semaphores it holds, `wait` the one it waits on, with the
class order of its arrival, `seen` the input tiles it has fetched. -/
structure Job where
  run : Nat
  stage : Nat
  ctx : Nat
  decl : Decl
  cls : Nat
  inh : Option Nat := none
  phase : Phase := .ready
  arrival : Nat := 0
  readyAt : Nat := 0
  dispatched : Option Nat := none
  since : Nat := 0
  place : List Nat := []
  bars : List Nat := []
  grans : List (Nat × Nat) := []
  engs : List (Nat × Nat) := []
  resumed : Nat := 0
  pausedFor : Option Nat := none
  saved : Bool := false
  saveTiles : Nat := 0
  units : Nat := 0
  mv : Nat := 0
  rising : Bool := false
  want : Nat := 750
  phasePt : Option Nat := none
  flags : Nat := 0
  output : Bool := false
  retried : Bool := false
  stop : Option (Nat × Nat) := none
  held : List Nat := []
  wait : Option Nat := none
  waitFrom : Nat := 0
  reported : Bool := false
  noLimit : Bool := false
  mayPause : Bool := true
  inhPaused : Bool := false
  stream : Option Nat := none
  resident : Bool := false
  merged : Option Nat := none
  mergedSteps : Nat := 0
  mergedMax : Nat := 0
  mergedNs : Nat := 0
  mergedUj : Nat := 0
  evac : Bool := false
  short : Bool := false
  engNs : Nat := 0
  bytes : Nat := 0
  uj : Nat := 0
  lostNs : Nat := 0
  pausedAt : Nat := 0
  seen : Tab Seen := []
  weight : Nat := 100
  left : List Nat × Option Nat := ([], none)
  image : Image := {}
  deriving DecidableEq, Repr

/-- A semaphore (R220, R221): its context and unit, rank, count, maximum, the jobs waiting in order of arrival and
those it is held for. -/
structure Sem where
  ctx : Nat
  prog : Nat
  rank : Nat
  count : Nat
  max : Nat
  waiters : List Nat := []
  handed : List Nat := []
  deriving DecidableEq, Repr

/-- A barrier in use (R134 to R136); `owed` are the Drill writes issued before arrivals of the phase that are not complete, `since` when the first participant
arrived, `reported` that the wait has been reported (R233). -/
structure Barrier where
  job : Nat
  n : Nat
  arrived : Nat := 0
  phase : Nat := 0
  owed : Nat := 0
  since : Nat := 0
  reported : Bool := false
  deriving DecidableEq, Repr

/-- What a furrow holds beside its objects: firings not started in order, firings running, whether a stop is
pending, triggers since the last firing, ports seen since the last firing with the earliest frame-start stamp (kind 1), golden run in progress, whether
a run was abandoned since the last completed one, the scratch tiles of its golden runs, those that its PENDING Dictation group will bring, and those
that are to be freed within the command (context, first tile, how many; R404). -/
structure Furrow where
  queue : List Nat := []
  live : List Nat := []
  stopping : Bool := false
  sinceFiring : Nat := 0
  ports : Nat := 0
  portTov : Option (Nat × Nat) := none
  golden : Option Nat := none
  goldenLost : Bool := true
  scratch : Option (Nat × Nat × Nat) := none
  newScratch : Option (Nat × Nat × Nat) := none
  oldScratch : Option (Nat × Nat × Nat) := none
  deriving DecidableEq, Repr

/-- The Timetable: runs, jobs, semaphores, barriers, furrows; each context's virtual time (in engine-ns × 1,000 ÷ weight) and save-area
tiles; engine time granted by class in the present floor window; the slots of the start wave still to come, each the fields it starts (R137), completed jobs for the slowdown window, what jobs have used of each field's engine time and of each memory group's bytes in the present energy interval (under domain × 2^32 + job: context, run,
amount; R229), loaded units; and, within one command, triggers on their way to furrows, runs that
have ended, jobs that have ended with status and DETAIL, engines that have faulted, until the units that follow them have been told. -/
structure TtS where
  runs : Tab Run := []
  jobs : Tab Job := []
  nextRun : Nat := 0
  nextJob : Nat := 0
  sems : Tab Sem := []
  bars : Tab Barrier := []
  furrows : Tab Furrow := []
  vtime : Tab Nat := []
  window : List (Nat × Nat) := []
  slow : List (Nat × Nat × Nat × Nat) := []
  spent : Tab (Nat × Nat × Nat) := []
  wave : List (List Nat) := []
  progs : Tab UnitDecl := []
  dueTriggers : List (Nat × Nat × Nat × Bool) := []
  ended : List (Run × Nat × Nat × Nat) := []
  endedJobs : List (Nat × Job × Nat × Nat) := []
  engineFaults : List (Nat × Nat) := []
  deriving DecidableEq, Repr

/-! ## Fields (R111 to R149) -/

/-- What a field holds beside its objects: the context that last held each granule and each slate (R123), the accumulators of its engines
(R88), the books in its Scaler's store, most recent first, each with its room (R108), its look-aside buffer, most recent first: context, sequence, entry and epoch
(R250), the engines and granules that streams hold there (R273, R276), whether it has passed its boot self-test, the spare that takes its role over while it goes fallow, whether a fault sends it, the engines calibrated in the
present pass (R147), when its last telemetry record left, since when it has had no job (R415), the tiles it holds clean copies of (R162), consecutive failed
replays by direction of its router (R133), the spare rows used by store bank, and the 64-byte lines of the store whose row is marked (R125). -/
structure FieldS where
  granule : Tab Nat := []
  slate : Tab Nat := []
  tested : Bool := false
  takeover : Option Nat := none
  faulty : Bool := false
  calib : List Nat := []
  telemetry : Nat := 0
  idleSince : Nat := 0
  copies : List Nat := []
  flits : Tab Nat := []
  acc : Tab (List Accum) := []
  books : List (Nat × Nat × Nat) := []
  lab : List (Nat × Nat × Nat × Nat) := []
  held : Tab (Nat × Nat) := []
  spared : Tab Nat := []
  badLines : List Nat := []
  deriving DecidableEq, Repr

/-! ## Memory (R150 to R192) -/

/-- A tile number in use (R154 to R177): owner, home, replica, SHARED, generation, why it is lost (DETAIL), the time of its
last write, the destination of a migration in progress and of one to be retried, aborts in a row, the tag of its last write. -/
structure Tile where
  ctx : Nat
  home : Home
  replica : Option Home := none
  shared : Bool := false
  gen : Nat := 0
  lost : Option Nat := none
  written : Nat := 0
  migrating : Option Home := none
  retry : Option Home := none
  aborts : Nat := 0
  tag : List Byte := []
  deriving DecidableEq, Repr

/-- A lease this module has granted (R165, R166, R169): its 4,160-byte slots, the RDMA address of slot 0, the borrower's key, the first payload slot of the range it lies
in, and for a recall the device time of revocation and the slots recalled. -/
structure Lent where
  slots : Nat
  base : Nat
  peer : Nat
  first : Nat := 0
  recalled : Option (Nat × Nat) := none
  deriving DecidableEq, Repr

/-- A whole-channel maintenance operation (R182). -/
inductive MaintOp where
  | zq
  | dqs (mult : Nat)
  | catchup
  deriving DecidableEq, Repr

/-- The memory system: tile map; leases lent; retired channels in order with what each retirement relocated, and for each channel that is retiring its
cause and the stripes switched (R187); times of the corrected errors of the last hour by channel and of the last 24 h by row (R178, R185); marked rows (channel, row) and
the payload slots they were found in, with channel and row; the banks that have used their repair (channel, bank; R184); maintenance windows open (channel, start), and those that wait for their turn in order of due time, each with the longest wait it gave; when each bank was refreshed; of
each borrowed lease the write counter and the sequence number its key is made with, how many leases were taken since boot, and the lease the next peer tile goes to (R165,
R167); granules that the overdue rule gave and that are not yet used (activity, unit; R179); migrations begun in the present period (R170). -/
structure MemS where
  tiles : Tab Tile := []
  lent : Tab Lent := []
  nextLease : Nat := 1
  retiredOrder : List Nat := []
  relocs : List Reloc := []
  switched : Tab (Nat × Nat) := []
  hour : Tab (List Nat) := []
  rowCe : Tab (List Nat) := []
  marked : List (Nat × Nat) := []
  badSlots : List Nat := []
  rowSlots : List (Nat × Nat × Nat) := []
  repaired : List (Nat × Nat) := []
  windows : List (Nat × Nat) := []
  dueWindows : List (Nat × Nat × MaintOp) := []
  refreshed : Tab Nat := []
  leaseCtr : Tab Nat := []
  leaseKey : Tab Nat := []
  leaseSeq : Nat := 0
  robin : Nat := 0
  overdue : List (Nat × Nat) := []
  begun : Nat := 0
  deriving DecidableEq, Repr

/-! ## Safety island (R394 to R414) -/

/-- The island. `active` lists every active instance of a cause (cause × 65536 + instance) with the reaction it was raised with (R398); `sinceHold` the causes of
reaction 1 or 2 raised since SAFE-HOLD was entered (R399); `driving` and `othersLow` who holds SAFE_HOLD_N low (R403); `bothOpen` that both inputs have been seen open together since the discrepancy
(R398); `odd` the times at which cores became odd (R397); `resync` the core being resynchronised; `quiz` the slices passed by each checker since its last pass and `slice` the slice in progress, `sliceUnit` the engine (field, engine) it uses (R411
to R413); `visit` the item each check-value unit visits next (R410); `e2e` the failures in the window of each source, `overLimit` the sources that reached the limit in it (R408); `latchedHigh` the latched causes raised with reaction 1 or 2 (R400); `taskUs` the task times of the last second; `due` causes to raise within the
command. -/
structure SafeS where
  active : List (Nat × Nat) := []
  sinceHold : List Nat := []
  driving : Bool := false
  othersLow : Bool := false
  bothOpen : Bool := false
  odd : List (Nat × Nat) := []
  resync : Option Nat := none
  resyncFrom : Nat := 0
  quiz : Tab (List Nat) := []
  slice : Option (Nat × Nat) := none
  sliceUnit : Option (Nat × Nat) := none
  visit : Tab Nat := []
  e2e : Tab Nat := []
  overLimit : List Nat := []
  latchedHigh : Nat := 0
  taskUs : List (Nat × Nat) := []
  due : List (Nat × Nat) := []
  pulses : List Nat := []
  deriving DecidableEq, Repr

/-! ## Power (R415 to R438) -/

/-- A step of a domain in progress (R429, R431): target rail and pacer, the point before it, droops in the step,
whether it is frozen, the grant it holds beyond the jobs', whether it leads back from an abandoned step. -/
structure Step where
  mv : Nat
  pacer : Nat
  oldMv : Nat
  oldPacer : Nat
  droops : List Nat := []
  frozen : Bool := false
  extra : Nat := 0
  back : Bool := false
  deriving DecidableEq, Repr

/-- The Bursar and the rails: steps in progress, domains held off and the units that abandoned steps down still hold, droops standing, the trips and the clamp, domains in
an excursion (80 is the always-on core, 128 + n an idle spare sensor n), sensor readings in tenths of a degree, failed sensors, the sensor that each substituting spare stands in for, domains without a working sensor, milliseconds of the
power loop below the budget, the pins ALERT_N and THERMTRIP_N, the cold plate, the rails and pacers that heat and the budget leave domains, the differences between sensors and predictions, retired
regulator phases, the latched PMBus status of R520. -/
structure PowS where
  steps : Tab Step := []
  heldOff : List Nat := []
  droop : List Nat := []
  overcurrent : Bool := false
  junction : Bool := false
  clamp : Bool := false
  hot : List Nat := []
  temps : Tab Int := []
  failed : List Nat := []
  stuck : Tab Nat := []
  stand : Tab Nat := []
  blind : List Nat := []
  belowMs : Nat := 0
  alert : Bool := false
  thermtrip : Bool := false
  plate : Int := 250
  railCap : Tab Nat := []
  pacerCap : Tab Nat := []
  diffs : Tab (List Int) := []
  quiet : Tab Nat := []
  phases : List Nat := []
  statusInput : Nat := 0
  statusTemp : Nat := 0
  statusCml : Nat := 0
  deriving DecidableEq, Repr


/-! ## Sequences (R235 to R261) -/

/-- A page-table entry that is VALID (R237). -/
structure SeqEntry where
  k : Nat
  v : Nat
  kf : Nat
  vf : Nat
  epoch : Nat
  deriving DecidableEq, Repr

/-- A sequence: its descriptor (R236), its entries by index, whether a CLOSE is waiting for its walks. `table` is the number of its first table tile, of `tiles`. -/
structure Seq where
  opened : Bool := true
  closing : Bool := false
  length : Nat := 0
  epoch : Nat := 0
  table : Nat := 0
  tiles : Nat := 0
  d : Nat := 64
  heads : Nat := 1
  t : Nat := 8
  capacity : Nat := 1
  books : List Nat := []
  entries : Tab SeqEntry := []
  deriving DecidableEq, Repr

/-- A latched walk (R255): job, sequence (context × 65,536 + number), latched length and epoch. -/
structure Walk where
  job : Nat
  key : Nat
  len : Nat
  epoch : Nat
  deriving DecidableEq, Repr

/-- What a pending edit holds for the walks that are older than it: an entry, a length, or a closing sequence. -/
inductive EditOld where
  | entry (e : Nat) (old : SeqEntry)
  | length (old : Nat)
  | close
  deriving DecidableEq, Repr

/-- A pending edit (R258): the epoch it raised, who shows its outcome, the job that waits for it, and whether it waits without a limit (R259). -/
structure Edit where
  key : Nat
  epoch : Nat
  old : EditOld
  ses : Option Nat := none
  job : Option Nat := none
  noLimit : Bool := false
  deriving DecidableEq, Repr

/-- The sequence unit: sequences, latched walks, pending edits in order. -/
structure SeqS where
  seqs : Tab Seq := []
  walks : List Walk := []
  edits : List Edit := []
  deriving DecidableEq, Repr


/-! ## Streams (R264 to R286) -/

/-- What a stream holds beside its objects: its state as bytes in the stored form (outside RESIDENT mode), or as accumulators; its home tiles and its checkpoint tiles
(first tile number, how many), with what the checkpoint holds and its reference exponent; the chunk that runs; whether its group has been applied; the tiles that its PENDING group has reserved (R268); whether it was swapped out under a queued chunk, and whether a swap-out waits for the
chunk; the engines it holds and since when, the granules it holds; the drift sums (in units of 2^-44, and as measured). -/
structure StreamS where
  data : List Byte := []
  res : List Accum := []
  home : Nat × Nat := (0, 0)
  ckpt : Option (Nat × Nat) := none
  ckptRes : Bool := false
  ckptData : List Byte := []
  ckptRef : Nat := 0
  chunk : Option Nat := none
  applied : Bool := false
  reserved : Nat := 0
  forced : Bool := false
  swapWanted : Bool := false
  engines : List Nat := []
  grans : List Nat := []
  since : Nat := 0
  driftBound : Nat := 0
  driftEst : Num := .fin false 0 0
  deriving DecidableEq, Repr


/-! ## Time base, triggers, capture (R311 to R323) -/

/-- A trigger output (R316, R318): the number of its next pulse, pulses since its group applied, whether a pulse is in progress, and when that one ends. -/
structure TrigS where
  next : Nat := 0
  sent : Nat := 0
  high : Bool := false
  ends : Nat := 0
  deriving DecidableEq, Repr

/-- A capture input: its FIFO, oldest first (whole nanoseconds, fraction, rising), its latest edge of a selected kind, and when its latest edge of any kind was. -/
structure CapS where
  fifo : List (Nat × Nat × Bool) := []
  last : Option (Nat × Nat) := none
  edge : Option Nat := none
  deriving DecidableEq, Repr

/-- The time base (R313): comparisons in a row within the lock threshold, and beyond four times it; when HOLDOVER began; the rate learnt, in ppb; triggers and capture inputs. -/
structure TimeS where
  inRun : Nat := 0
  outRun : Nat := 0
  holdFrom : Nat := 0
  learnt : Int := 0
  trig : Tab TrigS := []
  cap : Tab CapS := []
  deriving DecidableEq, Repr

/-! ## Fusion (R324 to R342) -/

/-- An input waiting for its release (R330): its source, its ToV, what it measures. -/
structure FusInput where
  src : Nat
  tov : Nat
  frac : Nat
  m : Meas
  deriving DecidableEq, Repr

/-- A stored event of a filter (R332, R338): the source and its group, the ToV, what it measures, its innovation, whether it is fused, whether the filter was reset at it,
and the state stored after it. Of group 64 are the events that only propagate: a propagation sample, a publication (source 64), a reset by command (source 65). -/
structure FusEvent where
  src : Nat
  group : Nat
  tov : Nat
  frac : Nat
  m : Meas := {}
  nu : List Nat := []
  fused : Bool := false
  isReset : Bool := false
  est : Est := {}
  deriving DecidableEq, Repr

/-- A filter: when it started, its waiting inputs in the order of their ToV, its history newest first, the state stored before the oldest event of it, the latest ToV it has
processed. -/
structure FilterS where
  started : Nat := 0
  queue : List FusInput := []
  hist : List FusEvent := []
  base : Est := {}
  last : Option Nat := none
  deriving DecidableEq, Repr

/-- A fused output: what it published, newest first (ToV, fraction, revision), and the sources that contributed or were excluded since. -/
structure OutS where
  pubs : List (Nat × Nat × Nat) := []
  contrib : Nat := 0
  excluded : Nat := 0
  deriving DecidableEq, Repr

/-- The fusion engine: filters, outputs, the counter last seen of each source and of each sensor's own header. -/
structure FusS where
  filters : Tab FilterS := []
  outs : Tab OutS := []
  counters : Tab Nat := []
  sensors : Tab Nat := []
  made : Tab Nat := []
  deriving DecidableEq, Repr



/-! ## The planner (R343 to R366) -/

/-- A map epoch (R346): its ToV, the tile of each brick ever written, its index tiles, the bricks it changed. -/
structure Epoch where
  tov : Nat := 0
  index : Tab Nat := []
  tiles : List Nat := []
  changed : List Nat := []
  deriving DecidableEq, Repr

/-- A planning run in progress (R359 to R362): its epoch and the one it validates against, its dirty bitmap, the model it latched, whether its start and goals have been found clear, its ranked
candidates with cost, and what its record tells. -/
structure PlanRunS where
  epoch : Nat
  checked : Option Nat := none
  dirty : List Nat := []
  model : List Byte
  begun : Bool := false
  cands : Option (List (List (List Nat) × Nat)) := none
  dropped : Bool := false
  full : Bool := false
  samples : Nat := 0
  nodes : Nat := 0
  deriving DecidableEq, Repr

/-- The planner: the epochs that exist, the pending one (R350), runs by job, records written by model, the road map of each model, node by node, models whose road map is to
be discarded. -/
structure PlanS where
  epochs : Tab Epoch := [(1, {})]
  pending : Option Epoch := none
  runs : Tab PlanRunS := []
  runNo : Tab Nat := []
  roads : Tab (List (List Nat)) := []
  clearRoad : List Nat := []
  deriving DecidableEq, Repr



/-! ## The control engine (R367 to R393) -/

/-- A BFP24 block (R79): exponent and mantissas. -/
structure Blk where
  e : Nat := 127
  m : List Int := []
  deriving DecidableEq, Repr

/-- A control channel beside its objects. `begin`: the next sample instant begins a ramp from the measured values, with `load` on the set's X0; `ramp`: its commands
follow the ramp of R382. `x`, `yhat`, `v` are x̂, ŷ and v of R376 with the derived matrices, row by row; `eE`, `uE`, `xE`, `nE` the exponents of e, u, x and the notch's output at the previous sample. `used`
and `seen` are the latest sample that arrived and the latest instant handled, `missing` the instants counted missing since, each with its ŷ. `bg` is the update that is due (e and u, or u
alone), `fold` the e of a late sample being folded, `ref` the reference in use, `newRef` the one being folded with its ToV. `d`, `n`, `err` are a compensator's states and its error. -/
structure ChanS where
  begin : Bool := false
  load : Bool := false
  ramp : Bool := false
  x : Blk := {}
  yhat : Blk := {}
  v : Blk := {}
  mM : List Blk := []
  mP : List Blk := []
  mCP : List Blk := []
  mKP : List Blk := []
  eE : Nat := 127
  uE : Nat := 127
  xE : Nat := 127
  nE : Nat := 127
  used : Option Nat := none
  seen : Option Nat := none
  missing : List (Nat × Blk) := []
  consec : Nat := 0
  bg : Option (Option Blk × Blk) := none
  fold : Option Blk := none
  ref : List Nat := []
  newRef : Option (List Nat × Nat) := none
  d : Blk := {}
  n : Blk := {}
  err : Blk := {}
  deriving DecidableEq, Repr

/-- The control engine's channels. -/
structure CtrlS where
  ch : Tab ChanS := []
  deriving DecidableEq, Repr

/-! ## Links (R466 to R499) -/

/-- An EtherCAT line (R482): the latest cycle begun and the latest whose input frames were launched, the cycle of the input image and when it arrived, the
channels that have written since the last command frame, the AL state of its slaves, whether they carry process data. -/
structure LineS where
  cycle : Option Nat := none
  launched : Option Nat := none
  frame : Option (Nat × Nat) := none
  wrote : List Nat := []
  al : Nat := 1
  deriving DecidableEq, Repr

/-- An SPI port (R495): the transfer in progress (its number, the stamp of its chip select, whether its link was missed), the latest sample (transfer number, ToV, fraction, arrival), the channels that have
written since the last command transfer, whether its VIO is out of range, a counter of edge-started transfers. -/
structure SpiS where
  busy : Option (Nat × (Nat × Nat) × Bool) := none
  next : Nat := 0
  sample : Option (Nat × Nat × Nat × Nat) := none
  wrote : List Nat := []
  vioOut : Bool := false
  deriving DecidableEq, Repr

/-- A frame being received (R491): its ToV and arrival, frame number, bytes per line, its lines padded to 64 bytes, how many of them are of the port's data type, its flags, when it started. -/
structure CsiFrame where
  tov : Nat
  frac : Nat
  arrived : Nat
  missed : Bool
  number : Nat
  width : Nat := 0
  lines : List (List Byte) := []
  count : Nat := 0
  flags : Nat := 0
  started : Nat
  deriving DecidableEq, Repr

/-- A frame slot (R492, R493): its runs of descriptor and pixel tiles (first number, how many), and the frame it was last filled with, counted from 1. -/
structure CsiSlot where
  desc : Nat × Nat
  pix : Nat × Nat
  filled : Nat := 0
  deriving DecidableEq, Repr

/-- A CSI-2 port: the frame in progress, the last frame number, its slots, frames stored so far, the firings that name a slot (run, slot), for which enable and context the slots were
allocated. -/
structure CsiS where
  frame : Option CsiFrame := none
  last : Option Nat := none
  slots : List CsiSlot := []
  counter : Nat := 0
  firing : List (Nat × Nat) := []
  slotsFor : Option (Nat × Nat) := none
  deriving DecidableEq, Repr

/-- A RoCE queue pair in use (R477): retries of the request it waits for, whether it is in the error state. -/
structure QpS where
  retries : Nat := 0
  failed : Bool := false
  deriving DecidableEq, Repr

/-- The links: PCIe link in L0, Bus Master Enable, D3hot, PCIE_PERST_N released; the EtherCAT slave's link; lines, SPI ports, CSI-2 ports, queue pairs;
the Ethernet lanes retired, and the ports that a lane left down without a spare. -/
structure LinkS where
  l0 : Bool := false
  bme : Bool := false
  d3 : Bool := false
  perst : Bool := false
  slaveUp : Bool := false
  lines : Tab LineS := []
  spi : Tab SpiS := []
  csi : Tab CsiS := []
  qps : Tab QpS := []
  retired : List Nat := []
  dead : List Nat := []
  deriving DecidableEq, Repr


/-! ## Start-up and security (R439 to R463) -/

/-- A flash write of an image in progress (R454): its kind, its bytes (none: they cannot be fetched), whether their CRC-32C is the descriptor's; or a store of the settings (R52): what it stores. -/
inductive FlashWrite where
  | image (kind : Nat) (data : Option (List Byte)) (crcOk : Bool)
  | store (image : Img) (restored : Nat)
  deriving DecidableEq, Repr

/-- Start-up. The time of the boot start (R443); what took effect at it: module number and headland units (R153), Ethernet mode (R473). The pins and the always-on core: whether it is powered, whether the module
releases PWR_GOOD and the carrier holds it low, whether RESET_N is low; the shutdown it is in, 0 junction, 1 input voltage, and whether RESET_N has been held low and released since (R539); the `RESET_CAUSE` of
the boot to come. The boot: whether it is warm, identity found, the issuers of the identity certificate in flash, kinds verified, training done, channels that failed it (and whether a full training has been done since power-on), whether it ended in recovery, whether
`AUTO_OPERATIONAL` still acts (R538). Flash: image slots (kind × 2 + slot), preferred slots (R452), a write in progress (R454), the ranges to be restored (R51), whether the chosen slot of a kind failed. Policy
firmware: a handover asked for, when it began, the slot it goes to, times of the restarts, digests of the policy started at boot and of the settings loaded, handovers since reset (R446, R455, R461). Programs (R462): loads in progress by session, each
unit's `ROLLBACK`, the next handle, the program log (R456), loads since reset. Debug: whether domain 79 has been powered, the session whose token is in force (R458, R459); characters received on the console. -/
structure BootS where
  start : Nat := 0
  moduleNo : Nat := 0
  headland : Nat := 1
  ethMode : Nat := 0
  powered : Bool := true
  pwrGood : Bool := true
  carrierLow : Bool := false
  resetLow : Bool := false
  shut : Option Nat := none
  rearmed : Bool := false
  cause : Nat := 0
  warm : Bool := false
  identity : Bool := false
  issuers : List (List Byte) := []
  kinds : List Nat := []
  trained : Bool := false
  badChannels : List Nat := []
  everTrained : Bool := false
  recovery : Bool := false
  auto : Bool := false
  slots : Tab Img := []
  prefer : Tab Nat := []
  writing : Option FlashWrite := none
  restore : List Nat := []
  asked : Bool := false
  handover : Nat := 0
  newSlot : Nat := 0
  restarts : List Nat := []
  firstPolicy : List Byte := []
  settingsDigest : List Byte := []
  switches : Nat := 0
  loads : List (Nat × Option (List Byte) × Bool) := []
  rollbacks : Tab Nat := []
  nextProg : Nat := 1
  progLog : List Byte := []
  progLoads : Nat := 0
  tested79 : Bool := false
  debugOf : Option Nat := none
  console : List Byte := []
  deriving DecidableEq, Repr

/-- The test access port (R522 to R527): the boundary register, 726 bits with the cell nearest TDI as bit 0, and what it drives under a pin-control instruction. -/
structure TapS where
  cells : Nat := 0
  driven : Option Nat := none
  deriving DecidableEq, Repr

/-! ## The whole -/

/-- The units' own records. -/
structure Units where
  dict : DictS := {}
  tt : TtS := {}
  fields : Tab FieldS := []
  mem : MemS := {}
  safe : SafeS := {}
  pow : PowS := {}
  seq : SeqS := {}
  streams : Tab StreamS := []
  streamDir : Tab Nat := []
  time : TimeS := {}
  fus : FusS := {}
  plan : PlanS := {}
  ctrl : CtrlS := {}
  links : LinkS := {}
  boot : BootS := {}
  tap : TapS := {}
  deriving DecidableEq, Repr

/-- The state of the module. `objs` holds the live dictionary, `shadow` the shadow values written to staged groups (R43),
`bytes` every memory of the part in one address space (log entry 5), `time` device time in units of 2^-32 ns, `freeCtr` how many
free values have been used up (the model's own), `out` what the last command sent. -/
structure State where
  pending : List Instr
  objs : Slots
  shadow : Slots
  bytes : List Host.Cell
  time : Nat
  freeCtr : Nat
  log : EventLog
  out : List Emit
  u : Units
  deriving DecidableEq, Repr

/-- The module right after power-on reset: every object at its reset value, in INIT, nothing listed, nothing waiting. -/
def State.reset : State where
  pending := []
  objs := []
  shadow := []
  bytes := []
  time := 0
  freeCtr := 0
  log := {}
  out := []
  u := {}

end Sys2Proof.Machine
end

