-- ==== Sys2Proof/Machine/Act.lean ====
section
/-! DEFINITION. What a command can do to the state, as data: an `Act` is built from a few elementary updates, and
`Act.run` carries it out. Every meaning is an `Act`, so a property that each elementary update keeps is kept by every
command. -/

namespace Sys2Proof.Machine

/-! ## The sparse stores -/

/-- The word under key `k`. -/
def Slots.find? : Slots → Nat → Option Word
  | [], _ => none
  | (j, w) :: t, k => if j = k then some w else Slots.find? t k

/-- `m` with word `w` under `k`. -/
def Slots.ins : Slots → Nat → Word → Slots
  | [], k, w => [(k, w)]
  | (j, v) :: t, k, w =>
    if k < j then (k, w) :: (j, v) :: t
    else if k = j then (k, w) :: t
    else (j, v) :: Slots.ins t k w

/-- `m` with nothing under `k`. -/
def Slots.del (m : Slots) (k : Nat) : Slots := m.filter (fun e => decide (e.1 ≠ k))

/-- The live store with `w` under `k`: a slot at its reset value is not listed. -/
def Slots.put (m : Slots) (k : Nat) (w : Word) : Slots :=
  if w = BitVec.ofNat 64 (Obj.reset k) then Slots.del m k else Slots.ins m k w

/-- The canonical form of the live store: rising keys, no slot at its reset value. -/
def Slots.wf (m : Slots) : Bool :=
  decide (m.Pairwise (fun a b => a.1 < b.1)) && m.all (fun e => decide (e.2 ≠ BitVec.ofNat 64 (Obj.reset e.1)))

/-- The canonical form of a shadow store: rising keys. -/
def Slots.sorted (m : Slots) : Bool := decide (m.Pairwise (fun a b => a.1 < b.1))

/-- The memory of the part: bytes by address, rising, none of them zero. -/
abbrev Memory := List Host.Cell

/-- The byte at address `a`; a byte that nothing has written reads zero (log entry 4). -/
def Memory.read : Memory → Nat → Byte
  | [], _ => 0
  | (j, b) :: t, a => if j = a then b else Memory.read t a

/-- `m` with byte `b` at `a`, listed. -/
def Memory.ins : Memory → Nat → Byte → Memory
  | [], a, b => [(a, b)]
  | (j, c) :: t, a, b =>
    if a < j then (a, b) :: (j, c) :: t
    else if a = j then (a, b) :: t
    else (j, c) :: Memory.ins t a b

/-- Write one byte; zero is not listed. -/
def Memory.write (m : Memory) (a : Nat) (b : Byte) : Memory :=
  if b = 0 then m.filter (fun e => decide (e.1 ≠ a)) else Memory.ins m a b

/-- Write the bytes `bs` from address `a` on. -/
def Memory.writeAll (m : Memory) : Nat → List Byte → Memory
  | _, [] => m
  | a, b :: bs => Memory.writeAll (Memory.write m a b) (a + 1) bs

/-- Write zero to `n` bytes from `lo` on. -/
def Memory.wipe (m : Memory) (lo n : Nat) : Memory := m.filter (fun e => decide (e.1 < lo ∨ lo + n ≤ e.1))

/-- The `n` bytes from address `a` on. -/
def Memory.readAll (m : Memory) (a : Nat) : Nat → List Byte
  | 0 => []
  | n + 1 => Memory.read m a :: Memory.readAll m (a + 1) n

/-- The canonical form of the memory: rising addresses, no zero byte listed. -/
def Memory.wf (m : Memory) : Bool :=
  decide (m.Pairwise (fun a b => a.1 < b.1)) && m.all (fun e => decide (e.2 ≠ 0))

/-! ## Reading the state -/

/-- The live value of the slot with key `k`, as a number. -/
def State.get (s : State) (k : Nat) : Nat :=
  match Slots.find? s.objs k with
  | some w => w.toNat
  | none => Obj.reset k

/-- The shadow value of the slot with key `k`: what was last written to it, or else the live value (R43). -/
def State.shadowOf (s : State) (k : Nat) : Nat :=
  match Slots.find? s.shadow k with
  | some w => w.toNat
  | none => s.get k

/-- Device time in whole nanoseconds (R9). -/
def State.ns (s : State) : Nat := s.time / 4294967296 % 18446744073709551616

/-- The 16-bit fraction of device time (R9). -/
def State.frac (s : State) : Nat := s.time / 65536 % 65536

/-- The `n` bytes of memory from address `a` on. -/
def State.mread (s : State) (a n : Nat) : List Byte := Memory.readAll s.bytes a n

/-- The next free value, below `2 ^ w`. -/
def State.free (s : State) (i w : Nat) : Nat := (Config.free (s.freeCtr + i)).toNat % 2 ^ w

/-- The state in which a command begins: nothing sent yet. -/
def State.begun (s : State) : State := { s with out := [] }

/-- What a nanosecond of the reference adds to device time, in parts of 2^-32 ns: 1 ns and the rate adjustment in force, and never less than 0 (R311, R312). -/
def State.tick (s : State) : Nat :=
  (4294967296 + (BitVec.ofNat 32 (s.get 0x220004)).toInt * 4294967296 / 1000000000).toNat

/-- The module with nothing waiting: one nanosecond of the reference passes (log entry 3). -/
def State.idle (s : State) : State := { s with time := s.time + s.tick, out := [] }

/-! ## Acts -/

/-- What a command does. -/
inductive Act where
  /-- nothing -/
  | skip
  /-- one after the other -/
  | seq (a b : Act)
  /-- what depends on the state reached -/
  | read (f : State → Act)
  /-- a live slot takes a value -/
  | put (k v : Nat)
  /-- a shadow slot takes a value -/
  | putShadow (k v : Nat)
  /-- the shadow slots with keys from `lo` to below `hi` are dropped -/
  | dropShadow (lo hi : Nat)
  /-- bytes are written to memory -/
  | poke (a : Nat) (bs : List Byte)
  /-- memory is zeroed -/
  | wipe (lo n : Nat)
  /-- an event takes its number and its place in the log (R64) -/
  | log (code inst d0 d1 : Nat)
  /-- the log's records beside the numbered entries change -/
  | logNotes (f : EventLog → EventLog)
  /-- a new boot begins: events are numbered from 1 again, the flash ring stays (R64, R66) -/
  | newLog
  /-- the part sends something -/
  | emit (e : Emit)
  /-- free values are used up -/
  | draw (n : Nat)
  /-- device time is set -/
  | setTime (t : Nat)
  /-- the units' records change -/
  | units (f : Units → Units)
  /-- every live slot returns to its reset value but those with the keys that `keep` names -/
  | resetObjs (keep : Nat → Bool)

/-- Carry out an act. -/
def Act.run : Act → State → State
  | .skip, s => s
  | .seq a b, s => b.run (a.run s)
  | .read f, s => (f s).run s
  | .put k v, s => { s with objs := Slots.put s.objs k (BitVec.ofNat 64 v) }
  | .putShadow k v, s => { s with shadow := Slots.ins s.shadow k (BitVec.ofNat 64 v) }
  | .dropShadow lo hi, s => { s with shadow := s.shadow.filter (fun e => decide (e.1 < lo ∨ hi ≤ e.1)) }
  | .poke a bs, s => { s with bytes := Memory.writeAll s.bytes a bs }
  | .wipe lo n, s => { s with bytes := Memory.wipe s.bytes lo n }
  | .log code inst d0 d1, s =>
    let e : Event := {
      ns := s.ns, frac := s.frac, sev := Ev.severity code, code := code, inst := inst
      data0 := d0 % 18446744073709551616, data1 := d1 % 4294967296, seq := s.log.total + 1 }
    { s with log := { s.log with total := s.log.total + 1, ring := (e :: s.log.ring).take 1008 } }
  | .logNotes f, s => { s with log := { f s.log with total := s.log.total, ring := s.log.ring } }
  | .newLog, s => { s with log := { toFlash := s.log.toFlash, flash := s.log.flash, flashCount := s.log.flashCount } }
  | .emit e, s => { s with out := s.out ++ [e] }
  | .draw n, s => { s with freeCtr := s.freeCtr + n }
  | .setTime t, s => { s with time := t }
  | .units f, s => { s with u := f s.u }
  | .resetObjs keep, s => { s with objs := s.objs.filter (fun e => keep e.1), shadow := [] }

/-- Acts one after the other. -/
def Act.all : List Act → Act
  | [] => .skip
  | a :: as => .seq a (Act.all as)

/-- An act done only if `c` holds. -/
def Act.when (c : Bool) (a : Act) : Act := if c then a else .skip

/-- An act for each element in turn. -/
def Act.each {α : Type} (xs : List α) (f : α → Act) : Act := Act.all (xs.map f)

/-- A live slot changes by a function of its value. -/
def Act.modify (k : Nat) (f : Nat → Nat) : Act := .read fun s => .put k (f (s.get k))

/-- A `w`-bit counter counts `n` more, wrapping. -/
def Act.wrap (w k n : Nat) : Act := .modify k (fun v => (v + n) % 2 ^ w)

/-- A `w`-bit counter counts `n` more. The spec states no value past its width: there it takes a free one (log entry 6). -/
def Act.count (w k n : Nat) : Act := .read fun s =>
  if s.get k + n < 2 ^ w then .put k (s.get k + n) else .seq (.put k (s.free 0 w)) (.draw 1)

/-- A `w`-bit figure that saturates. -/
def Act.sat (w k n : Nat) : Act := .modify k (fun v => min (v + n) (2 ^ w - 1))

/-- The record of a command that carries `a` out, once its operands name units that exist. -/
def need (c : Bool) (s : State) (a : Act) : Host.Outcome State Fault Refusal :=
  if c then .next (a.run s.begun) else .fault .noSuchUnit

end Sys2Proof.Machine
end

