-- ==== Sys2Proof/Machine/Ops.lean ====
section
/-! DEFINITION. The operations that every family uses: sessions and levels, the event log with all that a logged event
sends, MSI-X messages, the access checks of a dictionary write, staged groups, and how a write is answered. -/

namespace Sys2Proof.Machine
open Act

/-! ## Device state and sessions -/

/-- `DEVICE_STATE`: 0 STANDBY, 1 INIT, 2 PRE-OPERATIONAL, 3 OPERATIONAL, 4 SAFE-HOLD, 5 SERVICE (R439). -/
def State.dev (s : State) : Nat := s.get Obj.DEVICE_STATE

/-- The part is in STANDBY: only the always-on core is powered. -/
abbrev Dev.STANDBY : Nat := 0
abbrev Dev.INIT : Nat := 1
abbrev Dev.PREOP : Nat := 2
abbrev Dev.OP : Nat := 3
abbrev Dev.HOLD : Nat := 4
abbrev Dev.SERVICE : Nat := 5

/-- Session `n` is open (R39). -/
def State.isOpen (s : State) (n : Nat) : Bool := s.get (Obj.TRANSPORT n) != 0

/-- The level of session `n`: 0 Host, 1 Supervisor, 2 Service, 3 Safety. -/
def State.level (s : State) (n : Nat) : Nat := s.get (Obj.LEVEL n)

/-- The record of session `n`. -/
def State.session (s : State) (n : Nat) : Session := Tab.at s.u.dict.ses n {}

/-- Whether a level has the rights an object asks for (R16, R17): Service and Safety both include Supervisor, and
neither includes the other. -/
def mayWrite (lvl : Nat) : Lvl → Bool
  | .host => true
  | .sup => decide (1 ≤ lvl)
  | .svc => lvl == 2
  | .saf => lvl == 3

/-- Change the record of session `n`. -/
def Act.ses (n : Nat) (f : Session → Session) : Act :=
  .units fun u => { u with dict := { u.dict with ses := Tab.upd u.dict.ses n {} f } }

/-- Change the dictionary engine's record. -/
def Act.dict (f : DictS → DictS) : Act := .units fun u => { u with dict := f u.dict }

/-- Change the Timetable's record. -/
def Act.tt (f : TtS → TtS) : Act := .units fun u => { u with tt := f u.tt }

/-- Change a field's record. -/
def Act.field (n : Nat) (f : FieldS → FieldS) : Act :=
  .units fun u => { u with fields := Tab.upd u.fields n {} f }

/-- Change the memory system's record. -/
def Act.mem (f : MemS → MemS) : Act := .units fun u => { u with mem := f u.mem }

/-- Change the safety island's record. -/
def Act.safe (f : SafeS → SafeS) : Act := .units fun u => { u with safe := f u.safe }

/-- Change the Bursar's record. -/
def Act.pow (f : PowS → PowS) : Act := .units fun u => { u with pow := f u.pow }

/-- The record of field `n`. -/
def State.fieldRec (s : State) (n : Nat) : FieldS := Tab.at s.u.fields n {}

/-! ## MSI-X (R63) -/

/-- The host can be reached: the PCIe session is open, so that the link is in L0, the function in D0 and Bus Master
Enable set (R39, R470). -/
def State.hostReachable (s : State) : Bool := s.isOpen 0

/-- Send vector `v`, and start its holdoff if it has one. A message that cannot reach the host is lost (log entry 9). -/
def msixSend (v : Nat) : Act := .read fun s =>
  all [when s.hostReachable (.emit (.msix v)),
    when (s.get (Obj.VECTOR_HOLDOFF_NS v) != 0) (.dict fun d => { d with holdoff := v :: d.holdoff.filter (· != v) })]

/-- Raise vector `v`: sent at once, or once at the end of its holdoff (R63). -/
def msixRaise (v : Nat) : Act := .read fun s =>
  if s.u.dict.holdoff.contains v && s.get (Obj.VECTOR_HOLDOFF_NS v) != 0 then .dict fun d => { d with raised := v :: d.raised.filter (· != v) }
  else msixSend v

/-! ## Event log (R64 to R68) -/

/-- The 32 bytes of an event log entry (R64). -/
def Event.bytes (e : Event) : List Byte :=
  le 8 e.ns ++ le 2 e.frac ++ le 1 e.sev ++ le 1 (e.code / 256) ++ le 2 e.code ++ le 2 e.inst ++ le 8 e.data0 ++
    le 4 e.seq ++ le 4 e.data1

/-- The reading of junction sensor `i` in tenths of a degree, raised by 2 °C while it substitutes (R433). -/
def State.reading (s : State) (i : Nat) : Int :=
  Tab.at s.u.pow.temps i 250 + (if (Tab.get? s.u.pow.stand i).isSome then 20 else 0)

/-- Some working junction sensor reads 100 °C or more (R435). -/
def State.anyHot (s : State) : Bool :=
  s.u.pow.temps.any (fun e => !s.u.pow.failed.contains e.1 && decide (1000 ≤ s.reading e.1))

/-- `ERROR_REGISTER` (R68). -/
def State.errorRegister (s : State) : Nat :=
  let b (c : Bool) (v : Nat) : Nat := if c then v else 0
  b (decide (s.log.acked < s.log.lastError)) 1
  + b (s.u.pow.overcurrent || decide (s.log.acked < s.log.lastCurrent)) 2
  + b (s.get Obj.SENSE_VALID == 0 || decide (s.log.acked < s.log.lastVoltage)) 4
  + b (s.anyHot || s.u.pow.junction || decide (s.log.acked < s.log.lastThermal)) 8
  + b (s.get (Obj.LINE_STATE 0) == 3 || s.get (Obj.LINE_STATE 1) == 3 || bit (s.get Obj.ACTIVE_CAUSES) 5) 16
  + b (s.get Obj.ACTIVE_CAUSES != 0) 128

/-- Send a NOTIFY of a kind to session `ses` under the next SEQUENCE of its direction (R27, R32). -/
def sendNotify (ses kind : Nat) (records : List (List Byte)) : Act := .read fun s =>
  all [.ses ses (fun x => { x with txSeq := x.txSeq + 1 }), .emit (.notify ses ((s.session ses).txSeq + 1) kind records)]

/-- What the latest event of the log, of code `code`, sends: its copy for flash (R66), the Emergency message (R68), the NOTIFYs (R32) and the MSI-X message of
`EVENT_MSIX_EN`. -/
def logSends (code : Nat) : Act :=
  let sev := Ev.severity code
  .read fun s => match s.log.ring with
    | [] => .skip
    | e :: _ => all [
      when (decide (3 ≤ sev)) (.logNotes fun l => { l with toFlash := l.toFlash ++ [(e, s.get Obj.BOOT_COUNT)] }),
      when (s.isOpen 1 && s.get Obj.EMCY_EN != 0 && decide (s.get Obj.EMCY_SEVERITY ≤ sev))
        (.emit (.emcy (le 2 (0xFF00 + code / 256) ++ le 1 s.errorRegister ++ le 2 code ++ le 3 e.seq))),
      when (s.get Obj.MDP_NOTIFY_EN != 0 && decide (s.get Obj.MDP_NOTIFY_SEVERITY ≤ sev))
        (each (List.range 14) fun i =>
          when (s.get (Obj.TRANSPORT (i + 2)) == 3 && decide (1 ≤ s.level (i + 2))) (sendNotify (i + 2) 1 [e.bytes])),
      when (s.get Obj.EVENT_MSIX_EN != 0 && decide (s.get Obj.EVENT_MSIX_SEVERITY ≤ sev))
        (msixRaise (s.get Obj.EVENT_MSIX_VECTOR))]

/-- An event enters the log; one of severity Error or Safety is noted for bit 0 of `ERROR_REGISTER`. -/
def logEnter (code inst d0 d1 : Nat) : Act :=
  all [.log code inst d0 d1, when (decide (3 ≤ Ev.severity code)) (.logNotes fun l => { l with lastError := l.total })]

/-- Log an event with all that it sends. -/
def logEv (code inst d0 d1 : Nat) : Act := all [logEnter code inst d0 d1, logSends code]

/-- Note that the latest event came from the overcurrent, voltage or temperature condition of `ERROR_REGISTER` (R68). -/
def noteCurrent : Act := .logNotes fun l => { l with lastCurrent := l.total }
def noteVoltage : Act := .logNotes fun l => { l with lastVoltage := l.total }
def noteThermal : Act := .logNotes fun l => { l with lastThermal := l.total }

/-- Log an event of such a condition: the note comes before what the event sends, so that its Emergency message carries the bit (R68). -/
def logNoted (note : Act) (code inst d0 d1 : Nat) : Act := all [logEnter code inst d0 d1, note, logSends code]

/-- Log a clamp (R20): session `ses` asked for `v` at key `k`. -/
def logClamp (ses k v : Nat) : Act := logEv Ev.CLAMP ses v (k % 16777216)

/-! ## Answering a dictionary access -/

/-- Record an abort in the session's objects (R24, R26). -/
def recordAbort (ses code k : Nat) : Act :=
  all [.wrap 32 (Obj.ABORT_COUNT ses) 1, .put (Obj.LAST_ABORT ses) code, .put (Obj.LAST_ABORT_OBJECT ses) (k % 16777216)]

/-- What a checked write comes to: an abort code (0 for none) and what it does. -/
abbrev WriteRes := Nat × Act

def WriteRes.ok (a : Act) : WriteRes := (0, a)
def WriteRes.no (code : Nat) : WriteRes := (code, .skip)

/-- Answer a write to key `k`: what it does, the record of an abort, and the reply; a posted PCIe write has no reply (R24). -/
def answer (ses k : Nat) (r : WriteRes) : Act :=
  all [r.2, when (r.1 != 0) (recordAbort ses r.1 k),
    when (ses != 0) (.emit (.reply ses r.1 []))]

/-! ## Access checks of a write -/

/-- The objects that SAFE-HOLD lets a session write although neither Saf nor Svc marks them (R21). -/
def holdWritable (k v : Nat) : Bool :=
  let i := k / 256 % 65536
  let sub := k % 256
  (i == 0x2000 && sub == 2) || (i == 0x2180 && 3 ≤ sub && sub ≤ 9)
    || (0x3000 ≤ i && i ≤ 0x3FFF && sub == 1)
    || (0x2B00 ≤ i && i ≤ 0x2C1F && sub == 2 && (v == 2 || v == 3))
    || (i == 0x2581 && sub == 2 && v == 2)
    || (0x2810 ≤ i && i ≤ 0x2817 && sub == 0x0A && v == 2)
    || (i == 0x2081 && (sub == 1 || sub == 5))
    -- the table of R311 refuses this one by a code of its own
    || (i == 0x2200 && sub == 0x0A)

/-- Whether the device state lets session `ses` of level `lvl` write value `v` to key `k`, an object of level `need` (R21). -/
def stateAllows (dev ses lvl : Nat) (k v : Nat) (l : Lvl) : Bool :=
  let i := k / 256 % 65536
  let sub := k % 256
  let own := i == 0x2110 + ses && (sub == 0x0A || sub == 0x0C)
  if dev = Dev.PREOP ∨ dev = Dev.OP then true
  else if dev = Dev.SERVICE then lvl == 2 || own
  else if dev = Dev.HOLD then l == .saf || l == .svc || own || holdWritable k v
  else false

/-- In recovery only the objects 0x2000 to 0x20FF and 0x2110 to 0x211F are there (R448). -/
def State.recoveryReaches (s : State) (i : Nat) : Bool := !s.u.boot.recovery || decide (0x2000 ≤ i ∧ i ≤ 0x20FF) || decide (0x2110 ≤ i ∧ i ≤ 0x211F)

/-- The checks that every write meets before its value is looked at: the device state (R21) and the level (R16). -/
def accessCode (s : State) (ses k v : Nat) (l : Lvl) : Nat :=
  if ¬ s.recoveryReaches (k / 256 % 65536) then Ab.STATE
  else if ¬ stateAllows s.dev ses (s.level ses) k v l then Ab.STATE
  else if ¬ mayWrite (s.level ses) l then Ab.ACCESS_LEVEL
  else 0

/-- A command with a row of its own is a write of value `v` to the object with key `k` and level `l`: nothing happens where the session is closed
(R39); over PCIe it breaks the collection of an object's slots (R25); otherwise the access checks, then the range, then what the object does. -/
def guarded (ses k v : Nat) (l : Lvl) (inRange : Bool) (body : State → WriteRes) : Act := .read fun s =>
  if ¬ s.isOpen ses ∨ s.dev = Dev.STANDBY then .skip
  else if ses = 0 ∧ (s.session 0).slots.isSome then all [.ses 0 (fun x => { x with slots := none }), answer 0 k (.no Ab.PARTIAL_ACCESS)]
  else
    let c := accessCode s ses k v l
    answer ses k (if c ≠ 0 then .no c else if ¬ inRange then .no Ab.RANGE else body s)

/-- Whether the device state lets objects of index `i` be read (R21). -/
def stateReads (dev i : Nat) : Bool := if dev = Dev.STANDBY then false else if dev = Dev.INIT then decide (0x1000 ≤ i ∧ i ≤ 0x207F) else true

/-- The data of a read of `n` bytes that aborts: all ones over BAR0, none on the other transports (R24). -/
def abortBytes (ses n : Nat) : List Byte := if ses = 0 then List.replicate n 0xFF else []

/-- A read with a row of its own of the object with key `k`, `n` bytes: the value and what reading it does. -/
def guardedRead (ses k n : Nat) (body : State → Nat × Act) : Act := .read fun s =>
  if ¬ s.isOpen ses ∨ s.dev = Dev.STANDBY then .skip
  else if ¬ stateReads s.dev (k / 256 % 65536) ∨ ¬ s.recoveryReaches (k / 256 % 65536) then all [recordAbort ses Ab.STATE k, .emit (.reply ses Ab.STATE (abortBytes ses n))]
  else all [(body s).2, .emit (.reply ses 0 (le n (body s).1))]

/-! ## Staged groups (R43 to R50) -/

/-- The control key of the group that index key `i` (`inst * 65536 + index`) belongs to (R44): group 0 has its block at
0x2120. -/
def ctlOf (i : Nat) : Nat := if i = 0x2101 then 0x2120 else i

/-- The index key whose objects form the group with control key `c`. -/
def idxOf (c : Nat) : Nat := if c = 0x2120 then 0x2101 else c

/-- Drop the shadow of group `c` and its owner: the shadow reads as the live values again. -/
def groupClear (c : Nat) : Act :=
  all [.dropShadow (idxOf c * 256) (idxOf c * 256 + 256),
    .dict fun d => { d with blobShadow := d.blobShadow.filter (fun e => decide (e.1 / 256 ≠ idxOf c)) },
    .put (Obj.SHADOW_OWNER c) 0xFF]

/-- Discard the shadow of group `c` (R50): CLEAN, with the record of the last failed commit kept. -/
def groupDiscard (c : Nat) : Act := all [groupClear c, .put (Obj.COMMIT_STATUS c) 0]

/-- Write the shadow of group `c` to the live values, whole (R47). -/
def groupTake (c : Nat) : Act := .read fun s =>
  all [each (s.shadow.filter (fun e => decide (e.1 / 256 = idxOf c))) (fun e => .put e.1 e.2.toNat),
    .dict fun d => { d with
      blobs := (d.blobShadow.filter (fun e => decide (e.1 / 256 = idxOf c))).foldl (fun t e => Tab.set t e.1 e.2) d.blobs },
    groupClear c,
    .put (Obj.COMMIT_STATUS c) 3,
    .wrap 32 (Obj.COMMIT_COUNT c) 1,
    .put (Obj.APPLIED_TIME c) s.ns,
    .put (Obj.APPLIED_TIME_FRAC c) s.frac,
    .dict fun d => { d with pendingGroups := d.pendingGroups.filter (· != c) }]

/-- The abort code that ownership gives a write, commit or discard of group `c` by session `ses` (R45, R48). -/
def groupCode (s : State) (ses c : Nat) : Nat :=
  let st := s.get (Obj.COMMIT_STATUS c)
  if st = 2 then Ab.COMMIT_BUSY
  else if (st = 1 ∨ st = 4) ∧ s.get (Obj.SHADOW_OWNER c) ≠ ses then Ab.GROUP_OWNED
  else 0

/-- Whether group `c` is PENDING. -/
def State.groupPending (s : State) (c : Nat) : Bool := s.get (Obj.COMMIT_STATUS c) == 2

/-- A group that is PENDING applies. -/
def takeIfPending (c : Nat) : Act := .read fun s => when (s.groupPending c) (groupTake c)

/-- The value a group that is PENDING will give key `k`, or else the live value: what a check compares with (R46). -/
def State.pendingOr (s : State) (k : Nat) : Nat :=
  if s.groupPending (ctlOf (k / 256)) then s.shadowOf k else s.get k

/-- A write of value `v` to the shadow of key `k` by session `ses` (R43, R45). -/
def shadowWrite (ses k : Nat) (w : Act) : Act := .read fun s =>
  let c := ctlOf (k / 256)
  all [w, when (s.get (Obj.COMMIT_STATUS c) != 4) (.put (Obj.COMMIT_STATUS c) 1), .put (Obj.SHADOW_OWNER c) ses]

/-! ## Closing a session (R33, R40) -/

/-- What a close or a drop of level does besides: shadows that are not PENDING are discarded, FILLING slots return to IDLE,
POSTED and RUNNING slots lose their owner (R40), and so do slots in DONE and ABANDONED, which the rule does not name (DESIGN CHOICE, log entry 178). -/
def sessionCleanup (ses : Nat) : Act := .read fun s =>
  all [
    each ((s.objs.filter (fun e => decide (e.1 % 256 = 0xFD ∧ e.2.toNat = ses))).map (fun e => e.1 / 256)) (fun c =>
      when (!s.groupPending c) (groupDiscard c)),
    each ((s.objs.filter (fun e => decide (e.1 % 256 = 2 ∧ 0x3000 ≤ e.1 / 256 ∧ e.1 / 256 ≤ 0x3FFF ∧ e.2.toNat = ses))).map
      (fun e => e.1 / 256 - 0x3000)) (fun n =>
        if s.get (Obj.STATE n) = 1 then all [.put (Obj.STATE n) 0, .put (Obj.OWNER_SESSION n) 0xFF]
        else .put (Obj.OWNER_SESSION n) 0xFF)]

/-- Session `ses` closes: the cleanup of R40, its record and its objects return to the closed ones; its number is free. -/
def sessionClose (ses : Nat) : Act :=
  all [sessionCleanup ses, .ses ses (fun _ => {}),
    .units (fun u => { u with
      boot := { u.boot with loads := u.boot.loads.map (fun e => if e.1 = ses then (16, e.2) else e) } }),
    .put (Obj.TRANSPORT ses) 0, .put (Obj.LEVEL ses) 0, .put (Obj.PEER_ID ses) 0]

/-- Session `ses` opens on a transport at a level (R39). `IDLE_TIMEOUT_MS` keeps what was written to it before the number was freed (DESIGN CHOICE, log entry 178). -/
def sessionOpen (ses transport level peer : Nat) : Act := .read fun s =>
  all [.ses ses (fun x => { x with openLevel := level, certKey := peer, waiting := false, lastReq := s.time }),
    .put (Obj.TRANSPORT ses) transport, .put (Obj.LEVEL ses) level, .put (Obj.PEER_ID ses) peer,
    each (s.objs.filter (fun e => e.1 / 16777216 == ses && Obj.perSession (e.1 % 16777216))) (fun e => .put e.1 (Obj.reset e.1)),
    .put (Obj.OPENED_TIME ses) s.ns, .put (Obj.OPENED_TIME_FRAC ses) s.frac,
    .put (Obj.ABORT_COUNT ses) 0, .put (Obj.LAST_ABORT ses) 0, .put (Obj.LAST_ABORT_OBJECT ses) 0]

/-- Policy firmware runs (R460, R461). -/
def State.policyRuns (s : State) : Bool := s.get Obj.POLICY_STATE == 1 || s.get Obj.POLICY_STATE == 3

/-! ## Power domains on demand (R415) -/

/-- A domain that is gated is needed: it wakes (R415). -/
def needDomain (d : Nat) : Act := .read fun s =>
  when (s.get (Obj.DOM_STATE d) == 3) (all [.put (Obj.DOM_STATE d) 1, .count 32 (Obj.DOM_WAKES d) 1])

/-! ## Completion records (R61) -/

/-- The 64 bytes of a completion record (R61). -/
def completionRecord (seq status final flags tag tPost tDone slot detail wait eng bytes mj : Nat) : List Byte :=
  let r := le 4 seq ++ le 1 status ++ le 1 final ++ le 2 flags ++ le 8 tag ++ le 8 (tPost / 4294967296) ++
    le 8 (tDone / 4294967296) ++ le 2 (tPost / 65536 % 65536) ++ le 2 (tDone / 65536 % 65536) ++ le 2 slot ++ le 2 detail ++
    le 4 (min wait 0xFFFFFFFF) ++ le 4 (min eng 0xFFFFFFFF) ++ le 8 bytes ++ le 4 (min mj 0xFFFFFFFF)
  r ++ le 4 (crc32c r)

/-- Store 64 bytes in eight consecutive slots from key `k` on. -/
def putRecord (k : Nat) (r : List Byte) : Act :=
  each (List.range 8) fun i => .put (k + i) (ofLe ((r.drop (8 * i)).take 8))

end Sys2Proof.Machine
end

