-- ==== Sys2Proof/Machine/Homes.lean ====
section
/-! DEFINITION. Where homes of tiles lie, and the tiles as they are stored: tag bytes and the zero-bitmap codec (R153, R154, R166, R296 to R299). -/

namespace Sys2Proof.Machine

/-- The module address of payload slot `k`, and of its tag (R153). -/
def State.slotAddr (s : State) (k : Nat) : Nat := s.get Obj.PAYLOAD_BASE + 4096 * k
def State.tagAddr (s : State) (k : Nat) : Nat := s.get Obj.TAG_BASE + 32 * k

/-- Where the payload and the tag of a home lie: in the payload and tag regions, or in a slot that this module borrows, of which the model holds the plaintext (log entry
157). -/
def State.homeAddr (s : State) : Home → Nat
  | .slot k => s.slotAddr k
  | .lease n k => 17592186044416 + n * 1099511627776 + k * 4160
def State.homeTagAddr (s : State) : Home → Nat
  | .slot k => s.tagAddr k
  | .lease n k => 17592186044416 + n * 1099511627776 + k * 4160 + 4096

/-- The payload and the tag that a home holds. -/
def State.homeData (s : State) (h : Home) : List Byte := s.mread (s.homeAddr h) 4096
def State.homeTag (s : State) (h : Home) : List Byte := s.mread (s.homeTagAddr h) 32

/-- The payload of tile `t`'s home; nothing for a number that no tile has. -/
def State.payload (s : State) (t : Nat) : List Byte := match Tab.get? s.u.mem.tiles t with
  | some x => s.homeData x.home
  | none => []

/-- Byte `i` of a tag. -/
def tagByte (tag : List Byte) (i : Nat) : Nat := (tag.getD i 0).toNat

/-! ## The zero-bitmap codec (R296 to R299) -/

/-- Bytes as the bits of a bitmap: one for each nonzero byte. -/
def nonzeroBits : List Byte → Nat
  | [] => 0
  | b :: bs => (if b = 0 then 0 else 1) + 2 * nonzeroBits bs

/-- The 4 KiB payload of the compressed tile of `bs`, if its nonzero bytes are at most 3,576 (R296, R297). -/
def codecEncode (bs : List Byte) : Option (List Byte) :=
  let packed := bs.filter (· ≠ 0)
  if 3576 < packed.length then none
  else some (le 2 (520 + packed.length) ++ le 2 packed.length ++ le 4 0 ++ le 512 (nonzeroBits bs) ++ packed ++ List.replicate (3576 - packed.length) 0)

/-- Put bytes back where a bitmap of `n` bits has its ones. -/
def unpackBits : Nat → Nat → List Byte → List Byte
  | 0, _, _ => []
  | n + 1, m, bs => if m % 2 = 1 then bs.headD 0 :: unpackBits n (m / 2) bs.tail else 0 :: unpackBits n (m / 2) bs

/-- The logical tile of a compressed payload. -/
def codecDecode (p : List Byte) : List Byte := unpackBits 4096 (ofLe ((p.drop 8).take 512)) (p.drop 520)

/-- The bytes a compressed payload's header says are used. -/
def compLength (p : List Byte) : Nat := ofLe (p.take 2)

/-- The header agrees with the bitmaps (R298). -/
def codecOk (p : List Byte) : Bool :=
  let n := ofLe ((p.drop 2).take 2)
  compLength p == 520 + n && popcount 4096 (ofLe ((p.drop 8).take 512)) == n

/-- The bytes a Drill moves of a tile with this tag and payload (R298). -/
def movedBytes (compressed : Bool) (p : List Byte) : Nat := if compressed then min 4096 (64 * ceilDiv (compLength p) 64) else 4096

/-- A tag with SHAPE 0x08 and COMPRESSED set, or with SHAPE 0x01 and COMPRESSED clear. -/
def codecTag (tag : List Byte) (on : Bool) : List Byte :=
  let fl := tagByte tag 2
  tag.take 1 ++ le 1 (if on then 8 else 1) ++ le 1 (if on then setBit fl 1 else clearBit fl 1) ++ tag.drop 3

end Sys2Proof.Machine
end

