-- ==== Sys2Proof/Machine/PowerOps.lean ====
section
/-! DEFINITION. The Bursar's arithmetic (R418 to R426, R434) and the steps of the rails (R429), over which every
dispatch, end and power command is written. -/

namespace Sys2Proof.Machine
open Act

/-- The draw of a power class per logical field at N, in mW (R204). -/
def classMw (c : Nat) : Nat := 250 + 200 * c

/-- Units of 10 mW that a draw of `mw` at N takes at rail `v` (mV) and pacer step `p`, under the model scale (R419, R423). -/
def drawUnits (mw v p scale : Nat) : Nat :=
  if v ≤ 750 then ceilDiv (mw * v * v * (v - 350) * p * scale) (562500 * 400 * 320000)
  else ceilDiv (mw * v * v * (v - 150) * p * scale) (562500 * 600 * 320000)

/-- The model scale (R423). -/
def State.scale (s : State) : Nat := s.get Obj.MODEL_SCALE_PERMILLE

/-- Domain `d` is powered: waking or on. -/
def State.powered (s : State) (d : Nat) : Bool := s.get (Obj.DOM_STATE d) == 1 || s.get (Obj.DOM_STATE d) == 2

/-- The class a job runs at: its own, or the one it inherits (R224). 1 to 3 is C, P, B. -/
def Job.runCls (j : Job) : Nat := match j.inh with
  | some c => min c j.cls
  | none => j.cls

/-- A job that holds its fields: running, draining, saving, restoring or moving. -/
def Job.placed (j : Job) : Bool := match j.phase with
  | .ready | .paused => false
  | _ => true

/-- The jobs that hold fields, with their numbers. -/
def State.placedJobs (s : State) : List (Nat × Job) := s.u.tt.jobs.filter (fun e => e.2.placed)

/-- The jobs that hold field `f`. -/
def State.jobsOn (s : State) (f : Nat) : List (Nat × Job) := s.placedJobs.filter (fun e => e.2.place.contains f)

/-- The reserve, in units (R420, R432). -/
def State.reserve (s : State) : Nat :=
  let fixed := [66, 67, 68, 69, 70, 71, 72, 73, 77, 78, 79].foldl
    (fun a d => if s.powered d then a + s.get (Obj.DOM_MAX_MW d) / 10 else a) 0
  let var := [74, 75, 76].foldl
    (fun a d => if s.powered d then a + drawUnits (s.get (Obj.DOM_MAX_MW d)) (s.get (Obj.DOM_SET_MV d)) 32 s.scale else a) 0
  let idle := ((List.range 66).filter (fun f => s.powered f && (s.jobsOn f).isEmpty)).length
  fixed + var + 200 + 10 * idle

/-- The effective budget at the input, in W (R421). -/
def State.budget (s : State) : Nat :=
  let b := s.get Obj.BUDGET_W
  let h := if s.get Obj.HOST_LIMIT_EN ≠ 0 then s.get Obj.HOST_LIMIT_W else b
  let p := if s.get Obj.PMBUS_LIMIT_EN ≠ 0 then s.get Obj.PMBUS_LIMIT_W else b
  min (min b h) (min p (s.get Obj.HW_CEILING_W))

/-- `BUDGET_SOURCE`: the term that sets the budget, the lowest code among equals (R421). -/
def State.budgetSource (s : State) : Nat :=
  let e := s.budget
  if s.get Obj.BUDGET_W = e then 0
  else if s.get Obj.HOST_LIMIT_EN ≠ 0 ∧ s.get Obj.HOST_LIMIT_W = e then 1
  else if s.get Obj.PMBUS_LIMIT_EN ≠ 0 ∧ s.get Obj.PMBUS_LIMIT_W = e then 2
  else 3

/-- The hardware ceiling, in W: 180, less 8 for each degree of cold plate above 65 °C and 10 for each retired phase beyond the second,
not below 60 (R417, R422). A part of a degree counts in proportion, the ceiling rounded down to whole watts (log entry 20). -/
def ceilingW (plate : Int) (retired : Nat) : Nat :=
  let above := (plate - 650).toNat
  max 60 (180 - ceilDiv (8 * above) 10 - 10 * (retired - 2))

/-- The units that grants may total: 0.92 × budget − reserve (R421). -/
def State.available (s : State) : Nat := 92 * s.budget - s.reserve

/-- The units that jobs hold at their points. -/
def State.held (s : State) : Nat := s.placedJobs.foldl (fun a e => a + e.2.units) 0

/-- The units granted now, steps in progress included (R424, R429). -/
def State.granted (s : State) : Nat :=
  s.held + s.u.pow.steps.foldl (fun a e => a + e.2.extra) 0 + s.u.pow.stuck.foldl (fun a e => a + e.2) 0

/-- The rail that heat or a lost sensor leaves domain `d` (R433, R435). -/
def State.railCap (s : State) (d : Nat) : Nat := Tab.at s.u.pow.railCap d 900

/-- The point a field runs at for its jobs: the lowest of their granted rails (R424), within what heat leaves it; none on a field without jobs. -/
def State.fieldPoint (s : State) (f : Nat) : Option Nat :=
  match s.jobsOn f with
  | [] => none
  | e :: es => some (min (s.railCap f) (es.foldl (fun m x => min m x.2.mv) e.2.mv))

/-- The pacer step that the budget, heat or a lost sensor leaves domain `f` (R426, R433, R435). -/
def State.pacerCap (s : State) (f : Nat) : Nat := Tab.at s.u.pow.pacerCap f 32

/-- The units job `j` holds: the draw of each of its logical fields at its field's point and pacer (R419, R424). -/
def State.unitsOf (s : State) (j : Job) : Nat :=
  j.place.foldl (fun a f =>
    a + drawUnits (classMw j.decl.power) ((s.fieldPoint f).getD j.mv) (s.pacerCap f) s.scale) 0

/-- The units drawn on field `f` by its jobs. -/
def State.fieldUnits (s : State) (f : Nat) : Nat :=
  (s.jobsOn f).foldl (fun a e => a + (e.2.place.filter (· = f)).length *
    drawUnits (classMw e.2.decl.power) ((s.fieldPoint f).getD e.2.mv) (s.pacerCap f) s.scale) 0

/-- Change job `j`'s record. -/
def Act.job (j : Nat) (f : Job → Job) : Act :=
  .tt fun t => match Tab.get? t.jobs j with
    | some x => { t with jobs := Tab.set t.jobs j (f x) }
    | none => t

/-- Job `j` has used `n` of domain `d`'s engine time or bytes in the present energy interval (R229). -/
def spend (d j n : Nat) : Act := .tt fun t => match Tab.get? t.jobs j with
  | some x => { t with spent := Tab.upd t.spent (d * 4294967296 + j) (x.ctx, x.run, 0) (fun e => (e.1, e.2.1, e.2.2 + n)) }
  | none => t

/-- Engine time of job `j` up to now: its context's and its fields' figures, its class's share of the floor window, its context's virtual time
(R202, R203, R206, R227, R228). Engine time below the point its context prefers is degraded. -/
def accrue (j : Nat) : Act := .read fun s =>
  match Tab.get? s.u.tt.jobs j with
  | none => .skip
  | some x =>
    if ¬ x.placed then .skip
    else
      let dt := (s.time - x.since) / 4294967296
      let eng := x.place.length * x.decl.engines * dt
      let low := decide (0 < eng) && !x.rising && x.place.any (fun f => decide ((s.fieldPoint f).getD x.mv < x.want))
      if dt = 0 then .skip
      else all [
        .job j (fun y => { y with
          since := y.since + dt * 4294967296,
          engNs := y.engNs + eng,
          flags := if low then y.flags ||| Fl.DEGRADED_POINT else y.flags }),
        when (!x.resident) (.count 64 (Obj.ENGINE_NS x.ctx) eng),
        when low (.count 64 (Obj.DEGRADED_NS x.ctx) eng),
        when (!x.resident) (each x.place (fun f => .count 64 (Obj.BUSY_NS f) (x.decl.engines * dt))),
        .tt fun t => { t with
          vtime := Tab.upd t.vtime x.ctx 0 (· + eng * 1000 / max 1 x.weight),
          window := (x.runCls, eng) :: t.window },
        each x.place (fun f => spend f j (x.decl.engines * dt))]

/-- Engine time of every placed job up to now. -/
def accrueAll : Act := .read fun s => each s.placedJobs fun e => accrue e.1

/-- Every placed job holds what its fields' points make of its draw. -/
def regrant : Act := .read fun s =>
  each s.placedJobs fun e => .job e.1 (fun j => { j with units := s.unitsOf j })

/-! ## Steps (R429) -/

/-- The highest pacer step up to 32 at which a field's jobs fit the units they hold, at rail `v`. -/
def State.pacerFor (s : State) (f v target : Nat) : Nat :=
  let js := s.jobsOn f
  let fits (p : Nat) : Bool := js.all fun e =>
    decide (drawUnits (classMw e.2.decl.power) v p s.scale ≤ drawUnits (classMw e.2.decl.power) target 32 s.scale)
  ((List.range 32).map (fun i => 32 - i)).find? fits |>.getD 1

/-- Field domains mirror their rail and pacer in the field's objects. -/
def putRail (d v : Nat) : Act := all [.put (Obj.DOM_RAIL_MV d) v, when (decide (d < 66)) (.put (Obj.RAIL_MV d) v)]
def putPacer (d p : Nat) : Act := all [.put (Obj.DOM_PACER d) p, when (decide (d < 66)) (.put (Obj.PACER_STEP d) p)]

/-- Begin the step of domain `d` to rail `mv` and pacer `p` (R429): going down, the pacer falls first, to the target step or to
the lower step that fits the new grant at the present rail; going up, the rail rises first. At the rail itself only the pacer changes, at once (R418). A step begun during
a droop is frozen (R431). -/
def beginStep (d mv p extra : Nat) : Act := .read fun s =>
  let v := s.get (Obj.DOM_RAIL_MV d)
  let q := s.get (Obj.DOM_PACER d)
  if v = mv ∧ (q = p ∨ ¬ s.u.pow.droop.contains d) then all [
    .put (Obj.DOM_TARGET_MV d) mv,
    when (q != p) (all [putPacer d p, .count 32 (Obj.DOM_STEPS d) 1]),
    .pow fun x => { x with steps := Tab.del x.steps d, stuck := Tab.del x.stuck d }]
  else all [
    when (decide (mv < v)) (putPacer d (min q (min p (if d < 66 then s.pacerFor d v mv else p)))),
    .put (Obj.DOM_TARGET_MV d) mv,
    .pow fun x =>
      let st : Step := { mv := mv, pacer := p, oldMv := v, oldPacer := q, extra := extra, frozen := x.droop.contains d }
      { x with steps := Tab.set x.steps d st, stuck := Tab.del x.stuck d }]

/-- The pacer a trip or the clamp leaves variable domain `d` (R436, R437). -/
def PowS.ceilPacer (x : PowS) (p : Nat) : Nat :=
  if x.overcurrent || x.junction then 1 else if x.clamp then min 8 p else p

/-- Field `f` steps to its jobs' point, unless a trip holds its rail. Where its jobs held `before` units, the grant of a step
down covers the higher point until the step completes (R429). -/
def settleField (before f : Nat) : Act := .read fun s =>
  match s.fieldPoint f with
  | none => .skip
  | some p =>
    when (!s.u.pow.junction && s.get (Obj.DOM_STATE f) == 2)
      (beginStep f p (s.u.pow.ceilPacer (s.pacerCap f)) (before - s.fieldUnits f))

/-- Domain `d`, if it is variable and on, steps to its point: a field to its jobs', or keeping its rail without jobs; domains 74 to 76 to `DOM_SET_MV` (R432), all
within what trips, heat and the clamp leave. -/
def restore (d : Nat) : Act := .read fun s =>
  let p := s.u.pow.ceilPacer (s.pacerCap d)
  if s.u.pow.junction ∨ s.get (Obj.DOM_STATE d) ≠ 2 then .skip
  else if d < 66 then (match s.fieldPoint d with
    | some v => beginStep d v p 0
    | none => beginStep d (min (s.railCap d) (s.get (Obj.DOM_TARGET_MV d))) p 0)
  else if 74 ≤ d ∧ d ≤ 76 then beginStep d (min (s.railCap d) (s.get (Obj.DOM_SET_MV d))) p 0
  else .skip

/-- Every field of `fs` settles, from the units its jobs held in state `s`. -/
def settleAll (s : State) (fs : List Nat) : Act := each fs.eraseDups fun f => settleField (s.fieldUnits f) f

/-- Job `j` takes rail `mv`: every field of it settles, and the grants are counted again. -/
def setJobRail (j mv : Nat) : Act := .read fun s =>
  match Tab.get? s.u.tt.jobs j with
  | none => .skip
  | some x => all [accrueAll, .job j (fun y => { y with mv := mv }), regrant, settleAll s x.place]

/-! ## Recovering power (R426) -/

/-- How many units the budget is exceeded by, once the steps in progress complete. -/
def State.excess (s : State) : Nat := s.reserve + s.held + s.u.pow.stuck.foldl (fun a e => a + e.2) 0 - 92 * s.budget

/-- The rails of the grid from `hi` down to 550 mV (R418). -/
def railsDown (hi : Nat) : List Nat := (List.range ((hi - 550) / 10 + 1)).map (fun i => hi - 10 * i)

/-- Units job `x` would hold at rail `v`, its fields' other jobs left as they are. -/
def State.unitsAt (s : State) (x : Job) (v : Nat) : Nat :=
  x.place.foldl (fun a f => a + drawUnits (classMw x.decl.power) (min v ((s.fieldPoint f).getD v)) (s.pacerCap f) s.scale) 0

/-- Step job `j` down to the highest rail that fits, or to 0.55 V. -/
def stepDown (j : Nat) : Act := .read fun s =>
  if s.excess = 0 then .skip
  else match Tab.get? s.u.tt.jobs j with
    | none => .skip
    | some x =>
      if x.mv ≤ 550 then .skip
      else
        let need := s.excess
        let v := (railsDown (x.mv - 10)).find? (fun v => decide (need + s.unitsAt x v ≤ x.units)) |>.getD 550
        all [setJobRail j v, .count 32 Obj.BUDGET_STEP_DOWNS 1]

/-- Lower the pacers of job `j`'s fields to the highest step that fits, down to step 1. -/
def paceDown (j : Nat) : Act := .read fun s =>
  if s.excess = 0 then .skip
  else match Tab.get? s.u.tt.jobs j with
    | none => .skip
    | some x =>
      let need := s.excess
      let at' (p : Nat) : Nat := x.place.foldl (fun a f =>
        a + drawUnits (classMw x.decl.power) ((s.fieldPoint f).getD x.mv) (min p (s.pacerCap f)) s.scale) 0
      let p := ((List.range 32).map (fun i => 32 - i)).find? (fun p => decide (need + at' p ≤ x.units)) |>.getD 1
      all [.pow (fun w => { w with pacerCap := x.place.foldl (fun t f => Tab.set t f (min p (Tab.at t f 32))) w.pacerCap }),
        regrant, settleAll s x.place, .count 32 Obj.BUDGET_STEP_DOWNS 1]

/-- The placed jobs in the order of R426: class B, then P, then C; within a class the highest rail first. -/
def State.downOrder (s : State) : List Nat :=
  (sortBy (fun a b => decide (b.2.runCls < a.2.runCls ∨ (a.2.runCls = b.2.runCls ∧ b.2.mv ≤ a.2.mv)))
    (s.placedJobs.filter (fun e => !e.2.place.isEmpty))).map (·.1)

/-- Grants fit the budget again (R426). -/
def recover : Act := .read fun s =>
  if s.excess = 0 then .skip
  else all [each s.downOrder stepDown, each s.downOrder paceDown]

/-! ## Temperature prediction (R434) -/

/-- The mean of the kept differences between a field's sensor and its prediction. -/
def State.offset (s : State) (f : Nat) : Int :=
  match Tab.get? s.u.pow.diffs f with
  | none => 0
  | some [] => 0
  | some ds => ds.foldl (· + ·) 0 / ds.length

/-- The predicted junction temperature of field `f`, in tenths of a degree, with the die at `die` units and the field at `fld` units: plate + 0.12 K/W × P_die +
4.0 K/W × P_field + o_f (R434). -/
def State.predict (s : State) (f die fld : Nat) : Int :=
  s.u.pow.plate + Int.ofNat (ceilDiv (die * 12) 1000) + Int.ofNat (ceilDiv (fld * 4) 10) + s.offset f

/-- Whether fields `fs` stay within `THERMAL_TARGET_C` with `add` more units on each and `total` more on the die (R434). -/
def State.coolEnough (s : State) (fs : List Nat) (add total : Nat) : Bool :=
  fs.all fun f => decide (s.predict f (s.reserve + s.granted + total) (s.fieldUnits f + add) ≤ Int.ofNat (10 * s.get Obj.THERMAL_TARGET_C))

/-! ## Answers (R424) -/

/-- The highest rail up to `want` at which `n` logical fields of a power class fit the free units and stay cool on fields `fs`;
none if even 0.55 V does not fit. -/
def State.answerRail (s : State) (n power want : Nat) (fs : List Nat) : Option Nat :=
  (railsDown want).find? fun v =>
    let one := drawUnits (classMw power) v 32 s.scale
    decide (n * one + s.granted ≤ s.available) && s.coolEnough fs one (n * one)

/-! ## Step-up offers (R425) -/

/-- The point in force of a job: its phase point while one applies and lies above its context's preference, else the preference
(R425, R428). -/
def Job.point (j : Job) : Nat := match j.phasePt with
  | some p => max p j.want
  | none => j.want

/-- Whether step-ups may be offered on domain `f`: no hold-off, no trip, no excursion, a working sensor (R431, R433, R435, R436). -/
def State.offersOn (s : State) (f : Nat) : Bool :=
  !s.u.pow.heldOff.contains f && !s.u.pow.junction && !s.u.pow.overcurrent && !s.u.pow.hot.contains f && !s.u.pow.blind.contains f

/-- Offer job `j` the highest rail up to its point that fits. -/
def offer (j : Nat) : Act := .read fun s =>
  match Tab.get? s.u.tt.jobs j with
  | none => .skip
  | some x =>
    if x.phase ≠ .running ∨ x.place.isEmpty ∨ x.point ≤ x.mv ∨ ¬ x.place.all s.offersOn then .skip
    else
      let others (f v : Nat) : Nat := (s.jobsOn f).foldl (fun m e => if e.1 = j then m else min m e.2.mv) (min v (s.railCap f))
      let at' (v : Nat) : Nat := x.place.foldl (fun a f => a + drawUnits (classMw x.decl.power) (others f v) (s.pacerCap f) s.scale) 0
      match (railsDown x.point).find? (fun v => decide (x.mv < v) && decide (s.granted + at' v ≤ s.available + x.units) &&
          s.coolEnough x.place.eraseDups 0 (at' v - x.units)) with
      | some v => setJobRail j v
      | none => .skip

/-- Freed power is offered to running jobs below their point, in class order and by earliest dispatch (R425); pacers that the budget
lowered, and rails and pacers that heat lowered, rise first as far as they fit (log entry 21). Jobs left waiting for power ask again (R205). -/
def offers : Act := .read fun s =>
  if s.excess ≠ 0 then .skip
  else all [
    .tt (fun t => { t with jobs := t.jobs.map (fun e => (e.1, { e.2 with short := false })) }),
    each s.u.pow.railCap (fun e => when (s.offersOn e.1) (.read fun s =>
      let cost (v : Nat) : Nat := (s.jobsOn e.1).foldl (fun a x =>
        a + drawUnits (classMw x.2.decl.power) (min v ((s.jobsOn e.1).foldl (fun m y => min m y.2.mv) x.2.mv)) (s.pacerCap e.1) s.scale) 0
      let top := (s.jobsOn e.1).foldl (fun m x => max m x.2.mv) 550
      match (railsDown top).find? (fun v => decide (e.2 < v) && decide (s.granted + cost v ≤ s.available + cost e.2) &&
          s.coolEnough [e.1] (cost v - cost e.2) (cost v - cost e.2)) with
      | some v => all [.pow (fun w => { w with railCap := if v = top then Tab.del w.railCap e.1 else Tab.set w.railCap e.1 v }), regrant, settleField 0 e.1]
      | none => when ((s.jobsOn e.1).isEmpty || decide (top ≤ e.2)) (all [.pow (fun w => { w with railCap := Tab.del w.railCap e.1 }), restore e.1]))),
    each (s.u.pow.pacerCap.filter (fun e => decide (e.2 < 32) && s.offersOn e.1)) (fun e => .read fun s =>
      let raise (p : Nat) : Nat := (s.jobsOn e.1).foldl (fun a x =>
        a + drawUnits (classMw x.2.decl.power) ((s.fieldPoint e.1).getD x.2.mv) p s.scale) 0
      let p := ((List.range 32).map (fun i => 32 - i)).find?
        (fun p => decide (s.granted + raise p ≤ s.available + raise e.2)) |>.getD e.2
      when (decide (e.2 < p)) (all [.pow fun w => { w with pacerCap := Tab.set w.pacerCap e.1 p }, regrant, restore e.1])),
    each ((sortBy (fun a b => decide (a.2.runCls < b.2.runCls ∨ (a.2.runCls = b.2.runCls ∧ a.2.dispatched.getD 0 ≤ b.2.dispatched.getD 0)))
      s.placedJobs).map (·.1)) offer]

end Sys2Proof.Machine
end

