-- ==== Sys2Proof/Machine/Jobs.lean ====
section
/-! DEFINITION. The life of a job below the Timetable's decisions: how a run's stages become ready, what a job holds and
releases, how it ends, and how a run completes in its request slot or its furrow (R60 to R62, R199 to R212, R220 to R225). -/

namespace Sys2Proof.Machine
open Act

/-! ## Semaphores (R220 to R224) -/

/-- Change semaphore `i`. -/
def Act.sem (i : Nat) (f : Sem → Sem) : Act :=
  .tt fun t => match Tab.get? t.sems i with
    | some x => { t with sems := Tab.set t.sems i (f x) }
    | none => t

/-- The waiter that is served first: by class, then by arrival (R221). -/
def State.firstWaiter (s : State) (ws : List Nat) : Option Nat :=
  let cls (j : Nat) : Nat := match Tab.get? s.u.tt.jobs j with
    | some x => x.runCls
    | none => 4
  (sortBy (fun a b => decide (cls a ≤ cls b)) ws).head?

/-- One unit comes back to semaphore `i`: it goes straight to the first waiter, held for it while it is paused, or else to the
count (R221). -/
def semReturn (i : Nat) : Act := .read fun s =>
  match Tab.get? s.u.tt.sems i with
  | none => .skip
  | some x =>
    match s.firstWaiter x.waiters with
    | none => .sem i (fun y => { y with count := y.count + 1 })
    | some j =>
      let away := match Tab.get? s.u.tt.jobs j with
        | some w => w.phase == .paused || w.phase == .saving || w.phase == .restoring
        | none => false
      all [
        .sem i (fun y => { y with waiters := y.waiters.filter (· != j), handed := if away then y.handed ++ [j] else y.handed }),
        when (!away) (.job j (fun w => { w with wait := none, held := i :: w.held }))]

/-- The class that waiters give the holder `j`: the highest class of any job waiting on a semaphore it holds (R224). -/
def State.inheritedBy (s : State) (j : Job) : Option Nat :=
  (j.held.flatMap (fun i => match Tab.get? s.u.tt.sems i with
    | some x => x.waiters
    | none => [])).foldl (fun m w => match Tab.get? s.u.tt.jobs w with
      | some x => if x.runCls < j.cls then some (min x.runCls (m.getD 4)) else m
      | none => m) none

/-- Every holder runs at the class it inherits, along chains of holders; a raise is counted; a holder resumed only by inheritance
pauses again once it inherits nothing (R224). -/
def reinherit : Nat → Act
  | 0 => .skip
  | fuel + 1 => .read fun s =>
    let changed := s.u.tt.jobs.filter (fun e => decide (s.inheritedBy e.2 ≠ e.2.inh))
    if changed.isEmpty then .skip
    else all [
      accrueAll,
      each changed (fun e =>
        let n := s.inheritedBy e.2
        all [
          .job e.1 (fun j => { j with
            inh := n,
            inhPaused := j.inhPaused && n.isSome,
            phase := if n.isNone && j.inhPaused && j.phase == .running then .saving else j.phase }),
          when (e.2.inh.isNone && n.isSome) (all [.count 32 Obj.INHERITANCES 1, .count 32 (Obj.CTX_INHERITED e.2.ctx) 1])]),
      reinherit fuel]

/-- As many rounds as chains of holders can be long. -/
def inherit : Act := .read fun s => reinherit (s.u.tt.jobs.length + 1)

/-! ## Pauses begin (R215, R217, R219) -/

/-- Job `j` is asked to pause: a native job drains to its next yield point, or is at one where it waits and holds no semaphore (R223); a full-save job stops
issuing and saves at once. -/
def askPause (j : Nat) : Act := .read fun s =>
  match Tab.get? s.u.tt.jobs j with
  | none => .skip
  | some x =>
    if x.phase ≠ .running then .skip
    else .job j (fun y => { y with
      phase := if y.decl.fullSave ∨ (y.wait.isSome ∧ y.held = []) then .saving else .draining })

/-! ## What a job holds -/

/-- Fields, granules and the grant come back; power is offered to others (R424, R425). The domains of fields left without jobs, and that of the
unit that worked on it, start their idle time (R415). -/
def releaseFields (j : Nat) : Act := .read fun s =>
  match Tab.get? s.u.tt.jobs j with
  | none => .skip
  | some x => all [
      accrueAll,
      .job j (fun y => { y with place := [], units := 0, engs := [], grans := [] }),
      each x.place.eraseDups (fun f => .field f fun r => { r with idleSince := s.time }),
      match x.decl.op with
        | some o => .pow fun w => { w with quiet := Tab.set w.quiet o.domain s.time }
        | none => .skip,
      regrant, settleAll s x.place]

/-- The semaphores job `j` holds and waits for come back; units held for it go to the next waiter. -/
def releaseSems (j : Nat) : Act := .read fun s =>
  match Tab.get? s.u.tt.jobs j with
  | none => .skip
  | some x => all [
      .tt fun t => { t with
        sems := t.sems.map (fun e => (e.1, { e.2 with waiters := e.2.waiters.filter (· != j) })) },
      each (s.u.tt.sems.filter (fun e => e.2.handed.contains j)) (fun e =>
        all [.sem e.1 (fun y => { y with handed := y.handed.filter (· != j) }), semReturn e.1]),
      each x.held semReturn,
      .job j (fun y => { y with held := [], wait := none })]

/-- Everything job `j` holds comes back: fields, grant, barriers, semaphores, its save area, its waits. -/
def releaseAll (j : Nat) : Act := all [
  accrue j,
  .tt fun t => { t with bars := t.bars.filter (fun e => decide (e.2.job ≠ j)) },
  releaseSems j,
  .job j (fun y => { y with saveTiles := 0 }),
  releaseFields j]

/-! ## Runs -/

/-- The local number and the step count of a run's chunk (R269). -/
def Run.chunk (r : Run) (d : Decl) : Option (Nat × Nat) := d.chunk.map fun c => (r.args.getD c.localArg 0, r.args.getD c.stepsArg 0)

/-- The stream that a context's local number maps to (R264, R265). -/
def State.streamFor (s : State) (c k : Nat) : Option Nat := if 4096 ≤ k then none else Tab.get? s.u.streamDir (c * 4096 + k)

/-- The stream of job `x`'s chunk. -/
def State.chunkStream (s : State) (x : Job) : Option Nat :=
  match Tab.get? s.u.tt.runs x.run with
  | some r => match r.chunk x.decl with
    | some (k, _) => s.streamFor x.ctx k
    | none => none
  | none => none

/-- Job `x` with the stream its chunk is of, dispatched or not. -/
def State.withStream (s : State) (x : Job) : Job := { x with stream := match x.stream with
  | some n => some n
  | none => s.chunkStream x }

/-- The steps of job `x`'s chunk; 1 for a job that is none. -/
def State.chunkSteps (s : State) (x : Job) : Nat :=
  match Tab.get? s.u.tt.runs x.run with
  | some r => (r.chunk x.decl).elim 1 (·.2)
  | none => 1

/-- Change run `r`. -/
def Act.run' (r : Nat) (f : Run → Run) : Act :=
  .tt fun t => match Tab.get? t.runs r with
    | some x => { t with runs := Tab.set t.runs r (f x) }
    | none => t

/-- Stage `i` of run `r` becomes a ready job (R200); it enters the job table. A context that becomes ready after being
idle starts at the lowest virtual time among its class's ready contexts (R202), or where there is none at its own. -/
def stageReady (r i : Nat) (run : Run) (d : Decl) : Act := .read fun s =>
  let busy := s.u.tt.jobs.filter (fun e => decide (e.2.ctx = run.ctx))
  let peers := (s.u.tt.jobs.filter (fun e => decide (e.2.phase = .ready ∧ e.2.cls = run.cls))).map (fun e => Tab.at s.u.tt.vtime e.2.ctx 0)
  let floor := match peers with
    | [] => Tab.at s.u.tt.vtime run.ctx 0
    | v :: vs => vs.foldl min v
  .tt fun t =>
    let job : Job := {
      run := r, stage := i, ctx := run.ctx, decl := d, cls := run.cls, arrival := run.posted
      readyAt := s.time, since := s.time, want := s.get (Obj.PREFERRED_MV run.ctx) }
    { t with
      vtime := if busy.isEmpty then Tab.set t.vtime run.ctx floor else t.vtime,
      jobs := Tab.set t.jobs t.nextJob job,
      nextJob := t.nextJob + 1 }

/-- The status a run completes with: CANCELLED once it was abandoned (R60), its first bad status, or DONE as its flags say (R529). -/
def Run.status (r : Run) : Nat × Nat :=
  if r.cancelled then (St.CANCELLED, 0)
  else match r.bad with
    | some b => b
    | none => (if r.flags = 0 then St.DONE else St.DONE_FLAGGED, 0)

/-- The wait of a run in nanoseconds: from post to first dispatch, 0 if never dispatched (R61, R212). -/
def Run.waitNs (r : Run) : Nat := match r.first with
  | some t => (t - r.posted) / 4294967296
  | none => 0

/-- Write a completion record to slot `n`: at 0x70 to 0x77 and, if enabled, to host memory in the fixed order of R62, then the
MSI-X message. -/
def slotComplete (n final : Nat) (r : List Byte) : Act := .read fun s =>
  let fl := s.get (Obj.FLAGS n)
  all [putRecord (Obj.COMPLETION n 0) r,
    .put (Obj.STATE n) final,
    when (bit fl 2 && s.get Obj.HOST_COMPLETION_ENABLE != 0 && s.hostReachable)
      (let base := s.get Obj.HOST_COMPLETION_BASE + n * 64
       all [.emit (.hostWrite (base + 4) (r.drop 4)), .emit (.hostWrite base (r.take 4))]),
    when (bit fl 1) (msixRaise (s.get (Obj.MSIX_VECTOR n)))]

/-- KIND and DIR of argument `a` of slot `n`, whether its data is checked, its length in bytes, and its CRC (R54). -/
def State.slotArg (s : State) (n a : Nat) : Nat × Nat :=
  let m := s.get (Obj.ARG_META n a)
  (m / 2 ^ 60, m / 2 ^ 58 % 4)
def State.argChecked (s : State) (n a : Nat) : Bool := bit (s.get (Obj.ARG_META n a)) 57 && s.get (Obj.ARG_LEN_CHECK n a) % 4294967296 != 0
def State.argLen (s : State) (n a : Nat) : Nat := s.get (Obj.ARG_LEN_CHECK n a) % 4294967296
def State.argCrc (s : State) (n a : Nat) : Nat := s.get (Obj.ARG_LEN_CHECK n a) / 4294967296

/-- The slots that read POSTED or RUNNING in context `c`. -/
def State.slotsPosted (s : State) (c : Nat) : Nat :=
  (s.objs.filter (fun e => e.1 % 256 == 1 && decide (0x3000 ≤ e.1 / 256 ∧ e.1 / 256 ≤ 0x3FFF) && (e.2.toNat == 2 || e.2.toNat == 3)
    && s.get (Obj.CONTEXT (e.1 / 256 - 0x3000)) == c)).length

/-- The slot that a run completes in. -/
def Run.slotNo (r : Run) : Option Nat := match r.owner, r.forSlot with
  | .slot n, _ => some n
  | _, some q => some q.1
  | _, none => none

/-- The byte that a run has written last at a host address. -/
def Run.sentAt (r : Run) (a : Nat) : Option Byte := r.sent.findSome? fun w => if w.1 ≤ a then w.2[a - w.1]? else none

/-- The `n` bytes of the tiles from global tile address `a` on, in the order of their numbers; decoded where they are compressed. -/
def State.tileBytes (s : State) (a n : Nat) : List Byte :=
  let tile (t : Nat) : List Byte := match Tab.get? s.u.mem.tiles t with
    | some x =>
      let d := s.mread (s.homeAddr x.home) 4096
      if bit (tagByte x.tag 2) 1 then codecDecode d else d
    | none => []
  (((List.range (ceilDiv (a % 65536 + n) 4096)).flatMap (fun i => tile (a / 65536 % 4294967296 + i))).drop (a % 65536)).take n

/-- The CRC-32C of output argument `a` of slot `n` at completion, where it is asked for: over the tiles it names, or over what the run has written to the host's buffer;
bytes of that buffer that it has not written are not known here (log entry 168). -/
def outputCheck (x : Run) (n a : Nat) : Act := .read fun s =>
  let len := s.argLen n a
  let at' := s.get (Obj.ARG_ADDR n a)
  let put (c : Nat) : Act := .put (Obj.ARG_LEN_CHECK n a) (len + c * 4294967296)
  if ¬ s.argChecked n a ∨ (s.slotArg n a).2 = 0 then .skip
  else match (s.slotArg n a).1 with
    | 0 => match (List.range len).mapM (fun i => x.sentAt (at' + i)) with
      | some bs => put (crc32c bs)
      | none => .seq (put (s.free 0 32)) (.draw 1)
    | 1 => put (crc32c (s.tileBytes at' len))
    | _ => .seq (put (s.free 0 32)) (.draw 1)

/-- The CRCs of a run's output arguments. -/
def outputChecks (x : Run) : Act := .read fun s => match x.slotNo with
  | some n => each (List.range (s.get (Obj.ARG_COUNT n))) (outputCheck x n)
  | none => .skip

/-- The golden flags of a firing of furrow `f` (R407). -/
def State.goldenFlags (s : State) (f : Nat) : Nat :=
  if s.get (Obj.GOLDEN_EVERY f) = 0 then 0
  else match s.get (Obj.GOLDEN_STATUS f) with
    | 1 => 0
    | 2 => Fl.GOLDEN_FAIL
    | _ => Fl.GOLDEN_PENDING

/-- A run has ended: its record is written where its owner is read, and the units that follow it are told within the command. -/
def finishRun (r : Nat) : Act := .read fun s =>
  match Tab.get? s.u.tt.runs r with
  | none => .skip
  | some x₀ =>
    let x := match x₀.owner with
      | .firing f _ => { x₀ with flags := x₀.flags ||| s.goldenFlags f }
      | _ => x₀
    let st := x.status
    let rec' (final slot : Nat) : List Byte :=
      completionRecord x.seq st.1 final x.flags x.tag x.posted s.time slot st.2 x.waitNs (x.engNs / 1000) x.bytes (x.uj / 1000)
    all [
      .tt fun t => { t with runs := Tab.del t.runs r, ended := t.ended ++ [(x, st.1, st.2, x.flags)] },
      outputChecks x,
      match x.owner with
      | .slot n =>
        let final := if s.get (Obj.STATE n) = 5 then 5 else 4
        slotComplete n final (rec' final n)
      | .firing f _ => all [
          .count 64 (Obj.FIRINGS_DONE f) 1,
          putRecord (Obj.F_COMPLETION f 0) (rec' 4 (0x8000 + f)),
          .tt fun t => { t with
            furrows := Tab.upd t.furrows f {} (fun y =>
            { y with queue := y.queue.filter (· != r), live := y.live.filter (· != r) }) },
          match x.forSlot with
            | some (n, sq, tag) =>
              let final := if s.get (Obj.STATE n) = 5 then 5 else 4
              slotComplete n final (completionRecord sq st.1 final x.flags tag x.posted s.time n st.2 x.waitNs (x.engNs / 1000) x.bytes (x.uj / 1000))
            | none => .skip,
          when (s.get (Obj.F_MSIX_EN f) != 0) (msixRaise (s.get (Obj.F_MSIX_VECTOR f)))]
      | .golden f _ => .tt fun t => { t with
        furrows := Tab.upd t.furrows f {} (fun y =>
          if y.golden = some r then { y with golden := none } else y) }]

/-- Every stage of a run has completed, or will not. -/
def State.runOver (s : State) (r : Nat) (x : Run) : Bool :=
  !s.u.tt.jobs.any (fun e => decide (e.2.run = r)) && decide (x.stages.length ≤ x.done.length + x.gone.length)

/-- The runs of furrow `f`'s firings that are over are published in the order of the firings (R211). -/
def publishFirings (f : Nat) : Nat → Act
  | 0 => .skip
  | fuel + 1 => .read fun s =>
    let mine := s.u.tt.runs.filter (fun e => match e.2.owner with
      | .firing g _ => g == f
      | _ => false)
    match mine with
    | (r, x) :: _ => if s.runOver r x then all [finishRun r, publishFirings f fuel] else .skip
    | [] => .skip

/-- A run is over: its end is published, a firing's once those before it are. -/
def endRun (r : Nat) : Act := .read fun s =>
  match Tab.get? s.u.tt.runs r with
  | none => .skip
  | some x => match x.owner with
    | .firing f _ => publishFirings f (s.u.tt.runs.length + 1)
    | _ => finishRun r

/-- The stages of run `x` that can be taken further now: those whose inputs have all completed, and those that never will. -/
def Run.next (x : Run) (live : List Nat) : Option (Nat × Decl × Bool) :=
  ((List.range x.stages.length).zip x.stages).findSome? fun e =>
    if x.done.contains e.1 || x.gone.contains e.1 || live.contains e.1 then none
    else if e.2.deps.any x.gone.contains || x.cancelled then some (e.1, e.2, false)
    else if e.2.deps.all x.done.contains then some (e.1, e.2, true)
    else none

/-- Take run `r` further: stages become ready as their inputs complete, a stage of 0 logical fields or 0 steps completes at once with DONE
and is accounted (R199, R269), a stage that would consume a failed output never runs; when no stage is left the run ends. -/
def advance (r : Nat) : Nat → Act
  | 0 => .skip
  | fuel + 1 => .read fun s =>
    match Tab.get? s.u.tt.runs r with
    | none => .skip
    | some x =>
      let live := (s.u.tt.jobs.filter (fun e => decide (e.2.run = r))).map (fun e => e.2.stage)
      match x.next live with
      | some (i, d, true) =>
        let idle : Bool := match x.chunk d with
          | some (_, n) => n == 0
          | none => false
        if (d.fields = 0 ∧ d.op = none) ∨ idle then
          all [.run' r (fun y => { y with done := i :: y.done }), .count 32 (Obj.JOBS_DONE x.ctx) 1,
            match x.chunk d with
              | some (k, _) => match s.streamFor x.ctx k with
                | some n => .count 64 (Obj.CHUNKS_DONE n) 1
                | none => .skip
              | none => .skip,
            advance r fuel]
        else all [
          stageReady r i x d,
          match d.op with
            | some o => needDomain o.domain
            | none => .skip,
          advance r fuel]
      | some (i, _, false) => all [.run' r (fun y => { y with gone := i :: y.gone }), advance r fuel]
      | none => when (s.runOver r x) (endRun r)

/-- Enough rounds for every stage of any run. -/
def advanceRun (r : Nat) : Act := .read fun s =>
  match Tab.get? s.u.tt.runs r with
  | some x => advance r (2 * x.stages.length + 1)
  | none => .skip

/-- Merged chunks (R271, R272): job `j` takes its share of the engine time so far, in proportion to its steps, and if it held the fields one of those that
ran with it goes on with them. -/
def handOff (j : Nat) : Act := .read fun s =>
  match Tab.get? s.u.tt.jobs j with
  | none => .skip
  | some x =>
    let l := x.merged.getD j
    match Tab.get? s.u.tt.jobs l with
    | none => .skip
    | some y =>
      let mates := (s.u.tt.jobs.filter (fun e => decide (e.1 ≠ j ∧ (e.1 = l ∨ e.2.merged = some l)))).map (·.1)
      match (if l = j then mates.head? else some l) with
      | none => .skip
      | some h =>
        let share (now before : Nat) : Nat := min now ((now + before) * y.mergedMax / max 1 y.mergedSteps)
        let ns := share y.engNs y.mergedNs
        let uj := share y.uj y.mergedUj
        all [
          .job h (fun z =>
            let d : Decl := { z.decl with fields := y.decl.fields, engines := y.decl.engines, power := y.decl.power, live := y.decl.live }
            { z with
              place := y.place, bars := y.bars, grans := y.grans, engs := y.engs, units := y.units, mv := y.mv, rising := y.rising, since := y.since, decl := d
              dispatched := y.dispatched, saved := y.saved, saveTiles := y.saveTiles, merged := none
              phase := if y.stop.isSome then z.phase else y.phase
              mergedSteps := y.mergedSteps, mergedMax := y.mergedMax, engNs := y.engNs - ns, uj := y.uj - uj
              mergedNs := y.mergedNs + ns, mergedUj := y.mergedUj + uj }),
          .tt (fun t => { t with bars := t.bars.map (fun e => if e.2.job = l then (e.1, { e.2 with job := h }) else e) }),
          each (mates.filter (· != h)) (fun i => .job i (fun z => { z with merged := some h })),
          .job j (fun z => { z with
            place := [], bars := [], grans := [], engs := [], units := 0, saveTiles := 0
            engNs := ns, uj := uj, merged := none })]

/-- Job `j` leaves the job table with a status (R200): its figures join its run's and its context's, and what it holds is released. `stall` is the arbitration time of
R230. -/
def jobLeaves (j status detail flags stall : Nat) : Act := .read fun s =>
  match Tab.get? s.u.tt.jobs j with
  | none => .skip
  | some _ => all [
      accrueAll, handOff j,
      .read fun s => match Tab.get? s.u.tt.jobs j with
        | none => .skip
        | some x =>
          let fl := x.flags ||| flags
          let good := status = St.DONE ∨ status = St.DONE_FLAGGED
          let wait := if x.phase = .ready then (s.time - x.readyAt) / 4294967296 else 0
          let lost := x.lostNs + wait + stall + (if x.phase = .paused then (s.time - x.pausedAt) / 4294967296 else 0)
          let total := (s.time - x.readyAt) / 4294967296
          let slow := if total ≤ lost then 0xFFFFFFFF else min 0xFFFFFFFF (total * 1000 / (total - lost))
          all [
            releaseAll j,
            .tt fun t => { t with
              jobs := Tab.del t.jobs j,
              endedJobs := t.endedJobs ++ [(j, s.withStream x, status, detail)],
              slow := if good ∧ 0 < x.engNs then (x.ctx, s.time, slow, x.engNs) :: t.slow else t.slow },
            if good then .count 32 (Obj.JOBS_DONE x.ctx) 1 else .count 32 (Obj.JOBS_ENDED x.ctx) 1,
            when (decide (0 < wait)) (.count 64 (Obj.CTX_WAIT_NS x.ctx) wait),
            when (status == St.ENGINE_FAULT) (.count 32 Obj.JOBS_FAULT_ENDED 1),
            when (decide good && fl / Fl.RETRIED % 2 == 1) (.count 32 Obj.JOBS_RETRIED 1),
            .run' x.run (fun y => { y with
              flags := y.flags ||| fl,
              engNs := y.engNs + x.engNs,
              bytes := y.bytes + x.bytes,
              uj := y.uj + x.uj,
              done := if good then x.stage :: y.done else y.done,
              gone := if good then y.gone else x.stage :: y.gone,
              bad := if good then y.bad else match y.bad with
                | some b => some b
                | none => some (status, detail) }),
            inherit]]

/-- Job `j` ends with a status, and its run goes on or ends. -/
def endJob (j status detail flags stall : Nat) : Act := .read fun s =>
  match Tab.get? s.u.tt.jobs j with
  | none => .skip
  | some x => all [jobLeaves j status detail flags stall, advanceRun x.run, offers]

/-- Job `j` is to end with a status that is not its own: a ready or paused job ends at once, a full-save job that runs at once, a
native job at its next yield point (R60, R214). -/
def stopJob (j status detail : Nat) : Act := .read fun s =>
  match Tab.get? s.u.tt.jobs j with
  | none => .skip
  | some x =>
    if x.phase = .running ∨ x.phase = .draining ∨ x.phase = .moving ∨ x.phase = .restoring then
      if x.decl.fullSave ∨ (x.wait.isSome ∧ x.held = []) then endJob j status detail 0 0
      else .job j (fun y => { y with stop := some (status, detail), phase := if y.phase = .running then .draining else y.phase })
    else endJob j status detail 0 0

/-! ## The furrows' bookkeeping -/

/-- The record of furrow `f`. -/
def State.furrow (s : State) (f : Nat) : Furrow := Tab.at s.u.tt.furrows f {}

/-- Change furrow `f`'s record. -/
def Act.furrow (f : Nat) (g : Furrow → Furrow) : Act := .tt fun t => { t with furrows := Tab.upd t.furrows f {} g }

/-- The condition of cause `b`, instance `i`, has ended; its bit clears with its last instance. -/
def clearCause (b i : Nat) : Act := .read fun s =>
  let left := s.u.safe.active.filter (fun e => decide (e.1 ≠ b * 65536 + i))
  all [.safe (fun x => { x with active := left }),
    when (!left.any (fun e => decide (e.1 / 65536 = b))) (.modify Obj.ACTIVE_CAUSES (fun m => clearBit m b))]

/-- A furrow whose stop is pending reads STOPPED once its last firing has ended, which ends cause 6 (R213, R398). -/
def furrowSettle (f : Nat) : Act := .read fun s =>
  let x := s.furrow f
  when (x.stopping && x.live.isEmpty && x.queue.isEmpty)
    (all [.furrow f (fun y => { y with stopping := false }), .put (Obj.FURROW_STATE f) 1,
      .modify (Obj.ARMED_MASK (f / 64)) (fun m => clearBit m (f % 64)), clearCause 6 f])

/-! ## Everything ends (R441, resets) -/

/-- Every job, queued firing and posted request ends with a status and DETAIL, at once. -/
def endEverything (status detail : Nat) : Act := .read fun s =>
  all [each s.u.tt.jobs (fun e => endJob e.1 status detail 0 0),
    .read fun s => each s.u.tt.runs (fun e =>
      all [.run' e.1 (fun y => { y with bad := some (status, detail), gone := List.range y.stages.length, done := [] }), finishRun e.1])]

end Sys2Proof.Machine
end

