-- ==== Sys2Proof/Machine/Furrows.lean ====
section
/-! DEFINITION. Furrows below their commands: how a group meets its frame boundary, how a trigger becomes a firing, golden runs
(R207 to R213, R220, R404 to R407). -/

namespace Sys2Proof.Machine
open Act

/-! ## Units and their semaphores -/

/-- The loaded unit with a handle. -/
def State.unit (s : State) (h : Nat) : Option UnitDecl := Tab.get? s.u.tt.progs h

/-- Entry `e` of the unit with handle `h`. -/
def State.entryOf (s : State) (h e : Nat) : Option Entry := match s.unit h with
  | none => none
  | some u => u.entries[e]?

/-- The semaphores a unit declares in all its entries and stages, one for each rank, in rising order of rank (R220). -/
def UnitDecl.sems (u : UnitDecl) : List SemDecl :=
  sortBy (fun a b => decide (a.rank ≤ b.rank))
    ((u.entries.flatMap (fun e => e.stages.flatMap (·.sems))).foldl
      (fun acc d => if acc.any (fun x => decide (x.rank = d.rank)) then acc else acc ++ [d]) [])

/-- The semaphore that a rank of unit `h` names in context `c`. -/
def State.semOf (s : State) (c h rank : Nat) : Option Nat :=
  (s.u.tt.sems.find? (fun e => decide (e.2.ctx = c ∧ e.2.prog = h ∧ e.2.rank = rank))).map (·.1)

/-- Bind unit `h` to context `c`: its set of semaphores is allocated the first time, numbered in rising order of rank, if enough are free (R220). -/
def bindSems (c h : Nat) : Act := .read fun s =>
  match s.unit h with
  | none => .skip
  | some u =>
    let ds := u.sems
    if ds.isEmpty ∨ s.u.tt.sems.any (fun e => decide (e.2.ctx = c ∧ e.2.prog = h)) ∨ 1024 < s.u.tt.sems.length + ds.length then .skip
    else each ds fun d => .tt fun t =>
      let x : Sem := { ctx := c, prog := h, rank := d.rank, count := d.init, max := d.max }
      { t with sems := Tab.set t.sems (Tab.fresh t.sems 1024 0) x }

/-! ## The frame boundary (R208) -/

/-- The control keys of a furrow's group and of its Dictation group. -/
def furrowCtl (f : Nat) : Nat := f * 65536 + 0x2581
def dictationCtl (f : Nat) : Nat := f * 65536 + 0x2D21

/-- Apply a PENDING group of furrow `f`. For the furrow group: the divider count restarts, `APPLIED_FIRING` names the first firing on the new values,
an EMPTY furrow becomes STOPPED, and the unit is bound to the context (R208, R210, R213, R220). -/
def applyFurrow (c : Nat) : Act := .read fun s =>
  let f := c / 65536
  if c % 65536 = 0x2581 then all [
    groupTake c,
    .put (Obj.APPLIED_FIRING f) (s.get (Obj.FIRINGS f) + 1),
    .furrow f (fun x => { x with sinceFiring := 0, ports := 0, portTov := none }),
    when (s.get (Obj.FURROW_STATE f) == 0) (.put (Obj.FURROW_STATE f) 1),
    .read fun s => bindSems (s.get (Obj.F_CONTEXT f)) (s.get (Obj.F_PROGRAM f))]
  else all [groupTake c,
    .furrow f (fun x => { x with scratch := x.newScratch, newScratch := none, oldScratch := x.scratch }),
    .read fun s =>
    when (s.get (Obj.GOLDEN_EVERY f) == 0) (all [.put (Obj.GOLDEN_STATUS f) 3, .put (Obj.GOLDEN_FIRING f) 0xFFFFFFFFFFFFFFFF]),
    .read fun s => when (s.get (Obj.GOLDEN_EVERY f) != 0 && s.get (Obj.GOLDEN_STATUS f) == 3) (.put (Obj.GOLDEN_STATUS f) 0)]

/-- The groups of furrow `f` that are PENDING are applied in the order of their commits (R49). -/
def frameBoundary (f : Nat) : Act := .read fun s =>
  each (s.u.dict.pendingGroups.filter (fun c => c == furrowCtl f || c == dictationCtl f)) applyFurrow

/-! ## SAFE-HOLD (R214) -/

/-- Furrow `f` is kept in SAFE-HOLD: `SAFEHOLD_KEEP_C`, and its context is of class C. -/
def State.kept (s : State) (f : Nat) : Bool :=
  s.get Obj.SAFEHOLD_KEEP_C != 0 && s.get (Obj.CTX_CLASS (s.get (Obj.F_CONTEXT f))) == 1

/-- The run belongs to a kept furrow. -/
def State.keptRun (s : State) (x : Run) : Bool := match x.owner with
  | .firing f _ => s.kept f
  | .golden f _ => s.kept f
  | _ => false

/-! ## Golden runs (R404 to R407) -/

/-- The latent-coverage condition of furrow `f` as an instance of cause 7 (checkers are instances 0 to 15). -/
def furrowInst (f : Nat) : Nat := 256 + f

/-- Note a cause instance for the safety island to raise within this command. -/
def dueCause (bitNo inst : Nat) : Act := .safe fun x => { x with due := x.due ++ [(bitNo, inst)] }

/-- The jobs of run `r` leave with a status, and are accounted. -/
def dropJobs (r status detail : Nat) : Act := .read fun s =>
  each (s.u.tt.jobs.filter (fun e => decide (e.2.run = r))) (fun e => jobLeaves e.1 status detail 0 0)

/-- Run `r` is removed with its jobs and leaves no record. -/
def dropRun (r : Nat) : Act := all [dropJobs r St.CANCELLED 0, .tt fun t => { t with runs := Tab.del t.runs r }, offers]

/-- The golden run of furrow `f` is abandoned (R406): it counts, its period is uncovered, and at `MISS_LIMIT` the latent-coverage warning
is raised. -/
def goldenAbandon (f : Nat) : Act := .read fun s =>
  all [
    match (s.furrow f).golden with
      | some r => dropRun r
      | none => .skip,
    .furrow f (fun x => { x with golden := none, goldenLost := true }),
    .count 32 (Obj.GOLDEN_ABANDONED f) 1,
    .sat 16 (Obj.CONSEC_UNCOVERED f) 1,
    .put (Obj.GOLDEN_STATUS f) 0,
    .read fun s => when (decide (s.get (Obj.MISS_LIMIT f) ≤ s.get (Obj.CONSEC_UNCOVERED f)))
      (all [.modify Obj.LATENT_MASK (fun m => setBit m 16), dueCause 7 (furrowInst f)])]

/-- Furrow `f`'s golden coverage is met again: its latent-coverage warning clears, and bit 16 of the mask with the last such one (R406). -/
def goldenCovered (f : Nat) : Act := all [
  .put (Obj.CONSEC_UNCOVERED f) 0, clearCause 7 (furrowInst f),
  .read fun s => when (!s.u.safe.active.any (fun e => decide (7 * 65536 + 256 ≤ e.1 ∧ e.1 < 8 * 65536))) (.modify Obj.LATENT_MASK (fun m => clearBit m 16))]

/-- The final compare stage of a golden run: it consumes every stage's output on one engine of one field (log entry 30). -/
def compareStage (n : Nat) : Decl := { fields := 1, engines := 1, deps := List.range n }

/-- The argument values of a firing: what is bound to its furrow (log entry 48). -/
def State.bound (s : State) (f : Nat) : List Nat := (List.range 16).map (fun a => s.get (Obj.F_BIND f a))

/-- Those of a golden run: its golden inputs stand in place of the bound ones (R404). -/
def State.goldenArgs (s : State) (f : Nat) : List Nat := (List.range 16).map fun a =>
  if a < 8 ∧ s.get (Obj.GOLDEN_IN f a) ≠ 0 then s.get (Obj.GOLDEN_IN f a) else s.get (Obj.F_BIND f a)

/-- What a golden run latches of furrow `f`'s outputs, whose scratch tiles follow one another. -/
def State.goldOf (s : State) (f : Nat) : Nat → Nat → List (Nat × Nat × Nat) → List Gold
  | _, _, [] => []
  | o, t, (_, fmt, n) :: rest =>
    { ref := s.get (Obj.GOLDEN_REF f o), abs := s.get (Obj.ABS_TOL f o), rel := s.get (Obj.REL_TOL f o), most := s.get (Obj.MAX_OUT_TOL f o)
      fmt := fmt, tiles := n, scratch := t } :: s.goldOf f (o + 1) (t + n) rest

/-- A golden run is due at firing `k` (R404): an unfinished one is abandoned (R406), and the new one enters ahead of the firing. -/
def goldenDue (f k : Nat) (e : Entry) : Act := .read fun s =>
  let g := s.get (Obj.GOLDEN_EVERY f)
  if g = 0 ∨ k % g ≠ 0 then .skip
  else all [
    when (s.furrow f).golden.isSome (goldenAbandon f),
    .read fun s =>
      let c := s.get (Obj.F_CONTEXT f)
      let x : Run := {
        owner := .golden f k, ctx := c, prog := s.get (Obj.F_PROGRAM f), entry := s.get (Obj.F_ENTRY f)
        stages := e.stages ++ [compareStage e.stages.length], cls := s.get (Obj.CTX_CLASS c), posted := s.time
        gold := s.goldOf f 0 (((s.furrow f).scratch.map (·.2.1)).getD 0) e.goldOut, args := s.goldenArgs f }
      all [
        .tt fun t => { t with runs := Tab.set t.runs t.nextRun x, nextRun := t.nextRun + 1 },
        .furrow f (fun y => { y with golden := some s.u.tt.nextRun }),
        advanceRun s.u.tt.nextRun]]

/-- A golden run of furrow `f` due at firing `k` has ended (R405 to R407): PASS if every output's count is at most what it tolerates, FAIL otherwise
raises cause 6; a stage that ended with a bad status abandons the run, and that status is logged. -/
def goldenEnded (f k : Nat) (x : Run) (status : Nat) : Act := .read fun s =>
  if status ≠ St.DONE ∧ status ≠ St.DONE_FLAGGED then
    all [logEv 0x0E11 f k status, goldenAbandon f]
  else
    let pass := (x.counts.zip x.gold).all (fun e => decide (e.1 ≤ e.2.most))
    all [
      .count 32 (Obj.GOLDEN_RUNS f) 1,
      when (!pass) (.count 32 (Obj.GOLDEN_FAILS f) 1),
      .put (Obj.LAST_OUT_COUNT f) (x.counts.foldl max 0),
      goldenCovered f,
      .put (Obj.GOLDEN_FIRING f) k,
      .furrow f (fun y => { y with goldenLost := false, golden := none }),
      when (s.get (Obj.GOLDEN_EVERY f) != 0) (.put (Obj.GOLDEN_STATUS f) (if pass then 1 else 2)),
      if pass then clearCause 6 f else dueCause 6 f]

/-! ## Firings (R210) -/

/-- The oldest queued firing ends without having started. -/
def endFiring (r status detail : Nat) : Act := all [
    dropJobs r status detail,
    .run' r (fun y => { y with bad := some (status, detail), gone := List.range y.stages.length }),
    finishRun r]

/-- Furrow `f` makes a firing on its live values (R210 to R212), for a posted request where `slot` names its slot, sequence, tag and arguments (R209): its flags STRICT and
DEMOTE_B then hold for the firing (R195). -/
def makeFiring (f tov tovFrac : Nat) (revised : Bool) (slot : Option (Nat × Nat × Nat × List Nat) := none) : Act := .read fun s =>
  let c := s.get (Obj.F_CONTEXT f)
  match s.entryOf (s.get (Obj.F_PROGRAM f)) (s.get (Obj.F_ENTRY f)) with
  | none => .skip
  | some e =>
    let k := s.get (Obj.FIRINGS f) + 1
    let fl := (slot.map (fun q => s.get (Obj.FLAGS q.1))).getD 0
    let x : Run := {
      owner := .firing f k, ctx := c, prog := s.get (Obj.F_PROGRAM f), entry := s.get (Obj.F_ENTRY f)
      stages := e.stages, cls := if bit fl 3 then 3 else s.get (Obj.CTX_CLASS c), posted := s.time, tov := tov, tovFrac := tovFrac
      strict := bit fl 0, demoted := bit fl 3, binds := s.bound f
      tag := tov, seq := k % 4294967296, flags := if revised then Fl.REVISED else 0
      args := (slot.map (·.2.2.2)).getD (s.bound f), forSlot := slot.map (fun x => (x.1, x.2.1, x.2.2.1)) }
    all [
      .count 64 (Obj.FIRINGS f) 1,
      goldenDue f k e,
      .read fun s => all [
        .tt fun t => { t with runs := Tab.set t.runs t.nextRun x, nextRun := t.nextRun + 1 },
        .furrow f (fun y => { y with queue := y.queue ++ [s.u.tt.nextRun] }),
        advanceRun s.u.tt.nextRun]]

/-- A trigger reaches furrow `f` (R208, R210, R214): accepted while it is ARMED with no stop pending and, in SAFE-HOLD, kept; the first accepted
trigger and every `TRIGGER_DIVIDER`-th after it makes a firing; `OVERRUN_MODE` decides when the queue is full. -/
def trigger (f tov tovFrac : Nat) (revised : Bool) (slot : Option (Nat × Nat × Nat × List Nat) := none) : Act := .read fun s =>
  if s.get (Obj.FURROW_STATE f) ≠ 2 ∨ (s.furrow f).stopping then .skip
  else if s.dev = Dev.HOLD ∧ ¬ s.kept f then .count 32 (Obj.TRIGGERS_HELD f) 1
  else all [
    frameBoundary f,
    .read fun s =>
      let n := (s.furrow f).sinceFiring
      let next := if n + 1 < s.get (Obj.TRIGGER_DIVIDER f) then n + 1 else 0
      if n ≠ 0 then .furrow f (fun x => { x with sinceFiring := next })
      else all [
        .furrow f (fun x => { x with sinceFiring := next }),
        match (s.furrow f).queue with
        | r :: q =>
          if s.get (Obj.QUEUE_DEPTH f) ≤ q.length + 1 then
            if s.get (Obj.OVERRUN_MODE f) = 0 then .count 32 (Obj.TRIGGERS_DROPPED f) 1
            else all [.count 32 (Obj.FIRINGS_SUPERSEDED f) 1, endFiring r St.SUPERSEDED 0, makeFiring f tov tovFrac revised slot]
          else makeFiring f tov tovFrac revised slot
        | [] => makeFiring f tov tovFrac revised slot]]

/-- The furrows that are ARMED. -/
def State.armed (s : State) : List Nat :=
  (List.range 4).flatMap fun m =>
    let w := s.get (Obj.ARMED_MASK m)
    if w = 0 then [] else ((List.range 64).filter (bit w)).map (fun b => 64 * m + b)

/-- A source of a trigger kind fires: every armed furrow of that kind and source is triggered (R209). -/
def deliver (kind source tov tovFrac : Nat) (revised : Bool) : Act := .read fun s =>
  each (s.armed.filter (fun f => s.get (Obj.TRIGGER_KIND f) == kind && s.get (Obj.TRIGGER_SOURCE f) == source))
    (fun f => trigger f tov tovFrac revised)

/-- A CSI-2 port delivers a frame end: a kind 1 furrow is triggered once every port of its mask has delivered one since its last firing, with
the earliest frame-start stamp of the set (R209). -/
def deliverPort (p tov tovFrac : Nat) : Act := .read fun s =>
  each (s.armed.filter (fun f => s.get (Obj.TRIGGER_KIND f) == 1 && bit (s.get (Obj.TRIGGER_SOURCE f)) p)) fun f =>
    let x := s.furrow f
    let seen := setBit x.ports p
    let first := match x.portTov with
      | none => (tov, tovFrac)
      | some t => if t.1 < tov ∨ (t.1 = tov ∧ t.2 ≤ tovFrac) then t else (tov, tovFrac)
    if seen &&& s.get (Obj.TRIGGER_SOURCE f) = s.get (Obj.TRIGGER_SOURCE f) then
      all [.furrow f (fun y => { y with ports := 0, portTov := none }), trigger f first.1 first.2 false]
    else .furrow f (fun y => { y with ports := seen, portTov := some first })

/-! ## What follows the end of runs, within the command -/

/-- What the end of a run brings its furrow: a furrow-completion trigger for the furrows that wait on it (kind 6), the result of a golden run. -/
def runEnded (x : Run) (status : Nat) : Act := match x.owner with
  | .firing f _ => all [
      when (status == St.DONE || status == St.DONE_FLAGGED)
        (.tt fun t => { t with dueTriggers := t.dueTriggers ++ [(f, x.tov, x.tovFrac, x.flags / Fl.REVISED % 2 == 1)] }),
      furrowSettle f]
  | .golden f k => goldenEnded f k x status
  | _ => .skip

/-- Tell the furrows of the runs that have ended, and fire the furrows those set off, until nothing is left to tell; a chain of
furrows is at most 256 long (R209). -/
def followRuns : Nat → Act
  | 0 => .skip
  | fuel + 1 => .read fun s =>
    let mine := s.u.tt.ended
    let due := s.u.tt.dueTriggers
    if mine.isEmpty ∧ due.isEmpty then .skip
    else all [
      .tt fun t => { t with
        dueTriggers := []
        ended := [] },
      each mine (fun e => runEnded e.1 e.2.1),
      each due (fun d => deliver 6 d.1 d.2.1 d.2.2.1 d.2.2.2),
      followRuns fuel]

end Sys2Proof.Machine
end

