-- ==== Sys2Proof/Machine/SafetyOps.lean ====
section
/-! DEFINITION. Causes and their reactions (R398, R399, R403), entering and leaving SAFE-HOLD as every block meets it (R214, R340, R391, R392), and what
leaving OPERATIONAL does (R441). -/

namespace Sys2Proof.Machine
open Act

/-! ## The safety outputs and the line -/

/-- Both safety outputs are de-energised. -/
def deEnergise : Act := .read fun s =>
  all [.put Obj.OUT_STATE 0, .safe (fun x => { x with pulses := [] }),
    when (s.get Obj.OUT_STATE != 0) (all [.emit (.pin .outA false), .emit (.pin .outB false)])]

/-- The filtered level of SAFE_HOLD_N follows who drives it. -/
def lineLevel : Act := .read fun s => .put Obj.HOLD_N_LEVEL (if s.u.safe.driving || s.u.safe.othersLow then 0 else 1)

/-! ## Causes -/

/-- The reaction that cause `b` of instance `i` has now (R398). -/
def State.reaction (s : State) (b i : Nat) : Nat :=
  match b with
  | 1 | 9 | 10 | 13 => 1
  | 5 => s.get Obj.E2E_ACTION
  | 6 => s.get (Obj.GOLDEN_FAIL_ACTION i)
  | 7 => s.get Obj.LATENT_ACTION
  | 8 => s.get Obj.QUIZ_FAIL_ACTION
  | 12 => s.get Obj.SAFE_HOLD_REQUEST
  | 14 => if s.get (Obj.CV_KIND i) = 0 then s.get (Obj.CV_ACTION i) else max 1 (s.get (Obj.CV_ACTION i))
  | _ => 2

/-- The INSTANCE of a CAUSE_RAISED event: the furrow for causes 6 and 7, the unit for cause 14 (R534). -/
def causeInstance (b i : Nat) : Nat :=
  if b = 6 then i else if b = 7 ∧ 256 ≤ i then i - 256 else if b = 14 then i else 0xFFFF

/-- An instance of a cause is active. -/
def State.causeActive (s : State) (b i : Nat) : Bool := s.u.safe.active.any (fun e => decide (e.1 = b * 65536 + i))

/-- A cause of reaction 1 or 2 is active (R400, R440). -/
def State.blocking (s : State) : Bool := s.u.safe.active.any (fun e => decide (1 ≤ e.2))

/-- The island drives SAFE_HOLD_N low while the device is in SAFE-HOLD, unless cause 1 is the only cause of reaction 1 or 2 raised since it entered
(R399); once it drives the line, cause 1 is not active (R403). -/
def driveLine : Act := .read fun s =>
  let want := s.dev == Dev.HOLD && s.u.safe.sinceHold.any (· != 1)
  if want && !s.u.safe.driving then
    all [.safe (fun x => { x with driving := true }), .emit (.pin .safeHoldN false), lineLevel, clearCause 1 0]
  else .skip

/-! ## SAFE-HOLD -/

/-- The Timetable on entry to SAFE-HOLD (R214): every job and queued firing but those of kept furrows ends with SAFETY_HOLD. -/
def holdTimetable : Act := .read fun s =>
  all [
    each s.u.tt.jobs (fun e => match Tab.get? s.u.tt.runs e.2.run with
      | some x => when (!s.keptRun x) (stopJob e.1 St.SAFETY_HOLD 0)
      | none => .skip),
    each s.u.tt.furrows (fun e => when (!s.kept e.1) (each e.2.queue (fun r => endFiring r St.SAFETY_HOLD 0)))]

/-- The AL state of the slave port in a device state (R439). -/
def alOf : Nat → Nat
  | 2 => 2
  | 3 => 8
  | 4 => 4
  | 5 => 3
  | _ => 1

/-- The AL state that the device state calls for on an enabled line (R486): 1 INIT, 4 SAFEOP, 8 OP. -/
def State.lineAl (s : State) (l : Nat) : Nat :=
  if s.get (Obj.LINE_ENABLE l) = 0 then 1
  else if s.dev = Dev.PREOP ∨ s.dev = Dev.SERVICE then 4
  else if s.dev = Dev.OP ∨ s.dev = Dev.HOLD then 8
  else 1

/-- The device state changes: the slave port's AL state follows (R488), session 1 opens with its link up (R39, R489), the slaves of the lines that are not LOST are driven (R486). -/
def setDev (d : Nat) : Act := all [
  .put Obj.DEVICE_STATE d, .wrap 32 Obj.STATE_CHANGES 1, .put Obj.AL_STATE (alOf d),
  .read fun s => all [
    when (decide (2 ≤ d) && s.u.links.slaveUp && !s.isOpen 1) (sessionOpen 1 2 1 (s.get Obj.STATION_ADDRESS)),
    .units fun u => { u with
      links := { u.links with
        lines := u.links.lines.map (fun e => if s.get (Obj.LINE_STATE e.1) = 3 then e else (e.1, { e.2 with al := s.lineAl e.1 })) } }]]

/-- The device enters SAFE-HOLD from OPERATIONAL; no other state leads there (R440). -/
def enterHold : Act := .read fun s =>
  if s.dev = Dev.OP then all [setDev Dev.HOLD, holdTimetable] else .skip

/-- The note of the condition of `ERROR_REGISTER` that a trip belongs to; cause 11 has its conditions by the number of the trip in HW_TRIP: 0 overcurrent, 1 junction trip,
2 junction shutdown, 3 input voltage (R68, R436). -/
def tripNote (b i : Nat) : Act := when (b == 11) (match i with
  | 0 => noteCurrent
  | 3 => noteVoltage
  | _ => noteThermal)

/-- A cause is raised (R398): logged after the event of its condition (R535), counted, latched, and its reaction carried out. -/
def raiseNow (b i : Nat) : Act := .read fun s =>
  let r := s.reaction b i
  all [
    .safe (fun x => { x with active := (b * 65536 + i, r) :: x.active.filter (fun e => decide (e.1 ≠ b * 65536 + i)) }),
    .modify Obj.ACTIVE_CAUSES (fun m => setBit m b),
    .modify Obj.LATCHED_CAUSES (fun m => setBit m b),
    when (decide (1 ≤ r)) (.safe fun x => { x with latchedHigh := setBit x.latchedHigh b }),
    .count 32 Obj.SAFETY_EVENTS 1,
    .read fun s => logNoted (tripNote b i) (0x0E00 + b) (causeInstance b i) (s.get Obj.ACTIVE_CAUSES) b,
    when (decide (1 ≤ r)) (all [
      .read fun s => when (s.dev == Dev.OP) (.safe fun x => { x with sinceHold := [] }),
      .read fun s => when (s.dev == Dev.OP || s.dev == Dev.HOLD) (.safe fun x => { x with sinceHold := b :: x.sinceHold.filter (· != b) }),
      enterHold, driveLine]),
    when (r == 2) deEnergise]

/-- A condition of cause `b` begins for instance `i`; a condition that is already active is no new raise (R398). -/
def raiseCause (b i : Nat) : Act := .read fun s => if s.causeActive b i then .skip else raiseNow b i

/-- The island releases the line; others that hold it low are seen again (R403). -/
def releaseLine : Act := .read fun s =>
  when s.u.safe.driving (all [.safe (fun x => { x with driving := false }), .emit (.pin .safeHoldN true), lineLevel,
    when s.u.safe.othersLow (raiseCause 1 0)])

/-- Leaving SAFE-HOLD for OPERATIONAL: furrows that were not kept count their triggers afresh (R210), channels in modes 1 and 2 ramp
again (R392), the island releases the line (R403). -/
def leaveHold : Act := .read fun s =>
  all [
    setDev Dev.OP,
    each s.u.tt.furrows (fun e => when (!s.kept e.1) (.furrow e.1 fun x => { x with sinceFiring := 0 })),
    each s.u.ctrl.ch (fun e =>
      let st := s.get (Obj.CH_STATE e.1)
      when ((st == 1 || st == 2) && s.get (Obj.SAFEHOLD_MODE e.1) != 0) (all [
        .put (Obj.CH_STATE e.1) 1,
        .units fun u => { u with ctrl := { ch := Tab.upd u.ctrl.ch e.1 {} fun x => { x with begin := true } } }])),
    .safe (fun x => { x with sinceHold := [] }),
    releaseLine]

/-! ## End-to-end failures (R408) -/

/-- A header or a record of `source` has been checked. -/
def e2eChecked : Act := .count 64 Obj.E2E_CHECKED 1

/-- A record of `source` is discarded: `counter` its `E2E_COUNTER`, `why` 0 for its CRC, 1 for a repeat, 2 for a step (R408, R534). At the limit within
the window, cause 5 is raised for it. -/
def e2eFailed (source counter why : Nat) : Act := .read fun s =>
  let n := Tab.at s.u.safe.e2e source 0 + 1
  all [
    .count 32 Obj.E2E_FAILED 1,
    logEv Ev.E2E_FAIL source counter why,
    .safe (fun x => { x with e2e := Tab.set x.e2e source n }),
    when (decide (s.get Obj.E2E_FAIL_LIMIT ≤ n) && !s.u.safe.overLimit.contains source) (all [
      .safe (fun x => { x with overLimit := source :: x.overLimit }),
      when (!s.causeActive 5 source) (.put Obj.E2E_LAST_SOURCE source),
      raiseCause 5 source])]

/-! ## Raises that came about within the command -/

/-- Raise the causes that units noted; a reaction can note more. -/
def raiseDue : Nat → Act
  | 0 => .skip
  | fuel + 1 => .read fun s =>
    match s.u.safe.due with
    | [] => .skip
    | (b, i) :: t => all [.safe (fun x => { x with due := t }), raiseCause b i, raiseDue fuel]

end Sys2Proof.Machine
end

