-- ==== Sys2Proof/Machine/MemOps.lean ====
section
/-! DEFINITION. The memory system below its commands: addresses, the tile map, allocation, what a write and a failed read do to a tile, errors
by channel and row, retirement (R150 to R192). -/

namespace Sys2Proof.Machine
open Act

/-! ## Addresses -/

/-- Stripes of one headland unit: 1/64 of usable capacity in stripes of 16 KiB (R153, R187). -/
def State.unitStripes (s : State) : Nat := if s.get Obj.MAP_ENTRIES = 31457280 then 61440 else 122880

/-- The usable capacity, below which module memory addresses lie (R151). -/
def State.capacity (s : State) : Nat := 64 * s.unitStripes * 16384

/-- The channel that R151 gives a module memory address. -/
def chanOf (a : Nat) : Nat := pieceChan (a / 256)

/-- How many pieces of a retirement have switched to the relocated mapping: all, or on a channel that is retiring as many as have (R186). -/
def State.moved (s : State) (r : Reloc) : Nat := match Tab.get? s.u.mem.switched r.ch with
  | some (_, n) => n
  | none => piecesOf r.base r.used r.ch

/-- The channel that serves an address now: that of R151, or the one a retirement has moved its piece to (R187). -/
def State.servingChan (s : State) (a : Nat) : Nat := pieceChan (locatePiece s.moved s.u.mem.relocs (a / 256))

/-- The memory group of the tile at an address (R150, R151). -/
def groupOf (a : Nat) : Nat := (a / 4096 % 4) ^^^ (a / 262144 % 4)

/-- The memory group that holds payload slot `k`. -/
def State.slotGroup (s : State) (k : Nat) : Nat := groupOf (s.slotAddr k)

/-- The global tile address of one of this module's tiles (R157). -/
def State.tileAddr (s : State) (t : Nat) : Nat := s.u.boot.moduleNo * 562949953421312 + t * 65536

/-- The tile number a global address names, or the status and DETAIL that refuse it for context `c` (R157, R158): an address of another
module, then one that names no tile the context owns. -/
def State.tileOf (s : State) (c a : Nat) : Nat ⊕ (Nat × Nat) :=
  let t := a / 65536 % 4294967296
  if a / 562949953421312 ≠ s.u.boot.moduleNo then .inr (St.CONFIG_INVALID, 0x0403)
  else if a / 281474976710656 % 2 = 1 ∨ 4096 ≤ a % 65536 ∨ s.get Obj.MAP_ENTRIES ≤ t then .inr (St.ACCESS_DENIED, 0x0404)
  else match Tab.get? s.u.mem.tiles t with
    | none => .inr (St.ACCESS_DENIED, 0x0404)
    | some x => if x.ctx = c then .inl t else .inr (St.ACCESS_DENIED, 0x0404)

/-- A tag's scale or book reference is an address of another module (R158). -/
def State.foreignRef (s : State) (tag : List Byte) : Bool :=
  tagByte tag 16 != 0 && ofLe ((tag.drop 8).take 8) / 562949953421312 != s.u.boot.moduleNo

/-! ## What is used and what is free -/

/-- The payload slots that homes, replicas and migrations in progress use. -/
def State.slotsUsed (s : State) : List Nat :=
  s.u.mem.tiles.flatMap fun e =>
    let h (x : Option Home) : List Nat := match x with
      | some (.slot k) => [k]
      | _ => []
    h (some e.2.home) ++ h e.2.replica ++ h e.2.migrating

/-- Payload slots that hold save areas (R216). -/
def State.saveSlots (s : State) : Nat := s.u.tt.jobs.foldl (fun a e => a + e.2.saveTiles) 0

/-- The payload slots that a lease granted to another module lies in (R166): its slots have 4,160 bytes. -/
def Lent.span (x : Lent) : Nat := ceilDiv (x.slots * 4160) 4096

/-- Payload slots' worth of lent memory. -/
def State.lentSlots (s : State) : Nat := s.u.mem.lent.foldl (fun a e => a + e.2.span) 0

/-- The end of the lent range that payload slot `k` lies in, if it lies in one. -/
def State.lentEnd (s : State) (k : Nat) : Option Nat :=
  s.u.mem.lent.findSome? fun e => if e.2.first ≤ k ∧ k < e.2.first + e.2.span then some (e.2.first + e.2.span) else none

/-- `SLOTS_FREE`. -/
def State.slotsFree (s : State) : Nat :=
  s.get Obj.PAYLOAD_SLOTS - s.slotsUsed.length - s.saveSlots - s.u.streams.foldl (fun a e => a + e.2.reserved) 0 - s.lentSlots - (s.u.mem.badSlots.filter (fun k => !s.slotsUsed.contains k)).length

/-- The tile numbers that context `c` has allocated, its save areas included (R196). -/
def State.ctxTiles (s : State) (c : Nat) : Nat :=
  (s.u.mem.tiles.filter (fun e => decide (e.2.ctx = c))).length
    + s.u.tt.jobs.foldl (fun a e => if e.2.ctx = c then a + e.2.saveTiles else a) 0
    + s.u.streams.foldl (fun a e => if s.get (Obj.S_CONTEXT e.1) = c then a + e.2.reserved else a) 0

/-- Payload slot `k` can take a copy: in service, not in use, not lent, on no marked row (R170). -/
def State.slotOk (s : State) (used : List Nat) (k : Nat) : Bool :=
  decide (k < s.get Obj.PAYLOAD_SLOTS) && !used.contains k && !s.u.mem.badSlots.contains k && (s.lentEnd k).isNone

/-- The first `n` slots from `k` on that `ok` allows, looking at no more than `fuel`; `past` is where to look after one that it does not allow. -/
def pickSlots (ok : Nat → Bool) (past : Nat → Nat) : Nat → Nat → Nat → List Nat
  | 0, _, _ => []
  | _, _, 0 => []
  | fuel + 1, k, n + 1 => if ok k then k :: pickSlots ok past fuel (k + 1) n else pickSlots ok past fuel (past k) (n + 1)

/-- `n` free payload slots, outside memory group `g` where one is named; fewer if there are not so many. -/
def State.freeSlots (s : State) (g : Option Nat) (n : Nat) : List Nat :=
  let used := s.slotsUsed
  if s.slotsFree = 0 then []
  else pickSlots (fun k => s.slotOk used k && decide (some (s.slotGroup k) ≠ g)) (fun k => (s.lentEnd k).getD (k + 1))
    (8 * (used.length + s.u.mem.badSlots.length + s.u.mem.lent.length + n + 8)) 0 (min n s.slotsFree)

/-- The first run of `n` payload slots that can be lent: at 0, or just past a slot in use, a slot on a marked row or a lent range. -/
def State.lendAt (s : State) (n : Nat) : Option Nat :=
  let held := (s.slotsUsed ++ s.u.mem.badSlots).map (fun k => (k, k + 1)) ++ s.u.mem.lent.map (fun e => (e.2.first, e.2.first + e.2.span))
  (sortBy (fun a b => decide (a ≤ b)) (0 :: held.map (·.2))).find? fun f =>
    decide (f + n ≤ s.get Obj.PAYLOAD_SLOTS) && held.all (fun h => decide (h.2 ≤ f ∨ f + n ≤ h.1))

/-- The longest run of payload slots that can be lent. -/
def State.lendable (s : State) : Nat :=
  let held := (s.slotsUsed ++ s.u.mem.badSlots).map (fun k => (k, k + 1)) ++ s.u.mem.lent.map (fun e => (e.2.first, e.2.first + e.2.span))
  let top := s.get Obj.PAYLOAD_SLOTS
  (0 :: held.map (·.2)).foldl (fun n f => max n ((held.foldl (fun e h => if f ≤ h.1 then min e h.1 else if f < h.2 then 0 else e) top) - f)) 0

/-! ## Borrowed leases -/

/-- Borrowed lease `n` takes tiles: it is active and the peer tier is on (R165, R168). -/
def State.leaseOpen (s : State) (n : Nat) : Bool :=
  s.get (Obj.LEASE_STATE n) == 1 && s.get Obj.PEER_TIER_EN != 0 && s.get Obj.PEER_TIMEOUT_US != 0

/-- The slots of borrowed lease `n` that hold tiles. -/
def State.leaseUsed (s : State) (n : Nat) : List Nat :=
  s.u.mem.tiles.flatMap fun e =>
    let h (x : Option Home) : List Nat := match x with
      | some (.lease m k) => if m = n then [k] else []
      | _ => []
    h (some e.2.home) ++ h e.2.replica ++ h e.2.migrating

/-- A free slot of borrowed lease `n` beside those in `more`. -/
def State.leaseSlotBeside (s : State) (more : List Home) (n : Nat) : Option Home :=
  let used := s.leaseUsed n ++ more.filterMap (fun h => match h with
    | .lease m k => if m = n then some k else none
    | .slot _ => none)
  if s.leaseOpen n then
    match pickSlots (fun k => !used.contains k && decide (k < s.get (Obj.LEASE_SLOTS n))) (· + 1) (used.length + 1) 0 1 with
    | k :: _ => some (.lease n k)
    | [] => none
  else none

/-- A free slot of borrowed lease `n`. -/
def State.leaseSlot (s : State) (n : Nat) : Option Home := s.leaseSlotBeside [] n

/-- `n` slots on the peer tier, round-robin over the active leases from lease `from'` on (R165), and the lease that comes next. -/
def State.peerHomes (s : State) (from' : Nat) (taken : List Home) : Nat → List Home × Nat
  | 0 => ([], from')
  | n + 1 =>
    match ((List.range 8).map (fun i => (from' + i) % 8)).findSome? (fun l => (s.leaseSlotBeside taken l).map (fun h => (l, h))) with
    | some (l, h) =>
      let r := s.peerHomes ((l + 1) % 8) (h :: taken) n
      (h :: r.1, r.2)
    | none => ([], from')

/-- Free slots on the peer tier. -/
def State.peerFree (s : State) : Nat :=
  (List.range 8).foldl (fun a n => if s.leaseOpen n then a + (s.get (Obj.LEASE_SLOTS n) - (s.leaseUsed n).length) else a) 0

/-! ## Allocation (R159) -/

/-- The DETAIL that refuses context `c` `n` more tile numbers. -/
def State.allocFault (s : State) (c n : Nat) : Option Nat :=
  if s.get (Obj.TILE_ALLOWANCE c) < s.ctxTiles c + n then some 0x0400
  else if s.slotsFree + s.peerFree < n then some 0x0401
  else none

/-- The first of `n` consecutive tile numbers that are free: 0, or one past a number in use. -/
def State.freeNumbers (s : State) (n : Nat) : Nat :=
  let used := s.u.mem.tiles.map (·.1)
  (0 :: used.map (· + 1)).find? (fun t => used.all (fun v => decide (v < t ∨ t + n ≤ v))) |>.getD 0

/-- The tag a tile is allocated with: its owner and the CHECK of a payload of zeros, all else zero (R154). -/
def ownerTag (c : Nat) : List Byte := le 4 0 ++ le 4 c ++ List.replicate 20 0 ++ le 4 0x98F94189

/-- The slot that carries tile `t` of generation `gen` to lease `n` (R166, R167): payload and tag sealed, the lease's write counter. The key is named by its info. -/
def State.sealedSlot (s : State) (n t gen : Nat) (tag data : List Byte) : List Byte :=
  let ctr := Tab.at s.u.mem.leaseCtr n 0 + 1
  let info := [0x6C, 0x65, 0x61, 0x73, 0x65] ++ le 4 (s.get Obj.BOOT_COUNT) ++ le 4 (Tab.at s.u.mem.leaseKey n 0)
  let nonce := le 8 ctr ++ le 2 (s.get (Obj.LENDER_MODULE n)) ++ le 2 (s.get (Obj.LEASE_ID n))
  (List.range 4144).map (Config.sealed info nonce (le 8 (s.tileAddr t) ++ le 4 gen) (data ++ tag)) ++ le 8 ctr ++ le 8 0

/-- A home copy of tile `t` takes a payload and a tag together (R161); to a lender goes one RDMA WRITE of the whole slot (R166). -/
def pokeHome (t gen : Nat) (h : Home) (tag data : List Byte) : Act := .read fun s => all [
  .poke (s.homeAddr h) data, .poke (s.homeTagAddr h) tag,
  match h with
    | .slot _ => .skip
    | .lease n k => all [
        .emit (.frame (.peerWrite n k) (s.sealedSlot n t gen tag data)),
        .mem fun m => { m with leaseCtr := Tab.upd m.leaseCtr n 0 (· + 1) }]]

/-- A home is zeroed before it is read (R123, R159), and takes the tag of a tile that nothing has written. -/
def zeroHome (t c : Nat) (h : Home) : Act := .read fun s => all [
  .wipe (s.homeAddr h) 4096, .wipe (s.homeTagAddr h) 32, .poke (s.homeTagAddr h) (ownerTag c),
  match h with
    | .slot _ => .skip
    | .lease n k => all [
        .emit (.frame (.peerWrite n k) (s.sealedSlot n t 0 (ownerTag c) (List.replicate 4096 0))),
        .mem fun m => { m with leaseCtr := Tab.upd m.leaseCtr n 0 (· + 1) }]]

/-- The homes of `n` new tiles: local slots first, then the leases in turn (R165), and the lease that comes next. -/
def State.newHomes (s : State) (n : Nat) : List Home × Nat :=
  let here := (s.freeSlots none n).map Home.slot
  let there := s.peerHomes s.u.mem.robin [] (n - here.length)
  (here ++ there.1, there.2)

/-- Allocate `n` tiles with consecutive numbers from `State.freeNumbers` to context `c`; the caller has checked `State.allocFault`. -/
def allocTiles (c n : Nat) : Act := .read fun s =>
  let base := s.freeNumbers n
  let homes := s.newHomes n
  let new := (List.range n).zip homes.1
  all [
    .mem (fun m => { m with
      tiles := new.foldl (fun t e =>
        let x : Tile := { ctx := c, home := e.2, tag := ownerTag c }
        Tab.set t (base + e.1) x) m.tiles
      robin := homes.2 }),
    each new (fun e => zeroHome (base + e.1) c e.2)]

/-- Tile `t` is freed. -/
def freeTile (t : Nat) : Act := all [
  .mem (fun m => { m with tiles := Tab.del m.tiles t }),
  .units (fun u => { u with fields := u.fields.map (fun e => (e.1, { e.2 with copies := e.2.copies.filter (· != t) })) })]

/-- Change tile `t`. -/
def Act.tile (t : Nat) (f : Tile → Tile) : Act :=
  .mem fun m => match Tab.get? m.tiles t with
    | some x => { m with tiles := Tab.set m.tiles t (f x) }
    | none => m

/-- The tile number a global address names. -/
def tileNo (a : Nat) : Nat := a / 65536 % 4294967296

/-- The entries of the book that a tile and an index name (R76, R77). -/
def State.bookEntries (s : State) (fmt : Nat) (b : Nat × Nat) : List Nat := bookOf fmt b.2 (s.payload (tileNo b.1))

/-- The book that the tag of an index tile names: the book tile and the number of the book in it (R76, R77). -/
def State.bookNamed (s : State) (fmt tile : Nat) : Nat × Nat :=
  let ref := match Tab.get? s.u.mem.tiles (tileNo tile) with
    | some x => ofLe ((x.tag.drop 8).take 8)
    | none => 0
  (ref, ref % 65536 / (if fmt = 0xC then 512 else 32))

/-- The books of an operand: those the command names, or with index tiles those that their tags name. -/
def State.booksOf (s : State) (o : Operand) : List (Nat × Nat) :=
  if o.indexTiles.isEmpty then o.books else o.indexTiles.map (s.bookNamed o.fmt)

/-! ## A job's sight of a tile (R161) -/

/-- What job `j` sees of tile `t`: what it first fetched of it, or else what the tile holds now. -/
def State.seenBy (s : State) (j t : Nat) : List Byte × List Byte :=
  match (Tab.get? s.u.tt.jobs j).bind (fun x => Tab.get? x.seen t) with
  | some v => (v.tag, v.data)
  | none => match Tab.get? s.u.mem.tiles t with
    | some x => (s.homeTag x.home, s.homeData x.home)
    | none => ([], [])

/-- Job `j` fetches tile `t`: from now on it sees the generation that is current. -/
def sees (j t : Nat) : Act := .read fun s =>
  match Tab.get? s.u.tt.jobs j, Tab.get? s.u.mem.tiles t with
  | some x, some y => when (Tab.get? x.seen t).isNone (.tt fun r => { r with
      jobs := Tab.set r.jobs j { x with seen := Tab.set x.seen t ⟨y.gen, s.homeTag y.home, s.homeData y.home⟩ } })
  | _, _ => .skip

/-! ## Seed stock (R174) -/

/-- Whether two homes are far enough apart for a home and its replica (R170). -/
def State.apart (s : State) : Home → Home → Bool
  | .slot a, .slot b => s.slotGroup a != s.slotGroup b
  | .lease a _, .lease b _ => a != b
  | _, _ => true

/-- Where a replica of a tile with this home can lie: in a local slot outside the home's memory group, or on the next lender in turn that is not the home's; and the
lease that comes next. -/
def State.replicaHome (s : State) (h : Home) : Option (Home × Nat) :=
  let group : Option Nat := match h with
    | .slot k => some (s.slotGroup k)
    | .lease _ _ => none
  match s.freeSlots group 1 with
  | r :: _ => some (.slot r, s.u.mem.robin)
  | [] => ((List.range 8).map (fun i => (s.u.mem.robin + i) % 8)).findSome? fun l =>
      match s.leaseSlot l with
      | some r => if s.apart r h then some (r, (l + 1) % 8) else none
      | none => none

/-- A shared tile gains its replica when there is room. -/
def seed (t : Nat) : Act := .read fun s =>
  match Tab.get? s.u.mem.tiles t with
  | none => .skip
  | some x =>
    if ¬ x.shared ∨ s.get Obj.SEED_STOCK_EN = 0 ∨ x.replica.isSome ∨ x.lost.isSome then .skip
    else match s.replicaHome x.home with
      | some (r, next) => all [
          .mem (fun m => { m with robin := next }),
          .tile t (fun y => { y with replica := some r }),
          pokeHome t x.gen r (s.homeTag x.home) (s.homeData x.home),
          .count 64 Obj.BYTES_MIGRATED 4096]
      | none => .skip

/-! ## Writing a home copy (R155, R156, R160, R161, R174, R177) -/

/-- Whether a shape admits a format (R155): no other shape code exists (log entry 43). -/
def shapeAdmits (shape format : Nat) : Bool :=
  match shape with
  | 0x00 | 0x03 | 0x09 => true
  | 0x01 | 0x02 | 0x08 => format != 0xE
  | 0x04 => (1 ≤ format && format ≤ 7) || (0xA ≤ format && format ≤ 0xD)
  | 0x05 => format ≤ 2
  | 0x06 => format == 0xC || format == 0xD
  | 0x07 => format == 0 || format == 0xF
  | _ => false

/-- The tag as it is stored: the owner, the generation and the CHECK are the device's (R154, R156), and what the layout marks zero is zero. -/
def storedTag (tag : List Byte) (c gen : Nat) (data : List Byte) : List Byte :=
  let b := tagByte tag
  let kind := b 16
  let zp := b 17
  le 1 (b 0 % 16) ++ le 1 (b 1) ++ le 2 (b 2 % 4) ++ le 4 (c % 4096) ++
    (if kind = 0 then le 8 0 else (List.range 8).map (fun i => BitVec.ofNat 8 (b (8 + i)))) ++
    le 1 kind ++ le 1 zp ++ le 1 (if zp = 1 then b 18 else 0) ++ le 5 0 ++ le 4 gen ++ le 4 (crc32c data)

/-- The status that goes with a loss's DETAIL (R176). -/
def lossStatus (detail : Nat) : Nat := if detail = 0x0410 then St.TILE_LOST else St.TIER_FAIL

/-- Tile `t`'s home has failed: its replica becomes the home, or the tile is lost with its cause, logged. -/
def homeFails (t detail : Nat) : Act := .read fun s =>
  match Tab.get? s.u.mem.tiles t with
  | none => .skip
  | some x =>
    if x.lost.isSome then .skip
    else match x.replica with
    | some r => .tile t (fun y => { y with home := r, replica := none, migrating := none })
    | none => all [.tile t (fun y => { y with lost := some detail, migrating := none }),
        logEv Ev.TILE_LOST x.ctx (s.tileAddr t) detail]

/-- Tile `t`'s home takes a payload and a tag, its replica with it, under a new generation: a migration in progress is aborted, the copies of the old generation are gone,
and an access to a lender while `PEER_TIMEOUT_US` is 0 fails at once (R168). With `whole` a loss ends. -/
def storeTile (t : Nat) (tag body : List Byte) (whole : Bool) : Act := .read fun s =>
  match Tab.get? s.u.mem.tiles t with
  | none => .skip
  | some x =>
    let gen := (x.gen + 1) % 4294967296
    let stored := storedTag tag x.ctx gen body
    let onLease : Bool := match x.home with
      | .lease _ _ => true
      | .slot _ => false
    all [
      when x.migrating.isSome (.count 64 Obj.MIGRATE_ABORTS 1),
      .tile t (fun y => { y with
        gen := gen, tag := stored, shared := bit (tagByte tag 2) 0, written := s.time,
        lost := if whole then none else y.lost,
        retry := if y.migrating.isSome then y.migrating else y.retry,
        aborts := if y.migrating.isSome then y.aborts + 1 else y.aborts,
        migrating := none }),
      pokeHome t gen x.home stored body,
      match x.replica with
        | some r => pokeHome t gen r stored body
        | none => .skip,
      .units (fun u => { u with fields := u.fields.map (fun e => (e.1, { e.2 with copies := e.2.copies.filter (· != t) })) }),
      seed t,
      when (onLease && s.get Obj.PEER_TIMEOUT_US == 0) (homeFails t 0x0411)]

/-- A job writes tile `t`: a whole write replaces the payload, a shorter one its first bytes. -/
def writeTile (t : Nat) (tag data : List Byte) : Act := .read fun s =>
  let whole := decide (4096 ≤ data.length)
  storeTile t tag (if whole then data.take 4096 else data ++ (s.payload t).drop data.length) whole

/-- A unit of the device writes bytes at an offset of a tile, under a new generation; of a tile that is lost nothing is kept. -/
def pokeTile (t offset : Nat) (bs : List Byte) : Act := .read fun s =>
  match Tab.get? s.u.mem.tiles t with
  | none => .skip
  | some x =>
    let old := s.homeData x.home
    if x.lost.isSome then .skip else storeTile t x.tag (old.take offset ++ bs ++ old.drop (offset + bs.length)) false

/-! ## What a fixed-function unit writes for a job -/

/-- Write `bs` to the output tiles `outs`, 4 KiB each. -/
def writeOut (c : Nat) : List (Nat × List Byte) → List Byte → Act
  | [], _ => .skip
  | o :: os, bs =>
    if bs = [] then .skip
    else all [
      .read fun s => match s.tileOf c o.1 with
        | .inl t => writeTile t o.2 (bs.take 4096 ++ List.replicate (4096 - bs.length) 0)
        | .inr _ => .skip,
      writeOut c os (bs.drop 4096)]

/-! ## Losing a copy (R175, R176) -/

/-- A read of tile `t` that some jobs wait for meets a failure: each is served from the replica and flagged, or ends (R175 to R177). -/
def readFails (t detail : Nat) (jobs : List Nat) : Act := .read fun s =>
  match Tab.get? s.u.mem.tiles t with
  | none => .skip
  | some x =>
    let cause := x.lost.getD detail
    all [
      homeFails t detail,
      if x.lost.isNone ∧ x.replica.isSome then all [
        .count 32 Obj.REPLICA_READS 1,
        each jobs fun j => .job j (fun y => { y with flags := y.flags ||| Fl.REPLICA_USED })]
      else each jobs fun j =>
        -- a state tile of the job's stream (R281)
        let state : Bool := match Tab.get? s.u.tt.jobs j with
          | some { stream := some n, .. } =>
            let h := (Tab.at s.u.streams n {}).home
            decide (h.1 ≤ t ∧ t < h.1 + h.2)
          | _ => false
        if state then endJob j St.STATE_LOST (if cause = 0x0410 then 0x0710 else 0x0711) 0 0
        else endJob j (lossStatus cause) cause 0 0]

/-- The status and DETAIL that meet a consumer of tile `t` if it is lost (R177). -/
def State.lossOf (s : State) (t : Nat) : Option (Nat × Nat) := match Tab.get? s.u.mem.tiles t with
  | some x => x.lost.map (fun d => (lossStatus d, d))
  | none => none

/-- The tile whose home or replica is payload slot `k`. -/
def State.tileAt (s : State) (k : Nat) : Option (Nat × Bool) :=
  s.u.mem.tiles.findSome? fun e =>
    if e.2.home = .slot k then some (e.1, true)
    else if e.2.replica = some (.slot k) then some (e.1, false)
    else none

/-- A decision that would cross limit `item` of R170 is refused, counted and logged. -/
def refuseDecision (item : Nat) : Act := .read fun s =>
  all [.count 32 Obj.REFUSED_DECISIONS 1, logEv Ev.POLICY_REFUSED 0xFFFF (s.free 0 64) item, .draw 1]

/-! ## Retirement (R185 to R190) -/

/-- Payload slots of one headland unit (R153). -/
def State.unitSlots (s : State) : Nat := s.unitStripes * 4

/-- The headland's units now: those of R153 and those that retirements added (R190). -/
def State.units (s : State) : Nat := (s.capacity - s.get Obj.HEADLAND_BASE) / (s.unitStripes * 16384)

/-- The headland units that hold relocated pieces. -/
def State.usedUnits (s : State) : List UsedUnit := match s.u.mem.relocs.getLast? with
  | some r => r.usedAfter
  | none => []

/-- The channels that retirements, also those in progress, have taken. -/
def State.goneChannels (s : State) : List Nat := s.u.mem.relocs.map (·.ch)

/-- The retirement of channel `ch` as it stands with `t` units in the headland (R187). -/
def State.relocOn (s : State) (t ch : Nat) : Reloc := relocOf s.unitStripes ((64 - t) * s.unitStripes) s.usedUnits s.goneChannels ch

/-- With `t` units the headland has the targets that the retirement of channel `ch` needs (R188). -/
def State.headlandHolds (s : State) (t ch : Nat) : Bool :=
  let base := (64 - t) * s.unitStripes
  decide (piecesOf base s.usedUnits ch ≤ targetsOf s.unitStripes base s.usedUnits (ch :: s.goneChannels))

/-- The least number of units from `t` on, at most `fuel` more, with which the headland does. -/
def State.unitsNeeded (s : State) (ch : Nat) : Nat → Nat → Nat
  | 0, t => t
  | fuel + 1, t => if s.headlandHolds t ch then t else s.unitsNeeded ch fuel (t + 1)

/-- The tiles that a grown headland drives out take free slots below it, outside their replicas' groups (R170, R190). -/
def evacuateSlots (limit : Nat) : Act := .read fun s =>
  each (s.u.mem.tiles.filter (fun e => match e.2.home with
    | .slot k => decide (limit ≤ k)
    | _ => false)) (fun e => .read fun s =>
      let group : Option Nat := match e.2.replica with
        | some (.slot r) => some (s.slotGroup r)
        | _ => none
      match s.freeSlots group 1 with
      | r :: _ => all [.tile e.1 (fun y => { y with home := .slot r }),
          pokeHome e.1 e.2.gen (.slot r) (s.homeTag e.2.home) (s.homeData e.2.home),
          .count 64 Obj.MIGRATIONS 1, .count 64 Obj.BYTES_MIGRATED 4096]
      | [] => .skip)

/-- The headland grows by `n` units (R190): replicas in them are dropped, the tiles leave, and the slots go out of service. -/
def growHeadland (n : Nat) : Act := .read fun s =>
  let limit := s.get Obj.PAYLOAD_SLOTS - n * s.unitSlots
  if n = 0 then .skip
  else all [
    .put Obj.HEADLAND_BASE (s.get Obj.HEADLAND_BASE - n * s.unitStripes * 16384),
    each (s.u.mem.tiles.filter (fun e => match e.2.replica with
      | some (.slot k) => decide (limit ≤ k)
      | _ => false)) (fun e => .tile e.1 (fun y => { y with replica := none })),
    -- the evacuation takes free slots below the limit only
    .put Obj.PAYLOAD_SLOTS limit,
    evacuateSlots limit]

/-- Channel `ch` can be retired: the targets are there, or the headland can grow for them, with no lent range in its way (R188, R190). -/
def State.retireFits (s : State) (ch : Nat) : Bool :=
  let t := s.units
  let t' := s.unitsNeeded ch 3 t
  let limit := s.get Obj.PAYLOAD_SLOTS - (t' - t) * s.unitSlots
  s.headlandHolds t' ch && (decide (t' = t) || (decide ((t' - t) * s.unitSlots ≤ s.slotsFree) && s.u.mem.lent.all (fun e => decide (e.2.first + e.2.span ≤ limit))))

/-- The relocation of channel `ch`'s pieces is laid out, the headland grown for it where it can be. -/
def layReloc (ch : Nat) : Act := .read fun s => all [
  when (s.retireFits ch) (growHeadland (s.unitsNeeded ch 3 s.units - s.units)),
  .read fun s => .mem (fun m => { m with relocs := m.relocs ++ [s.relocOn s.units ch] }),
  .read fun s => .put Obj.HEADLAND_FREE (s.units - s.usedUnits.length)]

/-- Retirement of channel `ch` begins, for cause 0 to 2 (R185, R186). -/
def retireStart (ch cause : Nat) : Act := all [
  layReloc ch,
  .put (Obj.CHANNEL_ROLE ch) 1, .put (Obj.RETIRE_PROGRESS ch) 0,
  .mem (fun m => { m with switched := Tab.set m.switched ch (cause, 0) })]

/-- The pieces that the retirement of channel `ch` relocates. -/
def State.pieces (s : State) (ch : Nat) : Nat := match s.u.mem.relocs.find? (fun r => r.ch == ch) with
  | some r => piecesOf r.base r.used ch
  | none => 0

/-- Channel `ch` leaves service for good (R187, R188). -/
def chanGone (ch role : Nat) : Act := .read fun s => all [
  .put (Obj.CHANNEL_ROLE ch) role,
  .mem (fun m => { m with
    retiredOrder := m.retiredOrder ++ [ch]
    switched := Tab.del m.switched ch }),
  .modify Obj.CHANNELS_ACTIVE (· - 1),
  .modify Obj.USABLE_MIB (· - s.unitStripes / 64)]

/-- The pieces of channel `ch` are all relocated, or lost with it. -/
def retireDone (ch role cause : Nat) : Act := .read fun s => all [
  chanGone ch role,
  .count 64 Obj.BYTES_MIGRATED (if role = 2 then s.pieces ch * 256 else 0),
  logEv Ev.CHANNEL_RETIRED ch cause 0]

/-! ## Maintenance windows (R182) -/

/-- What a maintenance operation does. -/
def maintain (ch : Nat) : MaintOp → Act
  | .zq => .read fun s => .put (Obj.LAST_ZQ_TIME ch) s.ns
  | .dqs mult => .put (Obj.REFRESH_MULT ch) mult
  | .catchup => .read fun s => .mem fun m => { m with refreshed := (List.range 8).foldl (fun t b => Tab.set t (ch * 8 + b) s.time) m.refreshed }

/-- Windows that are due start in order of due time, while fewer than two channels are in one (a window lasts 1 µs); a channel that is in one waits for it. -/
def startWindows : Nat → Act
  | 0 => .skip
  | fuel + 1 => .read fun s =>
    let now := s.u.mem.windows.filter (fun w => decide (s.time < w.2 + 1000 * 4294967296))
    match s.u.mem.dueWindows with
    | [] => .skip
    | w :: rest =>
      if 2 ≤ now.length ∨ now.any (fun x => x.1 == w.1) then .skip
      else all [
        .mem (fun m => { m with windows := (w.1, s.time) :: now, dueWindows := rest }),
        .count 64 Obj.MAINT_WINDOWS 1,
        .modify Obj.MAINT_MAX_WAIT_NS (fun v => max v w.2.1),
        maintain w.1 w.2.2,
        startWindows fuel]

/-! ## Background work (R179) -/

/-- A granule of a background activity uses up the one the overdue rule gave it, if it did. -/
def useOverdue (act unit : Nat) : Act := .mem fun m => { m with overdue := m.overdue.filter (· != (act, unit)) }

/-- A background activity takes its next granule on a unit; where foreground work waits there it yields, unless the overdue rule has given it the granule. -/
def background (act unit : Nat) (busy : Bool) (a : Act) : Act := .read fun s =>
  if busy ∧ ¬ s.u.mem.overdue.contains (act, unit) then .count 64 Obj.BG_YIELDS 1 else .seq (useOverdue act unit) a

/-! ## Errors by channel and row (R178, R185) -/

/-- A row is marked for cause 0 (rate) or 1 (uncorrectable), and counted and logged once; every slot that it was found in takes no tile (R178, R184; log entry 95). -/
def markRow (ch row addr cause : Nat) : Act := .read fun s =>
  let slot := (addr - s.get Obj.PAYLOAD_BASE) / 4096
  let inPayload := decide (s.get Obj.PAYLOAD_BASE ≤ addr)
  all [
    when (inPayload && !s.u.mem.rowSlots.contains (slot, ch, row)) (.mem fun m => { m with
      badSlots := slot :: m.badSlots.filter (· != slot), rowSlots := (slot, ch, row) :: m.rowSlots }),
    when (!s.u.mem.marked.contains (ch, row)) (all [
      .mem (fun m => { m with marked := (ch, row) :: m.marked }),
      .count 16 (Obj.CH_ROWS_MARKED ch) 1,
      logEv Ev.ROW_MARKED ch row cause])]

/-- A corrected error at `addr` in `row`: counted, the row marked after 16 in 24 h, the channel retired after too many in an hour. -/
def correctedAt (addr row : Nat) : Act := .read fun s =>
  let ch := s.servingChan addr
  let key := ch * 4294967296 + row
  let recent (ts : List Nat) (span : Nat) : List Nat := s.time :: ts.filter (fun t => decide (s.time < t + span * 4294967296))
  let rows := recent (Tab.at s.u.mem.rowCe key []) 86400000000000
  let hour := recent (Tab.at s.u.mem.hour ch []) 3600000000000
  all [
    .count 64 (Obj.CH_CORRECTED ch) 1,
    .mem (fun m => { m with
      rowCe := Tab.set m.rowCe key rows
      hour := Tab.set m.hour ch hour }),
    when (decide (16 ≤ rows.length)) (markRow ch row addr 0),
    .read (fun s => when (s.get Obj.AUTO_RETIRE_EN != 0 && decide (s.get Obj.RETIRE_CE_PER_HOUR < hour.length) && s.get (Obj.CHANNEL_ROLE ch) == 0
      && s.retireFits ch) (retireStart ch 1))]

/-- An uncorrectable error at `addr` in `row`, met by a read that some jobs wait for: in the system, tile-map or tag region it raises cause 10 (R178); in the payload it is
logged, its row marked, and the tile fails. -/
def uncorrectableAt (addr row : Nat) (jobs : List Nat) : Act := .read fun s =>
  let ch := s.servingChan addr
  let base := s.get Obj.PAYLOAD_BASE
  all [
    .count 32 (Obj.CH_UNCORRECTED ch) 1,
    if addr < base then all [logEv Ev.SYSTEM_REGION_ERROR ch addr 0, dueCause 10 0]
    else all [
      .read (fun s => logEv Ev.MEM_UNCORRECTABLE ch addr (s.free 0 32)), .draw 1,
      markRow ch row addr 1,
      match s.tileAt ((addr - base) / 4096) with
        | some (t, true) => readFails t 0x0410 jobs
        | some (t, false) => .tile t (fun y => { y with replica := none })
        | none => .skip]]

end Sys2Proof.Machine
end

