-- ==== Sys2Proof/Machine/FieldOps.lean ====
section
/-! DEFINITION. Fields below their commands: engines and their spares, what a fault does to a job, a field going fallow
(R123, R137, R139 to R145). -/

namespace Sys2Proof.Machine
open Act

/-! ## Where a field's memory lies in the part's one address space (log entry 5) -/

/-- The first byte of the slate of engine `e` of field `f` (64 KiB, R118). -/
def slateBase (f e : Nat) : Nat := 1099511627776 + (f * 34 + e) * 65536

/-- The first byte of field `f`'s store (2 MiB, R121). -/
def storeBase (f : Nat) : Nat := 2199023255552 + f * 2097152

/-- The first byte of the Harrow's line buffers of field `f` (192 KiB). -/
def lineBase (f : Nat) : Nat := 3298534883328 + f * 196608

/-- What lay in `n` bytes from one address on lies from another on. -/
def copyMem (src dst n : Nat) : Act := .read fun s => all [
  .wipe dst n,
  each (s.bytes.filter (fun c => decide (src ≤ c.1 ∧ c.1 < src + n))) (fun c => .poke (dst + (c.1 - src)) [c.2])]

/-! ## What a job reads and writes in a field (R113, R122) -/

/-- The address of a place of field `f`. -/
def Place.addr (f : Nat) (p : Place) : Nat := if p.inStore then storeBase f + p.offset else slateBase f p.engine + p.offset

/-- The engines whose slates a job has on a field: those granted to it, or to its stream. -/
def State.slates (s : State) (x : Job) (f : Nat) : List Nat :=
  x.engs.filterMap (fun e => if e.1 = f then some e.2 else none) ++ (match x.stream with
    | some n => if s.get (Obj.STATE_FIELD n) = f then (Tab.at s.u.streams n {}).engines else []
    | none => [])

/-- The granules of a field's store that a job has: its own, or its stream's. -/
def State.granules (s : State) (x : Job) (f : Nat) : List Nat :=
  x.grans.filterMap (fun g => if g.1 = f then some g.2 else none) ++ (match x.stream with
    | some n => if s.get (Obj.STATE_FIELD n) = f then (Tab.at s.u.streams n {}).grans else []
    | none => [])

/-- The granules that `n` bytes at a place of the store touch. -/
def Place.grans (p : Place) (n : Nat) : List Nat :=
  (List.range (ceilDiv (p.offset + n) 65536)).filter (fun g => decide (p.offset < (g + 1) * 65536))

/-- A job may use `n` bytes at a place: in the store only inside its granules (R122), in slates only inside those it has (log entry 158). -/
def State.mayUse (s : State) (x : Job) (f : Nat) (u : Place × Nat) : Bool :=
  u.2 == 0 ||
    if u.1.inStore then decide (u.1.offset + u.2 ≤ 2097152) && (u.1.grans u.2).all (s.granules x f).contains
    else decide (u.1.offset + u.2 ≤ 65536) && (s.slates x f).contains u.1.engine

/-! ## Arithmetic counts (R86) -/

/-- Add to the totals of `ARITH_EVENTS` (R86). -/
def countArith (c : Counts) : Act := all [
  .count 64 Obj.SATURATED c.saturated, .count 64 Obj.NAN_PRODUCED c.nan, .count 64 Obj.NAN_TO_ZERO c.nanToZero,
  .count 64 Obj.INF_SATURATED c.infSat, .count 64 Obj.WIDE_SUM_INEXACT c.inexact,
  .count 64 Obj.ZERO_SCALE c.zeroScale, .count 64 Obj.NONFINITE_SCALE c.nonfiniteScale, .count 64 Obj.BOOK_STALLS c.stalls]

/-- The counts of some conversions. -/
def countsOf (cs : List Counts) : Counts := cs.foldl Counts.add {}

/-! ## Engines -/

/-- Field `f` is in the active role. -/
def State.fieldActive (s : State) (f : Nat) : Bool := s.get (Obj.FIELD_ROLE f) == 0

/-- How many engines of field `f` are not retired. -/
def State.healthy (s : State) (f : Nat) : Nat := 34 - popcount 34 (s.get (Obj.ENGINE_RETIRED_MASK f))

/-- How many engines carry field `f`'s 32 logical engines (R140): none outside the active role. -/
def State.fieldEngines (s : State) (f : Nat) : Nat := if s.fieldActive f then min 32 (s.healthy f) else 0

/-- The context whose job or stream holds engine `e` of field `f`. -/
def State.engineHolder (s : State) (f e : Nat) : Option Nat :=
  match s.u.tt.jobs.find? (fun x => x.2.engs.contains (f, e)) with
  | some x => some x.2.ctx
  | none => (s.fieldRec f).held.findSome? fun h =>
      if (Tab.at s.u.streams h.1 {}).engines.contains e then some (s.get (Obj.S_CONTEXT h.1)) else none

/-- A Quiz slice that uses one of the engines `es` of field `f` is aborted (R412). -/
def abortUnitSlice (f : Nat) (es : List Nat) : Act := .read fun s => match s.u.safe.slice, s.u.safe.sliceUnit with
  | some (c, _), some (g, e) => when (g == f && es.contains e) (all [.safe (fun x => { x with slice := none, sliceUnit := none }), .count 32 (Obj.SLICES_ABORTED c) 1])
  | _, _ => .skip

/-- Context `c` takes slates of engines `es` and granules `gs` of field `f`: one that another context held last is written to zero first (R123). -/
def takeSpace (c f : Nat) (es gs : List Nat) : Act := .read fun s =>
  let r := s.fieldRec f
  all [
    abortUnitSlice f es,
    each (es.filter (fun e => (Tab.get? r.slate e).any (· != c))) (fun e => .wipe (slateBase f e) 65536),
    each (gs.filter (fun g => (Tab.get? r.granule g).any (· != c))) (fun g => .wipe (storeBase f + g * 65536) 65536),
    .field f (fun x => { x with
      slate := es.foldl (fun t e => Tab.set t e c) x.slate
      granule := gs.foldl (fun t g => Tab.set t g c) x.granule })]

/-- The engine that takes over when engine `e` of field `f` retires: a healthy one that carries nothing, where `e` carries a logical engine (R140). -/
def State.heir (s : State) (f e : Nat) : Option Nat :=
  let retired := setBit (s.get (Obj.ENGINE_RETIRED_MASK f)) e
  let active := s.get (Obj.ENGINE_ACTIVE_MASK f)
  if bit active e then (List.range 34).find? (fun i => !bit retired i && !bit active i) else none

/-- Engine `e` of field `f` is retired, and its heir takes its logical engine over, for the job or the stream that holds it; with no heir those left carry it in turn. -/
def retireEngine (f e : Nat) : Act := .read fun s =>
  let active := s.get (Obj.ENGINE_ACTIVE_MASK f)
  let heir := s.heir f e
  let swap (xs : List Nat) : List Nat := xs.flatMap fun i => if i = e then heir.toList else [i]
  all [
    .put (Obj.ENGINE_RETIRED_MASK f) (setBit (s.get (Obj.ENGINE_RETIRED_MASK f)) e),
    when (bit active e) (.put (Obj.ENGINE_ACTIVE_MASK f) (match heir with
      | some i => setBit (clearBit active e) i
      | none => clearBit active e)),
    match heir with
      | none => .skip
      | some i => all [
          .count 32 Obj.SUBSTITUTIONS 1,
          match s.engineHolder f e with
            | some c => takeSpace c f [i] []
            | none => .skip],
    .tt (fun t => { t with jobs := t.jobs.map (fun x => (x.1, { x.2 with
      engs := x.2.engs.flatMap fun g => if g = (f, e) then heir.toList.map (f, ·) else [g] })) }),
    .units (fun u => { u with streams := u.streams.map (fun x =>
      if (s.fieldRec f).held.any (fun h => h.1 == x.1) then (x.1, { x.2 with engines := swap x.2.engines }) else x) })]

/-- The mask of the engines that carry logical engines on a field with these engines retired: the lowest healthy 32 (log entry 40). -/
def activeMask (retired : Nat) : Nat :=
  ((List.range 34).filter (fun i => !bit retired i)).take 32 |>.foldl (fun m i => m + 2 ^ i) 0

/-- The engines of field `f` that carry logical engines and that neither a job nor a stream holds. -/
def State.freeEngines (s : State) (f : Nat) : List Nat :=
  let taken := s.u.tt.jobs.flatMap (fun e => e.2.engs.filterMap (fun g => if g.1 = f then some g.2 else none))
    ++ (s.fieldRec f).held.flatMap (fun e => (Tab.at s.u.streams e.1 {}).engines)
  (List.range 34).filter (fun i => bit (s.get (Obj.ENGINE_ACTIVE_MASK f)) i && !taken.contains i)

/-- Granules of field `f` that neither jobs nor streams hold. -/
def State.freeGrans (s : State) (f : Nat) : List Nat :=
  let taken := s.u.tt.jobs.flatMap (fun e => e.2.grans.filterMap (fun g => if g.1 = f then some g.2 else none))
    ++ (s.fieldRec f).held.flatMap (fun e => (Tab.at s.u.streams e.1 {}).grans)
  (List.range 32).filter (fun g => !taken.contains g)

/-- The tiles of 4 KiB that granules of field `f`'s store have room for: a tile on a marked row takes no copy (R125). -/
def State.tileRoom (s : State) (f : Nat) (gs : List Nat) : Nat :=
  16 * gs.length - ((((s.fieldRec f).badLines.filter (fun l => gs.contains (l / 1024))).map (· / 64)).eraseDups).length

/-- Job `j` holds engines and granules on each field of `fs`: the lowest that are free. -/
def takeField (j : Nat) (fs : List Nat) : Act := each fs.eraseDups fun f => .read fun s =>
  match Tab.get? s.u.tt.jobs j with
  | none => .skip
  | some x =>
    let es := if x.resident then [] else (s.freeEngines f).take x.decl.engines
    let gs := (s.freeGrans f).take (ceilDiv x.decl.store 65536)
    all [
      takeSpace x.ctx f es gs,
      .field f (fun r => { r with copies := r.copies.take (s.tileRoom f ((s.freeGrans f).drop gs.length)) }),
      .job j (fun y => { y with engs := y.engs ++ es.map (fun e => (f, e)), grans := y.grans ++ gs.map (fun g => (f, g)) })]

/-! ## Going fallow (R142 to R145) -/

/-- The spare field that can be brought up: healthy enough, in the spare role, tested, taking over for no other field. -/
def State.spareField (s : State) : Option Nat :=
  (List.range 66).find? fun g =>
    s.get (Obj.FIELD_ROLE g) == 1 && s.get (Obj.FALLOW_STATUS g) == 0 && (s.fieldRec g).tested
      && !s.u.fields.any (fun e => decide (e.2.takeover = some g))

/-- The field that work leaving field `f` moves to: its replacement once that is active, or, with none, another active field that
stays, the lowest (R143, log entry 41). -/
def State.replacement (s : State) (f : Nat) : Option Nat :=
  match (s.fieldRec f).takeover with
  | some g => if s.fieldActive g then some g else none
  | none => (List.range 66).find? fun g => g != f && s.fieldActive g && s.get (Obj.FALLOW_STATUS g) == 0

/-- The slates, accumulators and granules of job `j` on field `f` are installed on field `g`, each where its successor there is (R144). -/
def installState (f g : Nat) (old new : Job) : Act :=
  let on (h : Nat) (xs : List (Nat × Nat)) : List Nat := xs.filterMap (fun e => if e.1 = h then some e.2 else none)
  all [
    each ((on f old.engs).zip (on g new.engs)) (fun e => all [
      copyMem (slateBase f e.1) (slateBase g e.2) 65536,
      .read fun s => .field g (fun r => { r with acc := Tab.set r.acc e.2 (Tab.at (s.fieldRec f).acc e.1 []) })]),
    each ((on f old.grans).zip (on g new.grans)) (fun e => copyMem (storeBase f + e.1 * 65536) (storeBase g + e.2 * 65536) 65536)]

/-- Job `j`'s logical fields on field `f` now stand on field `g`, with its live state there if it has begun to step; `cause` is that of JOB_MOVED (R534). -/
def moveJob (j f g cause : Nat) (live : Bool) : Act := .read fun s =>
  match Tab.get? s.u.tt.jobs j with
  | none => .skip
  | some x => all [
      accrueAll,
      .job j (fun y => { y with
        place := y.place.map (fun h => if h = f then g else h), evac := false
        engs := y.engs.filter (fun e => decide (e.1 ≠ f)), grans := y.grans.filter (fun e => decide (e.1 ≠ f)) }),
      when (!x.resident) (takeField j [g]),
      when live (.read fun s => match Tab.get? s.u.tt.jobs j with
        | some y => installState f g x y
        | none => .skip),
      .field f (fun r => { r with idleSince := s.time }),
      regrant, settleAll s [f, g],
      .count 32 (Obj.JOB_MOVES) 1,
      logEv Ev.JOB_MOVED x.ctx (f + 256 * g) cause]

/-- The cause in JOB_MOVED of a move off field `f`: 1 where a fault sends it fallow, 2 on request (R534). -/
def State.fallowCause (s : State) (f : Nat) : Nat := if (s.fieldRec f).faulty then 1 else 2

/-- Field `f`'s jobs leave it (R144): a native job pauses at its next yield point, a full-save job at once; a job that has been dispatched
and not yet started, or that is resuming, moves at once. -/
def evacuate (f : Nat) : Act := .read fun s =>
  match s.replacement f with
  | none => .skip
  | some g => each (s.jobsOn f) fun e =>
      if e.2.phase = .restoring ∨ s.u.tt.wave.any (·.contains f) then moveJob e.1 f g (s.fallowCause f) false
      else if e.2.phase = .running then
        .job e.1 (fun y => { y with
          evac := true, phase := if y.decl.fullSave then .moving else .draining })
      else if e.2.phase = .draining ∧ e.2.stop = none then .job e.1 (fun y => { y with evac := true })
      else .skip

/-- Field `f` begins to go fallow: a spare field that is free is brought up; with none, the jobs leave at once. -/
def beginFallow (f : Nat) (faulty : Bool) : Act := .read fun s =>
  match s.spareField with
  | some g => all [
      .put (Obj.FALLOW_STATUS f) 1,
      .field f (fun r => { r with takeover := some g, faulty := faulty }),
      .put (Obj.DOM_STATE g) 1]
  | none => all [
      .put (Obj.FALLOW_STATUS f) 1,
      .field f (fun r => { r with takeover := none, faulty := faulty }),
      evacuate f]

/-- Field `f` is gated and loses what its memories held. -/
def fieldGate (f : Nat) : Act :=
  all [.put (Obj.DOM_STATE f) 0, .wipe (slateBase f 0) (34 * 65536), .wipe (storeBase f) 2097152,
    .pow (fun x => { x with
      steps := Tab.del x.steps f
      pacerCap := Tab.del x.pacerCap f
      railCap := Tab.del x.railCap f
      stuck := Tab.del x.stuck f })]

/-- A field on its way to fallow whose work has left, its replacement in place, is powered down and reads fallow (R144). -/
def fallowDone (f : Nat) : Act := .read fun s =>
  let r := s.fieldRec f
  let ready : Bool := match r.takeover with
    | some g => s.fieldActive g
    | none => true
  if s.get (Obj.FALLOW_STATUS f) == 1 && ready && (s.jobsOn f).isEmpty && r.held.isEmpty then all [
    .put (Obj.FIELD_ROLE f) 2, .put (Obj.FALLOW_STATUS f) 2, .put (Obj.ENGINE_ACTIVE_MASK f) 0,
    fieldGate f,
    .field f (fun x => { x with takeover := none, faulty := false, copies := [], granule := [], slate := [], acc := [] }),
    logEv Ev.FIELD_FALLOW f (r.takeover.getD 0xFF) 0]
  else .skip

/-- Every field on its way to fallow, looked at again. -/
def fallowSettle : Act := .read fun s =>
  each ((List.range 66).filter (fun f => s.get (Obj.FALLOW_STATUS f) == 1)) fallowDone

/-! ## The start wave (R137) -/

/-- The slots of a wave: the waiting fields with their engines, taken in field order from field `from'` on, at most 128 engines to a slot, a field
that does not fit in the next. -/
def waveSlots (from' : Nat) (waiting : List (Nat × Nat)) : List (List Nat) :=
  let order := sortBy (fun a b => decide ((a.1 + 66 - from') % 66 ≤ (b.1 + 66 - from') % 66)) waiting
  let r := order.foldl (fun (acc : List (List Nat) × List Nat × Nat) e =>
    if acc.2.2 + e.2 ≤ 128 ∨ acc.2.1 = [] then (acc.1, acc.2.1 ++ [e.1], acc.2.2 + e.2)
    else (acc.1 ++ [acc.2.1], [e.1], e.2)) ([], [], 0)
  if r.2.1 = [] then r.1 else r.1 ++ [r.2.1]

/-- A release or a dispatch starts engines of these fields in a wave. -/
def startWave (waiting : List (Nat × Nat)) : Act := .read fun s =>
  let slots := waveSlots (s.get Obj.WAVE_NEXT_FIELD) waiting
  match slots with
  | [] => .skip
  | first :: _ => all [
      .tt fun t => { t with wave := t.wave ++ slots },
      .count 64 Obj.WAVE_RELEASES 1,
      .put Obj.WAVE_LAST_NS (40 * (slots.length - 1)),
      .put Obj.WAVE_NEXT_FIELD ((first.headD 0 + 1) % 66)]

/-- Engines that wait on each field when `n` participants of job `x` start: the job's fields in the order of its logical fields (log entry 42). A field has no more than 32,
and runs the logical fields that share it in turn (R143). -/
def Job.waiting (x : Job) (n : Nat) : List (Nat × Nat) :=
  (x.place.foldl (fun (acc : List (Nat × Nat) × Nat) f =>
    (Tab.upd acc.1 f 0 (fun e => min 32 (e + min acc.2 x.decl.engines)), acc.2 - min acc.2 x.decl.engines)) ([], n)).1.filter (fun e => decide (0 < e.2))

/-- Barrier `i` of job `x` releases once every participant has arrived and the writes they issued before are complete (R135, R136). -/
def barrierReleases (x : Job) (i : Nat) : Act := .read fun s =>
  match Tab.get? s.u.tt.bars i with
  | none => .skip
  | some r => when (decide (r.n ≤ r.arrived) && r.owed == 0) (all [
      .tt fun t => { t with bars := Tab.set t.bars i { r with arrived := 0, phase := r.phase + 1, reported := false } },
      startWave (x.waiting r.n)])

/-- Change the barrier that job `j` declares as its `b`-th, and let it release. -/
def barrierMoves (j b : Nat) (f : Barrier → Barrier) : Act := .read fun s =>
  match Tab.get? s.u.tt.jobs j with
  | none => .skip
  | some x => match x.bars[b]? with
    | none => .skip
    | some i => match Tab.get? s.u.tt.bars i with
      | none => .skip
      | some r => .seq (.tt fun t => { t with bars := Tab.set t.bars i (f r) }) (barrierReleases x i)

/-! ## What a fault does to a job (R141) -/

/-- Job `j`'s chunk is ready again, alone. -/
def unchunk (j : Nat) : Act := .read fun s =>
  match Tab.get? s.u.tt.jobs j with
  | some { stream := some n, .. } => all [
      .units (fun u => { u with streams := Tab.upd u.streams n {} (fun x => { x with chunk := none }) }),
      when (s.get (Obj.STREAM_STATE n) == 2) (.put (Obj.STREAM_STATE n) 1),
      .job j (fun y => { y with stream := none, resident := false, merged := none })]
  | _ => .skip

/-- Job `j` starts again from its beginning, once: in place on the remapped hardware, or from ready. Its barriers return to phase 0, and it
holds no semaphore. -/
def restartJob (j : Nat) (inPlace : Bool) : Act := .read fun s =>
  all [
    accrue j, releaseSems j,
    .tt (fun t => { t with
      bars := t.bars.map (fun e => if e.2.job = j then (e.1, { e.2 with arrived := 0, phase := 0, owed := 0, reported := false }) else e) }),
    .job j (fun y => { y with retried := true, flags := y.flags ||| Fl.RETRIED, saved := false }),
    when (!inPlace) (all [
      .tt (fun t => { t with bars := t.bars.filter (fun e => decide (e.2.job ≠ j)) }),
      .job j (fun y => { y with left := (y.place, some 1) }),
      releaseFields j, unchunk j,
      .job j (fun y => { y with phase := .ready, bars := [], evac := false, readyAt := s.time })]),
    inherit]

/-- Job `j` meets a fault with its DETAIL: output or an earlier retry ends it with ENGINE_FAULT, else it is retried; jobs merged with it
fare as it does (R272), and a chunk on resident accumulators is not retried (R281). -/
def faultJob (j detail : Nat) (inPlace : Bool) : Act := .read fun s =>
  match Tab.get? s.u.tt.jobs j with
  | none => .skip
  | some x =>
    let others := (s.u.tt.jobs.filter (fun e => decide (e.2.merged = some j))).map (·.1)
    each (j :: others) fun i =>
      if x.retried then endJob i St.ENGINE_FAULT 0x0304 0 0
      else if x.output ∨ x.resident then endJob i St.ENGINE_FAULT detail 0 0
      else restartJob i inPlace

/-- Whether job `j` is a chunk whose stream has its state in the field's store alone (R281). -/
def State.onlyInStore (s : State) (j : Nat) : Bool :=
  match Tab.get? s.u.tt.jobs j with
  | some { stream := some n, .. } => s.get (Obj.RESIDENCY_MODE n) == 1 && s.get (Obj.WRITE_THROUGH n) == 0
  | _ => false

/-- Line `l` of field `f`'s store shows an uncorrectable error: its row is marked (R125). -/
def markLine (f l : Nat) : Act := .read fun s =>
  when (!(s.fieldRec f).badLines.contains l) (all [
    .field f (fun r => { r with badLines := l :: r.badLines }),
    .count 16 (Obj.ROWS_MARKED f) 1,
    .read fun s => .field f (fun r => { r with copies := r.copies.take (s.tileRoom f (s.freeGrans f)) })])

/-- An engine fault (R140 to R142): retired engines, and those of a field that is not active, report none (R139). `line` is the line of the store that the uncorrectable
error of DETAIL 0x0302 is in. -/
def engineFaulted (f e detail line : Nat) (job : Option Nat) : Act := .read fun s =>
  if ¬ s.fieldActive f ∨ bit (s.get (Obj.ENGINE_RETIRED_MASK f)) e then .skip
  else all [
    .count 32 (Obj.ENGINE_FAULTS f) 1,
    when (detail == 0x0301 || detail == 0x0302) (.count 32 (Obj.ECC_UNCORRECTED f) 1),
    when (detail == 0x0302) (markLine f line),
    .tt (fun t => { t with engineFaults := t.engineFaults ++ [(f, (s.heir f e).getD e)] }),
    retireEngine f e,
    logEv Ev.ENGINE_RETIRED f e detail,
    match job with
      | some j => when ((s.jobsOn f).any (fun x => decide (x.1 = j)))
          (if detail = 0x0302 ∧ s.onlyInStore j then endJob j St.STATE_LOST 0x0710 0 0 else faultJob j detail true)
      | none => .skip,
    .read fun s =>
      when (decide (s.healthy f < 32) && s.get Obj.AUTO_FALLOW_EN != 0 && s.spareField.isSome && s.get (Obj.FALLOW_STATUS f) == 0)
        (beginFallow f true)]

end Sys2Proof.Machine
end

