-- ==== Sys2Proof/Machine/Scaler.lean ====
section
/-! DEFINITION. The Scaler and the sums of a pass (R87 to R109): operands prepared, products added, steps counted. -/

namespace Sys2Proof.Machine

/-! ## The Scaler (R101 to R109) -/

/-- A row of an operand as it reaches the multipliers: element values, the UE8M0 code of each block of 32 (none where it is not block-scaled), the FP32 code of each group
of `run` elements (0 the whole row; none without in-flight scales), and what its preparation counted. -/
structure FedRow where
  xs : List Num
  blocks : List Nat := []
  groups : List Nat := []
  run : Nat := 0
  counts : Counts := {}
  deriving DecidableEq, Repr

/-- The zero point of element `i` of row `r` (R109). -/
def Operand.zeroAt (o : Operand) (r i : Nat) : Int :=
  let row := if o.zeros.length = 1 then o.zeros.headD [] else o.zeros.getD r []
  if row.length = 1 then row.headD 0 else row.getD (i / 32) 0

/-- The value of code `c` at element `i` of row `r`: codebook lookup, then zero point (R76, R109). -/
def Operand.value (o : Operand) (books : List (List Nat)) (r i c : Nat) : Num :=
  let x := decodeElt o.fmt (books.getD (i / max 1 o.bookRun) []) c
  let z := o.zeroAt r i
  if z = 0 then x else x.add (.ofInt (-z) 0)

/-- Smoothing: an FP32 multiplication rounded once (R102). -/
def Operand.smoothed (o : Operand) (i : Nat) (x : Num) : Num := match o.smooth[i]? with
  | some f => mul32 x (fp f)
  | none => x

/-- A list in groups of `n`, a group of 0 being the whole list. -/
def groupsOf {α : Type} (n : Nat) (xs : List α) : List (List α) :=
  if n = 0 then [xs] else (List.range (ceilDiv xs.length n)).map (fun i => (xs.drop (n * i)).take n)

/-- Each element with its number. -/
def numbered {α : Type} (xs : List α) : List (Nat × α) := (List.range xs.length).zip xs

/-- Row `r` of an operand, given its codes (R101). Smoothing and rotation belong to operands that are quantised in flight: without that they are bypassed (log entry
154). -/
def Operand.prepare (o : Operand) (books : List (List Nat)) (free r : Nat) (row : List Nat) : FedRow :=
  match o.quant with
  | none => { xs := (numbered row).map (fun e => o.value books r e.1 e.2), blocks := o.blocks.getD r [] }
  | some q =>
    let xs := rotateRow o.rotate ((numbered row).map (fun e => o.smoothed e.1 (decodeElt q.source [] e.2)))
    let qs := (groupsOf (if q.block then 32 else q.group) xs).map (fun g =>
      if q.block then quantBlock o.fmt g else quantGroup o.fmt (carriesRoot2 o.rotate) free g)
    { xs := qs.flatMap (fun g => g.codes.map (decodeElt o.fmt [])), run := q.group
      blocks := if q.block then qs.map (·.scale) else [], groups := if q.block then [] else qs.map (·.scale)
      counts := qs.foldl (fun a g => a.add g.counts) {} }

/-- The bytes of a row's scales as an output (R107). -/
def FedRow.scaleBytes (r : FedRow) : List Byte := if r.groups.isEmpty then r.blocks.flatMap (le 1) else r.groups.flatMap (le 4)

/-! ## One output element (R88, R92, R95, R97, R99, R100) -/

/-- The factor of block `i` of a row of format `c`: its UE8M0 scale, with the 2^-6 of a block-scaled INT8 (R99); 1 where the row is not block-scaled. -/
def FedRow.blockScale (r : FedRow) (c i : Nat) : Num :=
  if r.blocks.isEmpty then num 1 else (decodeElt 0xF [] (r.blocks.getD i 127)).scale (if c = 0xA then -6 else 0)

/-- The FP32 scale that element `i` of a row stands under. -/
def FedRow.groupScale (r : FedRow) (i : Nat) : Num :=
  if r.groups.isEmpty then num 1 else fp (r.groups.getD (if r.run = 0 then 0 else i / r.run) 0)

/-- The terms that share their FP32 scales: the smaller of two group sizes, 0 for all. -/
def sharedRun (a b : FedRow) : Nat :=
  if a.groups.isEmpty ∨ a.run = 0 then (if b.groups.isEmpty then 0 else b.run)
  else if b.groups.isEmpty ∨ b.run = 0 then a.run else min a.run b.run

/-- Products added in an accumulator. -/
def Accum.takeAll (a : Accum) (ps : List (Num × Num)) : Accum := ps.foldl (fun x p => x.take (p.1.mul p.2)) a

/-- The formats and the anchor of a pass. -/
structure PassKind where
  fa : Nat
  fb : Nat
  anchor : Int := 0
  deriving DecidableEq, Repr

/-- A pass of the exact set (R87). -/
def PassKind.exact (k : PassKind) : Bool := exactFmt k.fa && exactFmt k.fb

/-- The sum of the terms `ps`, numbered from `i` on, under one pair of FP32 scales, with its wide-sum roundings: exact; or a wide sum of the scaled sums of blocks of 32;
or outside the exact set a wide sum of the scaled terms. -/
def runSum (k : PassKind) (a b : FedRow) (i : Nat) (ps : List (Num × Num)) : Num × Nat :=
  let scale (n : Nat) (x : Num) : Num := (x.mul (a.blockScale k.fa n)).mul (b.blockScale k.fb n)
  if k.exact then
    if a.blocks.isEmpty && b.blocks.isEmpty then ((Accum.takeAll { anchor := k.anchor } ps).value, 0)
    else wideSum ((numbered (groupsOf 32 ps)).map fun g => scale (i / 32 + g.1) (Accum.takeAll { anchor := k.anchor } g.2).value)
  else wideSum ((numbered ps).map fun p => scale ((i + p.1) / 32) (wideTerm (decide (k.fa = 0 ∨ k.fb = 0)) p.2.1 p.2.2))

/-- One output element: its value before row scales, its accumulator after the pass, its wide-sum roundings. Runs that stand under different FP32 scales are multiplied
by them at full width and combined as a wide sum (log entry 155). -/
def passElement (k : PassKind) (start : Accum) (a b : FedRow) : Num × Accum × Nat :=
  let ps := a.xs.zip b.xs
  let run := sharedRun a b
  if k.exact && a.blocks.isEmpty && b.blocks.isEmpty && a.groups.isEmpty && b.groups.isEmpty then
    let acc := start.takeAll ps
    (acc.value, acc, 0)
  else
    let sums := (numbered (groupsOf run ps)).map fun g =>
      let v := runSum k a b (run * g.1) g.2
      ((v.1.mul (a.groupScale (run * g.1))).mul (b.groupScale (run * g.1)), v.2)
    match sums with
    | [x] => (x.1, start, x.2)
    | _ =>
      let w := wideSum (sums.map (·.1))
      (w.1, start, w.2 + sums.foldl (fun n x => n + x.2) 0)

/-- The least bit weight of an operand over its books (R88): with several books the anchor is that of the least. -/
def lowBitOf (c : Nat) (books : List (List Nat)) : Int := match books with
  | [] => lowBit c []
  | b :: bs => bs.foldl (fun w x => min w (lowBit c x)) (lowBit c b)

/-! ## Steps (R112 to R115, R291, R292) -/

/-- A format of half a step per term (R87). -/
def narrowFmt (c : Nat) : Bool := (5 ≤ c && c ≤ 7) || (0xB ≤ c && c ≤ 0xD)

/-- The steps of K terms (R112, R115). -/
def termSteps (fa fb k : Nat) : Nat :=
  if fa = 0 ∨ fb = 0 then 24 * k
  else if fa ≤ 2 ∨ fb ≤ 2 then 4 * k
  else if narrowFmt fa ∧ narrowFmt fb then ceilDiv k 2
  else k

end Sys2Proof.Machine
end

