-- ==== Sys2Proof/Machine/Attention.lean ====
section
/-! DEFINITION. How a row of attention is computed, forward and backward (R240, R245, R247 to R249, R254). -/

namespace Sys2Proof.Machine

/-! ## Keys that a query reaches (R245) -/

/-- The key range of a row on a sequence of latched length `len`. -/
def LenRow.keys (r : LenRow) (len : Nat) : Nat := if r.keysAll then len else min r.keyLimit len

/-- A row produces work (R246). -/
def LenRow.works (r : LenRow) (len : Nat) : Bool := r.qTokens != 0 && r.keys len != 0

/-- The keys that query token `t` of a row reaches: from the first number up to below the second. -/
def AttDecl.reach (a : AttDecl) (r : LenRow) (len t : Nat) : Nat × Nat :=
  let p := r.keys len - r.qTokens + t
  if a.mask = 0 then (0, r.keys len) else if a.mask = 1 then (0, p + 1) else (p + 1 - a.window, p + 1)

/-! ## Pages as they meet the rows -/

/-- A page prepared: keys and values by token, their formats with the lowest bit weights (R88), the FP32 scales. -/
structure PageRows where
  first : Nat
  kFmt : Nat
  kLow : Int
  vFmt : Nat
  vLow : Int
  k : List FedRow
  v : List FedRow
  kScale : List Nat
  vToken : List Nat
  vChannel : List Nat
  deriving DecidableEq, Repr

/-- A query row prepared: its format with the lowest bit weight, its FP32 scale, the keys it reaches. -/
structure QueryRow where
  fmt : Nat
  low : Int
  row : FedRow
  scale : Num
  lo : Nat
  hi : Nat
  deriving DecidableEq, Repr

/-- An FP32 scale of a list, 1 where the list has none. -/
def scaleAt (xs : List Nat) (i : Nat) : Num := match xs[i]? with
  | some x => fp x
  | none => num 1

/-- log2 e and ln 2. -/
def log2e : Num := ofFx fxLog2e
def ln2 : Num := ofFx fxLn2

/-- A row that is not there. -/
def FedRow.none : FedRow := { xs := [] }

/-- The score σ(q · k) of a key at full width (R97), and t, that times log2 e, rounded once to FP32 (R247 step 1). -/
def score (a : AttDecl) (q : QueryRow) (p : PageRows) (j : Nat) : Num × Num :=
  let x := (passElement ⟨q.fmt, p.kFmt, q.low + p.kLow⟩ { anchor := q.low + p.kLow } q.row (p.k.getD j .none)).1
  let s := ((x.mul q.scale).mul (scaleAt p.kScale j)).mul (fp a.scale)
  (s.plusZero, (s.mul log2e).plusZero.r32)

/-- The least integer not below a finite value. -/
def ceilOf : Num → Int
  | .fin a m e => if 0 ≤ e then signed a (m * 2 ^ e.toNat) else -((-(signed a m)) / 2 ^ (-e).toNat)
  | _ => 0

/-- The tokens of a page that a query row reaches, by their place in the page. -/
def PageRows.reached (p : PageRows) (q : QueryRow) : List Nat :=
  (List.range p.k.length).filter fun j => decide (q.lo ≤ p.first + j ∧ p.first + j < q.hi)

/-! ## Forward (R247, R248) -/

/-- The running sums of a query row: the reference r, λ, O, the scores t met so far, the wide-sum roundings. -/
structure AttSum where
  r : Option Int := none
  lam : Num := .zero
  o : List Num
  ts : List Num := []
  ss : List Num := []
  inexact : Nat := 0
  deriving DecidableEq, Repr

/-- A probability in the probability format, times 2^8 where that is E4M3 (R247 step 4). -/
def AttDecl.toProb (a : AttDecl) (x : Num) : Num := decodeElt a.pFmt [] (encodeElt a.pFmt true 0 (x.scale (if a.pFmt = 3 then 8 else 0))).1

/-- One page joins the sums (R247 steps 2 to 5). `free i` is the choice within the bound of exp2 for the i-th key of the row. A per-token value scale multiplies the
probability that meets the value, and λ sums the probabilities without it (log entry 156). -/
def attPage (a : AttDecl) (free : Nat → Nat) (q : QueryRow) (acc : AttSum) (p : PageRows) : AttSum :=
  let js := p.reached q
  if js.isEmpty then acc
  else
    let sc := js.map (score a q p)
    let ts := sc.map (·.2)
    let top := ceilOf (bestOf true ts)
    let r := match acc.r with
      | some r => max r top
      | none => top
    let kept (x : Num) : Num := match acc.r with
      | some o => x.scale (o - r)
      | none => x
    let ps := (numbered ts).map fun t => match sub32 t.2 (num r) with
      | .fin n m e => (ulps 2 (free (acc.ts.length + t.1)) (exp2Fx (toFx (.fin n m e)))).min (num 1)
      | .inf true => .zero
      | _ => .nan false
    let ws := (ps.zip js).map fun e => a.toProb (if p.vToken.isEmpty then e.1 else mul32 e.1 (scaleAt p.vToken e.2))
    let low := lowBit a.pFmt [] + p.vLow
    let lam := wideAdd (kept acc.lam, 0) (wideSum (ps.map a.toProb))
    let os := (numbered acc.o).map fun o =>
      let col : FedRow := { xs := js.map fun j => (p.v.getD j .none).xs.getD o.1 .zero }
      wideAdd (kept o.2, 0) (round64 ((passElement ⟨a.pFmt, p.vFmt, low⟩ { anchor := low } { xs := ws } col).1.mul (scaleAt p.vChannel o.1)))
    { r := some r, lam := lam.1, o := os.map (·.1), ts := acc.ts ++ ts, ss := acc.ss ++ sc.map (·.1)
      inexact := acc.inexact + lam.2 + os.foldl (fun n x => n + x.2) 0 }

/-- All pages of a query row, in order. -/
def attRow (a : AttDecl) (free : Nat → Nat) (q : QueryRow) (ps : List PageRows) : AttSum :=
  ps.foldl (attPage a free q) { o := List.replicate a.d .zero }

/-- The output row in FP32 (R247 step 6). -/
def AttSum.output (x : AttSum) : List Num := x.o.map fun o => div32 o.r32 x.lam.r32

/-- m and l as FP32 codes (R248): l is (r + log2 λ) ln 2 where that lies within 4 ulp of the log-sum-exp over the rounded scores, and else any value that does (log entry
156). -/
def AttSum.stats (a : AttDecl) (x : AttSum) (free : Nat) : Nat × Nat :=
  let m := toFp32 free (bestOf true x.ss)
  let exact (v : Num) : Num := ofFx (lnFx v)
  match x.r, bestOf true x.ts with
  | some r, .fin _ _ _ =>
    let l := (exact ((x.ts.map fun t => exp2Fx (toFx (t.add (num (-r))))).foldl Num.add .zero)).add ((num r).mul ln2)
    let own := (exact (x.lam.scale (if a.pFmt = 3 then -8 else 0))).add ((num r).mul ln2)
    (m, if ((ulp32 l).mul (num 4)).lt ((own.r32).add l.minus).abs then near l ((ulp32 l).mul (num 4)) free else toFp32 free own)
  | _, _ => (m, free % 2 ^ 32)

/-- The 16 bytes of a batch row's header (R248). -/
def LenRow.header (r : LenRow) (epoch len : Nat) : List Byte := le 2 r.seq ++ le 2 0 ++ le 4 epoch ++ le 4 len ++ le 4 r.qTokens

/-! ## Backward (R254) -/

/-- The dequantised elements of a token's key, and of its value. -/
def PageRows.keyAt (p : PageRows) (j : Nat) : List Num :=
  let r := p.k.getD j .none
  (numbered r.xs).map fun e => (e.2.mul (r.blockScale p.kFmt (e.1 / 32))).mul (scaleAt p.kScale j)
def PageRows.valueAt (p : PageRows) (j : Nat) : List Num :=
  (numbered (p.v.getD j .none).xs).map fun e => (e.2.mul (scaleAt p.vToken j)).mul (scaleAt p.vChannel e.1)

/-- The dequantised elements of a query row. -/
def QueryRow.values (q : QueryRow) : List Num :=
  (numbered q.row.xs).map fun e => (e.2.mul (q.row.groupScale e.1)).mul q.scale

/-- A wide sum of products, rounded to FP32. -/
def dot32 (xs ys : List Num) : Num := (wideSum ((xs.zip ys).map fun e => e.1.mul e.2)).1.r32

/-- What a query row brings to the backward pass: dO, D = Σ dO × O, m, and the factor exp(m − l). -/
structure BackRow where
  q : QueryRow
  dOut : List Num
  d : Num
  m : Num
  norm : Num
  deriving DecidableEq, Repr

/-- D of a row, a reduction of the vector unit. -/
def rowD (dOut out : List Num) : Num := (sumRow ((dOut.zip out).map fun e => mul32 e.1 e.2)).1

/-- e to an FP32 power, within 2 ulp by `free`. -/
def exp32 (free : Nat) (x : Num) : Num := if x.isFin then ulps 2 free (expFx (toFx x)) else .nan false

/-- p and dS of a query row at token `j` of a page: p = exp(s − m) exp(m − l), dS = p (dP − D). -/
def backAt (a : AttDecl) (b : BackRow) (p : PageRows) (free : Nat) (j : Nat) : Num × Num :=
  let pr := mul32 (exp32 free (sub32 (score a b.q p j).1.r32 b.m)) b.norm
  (pr, mul32 pr (sub32 (dot32 b.dOut (p.valueAt j)) b.d))

/-- The gradients that some query rows give: dQ by row, and dK and dV by page and token, each element a wide sum. The same p and dS serve all three. -/
def gradients (a : AttDecl) (bs : List BackRow) (ps : List PageRows) (free : Nat → Nat) : List (List Num) × List (List (List Num)) × List (List (List Num)) :=
  let n := ps.foldl (fun n p => max n p.k.length) 0
  let w (b pg j : Nat) : Nat := free ((b * ps.length + pg) * n + j)
  let sum (d : Nat) (terms : List (Num × List Num)) : List Num :=
    (List.range d).map fun c => (wideSum (terms.map fun t => t.1.mul (t.2.getD c .zero))).1
  let sigma := fp a.scale
  let at' := (numbered bs).map fun b => (numbered ps).map fun p => (p.2.reached b.2.q).map fun j => (j, backAt a b.2 p.2 (w b.1 p.1 j) j)
  let mine (pg j : Nat) (f : Num × Num → Num) (g : BackRow → List Num) : List (Num × List Num) :=
    (numbered bs).filterMap fun b => match ((at'.getD b.1 []).getD pg []).find? (fun e => e.1 == j) with
      | some e => some (f e.2, g b.2)
      | none => none
  ((numbered bs).map (fun b => sum a.d ((numbered ps).flatMap fun p => ((at'.getD b.1 []).getD p.1 []).map fun e => (sigma.mul e.2.2, p.2.keyAt e.1))),
    (numbered ps).map (fun p => (List.range p.2.k.length).map fun j => sum a.d (mine p.1 j (fun e => sigma.mul e.2) (fun b => b.q.values))),
    (numbered ps).map (fun p => (List.range p.2.k.length).map fun j => sum a.d (mine p.1 j (·.1) (·.dOut))))

end Sys2Proof.Machine
end

