-- ==== Sys2Proof/Machine/SeqOps.lean ====
section
/-! DEFINITION. The sequence unit below its commands: descriptors and entries as they lie in their tiles, what a walk latches and releases, what an
attention job is checked for (R235 to R261). -/

namespace Sys2Proof.Machine
open Act

/-- Change the sequence unit's record. -/
def Act.seqs (f : SeqS → SeqS) : Act := .units fun u => { u with seq := f u.seq }

/-- Sequence `q` of context `c` as one number. -/
def seqKey (c q : Nat) : Nat := c * 65536 + q

/-- The sequence with a key, if it is in the table. -/
def State.seqAt (s : State) (key : Nat) : Option Seq := Tab.get? s.u.seq.seqs key

/-- Change the sequence with a key. -/
def Act.seqUpd (key : Nat) (f : Seq → Seq) : Act :=
  .seqs fun u => match Tab.get? u.seqs key with
    | some x => { u with seqs := Tab.set u.seqs key (f x) }
    | none => u

/-- The directory tile of sequence `q` of context `c`, if it is a tile of this module allocated to the context (R158, R235). -/
def State.seqDir (s : State) (c q : Nat) : Option Nat :=
  let root := s.get (Obj.SEQ_ROOT c)
  if root = 0 ∨ root / 562949953421312 ≠ s.u.boot.moduleNo then none
  else
    let t := tileNo root + q / 64
    match Tab.get? s.u.mem.tiles t with
    | some x => if x.ctx = c then some t else none
    | none => none

/-- The walks latched on a sequence. -/
def State.walksOn (s : State) (key : Nat) : List Walk := s.u.seq.walks.filter (fun w => decide (w.key = key))

/-- The 64 bytes of a descriptor (R236). -/
def descriptor (x : Seq) (addr walks : Nat) : List Byte :=
  let r := le 4 x.length ++ le 4 x.epoch ++ le 8 addr ++ le 2 x.d ++ le 1 x.heads ++ le 1 x.t ++ le 4 x.capacity ++
    (List.range 4).flatMap (fun i => le 8 (x.books.getD i 0)) ++ le 2 (if x.opened then 1 else 0) ++ le 2 walks
  r ++ le 4 (crc32c r)

/-- The 32 bytes of a VALID entry (R237). -/
def entryBytes (e : SeqEntry) : List Byte :=
  let r := le 8 e.k ++ le 8 e.v ++ le 1 e.kf ++ le 1 e.vf ++ le 2 1 ++ le 4 e.epoch ++ le 4 0
  r ++ le 4 (crc32c r)

/-- The descriptor of a sequence is written to its directory tile. -/
def pokeSeq (key : Nat) : Act := .read fun s =>
  match s.seqAt key, s.seqDir (key / 65536) (key % 65536) with
  | some x, some t => pokeTile t (64 * (key % 64)) (descriptor x (s.tileAddr x.table) (s.walksOn key).length)
  | _, _ => .skip

/-- Entry `e` of a sequence is written to its table tile. -/
def pokeEntry (key e : Nat) (x : SeqEntry) : Act := .read fun s =>
  match s.seqAt key with
  | some q => pokeTile (q.table + e / 128) (32 * (e % 128)) (entryBytes x)
  | none => .skip

/-- A tile that only the sequence unit writes: a directory tile of a context's sequences, or a table tile (R236). -/
def State.seqTile (s : State) (c t : Nat) : Bool :=
  let root := s.get (Obj.SEQ_ROOT c)
  (root != 0 && decide (tileNo root ≤ t) && decide (t < tileNo root + 1024))
    || s.u.seq.seqs.any (fun e => e.2.opened && decide (e.2.table ≤ t) && decide (t < e.2.table + e.2.tiles))

/-- Tile `t` holds a brick or an index of the map (R344). -/
def State.mapTile (s : State) (t : Nat) : Bool :=
  let has (e : Epoch) : Bool := e.tiles.contains t || e.index.any (fun b => b.2 == t)
  s.u.plan.epochs.any (fun e => has e.2) || s.u.plan.pending.any has

/-! ## Entries (R238, R239, R241) -/

/-- Formats a page may have (R239). -/
def pageFmt (f : Nat) : Bool := (1 ≤ f && f ≤ 7) || (0xA ≤ f && f ≤ 0xD)

/-- The rank of a page's format (R241). -/
def pageRank (f : Nat) : Nat :=
  match f with
  | 0x1 | 0x2 => 6
  | 0x3 | 0xA | 0xC => 5
  | 0x4 => 4
  | 0x5 | 0x6 => 3
  | _ => 2

/-- Whether a tile's tag admits a page of a format on a side (R239): the same FORMAT, a scale kind of the table, a scale for an integer page, a book of the
descriptor for a codebook page. -/
def tagAdmits (tag : List Byte) (fmt : Nat) (key : Bool) (books : List Nat) : Bool :=
  let kind := tagByte tag 16
  let ref := ofLe ((tag.drop 8).take 8)
  tagByte tag 0 % 16 == fmt &&
    (match kind with
      | 0 => 1 ≤ fmt && fmt ≤ 7
      | 1 | 2 => fmt ≤ 0xB
      | 3 => !key && fmt ≤ 0xB
      | 5 => key && ((3 ≤ fmt && fmt ≤ 7) || fmt == 0xA)
      | 6 => (fmt == 0xC || fmt == 0xD) && books.any (fun b => b != 0 && tileNo b == tileNo ref)
      | _ => false)

/-- Whether a page of a sequence may lie at an address (R238, R239). -/
def State.pageOk (s : State) (c : Nat) (x : Seq) (addr fmt : Nat) (key : Bool) : Bool :=
  let bits := x.t * x.d * fmtBits fmt
  let size := bits / 8
  pageFmt fmt && decide (bits ≤ 32768) && addr % 65536 % size == 0 &&
    (match s.tileOf c addr with
      | .inl t => tagAdmits (Tab.at s.u.mem.tiles t { ctx := c, home := .slot 0 }).tag fmt key x.books
      | .inr _ => false)

/-- The entry a walk latched at `epoch` reads: the one an edit later than the walk replaced, or the present one (R258). -/
def State.entryFor (s : State) (key e epoch : Nat) : Option SeqEntry :=
  let older := s.u.seq.edits.findSome? (fun d =>
    if d.key = key ∧ epoch < d.epoch then match d.old with
      | .entry i o => if i = e then some o else none
      | _ => none
    else none)
  match older with
  | some o => some o
  | none => match s.seqAt key with
    | some x => Tab.get? x.entries e
    | none => none

/-! ## Retiring edits (R258) -/

/-- The table of a sequence is freed and the sequence is closed. -/
def freeSeq (key : Nat) : Act := .read fun s =>
  match s.seqAt key with
  | none => .skip
  | some x => all [
      each (List.range x.tiles) (fun i => freeTile (x.table + i)),
      .seqUpd key (fun y => { y with opened := false, closing := false, length := 0, entries := [], tiles := 0 }),
      pokeSeq key]

/-- An edit that was pending is applied; a session that has run no later operation reads APPLIED. -/
def retireEdit (d : Edit) : Act := all [
  .seqs (fun u => { u with edits := u.edits.filter (· != d) }),
  .count 64 Obj.EDITS_APPLIED 1,
  match d.ses with
    | some n => .put (Obj.EDIT_STATUS n) 1
    | none => .skip,
  when (d.old == .close) (freeSeq d.key)]

/-- The pending edits of a sequence that no older walk still holds. -/
def retireReady (key : Nat) : Act := .read fun s =>
  each (s.u.seq.edits.filter (fun d => decide (d.key = key) && !(s.walksOn key).any (fun w => decide (w.epoch < d.epoch)))) retireEdit

/-- The walks of job `j` are released (R255). -/
def releaseWalks (j : Nat) : Act := .read fun s =>
  let keys := ((s.u.seq.walks.filter (fun w => decide (w.job = j))).map (·.key)).eraseDups
  if keys.isEmpty then .skip
  else all [
    .seqs (fun u => { u with walks := u.walks.filter (fun w => decide (w.job ≠ j)) }),
    each keys (fun k => all [retireReady k, pokeSeq k])]

/-! ## Attention jobs at dispatch (R242 to R246, R253, R255) -/

/-- A format among those of a list. -/
def oneOf (f : Nat) (fs : List Nat) : Bool := fs.contains f

/-- What the declaration alone gets wrong (R243). -/
def AttDecl.fault (a : AttDecl) : Option (Nat × Nat) :=
  if ¬ oneOf a.qFmt [0, 1, 2, 3, 4, 0xA] ∨ ¬ oneOf a.pFmt [1, 3] ∨ ¬ oneOf a.outFmt [0, 1, 2, 3, 4] ∨ ¬ (fp a.scale).isFin ∨ ¬ Num.zero.lt (fp a.scale)
      ∨ 2 < a.mask ∨ (a.mask = 2 ∧ (a.window = 0 ∨ 16777216 < a.window)) then some (St.CONFIG_INVALID, 0x0604)
  else if a.group = 0 ∨ 64 < a.group then some (St.CONFIG_INVALID, 0x0601)
  else if 4096 < a.batch then some (St.CONFIG_INVALID, 0x0602)
  else none

/-- The query rows of two rows of the table overlap. -/
def overlapping (a b : LenRow) : Bool :=
  a.qTokens != 0 && b.qTokens != 0 && decide (a.qOffset < b.qOffset + b.qTokens) && decide (b.qOffset < a.qOffset + a.qTokens)

/-- `SEQ_ROOT` of context `c` names another module (R158). -/
def State.rootForeign (s : State) (c : Nat) : Bool :=
  let root := s.get (Obj.SEQ_ROOT c)
  root != 0 && root / 562949953421312 != s.u.boot.moduleNo

/-- What the lengths table gets wrong, row by row (R243, R246, R253): with the rows, a root of another module (R158) and a directory tile that is lost (R177). -/
def State.rowsFault (s : State) (c : Nat) (a : AttDecl) (rows : List LenRow) : Option (Nat × Nat) :=
  let one (r : LenRow) : Option (Nat × Nat) :=
    match s.seqDir c r.seq, s.seqAt (seqKey c r.seq) with
    | some t, some x =>
      if (s.lossOf t).isSome then s.lossOf t
      else if ¬ x.opened ∨ x.closing then some (St.CONFIG_INVALID, 0x0600)
      else if x.d ≠ a.d ∨ x.heads ≠ a.heads then some (St.CONFIG_INVALID, 0x0601)
      else if r.keys x.length < r.qTokens then some (St.CONFIG_INVALID, 0x0602)
      else if a.backward ∧ (r.epoch ≠ x.epoch ∨ r.len ≠ x.length) then some (St.TABLE_CHANGED, 0x0621)
      else none
    | _, _ => some (St.CONFIG_INVALID, 0x0600)
  if !rows.isEmpty && s.rootForeign c then some (St.CONFIG_INVALID, 0x0403)
  else match rows.findSome? one with
  | some f => some f
  | none =>
    if (List.range rows.length).any (fun i => (rows.drop (i + 1)).any (fun b => match rows[i]? with
      | some r => overlapping r b
      | none => false)) then some (St.CONFIG_INVALID, 0x0602) else none

/-- The pages below floor that a row reaches on its sequence, key and value pages each (R241, R242, R245). -/
def State.belowFloor (s : State) (c : Nat) (a : AttDecl) (r : LenRow) : Nat :=
  match s.seqAt (seqKey c r.seq) with
  | none => 0
  | some x =>
    let hi := r.keys x.length
    let lo := if a.mask = 2 then hi - r.qTokens + 1 - a.window else 0
    if ¬ r.works x.length then 0
    else (x.entries.filter (fun e => decide (lo / x.t ≤ e.1 / x.heads ∧ e.1 / x.heads ≤ (hi - 1) / x.t))).foldl
      (fun n e => n + (if pageRank e.2.kf < a.floor then 1 else 0) + (if pageRank e.2.vf < a.floor then 1 else 0)) 0

/-- The job's walks are latched, one for each sequence it names (R255). -/
def latchWalks (j c : Nat) (rows : List LenRow) : Act :=
  let keys := (rows.map (fun r => seqKey c r.seq)).eraseDups
  all [
    .seqs (fun u => { u with
      walks := u.walks ++ keys.filterMap (fun k => match Tab.get? u.seqs k with
        | some x => some { job := j, key := k, len := x.length, epoch := x.epoch }
        | none => none) }),
    each keys pokeSeq]

end Sys2Proof.Machine
end

