-- ==== Sys2Proof/Machine/StreamOps.lean ====
section
/-! DEFINITION. Streams below their commands: the carried state in its forms, the carry of a step, where the state lives, what the end of a chunk brings
(R264 to R287). -/

namespace Sys2Proof.Machine
open Act

/-- The record of stream `n`. -/
def State.stream (s : State) (n : Nat) : StreamS := Tab.at s.u.streams n {}

/-- Change the record of stream `n`. -/
def Act.stream (n : Nat) (f : StreamS → StreamS) : Act := .units fun u => { u with streams := Tab.upd u.streams n {} f }

/-! ## The forms of a state (R273, R280, R285) -/

/-- Bytes of one element of a state in a format and mode. -/
def elemBytes (fmt mode : Nat) : Nat := if mode = 1 then 8 else if fmt = 0 then 4 else 2

/-- Bytes of stream `n`'s state, and its home tiles. -/
def State.stateBytes (s : State) (n : Nat) : Nat := s.get (Obj.STATE_ELEMENTS n) * elemBytes (s.get (Obj.STATE_FORMAT n)) (s.get (Obj.STATE_MODE n))
def State.homeTiles (s : State) (n : Nat) : Nat := ceilDiv (s.stateBytes n) 4096

/-- `REF_EXP` as a number. -/
def State.refExp (s : State) (n : Nat) : Int := toSigned 16 (s.get (Obj.REF_EXP n))

/-- An element: h and l, or the word and zero. -/
abbrev Elt := Num × Num

/-- The elements of a stored state. -/
def decodeState (fmt mode count : Nat) (data : List Byte) : List Elt :=
  (List.range count).map fun i =>
    let w := elemBytes fmt mode
    let b := (data.drop (w * i)).take w
    if mode = 1 then (fp32.decode (ofLe (b.take 4)), fp32.decode (ofLe (b.drop 4))) else (decodeElt fmt [] (ofLe b), Num.zero)

/-- A state as it is stored. -/
def encodeState (fmt mode : Nat) (free : Nat → Nat) (xs : List Elt) : List Byte :=
  ((List.range xs.length).zip xs).flatMap fun e =>
    if mode = 1 then le 4 (toFp32 (free e.1) e.2.1) ++ le 4 (toFp32 (free e.1) e.2.2)
    else le (elemBytes fmt 0) (encodeElt fmt false (free e.1) e.2.1).1

/-- One rounding to a floating-point format, as a value (R83), and what it counts (R86). -/
def roundedTo (fmt : Nat) (x : Num) : Num × Counts :=
  let r := encodeElt fmt false 0 x
  (decodeElt fmt [] r.1, r.2)
def rounded (fmt : Nat) (x : Num) : Num := (roundedTo fmt x).1

/-- The value of an element under a reference exponent (R285). -/
def Elt.value (ref : Int) (x : Elt) : Num := (x.1.add x.2).scale ref

/-- A value in the form of a state: one rounding, or for a pair two words. -/
def toElt (fmt mode : Nat) (ref : Int) (v : Num) : Elt :=
  if mode = 1 then
    let h := rounded 0 (v.scale (-ref))
    (h, rounded 0 ((v.scale (-ref)).add h.minus))
  else (rounded fmt v, Num.zero)

/-- A value enters an accumulator at its anchor, rounded there (R88, R277; log entry 49); past 96 bits it is free. -/
def toAccum (anchor : Int) (free : Nat) (v : Num) : Accum :=
  match v with
  | .nan _ => { anchor := anchor, nan := true }
  | .inf neg => { anchor := anchor, pinf := !neg, ninf := neg }
  | .fin neg m e =>
    let i := signed neg (toGrid m e anchor)
    if -(2 ^ 95) ≤ i ∧ i < 2 ^ 95 then { v := i, anchor := anchor } else { v := toSigned 64 free, anchor := anchor }

/-- The 16-byte image of an accumulator (R280). -/
def Accum.image (a : Accum) : List Byte :=
  le 12 (ofSigned 96 a.v) ++ le 4 ((if a.nan then 1 else 0) + (if a.pinf then 2 else 0) + (if a.ninf then 4 else 0))

/-- The accumulator of an image. -/
def ofImage (anchor : Int) (b : List Byte) : Accum :=
  let f := ofLe ((b.drop 12).take 1)
  { v := toSigned 96 (ofLe (b.take 12)), anchor := anchor, nan := bit f 0, pinf := bit f 1, ninf := bit f 2 }

/-! ## The carry of one step (R283 to R286) -/

/-- `|x| ÷ S` for the drift estimate; nothing where S is zero. -/
def driftTerm (x big : Num) : Num := match ratio x.abs big false with
  | .fin a m e => .fin a m e
  | _ => Num.zero

/-- One element of a state outside the accumulators: the new element, what its rounding discarded, relative to S, and what it counts. -/
def carryElt (fmt mode : Nat) (ref : Int) (x : Elt) (c : CarryStep) : Elt × Num × Counts :=
  let a := c.1
  if mode = 1 then
    let v := wideSum [a.mul x.1, a.mul x.2, c.2.1.scale (-ref)]
    let h := roundedTo 0 v.1
    let l := roundedTo 0 (v.1.add h.1.minus)
    ((h.1, l.1), driftTerm ((v.1.add h.1.minus).add l.1.minus) ((a.mul (x.1.add x.2)).abs.add (c.2.2.scale (-ref))),
      (h.2.add l.2).add { inexact := v.2 })
  else
    let v := wideSum [a.mul x.1, c.2.1]
    let r := roundedTo fmt v.1
    ((r.1, Num.zero), driftTerm (v.1.add r.1.minus) ((a.mul x.1).abs.add c.2.2), r.2.add { inexact := v.2 })

/-- One element of a state in the accumulators: a carry factor of 2^-k shifts and rounds at the anchor (R277), then the update is added. -/
def carryAccum (x : Accum) (c : CarryStep) : Accum × Num :=
  let k : Nat := match c.1 with
    | .fin _ m e => (-(e + Int.ofNat (Nat.log2 m))).toNat
    | _ => 0
  let r : Int := signed (decide (x.v < 0)) (roundShift x.v.natAbs k)
  let y : Accum := { x with v := r }
  let z : Accum := match c.2.1 with
    | .fin neg m e => { y with v := y.v + signed neg (toGrid m e x.anchor) }
    | .nan _ => { y with nan := true }
    | .inf neg => if neg then { y with ninf := true } else { y with pinf := true }
  (z, driftTerm ((Num.ofInt r x.anchor).add (Num.ofInt (-x.v) (x.anchor - Int.ofNat k))) ((Num.ofInt x.v (x.anchor - Int.ofNat k)).abs.add c.2.2))

/-- The largest of some magnitudes. -/
def largest (xs : List Num) : Num := xs.foldl (fun a x => if a.lt x then x else a) Num.zero

/-- What a stream's steps work on: the elements or accumulators, the reference exponent, the step count, re-anchors made, the drift estimate, whether an
accumulator left its range, what its roundings counted. -/
structure Carrying where
  els : List Elt
  accs : List Accum
  ref : Int
  steps : Nat
  anchors : Nat
  est : Num
  spilt : Bool
  counts : Counts := {}
  deriving DecidableEq, Repr

/-- How a stream re-anchors: its period, whether by range, whether it is a pair. -/
abbrev AnchorRule := Nat × Bool × Bool

/-- Re-anchor where the rule asks for it at this step boundary (R285): the largest |h| comes to lie in [1, 2). -/
def reanchor (r : AnchorRule) (c : Carrying) : Carrying :=
  match largest (c.els.map (fun x => x.1.abs)) with
  | .fin _ m e =>
    let k := e + Int.ofNat (Nat.log2 m)
    let out := decide (k < -64) || decide (64 < k) || (decide (k = 64) && decide (m ≠ 2 ^ Nat.log2 m))
    if m = 0 ∨ ¬ r.2.2 ∨ ¬ ((r.1 ≠ 0 ∧ c.steps % r.1 = 0) ∨ (r.2.1 ∧ out)) then c
    else
      let ref := max (-126) (min 127 (c.ref + k))
      let d := c.ref - ref
      { c with
        ref := ref, anchors := c.anchors + 1
        els := c.els.map (fun x => (rounded 0 (x.1.scale d), rounded 0 (x.2.scale d))) }
  | _ => c

/-- One step. -/
def carryStep (fmt mode : Nat) (r : AnchorRule) (resident : Bool) (c : Carrying) (us : List CarryStep) : Carrying :=
  if c.spilt then c
  else if resident then
    let xs := (c.accs.zip us).map (fun e => carryAccum e.1 e.2)
    { c with
      accs := xs.map (·.1) ++ c.accs.drop us.length
      steps := c.steps + 1
      est := (round64 (c.est.add (largest (xs.map (·.2))))).1
      spilt := !xs.all (fun x => x.1.fits) }
  else
    let xs := (c.els.zip us).map (fun e => carryElt fmt mode c.ref e.1 e.2)
    reanchor r { c with
      els := xs.map (·.1) ++ c.els.drop us.length
      steps := c.steps + 1
      est := (round64 (c.est.add (largest (xs.map (·.2.1))))).1
      counts := countsOf (c.counts :: xs.map (·.2.2)) }

/-- What a step adds to `DRIFT_BOUND`, in units of 2^-44 (R286). -/
def driftUnit (fmt mode : Nat) (resident : Bool) : Nat :=
  if resident then 0 else if mode = 1 then 1 else if fmt = 0 then 2 ^ 20 else if fmt = 2 then 2 ^ 33 else 2 ^ 35

/-- Whether stream `n` is RESIDENT. -/
def State.resident (s : State) (n : Nat) : Bool := s.get (Obj.RESIDENCY_MODE n) == 2

/-- The state of stream `n` as its steps work on it. -/
def State.carrying (s : State) (n : Nat) : Carrying :=
  let x := s.stream n
  let fmt := s.get (Obj.STATE_FORMAT n)
  let mode := s.get (Obj.STATE_MODE n)
  { els := if s.resident n then [] else decodeState fmt mode (s.get (Obj.STATE_ELEMENTS n)) x.data
    accs := x.res, ref := s.refExp n, steps := s.get (Obj.STEP_COUNT n), anchors := 0, est := x.driftEst, spilt := false }

/-- Stream `n` after some whole steps. -/
def State.carried (s : State) (n : Nat) (us : List (List CarryStep)) : Carrying :=
  us.foldl (carryStep (s.get (Obj.STATE_FORMAT n)) (s.get (Obj.STATE_MODE n))
    (s.get (Obj.REANCHOR_STEPS n), s.get (Obj.REANCHOR_AUTO n) != 0, s.get (Obj.STATE_MODE n) == 1) (s.resident n)) (s.carrying n)

/-! ## Homes -/

/-- The tag of a state tile (R273). -/
def stateTag (fmt : Nat) : List Byte := le 4 (fmt + 256 * 5) ++ List.replicate 28 0

/-- The state is written to a run of tiles, payload and tag. -/
def writeRun (base count fmt : Nat) (data : List Byte) : Act :=
  each (List.range count) fun i =>
    let d := (data.drop (4096 * i)).take 4096
    writeTile (base + i) (stateTag fmt) (d ++ List.replicate (4096 - d.length) 0)

/-- The home of stream `n` becomes current. -/
def writeHome (n : Nat) : Act := .read fun s =>
  let x := s.stream n
  writeRun x.home.1 x.home.2 (s.get (Obj.STATE_FORMAT n)) x.data

/-- A run of tiles is freed and zeroed. -/
def freeRun (base count : Nat) : Act := .read fun s =>
  each (List.range count) fun i => match Tab.get? s.u.mem.tiles (base + i) with
    | some x => all [zeroHome (base + i) x.ctx x.home,
        match x.replica with
          | some r => zeroHome (base + i) x.ctx r
          | none => .skip,
        freeTile (base + i)]
    | none => .skip

/-- The DETAIL of a tile of a run that is lost (R281). -/
def State.runLost (s : State) (base count : Nat) : Option Nat :=
  (List.range count).findSome? fun i => match Tab.get? s.u.mem.tiles (base + i) with
    | some x => x.lost.map (fun d => if d = 0x0410 then 0x0710 else 0x0711)
    | none => none

/-- `n` bytes of free values. -/
def State.freeBytes (s : State) (n : Nat) : List Byte := ((List.range (ceilDiv n 8)).flatMap (fun i => le 8 (s.free i 64))).take n

/-- The initial state of stream `n` (R279): zeros, or the bytes at `INIT_TILE`; a tile the context does not own, or that is lost, gives free
bytes (log entry 50). -/
def State.initial (s : State) (n : Nat) : List Byte :=
  let a := s.get (Obj.INIT_TILE n)
  if a = 0 then List.replicate (s.stateBytes n) 0
  else ((List.range (s.homeTiles n)).flatMap (fun i =>
    match s.tileOf (s.get (Obj.S_CONTEXT n)) (a + 65536 * i) with
    | .inl t => if (s.lossOf t).isSome then s.freeBytes 4096 else s.payload t
    | .inr _ => s.freeBytes 4096)).take (s.stateBytes n)

/-- The anchor of stream `n`'s accumulators (R277): R88 gives it for formats without a book; with one the spec does not say which book, and it is free. -/
def State.anchorOf (s : State) (n : Nat) : Int :=
  let f := s.get (Obj.RESIDENT_FORMATS n)
  if 0xC ≤ f % 16 ∨ 0xC ≤ f / 16 then toSigned 8 (s.free 0 8) else lowBit (f % 16) [] + lowBit (f / 16) []

/-- A stored state as accumulators, and accumulators as a stored state. -/
def State.asAccums (s : State) (n : Nat) (anchor : Int) (data : List Byte) : List Accum :=
  let xs := decodeState (s.get (Obj.STATE_FORMAT n)) (s.get (Obj.STATE_MODE n)) (s.get (Obj.STATE_ELEMENTS n)) data
  ((List.range xs.length).zip xs).map (fun e => toAccum anchor (s.free e.1 64) (Elt.value (s.refExp n) e.2))
def State.asData (s : State) (fmt mode : Nat) (ref : Int) (xs : List Num) : List Byte :=
  encodeState fmt mode (fun i => s.free i 64) (xs.map (toElt fmt mode ref))

/-- Stream `n` takes a stored state. -/
def setState (n : Nat) (data : List Byte) : Act := .read fun s =>
  let anchor := toSigned 16 (s.get (Obj.ANCHOR_EXP n))
  let accs := if s.resident n then s.asAccums n anchor data else []
  all [.stream n (fun x => { x with data := data, res := accs }), .draw (s.get (Obj.STATE_ELEMENTS n) + 512)]

/-! ## Where the state is (R275, R276) -/

/-- Engine time of the engines that stream `n` holds, up to now (R276, R227). -/
def streamAccrue (n : Nat) : Act := .read fun s =>
  let x := s.stream n
  let dt := (s.time - x.since) / 4294967296
  let eng := x.engines.length * dt
  let c := s.get (Obj.S_CONTEXT n)
  if eng = 0 then .skip
  else all [
    .stream n (fun y => { y with since := y.since + dt * 4294967296 }),
    .count 64 (Obj.ENGINE_NS c) eng, .count 64 (Obj.BUSY_NS (s.get (Obj.STATE_FIELD n))) eng,
    .tt fun t => { t with
      vtime := Tab.upd t.vtime c 0 (· + eng * 1000 / max 1 (s.get (Obj.SHARE_WEIGHT c)))
      window := (s.get (Obj.CTX_CLASS c), eng) :: t.window }]

/-- Stream `n` holds nothing on its field any more; its state is at home, or nowhere else. -/
def leaveField (n : Nat) : Act := all [
  streamAccrue n,
  .read fun s =>
    let f := s.get (Obj.STATE_FIELD n)
    when (decide (f < 66)) (.field f fun r => { r with
      held := Tab.del r.held n, idleSince := s.time }),
  .stream n (fun x => { x with engines := [], grans := [] }),
  .put (Obj.RESIDENCY_NOW n) 0, .put (Obj.STATE_FIELD n) 0xFF]

/-- A chunk of stream `n` waits to be dispatched: the ready jobs whose local number maps to it, in the order they became ready (R270). -/
def State.chunksOf (s : State) (n : Nat) : List Nat :=
  (s.u.tt.jobs.filter (fun e => e.2.phase == .ready && e.2.decl.chunk.isSome && e.2.ctx == s.get (Obj.S_CONTEXT n) &&
    (match Tab.get? s.u.tt.runs e.2.run with
      | some r => match r.chunk e.2.decl with
        | some (k, _) => s.streamFor e.2.ctx k == some n
        | none => false
      | none => false))).map (·.1)

/-- A swap-out (R275): the home is written and the granules are released; `forced` where a chunk waits behind it. -/
def swapOut (n : Nat) (counts : Bool) : Act := .read fun s =>
  if s.get (Obj.RESIDENCY_NOW n) ≠ 1 then .skip
  else all [writeHome n, leaveField n, .count 32 (Obj.SWAPS_OUT n) 1,
    .stream n (fun x => { x with forced := counts && !(s.chunksOf n).isEmpty, swapWanted := false })]

/-- A RESIDENT stream takes its engines on field `f` (R276): the lowest that are free (log entry 51). -/
def takeEngines (n f : Nat) : Act := .read fun s =>
  let es := (s.freeEngines f).take (s.get (Obj.RESIDENT_ENGINES n))
  all [
    takeSpace (s.get (Obj.S_CONTEXT n)) f es [],
    .stream n (fun x => { x with engines := es, since := s.time }),
    .field f (fun r => { r with held := Tab.set r.held n (es.length, 0) }),
    .put (Obj.RESIDENCY_NOW n) 2, .put (Obj.STATE_FIELD n) f]

/-- The state of stream `n` is lost (R281). -/
def streamLost (n detail : Nat) : Act := all [.put (Obj.STREAM_STATE n) 4, .put (Obj.LOST_CAUSE n) detail]

/-- A swap-in of a STORE stream to field `f` (R275): granules of the store take the state; forced by a queued chunk it is thrash. -/
def swapIn (n f : Nat) : Act := .read fun s =>
  let x := s.stream n
  let st := s.get (Obj.STREAM_STATE n)
  let grans := ceilDiv (s.stateBytes n) 65536
  if s.get (Obj.RESIDENCY_MODE n) ≠ 1 ∨ s.get (Obj.RESIDENCY_NOW n) ≠ 0 ∨ st = 0 ∨ st = 4 ∨ x.chunk.isSome
    ∨ ¬ s.fieldActive f ∨ s.get (Obj.DOM_STATE f) ≠ 2 ∨ s.get (Obj.FALLOW_STATUS f) ≠ 0 ∨ (s.freeGrans f).length < grans then .skip
  else match s.runLost x.home.1 x.home.2 with
    | some d => streamLost n d
    | none => all [
        takeSpace (s.get (Obj.S_CONTEXT n)) f [] ((s.freeGrans f).take grans),
        .stream n (fun y => { y with grans := (s.freeGrans f).take grans }),
        .field f (fun r => { r with held := Tab.set r.held n (0, grans) }),
        .read fun s => .field f (fun r => { r with copies := r.copies.take (s.tileRoom f (s.freeGrans f)) }),
        .put (Obj.RESIDENCY_NOW n) 1, .put (Obj.STATE_FIELD n) f, .count 32 (Obj.SWAPS_IN n) 1,
        when x.forced (all [.count 32 (Obj.STREAM_THRASH n) 1, .count 32 Obj.THRASH_TOTAL 1]),
        .stream n (fun y => { y with forced := false })]

/-! ## The commands' effects (R279, R280) -/

/-- `STEP_COUNT`, `REF_EXP` and drift begin again. -/
def streamZero (n : Nat) : Act := all [
  .put (Obj.STEP_COUNT n) 0, .put (Obj.REF_EXP n) 0, .put (Obj.DRIFT_BOUND n) 0, .put (Obj.DRIFT_EST n) 0, .put (Obj.LOST_CAUSE n) 0,
  .stream n (fun x => { x with driftBound := 0, driftEst := Num.zero })]

/-- The directory's entry of stream `n`'s local number (R265): the map and its two bytes. -/
def putDirectory (n : Nat) (used : Bool) : Act := .read fun s =>
  let c := s.get (Obj.S_CONTEXT n)
  let k := s.get (Obj.S_LOCAL n)
  all [
    .units (fun u => { u with streamDir := if used then Tab.set u.streamDir (c * 4096 + k) n else Tab.del u.streamDir (c * 4096 + k) }),
    pokeTile (tileNo (s.get (Obj.STREAM_ROOT c)) + k / 2048) (2 * (k % 2048)) (le 2 (if used then n else 0xFFFF))]

/-- START. -/
def streamStart (n : Nat) : Act := .read fun s =>
  let c := s.get (Obj.S_CONTEXT n)
  let count := s.homeTiles n
  if count ≠ 0 ∧ (s.allocFault c count).isSome then .put (Obj.LOST_CAUSE n) 0x0715
  else
    let base := s.freeNumbers count
    all [
      when (count != 0) (allocTiles c count),
      .stream n (fun x => { x with home := (base, count), ckpt := none, forced := false, swapWanted := false }),
      .put (Obj.STATE_HOME n) (if count = 0 then 0 else s.tileAddr base),
      streamZero n,
      when (s.resident n) (.put (Obj.ANCHOR_EXP n) (ofSigned 16 (s.anchorOf n))),
      .draw 1,
      .read fun s => setState n (s.initial n),
      when (!s.resident n) (writeHome n),
      putDirectory n true,
      .put (Obj.STREAM_STATE n) 1]

/-- A command that reloads the state leaves the stream READY, or PAUSED if it was. -/
def readyAgain (n : Nat) : Act := .read fun s => when (s.get (Obj.STREAM_STATE n) != 3) (.put (Obj.STREAM_STATE n) 1)

/-- The home follows a state that a command loaded, where it is the place of the state (R273). -/
def homeFollows (n : Nat) : Act := .read fun s =>
  when (s.get (Obj.RESIDENCY_NOW n) == 0 && !s.resident n || (s.get (Obj.RESIDENCY_MODE n) == 1 && s.get (Obj.WRITE_THROUGH n) != 0)) (writeHome n)

/-- RESET. -/
def streamReset (n : Nat) : Act := all [
  streamZero n, .read fun s => setState n (s.initial n), homeFollows n, readyAgain n]

/-- END. -/
def streamEnd (n : Nat) : Act := .read fun s =>
  let x := s.stream n
  all [
    each (s.chunksOf n) (fun j => endJob j St.CANCELLED 0x0720 0 0),
    leaveField n,
    freeRun x.home.1 x.home.2,
    match x.ckpt with
      | some (b, k) => freeRun b k
      | none => .skip,
    putDirectory n false,
    .stream n (fun y => { y with data := [], res := [], home := (0, 0), ckpt := none, ckptData := [], forced := false, swapWanted := false }),
    .put (Obj.STATE_HOME n) 0, .put (Obj.CHECKPOINT_STEP n) 0xFFFFFFFFFFFFFFFF, .put (Obj.STREAM_STATE n) 0]

/-- CHECKPOINT: the tiles are allocated at first use, and again where the state's size has changed; where they do not fit, nothing is checkpointed
(log entry 52). -/
def streamCheckpoint (n : Nat) : Act := .read fun s =>
  let x := s.stream n
  let image := if s.resident n then x.res.flatMap Accum.image else x.data
  let count := ceilDiv image.length 4096
  let same := x.ckpt.elim false (fun r => r.2 == count)
  let done : Act := all [
    .stream n (fun y => { y with ckptData := image, ckptRes := s.resident n, ckptRef := s.get (Obj.REF_EXP n) }),
    .read fun s => match (s.stream n).ckpt with
      | some (b, k) => writeRun b k (s.get (Obj.STATE_FORMAT n)) image
      | none => .skip,
    .put (Obj.CHECKPOINT_STEP n) (s.get (Obj.STEP_COUNT n))]
  if same then done
  else all [
    match x.ckpt with
      | some (b, k) => freeRun b k
      | none => .skip,
    .read fun s =>
      let c := s.get (Obj.S_CONTEXT n)
      if count ≠ 0 ∧ (s.allocFault c count).isSome then all [
        .stream n (fun y => { y with ckpt := none, ckptData := [] }), .put (Obj.CHECKPOINT_STEP n) 0xFFFFFFFFFFFFFFFF]
      else all [
        .stream n (fun y => { y with ckpt := some (s.freeNumbers count, count) }), when (count != 0) (allocTiles c count), done]]

/-- RESTORE. -/
def streamRestore (n : Nat) : Act := .read fun s =>
  let x := s.stream n
  match x.ckpt with
  | none => .skip
  | some (b, k) => match s.runLost b k with
    | some d => streamLost n d
    | none =>
      let anchor := toSigned 16 (s.get (Obj.ANCHOR_EXP n))
      let accs := (List.range (x.ckptData.length / 16)).map (fun i => ofImage anchor ((x.ckptData.drop (16 * i)).take 16))
      all [
        .put (Obj.REF_EXP n) x.ckptRef,
        if x.ckptRes ∧ s.resident n then .stream n (fun y => { y with res := accs })
        else if x.ckptRes then all [
          .stream n (fun y => { y with
            data := s.asData (s.get (Obj.STATE_FORMAT n)) (s.get (Obj.STATE_MODE n)) (toSigned 16 x.ckptRef) (accs.map Accum.value) }),
          .draw (s.get (Obj.STATE_ELEMENTS n))]
        else setState n x.ckptData,
        homeFollows n,
        .put (Obj.STEP_COUNT n) (s.get (Obj.CHECKPOINT_STEP n)), .put (Obj.LOST_CAUSE n) 0,
        readyAgain n]

/-- A command takes effect. -/
def streamDo (n v : Nat) : Act :=
  match v with
  | 1 => streamStart n
  | 2 => .put (Obj.STREAM_STATE n) 3
  | 3 => .put (Obj.STREAM_STATE n) 1
  | 4 => streamReset n
  | 5 => streamEnd n
  | 6 => streamCheckpoint n
  | 7 => streamRestore n
  | _ => swapOut n false

/-- Whether a command is allowed in a stream's state (R279). -/
def State.streamAllows (s : State) (n v : Nat) : Bool :=
  let st := s.get (Obj.STREAM_STATE n)
  match v with
  | 1 => st == 0 && (s.stream n).applied
  | 2 => st == 1 || st == 2
  | 3 => st == 3
  | 4 | 5 => st != 0
  | 6 => st == 1 || st == 2 || st == 3
  | 7 => st != 0 && (s.stream n).ckpt.isSome
  | _ => (st == 1 || st == 3) && s.get (Obj.RESIDENCY_MODE n) == 1

/-- A write of `v` to `STREAM_COMMAND` by session `ses` (R267, R279). -/
def streamCommand (ses n v : Nat) (s : State) : WriteRes :=
  if s.get (Obj.STREAM_STATE n) ≠ 0 ∧ ¬ bit (s.get (Obj.ADMIT_SESSIONS (s.get (Obj.S_CONTEXT n)))) ses then .no Ab.ACCESS_LEVEL
  else if s.get (Obj.PENDING_COMMAND n) ≠ 0 ∨ ¬ s.streamAllows n v then .no Ab.STATE_FORBIDS
  else .ok (if (s.stream n).chunk.isSome then .put (Obj.PENDING_COMMAND n) v else streamDo n v)

/-! ## The group (R267, R268) -/

/-- The control key of stream `n`'s group. -/
def streamCtl (n : Nat) : Nat := 0x5000 + n

/-- A live stream's group has been applied over the mode and residency it had: the state takes its new form and place (R268, R280). -/
def streamConvert (n mode residency : Nat) : Act := .read fun s =>
  let x := s.stream n
  let fmt := s.get (Obj.STATE_FORMAT n)
  let mode' := s.get (Obj.STATE_MODE n)
  let count := s.get (Obj.STATE_ELEMENTS n)
  let ref := s.refExp n
  let form (data : List Byte) (r : Int) : List Byte :=
    s.asData fmt mode' r ((decodeState fmt mode count data).map (Elt.value r))
  let moved := s.homeTiles n
  all [
    -- leaving the accumulators
    when (residency == 2 && !s.resident n) (all [
      .stream n (fun y => { y with data := s.asData fmt mode' ref (x.res.map Accum.value), res := [] }), .draw count, leaveField n]),
    -- a change of form, with its checkpoint
    when (residency != 2 && mode != mode') (all [.stream n (fun y => { y with data := form x.data ref }), .draw count]),
    when (mode != mode') (all [
      .read fun s => all [
        .stream n (fun y => { y with home := (s.freeNumbers moved, moved) }),
        .put (Obj.STATE_HOME n) (if moved = 0 then 0 else s.tileAddr (s.freeNumbers moved)),
        when (moved != 0) (allocTiles (s.get (Obj.S_CONTEXT n)) moved)],
      freeRun x.home.1 x.home.2,
      match x.ckpt with
        | some (b, k) => when (!x.ckptRes) (all [
            .read fun s =>
              let d := form x.ckptData (toSigned 16 x.ckptRef)
              let k' := ceilDiv d.length 4096
              all [
                .stream n (fun y => { y with ckpt := some (s.freeNumbers k', k'), ckptData := d }),
                when (k' != 0) (allocTiles (s.get (Obj.S_CONTEXT n)) k'),
                .read fun s => match (s.stream n).ckpt with
                  | some (b, k) => writeRun b k fmt d
                  | none => .skip],
            freeRun b k])
        | none => .skip]),
    -- a pair that was re-anchored and is a single word now has the exponent in its value
    when (mode == 1 && mode' == 0) (.put (Obj.REF_EXP n) 0),
    -- the new place
    when (residency == 1 && s.get (Obj.RESIDENCY_MODE n) != 1) (swapOut n false),
    when (residency == 1 && s.get (Obj.RESIDENCY_MODE n) == 1 && mode != mode') (leaveField n),
    when (residency != 2 && s.resident n) (all [
      .put (Obj.ANCHOR_EXP n) (ofSigned 16 (s.anchorOf n)), .draw 1,
      .read fun s => setState n (s.stream n).data]),
    when (!s.resident n) (writeHome n)]

/-- The tiles that a change of form of live stream `n` needs: those of its home, and of its checkpoint where it has one (R268). -/
def State.newTiles (s : State) (n : Nat) : Nat :=
  let mode' := s.shadowOf (Obj.STATE_MODE n)
  let home := ceilDiv (s.get (Obj.STATE_ELEMENTS n) * elemBytes (s.get (Obj.STATE_FORMAT n)) mode') 4096
  if s.get (Obj.STREAM_STATE n) = 0 ∨ mode' = s.get (Obj.STATE_MODE n) then 0
  else home + (if (s.stream n).ckpt.isSome ∧ ¬ (s.stream n).ckptRes then home else 0)

/-- Stream `n`'s group is applied at a chunk boundary. -/
def applyStream (n : Nat) : Act := .read fun s =>
  all [
    groupTake (streamCtl n),
    .stream n (fun x => { x with applied := true, reserved := 0 }),
    when (s.get (Obj.STREAM_STATE n) != 0) (streamConvert n (s.get (Obj.STATE_MODE n)) (s.get (Obj.RESIDENCY_MODE n)))]

/-- A tile that only the sequence unit writes for streams: a context's directory, a stream's home or checkpoint (R265, R266). -/
def State.streamTile (s : State) (c t : Nat) : Bool :=
  let root := s.get (Obj.STREAM_ROOT c)
  (root != 0 && decide (tileNo root ≤ t) && decide (t < tileNo root + 2))
    || s.u.streamDir.any (fun e =>
      let x := s.stream e.2
      let k := x.ckpt.getD (0, 0)
      decide (x.home.1 ≤ t ∧ t < x.home.1 + x.home.2) || decide (k.1 ≤ t ∧ t < k.1 + k.2))

/-- What ends a job of context `c` that writes tile address `a` with a tag (R158, R192, R238, R265, R344). -/
def State.writeFault (s : State) (c a : Nat) (tag : List Byte) : Option (Nat × Nat) := match s.tileOf c a with
  | .inr f => some f
  | .inl t =>
    if s.foreignRef tag then some (St.CONFIG_INVALID, 0x0403)
    else if ¬ shapeAdmits (tagByte tag 1) (tagByte tag 0 % 16) then some (St.CONFIG_INVALID, 0x0402)
    else if s.streamTile c t then some (St.ACCESS_DENIED, 0x0705)
    else if s.seqTile c t then some (St.ACCESS_DENIED, 0x0605)
    else if s.mapTile t then some (St.ACCESS_DENIED, 0x0A05)
    else none

/-- What ends a job of context `c` whose fixed-function unit writes these output tiles (R192). -/
def State.outFault (s : State) (c : Nat) (outs : List (Nat × List Byte)) : Option (Nat × Nat) := outs.findSome? fun o => s.writeFault c o.1 o.2

/-! ## Chunks at dispatch (R269 to R271) -/

/-- What is wrong with a chunk before any output: no stream, a lost one, a declaration that disagrees (more steps than a chunk declares among them, log entry 53), a
carry that its stream does not admit, a home that is lost. -/
def State.chunkFault (s : State) (x : Job) : Option (Nat × Nat) :=
  match x.decl.chunk, s.chunkStream x with
  | none, _ => none
  | some _, none => some (St.CONFIG_INVALID, 0x0700)
  | some d, some n =>
    if s.get (Obj.STREAM_STATE n) = 4 then some (St.STATE_LOST, 0x0714)
    else if d.elements ≠ s.get (Obj.STATE_ELEMENTS n) ∨ d.format ≠ s.get (Obj.STATE_FORMAT n) ∨ d.group ≠ s.get (Obj.WEIGHT_GROUP n)
      ∨ 65536 < s.chunkSteps x then some (St.CONFIG_INVALID, 0x0701)
    else if s.resident n ∧ ¬ d.carryOk then some (St.CONFIG_INVALID, 0x0702)
    else if ¬ s.resident n ∧ s.get (Obj.RESIDENCY_NOW n) = 0 then
      (s.runLost (s.stream n).home.1 (s.stream n).home.2).map (fun c => (St.STATE_LOST, c))
    else none

/-- Whether chunk `j` of stream `n` can be dispatched on fields `place`: its stream is READY with no chunk running, it is the first, and the state is where the
fields are (R270, R275, R276). -/
def State.chunkGoes (s : State) (n j : Nat) (place : List Nat) : Bool :=
  s.get (Obj.STREAM_STATE n) == 1 && (s.stream n).chunk.isNone && (s.chunksOf n).head? == some j &&
    (match s.get (Obj.RESIDENCY_MODE n) with
      | 1 => s.get (Obj.RESIDENCY_NOW n) == 1 && place.contains (s.get (Obj.STATE_FIELD n))
      | 2 => match place with
        | [f] => if (s.stream n).engines.isEmpty then decide (s.get (Obj.RESIDENT_ENGINES n) ≤ (s.freeEngines f).length)
          else s.get (Obj.STATE_FIELD n) == f
        | _ => false
      | _ => true)

/-- The chunk of stream `n` runs. -/
def chunkRuns (n j : Nat) : Act := all [
  .put (Obj.STREAM_STATE n) 2, .stream n (fun x => { x with chunk := some j }),
  .read fun s => .job j (fun x => { x with stream := some n, resident := s.resident n })]

/-- The first ready chunks of the other streams of stream `n`'s context and weight group, in rising order of stream, that can run with one of its own on
`place` (R271), at most `room` of them. -/
def State.mates (s : State) (n room : Nat) (place : List Nat) : List (Nat × Nat) :=
  let w := s.get (Obj.WEIGHT_GROUP n)
  if w = 0 ∨ s.resident n then []
  else ((s.u.streamDir.map (·.2)).filterMap (fun m =>
    if m ≠ n ∧ s.get (Obj.S_CONTEXT m) = s.get (Obj.S_CONTEXT n) ∧ s.get (Obj.WEIGHT_GROUP m) = w ∧ ¬ s.resident m then
      match s.chunksOf m with
      | j :: _ => match Tab.get? s.u.tt.jobs j with
        | some x => if s.chunkGoes m j place ∧ (s.chunkFault x).isNone then some (m, j) else none
        | none => none
      | [] => none
    else none)).take room

/-! ## Chunks at their end (R270, R274, R281) -/

/-- Whether the steps of job `j`'s chunk take an accumulator out of its range (R278). -/
def State.overRange (s : State) (j : Nat) (us : List (List CarryStep)) : Bool :=
  match Tab.get? s.u.tt.jobs j with
  | some { stream := some n, .. } => s.resident n && (s.carried n us).spilt
  | _ => false

/-- The whole steps of job `j`'s chunk become the state of its stream (R274). -/
def chunkSteps (j : Nat) (us : List (List CarryStep)) : Act := .read fun s =>
  match Tab.get? s.u.tt.jobs j with
  | some { stream := some n, .. } =>
    let c := s.carried n us
    let fmt := s.get (Obj.STATE_FORMAT n)
    let mode := s.get (Obj.STATE_MODE n)
    let bound := (s.stream n).driftBound + us.length * driftUnit fmt mode (s.resident n)
    if us.isEmpty ∨ c.spilt then .skip
    else all [
      .stream n (fun x => { x with
        res := c.accs
        data := if s.resident n then x.data else encodeState fmt mode (fun i => s.free i 64) c.els
        driftBound := bound, driftEst := c.est }),
      .draw c.els.length, countArith c.counts,
      when (!s.resident n && (s.get (Obj.RESIDENCY_MODE n) == 0 || s.get (Obj.WRITE_THROUGH n) != 0)) (writeHome n),
      .put (Obj.STEP_COUNT n) (c.steps % 2 ^ 64), .put (Obj.LAST_STEP_TIME n) s.ns, .put (Obj.REF_EXP n) (ofSigned 16 c.ref),
      .count 32 (Obj.REANCHORS n) c.anchors,
      .put (Obj.DRIFT_BOUND n) (toFp32 0 (.fin false bound (-44))), .put (Obj.DRIFT_EST n) (toFp32 0 c.est)]
  | _ => .skip

/-- A chunk boundary of stream `n`: what waited for it (R267, R275, R279). A pending command that the stream no longer allows is dropped (log entry 54). -/
def chunkBoundary (n : Nat) : Act := .read fun s => all [
  when (s.stream n).swapWanted (swapOut n true),
  .stream n (fun x => { x with swapWanted := false }),
  when (s.groupPending (streamCtl n)) (applyStream n),
  .read fun s =>
    let v := s.get (Obj.PENDING_COMMAND n)
    when (v != 0) (all [.put (Obj.PENDING_COMMAND n) 0, when (s.streamAllows n v) (streamDo n v)])]

/-- What the end of job `j` brings the stream of its chunk. -/
def chunkEnded (j : Nat) (x : Job) (status detail : Nat) : Act := .read fun s =>
  let lost := status = St.STATE_LOST ∧ detail ≠ 0x0714
  match x.stream with
  | none => .skip
  | some n =>
    let ran := decide ((s.stream n).chunk = some j)
    all [
      .count 64 (Obj.CHUNKS_DONE n) 1,
      when ran (.stream n (fun y => { y with chunk := none })),
      when (ran && s.get (Obj.STREAM_STATE n) == 2) (.put (Obj.STREAM_STATE n) 1),
      when (decide lost) (streamLost n detail),
      when (x.resident && status == St.ENGINE_FAULT) (streamLost n 0x0712),
      when ran (chunkBoundary n)]

/-- A field's engine, or with 34 the field itself, has faulted: the states that were only there are lost (R281). The engine is named by its heir, if it has one. -/
def engineGone (f e : Nat) : Act := .read fun s =>
  each ((s.fieldRec f).held.map (·.1)) fun n => .read fun s =>
    if s.resident n then when (e == 34 || (s.stream n).engines.contains e) (all [
      streamLost n 0x0712,
      if e = 34 then leaveField n
      else .stream n (fun y => { y with engines := y.engines.filter (fun i => bit (s.get (Obj.ENGINE_ACTIVE_MASK f)) i) })])
    else when (e == 34) (all [
      when (s.get (Obj.WRITE_THROUGH n) == 0) (streamLost n 0x0710), leaveField n])

/-- Streams leave the fields that go fallow (R276): a STORE state swaps out, held engines move with their accumulators once the work has. -/
def streamsLeave : Act := .read fun s =>
  each ((List.range 66).filter (fun f => s.get (Obj.FALLOW_STATUS f) == 1 && !(s.fieldRec f).held.isEmpty)) fun f =>
    match s.replacement f with
    | none => .skip
    | some g => each ((s.fieldRec f).held.map (·.1)) fun n => .read fun s =>
        let busy : Bool := match (s.stream n).chunk with
          | some j => (s.jobsOn f).any (fun e => decide (e.1 = j))
          | none => false
        if s.resident n then when (!busy && decide ((s.stream n).engines.length ≤ (s.freeEngines g).length)) (all [
          streamAccrue n,
          .field f (fun r => { r with held := Tab.del r.held n, idleSince := s.time }), takeEngines n g])
        else if (s.stream n).chunk.isSome then .stream n (fun x => { x with swapWanted := true })
        else swapOut n true

/-- The engines that streams hold count up to now, and streams leave fields that go fallow. -/
def streamsFollow : Act := .read fun s => all [
  each (s.u.streams.filter (fun e => !e.2.engines.isEmpty)) (fun e => streamAccrue e.1),
  streamsLeave]

end Sys2Proof.Machine
end

