-- ==== Sys2Proof/Machine/PlanOps.lean ====
section
/-! DEFINITION. The planner below its commands: epochs and their bricks, distances, robot models, clearances, path records (R343 to R365). -/

namespace Sys2Proof.Machine
open Act

/-- Change the planner's record. -/
def Act.plan (f : PlanS → PlanS) : Act := .units fun u => { u with plan := f u.plan }

/-! ## The map (R343 to R345) -/

/-- The bricks of the geometry. -/
def State.bricks (s : State) : Nat := s.get Obj.BRICKS_X * s.get Obj.BRICKS_Y * s.get Obj.BRICKS_Z

/-- The index tiles of an epoch: 1,024 tile numbers each. -/
def State.indexTiles (s : State) : Nat := ceilDiv s.bricks 1024

/-- The newest epoch. -/
def State.newest (s : State) : Epoch := Tab.at s.u.plan.epochs (s.get Obj.EPOCH_NEWEST) {}

/-- The 2,048 voxels of brick `b` in epoch `e`, as INT16 codes; a brick never written is UNKNOWN throughout. -/
def State.brick (s : State) (e : Epoch) (b : Nat) : List Nat :=
  match Tab.get? e.index b with
  | none => List.replicate 2048 32768
  | some t => let bs := s.payload t
    (List.range 2048).map fun i => ofLe ((bs.drop (2 * i)).take 2)

/-- The value of voxel (x, y, z) in epoch `e`, in units of v ÷ 128; none outside the box or UNKNOWN (R344). -/
def State.voxel (s : State) (e : Epoch) (x y z : Int) : Option Int :=
  let bx := s.get Obj.BRICKS_X
  let by' := s.get Obj.BRICKS_Y
  if x < 0 ∨ y < 0 ∨ z < 0 ∨ (16 * bx : Nat) ≤ x ∨ (16 * by' : Nat) ≤ y ∨ (8 * s.get Obj.BRICKS_Z : Nat) ≤ z then none
  else
    let x := x.toNat
    let y := y.toNat
    let z := z.toNat
    let i := 256 * (z % 8) + 16 * (y % 16) + x % 16
    match Tab.get? e.index ((z / 8 * by' + y / 16) * bx + x / 16) with
    | none => none
    | some t =>
      let v := match Tab.get? s.u.mem.tiles t with
        | some y => toSigned 16 (ofLe (s.mread (s.homeAddr y.home + 2 * i) 2))
        | none => -32768
      if v = -32768 then none else some v

/-- The brick that voxel (x, y, z) lies in, inside the box. -/
def State.brickAt (s : State) (x y z : Int) : Option Nat :=
  let bx := s.get Obj.BRICKS_X
  let by' := s.get Obj.BRICKS_Y
  if x < 0 ∨ y < 0 ∨ z < 0 ∨ (16 * bx : Nat) ≤ x ∨ (16 * by' : Nat) ≤ y ∨ (8 * s.get Obj.BRICKS_Z : Nat) ≤ z then none
  else some ((z.toNat / 8 * by' + y.toNat / 16) * bx + x.toNat / 16)

/-- The number of the voxel along one axis whose centre is nearest coordinate `p`: the distance to the corner `o` in voxel edges, rounded down. -/
def State.voxelNo (s : State) (p o : Nat) : Option Int :=
  match (fp p).add (fp o).minus with
  | .fin a m e =>
    let n := signed a m * 1000
    let v := s.get Obj.VOXEL_MM
    some (if 0 ≤ e then n * (2 ^ e.toNat : Nat) / (v : Nat) else n / ((v * 2 ^ (-e).toNat : Nat) : Int))
  | _ => none

/-- The voxel whose centre is nearest point `c`. -/
def State.voxelOf (s : State) (c : Nat × Nat × Nat) : Option (Int × Int × Int) :=
  match s.voxelNo c.1 (s.get Obj.ORIGIN_X), s.voxelNo c.2.1 (s.get Obj.ORIGIN_Y), s.voxelNo c.2.2 (s.get Obj.ORIGIN_Z) with
  | some x, some y, some z => some (x, y, z)
  | _, _, _ => none

/-- The lower bound D for a stored value of `k` units, in metres: (k ÷ 128 − √3 ÷ 2) × v, rounded to FP32 (R345). -/
def State.bound0 (s : State) (k : Int) : Num :=
  let root := isqrt (3 * 64 * 64 * 2 ^ 200) 110 0
  let a := k * (2 ^ 100 : Nat) - (root : Nat)
  (ratio (.ofInt ((s.get Obj.VOXEL_MM : Nat) * (2 * a - 1)) (-101)) (num 128000) false).r32

/-- D(p) in epoch `e` (R345). -/
def State.lowerBound (s : State) (e : Epoch) (c : Nat × Nat × Nat) : Num :=
  let free : Int := if s.get Obj.UNKNOWN_FREE = 0 then 0 else 32768
  match s.voxelOf c with
  | none => s.bound0 free
  | some (x, y, z) => s.bound0 ((s.voxel e x y z).getD free)

/-- D(c) − r in metres (R356). -/
def State.clearOf (s : State) (e : Epoch) (q : Nat × Nat × Nat × Nat) : Num := sub32 (s.lowerBound e (q.1, q.2.1, q.2.2.1)) (fp q.2.2.2)

/-- A gradient component: the central difference of two neighbours divided by 2v; +0 beside an UNKNOWN one. -/
def gradient (a b : Option Int) : Num := match a, b with
  | some p, some q => .ofInt (p - q) (-8)
  | _, _ => Num.zero

/-- The 16 bytes that a sphere query writes for one sphere (R356). -/
def State.sphereBytes (s : State) (e : Epoch) (q : Nat × Nat × Nat × Nat) : List Byte :=
  let c (n : Num) : List Byte := le 4 (toFp32 (s.free 0 64) n)
  let g : List Byte := match s.voxelOf (q.1, q.2.1, q.2.2.1) with
    | none => le 12 0
    | some (x, y, z) =>
      c (gradient (s.voxel e (x + 1) y z) (s.voxel e (x - 1) y z)) ++
      c (gradient (s.voxel e x (y + 1) z) (s.voxel e x (y - 1) z)) ++
      c (gradient (s.voxel e x y (z + 1)) (s.voxel e x y (z - 1)))
  c (s.clearOf e q) ++ g

/-! ## Epochs (R346 to R351) -/

/-- An epoch is held by a run. -/
def State.epochHeld (s : State) (n : Nat) : Bool := s.u.plan.runs.any (fun r => r.2.epoch == n || r.2.checked == some n)

/-- The tiles of an epoch. -/
def Epoch.all (e : Epoch) : List Nat := e.tiles ++ e.index.map (·.2)

/-- The status objects follow the epochs. -/
def putEpochs : Act := .read fun s => all [
  .put Obj.EPOCH_NEWEST_TOV s.newest.tov,
  .put Obj.EPOCHS_HELD s.u.plan.epochs.length,
  .put Obj.BRICKS_WRITTEN s.newest.index.length]

/-- Epoch `e` becomes the newest: what it changed is dirty for every run in progress (R351). -/
def becomeNewest (e : Epoch) : Act := .read fun s =>
  let n := s.get Obj.EPOCH_NEWEST + 1
  all [
    .plan (fun p => { p with
      epochs := Tab.set p.epochs n e
      runs := p.runs.map (fun r => (r.1, { r.2 with dirty := r.2.dirty ++ e.changed.filter (fun b => !r.2.dirty.contains b) })) }),
    .put Obj.EPOCH_NEWEST n, putEpochs]

/-- Epochs that are neither held nor newest are reclaimed with the tiles that no other references; then the pending epoch becomes the newest (R350). -/
def reclaim : Nat → Act
  | 0 => .skip
  | fuel + 1 => .read fun s =>
    let keep := s.u.plan.epochs.filter (fun e => e.1 == s.get Obj.EPOCH_NEWEST || s.epochHeld e.1)
    let live := keep.flatMap (fun e => e.2.all) ++ (s.u.plan.pending.map Epoch.all).getD []
    let dead := ((s.u.plan.epochs.flatMap (fun e => e.2.all)).eraseDups).filter (fun t => !live.contains t)
    all [
      .plan (fun p => { p with epochs := keep }),
      each dead freeTile, putEpochs,
      .read fun s => match s.u.plan.pending with
        | some e => when (decide (s.u.plan.epochs.length < s.get Obj.EPOCHS_MAX))
            (all [.plan (fun p => { p with pending := none }), becomeNewest e, reclaim fuel])
        | none => .skip]

/-- A new epoch comes of `e`: at once, or pending where `EPOCHS_MAX` exist (R350). -/
def commitEpoch (e : Epoch) : Act := .read fun s =>
  if s.u.plan.pending.isSome ∨ s.get Obj.EPOCHS_MAX ≤ s.u.plan.epochs.length then
    let old := (s.u.plan.pending.map Epoch.all).getD []
    let others := s.u.plan.epochs.flatMap (fun x => x.2.all)
    let before := (s.u.plan.pending.map (·.changed)).getD []
    all [
      .plan (fun p => { p with pending := some { e with changed := before ++ e.changed.filter (fun b => !before.contains b) } }),
      each (old.filter (fun t => !e.all.contains t && !others.contains t)) freeTile]
  else all [becomeNewest e, reclaim 10]

/-- The epoch that a batch is applied to: the pending one, or the newest. -/
def State.batchBase (s : State) : Epoch := s.u.plan.pending.getD s.newest

/-- The brick an operation names. -/
def MapOp.brick : MapOp → Nat
  | .replace b _ => b
  | .min b _ => b
  | .forget b => b

/-- A brick's voxels after an operation (R347). -/
def MapOp.apply (old : List Nat) : MapOp → List Nat
  | .replace _ vs => vs
  | .min _ vs => (old.zip vs).map fun e =>
      if e.1 = 32768 then e.2 else if e.2 = 32768 then e.1 else if toSigned 16 e.2 < toSigned 16 e.1 then e.2 else e.1
  | .forget _ => List.replicate 2048 32768

/-- The bricks that a batch changes, with their voxels after it. -/
def State.batchBricks (s : State) (base : Epoch) (ops : List MapOp) : Tab (List Nat) :=
  ops.foldl (fun t o => Tab.set t o.brick (o.apply ((Tab.get? t o.brick).getD (s.brick base o.brick)))) []

/-- A planner tile is written: owner, SHAPE 0x00, FORMAT as given (R344). -/
def planTile (t fmt : Nat) (data : List Byte) : Act := writeTile t (le 1 fmt ++ List.replicate 31 0) (data ++ List.replicate (4096 - data.length) 0)

/-- A batch of context `c`, allowed its tiles, is applied whole: its index tiles, then one tile for each brick it changes (R346, R348). -/
def applyBatch (c tov : Nat) (ops : List MapOp) : Act := .read fun s =>
  let base := s.batchBase
  let bricks := s.batchBricks base ops
  let k := s.indexTiles
  let first := s.freeNumbers (k + bricks.length)
  let index := ((List.range bricks.length).zip bricks).foldl (fun t e => Tab.set t e.2.1 (first + k + e.1)) base.index
  let e : Epoch := { tov := max tov base.tov, index := index, tiles := (List.range k).map (first + ·), changed := bricks.map (·.1) }
  all [
    allocTiles c (k + bricks.length),
    each ((List.range bricks.length).zip bricks) (fun b => planTile (first + k + b.1) 9 (b.2.2.flatMap (le 2))),
    each (List.range k) (fun i => planTile (first + i) 8 ((List.range 1024).flatMap fun j => le 4 (Tab.at index (1024 * i + j) 0))),
    commitEpoch e]

/-- `MAP_CLEAR`: an epoch with every brick UNKNOWN. -/
def clearMap : Act := .read fun s =>
  let base := s.batchBase
  commitEpoch { tov := base.tov, index := [], tiles := [], changed := base.index.map (·.1) }

/-- The map geometry group applies: a new epoch wholly UNKNOWN, every older brick freed (R365). -/
def applyMap : Act := .read fun s =>
  let tov := s.newest.tov
  let all' := List.range s.bricks
  all [
    groupTake 0x2901,
    each ((s.u.plan.epochs.flatMap (fun e => e.2.all) ++ (s.u.plan.pending.map Epoch.all).getD []).eraseDups) freeTile,
    .plan (fun p => { p with
      pending := none, epochs := p.epochs.map (fun e => (e.1, { e.2 with index := [], tiles := [] })) }),
    becomeNewest { tov := tov, changed := all' }, reclaim 1]

/-! ## Robot models (R352 to R354) -/

/-- The number that `n` bytes of a model spell from offset `o` on. -/
def field (m : List Byte) (o n : Nat) : Nat := ofLe ((m.drop o).take n)

/-- J, spheres and self pairs of a model. -/
def modelJoints (m : List Byte) : Nat := field m 0 1
def modelSpheres (m : List Byte) : Nat := field m 2 2
def modelPairs (m : List Byte) : Nat := field m 4 2

/-- The commit check of `MODEL_DATA` (R352, R353). -/
def modelOk (m : List Byte) : Bool :=
  let j := modelJoints m
  let n := modelSpheres m
  let p := modelPairs m
  let joint (i : Nat) : Bool :=
    let o := 16 + 48 * i
    let parent := field m o 1
    let q (k : Nat) : Num := fp (field m (o + 16 + 4 * k) 4)
    let norm := ((q 0).mul (q 0)).add (((q 1).mul (q 1)).add (((q 2).mul (q 2)).add ((q 3).mul (q 3))))
    let lo : Num := .fin false (2 ^ 20 - 1) (-20)
    let hi : Num := .fin false (2 ^ 20 + 1) (-20)
    (parent == 0xFF || decide (parent < i)) && Num.le (lo.mul lo) norm && Num.le norm (hi.mul hi)
      && Num.le (fp (field m (o + 32) 4)) (fp (field m (o + 36) 4))
  decide (1 ≤ j ∧ j ≤ 32 ∧ 1 ≤ n ∧ n ≤ 1024 ∧ p ≤ 512 ∧ m.length = 16 + 48 * j + 16 * n + 4 * p)
    && (List.range j).all joint
    && (List.range n).all (fun i => decide (field m (16 + 48 * j + 16 * i + 14) 1 < j))

/-- The live data of model `n`. -/
def State.model (s : State) (n : Nat) : List Byte := Tab.at s.u.dict.blobs (Obj.ROBOT_MODEL_MODEL_DATA n) []

/-- A model's group applies at the start of a run or query that names it (R353). -/
def applyModel (n : Nat) : Act := all [
  groupTake (0x2910 + n),
  .read fun s => all [
    .put (Obj.MODEL_JOINTS n) (modelJoints (s.model n)), .put (Obj.MODEL_SPHERES n) (modelSpheres (s.model n))]]

/-- A configuration has the model's joints, each within its limits. -/
def withinLimits (m : List Byte) (q : List Nat) : Bool :=
  q.length == modelJoints m && (List.range q.length).all (fun i =>
    let o := 16 + 48 * i
    Num.le (fp (field m (o + 32) 4)) (fp (q.getD i 0)) && Num.le (fp (q.getD i 0)) (fp (field m (o + 36) 4)))

/-! ## Kinematics (R352 to R354; log entry 165) -/

/-- A point or a vector, exactly. -/
abbrev Vec := Num × Num × Num

def Vec.add (a b : Vec) : Vec := (a.1.add b.1, a.2.1.add b.2.1, a.2.2.add b.2.2)
def Vec.times (k : Num) (a : Vec) : Vec := (k.mul a.1, k.mul a.2.1, k.mul a.2.2)
def Vec.cross (a b : Vec) : Vec :=
  ((a.2.1.mul b.2.2).add (a.2.2.mul b.2.1).minus, (a.2.2.mul b.1).add (a.1.mul b.2.2).minus, (a.1.mul b.2.1).add (a.2.1.mul b.1).minus)
def Vec.norm (a : Vec) : Num :=
  let q := ((a.1.mul a.1).add (a.2.1.mul a.2.1)).add (a.2.2.mul a.2.2)
  if q.isZero then .zero else rootOf q

/-- FP32 item `i` from byte `o` of a model on. -/
def fpAt (m : List Byte) (o i : Nat) : Num := fp (field m (o + 4 * i) 4)

/-- Three FP32 items of a model. -/
def vecAt (m : List Byte) (o : Nat) : Vec := (fpAt m o 0, fpAt m o 1, fpAt m o 2)

/-- A vector turned by a quaternion (x, y, z, w) of norm 1: v + 2w (q × v) + 2 q × (q × v). -/
def Vec.turn (q : Vec) (w : Num) (v : Vec) : Vec :=
  let t := Vec.times (num 2) (Vec.cross q v)
  v.add ((Vec.times w t).add (Vec.cross q t))

/-- Where a point of joint `j`'s child frame stands in its parent's frame at joint value `x`: revolute about z or prismatic along it, then the record's rotation and
translation. -/
def jointMoves (m : List Byte) (j : Nat) (x : Num) (p : Vec) : Vec :=
  let o := 16 + 48 * j
  let p := if field m (o + 1) 1 = 1 then
      let s := ofFx (sineTurn (turns x))
      let c := ofFx (sineTurn (turns x + 2 ^ 318))
      ((p.1.mul c).add (p.2.1.mul s).minus, (p.1.mul s).add (p.2.1.mul c), p.2.2)
    else (p.1, p.2.1, p.2.2.add x)
  (vecAt m (o + 4)).add (Vec.turn (vecAt m (o + 16)) (fpAt m (o + 16) 3) p)

/-- The joints from `j` up to the world. -/
def chainUp (m : List Byte) : Nat → Nat → List Nat
  | 0, _ => []
  | n + 1, j => if modelJoints m ≤ j then [] else j :: chainUp m n (field m (16 + 48 * j) 1)

/-- The offset of sphere `i`'s record, and the joint whose child link carries it. -/
def sphereOff (m : List Byte) (i : Nat) : Nat := 16 + 48 * modelJoints m + 16 * i
def sphereJoint (m : List Byte) (i : Nat) : Nat := field m (sphereOff m i + 14) 1

/-- The centre of sphere `i` in configuration `q`, as FP32 codes. -/
def sphereCentre (m : List Byte) (q : List Num) (i : Nat) : Nat × Nat × Nat :=
  let p := (chainUp m 32 (sphereJoint m i)).foldl (fun p j => jointMoves m j (q.getD j .zero) p) (vecAt m (sphereOff m i))
  (toFp32 0 p.1, toFp32 0 p.2.1, toFp32 0 p.2.2)

/-- The lever bounds λ of sphere `i`: each joint above it with 1, or for a revolute joint the lengths of the translations from there to the centre (R353). -/
def levers (m : List Byte) (i : Nat) : List (Nat × Num) :=
  ((chainUp m 32 (sphereJoint m i)).foldl (fun (acc : List (Nat × Num) × Num) j =>
    ((j, if field m (16 + 48 * j + 1) 1 = 1 then acc.2 else num 1) :: acc.1, acc.2.add (Vec.norm (vecAt m (16 + 48 * j + 4)))))
    ([], Vec.norm (vecAt m (sphereOff m i)))).1

/-- A pose that is checked: the centre of each sphere, and its step bound δ in mm. -/
structure Pose where
  centres : List (Nat × Nat × Nat)
  delta : Num := Num.zero
  deriving DecidableEq, Repr

/-- The pose of a configuration. -/
def poseOf (m : List Byte) (delta : Num) (q : List Num) : Pose := ⟨(List.range (modelSpheres m)).map (sphereCentre m q), delta⟩

/-- The integer at or above a value that is not negative. -/
def ceilNat : Num → Nat
  | .fin false k e => if 0 ≤ e then k * 2 ^ e.toNat else ceilDiv k (2 ^ (-e).toNat)
  | _ => 0

/-- The poses checked on the segment between two configurations (R354): n + 1, evenly spaced, `step` being `CHECK_STEP_MM`. -/
def segmentPoses (m : List Byte) (step : Nat) (a b : List Nat) : List Pose :=
  let gap (j : Nat) : Num := (fp (b.getD j 0)).add (fp (a.getD j 0)).minus
  let reach := ((List.range (modelSpheres m)).map fun i => (levers m i).foldl (fun t l => t.add (l.2.mul (gap l.1).abs)) Num.zero).foldl Num.max Num.zero
  let mm := reach.mul (num 1000)
  let n := max 1 (ceilNat (mm.over (num (Int.ofNat (max 1 step)))))
  (List.range (n + 1)).map fun k =>
    poseOf m (mm.over (num (Int.ofNat n))) ((List.range (modelJoints m)).map fun j => (fp (a.getD j 0)).add (((gap j).mul (num (Int.ofNat k))).over (num (Int.ofNat n))))

/-- The poses checked along a path. -/
def pathPoses (m : List Byte) (step : Nat) : List (List Nat) → List Pose
  | a :: b :: rest => segmentPoses m step a b ++ pathPoses m step (b :: rest)
  | _ => []

/-! ## Clearance (R354) -/

/-- Ten times the margin of sphere `i` at centre `c` in mm, exactly: D − r − m − δ ÷ 2. -/
def State.margin10 (s : State) (e : Epoch) (m : List Byte) (delta : Num) (i : Nat) (c : Nat × Nat × Nat) : Num :=
  let r := field m (sphereOff m i + 12) 2
  let d := (s.lowerBound e c).mul (num 10000)
  (d.add (num (-(r + 10 * s.get Obj.CLEARANCE_MARGIN_MM : Nat)))).add (delta.mul (num (-5)))

/-- Spheres of links `a` and `b` overlap. -/
def linksMeet (m : List Byte) (p : Pose) (a b : Nat) : Bool :=
  let of' (l : Nat) : List Nat := (List.range (modelSpheres m)).filter (fun i => sphereJoint m i == l)
  let c (i : Nat) : Nat × Nat × Nat := p.centres.getD i (0, 0, 0)
  let sq (x y : Nat) : Num :=
    let d := ((fp x).add (fp y).minus).mul (num 10000)
    d.mul d
  (of' a).any fun i => (of' b).any fun k =>
    let dist := ((sq (c i).1 (c k).1).add (sq (c i).2.1 (c k).2.1)).add (sq (c i).2.2 (c k).2.2)
    let r := field m (sphereOff m i + 12) 2 + field m (sphereOff m k + 12) 2
    dist.lt (num (r * r : Nat))

/-- Ten times the smallest margin of a pose. -/
def State.poseMargin (s : State) (e : Epoch) (m : List Byte) (p : Pose) : Num :=
  ((List.range p.centres.length).zip p.centres).foldl (fun a x => a.min (s.margin10 e m p.delta x.1 x.2)) (.inf false)

/-- No listed pair of links overlaps. -/
def selfClear (m : List Byte) (p : Pose) : Bool :=
  let base := sphereOff m (modelSpheres m)
  (List.range (modelPairs m)).all fun i => !linksMeet m p (field m (base + 4 * i) 1) (field m (base + 4 * i + 1) 1)

/-- The pose is clear. -/
def State.poseClear (s : State) (e : Epoch) (m : List Byte) (p : Pose) : Bool :=
  Num.le Num.zero (s.poseMargin e m p) && selfClear m p

/-- The bricks whose voxels a pose reads. -/
def State.poseBricks (s : State) (p : Pose) : List Nat := p.centres.filterMap fun c => match s.voxelOf c with
  | some (x, y, z) => s.brickAt x y z
  | none => none

/-- The pose reads a voxel in one of the bricks `dirty`. -/
def State.touches (s : State) (dirty : List Nat) (p : Pose) : Bool := (s.poseBricks p).any dirty.contains

/-- What ends a job that reads these bricks of an epoch: one of them, or the index tile that names it, is lost (R177). -/
def State.mapLoss (s : State) (e : Epoch) (bricks : List Nat) : Option (Nat × Nat) := bricks.eraseDups.findSome? fun b =>
  ((Tab.get? e.index b).toList ++ (e.tiles[b / 1024]?).toList).findSome? s.lossOf

/-- A margin in mm as FP32, from ten times its value. -/
def marginFp (free : Nat) (m10 : Num) : Nat := match m10 with
  | .fin a m e => toFp32 free (ratio (.fin a m e) (num 10) false)
  | n => toFp32 free n

/-- The cost of a path: Σ over segments of Σ over joints of w × |Δq|, exactly (R361). -/
def pathCost (m : List Byte) : List (List Nat) → Num
  | a :: b :: rest =>
    let seg := ((List.range (modelJoints m)).map fun j =>
      (fp (field m (16 + 48 * j + 40) 4)).mul ((fp (b.getD j 0)).add (fp (a.getD j 0)).minus).abs).foldl Num.add Num.zero
    seg.add (pathCost m (b :: rest))
  | _ => Num.zero

/-! ## Dispatch of a unit's operation (R310, R357 to R359, R365) -/

/-- The declared parameters lie within the table of R310. -/
def SieveOp.ok (o : SieveOp) : Bool :=
  let unit (b : Nat) : Bool := Num.le Num.zero (fp b) && Num.le (fp b) (num 1)
  decide (o.anchors ≤ 65536 ∧ 1 ≤ o.classes ∧ o.classes ≤ 1024 ∧ o.topk ≤ 65536 ∧ o.maxOut ≤ 1024 ∧ 1 ≤ o.ho ∧ o.ho ≤ 64 ∧ 1 ≤ o.wo ∧ o.wo ≤ 64
    ∧ 1 ≤ o.ratio ∧ o.ratio ≤ 4 ∧ 1 ≤ o.images ∧ o.images ≤ 16 ∧ o.image < o.images ∧ o.variant ≤ 3 ∧ o.channels ≤ 4096)
    && unit o.scoreMin && unit o.iouMax && (match o.soft with
      | some g => Num.zero.lt (fp g) && (fp g).isFin
      | none => true)

/-- What a declared planning run gets wrong. -/
def PlanRun.fault (p : PlanRun) (m : List Byte) : Option Nat :=
  if 3 < p.model ∨ m = [] ∨ 1 < p.method ∨ 1048576 < p.samples ∨ p.target = 0 ∨ 16 < p.target ∨ 64 < p.shortcuts ∨ p.waypoints < 2 ∨ 511 < p.waypoints
  then some 0x0A00
  else if ¬ withinLimits m p.start ∨ p.goals = [] ∨ 16 < p.goals.length
    ∨ p.goals.any (fun g => !withinLimits m g.1 || g.2.length != g.1.length || g.2.any (fun t => !Num.le Num.zero (fp t)))
  then some 0x0A01
  else none

/-- The model that an operation names. -/
def UnitOp.model : UnitOp → Option Nat
  | .run p => some p.model
  | .segments n _ => some n
  | _ => none

/-- A planner operation waits: the geometry group is PENDING (R365), or four runs are in progress (R364). -/
def State.planWaits (s : State) : UnitOp → Bool
  | .sieve _ => false
  | .run _ => s.groupPending 0x2901 || decide (4 ≤ s.u.plan.runs.length)
  | _ => s.groupPending 0x2901

/-- The run of job `j` latches the newest epoch and the model (R353, R359). -/
def latchRun (j : Nat) (p : PlanRun) : Act := .read fun s =>
  .plan fun x => { x with
    runs := Tab.set x.runs j { epoch := s.get Obj.EPOCH_NEWEST, model := s.model p.model } }

/-! ## The end of a run (R350, R363) -/

/-- The 12 bytes of an end-to-end header over a record (R324), with counter and data ID, before the rest of the record. -/
def e2eHeader (counter dataId : Nat) (rest : List Byte) : List Byte :=
  let head := le 2 (12 + rest.length) ++ le 2 (counter % 65536) ++ le 4 dataId
  head ++ le 4 (crc 4 (head ++ rest))

/-- The path record of a run (R363): `rank` and waypoints of the released candidate. -/
def State.pathRecord (s : State) (p : PlanRun) (x : PlanRunS) (reason checked ranked : Nat) (best : Option (Nat × List (List Nat))) (cost margin : Nat) : List Byte :=
  let way := (best.map (·.2)).getD []
  let rest := le 1 (if reason = 0 then St.DONE else St.NO_PATH) ++ le 1 reason ++ le 1 (modelJoints x.model) ++
    le 1 ((best.map (·.1)).getD 0xFF) ++ le 4 x.epoch ++ le 4 checked ++
    le 8 (if checked = 0 then 0 else (Tab.at s.u.plan.epochs checked {}).tov) ++ le 8 s.ns ++
    le 2 way.length ++ le 2 ranked ++ le 4 cost ++ le 4 margin ++ le 4 x.samples ++ le 4 x.nodes ++ le 4 0 ++
    way.flatMap (fun q => q.flatMap (le 4))
  e2eHeader (Tab.at s.u.plan.runNo p.model 0 + 1) (0x4D020000 + p.model) rest

/-- The road map of model `n` is discarded. -/
def dropRoad (n : Nat) : Act := all [
  .plan (fun y => { y with clearRoad := y.clearRoad.filter (· != n), roads := Tab.del y.roads n }), .put (Obj.ROADMAP_NODES n) 0]

/-- The run of job `j` is over: it holds no epoch, and a road map that was to be discarded is. -/
def runLeaves (j : Nat) (x : Job) : Act := .read fun s =>
  match Tab.get? s.u.plan.runs j, x.decl.op with
  | some _, some (.run p) => all [
      .plan (fun y => { y with runs := Tab.del y.runs j }),
      when (s.u.plan.clearRoad.contains p.model) (dropRoad p.model),
      reclaim 10]
  | _, _ => .skip

end Sys2Proof.Machine
end

