-- ==== Sys2Proof/Machine/Settle.lean ====
section
/-! DEFINITION. What a command leaves to be told once its own effect is done: ends of runs and jobs, triggers, causes, fields that
can power down. Every command that can bring one of them about ends with `settle`. -/

namespace Sys2Proof.Machine
open Act

/-- A job that completes has completed its collective (R478; log entry 167). -/
def collDone (x : Job) (status : Nat) : Act := match x.decl.coll with
  | some c => when (status == St.DONE || status == St.DONE_FLAGGED) (.count 64 (Obj.COLL_OPS c.group) 1)
  | none => .skip

/-- Tell what is left to tell, in rounds: one unit's answer can leave more. -/
def settleRounds : Nat → Act
  | 0 => .skip
  | fuel + 1 => .read fun s =>
    if s.u.tt.ended.isEmpty ∧ s.u.tt.endedJobs.isEmpty ∧ s.u.tt.engineFaults.isEmpty ∧ s.u.tt.dueTriggers.isEmpty ∧ s.u.safe.due.isEmpty then .skip
    else all [
      followRuns 300, raiseDue 64,
      .read fun s =>
        let jobs := s.u.tt.endedJobs
        let faults := s.u.tt.engineFaults
        all [
          .tt (fun t => { t with
            endedJobs := [], engineFaults := [] }),
          each jobs (fun e => releaseWalks e.1),
          each jobs (fun e => collDone e.2.1 e.2.2.1),
          each jobs (fun e => runLeaves e.1 e.2.1),
          each jobs (fun e => chunkEnded e.1 e.2.1 e.2.2.1 e.2.2.2),
          each faults (fun e => engineGone e.1 e.2)],
      settleRounds fuel]

/-! ## Groups of blocks that are stopped (R47) -/

/-- A collective of group `g` is in progress. -/
def State.collBusy (s : State) (g : Nat) : Bool :=
  s.u.tt.jobs.any fun e => e.2.phase != .ready && e.2.decl.coll.any (fun c => c.group == g)

/-- The context group applies (R194): jobs that are not running take the context's class, but for requests that run at class B. -/
def applyContext (c : Nat) : Act := all [
  groupTake (0x4000 + c),
  .read fun s =>
    let cls := s.get (Obj.CTX_CLASS c)
    .tt fun t => { t with
      runs := t.runs.map (fun e => (e.1, if e.2.ctx = c ∧ ¬ e.2.demoted then { e.2 with cls := cls } else e.2)) },
  .read fun s => .tt fun t => { t with
    jobs := t.jobs.map (fun e => (e.1, match Tab.get? s.u.tt.runs e.2.run with
      | some r => if e.2.ctx = c ∧ (e.2.phase = .ready ∨ e.2.phase = .paused) then { e.2 with cls := r.cls } else e.2
      | none => e.2)) },
  inherit]

/-- Group `c` is that of a context, a furrow, a stream, the map or a collective group, and its block is stopped or between two of its operations (R47, R194, R208,
R267, R365). -/
def State.idleGroup (s : State) (c : Nat) : Bool :=
  let i := c % 65536
  if i = 0x2581 ∨ i = 0x2D21 then s.get (Obj.FURROW_STATE (c / 65536)) != 2
  else if 0x4000 ≤ i ∧ i ≤ 0x4FFF then s.get (Obj.CTX_STATE (i - 0x4000)) == 0 || !s.u.tt.jobs.any (fun e => e.2.ctx == i - 0x4000)
  else if 0x5000 ≤ i ∧ i ≤ 0x5FFF then (s.stream (i - 0x5000)).chunk.isNone
  else if i = 0x2901 then s.u.plan.runs.isEmpty
  else if 0x2F60 ≤ i ∧ i ≤ 0x2F67 then !s.collBusy (i - 0x2F60)
  else false

/-- Such a group applies. -/
def applyIdle (c : Nat) : Act :=
  let i := c % 65536
  if i = 0x2581 ∨ i = 0x2D21 then applyFurrow c
  else if 0x4000 ≤ i ∧ i ≤ 0x4FFF then applyContext (i - 0x4000)
  else if 0x5000 ≤ i ∧ i ≤ 0x5FFF then applyStream (i - 0x5000)
  else if i = 0x2901 then applyMap
  else groupTake c

/-- The scratch tiles of replaced Dictation sets are freed. -/
def freeScratch : Act := .read fun s => each (s.u.tt.furrows.filter (fun e => e.2.oldScratch.isSome)) fun e => all [
  match e.2.oldScratch with
    | some (_, b, n) => freeRun b n
    | none => .skip,
  .furrow e.1 (fun x => { x with oldScratch := none })]

/-- PENDING groups whose block has stopped are applied, in the order of their commits (R47, R49). -/
def groupsFollow : Act := .read fun s =>
  each s.u.dict.pendingGroups fun c => .read fun s => when (s.groupPending c && s.idleGroup c) (applyIdle c)

/-- Tell everything that is left to tell. -/
def settle : Act := all [settleRounds 64, streamsFollow, fallowSettle, settleRounds 8, groupsFollow, freeScratch]

end Sys2Proof.Machine
end

