-- ==== Sys2Proof/Machine/TimeOps.lean ====
section
/-! DEFINITION. The time base, triggers, capture inputs and ingress stamps below their commands (R311 to R323). -/

namespace Sys2Proof.Machine
open Act

/-- Change the record of the time base. -/
def Act.clock (f : TimeS → TimeS) : Act := .units fun u => { u with time := f u.time }

/-! ## The time base (R311 to R314) -/

/-- The states of the time base. -/
abbrev Tb.FREE : Nat := 0
abbrev Tb.ACQUIRING : Nat := 1
abbrev Tb.LOCKED : Nat := 2
abbrev Tb.HOLDOVER : Nat := 3

/-- Device time steps by `offset` nanoseconds (R312). -/
def stepTime (offset : Int) : Act := .read fun s => all [
  .setTime ((Int.ofNat s.time + offset * 4294967296).toNat),
  .count 32 Obj.TB_STEPS 1,
  logEv Ev.TB_STEP 0xFFFF (ofSigned 64 offset) 0]

/-- The states in which device time can step. -/
def State.maySetTime (s : State) : Bool := s.dev == Dev.INIT || s.dev == Dev.PREOP || s.dev == Dev.SERVICE

/-- The rate in force: what discipline has learnt, and a slew within ±`SLEW_MAX_PPM` of it (R312). -/
def putRate (learnt slew : Int) : Act := .read fun s =>
  let top := Int.ofNat (s.get Obj.SLEW_MAX_PPM) * 1000
  all [.clock (fun x => { x with learnt := learnt }), .put Obj.TB_RATE_PPB (ofSigned 32 (learnt + max (-top) (min top slew)))]

/-- LOCKED gives way to HOLDOVER, at the rate learnt last (R314). -/
def holdover : Act := .read fun s => all [
  .put Obj.TB_STATE Tb.HOLDOVER, putRate s.u.time.learnt 0,
  .clock (fun x => { x with
    holdFrom := s.time, inRun := 0, outRun := 0 }),
  .count 32 Obj.TB_LOCK_LOSSES 1,
  logEv Ev.TB_HOLDOVER 0xFFFF (s.get Obj.TB_OFFSET_NS) 0]

/-- A comparison with the selected source: source time minus device time, the rate the discipline has learnt, and how fast it slews (R312, R313). -/
def discipline (offset learnt slew : Int) : Act := .read fun s =>
  let thr := Int.ofNat (s.get Obj.LOCK_THRESHOLD_NS)
  let mag := Int.ofNat offset.natAbs
  let st := s.get Obj.TB_STATE
  let inRun := if mag ≤ thr then s.u.time.inRun + 1 else 0
  let outRun := if 4 * thr < mag then s.u.time.outRun + 1 else 0
  let begins : Bool := st == Tb.FREE || st == Tb.HOLDOVER
  let inRun := if begins then (if mag ≤ thr then 1 else 0) else inRun
  all [
    .put Obj.TB_OFFSET_NS (ofSigned 64 offset), putRate learnt slew,
    when begins (.put Obj.TB_STATE Tb.ACQUIRING),
    if s.maySetTime ∧ Int.ofNat (s.get Obj.STEP_THRESHOLD_NS) < mag then
      all [stepTime offset, .clock fun x => { x with
        inRun := 0, outRun := 0 }]
    else all [
      .clock (fun x => { x with
        inRun := inRun, outRun := outRun }),
      .read fun s =>
        if s.get Obj.TB_STATE = Tb.ACQUIRING ∧ 16 ≤ inRun then all [.put Obj.TB_STATE Tb.LOCKED, .clock fun x => { x with outRun := 0 }]
        else if s.get Obj.TB_STATE = Tb.LOCKED ∧ 4 ≤ outRun then holdover
        else .skip]]

/-- The offset of a whole second at source from a stamp: only the fractional second is compared (R313). -/
def ppsOffset (ns : Nat) : Int :=
  let r := ns % 1000000000
  if r ≤ 500000000 then -(Int.ofNat r) else 1000000000 - Int.ofNat r

/-- `TB_SOURCE` takes value `v`: at 0 the time base runs free, at the rate of its reference (R311, R313; log entry 182). -/
def setSource (v : Nat) : Act := .read fun s => all [
  .put Obj.TB_SOURCE v,
  when (v == 0) (all [.put Obj.TB_STATE Tb.FREE, putRate 0 0]),
  when (v != s.get Obj.TB_SOURCE) (.clock fun x => { x with
    inRun := 0, outRun := 0 })]

/-! ## Triggers (R316 to R319) -/

/-- The record of trigger `n`. -/
def State.trig (s : State) (n : Nat) : TrigS := Tab.at s.u.time.trig n {}

/-- Change trigger `n`'s record. -/
def Act.trig (n : Nat) (f : TrigS → TrigS) : Act := .clock fun x => { x with trig := Tab.upd x.trig n {} f }

/-- The device state lets triggers run (R319). -/
def State.trigRuns (s : State) (n : Nat) : Bool :=
  s.dev == Dev.PREOP || s.dev == Dev.OP || (s.dev == Dev.HOLD && s.get (Obj.TRIG_SAFEHOLD n) == 0)

/-- Trigger `n` has pulses still to emit (R316): a width, count or period of 0 produces none. -/
def State.trigPending (s : State) (n : Nat) : Bool :=
  let x := s.trig n
  s.get (Obj.TRIG_WIDTH_NS n) != 0 && (match s.get (Obj.TRIG_MODE n) with
    | 1 => x.sent == 0
    | 2 => s.get (Obj.TRIG_PERIOD_NS n) != 0 && (s.get (Obj.TRIG_UNLIMITED n) != 0 || decide (x.sent < s.get (Obj.TRIG_COUNT n)))
    | _ => false)

/-- Trigger `n` is between pulses and has none to emit: its group applies at once (R318). -/
def State.trigIdle (s : State) (n : Nat) : Bool := !(s.trig n).high && (!s.trigPending n || !s.trigRuns n)

/-- The level of trigger `n` in a pulse, or idle (TRIG_POLARITY). -/
def State.trigLevel (s : State) (n : Nat) (active : Bool) : Bool := if s.get (Obj.TRIG_POLARITY n) = 0 then active else !active

/-- Trigger `n`'s group applies (R318); its idle level follows the polarity. -/
def applyTrigger (n : Nat) : Act := .read fun s0 => all [
  groupTake (0x2210 + n),
  .read fun s => when (!(s.trig n).high && s.get (Obj.TRIG_POLARITY n) != s0.get (Obj.TRIG_POLARITY n)) (.emit (.trigger n (s.trigLevel n false))),
  .read fun s =>
    let start := s.get (Obj.TRIG_START n)
    let period := s.get (Obj.TRIG_PERIOD_NS n)
    all [
      .trig n (fun x => { x with
        sent := 0, next := if start < s.ns ∧ period ≠ 0 then ceilDiv (s.ns - start) period else 0 }),
      .read fun s => when (s.get (Obj.TRIG_MODE n) == 1 && s.get (Obj.TRIG_WIDTH_NS n) != 0 && decide (start < s.ns))
        (all [.trig n (fun x => { x with sent := 1 }), .count 32 (Obj.TRIG_SKIPPED n) 1])]]

/-! ## Ingress stamps (R322, R323) -/

/-- The instant `(ns, frac)` plus a signed number of nanoseconds. -/
def shiftNs (t : Nat × Nat) (d : Int) : Nat × Nat := ((Int.ofNat t.1 + d).toNat, t.2)

/-- The stamp of a sample that arrives at ingress port `p` at `at'`: its ToV, and whether its link was missed. -/
def State.stamp (s : State) (p : Nat) (at' : Nat × Nat) : (Nat × Nat) × Bool :=
  let off := toSigned 32 (s.get (Obj.STAMP_OFFSET_NS p))
  let link := s.get (Obj.STAMP_LINK p)
  let window := s.get (Obj.STAMP_LINK_WINDOW_NS p)
  let near (e : Option (Nat × Nat)) : Option (Nat × Nat) := e.bind fun t =>
    if window ≠ 0 ∧ t.1 ≤ at'.1 ∧ at'.1 ≤ t.1 + window then some t else none
  let edge : Option (Nat × Nat) := match s.get (Obj.STAMP_RULE p) with
    | 1 => if link < 16 ∧ s.get (Obj.TRIG_PULSES link) ≠ 0 then near (some (s.get (Obj.TRIG_LAST_EDGE link), 0)) else none
    | 2 => if link < 16 then near (Tab.at s.u.time.cap link {}).last else none
    | _ => none
  match s.get (Obj.STAMP_RULE p), edge with
  | 0, _ => (shiftNs at' off, false)
  | _, some e => (shiftNs e off, false)
  | _, none => (shiftNs at' off, true)

/-- A frame or sample is stamped at port `p`. -/
def countStamp (p : Nat) (missed : Bool) : Act := all [.count 64 (Obj.ARRIVALS p) 1, when missed (.count 32 (Obj.LINK_MISSES p) 1)]

end Sys2Proof.Machine
end

