-- ==== Sys2Proof/Machine/FusionOps.lean ====
section
/-! DEFINITION. The fusion engine below its commands: gates, conflicts, estimates, publication, late samples (R324 to R340). -/

namespace Sys2Proof.Machine
open Act

/-- Change the fusion engine's record. -/
def Act.fus (f : FusS → FusS) : Act := .units fun u => { u with fus := f u.fus }

/-- The record of filter `n`. -/
def State.filter (s : State) (n : Nat) : FilterS := Tab.at s.u.fus.filters n {}

/-- Change filter `n`'s record. -/
def Act.filter (n : Nat) (f : FilterS → FilterS) : Act := .fus fun x => { x with filters := Tab.upd x.filters n {} f }

/-- The record of output `n`. -/
def State.outRec (s : State) (n : Nat) : OutS := Tab.at s.u.fus.outs n {}

/-- Change output `n`'s record. -/
def Act.outRec (n : Nat) (f : OutS → OutS) : Act := .fus fun x => { x with outs := Tab.upd x.outs n {} f }

/-- Filter `n` is started. -/
def State.filterOn (s : State) (n : Nat) : Bool := s.get (Obj.FILTER_STATE n) != 0

/-! ## Groups -/

/-- The control blocks of a filter, a source and an output. -/
abbrev filterCtl (n : Nat) : Nat := 0x2810 + n
abbrev sourceCtl (n : Nat) : Nat := 0x2840 + n
abbrev outputCtl (n : Nat) : Nat := 0x2880 + n

/-! ## Filters (R328 to R331) -/

/-- Element `i` of a filter's `MODEL_DATA`. -/
def State.modelElt (s : State) (n i : Nat) : Nat := ofLe (((Tab.at s.u.dict.blobs (Obj.FILTER_MODEL_DATA n) []).drop (4 * i)).take 4)

/-- `a` comes after `b` in the order of ToV. -/
def laterTov (a b : Nat × Nat) : Bool := decide (b.1 < a.1 ∨ (b.1 = a.1 ∧ b.2 < a.2))

/-- The estimate that `MODEL_DATA` gives filter `n` at a ToV: x0, and the squares of the standard deviations (R329). -/
def State.initEst (s : State) (n : Nat) (tov : Nat × Nat) (held : List Nat) : Est :=
  let d := s.get (Obj.STATE_DIM n)
  { x := (List.range d).map (s.modelElt n)
    p := (List.range d).flatMap (fun i => (List.range d).map fun j =>
      if i = j then (let g := fp (s.modelElt n (d + i)); toFp32 0 (mul32 g g)) else 0)
    held := held, tov := tov.1, frac := tov.2 }

/-- Group `c` is that of a filter that is stopped, of a source that feeds none or of an output of none (R47, R342). -/
def State.fusionIdle (s : State) (c : Nat) : Bool :=
  if 0x2810 ≤ c ∧ c ≤ 0x2817 then !s.filterOn (c - 0x2810)
  else if 0x2840 ≤ c ∧ c ≤ 0x287F then s.get (Obj.SRC_KIND (c - 0x2840)) == 0 || !s.filterOn (s.get (Obj.SRC_FILTER (c - 0x2840)))
  else if 0x2880 ≤ c ∧ c ≤ 0x28BF then decide (8 ≤ s.get (Obj.OUT_FILTER (c - 0x2880))) || !s.filterOn (s.get (Obj.OUT_FILTER (c - 0x2880)))
  else false

/-- PENDING groups of what is stopped are applied (R47). -/
def fusionFollow : Act := .read fun s => each s.u.dict.pendingGroups fun c => .read fun s => when (s.fusionIdle c) (takeIfPending c)

/-- Filter `n` stops: it publishes nothing until it is started again (R340). -/
def stopFilter (n : Nat) : Act := all [
  .put (Obj.FILTER_STATE n) 0, .put (Obj.HISTORY_SPAN_MS n) 0,
  .filter n (fun f => { f with
    queue := [], hist := [], base := {}, last := none }),
  fusionFollow]

/-- Every filter stops. -/
def stopFilters : Act := .read fun s => each ((List.range 8).filter s.filterOn) stopFilter

/-- A state is not finite, or a covariance diagonal element is not finite and positive (R331). -/
def Est.diverges (e : Est) : Bool :=
  e.x.any (fun b => !(fp b).isFin) || (List.range e.x.length).any (fun i => let v := fp (e.p.getD (i * (e.x.length + 1)) 0); !(v.isFin && Num.zero.lt v))

/-! ## Matrices in FP32 (R328): a sum of products is added in the order of its index (log entry 181) -/

/-- A matrix by rows. -/
abbrev Mat : Type := List (List Num)

/-- The product of two vectors, every operation rounded. -/
def inner32 (a b : List Num) : Num := (List.zipWith mul32 a b).foldl add32 Num.zero

/-- A matrix times a vector. -/
def matVec (a : Mat) (v : List Num) : List Num := a.map (inner32 · v)

/-- A matrix times the transpose of another. -/
def matMulT (a b : Mat) : Mat := a.map (matVec b)

/-- The transpose of a matrix of `cols` columns. -/
def flipMat (cols : Nat) (a : Mat) : Mat := (List.range cols).map fun j => a.map (·.getD j Num.zero)

/-- Elementwise. -/
def matWith (f : Num → Num → Num) (a b : Mat) : Mat := List.zipWith (List.zipWith f) a b

/-- The unit matrix. -/
def unitMat (d : Nat) : Mat := (List.range d).map fun i => (List.range d).map fun j => if i = j then num 1 else Num.zero

/-- The rows of `d` elements that a list holds. -/
def rowsOf (d : Nat) (xs : List Num) : Mat := (List.range (xs.length / max 1 d)).map fun i => (xs.drop (d * i)).take d

/-- The inverse, by elimination in the order of the rows (log entry 181). -/
def invert (a : Mat) : Mat :=
  let n := a.length
  let step (m : Mat) (k : Nat) : Mat :=
    let lead := (m.getD k []).map (div32 · ((m.getD k []).getD k Num.zero))
    (List.range n).map fun i =>
      if i = k then lead else List.zipWith (fun u v => sub32 u (mul32 ((m.getD i []).getD k Num.zero) v)) (m.getD i []) lead
  ((List.range n).foldl step (List.zipWith (· ++ ·) a (unitMat n))).map (·.drop n)

/-! ## Propagation and update (R328, R330) -/

/-- A part of a model's motion that the spec does not state, as an FP32 value. -/
def motion (args : List Nat) : Num := fp (Config.motion args).toNat

/-- The states of a model that are its own: the others are auxiliary (R328). -/
def ownStates (model d : Nat) : Nat := min d (match model with
  | 1 => 15
  | 2 => 5
  | _ => 0)

/-- The transition of filter `n`'s states over `dt` (in 2^-16 ns) from estimate `e`, with propagation input `u`: of its own states by its dynamics, of the others by what
`MODEL_DATA` gives; auxiliary states for which it gives nothing are random walks (R328, R329). -/
def State.transition (s : State) (n dt : Nat) (u : List Nat) (e : Est) : Mat :=
  let d := s.get (Obj.STATE_DIM n)
  let model := s.get (Obj.FILTER_MODEL n)
  let own := ownStates model d
  let rest := d - own
  let given := (List.range (rest * rest)).map fun i => s.modelElt n (3 * d + i)
  (List.range d).map fun i => (List.range d).map fun j =>
    if i < own ∧ j < own then motion ([1, i, j, model, dt] ++ e.x.take own ++ e.held ++ u)
    else if i < own ∨ j < own then Num.zero
    else if own ≠ 0 ∧ (Tab.at s.u.dict.blobs (Obj.FILTER_MODEL_DATA n) []).length ≤ 12 * d then (if i = j then num 1 else Num.zero)
    else motion ([2, i - own, j - own, rest, dt] ++ given)

/-- Estimate `e` of filter `n` propagated to a ToV (R330): x by the model, P to Φ P Φᵀ and what the noise densities add over the interval. -/
def State.propagated (s : State) (n : Nat) (tov : Nat × Nat) (u : List Nat) (e : Est) : Est :=
  let dt := (tov.1 * 65536 + tov.2) - (e.tov * 65536 + e.frac)
  if dt = 0 then e
  else
    let d := s.get (Obj.STATE_DIM n)
    let model := s.get (Obj.FILTER_MODEL n)
    let own := ownStates model d
    let phi := s.transition n dt u e
    let x := e.x.map fp
    let noise := (List.range d).map fun i => (List.range d).map fun j => if i = j then motion [3, i, model, dt, s.modelElt n (2 * d + i)] else Num.zero
    let p := matWith add32 (matMulT (matMulT phi (flipMat d (rowsOf d (e.p.map fp)))) phi) noise
    { e with
      x := (List.range d).map fun i => toFp32 0 (
        if i < own then motion ([0, i, model, dt] ++ e.x.take own ++ e.held ++ u) else inner32 (phi.getD i []) x)
      p := p.flatten.map (toFp32 0), tov := tov.1, frac := tov.2 }

/-- The dimension of a measurement kind in a model (R328); none where the kind has no fixed one. -/
def measDim (model kind : Nat) : Option Nat := match kind with
  | 1 | 2 => some 3
  | 3 => some (if model = 2 then 1 else 3)
  | 4 => some 1
  | 5 => some 2
  | 6 => some (if model = 2 then 3 else 6)
  | 8 => some 6
  | _ => none

/-- The innovation of a measurement of source `i` against estimate `e`, and the rows of H; `past` is the estimate stored at the earlier ToV of a delta pose. A position of
model 1, a speed or a yaw rate of model 2 and a linear measurement are differences from states; the others depend on a geometry (log entry 181). -/
def State.observed (s : State) (n i : Nat) (m : Meas) (e past : Est) : List Num × Mat :=
  let d := s.get (Obj.STATE_DIM n)
  let model := s.get (Obj.FILTER_MODEL n)
  let kind := s.get (Obj.SRC_MEAS_KIND i)
  let linear (h : Mat) : List Num × Mat := (List.zipWith (fun z r => sub32 (fp z) (inner32 r (e.x.map fp))) m.vals h, h)
  let rows (ks : List Nat) : Mat := ks.map fun k => (List.range d).map fun j => if j = k then num 1 else Num.zero
  if m.vals = [] then ([], [])
  else if kind = 7 then linear (rowsOf d (m.h.map fp))
  else if kind = 1 ∧ model = 1 then linear (rows [6, 7, 8])
  else if kind = 3 ∧ model = 2 then linear (rows [3])
  else if kind = 4 ∧ model = 2 then linear (rows [4])
  else
    let dim := (measDim model kind).getD 0
    ((List.range dim).map (fun k => motion ([4, k, kind, model] ++ m.vals ++ e.x ++ past.x)),
      (List.range dim).map (fun k => (List.range d).map fun j => motion ([5, k, j, kind, model] ++ e.x ++ past.x)))

/-- The measurement's elements that source `n` gives its noise for. -/
def State.sigma2 (s : State) (n i : Nat) : Num := let g := fp (s.get (Obj.SRC_SIGMA n i)); mul32 g g

/-- Estimate `e` updated by an innovation and its rows of H, the covariance in the Joseph form and made symmetric (R328); and the innovation's own d² (R333). -/
def State.updated (s : State) (n i : Nat) (e : Est) (nu : List Num) (h : Mat) : Est × Num :=
  let d := s.get (Obj.STATE_DIM n)
  let m := nu.length
  let p := rowsOf d (e.p.map fp)
  let noise := (List.range m).map fun a => (List.range m).map fun b => if a = b then s.sigma2 i a else Num.zero
  let ph := matMulT p h
  let inv := invert (matWith add32 (matMulT h (flipMat m ph)) noise)
  let k := matMulT ph (flipMat m inv)
  let x := List.zipWith add32 (e.x.map fp) (matVec k nu)
  let a := matWith sub32 (unitMat d) (matMulT k (flipMat d h))
  let joseph := matWith add32 (matMulT (matMulT a (flipMat d p)) a) (matMulT (matMulT k (flipMat m noise)) k)
  let even := matWith (fun u v => mul32 (add32 u v) (.fin false 1 (-1))) joseph (flipMat d joseph)
  ({ e with x := x.map (toFp32 0), p := even.flatten.map (toFp32 0) }, inner32 nu (matVec inv nu))

/-! ## Events (R330, R338) -/

/-- The state stored last at or before a ToV in a history, newest first; `base` is the one before all of it. -/
def storedAt (h : List FusEvent) (base : Est) (t : Nat × Nat) : Est :=
  match h.find? (fun v => !laterTov (v.tov, v.frac) t) with
  | some v => v.est
  | none => base

/-- Event `v` runs after the events of history `h`: propagation to its ToV, and the update where it is fused; an estimate that diverges is reset (R331). Also the own d² of
its innovation. -/
def State.ran (s : State) (n : Nat) (h : List FusEvent) (base : Est) (v : FusEvent) : FusEvent × Num :=
  let e0 := match h with
    | w :: _ => w.est
    | [] => base
  let e1 := s.propagated n (v.tov, v.frac) (if v.group = 64 then v.m.vals else []) e0
  let (nu, e2, d2) : List Num × Est × Num :=
    if v.group = 64 then ([], { e1 with held := if v.m.vals = [] then e1.held else v.m.vals }, Num.zero)
    else
      let o := s.observed n v.src v.m e1 (storedAt h base (v.m.earlier, 0))
      let u := s.updated n v.src e1 o.1 o.2
      (o.1, if v.fused then u.1 else e1, u.2)
  let gone := v.src != 65 && e2.diverges
  ({ v with
      nu := nu.map (toFp32 0), isReset := gone
      est := if gone ∨ v.src = 65 then s.initEst n (v.tov, v.frac) e2.held else e2 }, d2)

/-- The events run in order after the history so far, newest first. -/
def State.runEvents (s : State) (n : Nat) (base : Est) : List FusEvent → List FusEvent → List FusEvent
  | done, [] => done
  | done, v :: vs => s.runEvents n base ((s.ran n done base v).1 :: done) vs

/-- Filter `n`'s estimate at a ToV. -/
def State.estAt (s : State) (n : Nat) (t : Nat × Nat) : Est := s.propagated n t [] (storedAt (s.filter n).hist (s.filter n).base t)

/-- The history keeps 8,192 events; `HISTORY_SPAN_MS` follows (R338). -/
def keepHist (n : Nat) (h : List FusEvent) : Act :=
  let kept := h.take 8192
  let hi := kept.foldl (fun m e => max m e.tov) 0
  let lo := kept.foldl (fun m e => min m e.tov) hi
  all [.filter n (fun f => { f with
      hist := kept, base := match h.drop 8192 with
        | v :: _ => v.est
        | [] => f.base }),
    .put (Obj.HISTORY_SPAN_MS n) (min 65535 ((hi - lo) / 1000000))]

/-- History `h`, whose `k` newest events ran just now, stands: operations are counted, resets logged, and `FILTER_STATE` follows the newest update or reset (R331). -/
def commitRun (n : Nat) (h : List FusEvent) (k : Nat) : Act :=
  let new := h.take k
  all [
    keepHist n h,
    .count 64 Obj.FUSION_OPS (new.length + (new.filter (·.fused)).length),
    match new.find? (fun v => v.isReset || v.fused || v.src == 65) with
      | some v => .put (Obj.FILTER_STATE n) (if v.isReset ∨ v.src = 65 then 3 else 2)
      | none => .skip,
    each (new.reverse.filter (·.isReset)) fun v => all [.count 32 (Obj.DIVERGENCES n) 1, logEv Ev.FILTER_DIVERGED n v.tov 0]]

/-- Event `c` takes its place by its ToV, and every event after it runs again (R338). -/
def place (n : Nat) (c : FusEvent) : Act := .read fun s =>
  let f := s.filter n
  let after := f.hist.takeWhile fun v => laterTov (v.tov, v.frac) (c.tov, c.frac)
  all [
    commitRun n (s.runEvents n f.base (f.hist.drop after.length) (c :: after.reverse)) (after.length + 1),
    .filter n (fun f => { f with last := some (max c.tov (f.last.getD 0)) })]

/-! ## The gate (R332, R333) -/

/-- d² of two contributions: diagonal covariances, element by element in order. -/
def State.gateD2 (s : State) (a b : FusEvent) : Num :=
  ((List.range (min a.nu.length b.nu.length)).foldl (fun acc i =>
    let d := sub32 (fp (a.nu.getD i 0)) (fp (b.nu.getD i 0))
    add32 acc (div32 (mul32 d d) (add32 (s.sigma2 a.src i) (s.sigma2 b.src i)))) Num.zero)

/-- The pair fails: both sources are gated, and d² exceeds the smaller threshold. -/
def State.pairFails (s : State) (a b : FusEvent) : Bool :=
  s.get (Obj.SRC_GATE_EN a.src) != 0 && s.get (Obj.SRC_GATE_EN b.src) != 0 &&
    ((fp (s.get (Obj.SRC_GATE_CHI2 a.src))).min (fp (s.get (Obj.SRC_GATE_CHI2 b.src)))).lt (s.gateD2 a b)

/-- The gate set of contribution `c` in history `h`: it and the latest contribution of every other source of its group within the window before it. -/
def State.gateSet (s : State) (n : Nat) (h : List FusEvent) (c : FusEvent) : List FusEvent :=
  let w := s.get (Obj.GATE_WINDOW_NS n)
  let near := h.filter (fun e => e.group == c.group && e.src != c.src && decide (e.tov ≤ c.tov ∧ c.tov ≤ e.tov + w))
  let srcs := (near.map (·.src)).eraseDups
  if w = 0 then [c]
  else c :: srcs.filterMap (fun r => (near.filter (fun e => e.src == r)).foldl (fun (m : Option FusEvent) e => match m with
    | none => some e
    | some o => if o.tov < e.tov then some e else m) none)

/-- How a gate set decides on contribution `c`. -/
inductive Verdict where
  | pass | outlier | conflict
  deriving DecidableEq, Repr

/-- The verdict (R333). -/
def State.verdict (s : State) (set : List FusEvent) (c : FusEvent) : Verdict :=
  let fails (e : FusEvent) : Nat := (set.filter (fun o => o.src != e.src && s.pairFails e o)).length
  let out (e : FusEvent) : Bool := decide (set.length - 1 < 2 * fails e)
  if set.length = 2 then (if 0 < fails c then .conflict else .pass)
  else if 3 ≤ set.length then (if set.all out then .conflict else if out c then .outlier else .pass)
  else .pass

/-- The mask of the sources of a set. -/
def srcMask (set : List FusEvent) : Nat := (set.map (·.src)).eraseDups.foldl (fun m i => setBit m i) 0

/-- Source `i` is in conflict. -/
def State.inConflict (s : State) (i : Nat) : Bool := bit (s.get Obj.CONFLICT_NOW) i

/-! ## Publication (R335 to R337) -/

/-- Element `k` of output `o`: a state index, 255 unused. -/
def State.outElement (s : State) (o k : Nat) : Nat := s.get (Obj.OUT_ELEMENTS o + k / 8) / 256 ^ (k % 8) % 256

/-- The measuring sources of filter `n`. -/
def State.filterSources (s : State) (n : Nat) : List Nat :=
  (List.range 64).filter (fun i => s.get (Obj.SRC_KIND i) != 0 && s.get (Obj.SRC_FILTER i) == n && i != s.get (Obj.PROPAGATE_SOURCE n))

/-- `AGE_NS` at ToV `tov` (R336): over the groups of the filter's sources, the oldest of the latest fused contributions; a group without one counts from the start. -/
def State.age (s : State) (n tov : Nat) : Nat :=
  let f := s.filter n
  let groups := ((s.filterSources n).map (fun i => s.get (Obj.SRC_GROUP i))).eraseDups
  let latest (g : Nat) : Nat := (f.hist.filter (fun e => e.group == g && e.fused && decide (e.tov ≤ tov))).foldl (fun m e => max m e.tov) f.started
  min 0xFFFFFFFF ((groups.map (fun g => tov - latest g)).foldl max 0)

/-- STALE_INPUT (R336). -/
def State.stale (s : State) (o tov : Nat) : Bool :=
  let w := s.get (Obj.OUT_STALE_NS o)
  w != 0 && (List.range 64).any (fun i => bit (s.get (Obj.OUT_REQUIRED o)) i &&
    !((s.filter (s.get (Obj.OUT_FILTER o))).hist.any (fun e => e.src == i && e.fused && decide (e.tov ≤ tov ∧ tov ≤ e.tov + w))))

/-- The 256 bytes of a fused output record, with its completion flags. -/
def State.fusedRecord (s : State) (o tov frac revision seq : Nat) (revised : Bool) (e : Est) : List Byte :=
  let n := s.get (Obj.OUT_FILTER o)
  let r := s.outRec o
  let conflict := (s.filterSources n).foldl (fun m i => if s.inConflict i then setBit m i else m) 0
  let flags := (if revised then Fl.REVISED else 0) + (if conflict ≠ 0 then Fl.CONFLICT else 0) + (if s.stale o tov then Fl.STALE_INPUT else 0)
  let used := (List.range 16).filter (fun k => s.outElement o k != 255)
  let cell (xs : List Nat) (k : Nat) : List Byte := le 4 (if s.outElement o k = 255 then 0 else xs.getD (s.outElement o k) 0)
  let sd := (List.range e.x.length).map (fun i => toFp32 0 (sqrt32 (fp (e.p.getD (i * (e.x.length + 1)) 0))))
  e2eHeader seq (s.get (Obj.OUT_DATA_ID o)) (
    le 2 o ++ le 2 flags ++ le 8 tov ++ le 2 frac ++ le 2 revision ++ le 4 (s.age n tov) ++ le 8 s.ns ++
    le 8 r.contrib ++ le 8 r.excluded ++ le 8 conflict ++ le 1 (s.get (Obj.FILTER_STATE n)) ++ le 1 used.length ++ le 2 0 ++ le 4 seq ++
    ((List.range 16).map (cell e.x)).flatten ++ ((List.range 16).map (cell sd)).flatten ++ le 56 0)

/-- Output `o` publishes estimate `e` of its filter at ToV (`tov`, `frac`); a record whose CRC is found wrong is discarded (R408). -/
def publish (o tov frac revision : Nat) (revised : Bool) (e : Est) (crcBad : Bool) : Act := .read fun s =>
  let seq := (s.get (Obj.OUT_PUBLISHED o) + 1) % 4294967296
  let bs := s.fusedRecord o tov frac revision seq revised e
  let a := s.get (Obj.OUT_HOST_BASE o) + seq % 256 * 256
  all [
    .count 64 Obj.FUSION_OPS 1, e2eChecked,
    if crcBad then e2eFailed (s.get (Obj.OUT_DATA_ID o) % 65536) (seq % 65536) 0
    else all [
      .count 64 (Obj.OUT_PUBLISHED o) 1,
      when revised (.count 32 (Obj.OUT_REVISIONS o) 1),
      each (List.range 32) (fun i => .put (Obj.OUT_LATEST o i) (ofLe ((bs.drop (8 * i)).take 8))),
      .outRec o (fun r => { r with
        contrib := 0, excluded := 0
        pubs := ((tov, frac, revision) :: r.pubs.filter (fun p => decide (p.1 ≠ tov))).take 8192 }),
      when (s.get (Obj.OUT_HOST_EN o) != 0) (all [
        when s.hostReachable (all [.emit (.hostWrite (a + 12) (bs.drop 12)), .emit (.hostWrite a (bs.take 12))]),
        when (s.get (Obj.OUT_MSIX_EN o) != 0) (msixRaise (s.get (Obj.OUT_MSIX_VECTOR o)))]),
      deliver 4 o tov frac revised]]

/-- The outputs of filter `n`. -/
def State.outputsOf (s : State) (n : Nat) : List Nat := (List.range 64).filter (fun o => s.get (Obj.OUT_FILTER o) == n)

/-- The two results that a re-run from ToV `tov` publishes again for each output: the earliest at or after it, and the newest (R338). -/
def republish (n tov : Nat) : Act := .read fun s =>
  each (s.outputsOf n) fun o =>
    let later := (s.outRec o).pubs.filter (fun p => decide (tov ≤ p.1))
    let first := later.foldl (fun (m : Option (Nat × Nat × Nat)) p => match m with
      | none => some p
      | some q => if p.1 < q.1 then some p else m) none
    let newest := later.foldl (fun (m : Option (Nat × Nat × Nat)) p => match m with
      | none => some p
      | some q => if q.1 < p.1 then some p else m) none
    let again (p : Nat × Nat × Nat) : Act := .read fun s => publish o p.1 p.2.1 (p.2.2 + 1) true (s.estAt n (p.1, p.2.1)) false
    match first, newest with
    | some a, some b => if a.1 = b.1 then again a else all [again a, again b]
    | _, _ => .skip

/-! ## One contribution (R332 to R334) -/

/-- The sources `mask` begin to be in conflict in group `g` of filter `n`: counted and logged once (R334). -/
def beginConflict (n g mask : Nat) : Act := .read fun s =>
  let old := s.get Obj.CONFLICT_NOW
  when (old ||| mask != old) (all [
    .put Obj.CONFLICT_NOW (old ||| mask),
    each ((List.range 64).filter (fun i => bit mask i && !bit old i)) (fun i => .count 32 (Obj.SRC_CONFLICTS i) 1),
    logEv Ev.SOURCE_CONFLICT n mask g])

/-- Contributions of `set` that were fused and lie inside the retrodiction window are taken out again by a re-run (R334). -/
def retract (n : Nat) (set : List FusEvent) : Act := .read fun s =>
  let f := s.filter n
  let lim := s.get (Obj.RETRO_WINDOW_MS n) * 1000000
  let gone (e : FusEvent) : Bool := e.fused && decide (f.last.getD 0 ≤ e.tov + lim) && set.any (fun o => o.src == e.src && o.tov == e.tov && o.frac == e.frac)
  let out := f.hist.filter gone
  let oldest := out.foldl (fun m e => min m e.tov) (f.last.getD 0)
  let again := f.hist.takeWhile fun v => decide (oldest ≤ v.tov)
  when (!out.isEmpty) (all [
    commitRun n (s.runEvents n f.base (f.hist.drop again.length) (again.reverse.map fun e => if gone e then { e with fused := false } else e)) again.length,
    .count 32 (Obj.RETRODICTIONS n) 1,
    republish n oldest])

/-- The outputs of filter `n` note a source that contributed, or that was excluded. -/
def noteOut (n src : Nat) (fused : Bool) : Act := .read fun s =>
  each (s.outputsOf n) fun o => .outRec o fun r =>
    if fused then { r with contrib := setBit r.contrib src } else { r with excluded := setBit r.excluded src }

/-- Contribution `c` of filter `n` is gated by its innovation: it is fused, excluded, or in conflict; it joins the history. -/
def contribute (n : Nat) (c : FusEvent) : Act := .read fun s =>
  let f := s.filter n
  let before := f.hist.dropWhile fun v => laterTov (v.tov, v.frac) (c.tov, c.frac)
  let tried := s.ran n before f.base { c with fused := true }
  let c := { c with nu := tried.1.nu, fused := false }
  let set := s.gateSet n f.hist c
  let v := s.verdict set c
  let fuse : Act := all [
    place n { c with fused := true }, noteOut n c.src true,
    .count 64 (Obj.SRC_FUSED c.src) 1, .modify (Obj.SRC_LAST_TOV c.src) (fun _ => c.tov),
    .count 64 (Obj.UPDATES n) 1]
  match v with
  | .outlier => all [place n c, .count 32 (Obj.SRC_EXCLUDED c.src) 1, noteOut n c.src false]
  | .conflict => all [beginConflict n c.group (srcMask set), place n c, retract n set]
  | .pass =>
    -- a conflict ends at the first set in which its sources pass against each other
    let foes := set.filter (fun e => s.inConflict e.src)
    let settled : Bool := decide (2 ≤ foes.length) && foes.all (fun a => foes.all (fun b => a.src == b.src || !s.pairFails a b))
    all [
      when settled (.modify Obj.CONFLICT_NOW (fun m => foes.foldl (fun m e => clearBit m e.src) m)),
      .read fun s =>
        if s.inConflict c.src then place n c
        else if s.get (Obj.SRC_INNOV_GATE_EN c.src) ≠ 0 ∧ (fp (s.get (Obj.SRC_GATE_CHI2 c.src))).lt tried.2 then
          all [place n c, .count 32 (Obj.SRC_INNOV_REJECTS c.src) 1, noteOut n c.src false]
        else fuse]

/-! ## Arrivals (R326, R327, R330, R338) -/

/-- The values that the payload of a measurement kind holds: an attitude as a quaternion, a linear measurement with its rows of H (R328, R341). -/
def State.measFits (s : State) (i : Nat) (m : Meas) : Bool :=
  let n := s.get (Obj.SRC_FILTER i)
  match s.get (Obj.SRC_MEAS_KIND i) with
  | 2 => m.vals.length == 4
  | 7 => decide (1 ≤ m.vals.length ∧ m.vals.length ≤ 6) && m.h.length == m.vals.length * s.get (Obj.STATE_DIM n)
  | k => measDim (s.get (Obj.FILTER_MODEL n)) k == some m.vals.length

/-- Source `i` feeds a filter that is started, in a state in which filters run (R340). -/
def State.feeds (s : State) (i : Nat) : Bool :=
  s.get (Obj.SRC_KIND i) != 0 && s.filterOn (s.get (Obj.SRC_FILTER i)) && (s.dev == Dev.OP || s.dev == Dev.HOLD)

/-- Why a header fails its check: 0 its CRC, 1 a repeat, 2 a step beyond `SRC_MAX_DELTA` (R327, R534). -/
def headerFault (last : Option Nat) (counter maxDelta : Nat) (ok : Bool) : Option Nat :=
  if ¬ ok then some 0
  else match last with
    | none => none
    | some l =>
      let step := (counter + 65536 - l % 65536) % 65536
      if step = 0 then some 1 else if maxDelta < step then some 2 else none

/-- The event that a measurement of source `i` is: a propagation sample, or a contribution to its group. -/
def State.eventOf (s : State) (i tov frac : Nat) (m : Meas) : FusEvent :=
  let n := s.get (Obj.SRC_FILTER i)
  { src := i, group := if i = s.get (Obj.PROPAGATE_SOURCE n) ∨ s.get (Obj.SRC_MEAS_KIND i) = 8 then 64 else s.get (Obj.SRC_GROUP i), tov := tov, frac := frac, m := m }

/-- An event of source `i` of filter `n` is processed. -/
def process (n : Nat) (v : FusEvent) : Act :=
  if v.group = 64 then all [place n v, .put (Obj.SRC_LAST_TOV v.src) v.tov, .count 64 (Obj.SRC_FUSED v.src) 1] else contribute n v

/-- A checked sample of source `i` joins its filter's inputs, or, late, re-runs it. -/
def accept (i tov frac : Nat) (m : Meas) : Act := .read fun s =>
  let n := s.get (Obj.SRC_FILTER i)
  let f := s.filter n
  let oldest := f.hist.foldl (fun o e => min o e.tov) (f.last.getD 0)
  let wait : Act := .filter n fun y => { y with
    queue := sortBy (fun a b => !laterTov (a.tov, a.frac) (b.tov, b.frac)) (y.queue ++ [{ src := i, tov := tov, frac := frac, m := m }]) }
  match f.last with
  | some l =>
    if l ≤ tov then wait
    else if l ≤ tov + s.get (Obj.RETRO_WINDOW_MS n) * 1000000 ∧ s.get (Obj.RETRO_WINDOW_MS n) ≠ 0 ∧ oldest ≤ tov
      ∧ (s.get (Obj.SRC_MEAS_KIND i) ≠ 6 ∨ oldest ≤ m.earlier) then all [
        .count 32 (Obj.RETRODICTIONS n) 1, .count 32 (Obj.SRC_LATE_REVISED i) 1,
        process n (s.eventOf i tov frac m),
        republish n tov]
    else .count 32 (Obj.SRC_LATE_DROPPED i) 1
  | none => wait

/-- The sensor's own header at the beginning of a payload, in its profile's byte order (R326): the counter, the data ID, whether its CRC holds. -/
def sensorHeader (payload : List Byte) : Nat × Nat × Bool :=
  let be (i n : Nat) : Nat := ofLe ((payload.drop i).take n).reverse
  (be 2 2, be 4 4, decide (12 ≤ payload.length) && be 8 4 == crc 4 (payload.take 8 ++ payload.drop 12))

/-- A sample of source `i` is checked (R327), by its header's counter and CRC and by the sensor's own header where one is declared, and accepted or discarded. -/
def arrive (i counter : Nat) (ok : Bool) (payload : List Byte) (tov frac : Nat) (m : Meas) : Act := .read fun s =>
  let delta := s.get (Obj.SRC_MAX_DELTA i)
  let outer := (headerFault (Tab.get? s.u.fus.counters i) counter delta ok).map fun w => (counter, w)
  let sensor := sensorHeader payload
  let wrapped : Bool := s.get (Obj.SRC_E2E_MODE i) != 0
  let inner := if wrapped then
      (headerFault (Tab.get? s.u.fus.sensors i) sensor.1 delta (sensor.2.2 && sensor.2.1 == s.get (Obj.SRC_SENSOR_DATA_ID i))).map fun w => (sensor.1, w)
    else none
  all [
    .count 64 (Obj.SRC_SAMPLES i) 1, e2eChecked,
    when ok (.fus fun y => { y with counters := Tab.set y.counters i (counter % 65536) }),
    when (wrapped && sensor.2.2) (.fus fun y => { y with sensors := Tab.set y.sensors i sensor.1 }),
    match outer.or inner with
      | some (c, w) => all [.count 32 (Obj.SRC_E2E_FAILS i) 1, e2eFailed i c w]
      | none => accept i tov frac m]

/-- A measurement whose header the device makes itself (R323, R324). -/
def own (i tov frac : Nat) (m : Meas) : Act := .read fun s =>
  let c := Tab.at s.u.fus.made i 0
  all [.fus (fun y => { y with made := Tab.set y.made i ((c + 1) % 65536) }),
    arrive i c true [] tov frac m]

end Sys2Proof.Machine
end

