-- ==== Sys2Proof/WellFormed.lean ====
section
/-! DEFINITION. Which commands name units that exist (R10) and operands that their rows can carry. A command that is
not well-formed cannot reach the module: its meaning stops with `Fault.noSuchUnit`. -/

namespace Sys2Proof
open Machine

/-- The head of an MDP operation: a session 2 to 15, 1 to 64 operations of the four kinds and 1 to 255 bytes, this one at its place among them (R34). -/
def Wf.mdp (h : MdpHead) (op size : Nat) : Bool :=
  2 ≤ h.ses && h.ses < 16 && 1 ≤ h.nOps && h.nOps ≤ 64 && h.ops[h.op]? == some (op, size)
    && h.ops.all (fun e => decide (1 ≤ e.1 ∧ e.1 ≤ 4 ∧ 1 ≤ e.2 ∧ e.2 ≤ 255))

/-- At most `n` rows of K elements each; an operand read from a slate lies in the banks that are declared to feed the engine (R118). -/
def Wf.operand (o : Operand) (k n engine : Nat) (feed : List Nat) : Bool :=
  match o.source with
  | .brought => o.els.length ≤ n && o.els.all (fun r => r.length == k)
  | .window taps => taps.length ≤ n && taps.all (fun r => r.length == k)
  | .memory _ place rows =>
    let bits := fmtBits (match o.quant with
      | some q => q.source
      | none => o.fmt)
    let bytes := (rows * k * bits + 7) / 8
    rows ≤ n && (place.inStore || place.engine != engine || bytes == 0
      || (List.range 4).all (fun b => decide (b < slateBank place.offset ∨ slateBank (place.offset + bytes - 1) < b) || feed.contains b))
/-- A pass of at most 65,536 terms on an engine that exists (R89), fed from at most two banks of its slate (R118); a depthwise pass brings the taps of up to 16 pixels of
each of its channels. -/
def Wf.pass (p : Pass) : Bool :=
  let deep : Bool := match p.harrow with
    | some h => h.depthwise
    | none => false
  p.k ≤ 65536 && p.field < 66 && p.engine < 34 && p.feed.length ≤ 2 && p.feed.all (fun b => decide (b < 4)) &&
    Wf.operand p.a p.k (if deep then 16 * p.b.els.length else 16) p.engine p.feed && Wf.operand p.b p.k 16 p.engine p.feed
/-- A move to or from the line buffers stays within them, and one of at most a tile. -/
def Wf.moveSide (m : Move) : Bool := match m.side with
  | .lines o => o + m.bytes ≤ 196608
  | _ => true
/-- A brick operation brings 2,048 voxels of 16 bits, or none. -/
def Wf.mapOp : MapOp → Bool
  | .replace _ vs => vs.length == 2048 && vs.all (fun v => decide (v < 65536))
  | .min _ vs => vs.length == 2048 && vs.all (fun v => decide (v < 65536))
  | .forget _ => true
/-- An editor: a session that exists, or a job. -/
def Wf.editor : Editor → Bool
  | .ses n => n < 16
  | .job _ seq _ _ _ _ _ _ _ _ _ _ => seq < 65536
/-- An index that holds the control block of a staged group (R44). -/
def Wf.group (i : Nat) : Bool := i == 0x2120 || Obj.isGroupIndex i

def Wf.objectWrite (ses : Nat) (idx : Nat) (sub : Nat) (v : WVal) : Bool := ses < 16 && idx < 65536 && sub < 256 && (ses != 0 || !v.isInline) && (ses == 1 || !v.isSdo)
def Wf.bar0SlotWrite (addr : Nat) (_width : Nat) (_value : Option Nat) (_fetch : Option (List Byte)) : Bool := addr < 134217728
def Wf.mdpHello (_header : List Byte) (_payload : List Byte) (_chainOk : Bool) : Bool := true
def Wf.mdpFinish (ses : Nat) (_verifies : Bool) : Bool := 2 ≤ ses && ses < 16
def Wf.mdpFinishTimeout (ses : Nat) : Bool := 2 ≤ ses && ses < 16
def Wf.mdpRead (h : MdpHead) (idx : Nat) (sub : Nat) (size : Nat) : Bool := Wf.mdp h 1 size && idx < 65536 && sub < 256
def Wf.mdpWrite (h : MdpHead) (idx : Nat) (sub : Nat) (size : Nat) (v : WVal) : Bool := Wf.mdp h 2 size && idx < 65536 && sub < 256 && !v.isSdo
def Wf.inlineStart (h : MdpHead) (idx : Nat) (sub : Nat) (total : Nat) (crc : Nat) : Bool := Wf.mdp h 3 8 && idx < 65536 && sub < 256 && total < 4294967296 && crc < 4294967296
def Wf.inlineData (h : MdpHead) (idx : Nat) (sub : Nat) (data : List Byte) : Bool := Wf.mdp h 4 data.length && idx < 65536 && sub < 256
def Wf.mdpClose (ses : Nat) (_code : Nat) : Bool := 2 ≤ ses && ses < 16
def Wf.sessionIdleTimeout (ses : Nat) : Bool := 2 ≤ ses && ses < 16
def Wf.leaseRecallNotify (_lease : Nat) : Bool := true
def Wf.elevate (ses : Nat) (n : Nat) (_t : Token) : Bool := ses < 16 && n < 16
def Wf.dropLevel (ses : Nat) (n : Nat) (_v : Nat) : Bool := ses < 16 && n < 16
def Wf.groupCommit (ses : Nat) (g : Nat) : Bool := ses < 16 && Wf.group g
def Wf.groupDiscard (ses : Nat) (g : Nat) : Bool := ses < 16 && Wf.group g
def Wf.groupApply (g : Nat) : Bool := Wf.group (g % 65536) && (g < 65536 || ((g % 65536 == 0x2581 || g % 65536 == 0x2D21) && g / 65536 < 256))
def Wf.storeParameters (ses : Nat) (sub : Nat) (_sig : Nat) : Bool := ses < 16 && 1 ≤ sub && sub ≤ 3
def Wf.restoreDefaultParameters (ses : Nat) (sub : Nat) (_sig : Nat) : Bool := ses < 16 && 1 ≤ sub && sub ≤ 3
def Wf.slotClaim (ses : Nat) (n : Nat) : Bool := ses < 16 && n < 4096
def Wf.slotDiscard (ses : Nat) (n : Nat) : Bool := ses < 16 && n < 4096
def Wf.slotPost (ses : Nat) (n : Nat) : Bool := ses < 16 && n < 4096
def Wf.slotAbandon (ses : Nat) (n : Nat) : Bool := ses < 16 && n < 4096
def Wf.slotReuse (ses : Nat) (n : Nat) : Bool := ses < 16 && n < 4096
def Wf.slotRelease (ses : Nat) (n : Nat) : Bool := ses < 16 && n < 4096
def Wf.msixHoldoffExpiry (v : Nat) : Bool := v < 64
def Wf.eventFlashCopy : Bool := true
def Wf.eventAck (ses : Nat) (_v : Nat) : Bool := ses < 16
def Wf.arithClear (ses : Nat) (_v : Nat) : Bool := ses < 16
def Wf.enginePassDrain (_job : Nat) (p : Pass) : Bool := Wf.pass p
def Wf.labMissFill (field : Nat) (_job : Nat) (_seq : Nat) (_entry : Nat) (_bad : Bool) : Bool := field < 66
def Wf.engineStepTimeout (field : Nat) (engine : Nat) (_job : Option Nat) : Bool := field < 66 && engine < 34
def Wf.engineFault (field : Nat) (engine : Nat) (detail : Nat) (line : Nat) (_job : Option Nat) : Bool := field < 66 && engine < 34 && 0x0300 ≤ detail && detail ≤ 0x0302 && line < 32768
def Wf.fieldFault (field : Nat) : Bool := field < 66
def Wf.barrierArrival (_job : Nat) (_b : Nat) (_owed : Nat) : Bool := true
def Wf.startWaveSlot : Bool := true
def Wf.fallowRequestPut (ses : Nat) (field : Nat) : Bool := ses < 16 && field < 66
def Wf.fallowRequestReturn (ses : Nat) (field : Nat) : Bool := ses < 16 && field < 66
def Wf.spareFieldReady (field : Nat) : Bool := field < 66
def Wf.jobStateInstalled (_job : Nat) : Bool := true
def Wf.fieldSelftestDone (field : Nat) (badEngines : Nat) (rows : List Nat) (_pass : Bool) : Bool := field < 66 && badEngines < 17179869184 && rows.all (fun l => decide (l < 32768))
def Wf.flitReplay (router : Nat) (dir : Nat) (_ok : Bool) : Bool := router < 66 && dir < 4
def Wf.scrubGranule (field : Nat) (engine : Nat) (line : Nat) (unc : Nat) (_job : Option Nat) (_corrected : Bool) (_passEnd : Bool) (_late : Bool) (_busy : Bool) : Bool := field < 66 && engine < 34 && line < 32768 && unc < 4
def Wf.calibrationStep (field : Nat) (engine : Nat) : Bool := field < 66 && engine < 34
def Wf.telemetryRecord (field : Nat) (_busy : Bool) : Bool := field < 66
def Wf.backgroundOverdue (act : Nat) (_unit : Nat) : Bool := act < 6
def Wf.gleanerGranule (addr : Nat) (_row : Nat) (_corrected : Bool) (_uncorrectable : Bool) (_passEnd : Bool) (_late : Bool) (_busy : Bool) : Bool := addr % 64 == 0
def Wf.perBankRefresh (ch : Nat) (bank : Nat) : Bool := ch < 64 && bank < 8
def Wf.zqCalibration (ch : Nat) (wait : Nat) : Bool := ch < 64 && wait ≤ 1000
def Wf.dqsTracking (ch : Nat) (mult : Nat) (wait : Nat) : Bool := ch < 64 && wait ≤ 1000 && (mult == 1 || mult == 2 || mult == 4)
def Wf.catchupRefresh (ch : Nat) (wait : Nat) : Bool := ch < 64 && wait ≤ 1000
def Wf.drillMoveDone (m : Move) : Bool := m.field < 66 && Wf.moveSide m
def Wf.seedRebuild (_tile : Nat) (_home : Option Home) (_replica : Option Home) : Bool := true
def Wf.hostCompletionTimeout (_job : Nat) : Bool := true
def Wf.surveyorPeriod (_ds : List TierMove) : Bool := true
def Wf.migrationSwitch (_tile : Nat) (_verified : Bool) (_busy : Bool) : Bool := true
def Wf.migrationRetry (_tile : Nat) : Bool := true
def Wf.retireRequest (ses : Nat) (ch : Nat) (_v : Nat) : Bool := ses < 16 && ch < 64
def Wf.stripeSwitch (ch : Nat) (_stripes : Nat) : Bool := ch < 64
def Wf.channelDead (ch : Nat) : Bool := ch < 64
def Wf.leaseRequest (ses : Nat) (_mib : Nat) (_qpn : Nat) (_rkey : Nat) (_base : Nat) : Bool := ses < 16
def Wf.leaseRelease (ses : Nat) (_lease : Nat) : Bool := ses < 16
def Wf.leaseRecall (_lease : Nat) (_slots : Nat) : Bool := true
def Wf.recallNoticeExpiry (_lease : Nat) (_lent : Bool) : Bool := true
def Wf.peerLenderLost (n : Nat) : Bool := n < 8
def Wf.peerAccessDone (n : Nat) (_tile : Nat) (_write : Bool) (_authOk : Bool) (_job : Option Nat) : Bool := n < 8
def Wf.peerAccessTimeout (n : Nat) (_tile : Nat) (_job : Option Nat) : Bool := n < 8
def Wf.contextOpen (ses : Nat) (n : Nat) : Bool := ses < 16 && n < 4096
def Wf.contextClose (ses : Nat) (n : Nat) : Bool := ses < 16 && n < 4096
def Wf.ctxClear (ses : Nat) (n : Nat) (_v : Nat) : Bool := ses < 16 && n < 4096
def Wf.jobDispatch (_job : Nat) (place : List Nat) (_host : List (Nat × List Byte)) (_rows : List LenRow) : Bool := place.all (fun f => decide (f < 66))
def Wf.grantRetry (_job : Nat) : Bool := true
def Wf.jobYieldPoint (_job : Nat) (_steps : List (List CarryStep)) : Bool := true
def Wf.jobSaveDone (_job : Nat) : Bool := true
def Wf.jobResume (_job : Nat) (place : List Nat) : Bool := place.all (fun f => decide (f < 66))
def Wf.jobEnd (_job : Nat) (_r : JobResult) : Bool := true
def Wf.furrowArm (ses : Nat) : Bool := ses < 16
def Wf.furrowStop (ses : Nat) : Bool := ses < 16
def Wf.furrowClear (ses : Nat) : Bool := ses < 16
def Wf.furrowTrigger (f : Nat) (_tov : Nat) (_tovFrac : Nat) (_revised : Bool) : Bool := f < 256
def Wf.tickTrigger (f : Nat) (_k : Nat) : Bool := f < 256
def Wf.semaphoreAcquire (_job : Nat) (_rank : Nat) (_timeoutUs : Nat) (_noLimit : Bool) : Bool := true
def Wf.semaphoreRelease (_job : Nat) (_rank : Nat) : Bool := true
def Wf.semaphoreTimeout (_job : Nat) : Bool := true
def Wf.floorWindowEnd : Bool := true
def Wf.blockReport (_job : Nat) : Bool := true
def Wf.energyInterval (dom : Nat) (_uj : Nat) : Bool := dom < 70
def Wf.safetyTick (outs : List (Option Nat)) (_taskUs : Nat) (_monitor : Option Bool) : Bool := outs.length == 4
def Wf.resyncDone (_ns : Nat) : Bool := true
def Wf.resyncTimeout : Bool := true
def Wf.safetyInputChange (_a : Bool) (_b : Bool) : Bool := true
def Wf.discrepancyTimeout : Bool := true
def Wf.safeHoldNChange (_othersLow : Bool) : Bool := true
def Wf.outputTestPulse (ch : Nat) (_low : Bool) : Bool := ch < 2
def Wf.readbackFault (ch : Nat) : Bool := ch < 2
def Wf.safetyAck (ses : Nat) (_v : Nat) : Bool := ses < 16
def Wf.outputsEnable (ses : Nat) (_v : Nat) : Bool := ses < 16
def Wf.safeHoldRequest (ses : Nat) (_v : Nat) : Bool := ses < 16
def Wf.e2eWindowEnd (_source : Nat) : Bool := true
def Wf.checkUnitRun (n : Nat) (_data : List Byte) (_image : Option Nat) : Bool := n < 16
def Wf.cvRun (ses : Nat) (n : Nat) (_v : Nat) (_data : List Byte) (_image : Option Nat) : Bool := ses < 16 && n < 16
def Wf.quizSliceStart (checker : Nat) (_slice : Nat) (_taskReady : Bool) (_unit : Option (Nat × Nat)) : Bool := checker < 16
def Wf.quizSliceDone (_flagged : Bool) (sensor : Nat) : Bool := sensor < 128
def Wf.diagIntervalExpiry (checker : Nat) : Bool := checker < 16
def Wf.railIncrement (d : Nat) : Bool := d < 80
def Wf.droopDetect (d : Nat) : Bool := d < 80
def Wf.droopClear (d : Nat) : Bool := d < 80
def Wf.stepResume (d : Nat) : Bool := d < 80
def Wf.stepHoldoffEnd (d : Nat) : Bool := d < 80
def Wf.powerSample (_mw : Nat) (_mv : Nat) (_ms : Nat) (doms : List (Nat × Nat)) : Bool := doms.all (fun d => decide (d.1 < 80))
def Wf.inputPowerClamp : Bool := true
def Wf.clampRelease : Bool := true
def Wf.phaseRetire (n : Nat) : Bool := n < 20
def Wf.idleGate (d : Nat) : Bool := d < 80
def Wf.domainWakeDone (d : Nat) : Bool := d < 80
def Wf.domSetMv (ses : Nat) (d : Nat) (_mv : Nat) : Bool := ses < 16 && d < 80
def Wf.budgetW (ses : Nat) (sub : Nat) (_v : Nat) : Bool := ses < 16 && 3 ≤ sub && sub ≤ 5
def Wf.thermalWarning (sensor : Nat) (_temp : Int) : Bool := sensor < 128
def Wf.thermalStepTick (temps : List (Nat × Int)) (_vr : Option Int) : Bool := temps.all (fun t => decide (t.1 < 128))
def Wf.overcurrentTrip (_mw : Nat) (_mv : Nat) : Bool := true
def Wf.overcurrentClear : Bool := true
def Wf.junctionTrip (sensor : Nat) (_temp : Int) : Bool := sensor < 128
def Wf.junctionTripClear : Bool := true
def Wf.coldPlateTemperatureChange (_temp : Int) : Bool := true
def Wf.fullSaveMinRunElapsed (_job : Nat) : Bool := true
def Wf.phaseBoundary (_job : Nat) (phase : Nat) : Bool := phase < 8
def Wf.junctionShutdown (sensor : Nat) (_temp : Int) : Bool := sensor < 128
def Wf.inputVoltageTrip (_mw : Nat) (_mv : Nat) : Bool := true
def Wf.tileNumberAllocation (_job : Nat) (_n : Nat) (_freed : List Nat) : Bool := true
def Wf.lentSlotRdmaAccess (_lease : Nat) (_slot : Nat) (_write : Option (List Byte)) : Bool := true
def Wf.seqOpen (e : Editor) : Bool := Wf.editor e
def Wf.seqWriteEntry (e : Editor) : Bool := Wf.editor e
def Wf.seqSetLength (e : Editor) : Bool := Wf.editor e
def Wf.seqClose (e : Editor) : Bool := Wf.editor e
def Wf.editApplyTimeout (_job : Nat) : Bool := true
def Wf.streamStart (ses : Nat) (n : Nat) : Bool := ses < 16 && n < 4096
def Wf.streamPause (ses : Nat) (n : Nat) : Bool := ses < 16 && n < 4096
def Wf.streamResume (ses : Nat) (n : Nat) : Bool := ses < 16 && n < 4096
def Wf.streamReset (ses : Nat) (n : Nat) : Bool := ses < 16 && n < 4096
def Wf.streamEnd (ses : Nat) (n : Nat) : Bool := ses < 16 && n < 4096
def Wf.streamCheckpoint (ses : Nat) (n : Nat) : Bool := ses < 16 && n < 4096
def Wf.streamRestore (ses : Nat) (n : Nat) : Bool := ses < 16 && n < 4096
def Wf.streamEvict (ses : Nat) (n : Nat) : Bool := ses < 16 && n < 4096
def Wf.streamSwapOut (n : Nat) : Bool := n < 4096
def Wf.streamSwapIn (n : Nat) (field : Nat) : Bool := n < 4096 && field < 66
def Wf.sieveSlice (_job : Nat) (ns : Nat) (_last : Option SieveData) : Bool := ns ≤ 2000
def Wf.mapBatchCommit (_job : Nat) (_tov : Nat) (ops : List MapOp) : Bool := ops.all Wf.mapOp
def Wf.plannerSlice (_job : Nat) (_misses : Nat) (_step : PlanStep) : Bool := true
def Wf.sphereQuery (_job : Nat) (_spheres : List (Nat × Nat × Nat × Nat)) (_outs : List (Nat × List Byte)) : Bool := true
def Wf.segmentQuery (_job : Nat) (_pairs : List (List Nat × List Nat)) (_outs : List (Nat × List Byte)) : Bool := true
def Wf.mapClear (ses : Nat) (_v : Nat) : Bool := ses < 16
def Wf.roadmapClear (ses : Nat) (n : Nat) (_v : Nat) : Bool := ses < 16 && n < 4
def Wf.ptpMessage (kind : Nat) (_t : Int) (_learnt : Int) (_slew : Int) : Bool := 1 ≤ kind && kind ≤ 2
def Wf.sourceTimeout : Bool := true
def Wf.tbSet (ses : Nat) (v : Nat) : Bool := ses < 16 && v < 18446744073709551616
def Wf.timeNowRead (ses : Nat) : Bool := ses < 16
def Wf.triggerEdge (n : Nat) : Bool := n < 16
def Wf.captureEdge (n : Nat) (_ns : Nat) (frac : Nat) (_held : Nat) (_rising : Bool) (_lost : Bool) (_learnt : Int) (_slew : Int) : Bool := n < 16 && frac < 65536
def Wf.capRead (ses : Nat) (n : Nat) : Bool := ses < 16 && n < 16
def Wf.fusionSampleArrival (src : Nat) (header : List Byte) (_payload : List Byte) (_m : Meas) : Bool := src < 64 && header.length == 32
def Wf.fusionInputRelease (n : Nat) (_crcBad : List Nat) : Bool := n < 8
def Wf.periodicPublication (o : Nat) (_k : Nat) (_crcBad : Bool) : Bool := o < 64
def Wf.filterStart (ses : Nat) (n : Nat) : Bool := ses < 16 && n < 8
def Wf.filterStop (ses : Nat) (n : Nat) : Bool := ses < 16 && n < 8
def Wf.filterReset (ses : Nat) (n : Nat) : Bool := ses < 16 && n < 8
def Wf.programMeasurement (_job : Nat) (src : Nat) (_tov : Nat) (frac : Nat) (_m : Meas) : Bool := src < 64 && frac < 65536
def Wf.controlSampleArrival (ch : Nat) (lat : Nat) (_e2e : Option (Nat × Nat × Nat)) : Bool := ch < 288 && lat < 4294967296
def Wf.backgroundUpdateDone (ch : Nat) : Bool := ch < 288
def Wf.sampleMissed (ch : Nat) (_k : Nat) (lat : Nat) : Bool := ch < 288 && lat < 4294967296
def Wf.refGo (ses : Nat) (ch : Nat) : Bool := ses < 16 && ch < 288
def Wf.jobReferenceWrite (_job : Nat) (ch : Nat) (_tov : Nat) (_vals : List Nat) : Bool := ch < 288
def Wf.chStart (ses : Nat) (ch : Nat) : Bool := ses < 16 && ch < 288
def Wf.chStop (ses : Nat) (ch : Nat) : Bool := ses < 16 && ch < 288
def Wf.chClear (ses : Nat) (ch : Nat) : Bool := ses < 16 && ch < 288
def Wf.ecatSync0 (line : Nat) (_k : Nat) : Bool := line < 2
def Wf.ecatInputLaunch (line : Nat) : Bool := line < 2
def Wf.ecatInputFrame (line : Nat) (_k : Nat) (image : List Byte) (_fcsOk : Bool) (_wkcOk : Bool) : Bool := line < 2 && image.length ≤ 4096
def Wf.ecatRingChange (line : Nat) (st : Nat) (delay : Nat) (found : Nat) : Bool := line < 2 && 1 ≤ st && st ≤ 3 && found ≤ 512 && delay < 4294967296
def Wf.ecatLineProbe (line : Nat) (found : Nat) (st : Nat) (delay : Nat) (_answer : Bool) : Bool := line < 2 && 1 ≤ st && st ≤ 2 && found ≤ 512 && delay < 4294967296
def Wf.pcieLinkChange (_l0 : Bool) (_bme : Bool) (_d3 : Bool) (rate : Nat) (width : Nat) (_aerC : Nat) (_aerU : Nat) (_jobs : List Nat) : Bool := rate ≤ 6 && width ≤ 8
def Wf.functionLevelReset : Bool := true
def Wf.perstRelease : Bool := true
def Wf.ethLaneRetireAuto (lane : Nat) (cause : Nat) : Bool := lane < 4 && cause < 2
def Wf.laneRetire (ses : Nat) (port : Nat) (_k : Nat) : Bool := ses < 16 && port < 4
def Wf.roceAckTimeout (qp : Nat) (_jobs : List Nat) : Bool := qp < 4294967296
def Wf.collectiveExchange (_job : Nat) (x : Exchange) : Bool := x.group < 8 && x.data.length ≤ 4096
def Wf.collectiveTimeout (_job : Nat) : Bool := true
def Wf.slaveLinkLoss : Bool := true
def Wf.csiFrameStart (port : Nat) (vc : Nat) (num : Nat) (hdr : Nat) : Bool := port < 8 && vc < 16 && num < 65536 && hdr < 3
def Wf.csiLinePacket (port : Nat) (vc : Nat) (dt : Nat) (hdr : Nat) (_crcOk : Bool) (data : List Byte) : Bool := port < 8 && vc < 16 && dt < 64 && hdr < 3 && data.length < 65536
def Wf.csiFrameEnd (port : Nat) (vc : Nat) (hdr : Nat) : Bool := port < 8 && vc < 16 && hdr < 3
def Wf.csiFrameTimeout (port : Nat) : Bool := port < 8
def Wf.spiSampleTransfer (port : Nat) (_k : Nat) (_edge : Bool) : Bool := port < 8
def Wf.spiTransferEnd (port : Nat) (bytes : List Byte) : Bool := port < 8 && bytes.length ≤ 64
def Wf.vioOutOfRange (port : Nat) (_mv : Nat) : Bool := port < 8
def Wf.ethPortLinkChange (port : Nat) (rate : Nat) : Bool := port < 4 && rate ≤ 5
def Wf.slaveLinkReturn (station : Nat) : Bool := station < 65536
def Wf.vioBackInRange (port : Nat) (_mv : Nat) : Bool := port < 8
def Wf.arpOrIcmpEchoRequest (port : Nat) (_reply : List Byte) : Bool := port < 4
def Wf.powerOn (addr : Nat) (_refclk : Bool) (_mv : Nat) : Bool := addr < 8
def Wf.powerLoss : Bool := true
def Wf.powerGoodRise : Bool := true
def Wf.pwrGoodDriven : Bool := true
def Wf.shutdownRestart (_mv : Nat) : Bool := true
def Wf.resetNPulse (_ns : Nat) (_stays : Bool) : Bool := true
def Wf.identityReconstructed (ok : Bool) (cert : List Byte) (issuers : List (List Byte)) : Bool := (cert.length == 272 || (cert.isEmpty && !ok)) && decide (issuers.length ≤ 2) && issuers.all (fun c => c.length == 272)
def Wf.imageVerify (kind : Nat) (_s0 : Option Img) (_s1 : Option Img) (_fails : Bool) : Bool := 1 ≤ kind && kind ≤ 4
def Wf.lpddrTrainingDone (ns : Nat) (failed : List Nat) (repaired : List (Nat × Nat × Nat)) : Bool := ns < 4294967296 && failed.all (fun c => decide (c < 64)) && repaired.all (fun r => decide (r.1 < 64 ∧ r.2.2 < 8))
def Wf.initComplete (bad : List Nat) : Bool := bad.all (fun k => decide (k < 4))
def Wf.autoOperational : Bool := true
def Wf.cmdOperational (ses : Nat) : Bool := ses < 16
def Wf.cmdPreOperational (ses : Nat) : Bool := ses < 16
def Wf.cmdService (ses : Nat) : Bool := ses < 16
def Wf.cmdLeaveService (ses : Nat) : Bool := ses < 16
def Wf.cmdWarmReset (ses : Nat) : Bool := ses < 16
def Wf.cmdColdReset (ses : Nat) : Bool := ses < 16
def Wf.alStateRequest (al : Nat) : Bool := al == 1 || al == 2 || al == 3 || al == 4 || al == 8
def Wf.imgWrite (ses : Nat) (kind : Nat) (_v : WVal) : Bool := ses < 16 && 1 ≤ kind && kind ≤ 4
def Wf.imageWriteVerified (_sigOk : Bool) (_chainOk : Bool) (_vals : List (Nat × Nat)) (_blobs : List (Nat × List Byte)) : Bool := true
def Wf.imgActivate (ses : Nat) (kind : Nat) (_v : Nat) : Bool := ses < 16 && 1 ≤ kind && kind ≤ 4
def Wf.handoverPoint : Bool := true
def Wf.policyReady : Bool := true
def Wf.handoverReadyTimeout : Bool := true
def Wf.policyTrialEnd : Bool := true
def Wf.policyWatchdogExpiry : Bool := true
def Wf.imgCounterCommit (ses : Nat) (kind : Nat) (_v : Nat) : Bool := ses < 16 && 1 ≤ kind && kind ≤ 4
def Wf.settingsStoreDone : Bool := true
def Wf.progImage (ses : Nat) (_v : WVal) : Bool := ses < 16
def Wf.progLoadDone (ses : Nat) (_sigOk : Bool) (_chainOk : Bool) (_decl : Option UnitDecl) : Bool := ses ≤ 16
def Wf.progUnload (ses : Nat) (_h : Nat) : Bool := ses < 16
def Wf.progCounterCommit (ses : Nat) (_v : Nat) : Bool := ses < 16
def Wf.attestGo (ses : Nat) (_v : Nat) : Bool := ses < 16
def Wf.attestReportReady (ses : Nat) : Bool := ses < 16
def Wf.authChallenge (ses : Nat) : Bool := ses < 16
def Wf.debugToken (ses : Nat) (_t : Token) : Bool := ses < 16
def Wf.debugEnd (ses : Nat) (_v : Nat) : Bool := ses < 16
def Wf.tokenLifetimeExpiry (ses : Nat) (_debug : Bool) : Bool := ses < 16
def Wf.senseInvalid (_sense : Nat) (_blade : Nat) : Bool := true
def Wf.senseValidReturn (_sense : Nat) (_blade : Nat) : Bool := true
def Wf.clearFaults : Bool := true
def Wf.capability : Bool := true
def Wf.statusWord : Bool := true
def Wf.statusInput : Bool := true
def Wf.statusTemperature : Bool := true
def Wf.statusCml : Bool := true
def Wf.readVin : Bool := true
def Wf.readIin : Bool := true
def Wf.readTemperature1 : Bool := true
def Wf.readTemperature2 : Bool := true
def Wf.readPin : Bool := true
def Wf.pmbusRevision : Bool := true
def Wf.mfrId : Bool := true
def Wf.mfrModel : Bool := true
def Wf.mfrPinLimit (_w : Option Nat) : Bool := true
def Wf.mfrPinLimitEn (_w : Option Nat) : Bool := true
def Wf.mfrDeviceState : Bool := true
def Wf.mfrActiveCauses : Bool := true
def Wf.pmbusUnsupportedCommand (code : Nat) : Bool := code < 256
def Wf.alertResponse : Bool := true
def Wf.uartRxCharacter (_ch : Byte) : Bool := true
def Wf.testEnChange (_level : Bool) : Bool := true
def Wf.tapTestLogicReset : Bool := true
def Wf.extest (_din : Nat) (_cap : Nat) : Bool := true
def Wf.samplePreload (_din : Nat) (_cap : Nat) : Bool := true
def Wf.extestPulse (_din : Nat) (_cap : Nat) : Bool := true
def Wf.extestTrain (_din : Nat) (_cap : Nat) : Bool := true
def Wf.idcode (_din : Nat) (_cap : Nat) : Bool := true
def Wf.clamp (_din : Nat) (_cap : Nat) : Bool := true
def Wf.highz (_din : Nat) (_cap : Nat) : Bool := true
def Wf.bypass (_din : Nat) (_cap : Nat) : Bool := true

/-- The well-formed commands. -/
def Instr.wf : Instr → Bool
  | .objectWrite ses idx sub v => Wf.objectWrite ses idx sub v
  | .bar0SlotWrite addr width value fetch => Wf.bar0SlotWrite addr width value fetch
  | .mdpHello header payload chainOk => Wf.mdpHello header payload chainOk
  | .mdpFinish ses verifies => Wf.mdpFinish ses verifies
  | .mdpFinishTimeout ses => Wf.mdpFinishTimeout ses
  | .mdpRead h idx sub size => Wf.mdpRead h idx sub size
  | .mdpWrite h idx sub size v => Wf.mdpWrite h idx sub size v
  | .inlineStart h idx sub total crc => Wf.inlineStart h idx sub total crc
  | .inlineData h idx sub data => Wf.inlineData h idx sub data
  | .mdpClose ses code => Wf.mdpClose ses code
  | .sessionIdleTimeout ses => Wf.sessionIdleTimeout ses
  | .leaseRecallNotify lease => Wf.leaseRecallNotify lease
  | .elevate ses n t => Wf.elevate ses n t
  | .dropLevel ses n v => Wf.dropLevel ses n v
  | .groupCommit ses g => Wf.groupCommit ses g
  | .groupDiscard ses g => Wf.groupDiscard ses g
  | .groupApply g => Wf.groupApply g
  | .storeParameters ses sub sig => Wf.storeParameters ses sub sig
  | .restoreDefaultParameters ses sub sig => Wf.restoreDefaultParameters ses sub sig
  | .slotClaim ses n => Wf.slotClaim ses n
  | .slotDiscard ses n => Wf.slotDiscard ses n
  | .slotPost ses n => Wf.slotPost ses n
  | .slotAbandon ses n => Wf.slotAbandon ses n
  | .slotReuse ses n => Wf.slotReuse ses n
  | .slotRelease ses n => Wf.slotRelease ses n
  | .msixHoldoffExpiry v => Wf.msixHoldoffExpiry v
  | .eventFlashCopy => Wf.eventFlashCopy
  | .eventAck ses v => Wf.eventAck ses v
  | .arithClear ses v => Wf.arithClear ses v
  | .enginePassDrain job p => Wf.enginePassDrain job p
  | .labMissFill field job seq entry bad => Wf.labMissFill field job seq entry bad
  | .engineStepTimeout field engine job => Wf.engineStepTimeout field engine job
  | .engineFault field engine detail line job => Wf.engineFault field engine detail line job
  | .fieldFault field => Wf.fieldFault field
  | .barrierArrival job b owed => Wf.barrierArrival job b owed
  | .startWaveSlot => Wf.startWaveSlot
  | .fallowRequestPut ses field => Wf.fallowRequestPut ses field
  | .fallowRequestReturn ses field => Wf.fallowRequestReturn ses field
  | .spareFieldReady field => Wf.spareFieldReady field
  | .jobStateInstalled job => Wf.jobStateInstalled job
  | .fieldSelftestDone field badEngines rows pass => Wf.fieldSelftestDone field badEngines rows pass
  | .flitReplay router dir ok => Wf.flitReplay router dir ok
  | .scrubGranule field engine line unc job corrected passEnd late busy => Wf.scrubGranule field engine line unc job corrected passEnd late busy
  | .calibrationStep field engine => Wf.calibrationStep field engine
  | .telemetryRecord field busy => Wf.telemetryRecord field busy
  | .backgroundOverdue act unit => Wf.backgroundOverdue act unit
  | .gleanerGranule addr row corrected uncorrectable passEnd late busy => Wf.gleanerGranule addr row corrected uncorrectable passEnd late busy
  | .perBankRefresh ch bank => Wf.perBankRefresh ch bank
  | .zqCalibration ch wait => Wf.zqCalibration ch wait
  | .dqsTracking ch mult wait => Wf.dqsTracking ch mult wait
  | .catchupRefresh ch wait => Wf.catchupRefresh ch wait
  | .drillMoveDone m => Wf.drillMoveDone m
  | .seedRebuild tile home replica => Wf.seedRebuild tile home replica
  | .hostCompletionTimeout job => Wf.hostCompletionTimeout job
  | .surveyorPeriod ds => Wf.surveyorPeriod ds
  | .migrationSwitch tile verified busy => Wf.migrationSwitch tile verified busy
  | .migrationRetry tile => Wf.migrationRetry tile
  | .retireRequest ses ch v => Wf.retireRequest ses ch v
  | .stripeSwitch ch stripes => Wf.stripeSwitch ch stripes
  | .channelDead ch => Wf.channelDead ch
  | .leaseRequest ses mib qpn rkey base => Wf.leaseRequest ses mib qpn rkey base
  | .leaseRelease ses lease => Wf.leaseRelease ses lease
  | .leaseRecall lease slots => Wf.leaseRecall lease slots
  | .recallNoticeExpiry lease lent => Wf.recallNoticeExpiry lease lent
  | .peerLenderLost n => Wf.peerLenderLost n
  | .peerAccessDone n tile write authOk job => Wf.peerAccessDone n tile write authOk job
  | .peerAccessTimeout n tile job => Wf.peerAccessTimeout n tile job
  | .contextOpen ses n => Wf.contextOpen ses n
  | .contextClose ses n => Wf.contextClose ses n
  | .ctxClear ses n v => Wf.ctxClear ses n v
  | .jobDispatch job place host rows => Wf.jobDispatch job place host rows
  | .grantRetry job => Wf.grantRetry job
  | .jobYieldPoint job steps => Wf.jobYieldPoint job steps
  | .jobSaveDone job => Wf.jobSaveDone job
  | .jobResume job place => Wf.jobResume job place
  | .jobEnd job r => Wf.jobEnd job r
  | .furrowArm ses => Wf.furrowArm ses
  | .furrowStop ses => Wf.furrowStop ses
  | .furrowClear ses => Wf.furrowClear ses
  | .furrowTrigger f tov tovFrac revised => Wf.furrowTrigger f tov tovFrac revised
  | .tickTrigger f k => Wf.tickTrigger f k
  | .semaphoreAcquire job rank timeoutUs noLimit => Wf.semaphoreAcquire job rank timeoutUs noLimit
  | .semaphoreRelease job rank => Wf.semaphoreRelease job rank
  | .semaphoreTimeout job => Wf.semaphoreTimeout job
  | .floorWindowEnd => Wf.floorWindowEnd
  | .blockReport job => Wf.blockReport job
  | .energyInterval dom uj => Wf.energyInterval dom uj
  | .safetyTick outs taskUs monitor => Wf.safetyTick outs taskUs monitor
  | .resyncDone ns => Wf.resyncDone ns
  | .resyncTimeout => Wf.resyncTimeout
  | .safetyInputChange a b => Wf.safetyInputChange a b
  | .discrepancyTimeout => Wf.discrepancyTimeout
  | .safeHoldNChange othersLow => Wf.safeHoldNChange othersLow
  | .outputTestPulse ch low => Wf.outputTestPulse ch low
  | .readbackFault ch => Wf.readbackFault ch
  | .safetyAck ses v => Wf.safetyAck ses v
  | .outputsEnable ses v => Wf.outputsEnable ses v
  | .safeHoldRequest ses v => Wf.safeHoldRequest ses v
  | .e2eWindowEnd source => Wf.e2eWindowEnd source
  | .checkUnitRun n data image => Wf.checkUnitRun n data image
  | .cvRun ses n v data image => Wf.cvRun ses n v data image
  | .quizSliceStart checker slice taskReady unit => Wf.quizSliceStart checker slice taskReady unit
  | .quizSliceDone flagged sensor => Wf.quizSliceDone flagged sensor
  | .diagIntervalExpiry checker => Wf.diagIntervalExpiry checker
  | .railIncrement d => Wf.railIncrement d
  | .droopDetect d => Wf.droopDetect d
  | .droopClear d => Wf.droopClear d
  | .stepResume d => Wf.stepResume d
  | .stepHoldoffEnd d => Wf.stepHoldoffEnd d
  | .powerSample mw mv ms doms => Wf.powerSample mw mv ms doms
  | .inputPowerClamp => Wf.inputPowerClamp
  | .clampRelease => Wf.clampRelease
  | .phaseRetire n => Wf.phaseRetire n
  | .idleGate d => Wf.idleGate d
  | .domainWakeDone d => Wf.domainWakeDone d
  | .domSetMv ses d mv => Wf.domSetMv ses d mv
  | .budgetW ses sub v => Wf.budgetW ses sub v
  | .thermalWarning sensor temp => Wf.thermalWarning sensor temp
  | .thermalStepTick temps vr => Wf.thermalStepTick temps vr
  | .overcurrentTrip mw mv => Wf.overcurrentTrip mw mv
  | .overcurrentClear => Wf.overcurrentClear
  | .junctionTrip sensor temp => Wf.junctionTrip sensor temp
  | .junctionTripClear => Wf.junctionTripClear
  | .coldPlateTemperatureChange temp => Wf.coldPlateTemperatureChange temp
  | .fullSaveMinRunElapsed job => Wf.fullSaveMinRunElapsed job
  | .phaseBoundary job phase => Wf.phaseBoundary job phase
  | .junctionShutdown sensor temp => Wf.junctionShutdown sensor temp
  | .inputVoltageTrip mw mv => Wf.inputVoltageTrip mw mv
  | .tileNumberAllocation job n freed => Wf.tileNumberAllocation job n freed
  | .lentSlotRdmaAccess lease slot write => Wf.lentSlotRdmaAccess lease slot write
  | .seqOpen e => Wf.seqOpen e
  | .seqWriteEntry e => Wf.seqWriteEntry e
  | .seqSetLength e => Wf.seqSetLength e
  | .seqClose e => Wf.seqClose e
  | .editApplyTimeout job => Wf.editApplyTimeout job
  | .streamStart ses n => Wf.streamStart ses n
  | .streamPause ses n => Wf.streamPause ses n
  | .streamResume ses n => Wf.streamResume ses n
  | .streamReset ses n => Wf.streamReset ses n
  | .streamEnd ses n => Wf.streamEnd ses n
  | .streamCheckpoint ses n => Wf.streamCheckpoint ses n
  | .streamRestore ses n => Wf.streamRestore ses n
  | .streamEvict ses n => Wf.streamEvict ses n
  | .streamSwapOut n => Wf.streamSwapOut n
  | .streamSwapIn n field => Wf.streamSwapIn n field
  | .sieveSlice job ns last => Wf.sieveSlice job ns last
  | .mapBatchCommit job tov ops => Wf.mapBatchCommit job tov ops
  | .plannerSlice job misses step => Wf.plannerSlice job misses step
  | .sphereQuery job spheres outs => Wf.sphereQuery job spheres outs
  | .segmentQuery job pairs outs => Wf.segmentQuery job pairs outs
  | .mapClear ses v => Wf.mapClear ses v
  | .roadmapClear ses n v => Wf.roadmapClear ses n v
  | .ptpMessage kind t learnt slew => Wf.ptpMessage kind t learnt slew
  | .sourceTimeout => Wf.sourceTimeout
  | .tbSet ses v => Wf.tbSet ses v
  | .timeNowRead ses => Wf.timeNowRead ses
  | .triggerEdge n => Wf.triggerEdge n
  | .captureEdge n ns frac held rising lost learnt slew => Wf.captureEdge n ns frac held rising lost learnt slew
  | .capRead ses n => Wf.capRead ses n
  | .fusionSampleArrival src header payload m => Wf.fusionSampleArrival src header payload m
  | .fusionInputRelease n crcBad => Wf.fusionInputRelease n crcBad
  | .periodicPublication o k crcBad => Wf.periodicPublication o k crcBad
  | .filterStart ses n => Wf.filterStart ses n
  | .filterStop ses n => Wf.filterStop ses n
  | .filterReset ses n => Wf.filterReset ses n
  | .programMeasurement job src tov frac m => Wf.programMeasurement job src tov frac m
  | .controlSampleArrival ch lat e2e => Wf.controlSampleArrival ch lat e2e
  | .backgroundUpdateDone ch => Wf.backgroundUpdateDone ch
  | .sampleMissed ch k lat => Wf.sampleMissed ch k lat
  | .refGo ses ch => Wf.refGo ses ch
  | .jobReferenceWrite job ch tov vals => Wf.jobReferenceWrite job ch tov vals
  | .chStart ses ch => Wf.chStart ses ch
  | .chStop ses ch => Wf.chStop ses ch
  | .chClear ses ch => Wf.chClear ses ch
  | .ecatSync0 line k => Wf.ecatSync0 line k
  | .ecatInputLaunch line => Wf.ecatInputLaunch line
  | .ecatInputFrame line k image fcsOk wkcOk => Wf.ecatInputFrame line k image fcsOk wkcOk
  | .ecatRingChange line st delay found => Wf.ecatRingChange line st delay found
  | .ecatLineProbe line found st delay answer => Wf.ecatLineProbe line found st delay answer
  | .pcieLinkChange l0 bme d3 rate width aerC aerU jobs => Wf.pcieLinkChange l0 bme d3 rate width aerC aerU jobs
  | .functionLevelReset => Wf.functionLevelReset
  | .perstRelease => Wf.perstRelease
  | .ethLaneRetireAuto lane cause => Wf.ethLaneRetireAuto lane cause
  | .laneRetire ses port k => Wf.laneRetire ses port k
  | .roceAckTimeout qp jobs => Wf.roceAckTimeout qp jobs
  | .collectiveExchange job x => Wf.collectiveExchange job x
  | .collectiveTimeout job => Wf.collectiveTimeout job
  | .slaveLinkLoss => Wf.slaveLinkLoss
  | .csiFrameStart port vc num hdr => Wf.csiFrameStart port vc num hdr
  | .csiLinePacket port vc dt hdr crcOk data => Wf.csiLinePacket port vc dt hdr crcOk data
  | .csiFrameEnd port vc hdr => Wf.csiFrameEnd port vc hdr
  | .csiFrameTimeout port => Wf.csiFrameTimeout port
  | .spiSampleTransfer port k edge => Wf.spiSampleTransfer port k edge
  | .spiTransferEnd port bytes => Wf.spiTransferEnd port bytes
  | .vioOutOfRange port mv => Wf.vioOutOfRange port mv
  | .ethPortLinkChange port rate => Wf.ethPortLinkChange port rate
  | .slaveLinkReturn station => Wf.slaveLinkReturn station
  | .vioBackInRange port mv => Wf.vioBackInRange port mv
  | .arpOrIcmpEchoRequest port reply => Wf.arpOrIcmpEchoRequest port reply
  | .powerOn addr refclk mv => Wf.powerOn addr refclk mv
  | .powerLoss => Wf.powerLoss
  | .powerGoodRise => Wf.powerGoodRise
  | .pwrGoodDriven => Wf.pwrGoodDriven
  | .shutdownRestart mv => Wf.shutdownRestart mv
  | .resetNPulse ns stays => Wf.resetNPulse ns stays
  | .identityReconstructed ok cert issuers => Wf.identityReconstructed ok cert issuers
  | .imageVerify kind s0 s1 fails => Wf.imageVerify kind s0 s1 fails
  | .lpddrTrainingDone ns failed repaired => Wf.lpddrTrainingDone ns failed repaired
  | .initComplete bad => Wf.initComplete bad
  | .autoOperational => Wf.autoOperational
  | .cmdOperational ses => Wf.cmdOperational ses
  | .cmdPreOperational ses => Wf.cmdPreOperational ses
  | .cmdService ses => Wf.cmdService ses
  | .cmdLeaveService ses => Wf.cmdLeaveService ses
  | .cmdWarmReset ses => Wf.cmdWarmReset ses
  | .cmdColdReset ses => Wf.cmdColdReset ses
  | .alStateRequest al => Wf.alStateRequest al
  | .imgWrite ses kind v => Wf.imgWrite ses kind v
  | .imageWriteVerified sigOk chainOk vals blobs => Wf.imageWriteVerified sigOk chainOk vals blobs
  | .imgActivate ses kind v => Wf.imgActivate ses kind v
  | .handoverPoint => Wf.handoverPoint
  | .policyReady => Wf.policyReady
  | .handoverReadyTimeout => Wf.handoverReadyTimeout
  | .policyTrialEnd => Wf.policyTrialEnd
  | .policyWatchdogExpiry => Wf.policyWatchdogExpiry
  | .imgCounterCommit ses kind v => Wf.imgCounterCommit ses kind v
  | .settingsStoreDone => Wf.settingsStoreDone
  | .progImage ses v => Wf.progImage ses v
  | .progLoadDone ses sigOk chainOk decl => Wf.progLoadDone ses sigOk chainOk decl
  | .progUnload ses h => Wf.progUnload ses h
  | .progCounterCommit ses v => Wf.progCounterCommit ses v
  | .attestGo ses v => Wf.attestGo ses v
  | .attestReportReady ses => Wf.attestReportReady ses
  | .authChallenge ses => Wf.authChallenge ses
  | .debugToken ses t => Wf.debugToken ses t
  | .debugEnd ses v => Wf.debugEnd ses v
  | .tokenLifetimeExpiry ses debug => Wf.tokenLifetimeExpiry ses debug
  | .senseInvalid sense blade => Wf.senseInvalid sense blade
  | .senseValidReturn sense blade => Wf.senseValidReturn sense blade
  | .clearFaults => Wf.clearFaults
  | .capability => Wf.capability
  | .statusWord => Wf.statusWord
  | .statusInput => Wf.statusInput
  | .statusTemperature => Wf.statusTemperature
  | .statusCml => Wf.statusCml
  | .readVin => Wf.readVin
  | .readIin => Wf.readIin
  | .readTemperature1 => Wf.readTemperature1
  | .readTemperature2 => Wf.readTemperature2
  | .readPin => Wf.readPin
  | .pmbusRevision => Wf.pmbusRevision
  | .mfrId => Wf.mfrId
  | .mfrModel => Wf.mfrModel
  | .mfrPinLimit w => Wf.mfrPinLimit w
  | .mfrPinLimitEn w => Wf.mfrPinLimitEn w
  | .mfrDeviceState => Wf.mfrDeviceState
  | .mfrActiveCauses => Wf.mfrActiveCauses
  | .pmbusUnsupportedCommand code => Wf.pmbusUnsupportedCommand code
  | .alertResponse => Wf.alertResponse
  | .uartRxCharacter ch => Wf.uartRxCharacter ch
  | .testEnChange level => Wf.testEnChange level
  | .tapTestLogicReset => Wf.tapTestLogicReset
  | .extest din cap => Wf.extest din cap
  | .samplePreload din cap => Wf.samplePreload din cap
  | .extestPulse din cap => Wf.extestPulse din cap
  | .extestTrain din cap => Wf.extestTrain din cap
  | .idcode din cap => Wf.idcode din cap
  | .clamp din cap => Wf.clamp din cap
  | .highz din cap => Wf.highz din cap
  | .bypass din cap => Wf.bypass din cap

end Sys2Proof
end

