-- ==== Sys2Proof/Machine/Fusion.lean ====
section
/-! DEFINITION. The commands of the fusion engine (R324 to R341). -/

namespace Sys2Proof.Machine
open Act

/-- FUSION_SAMPLE_ARRIVAL (R324 to R327, R338): a sample of an SPI port or an EtherCAT line arrives with its 32-byte header; the source's group applies at its next sample. -/
def execFusionSampleArrival (src : Nat) (header payload : List Byte) (m : Meas) (s : State) : Host.Outcome State Fault Refusal :=
  need (Wf.fusionSampleArrival src header payload m) s <| all [
    .read fun s => when (decide (2 ≤ s.dev)) (takeIfPending (sourceCtl src)),
    .read fun s =>
      let at' (i n : Nat) : Nat := ofLe ((header.drop i).take n)
      when (s.feeds src && oneOf (s.get (Obj.SRC_KIND src)) [1, 2])
        (arrive src (at' 2 2) (at' 8 4 == crc 4 (header.take 8 ++ header.drop 12 ++ payload)) payload (at' 16 8) (at' 24 2) m),
    settle]

/-- PROGRAM_MEASUREMENT (R341): a job publishes a measurement of a source it declares, with the ToV it gives; the device makes its header. -/
def execProgramMeasurement (job src tov frac : Nat) (m : Meas) (s : State) : Host.Outcome State Fault Refusal :=
  need (Wf.programMeasurement job src tov frac m) s <| all [
    .read fun s => match Tab.get? s.u.tt.jobs job with
      | none => .skip
      | some y => when (y.decl.sources.contains src && (y.phase == .running || y.phase == .draining)) (all [
          takeIfPending (sourceCtl src),
          .read fun s =>
            if ¬ s.measFits src m then .count 32 Obj.PROGRAM_REFUSED 1
            else when (s.feeds src && s.get (Obj.SRC_KIND src) == 4) (own src tov frac m)]),
    settle]

/-- FUSION_INPUT_RELEASE (R330 to R335): the earliest input whose ToV + `ALIGN_DELAY_NS` has passed is processed; `crcBad`: the outputs whose record's CRC is found wrong. -/
def execFusionInputRelease (n : Nat) (crcBad : List Nat) (s : State) : Host.Outcome State Fault Refusal :=
  need (Wf.fusionInputRelease n crcBad) s <| all [
    .read fun s =>
      if ¬ s.filterOn n then .skip
      else all [
        takeIfPending (filterCtl n),
        .read fun s =>
          let f := s.filter n
          match f.queue with
          | [] => .skip
          | i :: rest =>
            let oldest := f.hist.foldl (fun m e => min m e.tov) (f.last.getD f.started)
            let before := s.get (Obj.UPDATES n)
            if s.ns ≤ i.tov + s.get (Obj.ALIGN_DELAY_NS n) then .skip
            else all [
              .filter n (fun y => { y with queue := rest }),
              if s.get (Obj.SRC_MEAS_KIND i.src) = 6 ∧ i.m.earlier < oldest then .count 32 (Obj.SRC_LATE_DROPPED i.src) 1
              else all [
                process n (s.eventOf i.src i.tov i.frac i.m),
                .read fun s => when (decide (before < s.get (Obj.UPDATES n))) (each (s.outputsOf n) fun o => all [
                  takeIfPending (outputCtl o),
                  .read fun s => when (s.get (Obj.OUT_ON_UPDATE o) != 0 && s.get (Obj.OUT_FILTER o) == n)
                    (publish o i.tov i.frac 0 false (s.estAt n (i.tov, i.frac)) (crcBad.contains o))])]]],
    settle]

/-- PERIODIC_PUBLICATION (R335): output `o` publishes at ToV `k` × `OUT_PERIOD_NS`, to which its filter is propagated once the inputs up to it have been released. -/
def execPeriodicPublication (o k : Nat) (crcBad : Bool) (s : State) : Host.Outcome State Fault Refusal :=
  need (Wf.periodicPublication o k crcBad) s <| all [
    .read fun s => when (decide (2 ≤ s.dev)) (takeIfPending (outputCtl o)),
    .read fun s =>
      let n := s.get (Obj.OUT_FILTER o)
      let f := s.filter n
      let tov := k * s.get (Obj.OUT_PERIOD_NS o)
      let due : Bool := decide (f.started ≤ tov ∧ tov + s.get (Obj.ALIGN_DELAY_NS n) ≤ s.ns) && f.queue.all (fun i => decide (tov < i.tov))
        && (s.outRec o).pubs.all (fun p => decide (p.1 < tov))
      if s.get (Obj.OUT_PERIOD_NS o) = 0 ∨ 8 ≤ n ∨ ¬ s.filterOn n ∨ ¬ due then .skip
      else all [
        takeIfPending (filterCtl n),
        when (f.last.all (fun l => decide (l ≤ tov))) (place n { src := 64, group := 64, tov := tov, frac := 0 }),
        .read fun s => publish o tov 0 0 false (s.estAt n (tov, 0)) crcBad],
    settle]

/-- A write of `v` to `FILTER_COMMAND` of filter `n` (R340): 1 start, 2 stop, 3 reset to `MODEL_DATA`. -/
def filterCommand (n v : Nat) (s : State) : WriteRes :=
  if v = 1 then
    if (s.dev ≠ Dev.OP ∧ s.dev ≠ Dev.HOLD) ∨ s.pendingOr (Obj.FILTER_MODEL n) = 0 then .no Ab.STATE_FORBIDS
    else if s.filterOn n then .ok .skip
    else .ok (all [
      takeIfPending (filterCtl n), needDomain 74,
      .put (Obj.FILTER_STATE n) 1,
      .read fun s => .filter n (fun _ => { started := s.ns, base := s.initEst n (s.ns, s.frac) [] })])
  else if v = 2 then .ok (stopFilter n)
  else .ok (when (s.filterOn n) (all [takeIfPending (filterCtl n), .read fun s =>
    place n { src := 65, group := 64, tov := max s.ns ((s.filter n).last.getD 0), frac := 0 }]))

/-- FILTER_START. -/
def execFilterStart (ses n : Nat) (s : State) : Host.Outcome State Fault Refusal :=
  need (Wf.filterStart ses n) s <| guarded ses (Obj.FILTER_COMMAND n) 1 .sup true (filterCommand n 1)

/-- FILTER_STOP. -/
def execFilterStop (ses n : Nat) (s : State) : Host.Outcome State Fault Refusal :=
  need (Wf.filterStop ses n) s <| guarded ses (Obj.FILTER_COMMAND n) 2 .sup true (filterCommand n 2)

/-- FILTER_RESET. -/
def execFilterReset (ses n : Nat) (s : State) : Host.Outcome State Fault Refusal :=
  need (Wf.filterReset ses n) s <| guarded ses (Obj.FILTER_COMMAND n) 3 .sup true (filterCommand n 3)

end Sys2Proof.Machine
end

