-- ==== Sys2Proof/Machine/ControlOps.lean ====
section
/-! DEFINITION. The control engine below its commands: block floating arithmetic (R79, R80, R372 to R374), coefficient sets and maps (R387, R388), command
paths and background updates (R375 to R385), the images the commands go to. -/

namespace Sys2Proof.Machine
open Act

/-! ## Block floating arithmetic (R372) -/

/-- A block that the engine has not itself computed: all zero, its exponent counts as 127 (R79). -/
def Blk.given (b : Blk) : Blk := if b.m.all (· == 0) then { b with e := 127 } else b

/-- A block read from its words: at the largest exponent, the other mantissas shifted right (R79). -/
def Blk.load (ws : List Nat) : Blk :=
  let e := ws.foldl (fun m w => max m (w % 256)) 0
  let man (w : Nat) : Int :=
    let m := toSigned 24 (w / 256 % 16777216)
    signed (decide (m < 0)) (roundShift m.natAbs (e - w % 256))
  (Blk.mk e (ws.map man)).given

/-- Element `i` of a block as a value. -/
def Blk.get (b : Blk) (i : Nat) : Num := .ofInt (b.m.getD i 0) (Int.ofNat b.e - 150)

/-- A block of `n` zeros. -/
def Blk.zeros (n : Nat) : Blk := { m := List.replicate n 0 }

/-- A mantissa fits its 24 bits. -/
def fits24 (m : Int) : Bool := decide (-8388608 ≤ m) && decide (m ≤ 8388607)

/-- A value's mantissa at exponent `e`, rounded. -/
def manAt (e : Nat) (n : Num) : Int := match n with
  | .fin a m x => signed a (toGrid m x (Int.ofNat e - 150))
  | _ => 0

/-- The smallest exponent that holds every element, tried from just below the binade of the largest; 255 where none does. -/
def holdExp (xs : List Num) : Nat :=
  let top := xs.foldl (fun (m : Int) x => match x with
    | .fin _ k e => if k = 0 then m else max m (e + Int.ofNat (Nat.log2 k))
    | _ => m) (-200)
  let c := (top + 127).toNat
  match [c, c + 1, c + 2].find? (fun e => xs.all (fun x => fits24 (manAt e x))) with
  | some e => min 255 e
  | none => 255

/-- Elements rounded into a block of exponent `e`, with how many were set to the range end. -/
def blkAt (e : Nat) (xs : List Num) : Blk × Nat :=
  let ms := xs.map (manAt e)
  ({ e := e, m := ms.map (fun m => max (-8388608) (min 8388607 m)) }, (ms.filter (fun m => !fits24 m)).length)

/-- Values enter a block, each rounded once (R375). -/
def toBlk (xs : List Num) : Blk × Nat :=
  if xs.all (fun x => x.abs == .zero || (match x with
    | .fin _ m _ => m == 0
    | _ => false)) then (Blk.zeros xs.length, 0) else blkAt (holdExp xs) xs

/-- A term of a sum: a mantissa product or a mantissa, and its exponent. -/
abbrev Term := Int × Int

/-- The products of a row with a vector. -/
def Blk.dot (r v : Blk) : List Term := (r.m.zip v.m).map fun p => (p.1 * p.2, Int.ofNat r.e + Int.ofNat v.e - 300)

/-- The same with the sign turned. -/
def minusTerms (ts : List Term) : List Term := ts.map fun t => (-t.1, t.2)

/-- Element `i` of a vector as a term. -/
def Blk.term (b : Blk) (i : Nat) : Term := (b.m.getD i 0, Int.ofNat b.e - 150)

/-- A sum in the 40-bit accumulator of reference exponent `eo`, with 1 where it saturates (R372, R373). -/
def accSum (eo : Nat) (ts : List Term) : Int × Nat :=
  let s := (ts.map fun t => signed (decide (t.1 < 0)) (toGrid t.1.natAbs t.2 (Int.ofNat eo - 158))).foldl (· + ·) 0
  if s < -549755813888 then (-549755813888, 1) else if 549755813887 < s then (549755813887, 1) else (s, 0)

/-- A computation into an output vector (R372): the block, and its `ACC_OVERFLOWS`. -/
def compute (eo : Nat) (rows : List (List Term)) : Blk × Nat :=
  let sums := rows.map (accSum eo)
  let xs := sums.map fun s => Num.ofInt s.1 (Int.ofNat eo - 158)
  let spilt := (sums.map (·.2)).foldl (· + ·) 0
  if sums.all (fun s => s.1 == 0) then ({ e := eo, m := sums.map (fun _ => 0) }, spilt)
  else
    let r := blkAt (holdExp xs) xs
    (r.1, spilt + r.2)

/-- A matrix times a vector, added to a vector. -/
def affine (eo : Nat) (base : Option Blk) (rows : List Blk) (v : Blk) (neg : Bool) : Blk × Nat :=
  compute eo ((List.range rows.length).map fun i =>
    (match base with
      | some b => [b.term i]
      | none => []) ++
    (let ts := (rows.getD i {}).dot v
     if neg then minusTerms ts else ts))

/-! ## Coefficient sets and maps -/

/-- The number in `n` bytes from offset `at'` on. -/
def fieldAt (bs : List Byte) (at' n : Nat) : Nat := ofLe ((bs.drop at').take n)

/-- A coefficient set (R387). -/
structure Coeffs where
  kind : Nat
  nx : Nat
  ny : Nat
  nu : Nat
  nr : Nat
  period : Nat
  flags : Nat
  body : List Byte
  deriving DecidableEq, Repr

/-- The set that bytes hold. -/
def Coeffs.ofBytes (bs : List Byte) : Coeffs :=
  ⟨fieldAt bs 0 1, fieldAt bs 1 1, fieldAt bs 2 1, fieldAt bs 3 1, fieldAt bs 4 1, fieldAt bs 8 4, fieldAt bs 12 4, bs.drop 16⟩

/-- `n` rows of `w` words from word `at'` of the set's blocks on. -/
def Coeffs.rows (c : Coeffs) (at' n w : Nat) : List Blk :=
  (List.range n).map fun i => Blk.load ((List.range w).map fun j => fieldAt c.body (4 * (at' + i * w + j)) 4)

def Coeffs.A (c : Coeffs) : List Blk := c.rows 0 c.nx c.nx
def Coeffs.B (c : Coeffs) : List Blk := c.rows (c.nx * c.nx) c.nx c.nu
def Coeffs.C (c : Coeffs) : List Blk := c.rows (c.nx * (c.nx + c.nu)) c.ny c.nx
def Coeffs.L (c : Coeffs) : List Blk := c.rows (c.nx * (c.nx + c.nu + c.ny)) c.nx c.ny
def Coeffs.K (c : Coeffs) : List Blk := c.rows (c.nx * (c.nx + c.nu + 2 * c.ny)) c.nu c.nx
def Coeffs.N (c : Coeffs) : List Blk := c.rows (c.nx * (c.nx + 2 * c.nu + 2 * c.ny)) c.nu c.nr
def Coeffs.X0 (c : Coeffs) : Blk := (c.rows (c.nx * (c.nx + 2 * c.nu + 2 * c.ny) + c.nu * c.nr) 1 c.nx).headD {}

/-- The words of a set's blocks. -/
def Coeffs.words (c : Coeffs) : Nat :=
  if c.kind = 1 then c.nx * (c.nx + 2 * c.nu + 2 * c.ny) + c.nu * c.nr + c.nx else 12

/-- Without its last element where the set is of two poles and two zeros (R378). -/
def Coeffs.short (c : Coeffs) (b : Blk) : Blk := if c.kind = 2 then { b with m := b.m.dropLast ++ [0] } else b

/-- A compensator's b, a, notch b and notch a. -/
def Coeffs.b (c : Coeffs) : Blk := c.short ((c.rows 0 1 4).headD {})
def Coeffs.a (c : Coeffs) : Blk := c.short ((c.rows 4 1 3).headD {})
def Coeffs.nb (c : Coeffs) : Blk := (c.rows 7 1 3).headD {}
def Coeffs.na (c : Coeffs) : Blk := (c.rows 10 1 2).headD {}

/-- An input of a map (R387). -/
structure InMap where
  pos : Nat
  typ : Nat
  gain : Nat
  off : Nat
  lo : Nat
  hi : Nat
  deriving DecidableEq, Repr

/-- An output of a map. -/
structure OutMap where
  dest : Nat
  port : Nat
  typ : Nat
  meas : Nat
  pos : Nat
  gain : Nat
  off : Nat
  lo : Nat
  hi : Nat
  safe : Nat
  step : Nat
  flags : Nat
  deriving DecidableEq, Repr

/-- A map. -/
structure IoMap where
  nIn : Nat
  nOut : Nat
  srcType : Nat
  srcUnit : Nat
  ins : List InMap
  outs : List OutMap
  deriving DecidableEq, Repr

/-- The map that bytes hold. -/
def IoMap.ofBytes (bs : List Byte) : IoMap :=
  let n := fieldAt bs 0 1
  let m := fieldAt bs 1 1
  { nIn := n, nOut := m, srcType := fieldAt bs 2 1, srcUnit := fieldAt bs 3 1
    ins := (List.range (min n 8)).map fun i =>
      let o := 16 + 24 * i
      ⟨fieldAt bs o 4, fieldAt bs (o + 4) 1, fieldAt bs (o + 8) 4, fieldAt bs (o + 12) 4, fieldAt bs (o + 16) 4, fieldAt bs (o + 20) 4⟩
    outs := (List.range (min m 8)).map fun j =>
      let o := 16 + 24 * n + 40 * j
      ⟨fieldAt bs o 1, fieldAt bs (o + 1) 1, fieldAt bs (o + 2) 1, fieldAt bs (o + 3) 1, fieldAt bs (o + 4) 4, fieldAt bs (o + 8) 4,
        fieldAt bs (o + 12) 4, fieldAt bs (o + 16) 4, fieldAt bs (o + 20) 4, fieldAt bs (o + 24) 4, fieldAt bs (o + 28) 4, fieldAt bs (o + 32) 4⟩ }

/-- The live bytes of a DOMAIN object. -/
def State.blob (s : State) (k : Nat) : List Byte := Tab.at s.u.dict.blobs k []

/-- The bytes in a DOMAIN object's shadow, or else the live ones (R43). -/
def State.shadowBlob (s : State) (k : Nat) : List Byte := match Tab.get? s.u.dict.blobShadow k with
  | some bs => bs
  | none => s.blob k

/-- Channel `c`'s live set and map. -/
def State.coeffs (s : State) (c : Nat) : Coeffs := Coeffs.ofBytes (s.blob (Obj.COEFFS c))
def State.ioMap (s : State) (c : Nat) : IoMap := IoMap.ofBytes (s.blob (Obj.IO_MAP c))

/-- The record of channel `c`. -/
def State.chan (s : State) (c : Nat) : ChanS := Tab.at s.u.ctrl.ch c {}

/-- Change channel `c`'s record. -/
def Act.chan (c : Nat) (f : ChanS → ChanS) : Act := .units fun u => { u with ctrl := { ch := Tab.upd u.ctrl.ch c {} f } }

/-- Change the links' record. -/
def Act.links (f : LinkS → LinkS) : Act := .units fun u => { u with links := f u.links }

/-- The record of an EtherCAT line, and a change of it. -/
def State.line (s : State) (l : Nat) : LineS := Tab.at s.u.links.lines l {}
def Act.line (l : Nat) (f : LineS → LineS) : Act := .links fun x => { x with lines := Tab.upd x.lines l {} f }

/-- The record of an SPI port, and a change of it. -/
def State.spi (s : State) (p : Nat) : SpiS := Tab.at s.u.links.spi p {}
def Act.spi (p : Nat) (f : SpiS → SpiS) : Act := .links fun x => { x with spi := Tab.upd x.spi p {} f }

/-! ## Images (log entry 5) -/

/-- Where a line's input and output images lie, and an SPI port's received and command bytes. -/
def lineIn (l : Nat) : Nat := 1125899906842624 + 4096 * l
def lineOut (l : Nat) : Nat := 1125899906859008 + 4096 * l
def spiIn (p : Nat) : Nat := 1125899906875392 + 64 * p
def spiOut (p : Nat) : Nat := 1125899906879488 + 64 * p

/-- The bits of a value type of a map. -/
def typBits : Nat → Nat
  | 1 | 3 => 16
  | 5 => 24
  | _ => 32

/-- The bytes an SPI value of type `t` takes at word `w`: whole words, most significant first (R494; log entry 56). -/
def State.spiSpan (s : State) (p t w : Nat) : Nat × Nat :=
  let wb := s.get (Obj.SPI_WORD_BITS p)
  (w * (wb / 8), ceilDiv (typBits t) (max 8 wb) * (wb / 8))

/-- The raw bits of input `i` of a channel whose source has delivered. -/
def State.rawIn (s : State) (m : IoMap) (i : InMap) : Nat :=
  if m.srcType = 1 then ofLe (s.mread (lineIn m.srcUnit + i.pos) (typBits i.typ / 8))
  else
    let sp := s.spiSpan m.srcUnit i.typ i.pos
    ofLe (s.mread (spiIn m.srcUnit + sp.1) sp.2).reverse % 2 ^ typBits i.typ

/-- The value of raw bits (R375). -/
def rawNum (t raw : Nat) : Num := match t with
  | 1 => num (toSigned 16 raw)
  | 2 => num (toSigned 32 raw)
  | 3 => num (Int.ofNat raw)
  | 4 => fp raw
  | _ => num (toSigned 24 raw)

/-- The input values of a sample; none where it is implausible (R375, R383). -/
def State.sampleIn (s : State) (m : IoMap) : Option (List Num) :=
  let ys := m.ins.map fun i =>
    let raw := rawNum i.typ (s.rawIn m i)
    let y := (((raw.add (fp i.off).minus).mul (fp i.gain))).r32
    (y, raw.isFin && (fp i.lo).le y && y.le (fp i.hi))
  if ys.all (·.2) then some (ys.map (·.1)) else none

/-- A command as its output type (R375). -/
def OutMap.code (o : OutMap) (u : Nat) : Nat :=
  let x := (((fp u).mul (fp o.gain)).add (fp o.off)).r32
  match o.typ with
  | 4 => (fp32.encode true 0 x).1
  | 3 => match x with
    | .fin a m e => (max 0 (min 65535 (signed a (toGrid m e 0)))).toNat
    | .inf a => if a then 0 else 65535
    | .nan _ => 0
  | t => (encodeInt (typBits t) x).1

/-- Output value `u` is written where its map sends it. -/
def writeOutput (m : IoMap) (o : OutMap) (u : Nat) : Act := .read fun s =>
  let code := o.code u
  if o.dest = 1 then .poke (lineOut m.srcUnit + o.pos) (le (typBits o.typ / 8) code)
  else
    let sp := s.spiSpan o.port o.typ o.pos
    .poke (spiOut o.port + sp.1) (le sp.2 code).reverse

/-! ## Departure (R370, R371, R484, R495) -/

/-- Channel `c` is not OFF and writes to a line, or to an SPI port. -/
def State.writesLine (s : State) (l c : Nat) : Bool :=
  s.get (Obj.CH_STATE c) != 0 && (let m := s.ioMap c
    m.srcType == 1 && m.srcUnit == l && m.outs.any (fun o => o.dest == 1))
def State.writesPort (s : State) (p c : Nat) : Bool :=
  s.get (Obj.CH_STATE c) != 0 && (s.ioMap c).outs.any (fun o => o.dest == 2 && o.port == p)

/-- The channels that have a record. -/
def State.chans (s : State) : List Nat := s.u.ctrl.ch.map (·.1)

/-- The length of a line's command image: up to the last byte that a channel's map writes. -/
def State.imageLen (s : State) (l : Nat) : Nat :=
  s.chans.foldl (fun n c =>
    let m := s.ioMap c
    if m.srcType = 1 ∧ m.srcUnit = l then m.outs.foldl (fun n o => if o.dest = 1 then max n (o.pos + typBits o.typ / 8) else n) n else n) 0

/-- The line's cycle runs: enabled, reachable, in a state with a cycle (R486). -/
def State.lineRuns (s : State) (l : Nat) : Bool := s.get (Obj.LINE_ENABLE l) != 0 && s.get (Obj.LINE_STATE l) != 0 && decide (2 ≤ s.dev)

/-- The command frame of cycle `k` of line `l` is launched at `at'`: late when past SYNC1 minus the ring delay, and sent all the same (R484). -/
def launchCommand (l k at' : Nat) : Act := .read fun s =>
  let sync1 := s.get (Obj.LINE_PHASE_NS l) + k * s.get (Obj.LINE_CYCLE_NS l) + s.get (Obj.APPLY_OFFSET_NS l)
  all [
    .line l (fun x => { x with wrote := [] }),
    when (s.lineRuns l) (all [
      .emit (.frame (.ecatCommand l) (s.mread (lineOut l) (s.imageLen l))),
      when (decide (sync1 < at' + s.get (Obj.RING_DELAY_NS l))) (.count 32 (Obj.COMMAND_LATE l) 1)])]

/-- Launch line `l`'s command frame of cycle `k` once every channel that must has written. -/
def launchIfDue (l k at' : Nat) : Act := .read fun s =>
  let need := s.chans.filter (s.writesLine l)
  let wrote := (s.line l).wrote
  when (!wrote.isEmpty && need.all wrote.contains) (launchCommand l k at')

/-- The command transfer of SPI port `p` starts once every channel that writes to it has written; a bank out of its supply range makes none (R528). -/
def transferIfDue (p : Nat) : Act := .read fun s =>
  let need := s.chans.filter (s.writesPort p)
  let wrote := (s.spi p).wrote
  when (!wrote.isEmpty && need.all wrote.contains) (all [
    .spi p (fun x => { x with wrote := [] }),
    when (s.get (Obj.SPI_LENGTH p) != 0 && !(s.spi p).vioOut) (all [
      .emit (.frame (.spi p) (s.mread (spiOut p) (s.get (Obj.SPI_LENGTH p)))),
      .count 64 (Obj.SPI_TRANSFERS p) 1])])

/-- Channel `c` has written its commands for cycle `k` at `at'`. -/
def depart (c k at' : Nat) : Act := .read fun s =>
  let m := s.ioMap c
  let ports := ((m.outs.filter (fun o => o.dest == 2)).map (·.port)).eraseDups
  all [
    when (m.srcType == 1 && m.outs.any (fun o => o.dest == 1)) (all [
      .line m.srcUnit (fun x => { x with wrote := c :: x.wrote.filter (· != c) }), launchIfDue m.srcUnit k at']),
    each ports (fun p => all [.spi p (fun x => { x with wrote := c :: x.wrote.filter (· != c) }), transferIfDue p])]

/-- The `U_SAFE` values of channel `c` stand in its output bytes (R371). -/
def writeSafe (c : Nat) : Act := .read fun s =>
  let m := s.ioMap c
  each ((List.range m.outs.length).zip m.outs) fun o => all [writeOutput m o.2 o.2.safe, .put (Obj.U_LAST c o.1) o.2.safe]

/-- Channel `c` goes OFF (R391, R393). -/
def goOff (c : Nat) : Act := .read fun s =>
  if s.get (Obj.CH_STATE c) = 0 then .chan c fun x => { x with begin := false }
  else
    let m := s.ioMap c
    all [
      writeSafe c,
      .put (Obj.CH_STATE c) 0,
      .chan c (fun x => { x with
        begin := false, ramp := false, bg := none, fold := none, missing := [] }),
      when (m.srcType == 1) (launchIfDue m.srcUnit ((s.line m.srcUnit).cycle.getD 0) s.ns),
      each ((m.outs.filter (fun o => o.dest == 2)).map (·.port)).eraseDups transferIfDue]

/-- Every channel that is not OFF goes OFF (R391). -/
def channelsOff : Act := .read fun s => each s.chans goOff

/-! ## The observer (R376) and the compensator's section (R378) -/

/-- Count overflows of the arithmetic. -/
def overflows (c n : Nat) : Act := when (n != 0) (.count 32 (Obj.ACC_OVERFLOWS c) n)

/-- The reference in use, as a block of `nr` elements. -/
def ChanS.refBlk (x : ChanS) (nr : Nat) : Blk × Nat := toBlk ((List.range nr).map fun i => fp (x.ref.getD i 0))

/-- ŷ and v from x̂ (R376), at the exponents they had. -/
def precompute (c : Nat) : Act := .read fun s =>
  let k := s.coeffs c
  let x := s.chan c
  let r := x.refBlk k.nr
  let y := affine x.yhat.e none k.C x.x false
  let v := compute x.v.e ((List.range k.nu).map fun i =>
    minusTerms ((k.K.getD i {}).dot x.x) ++ (k.N.getD i {}).dot r.1)
  all [.chan c (fun z => { z with yhat := y.1, v := v.1 }), overflows c (y.2 + v.2 + r.2)]

/-- x̂ is loaded from the set's X0; a compensator starts from rest. -/
def loadState (c : Nat) : Act := .read fun s =>
  let k := s.coeffs c
  if c < 256 then all [
    .chan c (fun x => { x with
      x := k.X0, yhat := {}, v := {}, eE := 127, uE := 127, xE := k.X0.e, bg := none, fold := none }),
    precompute c]
  else .chan c fun x => { x with
    d := Blk.zeros 3, n := Blk.zeros 2, err := Blk.zeros 1, eE := 127, uE := 127, nE := 127, bg := none, fold := none }

/-- The background update of channel `c`, if one is due (R376): x, x̂, ŷ and v from e and the command as sent. -/
def backgroundUpdate (c : Nat) : Act := .read fun s =>
  let k := s.coeffs c
  let x := s.chan c
  match x.bg with
  | none => .skip
  | some (e, u) =>
    let est := match e with
      | some e => affine x.xE (some x.x) k.L e false
      | none => (x.x, 0)
    let pred := compute x.x.e ((List.range k.nx).map fun i => (k.A.getD i {}).dot est.1 ++ (k.B.getD i {}).dot u)
    all [
      .chan c (fun z => { z with
        bg := none, x := pred.1, xE := est.1.e }),
      overflows c (est.2 + pred.2),
      precompute c]

/-- A late sample's correction is folded in (R385). -/
def lateFold (c : Nat) : Act := .read fun s =>
  let x := s.chan c
  match x.fold with
  | none => .skip
  | some e =>
    let a := affine x.x.e (some x.x) x.mP e false
    let b := affine x.yhat.e (some x.yhat) x.mCP e false
    let v := affine x.v.e (some x.v) x.mKP e false
    all [
      .chan c (fun z => { z with
        fold := none, x := a.1, yhat := b.1, v := v.1 }),
      .count 32 (Obj.LATE c) 1,
      overflows c (a.2 + b.2 + v.2)]

/-- A new reference is folded in: v gains N Δr (R389). -/
def refFold (c : Nat) : Act := .read fun s =>
  let x := s.chan c
  match x.newRef with
  | none => .skip
  | some (vals, tov) =>
    let k := s.coeffs c
    let dr := toBlk ((List.range k.nr).map fun i => (fp (vals.getD i 0)).add (fp (x.ref.getD i 0)).minus)
    let v := affine x.v.e (some x.v) k.N dr.1 false
    all [
      .chan c (fun z => { z with
        newRef := none, ref := vals, v := if c < 256 ∧ ¬ x.v.m.isEmpty then v.1 else z.v }),
      .put (Obj.REF_TOV c) tov,
      when (decide (c < 256) && !x.v.m.isEmpty) (overflows c (v.2 + dr.2))]

/-! ## Banks (R386, R387) -/

/-- A matrix product, exact. -/
def exactMul (a b : List (List Num)) (cols : Nat) : List (List Num) :=
  a.map fun r => (List.range cols).map fun j =>
    ((List.range r.length).map fun i => (r.getD i .zero).mul ((b.getD i []).getD j .zero)).foldl Num.add .zero

/-- The rows of blocks as values. -/
def exactRows (rows : List Blk) : List (List Num) := rows.map fun r => (List.range r.m.length).map r.get

/-- The derived matrices M, P, CP and KP of a set, each rounded once (R376), and whether an element lies beyond the BFP24 range. -/
def Coeffs.derived (c : Coeffs) : (List Blk × List Blk × List Blk × List Blk) × Bool :=
  let A := exactRows c.A
  let C := exactRows c.C
  let L := exactRows c.L
  let K := exactRows c.K
  let P := exactMul A L c.ny
  let m := (exactMul K L c.ny).map (fun r => toBlk (r.map Num.minus))
  let p := P.map toBlk
  let cp := (exactMul C P c.ny).map toBlk
  let kp := (exactMul K P c.ny).map (fun r => toBlk (r.map Num.minus))
  ((m.map (·.1), p.map (·.1), cp.map (·.1), kp.map (·.1)), (m ++ p ++ cp ++ kp).any (fun b => b.2 != 0))

/-- The control block of channel `c`'s group. -/
abbrev chanCtl (c : Nat) : Nat := 0x2B00 + c

/-- Channel `c`'s group applies: the banks swap (R387). An OFF channel takes it at once, and its output bytes hold the `U_SAFE` values of its map. -/
def applyChannel (c : Nat) : Act := all [
  groupTake (chanCtl c),
  .read fun s =>
    let k := s.coeffs c
    let d := k.derived.1
    let st := s.get (Obj.CH_STATE c)
    all [
      .modify (Obj.BANK_ACTIVE c) (fun b => 1 - b),
      .put (Obj.SWAP_SAMPLE c) (s.get (Obj.SAMPLES c) + 1),
      .chan c (fun x => if c < 256 then { x with mM := d.1, mP := d.2.1, mCP := d.2.2.1, mKP := d.2.2.2 } else x),
      if st = 0 then writeSafe c
      else all [
        when (k.flags / 2 % 2 == 1) (all [loadState c, when (st == 1 || st == 2) (.chan c fun x => { x with begin := true, load := false })]),
        when (decide (c < 256) && k.flags / 2 % 2 == 0) (precompute c)]]]

/-- Channel `c` has reached a sample boundary. -/
def boundary (c : Nat) : Act := .read fun s => when (s.groupPending (chanCtl c)) (applyChannel c)

/-- The background update that is due completes, and with it the channel is at its boundary. -/
def updateDone (c : Nat) : Act := .read fun s => when (s.chan c).bg.isSome (all [backgroundUpdate c, boundary c])

/-! ## Commands (R375, R382 to R384, R392) -/

/-- A value limited to an output's range. -/
def OutMap.limit (o : OutMap) (u : Nat) : Nat := if (fp u).lt (fp o.lo) then o.lo else if (fp o.hi).lt (fp u) then o.hi else u

/-- One step of the ramp from `w` towards `u`, by at most `RAMP_STEP`; an output with `RAMP_BYPASS` takes `u` at once (R382). -/
def OutMap.step' (o : OutMap) (w u : Nat) : Nat :=
  let d := (fp u).add (fp w).minus
  if o.flags % 2 = 1 ∨ d.abs.le (fp o.step) then u
  else toFp32 0 ((fp w).add (if d.lt .zero then (fp o.step).minus else fp o.step))

/-- What a command path is to send. -/
inductive Aim where
  /-- the computed command -/
  | follow (u : List Nat)
  /-- the previous command -/
  | hold
  /-- towards `U_SAFE` -/
  | safe
  /-- `U_SAFE` at once -/
  | safeNow
  deriving DecidableEq, Repr

/-- The commands of channel `c` leave (R375, R382): they are ramped where the channel ramps, written, and depart for cycle `k` at `at'`. A ramp that has
arrived ends; a channel that was STOPPING goes OFF (R393). -/
def send (c k at' : Nat) (aim : Aim) : Act := .read fun s =>
  let m := s.ioMap c
  let x := s.chan c
  let st := s.get (Obj.CH_STATE c)
  let idx := (List.range m.outs.length).zip m.outs
  let w (j : Nat) : Nat := s.get (Obj.U_LAST c j)
  let next : List Nat := idx.map fun o => match aim with
    | .follow us =>
      let u := o.2.limit (us.getD o.1 0)
      if st = 1 ∨ x.ramp then o.2.step' (w o.1) u else u
    | .hold => w o.1
    | .safe => o.2.step' (w o.1) o.2.safe
    | .safeNow => o.2.safe
  let hits : Nat := match aim with
    | .follow us => (idx.filter fun o => o.2.limit (us.getD o.1 0) != us.getD o.1 0).length
    | _ => 0
  let arrived : Bool := match aim with
    | .follow us => idx.all fun o => next.getD o.1 0 == o.2.limit (us.getD o.1 0)
    | _ => false
  let safe := idx.all fun o => next.getD o.1 0 == o.2.safe
  all [
    each idx (fun o => all [.put (Obj.U_LAST c o.1) (next.getD o.1 0), writeOutput m o.2 (next.getD o.1 0)]),
    when (hits != 0) (.count 32 (Obj.LIMIT_HITS c) hits),
    .chan c (fun z => { z with ramp := match aim with
      | .follow _ => if arrived then false else z.ramp
      | .safe => true
      | .safeNow => true
      | .hold => z.ramp }),
    when (st == 1 && arrived) (.put (Obj.CH_STATE c) 2),
    .put (Obj.LAST_DEPART c) at',
    depart c k at',
    when (st == 4 && safe) (all [goOff c, boundary c])]

/-- The command path's aim for a computed command: what the channel's state and SAFE-HOLD leave of it (R384, R392, R393). -/
def State.aim (s : State) (c : Nat) (us : List Nat) : Aim :=
  match s.get (Obj.CH_STATE c) with
  | 3 => match s.get (Obj.FAULT_MODE c) with
    | 0 => .hold
    | 1 => .safe
    | _ => .safeNow
  | 4 => .safe
  | _ =>
    if s.dev = Dev.HOLD ∧ s.get (Obj.SAFEHOLD_MODE c) = 1 then .safe
    else if s.dev = Dev.HOLD ∧ s.get (Obj.SAFEHOLD_MODE c) = 2 then .hold
    else .follow us

/-- The commands as sent, as a block. -/
def State.sent (s : State) (c : Nat) : Blk × Nat :=
  toBlk ((List.range (s.ioMap c).outs.length).map fun j => fp (s.get (Obj.U_LAST c j)))

/-- A channel that starts to ramp enters RAMPING: each ramp value starts at the measured value, or at `U_SAFE`, within the limits (R382). -/
def beginRamp (c : Nat) (ys : Option (List Num)) : Act := .read fun s =>
  let m := s.ioMap c
  let x := s.chan c
  let st := s.get (Obj.CH_STATE c)
  when x.begin (all [
    when x.load (loadState c),
    when (st != 3 && st != 4) (all [
      .put (Obj.CH_STATE c) 1,
      each ((List.range m.outs.length).zip m.outs) (fun o =>
        let w : Nat := match ys with
          | some v => if o.2.meas < v.length then toFp32 0 (v.getD o.2.meas .zero) else o.2.safe
          | none => o.2.safe
        .put (Obj.U_LAST c o.1) (o.2.limit w))]),
    .chan c (fun z => { z with
      begin := false, load := false })])

/-- The computed command of a state-feedback channel: limit is applied as it is sent. -/
def sfCommand (c : Nat) (s : State) (e : Option Blk) : (Blk × Nat) :=
  let x := s.chan c
  match e with
  | some e => affine x.uE (some x.v) x.mM e false
  | none => (x.v, 0)

/-- The elements of a block as FP32 codes. -/
def Blk.fp32s (b : Blk) : List Nat := (List.range b.m.length).map fun i => toFp32 0 (b.get i)

/-- A state-feedback path with inputs `y` or, for a missing sample, without (R376, R383). -/
def sfPath (c k at' : Nat) (y : Option Blk) (loss : Option Nat) : Act := .read fun s =>
  let x := s.chan c
  let e := y.map fun y => compute x.eE ((List.range y.m.length).map fun i => [y.term i, ((-(x.yhat.term i).1), (x.yhat.term i).2)])
  let u := sfCommand c s (e.map (·.1))
  let aim := match loss with
    | some 1 => Aim.hold
    | some 2 => Aim.safe
    | _ => Aim.follow u.1.fp32s
  let aim' := match s.aim c u.1.fp32s with
    | .follow _ => aim
    | a => a
  all [
    overflows c ((e.elim 0 (·.2)) + u.2),
    .chan c (fun z => { z with
      eE := e.elim z.eE (·.1.e), uE := if y.isSome then u.1.e else z.uE }),
    send c k at' aim',
    .read fun s => all [
      .chan c (fun z => { z with bg := if s.get (Obj.CH_STATE c) = 0 then none else some (e.map (·.1), (s.sent c).1) }),
      overflows c (s.sent c).2]]

/-- A compensator's path and state update (R378); for a missing sample it repeats its previous error. -/
def compPath (c k at' : Nat) (y : Option Blk) (loss : Option Nat) : Act := .read fun s =>
  let x := s.chan c
  let q := s.coeffs c
  let r := x.refBlk q.nr
  let neg : Bool := q.flags / 4 % 2 == 1
  let turn (t : Term) : Term := (-t.1, t.2)
  let e := match y with
    | some y => compute x.eE [
        [if neg then y.term 0 else turn (y.term 0)] ++ (if q.nr = 0 then [] else [if neg then turn (r.1.term 0) else r.1.term 0])]
    | none => (x.err, 0)
  let mulT (b : Blk) (i : Nat) (v : Blk) : Term := (b.m.getD i 0 * v.m.getD 0 0, Int.ofNat b.e + Int.ofNat v.e - 300)
  let notch : Bool := q.flags % 2 == 1
  let en := if notch then compute x.nE [[mulT q.nb 0 e.1, x.n.term 0]] else e
  let u := compute x.uE [[mulT q.b 0 en.1, x.d.term 0]]
  let aim := match loss with
    | some 1 => Aim.hold
    | some 2 => Aim.safe
    | _ => Aim.follow u.1.fp32s
  let aim' := match s.aim c u.1.fp32s with
    | .follow _ => aim
    | a => a
  all [
    overflows c (e.2 + r.2 + u.2 + (if notch then en.2 else 0)),
    .chan c (fun z => { z with
      err := e.1, eE := e.1.e, uE := u.1.e, nE := en.1.e }),
    send c k at' aim',
    .read fun s =>
      let w := s.sent c
      let d := compute x.d.e ((List.range 3).map fun i =>
        [mulT q.b (i + 1) en.1, turn (mulT q.a i w.1)] ++ (if i < 2 then [x.d.term (i + 1)] else []))
      let n := if notch then compute x.n.e ((List.range 2).map fun i =>
        [mulT q.nb (i + 1) e.1, turn (mulT q.na i en.1)] ++ (if i < 1 then [x.n.term (i + 1)] else [])) else (x.n, 0)
      all [
        .chan c (fun z => { z with
          d := d.1, n := n.1 }),
        overflows c (w.2 + d.2 + n.2), boundary c]]

/-- A command path of channel `c`; in FAULT its samples drive nothing and the value of `FAULT_MODE` goes out (R384). -/
def path (c k at' : Nat) (ys : Option (List Num)) (loss : Option Nat) : Act := .read fun s =>
  let y := ys.map toBlk
  if s.get (Obj.CH_STATE c) = 3 then all [send c k at' (s.aim c []), boundary c]
  else all [overflows c (y.elim 0 (·.2)),
    if c < 256 then sfPath c k at' (y.map (·.1)) loss else compPath c k at' (y.map (·.1)) loss]

/-! ## Missing samples (R383, R384) -/

/-- The sample of instant `k` of channel `c` is missing: a command path runs at once, departing at `at'`; one too many in a row is a FAULT. -/
def missSample (c k at' : Nat) : Act := all [
  beginRamp c none,
  .read fun s =>
    let st := s.get (Obj.CH_STATE c)
    let n := (s.chan c).consec + 1
    all [
      updateDone c, lateFold c,
      .chan c (fun z => { z with
        seen := some k, consec := n, missing := (k, z.yhat) :: z.missing }),
      .count 64 (Obj.SAMPLES c) 1, .count 32 (Obj.MISSED c) 1, .count 8 (Obj.CONSEC_MISSED c) 1,
      when ((st == 1 || st == 2) && decide (s.get (Obj.MAX_MISSED c) < n)) (all [
        .put (Obj.CH_STATE c) 3,
        .chan c (fun z => { z with
          bg := none, fold := none }),
        .read fun s => logEv Ev.CHANNEL_FAULT c (s.get (Obj.CONSEC_MISSED c)) (s.get (Obj.FAULT_MODE c))]),
      path c k at' none (some (s.get (Obj.LOSS_MODE c)))]]

end Sys2Proof.Machine
end

