-- ==== Sys2Proof/Machine/Control.lean ====
section
/-! DEFINITION. The commands of the control engine (R376 to R393), and the check of a channel's group (R388). -/

namespace Sys2Proof.Machine
open Act

/-! ## The commit check (R388) -/

/-- The coefficient set `k` follows the layout of R387 for channel `c`. -/
def Coeffs.shapeOk (k : Coeffs) (c len : Nat) (bs : List Byte) : Bool :=
  (if c < 256 then k.kind == 1 && 1 ≤ k.nx && k.nx ≤ 16 && 1 ≤ k.ny && k.ny ≤ 8 && 1 ≤ k.nu && k.nu ≤ 8 && k.nr ≤ 8
   else (k.kind == 2 || k.kind == 3) && (k.nx == 2 || k.nx == 3) && k.ny == 1 && k.nu == 1 && k.nr ≤ 1)
  && len == 16 + 4 * k.words && fieldAt bs 5 3 == 0 && decide (k.flags < 8)

/-- The dimensions of a set. -/
def Coeffs.dims (k : Coeffs) : List Nat := [k.kind, k.nx, k.ny, k.nu, k.nr]

/-- The cycle of a map's source: a line's, or the period of an SPI port's schedule. -/
def State.sourceCycle (s : State) (m : IoMap) : Nat :=
  if m.srcType = 1 then s.get (Obj.LINE_CYCLE_NS m.srcUnit) else s.get (Obj.SPI_PERIOD_NS m.srcUnit)

/-- The map `m` has the shape of R387, and lies within the images and transfers it names. -/
def State.mapOk (s : State) (k : Coeffs) (m : IoMap) (bs : List Byte) : Bool :=
  let n := m.nIn
  m.nIn == k.ny && m.nOut == k.nu && bs.length == 16 + 24 * m.nIn + 40 * m.nOut && fieldAt bs 4 12 == 0
  && (m.srcType == 1 && decide (m.srcUnit < 2) || m.srcType == 2 && decide (m.srcUnit < 8))
  && (List.range m.ins.length).all (fun i => fieldAt bs (16 + 24 * i + 5) 3 == 0)
  && (List.range m.outs.length).all (fun j => fieldAt bs (16 + 24 * n + 40 * j + 36) 4 == 0)
  && m.ins.all (fun i =>
    1 ≤ i.typ && i.typ ≤ 5 &&
    (if m.srcType = 1 then i.typ != 5 && decide (i.pos + typBits i.typ / 8 ≤ 4096)
     else let sp := s.spiSpan m.srcUnit i.typ i.pos
       decide (sp.1 + sp.2 ≤ s.get (Obj.SPI_LENGTH m.srcUnit))))
  && m.outs.all (fun o =>
    1 ≤ o.typ && o.typ ≤ 5 && decide (o.flags < 2) && (o.meas == 255 || decide (o.meas < m.nIn)) &&
    (if o.dest = 1 then m.srcType == 1 && o.typ != 5 && decide (o.pos + typBits o.typ / 8 ≤ 4096)
     else o.dest == 2 && decide (o.port < 8) && s.get (Obj.SPI_ROLE o.port) == 1 &&
       (let sp := s.spiSpan o.port o.typ o.pos
        decide (sp.1 + sp.2 ≤ s.get (Obj.SPI_LENGTH o.port)))))

/-- The bytes an output takes: the line or port, where they begin and how many. -/
def State.outSpan (s : State) (m : IoMap) (o : OutMap) : Nat × Nat × Nat :=
  if o.dest = 1 then (m.srcUnit, o.pos, typBits o.typ / 8)
  else
    let sp := s.spiSpan o.port o.typ o.pos
    (16 + o.port, sp.1, sp.2)

/-- An output of one map shares bytes with an output of another. -/
def State.mapsMeet (s : State) (a b : IoMap) : Bool :=
  a.outs.any fun o => b.outs.any fun p =>
    let x := s.outSpan a o
    let y := s.outSpan b p
    x.1 == y.1 && decide (x.2.1 < y.2.1 + y.2.2) && decide (y.2.1 < x.2.1 + x.2.2)

/-- Every number of a map is finite, every range is one, every `U_SAFE` lies in its range and every `RAMP_STEP` is positive. -/
def IoMap.limitsOk (m : IoMap) : Bool :=
  m.ins.all (fun i => [i.gain, i.off, i.lo, i.hi].all (fun b => (fp b).isFin) && (fp i.lo).le (fp i.hi))
  && m.outs.all (fun o => [o.gain, o.off, o.lo, o.hi, o.safe, o.step].all (fun b => (fp b).isFin)
    && (fp o.lo).le (fp o.hi) && (fp o.lo).le (fp o.safe) && (fp o.safe).le (fp o.hi) && Num.zero.lt (fp o.step))

/-- The check code of a commit of channel `c`'s group: 0 for none. -/
def checkChannel (s : State) (c : Nat) : Nat :=
  let bs := s.shadowBlob (Obj.COEFFS c)
  let k := Coeffs.ofBytes bs
  let ms := s.shadowBlob (Obj.IO_MAP c)
  let m := IoMap.ofBytes ms
  let off := s.get (Obj.CH_STATE c) = 0
  let period := s.shadowOf (Obj.CH_PERIOD_NS c)
  let miss := s.shadowOf (Obj.MISS_AFTER_NS c)
  let others := s.chans.filter (· != c)
  if ¬ k.shapeOk c bs.length bs ∨ (¬ off ∧ k.dims ≠ (s.coeffs c).dims) then 0x0B40
  else if k.period ≠ period ∨ period < (if c < 256 then 50000 else 10000) ∨ period ≠ s.sourceCycle m then 0x0B41
  else if ¬ s.mapOk k m ms then 0x0B42
  else if miss = 0 ∨ period ≤ miss then 0x0B43
  else if others.any (fun d => s.mapsMeet m (s.ioMap d)
      || (s.groupPending (chanCtl d) && s.mapsMeet m (IoMap.ofBytes (s.shadowBlob (Obj.IO_MAP d))))) then 0x0B44
  else if c < 256 ∧ k.derived.2 then 0x0B45
  else if ¬ m.limitsOk then 0x0B46
  else 0

/-! ## Samples -/

/-- The source instant of sample `k` of a map's source, by its schedule (R369, R482, R495). -/
def State.instant (s : State) (m : IoMap) (k : Nat) : Nat :=
  if m.srcType = 1 then s.get (Obj.LINE_PHASE_NS m.srcUnit) + k * s.get (Obj.LINE_CYCLE_NS m.srcUnit)
  else s.get (Obj.SPI_PHASE_NS m.srcUnit) + k * s.get (Obj.SPI_PERIOD_NS m.srcUnit)

/-- What a map's source delivered last: sample number, ToV, fraction, arrival. -/
def State.delivered (s : State) (m : IoMap) : Option (Nat × Nat × Nat × Nat) :=
  if m.srcType = 1 then (s.line m.srcUnit).frame.map fun f => (f.1, s.instant m f.1, 0, f.2)
  else if m.srcType = 2 then (s.spi m.srcUnit).sample
  else none

/-- Channel `c` takes samples: it is not OFF, or starts with its next one. -/
def State.takes (s : State) (c : Nat) : Bool := s.get (Obj.CH_STATE c) != 0 || (s.chan c).begin

/-- A sample of channel `c` has arrived and waits for a unit. -/
def State.waits (s : State) (c : Nat) : Bool :=
  s.takes c && match s.delivered (s.ioMap c) with
    | some d => (s.chan c).used != some d.1
    | none => false

/-- Channel `c` may be served now (R379): there are units for it and for every waiting channel of its kind that comes before it, by
`CH_PRIORITY` and then by number. -/
def State.served (s : State) (c : Nat) : Bool :=
  let key (d : Nat) : Nat := s.get (Obj.CH_PRIORITY d) * 512 + d
  let before := s.chans.filter fun d => decide (d < 256) == decide (c < 256) && s.waits d && decide (key d < key c)
  decide (before.length < (if c < 256 then 16 else 4))

/-- A departure's measured latency (R381). -/
def latency (c lat : Nat) : Act := all [
  .put (Obj.LAT_LAST_NS c) lat, .modify (Obj.LAT_MAX_NS c) (max lat),
  .modify (if c < 256 then Obj.LAT_MAX_SF_NS else Obj.LAT_MAX_COMP_NS) (max lat),
  when (decide ((if c < 256 then 800 else 250) < lat)) (.count 32 Obj.OVER_HEADLINE 1)]

/-- A sample in time is used: its command departs, and the furrows of trigger kind 3 fire (R209, R376). -/
def useSample (c lat : Nat) (d : Nat × Nat × Nat × Nat) (ys : List Num) : Act := all [
  updateDone c,
  .read fun s => when (s.chan c).fold.isSome (.count 32 (Obj.OUT_OF_ORDER c) 1),
  beginRamp c (some ys),
  .chan c (fun x => { x with
    used := some d.1, seen := some d.1, missing := [], fold := none, consec := 0 }),
  .put (Obj.CONSEC_MISSED c) 0, .count 64 (Obj.SAMPLES c) 1,
  .read fun s => all [
    path c d.1 (d.2.2.2 + lat) (some ys) none,
    when (s.get (Obj.CH_STATE c) != 3) (all [.put (Obj.LAST_TOV c) d.2.1, latency c lat, deliver 3 c d.2.1 d.2.2.1 false])]]

/-- A sample that was counted missing arrives before the channel's next one (R385): its correction is to be folded in. -/
def lateSample (c k : Nat) (ys : List Num) : Act := all [
  updateDone c,
  .read fun s =>
    let x := s.chan c
    let y := toBlk ys
    match x.missing.find? (fun e => e.1 == k) with
    | some (_, hat) =>
      all [
        .chan c (fun z => { z with used := some k }),
        if c < 256 ∧ s.get (Obj.CH_STATE c) ≠ 3 then
          let e := compute x.eE ((List.range y.1.m.length).map fun i => [y.1.term i, (-(hat.term i).1, (hat.term i).2)])
          all [.chan c (fun z => { z with fold := some e.1 }), overflows c (y.2 + e.2)]
        else .count 32 (Obj.LATE c) 1]
    | none => .skip]

/-- CONTROL_SAMPLE_ARRIVAL (R370, R376, R379, R383, R385): the sample that channel `ch`'s source delivered last reaches its unit; `lat` is the measured time from arrival to
departure, `e2e` the source, counter and reason of an end-to-end check that fails. -/
def execControlSampleArrival (ch lat : Nat) (e2e : Option (Nat × Nat × Nat)) (s : State) : Host.Outcome State Fault Refusal :=
  need (Wf.controlSampleArrival ch lat e2e) s <| all [
    .read fun s =>
      let m := s.ioMap ch
      let x := s.chan ch
      match s.delivered m with
      | none => .skip
      | some d =>
        if ¬ s.waits ch ∨ ¬ s.served ch then .skip
        else if (s.dev ≠ Dev.OP ∧ s.dev ≠ Dev.HOLD) then .skip
        else if x.used.any (fun u => decide (d.1 < u)) then all [.chan ch (fun z => { z with used := some d.1 }), .count 32 (Obj.OUT_OF_ORDER ch) 1]
        else
          let deadline := s.instant m d.1 + s.get (Obj.MISS_AFTER_NS ch)
          let overdue := deadline < d.2.2.2 ∧ ¬ x.missing.any (fun e => e.1 == d.1)
          all [
            e2eChecked,
            when (decide overdue) (missSample ch d.1 (deadline + lat)),
            .read fun s =>
              let late := (s.chan ch).missing.any (fun e => e.1 == d.1)
              match e2e with
              | some (src, counter, why) => all [
                  e2eFailed src counter why,
                  when (decide (src < 64)) (.count 32 (Obj.SRC_E2E_FAILS src) 1),
                  .count 32 (Obj.IMPLAUSIBLE ch) 1, .chan ch (fun z => { z with used := some d.1 }),
                  when (!late) (missSample ch d.1 (d.2.2.2 + lat))]
              | none => match s.sampleIn m with
                | none => all [
                    .count 32 (Obj.IMPLAUSIBLE ch) 1, .chan ch (fun z => { z with used := some d.1 }),
                    when (!late) (missSample ch d.1 (d.2.2.2 + lat))]
                | some ys => if late then lateSample ch d.1 ys else useSample ch lat d ys],
    settle]

/-- BACKGROUND_UPDATE_DONE (R376, R385, R387, R389): what the background units have to do for channel `ch` is done. -/
def execBackgroundUpdateDone (ch : Nat) (s : State) : Host.Outcome State Fault Refusal :=
  need (Wf.backgroundUpdateDone ch) s <| all [updateDone ch, lateFold ch, refFold ch]

/-- SAMPLE_MISSED (R383): sample `k` of channel `ch` has not arrived by its source instant plus `MISS_AFTER_NS`; its command departs `lat` ns later. -/
def execSampleMissed (ch k lat : Nat) (s : State) : Host.Outcome State Fault Refusal :=
  need (Wf.sampleMissed ch k lat) s <| all [
    .read fun s =>
      let m := s.ioMap ch
      let x := s.chan ch
      let deadline := s.instant m k + s.get (Obj.MISS_AFTER_NS ch)
      let arrived : Bool := match s.delivered m with
        | some d => decide (k ≤ d.1) && decide (d.2.2.2 ≤ deadline)
        | none => false
      if ¬ s.takes ch ∨ (s.dev ≠ Dev.OP ∧ s.dev ≠ Dev.HOLD) ∨ s.ns < deadline ∨ x.seen.any (fun j => decide (k ≤ j)) ∨ arrived then .skip
      else missSample ch k (deadline + lat),
    settle]

/-! ## References (R389, R390) -/

/-- A new reference of channel `c` is taken up, with its ToV; of two, the later stands. -/
def newReference (c tov : Nat) (vals : List Nat) : Act := .chan c fun x => { x with newRef := some (vals, tov) }

/-- A write of 1 to `REF_GO`: its ToV is the device time of the write (log entry 57). -/
def refGo (c : Nat) (s : State) : WriteRes :=
  .ok (newReference c s.ns ((List.range (min 8 (s.coeffs c).nr)).map fun i => s.get (Obj.REF c i)))

/-- REF_GO. -/
def execRefGo (ses ch : Nat) (s : State) : Host.Outcome State Fault Refusal :=
  need (Wf.refGo ses ch) s <| guarded ses (Obj.REF_GO ch) 1 .host true (refGo ch)

/-- JOB_REFERENCE_WRITE (R390). -/
def execJobReferenceWrite (job ch tov : Nat) (vals : List Nat) (s : State) : Host.Outcome State Fault Refusal :=
  need (Wf.jobReferenceWrite job ch tov vals) s <| all [
    .read fun s => match Tab.get? s.u.tt.jobs job with
      | none => .skip
      | some j =>
        if j.phase ≠ .running ∧ j.phase ≠ .draining then .skip
        else if j.ctx ≠ s.get (Obj.REF_CONTEXT ch) then endJob job St.ACCESS_DENIED 0x0B01 0 0
        else if s.get (Obj.CH_STATE ch) = 0 ∨ vals.length ≠ (s.coeffs ch).nr ∨ vals.any (fun v => !(fp v).isFin) then
          endJob job St.CONFIG_INVALID 0x0B00 0 0
        else newReference ch tov vals,
    settle]

/-! ## CH_COMMAND (R382, R391, R393) -/

/-- A write of `v` to `CH_COMMAND` of channel `c`. -/
def chCommand (c v : Nat) (s : State) : WriteRes :=
  let st := s.get (Obj.CH_STATE c)
  if v = 1 then
    if (s.dev ≠ Dev.OP ∧ s.dev ≠ Dev.HOLD) ∨ st ≠ 0 then .no Ab.STATE_FORBIDS
    else .ok (all [
      .chan c (fun x => { x with
        begin := true, load := true, ramp := false, consec := 0 }),
      .put (Obj.CONSEC_MISSED c) 0, .put (Obj.LAT_MAX_NS c) 0])
  else if v = 2 then
    if st = 1 ∨ st = 2 ∨ st = 3 then .ok (all [.put (Obj.CH_STATE c) 4, .chan c (fun x => { x with begin := false })]) else .no Ab.STATE_FORBIDS
  else if st = 3 then .ok (all [goOff c, boundary c]) else .no Ab.STATE_FORBIDS

/-- CH_START. -/
def execChStart (ses ch : Nat) (s : State) : Host.Outcome State Fault Refusal :=
  need (Wf.chStart ses ch) s <| guarded ses (Obj.CH_COMMAND ch) 1 .sup true (chCommand ch 1)

/-- CH_STOP. -/
def execChStop (ses ch : Nat) (s : State) : Host.Outcome State Fault Refusal :=
  need (Wf.chStop ses ch) s <| guarded ses (Obj.CH_COMMAND ch) 2 .sup true (chCommand ch 2)

/-- CH_CLEAR. -/
def execChClear (ses ch : Nat) (s : State) : Host.Outcome State Fault Refusal :=
  need (Wf.chClear ses ch) s <| guarded ses (Obj.CH_COMMAND ch) 3 .sup true (chCommand ch 3)

end Sys2Proof.Machine
end

