-- ==== Sys2Proof/Machine/LinkOps.lean ====
section
/-! DEFINITION. The links below their commands: EtherCAT lines (R482 to R486), CSI-2 frames (R490 to R493), Ethernet lanes and ports (R473, R474), collectives (R478 to R480). -/

namespace Sys2Proof.Machine
open Act

/-! ## EtherCAT lines -/

/-- The control block of a line's group. -/
abbrev lineCtl (l : Nat) : Nat := 0x2F20 + l

/-- The slaves of line `l` are brought to the AL state that the device state calls for; not those of a line that is LOST. -/
def driveSlaves (l : Nat) : Act := .read fun s =>
  when (s.get (Obj.LINE_STATE l) != 3) (.line l fun x => { x with al := s.lineAl l })

/-- Line `l`'s group applies: an enabled line starts as a ring, a disabled one keeps its slaves in INIT (R486; log entry 58). -/
def applyLine (l : Nat) : Act := .read fun s =>
  let was := s.get (Obj.LINE_ENABLE l)
  all [
    groupTake (lineCtl l),
    .read fun s =>
      let now := s.get (Obj.LINE_ENABLE l)
      all [
        when (was == 0 && now != 0) (all [.put (Obj.LINE_STATE l) 1, .line l (fun _ => {}), needDomain 72]),
        when (now == 0) (all [.put (Obj.LINE_STATE l) 0, .line l (fun _ => {})]),
        driveSlaves l]]

/-- The check code of a line group's commit (R499). -/
def checkLine (s : State) (l : Nat) : Nat :=
  let cycle := s.shadowOf (Obj.LINE_CYCLE_NS l)
  let moved : Bool := cycle != s.get (Obj.LINE_CYCLE_NS l) || s.shadowBlob (Obj.LINE_CONFIG l) != s.blob (Obj.LINE_CONFIG l)
  let inUse := s.chans.any fun c => s.get (Obj.CH_STATE c) != 0 && (let m := s.ioMap c
    m.srcType == 1 && m.srcUnit == l)
  if (moved ∧ inUse) ∨ [Obj.LINE_PHASE_NS l, Obj.INPUT_LAUNCH_NS l, Obj.APPLY_OFFSET_NS l].any (fun k => decide (cycle ≤ s.shadowOf k)) then 0x0F40 else 0

/-- SYNC0 of cycle `k` of line `l` (R482). -/
def State.sync0 (s : State) (l k : Nat) : Nat := s.get (Obj.LINE_PHASE_NS l) + k * s.get (Obj.LINE_CYCLE_NS l)

/-- A frame leaves the primary port, and both while the ring is broken (R481). -/
def emitFrame (l : Nat) (o : LinkOut) (data : List Byte) : Act := .read fun s =>
  all [.emit (.frame o data), when (decide (2 ≤ s.get (Obj.LINE_STATE l))) (.emit (.frame o data))]

/-! ## CSI-2 -/

/-- The control block of a port's group. -/
abbrev csiCtl (p : Nat) : Nat := 0x2F30 + p

/-- The record of port `p`, and a change of it. -/
def State.csi (s : State) (p : Nat) : CsiS := Tab.at s.u.links.csi p {}
def Act.csi (p : Nat) (f : CsiS → CsiS) : Act := .links fun x => { x with csi := Tab.upd x.csi p {} f }

/-- The tiles of a port's slots are freed. -/
def freeSlots (p : Nat) : Act := .read fun s =>
  all [each (s.csi p).slots (fun x => all [freeRun x.desc.1 x.desc.2, freeRun x.pix.1 x.pix.2]),
    .csi p (fun x => { x with
      slots := [], firing := [], slotsFor := none })]

/-- A run of `n` tiles for context `c`: its first number. -/
def State.runFor (s : State) (n : Nat) : Nat := s.freeNumbers n

/-- `n` more slots of port `p`, each of one descriptor and one pixel tile until a frame needs more (log entry 59). -/
def addSlots (p c : Nat) : Nat → Act
  | 0 => .skip
  | n + 1 => .read fun s =>
    let a := s.freeNumbers 2
    all [allocTiles c 2, .csi p (fun x => { x with slots := x.slots ++ [{ desc := (a, 1), pix := (a + 1, 1) }] }), addSlots p c n]

/-- Port `p`'s group applies: its slots are allocated at enable (R492). -/
def applyCsi (p : Nat) : Act := all [
  groupTake (csiCtl p),
  .read fun s =>
    let on := s.get (Obj.CSI_ENABLE p) != 0
    let want := (s.get (Obj.CSI_SLOTS p), s.get (Obj.CSI_CONTEXT p))
    if on ∧ (s.csi p).slotsFor = some want then .skip
    else all [
      freeSlots p,
      if on then .read fun s => all [
        needDomain 72,
        when (s.allocFault want.2 (2 * want.1)).isNone (addSlots p want.2 want.1),
        .csi p (fun x => { x with slotsFor := some want })]
      else .csi p (fun x => { x with frame := none })]]

/-- The check code of a CSI-2 group's commit (R499). -/
def checkCsi (s : State) (p : Nat) : Nat :=
  let c := s.shadowOf (Obj.CSI_CONTEXT p)
  let mine := if (s.csi p).slotsFor.any (fun w => w.2 == c) then ((s.csi p).slots.map (fun x => x.desc.2 + x.pix.2)).foldl (· + ·) 0 else 0
  if s.shadowOf (Obj.CSI_ENABLE p) = 0 then 0
  else if s.get (Obj.CTX_STATE c) = 0 ∨ s.get (Obj.TILE_ALLOWANCE c) + mine < s.ctxTiles c + 2 * s.shadowOf (Obj.CSI_SLOTS p) then 0x0F41
  else 0

/-- The CSI-2 data types a port accepts, beside embedded data (R490). -/
def csiTypes : List Nat := [0x1E, 0x24, 0x2A, 0x2B, 0x2C, 0x2D, 0x2E]

/-- A slot is held while a firing that names it has not ended (R493). -/
def State.slotHeld (s : State) (p i : Nat) : Bool := (s.csi p).firing.any fun e => e.2 == i && (Tab.get? s.u.tt.runs e.1).isSome

/-- The oldest slot of port `p` that is not held. -/
def State.oldestSlot (s : State) (p : Nat) : Option (Nat × CsiSlot) :=
  (((List.range (s.csi p).slots.length).zip (s.csi p).slots).filter (fun e => !s.slotHeld p e.1)).foldl (fun (m : Option (Nat × CsiSlot)) e => match m with
    | none => some e
    | some o => if e.2.filled < o.2.filled then some e else m) none

/-- The slot of port `p` that was filled last. -/
def State.latestSlot (s : State) (p : Nat) : Option Nat :=
  (((List.range (s.csi p).slots.length).zip (s.csi p).slots).foldl (fun (m : Option (Nat × Nat)) e => match m with
    | none => some (e.1, e.2.filled)
    | some o => if o.2 < e.2.filled then some (e.1, e.2.filled) else m) none).map (·.1)

/-- The tag of a frame's tiles: shape 0x01 (log entry 60). -/
def frameTag : List Byte := le 4 0x10A ++ List.replicate 28 0

/-- A tile's 4 KiB from byte `4096 i` of some data, padded with zeros. -/
def tileSlice (bs : List Byte) (i : Nat) : List Byte :=
  let d := (bs.drop (4096 * i)).take 4096
  d ++ List.replicate (4096 - d.length) 0

/-- A run of tiles takes data. -/
def fillRun (base count : Nat) (bs : List Byte) : Act := each (List.range count) fun i => writeTile (base + i) frameTag (tileSlice bs i)

/-- The bytes of a frame's descriptor (R324, R492): the sample header, the frame information, the CHECK values. -/
def State.descriptor (s : State) (p : Nat) (f : CsiFrame) (flags pix first : Nat) (data : List Byte) : List Byte :=
  let checks := (List.range pix).flatMap fun i => le 4 (crc32c (tileSlice data i))
  let rest := le 2 (0x100 + p) ++ le 2 (if f.missed then 4 else 0) ++ le 8 f.tov ++ le 2 f.frac ++ le 2 0 ++ le 4 (min 0xFFFFFFFF (f.arrived - f.tov))
  let head := e2eHeader (s.csi p).counter (0x100 + p) (rest ++ checks)
  head.take 32 ++
    le 2 f.width ++ le 2 f.lines.length ++ le 1 (s.get (Obj.CSI_DT p)) ++ le 1 (s.get (Obj.CSI_VC p)) ++ le 2 f.number ++ le 4 pix ++ le 4 first ++
    le 2 flags ++ le 14 0 ++ checks

/-- The frame in progress closes, DAMAGED or not: it goes to the oldest free slot and fires its furrows (R491 to R493). -/
def closeFrame (p : Nat) (bad : Bool) : Act := .read fun s =>
  match (s.csi p).frame with
  | none => .skip
  | some f =>
    let damaged : Bool := bad || (s.get (Obj.CSI_HEIGHT p) != 0 && s.get (Obj.CSI_HEIGHT p) != f.count)
    let data := f.lines.flatten
    let pix := ceilDiv data.length 4096
    let desc := ceilDiv (64 + 4 * pix) 4096
    let c := s.get (Obj.CSI_CONTEXT p)
    let flags := (if damaged then 1 else 0) + f.flags
    let store (i : Nat) (d x : Nat) : Act := .read fun s => all [
      fillRun x pix data, fillRun d desc (s.descriptor p f flags pix x data),
      .csi p (fun y => { y with
        counter := y.counter + 1
        slots := y.slots.zipIdx.map (fun e => if e.2 = i then { desc := (d, desc), pix := (x, pix), filled := y.counter + 1 } else e.1) }),
      .count 64 (Obj.FRAMES_STORED p) 1,
      .read fun s =>
        let next := s.u.tt.nextRun
        all [
          deliverPort p f.tov f.frac,
          .read fun s => each (s.u.tt.runs.filter (fun e => decide (next ≤ e.1))) fun e => match e.2.owner with
            | .firing g _ => each ((List.range 8).filter (bit (s.get (Obj.TRIGGER_SOURCE g)))) fun q => match s.latestSlot q with
              | some i => .csi q (fun y => { y with firing := (e.1, i) :: y.firing.filter (fun z => (Tab.get? s.u.tt.runs z.1).isSome) })
              | none => .skip
            | _ => .skip]]
    all [
      .csi p (fun y => { y with frame := none }),
      when damaged (.count 32 (Obj.FRAMES_DAMAGED p) 1),
      if (s.dev ≠ Dev.OP ∧ s.dev ≠ Dev.HOLD) ∨ (damaged ∧ s.get (Obj.CSI_DROP_DAMAGED p) ≠ 0) then .skip
      else match s.oldestSlot p with
        | none => .count 32 (Obj.FRAMES_BUSY p) 1
        | some (i, o) =>
          if o.desc.2 = desc ∧ o.pix.2 = pix then store i o.desc.1 o.pix.1
          else if 8176 < pix ∨ s.get (Obj.TILE_ALLOWANCE c) + o.desc.2 + o.pix.2 < s.ctxTiles c + desc + pix
              ∨ s.slotsFree + s.peerFree + o.desc.2 + o.pix.2 < desc + pix then .count 32 (Obj.FRAMES_BUSY p) 1
          else all [
            freeRun o.desc.1 o.desc.2, freeRun o.pix.1 o.pix.2,
            .read fun s =>
              let d := s.freeNumbers desc
              all [allocTiles c desc, .read fun s =>
                let x := s.freeNumbers pix
                all [allocTiles c pix, store i d x]]]]

/-! ## Ethernet -/

/-- The port that lane `k` belongs to under the mode in force (R473). -/
def State.portOfLane (s : State) (k : Nat) : Nat := match s.u.boot.ethMode with
  | 0 => k
  | 1 => k / 2 * 2
  | _ => 0

/-- The lanes of port `p`, lowest first. -/
def State.lanesOf (s : State) (p : Nat) : List Nat := (List.range 4).filter fun k => s.portOfLane k == p

/-- Port `p`'s link goes down; PTP on it loses its source (R498). -/
def portDown (p : Nat) : Act := .read fun s =>
  when (s.get (Obj.PORT_LINK p) != 0) (all [
    .put (Obj.PORT_LINK p) 0, .count 32 (Obj.PORT_LINK_DOWNS p) 1,
    when (s.get Obj.TB_SOURCE == 1 && s.get Obj.PTP_PORT == p && s.get Obj.TB_STATE == Tb.LOCKED) holdover])

/-- Lane `k` is retired for a cause (R474): its port goes down, and relinks where the spare can take the lane. -/
def retireLane (k cause : Nat) : Act := .read fun s =>
  let spare := s.get Obj.SPARE_LANE_USED == 0xFF
  let p := s.portOfLane k
  all [
    if spare then .put Obj.SPARE_LANE_USED k else .links fun x => { x with dead := p :: x.dead.filter (· != p) },
    .links (fun x => { x with retired := k :: x.retired.filter (· != k) }),
    portDown p,
    logEv Ev.ETH_LANE_RETIRED k cause (if spare then 1 else 0)]

/-! ## Collectives -/

/-- The check code of a collective group's commit (R499). -/
def checkColl (s : State) (g : Nat) : Nat :=
  let bs := s.shadowBlob (Obj.COLL_MEMBERS g)
  let ms := (List.range (bs.length / 2)).map fun i => fieldAt bs (2 * i) 2
  if ms.length ≤ s.shadowOf (Obj.COLL_RANK g) ∨ ms.eraseDups.length ≠ ms.length then 0x0F43 else 0

/-- The collective of job `j` fails (R480). -/
def collFails (j status detail : Nat) : Act := .read fun s =>
  match Tab.get? s.u.tt.jobs j with
  | some { decl := { coll := some c, .. }, .. } => all [.count 32 (Obj.COLL_FAILS c.group) 1, endJob j status detail 0 0]
  | _ => .skip

/-- Two members' operations belong together: SEND meets RECV, any other meets itself (R480; log entry 167). -/
def opsMeet (mine theirs : Nat) : Bool := if mine ≤ 1 then mine + theirs == 1 else mine == theirs

/-- The members of group `g`. -/
def State.members (s : State) (g : Nat) : Nat := (Tab.at s.u.dict.blobs (Obj.COLL_MEMBERS g) []).length / 2

/-- How many hops an exchange of an operation makes round a ring of `n` members, and on how many of them tiles are combined (R478). -/
def hops (n op : Nat) : Nat × Nat := match op with
  | 0 | 1 => (1, 0)
  | 2 | 3 => (n - 1, 0)
  | 4 => (n - 1, n - 1)
  | _ => (2 * (n - 1), n - 1)

/-- The tiles that a reduction accepts: wide-sum partials, or FP32 or BF16 of shape 0x01. -/
def reducible (tag : List Byte) : Bool := tagByte tag 1 == 3 || (tagByte tag 1 == 1 && tagByte tag 0 % 16 ≤ 1)

/-- Tiles combined elementwise (R478): wide-sum partials, or elements of a format, each sum rounded once; and what the conversions count (R86). -/
def reduceTiles (tag a b : List Byte) (free : Nat → Nat) : List Byte × Counts :=
  if tagByte tag 1 = 3 then
    let rs := (List.range 256).map fun i => wideAdd (wideNum ((a.drop (16 * i)).take 16), 0) (wideNum ((b.drop (16 * i)).take 16), 0)
    (((List.range 256).zip rs).flatMap fun r => wideBytes (free r.1) r.2.1, { inexact := rs.foldl (fun n r => n + r.2) 0 })
  else
    let f := tagByte tag 0 % 16
    let n := fmtBits f / 8
    let rs := (List.range (4096 / n)).map fun i =>
      encodeElt f false (free i) ((decodeElt f [] (fieldAt a (n * i) n)).add (decodeElt f [] (fieldAt b (n * i) n)))
    (rs.flatMap fun r => le n r.1, countsOf (rs.map (·.2)))

end Sys2Proof.Machine
end

