-- ==== Sys2Proof/Machine/Links.lean ====
section
/-! DEFINITION. The commands of the host link, Ethernet, EtherCAT master lines, the slave port's link, CSI-2 and SPI (R466 to R499, R528). -/

namespace Sys2Proof.Machine
open Act

/-! ## PCIe (R470 to R472) -/

/-- PCIE_LINK_CHANGE (R39, R470): the state of the link, Bus Master Enable and D3hot; `jobs`: the jobs whose host-memory access fails with it; `aerC` and `aerU` errors
reported since. -/
def execPcieLinkChange (l0 bme d3 : Bool) (rate width aerC aerU : Nat) (jobs : List Nat) (s : State) : Host.Outcome State Fault Refusal :=
  need (Wf.pcieLinkChange l0 bme d3 rate width aerC aerU jobs) s <| .read fun s =>
    let x := s.u.links
    let up := l0 && x.perst && s.get (Obj.DOM_STATE 70) == 2
    let reach := up && bme && !d3
    all [
      .links (fun y => { y with
        l0 := up, bme := bme, d3 := d3 }),
      .put Obj.PCIE_RATE (if up then rate else 0), .put Obj.PCIE_WIDTH (if up then width else 0),
      when (x.l0 && !up) (.count 32 Obj.LINK_DOWNS 1),
      .count 32 Obj.AER_CORRECTABLE aerC, .count 32 Obj.AER_UNCORRECTABLE aerU,
      when (s.isOpen 0 && !reach) (sessionClose 0),
      when (!reach) (each jobs.eraseDups fun j => when (Tab.get? s.u.tt.jobs j).isSome
        (all [.count 32 Obj.HOST_ACCESS_FAILS 1, endJob j St.ACCESS_DENIED 0x0F01 0 0])),
      when (!s.isOpen 0 && reach && s.dev != Dev.STANDBY) (sessionOpen 0 1 0 0),
      settle]

/-- FUNCTION_LEVEL_RESET (R471): configuration space returns to its reset values, so Bus Master Enable clears and session 0 closes; no object changes. -/
def execFunctionLevelReset (s : State) : Host.Outcome State Fault Refusal :=
  need Wf.functionLevelReset s <| .read fun s => all [
    .links (fun y => { y with
      bme := false, d3 := false }),
    .dict (fun d => { d with
      holdoff := [], raised := [] }),
    when (s.isOpen 0) (sessionClose 0)]

/-- PERST_RELEASE (R472). -/
def execPerstRelease (s : State) : Host.Outcome State Fault Refusal :=
  need Wf.perstRelease s <| .links fun y => { y with perst := true }

/-! ## Ethernet (R473 to R477, R498) -/

/-- ETH_LANE_RETIRE_AUTO (R474): `cause` 0 for the bit error ratio, 1 for training. -/
def execEthLaneRetireAuto (lane cause : Nat) (s : State) : Host.Outcome State Fault Refusal :=
  need (Wf.ethLaneRetireAuto lane cause) s <| .read fun s =>
    when (s.get (Obj.DOM_STATE 71) == 2) (retireLane lane cause)

/-- A write of `k` to `LANE_RETIRE` of port `p`. -/
def laneRetire (p k : Nat) (s : State) : WriteRes :=
  match (s.lanesOf p)[k]? with
  | some l => .ok (retireLane l 2)
  | none => .no Ab.RANGE

/-- LANE_RETIRE. -/
def execLaneRetire (ses port k : Nat) (s : State) : Host.Outcome State Fault Refusal :=
  need (Wf.laneRetire ses port k) s <| guarded ses (Obj.LANE_RETIRE port) k .svc (decide (k ≤ 3)) (laneRetire port k)

/-- ETH_PORT_LINK_CHANGE (R498): the port's link comes up at a rate, or goes down. -/
def execEthPortLinkChange (port rate : Nat) (s : State) : Host.Outcome State Fault Refusal :=
  need (Wf.ethPortLinkChange port rate) s <| .read fun s =>
    if rate = 0 then portDown port
    else if s.get (Obj.PORT_ENABLE port) = 0 ∨ s.get (Obj.DOM_STATE 71) ≠ 2 ∨ s.u.links.dead.contains port ∨ (s.lanesOf port).isEmpty then .skip
    else .put (Obj.PORT_LINK port) rate

/-- ARP_OR_ICMP_ECHO_REQUEST (R475): a port that carries IP answers. -/
def execArpOrIcmpEchoRequest (port : Nat) (reply : List Byte) (s : State) : Host.Outcome State Fault Refusal :=
  need (Wf.arpOrIcmpEchoRequest port reply) s <| .read fun s =>
    when (s.get (Obj.PORT_LINK port) != 0 && s.get (Obj.IP_ADDR port) != 0) (.emit (.frame (.ethernet port) reply))

/-- ROCE_ACK_TIMEOUT (R477): the request is sent again up to 7 times; then the queue pair is in error and what it holds fails: `jobs` are the jobs with
a collective on it. -/
def execRoceAckTimeout (qp : Nat) (jobs : List Nat) (s : State) : Host.Outcome State Fault Refusal :=
  need (Wf.roceAckTimeout qp jobs) s <| all [
    .read fun s =>
      let x := Tab.at s.u.links.qps qp {}
      if x.failed then .skip
      else if x.retries < 7 then all [
        .links (fun y => { y with qps := Tab.set y.qps qp { x with retries := x.retries + 1 } }),
        .emit (.frame (.roce qp) [])]
      else all [
        .links (fun y => { y with qps := Tab.set y.qps qp { x with failed := true } }),
        each jobs.eraseDups fun j => collFails j St.TIER_FAIL 0x0F10],
    settle]

/-- The tile of an exchange takes what it brought, combined with what it holds on the hops of a reduction; unless the ring ends here it goes on to the next member. Only a tile
of this module that the job has declared is written; one that a reduction does not accept ends the job as an unadmitted shape does (log entry 167). -/
def collTakes (job : Nat) (j : Job) (c : CollDecl) (x : Exchange) : Act := .read fun s =>
  let a := c.tiles.getD x.place 0
  let h := hops (s.members c.group) c.op
  let combine := decide (x.hop < h.2)
  if x.data.isEmpty ∨ c.tiles.length ≤ x.place then .skip
  else match s.writeFault j.ctx a x.tag with
    | some f => endJob job f.1 f.2 0 0
    | none =>
      let t := tileNo a
      match (if combine then s.lossOf t else none) with
      | some f => endJob job f.1 f.2 0 0
      | none =>
        if combine ∧ ¬ reducible x.tag then endJob job St.CONFIG_INVALID 0x0402 0 0
        else
          let r := if combine then reduceTiles x.tag (s.payload t) x.data (fun i => s.free i 64) else (tileSlice x.data 0, {})
          all [
            writeTile t x.tag r.1, countArith r.2, when combine (.draw 1024),
            .job job (fun y => { y with output := true }),
            when (decide (x.hop + 1 < h.1)) (.emit (.frame (.roce (s.get (Obj.COLL_QP_NEXT c.group))) r.1))]

/-- COLLECTIVE_EXCHANGE (R478, R480): an exchange arrives from a neighbour of job `job`'s group, and is checked against the job's declaration. -/
def execCollectiveExchange (job : Nat) (x : Exchange) (s : State) : Host.Outcome State Fault Refusal :=
  need (Wf.collectiveExchange job x) s <| all [
    .read fun s => match Tab.get? s.u.tt.jobs job with
      | none => .skip
      | some j => match j.decl.coll with
        | none => .skip
        | some c =>
          let qp := s.get (Obj.COLL_QP_NEXT c.group)
          let prev := s.get (Obj.COLL_QP_PREV c.group)
          if j.phase = .ready then .skip
          else if c.group ≠ x.group ∨ c.bytes ≠ x.bytes ∨ ¬ opsMeet c.op x.op then collFails job St.CONFIG_INVALID 0x0F12
          else if (Tab.at s.u.links.qps qp {}).failed ∨ (Tab.at s.u.links.qps prev {}).failed then collFails job St.TIER_FAIL 0x0F10
          else if ¬ x.data.isEmpty ∧ ofLe (x.tag.drop 28) ≠ crc32c (tileSlice x.data 0) then collFails job St.TIER_FAIL 0x0F13
          else all [
            .links (fun y => { y with qps := [qp, prev].foldl (fun t q => Tab.upd t q {} fun z => { z with retries := 0 }) y.qps }),
            collTakes job j c x],
    settle]

/-- COLLECTIVE_TIMEOUT (R480): a neighbour made no progress for `COLL_TIMEOUT_US`. -/
def execCollectiveTimeout (job : Nat) (s : State) : Host.Outcome State Fault Refusal :=
  need (Wf.collectiveTimeout job) s <| all [
    .read fun s => when (s.get Obj.COLL_NO_LIMIT == 0) (collFails job St.TIER_FAIL 0x0F11),
    settle]

/-! ## EtherCAT master lines (R482 to R485) -/

/-- ECAT_SYNC0 (R482): SYNC0 of cycle `k` falls; the line's group applies at the cycle boundary. -/
def execEcatSync0 (line k : Nat) (s : State) : Host.Outcome State Fault Refusal :=
  need (Wf.ecatSync0 line k) s <| .read fun s =>
    if ¬ s.lineRuns line ∨ s.ns < s.sync0 line k ∨ (s.line line).cycle.any (fun j => decide (k ≤ j)) then .skip
    else all [
      .line line (fun x => { x with cycle := some k }),
      when (s.groupPending (lineCtl line)) (applyLine line)]

/-- ECAT_INPUT_LAUNCH (R315, R371, R482): the input frames of the line's cycle leave, with the drift compensation of device time; with no channel to wait for, the
command frame leaves too. -/
def execEcatInputLaunch (line : Nat) (s : State) : Host.Outcome State Fault Refusal :=
  need (Wf.ecatInputLaunch line) s <| .read fun s =>
    match (s.line line).cycle with
    | none => .skip
    | some k =>
      if ¬ s.lineRuns line ∨ s.ns < s.sync0 line k + s.get (Obj.INPUT_LAUNCH_NS line) ∨ (s.line line).launched = some k then .skip
      else all [
        .line line (fun x => { x with launched := some k }),
        emitFrame line (.ecatInput line) (le 8 (s.ns - s.get Obj.DC_EPOCH_OFFSET_NS)),
        when (!s.chans.any (s.writesLine line)) (launchCommand line k s.ns)]

/-- ECAT_INPUT_FRAME (R483): an input frame of cycle `k` returns with the input image; `fcsOk` and `wkcOk`: its checks pass. -/
def execEcatInputFrame (line k : Nat) (image : List Byte) (fcsOk wkcOk : Bool) (s : State) : Host.Outcome State Fault Refusal :=
  need (Wf.ecatInputFrame line k image fcsOk wkcOk) s <| .read fun s =>
    match (s.line line).launched with
    | none => .skip
    | some j =>
      if ¬ s.lineRuns line ∨ j < k then .skip
      else if ¬ fcsOk then .count 32 (Obj.FCS_ERRORS line) 1
      else if k < j then .count 32 (Obj.FRAMES_STALE line) 1
      else if ¬ wkcOk then .count 32 (Obj.WKC_ERRORS line) 1
      else all [.wipe (lineIn line) 4096, .poke (lineIn line) image, .line line (fun x => { x with frame := some (k, s.ns) })]

/-- ECAT_RING_CHANGE (R485): the line is a ring, is broken with every slave reached, or has lost one. A LOST line comes back by its probe. -/
def execEcatRingChange (line st delay found : Nat) (s : State) : Host.Outcome State Fault Refusal :=
  need (Wf.ecatRingChange line st delay found) s <| .read fun s =>
    if s.get (Obj.LINE_STATE line) = 0 ∨ s.get (Obj.LINE_STATE line) = 3 then .skip
    else all [
      .put (Obj.LINE_STATE line) st, .put (Obj.RING_DELAY_NS line) delay, .put (Obj.SLAVES_FOUND line) found]

/-- ECAT_LINE_PROBE (R485): a LOST line is probed; with every configured slave answering it is recovered as a ring or broken ring. -/
def execEcatLineProbe (line found st delay : Nat) (answer : Bool) (s : State) : Host.Outcome State Fault Refusal :=
  need (Wf.ecatLineProbe line found st delay answer) s <| .read fun s =>
    if s.get (Obj.LINE_STATE line) ≠ 3 then .skip
    else all [
      .put (Obj.SLAVES_FOUND line) found,
      when answer (all [
        .put (Obj.LINE_STATE line) st, .put (Obj.RING_DELAY_NS line) delay,
        if s.get (Obj.AUTO_RECOVER line) ≠ 0 then driveSlaves line else .line line (fun x => { x with al := 1 })])]

/-! ## The slave port's link (R489) -/

/-- SLAVE_LINK_LOSS (R489): session 1 closes; the time base loses source 2. -/
def execSlaveLinkLoss (s : State) : Host.Outcome State Fault Refusal :=
  need Wf.slaveLinkLoss s <| .read fun s =>
    when s.u.links.slaveUp (all [
      .links (fun x => { x with slaveUp := false }), .count 32 Obj.SLAVE_LINK_DOWNS 1,
      when (s.isOpen 1) (sessionClose 1),
      when (s.get Obj.TB_SOURCE == 2 && s.get Obj.TB_STATE == Tb.LOCKED) holdover])

/-- SLAVE_LINK_RETURN (R39, R489): the supervisory master has configured `station`. -/
def execSlaveLinkReturn (station : Nat) (s : State) : Host.Outcome State Fault Refusal :=
  need (Wf.slaveLinkReturn station) s <| .read fun s =>
    when (!s.u.links.slaveUp && s.dev != Dev.STANDBY) (all [
      .links (fun x => { x with slaveUp := true }), .put Obj.STATION_ADDRESS station,
      when (decide (2 ≤ s.dev)) (sessionOpen 1 2 1 station)])

/-! ## CSI-2 (R490 to R493) -/

/-- What a packet's header comes to: 0 whole, 1 corrected, 2 not to be corrected. The port takes packets from PRE-OPERATIONAL on. -/
def header (p hdr : Nat) (ok : Act) : Act := .read fun s =>
  if s.get (Obj.CSI_ENABLE p) = 0 ∨ s.dev < Dev.PREOP then .skip
  else if hdr = 2 then all [
    .count 32 (Obj.PACKETS_DROPPED p) 1,
    .csi p (fun x => { x with frame := x.frame.map fun f => { f with flags := setBit f.flags 2 } })]
  else all [when (hdr == 1) (.count 32 (Obj.ECC_CORRECTED_HDR p) 1), ok]

/-- CSI_FRAME_START (R322, R323, R491): the frame is stamped, and its number compared with the last; the port's group applies. -/
def execCsiFrameStart (port vc num hdr : Nat) (s : State) : Host.Outcome State Fault Refusal :=
  need (Wf.csiFrameStart port vc num hdr) s <| all [
    .read fun s => when (decide (Dev.PREOP ≤ s.dev) && s.groupPending (csiCtl port)) (all [closeFrame port true, applyCsi port]),
    header port hdr (.read fun s =>
      if vc ≠ s.get (Obj.CSI_VC port) then .skip
      else
        let t := s.stamp port (s.ns, s.frac)
        let next (n : Nat) : Nat := if n = 65535 then 1 else n + 1
        all [
          closeFrame port true, countStamp port t.2,
          when ((s.csi port).last.any (fun n => next n != num)) (.count 32 (Obj.FRAME_GAPS port) 1),
          .csi port (fun x => { x with
            last := some num
            frame := some { tov := t.1.1, frac := t.1.2, arrived := s.ns, missed := t.2, number := num, started := s.ns } })]),
    settle]

/-- CSI_LINE_PACKET (R490 to R492): a long packet of a data type with a line; `crcOk`: its payload's CRC-16 holds. -/
def execCsiLinePacket (port vc dt hdr : Nat) (crcOk : Bool) (data : List Byte) (s : State) : Host.Outcome State Fault Refusal :=
  need (Wf.csiLinePacket port vc dt hdr crcOk data) s <| header port hdr (.read fun s =>
    let want := s.get (Obj.CSI_DT port)
    let embedded : Bool := dt == 0x12 && s.get (Obj.CSI_EMBEDDED port) != 0
    if vc ≠ s.get (Obj.CSI_VC port) then .skip
    else if ¬ embedded ∧ (dt ≠ want ∨ ¬ csiTypes.contains dt) then .count 32 (Obj.PACKETS_DROPPED port) 1
    else .csi port fun x => { x with frame := x.frame.map fun f => { f with
      width := if dt = want then data.length else f.width
      lines := f.lines ++ [data ++ List.replicate (64 * ceilDiv data.length 64 - data.length) 0]
      count := if dt = want then f.count + 1 else f.count
      flags := if crcOk then f.flags else setBit f.flags 1 } })

/-- CSI_FRAME_END (R491 to R493). -/
def execCsiFrameEnd (port vc hdr : Nat) (s : State) : Host.Outcome State Fault Refusal :=
  need (Wf.csiFrameEnd port vc hdr) s <| all [
    header port hdr (.read fun s => when (vc == s.get (Obj.CSI_VC port)) (closeFrame port false)), settle]

/-- CSI_FRAME_TIMEOUT (R491). -/
def execCsiFrameTimeout (port : Nat) (s : State) : Host.Outcome State Fault Refusal :=
  need (Wf.csiFrameTimeout port) s <| all [
    .read fun s => match (s.csi port).frame with
      | some f => when (decide (f.started + 1000 * s.get (Obj.CSI_FRAME_TIMEOUT_US port) ≤ s.ns)) (closeFrame port true)
      | none => .skip,
    settle]

/-! ## SPI (R494, R495, R528) -/

/-- The control block of a port's group. -/
abbrev spiCtl (p : Nat) : Nat := 0x2F40 + p

/-- Port `p`'s group applies, between transfers. -/
def applySpi (p : Nat) : Act := all [
  groupTake (spiCtl p), .read fun s => when (s.get (Obj.SPI_LENGTH p) != 0) (needDomain 72)]

/-- The check code of an SPI group's commit (R499): a rate above 50 MHz is a divider below 4, which the range of the object excludes. -/
def checkSpi (s : State) (p : Nat) : Nat :=
  let writes (m : IoMap) : Bool := m.outs.any fun o => o.dest == 2 && o.port == p
  if s.shadowOf (Obj.SPI_DIVIDER p) < 4 ∨ (s.shadowOf (Obj.SPI_ROLE p) = 0 ∧
      s.chans.any fun c => writes (s.ioMap c) || (s.groupPending (chanCtl c) && writes (IoMap.ofBytes (s.shadowBlob (Obj.IO_MAP c))))) then 0x0F42 else 0

/-- The bytes of `SPI_TX`. -/
def State.spiTx (s : State) (p : Nat) : List Byte := (List.range 8).flatMap fun i => le 8 (s.get (Obj.SPI_TX p + i))

/-- SPI_SAMPLE_TRANSFER (R323, R494, R495): a transfer of a port of role 0 starts, at its scheduled time `k` or at an edge of its capture input. -/
def execSpiSampleTransfer (port k : Nat) (edge : Bool) (s : State) : Host.Outcome State Fault Refusal :=
  need (Wf.spiSampleTransfer port k edge) s <| .read fun s =>
    let x := s.spi port
    let due : Bool :=
      if edge then decide (s.get (Obj.SPI_EDGE_INPUT port) < 16) && (Tab.at s.u.time.cap (s.get (Obj.SPI_EDGE_INPUT port)) {}).last.isSome
      else s.get (Obj.SPI_PERIOD_NS port) != 0 && decide (x.next ≤ k)
        && decide (s.get (Obj.SPI_PHASE_NS port) + k * s.get (Obj.SPI_PERIOD_NS port) ≤ s.ns)
    let n := if edge then x.next else k
    if s.dev < Dev.PREOP ∨ s.get (Obj.SPI_ROLE port) ≠ 0 ∨ s.get (Obj.SPI_LENGTH port) = 0 ∨ x.vioOut ∨ x.busy.isSome ∨ ¬ due then .skip
    else
      let t := s.stamp (8 + port) (s.ns, s.frac)
      all [
        .spi port (fun y => { y with
          busy := some (n, t), next := n + 1 }),
        .emit (.frame (.spi port) ((s.spiTx port).take (s.get (Obj.SPI_LENGTH port)))),
        .count 64 (Obj.SPI_TRANSFERS port) 1]

/-- SPI_TRANSFER_END (R370, R495): chip select is deasserted; the bytes received are a sample. -/
def execSpiTransferEnd (port : Nat) (bytes : List Byte) (s : State) : Host.Outcome State Fault Refusal :=
  need (Wf.spiTransferEnd port bytes) s <| .read fun s =>
    match (s.spi port).busy with
    | none => .skip
    | some (n, t, missed) => all [
        .spi port (fun y => { y with
          busy := none, sample := if y.vioOut then y.sample else some (n, t.1, t.2, s.ns) }),
        when (!(s.spi port).vioOut) (all [
          countStamp (8 + port) missed, .wipe (spiIn port) 64, .poke (spiIn port) (bytes.take (s.get (Obj.SPI_LENGTH port)))]),
        when (s.groupPending (spiCtl port)) (applySpi port)]

/-- The measured VIO of the bank that port `p` stands in. -/
def putVio (p mv : Nat) : Act := .put (if p < 4 then Obj.VIO_SPI_A_MV else Obj.VIO_SPI_B_MV) (mv % 65536)

/-- VIO_OUT_OF_RANGE (R528): the port makes no transfers; logged once for each excursion. -/
def execVioOutOfRange (port mv : Nat) (s : State) : Host.Outcome State Fault Refusal :=
  need (Wf.vioOutOfRange port mv) s <| .read fun s =>
    when (s.dev != Dev.STANDBY) (all [
      putVio port mv,
      when (!(s.spi port).vioOut) (all [.spi port (fun x => { x with vioOut := true }), logEv Ev.VIO_OUT_OF_RANGE port mv 0])])

/-- VIO_BACK_IN_RANGE (R528). -/
def execVioBackInRange (port mv : Nat) (s : State) : Host.Outcome State Fault Refusal :=
  need (Wf.vioBackInRange port mv) s <| all [.spi port (fun x => { x with vioOut := false }), putVio port mv]

end Sys2Proof.Machine
end

