-- ==== Sys2Proof/Machine/Memory.lean ====
section
/-! DEFINITION. The commands of the memory tiers: tile moves, the Gleaner, maintenance windows, the Surveyor, seed stock, retirement and the peer tier
(R150 to R192). -/

namespace Sys2Proof.Machine
open Act

/-! ## Tile moves (R155 to R164, R178) -/

/-- A tile's home copy is written, compressed where its output declaration asks for that and its nonzero bytes let it (R297, R299). -/
def encoded (t : Nat) (m : Move) (account : Nat → Act) : Act := .read fun s =>
  if ¬ m.compress ∨ s.get Obj.CODEC_EN = 0 ∨ m.data.length < 4096 then all [writeTile t m.tag m.data, account m.bytes]
  else match codecEncode (m.data.take 4096) with
    | none => all [writeTile t (codecTag m.tag false) m.data, account m.bytes, .count 64 Obj.CODEC_TILES_RAW 1]
    | some p =>
      let bytes := min m.bytes (movedBytes true p)
      all [writeTile t (codecTag m.tag true) p, account bytes,
        .count 64 Obj.CODEC_TILES_ENCODED 1, .count 64 Obj.CODEC_BYTES_SAVED (m.bytes - bytes)]

/-- The host memory that job `x` may read (R53), or with `out` write: the buffers of its request's argument descriptors. -/
def State.hostSpans (s : State) (x : Job) (out : Bool) : List (Nat × Nat) :=
  let slot : Option Nat := match Tab.get? s.u.tt.runs x.run with
    | none => none
    | some r => match r.owner, r.forSlot with
      | .slot n, _ => some n
      | _, some q => some q.1
      | _, none => none
  match slot with
  | none => []
  | some n => (List.range (s.get (Obj.ARG_COUNT n))).filterMap fun a =>
      let m := s.get (Obj.ARG_META n a)
      let dir := m / 2 ^ 58 % 4
      if m / 2 ^ 60 = 0 ∧ (dir = 2 ∨ dir = (if out then 1 else 0)) then some (s.get (Obj.ARG_ADDR n a), s.get (Obj.ARG_LEN_CHECK n a) % 2 ^ 32) else none

/-- The bytes of a move lie in host memory that the job's request names, in the direction it goes. -/
def State.hostNamed (s : State) (x : Job) (m : Move) (out : Bool) : Bool := match m.host with
  | none => true
  | some a => (s.hostSpans x out).any fun d => decide (d.1 ≤ a ∧ a + m.bytes ≤ d.1 + d.2)

/-- A move writes to host memory: from the field, or from the home of a tile. -/
def Move.toHost (m : Move) : Bool := m.host.isSome && (match m.side with
  | .home => !m.write
  | _ => m.write)

/-- What a move uses in slates and store (R122). -/
def Move.uses (m : Move) : List (Place × Nat) := match m.side with
  | .place p => [(p, m.bytes)]
  | _ => []

/-- The bytes that a move out of the field brings: those of its side, or those that come with it. -/
def State.brings (s : State) (m : Move) : List Byte := match m.side with
  | .home => m.data
  | .place p => s.mread (p.addr m.field) m.bytes
  | .lines o => s.mread (lineBase m.field + o) m.bytes

/-- Bytes arrive at the device side of a move into the field. -/
def lands (m : Move) (bs : List Byte) : Act := match m.side with
  | .home => .skip
  | .place p => .poke (p.addr m.field) (bs.take m.bytes)
  | .lines o => .poke (lineBase m.field + o) (bs.take m.bytes)

/-- Bytes go to the host: output of the job (R141), of which its request's CRCs are made (R54). -/
def toHost (j : Nat) (a : Nat) (bs : List Byte) : Act := .read fun s => match Tab.get? s.u.tt.jobs j with
  | none => .skip
  | some x => all [
      .emit (.hostWrite a bs), .job j (fun y => { y with output := true }),
      .run' x.run (fun r => { r with sent := (a, bs) :: r.sent })]

/-- Bytes moved are accounted to the job and its context, and for the energy of the memory group of tile `t`'s home, if a tile takes part (R228, R229). -/
def movedFor (job : Option Nat) (t : Option Nat) (bytes : Nat) : Act := .read fun s => match job.bind (fun j => (Tab.get? s.u.tt.jobs j).map (j, ·)) with
  | some (j, x) => all [
      .job j (fun y => { y with bytes := y.bytes + bytes }), .count 64 (Obj.CTX_BYTES_MOVED x.ctx) bytes,
      match ((t.bind (Tab.get? s.u.mem.tiles)).map (·.home) : Option Home) with
        | some (Home.slot k) => spend (66 + s.slotGroup k) j bytes
        | _ => .skip]
  | none => .skip

/-- A read of tile `t`, that no failure has ended, gives its bytes to the job and to those that have joined it: decoded (R297), and in the generation that each first
fetched. -/
def readGives (m : Move) (t : Nat) : Act := .read fun s =>
  match Tab.get? s.u.mem.tiles t with
  | none => .skip
  | some x => if x.lost.isSome then .skip else all [
      each (m.job.toList ++ m.joined) (fun j => sees j t),
      .read fun s =>
        let v := match m.job with
          | some j => s.seenBy j t
          | none => (s.homeTag x.home, s.homeData x.home)
        let packed := bit (tagByte v.1 2) 1
        let moved := min m.bytes (movedBytes packed v.2)
        let bs := if packed then codecDecode v.2 else v.2
        all [
          movedFor m.job (some t) moved,
          when packed (.count 64 Obj.CODEC_BYTES_SAVED (m.bytes - moved)),
          lands m bs,
          match m.job, m.host with
            | some j, some a => when (m.side == .home) (match (if m.compress ∧ s.get Obj.CODEC_EN ≠ 0 then codecEncode bs else none) with
                | some p => toHost j a (p.take (min m.bytes (movedBytes true p)))
                | none => toHost j a (bs.take (min m.bytes 4096)))
            | _, _ => .skip]]

/-- Tile `t` is read, from `addr` on where its home lies here: what R178 makes of the error that is met. A tile on the peer tier fails at once while `PEER_TIMEOUT_US` is 0
(R168), and a CHECK that does not hold counts as an uncorrectable error whatever the ECC reports (R156). -/
def readTile (m : Move) (t : Nat) : Act := .read fun s =>
  match Tab.get? s.u.mem.tiles t with
  | none => .skip
  | some x =>
    let jobs := m.job.toList ++ m.joined
    let data := s.homeData x.home
    let tag := s.homeTag x.home
    let whole := ofLe (tag.drop 28) == crc32c data && (!bit (tagByte tag 2) 1 || codecOk data)
    let err := if whole then m.err else if m.err = .tag then .tag else .check
    let fails : Act := match x.home with
      | .slot k => uncorrectableAt (s.slotAddr k + m.addr % 4096) m.row jobs
      | .lease _ _ => readFails t 0x0410 jobs
    let ch := s.servingChan m.addr
    match x.lost, x.home with
    | some d, _ => readFails t d jobs
    | none, .lease n k =>
      if s.get Obj.PEER_TIMEOUT_US = 0 then all [.count 64 Obj.PEER_ACCESSES 1, .count 32 Obj.PEER_TIMEOUTS 1, readFails t 0x0411 jobs, readGives m t]
      else all [.emit (.frame (.peerRead n k) []), when (err == .check || err == .uncorrectable) fails, readGives m t]
    | none, .slot k => match err with
      | .tag => all [.count 32 (Obj.CH_UNCORRECTED ch) 1, logEv Ev.SYSTEM_REGION_ERROR ch m.addr 0, dueCause 10 0]
      | .uncorrectable | .check => all [fails, readGives m t]
      | .corrected => all [correctedAt (s.slotAddr k + m.addr % 4096) m.row, readGives m t]
      | _ => readGives m t

/-- What stops a job's move before it accesses anything (R122, R178, R192, R470). -/
def State.moveFault (s : State) (x : Job) (m : Move) : Option (Nat × Nat) :=
  let tile : Option (Nat × Nat) := if m.write then s.writeFault x.ctx m.tile m.tag else match s.tileOf x.ctx m.tile with
    | .inr f => some f
    | .inl _ => none
  let bare := m.host.isSome && m.side != .home
  match (if bare then none else tile) with
  | some f => some f
  | none =>
    if ¬ m.uses.all (s.mayUse x m.field) then some (St.ACCESS_DENIED, 0x0320)
    else if m.host.isSome ∧ ¬ s.hostReachable then some (St.ACCESS_DENIED, 0x0F01)
    else if m.host.isSome ∧ m.err = .hostRefused then some (St.ACCESS_DENIED, 0x0430)
    else none

/-- DRILL_MOVE_DONE: the checks of R192, the write of the home copy, the read, or the move between host and field; or the error that is met. A move to or from host memory
that the job's request does not name does not come about (R53). A write that was issued before an arrival is complete for its barrier (R136). -/
def execDrillMoveDone (m : Move) (s : State) : Host.Outcome State Fault Refusal :=
  need (Wf.drillMoveDone m) s <| .read fun s => all [
    match m.job with
    | none =>
      -- the Surveyor's own moves touch homes only
      let t := tileNo m.tile
      when (m.host.isNone && m.side == .home && m.bytes != 0 && (Tab.get? s.u.mem.tiles t).isSome)
        (if m.write then (if shapeAdmits (tagByte m.tag 1) (tagByte m.tag 0 % 16) then encoded t m (fun _ => .skip) else .skip) else readTile m t)
    | some j => match Tab.get? s.u.tt.jobs j with
      | none => .skip
      | some x =>
        let done : Act := match m.barrier with
          | some b => barrierMoves j b (fun r => { r with owed := r.owed - 1 })
          | none => .skip
        match (if m.bytes = 0 then none else s.moveFault x m) with
        | some f => all [when (f.2 == 0x0430) (.count 32 Obj.AER_UNCORRECTABLE 1), endJob j f.1 f.2 0 0]
        | none =>
          if m.bytes = 0 then done
          else if ¬ s.hostNamed x m m.toHost then .skip
          else if m.host.isSome ∧ m.side ≠ .home then all [
            movedFor m.job none m.bytes,
            if m.write then (match m.host with
              | some a => toHost j a (s.brings m)
              | none => .skip)
            else lands m m.data,
            done]
          else if m.write then all [
            encoded (tileNo m.tile) { m with data := s.brings m } (movedFor m.job (some (tileNo m.tile))),
            .job j (fun y => { y with output := true, seen := Tab.del y.seen (tileNo m.tile) }),
            done]
          else all [readTile m (tileNo m.tile), done],
    settle]

/-- HOST_COMPLETION_TIMEOUT (R178). -/
def execHostCompletionTimeout (job : Nat) (s : State) : Host.Outcome State Fault Refusal :=
  need (Wf.hostCompletionTimeout job) s <| all [endJob job St.ACCESS_DENIED 0x0431 0 0, settle]

/-- TILE_NUMBER_ALLOCATION (R159): tile numbers of the job's context that it frees, then those it allocates. -/
def execTileNumberAllocation (job n : Nat) (freed : List Nat) (s : State) : Host.Outcome State Fault Refusal :=
  need (Wf.tileNumberAllocation job n freed) s <| .read fun s => all [
    match Tab.get? s.u.tt.jobs job with
    | none => .skip
    | some x => all [
        each (freed.filter (fun t => match Tab.get? s.u.mem.tiles t with
          | some y => y.ctx == x.ctx && !s.streamTile x.ctx t && !s.seqTile x.ctx t && !s.mapTile t
          | none => false)) freeTile,
        .read fun s => match s.allocFault x.ctx n with
          | some d => endJob job St.CONFIG_INVALID d 0 0
          | none => allocTiles x.ctx n],
    settle]

/-! ## The Gleaner (R178, R180) -/

/-- GLEANER_GRANULE: a granule of usable memory, lent slots among it. -/
def execGleanerGranule (addr row : Nat) (corrected uncorrectable passEnd late busy : Bool) (s : State) : Host.Outcome State Fault Refusal :=
  need (Wf.gleanerGranule addr row corrected uncorrectable passEnd late busy) s <| .read fun s =>
    if s.get Obj.GLEANER_PASS_S = 0 ∨ s.capacity ≤ addr then .skip
    else all [
      background 0 (s.servingChan addr) busy (all [
        when corrected (all [.count 64 Obj.GLEANER_CORRECTED 1, correctedAt addr row]),
        when uncorrectable (all [.count 32 Obj.GLEANER_UNCORRECTED 1, uncorrectableAt addr row []]),
        when passEnd (.count 32 Obj.GLEANER_PASSES 1),
        when (passEnd && late) (.count 32 Obj.GLEANER_LATE 1)]),
      settle]

/-! ## Maintenance (R181 to R183) -/

/-- PER_BANK_REFRESH. -/
def execPerBankRefresh (ch bank : Nat) (s : State) : Host.Outcome State Fault Refusal :=
  need (Wf.perBankRefresh ch bank) s <| .read fun s => .mem fun m => { m with refreshed := Tab.set m.refreshed (ch * 8 + bank) s.time }

/-- A whole-channel window of channel `ch` falls due, in which foreground work waits for `wait` ns. -/
def window (ch wait : Nat) (op : MaintOp) : Act := .read fun s => all [
  .mem fun m => { m with dueWindows := m.dueWindows ++ [(ch, wait, op)] },
  startWindows (s.u.mem.dueWindows.length + 1)]

/-- ZQ_CALIBRATION. -/
def execZqCalibration (ch wait : Nat) (s : State) : Host.Outcome State Fault Refusal :=
  need (Wf.zqCalibration ch wait) s <| window ch wait .zq

/-- DQS_TRACKING, with the MR4 read that the window carries (R181, R182). -/
def execDqsTracking (ch mult wait : Nat) (s : State) : Host.Outcome State Fault Refusal :=
  need (Wf.dqsTracking ch mult wait) s <| window ch wait (.dqs mult)

/-- CATCHUP_REFRESH: every bank of the channel is refreshed. -/
def execCatchupRefresh (ch wait : Nat) (s : State) : Host.Outcome State Fault Refusal :=
  need (Wf.catchupRefresh ch wait) s <| window ch wait .catchup

/-! ## The Surveyor (R165, R169 to R174) -/

/-- The bytes that migrations may move in a period (R170). -/
def State.migrateBytes (s : State) : Nat := s.get Obj.MIGRATE_LIMIT_MBPS * s.get Obj.SURVEYOR_PERIOD_US

/-- A running job holds tile `t`: it has declared it resident (log entry 164). -/
def State.tileHeld (s : State) (t : Nat) : Bool :=
  s.u.tt.jobs.any fun e => (e.2.phase == .running || e.2.phase == .draining) && e.2.decl.tiles.any (fun a => tileNo a == t)

/-- A home can be at `h`: a free payload slot, or a free slot of an open lease. -/
def State.homeFree (s : State) : Home → Bool
  | .slot k => s.slotOk s.slotsUsed k && decide (0 < s.slotsFree)
  | .lease n k => s.leaseOpen n && !(s.leaseUsed n).contains k && decide (k < s.get (Obj.LEASE_SLOTS n))

/-- The limit of R170 that forbids a place which is not free. -/
def State.placeItem (s : State) : Home → Nat
  | .slot k => if s.u.mem.badSlots.contains k ∨ s.get Obj.PAYLOAD_SLOTS ≤ k then 1 else 5
  | .lease _ _ => 5

/-- A migration of tile `t` to `h` begins (R170, R171). -/
def migrate (t : Nat) (h : Home) : Act := .read fun s =>
  match Tab.get? s.u.mem.tiles t with
  | none => .skip
  | some x =>
    let near := match x.replica with
      | some r => !s.apart h r
      | none => false
    if x.lost.isSome ∨ x.migrating.isSome then .skip
    else if ¬ s.homeFree h then refuseDecision (s.placeItem h)
    else if near then refuseDecision 2
    else if s.tileHeld t then refuseDecision 4
    else if s.migrateBytes < (s.u.mem.begun + 1) * 4096 then refuseDecision 6
    else all [.mem (fun m => { m with begun := m.begun + 1 }), .tile t (fun y => { y with migrating := some h, retry := none })]

/-- The clean copies that field `f`'s store may hold: `STORE_COPY_SHARE` of its 512 tiles (R162). -/
def State.copyRoom (s : State) : Nat := 512 * s.get Obj.STORE_COPY_SHARE / 100

/-- A write of `STORE_COPY_SHARE`: the copies beyond the new share go at once, the oldest first (R162; DESIGN CHOICE, log entry 171). -/
def writeCopyShare (v : Nat) (_s : State) : WriteRes := .ok (all [
  .put Obj.STORE_COPY_SHARE v,
  .units fun u => { u with fields := u.fields.map fun e => (e.1, { e.2 with copies := e.2.copies.take (512 * v / 100) }) }])

/-- Carry out a decision of a period. -/
def decide' : TierMove → Act
  | .toSlot t k => migrate t (.slot k)
  | .toLease t n => .read fun s => match s.leaseSlot n with
    | some h => migrate t h
    | none => refuseDecision 5
  | .copy t f => .read fun s =>
    let r := s.fieldRec f
    if ¬ (Tab.get? s.u.mem.tiles t).isSome ∨ r.copies.contains t ∨ 66 ≤ f then .skip
    else if s.copyRoom ≤ r.copies.length ∨ s.tileRoom f (s.freeGrans f) ≤ r.copies.length ∨ s.get (Obj.DOM_STATE f) ≠ 2 then refuseDecision 5
    else .field f (fun x => { x with copies := t :: x.copies })
  | .dropCopy t f => .field f fun x => { x with copies := x.copies.filter (· != t) }
  | .takeLease n lender id slots => .read fun s =>
    if s.get Obj.PEER_TIER_EN = 0 ∨ 8 ≤ n ∨ s.get (Obj.LEASE_STATE n) = 1 ∨ s.get (Obj.LEASE_STATE n) = 2
      ∨ (List.range 8).any (fun l => (s.get (Obj.LEASE_STATE l) == 1 || s.get (Obj.LEASE_STATE l) == 2) && s.get (Obj.LENDER_MODULE l) == lender) then .skip
    else all [.put (Obj.LEASE_STATE n) 1, .put (Obj.LENDER_MODULE n) (lender % 32768), .put (Obj.LEASE_ID n) (id % 65536),
      .put (Obj.LEASE_SLOTS n) (slots % 4294967296), .put (Obj.RECALL_DEADLINE n) 0,
      .mem fun m => { m with
        leaseSeq := m.leaseSeq + 1, leaseKey := Tab.set m.leaseKey n (m.leaseSeq + 1), leaseCtr := Tab.set m.leaseCtr n 0 }]
  | .noteRecall n deadline => .read fun s =>
    when (s.get (Obj.LEASE_STATE n) == 1 && decide (n < 8)) (all [.put (Obj.LEASE_STATE n) 2, .put (Obj.RECALL_DEADLINE n) deadline])
  | .giveLease n => .read fun s =>
    when (decide (n < 8) && (s.leaseUsed n).isEmpty) (all [.put (Obj.LEASE_STATE n) 0, .put (Obj.LEASE_SLOTS n) 0, .put (Obj.RECALL_DEADLINE n) 0])

/-- A decision that migrates is one of the periodic tier decisions that a period or a limit of 0 disables (R172). -/
def TierMove.migrates : TierMove → Bool
  | .toSlot _ _ | .toLease _ _ => true
  | _ => false

/-- A decision that takes a new lease. -/
def TierMove.negotiates : TierMove → Bool
  | .takeLease _ _ _ _ => true
  | _ => false

/-- SURVEYOR_PERIOD (R172, R173); without policy firmware no periodic migration and no new lease (R460). -/
def execSurveyorPeriod (ds : List TierMove) (s : State) : Host.Outcome State Fault Refusal :=
  need (Wf.surveyorPeriod ds) s <| .read fun s =>
    let on := s.get Obj.SURVEYOR_PERIOD_US != 0 && s.get Obj.MIGRATE_LIMIT_MBPS != 0 && s.policyRuns
    let mine := ds.filter (fun d => (on || !d.migrates) && (s.policyRuns || !d.negotiates))
    all [
      .mem (fun m => { m with begun := 0 }),
      each mine decide',
      .read (fun s => each s.u.mem.tiles (fun e => when (e.2.shared && e.2.replica.isNone) (seed e.1))),
      settle]

/-- MIGRATION_SWITCH (R171): verified, the map entry switches in one write; else the migration is aborted. It yields to foreground work (R179). -/
def execMigrationSwitch (tile : Nat) (verified busy : Bool) (s : State) : Host.Outcome State Fault Refusal :=
  need (Wf.migrationSwitch tile verified busy) s <| .read fun s =>
    match Tab.get? s.u.mem.tiles tile with
    | none => .skip
    | some x => match x.migrating with
      | none => .skip
      | some h => background 5 0 busy (
        if verified then all [
          pokeHome tile x.gen h (s.homeTag x.home) (s.homeData x.home),
          .tile tile (fun y => { y with home := h, migrating := none, retry := none, aborts := 0 }),
          .count 64 Obj.MIGRATIONS 1, .count 64 Obj.BYTES_MIGRATED 4096]
        else all [
          .tile tile (fun y => { y with migrating := none, retry := some h, aborts := y.aborts + 1 }),
          .count 64 Obj.MIGRATE_ABORTS 1])

/-- MIGRATION_RETRY (R171): after 4 aborts, once the tile has had no write for a period. -/
def execMigrationRetry (tile : Nat) (s : State) : Host.Outcome State Fault Refusal :=
  need (Wf.migrationRetry tile) s <| .read fun s =>
    match Tab.get? s.u.mem.tiles tile with
    | none => .skip
    | some x => match x.retry, x.migrating with
      | some h, none =>
        if 4 ≤ x.aborts ∧ s.time < x.written + s.get Obj.SURVEYOR_PERIOD_US * 1000 * 4294967296 then .skip
        else all [.tile tile (fun y => { y with retry := none }), migrate tile h]
      | _, _ => .skip

/-- SEED_REBUILD (R170, R174, R175): a new home written from the replica, or a new replica, at places that the Surveyor chose. -/
def execSeedRebuild (tile : Nat) (home replica : Option Home) (s : State) : Host.Outcome State Fault Refusal :=
  need (Wf.seedRebuild tile home replica) s <| .read fun s =>
    let place (h : Home) (isHome : Bool) : Act := .read fun s => match Tab.get? s.u.mem.tiles tile with
      | none => .skip
      | some x =>
        let near := match (if isHome then x.replica else some x.home) with
          | some o => !s.apart h o
          | none => false
        if x.lost.isSome then .skip
        else if ¬ s.homeFree h then refuseDecision (s.placeItem h)
        else if near then refuseDecision 2
        else all [
          pokeHome tile x.gen h (s.homeTag x.home) (s.homeData x.home),
          .tile tile (fun y => if isHome then { y with home := h } else { y with replica := some h }),
          .count 64 Obj.BYTES_MIGRATED 4096]
    all [
      match home with
        | some h => place h true
        | none => .skip,
      match replica with
        | some h => when (s.get Obj.SEED_STOCK_EN != 0) (place h false)
        | none => .skip]

/-! ## Retirement (R185 to R191) -/

/-- A write of `v` to `RETIRE_REQUEST` of channel `ch`. -/
def retireRequest (ch : Nat) (s : State) : WriteRes :=
  if s.get (Obj.CHANNEL_ROLE ch) ≠ 0 ∨ ¬ s.retireFits ch then .no Ab.STATE_FORBIDS else .ok (retireStart ch 0)

/-- RETIRE_REQUEST. -/
def execRetireRequest (ses ch v : Nat) (s : State) : Host.Outcome State Fault Refusal :=
  need (Wf.retireRequest ses ch v) s <|
    guarded ses (Obj.RETIRE_REQUEST ch) v .svc (v == 1) (retireRequest ch)

/-- STRIPE_SWITCH (R186): the next stripes switch to the relocated mapping; with the last the channel is retired. -/
def execStripeSwitch (ch stripes : Nat) (s : State) : Host.Outcome State Fault Refusal :=
  need (Wf.stripeSwitch ch stripes) s <| .read fun s =>
    match Tab.get? s.u.mem.switched ch with
    | none => .skip
    | some (cause, n) =>
      let total := s.pieces ch
      let n' := n + stripes
      if total ≤ n' then all [retireDone ch 2 cause, .put (Obj.RETIRE_PROGRESS ch) 100]
      else all [
        .mem (fun m => { m with switched := Tab.set m.switched ch (cause, n') }),
        .put (Obj.RETIRE_PROGRESS ch) (n' * 100 / total)]

/-- A home has a piece on channel `ch` as the pieces lie now. -/
def State.onChannel (s : State) (ch : Nat) : Home → Bool
  | .slot k => (List.range 16).any fun i => s.servingChan (s.slotAddr k + 256 * i) == ch
  | .lease _ _ => false

/-- CHANNEL_DEAD (R185, R189): the channel is failed, its pieces are mapped into the headland, and every tile that had a piece there is a data error. -/
def execChannelDead (ch : Nat) (s : State) : Host.Outcome State Fault Refusal :=
  need (Wf.channelDead ch) s <| .read fun s =>
    let copies := s.u.mem.tiles.filter (fun e => match e.2.replica with
      | some r => s.onChannel ch r
      | none => false)
    let homes := s.u.mem.tiles.filter (fun e => s.onChannel ch e.2.home)
    if 2 ≤ s.get (Obj.CHANNEL_ROLE ch) then .skip
    else all [
      each copies (fun e => .tile e.1 (fun y => { y with replica := none })),
      each homes (fun e => homeFails e.1 0x0410),
      when (s.get (Obj.CHANNEL_ROLE ch) == 0) (layReloc ch),
      retireDone ch 3 2,
      settle]

/-! ## Lending (R165, R166, R169) -/

/-- `LENT_MIB`. -/
def State.lentMib (s : State) : Nat := ceilDiv (s.u.mem.lent.foldl (fun a e => a + e.2.slots) 0 * 4160) 1048576

/-- A write to `LEASE_REQUEST_MIB`: the grant is the smaller of the request and the free lendable space, in whole slots of one range (R166; log
entry 176). -/
def leaseRequest (ses mib qpn rkey base : Nat) (s : State) : WriteRes :=
  let room := min ((s.get Obj.LEND_LIMIT_MIB - s.lentMib) * 1048576) (min s.slotsFree s.lendable * 4096)
  let slots := min (mib * 1048576) room / 4160
  let id := s.u.mem.nextLease
  let first := (s.lendAt (ceilDiv (slots * 4160) 4096)).getD 0
  .ok (if slots = 0 ∨ ¬ s.policyRuns then all [.put (Obj.GRANT_SLOTS ses) 0, .put (Obj.GRANT_QPN ses) 0, .put (Obj.GRANT_RKEY ses) 0, .put (Obj.GRANT_BASE ses) 0,
      .put (Obj.GRANT_LEASE_ID ses) 0]
    else all [
      .put (Obj.GRANT_SLOTS ses) slots, .put (Obj.GRANT_QPN ses) qpn, .put (Obj.GRANT_RKEY ses) rkey, .put (Obj.GRANT_BASE ses) base,
      .put (Obj.GRANT_LEASE_ID ses) id,
      .mem (fun m => { m with
        lent := Tab.set m.lent id { slots := slots, base := base, peer := (s.session ses).certKey, first := first }
        nextLease := if id = 65535 then 1 else id + 1 })])

/-- LEASE_REQUEST. -/
def execLeaseRequest (ses mib qpn rkey base : Nat) (s : State) : Host.Outcome State Fault Refusal :=
  need (Wf.leaseRequest ses mib qpn rkey base) s <|
    guarded ses Obj.LEASE_REQUEST_MIB mib .sup true (leaseRequest ses mib qpn rkey base)

/-- A write to `LEASE_RELEASE`: only a lease that the writing module holds (log entry 45). -/
def leaseRelease (ses lease : Nat) (s : State) : WriteRes :=
  match Tab.get? s.u.mem.lent lease with
  | some x => if x.peer = (s.session ses).certKey then .ok (.mem fun m => { m with lent := Tab.del m.lent lease }) else .no Ab.RANGE
  | none => .no Ab.RANGE

/-- LEASE_RELEASE. -/
def execLeaseRelease (ses lease : Nat) (s : State) : Host.Outcome State Fault Refusal :=
  need (Wf.leaseRelease ses lease) s <| guarded ses Obj.LEASE_RELEASE lease .sup true (leaseRelease ses lease)

/-- The 16-byte record of a recall (R32). -/
def recallRecord (lease slots deadline : Nat) : List Byte := le 2 lease ++ le 2 0 ++ le 4 slots ++ le 8 deadline

/-- A recall's NOTIFY goes to every open session of the borrower (R32). -/
def recallNotify (lease : Nat) : Act := .read fun s =>
  match Tab.get? s.u.mem.lent lease with
  | none => .skip
  | some x => match x.recalled with
    | none => .skip
    | some (deadline, slots) => each (List.range 14) fun i =>
        when (s.get (Obj.TRANSPORT (i + 2)) == 3 && (s.session (i + 2)).certKey == x.peer)
          (sendNotify (i + 2) 2 [recallRecord lease slots deadline])

/-- LEASE_RECALL (R169): notice is given; a notice of 0 revokes at once. -/
def execLeaseRecall (lease slots : Nat) (s : State) : Host.Outcome State Fault Refusal :=
  need (Wf.leaseRecall lease slots) s <| .read fun s =>
    when (Tab.get? s.u.mem.lent lease).isSome (all [
      .mem (fun m => { m with
        lent := Tab.upd m.lent lease { slots := 0, base := 0, peer := 0 }
          (fun x => { x with recalled := some (s.ns + s.get Obj.RECALL_NOTICE_MS * 1000000, slots) }) }),
      recallNotify lease,
      when (s.get Obj.RECALL_NOTICE_MS == 0) (.mem fun m => { m with lent := Tab.del m.lent lease })])

/-- LEASE_RECALL_NOTIFY: repeated every 100 ms (R32). -/
def execLeaseRecallNotify (lease : Nat) (s : State) : Host.Outcome State Fault Refusal :=
  need (Wf.leaseRecallNotify lease) s <| recallNotify lease

/-- Borrowed lease `n` is revoked: a tier failure of every tile still on it (R169). -/
def leaseRevoked (n : Nat) : Act := .read fun s =>
  let onLease (h : Home) : Bool := match h with
    | .lease m _ => m == n
    | .slot _ => false
  when (s.get (Obj.LEASE_STATE n) == 1 || s.get (Obj.LEASE_STATE n) == 2) (all [
    .put (Obj.LEASE_STATE n) 3,
    each (s.u.mem.tiles.filter (fun e => match e.2.replica with
      | some r => onLease r
      | none => false)) (fun e => .tile e.1 (fun y => { y with replica := none })),
    each (s.u.mem.tiles.filter (fun e => onLease e.2.home)) (fun e => homeFails e.1 0x0413)])

/-- RECALL_NOTICE_EXPIRY (R169): a lent lease is revoked, or a borrowed one is. -/
def execRecallNoticeExpiry (lease : Nat) (lent : Bool) (s : State) : Host.Outcome State Fault Refusal :=
  need (Wf.recallNoticeExpiry lease lent) s <| all [
    if lent then .mem fun m => match Tab.get? m.lent lease with
      | some x => if x.recalled.isSome then { m with lent := Tab.del m.lent lease } else m
      | none => m
    else when (decide (lease < 8)) (leaseRevoked lease),
    settle]

/-- PEER_LENDER_LOST (R169). -/
def execPeerLenderLost (n : Nat) (s : State) : Host.Outcome State Fault Refusal :=
  need (Wf.peerLenderLost n) s <| all [leaseRevoked n, settle]

/-- Where a slot of a lent lease lies: in the payload region (R166). -/
def State.lentAddr (s : State) (x : Lent) (slot : Nat) : Nat := s.slotAddr x.first + slot * 4160

/-- LENT_SLOT_RDMA_ACCESS (R166): one whole slot; a WRITE is acknowledged once it is in memory. -/
def execLentSlotRdmaAccess (lease slot : Nat) (write : Option (List Byte)) (s : State) : Host.Outcome State Fault Refusal :=
  need (Wf.lentSlotRdmaAccess lease slot write) s <| .read fun s =>
    match Tab.get? s.u.mem.lent lease with
    | none => .skip
    | some x =>
      if x.slots ≤ slot then .skip
      else match write with
        | some bs => if bs.length ≠ 4160 then .skip
          else all [.poke (s.lentAddr x slot) bs, .emit (.frame (.peerWrite lease slot) [])]
        | none => .emit (.frame (.peerRead lease slot) (s.mread (s.lentAddr x slot) 4160))

/-! ## Borrowing (R166 to R168) -/

/-- PEER_ACCESS_DONE: a read that fails authentication is a tier failure (R167); with `PEER_TIMEOUT_US` 0 every access has failed by then (R168). -/
def execPeerAccessDone (n tile : Nat) (write authOk : Bool) (job : Option Nat) (s : State) : Host.Outcome State Fault Refusal :=
  need (Wf.peerAccessDone n tile write authOk job) s <| .read fun s => all [
    .count 64 Obj.PEER_ACCESSES 1,
    if s.get Obj.PEER_TIMEOUT_US = 0 then all [.count 32 Obj.PEER_TIMEOUTS 1, readFails tile 0x0411 job.toList]
    else when (!write && !authOk) (all [.count 32 Obj.PEER_AUTH_FAILS 1, readFails tile 0x0412 job.toList]),
    settle]

/-- PEER_ACCESS_TIMEOUT (R168). -/
def execPeerAccessTimeout (n tile : Nat) (job : Option Nat) (s : State) : Host.Outcome State Fault Refusal :=
  need (Wf.peerAccessTimeout n tile job) s <| all [
    .count 64 Obj.PEER_ACCESSES 1, .count 32 Obj.PEER_TIMEOUTS 1, readFails tile 0x0411 job.toList, settle]

end Sys2Proof.Machine
end

