-- ==== Sys2Proof/Machine/DispatchOps.lean ====
section
/-! DEFINITION. The Timetable's decisions: what a declaration is checked for, which job comes next, where it can go, what it is granted, whom it pauses, and
the dispatch itself (R110, R198 to R205, R211, R215 to R218, R289). -/

namespace Sys2Proof.Machine
open Act

/-! ## What a declaration is checked for -/

/-- The table of R198 and R134, against the context's allowance (R196). -/
def Decl.fault (d : Decl) (allowance : Nat) : Option Nat :=
  let all := d.fields * d.engines
  if 64 < d.fields ∨ allowance < d.fields ∨ d.engines = 0 ∨ 32 < d.engines then some 0x0501
  else if 65536 < d.slate ∨ 2097152 < d.store then some 0x0502
  else if 16 < d.sems.length ∨ d.sems.any (fun m => decide (m.max = 0 ∨ 65535 < m.max ∨ m.max < m.init)) then some 0x0504
  else if 4 < d.barriers.length ∨ d.barriers.any (fun n => decide (n = 0 ∨ all < n)) then some 0x0310
  else if 7 < d.power then some 0x0506
  else if ¬ d.fullSave ∧ (d.gap = 0 ∨ 1048576 < d.gap ∨ all * d.slate + d.fields * d.store + 3072 * all < d.live) then some 0x0500
  else none

/-- The checks of R110, in the order 0x0201, 0x0200, 0x0202, 0x0203, 0x0204 (log entry 169). A book whose tile is of neither book format is read in steps of 32 bytes, and one past
the tile reads as zeros (log entry 170). -/
def State.arithFault (s : State) (c : Nat) (d : Decl) : Option (Nat × Nat) :=
  let badBook (b : Nat × Nat) : Option (Nat × Nat) := match s.tileOf c b.1 with
    | .inr f => some f
    | .inl t =>
      let fmt := tagByte (Tab.at s.u.mem.tiles t { ctx := c, home := .slot 0 }).tag 0 % 16
      if bookValid (s.bookEntries fmt b) then none else some (St.CONFIG_INVALID, 0x0200)
  if d.operands.any (fun f => !operandFmt f) then some (St.CONFIG_INVALID, 0x0201)
  else match d.books.findSome? badBook with
    | some f => some f
    | none =>
      if d.rotations.any (fun r => decide (r.1 ≠ r.2.1 ∨ r.2.2 % r.1 ≠ 0)) then some (St.CONFIG_INVALID, 0x0202)
      else if d.smooths.any (fun m => decide (m.1 ≠ m.2)) then some (St.CONFIG_INVALID, 0x0203)
      else if d.quants.any (fun q => decide (q.1 = 0xC ∨ q.1 = 0xD) || !oneOf q.2 [0, 32, 64, 128]) then some (St.CONFIG_INVALID, 0x0204)
      else none

/-- What a Harrow layer gets wrong (R289). -/
def HarrowDecl.fault (h : HarrowDecl) : Option Nat :=
  let within (lo hi v : Nat) : Bool := decide (lo ≤ v ∧ v ≤ hi)
  if ¬ (within 1 11 h.kh && within 1 11 h.kw && within 1 4 h.sy && within 1 4 h.sx && within 1 8 h.dy && within 1 8 h.dx
      && decide ((h.kh - 1) * h.dy + 1 ≤ 11) && h.pads.all (within 0 10) && within 0 2 h.mode) then some 0x0800
  else if 131072 < h.width * h.group * h.bits then some 0x0801
  else if 96 < 15 * h.sx + (h.kw - 1) * h.dx + 1 then some 0x0802
  else none

/-- The owner's STRICT flag, by the declaration or by the request (R242). -/
def State.strict (s : State) (x : Job) (a : AttDecl) : Bool :=
  a.strict || (match Tab.get? s.u.tt.runs x.run with
    | some r => r.strict
    | none => false)

/-- The pages below floor that an attention job reaches. -/
def State.lowPages (s : State) (c : Nat) (a : AttDecl) (rows : List LenRow) : Nat := rows.foldl (fun n r => n + s.belowFloor c a r) 0

/-- What an attention job is ended for at dispatch, or done by without work (R242 to R246, R253). -/
def State.attentionFault (s : State) (x : Job) (rows : List LenRow) : Option (Nat × Nat) :=
  match x.decl.att with
  | none => none
  | some a =>
    match a.fault with
    | some f => some f
    | none =>
      if a.batch = 0 then some (St.DONE, 0)
      else match s.rowsFault x.ctx a rows with
        | some f => some f
        | none => if s.strict x a ∧ s.lowPages x.ctx a rows ≠ 0 then some (St.KEY_FORMAT, 0x0610) else none

/-- Tiles of the save area (R216). -/
def Decl.saveTiles (d : Decl) : Nat := if d.fullSave then 1050 * d.fields else ceilDiv d.live 4096

/-- No room for the save area. -/
def State.saveFault (s : State) (x : Job) : Bool :=
  x.saveTiles == 0 && (decide (s.get (Obj.TILE_ALLOWANCE x.ctx) < s.ctxTiles x.ctx + x.decl.saveTiles) || decide (s.slotsFree < x.decl.saveTiles))

/-- The unit's semaphores are not bound to the context, for want of free ones (R220). -/
def State.semFault (s : State) (x : Job) : Bool :=
  match Tab.get? s.u.tt.runs x.run with
  | none => false
  | some r => x.decl.sems.any (fun d => (s.semOf x.ctx r.prog d.rank).isNone)

/-! ## What a request's arguments are checked for (R54, R158) -/

/-- Argument `a` of slot `n` is an input that is checked, and the data it names has another length or CRC; `host` is what the hosts' buffers hold, under slot × 32 + argument. -/
def State.argBad (s : State) (n : Nat) (host : List (Nat × List Byte)) (a : Nat) : Bool :=
  let k := s.slotArg n a
  let data : List Byte := match k.1 with
    | 0 => (Tab.get? host (32 * n + a)).getD []
    | 1 => s.tileBytes (s.get (Obj.ARG_ADDR n a)) (s.argLen n a)
    | _ => le (s.argLen n a) (s.get (Obj.ARG_ADDR n a))
  s.argChecked n a && k.2 != 1 && !(data.length == s.argLen n a && crc32c data == s.argCrc n a)

/-- The first argument of job `x`'s request that is bad: looked at before the request's first stage runs. -/
def State.badArg (s : State) (x : Job) (host : List (Nat × List Byte)) : Option Nat :=
  match Tab.get? s.u.tt.runs x.run with
  | some r => if r.first.isSome then none else match r.slotNo with
    | some n => (List.range (s.get (Obj.ARG_COUNT n))).find? (s.argBad n host)
    | none => none
  | none => none

/-- The tile addresses that job `x` is given: its resident tiles and books, the tile ranges of its request, what is bound to its furrow. -/
def State.givenTiles (s : State) (x : Job) : List Nat :=
  x.decl.tiles ++ x.decl.books.map (·.1) ++ (match Tab.get? s.u.tt.runs x.run with
    | none => []
    | some r => r.binds.filter (· != 0) ++ (match r.slotNo with
      | some n => ((List.range (s.get (Obj.ARG_COUNT n))).filter (fun a => (s.slotArg n a).1 == 1 && s.argLen n a != 0)).map (fun a => s.get (Obj.ARG_ADDR n a))
      | none => []))

/-- An address of another module where none may stand: one the job is given that no collective of it moves, or the scale or book reference of such a tile (R158). -/
def State.foreign (s : State) (x : Job) : Option (Nat × Nat) :=
  let moved : List Nat := match x.decl.coll with
    | some c => c.tiles
    | none => []
  if (s.givenTiles x).any (fun a => !moved.contains a && (decide (a / 562949953421312 ≠ s.u.boot.moduleNo) || (match Tab.get? s.u.mem.tiles (tileNo a) with
      | some t => s.foreignRef t.tag
      | none => false))) then some (St.CONFIG_INVALID, 0x0403) else none

/-- A tile that job `x` declares resident: it must be its context's, and must not be lost (R157, R162, R177). -/
def State.residentFault (s : State) (x : Job) : Option (Nat × Nat) := x.decl.tiles.findSome? (fun a => match s.tileOf x.ctx a with
  | .inr f => some f
  | .inl t => s.lossOf t)

/-- Whatever ends job `x` at dispatch before any output: the status and DETAIL, in the order given (log entry 169). `host` is what the host's buffers hold. -/
def State.dispatchFault (s : State) (x : Job) (host : List (Nat × List Byte)) (rows : List LenRow) : Option (Nat × Nat) :=
  let invalid (o : Option Nat) : Option (Nat × Nat) := o.map (fun d => (St.CONFIG_INVALID, d))
  let first (os : List (Option (Nat × Nat))) : Option (Nat × Nat) := os.findSome? id
  first [
    invalid (x.decl.fault (s.get (Obj.FIELD_ALLOWANCE x.ctx))),
    if s.semFault x then some (St.CONFIG_INVALID, 0x0507) else none,
    s.chunkFault x,
    s.arithFault x.ctx x.decl,
    invalid (x.decl.harrows.findSome? HarrowDecl.fault),
    s.foreign x,
    s.residentFault x,
    invalid ((s.badArg x host).map (256 + ·)),
    if x.decl.sources.any (fun n => decide (64 ≤ n) || s.get (Obj.SRC_KIND n) != 4 || s.get (Obj.SRC_LOCATOR n) % 4096 != x.ctx)
      then some (St.CONFIG_INVALID, 0x0900) else none,
    s.attentionFault x rows,
    if s.saveFault x then some (St.CONFIG_INVALID, 0x0505) else none]

/-! ## Where a job can go (R142, R143, R196, R201) -/

/-- Engines of field `f` that jobs and streams are granted, logical fields that share the field in turn counted once (R143). -/
def State.enginesUsed (s : State) (f : Nat) : Nat :=
  (s.jobsOn f).foldl (fun a e => a + if e.2.resident then 0 else e.2.decl.engines) 0 + (s.fieldRec f).held.foldl (fun a e => a + e.2.1) 0

/-- The chunk runs on engines that its stream holds already. -/
def State.onHeld (s : State) (x : Job) : Bool := match s.chunkStream x with
  | some n => s.resident n && !(s.stream n).engines.isEmpty
  | none => false

/-- The engines job `x` asks of a field. -/
def State.enginesAsked (s : State) (x : Job) : Nat :=
  if s.onHeld x then 0
  else match s.chunkStream x with
    | some n => if s.resident n then s.get (Obj.RESIDENT_ENGINES n) else x.decl.engines
    | none => x.decl.engines

/-- Field `f` carries jobs now: active, staying, powered or waking on demand. -/
def State.fieldOpen (s : State) (f : Nat) : Bool :=
  s.fieldActive f && s.get (Obj.FALLOW_STATUS f) == 0 && decide (2 ≤ s.get (Obj.DOM_STATE f))

/-- The temperature of field `f`'s sensor, in tenths of a degree. -/
def State.fieldTemp (s : State) (f : Nat) : Int := match s.u.pow.stand.find? (fun e => e.2 == f) with
  | some e => s.reading e.1
  | none => s.reading f

/-- No new job on a field above `HEAT_AVOID_C` unless every field is. -/
def State.fieldCool (s : State) (f : Nat) : Bool :=
  let lim : Int := Int.ofNat (10 * s.get Obj.HEAT_AVOID_C)
  decide (s.fieldTemp f ≤ lim) || ((List.range 66).filter s.fieldOpen).all (fun g => decide (lim < s.fieldTemp g))

/-- Field `f` has room for one of job `x`'s logical fields, with `less` engines and granules about to be free. -/
def State.roomOn (s : State) (x : Job) (lessE lessG f : Nat) : Bool :=
  s.fieldOpen f && decide (s.enginesUsed f + s.enginesAsked x ≤ 32 + lessE) &&
    decide (ceilDiv x.decl.store 65536 ≤ (s.freeGrans f).length + lessG)

/-- The fields a new job can be placed on. -/
def State.openFields (s : State) (x : Job) : List Nat := (List.range 66).filter (fun f => s.roomOn x 0 0 f && s.fieldCool f)

/-- `place` holds all of job `x`'s logical fields: one field each, two or more on one only where fewer fields are active than it declares (R143); without policy firmware
the lowest-numbered ones (R460). -/
def State.placeFits (s : State) (x : Job) (place : List Nat) : Bool :=
  let has := s.openFields x
  place.length == x.decl.fields && place.all has.contains &&
    (decide (((List.range 66).filter s.fieldActive).length < x.decl.fields) || (place.eraseDups.length == place.length
      && (s.policyRuns || place.all (has.take x.decl.fields).contains)))

/-- The logical fields that context `c`'s running jobs and streams hold (R196, R276). -/
def State.fieldsHeld (s : State) (c : Nat) : Nat :=
  s.placedJobs.foldl (fun a e => if e.2.ctx = c ∧ ¬ e.2.resident ∧ e.2.place ≠ [] then a + e.2.decl.fields else a) 0
    + (s.u.streams.filter (fun e => decide (e.2.engines ≠ [] ∧ s.get (Obj.S_CONTEXT e.1) = c))).length

/-- Job `x` fits its context's allowance beside the others. -/
def State.allowed (s : State) (x : Job) : Bool :=
  s.onHeld x || decide (s.fieldsHeld x.ctx + x.decl.fields ≤ s.get (Obj.FIELD_ALLOWANCE x.ctx))

/-! ## Which job comes next (R202, R203, R211, R214) -/

/-- Work that the device state lets the Timetable dispatch. -/
def State.mayDispatch (s : State) (x : Job) : Bool :=
  s.dev == Dev.OP || (s.dev == Dev.HOLD && (match Tab.get? s.u.tt.runs x.run with
    | some r => s.keptRun r
    | none => false))

/-- Stage j of a firing waits for stage j of the firings before it to have started (R211); a golden run's later stages wait while a real stage of the furrow is
ready (R404). -/
def State.firingWaits (s : State) (x : Job) : Bool :=
  match Tab.get? s.u.tt.runs x.run with
  | some { owner := .firing f k, .. } => s.u.tt.runs.any fun e => match e.2.owner with
      | .firing g i => g == f && decide (i < k) && !e.2.done.contains x.stage && !e.2.gone.contains x.stage
          && !s.u.tt.jobs.any (fun j => decide (j.2.run = e.1 ∧ j.2.stage = x.stage) && j.2.dispatched.isSome)
      | _ => false
  | some { owner := .golden f _, .. } => x.stage != 0 && s.u.tt.jobs.any (fun j => j.2.phase == .ready &&
      (match Tab.get? s.u.tt.runs j.2.run with
        | some { owner := .firing g _, .. } => g == f
        | _ => false))
  | _ => false

/-- The chunk is the next of a stream that lets it run (R270). -/
def State.chunkNext (s : State) (j : Nat) (x : Job) : Bool := match s.chunkStream x with
  | some n => s.get (Obj.STREAM_STATE n) != 3 && (s.stream n).chunk.isNone && (s.chunksOf n).head? == some j
  | none => true

/-- Ready job `j` can be considered: nothing but fields and power is in its way. -/
def State.considered (s : State) (j : Nat) (x : Job) : Bool :=
  x.phase == .ready && !x.short && x.decl.op.isNone && s.mayDispatch x && !s.firingWaits x && s.chunkNext j x && s.allowed x

/-- A class that has received less than its floor of the engine time granted in the window (R203). -/
def State.floorDue (s : State) (c : Nat) : Bool :=
  let floor := if c = 2 then s.get Obj.P_FLOOR_PERMILLE else if c = 3 then s.get Obj.B_FLOOR_PERMILLE else 0
  let total := s.u.tt.window.foldl (fun a e => a + e.2) 0
  let mine := s.u.tt.window.foldl (fun a e => if e.1 = c then a + e.2 else a) 0
  s.get Obj.FLOOR_WINDOW_MS != 0 && decide (mine * 1000 < floor * total)

/-- Job `a` is considered before job `b` (R202, R203). -/
def State.before (s : State) (a b : Nat × Job) : Bool :=
  let ca := a.2.runCls
  let cb := b.2.runCls
  let va := Tab.at s.u.tt.vtime a.2.ctx 0
  let vb := Tab.at s.u.tt.vtime b.2.ctx 0
  if ca ≠ cb then
    if ca < cb then !s.floorDue cb || s.floorDue ca else s.floorDue ca && !s.floorDue cb
  else if a.2.ctx ≠ b.2.ctx then decide (va < vb ∨ (va = vb ∧ a.2.ctx < b.2.ctx))
  else decide (a.2.arrival < b.2.arrival ∨ (a.2.arrival = b.2.arrival ∧ a.1 < b.1))

/-- Another job comes first: it is considered before job `j`, and there is room for it. -/
def State.another (s : State) (j : Nat) (x : Job) : Bool :=
  s.u.tt.jobs.any fun e => e.1 != j && s.considered e.1 e.2 && s.before e (j, x) &&
    (decide (e.2.decl.fields ≤ (s.openFields e.2).length) || (s.openFields e.2 != [] && decide (((List.range 66).filter s.fieldActive).length < e.2.decl.fields)))

/-! ## Whom it pauses (R215, R218) -/

/-- Class `a` may pre-empt class `b`. -/
def State.mayPreempt (s : State) (a b : Nat) : Bool :=
  let m := s.get Obj.PREEMPT_MASK
  (a == 1 && b == 2 && bit m 0) || (a == 1 && b == 3 && bit m 1) || (a == 2 && b == 3 && bit m 2)

/-- What a victim would save (R215). -/
def Decl.saveBytes (d : Decl) : Nat := if d.fullSave then 4300800 * d.fields else d.live

/-- Job `y` waits, at a yield point, on a semaphore that job `x` holds (R224). -/
def Job.waitsFor (y x : Job) : Bool := y.held.isEmpty && y.wait.any x.held.contains

/-- Job `y` may be paused for job `x`: of a lower class, running, past the limits of R218, or waiting for what `x` holds. -/
def State.victim (s : State) (x y : Job) : Bool :=
  y.phase == .running && !y.resident && y.merged.isNone && (s.mayPreempt x.runCls y.runCls || (x.inh.isSome && y.waitsFor x)) &&
    (y.mayPause || (y.decl.fullSave && decide (y.resumed + s.get Obj.FULL_SAVE_MIN_RUN_US * 4294967296000 ≤ s.time)) || x.inh.isSome)

/-- Jobs on `place` in the order in which they are chosen. -/
def State.victims (s : State) (x : Job) (place : List Nat) : List Nat :=
  (sortBy (fun a b =>
      if a.2.runCls ≠ b.2.runCls then decide (b.2.runCls < a.2.runCls)
      else if a.2.decl.saveBytes ≠ b.2.decl.saveBytes then decide (a.2.decl.saveBytes < b.2.decl.saveBytes)
      else decide (b.2.dispatched.getD 0 ≤ a.2.dispatched.getD 0))
    (s.placedJobs.filter (fun e => s.victim x e.2 && e.2.place.any place.contains))).map (·.1)

/-- Engines and granules that the jobs `js` give back on field `f`. -/
def State.freedBy (s : State) (js : List Nat) (f : Nat) : Nat × Nat :=
  s.u.tt.jobs.foldl (fun a e => if js.contains e.1 ∧ e.2.place.contains f then
    (a.1 + e.2.decl.engines, a.2 + (e.2.grans.filter (fun g => decide (g.1 = f))).length) else a) (0, 0)

/-- The jobs on their way out of `place` already. -/
def State.leaving (s : State) (place : List Nat) : List Nat :=
  (s.placedJobs.filter (fun e => (e.2.phase == .draining || e.2.phase == .saving) && e.2.place.any place.contains)).map (·.1)

/-- There is room on every field of `place` once the jobs `js` have left. -/
def State.roomAfter (s : State) (x : Job) (js place : List Nat) : Bool :=
  place.all (fun f => let l := s.freedBy js f
    s.roomOn x l.1 l.2 f)

/-- The shortest run of victims that makes room, if all of them do. -/
def State.choose (s : State) (x : Job) (place : List Nat) : List Nat :=
  let out := s.leaving place
  let vs := s.victims x place
  match (List.range (vs.length + 1)).find? (fun n => s.roomAfter x (out ++ vs.take n) place) with
  | some n => vs.take n
  | none => []

/-- The job belongs to a golden run, which takes engines from no other work (R404). -/
def State.golden (s : State) (x : Job) : Bool := match Tab.get? s.u.tt.runs x.run with
  | some { owner := .golden _ _, .. } => true
  | _ => false

/-- Job `x` cannot stand on `place`: one that is beyond what has room while other fields have it is refused (R170); where it lacks fields or granules, lower-class work on
`place` is paused for it. -/
def preempt (x : Job) (place : List Nat) : Act := .read fun s =>
  if x.decl.fields ≤ (s.openFields x).length ∧ s.policyRuns then refuseDecision 5
  else if s.golden x ∨ place.length ≠ x.decl.fields ∨ x.decl.fields ≤ (s.openFields x).length then .skip
  else each (s.choose x place) (fun v => all [.job v (fun y => { y with pausedFor := some x.ctx }), askPause v])

/-! ## Power (R204, R205, R424) -/

/-- Another ready job of `x`'s class fits at its context's preferred point. -/
def State.cheaper (s : State) (j : Nat) (x : Job) : Bool :=
  s.u.tt.jobs.any fun e => e.1 != j && e.2.runCls == x.runCls && s.considered e.1 e.2 &&
    (let w := s.get (Obj.PREFERRED_MV e.2.ctx)
     s.answerRail e.2.decl.fields e.2.decl.power w [] == some w)

/-- The answer to job `j`'s request and what the Timetable makes of it: `go` at a rail, or the job waits. -/
def withGrant (j : Nat) (x : Job) (place : List Nat) (go : Nat → Act) : Act := .read fun s =>
  let want := s.get (Obj.PREFERRED_MV x.ctx)
  let rail := s.answerRail x.decl.fields x.decl.power want place.eraseDups
  let wait : Act := .job j (fun y => { y with short := true })
  all [
    .count 64 Obj.GRANT_ANSWERS 1,
    if rail = some want then go want
    else all [
      .count 64 Obj.SHORT_ANSWERS 1, .count 64 Obj.GRANTS_SHORT 1,
      if s.get (Obj.SHORT_GRANT_MODE_C + (x.runCls - 1)) = 1 ∧ s.cheaper j x then wait
      else match rail with
        | some v => go v
        | none => wait]]

/-! ## The dispatch (R201) -/

/-- The owner sees its first stage dispatched: a slot reads RUNNING, a firing leaves its furrow's queue. -/
def runStarts (r : Nat) : Act := .read fun s =>
  match Tab.get? s.u.tt.runs r with
  | none => .skip
  | some x =>
    let toSlot (n : Nat) : Act := when (s.get (Obj.STATE n) == 2) (.put (Obj.STATE n) 3)
    if x.first.isSome then .skip
    else all [
      .run' r (fun y => { y with first := some s.time }),
      match x.owner with
      | .slot n => toSlot n
      | .firing f _ => all [
          .furrow f (fun y => { y with queue := y.queue.filter (· != r), live := y.live ++ [r] }),
          match x.forSlot with
            | some (n, _, _) => toSlot n
            | none => .skip]
      | .golden _ _ => .skip]

/-- The time job `j` was ready and not running joins its context's and its own figures. -/
def waitEnds (j : Nat) : Act := .read fun s =>
  match Tab.get? s.u.tt.jobs j with
  | none => .skip
  | some x =>
    let w := (s.time - x.readyAt) / 4294967296
    all [.count 64 (Obj.CTX_WAIT_NS x.ctx) w, .job j (fun y => { y with lostNs := y.lostNs + w })]

/-- Gated fields of `place` wake (R415). -/
def wakeFields (place : List Nat) : Act := .read fun s =>
  each (place.eraseDups.filter (fun f => s.get (Obj.DOM_STATE f) == 3)) (fun f => all [.put (Obj.DOM_STATE f) 1, .count 32 (Obj.DOM_WAKES f) 1])

/-- What lay in a cell list's region from `a` on lies there again. -/
def putBack (a : Nat) (cells : List Host.Cell) : Act := .seq (.wipe a 65536) (each cells fun c => .poke (a + c.1) [c.2])

/-- The memories that job `j` has on its fields take what its save area holds (R218, R219). -/
def restoreImage (j : Nat) : Act := .read fun s => match Tab.get? s.u.tt.jobs j with
  | none => .skip
  | some x => all [
      each (x.engs.zip x.image.slates) (fun e => all [
        putBack (slateBase e.1.1 e.1.2) e.2.1,
        .field e.1.1 (fun r => { r with acc := Tab.set r.acc e.1.2 e.2.2 })]),
      each (x.grans.zip x.image.grans) (fun e => putBack (storeBase e.1.1 + e.1.2 * 65536) e.2),
      .job j (fun y => { y with image := {} })]

/-- The tiles that job `j` declares resident are loaded into its granules, each of a field's after the other from the first on, on every field it stands on (R162; log entry
171). -/
def loadResident (j : Nat) : Act := .read fun s => match Tab.get? s.u.tt.jobs j with
  | none => .skip
  | some x => each x.place.eraseDups fun f =>
      let gs := x.grans.filterMap (fun g => if g.1 = f then some g.2 else none)
      each ((List.range x.decl.tiles.length).zip x.decl.tiles) fun t => match gs[t.1 / 16]? with
        | none => .skip
        | some g => .read fun s =>
          let m : Move := {
            field := f, job := some j, tile := t.2, write := false, host := none, bytes := 4096
            err := .none, addr := 0, row := s.free 0 32, tag := [], data := []
            side := .place { inStore := true, offset := g * 65536 + t.1 % 16 * 4096 } }
          .seq (readTile m (tileNo t.2)) (.draw 1)

/-- Every move of job `j` off the field a logical field stood on before is logged (R173). -/
def logMoves (j : Nat) : Act := .read fun s => match Tab.get? s.u.tt.jobs j with
  | none => .skip
  | some x => all [
      each ((x.left.1.zip x.place).filter (fun e => e.1 != e.2)).eraseDups (fun e => all [
        .count 32 Obj.JOB_MOVES 1,
        .read fun s => logEv Ev.JOB_MOVED x.ctx (e.1 + 256 * e.2) (x.left.2.getD (s.free 0 64)), .draw 1]),
      .job j (fun y => { y with left := ([], none) })]

/-- Job `j` stands on `place` at rail `mv`. -/
def standOn (j : Nat) (place : List Nat) (mv : Nat) : Act := .read fun s =>
  match Tab.get? s.u.tt.jobs j with
  | none => .skip
  | some x => all [
      accrueAll,
      takeField j place,
      .job j (fun y => { y with
        phase := .running, place := place, mv := mv, since := s.time, short := false, phasePt := none
        want := s.get (Obj.PREFERRED_MV x.ctx), weight := s.get (Obj.SHARE_WEIGHT x.ctx), mayPause := !y.saved, resumed := s.time
        cls := ((Tab.get? s.u.tt.runs y.run).map (·.cls)).getD y.cls
        rising := place.any (fun f => decide (s.get (Obj.DOM_RAIL_MV f) < mv)) && s.get (Obj.DOM_STATE (place.headD 0)) == 2 }),
      restoreImage j, logMoves j,
      wakeFields place,
      regrant, settleAll s place,
      .count 64 Obj.DISPATCHES 1]

/-- Job `j` is dispatched. -/
def dispatch (j : Nat) (place : List Nat) (host : List (Nat × List Byte)) (rows : List LenRow) (mv : Nat) : Act := .read fun s =>
  match Tab.get? s.u.tt.jobs j with
  | none => .skip
  | some x =>
    let free := ((List.range 256).filter (fun b => (Tab.get? s.u.tt.bars b).isNone)).take x.decl.barriers.length
    let low := match x.decl.att with
      | some a => s.lowPages x.ctx a rows
      | none => 0
    let chunk := s.chunkStream x
    let riders := match chunk with
      | some n => s.mates n (s.get Obj.BATCH_LIMIT - 1) place
      | none => []
    let faultOf (m : Nat × Nat) : Option (Nat × Nat) := match Tab.get? s.u.tt.jobs m.2 with
      | some y => s.dispatchFault y host rows
      | none => none
    let mates := riders.filter (fun m => (faultOf m).isNone)
    let steps := (j :: mates.map (·.2)).map (fun i => match Tab.get? s.u.tt.jobs i with
      | some y => s.chunkSteps y
      | none => 0)
    all [
      waitEnds j, runStarts x.run,
      .tt (fun t => { t with bars := (free.zip x.decl.barriers).foldl (fun m b => Tab.set m b.1 { job := j, n := b.2 }) t.bars }),
      match chunk with
        | some n => all [
            chunkRuns n j,
            when (s.resident n && (s.stream n).engines.isEmpty) (takeEngines n (place.headD 0))]
        | none => .skip,
      .job j (fun y => { y with
        dispatched := some s.time, bars := free, saveTiles := y.decl.saveTiles
        mergedSteps := steps.foldl (· + ·) 0, mergedMax := steps.foldl max 0, mergedNs := 0, mergedUj := 0
        flags := if low = 0 then y.flags else y.flags ||| Fl.BELOW_FLOOR }),
      when (low != 0) (.count 64 Obj.PAGES_BELOW_FLOOR low),
      latchWalks j x.ctx rows,
      standOn j place mv, loadResident j,
      .count 64 Obj.DISPATCH_PLACEMENTS 1,
      -- a chunk that would have run with it but fails its own checks ends
      each riders (fun m => match faultOf m with
        | some f => endJob m.2 f.1 f.2 0 0
        | none => .skip),
      each mates (fun m => all [
        waitEnds m.2, chunkRuns m.1 m.2,
        match Tab.get? s.u.tt.jobs m.2 with
          | some y => runStarts y.run
          | none => .skip,
        .job m.2 (fun y => { y with
          phase := .running, merged := some j, dispatched := some s.time, since := s.time })]),
      when (decide (128 < x.decl.fields * x.decl.engines)) (.read fun s => match Tab.get? s.u.tt.jobs j with
        | some y => startWave (y.waiting (y.decl.fields * y.decl.engines))
        | none => .skip)]

/-! ## Stages of the fixed-function units (R300, R310, R353, R357 to R359) -/

/-- Job `j` asks a fixed-function unit: its declaration is checked, and it is dispatched unless the unit lets it wait. -/
def dispatchUnit (j : Nat) (x : Job) (o : UnitOp) : Act := .read fun s =>
  if s.planWaits o then .skip
  else all [
    match o.model with
      | some n => when (decide (n < 4) && s.groupPending (0x2910 + n)) (applyModel n)
      | none => .skip,
    .read fun s =>
      let bad : Option Nat := match o with
        | .sieve p => if p.ok then none else some 0x0810
        | .run p => p.fault (if p.model < 4 then s.model p.model else [])
        | .segments n _ => if n < 4 ∧ s.model n ≠ [] then none else some 0x0A00
        | _ => none
      match bad with
      | some d => endJob j St.CONFIG_INVALID d 0 0
      | none => all [
          waitEnds j, runStarts x.run,
          .job j (fun y => { y with
            phase := .running, dispatched := some s.time, since := s.time }),
          match o with
            | .run p => latchRun j p
            | _ => .skip,
          needDomain o.domain]]

end Sys2Proof.Machine
end

