-- ==== Sys2Proof/Machine/Power.lean ====
section
/-! DEFINITION. The commands of the Bursar and of the rails (R415 to R438). -/

namespace Sys2Proof.Machine
open Act

/-! ## Steps and droops (R418, R429 to R431) -/

/-- Jobs on domain `d` none of whose fields is stepping any more have reached the point they were granted at dispatch. -/
def risen (d : Nat) : Act := .read fun s =>
  each (s.jobsOn d) fun e =>
    when (e.2.rising && !e.2.place.any (fun f => (Tab.get? s.u.pow.steps f).isSome)) (.job e.1 fun y => { y with rising := false })

/-- Domain `d` reaches the rail of its step: the pacer takes its step, what the step held beyond the grants is returned. -/
def finishStep (d : Nat) (st : Step) : Act := all [
  accrueAll,
  putPacer d st.pacer,
  .pow (fun x => { x with steps := Tab.del x.steps d }),
  when (!st.back) (.count 32 (Obj.DOM_STEPS d) 1),
  risen d, offers]

/-- RAIL_INCREMENT (R418). -/
def execRailIncrement (d : Nat) (s : State) : Host.Outcome State Fault Refusal :=
  need (Wf.railIncrement d) s <| .read fun s =>
    match Tab.get? s.u.pow.steps d with
    | none => .skip
    | some st =>
      let v := s.get (Obj.DOM_RAIL_MV d)
      let w := if v < st.mv then min st.mv (v + 10) else max st.mv (v - 10)
      if st.frozen then .skip
      else all [putRail d w, when (w == st.mv) (finishStep d st)]

/-- The step of domain `d` is abandoned: it goes back to the point before it, and the extra grant is returned; going back up, the domain keeps
what that point draws until its hold-off ends. -/
def abandon (d : Nat) (st : Step) : Act := .read fun s =>
  let back : Step := { mv := st.oldMv, pacer := st.oldPacer, oldMv := st.oldMv, oldPacer := st.oldPacer, frozen := true, back := true }
  let up : Bool := decide (st.oldMv < st.mv)
  all [
    .pow (fun x => { x with
      steps := Tab.set x.steps d back
      railCap := if up then Tab.set x.railCap d (min st.oldMv (Tab.at x.railCap d 900)) else x.railCap
      stuck := if !up && st.extra != 0 then Tab.set x.stuck d st.extra else x.stuck
      heldOff := d :: x.heldOff.filter (· != d) }),
    .put (Obj.DOM_TARGET_MV d) st.oldMv,
    regrant,
    .count 32 (Obj.DOM_STEP_ABANDONS d) 1,
    logEv Ev.STEP_ABANDONED d st.mv (st.droops.filter (fun t => decide (s.time ≤ t + 4294967296000000))).length,
    offers]

/-- DROOP_DETECT (R430, R431). -/
def execDroopDetect (d : Nat) (s : State) : Host.Outcome State Fault Refusal :=
  need (Wf.droopDetect d) s <| .read fun s =>
    if ¬ s.powered d then .skip
    else all [
      .count 32 (Obj.DOM_DROOPS d) 1,
      when (d == 73) (.count 32 Obj.CTRL_DROOPS 1),
      when (decide (d < 66)) (.count 32 (Obj.DROOP_EVENTS d) 1),
      when (decide (d < 66) && !s.u.tt.wave.isEmpty) (.count 32 Obj.WAVE_DROOPS 1),
      .pow (fun x => { x with droop := d :: x.droop.filter (· != d) }),
      match Tab.get? s.u.pow.steps d with
      | none => .skip
      | some st =>
        let now := s.time :: st.droops.filter (fun t => decide (s.time ≤ t + 4294967296000000))
        let st' : Step := { st with
          frozen := true, droops := now }
        all [.pow (fun x => { x with steps := Tab.set x.steps d st' }),
          when (decide (8 < now.length) && !st.back) (abandon d st')]]

/-- DROOP_CLEAR (R430). -/
def execDroopClear (d : Nat) (s : State) : Host.Outcome State Fault Refusal :=
  need (Wf.droopClear d) s <| .pow fun x => { x with droop := x.droop.filter (· != d) }

/-- STEP_RESUME (R431): 2 µs after the last droop cleared. -/
def execStepResume (d : Nat) (s : State) : Host.Outcome State Fault Refusal :=
  need (Wf.stepResume d) s <| .read fun s =>
    match Tab.get? s.u.pow.steps d with
    | none => .skip
    | some st => when (!s.u.pow.droop.contains d) (all [
        .pow (fun x => { x with steps := Tab.set x.steps d { st with frozen := false } }),
        when (s.get (Obj.DOM_RAIL_MV d) == st.mv) (finishStep d st)])

/-- STEP_HOLDOFF_END (R431). -/
def execStepHoldoffEnd (d : Nat) (s : State) : Host.Outcome State Fault Refusal :=
  need (Wf.stepHoldoffEnd d) s <| .read fun s =>
    when (s.u.pow.heldOff.contains d) (all [
      .pow (fun x => { x with
        heldOff := x.heldOff.filter (· != d)
        stuck := Tab.del x.stuck d }),
      restore d, offers])

/-! ## The budget (R421 to R423, R437) -/

/-- The limits have changed: grants fit again, or freed power is offered. -/
def budgetMoved : Act := all [recover, offers]

/-- `HW_CEILING_W` follows the cold plate and the retired phases (R417, R422). -/
def putCeiling : Act := .read fun s => .put Obj.HW_CEILING_W (ceilingW s.u.pow.plate s.u.pow.phases.length)

/-- What domain `d` used over `ms` milliseconds at `mw`. -/
def domainUsed (d mw ms : Nat) : Act := all [.put (Obj.DOM_POWER_MW d) mw, .count 64 (Obj.DOM_ENERGY_UJ d) (mw * ms)]

/-- POWER_SAMPLE (R423): the model scale follows the average. -/
def execPowerSample (mw mv ms : Nat) (doms : List (Nat × Nat)) (s : State) : Host.Outcome State Fault Refusal :=
  need (Wf.powerSample mw mv ms doms) s <| .read fun s =>
    let scale := s.scale
    let below := s.u.pow.belowMs
    let fall := 10 * ((below + ms - 100) - (below - 100))
    all [
      .put Obj.INPUT_MW mw, .put Obj.INPUT_MV mv, .count 64 Obj.INPUT_ENERGY_UJ (mw * ms),
      each doms (fun e => domainUsed e.1 e.2 ms),
      if 1020 * s.budget < mw then all [
        .pow (fun x => { x with belowMs := 0 }),
        .put Obj.MODEL_SCALE_PERMILLE (min 1500 (scale + 10 * ms)), regrant, recover]
      else if mw < 1000 * s.budget then all [
        .pow (fun x => { x with belowMs := below + ms }),
        when (fall != 0) (all [.put Obj.MODEL_SCALE_PERMILLE (max 1000 (scale - fall)), regrant, offers])]
      else .pow (fun x => { x with belowMs := 0 })]

/-- The variable domains that are on. -/
def State.variable (s : State) : List Nat := ((List.range 66) ++ [74, 75, 76]).filter (fun d => s.get (Obj.DOM_STATE d) == 2)

/-- The pacers of the variable domains fall to `p` at once. -/
def paceAll (p : Nat) : Act := .read fun s => each s.variable fun d => .read fun s => putPacer d (min p (s.get (Obj.DOM_PACER d)))

/-- The variable domains go back to their points in force by steps (R436, R437). -/
def restoreAll : Act := .read fun s => each s.variable restore

/-- INPUT_POWER_CLAMP (R437). -/
def execInputPowerClamp (s : State) : Host.Outcome State Fault Refusal :=
  need Wf.inputPowerClamp s <| .read fun s =>
    when (!s.u.pow.clamp) (all [
      .pow (fun x => { x with clamp := true, steps := x.steps.map (fun e => (e.1, { e.2 with pacer := min 8 e.2.pacer })) }),
      accrueAll, paceAll 8, .count 32 Obj.CLAMP_EVENTS 1])

/-- CLAMP_RELEASE (R437). -/
def execClampRelease (s : State) : Host.Outcome State Fault Refusal :=
  need Wf.clampRelease s <| .read fun s =>
    when s.u.pow.clamp (all [.pow (fun x => { x with clamp := false }), restoreAll])

/-- PHASE_RETIRE (R417). -/
def execPhaseRetire (n : Nat) (s : State) : Host.Outcome State Fault Refusal :=
  need (Wf.phaseRetire n) s <| .read fun s =>
    if s.u.pow.phases.contains n then .skip
    else
      let retired := s.u.pow.phases.length + 1
      let spare := s.get Obj.REG_PHASES_SPARE
      all [
        .pow (fun x => { x with phases := n :: x.phases }),
        .put Obj.REG_PHASES_RETIRED retired,
        if 0 < spare then .put Obj.REG_PHASES_SPARE (spare - 1)
        else .modify Obj.REG_PHASES_ACTIVE (· - 1),
        logEv Ev.PHASE_RETIRED n 0 retired,
        putCeiling, recover]

/-- COLD_PLATE_TEMPERATURE_CHANGE (R422). -/
def execColdPlateTemperatureChange (temp : Int) (s : State) : Host.Outcome State Fault Refusal :=
  need (Wf.coldPlateTemperatureChange temp) s <| all [
    .pow (fun x => { x with plate := temp }),
    .put Obj.PLATE_C (ofSigned 16 temp),
    .read fun s => when (decide (toSigned 16 (s.get Obj.PLATE_MAX_C) < temp)) (.put Obj.PLATE_MAX_C (ofSigned 16 temp)),
    putCeiling, budgetMoved]

/-- A write of `v` watts to a limit at key `k` (R421, R422): more than the hardware ceiling is clamped. -/
def writeLimit (ses k v : Nat) (s : State) : WriteRes :=
  let top := s.get Obj.HW_CEILING_W
  .ok (all [.put k (min v top), when (decide (top < v)) (logClamp ses k v), budgetMoved])

/-- A write to `HOST_LIMIT_EN`. -/
def writeLimitEn (v : Nat) (_s : State) : WriteRes := .ok (all [.put Obj.HOST_LIMIT_EN v, budgetMoved])

/-- BUDGET_W: a write of `BUDGET_W`, `HOST_LIMIT_EN` or `HOST_LIMIT_W`. -/
def execBudgetW (ses sub v : Nat) (s : State) : Host.Outcome State Fault Refusal :=
  need (Wf.budgetW ses sub v) s <|
    if sub = 3 then guarded ses Obj.BUDGET_W v .sup (decide (60 ≤ v ∧ v ≤ 180)) (writeLimit ses Obj.BUDGET_W v)
    else if sub = 4 then guarded ses Obj.HOST_LIMIT_EN v .host (decide (v ≤ 1)) (writeLimitEn v)
    else guarded ses Obj.HOST_LIMIT_W v .host (decide (60 ≤ v ∧ v ≤ 180)) (writeLimit ses Obj.HOST_LIMIT_W v)

/-- A write of `mv` to `DOM_SET_MV` of domain `d` (R432). -/
def domSet (ses d mv : Nat) (s : State) : WriteRes :=
  if d < 74 ∨ 76 < d then .no Ab.STATE_FORBIDS
  else
    let draw (v : Nat) : Nat := if s.powered d then drawUnits (s.get (Obj.DOM_MAX_MW d)) v 32 s.scale else 0
    let rest := s.reserve - draw (s.get (Obj.DOM_SET_MV d)) + s.granted
    let v := (railsDown mv).find? (fun v => decide (rest + draw v ≤ 92 * s.budget)) |>.getD 550
    .ok (all [
      .put (Obj.DOM_SET_MV d) v,
      when (v != mv) (logClamp ses (Obj.DOM_SET_MV d) mv),
      restore d, offers])

/-- DOM_SET_MV (R432). -/
def execDomSetMv (ses d mv : Nat) (s : State) : Host.Outcome State Fault Refusal :=
  need (Wf.domSetMv ses d mv) s <|
    guarded ses (Obj.DOM_SET_MV d) mv .sup (decide (550 ≤ mv ∧ mv ≤ 900 ∧ mv % 10 = 0)) (domSet ses d mv)

/-- The phase point that a job gets for `mv`: on the 10 mV grid of the rails, not above 900 mV (R3, R6; log entry 172). -/
def phasePoint (mv : Nat) : Nat := min 900 (mv / 10 * 10)

/-- PHASE_BOUNDARY (R428): one of the first 8 phases begins. -/
def execPhaseBoundary (job phase : Nat) (s : State) : Host.Outcome State Fault Refusal :=
  need (Wf.phaseBoundary job phase) s <| .read fun s =>
    match Tab.get? s.u.tt.jobs job with
    | none => .skip
    | some x => match (x.decl.phases.take 8)[phase]? with
      | none => .skip
      | some asked =>
        let mv := phasePoint asked
        let point := max mv x.want
        if x.phase ≠ .running then .skip
        else all [
          accrue job,
          when (decide (550 ≤ asked) && mv != asked) (logClamp 0xFFFF (Obj.PREFERRED_MV x.ctx) asked),
          .job job (fun y => { y with phasePt := some mv }),
          if point < x.mv then all [setJobRail job point, offers]
          else if x.mv < point then all [
            offer job,
            .read fun s => match Tab.get? s.u.tt.jobs job with
              | some y => when (y.mv == x.mv) (.count 32 Obj.PHASE_STEPS_REFUSED 1)
              | none => .skip]
          else .skip]

/-- FULL_SAVE_MIN_RUN_ELAPSED (R218). -/
def execFullSaveMinRunElapsed (job : Nat) (s : State) : Host.Outcome State Fault Refusal :=
  need (Wf.fullSaveMinRunElapsed job) s <| .job job fun y => { y with mayPause := true }

/-! ## Gating and waking (R415) -/

/-- Whether its row of R415 lets domain `d` be gated now. -/
def State.mayGate (s : State) (d : Nat) : Bool :=
  if d < 66 then
    (s.jobsOn d).isEmpty && (s.fieldRec d).held.isEmpty && !s.u.fields.any (fun e => e.2.takeover == some d) &&
      (s.get (Obj.FIELD_ROLE d) != 0 || (s.get Obj.IDLE_GATE_EN != 0
        && decide ((s.fieldRec d).idleSince + s.get Obj.IDLE_GATE_US * 4294967296000 ≤ s.time)))
  else match d with
    | 71 => (List.range 4).all (fun p => s.get (Obj.PORT_ENABLE p) == 0)
    | 72 => (List.range 2).all (fun l => s.get (Obj.LINE_ENABLE l) == 0) && (List.range 8).all (fun p => s.get (Obj.SPI_LENGTH p) == 0)
        && (List.range 8).all (fun p => s.get (Obj.CSI_ENABLE p) == 0)
    | 73 => s.dev != Dev.OP && s.dev != Dev.HOLD && (List.range 288).all (fun c => s.get (Obj.CH_STATE c) == 0)
    | 74 => (List.range 8).all (fun f => s.get (Obj.FILTER_STATE f) == 0)
    | 75 | 76 => !s.u.tt.jobs.any (fun e => match e.2.decl.op with
        | some o => o.domain == d
        | none => false) && decide (Tab.at s.u.pow.quiet d 0 + s.get Obj.IDLE_GATE_US * 4294967296000 ≤ s.time)
    | 78 => s.dev == Dev.STANDBY || s.dev == Dev.INIT || (List.range 16).all (fun n => s.get (Obj.CV_PERIOD_MS n) == 0)
    | 79 => s.dev != Dev.SERVICE
    | _ => false

/-- IDLE_GATE (R415): a gated field loses what its slates and its store held. -/
def execIdleGate (d : Nat) (s : State) : Host.Outcome State Fault Refusal :=
  need (Wf.idleGate d) s <| .read fun s =>
    if s.get (Obj.DOM_STATE d) ≠ 2 ∨ ¬ s.mayGate d then .skip
    else all [
      when (decide (d < 66)) (all [fieldGate d, .field d (fun x => { x with copies := [], granule := [], slate := [] })]),
      .put (Obj.DOM_STATE d) 3,
      .pow (fun x => { x with steps := Tab.del x.steps d }),
      offers]

/-- DOMAIN_WAKE_DONE (R415, R429): the domain comes up at its granted point. -/
def execDomainWakeDone (d : Nat) (s : State) : Host.Outcome State Fault Refusal :=
  need (Wf.domainWakeDone d) s <| .read fun s =>
    if s.get (Obj.DOM_STATE d) ≠ 1 then .skip
    else
      let blind : Bool := s.u.pow.blind.contains d && s.get (Obj.DOM_KIND d) == 0
      all [
        .put (Obj.DOM_STATE d) 2,
        when blind (.pow fun x => { x with railCap := Tab.set x.railCap d 550, pacerCap := Tab.set x.pacerCap d 8 }),
        when (d == 74 || d == 75 || d == 76) (.read fun s => all [
          putRail d (min (s.railCap d) (s.get (Obj.DOM_SET_MV d))), .put (Obj.DOM_TARGET_MV d) (min (s.railCap d) (s.get (Obj.DOM_SET_MV d)))]),
        when (decide (d < 66)) (.read fun s =>
          let v := if s.u.pow.junction then 550 else (s.fieldPoint d).getD (min (s.railCap d) (s.get (Obj.DOM_RAIL_MV d)))
          all [putRail d v, .put (Obj.DOM_TARGET_MV d) v]),
        when (decide (d < 66) || d == 74 || d == 75 || d == 76) (.read fun s => putPacer d (s.u.pow.ceilPacer (s.pacerCap d))),
        .pow (fun x => { x with steps := Tab.del x.steps d }),
        risen d]

/-! ## Temperature (R433 to R435) -/

/-- The domain of primary sensor `i`; 80 is the always-on core (R433). -/
def sensorDomain (i : Nat) : Nat :=
  if i < 66 then i else if i < 82 then 66 + (i - 66) / 4 else if i < 92 then i - 12 else 80

/-- The spare beside primary sensor `i`, where there is one (R433). -/
def spareBeside (i : Nat) : Option Nat :=
  if i < 66 then some (94 + i / 2) else if i = 92 ∨ i = 93 then some 127 else none

/-- The domain that sensor `i` reports for now: its own, or that of the sensor it stands in for. -/
def State.holds (s : State) (i : Nat) : Option Nat :=
  if s.u.pow.failed.contains i then none
  else if i < 94 then some (sensorDomain i)
  else (Tab.get? s.u.pow.stand i).map sensorDomain

/-- The readings of the working sensors of domain `d`. -/
def State.domainTemps (s : State) (d : Nat) : List Int :=
  ((List.range 128).filter (fun i => s.holds i == some d)).map s.reading

/-- The number under which the excursion of sensor `i` stands in `hot`. -/
def State.hotKey (s : State) (i : Nat) : Nat := (s.holds i).getD (128 + i)

/-- Domain `d` steps down further for heat: a variable domain by 50 mV to 0.55 V and then its pacer by 4 steps, a fixed one other than 73 its pacer. -/
def coolDomain (tick : Bool) (d : Nat) : Act := .read fun s =>
  if 80 ≤ d ∨ d = 73 ∨ s.get (Obj.DOM_STATE d) ≠ 2 then .skip
  else if d < 66 ∨ (74 ≤ d ∧ d ≤ 76) then
    let v := min (s.railCap d) (s.get (Obj.DOM_TARGET_MV d))
    if 550 < v then all [
      accrueAll, .pow (fun x => { x with railCap := Tab.set x.railCap d (max 550 (v - 50)) }), regrant,
      if d < 66 then (match s.fieldPoint d with
        | some _ => settleField (s.fieldUnits d) d
        | none => restore d)
      else restore d]
    else when tick (all [
      accrueAll, .pow (fun x => { x with pacerCap := Tab.set x.pacerCap d (max 1 (Tab.at x.pacerCap d 32 - 4)) }), regrant, restore d])
  else putPacer d (max 1 (s.get (Obj.DOM_PACER d) - 4))

/-- A condition sets bits of STATUS_INPUT or STATUS_TEMPERATURE, which asserts ALERT_N (R435, R519). -/
def alertFor (input temp : Nat) : Act := .read fun s => all [
  .pow (fun x => { x with
    alert := true
    statusInput := x.statusInput ||| input
    statusTemp := x.statusTemp ||| temp }),
  when (!s.u.pow.alert) (.emit (.pin .alertN false))]

/-- Sensor `i` at 100 °C or more begins an excursion, unless its domain is in one: ALERT_N, the count, the event, the first step down (R435). -/
def excursion (i : Nat) : Act := .read fun s =>
  let k := s.hotKey i
  if s.u.pow.hot.contains k ∨ s.u.pow.failed.contains i ∨ s.reading i < 1000 then .skip
  else all [
    .pow (fun x => { x with hot := x.hot ++ [k] }),
    alertFor 0 64,
    .count 32 Obj.WARN_EVENTS 1,
    logNoted noteThermal Ev.THERMAL_WARNING i (ofSigned 64 (s.reading i)) (if k < 128 then k else 0xFFFF),
    coolDomain false k]

/-- THERMAL_WARNING (R435). -/
def execThermalWarning (sensor : Nat) (temp : Int) (s : State) : Host.Outcome State Fault Refusal :=
  need (Wf.thermalWarning sensor temp) s <| all [
    .pow (fun x => { x with temps := Tab.set x.temps sensor temp }), excursion sensor]

/-- The excursion under key `k` goes on, ends, or stands. -/
def tickHot (k : Nat) : Act := .read fun s =>
  let ts := if k < 128 then s.domainTemps k else [s.reading (k - 128)]
  if ts.any (fun t => decide (1000 ≤ t)) then coolDomain true k
  else when (ts.all (fun t => decide (t < 970))) (.pow fun x => { x with hot := x.hot.filter (· != k) })

/-- A fixed-rail domain whose sensors all read below 97 °C raises its pacer by 4 steps, back to 32. -/
def warmFixed (d : Nat) : Act := .read fun s =>
  when (s.get (Obj.DOM_PACER d) != 32 && (s.domainTemps d).all (fun t => decide (t < 970)) && !s.u.pow.hot.contains d)
    (putPacer d (min 32 (s.get (Obj.DOM_PACER d) + 4)))

/-- The difference between field `f`'s sensor and its prediction joins those of the last 10 ms (R434). -/
def noteDiff (f : Nat) : Act := .read fun s => match s.domainTemps f with
  | [] => .skip
  | t :: _ => .pow fun x => { x with
      diffs := Tab.upd x.diffs f [] (fun ds => ((t - (s.predict f (s.reserve + s.granted) (s.fieldUnits f) - s.offset f)) :: ds).take 100) }

/-- THERMAL_STEP_TICK (R434, R435). -/
def execThermalStepTick (temps : List (Nat × Int)) (vr : Option Int) (s : State) : Host.Outcome State Fault Refusal :=
  need (Wf.thermalStepTick temps vr) s <| all [
    .pow (fun x => { x with temps := temps.foldl (fun t e => Tab.set t e.1 e.2) x.temps }),
    match vr with
      | some v => .put Obj.VR_TEMP (ofSigned 16 v)
      | none => .skip,
    .read fun s => each s.u.pow.hot tickHot,
    each [66, 67, 68, 69, 70, 71, 72, 77, 78, 79] warmFixed,
    each temps (fun e => excursion e.1),
    each ((temps.map (·.1)).filter (fun i => decide (i < 66))) noteDiff,
    offers]

/-- A sensor that a Quiz slice finds faulty is failed: its spare stands in; a domain left with no working sensor is held at 0.55 V and pacer step 8 if
it is variable (R433). -/
def sensorFails (i : Nat) : Act := .read fun s =>
  if s.u.pow.failed.contains i then .skip
  else
    let dom := s.holds i
    let for' := if i < 94 then some i else Tab.get? s.u.pow.stand i
    let heir := if i < 94 then (spareBeside i).filter (fun k => !s.u.pow.failed.contains k && (Tab.get? s.u.pow.stand k).isNone) else none
    all [
      .pow (fun x => { x with
        failed := i :: x.failed
        stand := match heir, for' with
          | some k, some p => Tab.set x.stand k p
          | _, _ => Tab.del x.stand i }),
      .count 8 Obj.SENSORS_FAILED 1,
      match dom with
      | none => .skip
      | some d => .read fun s => when ((s.domainTemps d).isEmpty) (all [
          .pow (fun x => { x with blind := d :: x.blind, hot := x.hot.filter (· != d) }),
          logEv Ev.DOMAIN_SENSORS_LOST d 0 0,
          when (decide (d < 66 ∨ (74 ≤ d ∧ d ≤ 76))) (all [
            accrueAll,
            .pow (fun x => { x with railCap := Tab.set x.railCap d 550, pacerCap := Tab.set x.pacerCap d (min 8 (Tab.at x.pacerCap d 32)) }),
            regrant,
            if d < 66 then (match s.fieldPoint d with
              | some _ => settleField (s.fieldUnits d) d
              | none => restore d)
            else restore d])])]

/-! ## Trips (R436) -/

/-- OVERCURRENT_TRIP (R436). -/
def execOvercurrentTrip (mw mv : Nat) (s : State) : Host.Outcome State Fault Refusal :=
  need (Wf.overcurrentTrip mw mv) s <| .read fun s => all [
    when (!s.u.pow.overcurrent) (all [
      .pow (fun x => { x with overcurrent := true, steps := x.steps.map (fun e => (e.1, { e.2 with pacer := min 1 e.2.pacer })) }),
      accrueAll, paceAll 1,
      .count 32 Obj.OC_EVENTS 1, alertFor 4 0,
      logNoted noteCurrent Ev.HW_TRIP 0 mw mv,
      raiseCause 11 0]),
    settle]

/-- OVERCURRENT_CLEAR (R436). -/
def execOvercurrentClear (s : State) : Host.Outcome State Fault Refusal :=
  need Wf.overcurrentClear s <| .read fun s =>
    when s.u.pow.overcurrent (all [
      .pow (fun x => { x with overcurrent := false }), clearCause 11 0, restoreAll, offers])

/-- JUNCTION_TRIP (R436). -/
def execJunctionTrip (sensor : Nat) (temp : Int) (s : State) : Host.Outcome State Fault Refusal :=
  need (Wf.junctionTrip sensor temp) s <| .read fun s => all [
    .pow (fun x => { x with temps := Tab.set x.temps sensor temp }),
    excursion sensor,
    when (!s.u.pow.junction && !s.u.pow.failed.contains sensor && decide (1150 ≤ temp)) (all [
      .pow (fun x => { x with thermtrip := true }),
      accrueAll, paceAll 1,
      .read fun s => each s.variable (fun d => beginStep d 550 1 0),
      .pow (fun x => { x with junction := true }),
      .emit (.pin .thermtripN false),
      .count 32 Obj.TRIP_EVENTS 1, alertFor 0 128,
      logNoted noteThermal Ev.HW_TRIP 1 (ofSigned 64 temp) (s.get Obj.INPUT_MV),
      raiseCause 11 1]),
    settle]

/-- JUNCTION_TRIP_CLEAR (R436): every working sensor reads below 95 °C. -/
def execJunctionTripClear (s : State) : Host.Outcome State Fault Refusal :=
  need Wf.junctionTripClear s <| .read fun s =>
    when (s.u.pow.junction && (List.range 128).all (fun i => s.u.pow.failed.contains i || decide (s.reading i < 950))) (all [
      .pow (fun x => { x with junction := false, thermtrip := false }),
      .emit (.pin .thermtripN true),
      clearCause 11 1, restoreAll, offers])

end Sys2Proof.Machine
end

