-- ==== Sys2Proof/Machine/BootOps.lean ====
section
/-! DEFINITION. Start-up below its commands: entering and leaving OPERATIONAL, SERVICE and STANDBY (R440 to R442), what a reset keeps (R445), the memory layout
of a boot (R153, R184, R187), the settings (R51, R52), a boot's end in recovery (R448, R452). -/

namespace Sys2Proof.Machine
open Act

/-- Change the record of start-up. -/
def Act.boot (f : BootS → BootS) : Act := .units fun u => { u with boot := f u.boot }

/-- The bytes of an octet string in the slots from key `k` on, eight a slot. -/
def putOct (k : Nat) (bs : List Byte) : Act :=
  each (List.range (ceilDiv bs.length 8)) fun i => .put (k + i) (ofLe ((bs.drop (8 * i)).take 8))

/-- The `n` bytes of the octet string at key `k`. -/
def State.oct (s : State) (k n : Nat) : List Byte :=
  ((List.range (ceilDiv n 8)).flatMap fun i => le 8 (s.get (k + i))).take n

/-- `n` free bytes, from the `i`-th free value on. -/
def State.freeFrom (s : State) (i n : Nat) : List Byte :=
  ((List.range (ceilDiv n 8)).flatMap fun j => le 8 (s.free (i + j) 64)).take n

/-- Set bits of `BOOT_STATUS`. -/
def bootBits (m : Nat) : Act := .modify Obj.BOOT_STATUS (fun v => v ||| m)

/-! ## Between the states (R440 to R442) -/

/-- The device stops working on anything (R441): outputs de-energised, channels OFF, filters stopped, work cancelled, armed furrows STOPPED, the line released. -/
def standDown : Act := all [
  deEnergise, channelsOff, stopFilters, endEverything St.CANCELLED 0x1400,
  .read fun s => each s.u.tt.furrows (fun e => .furrow e.1 fun x => { x with queue := [], live := [], stopping := false, sinceFiring := 0, golden := none }),
  .read fun s => each ((s.objs.filter (fun e => decide (e.1 % 16777216 = Obj.FURROW_STATE 0 ∧ e.2.toNat = 2))).map (fun e => e.1 / 16777216)) (fun f =>
    all [.put (Obj.FURROW_STATE f) 1, .modify (Obj.ARMED_MASK (f / 64)) (fun m => clearBit m (f % 64)), clearCause 6 f]),
  .read fun s => each s.chans boundary,
  .safe (fun x => { x with sinceHold := [] }), releaseLine]

/-- The device enters OPERATIONAL from PRE-OPERATIONAL; domain 73 is powered (R440, R442). -/
def enterOp : Act := .read fun s => all [
  setDev Dev.OP, .boot (fun b => { b with auto := false }), needDomain 73,
  when (s.get Obj.T_OPERATIONAL_NS == 0) (.put Obj.T_OPERATIONAL_NS ((s.time - s.u.boot.start) / 4294967296))]

/-- The device enters SERVICE; domain 79 is powered. -/
def enterService : Act := all [
  setDev Dev.SERVICE, .boot (fun b => { b with
    auto := false, tested79 := true }), needDomain 79]

/-- Debug ends (R459). -/
def endDebug : Act := all [.put Obj.DEBUG_LEVEL 0, .boot (fun b => { b with debugOf := none })]

/-! ## Resets (R445) -/

/-- The objects that a reset keeps: what flash holds (counters, image slots, retirements, repairs), what pins and sensors show, the always-on core's own; `power`: after a loss
of power the time base and what counts since power-on start afresh. -/
def keepObj (power : Bool) (k : Nat) : Bool :=
  let i := k / 256 % 65536
  let sub := k % 256
  k == Obj.BOOT_COUNT || k == Obj.ORDERING_CODE || k == Obj.IDCODE_VALUE || k == Obj.PROG_COUNTER || k == Obj.VOLTAGE_EVENTS || k == Obj.IN_STATE || k == Obj.HOLD_N_LEVEL
    || (0x2021 ≤ i && i ≤ 0x2024 && 5 ≤ sub && sub ≤ 9)
    || (0x2440 ≤ i && i ≤ 0x247F && (sub == 4 || sub == 5))
    || k == Obj.INPUT_MV || k == Obj.INPUT_MW || k == Obj.HW_CEILING_W || k == Obj.PLATE_C || k == Obj.VR_TEMP || k == Obj.TEST_EN_LEVEL
    || (i == 0x2F81 && (sub != 8 || !power))
    || (!power && (i == 0x2200 || i == 0x2F80 || k == Obj.PMBUS_LIMIT_EN || k == Obj.PMBUS_LIMIT_W
      || k == Obj.REG_PHASES_ACTIVE || k == Obj.REG_PHASES_SPARE || k == Obj.REG_PHASES_RETIRED || k == Obj.STATION_ADDRESS))

/-- What the units keep over a reset. -/
def Units.afterReset (u : Units) (power : Bool) : Units := {
  mem := { retiredOrder := u.mem.retiredOrder, marked := u.mem.marked, badSlots := u.mem.badSlots, rowSlots := u.mem.rowSlots, repaired := u.mem.repaired }
  safe := { othersLow := u.safe.othersLow }
  pow := {
    temps := u.pow.temps, plate := u.pow.plate
    phases := if power then [] else u.pow.phases
    alert := !power && u.pow.alert
    statusInput := if power then 0 else u.pow.statusInput
    statusTemp := if power then 0 else u.pow.statusTemp
    statusCml := if power then 0 else u.pow.statusCml }
  time := if power then {} else { inRun := u.time.inRun, outRun := u.time.outRun, holdFrom := u.time.holdFrom }
  links := { perst := u.links.perst }
  tap := if power then {} else u.tap
  boot := {
    powered := u.boot.powered, pwrGood := u.boot.pwrGood, carrierLow := u.boot.carrierLow, resetLow := u.boot.resetLow
    shut := u.boot.shut, rearmed := u.boot.rearmed, cause := u.boot.cause
    everTrained := !power && u.boot.everTrained
    slots := u.boot.slots, prefer := u.boot.prefer, restore := u.boot.restore } }

/-- A write to flash that is cut off leaves its slot failing its digest (R454). -/
def State.cutOff (s : State) : Act := match s.u.boot.writing with
  | some (.image k _ _) =>
    let n := 1 - s.get (Obj.IMG_ACTIVE_SLOT (k - 1))
    .boot fun b => { b with slots := Tab.upd b.slots (k * 2 + n) { version := 0 } (fun x => { x with sound := false }) }
  | _ => .skip

/-- Everything that a reset ends ends: no completion is written, sessions close, streams are freed, LPDDR4X and link images are lost; the events logged keep their way to flash. -/
def wipeAll (power : Bool) : Act := .read fun s => all [
  s.cutOff, deEnergise,
  when s.u.safe.driving (.emit (.pin .safeHoldN true)),
  when s.u.pow.thermtrip (.emit (.pin .thermtripN true)),
  when (power && s.u.pow.alert) (.emit (.pin .alertN true)),
  .resetObjs (keepObj power),
  .wipe 0 1152921504606846976,
  .units (fun u => u.afterReset power),
  lineLevel,
  each (List.range 80) (fun d => .put (Obj.DOM_STATE d) 0)]

/-- The device enters INIT: a new boot begins, events are numbered from 1, counter 0 counts it, domain 77 is powered (R442, R453). -/
def beginBoot (cause : Nat) (warm : Bool) : Act := .read fun s => all [
  wipeAll false, .newLog,
  .put Obj.DEVICE_STATE Dev.INIT, .put Obj.AL_STATE 1,
  .put Obj.RESET_CAUSE cause, .count 32 Obj.BOOT_COUNT 1,
  .put (Obj.DOM_STATE 77) 2,
  .boot (fun b => { b with start := s.time, warm := warm, shut := none, rearmed := false })]

/-- RESET_N low or a pin-control instruction in force holds the device (R510, R524). -/
def State.resetHeld (s : State) : Bool := s.u.boot.resetLow || s.get Obj.PIN_CONTROL_ACTIVE != 0

/-- The device is in INIT and its Principal runs the boot chain. -/
def State.booting (s : State) : Bool := s.dev == Dev.INIT && !s.resetHeld

/-- The device leaves STANDBY if PWR_GOOD is high and nothing holds it (R440, R508, R509). -/
def leaveStandby : Act := .read fun s =>
  let b := s.u.boot
  when (s.dev == Dev.STANDBY && b.powered && b.pwrGood && !b.carrierLow && !s.resetHeld) (beginBoot b.cause false)

/-- What holds the device in INIT or STANDBY has ended: the boot starts now, or STANDBY is left (R443). -/
def holdEnds : Act := .read fun s =>
  if s.resetHeld then .skip
  else if s.dev = Dev.INIT then .boot fun b => { b with start := s.time }
  else leaveStandby

/-- Events of severity Error and Safety leave for the flash ring, up to `n` (R66). -/
def flashCopy (n : Nat) : Act := .logNotes fun l => { l with
  flash := ((l.toFlash.take n).reverse ++ l.flash).take 256
  flashCount := l.flashCount + (l.toFlash.take n).length
  toFlash := l.toFlash.drop n }

/-- Every domain is switched off and the device enters STANDBY, PWR_GOOD low (R436, R440, R509). -/
def enterStandby (why : Option Nat) (cause : Nat) : Act := .read fun s => all [
  flashCopy s.log.toFlash.length,
  when (s.u.boot.pwrGood) (.emit (.pin .pwrGood false)),
  wipeAll false,
  .put Obj.DEVICE_STATE Dev.STANDBY,
  .boot (fun b => { b with pwrGood := false, shut := why, rearmed := false, cause := cause })]

/-! ## Recovery (R448, R452) -/

/-- The boot ends in SERVICE in recovery, for the cause with bit `b` of `BOOT_STATUS`; the PCIe and CoE sessions are served. -/
def enterRecovery (b : Nat) : Act := all [
  bootBits (2 ^ b + 128), .boot (fun x => { x with recovery := true }),
  .put (Obj.DOM_STATE 70) 2, .put (Obj.DOM_STATE 72) 2, .put (Obj.DOM_STATE 79) 3,
  enterService]

/-! ## The layout of the memory (R153, R184, R187) -/

/-- Channel `ch`, retired before this boot or in its training, has its pieces mapped into the headland. -/
def mapRetired (ch role : Nat) : Act := all [layReloc ch, chanGone ch role]

/-- The regions of a boot with `h` headland units; channels retired earlier are mapped in their order, then those that failed training. -/
def layMemory (h : Nat) : Act := .read fun s =>
  let small : Bool := s.get Obj.ORDERING_CODE == 1
  let old := s.u.mem.retiredOrder
  let bad := s.u.boot.badChannels.filter (fun c => !old.contains c)
  let stripes := if small then 61440 else 122880
  all [
    .put Obj.MAP_BASE 0x04000000, .put Obj.MAP_ENTRIES (if small then 31457280 else 62914560),
    .put Obj.TAG_BASE (if small then 0x13000000 else 0x22000000), .put Obj.PAYLOAD_BASE (if small then 0x31000000 else 0x5E000000),
    .put Obj.HEADLAND_BASE ((64 - h) * stripes * 16384),
    .put Obj.PAYLOAD_SLOTS ((if small then 15282176 else 30580736) + stripes * 4 - h * stripes * 4),
    .put Obj.HEADLAND_FREE h, .put Obj.CHANNELS_ACTIVE 64, .put Obj.USABLE_MIB (stripes),
    .mem (fun m => { m with
      retiredOrder := [], relocs := [] }),
    each old (fun c => mapRetired c 2),
    each bad (fun c => all [mapRetired c 3, logEv Ev.CHANNEL_RETIRED c 2 0])]

/-! ## Slots (R452) -/

/-- A slot is eligible (R452). -/
def State.eligible (s : State) (kind : Nat) (x : Option Img) : Bool := match x with
  | none => false
  | some y => y.sound && decide (s.get (Obj.IMG_COUNTER (kind - 1)) ≤ y.rollback)
      && (y.target.all (· == 0) || y.target == s.oct Obj.DEVICE_ID 16)

/-- The slot that the ROM takes: the preferred one, else the eligible one with the higher version (slot 0 of two equal ones); on a warm boot the safety firmware that
ran (R451, R452). -/
def State.chooseSlot (s : State) (kind : Nat) (a b : Option Img) : Option Nat :=
  let ok (n : Nat) : Bool := s.eligible kind (if n = 0 then a else b)
  let ver (x : Option Img) : Nat := (x.map (·.version)).getD 0
  let kept : Option Nat := if kind = 2 ∧ s.u.boot.warm then some (s.get (Obj.IMG_ACTIVE_SLOT 1)) else Tab.get? s.u.boot.prefer kind
  match kept.filter ok with
  | some n => some n
  | none => if ok 0 ∧ (¬ ok 1 ∨ ver b ≤ ver a) then some 0 else if ok 1 then some 1 else none

/-! ## Settings (R51, R52) -/

/-- The ranges of `STORE_PARAMETERS` and `RESTORE_DEFAULT_PARAMETERS` by subindex (R51). -/
def inRange (sub i : Nat) : Bool := match sub with
  | 1 => true
  | 2 => decide (0x1000 ≤ i ∧ i ≤ 0x1FFF)
  | _ => decide (0x2000 ≤ i ∧ i ≤ 0x5FFF)

/-- An object that a store keeps: RW or RWS, and no request slot, stream, event log, session, or state of a context (R51, R52; log entry 61). -/
def storable (k : Nat) : Bool :=
  let i := k / 256 % 65536
  if (0x3000 ≤ i ∧ i ≤ 0x3FFF) ∨ 0x5000 ≤ i ∨ (0x4000 ≤ i ∧ k % 256 = 1) ∨ (0x2180 ≤ i ∧ i ≤ 0x219F) ∨ (0x2110 ≤ i ∧ i ≤ 0x211F) ∨ 0xF8 ≤ k % 256 then false
  else match Obj.tableOf i with
    | none => false
    | some (_, rs) => match Obj.rowAt rs (k % 256) with
      | some (r, _) => (r.acc == .rw || r.acc == .rws) && !Obj.perSession k
      | none => false

/-- The image that a store of subindex `sub` writes: the live values; what it does not cover stays as the image that the next boot would load has it, but for
what is to be restored. -/
def State.toStore (s : State) (sub : Nat) : Img :=
  let slot (n : Nat) : Option Img := Tab.get? s.u.boot.slots (8 + n)
  let old : Img := (((s.chooseSlot 4 (slot 0) (slot 1)).bind slot)).getD { version := 0 }
  let keeps (k : Nat) : Bool := !(sub :: s.u.boot.restore).any (fun r => inRange r (k / 256 % 65536))
  let takes (k : Nat) : Bool := storable k && inRange sub (k / 256 % 65536)
  { version := [slot 0, slot 1].foldl (fun m x => max m ((x.map (·.version)).getD 0)) 0 + 1
    rollback := old.rollback
    digest := s.freeFrom 0 48
    vals := (s.objs.filter (fun e => takes e.1)).map (fun e => (e.1, e.2.toNat)) ++ old.vals.filter (fun e => keeps e.1)
    blobs := s.u.dict.blobs.filter (fun e => takes e.1) ++ old.blobs.filter (fun e => keeps e.1) }

/-- The settings loaded at INIT go straight into the live copies, but for the ranges to be restored; blocks that have a group then stand as after an apply, and what takes
effect at a boot does. -/
def loadSettings (x : Img) : Act := .read fun s =>
  let take (k : Nat) : Bool := storable k && !s.u.boot.restore.any (fun sub => inRange sub (k / 256 % 65536))
  all [
    each (x.vals.filter (fun e => take e.1)) (fun e => .put e.1 e.2),
    .dict (fun d => { d with blobs := (x.blobs.filter (fun e => take e.1)).foldl (fun t e => Tab.set t e.1 e.2) d.blobs }),
    .read fun s => all [
      each ((x.vals.filter (fun e => e.1 % 16777216 / 256 == 0x2581)).map (fun e => e.1 / 16777216)) (fun f => .put (Obj.FURROW_STATE f) 1),
      each [0, 1] (fun l => when (s.get (Obj.LINE_ENABLE l) != 0) (.put (Obj.LINE_STATE l) 1)),
      each (List.range 256) (fun c => when (Tab.get? s.u.dict.blobs (Obj.COEFFS c)).isSome
        (let d := (s.coeffs c).derived.1
         .chan c fun x => { x with mM := d.1, mP := d.2.1, mCP := d.2.2.1, mKP := d.2.2.2 })),
      .boot (fun b => { b with
        moduleNo := s.get Obj.MODULE_NUMBER, headland := s.get Obj.HEADLAND_UNITS, ethMode := s.get Obj.ETH_MODE })]]

/-! ## PRE-OPERATIONAL (R442, R443) -/

/-- Boot chain, training and island self-test are complete: the device enters PRE-OPERATIONAL, row 0 of the fields begins its test. -/
def enterPreop : Act := .read fun s => all [
  layMemory s.u.boot.headland,
  .put Obj.T_PREOP_NS (min 0xFFFFFFFF ((s.time - s.u.boot.start) / 4294967296)),
  setDev Dev.PREOP,
  .boot (fun b => { b with auto := true }),
  .put (Obj.DOM_STATE 78) 2,
  each [73, 74, 75, 76, 79] (fun d => .put (Obj.DOM_STATE d) 3),
  each (List.range 11) (fun f => .put (Obj.DOM_STATE f) 1)]

end Sys2Proof.Machine
end

