-- ==== Sys2Proof/Machine/GroupOps.lean ====
section
/-! DEFINITION. Staged groups: the check of every group's commit with its code and the object at fault, and what the application of every group does
(R46, R47). -/

namespace Sys2Proof.Machine
open Act

/-- What a check finds: a check code and the subindex of the object at fault. -/
abbrev Flaw := Option (Nat × Nat)

/-- The first flaw found. -/
def firstFlaw : List Flaw → Flaw
  | [] => none
  | some f :: _ => some f
  | none :: fs => firstFlaw fs

/-- A flaw with this code at this subindex, if `c` holds. -/
def flaw (c : Bool) (code sub : Nat) : Flaw := if c then some (code, sub) else none

/-! ## The host completion area, contexts -/

/-- Group 0: the area is 4 KiB-aligned while it is enabled. -/
def checkHostArea (s : State) : Flaw :=
  flaw (s.shadowOf Obj.HOST_COMPLETION_ENABLE != 0 && s.shadowOf Obj.HOST_COMPLETION_BASE % 4096 != 0) Ab.COMMIT_INCONSISTENT 1

/-- A context's group (R194). -/
def checkContext (s : State) (n : Nat) : Flaw :=
  flaw (s.shadowOf (Obj.POST_ALLOWANCE n) != 0 && s.shadowOf (Obj.FIELD_ALLOWANCE n) == 0) 0x0540 4

/-! ## Furrows (R209) -/

/-- `TRIGGER_SOURCE` suits the trigger kind. -/
def sourceOk (kind src : Nat) : Bool := match kind with
  | 1 => decide (src ≠ 0 ∧ src < 256)
  | 3 => decide (src < 288)
  | 4 => decide (src < 64)
  | 5 => decide (src < 4096)
  | 6 => decide (src < 256)
  | 7 => decide (src < 16)
  | _ => src == 0

/-- The furrows whose completion triggers furrow `g`, by its live and its PENDING values. -/
def State.firedBy (s : State) (g : Nat) : List Nat :=
  (if s.get (Obj.TRIGGER_KIND g) = 6 then [s.get (Obj.TRIGGER_SOURCE g)] else [])
    ++ (if s.groupPending (furrowCtl g) ∧ s.shadowOf (Obj.TRIGGER_KIND g) = 6 then [s.shadowOf (Obj.TRIGGER_SOURCE g)] else [])

/-- All furrows from which completion triggers lead to those of `front`. -/
def State.ancestors (s : State) : Nat → List Nat → List Nat → List Nat
  | 0, seen, _ => seen
  | fuel + 1, seen, front =>
    let new := ((front.flatMap s.firedBy).filter (fun g => !seen.contains g)).eraseDups
    if new.isEmpty then seen else s.ancestors fuel (seen ++ new) new

/-- The furrow's trigger would close a cycle of completion triggers. -/
def State.cyclic (s : State) (f : Nat) : Bool :=
  s.shadowOf (Obj.TRIGGER_KIND f) == 6 &&
    (let g := s.shadowOf (Obj.TRIGGER_SOURCE f)
     (s.ancestors 256 [g] (if g = f then [] else [g])).contains f)

/-- A furrow's group (R209). -/
def checkFurrow (s : State) (f : Nat) : Flaw :=
  let h := s.shadowOf (Obj.F_PROGRAM f)
  let binds := ((s.entryOf h (s.shadowOf (Obj.F_ENTRY f))).map (·.binds)).getD 0
  firstFlaw [
    flaw (s.get (Obj.CTX_STATE (s.shadowOf (Obj.F_CONTEXT f))) == 0) 0x0541 3,
    flaw (s.unit h).isNone 0x0542 4,
    flaw (s.entryOf h (s.shadowOf (Obj.F_ENTRY f))).isNone 0x0542 5,
    flaw (!sourceOk (s.shadowOf (Obj.TRIGGER_KIND f)) (s.shadowOf (Obj.TRIGGER_SOURCE f))) 0x0543 7,
    ((List.range 16).find? (fun a => (s.shadowOf (Obj.F_BIND f a) != 0) != decide (a < binds))).map (fun a => (0x0544, 0x20 + a)),
    flaw (s.cyclic f) 0x0545 7]

/-! ## Dictation (R404) -/

/-- The entry of furrow `f`. -/
def State.furrowEntry (s : State) (f : Nat) : Entry := (s.entryOf (s.get (Obj.F_PROGRAM f)) (s.get (Obj.F_ENTRY f))).getD {}

/-- The scratch tiles of furrow `f`'s golden runs: as many as its outputs have. -/
def State.scratchTiles (s : State) (f : Nat) : Nat :=
  if s.shadowOf (Obj.GOLDEN_EVERY f) = 0 then 0 else (s.furrowEntry f).goldOut.foldl (fun a o => a + o.2.2) 0

/-- Reference `o` of furrow `f` lies in tiles of its output's shape and format. -/
def State.refOk (s : State) (f o : Nat) : Bool :=
  let a := s.shadowOf (Obj.GOLDEN_REF f o)
  match (s.furrowEntry f).goldOut[o]? with
  | none => false
  | some (shape, fmt, n) => (List.range n).all fun i => match s.tileOf (s.get (Obj.F_CONTEXT f)) (a + 65536 * i) with
    | .inl t =>
      let tag := (Tab.at s.u.mem.tiles t { ctx := 0, home := .slot 0 }).tag
      tagByte tag 0 % 16 == fmt && tagByte tag 1 == shape
    | .inr _ => false

/-- A furrow's Dictation group. -/
def checkDictation (s : State) (f : Nat) : Flaw :=
  let e := s.furrowEntry f
  let refs := (List.range 8).filter fun o => s.shadowOf (Obj.GOLDEN_REF f o) != 0
  let bad (k : Nat) : Bool := !(fp (s.shadowOf k)).isFin || (fp (s.shadowOf k)).lt Num.zero
  firstFlaw [
    flaw (((List.range 8).filter (fun a => s.shadowOf (Obj.GOLDEN_IN f a) != 0)).length != e.goldIn) 0x0D40 0x10,
    flaw (refs.length != e.goldOut.length) 0x0D40 0x20,
    ((List.range 16).find? (fun i => bad (Obj.ABS_TOL f i))).map (fun i => (0x0D41, 0x30 + i)),
    (refs.find? (fun o => !s.refOk f o)).map (fun o => (0x0D42, 0x20 + o)),
    flaw (s.allocFault (s.get (Obj.F_CONTEXT f)) (s.scratchTiles f)).isSome 0x0D43 1]

/-! ## Streams (R268) -/

/-- The group of stream `n`, committed by session `ses`. -/
def checkStream (s : State) (ses n : Nat) : Flaw :=
  let c := s.shadowOf (Obj.S_CONTEXT n)
  let root := s.get (Obj.STREAM_ROOT c)
  let live := s.get (Obj.STREAM_STATE n) != 0
  let moved (k : Nat) : Bool := live && s.shadowOf k != s.get k
  let fmt := s.shadowOf (Obj.STATE_FORMAT n)
  let mode := s.shadowOf (Obj.STATE_MODE n)
  let count := s.shadowOf (Obj.STATE_ELEMENTS n)
  let place := s.shadowOf (Obj.RESIDENCY_MODE n)
  let engines := s.shadowOf (Obj.RESIDENT_ENGINES n)
  let formats := s.shadowOf (Obj.RESIDENT_FORMATS n)
  firstFlaw [
    flaw (s.get (Obj.CTX_STATE c) == 0 || !bit (s.get (Obj.ADMIT_SESSIONS c)) ses) 0x0740 3,
    flaw (root == 0 || !(s.tileOf c root).isLeft || !(s.tileOf c (root + 65536)).isLeft) 0x0741 3,
    flaw ((Tab.get? s.u.streamDir (c * 4096 + s.shadowOf (Obj.S_LOCAL n))).any (· != n)) 0x0741 4,
    flaw (moved (Obj.S_CONTEXT n)) 0x0742 3, flaw (moved (Obj.S_LOCAL n)) 0x0742 4,
    flaw (moved (Obj.STATE_ELEMENTS n)) 0x0742 6, flaw (moved (Obj.STATE_FORMAT n)) 0x0742 7,
    flaw (mode == 1 && fmt != 0) 0x0743 8,
    flaw (place == 2 && engines == 0) 0x0744 0x0A, flaw (place == 2 && decide (256 * engines < count)) 0x0744 6,
    flaw (place == 2 && !(exactFmt (formats % 16) && exactFmt (formats / 16))) 0x0744 0x0B,
    flaw (place == 2 && s.shadowOf (Obj.WEIGHT_GROUP n) != 0) 0x0744 5,
    flaw (s.newTiles n != 0 && (s.allocFault c (s.newTiles n)).isSome) 0x0745 8,
    flaw (place == 1 && decide (2097152 < count * elemBytes fmt mode)) 0x0746 9]

/-! ## Triggers, fusion (R318, R342) -/

/-- The edge time of a trigger output. -/
def edgeNs (rate : Nat) : Nat := match rate with
  | 0 => 1
  | 1 => 3
  | _ => 10

/-- A trigger's group (R318). -/
def checkTrigger (s : State) (n : Nat) : Flaw :=
  let width := s.shadowOf (Obj.TRIG_WIDTH_NS n)
  let period := s.shadowOf (Obj.TRIG_PERIOD_NS n)
  let e := 4 * edgeNs (s.shadowOf (Obj.TRIG_EDGE_RATE n))
  firstFlaw [
    flaw (width != 0 && decide (width < e)) 0x0940 4,
    flaw (s.shadowOf (Obj.TRIG_MODE n) == 2 && period != 0 && decide (period < width + e)) 0x0940 3]

/-- The length of `MODEL_DATA` suits the model and its dimension; the transition of the auxiliary block may be left out (R328, R329). -/
def modelLength (model dim bytes : Nat) : Bool :=
  let ok (aux : Nat) : Bool := bytes == 12 * dim || bytes == 4 * (3 * dim + aux * aux)
  match model with
  | 0 => true
  | 1 => decide (15 ≤ dim) && ok (dim - 15)
  | 2 => decide (5 ≤ dim) && ok (dim - 5)
  | _ => decide (1 ≤ dim) && bytes == 4 * (3 * dim + dim * dim)

/-- A filter's group. -/
def checkFilter (s : State) (n : Nat) : Flaw :=
  let model := s.shadowOf (Obj.FILTER_MODEL n)
  let dim := s.shadowOf (Obj.STATE_DIM n)
  firstFlaw [
    flaw (decide (s.shadowOf (Obj.RETRO_WINDOW_MS n) * 1000000 < s.shadowOf (Obj.GATE_WINDOW_NS n))) 0x0941 8,
    flaw (s.filterOn n && model != s.get (Obj.FILTER_MODEL n)) 0x0942 1,
    flaw (s.filterOn n && dim != s.get (Obj.STATE_DIM n)) 0x0942 3,
    flaw ((model == 1 && decide (dim < 15)) || (model == 2 && decide (dim < 5)) || (model == 3 && dim == 0)) 0x0942 3,
    flaw (!modelLength model dim (s.shadowBlob (Obj.FILTER_MODEL_DATA n)).length) 0x0942 5]

/-- The models of a measurement kind (R329). -/
def kindModels (kind : Nat) : List Nat := match kind with
  | 1 => [1, 3]
  | 2 | 8 => [1]
  | 3 | 4 | 6 => [1, 2]
  | 5 => [2]
  | 7 => [3]
  | _ => []

/-- `SRC_LOCATOR` suits the source kind. -/
def locatorOk (kind loc : Nat) : Bool := match kind with
  | 1 => decide (loc < 8)
  | 2 => decide (loc % 256 < 2 ∧ loc / 256 < 4096)
  | 3 => decide (loc < 16)
  | _ => decide (loc < 4096)

/-- A source's group; a source of kind 0 is unused. -/
def checkSource (s : State) (n : Nat) : Flaw :=
  let kind := s.shadowOf (Obj.SRC_KIND n)
  let model := s.get (Obj.FILTER_MODEL (s.shadowOf (Obj.SRC_FILTER n)))
  let bad (k : Nat) : Bool := !(fp (s.shadowOf k)).isFin || !Num.zero.lt (fp (s.shadowOf k))
  firstFlaw [
    flaw (kind != 0 && !locatorOk kind (s.shadowOf (Obj.SRC_LOCATOR n))) 0x0943 2,
    flaw (kind != 0 && !(kindModels (s.shadowOf (Obj.SRC_MEAS_KIND n))).contains model) 0x0943 4,
    flaw (bad (Obj.SRC_GATE_CHI2 n)) 0x0944 7,
    ((List.range 6).find? (fun i => bad (Obj.SRC_SIGMA n i))).map (fun i => (0x0944, 0x10 + i))]

/-- An output's group. -/
def checkOutput (s : State) (o : Nat) : Flaw :=
  let f := s.shadowOf (Obj.OUT_FILTER o)
  let elt (k : Nat) : Nat := s.shadowOf (Obj.OUT_ELEMENTS o + k / 8) / 256 ^ (k % 8) % 256
  firstFlaw [
    flaw (decide (f < 8) && (List.range 16).any (fun k => elt k != 0xFF && decide (s.get (Obj.STATE_DIM f) ≤ elt k))) 0x0945 2,
    flaw (s.shadowOf (Obj.OUT_HOST_EN o) != 0 && s.shadowOf (Obj.OUT_HOST_BASE o) % 4096 != 0) 0x0945 8]

/-! ## The map and robot models (R353, R365) -/

/-- The map geometry group. -/
def checkMap (s : State) : Flaw :=
  let n := s.shadowOf Obj.BRICKS_X * s.shadowOf Obj.BRICKS_Y * s.shadowOf Obj.BRICKS_Z
  let c := s.shadowOf Obj.MAP_CONTEXT
  firstFlaw [
    flaw (decide (32768 < n)) 0x0A40 3,
    flaw (s.get (Obj.CTX_STATE c) == 0 || decide (s.get (Obj.TILE_ALLOWANCE c) < n + ceilDiv n 1024)) 0x0A41 1]

/-! ## All groups -/

/-- The flaw of a check that gives a code alone. -/
def codeFlaw (code sub : Nat) : Flaw := flaw (code != 0) code sub

/-- The subindex at fault in a channel's group, by its check code (R388). -/
def channelSub (code : Nat) : Nat := match code with
  | 0x0B40 | 0x0B45 => 5
  | 0x0B41 => 9
  | 0x0B43 => 0x0A
  | _ => 7

/-- The subindex at fault in a line's group. -/
def State.lineSub (s : State) (l : Nat) : Nat :=
  let cycle := s.shadowOf (Obj.LINE_CYCLE_NS l)
  match [Obj.LINE_PHASE_NS l, Obj.INPUT_LAUNCH_NS l, Obj.APPLY_OFFSET_NS l].find? (fun k => decide (cycle ≤ s.shadowOf k)) with
  | some k => k % 256
  | none => (if cycle = s.get (Obj.LINE_CYCLE_NS l) then Obj.LINE_CONFIG l else Obj.LINE_CYCLE_NS l) % 256

/-- What the check of group `c`, committed by session `ses`, finds. -/
def checkGroup (s : State) (ses c : Nat) : Flaw :=
  let i := c % 65536
  let f := c / 65536
  if i = 0x2120 then checkHostArea s
  else if 0x2210 ≤ i ∧ i ≤ 0x221F then checkTrigger s (i - 0x2210)
  else if i = 0x2581 then checkFurrow s f
  else if i = 0x2D21 then checkDictation s f
  else if 0x2810 ≤ i ∧ i ≤ 0x2817 then checkFilter s (i - 0x2810)
  else if 0x2840 ≤ i ∧ i ≤ 0x287F then checkSource s (i - 0x2840)
  else if 0x2880 ≤ i ∧ i ≤ 0x28BF then checkOutput s (i - 0x2880)
  else if i = 0x2901 then checkMap s
  else if 0x2910 ≤ i ∧ i ≤ 0x2913 then flaw (!modelOk (s.shadowBlob (Obj.ROBOT_MODEL_MODEL_DATA (i - 0x2910)))) 0x0A42 1
  else if 0x2B00 ≤ i ∧ i ≤ 0x2C1F then codeFlaw (checkChannel s (i - 0x2B00)) (channelSub (checkChannel s (i - 0x2B00)))
  else if 0x2F20 ≤ i ∧ i ≤ 0x2F21 then codeFlaw (checkLine s (i - 0x2F20)) (s.lineSub (i - 0x2F20))
  else if 0x2F30 ≤ i ∧ i ≤ 0x2F37 then
    codeFlaw (checkCsi s (i - 0x2F30))
      ((if s.get (Obj.CTX_STATE (s.shadowOf (Obj.CSI_CONTEXT (i - 0x2F30)))) = 0 then Obj.CSI_CONTEXT (i - 0x2F30) else Obj.CSI_SLOTS (i - 0x2F30)) % 256)
  else if 0x2F40 ≤ i ∧ i ≤ 0x2F47 then
    codeFlaw (checkSpi s (i - 0x2F40))
      ((if s.shadowOf (Obj.SPI_DIVIDER (i - 0x2F40)) < 4 then Obj.SPI_DIVIDER (i - 0x2F40) else Obj.SPI_ROLE (i - 0x2F40)) % 256)
  else if 0x2F60 ≤ i ∧ i ≤ 0x2F67 then 
    codeFlaw (checkColl s (i - 0x2F60))
      ((if (s.shadowBlob (Obj.COLL_MEMBERS (i - 0x2F60))).length / 2 ≤ s.shadowOf (Obj.COLL_RANK (i - 0x2F60)) then Obj.COLL_RANK (i - 0x2F60)
        else Obj.COLL_MEMBERS (i - 0x2F60)) % 256)
  else if 0x4000 ≤ i ∧ i ≤ 0x4FFF then checkContext s (i - 0x4000)
  else if 0x5000 ≤ i ∧ i ≤ 0x5FFF then checkStream s ses (i - 0x5000)
  else none

/-- The block of group `c` is at its safe boundary now: it is stopped, or between two of its operations (R47). A robot model's boundary is the start of the next run or
query that names it (R353); it is met at that dispatch alone. -/
def State.atBoundary (s : State) (c : Nat) : Bool :=
  let i := c % 65536
  if i = 0x2120 ∨ (0x2D40 ≤ i ∧ i ≤ 0x2D4F) then true
  else if 0x2210 ≤ i ∧ i ≤ 0x221F then s.trigIdle (i - 0x2210)
  else if 0x2810 ≤ i ∧ i ≤ 0x28BF then s.fusionIdle i
  else if 0x2B00 ≤ i ∧ i ≤ 0x2C1F then s.get (Obj.CH_STATE (i - 0x2B00)) == 0
  else if 0x2F20 ≤ i ∧ i ≤ 0x2F21 then s.get (Obj.LINE_ENABLE (i - 0x2F20)) == 0
  else if 0x2F30 ≤ i ∧ i ≤ 0x2F37 then s.get (Obj.CSI_ENABLE (i - 0x2F30)) == 0
  else if 0x2F40 ≤ i ∧ i ≤ 0x2F47 then (s.spi (i - 0x2F40)).busy.isNone
  else s.idleGroup c

/-- Group `c` applies at its boundary. -/
def applyGroup (c : Nat) : Act :=
  let i := c % 65536
  if 0x2210 ≤ i ∧ i ≤ 0x221F then applyTrigger (i - 0x2210)
  else if 0x2B00 ≤ i ∧ i ≤ 0x2C1F then applyChannel (i - 0x2B00)
  else if 0x2F20 ≤ i ∧ i ≤ 0x2F21 then applyLine (i - 0x2F20)
  else if 0x2F30 ≤ i ∧ i ≤ 0x2F37 then applyCsi (i - 0x2F30)
  else if 0x2F40 ≤ i ∧ i ≤ 0x2F47 then applySpi (i - 0x2F40)
  else if 0x2D40 ≤ i ∧ i ≤ 0x2D4F then
    all [applyIdle c, .read fun s => when (s.get (Obj.CV_PERIOD_MS (i - 0x2D40)) != 0) (needDomain 78)]
  else applyIdle c

/-- Group `c` applies if it is PENDING and its block is at its boundary. -/
def boundaryMet (c : Nat) : Act := .read fun s => when (s.groupPending c && s.atBoundary c) (applyGroup c)

end Sys2Proof.Machine
end

