-- ==== Sys2Proof/Machine/Island.lean ====
section
/-! DEFINITION. The commands of the safety island: the voter, its inputs and outputs, acknowledgement, end-to-end windows, check-value units and
the Quiz (R394 to R413). -/

namespace Sys2Proof.Machine
open Act

/-! ## Prefects and the voter (R394 to R397) -/

/-- The role of core `k`: 0 active, 1 reserve, 2 resynchronising, 3 retired. -/
def State.coreRole (s : State) (k : Nat) : Nat := s.get Obj.CORE_ROLES / 4 ^ k % 4

/-- Core `k` takes role `r`. -/
def putRole (k r : Nat) : Act := .modify Obj.CORE_ROLES fun v => v - v / 4 ^ k % 4 * 4 ^ k + r * 4 ^ k

/-- Core `k` is reset and copied from the agreeing pair (R396). A Quiz slice in progress ends without a result. -/
def beginResync (k : Nat) : Act := .read fun s => all [
  putRole k 2, .put Obj.VOTE_MODE 1,
  .safe (fun x => { x with resync := some k, resyncFrom := s.time, slice := none, sliceUnit := none }),
  match s.u.safe.slice with
    | some (c, _) => .count 32 (Obj.SLICES_ABORTED c) 1
    | none => .skip]

/-- Core `k` is retired: the reserve core takes its place, or the island stays two out of two (R397). -/
def retireCore (k : Nat) : Act := .read fun s =>
  all [
    putRole k 3, .safe (fun x => { x with resync := none }),
    match (List.range 4).find? (fun i => s.coreRole i == 1) with
    | some r => all [.put Obj.RESERVE_LEFT 0, beginResync r]
    | none => all [
        .put Obj.VOTE_MODE 2,
        .read fun s => logEv Ev.TWO_OF_TWO k (s.get Obj.CORE_ROLES) 0]]

/-- Core `k` is odd (R395 to R397). -/
def oddCore (k : Nat) : Act := .read fun s =>
  let day := (s.time, k) :: s.u.safe.odd.filter (fun e => decide (s.time ≤ e.1 + 86400000000000 * 4294967296))
  all [
    .count 32 Obj.ODD_EVENTS 1,
    .safe (fun x => { x with odd := day }),
    if s.get Obj.ODD_LIMIT ≤ (day.filter (fun e => e.2 == k)).length then retireCore k else beginResync k]

/-- The voter compares what the active cores gave (R395): with three, one that differs from the other two is odd; three different outputs, or a mismatch of two, leave no
majority. -/
def vote (outs : List (Option Nat)) : Act := .read fun s =>
  let active := (List.range 4).filter (fun k => s.coreRole k == 0)
  let out (k : Nat) : Option Nat := (outs.getD k none)
  match active with
  | [a, b, c] =>
    if out a = out b ∧ out b = out c then .skip
    else if out a = out b ∧ (out a).isSome then oddCore c
    else if out a = out c ∧ (out a).isSome then oddCore b
    else if out b = out c ∧ (out b).isSome then oddCore a
    else raiseCause 0 0
  | [a, b] => when (out a != out b) (raiseCause 0 0)
  | _ => .skip

/-- A safety task is ready: a slice in progress is aborted (R412). -/
def abortSlice : Act := .read fun s => match s.u.safe.slice with
  | none => .skip
  | some (c, _) => all [.safe (fun x => { x with slice := none, sliceUnit := none }), .count 32 (Obj.SLICES_ABORTED c) 1]

/-- SAFETY_TICK. -/
def execSafetyTick (outs : List (Option Nat)) (taskUs : Nat) (monitor : Option Bool) (s : State) : Host.Outcome State Fault Refusal :=
  need (Wf.safetyTick outs taskUs monitor) s <| .read fun s =>
    let second := (s.time, taskUs) :: s.u.safe.taskUs.filter (fun e => decide (s.time ≤ e.1 + 1000000000 * 4294967296))
    all [
      abortSlice,
      .safe (fun x => { x with taskUs := second }),
      .put Obj.TASK_BUDGET_US (second.foldl (fun m e => max m e.2) 0),
      match monitor with
        | some true => raiseCause 13 0
        | some false => clearCause 13 0
        | none => .skip,
      vote outs, settle]

/-- RESYNC_DONE (R396): the core rejoins. -/
def execResyncDone (ns : Nat) (s : State) : Host.Outcome State Fault Refusal :=
  need (Wf.resyncDone ns) s <| .read fun s => match s.u.safe.resync with
    | none => .skip
    | some k =>
      if 80000 < ns then retireCore k
      else all [
        putRole k 0, .put Obj.VOTE_MODE 0, .safe (fun x => { x with resync := none }),
        .count 32 Obj.RESYNCS 1, .put Obj.LAST_RESYNC_NS ns]

/-- RESYNC_TIMEOUT (R397). -/
def execResyncTimeout (s : State) : Host.Outcome State Fault Refusal :=
  need Wf.resyncTimeout s <| .read fun s => match s.u.safe.resync with
    | none => .skip
    | some k => retireCore k

/-! ## Inputs, outputs and the line (R401 to R403) -/

/-- SAFETY_INPUT_CHANGE (R402): both open is a demand; both closed ends it, and ends a discrepancy once both have been seen open together. -/
def execSafetyInputChange (a b : Bool) (s : State) : Host.Outcome State Fault Refusal :=
  need (Wf.safetyInputChange a b) s <| all [
    abortSlice,
    .put Obj.IN_STATE ((if a then 1 else 0) + (if b then 2 else 0)),
    when (!a && !b) (.read fun s => all [
      .safe (fun x => { x with bothOpen := true }),
      when (!s.causeActive 2 0) (.count 32 Obj.IN_DEMANDS 1),
      raiseCause 2 0]),
    when (a && b) (.read fun s => all [
      clearCause 2 0,
      when s.u.safe.bothOpen (clearCause 3 0)]),
    settle]

/-- DISCREPANCY_TIMEOUT (R402). -/
def execDiscrepancyTimeout (s : State) : Host.Outcome State Fault Refusal :=
  need Wf.discrepancyTimeout s <| .read fun s => all [
    when ((s.get Obj.IN_STATE == 1 || s.get Obj.IN_STATE == 2) && !s.causeActive 3 0) (all [
      abortSlice,
      .safe (fun x => { x with bothOpen := false }),
      .count 32 Obj.IN_DEMANDS 1,
      raiseCause 3 0]),
    settle]

/-- SAFE_HOLD_N_CHANGE (R403): the island sees others on the line only while it does not drive it. -/
def execSafeHoldNChange (othersLow : Bool) (s : State) : Host.Outcome State Fault Refusal :=
  need (Wf.safeHoldNChange othersLow) s <| all [
    .safe (fun x => { x with othersLow := othersLow }), lineLevel,
    .read fun s => when (!s.u.safe.driving) (if othersLow then raiseCause 1 0 else clearCause 1 0),
    settle]

/-- OUTPUT_TEST_PULSE (R401): only an energised output carries pulses. -/
def execOutputTestPulse (ch : Nat) (low : Bool) (s : State) : Host.Outcome State Fault Refusal :=
  need (Wf.outputTestPulse ch low) s <| .read fun s =>
    when (bit (s.get Obj.OUT_STATE) ch) (all [
      .safe (fun x => { x with pulses := if low then ch :: x.pulses.filter (· != ch) else x.pulses.filter (· != ch) }),
      .emit (.pin (if ch = 0 then .outA else .outB) (!low))])

/-- READBACK_FAULT (R401). -/
def execReadbackFault (ch : Nat) (s : State) : Host.Outcome State Fault Refusal :=
  need (Wf.readbackFault ch) s <| all [.count 32 Obj.OUT_FAULTS 1, raiseCause 4 0, settle]

/-! ## Writes to the island (R398, R400) -/

/-- A write to `SAFETY_ACK`. -/
def safetyAck (s : State) : WriteRes :=
  if s.blocking then .no Ab.STATE_FORBIDS
  else if s.dev = Dev.OP then .ok (.put Obj.LATCHED_CAUSES (s.get Obj.LATCHED_CAUSES &&& s.u.safe.latchedHigh))
  else .ok (all [
    .put Obj.LATCHED_CAUSES 0, .safe (fun x => { x with latchedHigh := 0 }),
    when (s.dev == Dev.HOLD) (all [leaveHold, settle])])

/-- SAFETY_ACK (R400). -/
def execSafetyAck (ses v : Nat) (s : State) : Host.Outcome State Fault Refusal :=
  need (Wf.safetyAck ses v) s <| guarded ses Obj.SAFETY_ACK v .saf (v == 1) safetyAck

/-- A write of `v` to `OUTPUTS_ENABLE`: anything but 1 in OPERATIONAL with both inputs closed is refused. -/
def outputsEnable (v : Nat) (s : State) : WriteRes :=
  if v = 1 ∧ s.dev = Dev.OP ∧ s.get Obj.IN_STATE = 3 then
    .ok (when (s.get Obj.OUT_STATE != 3) (all [.put Obj.OUT_STATE 3, .emit (.pin .outA true), .emit (.pin .outB true)]))
  else .no Ab.STATE_FORBIDS

/-- OUTPUTS_ENABLE (R400). -/
def execOutputsEnable (ses v : Nat) (s : State) : Host.Outcome State Fault Refusal :=
  need (Wf.outputsEnable ses v) s <| guarded ses Obj.OUTPUTS_ENABLE v .saf true (outputsEnable v)

/-- A write of `v` to `SAFE_HOLD_REQUEST`: cause 12 (R398). -/
def safeHoldRequest (v : Nat) (s : State) : WriteRes :=
  .ok (all [
    .put Obj.SAFE_HOLD_REQUEST v,
    if v = 0 then clearCause 12 0
    else if s.causeActive 12 0 && s.get Obj.SAFE_HOLD_REQUEST == v then .skip
    else raiseNow 12 0,
    settle])

/-- SAFE_HOLD_REQUEST. -/
def execSafeHoldRequest (ses v : Nat) (s : State) : Host.Outcome State Fault Refusal :=
  need (Wf.safeHoldRequest ses v) s <| guarded ses Obj.SAFE_HOLD_REQUEST v .saf (decide (v ≤ 2)) (safeHoldRequest v)

/-! ## End-to-end windows and check values (R408 to R410) -/

/-- E2E_WINDOW_END (R398, R408). -/
def execE2eWindowEnd (source : Nat) (s : State) : Host.Outcome State Fault Refusal :=
  need (Wf.e2eWindowEnd source) s <| .read fun s => all [
    when (!s.u.safe.overLimit.contains source) (clearCause 5 source),
    .safe (fun x => { x with
      e2e := Tab.del x.e2e source
      overLimit := x.overLimit.filter (· != source) })]

/-- What unit kinds 1 to 3 visit in rotation, each by the CRC recorded for it (R410): the live coefficient banks, the tiles of the Dictation references by the CHECK of their
tags, the robot models. -/
def State.cvItems (s : State) (kind : Nat) : List Nat := match kind with
  | 1 => (s.chans.filter (fun c => !(s.blob (Obj.COEFFS c)).isEmpty)).map fun c => crc 3 (s.blob (Obj.COEFFS c))
  | 2 => (List.range 256).flatMap fun f => (List.range 8).flatMap fun o =>
      let a := s.get (Obj.GOLDEN_REF f o)
      if a = 0 then [] else (List.range ((((s.furrowEntry f).goldOut[o]?).map (·.2.2)).getD 0)).filterMap fun i =>
        match s.tileOf (s.get (Obj.F_CONTEXT f)) (a + 65536 * i) with
        | .inl t => (Tab.get? s.u.mem.tiles t).map fun x => ofLe (x.tag.drop 28)
        | .inr _ => none
  | 3 => ((List.range 4).filter (fun n => s.model n ≠ [])).map fun n => crc 3 (s.model n)
  | _ => []

/-- What unit `n`'s run is compared with: what is expected, the CRC recorded for the item whose turn it is, or that of a program image; none where there is nothing to
visit. -/
def State.cvWant (s : State) (n : Nat) (image : Option Nat) : Option Nat :=
  let items := s.cvItems (s.get (Obj.CV_KIND n))
  match s.get (Obj.CV_KIND n) with
  | 0 => some (s.get (Obj.CV_EXPECTED n) % 2 ^ (crcAlg (s.get (Obj.CV_ALGORITHM n))).w)
  | 4 => image
  | _ => items[Tab.at s.u.safe.visit n 0 % max 1 items.length]?

/-- Check-value unit `n` runs once: over `data`, what it reads of its target. -/
def cvRun (n : Nat) (data : List Byte) (image : Option Nat) : Act := .read fun s =>
  let r := crc (s.get (Obj.CV_ALGORITHM n)) data
  if s.get (Obj.CV_KIND n) = 0 ∧ data.length ≠ s.get (Obj.CV_LENGTH n) then .skip
  else match s.cvWant n image with
    | none => .skip
    | some w => all [
        .safe (fun x => { x with visit := Tab.upd x.visit n 0 (· + 1) }),
        .put (Obj.CV_RESULT n) r, .count 64 (Obj.CV_RUNS n) 1,
        if r = w then clearCause 14 n
        else all [.count 32 (Obj.CV_MISMATCHES n) 1, raiseCause 14 n, settle]]

/-- CHECK_UNIT_RUN (R410): domain 78 is powered from PRE-OPERATIONAL. -/
def execCheckUnitRun (n : Nat) (data : List Byte) (image : Option Nat) (s : State) : Host.Outcome State Fault Refusal :=
  need (Wf.checkUnitRun n data image) s <| .read fun s =>
    when (decide (Dev.PREOP ≤ s.dev) && s.get (Obj.DOM_STATE 78) == 2 && s.get (Obj.CV_PERIOD_MS n) != 0) (cvRun n data image)

/-- A write to `CV_RUN`. -/
def cvRunWrite (n : Nat) (data : List Byte) (image : Option Nat) (_s : State) : WriteRes := .ok (all [needDomain 78, cvRun n data image])

/-- CV_RUN. -/
def execCvRun (ses n v : Nat) (data : List Byte) (image : Option Nat) (s : State) : Host.Outcome State Fault Refusal :=
  need (Wf.cvRun ses n v data image) s <| guarded ses (Obj.CV_RUN n) v .saf (v == 1) (cvRunWrite n data image)

/-! ## The Quiz (R411 to R413) -/

/-- The instance of cause 7 for checker `c`; the furrows' instances lie from 256 on. -/
def checkerInst (c : Nat) : Nat := c

/-- When the diagnostic interval of checker `c` expires (R413). -/
def State.quizDue (s : State) (c : Nat) : Nat := s.get (Obj.LAST_PASS_TIME c) + s.get (Obj.DIAG_INTERVAL_MS c) * 1000000

/-- QUIZ_SLICE_START (R411, R412): of the checker whose interval expires soonest; none while a core is resynchronised (R396). A field-side slice uses `unit`, an engine of a
field that is granted to no job. -/
def execQuizSliceStart (checker slice : Nat) (taskReady : Bool) (unit : Option (Nat × Nat)) (s : State) : Host.Outcome State Fault Refusal :=
  need (Wf.quizSliceStart checker slice taskReady unit) s <| .read fun s =>
    let granted : Bool := unit.any fun u => !(s.freeEngines u.1).contains u.2
    if s.u.safe.resync.isSome ∨ s.u.safe.slice.isSome ∨ s.get (Obj.SLICES_PER_PASS checker) ≤ slice ∨ granted
      ∨ ¬ (List.range 16).all (fun c => decide (s.quizDue checker ≤ s.quizDue c)) then .skip
    else if taskReady then .count 32 (Obj.SLICES_DEFERRED checker) 1
    else .safe fun x => { x with slice := some (checker, slice), sliceUnit := unit }

/-- A pass of checker `c` is complete: its interval is met, and what its misses raised ends. -/
def passComplete (c : Nat) : Act := .read fun s => all [
  .safe (fun x => { x with quiz := Tab.set x.quiz c [] }),
  .count 32 (Obj.QUIZ_PASSES c) 1, .put (Obj.LAST_PASS_TIME c) s.ns,
  .modify Obj.LATENT_MASK (fun m => clearBit m c),
  clearCause 7 (checkerInst c), clearCause 8 c]

/-- QUIZ_SLICE_DONE (R413). -/
def execQuizSliceDone (flagged : Bool) (sensor : Nat) (s : State) : Host.Outcome State Fault Refusal :=
  need (Wf.quizSliceDone flagged sensor) s <| .read fun s => match s.u.safe.slice with
    | none => .skip
    | some (c, k) =>
      let passed := Tab.at s.u.safe.quiz c []
      all [
        .safe (fun x => { x with slice := none, sliceUnit := none }),
        if flagged then
          let now := k :: passed.filter (· != k)
          if s.get (Obj.SLICES_PER_PASS c) ≤ now.length then passComplete c
          else .safe fun x => { x with quiz := Tab.set x.quiz c now }
        else all [
          .safe (fun x => { x with quiz := Tab.set x.quiz c (passed.filter (· != k)) }),
          when (c == 10) (sensorFails sensor),
          when (!s.causeActive 8 c) (.count 32 (Obj.QUIZ_FAILS c) 1),
          raiseCause 8 c, settle]]

/-- DIAG_INTERVAL_EXPIRY (R413): the interval runs from the completion of a pass. -/
def execDiagIntervalExpiry (checker : Nat) (s : State) : Host.Outcome State Fault Refusal :=
  need (Wf.diagIntervalExpiry checker) s <| .read fun s => when (decide (s.quizDue checker ≤ s.ns)) <| all [
    .modify Obj.LATENT_MASK (fun m => setBit m checker),
    when (!s.causeActive 7 (checkerInst checker)) (.count 32 (Obj.INTERVAL_OVERRUNS checker) 1),
    raiseCause 7 (checkerInst checker), settle]

end Sys2Proof.Machine
end

