-- ==== Sys2Proof/Machine/Boot.lean ====
section
/-! DEFINITION. The commands of power-up, resets, the boot chain and the device states (R436 to R448, R452, R508 to R511, R538, R539). -/

namespace Sys2Proof.Machine
open Act

/-! ## Power (R436, R508 to R511, R539) -/

/-- The sensors that a restart after a junction shutdown waits for all read below 95 °C (R539). -/
def State.coolRestart (s : State) : Bool := [92, 93, 127].all (fun i => decide (Tab.at s.u.pow.temps i 250 < 950))

/-- The module releases PWR_GOOD. -/
def releasePwrGood : Act := all [
  .emit (.pin .pwrGood true),
  .boot (fun b => { b with pwrGood := true, shut := none, rearmed := false }),
  leaveStandby]

/-- POWER_ON (R508): the input rises into its range with the straps at `addr` and `refclk`. -/
def execPowerOn (addr : Nat) (refclk : Bool) (mv : Nat) (s : State) : Host.Outcome State Fault Refusal :=
  need (Wf.powerOn addr refclk mv) s <|
    if mv ≤ 38000 ∨ 60000 < mv then .skip
    else all [
      wipeAll true, .newLog, .setTime 0,
      .put Obj.DEVICE_STATE Dev.STANDBY,
      .put Obj.PMBUS_ADDRESS (0x40 + addr), .put Obj.REFCLK_SEL_LEVEL (if refclk then 1 else 0),
      .put Obj.INPUT_MV mv, .put Obj.BLADE_MV mv, .put Obj.SENSE_VALID 1,
      .boot (fun b => { b with powered := true, pwrGood := false, cause := 0, rearmed := true }),
      .read fun s => when (s.u.boot.shut != some 0 || s.coolRestart) releasePwrGood]

/-- POWER_LOSS (R511): the hold-up ends; what waits for the flash ring has been written, and all that is not in flash is lost. -/
def execPowerLoss (s : State) : Host.Outcome State Fault Refusal :=
  need Wf.powerLoss s <| .read fun s =>
    when s.u.boot.powered (all [
      enterStandby (if s.u.boot.shut = some 0 then some 0 else none) 0,
      wipeAll true,
      .put Obj.DEVICE_STATE Dev.STANDBY,
      .boot (fun b => { b with powered := false })])

/-- POWER_GOOD_RISE (R508, R509). -/
def execPowerGoodRise (s : State) : Host.Outcome State Fault Refusal :=
  need Wf.powerGoodRise s <| all [.boot (fun b => { b with carrierLow := false }), leaveStandby]

/-- PWR_GOOD_DRIVEN (R509): the carrier drives the pin low; in STANDBY that holds the module there, after it nothing but an event follows. -/
def execPwrGoodDriven (s : State) : Host.Outcome State Fault Refusal :=
  need Wf.pwrGoodDriven s <| .read fun s =>
    if s.dev = Dev.STANDBY then .boot (fun b => { b with carrierLow := true })
    else logEv Ev.PWR_GOOD_DRIVEN 0xFFFF 0 0

/-- SHUTDOWN_RESTART (R539): the input has lain in its range for 100 ms after an input-voltage shutdown, or RESET_N has been held and released, and the sensors are
cool, after a junction shutdown. -/
def execShutdownRestart (mv : Nat) (s : State) : Host.Outcome State Fault Refusal :=
  need (Wf.shutdownRestart mv) s <| .read fun s =>
    let may : Bool := match s.u.boot.shut with
      | some 1 => decide (38000 ≤ mv ∧ mv ≤ 60000)
      | some _ => s.u.boot.rearmed && s.coolRestart
      | none => false
    when (s.dev == Dev.STANDBY && s.u.boot.powered && may) (all [.put Obj.INPUT_MV mv, releasePwrGood])

/-- JUNCTION_SHUTDOWN (R436): sensor `sensor` reads `temp` tenths of a degree, beyond the shutdown limit; cause 11 is raised as the device goes to STANDBY. -/
def execJunctionShutdown (sensor : Nat) (temp : Int) (s : State) : Host.Outcome State Fault Refusal :=
  need (Wf.junctionShutdown sensor temp) s <| .read fun s =>
    when (s.dev != Dev.STANDBY && !s.u.pow.failed.contains sensor && decide (1200 ≤ temp)) (all [
      .pow (fun w => { w with temps := Tab.set w.temps sensor temp }),
      logNoted noteThermal Ev.HW_TRIP 2 (ofSigned 64 temp) (s.get Obj.INPUT_MV),
      alertFor 0 128,
      raiseCause 11 2,
      enterStandby (some 0) 4])

/-- INPUT_VOLTAGE_TRIP (R436): the input leaves 38 V to 60 V. -/
def execInputVoltageTrip (mw mv : Nat) (s : State) : Host.Outcome State Fault Refusal :=
  need (Wf.inputVoltageTrip mw mv) s <| .read fun s =>
    when (s.dev != Dev.STANDBY && decide (mv < 38000 ∨ 60000 < mv)) (all [
      .put Obj.INPUT_MV mv, .put Obj.INPUT_MW mw,
      logNoted noteVoltage Ev.HW_TRIP 3 mw mv,
      .count 32 Obj.VOLTAGE_EVENTS 1,
      alertFor (if mv < 38000 then 16 else 128) 0,
      raiseCause 11 3,
      enterStandby (some 1) 4])

/-- RESET_N_PULSE (R445, R510): RESET_N has been low for `ns`; `stays`: and stays low. -/
def execResetNPulse (ns : Nat) (stays : Bool) (s : State) : Host.Outcome State Fault Refusal :=
  need (Wf.resetNPulse ns stays) s <| .read fun s =>
    if ns < 1000 ∧ ¬ stays ∧ ¬ s.u.boot.resetLow then .skip
    else if s.dev = Dev.STANDBY then all [
      .boot (fun b => { b with resetLow := stays, rearmed := b.rearmed || (decide (10000 ≤ ns) && !stays && b.powered) }), holdEnds]
    else if s.resetHeld then all [.boot (fun b => { b with resetLow := stays }), holdEnds]
    else if ns < 10000 then .skip
    else all [beginBoot 1 false, .boot (fun b => { b with resetLow := stays })]

/-! ## The boot chain (R442 to R448, R452) -/

/-- The first 16 bytes of the SHA-384 of a certificate's public key; zeros where it cannot be read (R448). -/
def keyIdOf (cert : List Byte) : List Byte :=
  if cert.length = 272 then (sha384 ((cert.drop 72).take 97)).take 16 else List.replicate 16 0

/-- The attestation certificate of a boot (R449, R455): version 1, role 9, issued by the identity key; what the spec leaves open is free. -/
def attestCert (s : State) (cert : List Byte) : List Byte :=
  [1, 9] ++ s.freeFrom 0 22 ++ sha384 ((cert.drop 72).take 97) ++ [4] ++ s.freeFrom 3 96 ++ [0, 0, 0] ++ s.freeFrom 15 96 ++ [0, 0, 0, 0]

/-- IDENTITY_RECONSTRUCTED (R442, R447, R448): `ok`: one of the four attempts yields the ID of the certificate `cert` in flash, which stands there with its issuers. -/
def execIdentityReconstructed (ok : Bool) (cert : List Byte) (issuers : List (List Byte)) (s : State) : Host.Outcome State Fault Refusal :=
  need (Wf.identityReconstructed ok cert issuers) s <| .read fun s =>
    when (s.booting && !s.u.boot.identity) (all [
      putOct Obj.DEVICE_ID (keyIdOf cert), putOct Obj.IDENTITY_CERT cert,
      if ok then all [
        .boot (fun b => { b with identity := true, issuers := issuers }),
        putOct Obj.ATTEST_CERT (attestCert s cert), .draw 27,
        .put (Obj.DOM_STATE 70) 2]
      else all [enterRecovery 0, settle]])

/-- A slot of a kind as the ROM finds it: what the part wrote there, or else what the command brings; `sound` says whether signature, chain and digest verify now. -/
def State.slotAt (s : State) (kind n : Nat) (x : Option Img) : Option Img :=
  match Tab.get? s.u.boot.slots (kind * 2 + n) with
  | some y => some { y with
      sound := y.sound && (match x with
        | some z => z.sound
        | none => true) }
  | none => x

/-- The state bits of a slot after the ROM looked at it: 0 empty, 1 valid, 2 still on trial, 3 failed. -/
def slotBits (old : Nat) (x : Option Img) (ok : Bool) : Nat :=
  if x.isNone then 0 else if !ok then 3 else if old = 2 then 2 else 1

/-- What a kind's image does once it is taken (R442, R451, R452). -/
def takeImage (kind : Nat) (x : Img) (trial : Bool) : Act :=
  match kind with
  | 1 =>
    let key := x.payload.take 97
    if key.all (· == 0) then all [.put Obj.OWNER_STATE 0, putOct Obj.OWNER_KEY_ID (List.replicate 48 0)]
    else all [.put Obj.OWNER_STATE 1, putOct Obj.OWNER_KEY_ID (sha384 key)]
  | 2 => each [66, 67, 68, 69] (fun d => .put (Obj.DOM_STATE d) 2)
  | 3 => all [
      .put Obj.POLICY_STATE 1, .boot (fun b => { b with firstPolicy := x.digest }),
      each [71, 72] (fun d => .put (Obj.DOM_STATE d) 2),
      when trial (bootBits 256)]
  | _ => all [.boot (fun b => { b with settingsDigest := x.digest }), loadSettings x]

/-- IMAGE_VERIFY (R452): the ROM verifies the slots of the next kind; `s0` and `s1` are what the slots hold, `fails`: the slot it takes fails during boot. -/
def execImageVerify (kind : Nat) (s0 s1 : Option Img) (fails : Bool) (s : State) : Host.Outcome State Fault Refusal :=
  need (Wf.imageVerify kind s0 s1 fails) s <| .read fun s =>
    let a := s.slotAt kind 0 s0
    let b := s.slotAt kind 1 s1
    let first := s.chooseSlot kind a b
    let pick := if fails then first.bind (fun n => if s.eligible kind (if n = 0 then b else a) then some (1 - n) else none) else first
    let failed (n : Nat) : Bool := fails && first == some n
    let old := s.get (Obj.IMG_SLOT_STATE (kind - 1))
    let bits := slotBits (old % 4) a (s.eligible kind a && !failed 0) + 4 * slotBits (old / 4 % 4) b (s.eligible kind b && !failed 1)
    when (s.booting && s.u.boot.identity && s.u.boot.kinds.length + 1 == kind) (all [
      .boot (fun x => { x with
        kinds := x.kinds ++ [kind]
        slots := [(0, a), (1, b)].foldl (fun t e => match e.2 with
          | some y => Tab.set t (kind * 2 + e.1) y
          | none => t) x.slots }),
      .put (Obj.IMG_VERSION_0 (kind - 1)) ((a.map (·.version)).getD 0), .put (Obj.IMG_VERSION_1 (kind - 1)) ((b.map (·.version)).getD 0),
      .put (Obj.IMG_SLOT_STATE (kind - 1)) bits,
      when (fails && first.isSome) (bootBits 512),
      match pick.bind (fun n => (if n = 0 then a else b).map (fun x => (n, x))) with
        | some (n, x) => all [
            .put (Obj.IMG_ACTIVE_SLOT (kind - 1)) n, putOct (Obj.IMG_RUNNING_DIGEST (kind - 1)) x.digest,
            takeImage kind x (bits / 4 ^ n % 4 == 2)]
        | none =>
          if kind = 4 then all [bootBits 16, .read fun s => logEv Ev.SETTINGS_DEFAULTS 0xFFFF 0 (s.get Obj.BOOT_STATUS)]
          else all [enterRecovery kind, settle]])

/-- LPDDR_TRAINING_DONE (R184, R443): all channels have trained in `ns` but those of `failed`; the rows of `repaired` (channel, row, bank) can be repaired in this INIT, each
while its bank has its one repair left (R184). -/
def execLpddrTrainingDone (ns : Nat) (failed : List Nat) (repaired : List (Nat × Nat × Nat)) (s : State) : Host.Outcome State Fault Refusal :=
  need (Wf.lpddrTrainingDone ns failed repaired) s <| .read fun s =>
    let b := s.u.boot
    let bad := failed.eraseDups.filter (fun c => !s.u.mem.retiredOrder.contains c)
    let rows := repaired.eraseDups.filter (fun r => s.u.mem.marked.contains (r.1, r.2.1))
    when (s.booting && s.get (Obj.DOM_STATE 66) == 2 && !b.trained && !(b.warm && b.everTrained)) (all [
      .boot (fun x => { x with trained := true, everTrained := true, badChannels := bad }),
      .put Obj.T_TRAINING_NS ns,
      when (!bad.isEmpty) (bootBits 32),
      each rows (fun r => .read fun s => when (!s.u.mem.repaired.contains (r.1, r.2.2)) (all [
        .put (Obj.CH_ROWS_REPAIRED r.1) (s.get (Obj.CH_ROWS_REPAIRED r.1) + 1),
        .modify (Obj.CH_ROWS_MARKED r.1) (· - 1),
        .mem (fun m => { m with
          marked := m.marked.filter (· != (r.1, r.2.1)), repaired := (r.1, r.2.2) :: m.repaired
          badSlots := m.badSlots.filter (fun k => !m.rowSlots.contains (k, r.1, r.2.1) || m.rowSlots.any (fun e => e.1 == k && decide ((e.2.1, e.2.2) ≠ (r.1, r.2.1))))
          rowSlots := m.rowSlots.filter (fun e => decide ((e.2.1, e.2.2) ≠ (r.1, r.2.1))) })]))])

/-- The roles that the island's self-test gives the cores: three active ones as far as there are, a reserve; those of `bad` are retired (R394, R397). -/
def coreRoles (bad : List Nat) : Act :=
  let ok := (List.range 4).filter (fun k => !bad.contains k)
  all [
    each (List.range 4) (fun k => putRole k (if bad.contains k then 3 else if (ok.take 3).contains k then 0 else 1)),
    .put Obj.RESERVE_LEFT (if ok.length = 4 then 1 else 0),
    when (decide (ok.length < 3)) (all [
      bootBits 64, .put Obj.VOTE_MODE 2,
      .read fun s => logEv Ev.TWO_OF_TWO (bad.getLastD 0) (s.get Obj.CORE_ROLES) 0])]

/-- INIT_COMPLETE (R440, R443): boot chain, training and the island's self-test are complete; the cores of `bad` failed it. -/
def execInitComplete (bad : List Nat) (s : State) : Host.Outcome State Fault Refusal :=
  need (Wf.initComplete bad) s <| .read fun s =>
    let b := s.u.boot
    when (s.booting && b.kinds.length == 4 && (b.trained || (b.warm && b.everTrained))) (all [coreRoles bad, enterPreop, settle])

/-- AUTO_OPERATIONAL (R538). -/
def execAutoOperational (s : State) : Host.Outcome State Fault Refusal :=
  need Wf.autoOperational s <| .read fun s =>
    when (s.dev == Dev.PREOP && s.u.boot.auto && s.get Obj.AUTO_OPERATIONAL != 0 && s.get Obj.T_FIELDS_NS != 0 && !s.blocking && s.get Obj.LATCHED_CAUSES == 0)
      (all [enterOp, settle])

/-! ## DEVICE_COMMAND (R440, R441, R445) -/

/-- A write of `v` to `DEVICE_COMMAND`. -/
def deviceCommand (v : Nat) (s : State) : WriteRes :=
  match v with
  | 1 => if s.dev = Dev.PREOP ∧ ¬ s.blocking ∧ s.get Obj.LATCHED_CAUSES = 0 then .ok (all [enterOp, settle]) else .no Ab.STATE_FORBIDS
  | 2 => if s.dev = Dev.OP then .ok (all [standDown, setDev Dev.PREOP, settle]) else .no Ab.STATE_FORBIDS
  | 3 => if s.dev = Dev.PREOP then .ok (all [enterService, settle])
    else if s.dev = Dev.HOLD then .ok (all [standDown, enterService, settle])
    else .no Ab.STATE_FORBIDS
  | 4 => if s.dev = Dev.SERVICE ∧ s.get Obj.DEBUG_SINCE_BOOT < 3 ∧ ¬ s.u.boot.recovery then
      .ok (all [endDebug, .put (Obj.DOM_STATE 79) 3, setDev Dev.PREOP, settle])
    else .no Ab.STATE_FORBIDS
  | 5 => .ok (beginBoot 3 true)
  | _ => .ok (beginBoot 2 false)

/-- The level that a value of `DEVICE_COMMAND` asks for. -/
def commandLevel (v : Nat) : Lvl := if v ≤ 2 then .sup else .svc

/-- DEVICE_COMMAND with value `v` from session `ses`. -/
def commandWrite (ses v : Nat) : Act := guarded ses Obj.DEVICE_COMMAND v (commandLevel v) (decide (1 ≤ v ∧ v ≤ 6)) (deviceCommand v)

/-- CMD_OPERATIONAL. -/
def execCmdOperational (ses : Nat) (s : State) : Host.Outcome State Fault Refusal := need (Wf.cmdOperational ses) s (commandWrite ses 1)
/-- CMD_PRE_OPERATIONAL. -/
def execCmdPreOperational (ses : Nat) (s : State) : Host.Outcome State Fault Refusal := need (Wf.cmdPreOperational ses) s (commandWrite ses 2)
/-- CMD_SERVICE. -/
def execCmdService (ses : Nat) (s : State) : Host.Outcome State Fault Refusal := need (Wf.cmdService ses) s (commandWrite ses 3)
/-- CMD_LEAVE_SERVICE. -/
def execCmdLeaveService (ses : Nat) (s : State) : Host.Outcome State Fault Refusal := need (Wf.cmdLeaveService ses) s (commandWrite ses 4)
/-- CMD_WARM_RESET. -/
def execCmdWarmReset (ses : Nat) (s : State) : Host.Outcome State Fault Refusal := need (Wf.cmdWarmReset ses) s (commandWrite ses 5)
/-- CMD_COLD_RESET. -/
def execCmdColdReset (ses : Nat) (s : State) : Host.Outcome State Fault Refusal := need (Wf.cmdColdReset ses) s (commandWrite ses 6)

/-- AL_STATE_REQUEST (R488): OP, PREOP from OP and BOOT act as commands 1, 2 and 3 at the level of the CoE session; INIT, SAFEOP and what R440 refuses are
refused with AL status code 0x0011, as is PREOP from another state than itself. -/
def execAlStateRequest (al : Nat) (s : State) : Host.Outcome State Fault Refusal :=
  need (Wf.alStateRequest al) s <| .read fun s =>
    let v := if al = 8 then 1 else if al = 2 ∧ s.dev = Dev.OP then 2 else if al = 3 then 3 else 0
    let r : WriteRes := if v = 0 ∨ ¬ mayWrite (s.level 1) (commandLevel v) ∨ accessCode s 1 Obj.DEVICE_COMMAND v (commandLevel v) ≠ 0 then .no Ab.STATE_FORBIDS
      else deviceCommand v s
    if ¬ s.isOpen 1 ∨ (al = 2 ∧ s.dev = Dev.PREOP) then .skip
    else if r.1 = 0 then r.2
    else all [.count 32 Obj.AL_REFUSED 1, .emit (.frame .alStatus (le 2 0x11))]

end Sys2Proof.Machine
end

