-- ==== Sys2Proof/Machine/Engine.lean ====
section
/-! DEFINITION. The matrix engine and the vector unit: a pass as it ends with its drain (R87 to R128, R247 to R254, R291 to R295), and the clearing of the arithmetic
counts. -/

namespace Sys2Proof.Machine
open Act

/-! ## Steps (R112 to R116, R291, R292) -/

/-- A pass over channels, one filter each, whose rows are channels and whose columns are pixels (R292). -/
def Pass.depthwise (p : Pass) : Bool := match p.harrow with
  | some h => h.depthwise
  | none => false

/-- The steps of a pass, its drain included, and the row-steps its Harrow channels use. -/
def Pass.steps (p : Pass) : Nat × Nat :=
  match p.harrow with
  | none => (termSteps p.a.fmt p.b.fmt p.k + 16, 0)
  | some h =>
    let q := termSteps p.a.fmt p.b.fmt 1
    let pairs := narrowFmt p.a.fmt && narrowFmt p.b.fmt
    let taps := h.kh * h.kw
    if h.depthwise then
      let n := if pairs then ceilDiv taps 2 else taps * q
      (n + 16, min 16 h.channels * n)
    else
      let g := if pairs then 32 else 16
      let rows := (List.range (ceilDiv h.channels g)).foldl (fun a i => a + ceilDiv (min g (h.channels - i * g)) (g / 16)) 0
      (16 * taps * ceilDiv h.channels g * q + 16, 16 * taps * q * rows)

/-! ## Books (R108) -/

/-- The book store takes book `(t, b)` of room `w`, of the 256 it has: whether the pass stalled, and the store after. -/
def useBook (store : List (Nat × Nat × Nat)) (t b w : Nat) : Bool × List (Nat × Nat × Nat) :=
  if store.any (fun e => decide (e.1 = t ∧ e.2.1 = b)) then
    (false, (t, b, w) :: store.filter (fun e => decide (e.1 ≠ t ∨ e.2.1 ≠ b)))
  else
    let kept := store.foldl (fun (acc : List (Nat × Nat × Nat) × Nat) e =>
      if acc.2 + e.2.2 + w ≤ 256 then (acc.1 ++ [e], acc.2 + e.2.2) else (acc.1, 256)) ([], 0)
    (decide (kept.1.length < store.length), (t, b, w) :: kept.1)

/-- Every book of an operand in turn. -/
def useBooks (fmt : Nat) (bs : List (Nat × Nat)) (store : List (Nat × Nat × Nat)) : Nat × List (Nat × Nat × Nat) :=
  bs.foldl (fun acc e =>
    let r := useBook acc.2 e.1 e.2 (if fmt = 0xC then 16 else 1)
    (acc.1 + if r.1 then 1 else 0, r.2)) (0, store)

/-! ## Operands (R101, R113) -/

/-- Element `i` of codes of `w` bits packed from an address on. -/
def State.elementAt (s : State) (base w i : Nat) : Nat := ofLe (s.mread (base + w * i / 8) 5) / 2 ^ (w * i % 8) % 2 ^ w

/-- The format in which an operand's elements arrive. -/
def Operand.arrives (o : Operand) : Nat := match o.quant with
  | some q => q.source
  | none => o.fmt

/-- The rows of an operand. -/
def Operand.rows (o : Operand) : Nat := match o.source with
  | .brought => o.els.length
  | .memory _ _ n => n
  | .window taps => taps.length

/-- Bytes of an operand of `k` terms in a slate or the store. -/
def Operand.bytes (o : Operand) (k : Nat) : Nat := ceilDiv (o.rows * k * fmtBits o.arrives) 8

/-- The codes of an operand's elements, row by row: brought, from memory row-major or column-major, or from the window register, where padding has the code of the zero
point (R290). -/
def State.codes (s : State) (f : Nat) (o : Operand) (k : Nat) : List (List Nat) :=
  let w := fmtBits o.arrives
  match o.source with
  | .brought => o.els
  | .memory col place rows => (List.range rows).map fun r => (List.range k).map fun i =>
      s.elementAt (place.addr f) w (if col then i * rows + r else r * k + i)
  | .window taps => (numbered taps).map fun t => (numbered t.2).map fun e => match e.2 with
      | some i => s.elementAt (lineBase f) w i
      | none => ofSigned w (o.zeroAt t.1 e.1)

/-- The rows of an operand as they reach the multipliers (R101), `i` the number of the free value that scales outside the spec's cases take. -/
def State.prepared (s : State) (f : Nat) (o : Operand) (k i : Nat) : List FedRow :=
  let books := (s.booksOf o).map (s.bookEntries o.fmt)
  (numbered (s.codes f o k)).map fun r => o.prepare books (s.free i 64) r.1 r.2

/-- The least bit weight of an operand (R88). -/
def State.lowOf (s : State) (o : Operand) : Int := lowBitOf o.fmt ((s.booksOf o).map (s.bookEntries o.fmt))

/-- What ends a job that uses an operand's books: one of another module (R158), a lost book tile (R177), or an invalid book (R78). -/
def State.bookFault (s : State) (o : Operand) : Option (Nat × Nat) :=
  if o.fmt ≠ 0xC ∧ o.fmt ≠ 0xD then none
  else if (s.booksOf o).any (fun b => decide (b.1 / 562949953421312 ≠ s.u.boot.moduleNo)) then some (St.CONFIG_INVALID, 0x0403)
  else match (s.booksOf o).findSome? (fun b => s.lossOf (tileNo b.1)) with
    | some f => some f
    | none => if (s.booksOf o).all (fun b => bookValid (s.bookEntries o.fmt b)) then none else some (St.CONFIG_INVALID, 0x0200)

/-- What an operand reads from slates and store. -/
def Operand.reads (o : Operand) (k : Nat) : List (Place × Nat) := match o.source with
  | .memory _ place _ => [(place, o.bytes k)]
  | _ => []

/-- What an operand writes there: the scales that are declared an output (R107). -/
def Operand.writes (o : Operand) (k : Nat) : List (Place × Nat) := match o.quant with
  | some { scalesTo := some place, group := g, block := b, .. } => [(place, o.rows * (if b then ceilDiv k 32 else if g = 0 then 4 else 4 * ceilDiv k g))]
  | _ => []

/-- The scales of an operand, where they are declared an output. -/
def writeScales (f : Nat) (o : Operand) (rows : List FedRow) : Act := match o.quant with
  | some { scalesTo := some place, .. } => .poke (place.addr f) (rows.flatMap FedRow.scaleBytes)
  | _ => .skip

/-! ## The array -/

/-- The output tile of a pass: `rows` by `cols` elements, the value of each before its final rounding (R97), its accumulator, the roundings of its wide sum. Partials of
other passes join as a wide sum (R89, R93). -/
structure OutTile where
  rows : Nat
  cols : Nat
  els : List (Num × Accum × Nat)
  deriving DecidableEq, Repr

/-- The output tile of a pass over prepared rows, with the accumulators it found and the images of the partials it is combined with. -/
def Pass.outTile (p : Pass) (anchor : Int) (old : List Accum) (as bs : List FedRow) (partials : List (List Num)) : OutTile :=
  let rows := if p.depthwise then bs.length else as.length
  let cols := if p.depthwise then as.length / max 1 bs.length else bs.length
  { rows := rows, cols := cols
    els := (List.range (rows * cols)).map fun e =>
      let i := e / cols
      let j := e % cols
      let start : Accum := if p.cont then old.getD (16 * i + j) { anchor := anchor } else { anchor := anchor }
      let ia := if p.depthwise then e else i
      let ib := if p.depthwise then i else j
      let r := passElement ⟨p.a.fmt, p.b.fmt, anchor⟩ start (as.getD ia .none) (bs.getD ib .none)
      let v := ((r.1.mul (scaleAt p.a.rowScale ia)).mul (scaleAt p.b.rowScale ib)).plusZero
      if partials.isEmpty then (v, r.2)
      else
        let w := wideSum (partials.map (fun t => t.getD (16 * i + j) .zero) ++ [v])
        (w.1, r.2.1, r.2.2 + w.2) }

/-- What cell (i, j) of the array has in an output tile. -/
def OutTile.cell {α : Type} (t : OutTile) (d : α) (f : Num × Accum × Nat → α) (e : Nat) : α :=
  if e / 16 < t.rows ∧ e % 16 < t.cols then match t.els[e / 16 * t.cols + e % 16]? with
    | some x => f x
    | none => d
  else d

/-- The bytes of the drain of an output tile, and its counts: elements of a format in row order without gaps (log entry 159), or 256 wide-sum images (R117). -/
def Drain.image (d : Drain) (t : OutTile) (free : Nat → Nat) : List Byte × Counts := match d with
  | .format f sat _ _ =>
    let enc := (numbered t.els).map fun e => encodeElt f sat (free e.1) e.2.1
    (packBits (fmtBits f) (enc.map (·.1)), countsOf (enc.map (·.2)))
  | .wide _ _ =>
    let w := (List.range 256).map fun e => round64 (t.cell .zero (·.1) e)
    ((numbered w).flatMap (fun e => wideBytes (free e.1) e.2.1), { inexact := w.foldl (fun a e => a + e.2) 0 })
  | .resident => ([], {})

/-- Where a drain goes, and how many bytes of an output tile of `n` elements. -/
def Pass.drainsTo (p : Pass) (n : Nat) : List (Place × Nat) := match p.drain with
  | .format f _ inStore offset => [(⟨inStore, p.engine, offset⟩, ceilDiv (n * fmtBits f) 8)]
  | .wide inStore offset => [(⟨inStore, p.engine, offset⟩, 4096)]
  | .resident => []

/-- The elements of a pass's output tile. -/
def Pass.outputs (p : Pass) : Nat := if p.depthwise then p.a.rows else p.a.rows * p.b.rows

/-- All that the array reads and writes in slates and store. -/
def Pass.uses (p : Pass) : List (Place × Nat) :=
  p.a.reads p.k ++ p.b.reads p.k ++ p.a.writes p.k ++ p.b.writes p.k ++ p.partials.map (·, 4096) ++ p.drainsTo p.outputs

/-- The array carries out pass `p` of job `j`. With no rows or no columns there is no pass (R116, log entry 160). -/
def arrayRuns (j : Nat) (p : Pass) : Act := .read fun s =>
  let anchor := s.lowOf p.a + s.lowOf p.b
  let as := s.prepared p.field p.a p.k 0
  let bs := s.prepared p.field p.b p.k 1
  let partials := p.partials.map fun a => (List.range 256).map fun e => wideNum (s.mread (a.addr p.field + 16 * e) 16)
  let t := p.outTile anchor (Tab.at (s.fieldRec p.field).acc p.engine []) as bs partials
  let accs := (List.range 256).map (t.cell { anchor := anchor } (·.2.1))
  let u1 := useBooks p.a.fmt (s.booksOf p.a) (s.fieldRec p.field).books
  let u2 := useBooks p.b.fmt (s.booksOf p.b) u1.2
  let st := p.steps
  let image := p.drain.image t (fun i => s.free (2 + i) 64)
  if p.outputs = 0 then .skip
  else all [
    .count 64 (Obj.ARRAY_STEPS p.field) st.1,
    match p.harrow with
      | some h => all [.count 64 Obj.HARROW_PASSES 1, .count 64 Obj.HARROW_STALLS h.stalls, .count 64 Obj.ROW_STEPS_USED st.2,
          .count 64 Obj.ROW_STEPS_OFFERED (16 * st.1)]
      | none => .skip,
    .field p.field (fun r => { r with acc := Tab.set r.acc p.engine accs, books := u2.2 }),
    writeScales p.field p.a as, writeScales p.field p.b bs,
    each (p.drainsTo p.outputs) (fun d => .poke (d.1.addr p.field) image.1),
    countArith (countsOf (image.2 :: { inexact := t.els.foldl (fun a e => a + e.2.2) 0, stalls := u1.1 + u2.1 } :: (as ++ bs).map (·.counts))),
    .draw 258,
    when (p.drain == .resident && !accs.all Accum.fits) (endJob j St.STATE_LOST 0x0713 0 0)]

/-! ## The vector unit (R126 to R128, R295) -/

/-- The elements of an operand of the vector unit. -/
def State.vecValues (s : State) (f rows n : Nat) : VecSrc → List Num
  | .memory place fmt => (List.range (rows * n)).map fun i => decodeElt fmt [] (s.elementAt (place.addr f) (fmtBits fmt) i)
  | .drained e =>
    let acc := Tab.at (s.fieldRec f).acc e []
    (List.range (rows * n)).map fun i => match acc[16 * (i / n) + i % n]? with
      | some a => a.value
      | none => .zero
  | .codes fmt cs => cs.map (decodeElt fmt [])

/-- The codes of an integer operand of width `w`. -/
def State.vecCodes (s : State) (f rows n w : Nat) : VecSrc → List Nat
  | .memory place _ => (List.range (rows * n)).map fun i => s.elementAt (place.addr f) w i
  | .drained _ => []
  | .codes _ cs => cs

/-- The results of work of the vector unit, what it counts, and m and l of its rows (R128). -/
def State.vecResults (s : State) (f : Nat) (o : VecOp) (free : Nat → Nat) : List Num × Counts × List (Num × Num) :=
  match o.fn with
  | .lane g =>
    let xs := o.srcs.map (s.vecValues f o.rows o.n)
    ((List.range (o.rows * o.n)).map (fun i => g.run (free i) (xs.map (·.getD i .zero))), {}, [])
  | .int g w =>
    let xs := o.srcs.map (s.vecCodes f o.rows o.n w)
    let rs := (List.range (o.rows * o.n)).map fun i => g.run w o.sat (free i) ((xs.getD 0 []).getD i 0) ((xs.getD 1 []).getD i 0)
    (rs.map (fun r => num (toSigned w r.1)), countsOf (rs.map (·.2)), [])
  | .row g eps =>
    let xs := o.srcs.map (s.vecValues f o.rows o.n)
    let rows := (List.range o.rows).map fun r => ((xs.getD 0 []).drop (r * o.n)).take o.n
    let gain := (xs.getD 1 []).take o.n
    let bias := (xs.getD 2 []).take o.n
    let fr (r i : Nat) : Nat := free (r * (o.n + 2) + i)
    let one (r : Nat) (x : List Num) : List Num × Nat × List (Num × Num) := match g with
      | .sum => let v := sumRow x; ([v.1], v.2, [])
      | .max => ([bestOf true x], 0, [])
      | .min => ([bestOf false x], 0, [])
      | .argmax => ([num (Int.ofNat (bestAt true 0 x (0, x.headD .zero)))], 0, [])
      | .argmin => ([num (Int.ofNat (bestAt false 0 x (0, x.headD .zero)))], 0, [])
      | .softmax => let v := softmaxRow (fr r) x; (v.1, 0, v.2.toList)
      | .rmsNorm => (normRow false (fp eps) gain bias (fr r) x, 0, [])
      | .layerNorm => (normRow true (fp eps) gain bias (fr r) x, 0, [])
    let rs := (numbered rows).map fun r => one r.1 r.2
    (rs.flatMap (·.1), { inexact := rs.foldl (fun a r => a + r.2.1) 0 }, rs.flatMap (·.2.2))
  | .pool mode fmt pad windows =>
    let value (c : Nat) : Num := decodeElt fmt [] c
    let rs := windows.map fun w => mode.window (value pad) (w.map (·.map fun i => value (s.elementAt (lineBase f) (fmtBits fmt) i)))
    (rs.map (·.1), { inexact := rs.foldl (fun a r => a + r.2) 0 }, [])

/-- How many elements work of the vector unit writes. -/
def VecOp.count (o : VecOp) : Nat := match o.fn with
  | .lane _ | .int _ _ => o.rows * o.n
  | .row g _ => if o.n = 0 then 0 else match g with
    | .softmax | .rmsNorm | .layerNorm => o.rows * o.n
    | _ => o.rows
  | .pool _ _ _ ws => ws.length

/-- What work of the vector unit reads and writes in slates and store. -/
def VecOp.uses (o : VecOp) : List (Place × Nat) :=
  o.srcs.filterMap (fun x => match x with
    | .memory place fmt => some (place, ceilDiv (o.rows * o.n * fmtBits fmt) 8)
    | _ => none) ++ [(o.dest, ceilDiv (o.count * fmtBits o.fmt) 8)] ++ (match o.statsTo with
      | some place => [(place, if o.n = 0 then 0 else 8 * o.rows)]
      | none => [])

/-- The vector unit carries out work on a field: the results are converted to the output format (R83 to R85) and written, with m and l of each row where they are asked
for. A row of no elements writes nothing (R128, R41). -/
def vecRuns (f : Nat) (o : VecOp) : Act := .read fun s =>
  let n := o.rows * (o.n + 2) + o.count
  let r := s.vecResults f o (s.free · 64)
  let enc := (numbered (r.1.take o.count)).map fun e => encodeElt o.fmt o.sat (s.free (n + e.1) 64) e.2
  all [
    .poke (o.dest.addr f) (packBits (fmtBits o.fmt) (enc.map (·.1))),
    match o.statsTo with
      | some place => .poke (place.addr f) (r.2.2.flatMap (fun e => le 4 (toFp32 0 e.1) ++ le 4 (toFp32 0 e.2)))
      | none => .skip,
    countArith (countsOf (r.2.1 :: enc.map (·.2))),
    match o.fn with
      | .pool _ _ _ ws => .count 64 Obj.POOL_OUTPUTS ws.length
      | _ => .skip,
    .draw (n + o.count)]

/-! ## Attention (R247, R248, R254) -/

/-- A page prepared for its rows. -/
def State.pageRows (s : State) (f d : Nat) (p : AttPage) : PageRows :=
  { first := p.first, kFmt := p.k.fmt, kLow := s.lowOf p.k, vFmt := p.v.fmt, vLow := s.lowOf p.v
    k := s.prepared f p.k d 0, v := s.prepared f p.v d 1, kScale := p.k.rowScale, vToken := p.vToken, vChannel := p.vChannel }

/-- The latched epoch and length of a batch row's sequence, as job `j` walks it (R255). -/
def State.latched (s : State) (j c : Nat) (r : LenRow) : Nat × Nat :=
  match s.u.seq.walks.find? (fun w => w.job == j && w.key == c * 65536 + r.seq) with
  | some w => (w.epoch, w.len)
  | none => (r.epoch, r.len)

/-- The query rows of attention work that produce work (R246): the number of each among the rows, and the row prepared. -/
def State.queryRows (s : State) (j c f : Nat) (a : AttDecl) (w : AttWork) : List (Nat × QueryRow) :=
  let rows := s.prepared f w.q a.d 2
  (numbered w.tokens).filterMap fun t =>
    let len := (s.latched j c t.2.1).2
    if t.2.1.works len then
      let r := a.reach t.2.1 len t.2.2
      some (t.1, ⟨w.q.fmt, s.lowOf w.q, rows.getD t.1 .none, scaleAt w.q.rowScale t.1, r.1, r.2⟩)
    else none

/-- The bytes of a row of elements in a format, its counts, from free value `i` on. -/
def rowBytes (fmt : Nat) (sat : Bool) (free : Nat → Nat) (xs : List Num) : List Byte × Counts :=
  let enc := (numbered xs).map fun e => encodeElt fmt sat (free e.1) e.2
  (packBits (fmtBits fmt) (enc.map (·.1)), countsOf (enc.map (·.2)))

/-- The bytes of a row of `d` elements of a format. -/
def rowSize (fmt d : Nat) : Nat := ceilDiv (d * fmtBits fmt) 8

/-- The output, the statistics and the headers of forward work. -/
def attForward (j c f : Nat) (a : AttDecl) (w : AttWork) : Act := .read fun s =>
  let pages := w.pages.map (s.pageRows f a.d)
  let keys := pages.foldl (fun n p => n + p.k.length) 0
  let stride := keys + a.d + 1
  let fr (i n : Nat) : Nat := s.free (3 + i * stride + n) 64
  let rows := (s.queryRows j c f a w).map fun q =>
    let x := attRow a (fr q.1) q.2 pages
    (q.1, x, rowBytes a.outFmt a.sat (fun i => fr q.1 (keys + 1 + i)) x.output)
  all [
    each rows (fun r => all [
      .poke (w.outTo.addr f + r.1 * rowSize a.outFmt a.d) r.2.2.1,
      match w.statsTo with
        | some place =>
          let ml := r.2.1.stats a (fr r.1 keys)
          .poke (place.addr f + 8 * r.1) (le 4 ml.1 ++ le 4 ml.2)
        | none => .skip]),
    match w.headerTo with
      | some place => .poke (place.addr f) ((w.tokens.map (·.1)).eraseDups.flatMap fun r =>
          let e := s.latched j c r
          r.header e.1 e.2)
      | none => .skip,
    countArith (countsOf (rows.flatMap fun r => [{ inexact := r.2.1.inexact }, r.2.2.2])),
    .draw (3 + w.tokens.length * stride)]

/-- The gradients of backward work: dQ of its rows; dK and dV of its pages, summed with the partial sums that are there, as wide sums or rounded once. -/
def attBackward (j c f : Nat) (a : AttDecl) (w : AttWork) (b : AttBack) : Act := .read fun s =>
  let pages := w.pages.map (s.pageRows f a.d)
  let tokens := pages.foldl (fun n p => n + p.k.length) 0
  let longest := pages.foldl (fun n p => max n p.k.length) 0
  let values (o : Operand) : List (List Num) := (s.prepared f o a.d 3).map (·.xs)
  let dos := values b.dOut
  let outs := values b.out
  let n := w.tokens.length
  let rows := (s.queryRows j c f a w).map fun q =>
    let ml := b.stats.getD q.1 (0, 0)
    (q.1, (⟨q.2, dos.getD q.1 [], rowD (dos.getD q.1 []) (outs.getD q.1 []), fp ml.1, exp32 (s.free (4 + q.1) 64) (sub32 (fp ml.1) (fp ml.2))⟩ : BackRow))
  let base := 4 + n
  let g := gradients a (rows.map (·.2)) pages (fun i => s.free (base + i) 64)
  let after := base + n * pages.length * longest
  let partials := match b.partials with
    | some place => (List.range (2 * tokens * a.d)).map fun i => wideNum (s.mread (place.addr f + 16 * i) 16)
    | none => []
  let sums := (numbered ((g.2.1.zip g.2.2).flatMap fun p => p.1 ++ p.2)).flatMap fun t => (numbered t.2).map fun e =>
    match partials[t.1 * a.d + e.1]? with
    | some x => wideAdd (round64 x) (round64 e.2)
    | none => round64 e.2
  let dq := (numbered (rows.zip g.1)).map fun r => (r.2.1.1, rowBytes a.gradFmt a.sat (fun i => s.free (after + r.1 * a.d + i) 64) r.2.2)
  let rest := after + n * a.d
  let dkv := if b.final then rowBytes a.gradFmt a.sat (fun i => s.free (rest + i) 64) (sums.map (·.1))
    else ((numbered sums).flatMap (fun e => wideBytes (s.free (rest + e.1) 64) e.2.1), {})
  all [
    each dq (fun r => .poke (b.dqTo.addr f + r.1 * rowSize a.gradFmt a.d) r.2.1),
    .poke (b.dkvTo.addr f) dkv.1,
    countArith (countsOf ({ inexact := sums.foldl (fun m e => m + e.2) 0 } :: dkv.2 :: dq.map (·.2.2))),
    .draw (rest + sums.length)]

/-- What attention work uses in slates and store: its operands and its outputs. -/
def AttWork.uses (a : AttDecl) (w : AttWork) : List (Place × Nat) :=
  let n := w.tokens.length
  let rows := (w.tokens.map (·.1)).eraseDups.length
  let tokens := w.pages.foldl (fun m p => m + p.k.rows) 0
  let at' (o : Option Place) (m : Nat) : List (Place × Nat) := match o with
    | some p => [(p, m)]
    | none => []
  w.q.reads a.d ++ w.pages.flatMap (fun p => p.k.reads a.d ++ p.v.reads a.d) ++ (match w.back with
    | none => (w.outTo, n * rowSize a.outFmt a.d) :: at' w.statsTo (8 * n) ++ at' w.headerTo (16 * rows)
    | some b => b.dOut.reads a.d ++ b.out.reads a.d ++ at' b.partials (32 * tokens * a.d) ++
        [(b.dqTo, n * rowSize a.gradFmt a.d), (b.dkvTo, 2 * tokens * (if b.final then rowSize a.gradFmt a.d else 16 * a.d))])

/-- The operands of attention work. -/
def AttWork.operands (w : AttWork) : List Operand :=
  w.q :: w.pages.flatMap (fun p => [p.k, p.v]) ++ (match w.back with
    | some b => [b.dOut, b.out]
    | none => [])

/-- Attention work of job `j`, as its declaration has it. -/
def attRuns (j f : Nat) (x : Job) (w : AttWork) : Act := match x.decl.att with
  | none => .skip
  | some a => match w.back with
    | none => attForward j x.ctx f a w
    | some b => attBackward j x.ctx f a w b

/-! ## A pass ends (R114, R120) -/

/-- All that a pass of a job reads and writes in slates and store. -/
def Pass.allUses (p : Pass) (x : Job) : List (Place × Nat) :=
  (if p.vecOnly then [] else p.uses) ++ p.vec.flatMap VecOp.uses ++ (match p.att, x.decl.att with
    | some w, some a => w.uses a
    | _, _ => [])

/-- The operands of a pass, whose books are used. -/
def Pass.operands (p : Pass) : List Operand := (if p.vecOnly then [] else [p.a, p.b]) ++ (match p.att with
  | some w => w.operands
  | none => [])

/-- The pass `p` of job `j` is carried out: the array, then the attention and the vector unit. An access outside the job's granules is blocked and ends the job (R122),
and so does a book that is lost or invalid; words corrected as they were read are counted (R119). -/
def passRuns (j : Nat) (p : Pass) : Act := .read fun s =>
  match Tab.get? s.u.tt.jobs j with
  | none => .skip
  | some x => all [
      .count 64 (Obj.ECC_CORRECTED p.field) p.corrected,
      if ¬ (p.allUses x).all (s.mayUse x p.field) then endJob j St.ACCESS_DENIED 0x0320 0 0
      else match p.operands.findSome? s.bookFault with
        | some f => endJob j f.1 f.2 0 0
        | none => all [
            when (!p.vecOnly) (arrayRuns j p),
            match p.att with
              | some w => attRuns j p.field x w
              | none => .skip,
            each p.vec (vecRuns p.field)]]

/-- ENGINE_PASS_DRAIN: a residue or parity check that fails is an engine fault (R120); else the pass is carried out, on an engine that carries a
logical engine of the field the job holds; nothing is issued while the overcurrent trip holds (R436). -/
def execEnginePassDrain (job : Nat) (p : Pass) (s : State) : Host.Outcome State Fault Refusal :=
  need (Wf.enginePassDrain job p) s <| .read fun s => all [
    when ((s.jobsOn p.field).any (fun e => decide (e.1 = job ∧ (e.2.phase = .running ∨ e.2.phase = .draining)))
        && bit (s.get (Obj.ENGINE_ACTIVE_MASK p.field)) p.engine && !s.u.pow.overcurrent)
      (if p.mismatch then engineFaulted p.field p.engine 0x0300 0 (some job) else passRuns job p),
    settle]

/-- A write to `ARITH_CLEAR` (R86). -/
def arithClear (_s : State) : WriteRes := .ok (each (List.range 8) fun i => .put (Obj.SATURATED + i) 0)

/-- ARITH_CLEAR. -/
def execArithClear (ses v : Nat) (s : State) : Host.Outcome State Fault Refusal :=
  need (Wf.arithClear ses v) s <| guarded ses Obj.ARITH_CLEAR v .sup (v == 1) arithClear

end Sys2Proof.Machine
end

