-- ==== Sys2Proof/Machine/Fields.lean ====
section
/-! DEFINITION. The commands of the fields: faults, barriers and the start wave, going fallow and coming back, the Lane network and
background work (R112 to R149). -/

namespace Sys2Proof.Machine
open Act

/-! ## Faults -/

/-- ENGINE_FAULT (R139 to R142). -/
def execEngineFault (field engine detail line : Nat) (job : Option Nat) (s : State) : Host.Outcome State Fault Refusal :=
  need (Wf.engineFault field engine detail line job) s <| all [engineFaulted field engine detail line job, settle]

/-- ENGINE_STEP_TIMEOUT: a step that does not complete within 10 µs is an engine fault (R120). -/
def execEngineStepTimeout (field engine : Nat) (job : Option Nat) (s : State) : Host.Outcome State Fault Refusal :=
  need (Wf.engineStepTimeout field engine job) s <| all [engineFaulted field engine 0x0300 0 job, settle]

/-- FIELD_FAULT (R139, R141, R142): the jobs that run on the field are retried or ended; a spare takes its role, or it is FAILED. -/
def execFieldFault (field : Nat) (s : State) : Host.Outcome State Fault Refusal :=
  need (Wf.fieldFault field) s <| .read fun s => all [
    when (s.fieldActive field) (all [
      if s.spareField.isSome ∧ s.get (Obj.FALLOW_STATUS field) = 0 then beginFallow field true
      else if s.get (Obj.FALLOW_STATUS field) = 0 then all [
        .put (Obj.FIELD_ROLE field) 3, .put (Obj.ENGINE_ACTIVE_MASK field) 0,
        logEv Ev.FIELD_FAILED field 0 0x0303]
      else .field field (fun r => { r with faulty := true }),
      .tt (fun t => { t with engineFaults := t.engineFaults ++ [(field, 34)] }),
      each (s.jobsOn field) (fun e => faultJob e.1 0x0303 false),
      .read fun s => when (!s.fieldActive field) (fieldGate field)]),
    settle]

/-! ## Barriers and the start wave (R134 to R138) -/

/-- BARRIER_ARRIVAL (R134 to R136). -/
def execBarrierArrival (job b owed : Nat) (s : State) : Host.Outcome State Fault Refusal :=
  need (Wf.barrierArrival job b owed) s <| .read fun s => all [
    match Tab.get? s.u.tt.jobs job with
    | none => .skip
    | some x =>
      if x.phase ≠ .running ∧ x.phase ≠ .draining then .skip
      else match x.decl.barriers[b]? with
        | none => endJob job St.CONFIG_INVALID 0x0310 0 0
        | some _ => barrierMoves job b (fun r => { r with
          arrived := min r.n (r.arrived + 1), owed := r.owed + owed, since := if r.arrived = 0 then s.time else r.since }),
    settle]

/-- START_WAVE_SLOT: the next slot's engines start (R137). -/
def execStartWaveSlot (s : State) : Host.Outcome State Fault Refusal :=
  need Wf.startWaveSlot s <| .tt fun t => { t with wave := t.wave.drop 1 }

/-! ## Fallow fields (R142 to R145, R148) -/

/-- A put on request is refused (R148). -/
def State.putRefused (s : State) (f : Nat) : Bool :=
  !s.fieldActive f || !(s.fieldRec f).tested || s.get (Obj.FALLOW_STATUS f) != 0
    || (((List.range 66).filter s.fieldActive).length == 1 && s.spareField.isNone)

/-- A write of `v` to `FALLOW_REQUEST`. -/
def fallowRequest (f v : Nat) (s : State) : WriteRes :=
  if v = 1 then if s.putRefused f then .no Ab.STATE_FORBIDS else .ok (beginFallow f false)
  else if s.get (Obj.FIELD_ROLE f) = 2 ∧ s.get (Obj.FALLOW_STATUS f) = 2 then
    .ok (all [.put (Obj.FALLOW_STATUS f) 3, .put (Obj.DOM_STATE f) 1])
  else .no Ab.STATE_FORBIDS

/-- FALLOW_REQUEST_PUT (R144, R148). -/
def execFallowRequestPut (ses field : Nat) (s : State) : Host.Outcome State Fault Refusal :=
  need (Wf.fallowRequestPut ses field) s <|
    all [guarded ses (Obj.FALLOW_REQUEST field) 1 .svc true (fallowRequest field 1), settle]

/-- FALLOW_REQUEST_RETURN (R145, R148). -/
def execFallowRequestReturn (ses field : Nat) (s : State) : Host.Outcome State Fault Refusal :=
  need (Wf.fallowRequestReturn ses field) s <|
    all [guarded ses (Obj.FALLOW_REQUEST field) 2 .svc true (fallowRequest field 2), settle]

/-- SPARE_FIELD_READY (R142, R144): the replacement takes the leaving field's logical role, and its jobs begin to leave. -/
def execSpareFieldReady (field : Nat) (s : State) : Host.Outcome State Fault Refusal :=
  need (Wf.spareFieldReady field) s <| .read fun s => all [
    match s.u.fields.find? (fun e => decide (e.2.takeover = some field)) with
    | none => .skip
    | some e => when (s.get (Obj.FIELD_ROLE field) == 1) (all [
        .put (Obj.FIELD_ROLE field) 0,
        .put (Obj.ENGINE_ACTIVE_MASK field) (activeMask (s.get (Obj.ENGINE_RETIRED_MASK field))),
        .put (Obj.DOM_STATE field) 2,
        .field field (fun r => { r with idleSince := s.time }),
        .count 32 Obj.SUBSTITUTIONS 1,
        evacuate e.1]),
    settle]

/-- JOB_STATE_INSTALLED (R144): the job resumes on the replacement; one asked to stop meanwhile drains on. -/
def execJobStateInstalled (job : Nat) (s : State) : Host.Outcome State Fault Refusal :=
  need (Wf.jobStateInstalled job) s <| .read fun s => all [
    match Tab.get? s.u.tt.jobs job with
    | none => .skip
    | some x =>
      if x.phase ≠ .moving then .skip
      else all [
        each (x.place.eraseDups.filter (fun f => s.get (Obj.FALLOW_STATUS f) == 1)) (fun f => .read fun s =>
          match s.replacement f with
          | some g => moveJob job f g (s.fallowCause f) true
          | none => .skip),
        .job job (fun y => { y with phase := if y.stop.isSome then .draining else .running })],
    settle]

/-- The lines of field `f`'s store that a self-test finds failing, and those marked before, are mapped onto spare rows while their bank has one of its 8 left (R125); one
for which there is none stays marked (log entry 163). -/
def mapRows (f : Nat) (found : List Nat) : Act := .read fun s =>
  let r := s.fieldRec f
  let done := (r.badLines ++ found).eraseDups.foldl (fun (acc : Tab Nat × List Nat) l =>
    if Tab.at acc.1 (storeBank (64 * l)) 0 < 8 then (Tab.upd acc.1 (storeBank (64 * l)) 0 (· + 1), acc.2) else (acc.1, acc.2 ++ [l])) (r.spared, [])
  all [
    .field f (fun x => { x with spared := done.1, badLines := done.2 }),
    .put (Obj.ROWS_SPARED f) (done.1.foldl (fun a e => a + e.2) 0),
    .put (Obj.ROWS_MARKED f) done.2.length]

/-- FIELD_SELFTEST_DONE (R125, R145, R443): at boot a field that passes takes its place and one that fails is FAILED; on return from fallow it
becomes SPARE with 32 healthy engines, else FAILED. -/
def execFieldSelftestDone (field badEngines : Nat) (rows : List Nat) (pass : Bool) (s : State) : Host.Outcome State Fault Refusal :=
  need (Wf.fieldSelftestDone field badEngines rows pass) s <| .read fun s =>
    let boot := s.get (Obj.DOM_STATE field) == 1 && !(s.fieldRec field).tested
    let back := s.get (Obj.FALLOW_STATUS field) == 3
    let retired := s.get (Obj.ENGINE_RETIRED_MASK field) ||| badEngines
    let failed := all [
      .put (Obj.FIELD_ROLE field) 3, .put (Obj.ENGINE_ACTIVE_MASK field) 0, .put (Obj.DOM_STATE field) 0,
      .read fun s => logEv Ev.FIELD_FAILED field 0 (s.free 0 16), .draw 1]
    if ¬ boot ∧ ¬ back then .skip
    else all [
      .put (Obj.ENGINE_RETIRED_MASK field) retired,
      mapRows field rows,
      .field field (fun r => { r with tested := true, calib := [], idleSince := s.time }),
      if back then all [
        .put (Obj.FALLOW_STATUS field) 0,
        if pass && decide (popcount 34 retired ≤ 2) then all [.put (Obj.FIELD_ROLE field) 1, .put (Obj.DOM_STATE field) 0] else failed]
      else all [
        .put (Obj.CALIB_LAST_TIME field) s.ns,
        if !pass then failed
        else if s.fieldActive field then all [
          .put (Obj.ENGINE_ACTIVE_MASK field) (activeMask retired), .put (Obj.DOM_STATE field) 2,
          .read fun s => when (decide (s.healthy field < 32) && s.get Obj.AUTO_FALLOW_EN != 0 && s.spareField.isSome) (beginFallow field true)]
        else .put (Obj.DOM_STATE field) 0,
        .read fun s =>
          let row := meshRow field
          let rowDone := (List.range 11).all fun i => (s.fieldRec (row * 11 + i)).tested
          all [
            when (rowDone && decide (row < 5)) (each (List.range 11) fun i => .put (Obj.DOM_STATE ((row + 1) * 11 + i)) 1),
            when ((List.range 66).all fun f => (s.fieldRec f).tested)
              (.put Obj.T_FIELDS_NS (min 0xFFFFFFFF ((s.time - s.u.boot.start) / 4294967296)))]],
      settle]

/-! ## Lane network (R133) -/

/-- FLIT_REPLAY: counted; the sixteenth failed replay in a row fails the link. At an edge of the mesh with no agent there is no link. -/
def execFlitReplay (router dir : Nat) (ok : Bool) (s : State) : Host.Outcome State Fault Refusal :=
  need (Wf.flitReplay router dir ok) s <| .read fun s =>
    let n := Tab.at (s.fieldRec router).flits dir 0 + 1
    if (neighbour router dir).isNone then .skip
    else all [
      .count 32 Obj.LANE_REPLAYS 1,
      if ok then .field router (fun r => { r with flits := Tab.del r.flits dir })
      else all [
        .field router (fun r => { r with flits := Tab.set r.flits dir n }),
        when (n == 16) (all [logEv Ev.LANE_LINK_FAILED router dir 0, dueCause 9 0])],
      settle]

/-! ## Background work in a field (R146, R147, R179) -/

/-- SCRUB_GRANULE: periodic scrub, or with period 0 a granule that is scrubbed because a read corrected it (R147). `line` is the granule's line where it lies in the store. -/
def execScrubGranule (field engine line unc : Nat) (job : Option Nat) (corrected passEnd late busy : Bool) (s : State) : Host.Outcome State Fault Refusal :=
  need (Wf.scrubGranule field engine line unc job corrected passEnd late busy) s <| .read fun s =>
    let onCorrection := s.get Obj.SCRUB_PASS_MS = 0
    if (onCorrection ∧ ¬ corrected) ∨ s.get (Obj.DOM_STATE field) ≠ 2 then .skip
    else all [
      background 1 field busy (all [
        when corrected (.count 64 (Obj.ECC_CORRECTED field) 1),
        when (unc == 1) (all [.count 32 (Obj.ECC_UNCORRECTED field) 1, markLine field line]),
        when (unc == 2) (engineFaulted field engine 0x0301 0 job),
        when (unc == 3) (engineFaulted field engine 0x0302 line job),
        when (passEnd && !decide onCorrection) (.count 32 Obj.SCRUB_PASSES 1),
        when (passEnd && late && !decide onCorrection) (.count 32 Obj.SCRUB_LATE 1)]),
      settle]

/-- CALIBRATION_STEP: an engine that no job and no stream is granted, or one whose step is overdue; a pass over all healthy engines sets `CALIB_LAST_TIME`. -/
def execCalibrationStep (field engine : Nat) (s : State) : Host.Outcome State Fault Refusal :=
  need (Wf.calibrationStep field engine) s <| .read fun s =>
    if bit (s.get (Obj.ENGINE_RETIRED_MASK field)) engine ∨ s.get (Obj.DOM_STATE field) ≠ 2 then .skip
    else background 2 (field * 34 + engine) (s.engineHolder field engine).isSome (
      let seen := engine :: (s.fieldRec field).calib.filter (· != engine)
      let whole := (List.range 34).all fun e => bit (s.get (Obj.ENGINE_RETIRED_MASK field)) e || seen.contains e
      all [
        .field field (fun r => { r with calib := if whole then [] else seen }),
        when whole (.put (Obj.CALIB_LAST_TIME field) s.ns)])

/-- TELEMETRY_RECORD: a record reaches the Bursar and the Surveyor. -/
def execTelemetryRecord (field : Nat) (busy : Bool) (s : State) : Host.Outcome State Fault Refusal :=
  need (Wf.telemetryRecord field busy) s <| .read fun s =>
    background 3 field busy (.field field (fun r => { r with telemetry := s.time }))

/-- BACKGROUND_OVERDUE (R179): the activity is given one granule on the unit, ahead of foreground work. -/
def execBackgroundOverdue (act unit : Nat) (s : State) : Host.Outcome State Fault Refusal :=
  need (Wf.backgroundOverdue act unit) s <| all [
    .count 64 Obj.BG_OVERDUE_GRANTS 1,
    .mem fun m => { m with overdue := (act, unit) :: m.overdue.filter (· != (act, unit)) }]

end Sys2Proof.Machine
end

