-- ==== Sys2Proof/Machine/Firmware.lean ====
section
/-! DEFINITION. Images written in service, policy firmware and its handovers, counters, program units (R446, R451 to R456, R460 to R463). -/

namespace Sys2Proof.Machine
open Act

/-! ## Headers and chains (R449 to R451) -/

/-- The number in the `n` bytes at offset `o`. -/
def numAt (bs : List Byte) (o n : Nat) : Nat := ofLe ((bs.drop o).take n)

/-- The bytes from `o` to below `o + n` are there and zero. -/
def zeroAt (bs : List Byte) (o n : Nat) : Bool := decide (o + n ≤ bs.length) && ((bs.drop o).take n).all (· == 0)

/-- `TARGET`. -/
def imgTarget (d : List Byte) : List Byte := (d.drop 24).take 16

/-- The payload of an image. -/
def imgPayload (d : List Byte) : List Byte := (d.drop 256).take (numAt d 16 4)

/-- The certificates of an image's chain, signer first. -/
def imgChain (d : List Byte) : List (List Byte) :=
  (List.range (numAt d 20 4 / 272)).map fun i => (d.drop (256 + numAt d 16 4 + 272 * i)).take 272

/-- The header fields that are fixed are as R451 has them, and the image is for this device. -/
def State.headerOk (s : State) (kind : Nat) (d : List Byte) : Bool :=
  numAt d 0 4 == 0x4D42494D && numAt d 4 1 == kind && numAt d 5 1 == 1 && numAt d 6 2 == 0 && numAt d 20 4 % 272 == 0
    && zeroAt d 88 40 && zeroAt d 224 32 && d.length == 256 + numAt d 16 4 + numAt d 20 4
    && ((imgTarget d).all (· == 0) || imgTarget d == s.oct Obj.DEVICE_ID 16)

/-- The payload of the running owner key image. -/
def State.ownerImage (s : State) : List Byte :=
  if s.get Obj.OWNER_STATE = 0 then [] else ((Tab.get? s.u.boot.slots (2 + s.get (Obj.IMG_ACTIVE_SLOT 0))).map (·.payload)).getD []

/-- A bit of `OWNER_FLAGS`. -/
def State.ownerFlag (s : State) (b : Nat) : Bool := bit (numAt s.ownerImage 97 1) b

/-- The serials that the owner has revoked. -/
def State.revoked (s : State) : List Nat := (List.range (min 64 (numAt s.ownerImage 98 2))).map fun i => numAt s.ownerImage (104 + 4 * i) 4

/-- A certificate's validity period, which is looked at only while the time base is LOCKED (R449, R450): both ends belong to it (DESIGN CHOICE, log entry 179). -/
def State.inPeriod (s : State) (c : List Byte) : Bool :=
  s.get Obj.TB_STATE != 2 || (decide (numAt c 8 8 ≤ s.ns) && (bit (numAt c 2 2) 15 || decide (s.ns ≤ numAt c 16 8)))

/-- What of a chain's validity its bytes show (R450): at most 3 certificates below the root, every issuer with permission [5] and named by its key, nothing revoked that the
owner issued (its roles are 3 and up), every certificate within its period. -/
def State.chainShape (s : State) (cs : List (List Byte)) : Bool :=
  decide ((cs.filter (fun c => decide (numAt c 1 1 ≠ 0 ∧ numAt c 1 1 ≠ 2))).length ≤ 3) && (cs.drop 1).all (fun c => bit (numAt c 2 2) 5)
    && (cs.zip (cs.drop 1)).all (fun p => (p.1.drop 24).take 48 == sha384 ((p.2.drop 72).take 97))
    && cs.all (fun c => numAt c 0 1 == 1 && !(decide (3 ≤ numAt c 1 1) && s.revoked.contains (numAt c 4 4)) && s.inPeriod c)

/-- The signer that a kind asks for (R451): role and permission of the first certificate. -/
def State.signerOk (s : State) (kind : Nat) (cs : List (List Byte)) : Bool :=
  match cs with
  | [] => false
  | c :: _ =>
    let role := numAt c 1 1
    let may := bit (numAt c 2 2)
    match kind with
    | 1 => if s.get Obj.OWNER_STATE = 0 then role == 1 else role == 2
    | 2 => role == 1 && may 0
    | 3 => (role == 1 || (role == 3 && s.ownerFlag 0)) && may 1
    | 4 => role == 4
    | _ => role == 3 && may 2

/-- The check code of an image or unit (R454), 0 if it passes; `data` is absent where it could not be fetched, `required`: it must be signed, `sigOk` and `chainOk`: its
signature verifies and its chain ends in a root that this device trusts. -/
def State.imageCode (s : State) (kind counter : Nat) (data : Option (List Byte)) (crcOk required sigOk chainOk : Bool) : Nat :=
  match data with
  | none => 0x1469
  | some d =>
    let cs := imgChain d
    let unsigned := kind == 6 && cs.isEmpty
    if ¬ s.headerOk kind d then 0x1463
    else if numAt d 12 4 < counter then 0x1464
    else if unsigned ∧ required then 0x1468
    else if ¬ unsigned ∧ ¬ (chainOk && s.chainShape cs && s.signerOk kind cs) then 0x1461
    else if ¬ unsigned ∧ ¬ sigOk then (if kind = 4 then 0x1467 else 0x1460)
    else if ¬ crcOk ∨ sha384 (imgPayload d) ≠ (d.drop 40).take 48 then 0x1462
    else 0

/-- The data that a descriptor names as its fetch brings it: nothing where the host cannot be reached (R14); a length of 0 fetches nothing and succeeds (R41). Every
descriptor names a host bus address (DESIGN CHOICE, log entry 180). -/
def State.fetched (s : State) (len : Nat) (data : Option (List Byte)) : Option (List Byte) :=
  if len = 0 then some [] else if s.hostReachable then data else none

/-- What a descriptor names as the later fetch brings it, with whether its check value holds (R14). -/
def State.late (s : State) : WVal → Option (Option (List Byte) × Bool)
  | .desc _ len crc data => some (s.fetched len data, match s.fetched len data with
      | some d => d.length == len && crc32c d == crc
      | none => true)
  | .inline d => some (some d, true)
  | _ => none

/-! ## Image slots (R452, R454) -/

/-- The bits of slot `n` in `IMG_SLOT_STATE` become `v`. -/
def putSlotState (kind n v : Nat) : Act := .modify (Obj.IMG_SLOT_STATE (kind - 1)) fun w => w - w / 4 ^ n % 4 * 4 ^ n + v * 4 ^ n

/-- The version object of a slot. -/
def verKey (kind n : Nat) : Nat := if n = 0 then Obj.IMG_VERSION_0 (kind - 1) else Obj.IMG_VERSION_1 (kind - 1)

/-- Slot `n` of a kind holds image `x`. -/
def putImage (kind n : Nat) (x : Img) : Act := all [
  .boot (fun b => { b with slots := Tab.set b.slots (kind * 2 + n) x }),
  .put (verKey kind n) x.version, putSlotState kind n (if x.sound then 1 else 3)]

/-- A new image in a slot of kind 1, 2 or 4 clears a preference for the other slot (R452). -/
def newImage (kind n : Nat) : Act := when (kind != 3) (.boot fun b => { b with
  prefer := if Tab.get? b.prefer kind = some (1 - n) then Tab.del b.prefer kind else b.prefer })

/-- A write of `IMG_WRITE` of a kind: an inline image has its header checked within the write (R454). -/
def imgWrite (kind : Nat) (v : WVal) (s : State) : WriteRes :=
  match s.late v with
  | none => .no Ab.LENGTH
  | some (data, crcOk) =>
    let inl : Option (List Byte) := match v with
      | .inline d => some d
      | _ => none
    if s.u.boot.writing.isSome then .no Ab.FLASH_BUSY
    else match inl with
      | some d =>
        if numAt d 12 4 < s.get (Obj.IMG_COUNTER (kind - 1)) then .no Ab.IMAGE_ROLLBACK
        else if numAt d 4 1 ≠ kind then .no Ab.RANGE
        else .ok (go data crcOk)
      | none => .ok (go data crcOk)
where
  /-- The write of the image to flash begins. -/
  go (data : Option (List Byte)) (crcOk : Bool) : Act := all [
    .boot (fun b => { b with writing := some (.image kind data crcOk) }),
    .put (Obj.IMG_WRITE_STATUS (kind - 1)) 1, .put (Obj.IMG_REASON (kind - 1)) 0]

/-- IMG_WRITE. -/
def execImgWrite (ses kind : Nat) (v : WVal) (s : State) : Host.Outcome State Fault Refusal :=
  need (Wf.imgWrite ses kind v) s <| guarded ses (Obj.IMG_WRITE (kind - 1)) 0 .svc true (imgWrite kind v)

/-- IMAGE_WRITE_VERIFIED (R454). -/
def execImageWriteVerified (sigOk chainOk : Bool) (vals : List (Nat × Nat)) (blobs : List (Nat × List Byte)) (s : State) :
    Host.Outcome State Fault Refusal :=
  need (Wf.imageWriteVerified sigOk chainOk vals blobs) s <| .read fun s =>
    match s.u.boot.writing with
    | some (.image kind data crcOk) =>
      let n := 1 - s.get (Obj.IMG_ACTIVE_SLOT (kind - 1))
      let code := s.imageCode kind (s.get (Obj.IMG_COUNTER (kind - 1))) data crcOk false sigOk chainOk
      all [
        .boot (fun b => { b with writing := none }),
        .put (Obj.IMG_WRITE_STATUS (kind - 1)) (if code = 0 then 3 else 4), .put (Obj.IMG_REASON (kind - 1)) code,
        match data with
          | some d => putImage kind n {
              version := numAt d 8 4, rollback := numAt d 12 4, target := imgTarget d, digest := (d.drop 40).take 48
              payload := if kind = 1 then imgPayload d else []
              vals := if kind = 4 then vals else []
              blobs := if kind = 4 then blobs else []
              sound := code == 0 }
          | none => .skip,
        if code = 0 then newImage kind n else logEv Ev.IMAGE_REFUSED kind 0 code]
    | _ => .skip

/-- SETTINGS_STORE_DONE (R52, R453): a restore accepted since the store began still waits for the next boot. -/
def execSettingsStoreDone (s : State) : Host.Outcome State Fault Refusal :=
  need Wf.settingsStoreDone s <| .read fun s =>
    match s.u.boot.writing with
    | some (.store x k) =>
      let n := 1 - s.get (Obj.IMG_ACTIVE_SLOT 3)
      all [
        .boot (fun b => { b with writing := none, restore := b.restore.take (b.restore.length - k) }),
        putImage 4 n x, newImage 4 n,
        .modify (Obj.IMG_COUNTER 3) (max x.rollback)]
    | _ => .skip

/-- The image that runs of a kind. -/
def State.running (s : State) (kind : Nat) : Option Img := Tab.get? s.u.boot.slots (kind * 2 + s.get (Obj.IMG_ACTIVE_SLOT (kind - 1)))

/-- A write of 1 to `IMG_ACTIVATE` of a kind (R452, R461). -/
def imgActivate (kind : Nat) (s : State) : WriteRes :=
  let n := 1 - s.get (Obj.IMG_ACTIVE_SLOT (kind - 1))
  match Tab.get? s.u.boot.slots (kind * 2 + n) with
  | none => .no Ab.STATE_FORBIDS
  | some x =>
    if kind = 3 ∧ (s.u.boot.asked ∨ s.get Obj.POLICY_STATE = 2 ∨ s.get Obj.POLICY_STATE = 3) then .no Ab.STATE_FORBIDS
    else if x.rollback < s.get (Obj.IMG_COUNTER (kind - 1)) then .no Ab.IMAGE_ROLLBACK
    else if ¬ x.sound then .no Ab.STATE_FORBIDS
    else .ok (if kind = 3 then .boot (fun b => { b with asked := true }) else .boot (fun b => { b with prefer := Tab.set b.prefer kind n }))

/-- IMG_ACTIVATE. -/
def execImgActivate (ses kind v : Nat) (s : State) : Host.Outcome State Fault Refusal :=
  need (Wf.imgActivate ses kind v) s <| guarded ses (Obj.IMG_ACTIVATE (kind - 1)) v .svc (v == 1) (imgActivate kind)

/-- A write of 1 to `IMG_COUNTER_COMMIT` of a kind (R453): counter 4 rises with stores only. -/
def imgCounterCommit (kind : Nat) (s : State) : WriteRes := .ok (match s.running kind with
  | some x => when (kind != 4) (.modify (Obj.IMG_COUNTER (kind - 1)) (max x.rollback))
  | none => .skip)

/-- IMG_COUNTER_COMMIT. -/
def execImgCounterCommit (ses kind v : Nat) (s : State) : Host.Outcome State Fault Refusal :=
  need (Wf.imgCounterCommit ses kind v) s <| guarded ses (Obj.IMG_COUNTER_COMMIT (kind - 1)) v .svc (v == 1) (imgCounterCommit kind)

/-! ## Policy firmware (R446, R461) -/

/-- Slot `n` of kind 3 becomes the active one. -/
def policySlot (n : Nat) : Act := .read fun s => all [
  .put (Obj.IMG_ACTIVE_SLOT 2) n,
  match Tab.get? s.u.boot.slots (6 + n) with
    | some x => putOct (Obj.IMG_RUNNING_DIGEST 2) x.digest
    | none => .skip]

/-- Slot `bad` failed; the ROM hands back to slot `old`, which runs again (R461). -/
def handBack (bad old : Nat) : Act := all [
  putSlotState 3 bad 3, policySlot old, .put Obj.POLICY_STATE 1, logEv Ev.POLICY_HANDBACK 0xFFFF bad 0]

/-- Policy firmware begins a handover to slot `n` at this moment: R460 is in force. -/
def beginHandover (n : Nat) : Act := .read fun s => all [
  .put Obj.POLICY_STATE 2,
  .boot (fun b => { b with
    asked := false, newSlot := n, handover := s.time })]

/-- The ROM restarts policy firmware from the active slot, unless it has done so 3 times within 60 s (R446). -/
def restartPolicy : Act := .read fun s =>
  let recent := s.u.boot.restarts.filter (fun t => decide (s.time ≤ t + 60000000000 * 4294967296))
  let n := s.get (Obj.IMG_ACTIVE_SLOT 2)
  if 3 ≤ recent.length then all [.put Obj.POLICY_STATE 4, logEv Ev.POLICY_FAILED 0xFFFF 0 0]
  else all [
    .boot (fun b => { b with restarts := s.time :: recent }),
    .count 32 Obj.POLICY_RESTARTS 1,
    logEv Ev.POLICY_RESTART 0xFFFF (s.get (Obj.IMG_RUNNING_DIGEST 2)) (recent.length + 1),
    beginHandover n]

/-- HANDOVER_POINT (R461). -/
def execHandoverPoint (s : State) : Host.Outcome State Fault Refusal :=
  need Wf.handoverPoint s <| .read fun s =>
    when (s.u.boot.asked && s.get Obj.POLICY_STATE != 2) (beginHandover (1 - s.get (Obj.IMG_ACTIVE_SLOT 2)))

/-- POLICY_READY (R461): the new image runs in trial; a restarted one runs on. -/
def execPolicyReady (s : State) : Host.Outcome State Fault Refusal :=
  need Wf.policyReady s <| .read fun s =>
    let b := s.u.boot
    when (s.get Obj.POLICY_STATE == 2) (all [
      .put Obj.HANDOVER_LAST_NS (min 0xFFFFFFFF ((s.time - b.handover) / 4294967296)),
      .boot (fun x => { x with switches := x.switches + 1 }),
      if b.newSlot = s.get (Obj.IMG_ACTIVE_SLOT 2) then .put Obj.POLICY_STATE 1
      else all [putSlotState 3 b.newSlot 2, policySlot b.newSlot, .put Obj.POLICY_STATE 3]])

/-- HANDOVER_READY_TIMEOUT (R461); a restarted image that is not ready in time is restarted again. -/
def execHandoverReadyTimeout (s : State) : Host.Outcome State Fault Refusal :=
  need Wf.handoverReadyTimeout s <| .read fun s =>
    let old := s.get (Obj.IMG_ACTIVE_SLOT 2)
    when (s.get Obj.POLICY_STATE == 2) (if s.u.boot.newSlot = old then restartPolicy else handBack s.u.boot.newSlot old)

/-- POLICY_TRIAL_END (R452, R461). -/
def execPolicyTrialEnd (s : State) : Host.Outcome State Fault Refusal :=
  need Wf.policyTrialEnd s <| .read fun s =>
    let n := s.get (Obj.IMG_ACTIVE_SLOT 2)
    when (s.get Obj.POLICY_STATE == 3) (all [
      .put Obj.POLICY_STATE 1, putSlotState 3 n 1, .boot (fun b => { b with prefer := Tab.set b.prefer 3 n })])

/-- POLICY_WATCHDOG_EXPIRY (R446, R461): in a trial the old slot runs again; else the image is restarted. -/
def execPolicyWatchdogExpiry (s : State) : Host.Outcome State Fault Refusal :=
  need Wf.policyWatchdogExpiry s <| .read fun s =>
    let n := s.get (Obj.IMG_ACTIVE_SLOT 2)
    if s.get Obj.POLICY_STATE = 3 then handBack n (1 - n)
    else if s.get Obj.POLICY_STATE = 1 then restartPolicy
    else .skip

/-! ## Programs (R456, R462, R463) -/

/-- `PROGRAM_SPACE_FREE_KIB`. -/
def State.programSpace (s : State) : Nat := 40960 - s.u.tt.progs.foldl (fun a e => a + e.2.kib) 0

/-- A write of `PROG_IMAGE` by session `ses`: the load begins. -/
def progImage (ses : Nat) (v : WVal) (s : State) : WriteRes := match s.late v with
  | none => .no Ab.LENGTH
  | some l => .ok (all [
      .boot (fun b => { b with loads := b.loads ++ [(ses, l)] }),
      .put (Obj.PROG_LOAD_STATUS ses) 1, .put (Obj.PROG_HANDLE ses) 0, .put (Obj.PROG_REASON ses) 0])

/-- PROG_IMAGE. -/
def execProgImage (ses : Nat) (v : WVal) (s : State) : Host.Outcome State Fault Refusal :=
  need (Wf.progImage ses v) s <| guarded ses (Obj.PROG_IMAGE ses) 0 .sup true (progImage ses v)

/-- The objects of session `ses` tell how its latest load came out, unless another one still runs. -/
def loadOutcome (ses status handle reason : Nat) : Act := .read fun s =>
  when (decide (ses < 16) && !s.u.boot.loads.any (fun e => e.1 == ses)) (all [
    .put (Obj.PROG_LOAD_STATUS ses) status, .put (Obj.PROG_HANDLE ses) handle, .put (Obj.PROG_REASON ses) reason])

/-- Entries and stages that declare one rank declare one initial count and maximum (R220). -/
def UnitDecl.semsAgree (u : UnitDecl) : Bool :=
  let ss := u.entries.flatMap fun e => e.stages.flatMap fun d => d.sems
  ss.all fun a => ss.all fun b => a.rank != b.rank || a == b

/-- PROG_LOAD_DONE (R454, R456, R462). -/
def execProgLoadDone (ses : Nat) (sigOk chainOk : Bool) (decl : Option UnitDecl) (s : State) : Host.Outcome State Fault Refusal :=
  need (Wf.progLoadDone ses sigOk chainOk decl) s <| .read fun s =>
    match s.u.boot.loads.find? (fun e => e.1 == ses) with
    | none => .skip
    | some (_, data, crcOk) =>
      let d := data.getD []
      let kib := ceilDiv d.length 1024
      let first := s.imageCode 6 (s.get Obj.PROG_COUNTER) data crcOk (s.ownerFlag 1) sigOk chainOk
      let h := s.u.boot.nextProg
      let code := if first ≠ 0 then first
        else if ¬ (decl.map UnitDecl.semsAgree).getD false then 0x1465
        else if 256 ≤ s.u.tt.progs.length ∨ s.programSpace < kib then 0x1466
        else 0
      all [
        .boot (fun b => { b with
          loads := b.loads.takeWhile (fun e => e.1 != ses) ++ (b.loads.dropWhile (fun e => e.1 != ses)).drop 1 }),
        match decl, code with
          | some x, 0 => all [
              .tt (fun t => { t with progs := Tab.set t.progs h { x with kib := kib } }),
              .boot (fun b => { b with
                nextProg := h + 1, progLoads := b.progLoads + 1
                rollbacks := Tab.set b.rollbacks h (numAt d 12 4)
                progLog := sha384 ((if b.progLog.isEmpty then List.replicate 48 0 else b.progLog) ++ (d.drop 40).take 48) }),
              loadOutcome ses 2 h 0]
          | _, _ => all [loadOutcome ses 3 0 code, logEv Ev.IMAGE_REFUSED 6 0 code]]

/-- Something names handle `h` (R463). -/
def State.progNamed (s : State) (h : Nat) : Bool :=
  (List.range 256).any (fun f => s.get (Obj.F_PROGRAM f) == h || s.pendingOr (Obj.F_PROGRAM f) == h)
    || s.objs.any (fun e => e.1 % 256 == 4 && decide (0x3000 ≤ e.1 / 256 ∧ e.1 / 256 ≤ 0x3FFF) && e.2.toNat == h
        && (let st := s.get (Obj.STATE (e.1 / 256 - 0x3000)); st == 1 || st == 2 || st == 3))
    || s.u.tt.jobs.any (fun e => e.2.phase != .ready && (match Tab.get? s.u.tt.runs e.2.run with
        | some r => r.prog == h
        | none => false))

/-- A write of `h` to `PROG_UNLOAD`. -/
def progUnload (h : Nat) (s : State) : WriteRes :=
  if (Tab.get? s.u.tt.progs h).isNone then .no Ab.RANGE
  else if s.progNamed h then .no Ab.STATE_FORBIDS
  else .ok (all [
    .tt (fun t => { t with progs := Tab.del t.progs h }),
    .boot (fun b => { b with rollbacks := Tab.del b.rollbacks h })])

/-- PROG_UNLOAD. -/
def execProgUnload (ses h : Nat) (s : State) : Host.Outcome State Fault Refusal :=
  need (Wf.progUnload ses h) s <| guarded ses Obj.PROG_UNLOAD h .sup true (progUnload h)

/-- A write of 1 to `PROG_COUNTER_COMMIT` (R453). -/
def progCounterCommit (s : State) : WriteRes := .ok (.modify Obj.PROG_COUNTER (fun v => s.u.boot.rollbacks.foldl (fun m e => max m e.2) v))

/-- PROG_COUNTER_COMMIT. -/
def execProgCounterCommit (ses v : Nat) (s : State) : Host.Outcome State Fault Refusal :=
  need (Wf.progCounterCommit ses v) s <| guarded ses Obj.PROG_COUNTER_COMMIT v .svc (v == 1) progCounterCommit

end Sys2Proof.Machine
end

