-- ==== Sys2Proof/Machine/Streams.lean ====
section
/-! DEFINITION. The commands of the streams: a session's writes to `STREAM_COMMAND`, and the swaps (R275, R279). -/

namespace Sys2Proof.Machine
open Act

/-- A write of `v` to `STREAM_COMMAND` of stream `n`, with what it leaves to tell. -/
def commandStream (ses n v : Nat) : Act :=
  all [guarded ses (Obj.STREAM_COMMAND n) v .host (decide (1 ≤ v ∧ v ≤ 8)) (streamCommand ses n v), settle]

/-- STREAM_START. -/
def execStreamStart (ses n : Nat) (s : State) : Host.Outcome State Fault Refusal :=
  need (Wf.streamStart ses n) s <| commandStream ses n 1

/-- STREAM_PAUSE. -/
def execStreamPause (ses n : Nat) (s : State) : Host.Outcome State Fault Refusal :=
  need (Wf.streamPause ses n) s <| commandStream ses n 2

/-- STREAM_RESUME. -/
def execStreamResume (ses n : Nat) (s : State) : Host.Outcome State Fault Refusal :=
  need (Wf.streamResume ses n) s <| commandStream ses n 3

/-- STREAM_RESET. -/
def execStreamReset (ses n : Nat) (s : State) : Host.Outcome State Fault Refusal :=
  need (Wf.streamReset ses n) s <| commandStream ses n 4

/-- STREAM_END. -/
def execStreamEnd (ses n : Nat) (s : State) : Host.Outcome State Fault Refusal :=
  need (Wf.streamEnd ses n) s <| commandStream ses n 5

/-- STREAM_CHECKPOINT. -/
def execStreamCheckpoint (ses n : Nat) (s : State) : Host.Outcome State Fault Refusal :=
  need (Wf.streamCheckpoint ses n) s <| commandStream ses n 6

/-- STREAM_RESTORE. -/
def execStreamRestore (ses n : Nat) (s : State) : Host.Outcome State Fault Refusal :=
  need (Wf.streamRestore ses n) s <| commandStream ses n 7

/-- STREAM_EVICT. -/
def execStreamEvict (ses n : Nat) (s : State) : Host.Outcome State Fault Refusal :=
  need (Wf.streamEvict ses n) s <| commandStream ses n 8

/-- STREAM_SWAP_OUT (R275): at once, or at the end of the chunk that runs. -/
def execStreamSwapOut (n : Nat) (s : State) : Host.Outcome State Fault Refusal :=
  need (Wf.streamSwapOut n) s <| .read fun s => all [
    if s.get (Obj.RESIDENCY_NOW n) ≠ 1 then .skip
    else if (s.stream n).chunk.isSome then .stream n (fun x => { x with swapWanted := true })
    else swapOut n true,
    settle]

/-- STREAM_SWAP_IN (R275). -/
def execStreamSwapIn (n field : Nat) (s : State) : Host.Outcome State Fault Refusal :=
  need (Wf.streamSwapIn n field) s <| swapIn n field

end Sys2Proof.Machine
end

