-- ==== Sys2Proof/Machine/Timetable.lean ====
section
/-! DEFINITION. The commands of the Timetable: contexts, jobs from dispatch to end, furrows, semaphores, accounting (R193 to R234). -/

namespace Sys2Proof.Machine
open Act

/-! ## Contexts (R193, R197) -/

/-- What keeps a context open (R197). -/
def State.ctxBusy (s : State) (c : Nat) : Bool :=
  s.u.tt.runs.any (fun e => e.2.ctx == c) || s.slotsPosted c != 0
    || (List.range 256).any (fun f => s.get (Obj.F_CONTEXT f) == c && (s.get (Obj.FURROW_STATE f) == 2 || !(s.furrow f).live.isEmpty || !(s.furrow f).queue.isEmpty))
    || s.u.tt.jobs.any (fun e => e.2.ctx == c)
    || s.u.streamDir.any (fun e => s.get (Obj.S_CONTEXT e.2) == c && s.get (Obj.STREAM_STATE e.2) != 0)
    || s.u.seq.walks.any (fun w => w.key / 65536 == c)
    || s.get Obj.MAP_CONTEXT == c || s.pendingOr Obj.MAP_CONTEXT == c
    || (List.range 8).any (fun p => (s.get (Obj.CSI_ENABLE p) != 0 && s.get (Obj.CSI_CONTEXT p) == c)
      || (s.pendingOr (Obj.CSI_ENABLE p) != 0 && s.pendingOr (Obj.CSI_CONTEXT p) == c))

/-- The counters of a context, subindices 0B to 13, at zero. -/
def ctxZero (c : Nat) : Act := each (List.range 9) fun i => .put (Obj.ENGINE_NS c + i) 0

/-- A write of `v` to `CTX_STATE` of context `c`. -/
def ctxState (c v : Nat) (s : State) : WriteRes :=
  if s.get (Obj.CTX_STATE c) = v then .ok .skip
  else if v = 1 then .ok (all [.put (Obj.CTX_STATE c) 1, ctxZero c])
  else if s.ctxBusy c then .no Ab.STATE_FORBIDS
  else .ok (all [
    .put (Obj.CTX_STATE c) 0,
    each (s.u.seq.seqs.filter (fun e => e.1 / 65536 == c && e.2.opened)) (fun e => freeSeq e.1),
    .read fun s => each (s.u.mem.tiles.filter (fun e => e.2.ctx == c)) (fun e => all [
      zeroHome e.1 c e.2.home,
      match e.2.replica with
        | some r => zeroHome e.1 c r
        | none => .skip,
      freeRun e.1 1]),
    .tt (fun t => { t with
      sems := t.sems.filter (fun e => e.2.ctx != c)
      vtime := Tab.del t.vtime c
      furrows := t.furrows.map (fun e =>
        let own (x : Option (Nat × Nat × Nat)) : Option (Nat × Nat × Nat) := if x.any (fun y => y.1 == c) then none else x
        (e.1, { e.2 with scratch := own e.2.scratch, newScratch := own e.2.newScratch })) }),
    groupsFollow])

/-- CONTEXT_OPEN. -/
def execContextOpen (ses n : Nat) (s : State) : Host.Outcome State Fault Refusal :=
  need (Wf.contextOpen ses n) s <| guarded ses (Obj.CTX_STATE n) 1 .sup true (ctxState n 1)

/-- CONTEXT_CLOSE. -/
def execContextClose (ses n : Nat) (s : State) : Host.Outcome State Fault Refusal :=
  need (Wf.contextClose ses n) s <| guarded ses (Obj.CTX_STATE n) 0 .sup true (ctxState n 0)

/-- A write to `CTX_CLEAR`. -/
def ctxClear (c : Nat) (_s : State) : WriteRes := .ok (ctxZero c)

/-- CTX_CLEAR. -/
def execCtxClear (ses n v : Nat) (s : State) : Host.Outcome State Fault Refusal :=
  need (Wf.ctxClear ses n v) s <| guarded ses (Obj.CTX_CLEAR n) v .sup (v == 1) (ctxClear n)

/-! ## Jobs (R200 to R206, R215 to R219) -/

/-- Job `j` ends at dispatch, counted where its status has a count. -/
def endAtDispatch (j status detail : Nat) : Act := all [
  when (status == St.KEY_FORMAT) (.count 32 Obj.JOBS_KEY_FORMAT 1),
  when (status == St.TABLE_CHANGED) (.count 32 Obj.JOBS_TABLE_CHANGED 1),
  endJob j status detail 0 0]

/-- JOB_DISPATCH (R198, R201): the job is checked, and dispatched if everything it needs is there together; else it pauses others, or stays ready. -/
def execJobDispatch (job : Nat) (place : List Nat) (host : List (Nat × List Byte)) (rows : List LenRow) (s : State) : Host.Outcome State Fault Refusal :=
  need (Wf.jobDispatch job place host rows) s <| .seq accrueAll <| .read fun s => all [
    match Tab.get? s.u.tt.jobs job with
    | none => .skip
    | some x => all [
      when (x.phase == .ready && s.groupPending (0x4000 + x.ctx)) (applyContext x.ctx),
      .read fun s => match Tab.get? s.u.tt.jobs job with
      | none => .skip
      | some x =>
      if x.phase ≠ .ready ∨ ¬ s.mayDispatch x ∨ x.short ∨ s.firingWaits x ∨ (x.decl.op.isNone && s.another job x) then .skip
      else match s.dispatchFault x host rows with
        | some f => endAtDispatch job f.1 f.2
        | none => match x.decl.op with
        | some o => dispatchUnit job x o
        | none => all [
            match s.chunkStream x with
              | some n => when (s.groupPending (streamCtl n) && (s.stream n).chunk.isNone) (applyStream n)
              | none => .skip,
            .read fun s =>
              let goes : Bool := match s.chunkStream x with
                | some n => s.chunkGoes n job place
                | none => true
              if ¬ goes ∨ ¬ s.allowed x then .skip
              else if ¬ s.placeFits x place then preempt x place
              else if 256 < s.u.tt.bars.length + x.decl.barriers.length then .skip
              else withGrant job x place (dispatch job place host rows)]],
    settle]

/-- GRANT_RETRY (R205). -/
def execGrantRetry (job : Nat) (s : State) : Host.Outcome State Fault Refusal :=
  need (Wf.grantRetry job) s <| .read fun s => match Tab.get? s.u.tt.jobs job with
    | some x => when (x.phase == .ready && x.short) (all [.count 64 Obj.GRANT_BACKOFFS 1, .job job (fun y => { y with short := false })])
    | none => .skip

/-- A chunk stops or ends with a status: its whole steps become its stream's state, unless they left the range (R274, R278). -/
def endWith (j : Nat) (us : List (List CarryStep)) (status detail flags stall : Nat) : Act := .read fun s =>
  if s.overRange j us then endJob j St.STATE_LOST 0x0713 flags stall
  else all [chunkSteps j us, endJob j status detail flags stall]

/-- JOB_YIELD_POINT (R144, R214, R217, R218). -/
def execJobYieldPoint (job : Nat) (steps : List (List CarryStep)) (s : State) : Host.Outcome State Fault Refusal :=
  need (Wf.jobYieldPoint job steps) s <| .read fun s => all [
    match Tab.get? s.u.tt.jobs job with
    | none => .skip
    | some x =>
      if ¬ (x.phase = .running ∨ x.phase = .draining) ∨ x.decl.fullSave ∨ x.decl.op.isSome then .skip
      else match x.stop with
        | some f => endWith job steps f.1 f.2 0 0
        | none => .job job (fun y => { y with
            mayPause := true, phase := if y.phase = .draining then (if y.evac then .moving else .saving) else y.phase }),
    settle]

/-- What a job's save area takes as it leaves its fields: slates and accumulators of its engines, and its granules (R217, R219; log entry 173). -/
def State.imageOf (s : State) (x : Job) : Image :=
  let cells (a : Nat) : List Host.Cell := (s.bytes.filter (fun c => decide (a ≤ c.1 ∧ c.1 < a + 65536))).map (fun c => (c.1 - a, c.2))
  { slates := x.engs.map (fun e => (cells (slateBase e.1 e.2), Tab.at (s.fieldRec e.1).acc e.2 []))
    grans := x.grans.map (fun g => cells (storeBase g.1 + g.2 * 65536)) }

/-- JOB_SAVE_DONE (R215 to R219, R227): the job is paused, its state saved, and gives its fields, granules and grant back; a unit of a semaphore that came while it saved is held for it. -/
def execJobSaveDone (job : Nat) (s : State) : Host.Outcome State Fault Refusal :=
  need (Wf.jobSaveDone job) s <| .read fun s => all [
    match Tab.get? s.u.tt.jobs job with
    | none => .skip
    | some x =>
      if x.phase ≠ .saving then .skip
      else all [
        .job job (fun y => { y with image := s.imageOf x, left := (x.place, none) }),
        releaseFields job,
        .job job (fun y => { y with
          phase := .paused, saved := true, pausedAt := s.time }),
        if x.decl.fullSave then .count 64 Obj.PAUSES_FULL_SAVE 1 else .count 64 Obj.PAUSES_NATIVE 1,
        .count 32 (Obj.CTX_PAUSES x.ctx) 1,
        match x.pausedFor with
          | some c => .count 64 (Obj.CTX_BYTES_MOVED c) x.decl.saveBytes
          | none => .skip,
        offers],
    settle]

/-- JOB_RESUME (R194, R218, R221, R224): on fields that have room, under a grant, by what is live then; it takes the units held for it. -/
def execJobResume (job : Nat) (place : List Nat) (s : State) : Host.Outcome State Fault Refusal :=
  need (Wf.jobResume job place) s <| .read fun s => all [
    match Tab.get? s.u.tt.jobs job with
    | some x => when (x.phase == .paused && s.groupPending (0x4000 + x.ctx)) (applyContext x.ctx)
    | none => .skip,
    .read fun s => match Tab.get? s.u.tt.jobs job with
    | none => .skip
    | some x =>
      if x.phase ≠ .paused ∨ ¬ s.mayDispatch x ∨ x.short ∨ ¬ s.allowed x then .skip
      else if ¬ s.placeFits x place then preempt x place
      else withGrant job x place fun mv => all [
        .read fun s =>
          let mine := (s.u.tt.sems.filter (fun e => e.2.handed.contains job)).map (·.1)
          all [
            each mine (fun i => .sem i (fun y => { y with handed := y.handed.filter (· != job) })),
            .job job (fun y => { y with
              wait := if mine.isEmpty then y.wait else none, held := mine ++ y.held, inhPaused := y.inh.isSome
              lostNs := y.lostNs + (s.time - y.pausedAt) / 4294967296 }),
            match x.pausedFor with
              | some c => all [.count 64 (Obj.CTX_BYTES_MOVED c) x.decl.saveBytes, .job job (fun y => { y with pausedFor := none })]
              | none => .skip],
        standOn job place mv],
    settle]

/-- An element lies out of tolerance of its reference element (R405). -/
def outOfTol (abs rel y r : Num) : Bool := match y, r with
  | .nan _, .nan _ => false
  | .inf a, .inf b => a != b
  | .fin _ _ _, .fin _ _ _ => (abs.add (rel.mul r.abs)).lt (y.add r.minus).abs
  | _, _ => true

/-- How many elements of an output lie out of tolerance. -/
def State.goldCount (s : State) (c : Nat) (g : Gold) : Nat :=
  let w := fmtBits g.fmt
  ((List.range g.tiles).map fun i =>
    let y := s.payload (g.scratch + i)
    let r := match s.tileOf c (g.ref + 65536 * i) with
      | .inl t => s.payload t
      | .inr _ => []
    ((List.range (32768 / max 1 w)).filter fun k =>
      outOfTol (fp g.abs) (fp g.rel) (decodeElt g.fmt [] (unpackAt w y k)) (decodeElt g.fmt [] (unpackAt w r k))).length).foldl (· + ·) 0

/-- What the compare stage of a golden run meets that is lost (R177). -/
def State.goldLoss (s : State) (x : Run) : Option (Nat × Nat) := x.gold.findSome? fun g => (List.range g.tiles).findSome? fun i =>
  (s.lossOf (g.scratch + i)).or (match s.tileOf x.ctx (g.ref + 65536 * i) with
    | .inl t => s.lossOf t
    | .inr f => some f)

/-- The 16 bytes of furrow `f`'s golden stamp (R407). -/
def State.goldenStamp (s : State) (f : Nat) : List Byte :=
  le 1 (if s.get (Obj.GOLDEN_EVERY f) = 0 then 3 else s.get (Obj.GOLDEN_STATUS f)) ++ le 1 0 ++ le 2 (s.get (Obj.CONSEC_UNCOVERED f)) ++ le 4 0 ++
    le 8 (s.get (Obj.GOLDEN_FIRING f))

/-- What the last stage of a run does beside its own outputs, ending by `done`: a golden run's compare stage counts, or ends with what it meets; a firing's writes the
golden stamp, in the first bytes of the tile its argument names (R405, R407; log entry 183). -/
def lastStage (j : Nat) (x : Job) (done : Act) : Act := .read fun s =>
  match Tab.get? s.u.tt.runs x.run with
  | none => done
  | some y =>
    if x.stage + 1 ≠ y.stages.length then done
    else match y.owner with
      | .golden _ _ => match s.goldLoss y with
        | some f => endJob j f.1 f.2 0 0
        | none => all [.run' x.run (fun z => { z with counts := y.gold.map (s.goldCount y.ctx) }), done]
      | .firing f _ => all [
          match ((s.entryOf y.prog y.entry).bind (·.stamp)).map (fun a => s.tileOf y.ctx (y.args.getD a 0)) with
            | some (.inl t) => pokeTile t 0 (s.goldenStamp f)
            | _ => .skip,
          done]
      | _ => done

/-- JOB_END (R200): only a job that runs, alone or merged with one that does, ends by itself. -/
def execJobEnd (job : Nat) (r : JobResult) (s : State) : Host.Outcome State Fault Refusal :=
  need (Wf.jobEnd job r) s <| .read fun s => all [
    match Tab.get? s.u.tt.jobs job with
    | none => .skip
    | some x =>
      let runs (y : Job) : Bool := y.phase == .running || y.phase == .draining
      let lead := (x.merged.bind (Tab.get? s.u.tt.jobs)).getD x
      if ¬ (runs x && runs lead) ∨ x.wait.isSome ∨ x.decl.op.isSome then .skip
      else all [
        .job job (fun y => { y with output := y.output || r.output }),
        let ends := endWith job r.steps r.status r.detail r.flags r.stallNs
        if r.status = St.DONE ∨ r.status = St.DONE_FLAGGED then lastStage job x ends else ends],
    settle]

/-! ## Furrows (R209, R213) -/

/-- The furrow that a session has selected (R207). -/
def State.selected (s : State) (ses : Nat) : Nat := s.get (Obj.FURROW_SELECT ses)

/-- The group objects of a furrow. -/
def furrowGroup : List Nat := (List.range 12).map (· + 3) ++ (List.range 16).map (· + 0x20)

/-- A write of `v` to `FURROW_COMMAND` of furrow `f`. -/
def furrowCommand (f v : Nat) (s : State) : WriteRes :=
  let st := s.get (Obj.FURROW_STATE f)
  if v = 1 then
    if st = 1 ∧ s.get (Obj.CTX_STATE (s.get (Obj.F_CONTEXT f))) = 1 then .ok (all [
      .put (Obj.FURROW_STATE f) 2, .modify (Obj.ARMED_MASK (f / 64)) (fun m => setBit m (f % 64)),
      .furrow f (fun x => { x with sinceFiring := 0, ports := 0, portTov := none, goldenLost := true }),
      when (s.get (Obj.GOLDEN_EVERY f) != 0) (all [.put (Obj.GOLDEN_STATUS f) 0, .put (Obj.GOLDEN_FIRING f) 0xFFFFFFFFFFFFFFFF])])
    else .no Ab.STATE_FORBIDS
  else if v = 2 then
    if st = 2 then .ok (all [.furrow f (fun x => { x with stopping := true }), furrowSettle f]) else .no Ab.STATE_FORBIDS
  else if st = 1 then .ok (all [
    .put (Obj.FURROW_STATE f) 0,
    each furrowGroup (fun i => .put (Obj.FURROW_STATE f - 1 + i) (Obj.reset (Obj.FURROW_STATE f - 1 + i)))])
  else .no Ab.STATE_FORBIDS

/-- FURROW_ARM. -/
def execFurrowArm (ses : Nat) (s : State) : Host.Outcome State Fault Refusal :=
  need (Wf.furrowArm ses) s <| all [guarded ses (Obj.FURROW_COMMAND (s.selected ses)) 1 .sup true (furrowCommand (s.selected ses) 1), settle]

/-- FURROW_STOP. -/
def execFurrowStop (ses : Nat) (s : State) : Host.Outcome State Fault Refusal :=
  need (Wf.furrowStop ses) s <| all [guarded ses (Obj.FURROW_COMMAND (s.selected ses)) 2 .sup true (furrowCommand (s.selected ses) 2), settle]

/-- FURROW_CLEAR. -/
def execFurrowClear (ses : Nat) (s : State) : Host.Outcome State Fault Refusal :=
  need (Wf.furrowClear ses) s <| guarded ses (Obj.FURROW_COMMAND (s.selected ses)) 3 .sup true (furrowCommand (s.selected ses) 3)

/-- FURROW_TRIGGER. -/
def execFurrowTrigger (f tov tovFrac : Nat) (revised : Bool) (s : State) : Host.Outcome State Fault Refusal :=
  need (Wf.furrowTrigger f tov tovFrac revised) s <| all [trigger f tov tovFrac revised, settle]

/-- TICK_TRIGGER (R209, kind 2). -/
def execTickTrigger (f k : Nat) (s : State) : Host.Outcome State Fault Refusal :=
  need (Wf.tickTrigger f k) s <| .read fun s => all [
    when (s.get (Obj.TRIGGER_KIND f) == 2 && s.get (Obj.TRIGGER_PERIOD_NS f) != 0)
      (trigger f (s.get (Obj.TRIGGER_PHASE_NS f) + k * s.get (Obj.TRIGGER_PERIOD_NS f)) 0 false),
    settle]

/-! ## Semaphores (R220 to R224) -/

/-- The semaphore that a rank names for job `x`, if the job has declared it. -/
def State.semFor (s : State) (x : Job) (rank : Nat) : Option Nat :=
  match Tab.get? s.u.tt.runs x.run with
  | some r => if x.decl.sems.any (fun d => d.rank == rank) then s.semOf x.ctx r.prog rank else none
  | none => none

/-- Job `x` runs its program: it runs and does not wait. -/
def Job.active (x : Job) : Bool := (x.phase == .running || x.phase == .draining) && x.wait.isNone

/-- SEMAPHORE_ACQUIRE (R221, R222). -/
def execSemaphoreAcquire (job rank timeoutUs : Nat) (noLimit : Bool) (s : State) : Host.Outcome State Fault Refusal :=
  need (Wf.semaphoreAcquire job rank timeoutUs noLimit) s <| .read fun s => all [
    match Tab.get? s.u.tt.jobs job with
    | none => .skip
    | some x =>
      if ¬ x.active then .skip
      else match s.semFor x rank with
        | none => endJob job St.CONFIG_INVALID 0x0504 0 0
        | some i =>
          if x.held.any (fun h => decide (i ≤ h)) then all [
            .count 32 Obj.ORDER_VIOLATIONS 1,
            logEv Ev.ORDER_VIOLATION x.ctx i (x.held.foldl max 0),
            endJob job St.CONFIG_INVALID 0x0503 0 0]
          else match Tab.get? s.u.tt.sems i with
            | none => .skip
            | some y =>
              if 1 ≤ y.count then all [.sem i (fun z => { z with count := z.count - 1 }), .job job (fun z => { z with held := i :: z.held })]
              else if timeoutUs = 0 ∧ ¬ noLimit then .skip
              else all [
                .sem i (fun z => { z with waiters := z.waiters ++ [job] }),
                .job job (fun z => { z with
                  wait := some i, waitFrom := s.time, reported := false, noLimit := noLimit
                  -- a waiting job that holds no semaphore is at a yield point (R223)
                  phase := if z.phase = .draining ∧ z.held = [] ∧ z.stop = none ∧ ¬ z.evac then .saving else z.phase }),
                match x.stop with
                  | some f => when x.held.isEmpty (endJob job f.1 f.2 0 0)
                  | none => .skip,
                inherit],
    settle]

/-- SEMAPHORE_RELEASE (R221, R224). -/
def execSemaphoreRelease (job rank : Nat) (s : State) : Host.Outcome State Fault Refusal :=
  need (Wf.semaphoreRelease job rank) s <| .read fun s => all [
    match Tab.get? s.u.tt.jobs job with
    | none => .skip
    | some x =>
      if ¬ x.active then .skip
      else match s.semFor x rank with
        | none => endJob job St.CONFIG_INVALID 0x0504 0 0
        | some i => match Tab.get? s.u.tt.sems i with
          | none => .skip
          | some y =>
            if y.max ≤ y.count ∧ y.waiters = [] then endJob job St.CONFIG_INVALID 0x0504 0 0
            else all [.job job (fun z => { z with held := z.held.erase i }), semReturn i, inherit],
    settle]

/-- SEMAPHORE_TIMEOUT: the acquire fails and the program goes on; an acquire with NO_LIMIT has no timeout (R221). -/
def execSemaphoreTimeout (job : Nat) (s : State) : Host.Outcome State Fault Refusal :=
  need (Wf.semaphoreTimeout job) s <| .read fun s => all [
    match Tab.get? s.u.tt.jobs job with
    | some { wait := some i, noLimit := false, .. } => all [
        .sem i (fun z => { z with waiters := z.waiters.filter (· != job) }),
        .job job (fun z => { z with wait := if ((Tab.get? s.u.tt.sems i).elim false (fun y => y.waiters.contains job)) then none else z.wait }), inherit]
    | _ => .skip,
    settle]

/-! ## Windows, reports, energy (R203, R229, R233) -/

/-- FLOOR_WINDOW_END. -/
def execFloorWindowEnd (s : State) : Host.Outcome State Fault Refusal :=
  need Wf.floorWindowEnd s <| all [accrueAll, .tt fun t => { t with window := [] }]

/-- BLOCK_REPORT (R233): a wait on a semaphore, or at a barrier that some participants have reached, that lasts for more than `BLOCK_REPORT_MS` is reported once. -/
def execBlockReport (job : Nat) (s : State) : Host.Outcome State Fault Refusal :=
  need (Wf.blockReport job) s <| .read fun s =>
    match Tab.get? s.u.tt.jobs job with
    | none => .skip
    | some x =>
      let ms (from' : Nat) : Nat := (s.time - from') / 4294967296000000
      let long (from' : Nat) : Bool := decide (s.get Obj.BLOCK_REPORT_MS * 4294967296000000 < s.time - from')
      let bar := x.bars.findSome? (fun b => match Tab.get? s.u.tt.bars b with
        | some y => if y.arrived ≠ 0 ∧ ¬ y.reported ∧ long y.since then some (b, y) else none
        | none => none)
      let report (what n : Nat) : Act := all [.count 32 Obj.BLOCK_REPORTS 1, logEv Ev.BLOCK_REPORT x.ctx what n]
      if s.get Obj.BLOCK_REPORT_MS = 0 then .skip
      else match x.wait, bar with
        | some i, _ => when (!x.reported && long x.waitFrom) (all [report i (ms x.waitFrom % 2147483648), .job job (fun y => { y with reported := true })])
        | none, some b => all [report b.1 (2147483648 + ms b.2.since % 2147483648),
            .tt fun t => { t with bars := Tab.set t.bars b.1 { b.2 with reported := true } }]
        | none, none => .skip

/-- Job `j` of run `r` and context `c` is charged `part` µJ. -/
def charge (j r c part : Nat) : Act := .read fun s => all [
  .count 64 (Obj.ENERGY_UJ c) part,
  if (Tab.get? s.u.tt.jobs j).isSome then .job j (fun y => { y with uj := y.uj + part }) else .run' r (fun y => { y with uj := y.uj + part })]

/-- ENERGY_INTERVAL (R229): the energy of a field is shared among the jobs in proportion to their engine time in the interval, that of a memory group by the bytes they
moved through it, whole µJ each (log entry 55). -/
def execEnergyInterval (dom uj : Nat) (s : State) : Host.Outcome State Fault Refusal :=
  need (Wf.energyInterval dom uj) s <| .seq accrueAll <| .read fun s =>
    let mine := s.u.tt.spent.filter (fun e => e.1 / 4294967296 == dom)
    let total := mine.foldl (fun a e => a + e.2.2.2) 0
    all [
      .count 64 (Obj.DOM_ENERGY_UJ dom) uj,
      .tt (fun t => { t with spent := t.spent.filter (fun e => e.1 / 4294967296 != dom) }),
      each mine (fun e => charge (e.1 % 4294967296) e.2.2.1 e.2.1 (uj * e.2.2.2 / max 1 total))]

end Sys2Proof.Machine
end

