-- ==== Sys2Proof/Machine/Module.lean ====
section
/-! DEFINITION. The module around the part: input sense, the PMBus port, the console, boundary scan (R503, R519 to R527). -/

namespace Sys2Proof.Machine
open Act

/-! ## Input sense (R503) -/

/-- SENSE_INVALID (R503). -/
def execSenseInvalid (sense blade : Nat) (s : State) : Host.Outcome State Fault Refusal :=
  need (Wf.senseInvalid sense blade) s <| .read fun s =>
    when (s.u.boot.powered && s.get Obj.SENSE_VALID != 0 && decide (2000 < max sense blade - min sense blade)) (all [
      .put Obj.SENSE_VALID 0, .put Obj.INPUT_MV blade, .put Obj.BLADE_MV blade,
      logNoted noteVoltage Ev.SENSE_INVALID 0xFFFF sense blade])

/-- SENSE_VALID_RETURN (R503). -/
def execSenseValidReturn (sense blade : Nat) (s : State) : Host.Outcome State Fault Refusal :=
  need (Wf.senseValidReturn sense blade) s <| .read fun s =>
    when (s.u.boot.powered && decide (max sense blade - min sense blade ≤ 2000)) (all [
      .put Obj.SENSE_VALID 1, .put Obj.INPUT_MV sense, .put Obj.BLADE_MV blade])

/-! ## The PMBus port (R519, R520) -/

/-- `num ÷ den` in LINEAR11: a signed 11-bit mantissa and a 5-bit exponent, the smallest exponent whose rounded mantissa is at most 1,023 in size. -/
def linear11 (num : Int) (den : Nat) : Nat :=
  let mant (e : Nat) : Nat := -- exponent e - 16, to the nearest, ties to even
    let n := num.natAbs * 2 ^ (16 - e)
    let d := max 1 den * 2 ^ (e - 16)
    let q := n / d
    let r := n % d
    if d < 2 * r ∨ (2 * r = d ∧ q % 2 = 1) then q + 1 else q
  let e := ((List.range 32).find? fun e => decide (mant e ≤ 1023)).getD 31
  ((e + 16) % 32) * 2048 + (if num < 0 then (2048 - mant e) % 2048 else mant e)

/-- The answer to a PMBus command, which the port gives from STANDBY onward. -/
def pmbusAnswer (f : State → List Byte) : Act := .read fun s => when s.u.boot.powered (.emit (.pmbus (f s)))

/-- A block: its length, then its bytes. -/
def pmbusBlock (bs : List Byte) : List Byte := le 1 bs.length ++ bs

/-- The highest reading of a working junction sensor, in tenths of a degree. -/
def State.tjMax (s : State) : Int :=
  match (List.range 128).filter (fun i => !s.u.pow.failed.contains i) with
  | [] => 250
  | i :: is => is.foldl (fun m j => max m (s.reading j)) (s.reading i)

/-- CLEAR_FAULTS (R519): the bits whose conditions have ended, and with the last of those that assert it ALERT_N. -/
def execClearFaults (s : State) : Host.Outcome State Fault Refusal :=
  need Wf.clearFaults s <| .read fun s =>
    let mv := s.get Obj.INPUT_MV
    let input := s.u.pow.statusInput &&& ((if mv < 38000 then 16 else 0) + (if 60000 < mv then 128 else 0) + (if s.u.pow.overcurrent then 4 else 0))
    let temp := s.u.pow.statusTemp &&& ((if s.anyHot then 64 else 0) + (if s.u.pow.junction || s.u.boot.shut == some 0 then 128 else 0))
    let quiet := input == 0 && temp == 0
    when s.u.boot.powered (all [
      .pow (fun x => { x with
        statusInput := input, statusTemp := temp, statusCml := 0
        alert := x.alert && !quiet }),
      when (s.u.pow.alert && quiet) (.emit (.pin .alertN true))])

/-- CAPABILITY. -/
def execCapability (s : State) : Host.Outcome State Fault Refusal := need Wf.capability s <| pmbusAnswer fun _ => le 1 0xB0

/-- STATUS_WORD. -/
def State.statusWord (s : State) : Nat :=
  let p := s.u.pow
  (if p.statusCml ≠ 0 then 2 else 0) + (if p.statusTemp ≠ 0 then 4 else 0) + (if bit p.statusInput 4 then 8 else 0)
    + (if p.statusInput ≠ 0 then 8192 else 0) + (if bit p.statusInput 2 then 16384 else 0)

/-- STATUS_WORD. -/
def execStatusWord (s : State) : Host.Outcome State Fault Refusal := need Wf.statusWord s <| pmbusAnswer fun s => le 2 s.statusWord
/-- STATUS_INPUT. -/
def execStatusInput (s : State) : Host.Outcome State Fault Refusal := need Wf.statusInput s <| pmbusAnswer fun s => le 1 s.u.pow.statusInput
/-- STATUS_TEMPERATURE. -/
def execStatusTemperature (s : State) : Host.Outcome State Fault Refusal := need Wf.statusTemperature s <| pmbusAnswer fun s => le 1 s.u.pow.statusTemp
/-- STATUS_CML. -/
def execStatusCml (s : State) : Host.Outcome State Fault Refusal := need Wf.statusCml s <| pmbusAnswer fun s => le 1 s.u.pow.statusCml
/-- READ_VIN. -/
def execReadVin (s : State) : Host.Outcome State Fault Refusal := need Wf.readVin s <| pmbusAnswer fun s => le 2 (linear11 (s.get Obj.INPUT_MV) 1000)
/-- READ_IIN: input power over input voltage. -/
def execReadIin (s : State) : Host.Outcome State Fault Refusal :=
  need Wf.readIin s <| pmbusAnswer fun s => le 2 (linear11 (s.get Obj.INPUT_MW) (s.get Obj.INPUT_MV))
/-- READ_TEMPERATURE_1. -/
def execReadTemperature1 (s : State) : Host.Outcome State Fault Refusal := need Wf.readTemperature1 s <| pmbusAnswer fun s => le 2 (linear11 s.tjMax 10)
/-- READ_TEMPERATURE_2. -/
def execReadTemperature2 (s : State) : Host.Outcome State Fault Refusal :=
  need Wf.readTemperature2 s <| pmbusAnswer fun s => le 2 (linear11 s.u.pow.plate 10)
/-- READ_PIN. -/
def execReadPin (s : State) : Host.Outcome State Fault Refusal := need Wf.readPin s <| pmbusAnswer fun s => le 2 (linear11 (s.get Obj.INPUT_MW) 1000)
/-- PMBUS_REVISION. -/
def execPmbusRevision (s : State) : Host.Outcome State Fault Refusal := need Wf.pmbusRevision s <| pmbusAnswer fun _ => le 1 0x33
/-- MFR_ID: "TRELNAL". -/
def execMfrId (s : State) : Host.Outcome State Fault Refusal :=
  need Wf.mfrId s <| pmbusAnswer fun _ => pmbusBlock [0x54, 0x52, 0x45, 0x4C, 0x4E, 0x41, 0x4C]
/-- MFR_MODEL: "MBX-128" or "MBX-064". -/
def execMfrModel (s : State) : Host.Outcome State Fault Refusal :=
  need Wf.mfrModel s <| pmbusAnswer fun s => pmbusBlock ([0x4D, 0x42, 0x58, 0x2D] ++ if s.get Obj.ORDERING_CODE = 1 then [0x30, 0x36, 0x34] else [0x31, 0x32, 0x38])
/-- MFR_DEVICE_STATE. -/
def execMfrDeviceState (s : State) : Host.Outcome State Fault Refusal := need Wf.mfrDeviceState s <| pmbusAnswer fun s => le 1 s.dev
/-- MFR_ACTIVE_CAUSES. -/
def execMfrActiveCauses (s : State) : Host.Outcome State Fault Refusal :=
  need Wf.mfrActiveCauses s <| pmbusAnswer fun s => pmbusBlock (le 4 (s.get Obj.ACTIVE_CAUSES))

/-- A bit of STATUS_CML is set (R520). -/
def cmlFault (b : Nat) : Act := .pow fun x => { x with statusCml := setBit x.statusCml b }

/-- MFR_PIN_LIMIT (R519, R520): a value outside 60 to 180 is ignored and flagged; one above the ceiling is clamped. -/
def execMfrPinLimit (w : Option Nat) (s : State) : Host.Outcome State Fault Refusal :=
  need (Wf.mfrPinLimit w) s <| .read fun s =>
    match w with
    | none => pmbusAnswer fun s => le 2 (s.get Obj.PMBUS_LIMIT_W)
    | some v =>
      let top := s.get Obj.HW_CEILING_W
      when s.u.boot.powered (
        if v < 60 ∨ 180 < v then cmlFault 6
        else all [
          .put Obj.PMBUS_LIMIT_W (min v top),
          when (decide (top < v)) (logClamp 0xFFFF Obj.PMBUS_LIMIT_W v),
          budgetMoved])

/-- MFR_PIN_LIMIT_EN (R519, R520). -/
def execMfrPinLimitEn (w : Option Nat) (s : State) : Host.Outcome State Fault Refusal :=
  need (Wf.mfrPinLimitEn w) s <| .read fun s =>
    match w with
    | none => pmbusAnswer fun s => le 1 (s.get Obj.PMBUS_LIMIT_EN)
    | some v => when s.u.boot.powered (if 1 < v then cmlFault 6 else all [.put Obj.PMBUS_LIMIT_EN v, budgetMoved])

/-- PMBUS_UNSUPPORTED_COMMAND (R520). -/
def execPmbusUnsupportedCommand (code : Nat) (s : State) : Host.Outcome State Fault Refusal :=
  need (Wf.pmbusUnsupportedCommand code) s <| .read fun s => when s.u.boot.powered (cmlFault 7)

/-- ALERT_RESPONSE (R519): the module answers with its address while ALERT_N is asserted, and goes on asserting it. -/
def execAlertResponse (s : State) : Host.Outcome State Fault Refusal :=
  need Wf.alertResponse s <| .read fun s => when (s.u.boot.powered && s.u.pow.alert) (.emit (.pmbus (le 1 (s.get Obj.PMBUS_ADDRESS))))

/-! ## The console (R521) -/

/-- UART_RX_CHARACTER (R521). -/
def execUartRxCharacter (ch : Byte) (s : State) : Host.Outcome State Fault Refusal :=
  need (Wf.uartRxCharacter ch) s <| .read fun s =>
    when (s.get Obj.DEBUG_LEVEL != 0) (.boot fun b => { b with console := b.console ++ [ch] })

/-! ## Boundary scan (R522 to R527) -/

/-- What the TAP's record becomes. -/
def Act.tap (f : TapS → TapS) : Act := .units fun u => { u with tap := f u.tap }

/-- A pin-control instruction in force ends, and with it its hold (R524). -/
def pinControlEnds : Act := .read fun s =>
  when (s.get Obj.PIN_CONTROL_ACTIVE != 0) (all [.put Obj.PIN_CONTROL_ACTIVE 0, .tap (fun t => { t with driven := none }), holdEnds])

/-- The TAP is in Test-Logic-Reset: the instruction is IDCODE (R522). -/
def tapReset : Act := all [.put Obj.TAP_RESET 1, .put Obj.IR_ACTIVE 4, pinControlEnds]

/-- TEST_EN_CHANGE (R522). -/
def execTestEnChange (level : Bool) (s : State) : Host.Outcome State Fault Refusal :=
  need (Wf.testEnChange level) s <| all [.put Obj.TEST_EN_LEVEL (if level then 1 else 0), tapReset]

/-- TAP_TEST_LOGIC_RESET. -/
def execTapTestLogicReset (s : State) : Host.Outcome State Fault Refusal := need Wf.tapTestLogicReset s tapReset

/-- A pin-control instruction would be accepted: RESET_N is low, which holds the device in STANDBY or INIT (R524). -/
def State.pinControlOk (s : State) : Bool := s.u.boot.resetLow && (s.dev == Dev.STANDBY || s.dev == Dev.INIT)

/-- The TAP works: TEST_EN is high and the always-on core powered. -/
def State.tapOn (s : State) : Bool := s.get Obj.TEST_EN_LEVEL != 0 && s.u.boot.powered

/-- What an instruction register scan shifts out (R522). -/
def irCapture : Act := .read fun s => .emit (.tdo (1 + if s.pinControlOk then 0 else 4))

/-- The number of cells, 726 (R527). -/
abbrev cellCount : Nat := 2 ^ 726

/-- A scan of the boundary register: what it captured leaves, what was shifted in stays. -/
def scanCells (din cap : Nat) : Act := all [.emit (.tdo (cap % cellCount)), .tap (fun t => { t with cells := din % cellCount })]

/-- A scan of the bypass register, which captures 0 and delays by one. -/
def scanBypass (din : Nat) : Act := .emit (.tdo (din * 2))

/-- Instruction `op` is in force; one that is not pin control ends a hold. -/
def irPlain (op : Nat) : Act := all [.put Obj.TAP_RESET 0, .put Obj.IR_ACTIVE op, pinControlEnds]

/-- A pin-control instruction (R524): accepted with effect `a`, or decoded as BYPASS, counted and logged. -/
def irPins (op din : Nat) (a : Act) : Act := .read fun s =>
  when s.tapOn (all [
    irCapture,
    if s.pinControlOk then all [
      .put Obj.TAP_RESET 0, .put Obj.IR_ACTIVE op, .put Obj.PIN_CONTROL_ACTIVE 1, .count 32 Obj.PIN_CONTROL_ENTRIES 1, a]
    else all [
      irPlain 0xFF, .count 32 Obj.PIN_CONTROL_REFUSED 1, logEv Ev.PIN_CONTROL_REFUSED 0xFFFF op 0, scanBypass din]])

/-- The contacts follow the boundary register. -/
def driveCells (op : Nat) : Act := .read fun s => all [
  .tap (fun t => { t with driven := some t.cells }), .emit (.contacts op s.u.tap.cells)]

/-- An instruction that drives the contacts from the boundary register: with what was preloaded, then with what is shifted in. -/
def externalTest (op din cap : Nat) : Act := irPins op din (all [driveCells op, scanCells din cap, driveCells op])

/-- EXTEST. -/
def execExtest (din cap : Nat) (s : State) : Host.Outcome State Fault Refusal := need (Wf.extest din cap) s (externalTest 0 din cap)
/-- EXTEST_PULSE. -/
def execExtestPulse (din cap : Nat) (s : State) : Host.Outcome State Fault Refusal := need (Wf.extestPulse din cap) s (externalTest 2 din cap)
/-- EXTEST_TRAIN. -/
def execExtestTrain (din cap : Nat) (s : State) : Host.Outcome State Fault Refusal := need (Wf.extestTrain din cap) s (externalTest 3 din cap)

/-- SAMPLE_PRELOAD (R523). -/
def execSamplePreload (din cap : Nat) (s : State) : Host.Outcome State Fault Refusal :=
  need (Wf.samplePreload din cap) s <| .read fun s => when s.tapOn (all [irCapture, irPlain 1, scanCells din cap])

/-- IDCODE (R526). -/
def execIdcode (din cap : Nat) (s : State) : Host.Outcome State Fault Refusal :=
  need (Wf.idcode din cap) s <| .read fun s => when s.tapOn (all [irCapture, irPlain 4, .emit (.tdo (s.get Obj.IDCODE_VALUE + din * 2 ^ 32))])

/-- CLAMP: the contacts are held at the preloaded values. -/
def execClamp (din cap : Nat) (s : State) : Host.Outcome State Fault Refusal := need (Wf.clamp din cap) s (irPins 5 din (all [driveCells 5, scanBypass din]))

/-- HIGHZ: outputs high-impedance. -/
def execHighz (din cap : Nat) (s : State) : Host.Outcome State Fault Refusal :=
  need (Wf.highz din cap) s (irPins 6 din (all [.tap (fun t => { t with driven := none }), .emit (.contacts 6 0), scanBypass din]))

/-- BYPASS, or any opcode without an instruction of its own (R522, R523). -/
def execBypass (din cap : Nat) (s : State) : Host.Outcome State Fault Refusal :=
  need (Wf.bypass din cap) s <| .read fun s => when s.tapOn (all [irCapture, irPlain 0xFF, scanBypass din])

end Sys2Proof.Machine
end

