-- ==== Sys2Proof/Machine/Views.lean ====
section
/-! DEFINITION. The objects that show what other state holds: counts of units, reports on a selected unit, event records, budgets, temperatures. Reading any other
object gives its live value (R43). -/

namespace Sys2Proof.Machine
open Act

/-- How many elements satisfy `f`. -/
def countIf {α : Type} (xs : List α) (f : α → Bool) : Nat := (xs.filter f).length

/-- The word of 8 bytes from byte `8 * j` of `bs`. -/
def wordOf (bs : List Byte) (j : Nat) : Nat := ofLe ((bs.drop (8 * j)).take 8)

/-! ## Events (R64 to R67) -/

/-- The event at position `p` of the ring; zeros where none has been. -/
def State.ringAt (s : State) (p : Nat) : List Byte :=
  match s.log.ring.find? (fun e => decide ((e.seq - 1) % 1008 = p)) with
  | some e => e.bytes
  | none => []

/-- The flash entry at position `p`: entry f stands at (f - 1) mod 256. -/
def State.flashAt (s : State) (p : Nat) : Option (Event × Nat) :=
  (List.range s.log.flash.length).findSome? fun i =>
    if (s.log.flashCount - 1 - i) % 256 = p then s.log.flash[i]? else none

/-! ## Jobs (R202, R230) -/

/-- A job is dispatched and not paused. -/
def Job.isRunning (x : Job) : Bool := x.phase != .ready && x.phase != .paused

/-- The physical fields of context `c`'s logical-field slots: those of its running jobs in the order of their numbers. -/
def State.fieldSlots (s : State) (c : Nat) : List Nat :=
  ((s.u.tt.jobs.filter (fun e => e.2.ctx == c && e.2.isRunning)).flatMap (·.2.place)).take 64

/-- `SLOWDOWN_MILLI` of context `c`: the mean over the jobs of the last window, weighted by engine time (R230). -/
def State.slowdown (s : State) (c : Nat) : Nat :=
  let w := s.get Obj.SLOWDOWN_WINDOW_MS * 1000000 * 4294967296
  let js := s.u.tt.slow.filter fun e => e.1 == c && decide (s.time < e.2.1 + w)
  let weight := js.foldl (fun a e => a + e.2.2.2) 0
  if w = 0 ∨ weight = 0 then 0 else js.foldl (fun a e => a + e.2.2.1 * e.2.2.2) 0 / weight

/-- The contexts that have completed jobs. -/
def State.slowContexts (s : State) : List Nat := (s.u.tt.slow.map (·.1)).eraseDups

/-- The highest `SLOWDOWN_MILLI`. -/
def State.slowdownMax (s : State) : Nat := s.slowContexts.foldl (fun m c => max m (s.slowdown c)) 0

/-- The lowest context that holds it; 0xFFFF for none. -/
def State.slowest (s : State) : Nat :=
  if s.slowdownMax = 0 then 0xFFFF
  else (s.slowContexts.filter (fun c => s.slowdown c == s.slowdownMax)).foldl min 0xFFFF

/-! ## Tiles (R154 to R177) -/

/-- The home is on the peer tier. -/
def Home.onPeer : Home → Bool
  | .lease _ _ => true
  | .slot _ => false

/-- The tiles that satisfy `f`. -/
def State.tilesWith (s : State) (f : Nat → Tile → Bool) : Nat := countIf s.u.mem.tiles (fun e => f e.1 e.2)

/-- The fields' copies of tile `t`. -/
def State.copiesOf (s : State) (t : Nat) : Nat := countIf s.u.fields (fun e => e.2.copies.contains t)

/-! ## Power -/

/-- `DOM_GRANT_UNITS` of domain `d`: a field's grants with what its step and an abandoned one hold, or its idle reserve; another domain's reserve (R420, R424,
R429). -/
def State.domUnits (s : State) (d : Nat) : Nat :=
  if d < 66 then
    (if s.powered d ∧ (s.jobsOn d).isEmpty then 10 else s.fieldUnits d)
      + ((Tab.get? s.u.pow.steps d).map (·.extra)).getD 0 + Tab.at s.u.pow.stuck d 0
  else if ¬ s.powered d then 0
  else if 74 ≤ d ∧ d ≤ 76 then drawUnits (s.get (Obj.DOM_MAX_MW d)) (s.get (Obj.DOM_SET_MV d)) 32 s.scale
  else s.get (Obj.DOM_MAX_MW d) / 10

/-- The hottest working sensor of domain `d`. -/
def State.domainMax (s : State) (d : Nat) : Int := match s.domainTemps d with
  | [] => 0
  | t :: ts => ts.foldl max t

/-- The lowest working sensor that reads the highest temperature. -/
def State.hottest (s : State) : Nat :=
  (((List.range 128).filter (fun i => !s.u.pow.failed.contains i)).find? (fun i => decide (s.reading i = s.tjMax))).getD 0

/-- `SENSOR_ROLE` of sensor `i`. -/
def State.sensorRole (s : State) (i : Nat) : Nat :=
  if s.u.pow.failed.contains i then 3 else if (Tab.get? s.u.pow.stand i).isSome then 2 else if 94 ≤ i then 1 else 0

/-- `SAFETY_STATE`. -/
def State.safetyState (s : State) : Nat := if s.dev ≠ Dev.HOLD then 0 else if s.get Obj.OUT_STATE = 0 then 2 else 1

/-- The TxPDO of the slave port, 16 bytes (R487). -/
def State.txPdo (s : State) : List Byte :=
  le 1 s.dev ++ le 1 s.safetyState ++ le 1 (s.get Obj.TB_STATE) ++ le 1 0 ++ le 4 (s.get Obj.ACTIVE_CAUSES) ++ le 4 (s.get Obj.LATCHED_CAUSES)
    ++ le 2 (ofSigned 16 s.tjMax) ++ le 2 (s.get Obj.INPUT_MW / 1000)

/-! ## Groups of objects, by index -/

/-- 0x2000 to 0x22FF and 0x1000 to 0x1FFF. -/
def State.viewLow (s : State) (ses i sub : Nat) : Option Nat :=
  if i = 0x1001 ∧ sub = 1 then some s.errorRegister
  else if i = 0x1A00 ∧ (sub = 1 ∨ sub = 2) then some (wordOf s.txPdo (sub - 1))
  else if i = 0x2010 ∧ sub = 7 then some s.u.tt.progs.length
  else if i = 0x2010 ∧ sub = 8 then some s.programSpace
  else if i = 0x2180 ∧ sub = 1 then some s.log.total
  else if i = 0x2180 ∧ sub = 0x0A then some s.log.flashCount
  else if i = 0x2181 ∧ 2 ≤ sub ∧ sub ≤ 5 then
    some (((s.flashAt (s.get (Obj.FLASH_SELECT ses))).map (fun e => wordOf e.1.bytes (sub - 2))).getD 0)
  else if i = 0x2181 ∧ sub = 6 then some (((s.flashAt (s.get (Obj.FLASH_SELECT ses))).map (·.2)).getD 0)
  else if i = 0x2181 ∧ sub = 7 then some ((s.log.flashCount - 1) % 256)
  else if 0x2190 ≤ i ∧ i ≤ 0x219F ∧ 1 ≤ sub then some (wordOf (s.ringAt ((i - 0x2190) * 63 + (sub - 1) / 4)) ((sub - 1) % 4))
  else if i = 0x2200 ∧ sub = 0x0B then some s.ns
  else if i = 0x2200 ∧ sub = 0x0F then some (if s.get Obj.TB_STATE = 3 then (s.time - s.u.time.holdFrom) / 4294967296 else 0)
  else none

/-- 0x2300 to 0x24FF: fields and memory. -/
def State.viewMem (s : State) (ses i sub : Nat) : Option Nat :=
  let active := (List.range 66).filter s.fieldActive
  let spare := (List.range 66).filter (fun f => s.get (Obj.FIELD_ROLE f) == 1)
  let c := s.get (Obj.QUERY_CONTEXT ses)
  if 0x2300 ≤ i ∧ i ≤ 0x2341 then
    (if sub = 2 then some (s.fieldEngines (i - 0x2300)) else if sub = 3 then some (s.healthy (i - 0x2300)) else none)
  else if i = 0x2380 then match sub with
    | 1 => some active.length
    | 2 => some spare.length
    | 3 => some (active.foldl (fun a f => a + s.fieldEngines f) 0)
    | 4 => some ((active ++ spare).foldl (fun a f => a + s.healthy f - s.fieldEngines f) 0)
    | 5 => some ((List.range 66).foldl (fun a f => a + (34 - s.healthy f)) 0)
    | _ => none
  else if i = 0x2411 then match sub with
    | 1 => some (s.u.mem.tiles.length)
    | 2 => some s.slotsFree
    | 3 => some (s.tilesWith fun _ x => x.home.onPeer)
    | 4 => some (s.tilesWith fun _ x => x.shared)
    | 5 => some (s.tilesWith fun _ x => x.shared && x.replica.isNone)
    | 6 => some (s.tilesWith fun _ x => x.lost.isSome)
    | _ => none
  else if i = 0x2412 then match sub with
    | 2 => some (s.tilesWith fun _ x => x.ctx == c && !x.home.onPeer)
    | 3 => some (s.tilesWith fun _ x => x.ctx == c && x.home.onPeer)
    | 4 => some ((s.u.mem.tiles.filter (fun e => e.2.ctx == c)).foldl (fun a e => a + s.copiesOf e.1) 0)
    | 5 => some ((s.u.tt.jobs.filter (fun e => e.2.ctx == c && e.2.isRunning)).foldl (fun a e => a + e.2.grans.length) 0)
    | 6 => some (2 ^ (s.fieldSlots c).length - 1)
    | 7 => some (s.tilesWith fun _ x => x.ctx == c && x.lost.isSome)
    | _ => none
  else if i = 0x2420 ∧ sub = 2 then some (countIf (List.range 8) (fun n => s.get (Obj.LEASE_STATE n) != 0))
  else if 0x2421 ≤ i ∧ i ≤ 0x2428 ∧ sub = 5 then some (s.leaseUsed (i - 0x2421)).length
  else if i = 0x2430 ∧ sub = 2 then some (ceilDiv (s.u.mem.lent.foldl (fun a e => a + e.2.slots) 0 * 4160) 1048576)
  else none

/-- 0x2500 to 0x26FF: the Timetable, sequences and streams. -/
def State.viewJobs (s : State) (ses i sub : Nat) : Option Nat :=
  let jobs := s.u.tt.jobs
  if i = 0x2500 then match sub with
    | 1 => some (countIf jobs (fun e => e.2.phase == .ready))
    | 2 => some (countIf jobs (fun e => e.2.isRunning))
    | 3 => some (countIf jobs (fun e => e.2.phase == .paused))
    | 0x0A => some s.u.tt.sems.length
    | 0x0B => some s.u.tt.bars.length
    | _ => none
  else if i = 0x2502 then
    let n := s.get (Obj.SEM_SELECT ses)
    match Tab.get? s.u.tt.sems n, sub with
    | some x, 2 => some x.ctx
    | some x, 3 => some x.count
    | some x, 4 => some x.max
    | some x, 5 => some x.waiters.length
    | some _, 6 => some (countIf jobs (fun e => e.2.held.contains n && e.2.inh.isSome))
    | _, _ => none
  else if i = 0x2503 then
    match Tab.get? s.u.tt.bars (s.get (Obj.BAR_SELECT ses)), sub with
    | some b, 2 => some (((Tab.get? jobs b.job).map (·.ctx)).getD 0xFFFF)
    | some b, 3 => some b.n
    | some b, 4 => some b.arrived
    | some b, 5 => some b.phase
    | _, _ => none
  else if i = 0x2504 then
    let c := s.get (Obj.JR_CONTEXT ses)
    if sub = 2 then some (countIf jobs (fun e => e.2.ctx == c && e.2.isRunning))
    else if sub = 3 then some (countIf jobs (fun e => e.2.ctx == c && e.2.phase == .paused))
    else if 0x10 ≤ sub ∧ sub ≤ 0x17 then
      some (wordOf ((s.fieldSlots c ++ List.replicate 64 0xFF).map (BitVec.ofNat 8)) (sub - 0x10))
    else none
  else if i = 0x2505 ∧ sub = 2 then some s.slowdownMax
  else if i = 0x2505 ∧ sub = 3 then some s.slowest
  else if i = 0x2600 ∧ sub = 1 then some s.u.seq.walks.length
  else if i = 0x2600 ∧ sub = 5 then some s.u.seq.edits.length
  else if i = 0x2620 then match sub with
    | 2 => some (countIf s.u.streams (fun e => s.get (Obj.STREAM_STATE e.1) != 0))
    | 3 => some (countIf s.u.streams (fun e => s.get (Obj.STREAM_STATE e.1) == 4))
    | 4 => some (s.u.streams.foldl (fun a e => a + e.2.engines.length) 0)
    | _ => none
  else none

/-- The rest. -/
def State.viewHigh (s : State) (ses i sub : Nat) : Option Nat :=
  let n := s.get (Obj.SENSOR_SELECT ses)
  if i = 0x2800 ∧ sub = 1 then some (countIf (List.range 8) s.filterOn)
  else if i = 0x2A00 ∧ sub = 5 then some (countIf s.chans (fun c => s.get (Obj.CH_STATE c) == 1 || s.get (Obj.CH_STATE c) == 2))
  else if i = 0x2A00 ∧ sub = 6 then some (countIf s.chans (fun c => s.get (Obj.CH_STATE c) == 3))
  else if i = 0x2D00 ∧ sub = 1 then some s.safetyState
  else if 0x2E00 ≤ i ∧ i ≤ 0x2E4F ∧ sub = 7 then some (s.domUnits (i - 0x2E00))
  else if 0x2E00 ≤ i ∧ i ≤ 0x2E4F ∧ sub = 0x0A then some (ofSigned 16 (s.domainMax (i - 0x2E00)))
  else if i = 0x2E80 then match sub with
    | 8 => some s.budget
    | 9 => some s.budgetSource
    | 0x0B => some s.available
    | 0x0C => some s.granted
    | 0x0D => some s.reserve
    | _ => none
  else if i = 0x2E81 then match sub with
    | 1 => some (ofSigned 16 s.tjMax)
    | 2 => some s.hottest
    | 0x0F => some (ofSigned 16 (s.reading n))
    | 0x10 => some (s.sensorRole n)
    | 0x11 => some ((Tab.get? s.u.pow.stand n).getD 0xFF)
    | _ => none
  else if 0x4000 ≤ i ∧ i ≤ 0x4FFF ∧ sub = 0x14 then some (s.slowdown (i - 0x4000))
  else if 0x5000 ≤ i ∧ i ≤ 0x5FFF ∧ sub = 0x14 then some (s.chunksOf (i - 0x5000)).length
  else none

/-- What an object shows that holds no state of its own. -/
def State.view (s : State) (ses i sub : Nat) : Option Nat :=
  if i < 0x2300 then s.viewLow ses i sub
  else if i < 0x2500 then s.viewMem ses i sub
  else if i < 0x2700 then s.viewJobs ses i sub
  else s.viewHigh ses i sub

/-- Figures that no command of the table brings: traffic of the Lanes and of Ethernet; and the temperature of a domain that has lost every sensor.
A read of one gives a free value (log entry 63). -/
def State.openFigure (s : State) (i sub : Nat) : Bool :=
  (i == 0x2381 && 1 ≤ sub && sub ≤ 5) || (0x2F11 ≤ i && i ≤ 0x2F14 && (sub == 7 || sub == 8))
    || (0x2E00 ≤ i && i ≤ 0x2E4F && sub == 0x0A && (s.domainTemps (i - 0x2E00)).isEmpty)

end Sys2Proof.Machine
end

