-- ==== Sys2Proof/Machine/Groups.lean ====
section
/-! DEFINITION. Staged groups: commit, discard, application (R43 to R50). -/

namespace Sys2Proof.Machine
open Act

/-- The control key of the group at index `i`, as session `ses` reaches it: a furrow's groups stand behind the session's selection (R207, R404). -/
def State.groupKey (s : State) (ses i : Nat) : Nat :=
  if i = 0x2581 then furrowCtl (s.get (Obj.FURROW_SELECT ses))
  else if i = 0x2D21 then dictationCtl (s.get (Obj.DICTATION_SELECT ses))
  else i

/-- The level of a group: that of its objects (R44). -/
def groupLvl (i : Nat) : Lvl :=
  if 0x5000 ≤ i ∧ i ≤ 0x5FFF then .host else if i = 0x2D21 ∨ (0x2D40 ≤ i ∧ i ≤ 0x2D4F) then .saf else .sup

/-- Session `ses` may not write to the stream at index `i`: it is not FREE and its context does not admit the session (R267). -/
def State.streamShut (s : State) (ses i : Nat) : Bool :=
  decide (0x5000 ≤ i ∧ i ≤ 0x5FFF) && s.get (Obj.STREAM_STATE (i - 0x5000)) != 0
    && !bit (s.get (Obj.ADMIT_SESSIONS (s.get (Obj.S_CONTEXT (i - 0x5000))))) ses

/-- The code that a write to the shadow of group `c`, a commit or a discard of it by session `ses` meets (R45, R48, R267). -/
def State.groupShut (s : State) (ses c : Nat) : Nat := if s.streamShut ses (c % 65536) then Ab.ACCESS_LEVEL else groupCode s ses c

/-- What a group that becomes PENDING claims: a furrow's Dictation set its scratch tiles, a live stream the tiles of its new form (R268, R404). -/
def claimFor (c : Nat) : Act := .read fun s =>
  let f := c / 65536
  let i := c % 65536
  if i = 0x2D21 then
    let n := s.scratchTiles f
    let x := s.get (Obj.F_CONTEXT f)
    all [.furrow f (fun y => { y with newScratch := if n = 0 then none else some (x, s.freeNumbers n, n) }), when (n != 0) (allocTiles x n)]
  else if 0x5000 ≤ i ∧ i ≤ 0x5FFF then .stream (i - 0x5000) (fun x => { x with reserved := s.newTiles (i - 0x5000) })
  else .skip

/-- A commit of group `c` by session `ses` (R46, R50). -/
def commitGroup (ses c : Nat) (s : State) : WriteRes :=
  let st := s.get (Obj.COMMIT_STATUS c)
  if s.groupShut ses c ≠ 0 then .no (s.groupShut ses c)
  else if st = 0 ∨ st = 3 then .ok (.wrap 32 (Obj.COMMIT_COUNT c) 1)
  else match checkGroup s ses c with
    | some (code, sub) => (Ab.COMMIT_INCONSISTENT, all [
        .put (Obj.COMMIT_STATUS c) 4, .put (Obj.COMMIT_ABORT c) code, .put (Obj.COMMIT_FAULT_OBJECT c) (idxOf c % 65536 * 256 + sub),
        when (code == 0x0545) (.count 32 Obj.CYCLES_REFUSED 1)])
    | none => .ok (all [
        .put (Obj.COMMIT_STATUS c) 2,
        .dict (fun d => { d with pendingGroups := d.pendingGroups.filter (· != c) ++ [c] }),
        claimFor c, boundaryMet c])

/-- A discard of group `c` by session `ses` (R50). -/
def discardGroup (ses c : Nat) (s : State) : WriteRes :=
  let st := s.get (Obj.COMMIT_STATUS c)
  if s.groupShut ses c ≠ 0 then .no (s.groupShut ses c)
  else .ok (when (st == 1 || st == 4) (groupDiscard c))

/-- A write of `v` to `COMMIT` of group `c`. -/
def groupCommand (ses c v : Nat) (s : State) : WriteRes := if v = 1 then commitGroup ses c s else discardGroup ses c s

/-- The key of a group's `COMMIT`. -/
def commitKey (c : Nat) : Nat := c * 256 + 0xF8

/-- GROUP_COMMIT. -/
def execGroupCommit (ses g : Nat) (s : State) : Host.Outcome State Fault Refusal :=
  need (Wf.groupCommit ses g) s <|
    all [guarded ses (commitKey (s.groupKey ses g)) 1 (groupLvl g) true (commitGroup ses (s.groupKey ses g)), settle]

/-- GROUP_DISCARD. -/
def execGroupDiscard (ses g : Nat) (s : State) : Host.Outcome State Fault Refusal :=
  need (Wf.groupDiscard ses g) s <|
    guarded ses (commitKey (s.groupKey ses g)) 2 (groupLvl g) true (discardGroup ses (s.groupKey ses g))

/-- GROUP_APPLY: the block of group `c` meets its boundary (R47). -/
def execGroupApply (g : Nat) (s : State) : Host.Outcome State Fault Refusal :=
  need (Wf.groupApply g) s <| all [boundaryMet g, settle]

end Sys2Proof.Machine
end

