-- ==== Sys2Proof/Machine/Planner.lean ====
section
/-! DEFINITION. The commands of the planner (R347 to R364). -/

namespace Sys2Proof.Machine
open Act

/-! ## Whose turn it is (R364) -/

/-- The planner's operations that have been dispatched, in the order in which they are served. -/
def State.planOrder (s : State) : List (Nat × Job) :=
  sortBy (fun a b => decide (a.2.runCls < b.2.runCls ∨ (a.2.runCls = b.2.runCls ∧ a.2.arrival ≤ b.2.arrival)))
    (s.placedJobs.filter fun e => match e.2.decl.op with
      | none => false
      | some o => o.domain == 75)

/-- Job `j` is served now: the planner is on and nothing comes before it. A job that is to stop ends here. -/
def served (j : Nat) (go : Job → Act) : Act := .read fun s =>
  match s.planOrder with
  | [] => .skip
  | (i, x) :: _ =>
    if i ≠ j ∨ s.get (Obj.DOM_STATE 75) ≠ 2 ∨ s.u.pow.overcurrent then .skip
    else match x.stop with
      | some f => endJob j f.1 f.2 0 0
      | none => go x

/-! ## Update batches (R347 to R349) -/

/-- The batch of job `j`, with what it ends the job with where it cannot be applied. -/
def batch (j tov : Nat) (ops : List MapOp) (done : Act) : Act := .read fun s =>
  if 4096 < ops.length ∨ ops.any (fun o => decide (s.bricks ≤ o.brick)) then endJob j St.CONFIG_INVALID 0x0A06 0 0
  else if ops = [] then done
  else
    let c := s.get Obj.MAP_CONTEXT
    let merged : Bool := s.u.plan.pending.isSome || decide (s.get Obj.EPOCHS_MAX ≤ s.u.plan.epochs.length)
    let read := ops.filterMap (fun o => match o with
      | .min b _ => some b
      | _ => none)
    match s.mapLoss s.batchBase read, s.allocFault c (s.indexTiles + ((ops.map MapOp.brick).eraseDups).length) with
    | some f, _ => endJob j f.1 f.2 0 0
    | none, some d => all [.count 32 Obj.UPDATES_REFUSED 1, endJob j St.CONFIG_INVALID d 0 0]
    | none, none => all [
        applyBatch c tov ops,
        if merged then .count 32 Obj.UPDATES_MERGED 1 else .count 64 Obj.UPDATES_APPLIED 1,
        done]

/-- MAP_BATCH_COMMIT: a stage of the planner ends with its batch; a job on fields goes on. -/
def execMapBatchCommit (job tov : Nat) (ops : List MapOp) (s : State) : Host.Outcome State Fault Refusal :=
  need (Wf.mapBatchCommit job tov ops) s <| .read fun s => all [
    match Tab.get? s.u.tt.jobs job with
    | none => .skip
    | some x =>
      if s.groupPending 0x2901 ∨ ¬ (x.phase = .running ∨ x.phase = .draining) then .skip
      else match x.decl.op with
        | some .batch => served job fun _ => batch job tov ops (all [.job job (fun y => { y with output := true }), endJob job St.DONE 0 0 0])
        | some _ => .skip
        | none => when (s.get (Obj.DOM_STATE 75) == 2) (batch job tov ops (.job job (fun y => { y with output := true }))),
    settle]

/-- A write to `MAP_CLEAR`. -/
def mapClear (_s : State) : WriteRes := .ok clearMap

/-- MAP_CLEAR (R346). -/
def execMapClear (ses v : Nat) (s : State) : Host.Outcome State Fault Refusal :=
  need (Wf.mapClear ses v) s <| guarded ses Obj.MAP_CLEAR v .sup (v == 1) mapClear

/-! ## Queries (R356, R357) -/

/-- The epoch that a query reads: the declared one, or the newest; none if it no longer exists. -/
def State.queryEpoch (s : State) (declared : Option Nat) : Option (Nat × Epoch) :=
  let n := declared.getD (s.get Obj.EPOCH_NEWEST)
  (Tab.get? s.u.plan.epochs n).map fun e => (n, e)

/-- The output header of a query. -/
def queryHead (n : Nat) (e : Epoch) : List Byte := le 4 n ++ le 4 0 ++ le 8 e.tov

/-- The query of job `j` is answered with what `body` makes of its epoch, of which it reads the bricks that `bricks` names. -/
def answerQuery (j : Nat) (x : Job) (declared : Option Nat) (outs : List (Nat × List Byte)) (count : Act) (bricks : State → List Nat) (body : State → Epoch → List Byte) : Act := .read fun s =>
  match s.queryEpoch declared with
  | none => endJob j St.MAP_CHANGED 0x0A10 0 0
  | some (n, e) => match s.outFault x.ctx outs, s.mapLoss e (bricks s) with
    | some f, _ => endJob j f.1 f.2 0 0
    | none, some f => endJob j f.1 f.2 0 0
    | none, none => all [
        writeOut x.ctx outs (queryHead n e ++ body s e), count,
        .job j (fun y => { y with output := true }), endJob j St.DONE 0 0 0]

/-- The bricks that a sphere query reads for one sphere: of its voxel and of that one's neighbours. -/
def State.sphereBricks (s : State) (q : Nat × Nat × Nat × Nat) : List Nat := match s.voxelOf (q.1, q.2.1, q.2.2.1) with
  | some (x, y, z) => [(0, 0, 0), (1, 0, 0), (-1, 0, 0), (0, 1, 0), (0, -1, 0), (0, 0, 1), (0, 0, -1)].filterMap fun d => s.brickAt (x + d.1) (y + d.2.1) (z + d.2.2)
  | none => []

/-- SPHERE_QUERY. Zero spheres produce an empty output. -/
def execSphereQuery (job : Nat) (spheres : List (Nat × Nat × Nat × Nat)) (outs : List (Nat × List Byte)) (s : State) : Host.Outcome State Fault Refusal :=
  need (Wf.sphereQuery job spheres outs) s <| all [
    served job fun x => match x.decl.op with
      | some (.spheres e) => if 65536 < spheres.length then endJob job St.CONFIG_INVALID 0x0A00 0 0 else answerQuery job x e outs (all [.count 64 Obj.QUERY_SPHERES spheres.length, .draw 2048]) (fun s => spheres.flatMap s.sphereBricks)
          (fun s e => spheres.flatMap (s.sphereBytes e))
      | _ => .skip,
    settle]

/-- The pass flag and the smallest margin of a segment, from the poses checked along it. -/
def State.segmentBytes (s : State) (e : Epoch) (m : List Byte) (ps : List Pose) : List Byte :=
  let margin := ps.foldl (fun a p => a.min (s.poseMargin e m p)) (.inf false)
  le 4 (if ps.all (s.poseClear e m) then 1 else 0) ++ le 4 (marginFp (s.free 0 64) margin)

/-- SEGMENT_QUERY: pairs of configurations. -/
def execSegmentQuery (job : Nat) (pairs : List (List Nat × List Nat)) (outs : List (Nat × List Byte)) (s : State) : Host.Outcome State Fault Refusal :=
  need (Wf.segmentQuery job pairs outs) s <| all [
    served job fun x => match x.decl.op with
      | some (.segments n e) => .read fun s =>
        if 1024 < pairs.length then endJob job St.CONFIG_INVALID 0x0A00 0 0 else
        let poses := pairs.map fun q => segmentPoses (s.model n) (s.get Obj.CHECK_STEP_MM) q.1 q.2
        answerQuery job x e outs (.draw 2048) (fun s => poses.flatten.flatMap s.poseBricks) (fun s e => poses.flatMap (s.segmentBytes e (s.model n)))
      | _ => .skip,
    settle]

/-! ## Planning runs (R359 to R363) -/

/-- The run of job `j` ends: its record is written unless its CRC is found wrong, its counts and its status follow (R363, R408); `best` is the released path's rank,
waypoints and cost. Output tiles that it cannot write end it first (R192). -/
def endPlan (j : Nat) (x : Job) (p : PlanRun) (r : PlanRunS) (reason checked : Nat) (best : Option (Nat × List (List Nat) × Nat)) (outs : List (Nat × List Byte)) (crcBad : Bool) : Act := .read fun s =>
  let ranked := (r.cands.map (·.length)).getD 0
  let e := Tab.at s.u.plan.epochs checked {}
  let margin := match best with
    | some b => marginFp (s.free 0 64) ((pathPoses r.model (s.get Obj.CHECK_STEP_MM) b.2.1).foldl (fun a q => a.min (s.poseMargin e r.model q)) (.inf false))
    | none => 0
  let rec' := s.pathRecord p r reason checked ranked (best.map fun b => (b.1, b.2.1)) ((best.map (·.2.2)).getD 0) margin
  match s.outFault x.ctx outs with
  | some f => endJob j f.1 f.2 0 0
  | none => all [
      e2eChecked,
      if crcBad then e2eFailed p.model ((Tab.at s.u.plan.runNo p.model 0 + 1) % 65536) 0 else writeOut x.ctx outs rec',
      .draw 2048,
      .plan (fun y => { y with runNo := Tab.upd y.runNo p.model 0 (· + 1) }),
      if reason = 0 then .count 64 Obj.RUNS_DONE 1 else .count 32 Obj.RUNS_NO_PATH 1,
      .job j (fun y => { y with output := true }),
      if reason = 0 then endJob j St.DONE 0 0 0 else endJob j St.NO_PATH (0x0A20 + reason) 0 0]

/-- Rank candidates by cost, earlier found first among equals. -/
def rank (m : List Byte) (cs : List (List (List Nat))) : List (List (List Nat) × Nat) :=
  (sortBy (fun (a b : List (List Nat) × Num) => !b.2.lt a.2) (cs.map fun c => (c, pathCost m c))).map fun c => (c.1, toFp32 0 c.2)

/-- The candidates in rank order until one passes (R362): how many failed, poses checked again, the one that passes with its rank. -/
def State.validate (s : State) (r : PlanRunS) (same : Bool) (e : Epoch) : Nat → List (List (List Nat) × Nat) → Nat × Nat × Option (Nat × List (List Nat) × Nat)
  | _, [] => (0, 0, none)
  | i, c :: cs =>
    let again := if same then [] else (pathPoses r.model (s.get Obj.CHECK_STEP_MM) c.1).filter (s.touches r.dirty)
    if again.all (s.poseClear e r.model) then (0, again.length, some (i, c.1, c.2))
    else
      let v := s.validate r same e (i + 1) cs
      (v.1 + 1, v.2.1 + again.length, v.2.2)

/-- A configuration is one of the goals, each joint within its tolerance. -/
def PlanRun.reaches (p : PlanRun) (q : List Nat) : Bool := p.goals.any fun g => q.length == g.1.length &&
  (List.range q.length).all fun i => ((fp (q.getD i 0)).add (fp (g.1.getD i 0)).minus).abs.le (fp (g.2.getD i 0))

/-- A path from the start to a goal, clear on every segment in an epoch (R354). -/
def State.isCand (s : State) (e : Epoch) (m : List Byte) (p : PlanRun) (way : List (List Nat)) : Bool :=
  way.head? == some p.start && (way.getLast?.map p.reaches).getD false && way.all (withinLimits m) &&
    (pathPoses m (s.get Obj.CHECK_STEP_MM) way).all (s.poseClear e m)

/-- What a planning run's search depends on (R360): the model, the inputs, the seed, the road map, the epoch. -/
def State.searchKey (s : State) (p : PlanRun) (r : PlanRunS) : List (List Nat) :=
  [r.model.map (·.toNat), p.start, [p.model, p.method, p.samples, p.target, p.shortcuts, p.seed, p.waypoints, r.epoch, s.get Obj.CHECK_STEP_MM, s.get Obj.CLEARANCE_MARGIN_MM]]
    ++ p.goals.flatMap (fun g => [g.1, g.2]) ++ (if p.method = 1 then Tab.at s.u.plan.roads p.model [] else [])

/-- What search and shortcutting come to: clear candidates up to the target, in the order found; samples drawn; nodes; the road map after them; whether a tree filled. With a
sample limit of 0 only the direct segments from the start to the goals are tried. -/
def State.searched (s : State) (e : Epoch) (p : PlanRun) (r : PlanRunS) : List (List (List Nat)) × Nat × Nat × List (List Nat) × Bool :=
  let found := Config.search (s.searchKey p r)
  let road := if p.method = 1 then (Tab.at s.u.plan.roads p.model [] ++ found.2.2.2.1).take (s.get (Obj.ROADMAP_LIMIT p.model)) else []
  let ways := if p.samples = 0 then p.goals.map (fun g => [p.start, g.1]) else found.1
  ((ways.eraseDups.filter (s.isCand e r.model p)).take p.target, min p.samples found.2.1,
    if p.method = 1 then road.length else min 131072 found.2.2.1, road, decide (p.method = 0 ∧ p.samples ≠ 0) && found.2.2.2.2)

/-- What a slice makes of a run. -/
def planStep (j : Nat) (x : Job) (p : PlanRun) (r : PlanRunS) : PlanStep → Act
  | .work => .skip
  | .begin outs crcBad => .read fun s =>
    let e := Tab.at s.u.plan.epochs r.epoch {}
    let pose (q : List Nat) : Pose := poseOf r.model .zero (q.map fp)
    if r.begun then .skip
    else match s.mapLoss e ((p.start :: p.goals.map (·.1)).flatMap (fun q => s.poseBricks (pose q))) with
    | some f => endJob j f.1 f.2 0 0
    | none =>
      if ¬ s.poseClear e r.model (pose p.start) then endPlan j x p r 3 0 none outs crcBad
      else if ¬ p.goals.any (fun g => s.poseClear e r.model (pose g.1)) then endPlan j x p r 4 0 none outs crcBad
      else .plan fun y => { y with runs := Tab.upd y.runs j r (fun z => { z with begun := true }) }
  | .search => .read fun s =>
    let e := Tab.at s.u.plan.epochs r.epoch {}
    let f := s.searched e p r
    let fits := f.1.filter (fun c => decide (c.length ≤ p.waypoints))
    if ¬ r.begun ∨ r.cands.isSome then .skip
    else match s.mapLoss e (f.1.flatMap fun w => (pathPoses r.model (s.get Obj.CHECK_STEP_MM) w).flatMap s.poseBricks) with
    | some l => endJob j l.1 l.2 0 0
    | none => all [
        .plan fun y => { y with
          runs := Tab.upd y.runs j r (fun z => { z with
            cands := some (rank r.model fits), dropped := decide (fits.length < f.1.length), full := f.2.2.2.2
            samples := f.2.1, nodes := f.2.2.1 })
          roads := if p.method = 1 then Tab.set y.roads p.model f.2.2.2.1 else y.roads },
        when (p.method == 1) (.put (Obj.ROADMAP_NODES p.model) f.2.2.2.1.length)]
  | .validate outs crcBad => .read fun s =>
    match r.cands with
    | none => .skip
    | some [] => endPlan j x p r (if r.full then 5 else if r.dropped then 6 else 1) 0 none outs crcBad
    | some cs =>
      let n := s.get Obj.EPOCH_NEWEST
      let same := n == r.epoch
      let v := s.validate r same s.newest 0 cs
      match (if same then none else s.mapLoss s.newest ((cs.take (v.1 + 1)).flatMap fun c =>
        ((pathPoses r.model (s.get Obj.CHECK_STEP_MM) c.1).filter (s.touches r.dirty)).flatMap s.poseBricks)) with
      | some l => endJob j l.1 l.2 0 0
      | none => all [
          .plan (fun y => { y with runs := Tab.upd y.runs j r (fun z => { z with checked := some n }) }),
          .count 32 Obj.CANDIDATES_REJECTED v.1, .count 64 Obj.POSES_RECHECKED v.2.1,
          endPlan j x p r (if v.2.2.isSome then 0 else 2) n v.2.2 outs crcBad]

/-- PLANNER_SLICE (R364). -/
def execPlannerSlice (job misses : Nat) (step : PlanStep) (s : State) : Host.Outcome State Fault Refusal :=
  need (Wf.plannerSlice job misses step) s <| all [
    served job fun x => .read fun s => match x.decl.op, Tab.get? s.u.plan.runs job with
      | some (.run p), some r => all [.count 64 Obj.BRICK_MISSES misses, planStep job x p r step]
      | _, _ => .skip,
    settle]

/-- A write to `ROADMAP_CLEAR` of model `n`: at once, or as its last run in progress ends. -/
def roadmapClear (n : Nat) (s : State) : WriteRes :=
  let busy := s.u.plan.runs.any fun r => match (Tab.get? s.u.tt.jobs r.1).bind (·.decl.op) with
    | some (.run p) => p.model == n
    | _ => false
  .ok (if busy then .plan fun y => { y with clearRoad := n :: y.clearRoad.filter (· != n) } else dropRoad n)

/-- ROADMAP_CLEAR (R360). -/
def execRoadmapClear (ses n v : Nat) (s : State) : Host.Outcome State Fault Refusal :=
  need (Wf.roadmapClear ses n v) s <| guarded ses (Obj.ROADMAP_CLEAR n) v .sup (v == 1) (roadmapClear n)

end Sys2Proof.Machine
end

