-- ==== Sys2Proof/Machine/Security.lean ====
section
/-! DEFINITION. Attestation, authorisation tokens, levels, debug (R455 to R459, R537). -/

namespace Sys2Proof.Machine
open Act

/-! ## Attestation (R455) -/

/-- A write of 1 to `ATTEST_GO` by session `ses`. -/
def attestGo (ses : Nat) (s : State) : WriteRes :=
  if s.u.boot.recovery then .no Ab.STATE_FORBIDS else .ok (.put (Obj.ATTEST_STATUS ses) 1)

/-- ATTEST_GO. -/
def execAttestGo (ses v : Nat) (s : State) : Host.Outcome State Fault Refusal :=
  need (Wf.attestGo ses v) s <| guarded ses (Obj.ATTEST_GO ses) v .host (v == 1) (attestGo ses)

/-- Bytes padded with zeros to `n`. -/
def padTo (n : Nat) (bs : List Byte) : List Byte := bs.take n ++ List.replicate (n - bs.length) 0

/-- The first 400 bytes of the report of session `ses`. -/
def State.reportHead (s : State) (ses : Nat) : List Byte :=
  let b := s.u.boot
  let f (c : Bool) (v : Nat) : Nat := if c then v else 0
  let trial := (List.range 4).any fun i => let w := s.get (Obj.IMG_SLOT_STATE i); w % 4 == 2 || w / 4 % 4 == 2
  let flags := f (s.get Obj.DEBUG_SINCE_BOOT != 0) 1 + f b.tested79 2 + f trial 4 + f (bit (s.get Obj.BOOT_STATUS) 9) 8 + f (s.get Obj.TB_STATE == 2) 16
  le 4 0x4D424154 ++ le 2 1 ++ le 2 flags ++ s.oct Obj.DEVICE_ID 16 ++ s.oct (Obj.ATTEST_NONCE ses) 32 ++ le 8 s.ns
    ++ le 1 s.dev ++ le 1 (s.get Obj.DEBUG_SINCE_BOOT) ++ le 2 0 ++ le 4 (s.get Obj.BOOT_COUNT)
    ++ le 4 (s.get Obj.BOOT_COUNT) ++ (List.range 4).flatMap (fun i => le 4 (s.get (Obj.IMG_COUNTER i))) ++ le 4 0 ++ le 4 (s.get Obj.PROG_COUNTER) ++ le 4 0
    ++ s.oct (Obj.IMG_RUNNING_DIGEST 0) 48 ++ s.oct (Obj.IMG_RUNNING_DIGEST 1) 48 ++ s.oct (Obj.IMG_RUNNING_DIGEST 2) 48
    ++ padTo 48 b.settingsDigest ++ padTo 48 b.progLog ++ le 4 b.progLoads ++ le 4 b.switches ++ padTo 48 b.firstPolicy

/-- ATTEST_REPORT_READY (R455): the report with its signature, whose value the spec leaves to the key. -/
def execAttestReportReady (ses : Nat) (s : State) : Host.Outcome State Fault Refusal :=
  need (Wf.attestReportReady ses) s <| .read fun s =>
    when (s.isOpen ses && s.get (Obj.ATTEST_STATUS ses) == 1) (all [
      putOct (Obj.ATTEST_REPORT ses) (s.reportHead ses ++ s.freeFrom 0 96), .draw 12,
      .put (Obj.ATTEST_STATUS ses) 2])

/-! ## Tokens (R457, R458, R537) -/

/-- A read of `AUTH_CHALLENGE` draws 32 random bytes, and the challenge before is void. -/
def authChallenge (ses : Nat) (s : State) : Act :=
  let c := s.freeFrom 0 32
  all [.draw 4, putOct (Obj.AUTH_CHALLENGE ses) c, .ses ses (fun x => { x with challenge := some c })]

/-- AUTH_CHALLENGE. -/
def execAuthChallenge (ses : Nat) (s : State) : Host.Outcome State Fault Refusal :=
  need (Wf.authChallenge ses) s <| .read fun s =>
    if ¬ s.isOpen ses ∨ s.dev = Dev.STANDBY then .skip
    else if ¬ stateReads s.dev 0x2080 then all [recordAbort ses Ab.STATE (Obj.AUTH_CHALLENGE ses), .emit (.reply ses Ab.STATE (abortBytes ses 32))]
    else all [authChallenge ses s, .emit (.reply ses 0 (s.freeFrom 0 32))]

/-- The token in bytes written, if their length is that of one with 1 to 3 certificates. -/
def tokenOf (d : List Byte) : Option Token :=
  let certs := (List.range ((d.length - 160) / 272)).map fun i => (d.drop (160 + 272 * i)).take 272
  if d.length < 160 + 272 ∨ 160 + 3 * 272 < d.length ∨ (d.length - 160) % 272 ≠ 0 then none
  else some {
    kind := numAt d 0 1, level := numAt d 1 1, lifetime := numAt d 4 4, device := (d.drop 8).take 16, challenge := (d.drop 24).take 32
    certs := certs, zeros := zeroAt d 2 2 && zeroAt d 56 8, sigOk := Config.verifies d }

/-- `ROLE` and `PERMISSIONS` of a token's signer (R449). -/
def Token.role (t : Token) : Nat := numAt (t.certs.headD []) 1 1
def Token.perms (t : Token) : Nat := numAt (t.certs.headD []) 2 2

/-- A token passes for session `ses`: kind `kind` with 1 to 3 certificates, a signer of role `role` and the permission bit, a valid chain (R450, R457). -/
def State.tokenPasses (s : State) (ses kind role perm : Nat) (t : Token) : Bool :=
  t.kind == kind && decide (1 ≤ t.level ∧ t.level ≤ 3) && t.zeros && decide (1 ≤ t.lifetime ∧ t.lifetime ≤ 86400)
    && t.device == s.oct Obj.DEVICE_ID 16 && (s.session ses).challenge == some t.challenge && t.sigOk && t.chainOk
    && decide (1 ≤ t.certs.length ∧ t.certs.length ≤ 3) && t.certs.all (fun c => c.length == 272) && s.chainShape t.certs
    && t.role == role && bit t.perms perm

/-- The session's challenge is void. -/
def voidChallenge (ses : Nat) : Act := .ses ses fun x => { x with challenge := none }

/-- A write of a token to `ELEVATE` of session `n`. -/
def elevate (ses n : Nat) (t : Option Token) (s : State) : WriteRes :=
  if ses ≠ n then .no Ab.ACCESS_LEVEL
  else match t with
    | none => (Ab.AUTH_FAILED, voidChallenge ses)
    | some t =>
      if s.tokenPasses ses 1 (5 + t.level) 4 t then
        .ok (all [voidChallenge ses, .put (Obj.LEVEL ses) t.level, .ses ses (fun x => { x with token := true })])
      else (Ab.AUTH_FAILED, voidChallenge ses)

/-- ELEVATE. -/
def execElevate (ses n : Nat) (t : Token) (s : State) : Host.Outcome State Fault Refusal :=
  need (Wf.elevate ses n t) s <| guarded ses (Obj.ELEVATE n) 0 .host true (elevate ses n (some t))

/-- A session falls to its opening level with the cleanup of R40; an MDP session closes. -/
def dropNow (n : Nat) : Act := .read fun s =>
  if s.get (Obj.TRANSPORT n) = 3 then sessionClose n
  else all [sessionCleanup n, .put (Obj.LEVEL n) (s.session n).openLevel, .ses n (fun x => { x with token := false })]

/-- A write of 1 to `DROP_LEVEL` of session `n`. -/
def dropLevel (ses n : Nat) (_s : State) : WriteRes := if ses ≠ n then .no Ab.ACCESS_LEVEL else .ok (dropNow n)

/-- DROP_LEVEL. -/
def execDropLevel (ses n v : Nat) (s : State) : Host.Outcome State Fault Refusal :=
  need (Wf.dropLevel ses n v) s <| guarded ses (Obj.DROP_LEVEL n) v .host (v == 1) (dropLevel ses n)

/-- A write of a token to `DEBUG_TOKEN` by session `ses` (R457, R459): debug works only in SERVICE, and level 3 needs TEST_EN. -/
def debugToken (ses : Nat) (t : Option Token) (s : State) : WriteRes :=
  match t with
  | none => (Ab.AUTH_FAILED, voidChallenge ses)
  | some t =>
    if ¬ s.tokenPasses ses 2 3 3 t then (Ab.AUTH_FAILED, voidChallenge ses)
    else if s.dev ≠ Dev.SERVICE ∨ (t.level = 3 ∧ s.get Obj.TEST_EN_LEVEL = 0) then (Ab.STATE_FORBIDS, voidChallenge ses)
    else .ok (all [
      voidChallenge ses, .put Obj.DEBUG_LEVEL t.level, .modify Obj.DEBUG_SINCE_BOOT (max t.level),
      .boot (fun b => { b with debugOf := some ses })])

/-- DEBUG_TOKEN. -/
def execDebugToken (ses : Nat) (t : Token) (s : State) : Host.Outcome State Fault Refusal :=
  need (Wf.debugToken ses t) s <| guarded ses Obj.DEBUG_TOKEN 0 .svc true (debugToken ses (some t))

/-- A write of 1 to `DEBUG_END`. -/
def debugEnd (_s : State) : WriteRes := .ok endDebug

/-- DEBUG_END. -/
def execDebugEnd (ses v : Nat) (s : State) : Host.Outcome State Fault Refusal :=
  need (Wf.debugEnd ses v) s <| guarded ses Obj.DEBUG_END v .svc (v == 1) debugEnd

/-- TOKEN_LIFETIME_EXPIRY (R458). -/
def execTokenLifetimeExpiry (ses : Nat) (debug : Bool) (s : State) : Host.Outcome State Fault Refusal :=
  need (Wf.tokenLifetimeExpiry ses debug) s <| .read fun s =>
    if debug then when (s.u.boot.debugOf == some ses) endDebug
    else when (s.isOpen ses && (s.session ses).token) (dropNow ses)

end Sys2Proof.Machine
end

