-- ==== Sys2Proof/Machine/Sequences.lean ====
section
/-! DEFINITION. The commands of the sequence unit: edits by sessions and jobs, and the look-aside buffer of a field's walker (R235 to R262). -/

namespace Sys2Proof.Machine
open Act

/-- An edit as the unit runs it: its context, the fields it names. -/
structure EditReq where
  ctx : Nat
  seq : Nat
  page : Nat
  head : Nat
  length : Nat
  force : Bool
  k : Nat
  v : Nat
  formats : Nat
  geometry : Nat
  books : List Nat
  ses : Option Nat
  job : Option Nat
  timeout : Option Nat := none
  deriving DecidableEq, Repr

/-- What an edit comes to: `EDIT_STATUS`, `EDIT_REASON`, jobs ended by FORCE. -/
abbrev EditRes := Nat × Nat × Nat

/-- The edit's outcome in the session's objects (R262), or returned to the job's program. -/
def editOutcome (r : EditReq) (o : EditRes) : Act := .read fun s =>
  match r.ses with
  | none => .skip
  | some n => all [
      .put (Obj.EDIT_STATUS n) o.1, .put (Obj.EDIT_REASON n) o.2.1, .put (Obj.EDIT_ENDED_JOBS n) o.2.2,
      .put (Obj.EDIT_EPOCH n) (match s.seqAt (seqKey r.ctx r.seq) with
        | some x => x.epoch
        | none => 0)]

/-- An edit that applies at once; with FORCE every earlier pending edit of the sequence applies with it (R260). -/
def applied (r : EditReq) (ended : Nat) (a : Act) : Act :=
  let key := seqKey r.ctx r.seq
  all [a,
    when r.force (.read fun s => each (s.u.seq.edits.filter (fun e => decide (e.key = key))) retireEdit),
    .count 64 Obj.EDITS_APPLIED 1, pokeSeq key, editOutcome r (1, 0, ended)]

/-- Walking jobs that conflict with a FORCE edit end with TABLE_CHANGED (R260). -/
def endWalks (ws : List Walk) : Act :=
  each (ws.map (·.job)).eraseDups fun j => all [.count 32 Obj.JOBS_TABLE_CHANGED 1, endJob j St.TABLE_CHANGED 0x0620 0 0, releaseWalks j]

/-- An edit that older walks conflict with (R258 to R260): deferred, refused at the limit, or with FORCE applied after they end, with every earlier pending edit of
the sequence. `change` makes the new value current, with the raised epoch. -/
def conflicting (r : EditReq) (ws : List Walk) (old : EditOld) (change : Nat → Act) : Act := .read fun s =>
  let key := seqKey r.ctx r.seq
  let epoch := match s.seqAt key with
    | some x => (x.epoch + 1) % 4294967296
    | none => 0
  let d : Edit := { key := key, epoch := epoch, old := old, ses := r.ses, job := if r.timeout = some 0 then none else r.job, noLimit := r.timeout.isNone }
  if r.force then all [
    endWalks ws,
    .seqUpd key (fun x => { x with epoch := epoch }), change epoch,
    when (old == .close) (freeSeq key),
    applied r (ws.map (·.job)).eraseDups.length .skip]
  else if s.get Obj.DEFERRED_LIMIT ≤ s.u.seq.edits.length then all [.count 32 Obj.EDITS_REFUSED 1, editOutcome r (3, 0x0664, 0)]
  else all [
    .seqUpd key (fun x => { x with epoch := epoch }), change epoch,
    .seqs (fun u => { u with edits := u.edits ++ [d] }),
    pokeSeq key, editOutcome r (2, 0, 0)]

/-- OPEN (R235 to R237). -/
def editOpen (r : EditReq) : Act := .read fun s =>
  let key := seqKey r.ctx r.seq
  let d := r.geometry % 65536
  let heads := r.geometry / 65536 % 256
  let t := r.geometry / 16777216 % 256
  let n := ceilDiv (r.page * heads) 128
  let prev := match s.seqAt key with
    | some x => x
    | none => {}
  if (s.seqAt key).isSome ∧ prev.opened then editOutcome r (4, 0x0660, 0)
  else if ¬ oneOf d [64, 128, 256] ∨ heads = 0 ∨ 64 < heads ∨ ¬ oneOf t [8, 16, 32, 64, 128] ∨ r.page = 0 ∨ 1048576 < r.page
      ∨ (s.seqDir r.ctx r.seq).isNone then editOutcome r (4, 0x0661, 0)
  else if (s.allocFault r.ctx n).isSome then editOutcome r (3, 0x0665, 0)
  else
    let x : Seq := {
      epoch := if (s.seqAt key).isSome then (prev.epoch + 1) % 4294967296 else 0, table := s.freeNumbers n, tiles := n
      d := d, heads := heads, t := t, capacity := r.page, books := r.books }
    applied r 0 (all [allocTiles r.ctx n, .seqs (fun u => { u with seqs := Tab.set u.seqs key x })])

/-- WRITE_ENTRY (R257, R258). -/
def editWrite (r : EditReq) (x : Seq) : Act := .read fun s =>
  let key := seqKey r.ctx r.seq
  let e := r.page * x.heads + r.head
  let kf := r.formats % 16
  let vf := r.formats / 16 % 16
  let entry (epoch : Nat) : SeqEntry := ⟨r.k, r.v, kf, vf, epoch⟩
  let write (epoch : Nat) : Act := all [.seqUpd key (fun y => { y with entries := Tab.set y.entries e (entry epoch) }), pokeEntry key e (entry epoch)]
  if x.heads ≤ r.head ∨ x.capacity ≤ r.page ∨ ¬ s.pageOk r.ctx x r.k kf true ∨ ¬ s.pageOk r.ctx x r.v vf false then editOutcome r (4, 0x0662, 0)
  else match Tab.get? x.entries e with
    | none => applied r 0 (write x.epoch)
    | some o =>
      let ws := (s.walksOn key).filter (fun w => decide (r.page * x.t < w.len))
      let next := (x.epoch + 1) % 4294967296
      if ws.isEmpty then applied r 0 (all [.seqUpd key (fun y => { y with epoch := next }), write next])
      else conflicting r ws (.entry e o) write

/-- SET_LENGTH (R257, R258): a raise extends the latched length of the job that makes it (R255). -/
def editLength (r : EditReq) (x : Seq) : Act := .read fun s =>
  let key := seqKey r.ctx r.seq
  let covered := (List.range (ceilDiv r.length x.t * x.heads)).all (fun e => (Tab.get? x.entries e).isSome)
  let set := Act.seqUpd key (fun y => { y with length := r.length })
  if x.length ≤ r.length then
    if x.capacity * x.t < r.length ∨ ¬ covered then editOutcome r (4, 0x0663, 0)
    else applied r 0 (all [set, match r.job with
      | some j => .seqs (fun u => { u with walks := u.walks.map (fun w => if w.job = j ∧ w.key = key then { w with len := r.length } else w) })
      | none => .skip])
  else
    let ws := (s.walksOn key).filter (fun w => decide (r.length < w.len))
    if ws.isEmpty then applied r 0 set
    else conflicting r ws (.length x.length) (fun _ => set)

/-- CLOSE (R258): new walks are refused at once. -/
def editClose (r : EditReq) : Act := .read fun s =>
  let key := seqKey r.ctx r.seq
  let ws := s.walksOn key
  if ws.isEmpty then applied r 0 (freeSeq key)
  else conflicting r ws .close (fun _ => .seqUpd key (fun y => { y with closing := true }))

/-- Run an edit (R256, R262): later operations of a session hide the outcome of its earlier ones; a session must be admitted to the context. -/
def runEdit (op : Nat) (r : EditReq) : Act := .read fun s =>
  let refused := match r.ses with
    | some n => !bit (s.get (Obj.ADMIT_SESSIONS r.ctx)) n
    | none => false
  all [
    .seqs (fun u => { u with edits := u.edits.map (fun d => if d.ses.isSome ∧ d.ses = r.ses then { d with ses := none } else d) }),
    if refused then editOutcome r (3, 0x0666, 0)
    else if op = 1 then editOpen r
    else match s.seqAt (seqKey r.ctx r.seq) with
      | none => editOutcome r (4, 0x0660, 0)
      | some x =>
        if ¬ x.opened ∨ x.closing then editOutcome r (4, 0x0660, 0)
        else if op = 2 then editWrite r x
        else if op = 3 then editLength r x
        else editClose r]

/-- A write of 1 to `EDIT_GO` by session `n`: it runs the operation in `EDIT_OP` (R262). -/
def editGo (n : Nat) (s : State) : WriteRes :=
  .ok (runEdit (s.get (Obj.EDIT_OP n)) {
    ctx := s.get (Obj.EDIT_CONTEXT n), seq := s.get (Obj.EDIT_SEQUENCE n), page := s.get (Obj.EDIT_PAGE n), head := s.get (Obj.EDIT_HEAD n)
    length := s.get (Obj.EDIT_LENGTH n), force := s.get (Obj.EDIT_FORCE n) != 0, k := s.get (Obj.EDIT_K_TILE n), v := s.get (Obj.EDIT_V_TILE n)
    formats := s.get (Obj.EDIT_FORMATS n), geometry := s.get (Obj.EDIT_GEOMETRY n)
    books := (List.range 4).map (fun a => s.get (Obj.EDIT_BOOK n a)), ses := some n, job := none })

/-- An edit of operation `op`: by a session through `EDIT_GO`, in whose `EDIT_OP` the operation stands, or by a job of the context. -/
def edit (op : Nat) : Editor → Act
  | .ses n => .read fun s =>
    if s.get (Obj.EDIT_OP n) = op then guarded n (Obj.EDIT_GO n) 1 .host true (editGo n) else .skip
  | .job j sq page head length force k v formats geometry books timeout => .read fun s =>
    match Tab.get? s.u.tt.jobs j with
    | none => .skip
    | some x => runEdit op ⟨x.ctx, sq, page, head, length, force, k, v, formats, geometry, books, none, some j, timeout⟩

/-- SEQ_OPEN. -/
def execSeqOpen (e : Editor) (s : State) : Host.Outcome State Fault Refusal := need (Wf.seqOpen e) s <| all [edit 1 e, settle]

/-- SEQ_WRITE_ENTRY. -/
def execSeqWriteEntry (e : Editor) (s : State) : Host.Outcome State Fault Refusal := need (Wf.seqWriteEntry e) s <| all [edit 2 e, settle]

/-- SEQ_SET_LENGTH. -/
def execSeqSetLength (e : Editor) (s : State) : Host.Outcome State Fault Refusal := need (Wf.seqSetLength e) s <| all [edit 3 e, settle]

/-- SEQ_CLOSE. -/
def execSeqClose (e : Editor) (s : State) : Host.Outcome State Fault Refusal := need (Wf.seqClose e) s <| all [edit 4 e, settle]

/-- EDIT_APPLY_TIMEOUT (R259): the job's program goes on, but for one that waits without a limit; the edit stays pending. -/
def execEditApplyTimeout (job : Nat) (s : State) : Host.Outcome State Fault Refusal :=
  need (Wf.editApplyTimeout job) s <|
    .seqs fun u => { u with edits := u.edits.map (fun d => if d.job = some job ∧ ¬ d.noLimit then { d with job := none } else d) }

/-- LAB_MISS_FILL (R250 to R252): an entry tagged with another epoch is dropped and counted; a miss reads and verifies the entry, and a bad one ends the job. -/
def execLabMissFill (field job seq entry : Nat) (bad : Bool) (s : State) : Host.Outcome State Fault Refusal :=
  need (Wf.labMissFill field job seq entry bad) s <| .read fun s => all [
    match Tab.get? s.u.tt.jobs job with
    | none => .skip
    | some x =>
      let key := seqKey x.ctx seq
      match (s.walksOn key).find? (fun w => decide (w.job = job)) with
      | none => .skip
      | some w =>
        let tag := (x.ctx, seq, entry, w.epoch)
        let lab := (s.fieldRec field).lab
        let rest := lab.filter (fun t => decide (t.1 ≠ x.ctx ∨ t.2.1 ≠ seq ∨ t.2.2.1 ≠ entry))
        if lab.contains tag then all [.count 64 Obj.LAB_HITS 1, .field field (fun r => { r with lab := tag :: rest })]
        else all [
          .count 64 Obj.LAB_MISSES 1,
          when (decide (rest.length < lab.length)) (.count 64 Obj.LAB_EPOCH_DROPS 1),
          match s.entryFor key entry w.epoch, s.seqAt key with
            | some e, some q =>
              -- the table tile that the entry is read from (R177)
              match s.lossOf (q.table + entry / 128) with
              | some f => endJob job f.1 f.2 0 0
              | none => if bad ∨ ¬ s.pageOk x.ctx q e.k e.kf true ∨ ¬ s.pageOk x.ctx q e.v e.vf false then
                all [.count 32 Obj.ENTRY_FAULTS 1, .field field (fun r => { r with lab := rest }), endJob job St.CONFIG_INVALID 0x0603 0 0]
              else .field field (fun r => { r with lab := (tag :: rest).take 64 })
            | _, _ => all [.count 32 Obj.ENTRY_FAULTS 1, endJob job St.CONFIG_INVALID 0x0603 0 0]],
    settle]

end Sys2Proof.Machine
end

