-- ==== Sys2Proof/Machine/Sessions.lean ====
section
/-! DEFINITION. MDP sessions from HELLO to their end, MSI-X holdoffs, the event log's copies and acknowledgement, stored settings (R28 to R33, R38, R51, R52,
R63, R66, R68). -/

namespace Sys2Proof.Machine
open Act

/-! ## MDP sessions (R28 to R33, R38) -/

/-- MDP is served: Ethernet is powered, which policy firmware's start does, and the device is not in recovery (R442, R448, R498). -/
def State.mdpServed (s : State) : Bool := s.get (Obj.DOM_STATE 71) == 2 && !s.u.boot.recovery && s.dev != Dev.STANDBY

/-- The header of an MDP datagram: MAGIC, VERSION, TYPE, SESSION, zeros, SEQUENCE (R27). -/
def mdpHeader (type ses seq : Nat) : List Byte := le 2 0x444D ++ le 1 1 ++ le 1 type ++ le 1 ses ++ le 3 0 ++ le 8 seq

/-- A datagram of type REQUEST, RESPONSE, NOTIFY or CLOSE under the 32-byte key and the 4-byte salt of its direction: the header in clear, which is the additional data, the
sealed payload, the tag; the nonce is the salt and the SEQUENCE (R27). -/
def mdpDatagram (key : List Byte) (type ses seq : Nat) (payload : List Byte) : List Byte :=
  let h := mdpHeader type ses seq
  h ++ (List.range (payload.length + 16)).map (Config.sealed (key.take 32) (key.drop 32 ++ le 8 seq) h payload)

/-- The datagram in which what is sent to an MDP client leaves (R27, R28, R32 to R34). -/
def State.datagram (s : State) : Emit → Option (List Byte)
  | .helloReply ses payload => some (mdpHeader 1 ses 0 ++ payload)
  | .response ses q ops => some (mdpDatagram (s.session ses).keys.2 4 ses q (ops.flatMap fun e => le 4 e.1 ++ e.2))
  | .notify ses q kind rs => some (mdpDatagram (s.session ses).keys.2 5 ses q (le 2 kind ++ le 2 rs.length ++ rs.flatten))
  | _ => none

/-- A HELLO has the header and the payload of R27 to R29. -/
def helloForm (header payload : List Byte) : Bool :=
  let n := numAt payload 129 1
  header == mdpHeader 0 0xFF 0 && decide (1 ≤ n ∧ n ≤ 4) && payload.length == 132 + 272 * n && numAt payload 32 1 == 4 && zeroAt payload 130 2

/-- The certificates of a HELLO, the client's first (R29). -/
def helloChain (payload : List Byte) : List (List Byte) :=
  (List.range (numAt payload 129 1)).map fun i => (payload.drop (132 + 272 * i)).take 272

/-- The payload of a HELLO_REPLY that assigns session `n` (R30): nonce, ephemeral key and signature are free values; the identity certificate and its issuers. -/
def State.helloReply (s : State) (n : Nat) : List Byte :=
  s.freeFrom 0 32 ++ [4] ++ s.freeFrom 4 96 ++ le 1 n ++ le 1 (1 + s.u.boot.issuers.length) ++ [0] ++ s.freeFrom 16 96
    ++ s.oct Obj.IDENTITY_CERT 272 ++ s.u.boot.issuers.flatten

/-- The session that a HELLO is assigned: the lowest that is neither open nor held for a FINISH (R30). -/
def State.freeSession (s : State) : Option Nat :=
  ((List.range 14).map (· + 2)).find? (fun n => !s.isOpen n && !(s.session n).waiting)

/-- MDP_HELLO (R29, R30): the lowest free session is held for the FINISH; a HELLO that has not its form is dropped (DESIGN CHOICE, log entry 174). -/
def execMdpHello (header payload : List Byte) (chainOk : Bool) (s : State) : Host.Outcome State Fault Refusal :=
  need (Wf.mdpHello header payload chainOk) s <| .read fun s =>
    let cs := helloChain payload
    let role := numAt (cs.headD []) 1 1
    if ¬ s.mdpServed ∨ ¬ helloForm header payload then .skip
    else match s.freeSession with
      | none => .emit (.helloReply 0xFF (le 4 Ab.SESSION_LIMIT))
      | some n =>
        if ¬ (chainOk && s.chainShape cs) ∨ role < 5 ∨ 8 < role then .emit (.helloReply 0xFF (le 4 Ab.AUTH_FAILED))
        else all [
          .ses n (fun _ => {
            waiting := true, role := role, hello := payload, reply := s.helloReply n
            certKey := ofLe ((sha384 (((cs.headD []).drop 72).take 97)).take 8) }),
          .emit (.helloReply n (s.helloReply n)), .draw 28]

/-- The key and the salt that both sides derive under an info: "mdp ", then `c2d` or `d2c` (R31). -/
def Session.derive (x : Session) (dir : List Byte) : List Byte :=
  (List.range 36).map (Config.derived ([0x6D, 0x64, 0x70, 0x20] ++ dir) (x.hello.take 32 ++ x.reply.take 32)
    ((x.hello.drop 32).take 97 ++ (x.reply.drop 32).take 97))

/-- MDP_FINISH (R31): the session opens with the keys of its two directions, and its first RESPONSE has SEQUENCE 1; a FINISH that does not verify frees it. -/
def execMdpFinish (ses : Nat) (verifies : Bool) (s : State) : Host.Outcome State Fault Refusal :=
  need (Wf.mdpFinish ses verifies) s <| .read fun s =>
    let x := s.session ses
    if ¬ x.waiting ∨ ¬ s.mdpServed then .skip
    else if verifies then all [
      sessionOpen ses 3 (x.role - 5) x.certKey,
      .ses ses (fun y => { y with txSeq := 1, keys := (x.derive [0x63, 0x32, 0x64], x.derive [0x64, 0x32, 0x63]) }),
      .emit (.response ses 1 [])]
    else all [.ses ses (fun _ => {}), recordAbort ses Ab.AUTH_FAILED 0]

/-- MDP_FINISH_TIMEOUT (R30). -/
def execMdpFinishTimeout (ses : Nat) (s : State) : Host.Outcome State Fault Refusal :=
  need (Wf.mdpFinishTimeout ses) s <| .read fun s => when (s.session ses).waiting (.ses ses (fun _ => {}))

/-- MDP_CLOSE (R33). -/
def execMdpClose (ses code : Nat) (s : State) : Host.Outcome State Fault Refusal :=
  need (Wf.mdpClose ses code) s <| .read fun s => when (s.get (Obj.TRANSPORT ses) == 3) (sessionClose ses)

/-- SESSION_IDLE_TIMEOUT (R38). -/
def execSessionIdleTimeout (ses : Nat) (s : State) : Host.Outcome State Fault Refusal :=
  need (Wf.sessionIdleTimeout ses) s <| .read fun s => when (s.get (Obj.TRANSPORT ses) == 3) (sessionClose ses)

/-! ## MSI-X and the event log (R63, R66, R68) -/

/-- MSIX_HOLDOFF_EXPIRY (R63). -/
def execMsixHoldoffExpiry (v : Nat) (s : State) : Host.Outcome State Fault Refusal :=
  need (Wf.msixHoldoffExpiry v) s <| .read fun s =>
    when (s.u.dict.holdoff.contains v) (all [
      .dict (fun d => { d with
        holdoff := d.holdoff.filter (· != v), raised := d.raised.filter (· != v) }),
      when (s.u.dict.raised.contains v) (msixSend v)])

/-- EVENT_FLASH_COPY (R66). -/
def execEventFlashCopy (s : State) : Host.Outcome State Fault Refusal := 
  need Wf.eventFlashCopy s <| .read fun s => background 4 0 s.u.boot.writing.isSome (flashCopy 1)

/-- A write of `v` to `EVENT_ACK` (R68). -/
def eventAck (v : Nat) (_s : State) : WriteRes := .ok (.logNotes fun l => { l with acked := max l.acked (min v l.total) })

/-- EVENT_ACK. -/
def execEventAck (ses v : Nat) (s : State) : Host.Outcome State Fault Refusal :=
  need (Wf.eventAck ses v) s <| guarded ses Obj.EVENT_ACK v .saf true (eventAck v)

/-! ## Stored settings (R51, R52) -/

/-- A write to `STORE_PARAMETERS` (R51, R454). -/
def storeParameters (sub : Nat) (s : State) : WriteRes :=
  if s.u.boot.writing.isSome then .no Ab.FLASH_BUSY
  else .ok (all [.boot (fun b => { b with writing := some (.store (s.toStore sub) b.restore.length) }), .draw 6])

/-- STORE_PARAMETERS. -/
def execStoreParameters (ses sub sig : Nat) (s : State) : Host.Outcome State Fault Refusal :=
  need (Wf.storeParameters ses sub sig) s <| guarded ses (Obj.STORE_PARAMETERS (sub - 1)) sig .sup (sig == 0x65766173) (storeParameters sub)

/-- A write to `RESTORE_DEFAULT_PARAMETERS`: the next boot leaves the range at its defaults. -/
def restoreDefaults (sub : Nat) (_s : State) : WriteRes := .ok (.boot fun b => { b with restore := sub :: b.restore })

/-- RESTORE_DEFAULT_PARAMETERS. -/
def execRestoreDefaultParameters (ses sub sig : Nat) (s : State) : Host.Outcome State Fault Refusal :=
  need (Wf.restoreDefaultParameters ses sub sig) s <|
    guarded ses (Obj.RESTORE_DEFAULTS (sub - 1)) sig .sup (sig == 0x64616F6C) (restoreDefaults sub)

end Sys2Proof.Machine
end

