-- ==== Sys2Proof/Machine/Slots.lean ====
section
/-! DEFINITION. Request slots: the writes of `STATE`, the post and its checks, withdrawal (R55 to R60). -/

namespace Sys2Proof.Machine
open Act

/-- The runs that complete in slot `n`. -/
def State.runsFor (s : State) (n : Nat) : List Nat :=
  (s.u.tt.runs.filter (fun e => match e.2.owner, e.2.forSlot with
    | .slot m, _ => m == n
    | _, some (m, _, _) => m == n
    | _, _ => false)).map (·.1)

/-- Why a post of slot `n` by session `ses` is refused: status and DETAIL (R58). -/
def State.postRefused (s : State) (ses n : Nat) : Option (Nat × Nat) :=
  let c := s.get (Obj.CONTEXT n)
  let k := s.get (Obj.ARG_COUNT n)
  if s.dev = Dev.HOLD then some (St.SAFETY_HOLD, 0)
  else if s.dev ≠ Dev.OP then some (St.CONFIG_INVALID, 1 + s.dev)
  else if s.get (Obj.CTX_STATE c) = 0 ∨ ¬ bit (s.get (Obj.ADMIT_SESSIONS c)) ses then some (St.ACCESS_DENIED, 0x0010)
  else if s.get (Obj.POST_ALLOWANCE c) ≤ s.slotsPosted c then some (St.ACCESS_DENIED, 0x0011)
  else match s.entryOf (s.get (Obj.PROGRAM n)) (s.get (Obj.ENTRY n)) with
    | none => some (St.CONFIG_INVALID, 0x0020)
    | some e =>
      if k ≠ e.args.length ∨ ¬ ((List.range k).zip e.args).all (fun x => s.slotArg n x.1 == x.2) then some (St.CONFIG_INVALID, 0x0021)
      else none

/-- The value of slot `n`'s arguments. -/
def State.slotArgs (s : State) (n : Nat) : List Nat := (List.range (s.get (Obj.ARG_COUNT n))).map fun a => s.get (Obj.ARG_ADDR n a)

/-- A post runs as a job of its own. -/
def postRun (n : Nat) : Act := .read fun s =>
  let c := s.get (Obj.CONTEXT n)
  let fl := s.get (Obj.FLAGS n)
  match s.entryOf (s.get (Obj.PROGRAM n)) (s.get (Obj.ENTRY n)) with
  | none => .skip
  | some e =>
    let x : Run := {
      owner := .slot n, ctx := c, prog := s.get (Obj.PROGRAM n), entry := s.get (Obj.ENTRY n), stages := e.stages
      cls := if bit fl 3 then 3 else s.get (Obj.CTX_CLASS c), strict := bit fl 0, posted := s.time, tov := s.ns, tovFrac := s.frac
      tag := s.get (Obj.USER_TAG n), seq := s.get (Obj.SEQUENCE n), args := s.slotArgs n, demoted := bit fl 3 }
    all [
      bindSems c x.prog,
      .tt (fun t => { t with runs := Tab.set t.runs t.nextRun x, nextRun := t.nextRun + 1 }),
      advanceRun s.u.tt.nextRun]

/-- An accepted post of slot `n` reaches the furrows armed for it: the first that makes a firing carries the request to its slot; with none, the post runs by
itself (R209). -/
def postTo (n : Nat) : List Nat → Act
  | [] => postRun n
  | f :: fs => .read fun s => all [
      trigger f s.ns s.frac false (some (n, s.get (Obj.SEQUENCE n), s.get (Obj.USER_TAG n), s.slotArgs n)),
      .read fun t =>
        if t.get (Obj.FIRINGS f) = s.get (Obj.FIRINGS f) then postTo n fs
        else each fs (fun g => trigger g s.ns s.frac false)]

/-- The write of POSTED to slot `n` by its owner (R57, R58). -/
def post (ses n : Nat) : Act := all [
  .wrap 32 (Obj.SEQUENCE n) 1,
  .read fun s => match s.postRefused ses n with
    | some (st, d) =>
      slotComplete n 4 (completionRecord (s.get (Obj.SEQUENCE n)) st 4 0 (s.get (Obj.USER_TAG n)) s.time s.time n d 0 0 0 0)
    | none => all [
      .put (Obj.STATE n) 2,
      postTo n (s.armed.filter (fun f => s.get (Obj.TRIGGER_KIND f) == 5 && s.get (Obj.TRIGGER_SOURCE f) == n
        && s.get (Obj.F_PROGRAM f) == s.get (Obj.PROGRAM n) && s.get (Obj.F_ENTRY f) == s.get (Obj.ENTRY n)))],
  settle]

/-- The write of ABANDONED to slot `n` (R60): a ready job is removed at once, a running one stops at its next yield point; the record carries CANCELLED. -/
def withdraw (n : Nat) : Act := .read fun s => all [
  .put (Obj.STATE n) 5,
  each (s.runsFor n) (fun r => all [
    .run' r (fun y => { y with cancelled := true }),
    each (s.u.tt.jobs.filter (fun e => e.2.run == r)) (fun e => stopJob e.1 St.CANCELLED 0),
    advanceRun r]),
  settle]

/-- A write of `v` to `STATE` of slot `n` by session `ses` (R55). -/
def slotState (ses n v : Nat) (s : State) : WriteRes :=
  let st := s.get (Obj.STATE n)
  let ow := s.get (Obj.OWNER_SESSION n)
  let mine (a : Act) : WriteRes := if ow = ses then .ok a else if ow = 0xFF then .no Ab.SLOT_STATE else .no Ab.SLOT_OWNED
  let lend (a : Act) : WriteRes := if ow = ses then .ok a else if ow ≠ 0xFF then .no Ab.SLOT_OWNED
    else if 1 ≤ s.level ses then .ok a else .no Ab.ACCESS_LEVEL
  let release : Act := all [.put (Obj.STATE n) 0, .put (Obj.OWNER_SESSION n) 0xFF]
  match st, v with
  | 0, 1 => .ok (all [.put (Obj.STATE n) 1, .put (Obj.OWNER_SESSION n) ses])
  | 1, 0 => mine release
  | 1, 2 => mine (post ses n)
  | 2, 5 | 3, 5 =>
    if ow = ses ∨ 1 ≤ s.level ses then .ok (withdraw n)
    else if ow = 0xFF then .no Ab.ACCESS_LEVEL else .no Ab.SLOT_OWNED
  | 4, 1 => mine (.put (Obj.STATE n) 1)
  | 4, 0 => lend release
  | 5, 0 => if (s.runsFor n).isEmpty then lend release else .no Ab.SLOT_STATE
  | _, _ => .no Ab.SLOT_STATE

/-- A write of `v` to `STATE` of slot `n`. -/
def slotWrite (ses n v : Nat) : Act := guarded ses (Obj.STATE n) v .host true (slotState ses n v)

/-- SLOT_CLAIM. -/
def execSlotClaim (ses n : Nat) (s : State) : Host.Outcome State Fault Refusal := need (Wf.slotClaim ses n) s (slotWrite ses n 1)
/-- SLOT_DISCARD. -/
def execSlotDiscard (ses n : Nat) (s : State) : Host.Outcome State Fault Refusal := need (Wf.slotDiscard ses n) s (slotWrite ses n 0)
/-- SLOT_POST. -/
def execSlotPost (ses n : Nat) (s : State) : Host.Outcome State Fault Refusal := need (Wf.slotPost ses n) s (slotWrite ses n 2)
/-- SLOT_ABANDON. -/
def execSlotAbandon (ses n : Nat) (s : State) : Host.Outcome State Fault Refusal := need (Wf.slotAbandon ses n) s (slotWrite ses n 5)
/-- SLOT_REUSE. -/
def execSlotReuse (ses n : Nat) (s : State) : Host.Outcome State Fault Refusal := need (Wf.slotReuse ses n) s (slotWrite ses n 1)
/-- SLOT_RELEASE. -/
def execSlotRelease (ses n : Nat) (s : State) : Host.Outcome State Fault Refusal := need (Wf.slotRelease ses n) s (slotWrite ses n 0)

end Sys2Proof.Machine
end

