-- ==== Sys2Proof/Machine/Time.lean ====
section
/-! DEFINITION. The commands of the time base, the trigger outputs and the capture inputs (R311 to R321). -/

namespace Sys2Proof.Machine
open Act

/-- PTP_MESSAGE (R313): a message of source `kind` gives its time; `learnt` and `slew` are the rates that discipline comes to. -/
def execPtpMessage (kind : Nat) (t learnt slew : Int) (s : State) : Host.Outcome State Fault Refusal :=
  need (Wf.ptpMessage kind t learnt slew) s <| .read fun s =>
    if s.get Obj.TB_SOURCE ≠ kind ∨ s.dev = Dev.STANDBY then .skip
    else
      let t := if kind = 2 then t + Int.ofNat (s.get Obj.DC_EPOCH_OFFSET_NS) else t
      discipline (t - Int.ofNat s.ns) learnt slew

/-- SOURCE_TIMEOUT (R313, R314). -/
def execSourceTimeout (s : State) : Host.Outcome State Fault Refusal :=
  need Wf.sourceTimeout s <| .read fun s => when (s.get Obj.TB_STATE == Tb.LOCKED) holdover

/-- A write of `v` to `TB_SET`: time steps in the states that R312 names alone. -/
def tbSet (v : Nat) (s : State) : WriteRes :=
  if ¬ s.maySetTime then .no Ab.STATE_FORBIDS
  else .ok (stepTime (Int.ofNat v - Int.ofNat s.ns))

/-- TB_SET (R312). -/
def execTbSet (ses v : Nat) (s : State) : Host.Outcome State Fault Refusal :=
  need (Wf.tbSet ses v) s <| guarded ses Obj.TB_SET v .sup true (tbSet v)

/-- What a read of `TIME_NOW` gives and does: it latches the fraction for the session. -/
def timeNow (ses : Nat) (s : State) : Nat × Act := (s.ns, .put (Obj.TIME_NOW_FRAC ses) s.frac)

/-- TIME_NOW_READ. -/
def execTimeNowRead (ses : Nat) (s : State) : Host.Outcome State Fault Refusal :=
  need (Wf.timeNowRead ses) s <| guardedRead ses Obj.TIME_NOW 8 (timeNow ses)

/-- TRIGGER_EDGE (R316 to R319): the pulse in progress ends, or the pulse that device time has reached begins. -/
def execTriggerEdge (n : Nat) (s : State) : Host.Outcome State Fault Refusal :=
  need (Wf.triggerEdge n) s <| .read fun s =>
    let x := s.trig n
    let start := s.get (Obj.TRIG_START n)
    let period := s.get (Obj.TRIG_PERIOD_NS n)
    let k := if s.get (Obj.TRIG_MODE n) = 2 ∧ period ≠ 0 then (s.ns - start) / period else 0
    let lead (at' : Nat) : Act := all [
      .emit (.trigger n (s.trigLevel n true)),
      .count 64 (Obj.TRIG_PULSES n) 1, .put (Obj.TRIG_LAST_EDGE n) at',
      .trig n (fun y => { y with
        high := true, next := k + 1, sent := y.sent + 1, ends := at' + s.get (Obj.TRIG_WIDTH_NS n) }),
      when (s.groupPending (0x2210 + n)) (applyTrigger n)]
    if x.high ∧ s.ns < x.ends then .skip
    else if x.high then all [
      .trig n (fun y => { y with high := false }), .emit (.trigger n (s.trigLevel n false)),
      .read fun s => when (s.groupPending (0x2210 + n) && s.trigIdle n) (applyTrigger n)]
    else if ¬ s.trigRuns n ∨ ¬ s.trigPending n ∨ s.ns < start ∨ k < x.next then .skip
    else lead (start + k * period)

/-- An edge at input `n` is a sample of the sources of kind 3 that it feeds (R321, R323): the device makes its header. -/
def captureSources (n ns frac : Nat) : Act := .read fun s =>
  each ((List.range 64).filter fun i => s.get (Obj.SRC_KIND i) == 3 && s.get (Obj.SRC_LOCATOR i) % 16 == n) fun i => all [
    takeIfPending (sourceCtl i),
    .read fun s => when (s.feeds i && s.get (Obj.SRC_KIND i) == 3) (own i ns frac {})]

/-- CAPTURE_EDGE (R320, R321): a level change with its stamp, whose new level then holds for `held` ns: within the filter it is ignored. `lost`: it follows another within 40 ns
and is not stamped. `learnt` and `slew` are the rates that discipline comes to where the edge is a PPS second (R313). -/
def execCaptureEdge (n ns frac held : Nat) (rising lost : Bool) (learnt slew : Int) (s : State) : Host.Outcome State Fault Refusal :=
  need (Wf.captureEdge n ns frac held rising lost learnt slew) s <| .read fun s =>
    let kinds := s.get (Obj.CAP_EDGES n)
    let wanted : Bool := bit kinds (if rising then 0 else 1)
    let close : Bool := (Tab.at s.u.time.cap n {}).edge.any fun t => decide (ns < t + 40)
    let lost := lost && close
    if s.dev < Dev.PREOP ∨ held < s.get (Obj.CAP_FILTER_NS n) then .skip
    else all [
      .clock (fun x => { x with cap := Tab.upd x.cap n {} (fun c => { c with edge := some ns }) }),
      .put (Obj.CAP_LEVEL n) (if rising then 1 else 0),
      when (n == 0 && rising && !lost && s.get Obj.TB_SOURCE == 3) (discipline (ppsOffset ns) learnt slew),
      when (wanted && lost) (.count 32 (Obj.CAP_DROPPED n) 1),
      when (wanted && !lost) (
        let fifo := (Tab.at s.u.time.cap n {}).fifo
        all [
          .count 64 (Obj.CAP_COUNT n) 1,
          .clock (fun x => { x with
            cap := Tab.upd x.cap n {} (fun c => { c with
              last := some (ns, frac), fifo := if fifo.length < 64 then c.fifo ++ [(ns, frac, rising)] else c.fifo }) }),
          if fifo.length < 64 then .put (Obj.CAP_FIFO_FILL n) (fifo.length + 1) else .count 32 (Obj.CAP_DROPPED n) 1,
          deliver 7 n ns frac false, captureSources n ns frac]),
      settle]

/-- What a read of `CAP_READ` gives and does: the oldest entry is taken out (R321). -/
def capRead (ses n : Nat) (s : State) : Nat × Act :=
  match (Tab.at s.u.time.cap n {}).fifo with
  | [] => (0, .put (Obj.CAP_READ_INFO ses n) 0)
  | e :: rest => (e.1, all [
      .clock (fun x => { x with cap := Tab.upd x.cap n {} (fun c => { c with fifo := rest }) }),
      .put (Obj.CAP_FIFO_FILL n) rest.length,
      .put (Obj.CAP_READ_INFO ses n) (e.2.1 * 65536 + 2 + (if e.2.2 then 1 else 0))])

/-- CAP_READ. -/
def execCapRead (ses n : Nat) (s : State) : Host.Outcome State Fault Refusal :=
  need (Wf.capRead ses n) s <| guardedRead ses (Obj.CAP_READ n) 8 (capRead ses n)

end Sys2Proof.Machine
end

