-- ==== Sys2Proof/Machine/Dictionary.lean ====
section
/-! DEFINITION. The object dictionary as its sessions reach it: what stands at a subindex, its value, the range of an object, a write and a read of one object from
the checks to the effect (R11 to R21, R43, R56). -/

namespace Sys2Proof.Machine
open Act

/-! ## What stands where (R11, R15, R19, R44, R536) -/

/-- What stands at a subindex: nothing, a subindex that does not exist or is reserved, subindex 0 with the highest one, or an object with its first subindex. -/
inductive Found where
  | absent
  | above
  | reserved
  | highest (n : Nat)
  | obj (r : Row) (first : Nat)
  deriving DecidableEq, Repr

/-- The objects of the control block of the group at index `i` (R44). -/
def ctlRow (i sub : Nat) : Row :=
  let ro (t : Typ) : Row := ⟨sub, 1, 1, 1, t, .ro, .host, .any, 0, [], false⟩
  match sub with
  | 0xF8 => ⟨sub, 1, 1, 1, .u8, .wo, groupLvl i, .le 1 2, 0, [], false⟩
  | 0xF9 | 0xFD => ro .u8
  | 0xFE => ro .u64
  | 0xFF => ro .u16
  | _ => ro .u32

/-- What stands at subindex `sub` of index `i`. An entry of the event ring is one object of four subindices (R64). -/
def placeOf (i sub : Nat) : Found :=
  match Obj.highest i with
  | none => .absent
  | some h =>
    if h < sub then .above
    else if sub = 0 then .highest h
    else if 0xF8 ≤ sub ∧ (i = 0x2120 ∨ Obj.isGroupIndex i) then .obj (ctlRow i sub) sub
    else if 0x2190 ≤ i ∧ i ≤ 0x219F then
      let first := 1 + (sub - 1) / 4 * 4
      .obj ⟨first, 1, 1, 4, .oct 32, .ro, .host, .any, 0, [], false⟩ first
    else match (Obj.tableOf i).bind (fun t => Obj.rowAt t.2 sub) with
      | some (r, first) => .obj r first
      | none => .reserved

/-- The key of subindex `sub` of the object that begins at `i:first`, as session `ses` reaches it. -/
def State.keyOf (s : State) (ses i first sub : Nat) : Nat :=
  if i = 0x2581 ∨ i = 0x2D21 then s.groupKey ses i * 256 + sub
  else (if Obj.perSession (i * 256 + first) then ses * 16777216 else 0) + i * 256 + sub

/-! ## Ranges (R19) -/

/-- Whether a number keeps an object's range. -/
def Rng.holds (r : Rng) (v : Nat) : Bool :=
  match r with
  | .any => true
  | .le lo hi => decide (lo ≤ v ∧ v ≤ hi)
  | .leOr lo hi x => decide (lo ≤ v ∧ v ≤ hi) || v == x
  | .step lo hi d => decide (lo ≤ v ∧ v ≤ hi ∧ (v - lo) % d = 0)
  | .stepOr lo hi d x => decide (lo ≤ v ∧ v ≤ hi ∧ (v - lo) % d = 0) || v == x
  | .enum xs => xs.contains v
  | .mask m => Nat.land v m == v
  | .finite => (fp v).isFin
  | .finitePos => (fp v).isFin && Num.zero.lt (fp v)
  | .realLe lo hi => (fp lo).le (fp v) && (fp v).le (fp hi)
  | .argMeta => decide (v / 2 ^ 60 ≤ 2 ∧ v / 2 ^ 58 % 4 ≤ 2 ∧ v % 2 ^ 57 = 0)

/-- A written number keeps the range of its row: a BOOLEAN is 0 or 1. -/
def Row.holds (r : Row) (v : Nat) : Bool := r.rng.holds v && (r.typ != .bool || decide (v ≤ 1))

/-! ## Written values -/

/-- A value as its object takes it: the number (0 for a longer object), the words of its slots, a DOMAIN's data (none: not fetched), and how many free values
it takes (the address of the device's own buffer). -/
structure Taken where
  n : Nat := 0
  words : List Nat := []
  data : Option (List Byte) := none
  draws : Nat := 0
  deriving DecidableEq, Repr

/-- The slots of a string of bytes. -/
def wordsOf (bs : List Byte) : List Nat := (List.range (ceilDiv bs.length 8)).map (wordOf bs)

/-- The words of a DOMAIN descriptor (R14). -/
def descWords (addr len crc : Nat) : List Nat := [addr % 18446744073709551616, len % 4294967296 + crc % 4294967296 * 4294967296]

/-- Value `v` as an object of type `t` takes it; none where type or length do not match. A number is cut to the object's width, which a transport has checked. -/
def State.taken (s : State) (t : Typ) (v : WVal) : Option Taken :=
  let bytes (bs : List Byte) : Option Taken := match t with
    | .domain => none
    | .oct m | .vis m => if bs.length = m then some { words := wordsOf bs } else none
    | _ => if bs.length = t.bytes then some { n := ofLe bs, words := [ofLe bs] } else none
  match v with
  | .num n _ => (match t with
    | .domain | .oct _ | .vis _ => none
    | _ => some { n := n % 256 ^ t.bytes, words := [n % 256 ^ t.bytes] })
  | .octets bs => bytes bs
  | .desc addr len crc data => if t = .domain then some { words := descWords addr len crc, data := s.fetched len data } else none
  | .inline d => if t = .domain then some { words := descWords (s.free 0 64) d.length (crc32c d), data := some d, draws := 1 } else bytes d
  | _ => none

/-- The code that the fetch of a descriptor's data within the write gives (R14). -/
def State.fetchCode (s : State) (v : WVal) : Nat := match v with
  | .desc _ len crc data => (match s.fetched len data with
    | none => Ab.NOT_STORED
    | some d => if d.length ≠ len then Ab.NOT_STORED else if crc32c d ≠ crc then Ab.DOMAIN_CHECK else 0)
  | _ => 0

/-- Live slots from key `k` on take words. -/
def putWords (k : Nat) (ws : List Nat) : Act := each ((List.range ws.length).zip ws) fun e => .put (k + e.1) e.2

/-! ## What a write does -/

/-- `IMG_WRITE` and `PROG_IMAGE`, whose data is fetched after the write (R14). -/
def fetchedLate (i sub : Nat) : Bool := sub == 1 && (i == 0x2010 || decide (0x2021 ≤ i ∧ i ≤ 0x2024))

/-- What a write of `t` to a field of a request slot does: only while FILLING, only by the owner (R56). -/
def slotField (ses n k : Nat) (t : Taken) (s : State) : WriteRes :=
  if s.get (Obj.STATE n) ≠ 1 then .no Ab.SLOT_STATE
  else if s.get (Obj.OWNER_SESSION n) ≠ ses then .no Ab.SLOT_OWNED
  else .ok (.put k t.n)

/-- What a write to the shadow of a staged object does (R43, R45, R267). -/
def stagedWrite (ses k : Nat) (t : Taken) (s : State) : WriteRes :=
  let c := ctlOf (k / 256)
  if s.groupShut ses c ≠ 0 then .no (s.groupShut ses c)
  else .ok (shadowWrite ses k (all [
    each ((List.range t.words.length).zip t.words) (fun e => .putShadow (k + e.1) e.2),
    match t.data with
      | some d => .dict (fun x => { x with blobShadow := Tab.set x.blobShadow k d })
      | none => .skip]))

/-- What a write does to an object whose write is more than a new value, by index below 0x2700; `w` is the value as written. -/
def ownLow (ses i sub : Nat) (t : Taken) (w : WVal) (s : State) : Option WriteRes :=
  if i = 0x1010 then some (if t.n = 0x65766173 then storeParameters sub s else .no Ab.RANGE)
  else if i = 0x1011 then some (if t.n = 0x64616F6C then restoreDefaults sub s else .no Ab.RANGE)
  else if i = 0x2000 ∧ sub = 2 then some (deviceCommand t.n s)
  else if i = 0x2010 then some (if sub = 1 then progImage ses w s else if sub = 6 then progUnload t.n s else progCounterCommit s)
  else if 0x2021 ≤ i ∧ i ≤ 0x2024 then
    some (if sub = 1 then imgWrite (i - 0x2020) w s else if sub = 0x0A then imgCounterCommit (i - 0x2020) s else imgActivate (i - 0x2020) s)
  else if i = 0x2081 ∧ sub = 5 then some (attestGo ses s)
  else if i = 0x2082 then some (if sub = 2 then debugToken ses (tokenOf (t.data.getD [])) s else debugEnd s)
  else if 0x2110 ≤ i ∧ i ≤ 0x211F ∧ sub = 0x0A then some (elevate ses (i - 0x2110) (tokenOf (t.data.getD [])) s)
  else if 0x2110 ≤ i ∧ i ≤ 0x211F ∧ sub = 0x0C then some (dropLevel ses (i - 0x2110) s)
  else if i = 0x2200 ∧ sub = 0x0A then some (tbSet t.n s)
  else if 0x2300 ≤ i ∧ i ≤ 0x2341 then some (fallowRequest (i - 0x2300) t.n s)
  else if i = 0x23F0 then some (arithClear s)
  else if i = 0x2410 ∧ sub = 3 then some (writeCopyShare t.n s)
  else if i = 0x2430 ∧ sub = 4 then some (leaseRequest ses t.n (s.free 0 32) (s.free 1 32) (s.free 2 64) s)
  else if i = 0x2430 ∧ sub = 9 then some (leaseRelease ses t.n s)
  else if 0x2440 ≤ i ∧ i ≤ 0x247F then some (retireRequest (i - 0x2440) s)
  else if i = 0x2581 ∧ sub = 2 then some (furrowCommand (s.selected ses) t.n s)
  else if i = 0x2610 ∧ sub = 0x0C then some (editGo ses s)
  else none

/-- What a write does to such an object from 0x2700 on; `k` is its key. The data that a check-value unit reads is free here where no memory of the model holds it. -/
def ownHigh (ses i sub k : Nat) (t : Taken) (s : State) : Option WriteRes :=
  if 0x2810 ≤ i ∧ i ≤ 0x2817 ∧ sub = 0x0A then some (filterCommand (i - 0x2810) t.n s)
  else if i = 0x2902 then some (mapClear s)
  else if 0x2910 ≤ i ∧ i ≤ 0x2913 ∧ sub = 7 then some (roadmapClear (i - 0x2910) s)
  else if 0x2B00 ≤ i ∧ i ≤ 0x2C1F ∧ sub = 2 then some (chCommand (i - 0x2B00) t.n s)
  else if 0x2B00 ≤ i ∧ i ≤ 0x2C1F ∧ sub = 0x19 then some (refGo (i - 0x2B00) s)
  else if i = 0x2D00 then
    (if sub = 4 then some (safetyAck s) else if sub = 5 then some (outputsEnable t.n s) else if sub = 6 then some (safeHoldRequest t.n s)
      else if sub = 0x0A then some (eventAck t.n s) else none)
  else if 0x2D40 ≤ i ∧ i ≤ 0x2D4F ∧ sub = 8 then
    let n := s.get (Obj.CV_LENGTH (i - 0x2D40))
    some (cvRunWrite (i - 0x2D40) (s.freeFrom 0 n) (some (s.free (ceilDiv n 8) 64)) s)
  else if 0x2E00 ≤ i ∧ i ≤ 0x2E4F then some (domSet ses (i - 0x2E00) t.n s)
  else if i = 0x2E80 ∧ (sub = 3 ∨ sub = 5) then some (writeLimit ses k t.n s)
  else if i = 0x2E80 ∧ sub = 4 then some (writeLimitEn t.n s)
  else if 0x2F11 ≤ i ∧ i ≤ 0x2F14 ∧ sub = 1 then some (.ok (all [.put k t.n, when (t.n != 0) (needDomain 71)]))
  else if 0x2F11 ≤ i ∧ i ≤ 0x2F14 ∧ sub = 9 then some (laneRetire (i - 0x2F11) t.n s)
  else if 0x3000 ≤ i ∧ i ≤ 0x3FFF then some (if sub = 1 then slotState ses (i - 0x3000) t.n s else slotField ses (i - 0x3000) k t s)
  else if 0x4000 ≤ i ∧ i ≤ 0x4FFF ∧ sub = 1 then some (ctxState (i - 0x4000) t.n s)
  else if 0x4000 ≤ i ∧ i ≤ 0x4FFF ∧ sub = 0x15 then some (ctxClear (i - 0x4000) s)
  else if 0x5000 ≤ i ∧ i ≤ 0x5FFF ∧ sub = 2 then some (streamCommand ses (i - 0x5000) t.n s)
  else none

/-- What a write of `t` that has passed the checks does to the object of row `r` at `i:sub` with key `k`. -/
def writeEffect (ses i sub k : Nat) (r : Row) (t : Taken) (w : WVal) (s : State) : WriteRes :=
  if sub = 0xF8 then groupCommand ses (k / 256) t.n s
  else if r.acc = .rws then stagedWrite ses k t s
  else match (if i < 0x2700 then ownLow ses i sub t w s else ownHigh ses i sub k t s) with
    | some x => x
    | none => .ok (putWords k t.words)

/-- The free values that a handler of `ownLow` or `ownHigh` takes at `i:sub`. -/
def State.ownDraws (s : State) (i sub : Nat) : Nat :=
  if i = 0x2430 ∧ sub = 4 then 3
  else if 0x2D40 ≤ i ∧ i ≤ 0x2D4F ∧ sub = 8 then ceilDiv (s.get (Obj.CV_LENGTH (i - 0x2D40))) 8 + 1
  else 0

/-- A write of `v` by session `ses` to the object at `i:sub`, from its checks to its effect; `later` is the code of the transport for a later subindex of a long
object (R25, R26, R34). -/
def writeObject (ses i sub later : Nat) (v : WVal) (s : State) : WriteRes :=
  if s.dev < Dev.PREOP ∨ ¬ s.recoveryReaches i then .no Ab.STATE
  else match placeOf i sub with
    | .absent => .no Ab.NO_OBJECT
    | .above | .reserved => .no Ab.NO_SUB
    | .highest _ => .no Ab.WRITE_RO
    | .obj r first =>
      if sub ≠ first then .no later
      else
        let k := s.keyOf ses i first sub
        let raw := match v with
          | .num n _ => n % 256 ^ r.typ.bytes
          | _ => 0
        let lvl := if i = 0x2000 ∧ sub = 2 then commandLevel raw else r.lvl
        let c := accessCode s ses k raw lvl
        if c = Ab.STATE then .no c
        else if r.acc = .ro ∨ r.acc = .const then .no Ab.WRITE_RO
        else if c ≠ 0 then .no c
        else match s.taken r.typ v with
          | none => .no Ab.LENGTH
          | some t =>
            if ¬ r.holds t.n then .no Ab.RANGE
            else if ¬ fetchedLate i sub ∧ s.fetchCode v ≠ 0 then .no (s.fetchCode v)
            else
              let x := writeEffect ses i sub k r t v s
              (x.1, all [.draw (t.draws + s.ownDraws i sub), x.2])

/-! ## Reads (R16, R19, R21, R43) -/

/-- The word of slot `sub` of the object at `i:first`. -/
def State.slotWord (s : State) (ses i first sub : Nat) : Nat :=
  match s.view ses i sub with
  | some v => v
  | none => s.get (s.keyOf ses i first sub)

/-- The bytes of an object of `w` bytes whose read is more than its value, and what the read does. -/
def State.readActs (s : State) (ses i sub w : Nat) : Option (List Byte × Act) :=
  if i = 0x2200 ∧ sub = 0x0B then some (le 8 (timeNow ses s).1, (timeNow ses s).2)
  else if 0x2220 ≤ i ∧ i ≤ 0x222F ∧ i * 256 + sub = Obj.CAP_READ (i - 0x2220) then
    some (le 8 (capRead ses (i - 0x2220) s).1, (capRead ses (i - 0x2220) s).2)
  else if i = 0x2080 ∧ sub = 0x0E then some (s.freeFrom 0 32, authChallenge ses s)
  else if s.openFigure i sub then some (le 8 (s.free 0 (8 * w)), .draw 1)
  else none

/-- A read by session `ses` of `n` bytes from subindex `sub` of index `i` on: its abort code, the bytes, what it does. The slots read must belong to one object. -/
def readObject (ses i sub n : Nat) (s : State) : Nat × List Byte × Act :=
  if ¬ stateReads s.dev i ∨ ¬ s.recoveryReaches i then (Ab.STATE, [], .skip)
  else match placeOf i sub with
    | .absent => (Ab.NO_OBJECT, [], .skip)
    | .above => (Ab.NO_SUB, [], .skip)
    | .reserved => if 8 < n then (Ab.LENGTH, [], .skip) else (0, List.replicate n 0, .skip)
    | .highest h => if 8 < n then (Ab.LENGTH, [], .skip) else (0, le n h, .skip)
    | .obj r first =>
      if r.acc = .wo then (Ab.READ_WO, [], .skip)
      else if 8 * (first + r.span - sub) < n then (Ab.LENGTH, [], .skip)
      else match s.readActs ses i sub r.typ.bytes with
        | some (bs, a) => (0, (bs ++ List.replicate n 0).take n, a)
        | none => (0, ((List.range (ceilDiv n 8)).flatMap fun j => le 8 (s.slotWord ses i first (sub + j))).take n, .skip)

end Sys2Proof.Machine
end

