-- ==== Sys2Proof/Machine/Requests.lean ====
section
/-! DEFINITION. Accesses as the transports bring them: whole objects, BAR0 slots, the operations of an MDP REQUEST, inline transfers (R22 to R26, R33 to R38). -/

namespace Sys2Proof.Machine
open Act

/-! ## Whole objects (R18, R23, R26) -/

/-- Whether the width of a written number suits its object: over PCIe at least as wide (R23), else the same; 0 or the code. -/
def widthCode (ses i sub : Nat) (v : WVal) : Nat :=
  match v, placeOf i sub with
  | .num _ w, .obj r _ =>
    if ses = 0 then (if (w = 1 ∨ w = 2 ∨ w = 4 ∨ w = 8) ∧ r.typ.bytes ≤ w then 0 else Ab.PARTIAL_ACCESS)
    else if w = r.typ.bytes then 0 else Ab.LENGTH
  | _, _ => 0

/-- The code of the transport of session `ses` for a later subindex of a long object (R25, R26, R34). -/
def laterCode (ses : Nat) : Nat := if ses = 0 then Ab.PARTIAL_ACCESS else if ses = 1 then Ab.UNSUPPORTED else Ab.LENGTH

/-- A write of `v` to `i:sub` by session `ses` as its transport brings it. -/
def sessionWrite (ses i sub : Nat) (v : WVal) (s : State) : WriteRes :=
  let c := widthCode ses i sub v
  if c = Ab.PARTIAL_ACCESS then .no c
  else
    let x := writeObject ses i sub (laterCode ses) v s
    if x.1 = 0 ∧ c ≠ 0 then .no c else x

/-- The slots that session 0 has collected are discarded (R25). -/
def dropSlots : Act := .ses 0 fun x => { x with slots := none }

/-! ## SDO services (R26; their layouts PRESUMED from ETG.1000, log entry 175) -/

/-- The answer of session 1 to an SDO service: the abort, recorded, or the bytes. -/
def sdoAnswer (k code : Nat) (bs : List Byte) : Act := all [when (code != 0) (recordAbort 1 code k), .emit (.reply 1 code bs)]

/-- An SDO upload of the object at `i:sub`, whole (R26). -/
def sdoUpload (i sub : Nat) (s : State) : Nat × List Byte × Act := match placeOf i sub with
  | .obj r first => if sub ≠ first then (Ab.UNSUPPORTED, [], .skip) else readObject 1 i sub r.typ.bytes s
  | .highest _ => readObject 1 i sub 1 s
  | _ => readObject 1 i sub 8 s

/-- The subindices of index `i` at which an object begins, from `start` on. -/
def objectSubs (i start : Nat) : List Nat := match Obj.highest i with
  | none => []
  | some h => ((List.range (h + 1)).drop start).filter fun sub => match placeOf i sub with
    | .obj _ first => first == sub
    | .highest _ => true
    | _ => false

/-- A Complete Access upload: the objects one behind the other, subindex 0 as two bytes, zeros for a write-only one; the first abort ends it. -/
def sdoUploadAll (i : Nat) : List Nat → List Byte → Act
  | [], got => sdoAnswer (i * 256) 0 got
  | sub :: t, got => .read fun s => match placeOf i sub with
    | .highest h => sdoUploadAll i t (got ++ le 2 h)
    | .obj r _ =>
      if r.acc = .wo then sdoUploadAll i t (got ++ List.replicate r.typ.bytes 0)
      else
        let x := readObject 1 i sub r.typ.bytes s
        if x.1 ≠ 0 then sdoAnswer (i * 256 + sub) x.1 [] else all [x.2.2, sdoUploadAll i t (got ++ x.2.1)]
    | _ => sdoUploadAll i t got

/-- The value that the bytes of an object make. -/
def objVal (t : Typ) (bs : List Byte) (fetch : Option (List Byte)) : WVal :=
  if t = .domain then .desc (ofLe (bs.take 8)) (ofLe ((bs.drop 8).take 4)) (ofLe ((bs.drop 12).take 4)) fetch else .octets (bs.take t.bytes)

/-- A Complete Access download of objects that begin at the subindices given: those that cannot be written keep their values, the first abort ends it; bytes beyond the
last object are an abort too. -/
def sdoDownloadAll (i : Nat) : List Nat → List Byte → List (Option (List Byte)) → Act
  | [], bs, _ => sdoAnswer (i * 256) (if bs.isEmpty then 0 else Ab.LENGTH) []
  | sub :: t, bs, fs => .read fun s => match placeOf i sub with
    | .highest _ => sdoDownloadAll i t (bs.drop 2) fs
    | .obj r _ =>
      if bs.isEmpty then sdoAnswer (i * 256) 0 []
      else if r.acc = .ro ∨ r.acc = .const then sdoDownloadAll i t (bs.drop r.typ.bytes) fs
      else
        let x := writeObject 1 i sub Ab.UNSUPPORTED (objVal r.typ (bs.take r.typ.bytes) (fs.headD none)) s
        if x.1 ≠ 0 then all [x.2, sdoAnswer (i * 256 + sub) x.1 []]
        else all [x.2, sdoDownloadAll i t (bs.drop r.typ.bytes) (if r.typ = .domain then fs.drop 1 else fs)]
    | _ => sdoDownloadAll i t bs fs

/-- The number of an object type (R13). -/
def Typ.code : Typ → Nat
  | .bool => 1 | .i8 => 2 | .i16 => 3 | .i32 => 4 | .u8 => 5 | .u16 => 6 | .u32 => 7 | .real => 8
  | .vis _ => 9 | .oct _ => 10 | .domain => 15 | .i64 => 0x15 | .u64 => 0x1B

/-- The read bits 0 to 2 and the write bits 3 to 5 of an entry description. -/
def Acc.bits : Acc → Nat
  | .ro | .const => 7
  | .rw | .rws => 0x3F
  | .wo => 0x38

/-- The SDO Information service: the indices that exist; an index with its highest subindex and its kind, variable or record; a subindex with its type, its bits and its
access. Names are left out (log entry 175). -/
def sdoInfo (i sub : Nat) (v : WVal) : Nat × List Byte :=
  match v, Obj.highest i, placeOf i sub with
  | .odList, _, _ => (0, (List.range 65536).flatMap fun j => if (Obj.highest j).isSome then le 2 j else [])
  | _, none, _ => (Ab.NO_OBJECT, [])
  | .odIndex, some h, _ => (0, le 2 i ++ le 1 h ++ le 1 (if h ≤ 1 then 7 else 9))
  | _, _, .obj r _ => (0, le 2 i ++ le 1 sub ++ le 2 r.typ.code ++ le 2 (8 * r.typ.bytes) ++ le 2 r.acc.bits)
  | _, _, .highest _ => (0, le 2 i ++ le 1 sub ++ le 2 Typ.u8.code ++ le 2 8 ++ le 2 Acc.const.bits)
  | _, _, _ => (Ab.NO_SUB, [])

/-- A service of the slave port's mailbox beyond the download of one object. -/
def sdoService (i sub : Nat) (v : WVal) : Act := .read fun s => match v with
  | .upload =>
    let x := sdoUpload i sub s
    all [x.2.2, sdoAnswer (i * 256 + sub) x.1 (if x.1 = 0 then x.2.1 else [])]
  | .uploadAll => if (Obj.highest i).isNone then sdoAnswer (i * 256 + sub) Ab.NO_OBJECT [] else sdoUploadAll i (objectSubs i sub) []
  | .downloadAll bs fs => if (Obj.highest i).isNone then sdoAnswer (i * 256 + sub) Ab.NO_OBJECT [] else sdoDownloadAll i (objectSubs i sub) bs fs
  | v =>
    let x := sdoInfo i sub v
    sdoAnswer (i * 256 + sub) x.1 x.2

/-- OBJECT_WRITE. -/
def execObjectWrite (ses idx sub : Nat) (v : WVal) (s : State) : Host.Outcome State Fault Refusal :=
  need (Wf.objectWrite ses idx sub v) s <| .read fun s =>
    if ¬ s.isOpen ses ∨ s.dev = Dev.STANDBY then .skip
    else if v.isSdo then all [sdoService idx sub v, settle]
    else if ses = 0 ∧ (s.session 0).slots.isSome then all [dropSlots, answer 0 (idx * 256 + sub) (.no Ab.PARTIAL_ACCESS)]
    else all [answer ses (idx * 256 + sub) (sessionWrite ses idx sub v s), settle]

/-! ## BAR0 (R22 to R25) -/

/-- The next slot of the object of row `r` at `i:first` arrives with 8 bytes, after `got` (R25). -/
def slotArrives (i first : Nat) (r : Row) (got : List Byte) (value : Nat) (fetch : Option (List Byte)) : Act := .read fun s =>
  let bs := got ++ le 8 value
  if bs.length < 8 * r.span then .ses 0 fun x => { x with slots := some (i, first, bs) }
  else all [dropSlots, answer 0 (i * 256 + first) (writeObject 0 i first Ab.PARTIAL_ACCESS (objVal r.typ bs fetch) s), settle]

/-- A width that a BAR0 access may have, naturally aligned (R23). -/
def bar0Width (addr width : Nat) : Bool := (width == 1 || width == 2 || width == 4 || width == 8) && addr % width == 0

/-- A read of `width` bytes at a BAR0 address: all ones where it aborts, with the abort recorded, and while the session is closed (R23, R24, R39). -/
def bar0Read (addr width : Nat) : Act := .read fun s =>
  let k := addr / 8
  let x := readObject 0 (k / 256) (k % 256) 8 s
  let no (c : Nat) : Act := all [recordAbort 0 c k, .emit (.reply 0 c (abortBytes 0 width))]
  if ¬ s.isOpen 0 then .emit (.reply 0 0 (abortBytes 0 width))
  else if ¬ bar0Width addr width then no Ab.PARTIAL_ACCESS
  else if x.1 ≠ 0 then no x.1
  else all [x.2.2, .emit (.reply 0 0 ((x.2.1.drop (addr % 8)).take width)), settle]

/-- A write of `width` bytes at a BAR0 address (R23 to R25). -/
def bar0Write (addr width value : Nat) (fetch : Option (List Byte)) : Act := .read fun s =>
  let i := addr / 2048
  let sub := addr / 8 % 256
  let k := i * 256 + sub
  let col := (s.session 0).slots
  let partly : Act := answer 0 k (.no Ab.PARTIAL_ACCESS)
  if ¬ s.isOpen 0 then .skip
  else if ¬ bar0Width addr width then partly
  else match placeOf i sub, col with
    | .obj r first, col =>
      if r.span = 1 then
        if col.isSome then all [dropSlots, partly]
        else if addr % 8 ≠ 0 ∨ width < r.typ.bytes then partly
        else all [answer 0 k (writeObject 0 i sub Ab.PARTIAL_ACCESS (.num value width) s), settle]
      else (match col with
        | none => if width = 8 ∧ sub = first then slotArrives i first r [] value fetch else partly
        | some (ci, cf, bs) =>
          if ci = i ∧ cf = first ∧ width = 8 ∧ sub = first + bs.length / 8 then slotArrives i first r bs value fetch
          else all [dropSlots, partly])
    | _, some _ => all [dropSlots, partly]
    | _, none => all [answer 0 k (writeObject 0 i sub Ab.PARTIAL_ACCESS (.num value width) s), settle]

/-- BAR0_SLOT_WRITE: a write at a BAR0 address, or with no value a read. -/
def execBar0SlotWrite (addr width : Nat) (value : Option Nat) (fetch : Option (List Byte)) (s : State) : Host.Outcome State Fault Refusal :=
  need (Wf.bar0SlotWrite addr width value fetch) s <| .read fun s =>
    if s.dev = Dev.STANDBY then .skip
    else match value with
      | none => bar0Read addr width
      | some v => bar0Write addr width v fetch

/-! ## MDP REQUESTs (R33 to R38) -/

/-- A REQUEST of session `h.ses` arrives, before its first operation (R33, R35, R37). One that names a freed session is recorded in that session's own abort objects
(DESIGN CHOICE, log entry 178). -/
def requestArrives (h : MdpHead) : Act := .read fun s =>
  let x := s.session h.ses
  if s.get (Obj.TRANSPORT h.ses) ≠ 3 then recordAbort h.ses Ab.SESSION_EXPIRED 0
  else if x.rxHigh < h.seq then .ses h.ses fun y => { y with
    rxHigh := h.seq, lastReq := s.time
    cur := some { seq := h.seq, tooLong := decide (1400 < h.answerBytes), aborted := false, results := [] } }
  else match x.cache.find? (fun e => e.1 == h.seq) with
    | some e => all [.ses h.ses (fun y => { y with cur := none }), .emit (.response h.ses e.2.1 e.2.2)]
    | none => all [.ses h.ses (fun y => { y with cur := none }), recordAbort h.ses Ab.REPLAY 0]

/-- The REQUEST in progress gets the result of its next operation. -/
def addResult (ses code : Nat) (data : List Byte) : Act := .ses ses fun y => { y with
  cur := y.cur.map fun q => { q with aborted := q.aborted || code != 0, results := q.results ++ [(code, data)] } }

/-- The RESPONSE leaves after the last operation, and is kept for a repeat; an idle time-out of 0 closes the session (R34, R37,
R38): with the RESPONSE to its first REQUEST, not with that to its FINISH (DESIGN CHOICE, log entry 178). -/
def respond (ses : Nat) : Act := .read fun s =>
  let x := s.session ses
  match x.cur with
  | none => .skip
  | some q => all [
      .ses ses (fun y => { y with
        txSeq := y.txSeq + 1, cur := none, cache := ((q.seq, y.txSeq + 1, q.results) :: y.cache).take 16 }),
      .emit (.response ses (x.txSeq + 1) q.results),
      when (s.get (Obj.IDLE_TIMEOUT_MS ses) == 0) (sessionClose ses)]

/-- An operation of a REQUEST at object key `k`: `body` gives its abort code, read bytes and effect (R34, R35). A REQUEST of more than 1,400 bytes is dropped (DESIGN
CHOICE, log entry 174). -/
def mdpOp (h : MdpHead) (k : Nat) (body : State → Nat × List Byte × Act) : Act := .read fun s =>
  if ¬ s.mdpServed ∨ 1400 < h.bytes then .skip
  else all [
    when (h.op == 0) (requestArrives h),
    .read fun s => match (s.session h.ses).cur with
      | none => .skip
      | some q =>
        if q.seq ≠ h.seq ∨ q.results.length ≠ h.op then .skip
        else all [
          (if q.tooLong then addResult h.ses Ab.TOO_LONG []
          else if q.aborted then addResult h.ses Ab.SKIPPED []
          else
            let x := body s
            all [x.2.2, when (x.1 != 0) (recordAbort h.ses x.1 k), addResult h.ses x.1 x.2.1]),
          when (h.op + 1 == h.nOps) (respond h.ses)],
    settle]

/-- MDP_READ. -/
def execMdpRead (h : MdpHead) (idx sub size : Nat) (s : State) : Host.Outcome State Fault Refusal :=
  need (Wf.mdpRead h idx sub size) s <| mdpOp h (idx * 256 + sub) (readObject h.ses idx sub size)

/-- Whether a WRITE of `size` bytes covers its object: at least its bytes, no more than its slots (R34). -/
def coversObject (i sub size : Nat) : Bool := match placeOf i sub with
  | .obj r first => sub == first && decide (r.typ.bytes ≤ size ∧ size ≤ 8 * r.span)
  | _ => true

/-- A written value without what a WRITE operation cannot carry: DOMAIN data inline (R34). -/
def WVal.written : WVal → Option WVal
  | .inline _ => none
  | v => some v

/-- MDP_WRITE. -/
def execMdpWrite (h : MdpHead) (idx sub size : Nat) (v : WVal) (s : State) : Host.Outcome State Fault Refusal :=
  need (Wf.mdpWrite h idx sub size v) s <| mdpOp h (idx * 256 + sub) fun s =>
    match v.written with
    | none => (Ab.LENGTH, [], .skip)
    | some v =>
      let x := writeObject h.ses idx sub Ab.LENGTH v s
      if x.1 = 0 ∧ ¬ coversObject idx sub size then (Ab.LENGTH, [], .skip) else (x.1, [], x.2)

/-- INLINE_START: the session's one inline buffer opens (R36). -/
def execInlineStart (h : MdpHead) (idx sub total crc : Nat) (s : State) : Host.Outcome State Fault Refusal :=
  need (Wf.inlineStart h idx sub total crc) s <| mdpOp h (idx * 256 + sub) fun _ =>
    if total = 0 ∨ 67108864 < total then (Ab.RANGE, [], .skip)
    else (0, [], .ses h.ses fun x => { x with inline := some { idx := idx, sub := sub, total := total, crc := crc, data := [] } })

/-- The inline buffer of session `ses` is discarded. -/
def dropInline (ses : Nat) : Act := .ses ses fun x => { x with inline := none }

/-- INLINE_DATA: data is appended; with the last of it the object is written (R36). -/
def execInlineData (h : MdpHead) (idx sub : Nat) (data : List Byte) (s : State) : Host.Outcome State Fault Refusal :=
  need (Wf.inlineData h idx sub data) s <| mdpOp h (idx * 256 + sub) fun s =>
    match (s.session h.ses).inline with
    | none => (Ab.LENGTH, [], .skip)
    | some x =>
      let all' := x.data ++ data
      if x.idx ≠ idx ∨ x.sub ≠ sub ∨ x.total < all'.length then (Ab.LENGTH, [], dropInline h.ses)
      else if all'.length < x.total then (0, [], .ses h.ses fun y => { y with inline := some { x with data := all' } })
      else if crc32c all' ≠ x.crc then (Ab.DOMAIN_CHECK, [], dropInline h.ses)
      else
        let w := writeObject h.ses idx sub Ab.LENGTH (.inline all') s
        (w.1, [], all [dropInline h.ses, w.2])

end Sys2Proof.Machine
end

