-- ==== Sys2Proof/Machine/Sieve.lean ====
section
/-! DEFINITION. The Sieve: decoding, scores, suppression and crops in FP32, and its slices (R300 to R310). -/

namespace Sys2Proof.Machine
open Act

/-! ## Decoding (R303) -/

/-- A box: corners, score, class, the anchor and the candidate it comes from. -/
structure Box where
  x1 : Num
  y1 : Num
  x2 : Num
  y2 : Num
  score : Num
  cls : Nat
  anchor : Nat
  cand : Nat
  deriving DecidableEq, Repr

/-- Two tenths and a half, as values. -/
def half : Num := .fin false 1 (-1)

/-- A coordinate clamped to [0, `top`]. -/
def clampTo (top : Option Nat) (x : Num) : Num := match top with
  | some t => (x.max Num.zero).min (fp t)
  | none => x

/-- The Sieve's exp and sigmoid: within the bounds of R127, and the same for the same operand (R301). -/
def unitExp (x : Num) : Num := LaneFn.exp.run (Config.choice [0, toFp32 0 x]).toNat [x]
def unitSigmoid (x : Num) : Num := LaneFn.sigmoid.run (Config.choice [1, toFp32 0 x]).toNat [x]

/-- The corners that an anchor decodes to; `clamp` is `DW_CLAMP`. -/
def corners (o : SieveOp) (clamp : Num) (r : SieveRow) : Num × Num × Num × Num :=
  let s := fp o.stride
  let gx := num r.cell.1
  let gy := num r.cell.2
  let px := mul32 (add32 gx half) s
  let py := mul32 (add32 gy half) s
  let a (i : Nat) : Num := if o.grid ∧ i = 0 then px else if o.grid ∧ i = 1 then py else fp (r.anchor.getD i 0)
  let d (i : Nat) : Num := fp (r.deltas.getD i 0)
  let w (i : Nat) : Num := fp (r.vars.getD i 0)
  let box (cx cy bw bh : Num) : Num × Num × Num × Num :=
    (sub32 cx (mul32 bw half), sub32 cy (mul32 bh half), add32 cx (mul32 bw half), add32 cy (mul32 bh half))
  let term (i : Nat) (k : Num) : Num := mul32 (mul32 (d i) (w i)) k
  let grown (i : Nat) : Num := unitExp ((mul32 (d i) (w i)).min clamp)
  match o.variant with
  | 0 => box (add32 (a 0) (term 0 (a 2))) (add32 (a 1) (term 1 (a 3))) (mul32 (a 2) (grown 2)) (mul32 (a 3) (grown 3))
  | 1 => (add32 (sub32 (a 0) (mul32 (a 2) half)) (term 0 (a 2)), add32 (sub32 (a 1) (mul32 (a 3) half)) (term 1 (a 3)),
      add32 (add32 (a 0) (mul32 (a 2) half)) (term 2 (a 2)), add32 (add32 (a 1) (mul32 (a 3) half)) (term 3 (a 3)))
  | 2 => (sub32 px (mul32 (d 0) s), sub32 py (mul32 (d 1) s), add32 px (mul32 (d 2) s), add32 py (mul32 (d 3) s))
  | _ =>
    let two (i : Nat) : Num := mul32 (num 2) (unitSigmoid (d i))
    let cx := mul32 (sub32 (add32 gx (two 0)) half) s
    let cy := mul32 (sub32 (add32 gy (two 1)) half) s
    box cx cy (mul32 (a 2) (mul32 (two 2) (two 2))) (mul32 (a 3) (mul32 (two 3) (two 3)))

/-- The scores of an anchor, as its activation leaves them: raw, sigmoid per class, or softmax over the classes, summed in class order (R304). -/
def SieveOp.scored (o : SieveOp) (r : SieveRow) : List Num :=
  let xs := (List.range o.classes).map fun k => fp (r.scores.getD k 0)
  let ys := match o.act with
    | 0 => xs
    | 1 => xs.map unitSigmoid
    | _ =>
      let m := bestOf true xs
      let es := xs.map fun x => unitExp (sub32 x m)
      let total := es.foldl add32 Num.zero
      es.map (div32 · total)
  match r.obj with
  | some b => ys.map (mul32 · (fp b))
  | none => ys

/-- The candidates of the anchors, in the order of anchor and class (R304). -/
def candidates (o : SieveOp) (clamp : Num) : Nat → Nat → List SieveRow → List Box
  | _, _, [] => []
  | i, n, r :: rs =>
    let c := corners o clamp r
    let w := o.clip.map (·.1)
    let h := o.clip.map (·.2)
    let scores := o.scored r
    let ks := (List.range o.classes).filter (fun k => !(o.dropZero && k == 0) && (fp o.scoreMin).le (scores.getD k .zero))
    let mine := (ks.zip (List.range ks.length)).map fun k =>
      ({ x1 := clampTo w c.1, y1 := clampTo h c.2.1, x2 := clampTo w c.2.2.1, y2 := clampTo h c.2.2.2
         score := scores.getD k.1 .zero, cls := k.1, anchor := i, cand := n + k.2 } : Box)
    mine ++ candidates o clamp (i + 1) (n + ks.length) rs

/-- Decreasing score, then the lower anchor, then the lower class (R304). -/
def Box.first (a b : Box) : Bool :=
  if b.score.lt a.score then true
  else if a.score.lt b.score then false
  else decide (a.anchor < b.anchor ∨ (a.anchor = b.anchor ∧ a.cls ≤ b.cls))

/-! ## Suppression (R305, R306) -/

/-- Intersection over union; a union of zero area gives 0. -/
def iou (a b : Box) : Num :=
  let w := (sub32 (a.x2.min b.x2) (a.x1.max b.x1)).max Num.zero
  let h := (sub32 (a.y2.min b.y2) (a.y1.max b.y1)).max Num.zero
  let inter := mul32 w h
  let area (x : Box) : Num := mul32 (sub32 x.x2 x.x1) (sub32 x.y2 x.y1)
  let union := sub32 (add32 (area a) (area b)) inter
  match union with
  | .fin _ 0 _ => Num.zero
  | u => div32 inter u

/-- Keep the first candidate, drop those that overlap it too much, and go on. -/
def suppress (o : SieveOp) : Nat → List Box → List Box
  | 0, _ => []
  | _, [] => []
  | n + 1, b :: bs => b :: suppress o n (bs.filter fun x =>
      !((o.agnostic || x.cls == b.cls) && (fp o.iouMax).lt (iou b x)))

/-- The candidates left after box `b` is kept, rescored in Gaussian soft mode by exp(−IoU² ÷ σ) (R306). -/
def soften (o : SieveOp) (sigma : Num) (b : Box) (bs : List Box) : List Box :=
  bs.filterMap fun x =>
    if o.agnostic || x.cls == b.cls then
      let v := iou b x
      let y : Box := { x with score := mul32 x.score (unitExp (div32 (mul32 v v).minus sigma)) }
      if (fp o.scoreMin).le y.score then some y else none
    else some x

/-- Gaussian soft mode: the first is kept, the others are rescored and ordered anew. -/
def softSuppress (o : SieveOp) (sigma : Num) : Nat → List Box → List Box
  | 0, _ => []
  | _, [] => []
  | n + 1, b :: bs => b :: softSuppress o sigma n (sortBy Box.first (soften o sigma b bs))

/-! ## Box lists (R302) -/

/-- The 32 bytes of a box record. -/
def Box.bytes (image : Nat) (b : Box) : List Byte :=
  let c (x : Num) : List Byte := le 4 (toFp32 0 x)
  c b.x1 ++ c b.y1 ++ c b.x2 ++ c b.y2 ++ c b.score ++ le 2 b.cls ++ le 1 image ++ le 1 0 ++ le 4 b.cand ++ le 4 0

/-- What a decode comes to: candidates formed, boxes kept, boxes that did not fit, the list's bytes. -/
def sieveBoxes (o : SieveOp) (clamp : Num) (d : SieveData) : Nat × Nat × Nat × List Byte :=
  let all := candidates o clamp 0 0 d.rows
  let top := (sortBy Box.first all).take o.topk
  let kept := match o.soft with
    | some g => softSuppress o (fp g) top.length top
    | none => suppress o top.length top
  let out := kept.take o.maxOut
  let cut := (all.length - top.length) + (kept.length - out.length)
  (all.length, out.length, cut, le 4 out.length ++ le 4 cut ++ le 8 0 ++ (out.map (Box.bytes o.image)).flatten)

/-- A box without area (R309). -/
def degenerate (b : List Nat) : Bool := (fp (b.getD 2 0)).le (fp (b.getD 0 0)) || (fp (b.getD 3 0)).le (fp (b.getD 1 0))

/-- Where sample `t` of `n` across a box from `a` to `b` lies, half a pixel less: the pixel at or below it, and how far beyond it in parts of 2n (R308). -/
def samplePoint (a b : Num) (n t : Nat) : Int × Num :=
  let den : Int := 2 * Int.ofNat n
  match ((a.mul (num (den - (2 * Int.ofNat t + 1)))).add (b.mul (num (2 * Int.ofNat t + 1)))).add (num (-(Int.ofNat n))) with
  | .fin x m e =>
    let i := if 0 ≤ e then signed x (m * 2 ^ e.toNat) / den else signed x m / (den * 2 ^ (-e).toNat)
    (i, (Num.fin x m e).add (num (-(i * den))))
  | y => (0, y)

/-- The value of the feature map at a pixel and channel, in the order of R288; outside the map 0. -/
def SieveOp.pixel (o : SieveOp) (map : List Nat) (x y : Int) (c : Nat) : Num :=
  let w := o.map.1
  let g := max 1 o.map.2.2.2
  if x < 0 ∨ y < 0 ∨ Int.ofNat w ≤ x ∨ Int.ofNat o.map.2.1 ≤ y then .zero
  else decodeElt o.map.2.2.1 [] (map.getD (((y.toNat * ceilDiv o.channels g + c / g) * w + x.toNat) * g + c % g) 0)

/-- An element of the crop of a box: the average of its cell's bilinear samples, within the bound of R309 and the same for the same operands, converted to the output
format. -/
def cropElement (o : SieveOp) (map box : List Nat) (row col c : Nat) : Nat × Counts :=
  let corner (i : Nat) : Num := fp (box.getD i 0)
  let xs := (List.range o.ratio).map fun k => samplePoint (corner 0) (corner 2) (o.wo * o.ratio) (col * o.ratio + k)
  let ys := (List.range o.ratio).map fun k => samplePoint (corner 1) (corner 3) (o.ho * o.ratio) (row * o.ratio + k)
  let dx := num (2 * Int.ofNat (o.wo * o.ratio))
  let dy := num (2 * Int.ofNat (o.ho * o.ratio))
  let terms := ys.flatMap fun y => xs.flatMap fun x =>
    [(x.1, y.1, (dx.add x.2.minus).mul (dy.add y.2.minus)), (x.1 + 1, y.1, x.2.mul (dy.add y.2.minus)),
     (x.1, y.1 + 1, (dx.add x.2.minus).mul y.2), (x.1 + 1, y.1 + 1, x.2.mul y.2)].map fun t => (o.pixel map t.1 t.2.1 c, t.2.2)
  let sum := (terms.map fun t => t.1.mul t.2).foldl Num.add .zero
  let mags := (terms.map fun t => t.1.abs).foldl Num.add .zero
  let any := (Config.choice (2 :: o.format :: row :: col :: c :: box ++ terms.map (fun t => toFp32 0 t.1))).toNat
  let v := match sum, mags with
    | .fin a m e, .fin b n f => fp (near ((Num.fin a m e).over ((dx.mul dy).mul (num (Int.ofNat (o.ratio * o.ratio))))) ((Num.fin b n f).scale (-22)) any)
    | x, _ => x
  encodeElt o.format o.sat any v

/-- The crop of a box in the order of R288, in which channels beyond those of the map are zero; all +0 for a degenerate box (R309). -/
def cropOf (o : SieveOp) (map box : List Nat) : List (Nat × Counts) :=
  let g := max 1 o.group
  (List.range o.ho).flatMap fun row => (List.range (ceilDiv o.channels g)).flatMap fun k => (List.range o.wo).flatMap fun col =>
    (List.range g).map fun i =>
      if degenerate box ∨ o.channels ≤ g * k + i then (0, {}) else cropElement o map box row col (g * k + i)

/-- The crops of a box list: the count, then for each box its elements, and what their conversions count. -/
def sieveCrops (o : SieveOp) (d : SieveData) : List Byte × Counts :=
  let crops := d.boxes.map (cropOf o d.map)
  (le 4 d.boxes.length ++ le 12 0 ++ crops.flatMap (fun c => packBits (fmtBits o.format) (c.map (·.1))), countsOf (crops.flatMap (·.map (·.2))))

/-! ## Slices (R300) -/

/-- The Sieve operations that have been dispatched, in the order in which they are taken. -/
def State.sieveOrder (s : State) : List (Nat × Job) :=
  sortBy (fun a b => decide (a.2.runCls < b.2.runCls ∨ (a.2.runCls = b.2.runCls ∧ a.2.arrival ≤ b.2.arrival)))
    (s.placedJobs.filter fun e => match e.2.decl.op with
      | some (.sieve _) => true
      | _ => false)

/-- The operation of job `j` completes with what it read. -/
def sieveEnds (j : Nat) (x : Job) (o : SieveOp) (d : SieveData) : Act := .read fun s =>
  if ¬ o.crop ∧ ((¬ o.grid ∧ o.variant ≠ 2 ∧ d.tableLen ≠ o.anchors) ∨ d.scoreLen ≠ o.anchors ∨ d.rows.length ≠ o.anchors) then
    endJob j St.CONFIG_INVALID 0x0811 0 0
  else match s.outFault x.ctx d.outs with
    | some f => endJob j f.1 f.2 0 0
    | none =>
      if o.crop then all [
        writeOut x.ctx d.outs (sieveCrops o d).1, countArith (sieveCrops o d).2,
        .count 32 Obj.DEGENERATE_BOXES (d.boxes.filter degenerate).length,
        .count 64 Obj.SIEVE_OPS 1,
        .job j (fun y => { y with output := true }),
        endJob j St.DONE 0 0 0]
      else
        let r := sieveBoxes o (fp (s.get Obj.DW_CLAMP)) d
        all [
          writeOut x.ctx d.outs r.2.2.2,
          .count 64 Obj.CANDIDATES r.1, .count 64 Obj.BOXES_KEPT r.2.1, .count 64 Obj.BOXES_TRUNCATED r.2.2.1,
          .count 64 Obj.SIEVE_OPS 1,
          .job j (fun y => { y with output := true }),
          endJob j St.DONE 0 0 0]

/-- SIEVE_SLICE: the operation that comes first runs for a slice of `ns` and, with `last`, completes. -/
def execSieveSlice (job ns : Nat) (last : Option SieveData) (s : State) : Host.Outcome State Fault Refusal :=
  need (Wf.sieveSlice job ns last) s <| .read fun s => all [
    match s.sieveOrder with
    | [] => .skip
    | (j, x) :: _ =>
      if j ≠ job ∨ s.get (Obj.DOM_STATE 76) ≠ 2 ∨ s.u.pow.overcurrent then .skip
      else all [
        .count 64 Obj.SIEVE_BUSY_NS ns,
        match x.stop, x.decl.op, last with
        | some f, _, _ => endJob j f.1 f.2 0 0
        | none, some (.sieve o), some d => sieveEnds j x o d
        | _, _, _ => .skip],
    settle]

end Sys2Proof.Machine
end

