-- ==== Sys2Proof/Machine/Dispatch.lean ====
section
/-! DEFINITION. One arm per command. -/

namespace Sys2Proof.Machine

def exec (i : Instr) (s : State) : Host.Outcome State Fault Refusal :=
  match i with
  | .objectWrite ses idx sub v => Sys2Proof.Machine.execObjectWrite ses idx sub v s
  | .bar0SlotWrite addr width value fetch => Sys2Proof.Machine.execBar0SlotWrite addr width value fetch s
  | .mdpHello header payload chainOk => Sys2Proof.Machine.execMdpHello header payload chainOk s
  | .mdpFinish ses verifies => Sys2Proof.Machine.execMdpFinish ses verifies s
  | .mdpFinishTimeout ses => Sys2Proof.Machine.execMdpFinishTimeout ses s
  | .mdpRead h idx sub size => Sys2Proof.Machine.execMdpRead h idx sub size s
  | .mdpWrite h idx sub size v => Sys2Proof.Machine.execMdpWrite h idx sub size v s
  | .inlineStart h idx sub total crc => Sys2Proof.Machine.execInlineStart h idx sub total crc s
  | .inlineData h idx sub data => Sys2Proof.Machine.execInlineData h idx sub data s
  | .mdpClose ses code => Sys2Proof.Machine.execMdpClose ses code s
  | .sessionIdleTimeout ses => Sys2Proof.Machine.execSessionIdleTimeout ses s
  | .leaseRecallNotify lease => Sys2Proof.Machine.execLeaseRecallNotify lease s
  | .elevate ses n t => Sys2Proof.Machine.execElevate ses n t s
  | .dropLevel ses n v => Sys2Proof.Machine.execDropLevel ses n v s
  | .groupCommit ses g => Sys2Proof.Machine.execGroupCommit ses g s
  | .groupDiscard ses g => Sys2Proof.Machine.execGroupDiscard ses g s
  | .groupApply g => Sys2Proof.Machine.execGroupApply g s
  | .storeParameters ses sub sig => Sys2Proof.Machine.execStoreParameters ses sub sig s
  | .restoreDefaultParameters ses sub sig => Sys2Proof.Machine.execRestoreDefaultParameters ses sub sig s
  | .slotClaim ses n => Sys2Proof.Machine.execSlotClaim ses n s
  | .slotDiscard ses n => Sys2Proof.Machine.execSlotDiscard ses n s
  | .slotPost ses n => Sys2Proof.Machine.execSlotPost ses n s
  | .slotAbandon ses n => Sys2Proof.Machine.execSlotAbandon ses n s
  | .slotReuse ses n => Sys2Proof.Machine.execSlotReuse ses n s
  | .slotRelease ses n => Sys2Proof.Machine.execSlotRelease ses n s
  | .msixHoldoffExpiry v => Sys2Proof.Machine.execMsixHoldoffExpiry v s
  | .eventFlashCopy => Sys2Proof.Machine.execEventFlashCopy s
  | .eventAck ses v => Sys2Proof.Machine.execEventAck ses v s
  | .arithClear ses v => Sys2Proof.Machine.execArithClear ses v s
  | .enginePassDrain job p => Sys2Proof.Machine.execEnginePassDrain job p s
  | .labMissFill field job seq entry bad => Sys2Proof.Machine.execLabMissFill field job seq entry bad s
  | .engineStepTimeout field engine job => Sys2Proof.Machine.execEngineStepTimeout field engine job s
  | .engineFault field engine detail line job => Sys2Proof.Machine.execEngineFault field engine detail line job s
  | .fieldFault field => Sys2Proof.Machine.execFieldFault field s
  | .barrierArrival job b owed => Sys2Proof.Machine.execBarrierArrival job b owed s
  | .startWaveSlot => Sys2Proof.Machine.execStartWaveSlot s
  | .fallowRequestPut ses field => Sys2Proof.Machine.execFallowRequestPut ses field s
  | .fallowRequestReturn ses field => Sys2Proof.Machine.execFallowRequestReturn ses field s
  | .spareFieldReady field => Sys2Proof.Machine.execSpareFieldReady field s
  | .jobStateInstalled job => Sys2Proof.Machine.execJobStateInstalled job s
  | .fieldSelftestDone field badEngines rows pass => Sys2Proof.Machine.execFieldSelftestDone field badEngines rows pass s
  | .flitReplay router dir ok => Sys2Proof.Machine.execFlitReplay router dir ok s
  | .scrubGranule field engine line unc job corrected passEnd late busy => Sys2Proof.Machine.execScrubGranule field engine line unc job corrected passEnd late busy s
  | .calibrationStep field engine => Sys2Proof.Machine.execCalibrationStep field engine s
  | .telemetryRecord field busy => Sys2Proof.Machine.execTelemetryRecord field busy s
  | .backgroundOverdue act unit => Sys2Proof.Machine.execBackgroundOverdue act unit s
  | .gleanerGranule addr row corrected uncorrectable passEnd late busy => Sys2Proof.Machine.execGleanerGranule addr row corrected uncorrectable passEnd late busy s
  | .perBankRefresh ch bank => Sys2Proof.Machine.execPerBankRefresh ch bank s
  | .zqCalibration ch wait => Sys2Proof.Machine.execZqCalibration ch wait s
  | .dqsTracking ch mult wait => Sys2Proof.Machine.execDqsTracking ch mult wait s
  | .catchupRefresh ch wait => Sys2Proof.Machine.execCatchupRefresh ch wait s
  | .drillMoveDone m => Sys2Proof.Machine.execDrillMoveDone m s
  | .seedRebuild tile home replica => Sys2Proof.Machine.execSeedRebuild tile home replica s
  | .hostCompletionTimeout job => Sys2Proof.Machine.execHostCompletionTimeout job s
  | .surveyorPeriod ds => Sys2Proof.Machine.execSurveyorPeriod ds s
  | .migrationSwitch tile verified busy => Sys2Proof.Machine.execMigrationSwitch tile verified busy s
  | .migrationRetry tile => Sys2Proof.Machine.execMigrationRetry tile s
  | .retireRequest ses ch v => Sys2Proof.Machine.execRetireRequest ses ch v s
  | .stripeSwitch ch stripes => Sys2Proof.Machine.execStripeSwitch ch stripes s
  | .channelDead ch => Sys2Proof.Machine.execChannelDead ch s
  | .leaseRequest ses mib qpn rkey base => Sys2Proof.Machine.execLeaseRequest ses mib qpn rkey base s
  | .leaseRelease ses lease => Sys2Proof.Machine.execLeaseRelease ses lease s
  | .leaseRecall lease slots => Sys2Proof.Machine.execLeaseRecall lease slots s
  | .recallNoticeExpiry lease lent => Sys2Proof.Machine.execRecallNoticeExpiry lease lent s
  | .peerLenderLost n => Sys2Proof.Machine.execPeerLenderLost n s
  | .peerAccessDone n tile write authOk job => Sys2Proof.Machine.execPeerAccessDone n tile write authOk job s
  | .peerAccessTimeout n tile job => Sys2Proof.Machine.execPeerAccessTimeout n tile job s
  | .contextOpen ses n => Sys2Proof.Machine.execContextOpen ses n s
  | .contextClose ses n => Sys2Proof.Machine.execContextClose ses n s
  | .ctxClear ses n v => Sys2Proof.Machine.execCtxClear ses n v s
  | .jobDispatch job place host rows => Sys2Proof.Machine.execJobDispatch job place host rows s
  | .grantRetry job => Sys2Proof.Machine.execGrantRetry job s
  | .jobYieldPoint job steps => Sys2Proof.Machine.execJobYieldPoint job steps s
  | .jobSaveDone job => Sys2Proof.Machine.execJobSaveDone job s
  | .jobResume job place => Sys2Proof.Machine.execJobResume job place s
  | .jobEnd job r => Sys2Proof.Machine.execJobEnd job r s
  | .furrowArm ses => Sys2Proof.Machine.execFurrowArm ses s
  | .furrowStop ses => Sys2Proof.Machine.execFurrowStop ses s
  | .furrowClear ses => Sys2Proof.Machine.execFurrowClear ses s
  | .furrowTrigger f tov tovFrac revised => Sys2Proof.Machine.execFurrowTrigger f tov tovFrac revised s
  | .tickTrigger f k => Sys2Proof.Machine.execTickTrigger f k s
  | .semaphoreAcquire job rank timeoutUs noLimit => Sys2Proof.Machine.execSemaphoreAcquire job rank timeoutUs noLimit s
  | .semaphoreRelease job rank => Sys2Proof.Machine.execSemaphoreRelease job rank s
  | .semaphoreTimeout job => Sys2Proof.Machine.execSemaphoreTimeout job s
  | .floorWindowEnd => Sys2Proof.Machine.execFloorWindowEnd s
  | .blockReport job => Sys2Proof.Machine.execBlockReport job s
  | .energyInterval dom uj => Sys2Proof.Machine.execEnergyInterval dom uj s
  | .safetyTick outs taskUs monitor => Sys2Proof.Machine.execSafetyTick outs taskUs monitor s
  | .resyncDone ns => Sys2Proof.Machine.execResyncDone ns s
  | .resyncTimeout => Sys2Proof.Machine.execResyncTimeout s
  | .safetyInputChange a b => Sys2Proof.Machine.execSafetyInputChange a b s
  | .discrepancyTimeout => Sys2Proof.Machine.execDiscrepancyTimeout s
  | .safeHoldNChange othersLow => Sys2Proof.Machine.execSafeHoldNChange othersLow s
  | .outputTestPulse ch low => Sys2Proof.Machine.execOutputTestPulse ch low s
  | .readbackFault ch => Sys2Proof.Machine.execReadbackFault ch s
  | .safetyAck ses v => Sys2Proof.Machine.execSafetyAck ses v s
  | .outputsEnable ses v => Sys2Proof.Machine.execOutputsEnable ses v s
  | .safeHoldRequest ses v => Sys2Proof.Machine.execSafeHoldRequest ses v s
  | .e2eWindowEnd source => Sys2Proof.Machine.execE2eWindowEnd source s
  | .checkUnitRun n data image => Sys2Proof.Machine.execCheckUnitRun n data image s
  | .cvRun ses n v data image => Sys2Proof.Machine.execCvRun ses n v data image s
  | .quizSliceStart checker slice taskReady unit => Sys2Proof.Machine.execQuizSliceStart checker slice taskReady unit s
  | .quizSliceDone flagged sensor => Sys2Proof.Machine.execQuizSliceDone flagged sensor s
  | .diagIntervalExpiry checker => Sys2Proof.Machine.execDiagIntervalExpiry checker s
  | .railIncrement d => Sys2Proof.Machine.execRailIncrement d s
  | .droopDetect d => Sys2Proof.Machine.execDroopDetect d s
  | .droopClear d => Sys2Proof.Machine.execDroopClear d s
  | .stepResume d => Sys2Proof.Machine.execStepResume d s
  | .stepHoldoffEnd d => Sys2Proof.Machine.execStepHoldoffEnd d s
  | .powerSample mw mv ms doms => Sys2Proof.Machine.execPowerSample mw mv ms doms s
  | .inputPowerClamp => Sys2Proof.Machine.execInputPowerClamp s
  | .clampRelease => Sys2Proof.Machine.execClampRelease s
  | .phaseRetire n => Sys2Proof.Machine.execPhaseRetire n s
  | .idleGate d => Sys2Proof.Machine.execIdleGate d s
  | .domainWakeDone d => Sys2Proof.Machine.execDomainWakeDone d s
  | .domSetMv ses d mv => Sys2Proof.Machine.execDomSetMv ses d mv s
  | .budgetW ses sub v => Sys2Proof.Machine.execBudgetW ses sub v s
  | .thermalWarning sensor temp => Sys2Proof.Machine.execThermalWarning sensor temp s
  | .thermalStepTick temps vr => Sys2Proof.Machine.execThermalStepTick temps vr s
  | .overcurrentTrip mw mv => Sys2Proof.Machine.execOvercurrentTrip mw mv s
  | .overcurrentClear => Sys2Proof.Machine.execOvercurrentClear s
  | .junctionTrip sensor temp => Sys2Proof.Machine.execJunctionTrip sensor temp s
  | .junctionTripClear => Sys2Proof.Machine.execJunctionTripClear s
  | .coldPlateTemperatureChange temp => Sys2Proof.Machine.execColdPlateTemperatureChange temp s
  | .fullSaveMinRunElapsed job => Sys2Proof.Machine.execFullSaveMinRunElapsed job s
  | .phaseBoundary job phase => Sys2Proof.Machine.execPhaseBoundary job phase s
  | .junctionShutdown sensor temp => Sys2Proof.Machine.execJunctionShutdown sensor temp s
  | .inputVoltageTrip mw mv => Sys2Proof.Machine.execInputVoltageTrip mw mv s
  | .tileNumberAllocation job n freed => Sys2Proof.Machine.execTileNumberAllocation job n freed s
  | .lentSlotRdmaAccess lease slot write => Sys2Proof.Machine.execLentSlotRdmaAccess lease slot write s
  | .seqOpen e => Sys2Proof.Machine.execSeqOpen e s
  | .seqWriteEntry e => Sys2Proof.Machine.execSeqWriteEntry e s
  | .seqSetLength e => Sys2Proof.Machine.execSeqSetLength e s
  | .seqClose e => Sys2Proof.Machine.execSeqClose e s
  | .editApplyTimeout job => Sys2Proof.Machine.execEditApplyTimeout job s
  | .streamStart ses n => Sys2Proof.Machine.execStreamStart ses n s
  | .streamPause ses n => Sys2Proof.Machine.execStreamPause ses n s
  | .streamResume ses n => Sys2Proof.Machine.execStreamResume ses n s
  | .streamReset ses n => Sys2Proof.Machine.execStreamReset ses n s
  | .streamEnd ses n => Sys2Proof.Machine.execStreamEnd ses n s
  | .streamCheckpoint ses n => Sys2Proof.Machine.execStreamCheckpoint ses n s
  | .streamRestore ses n => Sys2Proof.Machine.execStreamRestore ses n s
  | .streamEvict ses n => Sys2Proof.Machine.execStreamEvict ses n s
  | .streamSwapOut n => Sys2Proof.Machine.execStreamSwapOut n s
  | .streamSwapIn n field => Sys2Proof.Machine.execStreamSwapIn n field s
  | .sieveSlice job ns last => Sys2Proof.Machine.execSieveSlice job ns last s
  | .mapBatchCommit job tov ops => Sys2Proof.Machine.execMapBatchCommit job tov ops s
  | .plannerSlice job misses step => Sys2Proof.Machine.execPlannerSlice job misses step s
  | .sphereQuery job spheres outs => Sys2Proof.Machine.execSphereQuery job spheres outs s
  | .segmentQuery job pairs outs => Sys2Proof.Machine.execSegmentQuery job pairs outs s
  | .mapClear ses v => Sys2Proof.Machine.execMapClear ses v s
  | .roadmapClear ses n v => Sys2Proof.Machine.execRoadmapClear ses n v s
  | .ptpMessage kind t learnt slew => Sys2Proof.Machine.execPtpMessage kind t learnt slew s
  | .sourceTimeout => Sys2Proof.Machine.execSourceTimeout s
  | .tbSet ses v => Sys2Proof.Machine.execTbSet ses v s
  | .timeNowRead ses => Sys2Proof.Machine.execTimeNowRead ses s
  | .triggerEdge n => Sys2Proof.Machine.execTriggerEdge n s
  | .captureEdge n ns frac held rising lost learnt slew => Sys2Proof.Machine.execCaptureEdge n ns frac held rising lost learnt slew s
  | .capRead ses n => Sys2Proof.Machine.execCapRead ses n s
  | .fusionSampleArrival src header payload m => Sys2Proof.Machine.execFusionSampleArrival src header payload m s
  | .fusionInputRelease n crcBad => Sys2Proof.Machine.execFusionInputRelease n crcBad s
  | .periodicPublication o k crcBad => Sys2Proof.Machine.execPeriodicPublication o k crcBad s
  | .filterStart ses n => Sys2Proof.Machine.execFilterStart ses n s
  | .filterStop ses n => Sys2Proof.Machine.execFilterStop ses n s
  | .filterReset ses n => Sys2Proof.Machine.execFilterReset ses n s
  | .programMeasurement job src tov frac m => Sys2Proof.Machine.execProgramMeasurement job src tov frac m s
  | .controlSampleArrival ch lat e2e => Sys2Proof.Machine.execControlSampleArrival ch lat e2e s
  | .backgroundUpdateDone ch => Sys2Proof.Machine.execBackgroundUpdateDone ch s
  | .sampleMissed ch k lat => Sys2Proof.Machine.execSampleMissed ch k lat s
  | .refGo ses ch => Sys2Proof.Machine.execRefGo ses ch s
  | .jobReferenceWrite job ch tov vals => Sys2Proof.Machine.execJobReferenceWrite job ch tov vals s
  | .chStart ses ch => Sys2Proof.Machine.execChStart ses ch s
  | .chStop ses ch => Sys2Proof.Machine.execChStop ses ch s
  | .chClear ses ch => Sys2Proof.Machine.execChClear ses ch s
  | .ecatSync0 line k => Sys2Proof.Machine.execEcatSync0 line k s
  | .ecatInputLaunch line => Sys2Proof.Machine.execEcatInputLaunch line s
  | .ecatInputFrame line k image fcsOk wkcOk => Sys2Proof.Machine.execEcatInputFrame line k image fcsOk wkcOk s
  | .ecatRingChange line st delay found => Sys2Proof.Machine.execEcatRingChange line st delay found s
  | .ecatLineProbe line found st delay answer => Sys2Proof.Machine.execEcatLineProbe line found st delay answer s
  | .pcieLinkChange l0 bme d3 rate width aerC aerU jobs => Sys2Proof.Machine.execPcieLinkChange l0 bme d3 rate width aerC aerU jobs s
  | .functionLevelReset => Sys2Proof.Machine.execFunctionLevelReset s
  | .perstRelease => Sys2Proof.Machine.execPerstRelease s
  | .ethLaneRetireAuto lane cause => Sys2Proof.Machine.execEthLaneRetireAuto lane cause s
  | .laneRetire ses port k => Sys2Proof.Machine.execLaneRetire ses port k s
  | .roceAckTimeout qp jobs => Sys2Proof.Machine.execRoceAckTimeout qp jobs s
  | .collectiveExchange job x => Sys2Proof.Machine.execCollectiveExchange job x s
  | .collectiveTimeout job => Sys2Proof.Machine.execCollectiveTimeout job s
  | .slaveLinkLoss => Sys2Proof.Machine.execSlaveLinkLoss s
  | .csiFrameStart port vc num hdr => Sys2Proof.Machine.execCsiFrameStart port vc num hdr s
  | .csiLinePacket port vc dt hdr crcOk data => Sys2Proof.Machine.execCsiLinePacket port vc dt hdr crcOk data s
  | .csiFrameEnd port vc hdr => Sys2Proof.Machine.execCsiFrameEnd port vc hdr s
  | .csiFrameTimeout port => Sys2Proof.Machine.execCsiFrameTimeout port s
  | .spiSampleTransfer port k edge => Sys2Proof.Machine.execSpiSampleTransfer port k edge s
  | .spiTransferEnd port bytes => Sys2Proof.Machine.execSpiTransferEnd port bytes s
  | .vioOutOfRange port mv => Sys2Proof.Machine.execVioOutOfRange port mv s
  | .ethPortLinkChange port rate => Sys2Proof.Machine.execEthPortLinkChange port rate s
  | .slaveLinkReturn station => Sys2Proof.Machine.execSlaveLinkReturn station s
  | .vioBackInRange port mv => Sys2Proof.Machine.execVioBackInRange port mv s
  | .arpOrIcmpEchoRequest port reply => Sys2Proof.Machine.execArpOrIcmpEchoRequest port reply s
  | .powerOn addr refclk mv => Sys2Proof.Machine.execPowerOn addr refclk mv s
  | .powerLoss => Sys2Proof.Machine.execPowerLoss s
  | .powerGoodRise => Sys2Proof.Machine.execPowerGoodRise s
  | .pwrGoodDriven => Sys2Proof.Machine.execPwrGoodDriven s
  | .shutdownRestart mv => Sys2Proof.Machine.execShutdownRestart mv s
  | .resetNPulse ns stays => Sys2Proof.Machine.execResetNPulse ns stays s
  | .identityReconstructed ok cert issuers => Sys2Proof.Machine.execIdentityReconstructed ok cert issuers s
  | .imageVerify kind s0 s1 fails => Sys2Proof.Machine.execImageVerify kind s0 s1 fails s
  | .lpddrTrainingDone ns failed repaired => Sys2Proof.Machine.execLpddrTrainingDone ns failed repaired s
  | .initComplete bad => Sys2Proof.Machine.execInitComplete bad s
  | .autoOperational => Sys2Proof.Machine.execAutoOperational s
  | .cmdOperational ses => Sys2Proof.Machine.execCmdOperational ses s
  | .cmdPreOperational ses => Sys2Proof.Machine.execCmdPreOperational ses s
  | .cmdService ses => Sys2Proof.Machine.execCmdService ses s
  | .cmdLeaveService ses => Sys2Proof.Machine.execCmdLeaveService ses s
  | .cmdWarmReset ses => Sys2Proof.Machine.execCmdWarmReset ses s
  | .cmdColdReset ses => Sys2Proof.Machine.execCmdColdReset ses s
  | .alStateRequest al => Sys2Proof.Machine.execAlStateRequest al s
  | .imgWrite ses kind v => Sys2Proof.Machine.execImgWrite ses kind v s
  | .imageWriteVerified sigOk chainOk vals blobs => Sys2Proof.Machine.execImageWriteVerified sigOk chainOk vals blobs s
  | .imgActivate ses kind v => Sys2Proof.Machine.execImgActivate ses kind v s
  | .handoverPoint => Sys2Proof.Machine.execHandoverPoint s
  | .policyReady => Sys2Proof.Machine.execPolicyReady s
  | .handoverReadyTimeout => Sys2Proof.Machine.execHandoverReadyTimeout s
  | .policyTrialEnd => Sys2Proof.Machine.execPolicyTrialEnd s
  | .policyWatchdogExpiry => Sys2Proof.Machine.execPolicyWatchdogExpiry s
  | .imgCounterCommit ses kind v => Sys2Proof.Machine.execImgCounterCommit ses kind v s
  | .settingsStoreDone => Sys2Proof.Machine.execSettingsStoreDone s
  | .progImage ses v => Sys2Proof.Machine.execProgImage ses v s
  | .progLoadDone ses sigOk chainOk decl => Sys2Proof.Machine.execProgLoadDone ses sigOk chainOk decl s
  | .progUnload ses h => Sys2Proof.Machine.execProgUnload ses h s
  | .progCounterCommit ses v => Sys2Proof.Machine.execProgCounterCommit ses v s
  | .attestGo ses v => Sys2Proof.Machine.execAttestGo ses v s
  | .attestReportReady ses => Sys2Proof.Machine.execAttestReportReady ses s
  | .authChallenge ses => Sys2Proof.Machine.execAuthChallenge ses s
  | .debugToken ses t => Sys2Proof.Machine.execDebugToken ses t s
  | .debugEnd ses v => Sys2Proof.Machine.execDebugEnd ses v s
  | .tokenLifetimeExpiry ses debug => Sys2Proof.Machine.execTokenLifetimeExpiry ses debug s
  | .senseInvalid sense blade => Sys2Proof.Machine.execSenseInvalid sense blade s
  | .senseValidReturn sense blade => Sys2Proof.Machine.execSenseValidReturn sense blade s
  | .clearFaults => Sys2Proof.Machine.execClearFaults s
  | .capability => Sys2Proof.Machine.execCapability s
  | .statusWord => Sys2Proof.Machine.execStatusWord s
  | .statusInput => Sys2Proof.Machine.execStatusInput s
  | .statusTemperature => Sys2Proof.Machine.execStatusTemperature s
  | .statusCml => Sys2Proof.Machine.execStatusCml s
  | .readVin => Sys2Proof.Machine.execReadVin s
  | .readIin => Sys2Proof.Machine.execReadIin s
  | .readTemperature1 => Sys2Proof.Machine.execReadTemperature1 s
  | .readTemperature2 => Sys2Proof.Machine.execReadTemperature2 s
  | .readPin => Sys2Proof.Machine.execReadPin s
  | .pmbusRevision => Sys2Proof.Machine.execPmbusRevision s
  | .mfrId => Sys2Proof.Machine.execMfrId s
  | .mfrModel => Sys2Proof.Machine.execMfrModel s
  | .mfrPinLimit w => Sys2Proof.Machine.execMfrPinLimit w s
  | .mfrPinLimitEn w => Sys2Proof.Machine.execMfrPinLimitEn w s
  | .mfrDeviceState => Sys2Proof.Machine.execMfrDeviceState s
  | .mfrActiveCauses => Sys2Proof.Machine.execMfrActiveCauses s
  | .pmbusUnsupportedCommand code => Sys2Proof.Machine.execPmbusUnsupportedCommand code s
  | .alertResponse => Sys2Proof.Machine.execAlertResponse s
  | .uartRxCharacter ch => Sys2Proof.Machine.execUartRxCharacter ch s
  | .testEnChange level => Sys2Proof.Machine.execTestEnChange level s
  | .tapTestLogicReset => Sys2Proof.Machine.execTapTestLogicReset s
  | .extest din cap => Sys2Proof.Machine.execExtest din cap s
  | .samplePreload din cap => Sys2Proof.Machine.execSamplePreload din cap s
  | .extestPulse din cap => Sys2Proof.Machine.execExtestPulse din cap s
  | .extestTrain din cap => Sys2Proof.Machine.execExtestTrain din cap s
  | .idcode din cap => Sys2Proof.Machine.execIdcode din cap s
  | .clamp din cap => Sys2Proof.Machine.execClamp din cap s
  | .highz din cap => Sys2Proof.Machine.execHighz din cap s
  | .bypass din cap => Sys2Proof.Machine.execBypass din cap s

end Sys2Proof.Machine
end

