-- ==== Sys2Proof/Safety.lean ====
section
/-! DEFINITION. The words that statements about the machine are said in: the canonical form of its stores, slots that take values, what a write answers, which
writes reach their object, and states in which nothing is left to be told. -/

namespace Sys2Proof.Machine

/-- The state is in canonical form: the live dictionary lists no slot at its reset value and the memory no zero byte, each in rising order, and the shadow
store rises too, so that equal machines are equal data. -/
def State.canonical (s : State) : Bool :=
  Slots.wf s.objs && Slots.sorted s.shadow && Memory.wf s.bytes

/-- The ring of the event log holds the latest events, newest first, numbered one by one up to the number of the latest: it has as many entries as events were logged, but no
more than 1,008 (R64). -/
def EventLog.inOrder (l : EventLog) : Prop :=
  l.ring.length = min l.total 1008 ∧ ∀ i, (h : i < l.ring.length) → l.ring[i].seq = l.total - i

/-- The machine can go on from `s`: its next step is a next state. -/
def State.live (s : State) : Prop := ∃ t, step s = .next t

/-! ## Results -/

/-- `s` with value `v` in the live slot with key `k`, and nothing else changed. -/
def State.putObj (s : State) (k v : Nat) : State := { s with objs := Slots.put s.objs k (BitVec.ofNat 64 v) }

/-- `s` with these values in these live slots, one after the other, and nothing else changed. -/
def State.puts (s : State) (kvs : List (Nat × Nat)) : State := kvs.foldl (fun t e => t.putObj e.1 e.2) s

/-- `s` after a command that sent exactly `es`. -/
def State.sending (s : State) (es : List Emit) : State := { s with out := es }

/-- `s` after a command that changed the units' records by `f`. -/
def State.withUnits (s : State) (f : Units → Units) : State := { s with u := f s.u }

/-- `t` has the objects, shadows, memory, event log and queue of `s`: it differs at most in the units' records, in time, in free values used up and in what was sent. -/
abbrev State.storesKept (s t : State) : Prop :=
  t.objs = s.objs ∧ t.shadow = s.shadow ∧ t.bytes = s.bytes ∧ t.log = s.log ∧ t.pending = s.pending

/-- The answer to a dictionary write: a reply with the abort code, but none to a posted PCIe write, which is session 0's (R24). -/
def replies (ses code : Nat) : List Emit := if ses = 0 then [] else [.reply ses code []]

/-- `s` after the `w`-bit counter with key `k` has counted `n` more. -/
def State.counted (s : State) (w k n : Nat) : State := (Act.count w k n).run s

/-- `s` after an event has been logged, with all that a logged event sends. -/
def State.logged (s : State) (code inst d0 d1 : Nat) : State := (logEv code inst d0 d1).run s

/-- The latest event is this one. -/
def State.lastEvent (s : State) (code inst d0 d1 : Nat) : Prop :=
  ∃ e, s.log.ring.head? = some e ∧ e.code = code ∧ e.inst = inst ∧ e.data0 = d0 % 2 ^ 64 ∧ e.data1 = d1 % 2 ^ 32 ∧ e.sev = Ev.severity code ∧ e.seq = s.log.total

/-- `s` with the record of job `j` changed. -/
def State.withJob (s : State) (j : Nat) (f : Job → Job) : State := (Act.job j f).run s

/-- `s` with the record of field `n` changed. -/
def State.withField (s : State) (n : Nat) (f : FieldS → FieldS) : State := (Act.field n f).run s

/-- `s` with the memory system's record changed. -/
def State.withMem (s : State) (f : MemS → MemS) : State := s.withUnits fun u => { u with mem := f u.mem }

/-- `s` with the Timetable's record changed. -/
def State.withTt (s : State) (f : TtS → TtS) : State := s.withUnits fun u => { u with tt := f u.tt }

/-- `s` after the condition of a cause has begun for instance `i`. -/
def State.raised (s : State) (b i : Nat) : State := (raiseCause b i).run s

/-- `s` after the condition of a cause has ended for instance `i`. -/
def State.ceased (s : State) (b i : Nat) : State := (clearCause b i).run s

/-- `s` with the island's record changed. -/
def State.withSafe (s : State) (f : SafeS → SafeS) : State := s.withUnits fun u => { u with safe := f u.safe }

/-- `s` with the Bursar's record changed. -/
def State.withPow (s : State) (f : PowS → PowS) : State := s.withUnits fun u => { u with pow := f u.pow }

/-- `t`, and it sends these too. -/
def State.also (t : State) (es : List Emit) : State := { t with out := t.out ++ es }

/-- `s` with engine time counted up to now. -/
def State.accrued (s : State) : State := accrueAll.run s

/-- `s` after freed power has been offered to the jobs below their points (R425). -/
def State.offered (s : State) : State := offers.run s

/-- `s` after the grants have been made to fit the budget (R426). -/
def State.recovered (s : State) : State := recover.run s

/-- `s` with every placed job holding what its fields' points make of its draw. -/
def State.regranted (s : State) : State := regrant.run s

/-- `s` with variable domain `d` on its way to the point in force (R429). -/
def State.restoredAt (s : State) (d : Nat) : State := (restore d).run s

/-- `s` with every variable domain on its way to the point in force. -/
def State.restored (s : State) : State := restoreAll.run s

/-- `s` with the pacers of the variable domains at `p` at most. -/
def State.paced (s : State) (p : Nat) : State := (paceAll p).run s

/-- `s` after ALERT_N has been asserted for these bits of `STATUS_INPUT` and `STATUS_TEMPERATURE`. -/
def State.alerted (s : State) (input temp : Nat) : State := (alertFor input temp).run s

/-- `s` with the jobs on domain `d` that have reached their granted point told of it. -/
def State.arrived (s : State) (d : Nat) : State := (risen d).run s

/-- The slots that show domain `d`'s rail and pacer, with these values: a field's are shown in its own objects too. -/
def railSlots (d v : Nat) : List (Nat × Nat) := (Obj.DOM_RAIL_MV d, v) :: (if d < 66 then [(Obj.RAIL_MV d, v)] else [])
def pacerSlots (d p : Nat) : List (Nat × Nat) := (Obj.DOM_PACER d, p) :: (if d < 66 then [(Obj.PACER_STEP d, p)] else [])

/-- `s` with the time unit's record changed. -/
def State.withTime (s : State) (f : TimeS → TimeS) : State := s.withUnits fun u => { u with time := f u.time }

/-- `s` with filter `n`'s record changed. -/
def State.withFilter (s : State) (n : Nat) (f : FilterS → FilterS) : State := (Act.filter n f).run s

/-- `s` with the links' record changed, or the record of one line or port. -/
def State.withLinks (s : State) (f : LinkS → LinkS) : State := s.withUnits fun u => { u with links := f u.links }
def State.withLine (s : State) (l : Nat) (f : LineS → LineS) : State := s.withLinks fun x => { x with lines := Tab.upd x.lines l {} f }
def State.withSpi (s : State) (p : Nat) (f : SpiS → SpiS) : State := s.withLinks fun x => { x with spi := Tab.upd x.spi p {} f }
def State.withCsi (s : State) (p : Nat) (f : CsiS → CsiS) : State := s.withLinks fun x => { x with csi := Tab.upd x.csi p {} f }

/-- `s` after session `n` has closed (R33, R39, R40). -/
def State.closed (s : State) (n : Nat) : State := (sessionClose n).run s

/-- `s` after session `n` has opened (R39). -/
def State.opened (s : State) (n transport level peer : Nat) : State := (sessionOpen n transport level peer).run s

/-- `s` with these bytes in memory from address `a` on, `n` bytes from `a` on cleared before. -/
def State.image (s : State) (a n : Nat) (bs : List Byte) : State := { s with bytes := Memory.writeAll (Memory.wipe s.bytes a n) a bs }

/-- `s` with channel `c`'s record changed. -/
def State.withChan (s : State) (c : Nat) (f : ChanS → ChanS) : State := (Act.chan c f).run s

/-- `s` after a source of a trigger kind has fired the armed furrows that wait for it (R209). -/
def State.fires (s : State) (kind source tov frac : Nat) : State := (deliver kind source tov frac false).run s

/-- The edit of operation `op` that an editor asks for and that its context admits (R256, R262), with what a session is answered: a session asks by a write of 1 to `EDIT_GO` with the
operation in its `EDIT_OP`, a job by its program. -/
def Editor.asks (e : Editor) (op : Nat) (s : State) : Option (EditReq × List Emit) := match e with
  | .ses n =>
    if n < 16 ∧ s.get (Obj.EDIT_OP n) = op ∧ s.isOpen n = true ∧ s.dev ≠ Dev.STANDBY ∧ (n = 0 → (s.session 0).slots = none) ∧ accessCode s n (Obj.EDIT_GO n) 1 .host = 0
        ∧ bit (s.get (Obj.ADMIT_SESSIONS (s.get (Obj.EDIT_CONTEXT n)))) n = true then
      some ({
        ctx := s.get (Obj.EDIT_CONTEXT n), seq := s.get (Obj.EDIT_SEQUENCE n), page := s.get (Obj.EDIT_PAGE n), head := s.get (Obj.EDIT_HEAD n)
        length := s.get (Obj.EDIT_LENGTH n), force := s.get (Obj.EDIT_FORCE n) != 0, k := s.get (Obj.EDIT_K_TILE n), v := s.get (Obj.EDIT_V_TILE n)
        formats := s.get (Obj.EDIT_FORMATS n), geometry := s.get (Obj.EDIT_GEOMETRY n), books := (List.range 4).map fun a => s.get (Obj.EDIT_BOOK n a)
        ses := some n, job := none }, replies n 0)
    else none
  | .job j sq page head length force k v formats geometry books timeout => match Tab.get? s.u.tt.jobs j with
    | some x => if sq < 65536 then some (⟨x.ctx, sq, page, head, length, force, k, v, formats, geometry, books, none, some j, timeout⟩, []) else none
    | none => none

/-- The slots that an edit's outcome is shown in (R262). -/
def EditReq.shown (r : EditReq) : List Nat := match r.ses with
  | some n => [Obj.EDIT_STATUS n, Obj.EDIT_REASON n, Obj.EDIT_ENDED_JOBS n, Obj.EDIT_EPOCH n]
  | none => []

/-- An edit's outcome stands in its session's objects. -/
def State.shows (t : State) (r : EditReq) (status reason : Nat) : Prop :=
  ∀ n, r.ses = some n → t.get (Obj.EDIT_STATUS n) = status ∧ t.get (Obj.EDIT_REASON n) = reason

/-- Address `a` lies in the payload or in the tag of tile `t`, in its home or its replica. -/
def State.inTile (s : State) (t a : Nat) : Prop :=
  ∃ x h, Tab.get? s.u.mem.tiles t = some x ∧ (x.home = h ∨ x.replica = some h)
    ∧ ((s.homeAddr h ≤ a ∧ a < s.homeAddr h + 4096) ∨ (s.homeTagAddr h ≤ a ∧ a < s.homeTagAddr h + 32))

/-- Tile `t` lies in a slot of this module and nowhere else: no lender, no replica, no migration, no seed stock to come. -/
def State.plainTile (s : State) (t : Nat) : Prop := ∀ x, Tab.get? s.u.mem.tiles t = some x →
  (∃ k, x.home = .slot k) ∧ x.replica = none ∧ x.migrating = none ∧ bit (tagByte x.tag 2) 0 = false

/-- No byte has changed but in the tiles that context `c` knows by these addresses. -/
def State.onlyTiles (s t : State) (c : Nat) (outs : List (Nat × List Byte)) : Prop :=
  ∀ a, (∀ o ∈ outs, ∀ n, s.tileOf c o.1 = .inl n → ¬ s.inTile n a) → Memory.read t.bytes a = Memory.read s.bytes a

/-- The tiles that context `c` knows by these addresses lie in this module alone. -/
def State.plainOuts (s : State) (c : Nat) (outs : List (Nat × List Byte)) : Prop := ∀ o ∈ outs, ∀ n, s.tileOf c o.1 = .inl n → s.plainTile n

/-- Where `outs` names one tile of context `c`, in a slot of this module, the payload of that slot in `t` is `bs` with zeros after it. -/
def State.wrote (s t : State) (c : Nat) (outs : List (Nat × List Byte)) (bs : List Byte) : Prop :=
  ∀ o n x, outs = [o] → s.tileOf c o.1 = .inl n → Tab.get? s.u.mem.tiles n = some x → s.plainTile n →
    (s.homeTagAddr x.home + 32 ≤ s.homeAddr x.home ∨ s.homeAddr x.home + 4096 ≤ s.homeTagAddr x.home) →
    t.mread (s.homeAddr x.home) 4096 = bs.take 4096 ++ List.replicate (4096 - bs.length) 0

/-- `s` after job `j` has ended with a status and DETAIL, what follows it still to be told. -/
def State.ended (s : State) (j st detail : Nat) : State := (endJob j st detail 0 0).run s

/-- Job `j` has ended in this command with a status and DETAIL, and what follows it is still to be told. -/
def State.jobEnded (s : State) (j st detail : Nat) : Prop := ∃ x, (j, x, st, detail) ∈ s.u.tt.endedJobs

/-- `s` with the records of start-up and of the TAP changed. -/
def State.withBoot (s : State) (f : BootS → BootS) : State := s.withUnits fun u => { u with boot := f u.boot }
def State.withTap (s : State) (f : TapS → TapS) : State := s.withUnits fun u => { u with tap := f u.tap }

/-- `s` after a pin-control instruction in force has ended, and with it its hold (R524). -/
def State.unpinned (s : State) : State := pinControlEnds.run s

/-- `s` after a reset that begins a boot for a cause (R442, R445). -/
def State.booted (s : State) (cause : Nat) (warm : Bool) : State := (beginBoot cause warm).run s

/-- `s` after the device has entered OPERATIONAL or SERVICE, changed its state to `d`, or stopped working on anything (R440, R441). -/
def State.entered (s : State) : State := enterOp.run s
def State.service (s : State) : State := enterService.run s
def State.inState (s : State) (d : Nat) : State := (setDev d).run s
def State.stoodDown (s : State) : State := standDown.run s

/-- `s` after the module has gone to STANDBY, noting why (R436, R440, R509). -/
def State.standby (s : State) (why : Option Nat) (cause : Nat) : State := (enterStandby why cause).run s

/-- `s` after an event of an overcurrent, voltage or temperature condition of `ERROR_REGISTER` has been logged (R68). -/
def State.loggedCurrent (s : State) (code inst d0 d1 : Nat) : State := (logNoted noteCurrent code inst d0 d1).run s
def State.loggedVoltage (s : State) (code inst d0 d1 : Nat) : State := (logNoted noteVoltage code inst d0 d1).run s
def State.loggedThermal (s : State) (code inst d0 d1 : Nat) : State := (logNoted noteThermal code inst d0 d1).run s

/-- `s` with session `n`'s record changed. -/
def State.withSes (s : State) (n : Nat) (f : Session → Session) : State :=
  s.withUnits fun u => { u with dict := { u.dict with ses := Tab.upd u.dict.ses n {} f } }

/-- `s` after session `ses` has had an abort with this code at key `k` recorded (R24, R26). -/
def State.aborted (s : State) (ses code k : Nat) : State :=
  s.puts [(Obj.ABORT_COUNT ses, (s.get (Obj.ABORT_COUNT ses) + 1) % 2 ^ 32), (Obj.LAST_ABORT ses, code), (Obj.LAST_ABORT_OBJECT ses, k % 2 ^ 24)]

/-- `s` after a session's cleanup (R40): its shadows that are not PENDING are discarded, its FILLING slots IDLE, its other slots without owner. -/
def State.cleaned (s : State) (n : Nat) : State := (sessionCleanup n).run s

/-- `s` after the values written to the shadow of group `g` have become its live values (R47), and after what its block does besides. -/
def State.groupTaken (s : State) (g : Nat) : State := (groupTake g).run s
def State.groupApplied (s : State) (g : Nat) : State := (applyGroup g).run s

/-- `s` after power domain `d` was needed (R415). -/
def State.needing (s : State) (d : Nat) : State := (needDomain d).run s

/-- `s` after job `j`'s pass `p` was carried out by the array, unless it is the vector unit's alone (R114); after the attention of job record `x`; after the vector unit. -/
def State.arrayed (s : State) (j : Nat) (p : Pass) : State := if p.vecOnly then s else (arrayRuns j p).run s
def State.attended (s : State) (j : Nat) (x : Job) (p : Pass) : State := match p.att with
  | some w => (attRuns j p.field x w).run s
  | none => s
def State.vectored (s : State) (p : Pass) : State := p.vec.foldl (fun t o => (vecRuns p.field o).run t) s

/-- The output tile of pass `p`: its operands as they are prepared, on the accumulators that its engine holds, with the stored partials that it is combined with. -/
def State.tileOut (s : State) (p : Pass) : OutTile :=
  p.outTile (s.lowOf p.a + s.lowOf p.b) (Tab.at (s.fieldRec p.field).acc p.engine []) (s.prepared p.field p.a p.k 0) (s.prepared p.field p.b p.k 1)
    (p.partials.map fun a => (List.range 256).map fun e => wideNum (s.mread (a.addr p.field + 16 * e) 16))

/-- `s` after a fault of engine `e` of field `f` (R139 to R141), met by job `job`. -/
def State.engineLost (s : State) (f e detail line : Nat) (job : Option Nat) : State := (engineFaulted f e detail line job).run s

/-- Tile number `t` is one that context `c` may free: its own, and of no stream, sequence or map (R159). -/
def State.mayFree (s : State) (c t : Nat) : Bool := match Tab.get? s.u.mem.tiles t with
  | some y => y.ctx == c && !s.streamTile c t && !s.seqTile c t && !s.mapTile t
  | none => false

/-- `s` after tile numbers were freed. -/
def State.tilesFreed (s : State) (ts : List Nat) : State := ts.foldl (fun t k => (freeTile k).run t) s

/-- A home's payload and its tag do not overlap. -/
abbrev State.disjointAt (s : State) (h : Home) : Prop := s.homeTagAddr h + 32 ≤ s.homeAddr h ∨ s.homeAddr h + 4096 ≤ s.homeTagAddr h

/-- What a background activity of kind `act` does on a unit where foreground work may wait goes ahead: none waits, or the overdue rule has granted it (R179). -/
abbrev State.mayWork (s : State) (act unit : Nat) (busy : Bool) : Prop := busy = false ∨ s.u.mem.overdue.contains (act, unit) = true

/-! ## Writes -/

/-- A write of `v` by session `ses` to the object with key `k` and level `l` reaches the object: the session is open, the part powered, no collection of BAR0 slots
is broken, and device state and level admit it (R16, R21, R25, R39). -/
abbrev State.admits (s : State) (ses k v : Nat) (l : Lvl) : Prop :=
  s.isOpen ses = true ∧ s.dev ≠ Dev.STANDBY ∧ (ses = 0 → (s.session 0).slots = none) ∧ accessCode s ses k v l = 0

/-- A read by session `ses` of the object with key `k` reaches it: the session is open, the part powered, and device state and recovery let the object be read (R21, R39, R448). -/
abbrev State.reads (s : State) (ses k : Nat) : Prop :=
  s.isOpen ses = true ∧ s.dev ≠ Dev.STANDBY ∧ stateReads s.dev (k / 256 % 65536) = true ∧ s.recoveryReaches (k / 256 % 65536) = true

/-- A command that is a write to one object with a row of its own: by session `ses`, of value `v` (0 where the operand is no number) to the object with key `k` and
level `l`; `told`: what it left to be told is told in the command, whatever came of the write. -/
structure OwnWrite where
  ses : Nat
  k : Nat
  v : Nat
  l : Lvl
  told : Bool
  deriving DecidableEq, Repr

/-- Which commands are such writes, and to what. Left out are `BUDGET_W`, whose one row stands for three objects, and the edits of a sequence, which write
`EDIT_GO` only where `EDIT_OP` holds their number. -/
def ownWrite (i : Instr) (s : State) : Option OwnWrite := match i with
  | .slotClaim ses n => some ⟨ses, Obj.STATE n, 1, .host, false⟩
  | .slotDiscard ses n => some ⟨ses, Obj.STATE n, 0, .host, false⟩
  | .slotPost ses n => some ⟨ses, Obj.STATE n, 2, .host, false⟩
  | .slotAbandon ses n => some ⟨ses, Obj.STATE n, 5, .host, false⟩
  | .slotReuse ses n => some ⟨ses, Obj.STATE n, 1, .host, false⟩
  | .slotRelease ses n => some ⟨ses, Obj.STATE n, 0, .host, false⟩
  | .groupCommit ses g => some ⟨ses, commitKey (s.groupKey ses g), 1, groupLvl g, true⟩
  | .groupDiscard ses g => some ⟨ses, commitKey (s.groupKey ses g), 2, groupLvl g, false⟩
  | .elevate ses n _ => some ⟨ses, Obj.ELEVATE n, 0, .host, false⟩
  | .dropLevel ses n v => some ⟨ses, Obj.DROP_LEVEL n, v, .host, false⟩
  | .storeParameters ses sub sig => some ⟨ses, Obj.STORE_PARAMETERS (sub - 1), sig, .sup, false⟩
  | .restoreDefaultParameters ses sub sig => some ⟨ses, Obj.RESTORE_DEFAULTS (sub - 1), sig, .sup, false⟩
  | .eventAck ses v => some ⟨ses, Obj.EVENT_ACK, v, .saf, false⟩
  | .arithClear ses v => some ⟨ses, Obj.ARITH_CLEAR, v, .sup, false⟩
  | .fallowRequestPut ses f => some ⟨ses, Obj.FALLOW_REQUEST f, 1, .svc, true⟩
  | .fallowRequestReturn ses f => some ⟨ses, Obj.FALLOW_REQUEST f, 2, .svc, true⟩
  | .retireRequest ses ch v => some ⟨ses, Obj.RETIRE_REQUEST ch, v, .svc, false⟩
  | .leaseRequest ses mib _ _ _ => some ⟨ses, Obj.LEASE_REQUEST_MIB, mib, .sup, false⟩
  | .leaseRelease ses lease => some ⟨ses, Obj.LEASE_RELEASE, lease, .sup, false⟩
  | .contextOpen ses n => some ⟨ses, Obj.CTX_STATE n, 1, .sup, false⟩
  | .contextClose ses n => some ⟨ses, Obj.CTX_STATE n, 0, .sup, false⟩
  | .ctxClear ses n v => some ⟨ses, Obj.CTX_CLEAR n, v, .sup, false⟩
  | .furrowArm ses => some ⟨ses, Obj.FURROW_COMMAND (s.selected ses), 1, .sup, true⟩
  | .furrowStop ses => some ⟨ses, Obj.FURROW_COMMAND (s.selected ses), 2, .sup, true⟩
  | .furrowClear ses => some ⟨ses, Obj.FURROW_COMMAND (s.selected ses), 3, .sup, false⟩
  | .safetyAck ses v => some ⟨ses, Obj.SAFETY_ACK, v, .saf, false⟩
  | .outputsEnable ses v => some ⟨ses, Obj.OUTPUTS_ENABLE, v, .saf, false⟩
  | .safeHoldRequest ses v => some ⟨ses, Obj.SAFE_HOLD_REQUEST, v, .saf, false⟩
  | .cvRun ses n v _ _ => some ⟨ses, Obj.CV_RUN n, v, .saf, false⟩
  | .domSetMv ses d mv => some ⟨ses, Obj.DOM_SET_MV d, mv, .sup, false⟩
  | .streamStart ses n => some ⟨ses, Obj.STREAM_COMMAND n, 1, .host, true⟩
  | .streamPause ses n => some ⟨ses, Obj.STREAM_COMMAND n, 2, .host, true⟩
  | .streamResume ses n => some ⟨ses, Obj.STREAM_COMMAND n, 3, .host, true⟩
  | .streamReset ses n => some ⟨ses, Obj.STREAM_COMMAND n, 4, .host, true⟩
  | .streamEnd ses n => some ⟨ses, Obj.STREAM_COMMAND n, 5, .host, true⟩
  | .streamCheckpoint ses n => some ⟨ses, Obj.STREAM_COMMAND n, 6, .host, true⟩
  | .streamRestore ses n => some ⟨ses, Obj.STREAM_COMMAND n, 7, .host, true⟩
  | .streamEvict ses n => some ⟨ses, Obj.STREAM_COMMAND n, 8, .host, true⟩
  | .mapClear ses v => some ⟨ses, Obj.MAP_CLEAR, v, .sup, false⟩
  | .roadmapClear ses n v => some ⟨ses, Obj.ROADMAP_CLEAR n, v, .sup, false⟩
  | .tbSet ses v => some ⟨ses, Obj.TB_SET, v, .sup, false⟩
  | .filterStart ses n => some ⟨ses, Obj.FILTER_COMMAND n, 1, .sup, false⟩
  | .filterStop ses n => some ⟨ses, Obj.FILTER_COMMAND n, 2, .sup, false⟩
  | .filterReset ses n => some ⟨ses, Obj.FILTER_COMMAND n, 3, .sup, false⟩
  | .refGo ses ch => some ⟨ses, Obj.REF_GO ch, 1, .host, false⟩
  | .chStart ses ch => some ⟨ses, Obj.CH_COMMAND ch, 1, .sup, false⟩
  | .chStop ses ch => some ⟨ses, Obj.CH_COMMAND ch, 2, .sup, false⟩
  | .chClear ses ch => some ⟨ses, Obj.CH_COMMAND ch, 3, .sup, false⟩
  | .laneRetire ses port k => some ⟨ses, Obj.LANE_RETIRE port, k, .svc, false⟩
  | .cmdOperational ses => some ⟨ses, Obj.DEVICE_COMMAND, 1, commandLevel 1, false⟩
  | .cmdPreOperational ses => some ⟨ses, Obj.DEVICE_COMMAND, 2, commandLevel 2, false⟩
  | .cmdService ses => some ⟨ses, Obj.DEVICE_COMMAND, 3, commandLevel 3, false⟩
  | .cmdLeaveService ses => some ⟨ses, Obj.DEVICE_COMMAND, 4, commandLevel 4, false⟩
  | .cmdWarmReset ses => some ⟨ses, Obj.DEVICE_COMMAND, 5, commandLevel 5, false⟩
  | .cmdColdReset ses => some ⟨ses, Obj.DEVICE_COMMAND, 6, commandLevel 6, false⟩
  | .imgWrite ses kind _ => some ⟨ses, Obj.IMG_WRITE (kind - 1), 0, .svc, false⟩
  | .imgActivate ses kind v => some ⟨ses, Obj.IMG_ACTIVATE (kind - 1), v, .svc, false⟩
  | .imgCounterCommit ses kind v => some ⟨ses, Obj.IMG_COUNTER_COMMIT (kind - 1), v, .svc, false⟩
  | .progImage ses _ => some ⟨ses, Obj.PROG_IMAGE ses, 0, .sup, false⟩
  | .progUnload ses h => some ⟨ses, Obj.PROG_UNLOAD, h, .sup, false⟩
  | .progCounterCommit ses v => some ⟨ses, Obj.PROG_COUNTER_COMMIT, v, .svc, false⟩
  | .attestGo ses v => some ⟨ses, Obj.ATTEST_GO ses, v, .host, false⟩
  | .debugToken ses _ => some ⟨ses, Obj.DEBUG_TOKEN, 0, .svc, false⟩
  | .debugEnd ses v => some ⟨ses, Obj.DEBUG_END, v, .svc, false⟩
  | _ => none

/-! ## Nothing left to tell -/

/-- No run, job, trigger, cause, stream, field, staged group or scratch tile waits to be followed up: what every command that can bring one about ends with
has nothing to do. -/
abbrev State.quiet (s : State) : Prop :=
  s.u.tt.ended = [] ∧ s.u.tt.endedJobs = [] ∧ s.u.tt.engineFaults = [] ∧ s.u.tt.dueTriggers = [] ∧ s.u.safe.due = []
    ∧ (∀ e ∈ s.u.streams, e.2.engines = []) ∧ (∀ f < 66, s.get (Obj.FALLOW_STATUS f) ≠ 1)
    ∧ s.u.dict.pendingGroups = [] ∧ ∀ e ∈ s.u.tt.furrows, e.2.oldScratch = none

/-- `s` with what was left to be told told. -/
def State.told (s : State) : State := settle.run s

/-- `s` after run `r` was cancelled (R60): those of these jobs that are ready are removed, the running ones are to stop at their next yield point, and what that leaves of
the run goes on. -/
def State.runCancelled (s : State) (r : Nat) (jobs : List Nat) : State :=
  (advanceRun r).run (jobs.foldl (fun t j => (stopJob j St.CANCELLED 0).run t) ((Act.run' r fun y => { y with cancelled := true }).run s))

/-- `s` after slot `n` was abandoned (R60): each run that completes in it is cancelled with its jobs. -/
def State.withdrawn (s : State) (n : Nat) : State :=
  ((s.runsFor n).foldl (fun t r => t.runCancelled r ((s.u.tt.jobs.filter (fun e => e.2.run == r)).map (·.1))) (s.putObj (Obj.STATE n) 5)).told

/-- `s`, told where `c` holds. -/
def State.toldIf (s : State) (c : Bool) : State := if c then s.told else s

end Sys2Proof.Machine
end

