-- ==== Sys2Proof/Certificates/Slice0/Obligations.lean ====
section
/-! DEFINITION. The statements for the provers: what every command does, family by family, what every step keeps, what reset leaves. `told` is the state with what a
command left to be told told (Safety.lean); `s.puts` gives live slots new values and leaves everything else as it is. -/

open Sys2Proof Sys2Proof.Machine

/-! ## The queue -/

/-- A step takes the command at the front of the queue and answers what its meaning answers with the rest of the queue. With an empty queue the module idles: one nanosecond
of the reference passes, by which device time goes on at the rate adjustment in force, what the last command sent is gone, and nothing else changes (the model's choice, log
entries 2 and 3). -/
def Obligations.StepRunsFront : Prop :=
  (∀ (c : Instr) (cs : List Instr) (s : State), s.pending = c :: cs → step s = exec c { s with pending := cs })
    ∧ (∀ s : State, s.pending = [] → step s = .next { s with time := s.time + s.tick, out := [] })

/-- Every command whose operands name units that exist answers a next state, whatever the state, and the queue stays as it is; with operands that name none the model
stops, and it stops nowhere else. Choices of the model that it rests on: log entry 137. -/
def Obligations.EveryCommandCompletes : Prop :=
  ∀ (c : Instr) (s : State),
    (Instr.wf c = true → ∃ t, exec c s = .next t ∧ t.pending = s.pending) ∧ (Instr.wf c = false → exec c s = .fault .noSuchUnit)

/-- Every step, from every state in canonical form, leads to a state in canonical form: no slot listed at its reset value, no zero byte listed, every store in rising
order, so that equal machines are equal data. Choices of the model that it rests on: log entry 4. -/
def Obligations.StepKeepsCanonical : Prop :=
  ∀ s t : State, s.canonical = true → step s = .next t → t.canonical = true

/-- The state after reset is in canonical form, with an empty queue, in INIT (R442), with every object at its reset value, every group's SHADOW_OWNER 0xFF (R44), and no
event logged. Choices of the model that it rests on: log entries 64, 65, 66 and 67. -/
def Obligations.ResetState : Prop :=
  State.reset.canonical = true ∧ State.reset.pending = [] ∧ State.reset.dev = Dev.INIT
    ∧ (∀ k, State.reset.get k = Obj.reset k) ∧ (∀ a, Memory.read State.reset.bytes a = 0)
    ∧ (∀ n < 16, State.reset.isOpen n = false) ∧ (∀ c, Obj.isGroupIndex c = true → c < 65536 → State.reset.get (Obj.SHADOW_OWNER c) = 0xFF)
    ∧ State.reset.log.total = 0 ∧ State.reset.log.ring = []

/-- Every step keeps the order of the event log (R64). -/
def Obligations.StepKeepsEventOrder : Prop :=
  ∀ s t : State, s.log.inOrder → step s = .next t → t.log.inOrder

/-! ## Objects, requests, groups -/

/-- A write with a row of its own that device state (R21) or level (R16) does not admit changes nothing but the session's abort record (R24, R26), and is answered with
the code; in a closed session, or with the part in STANDBY, it does nothing at all (R39). Choices of the model that it rests on: log entry 68. -/
def Obligations.UnadmittedWritesChangeNothing : Prop :=
  ∀ (c : Instr) (s : State) (w : OwnWrite), Instr.wf c = true → ownWrite c s = some w →
    (s.isOpen w.ses = false ∨ s.dev = Dev.STANDBY → exec c s = .next ((s.sending []).toldIf w.told))
    ∧ (∀ code, code = accessCode s w.ses w.k w.v w.l → s.isOpen w.ses = true → s.dev ≠ Dev.STANDBY → (w.ses = 0 → (s.session 0).slots = none) → code ≠ 0 →
        exec c s = .next (((s.puts [(Obj.ABORT_COUNT w.ses, (s.get (Obj.ABORT_COUNT w.ses) + 1) % 2 ^ 32), (Obj.LAST_ABORT w.ses, code),
          (Obj.LAST_ABORT_OBJECT w.ses, w.k % 2 ^ 24)]).sending (replies w.ses code)).toldIf w.told))

/-- Plain writes. A write that reaches an object of one number whose write is no more than a new value, within its range: the live slot takes the value, the session gets
its reply, nothing else changes (R18, R19, R24). OBJECT_WRITE and BAR0_SLOT_WRITE; over BAR0 any width that covers the object will do (R23). The first slot of a long
object written over BAR0 with a width of 8 is held until the last has come, and changes no object (R25). -/
def Obligations.PlainWritesReachObjects : Prop :=
  (∀ (s : State) (ses idx sub v : Nat) (r : Row), idx < 65536 → 0 < sub → sub < 0xF8 → placeOf idx sub = .obj r sub → r.acc = .rw → r.span = 1 →
    r.typ ≠ .domain → (∀ n, r.typ ≠ .oct n ∧ r.typ ≠ .vis n) → v < 256 ^ r.typ.bytes → r.holds v = true → s.admits ses (s.keyOf ses idx sub sub) v r.lvl →
    Dev.PREOP ≤ s.dev → ¬ (idx = 0x2000 ∧ sub = 2) →
    (∀ w, (if idx < 0x2700 then ownLow ses idx sub { n := v, words := [v] } w s
      else ownHigh ses idx sub (s.keyOf ses idx sub sub) { n := v, words := [v] } s) = none) →
    (ses < 16 → exec (.objectWrite ses idx sub (.num v r.typ.bytes)) s
        = .next (((s.puts [(s.keyOf ses idx sub sub, v)]).sending (replies ses 0)).told))
    ∧ (ses = 0 → ∀ w fetch, (w = 1 ∨ w = 2 ∨ w = 4 ∨ w = 8) → r.typ.bytes ≤ w →
        exec (.bar0SlotWrite (idx * 2048 + sub * 8) w (some v) fetch) s = .next (((s.puts [(s.keyOf 0 idx sub sub, v)]).sending []).told)))
  ∧ (∀ (s : State) (idx sub v : Nat) (r : Row) (fetch : Option (List Byte)), idx < 65536 → sub < 256 → placeOf idx sub = .obj r sub → 1 < r.span →
    s.isOpen 0 = true → s.dev ≠ Dev.STANDBY → (s.session 0).slots = none →
    exec (.bar0SlotWrite (idx * 2048 + sub * 8) 8 (some v) fetch) s
      = .next ((s.withUnits fun u => { u with
          dict := { u.dict with ses := Tab.upd u.dict.ses 0 {} fun x => { x with slots := some (idx, sub, le 8 v) } } }).sending []))

/-- A REQUEST of one operation, new in its session: a READ answers with the object's bytes and changes no object, an INLINE_START opens the session's inline buffer, an
INLINE_DATA that does not complete it appends to it, a WRITE answers with the code of the object's write and does what that write does; the RESPONSE carries the
operation's code and the session's next SEQUENCE, and the session takes the REQUEST's SEQUENCE as the highest received (R33, R34, R36, R37). Choices of the model that it
rests on: log entries 76, 77 and 174. -/
def Obligations.RequestsAreAnswered : Prop :=
  ∀ (s : State) (h : MdpHead) (idx sub : Nat), 2 ≤ h.ses → h.ses < 16 → h.op = 0 → s.mdpServed = true →
    s.get (Obj.TRANSPORT h.ses) = 3 → s.get (Obj.IDLE_TIMEOUT_MS h.ses) ≠ 0 → (s.session h.ses).rxHigh < h.seq → idx < 65536 → sub < 256 →
    let b := { s with u := { s.u with dict := { s.u.dict with ses := Tab.upd s.u.dict.ses h.ses {} fun x => { x with
      rxHigh := h.seq, lastReq := s.time, cur := some { seq := h.seq, tooLong := false, aborted := false, results := [] } } } }, out := [] }
    (∀ size bs, h.ops = [(1, size)] → 1 ≤ size → size ≤ 255 → readObject h.ses idx sub size b = (0, bs, .skip) →
      ∃ t : State, exec (.mdpRead h idx sub size) s = .next t.told ∧ s.storesKept t
        ∧ t.out = [.response h.ses ((s.session h.ses).txSeq + 1) [(0, bs)]] ∧ (t.session h.ses).rxHigh = h.seq
        ∧ (t.session h.ses).txSeq = (s.session h.ses).txSeq + 1)
    ∧ (∀ total crc, h.ops = [(3, 8)] → 0 < total → total ≤ 67108864 → crc < 4294967296 →
      ∃ t : State, exec (.inlineStart h idx sub total crc) s = .next t.told ∧ s.storesKept t
        ∧ t.out = [.response h.ses ((s.session h.ses).txSeq + 1) [(0, [])]]
        ∧ (t.session h.ses).inline = some { idx := idx, sub := sub, total := total, crc := crc, data := [] })
    ∧ (∀ data x, h.ops = [(4, data.length)] → 1 ≤ data.length → data.length ≤ 255 → (s.session h.ses).inline = some x → x.idx = idx → x.sub = sub →
      x.data.length + data.length < x.total →
      ∃ t : State, exec (.inlineData h idx sub data) s = .next t.told ∧ s.storesKept t
        ∧ t.out = [.response h.ses ((s.session h.ses).txSeq + 1) [(0, [])]]
        ∧ (t.session h.ses).inline = some { x with data := x.data ++ data })
    ∧ (∀ size v a, h.ops = [(2, size)] → 1 ≤ size → size ≤ 255 → v.isInline = false → v.isSdo = false → coversObject idx sub size = true → writeObject h.ses idx sub Ab.LENGTH v b = (0, a) →
      (∀ t : State, ((a.run t).session h.ses) = t.session h.ses ∧ (a.run t).out = t.out ∧ (a.run t).get (Obj.IDLE_TIMEOUT_MS h.ses) = t.get (Obj.IDLE_TIMEOUT_MS h.ses)) →
      ∃ t : State, exec (.mdpWrite h idx sub size v) s = .next t.told ∧ t.objs = (a.run b).objs ∧ t.shadow = (a.run b).shadow ∧ t.bytes = (a.run b).bytes
        ∧ t.log = (a.run b).log ∧ t.out = [.response h.ses ((s.session h.ses).txSeq + 1) [(0, [])]])

/-- A session from HELLO to its end: the lowest free session is held for the FINISH and named in the HELLO_REPLY (R30); a FINISH that verifies opens it at the level of
its role, with the keys of its directions (R31); a FINISH that does not come in 1 s lets it go (R30); a CLOSE and an idle time-out close it (R33, R38). Choices of the model that it rests on: log entry
78. -/
def Obligations.SessionsOpenAndClose : Prop :=
  ∀ (s : State) (ses : Nat), 2 ≤ ses → ses < 16 →
    (∀ header payload cert rest, s.mdpServed = true → helloForm header payload = true → helloChain payload = cert :: rest → s.chainShape (cert :: rest) = true →
      5 ≤ numAt cert 1 1 → numAt cert 1 1 ≤ 8 → s.freeSession = some ses →
      ∃ t : State, exec (.mdpHello header payload true) s = .next t ∧ s.storesKept t ∧ t.out = [.helloReply ses (s.helloReply ses)]
        ∧ t.session ses = { waiting := true, role := numAt cert 1 1, hello := payload, reply := s.helloReply ses
                            certKey := ofLe ((sha384 ((cert.drop 72).take 97)).take 8) })
    ∧ ((s.session ses).waiting = true → s.mdpServed = true → 5 ≤ (s.session ses).role → (s.session ses).role ≤ 8 →
      ∃ t : State, exec (.mdpFinish ses true) s = .next t ∧ t.isOpen ses = true ∧ t.get (Obj.TRANSPORT ses) = 3
        ∧ t.level ses = (s.session ses).role - 5 ∧ (t.session ses).waiting = false ∧ (t.session ses).txSeq = 1
        ∧ (t.session ses).keys = ((s.session ses).derive [0x63, 0x32, 0x64], (s.session ses).derive [0x64, 0x32, 0x63])
        ∧ t.get (Obj.OPENED_TIME ses) = s.ns ∧ t.bytes = s.bytes ∧ t.log = s.log ∧ t.out = [.response ses 1 []])
    ∧ ((s.session ses).waiting = true →
      ∃ t : State, exec (.mdpFinishTimeout ses) s = .next t ∧ s.storesKept t ∧ t.out = [] ∧ t.session ses = {})
    ∧ (s.get (Obj.TRANSPORT ses) = 3 → ∀ code,
      ∃ t : State, exec (.mdpClose ses code) s = .next t ∧ exec (.sessionIdleTimeout ses) s = .next t ∧ t.isOpen ses = false ∧ t.level ses = 0
        ∧ t.session ses = {} ∧ t.bytes = s.bytes ∧ t.log = s.log ∧ t.out = [])

/-- Commit, discard and application of a staged group (R46, R47). A commit whose checks find nothing makes the group PENDING, where its block is not at its boundary, and
leaves its live objects; a commit with a flaw makes it ABORTED, with the code and the object at fault, and answers with 0x0F000004; a discard makes it CLEAN and frees its
shadow. A PENDING group whose block meets its boundary applies, whatever group it is: its live objects take every value written to the shadow, its control block tells so
with device time, and then its block does what the new values ask of it; a group that is not PENDING, or whose block is not at its boundary, does not apply. Choices of the
model that it rests on: log entry 84. -/
def Obligations.GroupsCommitDiscardApply : Prop :=
  (∀ (s : State) (ses g : Nat), ses < 16 → Wf.group g = true → g ≠ 0x2581 → g ≠ 0x2D21 →
    (s.groupShut ses g = 0 → s.admits ses (commitKey g) 1 (groupLvl g) → (s.get (Obj.COMMIT_STATUS g) = 1 ∨ s.get (Obj.COMMIT_STATUS g) = 4) → ∀ code sub, code ≠ 0x0545 →
      checkGroup s ses g = some (code, sub) →
      exec (.groupCommit ses g) s = .next (((s.puts [(Obj.COMMIT_STATUS g, 4), (Obj.COMMIT_ABORT g, code), (Obj.COMMIT_FAULT_OBJECT g, idxOf g % 65536 * 256 + sub),
        (Obj.ABORT_COUNT ses, (s.get (Obj.ABORT_COUNT ses) + 1) % 2 ^ 32), (Obj.LAST_ABORT ses, Ab.COMMIT_INCONSISTENT),
        (Obj.LAST_ABORT_OBJECT ses, commitKey g % 2 ^ 24)]).sending (replies ses Ab.COMMIT_INCONSISTENT)).told))
    ∧ (s.groupShut ses g = 0 → s.admits ses (commitKey g) 1 (groupLvl g) → (s.get (Obj.COMMIT_STATUS g) = 1 ∨ s.get (Obj.COMMIT_STATUS g) = 4) → checkGroup s ses g = none →
        g < 0x5000 →
        let p := { s.putObj (Obj.COMMIT_STATUS g) 2 with u := { s.u with dict := { s.u.dict with
          pendingGroups := s.u.dict.pendingGroups.filter (· != g) ++ [g] } } }
        p.atBoundary g = false → exec (.groupCommit ses g) s = .next ((p.sending (replies ses 0)).told))
    ∧ (s.groupShut ses g = 0 → s.admits ses (commitKey g) 2 (groupLvl g) → (s.get (Obj.COMMIT_STATUS g) = 1 ∨ s.get (Obj.COMMIT_STATUS g) = 4) →
      ∃ t : State, exec (.groupDiscard ses g) s = .next t ∧ t.get (Obj.COMMIT_STATUS g) = 0 ∧ t.get (Obj.SHADOW_OWNER g) = 0xFF
        ∧ (∀ k, k / 256 = idxOf g → t.shadowOf k = t.get k) ∧ (∀ k, k ≠ Obj.COMMIT_STATUS g → k ≠ Obj.SHADOW_OWNER g → t.get k = s.get k)
        ∧ t.bytes = s.bytes ∧ t.log = s.log ∧ t.out = replies ses 0))
  ∧ (∀ (s : State) (g : Nat), Wf.groupApply g = true →
    (s.groupPending g = true → s.atBoundary g = true → exec (.groupApply g) s = .next ((s.sending []).groupApplied g).told)
    ∧ ((s.groupPending g && s.atBoundary g) = false → exec (.groupApply g) s = .next (s.sending []).told)
    ∧ ((g = 0x2120 ∨ (0x2810 ≤ g ∧ g ≤ 0x28BF) ∨ (0x2F60 ≤ g ∧ g ≤ 0x2F67)) → s.groupApplied g = s.groupTaken g)
    ∧ ((0x2D40 ≤ g ∧ g ≤ 0x2D4F) → let x := s.groupTaken g
        s.groupApplied g = if x.get (Obj.CV_PERIOD_MS (g - 0x2D40)) = 0 then x else x.needing 78)
    ∧ (s.shadow.Pairwise (fun a b => a.1 < b.1) → (∀ e ∈ s.shadow, ctlOf (e.1 / 256) = g → e.1 % 256 < 0xF8) → let t := s.groupTaken g
      t.get (Obj.COMMIT_STATUS g) = 3 ∧ t.get (Obj.SHADOW_OWNER g) = 0xFF
        ∧ t.get (Obj.COMMIT_COUNT g) = (s.get (Obj.COMMIT_COUNT g) + 1) % 2 ^ 32 ∧ t.get (Obj.APPLIED_TIME g) = s.ns ∧ t.get (Obj.APPLIED_TIME_FRAC g) = s.frac
        ∧ (∀ k, k / 256 = idxOf g → k % 256 < 0xF8 → t.get k = s.shadowOf k ∧ t.shadowOf k = t.get k)
        ∧ (∀ k, k / 256 ≠ idxOf g → k / 256 ≠ g → t.get k = s.get k) ∧ t.bytes = s.bytes ∧ t.log = s.log ∧ t.out = s.out))

/-- Settings, acknowledgement, the event log and the flash ring: a store begins where no flash write runs (R51, R52), a restore is noted for the next boot (R51);
EVENT_ACK raises the highest number acknowledged to the value written, but to no more than the latest event's, and lowers it never (R68); a flash copy moves the oldest
event waiting to the front of the ring of 256 (R66); ARITH_CLEAR returns the eight totals to 0 (R86). An event that is logged raises the log's number by one and stands at
the head of the ring with device time, code, severity, instance and data; one of severity Error or Safety waits for the flash ring; objects and memory stay (R64, R66).
Choices of the model that it rests on: log entries 61 and 88. -/
def Obligations.SettingsAndEventLog : Prop :=
  ∀ (s : State) (ses : Nat), ses < 16 →
    (∀ sub, 1 ≤ sub → sub ≤ 3 → s.admits ses (Obj.STORE_PARAMETERS (sub - 1)) 0x65766173 .sup → s.u.boot.writing = none →
      exec (.storeParameters ses sub 0x65766173) s = .next ({ s with
        freeCtr := s.freeCtr + 6, u := { s.u with boot := { s.u.boot with writing := some (.store (s.toStore sub) s.u.boot.restore.length) } }, out := replies ses 0 }))
    ∧ (∀ sub, 1 ≤ sub → sub ≤ 3 → s.admits ses (Obj.RESTORE_DEFAULTS (sub - 1)) 0x64616F6C .sup →
      exec (.restoreDefaultParameters ses sub 0x64616F6C) s = .next ({ s with
        u := { s.u with boot := { s.u.boot with restore := sub :: s.u.boot.restore } }, out := replies ses 0 }))
    ∧ (∀ v, s.admits ses Obj.EVENT_ACK v .saf →
      exec (.eventAck ses v) s = .next ({ s with log := { s.log with acked := max s.log.acked (min v s.log.total) }, out := replies ses 0 }))
    ∧ (s.admits ses Obj.ARITH_CLEAR 1 .sup →
      exec (.arithClear ses 1) s = .next ((s.puts ((List.range 8).map fun i => (Obj.SATURATED + i, 0))).sending (replies ses 0)))
    ∧ (∀ e es, s.log.toFlash = e :: es → s.u.boot.writing = none → s.u.mem.overdue.contains (4, 0) = false →
      exec .eventFlashCopy s = .next ({ s with
        log := { s.log with toFlash := es, flash := (e :: s.log.flash).take 256, flashCount := s.log.flashCount + 1 }, out := [] }))
    ∧ (∀ v < 64, s.u.dict.holdoff.contains v = true → s.u.dict.raised.contains v = true → s.hostReachable = true →
        s.get (Obj.VECTOR_HOLDOFF_NS v) ≠ 0 →
      ∃ t : State, exec (.msixHoldoffExpiry v) s = .next t ∧ s.storesKept t ∧ t.out = [.msix v] ∧ t.u.dict.holdoff = v :: s.u.dict.holdoff.filter (· != v)
        ∧ t.u.dict.raised = s.u.dict.raised.filter (· != v))
    ∧ (∀ code inst d0 d1, let t := s.logged code inst d0 d1
      t.log.total = s.log.total + 1 ∧ t.lastEvent code inst d0 d1 ∧ t.log.ring.tail = s.log.ring.take 1007
        ∧ (∀ e, t.log.ring.head? = some e → e.ns = s.ns ∧ e.frac = s.frac)
        ∧ t.log.toFlash.length = s.log.toFlash.length + (if 3 ≤ Ev.severity code then 1 else 0)
        ∧ t.objs = s.objs ∧ t.shadow = s.shadow ∧ t.bytes = s.bytes ∧ t.time = s.time ∧ t.pending = s.pending)

/-- The writes of STATE of a request slot (R55, R60): an IDLE slot is claimed, a FILLING one discarded, a DONE one reused or released, an ABANDONED one with nothing left
running released; each changes the slot's STATE and its owner as the table says, and nothing else. A POSTED or RUNNING slot that its owner or a Supervisor abandons is
ABANDONED, and each run that completes in it is cancelled: its ready jobs are removed and its running ones are asked to stop. Any other write of STATE aborts, with 0x0F000005
where the slot has no transition for it. -/
def Obligations.SlotTransitions : Prop :=
  ∀ (s : State) (ses n : Nat), ses < 16 → n < 4096 →
    let st := s.get (Obj.STATE n)
    let owner := s.get (Obj.OWNER_SESSION n)
    (∀ i, i = .slotClaim ses n ∨ i = .slotReuse ses n → s.admits ses (Obj.STATE n) 1 .host →
      (st = 0 → exec i s = .next ((s.puts [(Obj.STATE n, 1), (Obj.OWNER_SESSION n, ses)]).sending (replies ses 0)))
      ∧ (st = 4 → owner = ses → exec i s = .next ((s.puts [(Obj.STATE n, 1)]).sending (replies ses 0)))
      ∧ (st ≠ 0 → st ≠ 4 → exec i s = .next ((s.aborted ses Ab.SLOT_STATE (Obj.STATE n)).sending (replies ses Ab.SLOT_STATE))))
    ∧ (∀ i, i = .slotDiscard ses n ∨ i = .slotRelease ses n → s.admits ses (Obj.STATE n) 0 .host →
      (st = 1 ∧ owner = ses ∨ (st = 4 ∨ st = 5 ∧ s.runsFor n = []) ∧ (owner = ses ∨ owner = 0xFF ∧ 1 ≤ s.level ses) →
        exec i s = .next ((s.puts [(Obj.STATE n, 0), (Obj.OWNER_SESSION n, 0xFF)]).sending (replies ses 0)))
      ∧ (st ≠ 1 → st ≠ 4 → (st = 5 → s.runsFor n ≠ []) →
        exec i s = .next ((s.aborted ses Ab.SLOT_STATE (Obj.STATE n)).sending (replies ses Ab.SLOT_STATE))))
    ∧ (s.admits ses (Obj.STATE n) 5 .host →
      ((st = 2 ∨ st = 3) → (owner = ses ∨ 1 ≤ s.level ses) → exec (.slotAbandon ses n) s = .next (((s.sending []).withdrawn n).also (replies ses 0)))
      ∧ ((st = 2 ∨ st = 3) → (owner = ses ∨ 1 ≤ s.level ses) → s.runsFor n = [] → s.quiet →
        exec (.slotAbandon ses n) s = .next ((s.puts [(Obj.STATE n, 5)]).sending (replies ses 0)))
      ∧ (st ≠ 2 → st ≠ 3 → exec (.slotAbandon ses n) s = .next ((s.aborted ses Ab.SLOT_STATE (Obj.STATE n)).sending (replies ses Ab.SLOT_STATE))))

/-- A post that the checks of R58 admit, where no furrow is armed for it and the entry is one stage on at least one field: the slot reads POSTED with its sequence
counted (R57), the post's run joins the runs, and its stage is a ready job of the slot's context, of the context's class or of class B (R199 to R201); no stored byte and
no event changes. A post that they refuse completes at once with the status and DETAIL of R58 in its record. -/
def Obligations.PostsRun : Prop :=
  ∀ (s : State) (ses n : Nat), ses < 16 → n < 4096 → s.get (Obj.STATE n) = 1 → s.get (Obj.OWNER_SESSION n) = ses → s.admits ses (Obj.STATE n) 2 .host → s.quiet →
    let p := s.putObj (Obj.SEQUENCE n) ((s.get (Obj.SEQUENCE n) + 1) % 2 ^ 32)
    (∀ e d, p.postRefused ses n = none → s.armed = [] → s.entryOf (s.get (Obj.PROGRAM n)) (s.get (Obj.ENTRY n)) = some e → e.stages = [d] → d.fields ≠ 0 → d.op = none →
        d.chunk = none → d.deps = [] → (∀ u, s.unit (s.get (Obj.PROGRAM n)) = some u → u.sems = []) → (∀ j ∈ s.u.tt.jobs, j.2.run ≠ s.u.tt.nextRun) →
      ∃ t : State, exec (.slotPost ses n) s = .next t ∧ t.objs = (p.putObj (Obj.STATE n) 2).objs ∧ t.bytes = s.bytes ∧ t.log = s.log ∧ t.out = replies ses 0
        ∧ ∃ j, Tab.get? t.u.tt.jobs s.u.tt.nextJob = some j ∧ j.phase = .ready ∧ j.run = s.u.tt.nextRun ∧ j.stage = 0 ∧ j.decl = d ∧ j.ctx = s.get (Obj.CONTEXT n)
          ∧ j.cls = (if bit (s.get (Obj.FLAGS n)) 3 then 3 else s.get (Obj.CTX_CLASS (s.get (Obj.CONTEXT n)))) ∧ j.readyAt = s.time)
    ∧ (∀ st d, p.postRefused ses n = some (st, d) → bit (s.get (Obj.FLAGS n)) 1 = false → bit (s.get (Obj.FLAGS n)) 2 = false →
      exec (.slotPost ses n) s = .next (((p.puts ((List.range 8).map fun i => (Obj.COMPLETION n 0 + i, ofLe (((completionRecord
        (p.get (Obj.SEQUENCE n)) st 4 0 (s.get (Obj.USER_TAG n)) s.time s.time n d 0 0 0 0).drop (8 * i)).take 8)))).puts [(Obj.STATE n, 4)]).sending (replies ses 0)))

/-! ## Arithmetic and fields -/

/-- A pass that ends on an engine that carries a logical engine of a field its job runs on, while no overcurrent trip holds (R114, R117, R436). A residue or parity check that
fails is a fault of the engine with DETAIL 0x0300 (R120). Otherwise the words corrected are counted (R119); an access outside what the job may use ends it with ACCESS_DENIED
0x0320 (R122), a book that may not be used ends it with the book's status; else the array, the attention and the vector unit do their work in turn. The array counts the steps
of the pass and leaves its engine 256 accumulators; the drain puts the elements, in their format or as 256 wide sums, where it goes, and no byte changes outside it but the
scales declared an output; no other engine's accumulators change and no event is logged. Choices of the model that it rests on: log entries 5, 153, 159 and 160. -/
def Obligations.PassesDrain : Prop :=
  ∀ (s : State) (job : Nat) (x : Job) (p : Pass), Wf.pass p = true → Tab.get? s.u.tt.jobs job = some x →
    (s.jobsOn p.field).any (fun e => decide (e.1 = job ∧ (e.2.phase = .running ∨ e.2.phase = .draining))) = true →
    bit (s.get (Obj.ENGINE_ACTIVE_MASK p.field)) p.engine = true → s.u.pow.overcurrent = false →
    let c := (s.sending []).counted 64 (Obj.ECC_CORRECTED p.field) p.corrected
    let fits := (p.allUses x).all (s.mayUse x p.field)
    let flaw := p.operands.findSome? s.bookFault
    (p.mismatch = true → exec (.enginePassDrain job p) s = .next ((s.sending []).engineLost p.field p.engine 0x0300 0 (some job)).told)
    ∧ (p.mismatch = false → fits = false → exec (.enginePassDrain job p) s = .next (c.ended job St.ACCESS_DENIED 0x0320).told)
    ∧ (p.mismatch = false → fits = true → ∀ st d, flaw = some (st, d) → exec (.enginePassDrain job p) s = .next (c.ended job st d).told)
    ∧ (p.mismatch = false → fits = true → flaw = none → exec (.enginePassDrain job p) s = .next (((c.arrayed job p).attended job x p).vectored p).told)
    ∧ (p.vecOnly = false → p.harrow = none → p.outputs ≠ 0 → p.drain ≠ .resident → c.get (Obj.ARRAY_STEPS p.field) + p.steps.1 < 2 ^ 64 →
      let t := c.arrayed job p
      let image := (p.drain.image (c.tileOut p) (fun i => c.free (2 + i) 64)).1
      t.get (Obj.ARRAY_STEPS p.field) = c.get (Obj.ARRAY_STEPS p.field) + p.steps.1
        ∧ (Tab.at (t.fieldRec p.field).acc p.engine []).length = 256
        ∧ (∀ d ∈ p.drainsTo p.outputs, ∀ i, i < image.length → Memory.read t.bytes (d.1.addr p.field + i) = image.getD i 0)
        ∧ (p.a.writes p.k = [] → p.b.writes p.k = [] → ∀ a, (∀ d ∈ p.drainsTo p.outputs, a < d.1.addr p.field ∨ d.1.addr p.field + image.length ≤ a) →
            Memory.read t.bytes a = Memory.read c.bytes a)
        ∧ (∀ e, e ≠ p.engine → Tab.at (t.fieldRec p.field).acc e [] = Tab.at (c.fieldRec p.field).acc e [])
        ∧ t.log = c.log ∧ t.out = [])

/-- An engine fault on an engine of an active field that is not yet retired, of whatever kind and whatever job met it (R139, R140): where it carries a logical engine, the
lowest healthy engine that carried nothing takes it over, the engine reads retired and carries nothing, the field's fault is counted and the event tells field, engine and
DETAIL; memory is kept but for the slate of the engine that takes over. A retired engine and a field that is not active report none. A step that does not complete in 10 µs is
such a fault with DETAIL 0x0300 (R120). A fault of a unit of an active field other than an engine, where no spare can be brought up and no job is on the field (R139,
R142): the field reads FAILED, carries no engine and is switched off, and the event tells it. Choices of the model that it rests on: log entries 40, 41 and 92. -/
def Obligations.FaultsRetireUnits : Prop :=
  ∀ (s : State) (f e : Nat), f < 66 → e < 34 →
    (∀ job, exec (.engineStepTimeout f e job) s = exec (.engineFault f e 0x0300 0 job) s)
    ∧ (∀ detail line job, Wf.engineFault f e detail line job = true →
        exec (.engineFault f e detail line job) s = .next (((s.sending []).engineLost f e detail line job).told)
        ∧ ((s.fieldActive f = false ∨ bit (s.get (Obj.ENGINE_RETIRED_MASK f)) e = true) → s.engineLost f e detail line job = s))
    ∧ (s.fieldActive f = true → bit (s.get (Obj.ENGINE_RETIRED_MASK f)) e = false → bit (s.get (Obj.ENGINE_ACTIVE_MASK f)) e = true → ∀ i, s.heir f e = some i →
        s.get Obj.AUTO_FALLOW_EN = 0 → s.get (Obj.ENGINE_FAULTS f) + 1 < 2 ^ 32 → s.get Obj.SUBSTITUTIONS + 1 < 2 ^ 32 →
        s.get (Obj.ENGINE_RETIRED_MASK f) < 2 ^ 34 → s.get (Obj.ENGINE_ACTIVE_MASK f) < 2 ^ 34 →
      let t := s.engineLost f e 0x0300 0 none
      t.get (Obj.ENGINE_RETIRED_MASK f) = setBit (s.get (Obj.ENGINE_RETIRED_MASK f)) e
        ∧ t.get (Obj.ENGINE_ACTIVE_MASK f) = setBit (clearBit (s.get (Obj.ENGINE_ACTIVE_MASK f)) e) i
        ∧ t.get (Obj.ENGINE_FAULTS f) = s.get (Obj.ENGINE_FAULTS f) + 1 ∧ t.get Obj.SUBSTITUTIONS = s.get Obj.SUBSTITUTIONS + 1
        ∧ t.lastEvent Ev.ENGINE_RETIRED f e 0x0300 ∧ t.log.total = s.log.total + 1
        ∧ (∀ a, a < slateBase f i ∨ slateBase f i + 65536 ≤ a → Memory.read t.bytes a = Memory.read s.bytes a)
        ∧ (∀ j ∈ t.u.tt.jobs, (f, e) ∉ j.2.engs))
    ∧ (s.fieldActive f = true → s.spareField = none → s.get (Obj.FALLOW_STATUS f) = 0 → s.jobsOn f = [] →
      ∃ t : State, exec (.fieldFault f) s = .next t.told ∧ t.get (Obj.FIELD_ROLE f) = 3 ∧ t.get (Obj.ENGINE_ACTIVE_MASK f) = 0 ∧ t.get (Obj.DOM_STATE f) = 0
        ∧ t.lastEvent Ev.FIELD_FAILED f 0 0x0303 ∧ t.log.total = s.log.total + 1
        ∧ (∀ k, k ≠ Obj.FIELD_ROLE f → k ≠ Obj.ENGINE_ACTIVE_MASK f → k ≠ Obj.DOM_STATE f → t.get k = s.get k))

/-- Barriers and the start wave (R135 to R137): an arrival is counted with the Drill writes issued before it; while a participant is missing or such a write is not
complete the phase goes on; else it ends, with none arrived in the next. A slot of the wave that begins leaves the slots still to come. Choices of the model that it rests
on: log entry 42. -/
def Obligations.BarriersCount : Prop :=
  ∀ (s : State) (job b i owed : Nat) (x : Job) (r : Barrier), Tab.get? s.u.tt.jobs job = some x → (x.phase = .running ∨ x.phase = .draining) →
    b < x.decl.barriers.length → x.bars[b]? = some i → Tab.get? s.u.tt.bars i = some r →
    let r' := { r with arrived := min r.n (r.arrived + 1), owed := r.owed + owed, since := if r.arrived = 0 then s.time else r.since }
    (r'.arrived < r.n ∨ r'.owed ≠ 0 → exec (.barrierArrival job b owed) s = .next (((s.withTt fun t => { t with bars := Tab.set t.bars i r' }).sending []).told))
    ∧ (r.n ≤ r'.arrived → r'.owed = 0 → ∃ t : State, exec (.barrierArrival job b owed) s = .next t.told
        ∧ Tab.get? t.u.tt.bars i = some { r' with arrived := 0, phase := r.phase + 1, reported := false } ∧ (∀ k, k ≠ i → Tab.get? t.u.tt.bars k = Tab.get? s.u.tt.bars k)
        ∧ t.u.tt.jobs = s.u.tt.jobs ∧ t.bytes = s.bytes ∧ t.log = s.log ∧ t.out = [])
    ∧ exec .startWaveSlot s = .next ((s.withTt fun t => { t with wave := t.wave.drop 1 }).sending [])

/-- A field goes fallow and comes back (R144, R145, R148): a put on request brings a spare up, whose domain wakes; the spare that is ready takes the leaving field's role
with its lowest 32 healthy engines; a request to return wakes a fallow field's domain; a self-test then passed makes it SPARE, unpowered, with the engines found bad
retired and the failing rows mapped onto spare ones while their bank has one left; a job whose state is installed runs on. Background work in a field and its Lane network
(R125, R133, R146, R147, R179): a flit that arrives whole on its replay is counted and no longer failing; a granule scrubbed with a corrected error is counted; a step of
calibration is noted, and with the last healthy engine's the pass is dated; a telemetry record is dated; an overdue activity is granted and counted. Work in the background
yields to foreground work, which is counted, unless it was granted as overdue. Choices of the model that it rests on: log entry 92. -/
def Obligations.FieldsAreMaintained : Prop :=
  (∀ (s : State) (f : Nat), f < 66 →
      (∀ ses g, ses < 16 → s.admits ses (Obj.FALLOW_REQUEST f) 1 .svc → s.putRefused f = false → s.spareField = some g →
        exec (.fallowRequestPut ses f) s = .next ((((s.puts [(Obj.FALLOW_STATUS f, 1), (Obj.DOM_STATE g, 1)]).withField f fun r => { r with
          takeover := some g, faulty := false }).sending (replies ses 0)).told))
      ∧ (∀ ses, ses < 16 → s.admits ses (Obj.FALLOW_REQUEST f) 2 .svc → s.get (Obj.FIELD_ROLE f) = 2 → s.get (Obj.FALLOW_STATUS f) = 2 →
        exec (.fallowRequestReturn ses f) s = .next (((s.puts [(Obj.FALLOW_STATUS f, 3), (Obj.DOM_STATE f, 1)]).sending (replies ses 0)).told))
      ∧ (∀ e, s.u.fields.find? (fun e => decide (e.2.takeover = some f)) = some e → s.get (Obj.FIELD_ROLE f) = 1 → s.jobsOn e.1 = [] → s.get Obj.SUBSTITUTIONS + 1 < 2 ^ 32 →
        ∃ t : State, exec (.spareFieldReady f) s = .next t.told ∧ t.get (Obj.FIELD_ROLE f) = 0 ∧ t.get (Obj.DOM_STATE f) = 2
          ∧ t.get (Obj.ENGINE_ACTIVE_MASK f) = activeMask (s.get (Obj.ENGINE_RETIRED_MASK f)) ∧ t.get Obj.SUBSTITUTIONS = s.get Obj.SUBSTITUTIONS + 1
          ∧ t.bytes = s.bytes ∧ t.log = s.log ∧ t.out = [])
      ∧ (∀ bad rows, Wf.fieldSelftestDone f bad rows true = true → s.get (Obj.FALLOW_STATUS f) = 3 → popcount 34 (s.get (Obj.ENGINE_RETIRED_MASK f) ||| bad) ≤ 2 →
          s.get (Obj.ENGINE_RETIRED_MASK f) < 2 ^ 34 →
        ∃ t : State, exec (.fieldSelftestDone f bad rows true) s = .next t.told ∧ t.get (Obj.FALLOW_STATUS f) = 0 ∧ t.get (Obj.FIELD_ROLE f) = 1
          ∧ t.get (Obj.DOM_STATE f) = 0 ∧ t.get (Obj.ENGINE_RETIRED_MASK f) = s.get (Obj.ENGINE_RETIRED_MASK f) ||| bad
          ∧ t.get (Obj.ROWS_SPARED f) = (t.fieldRec f).spared.foldl (fun a e => a + e.2) 0 % 2 ^ 64
          ∧ t.get (Obj.ROWS_MARKED f) = (t.fieldRec f).badLines.length % 2 ^ 64
          ∧ (∀ l ∈ rows, Tab.at (t.fieldRec f).spared (storeBank (64 * l)) 0 < 8 → l ∉ (t.fieldRec f).badLines) ∧ t.bytes = s.bytes ∧ t.log = s.log ∧ t.out = [])
      ∧ (∀ job x, Tab.get? s.u.tt.jobs job = some x → x.phase = .moving → x.stop = none → (∀ g ∈ x.place, s.get (Obj.FALLOW_STATUS g) ≠ 1) →
        exec (.jobStateInstalled job) s = .next (((s.withJob job fun y => { y with phase := .running }).sending []).told)))
  ∧ (∀ (s : State) (f : Nat), f < 66 →
      (∀ dir, dir < 4 → ((neighbour f dir).isSome = true → exec (.flitReplay f dir true) s = .next
          ((((s.sending []).counted 32 Obj.LANE_REPLAYS 1).withField f fun r => { r with flits := Tab.del r.flits dir }).told))
        ∧ (neighbour f dir = none → ∀ ok, exec (.flitReplay f dir ok) s = .next (s.sending [])))
      ∧ (∀ e line job late busy, e < 34 → line < 32768 → s.get (Obj.DOM_STATE f) = 2 →
        (busy = false ∨ s.u.mem.overdue.contains (1, f) = true →
          exec (.scrubGranule f e line 0 job true false late busy) s = .next ((((s.withMem fun m => { m with
            overdue := m.overdue.filter (· != (1, f)) }).sending []).counted 64 (Obj.ECC_CORRECTED f) 1).told))
        ∧ (busy = true → s.u.mem.overdue.contains (1, f) = false →
          exec (.scrubGranule f e line 0 job true false late busy) s = .next (((s.sending []).counted 64 Obj.BG_YIELDS 1).told)))
      ∧ (∀ e, e < 34 → bit (s.get (Obj.ENGINE_RETIRED_MASK f)) e = false → s.get (Obj.DOM_STATE f) = 2 →
          (s.engineHolder f e = none ∨ s.u.mem.overdue.contains (2, f * 34 + e) = true) →
          (List.range 34).all (fun i => bit (s.get (Obj.ENGINE_RETIRED_MASK f)) i || (e :: (s.fieldRec f).calib.filter (· != e)).contains i) = true →
        ∃ t : State, exec (.calibrationStep f e) s = .next t ∧ t.get (Obj.CALIB_LAST_TIME f) = s.ns ∧ (t.fieldRec f).calib = []
          ∧ (∀ k, k ≠ Obj.CALIB_LAST_TIME f → t.get k = s.get k) ∧ t.bytes = s.bytes ∧ t.log = s.log ∧ t.out = [])
      ∧ (∀ busy, busy = false ∨ s.u.mem.overdue.contains (3, f) = true →
        ∃ t : State, exec (.telemetryRecord f busy) s = .next t ∧ (t.fieldRec f).telemetry = s.time ∧ s.storesKept t ∧ t.out = [])
      ∧ (∀ act unit, Wf.backgroundOverdue act unit = true → exec (.backgroundOverdue act unit) s = .next (((s.sending []).counted 64 Obj.BG_OVERDUE_GRANTS 1).withUnits
          fun u => { u with mem := { u.mem with overdue := (act, unit) :: u.mem.overdue.filter (· != (act, unit)) } })))

/-! ## Memory tiers -/

/-- The Drill's moves of a job (R155, R156, R161, R163, R192): a move that a check stops before it accesses anything ends its job with that status; a read of a whole tile sends its
bytes to host memory that the job's request names and is output of the job; a whole write stores its 4,096 bytes in the tile's payload slot, and the tile's generation rises (R154);
bytes that arrive from the host lie where they land in the field. Tile numbers of a job's context are freed and allocated, as many entries of the map as it asks for, each owned
by the context (R159), or refused with the DETAIL of the limit; a host read that gets no completion in time ends its job with ACCESS_DENIED and DETAIL 0x0431 (R178). Choices
of the model that it rests on: log entries 5 and 43. -/
def Obligations.TilesMove : Prop :=
  (∀ (s : State) (m : Move) (j : Nat) (x : Job), Wf.drillMoveDone m = true → m.job = some j → Tab.get? s.u.tt.jobs j = some x → m.bytes ≠ 0 →
    (∀ st d, s.moveFault x m = some (st, d) → d ≠ 0x0430 → exec (.drillMoveDone m) s = .next ((s.sending []).ended j st d).told)
    ∧ (s.moveFault x m = none → s.hostNamed x m m.toHost = true → m.barrier = none →
      (∀ k y, Tab.get? s.u.mem.tiles (tileNo m.tile) = some y → y.home = .slot k → m.side = .home →
        (∀ a, m.write = false → m.err = .none → m.host = some a → m.compress = false → m.joined = [] → y.lost = none → Tab.get? x.seen (tileNo m.tile) = none →
            bit (tagByte (s.homeTag y.home) 2) 1 = false → ofLe ((s.homeTag y.home).drop 28) = crc32c (s.homeData y.home) →
          ∃ u : State, exec (.drillMoveDone m) s = .next u.told ∧ u.out = [.hostWrite a ((s.mread (s.slotAddr k) 4096).take (min m.bytes 4096))]
            ∧ (∃ z, Tab.get? u.u.tt.jobs j = some z ∧ z.output = true ∧ z.bytes = x.bytes + min m.bytes 4096) ∧ u.bytes = s.bytes ∧ u.log = s.log)
        ∧ (m.write = true → m.host = none → m.compress = false → m.data.length = 4096 → y.migrating = none → y.replica = none → s.get Obj.SEED_STOCK_EN = 0 →
            s.disjointAt y.home →
          ∃ u : State, exec (.drillMoveDone m) s = .next u.told ∧ u.mread (s.slotAddr k) 4096 = m.data
            ∧ (∀ a, (a < s.slotAddr k ∨ s.slotAddr k + 4096 ≤ a) → (a < s.tagAddr k ∨ s.tagAddr k + 32 ≤ a) → Memory.read u.bytes a = Memory.read s.bytes a)
            ∧ (∃ z, Tab.get? u.u.mem.tiles (tileNo m.tile) = some z ∧ z.gen = (y.gen + 1) % 2 ^ 32 ∧ z.lost = none ∧ z.home = y.home)
            ∧ u.log = s.log ∧ u.out = []))
      ∧ (∀ a p, m.host = some a → m.write = false → m.side = .place p →
        ∃ u : State, exec (.drillMoveDone m) s = .next u.told ∧ u.bytes = Memory.writeAll s.bytes (p.addr m.field) (m.data.take m.bytes) ∧ u.log = s.log ∧ u.out = [])))
  ∧ (∀ (s : State) (job : Nat) (x : Job), Tab.get? s.u.tt.jobs job = some x →
    (∀ n freed, let s' := (s.sending []).tilesFreed (freed.filter (s.mayFree x.ctx))
      (∀ k, Tab.get? s'.u.mem.tiles k = if freed.contains k && s.mayFree x.ctx k then none else Tab.get? s.u.mem.tiles k)
      ∧ (∀ d, s'.allocFault x.ctx n = some d → exec (.tileNumberAllocation job n freed) s = .next (s'.ended job St.CONFIG_INVALID d).told)
      ∧ (s'.allocFault x.ctx n = none → (s'.newHomes n).1.length = n →
        ∃ t : State, exec (.tileNumberAllocation job n freed) s = .next t.told
          ∧ (∀ i < n, ∃ y, Tab.get? t.u.mem.tiles (s'.freeNumbers n + i) = some y ∧ y.ctx = x.ctx ∧ y.lost = none ∧ y.replica = none)
          ∧ (∀ i, (i < s'.freeNumbers n ∨ s'.freeNumbers n + n ≤ i) → Tab.get? t.u.mem.tiles i = Tab.get? s'.u.mem.tiles i)
          ∧ t.objs = s.objs ∧ t.log = s.log ∧ ((∀ h ∈ (s'.newHomes n).1, ∃ k, h = .slot k) → t.out = [])))
    ∧ (∃ t : State, exec (.hostCompletionTimeout job) s = .next t.told ∧ t.jobEnded job St.ACCESS_DENIED 0x0431))

/-- Maintenance of the channels (R180 to R183): a granule that the Gleaner finds clean changes nothing but the grant it may have had, and the last of a pass is counted;
it yields to foreground work, which is counted (R179); a refresh dates its bank. A ZQ calibration, a tracking window and a catch-up refresh that are due start where none
waits before them and fewer than two channels are in one: they are counted with the longest wait they gave, and date the calibration, set the refresh multiple that the
temperature asks for, or refresh all eight banks; where two channels are in one, they wait their turn. -/
def Obligations.ChannelsAreMaintained : Prop :=
  ∀ (s : State) (ch : Nat), ch < 64 →
    (∀ addr row busy, addr % 64 = 0 → addr < s.capacity → s.get Obj.GLEANER_PASS_S ≠ 0 →
      (s.mayWork 0 (s.servingChan addr) busy → exec (.gleanerGranule addr row false false true false busy) s
        = .next ((((s.withMem fun m => { m with overdue := m.overdue.filter (· != (0, s.servingChan addr)) }).sending []).counted 32 Obj.GLEANER_PASSES 1).told))
      ∧ (¬ s.mayWork 0 (s.servingChan addr) busy → ∀ c u e l, exec (.gleanerGranule addr row c u e l busy) s
        = .next (((s.sending []).counted 64 Obj.BG_YIELDS 1).told)))
    ∧ (∀ bank < 8, exec (.perBankRefresh ch bank) s = .next ((s.withMem fun m => { m with refreshed := Tab.set m.refreshed (ch * 8 + bank) s.time }).sending []))
    ∧ (∀ wait mult, wait ≤ 1000 → (mult = 1 ∨ mult = 2 ∨ mult = 4) →
        let now := s.u.mem.windows.filter (fun w => decide (s.time < w.2 + 1000 * 4294967296))
        let o := (((s.withMem fun m => { m with windows := (ch, s.time) :: now }).sending []).counted 64 Obj.MAINT_WINDOWS 1)
        let p := o.putObj Obj.MAINT_MAX_WAIT_NS (max (o.get Obj.MAINT_MAX_WAIT_NS) wait)
        (s.u.mem.dueWindows = [] → now.length < 2 → (∀ w ∈ now, w.1 ≠ ch) →
          exec (.zqCalibration ch wait) s = .next (p.putObj (Obj.LAST_ZQ_TIME ch) s.ns)
          ∧ exec (.dqsTracking ch mult wait) s = .next (p.putObj (Obj.REFRESH_MULT ch) mult)
          ∧ exec (.catchupRefresh ch wait) s = .next (p.withMem fun m => { m with
              refreshed := (List.range 8).foldl (fun t b => Tab.set t (ch * 8 + b) s.time) m.refreshed }))
        ∧ (2 ≤ now.length → ∀ i op, (i = .zqCalibration ch wait ∧ op = .zq) ∨ (i = .dqsTracking ch mult wait ∧ op = .dqs mult) ∨ (i = .catchupRefresh ch wait ∧ op = .catchup) →
          exec i s = .next ((s.withMem fun m => { m with dueWindows := m.dueWindows ++ [(ch, wait, op)] }).sending [])))

/-- Migration (R170 to R172): a period decides that a tile moves to a free slot; verified at its destination, the map entry switches there in one write, and the bytes lie
there; not verified, the migration is aborted and may be retried; a retry after fewer than four aborts begins it again; a switch yields to foreground work (R179). Seed stock's
rebuilt replica, and a home rebuilt from the replica, have the home's bytes (R174, R175). Choices of the model that it rests on: log entries 94 and 164. -/
def Obligations.TilesMigrate : Prop :=
  ∀ (s : State) (t : Nat) (x : Tile), Tab.get? s.u.mem.tiles t = some x →
    (∀ k, s.get Obj.SURVEYOR_PERIOD_US ≠ 0 → s.get Obj.MIGRATE_LIMIT_MBPS ≠ 0 → s.policyRuns = true → x.lost = none → x.migrating = none →
        (∀ r, x.replica = some r → s.apart (.slot k) r = true) → 4096 ≤ s.migrateBytes → s.homeFree (.slot k) = true → s.tileHeld t = false →
        (∀ e ∈ s.u.mem.tiles, e.2.shared = false) →
      ∃ u : State, exec (.surveyorPeriod [.toSlot t k]) s = .next u.told ∧ u.u.mem.tiles = Tab.set s.u.mem.tiles t { x with migrating := some (.slot k), retry := none }
        ∧ s.storesKept u ∧ u.out = [])
    ∧ (∀ h busy, x.migrating = some h →
      (s.mayWork 5 0 busy →
        (s.disjointAt h → ∃ u : State, exec (.migrationSwitch t true busy) s = .next u
          ∧ u.u.mem.tiles = Tab.set s.u.mem.tiles t { x with home := h, migrating := none, retry := none, aborts := 0 }
          ∧ u.mread (s.homeAddr h) 4096 = s.mread (s.homeAddr x.home) 4096 ∧ u.log = s.log ∧ (∀ k, h = .slot k → u.out = []))
        ∧ exec (.migrationSwitch t false busy) s = .next (((s.withMem fun m => { m with
          overdue := m.overdue.filter (· != (5, 0)), tiles := Tab.set m.tiles t { x with migrating := none, retry := some h, aborts := x.aborts + 1 } }).sending []).counted 64
            Obj.MIGRATE_ABORTS 1))
      ∧ (¬ s.mayWork 5 0 busy → ∀ v, exec (.migrationSwitch t v busy) s = .next ((s.sending []).counted 64 Obj.BG_YIELDS 1)))
    ∧ (∀ k, x.retry = some (.slot k) → x.migrating = none → x.lost = none → (∀ r, x.replica = some r → s.apart (.slot k) r = true) → x.aborts < 4 →
        s.homeFree (.slot k) = true → s.tileHeld t = false → (s.u.mem.begun + 1) * 4096 ≤ s.migrateBytes →
      ∃ u : State, exec (.migrationRetry t) s = .next u ∧ Tab.get? u.u.mem.tiles t = some { x with migrating := some (.slot k), retry := none }
        ∧ (∀ i, i ≠ t → Tab.get? u.u.mem.tiles i = Tab.get? s.u.mem.tiles i) ∧ s.storesKept u ∧ u.out = [])
    ∧ (∀ h, x.lost = none → s.homeFree h = true → s.disjointAt h →
      (s.get Obj.SEED_STOCK_EN ≠ 0 → s.apart h x.home = true →
        ∃ u : State, exec (.seedRebuild t none (some h)) s = .next u ∧ u.u.mem.tiles = Tab.set s.u.mem.tiles t { x with replica := some h }
          ∧ u.mread (s.homeAddr h) 4096 = s.mread (s.homeAddr x.home) 4096 ∧ u.log = s.log)
      ∧ ((∀ r, x.replica = some r → s.apart h r = true) →
        ∃ u : State, exec (.seedRebuild t (some h) none) s = .next u ∧ u.u.mem.tiles = Tab.set s.u.mem.tiles t { x with home := h }
          ∧ u.mread (s.homeAddr h) 4096 = s.mread (s.homeAddr x.home) 4096 ∧ u.log = s.log))

/-- Retirement of a channel (R185 to R189): a request begins it where the pieces fit, with its relocation laid out, each batch of stripes that switches sets its progress in
percent, with the last the channel reads RETIRED; a channel that stops answering reads FAILED, and the event tells either with its cause. Choices of the model that it rests
on: log entry 95. -/
def Obligations.ChannelsRetire : Prop :=
  ∀ (s : State) (ch : Nat), ch < 64 →
    (∀ ses, ses < 16 → s.admits ses (Obj.RETIRE_REQUEST ch) 1 .svc → s.get (Obj.CHANNEL_ROLE ch) = 0 → s.retireFits ch = true →
      ∃ t : State, exec (.retireRequest ses ch 1) s = .next t ∧ t.get (Obj.CHANNEL_ROLE ch) = 1 ∧ t.get (Obj.RETIRE_PROGRESS ch) = 0
        ∧ Tab.get? t.u.mem.switched ch = some (0, 0) ∧ (s.unitsNeeded ch 3 s.units = s.units → t.u.mem.relocs = s.u.mem.relocs ++ [s.relocOn s.units ch])
        ∧ t.log = s.log ∧ t.out = replies ses 0)
    ∧ (∀ cause n stripes, Tab.get? s.u.mem.switched ch = some (cause, n) → n + stripes < s.pieces ch →
      exec (.stripeSwitch ch stripes) s = .next (((s.withMem fun m => { m with switched := Tab.set m.switched ch (cause, n + stripes) }).sending []).putObj
        (Obj.RETIRE_PROGRESS ch) ((n + stripes) * 100 / s.pieces ch)))
    ∧ (∀ cause n stripes, Tab.get? s.u.mem.switched ch = some (cause, n) → s.pieces ch ≤ n + stripes →
      ∃ t : State, exec (.stripeSwitch ch stripes) s = .next t ∧ t.get (Obj.CHANNEL_ROLE ch) = 2 ∧ t.get (Obj.RETIRE_PROGRESS ch) = 100
        ∧ t.lastEvent Ev.CHANNEL_RETIRED ch cause 0 ∧ t.log.total = s.log.total + 1 ∧ t.bytes = s.bytes)
    ∧ (s.get (Obj.CHANNEL_ROLE ch) < 2 → s.u.mem.tiles = [] →
      ∃ t : State, exec (.channelDead ch) s = .next t.told ∧ t.get (Obj.CHANNEL_ROLE ch) = 3 ∧ t.lastEvent Ev.CHANNEL_RETIRED ch 2 0
        ∧ t.log.total = s.log.total + 1 ∧ t.bytes = s.bytes)

/-- Leases that this module lends (R165, R166, R169): a request is granted the smaller of what it asks for and the room, in whole slots of one range, and the grant is the
requester's to read; a grant of no slots reads 0; its borrower's writes and reads reach the lent slots and nothing else; it may be given back by its holder, or recalled with
a notice to every session of the borrower, repeated until the notice has run out, when it is revoked. The peer tier as its borrower sees it (R166 to R169): an access that
completes is counted; one that does not complete in time, and any while `PEER_TIMEOUT_US` is 0, is counted as a time-out too and loses a tile without replica; a read that fails
authentication is counted; a lender that is lost, and a notice that runs out, revoke the lease. Choices of the model that it rests on: log entries 5, 45 and 176. -/
def Obligations.LeasesAndPeers : Prop :=
  (∀ (s : State) (ses lease : Nat), ses < 16 →
      (∀ mib qpn rkey base, s.admits ses Obj.LEASE_REQUEST_MIB mib .sup →
          let slots := min (mib * 1048576) (min ((s.get Obj.LEND_LIMIT_MIB - s.lentMib) * 1048576) (min s.slotsFree s.lendable * 4096)) / 4160
          (slots ≠ 0 → s.policyRuns = true →
            exec (.leaseRequest ses mib qpn rkey base) s = .next (((s.puts [(Obj.GRANT_SLOTS ses, slots), (Obj.GRANT_QPN ses, qpn), (Obj.GRANT_RKEY ses, rkey),
              (Obj.GRANT_BASE ses, base), (Obj.GRANT_LEASE_ID ses, s.u.mem.nextLease)]).withMem fun m => { m with
                lent := Tab.set m.lent m.nextLease {
                  slots := slots, base := base, peer := (s.session ses).certKey, first := (s.lendAt (ceilDiv (slots * 4160) 4096)).getD 0 }
                nextLease := if m.nextLease = 65535 then 1 else m.nextLease + 1 }).sending (replies ses 0)))
          ∧ (slots = 0 ∨ s.policyRuns = false → exec (.leaseRequest ses mib qpn rkey base) s = .next ((s.puts [(Obj.GRANT_SLOTS ses, 0), (Obj.GRANT_QPN ses, 0),
              (Obj.GRANT_RKEY ses, 0), (Obj.GRANT_BASE ses, 0), (Obj.GRANT_LEASE_ID ses, 0)]).sending (replies ses 0))))
      ∧ (∀ x, Tab.get? s.u.mem.lent lease = some x →
          (s.admits ses Obj.LEASE_RELEASE lease .sup → x.peer = (s.session ses).certKey →
            exec (.leaseRelease ses lease) s = .next ((s.withMem fun m => { m with lent := Tab.del m.lent lease }).sending (replies ses 0)))
          ∧ (∀ slot bs, slot < x.slots → bs.length = 4160 → exec (.lentSlotRdmaAccess lease slot (some bs)) s
            = .next ({ s with bytes := Memory.writeAll s.bytes (s.slotAddr x.first + slot * 4160) bs, out := [.frame (.peerWrite lease slot) []] }))
          ∧ (∀ slot, slot < x.slots → exec (.lentSlotRdmaAccess lease slot none) s
            = .next (s.sending [.frame (.peerRead lease slot) (s.mread (s.slotAddr x.first + slot * 4160) 4160)]))
          ∧ (∀ slots, s.get Obj.RECALL_NOTICE_MS ≠ 0 → ∃ t : State, exec (.leaseRecall lease slots) s = .next t ∧ s.storesKept t
            ∧ Tab.get? t.u.mem.lent lease = some { x with recalled := some (s.ns + s.get Obj.RECALL_NOTICE_MS * 1000000, slots) })
          ∧ (∀ deadline slots, x.recalled = some (deadline, slots) →
            (∃ t : State, exec (.leaseRecallNotify lease) s = .next t ∧ s.storesKept t ∧ t.u.mem = s.u.mem
              ∧ t.out = ((List.range 14).filter (fun i => s.get (Obj.TRANSPORT (i + 2)) == 3 && (s.session (i + 2)).certKey == x.peer)).map
                  fun i => .notify (i + 2) ((s.session (i + 2)).txSeq + 1) 2 [recallRecord lease slots deadline])
            ∧ exec (.recallNoticeExpiry lease true) s = .next (((s.withMem fun m => { m with lent := Tab.del m.lent lease }).sending []).told))))
  ∧ (∀ (s : State) (n tile : Nat) (job : Option Nat), n < 8 → let c := (s.sending []).counted 64 Obj.PEER_ACCESSES 1
      (∀ write auth, s.get Obj.PEER_TIMEOUT_US ≠ 0 → (write || auth) = true → exec (.peerAccessDone n tile write auth job) s = .next c.told)
      ∧ (Tab.get? s.u.mem.tiles tile = none →
        exec (.peerAccessTimeout n tile job) s = .next (c.counted 32 Obj.PEER_TIMEOUTS 1).told
        ∧ (s.get Obj.PEER_TIMEOUT_US = 0 → ∀ write auth, exec (.peerAccessDone n tile write auth job) s = .next (c.counted 32 Obj.PEER_TIMEOUTS 1).told)
        ∧ (s.get Obj.PEER_TIMEOUT_US ≠ 0 → exec (.peerAccessDone n tile false false job) s = .next (c.counted 32 Obj.PEER_AUTH_FAILS 1).told))
      ∧ (∀ x, Tab.get? s.u.mem.tiles tile = some x → x.lost = none → x.replica = none →
        ∃ t : State, exec (.peerAccessTimeout n tile none) s = .next t.told ∧ Tab.get? t.u.mem.tiles tile = some { x with lost := some 0x0411, migrating := none }
          ∧ t.lastEvent Ev.TILE_LOST x.ctx (s.tileAddr tile) 0x0411 ∧ t.bytes = s.bytes)
      ∧ ((s.get (Obj.LEASE_STATE n) = 1 ∨ s.get (Obj.LEASE_STATE n) = 2) → s.u.mem.tiles = [] →
          exec (.peerLenderLost n) s = .next (((s.putObj (Obj.LEASE_STATE n) 3).sending []).told)
          ∧ exec (.recallNoticeExpiry n false) s = .next (((s.putObj (Obj.LEASE_STATE n) 3).sending []).told)))

/-! ## The Timetable -/

/-- Contexts (R193, R197, R202): opening a CLOSED one sets it OPEN with its counters at zero, closing an OPEN one that nothing keeps open sets it CLOSED, leaves it no tile and
gives up its semaphores, and with no tile and no sequence nothing else changes; one that something keeps open stays so, with an abort; a write of the state it is in does nothing;
clearing returns its counters to zero. Choices of the model that it rests on: log entry 101. -/
def Obligations.ContextsOpenAndClose : Prop :=
  ∀ (s : State) (ses n : Nat), ses < 16 → n < 4096 →
    (s.admits ses (Obj.CTX_STATE n) 1 .sup → s.get (Obj.CTX_STATE n) = 0 →
      exec (.contextOpen ses n) s = .next ((s.puts ((Obj.CTX_STATE n, 1) :: (List.range 9).map fun i => (Obj.ENGINE_NS n + i, 0))).sending (replies ses 0)))
    ∧ (s.admits ses (Obj.CTX_STATE n) 1 .sup → s.get (Obj.CTX_STATE n) = 1 → exec (.contextOpen ses n) s = .next (s.sending (replies ses 0)))
    ∧ (s.admits ses (Obj.CTX_STATE n) 0 .sup → s.get (Obj.CTX_STATE n) = 0 → exec (.contextClose ses n) s = .next (s.sending (replies ses 0)))
    ∧ (s.admits ses (Obj.CTX_STATE n) 0 .sup → s.get (Obj.CTX_STATE n) = 1 → s.ctxBusy n = true →
      exec (.contextClose ses n) s = .next ((s.aborted ses Ab.STATE_FORBIDS (Obj.CTX_STATE n)).sending (replies ses Ab.STATE_FORBIDS)))
    ∧ (s.admits ses (Obj.CTX_STATE n) 0 .sup → s.get (Obj.CTX_STATE n) = 1 → s.ctxBusy n = false → s.u.dict.pendingGroups = [] →
      ∃ t : State, exec (.contextClose ses n) s = .next t ∧ t.get (Obj.CTX_STATE n) = 0 ∧ (∀ e ∈ t.u.mem.tiles, e.2.ctx ≠ n) ∧ (∀ e ∈ t.u.tt.sems, e.2.ctx ≠ n))
    ∧ (s.admits ses (Obj.CTX_STATE n) 0 .sup → s.get (Obj.CTX_STATE n) = 1 → s.ctxBusy n = false → s.u.dict.pendingGroups = [] → (∀ e ∈ s.u.seq.seqs, e.1 / 65536 ≠ n) → (∀ e ∈ s.u.mem.tiles, e.2.ctx ≠ n) →
      ∃ t : State, exec (.contextClose ses n) s = .next t ∧ t.objs = (s.putObj (Obj.CTX_STATE n) 0).objs ∧ t.bytes = s.bytes ∧ t.log = s.log
        ∧ t.u.tt.sems = s.u.tt.sems.filter (fun e => e.2.ctx != n) ∧ t.u.tt.jobs = s.u.tt.jobs ∧ t.u.mem = s.u.mem ∧ t.out = replies ses 0)
    ∧ (s.admits ses (Obj.CTX_CLEAR n) 1 .sup →
      exec (.ctxClear ses n 1) s = .next ((s.puts ((List.range 9).map fun i => (Obj.ENGINE_NS n + i, 0))).sending (replies ses 0)))

/-- A ready job that passes the checks of dispatch, is considered first and finds its fields, its barriers and its grant together is dispatched, engine time counted up to
now (R201): it runs on the offered fields from now. One that a check refuses ends with the check's status (R198). Choices of the model that it rests on: log entries 102 and 169. -/
def Obligations.JobsAreDispatched : Prop :=
  ∀ (s : State) (job : Nat) (place : List Nat) (host : List (Nat × List Byte)) (rows : List LenRow) (x : Job), let a := (s.sending []).accrued
    Tab.get? a.u.tt.jobs job = some x → Wf.jobDispatch job place host rows = true → x.phase = .ready → a.groupPending (0x4000 + x.ctx) = false → a.mayDispatch x = true →
    x.short = false → a.firingWaits x = false → a.another job x = false → x.decl.op = none →
    (∀ st d, a.dispatchFault x host rows = some (st, d) → st ≠ St.KEY_FORMAT → st ≠ St.TABLE_CHANGED → exec (.jobDispatch job place host rows) s = .next (a.ended job st d).told)
    ∧ (a.dispatchFault x host rows = none → a.chunkStream x = none → a.allowed x = true → a.placeFits x place = true →
      a.u.tt.bars.length + x.decl.barriers.length ≤ 256 → a.answerRail x.decl.fields x.decl.power (a.get (Obj.PREFERRED_MV x.ctx)) place.eraseDups = some (a.get (Obj.PREFERRED_MV x.ctx)) →
      ∃ t : State, exec (.jobDispatch job place host rows) s = .next t.told
        ∧ (x.decl.tiles = [] → ∃ y, Tab.get? t.u.tt.jobs job = some y ∧ y.phase = .running ∧ y.place = place ∧ y.dispatched = some s.time ∧ y.decl = x.decl ∧ y.run = x.run ∧ y.ctx = x.ctx))

/-- A running job from its yield points to its end (R200, R217 to R219): asked to pause it saves at its next yield point, asked to stop it ends there; with its state saved it is
paused and gives its fields and its grant back, and offered fields that have room it runs again; ended, it is told as ended with the status it ends with; a job left waiting for
power asks again after its back-off (R205). Choices of the model that it rests on: log entries 103 and 173. -/
def Obligations.JobsPauseResumeAndEnd : Prop :=
  ∀ (s : State) (job : Nat) (x : Job), Tab.get? s.u.tt.jobs job = some x →
    (x.phase = .draining → x.evac = false → x.decl.fullSave = false → x.decl.op = none →
      (x.stop = none → ∀ steps, exec (.jobYieldPoint job steps) s = .next (((s.withJob job fun y => { y with mayPause := true, phase := .saving }).sending []).told))
      ∧ (∀ st d, x.stop = some (st, d) → s.overRange job [] = false → ∃ t : State, exec (.jobYieldPoint job []) s = .next t.told ∧ t.jobEnded job st d))
    ∧ (x.phase = .saving →
      ∃ t : State, exec (.jobSaveDone job) s = .next t.told
        ∧ ∃ y, Tab.get? t.u.tt.jobs job = some y ∧ y.phase = .paused ∧ y.saved = true ∧ y.place = [] ∧ y.units = 0 ∧ y.decl = x.decl)
    ∧ (∀ place, Wf.jobResume job place = true → x.phase = .paused → s.groupPending (0x4000 + x.ctx) = false → s.mayDispatch x = true → x.short = false → s.allowed x = true →
        s.placeFits x place = true →
        s.answerRail x.decl.fields x.decl.power (s.get (Obj.PREFERRED_MV x.ctx)) place.eraseDups = some (s.get (Obj.PREFERRED_MV x.ctx)) →
      ∃ t : State, exec (.jobResume job place) s = .next t.told ∧ ∃ y, Tab.get? t.u.tt.jobs job = some y ∧ y.phase = .running ∧ y.place = place ∧ y.decl = x.decl)
    ∧ (∀ r, Wf.jobEnd job r = true → (x.phase = .running ∨ x.phase = .draining) → x.merged = none → x.wait = none → x.decl.op = none → s.overRange job r.steps = false → r.steps = [] →
        (∀ y f k, Tab.get? s.u.tt.runs x.run = some y → y.owner = .golden f k → s.goldLoss y = none) →
      ∃ t : State, exec (.jobEnd job r) s = .next t.told ∧ t.jobEnded job r.status r.detail)
    ∧ (x.phase = .ready → x.short = true → exec (.grantRetry job) s = .next (((s.sending []).counted 64 Obj.GRANT_BACKOFFS 1).withJob job fun y => { y with short := false }))

/-- Furrow commands (R213): a STOPPED furrow of an open context is armed, with nothing triggered yet; an ARMED one with nothing queued or running stops at once, and with
firings left stops once they have ended; a STOPPED one is cleared to its reset values. A trigger that an ARMED furrow accepts, with nothing queued and none to be divided
away, makes a firing (R208, R210, R212): it is counted, it stands in the furrow's queue, and its one stage is a ready job of the furrow's context. A tick is a trigger
whose ToV is its place in the furrow's period (R209). Choices of the model that it rests on: log entry 48. -/
def Obligations.FurrowsArmAndFire : Prop :=
  (∀ (s : State) (ses : Nat), ses < 16 → let f := s.selected ses; f < 256 →
    (s.admits ses (Obj.FURROW_COMMAND f) 1 .sup → s.get (Obj.FURROW_STATE f) = 1 → s.get (Obj.CTX_STATE (s.get (Obj.F_CONTEXT f))) = 1 →
      exec (.furrowArm ses) s = .next ((((s.puts [(Obj.FURROW_STATE f, 2), (Obj.ARMED_MASK (f / 64), setBit (s.get (Obj.ARMED_MASK (f / 64))) (f % 64))] |>.puts
        (if s.get (Obj.GOLDEN_EVERY f) = 0 then [] else [(Obj.GOLDEN_STATUS f, 0), (Obj.GOLDEN_FIRING f, 0xFFFFFFFFFFFFFFFF)])).withTt fun t => { t with
        furrows := Tab.upd t.furrows f {} fun x => { x with sinceFiring := 0, ports := 0, portTov := none, goldenLost := true } }).sending (replies ses 0)).told))
    ∧ (s.admits ses (Obj.FURROW_COMMAND f) 2 .sup → s.get (Obj.FURROW_STATE f) = 2 →
      ∃ t : State, exec (.furrowStop ses) s = .next t.told ∧ t.out = replies ses 0 ∧ t.bytes = s.bytes ∧ t.log = s.log
        ∧ ((s.furrow f).live = [] ∧ (s.furrow f).queue = [] → t.get (Obj.FURROW_STATE f) = 1 ∧ (t.furrow f).stopping = false)
        ∧ ((s.furrow f).live ≠ [] ∨ (s.furrow f).queue ≠ [] → t.objs = s.objs ∧ (t.furrow f).stopping = true))
    ∧ (s.admits ses (Obj.FURROW_COMMAND f) 3 .sup → s.get (Obj.FURROW_STATE f) = 1 →
      exec (.furrowClear ses) s = .next ((s.puts ((Obj.FURROW_STATE f, 0) :: furrowGroup.map fun i => (Obj.FURROW_STATE f - 1 + i, Obj.reset (Obj.FURROW_STATE f - 1 + i)))).sending (replies ses 0))))
  ∧ (∀ (s : State) (f tov frac : Nat) (e : Entry) (d : Decl), f < 256 → frac < 65536 → s.get (Obj.FURROW_STATE f) = 2 → (s.furrow f).stopping = false → s.dev ≠ Dev.HOLD →
    s.u.dict.pendingGroups = [] → (s.furrow f).sinceFiring = 0 → (s.furrow f).queue = [] → s.get (Obj.GOLDEN_EVERY f) = 0 → s.get (Obj.FIRINGS f) + 1 < 2 ^ 64 →
    s.entryOf (s.get (Obj.F_PROGRAM f)) (s.get (Obj.F_ENTRY f)) = some e → e.stages = [d] → d.fields ≠ 0 → d.op = none → d.chunk = none → d.deps = [] →
    (∀ j ∈ s.u.tt.jobs, j.2.run ≠ s.u.tt.nextRun) →
    (∃ t : State, exec (.furrowTrigger f tov frac false) s = .next t.told ∧ t.get (Obj.FIRINGS f) = s.get (Obj.FIRINGS f) + 1 ∧ (t.furrow f).queue = [s.u.tt.nextRun]
      ∧ (∀ k, k ≠ Obj.FIRINGS f → t.get k = s.get k) ∧ t.bytes = s.bytes ∧ t.log = s.log ∧ t.out = []
      ∧ (∃ r, Tab.get? t.u.tt.runs s.u.tt.nextRun = some r ∧ r.tov = tov ∧ r.tovFrac = frac ∧ r.owner = .firing f (s.get (Obj.FIRINGS f) + 1))
      ∧ ∃ j, Tab.get? t.u.tt.jobs s.u.tt.nextJob = some j ∧ j.phase = .ready ∧ j.run = s.u.tt.nextRun ∧ j.decl = d ∧ j.ctx = s.get (Obj.F_CONTEXT f))
    ∧ (∀ k, s.get (Obj.TRIGGER_KIND f) = 2 → s.get (Obj.TRIGGER_PERIOD_NS f) ≠ 0 →
      exec (.tickTrigger f k) s = exec (.furrowTrigger f (s.get (Obj.TRIGGER_PHASE_NS f) + k * s.get (Obj.TRIGGER_PERIOD_NS f)) 0 false) s))

/-- Semaphores (R221, R222, R224): an acquire of a semaphore with units left takes one, in rising order; a release with no waiter returns one; an acquire with no limit
or with a timeout and no unit left waits; a wait that times out is given up, one with no limit never. -/
def Obligations.SemaphoresCount : Prop :=
  ∀ (s : State) (job rank i : Nat) (x : Job) (y : Sem), Tab.get? s.u.tt.jobs job = some x → Tab.get? s.u.tt.sems i = some y →
    (∀ us lim, Wf.semaphoreAcquire job rank us lim = true → x.active = true → s.semFor x rank = some i → (∀ h ∈ x.held, h < i) → 1 ≤ y.count →
      exec (.semaphoreAcquire job rank us lim) s = .next (((s.withTt fun t => { t with
        sems := Tab.set t.sems i { y with count := y.count - 1 }, jobs := Tab.set t.jobs job { x with held := i :: x.held } }).sending []).told))
    ∧ (∀ us lim, (us ≠ 0 ∨ lim = true) → x.active = true → s.semFor x rank = some i → (∀ h ∈ x.held, h < i) → y.count = 0 → x.stop = none →
      ∃ t : State, exec (.semaphoreAcquire job rank us lim) s = .next t.told ∧ (∃ z, Tab.get? t.u.tt.jobs job = some z ∧ z.wait = some i)
        ∧ (∃ z, Tab.get? t.u.tt.sems i = some z ∧ z.waiters = y.waiters ++ [job] ∧ z.count = 0) ∧ t.bytes = s.bytes ∧ t.log = s.log)
    ∧ (x.active = true → s.semFor x rank = some i → y.count < y.max → y.waiters = [] →
      ∃ t : State, exec (.semaphoreRelease job rank) s = .next t.told ∧ (∃ z, Tab.get? t.u.tt.jobs job = some z ∧ z.held = x.held.erase i)
        ∧ (∃ z, Tab.get? t.u.tt.sems i = some z ∧ z.count = y.count + 1) ∧ t.bytes = s.bytes ∧ t.log = s.log)
    ∧ (x.wait = some i → x.noLimit = true → exec (.semaphoreTimeout job) s = .next (s.sending []).told)
    ∧ (x.wait = some i → x.noLimit = false → y.waiters.contains job = true →
      ∃ t : State, exec (.semaphoreTimeout job) s = .next t.told ∧ (∃ z, Tab.get? t.u.tt.jobs job = some z ∧ z.wait = none)
        ∧ (∃ z, Tab.get? t.u.tt.sems i = some z ∧ z.waiters = y.waiters.filter (· != job) ∧ z.count = y.count) ∧ t.bytes = s.bytes ∧ t.log = s.log)

/-- Accounting (R203, R229, R233): a floor window that ends begins the next with nothing granted; a domain's energy is counted to it; a job that has waited on a semaphore, or at
a barrier that others have reached, for longer than the limit is reported, once, with the milliseconds it has waited. Choices of the model that it rests on: log entry 55. -/
def Obligations.TimetableAccounts : Prop :=
  ∀ s : State,
    (∃ t : State, exec .floorWindowEnd s = .next t ∧ t.u.tt.window = [] ∧ t.bytes = s.bytes ∧ t.log = s.log ∧ t.out = [])
    ∧ (∀ d uj, Wf.energyInterval d uj = true → s.get (Obj.DOM_ENERGY_UJ d) + uj < 2 ^ 64 → ∃ t : State, exec (.energyInterval d uj) s = .next t
        ∧ t.get (Obj.DOM_ENERGY_UJ d) = s.get (Obj.DOM_ENERGY_UJ d) + uj ∧ t.bytes = s.bytes ∧ t.log = s.log ∧ t.out = [])
    ∧ (∀ job x, Tab.get? s.u.tt.jobs job = some x → s.get Obj.BLOCK_REPORT_MS ≠ 0 → let ms := 4294967296000000
      (∀ i, x.wait = some i → x.reported = false → s.get Obj.BLOCK_REPORT_MS * ms < s.time - x.waitFrom →
        exec (.blockReport job) s = .next ((((s.sending []).counted 32 Obj.BLOCK_REPORTS 1).logged
          Ev.BLOCK_REPORT x.ctx i ((s.time - x.waitFrom) / ms % 2147483648)).withJob job fun y => { y with reported := true }))
      ∧ (∀ b y, x.wait = none → x.bars = [b] → Tab.get? s.u.tt.bars b = some y → y.arrived ≠ 0 → y.reported = false → s.get Obj.BLOCK_REPORT_MS * ms < s.time - y.since →
        exec (.blockReport job) s = .next ((((s.sending []).counted 32 Obj.BLOCK_REPORTS 1).logged
          Ev.BLOCK_REPORT x.ctx b (2147483648 + (s.time - y.since) / ms % 2147483648)).withTt fun t => { t with bars := Tab.set t.bars b { y with reported := true } })))

/-! ## The safety island -/

/-- A condition of a cause that begins (R398, R399, R403, R535): the cause is active and latched, counted and logged after all that stands in the log, its event telling
the causes that are then active. A reaction of 1 or 2 takes an OPERATIONAL device to SAFE-HOLD, where the island drives SAFE_HOLD_N low unless cause 1 is the only one
since, and where a native job that runs for no kept furrow drains to end with SAFETY_HOLD (R214); a reaction of 2 de-energises both outputs. In a state other than those
two nothing else happens. -/
def Obligations.CausesAreRaised : Prop :=
  ∀ (s : State) (b i : Nat), b < 15 → i < 65536 → s.causeActive b i = false → s.get Obj.SAFETY_EVENTS + 1 < 2 ^ 32 →
    let t := s.raised b i
    ((s.dev = Dev.OP → s.reaction b i ≠ 0 → s.u.tt.jobs = [] ∧ ∀ e ∈ s.u.tt.furrows, e.2.queue = []) →
        bit (t.get Obj.LATCHED_CAUSES) b = true ∧ t.get Obj.SAFETY_EVENTS = s.get Obj.SAFETY_EVENTS + 1 ∧ t.bytes = s.bytes ∧ t.time = s.time)
    ∧ (s.dev ≠ Dev.OP → t.dev = s.dev ∧ t.lastEvent (0x0E00 + b) (causeInstance b i) (setBit (s.get Obj.ACTIVE_CAUSES) b) b ∧ t.log.total = s.log.total + 1)
    ∧ (s.dev ≠ Dev.OP → s.dev ≠ Dev.HOLD → t.causeActive b i = true ∧ t.get Obj.ACTIVE_CAUSES = setBit (s.get Obj.ACTIVE_CAUSES) b
        ∧ t.get Obj.OUT_STATE = (if s.reaction b i = 2 then 0 else s.get Obj.OUT_STATE)
        ∧ ∀ k, k ≠ Obj.ACTIVE_CAUSES → k ≠ Obj.LATCHED_CAUSES → k ≠ Obj.SAFETY_EVENTS → k ≠ Obj.OUT_STATE → t.get k = s.get k)
    ∧ (s.dev = Dev.OP → s.reaction b i = 0 → t.dev = Dev.OP ∧ t.get Obj.OUT_STATE = s.get Obj.OUT_STATE ∧ t.causeActive b i = true)
    ∧ (s.dev = Dev.OP → s.reaction b i ≠ 0 → s.u.tt.jobs = [] → (∀ e ∈ s.u.tt.furrows, e.2.queue = []) →
        t.dev = Dev.HOLD ∧ t.lastEvent (0x0E00 + b) (causeInstance b i) (setBit (s.get Obj.ACTIVE_CAUSES) b) b ∧ t.log.total = s.log.total + 1
        ∧ (s.reaction b i = 2 → t.get Obj.OUT_STATE = 0) ∧ (b ≠ 1 → t.u.safe.driving = true ∧ t.causeActive b i = true ∧ (s.u.safe.driving = false → t.get Obj.HOLD_N_LEVEL = 0))
        ∧ (b = 1 → t.u.safe.driving = s.u.safe.driving))
    ∧ (∀ j x r, s.dev = Dev.OP → s.reaction b i ≠ 0 → s.u.tt.jobs = [(j, x)] → x.phase = .running → x.decl.fullSave = false → x.wait = none →
        Tab.get? s.u.tt.runs x.run = some r → s.keptRun r = false → (∀ e ∈ s.u.tt.furrows, e.2.queue = []) →
        t.dev = Dev.HOLD ∧ ∃ y, Tab.get? t.u.tt.jobs j = some y ∧ y.stop = some (St.SAFETY_HOLD, 0) ∧ y.phase = .draining ∧ y.decl = x.decl)

/-- The voter (R395 to R397): a tick in which all active Prefects give the same output changes only the safety tasks' budget figure, and the clock monitor's word begins or ends cause 13; a Prefect whose output differs from
the two others', or is missing, is counted odd and resynchronised; three different outputs, and two active ones that differ, are a vote failure, cause 0. A resynchronised core rejoins; one that takes
too long is retired, its place taken by the reserve core, or by none, which is reported. Choices of the model that it rests on: log entry 128. -/
def Obligations.VoterFindsOddCores : Prop :=
  ∀ (s : State) (outs : List (Option Nat)) (us : Nat), Wf.safetyTick outs us none = true → s.u.safe.slice = none →
    let active := (List.range 4).filter fun k => s.coreRole k == 0
    let out (k : Nat) : Option Nat := outs.getD k none
    let b := (((s.withSafe fun x => { x with taskUs := (s.time, us) :: x.taskUs.filter fun e => decide (s.time ≤ e.1 + 1000000000 * 4294967296) }).putObj Obj.TASK_BUDGET_US
      (((s.time, us) :: s.u.safe.taskUs.filter fun e => decide (s.time ≤ e.1 + 1000000000 * 4294967296)).foldl (fun m e => max m e.2) 0)).sending [])
    ((∀ k ∈ active, ∀ j ∈ active, out k = out j) → exec (.safetyTick outs us none) s = .next b.told
        ∧ ∀ m, exec (.safetyTick outs us (some m)) s = .next (if m then b.raised 13 0 else b.ceased 13 0).told)
    ∧ (∀ i j k, active = [i, j, k] → out i ≠ out j → out i ≠ out k → out j ≠ out k → exec (.safetyTick outs us none) s = .next (b.raised 0 0).told)
    ∧ (∀ i j k v, active.length = 3 → [i, j, k].Perm active → out i = some v → out j = some v → out k ≠ some v → s.get Obj.ODD_EVENTS + 1 < 2 ^ 32 →
        ((s.u.safe.odd.filter fun e => decide (s.time ≤ e.1 + 86400000000000 * 4294967296)).filter fun e => e.2 == k).length + 1 < s.get Obj.ODD_LIMIT →
        ∃ t : State, exec (.safetyTick outs us none) s = .next t.told ∧ t.get Obj.ODD_EVENTS = s.get Obj.ODD_EVENTS + 1 ∧ t.coreRole k = 2 ∧ t.get Obj.VOTE_MODE = 1
          ∧ t.u.safe.resync = some k ∧ (∀ m, m < 4 → m ≠ k → t.coreRole m = s.coreRole m) ∧ t.bytes = s.bytes ∧ t.log = s.log ∧ t.out = [])
    ∧ (∀ i j, active = [i, j] → out i ≠ out j → exec (.safetyTick outs us none) s = .next (b.raised 0 0).told)
    ∧ (∀ k, s.u.safe.resync = some k → k < 4 → s.get Obj.RESYNCS + 1 < 2 ^ 32 →
        (∀ ns, ns ≤ 80000 → Wf.resyncDone ns = true → ∃ t : State, exec (.resyncDone ns) s = .next t ∧ t.coreRole k = 0 ∧ t.get Obj.VOTE_MODE = 0
          ∧ t.get Obj.RESYNCS = s.get Obj.RESYNCS + 1 ∧ t.get Obj.LAST_RESYNC_NS = ns ∧ t.u.safe.resync = none ∧ t.bytes = s.bytes ∧ t.log = s.log ∧ t.out = [])
        ∧ (∀ r, (List.range 4).find? (fun i => s.coreRole i == 1) = some r → r ≠ k → ∃ t : State, exec .resyncTimeout s = .next t ∧ t.coreRole k = 3 ∧ t.coreRole r = 2
          ∧ t.get Obj.RESERVE_LEFT = 0 ∧ t.get Obj.VOTE_MODE = 1 ∧ t.u.safe.resync = some r ∧ t.bytes = s.bytes ∧ t.log = s.log ∧ t.out = [])
        ∧ ((∀ i, i < 4 → s.coreRole i ≠ 1) → ∃ t : State, exec .resyncTimeout s = .next t ∧ t.coreRole k = 3 ∧ t.get Obj.VOTE_MODE = 2 ∧ t.u.safe.resync = none
          ∧ t.lastEvent Ev.TWO_OF_TWO k (t.get Obj.CORE_ROLES) 0 ∧ t.log.total = s.log.total + 1 ∧ t.bytes = s.bytes))

/-- Safety inputs, outputs and the line (R401 to R403): both channels open are a demand, cause 2; one open and one closed for longer than the limit is a demand and cause
3; both closed end cause 2, and cause 3 once both have been seen open; another party that pulls the line low while the island does not is cause 1; a readback fault is
counted and is cause 4; an energised output carries its test pulse. Choices of the model that it rests on: log entry 129. -/
def Obligations.SafetyInputsAndOutputs : Prop :=
  ∀ s : State, s.u.safe.slice = none →
    (s.causeActive 2 0 = false → exec (.safetyInputChange false false) s
      = .next ((((s.putObj Obj.IN_STATE 0).sending []).withSafe fun x => { x with bothOpen := true }).counted 32 Obj.IN_DEMANDS 1 |>.raised 2 0).told)
    ∧ exec (.safetyInputChange true true) s
      = .next (if s.u.safe.bothOpen then (((s.putObj Obj.IN_STATE 3).sending []).ceased 2 0).ceased 3 0 else ((s.putObj Obj.IN_STATE 3).sending []).ceased 2 0).told
    ∧ exec (.safetyInputChange true false) s = .next ((s.putObj Obj.IN_STATE 1).sending []).told
    ∧ exec (.safetyInputChange false true) s = .next ((s.putObj Obj.IN_STATE 2).sending []).told
    ∧ ((s.get Obj.IN_STATE = 1 ∨ s.get Obj.IN_STATE = 2) → s.causeActive 3 0 = false →
        exec .discrepancyTimeout s = .next ((((s.sending []).withSafe fun x => { x with bothOpen := false }).counted 32 Obj.IN_DEMANDS 1).raised 3 0).told)
    ∧ (s.u.safe.driving = false →
        exec (.safeHoldNChange true) s = .next ((((s.withSafe fun x => { x with othersLow := true }).putObj Obj.HOLD_N_LEVEL 0).sending []).raised 1 0).told
        ∧ exec (.safeHoldNChange false) s = .next ((((s.withSafe fun x => { x with othersLow := false }).putObj Obj.HOLD_N_LEVEL 1).sending []).ceased 1 0).told)
    ∧ (∀ ch, ch < 2 → exec (.readbackFault ch) s = .next (((s.sending []).counted 32 Obj.OUT_FAULTS 1).raised 4 0).told)
    ∧ (∀ ch, ch < 2 → bit (s.get Obj.OUT_STATE) ch = true →
        exec (.outputTestPulse ch true) s = .next ((s.withSafe fun x => { x with pulses := ch :: x.pulses.filter (· != ch) }).sending [.pin (if ch = 0 then .outA else .outB) false])
        ∧ exec (.outputTestPulse ch false) s = .next ((s.withSafe fun x => { x with pulses := x.pulses.filter (· != ch) }).sending [.pin (if ch = 0 then .outA else .outB) true]))

/-- What a Safety session can do to the island (R398, R400): an acknowledgement is refused while a cause of reaction 1 or 2 is active; in OPERATIONAL it keeps latched
the causes of such a reaction; in SAFE-HOLD it returns the device to OPERATIONAL with the line released; in another state it clears the latches. Both outputs are
energised together, in OPERATIONAL with both inputs closed only. A request for SAFE-HOLD is cause 12, whose end ends it. Choices of the model that it rests on: log entry
130. -/
def Obligations.SafetyWrites : Prop :=
  ∀ (s : State) (ses : Nat), ses < 16 →
    (s.admits ses Obj.SAFETY_ACK 1 .saf →
      (s.blocking = true → ∃ t : State, exec (.safetyAck ses 1) s = .next t ∧ t.out = replies ses Ab.STATE_FORBIDS ∧ t.u = s.u ∧ t.bytes = s.bytes ∧ t.log = s.log
        ∧ t.get Obj.LATCHED_CAUSES = s.get Obj.LATCHED_CAUSES ∧ t.dev = s.dev)
      ∧ (s.blocking = false → s.dev = Dev.OP →
        exec (.safetyAck ses 1) s = .next ((s.putObj Obj.LATCHED_CAUSES (s.get Obj.LATCHED_CAUSES &&& s.u.safe.latchedHigh)).sending (replies ses 0)))
      ∧ (s.blocking = false → s.dev ≠ Dev.OP → s.dev ≠ Dev.HOLD →
        exec (.safetyAck ses 1) s = .next (((s.putObj Obj.LATCHED_CAUSES 0).withSafe fun x => { x with latchedHigh := 0 }).sending (replies ses 0)))
      ∧ (s.blocking = false → s.dev = Dev.HOLD → s.u.safe.othersLow = false → s.quiet → s.u.ctrl.ch = [] →
        ∃ t : State, exec (.safetyAck ses 1) s = .next t ∧ t.dev = Dev.OP ∧ t.get Obj.LATCHED_CAUSES = 0 ∧ t.u.safe.driving = false
          ∧ (s.u.safe.driving = true → t.get Obj.HOLD_N_LEVEL = 1 ∧ .pin .safeHoldN true ∈ t.out)
          ∧ t.get Obj.OUT_STATE = s.get Obj.OUT_STATE ∧ t.bytes = s.bytes ∧ t.log = s.log))
    ∧ (s.admits ses Obj.OUTPUTS_ENABLE 1 .saf → s.dev = Dev.OP → s.get Obj.IN_STATE = 3 →
        exec (.outputsEnable ses 1) s = .next ((s.putObj Obj.OUT_STATE 3).sending
          ((if s.get Obj.OUT_STATE = 3 then [] else [.pin .outA true, .pin .outB true]) ++ replies ses 0)))
    ∧ (s.admits ses Obj.SAFE_HOLD_REQUEST 0 .saf →
        exec (.safeHoldRequest ses 0) s = .next ((((s.putObj Obj.SAFE_HOLD_REQUEST 0).sending []).ceased 12 0).told.also (replies ses 0)))
    ∧ (∀ v, 1 ≤ v → v ≤ 2 → s.admits ses Obj.SAFE_HOLD_REQUEST v .saf → s.causeActive 12 0 = false →
        exec (.safeHoldRequest ses v) s = .next ((((s.putObj Obj.SAFE_HOLD_REQUEST v).sending []).raised 12 0).told.also (replies ses 0)))

/-- Check values, end-to-end windows and the Quiz (R398, R408 to R413): a unit's run that agrees with what it is compared with, what is expected, the CRC recorded for the
item it visits, or that of a program image, a contents of zero length too, is counted and ends its cause, one that does not is counted and raises it; an end-to-end window
that ends below the limit ends the source's cause 5; a slice of the checker whose interval expires soonest starts where none is in progress, on an engine that no job is
granted, and is put off where a safety task is ready; the slice that completes a pass dates it and ends its warnings; a slice not flagged is a failure of its checker,
cause 8; an interval without a pass is cause 7; the six algorithms give the check values of R409. Choices of the model that it rests on: log entries 129, 130 and 184. -/
def Obligations.ChecksAndQuiz : Prop :=
  ∀ s : State,
    (∀ n data image v, Wf.checkUnitRun n data image = true → (s.get (Obj.CV_KIND n) = 0 → data.length = s.get (Obj.CV_LENGTH n)) → s.cvWant n image = some v →
      let r := crc (s.get (Obj.CV_ALGORITHM n)) data
      let ran (t : State) : State := ((t.withSafe fun x => { x with visit := Tab.upd x.visit n 0 (· + 1) }).putObj (Obj.CV_RESULT n) r).counted 64 (Obj.CV_RUNS n) 1
      let b := ran (s.sending [])
      (Dev.PREOP ≤ s.dev → s.get (Obj.DOM_STATE 78) = 2 → s.get (Obj.CV_PERIOD_MS n) ≠ 0 →
        (r = v → exec (.checkUnitRun n data image) s = .next (b.ceased 14 n))
        ∧ (r ≠ v → exec (.checkUnitRun n data image) s = .next ((b.counted 32 (Obj.CV_MISMATCHES n) 1).raised 14 n).told))
      ∧ (∀ ses, ses < 16 → s.admits ses (Obj.CV_RUN n) 1 .saf → r = v →
          exec (.cvRun ses n 1 data image) s = .next (((ran ((s.sending []).needing 78)).ceased 14 n).also (replies ses 0))))
    ∧ (∀ source, source < 65536 → source ∉ s.u.safe.overLimit → exec (.e2eWindowEnd source) s = .next (((s.sending []).ceased 5 source).withSafe fun x => { x with
        e2e := Tab.del x.e2e source, overLimit := x.overLimit.filter (· != source) }))
    ∧ (∀ c k unit, c < 16 → s.u.safe.resync = none → s.u.safe.slice = none → k < s.get (Obj.SLICES_PER_PASS c) →
        (∀ f e, unit = some (f, e) → e ∈ s.freeEngines f) → (∀ i < 16, s.quizDue c ≤ s.quizDue i) →
        exec (.quizSliceStart c k false unit) s = .next ((s.withSafe fun x => { x with slice := some (c, k), sliceUnit := unit }).sending [])
        ∧ exec (.quizSliceStart c k true unit) s = .next ((s.sending []).counted 32 (Obj.SLICES_DEFERRED c) 1))
    ∧ (∀ c k sensor, s.u.safe.slice = some (c, k) → sensor < 128 →
        let now := k :: (Tab.at s.u.safe.quiz c []).filter (· != k)
        (now.length < s.get (Obj.SLICES_PER_PASS c) →
          exec (.quizSliceDone true sensor) s = .next ((s.withSafe fun x => { x with slice := none, sliceUnit := none, quiz := Tab.set x.quiz c now }).sending []))
        ∧ (s.get (Obj.SLICES_PER_PASS c) ≤ now.length → c < 11 → s.get (Obj.QUIZ_PASSES c) + 1 < 2 ^ 32 → ∃ t : State, exec (.quizSliceDone true sensor) s = .next t
          ∧ t.get (Obj.QUIZ_PASSES c) = s.get (Obj.QUIZ_PASSES c) + 1 ∧ t.get (Obj.LAST_PASS_TIME c) = s.ns ∧ bit (t.get Obj.LATENT_MASK) c = false
          ∧ t.causeActive 7 c = false ∧ t.causeActive 8 c = false ∧ t.u.safe.slice = none ∧ t.bytes = s.bytes ∧ t.log = s.log ∧ t.out = [])
        ∧ ((c ≠ 10 ∨ s.u.pow.failed.contains sensor = true) → s.causeActive 8 c = false → exec (.quizSliceDone false sensor) s = .next (((((s.withSafe fun x => { x with
            slice := none, sliceUnit := none, quiz := Tab.set x.quiz c ((Tab.at x.quiz c []).filter (· != k)) }).sending []).counted 32 (Obj.QUIZ_FAILS c) 1).raised 8 c).told)))
    ∧ (∀ c, c < 16 → (s.quizDue c ≤ s.ns → s.causeActive 7 c = false →
        exec (.diagIntervalExpiry c) s = .next ((((s.putObj Obj.LATENT_MASK (setBit (s.get Obj.LATENT_MASK) c)).sending []).counted 32 (Obj.INTERVAL_OVERRUNS c) 1).raised 7 c).told)
      ∧ (s.ns < s.quizDue c → exec (.diagIntervalExpiry c) s = .next (s.sending [])))
    ∧ (List.range 6).map (fun c => crc c [0x31, 0x32, 0x33, 0x34, 0x35, 0x36, 0x37, 0x38, 0x39]) = [0x4B, 0x29B1, 0xCBF43926, 0xE3069283, 0x1697D06A, 0x6C40DF5F0B497347]

/-! ## Power -/

/-- Steps and droops (R418, R429 to R431): an increment moves a rail by at most 10 mV towards the step's rail; the increment that reaches it gives the pacer its step,
counts the step (unless it leads back from an abandoned one) and frees what the step held; a frozen step does not move; a droop is counted and freezes a step in progress; the ninth within a millisecond abandons it, which goes back to the point
before it and is reported; a step resumes once the droop has cleared; a hold-off that ends lets its domain go to the point in force. Choices of the model that it rests on: log entry 131. -/
def Obligations.RailsStep : Prop :=
  ∀ (s : State) (d : Nat), d < 80 →
    let counts (st : Step) (t : State) : State := if st.back then t else t.counted 32 (Obj.DOM_STEPS d) 1
    let reached (st : Step) (t : State) : State :=
      ((counts st ((t.accrued.puts (pacerSlots d st.pacer)).withPow fun x => { x with steps := Tab.del x.steps d })).arrived d).offered
    (∀ st, Tab.get? s.u.pow.steps d = some st →
      let v := s.get (Obj.DOM_RAIL_MV d)
      let w := if v < st.mv then min st.mv (v + 10) else max st.mv (v - 10)
      (st.frozen = true → exec (.railIncrement d) s = .next (s.sending []))
      ∧ (st.frozen = false → w ≠ st.mv → exec (.railIncrement d) s = .next ((s.puts (railSlots d w)).sending []))
      ∧ (st.frozen = false → w = st.mv → exec (.railIncrement d) s = .next (reached st ((s.puts (railSlots d w)).sending []))))
    ∧ (s.powered d = false → exec (.droopDetect d) s = .next (s.sending []))
    ∧ (s.powered d = true → s.get (Obj.DOM_DROOPS d) + 1 < 2 ^ 32 → Tab.get? s.u.pow.steps d = none → ∃ t : State, exec (.droopDetect d) s = .next t
        ∧ t.get (Obj.DOM_DROOPS d) = s.get (Obj.DOM_DROOPS d) + 1 ∧ d ∈ t.u.pow.droop ∧ t.u.pow.steps = s.u.pow.steps ∧ t.u.tt = s.u.tt ∧ t.bytes = s.bytes ∧ t.log = s.log ∧ t.out = [])
    ∧ (s.powered d = true → s.get (Obj.DOM_DROOPS d) + 1 < 2 ^ 32 → ∀ st n, Tab.get? s.u.pow.steps d = some st →
        n = s.time :: st.droops.filter (fun t => decide (s.time ≤ t + 4294967296000000)) →
      (n.length ≤ 8 ∨ st.back = true → ∃ t : State, exec (.droopDetect d) s = .next t ∧ t.get (Obj.DOM_DROOPS d) = s.get (Obj.DOM_DROOPS d) + 1 ∧ d ∈ t.u.pow.droop
        ∧ Tab.get? t.u.pow.steps d = some { st with frozen := true, droops := n } ∧ t.u.tt = s.u.tt ∧ t.bytes = s.bytes ∧ t.log = s.log ∧ t.out = [])
      ∧ (8 < n.length → st.back = false → s.get (Obj.DOM_STEP_ABANDONS d) + 1 < 2 ^ 32 → ∃ t : State, exec (.droopDetect d) s = .next t.offered
        ∧ t.get (Obj.DOM_DROOPS d) = s.get (Obj.DOM_DROOPS d) + 1
        ∧ t.get (Obj.DOM_STEP_ABANDONS d) = s.get (Obj.DOM_STEP_ABANDONS d) + 1 ∧ t.get (Obj.DOM_TARGET_MV d) = st.oldMv % 2 ^ 64 ∧ d ∈ t.u.pow.heldOff
        ∧ (∃ y, Tab.get? t.u.pow.steps d = some y ∧ y.mv = st.oldMv ∧ y.pacer = st.oldPacer ∧ y.frozen = true ∧ y.back = true)
        ∧ t.lastEvent Ev.STEP_ABANDONED d st.mv n.length ∧ t.log.total = s.log.total + 1 ∧ t.bytes = s.bytes))
    ∧ exec (.droopClear d) s = .next ((s.withPow fun x => { x with droop := x.droop.filter (· != d) }).sending [])
    ∧ (∀ st, Tab.get? s.u.pow.steps d = some st →
        let go := (s.withPow fun x => { x with steps := Tab.set x.steps d { st with frozen := false } }).sending []
        exec (.stepResume d) s = .next (if d ∈ s.u.pow.droop then s.sending [] else if s.get (Obj.DOM_RAIL_MV d) = st.mv then reached st go else go))
    ∧ (d ∈ s.u.pow.heldOff → exec (.stepHoldoffEnd d) s = .next ((((s.withPow fun x => { x with
        heldOff := x.heldOff.filter (· != d), stuck := Tab.del x.stuck d }).sending []).restoredAt d).offered))

/-- The budget (R417, R421 to R423, R426, R428, R432, R437): a limit within the hardware ceiling is taken, and grants are made to fit or freed power is offered; one
above it is clamped and reported; a sample above the budget raises the model scale by 10 a millisecond, up to 1,500, one below it lowers the scale
by as much once 100 ms have gone by, down to 1,000, and one between leaves it; a retired phase is
counted, its spare taken, and lowers the ceiling as the cold plate does; the clamp holds every variable domain at pacer step 8 until its release; domains 74 to 76 alone
take a set rail, the highest up to the one asked for at which what they draw fits, a lower one being reported. A phase begins at its own point or its context's, the higher of the two: the job steps down to it, or is offered it, a refusal being counted.
Choices of the model that it rests on: log entries 20, 21, 131 and 172. -/
def Obligations.BudgetsAreKept : Prop :=
  ∀ s : State,
    (∀ ses sub v, Wf.budgetW ses sub v = true → sub ≠ 4 → 60 ≤ v → v ≤ 180 →
      let k := if sub = 3 then Obj.BUDGET_W else Obj.HOST_LIMIT_W
      s.admits ses k v (if sub = 3 then .sup else .host) →
      (v ≤ s.get Obj.HW_CEILING_W → exec (.budgetW ses sub v) s = .next ((((s.putObj k v).sending []).recovered.offered).also (replies ses 0)))
      ∧ (s.get Obj.HW_CEILING_W < v → exec (.budgetW ses sub v) s
          = .next (((((s.putObj k (s.get Obj.HW_CEILING_W)).sending []).logged Ev.CLAMP ses v k).recovered.offered).also (replies ses 0))))
    ∧ (∀ ses v, ses < 16 → v ≤ 1 → s.admits ses Obj.HOST_LIMIT_EN v .host →
        exec (.budgetW ses 4 v) s = .next ((((s.putObj Obj.HOST_LIMIT_EN v).sending []).recovered.offered).also (replies ses 0)))
    ∧ (∀ mw mv ms doms, Wf.powerSample mw mv ms doms = true →
        let b := doms.foldl (fun t e => (t.putObj (Obj.DOM_POWER_MW e.1) e.2).counted 64 (Obj.DOM_ENERGY_UJ e.1) (e.2 * ms))
          (((s.puts [(Obj.INPUT_MW, mw), (Obj.INPUT_MV, mv)]).sending []).counted 64 Obj.INPUT_ENERGY_UJ (mw * ms))
        let below := s.u.pow.belowMs
        let fall := 10 * ((below + ms - 100) - (below - 100))
        let low := b.withPow fun x => { x with belowMs := below + ms }
        (1020 * s.budget < mw → exec (.powerSample mw mv ms doms) s = .next
          (((b.withPow fun x => { x with belowMs := 0 }).putObj Obj.MODEL_SCALE_PERMILLE (min 1500 (s.get Obj.MODEL_SCALE_PERMILLE + 10 * ms))).regranted.recovered))
        ∧ (1000 * s.budget ≤ mw → mw ≤ 1020 * s.budget → exec (.powerSample mw mv ms doms) s = .next (b.withPow fun x => { x with belowMs := 0 }))
        ∧ (mw < 1000 * s.budget → exec (.powerSample mw mv ms doms) s = .next (if fall = 0 then low
            else (low.putObj Obj.MODEL_SCALE_PERMILLE (max 1000 (s.get Obj.MODEL_SCALE_PERMILLE - fall))).regranted.offered)))
    ∧ (∀ n, n < 20 → n ∉ s.u.pow.phases → 0 < s.get Obj.REG_PHASES_SPARE →
        exec (.phaseRetire n) s = .next ((((((s.withPow fun x => { x with phases := n :: x.phases }).puts
          [(Obj.REG_PHASES_RETIRED, s.u.pow.phases.length + 1), (Obj.REG_PHASES_SPARE, s.get Obj.REG_PHASES_SPARE - 1)]).sending []).logged Ev.PHASE_RETIRED n 0 (s.u.pow.phases.length + 1)).putObj
          Obj.HW_CEILING_W (ceilingW s.u.pow.plate (s.u.pow.phases.length + 1))).recovered))
    ∧ (∀ temp, temp ≤ toSigned 16 (s.get Obj.PLATE_MAX_C) → exec (.coldPlateTemperatureChange temp) s = .next
        ((((s.withPow fun x => { x with plate := temp }).puts [(Obj.PLATE_C, ofSigned 16 temp), (Obj.HW_CEILING_W, ceilingW temp s.u.pow.phases.length)]).sending []).recovered.offered))
    ∧ (s.u.pow.clamp = false → exec .inputPowerClamp s = .next
        ((((s.withPow fun x => { x with clamp := true, steps := x.steps.map fun e => (e.1, { e.2 with pacer := min 8 e.2.pacer }) }).sending []).accrued.paced 8).counted 32 Obj.CLAMP_EVENTS 1))
    ∧ (s.u.pow.clamp = true → exec .clampRelease s = .next ((s.withPow fun x => { x with clamp := false }).sending []).restored)
    ∧ (∀ ses d mv, ses < 16 → d < 80 → 550 ≤ mv → mv ≤ 900 → mv % 10 = 0 → s.admits ses (Obj.DOM_SET_MV d) mv .sup →
      ((74 ≤ d ∧ d ≤ 76) →
          let draw (v : Nat) : Nat := if s.powered d then drawUnits (s.get (Obj.DOM_MAX_MW d)) v 32 s.scale else 0
          let rest := s.reserve - draw (s.get (Obj.DOM_SET_MV d)) + s.granted
          ∃ v, ((rest + draw v ≤ 92 * s.budget ∧ v ≤ mv ∧ ∀ w, v < w → w ≤ mv → w % 10 = 0 → 92 * s.budget < rest + draw w)
              ∨ (v = 550 ∧ ∀ w, 550 ≤ w → w ≤ mv → w % 10 = 0 → 92 * s.budget < rest + draw w)) ∧
            let p := (s.putObj (Obj.DOM_SET_MV d) v).sending []
            exec (.domSetMv ses d mv) s = .next (((if v = mv then p else p.logged Ev.CLAMP ses mv (Obj.DOM_SET_MV d)).restoredAt d).offered.also (replies ses 0)))
      ∧ ((d < 74 ∨ 76 < d) → ∃ t : State, exec (.domSetMv ses d mv) s = .next t ∧ t.out = replies ses Ab.STATE_FORBIDS ∧ t.u = s.u ∧ t.bytes = s.bytes ∧ t.log = s.log
          ∧ t.get (Obj.DOM_SET_MV d) = s.get (Obj.DOM_SET_MV d)))
    ∧ (∀ job phase x asked, phase < 8 → Tab.get? s.u.tt.jobs job = some x → x.decl.phases[phase]? = some asked → x.phase = .running →
        let mv := phasePoint asked
        let point := max mv x.want
        let a := (accrue job).run (s.sending [])
        let b := (if 550 ≤ asked ∧ mv ≠ asked then a.logged Ev.CLAMP 0xFFFF asked (Obj.PREFERRED_MV x.ctx) else a).withJob job fun y => { y with phasePt := some mv }
        let o := (offer job).run b
        exec (.phaseBoundary job phase) s = .next (if point < x.mv then ((setJobRail job point).run b).offered else if point = x.mv then b
          else if (Tab.get? o.u.tt.jobs job).any (·.mv == x.mv) then o.counted 32 Obj.PHASE_STEPS_REFUSED 1 else o))
    ∧ (∀ job, exec (.fullSaveMinRunElapsed job) s = .next ((s.withJob job fun y => { y with mayPause := true }).sending []))
    ∧ (s.u.tt.jobs = [] → s.u.pow.railCap = [] → s.u.pow.pacerCap = [] → s.recovered = s ∧ s.offered = s)

/-- Gates, temperatures and trips (R415, R433 to R436): a domain that may be gated is gated, a field losing what its memories held; a domain that has woken is on, a variable one at the
point its jobs or its set rail give it; a
junction sensor at 100 °C or more begins an excursion of its domain, which is counted, asserts ALERT_N, is reported and steps the domain down; an overcurrent and a
junction trip hold every variable domain at pacer step 1, are reported and raise cause 11, which their clears end, a junction trip's
once every working sensor reads below 95 °C. Choices of the model that it rests on: log entry 132. -/
def Obligations.GatesHeatAndTrips : Prop :=
  ∀ s : State,
    (∀ d, d < 80 → s.get (Obj.DOM_STATE d) = 2 → s.mayGate d = true →
      (66 ≤ d → exec (.idleGate d) s = .next (((s.putObj (Obj.DOM_STATE d) 3).sending []).withPow fun x => { x with steps := Tab.del x.steps d }).offered)
      ∧ (d < 66 → ∃ t : State, exec (.idleGate d) s = .next t.offered ∧ t.get (Obj.DOM_STATE d) = 3
          ∧ (∀ a, slateBase d 0 ≤ a → a < slateBase d 0 + 34 * 65536 → Memory.read t.bytes a = 0) ∧ (∀ a, storeBase d ≤ a → a < storeBase d + 2097152 → Memory.read t.bytes a = 0)
          ∧ (∀ a, (a < slateBase d 0 ∨ slateBase d 0 + 34 * 65536 ≤ a) → (a < storeBase d ∨ storeBase d + 2097152 ≤ a) → Memory.read t.bytes a = Memory.read s.bytes a)
          ∧ (∀ k, k ≠ Obj.DOM_STATE d → t.get k = s.get k) ∧ t.log = s.log ∧ t.out = []))
    ∧ (∀ d, 66 ≤ d → d < 80 → d ≠ 74 → d ≠ 75 → d ≠ 76 → s.get (Obj.DOM_STATE d) = 1 → d ∉ s.u.pow.blind →
        exec (.domainWakeDone d) s = .next ((((s.putObj (Obj.DOM_STATE d) 2).sending []).withPow fun x => { x with steps := Tab.del x.steps d }).arrived d))
    ∧ (∀ d, (d < 66 ∨ d = 74 ∨ d = 75 ∨ d = 76) → s.get (Obj.DOM_STATE d) = 1 → d ∉ s.u.pow.blind →
        let v := if 66 ≤ d then min (s.railCap d) (s.get (Obj.DOM_SET_MV d)) else if s.u.pow.junction then 550 else (s.fieldPoint d).getD (min (s.railCap d) (s.get (Obj.DOM_RAIL_MV d)))
        exec (.domainWakeDone d) s = .next ((((s.puts ([(Obj.DOM_STATE d, 2)] ++ railSlots d v ++ [(Obj.DOM_TARGET_MV d, v)] ++ pacerSlots d (s.u.pow.ceilPacer (s.pacerCap d)))).sending []).withPow fun x => { x with
          steps := Tab.del x.steps d }).arrived d))
    ∧ (∀ i temp, i < 128 → i ∉ s.u.pow.failed →
      let b := (s.withPow fun x => { x with temps := Tab.set x.temps i temp }).sending []
      (b.reading i < 1000 → exec (.thermalWarning i temp) s = .next b)
      ∧ (1000 ≤ b.reading i → s.hotKey i ∉ s.u.pow.hot → ∃ t : State, exec (.thermalWarning i temp) s = .next ((coolDomain false (s.hotKey i)).run t)
          ∧ t.objs = (b.counted 32 Obj.WARN_EVENTS 1).objs ∧ t.u.pow.hot = s.u.pow.hot ++ [s.hotKey i] ∧ t.u.pow.alert = true ∧ t.u.pow.statusTemp = s.u.pow.statusTemp ||| 64
          ∧ t.lastEvent Ev.THERMAL_WARNING i (ofSigned 64 (b.reading i)) (if s.hotKey i < 128 then s.hotKey i else 0xFFFF) ∧ t.log.total = s.log.total + 1 ∧ t.bytes = s.bytes))
    ∧ (∀ v, s.u.pow.hot = [] → (∀ d ∈ [66, 67, 68, 69, 70, 71, 72, 77, 78, 79], s.get (Obj.DOM_PACER d) = 32) →
        exec (.thermalStepTick [] v) s = .next ((match v with
          | some c => s.putObj Obj.VR_TEMP (ofSigned 16 c)
          | none => s).sending []).offered)
    ∧ (∀ mw mv, s.u.pow.overcurrent = false → ∃ t : State, exec (.overcurrentTrip mw mv) s = .next ((t.raised 11 0).told) ∧ t.u.pow.overcurrent = true
        ∧ t.lastEvent Ev.HW_TRIP 0 mw mv ∧ t.log.total = s.log.total + 1 ∧ t.u.pow.alert = true ∧ t.u.pow.statusInput = s.u.pow.statusInput ||| 4
        ∧ t.objs = (((((s.withPow fun x => { x with overcurrent := true, steps := x.steps.map fun e => (e.1, { e.2 with pacer := min 1 e.2.pacer }) }).sending []).accrued).paced 1).counted 32 Obj.OC_EVENTS 1).objs)
    ∧ (s.u.pow.overcurrent = true → exec .overcurrentClear s = .next ((((s.withPow fun x => { x with overcurrent := false }).sending []).ceased 11 0).restored.offered))
    ∧ (∀ i temp, i < 128 → i ∉ s.u.pow.failed → 1150 ≤ temp → s.u.pow.junction = false → ∃ t : State, exec (.junctionTrip i temp) s = .next ((t.raised 11 1).told)
        ∧ t.u.pow.junction = true ∧ t.u.pow.thermtrip = true ∧ t.lastEvent Ev.HW_TRIP 1 (ofSigned 64 temp) (s.get Obj.INPUT_MV) ∧ .pin .thermtripN false ∈ t.out)
    ∧ (s.u.pow.junction = true → ¬ (∀ i, i < 128 → i ∉ s.u.pow.failed → s.reading i < 950) → exec .junctionTripClear s = .next (s.sending []))
    ∧ (s.u.pow.junction = true → (∀ i, i < 128 → i ∉ s.u.pow.failed → s.reading i < 950) → exec .junctionTripClear s = .next ((((s.withPow fun x => { x with junction := false, thermtrip := false }).sending [.pin .thermtripN true]).ceased 11 1).restored.offered))

/-! ## Sequences and streams -/

/-- Edits of a sequence that no walk stands in the way of, by a session that its context admits and by a job's program alike (R235 to R237, R256 to R258, R262): each is
counted, the session reads APPLIED; OPEN gives the sequence its table of tiles; an entry written where none was keeps the epoch, one that replaces another raises it; a
length that is covered by entries is taken; CLOSE closes the sequence. No byte changes but in the sequence's directory tile and its table. An edit of a sequence that is not
open, an OPEN of one that is, a geometry, an entry or a length that the unit does not take changes nothing and reads INVALID with its reason. Choices of the model that it rests on: log entry 97. -/
def Obligations.SequencesAreEdited : Prop :=
  ∀ (s : State) (e : Editor) (op : Nat) (r : EditReq) (es : List Emit), e.asks op s = some (r, es) → s.get Obj.EDITS_APPLIED + 1 < 2 ^ 64 →
      (r.force = true → ∀ d ∈ s.u.seq.edits, d.key ≠ seqKey r.ctx r.seq) → (∀ d, s.seqDir r.ctx r.seq = some d → s.plainTile d) →
    let key := seqKey r.ctx r.seq
    let did (t : State) : Prop := t.get Obj.EDITS_APPLIED = s.get Obj.EDITS_APPLIED + 1 ∧ t.shows r 1 0 ∧ (∀ k, k ≠ Obj.EDITS_APPLIED → k ∉ r.shown → t.get k = s.get k) ∧ t.log = s.log ∧ t.out = es
    let tiles := ceilDiv (r.page * (r.geometry / 65536 % 256)) 128
    let invalid (t : State) (reason : Nat) : Prop := t.shows r 4 reason ∧ (∀ k, k ∉ r.shown → t.get k = s.get k) ∧ t.u.seq.seqs = s.u.seq.seqs ∧ t.bytes = s.bytes ∧ t.log = s.log ∧ t.out = es
    (∀ prev, op = 1 → s.seqAt key = prev → (∀ p, prev = some p → p.opened = false) → r.geometry % 65536 ∈ [64, 128, 256] → 0 < r.geometry / 65536 % 256 → r.geometry / 65536 % 256 ≤ 64 → r.geometry / 16777216 % 256 ∈ [8, 16, 32, 64, 128] →
        0 < r.page → r.page ≤ 1048576 → (s.seqDir r.ctx r.seq).isSome → s.allocFault r.ctx tiles = none → (∀ h ∈ (s.newHomes tiles).1, ∃ k, h = .slot k) →
      ∃ t : State, exec (.seqOpen e) s = .next t.told ∧ did t ∧ t.seqAt key = some { opened := true, closing := false, length := 0, epoch := prev.elim 0 fun p => (p.epoch + 1) % 4294967296, entries := [], books := r.books, capacity := r.page, d := r.geometry % 65536, heads := r.geometry / 65536 % 256, t := r.geometry / 16777216 % 256, tiles := tiles, table := s.freeNumbers tiles })
    ∧ (((op = 1 ∧ ∃ x, s.seqAt key = some x ∧ x.opened = true) ∨ (op ∈ [2, 3, 4] ∧ ∀ x, s.seqAt key = some x → x.opened = false ∨ x.closing = true)) →
      ∀ i, (i, op) ∈ [(Instr.seqOpen e, 1), (.seqWriteEntry e, 2), (.seqSetLength e, 3), (.seqClose e, 4)] → ∃ t : State, exec i s = .next t.told ∧ invalid t 0x0660)
    ∧ (op = 1 → (∀ x, s.seqAt key = some x → x.opened = false) → (r.geometry % 65536 ∉ [64, 128, 256] ∨ r.geometry / 65536 % 256 = 0 ∨ 64 < r.geometry / 65536 % 256
        ∨ r.geometry / 16777216 % 256 ∉ [8, 16, 32, 64, 128] ∨ r.page = 0 ∨ 1048576 < r.page ∨ s.seqDir r.ctx r.seq = none) → ∃ t : State, exec (.seqOpen e) s = .next t.told ∧ invalid t 0x0661)
    ∧ (∀ x, s.seqAt key = some x → x.opened = true → x.closing = false →
      let q := r.page * x.heads + r.head
      let outside (t : State) : Prop := ∀ a, (∀ d, s.seqDir r.ctx r.seq = some d → ¬ s.inTile d a) → ¬ s.inTile (x.table + q / 128) a → Memory.read t.bytes a = Memory.read s.bytes a
      (op = 2 → (x.heads ≤ r.head ∨ x.capacity ≤ r.page ∨ s.pageOk r.ctx x r.k (r.formats % 16) true = false ∨ s.pageOk r.ctx x r.v (r.formats / 16 % 16) false = false) →
        ∃ t : State, exec (.seqWriteEntry e) s = .next t.told ∧ invalid t 0x0662)
      ∧ (op = 3 → x.length ≤ r.length → (x.capacity * x.t < r.length ∨ ∃ i, i < ceilDiv r.length x.t * x.heads ∧ Tab.get? x.entries i = none) →
        ∃ t : State, exec (.seqSetLength e) s = .next t.told ∧ invalid t 0x0663)
      ∧ (op = 2 → s.plainTile (x.table + q / 128) → r.head < x.heads → r.page < x.capacity → s.pageOk r.ctx x r.k (r.formats % 16) true = true → s.pageOk r.ctx x r.v (r.formats / 16 % 16) false = true →
        (Tab.get? x.entries q = none → ∃ t : State, exec (.seqWriteEntry e) s = .next t.told ∧ did t ∧ outside t
          ∧ t.seqAt key = some { x with entries := Tab.set x.entries q ⟨r.k, r.v, r.formats % 16, r.formats / 16 % 16, x.epoch⟩ })
        ∧ (∀ o, Tab.get? x.entries q = some o → (∀ w ∈ s.walksOn key, w.len ≤ r.page * x.t) → ∃ t : State, exec (.seqWriteEntry e) s = .next t.told ∧ did t ∧ outside t
          ∧ t.seqAt key = some { x with
              epoch := (x.epoch + 1) % 4294967296, entries := Tab.set x.entries q ⟨r.k, r.v, r.formats % 16, r.formats / 16 % 16, (x.epoch + 1) % 4294967296⟩ }))
      ∧ (op = 3 → ((x.length ≤ r.length ∧ r.length ≤ x.capacity * x.t ∧ ∀ i, i < ceilDiv r.length x.t * x.heads → (Tab.get? x.entries i).isSome) ∨ (r.length < x.length ∧ ∀ w ∈ s.walksOn key, w.len ≤ r.length)) →
        ∃ t : State, exec (.seqSetLength e) s = .next t.told ∧ did t ∧ t.seqAt key = some { x with length := r.length }
          ∧ ∀ a, (∀ d, s.seqDir r.ctx r.seq = some d → ¬ s.inTile d a) → Memory.read t.bytes a = Memory.read s.bytes a)
      ∧ (op = 4 → s.walksOn key = [] → ∃ t : State, exec (.seqClose e) s = .next t.told ∧ did t
          ∧ t.seqAt key = some { x with opened := false, closing := false, length := 0, entries := [], tiles := 0 }
          ∧ (∀ i < x.tiles, Tab.get? t.u.mem.tiles (x.table + i) = none) ∧ ∀ a, (∀ d, s.seqDir r.ctx r.seq = some d → ¬ s.inTile d a) → Memory.read t.bytes a = Memory.read s.bytes a))

/-- Edits that walks stand in the way of, and walks (R250 to R252, R258, R259): without FORCE such an edit makes its value current and stays pending while the limit of
pending edits lets it, and is refused beyond it; with FORCE the jobs whose walks stand in the way end with TABLE_CHANGED and it is applied; a job that waits for one no longer waits after the time-out, if it gave one; a look-aside entry of the walk's epoch is a hit, a verified
one is filled in, and one that fails its check is counted and ends the job. Choices of the model that it rests on: log entry 97. -/
def Obligations.EditsWaitForWalks : Prop :=
  ∀ s : State,
    (∀ e r es x, e.asks 3 s = some (r, es) → s.seqAt (seqKey r.ctx r.seq) = some x → x.opened = true → x.closing = false → r.force = false → r.length < x.length →
        (∃ w ∈ s.walksOn (seqKey r.ctx r.seq), r.length < w.len) → (∀ d, s.seqDir r.ctx r.seq = some d → s.plainTile d) →
      (s.u.seq.edits.length < s.get Obj.DEFERRED_LIMIT → ∃ t : State, exec (.seqSetLength e) s = .next t.told ∧ t.shows r 2 0 ∧ t.out = es
        ∧ t.seqAt (seqKey r.ctx r.seq) = some { x with length := r.length, epoch := (x.epoch + 1) % 4294967296 }
        ∧ t.u.seq.edits.getLast? = some { key := seqKey r.ctx r.seq, epoch := (x.epoch + 1) % 4294967296, old := .length x.length, ses := r.ses, job := if r.timeout = some 0 then none else r.job, noLimit := r.timeout.isNone }
        ∧ t.u.seq.edits.length = s.u.seq.edits.length + 1 ∧ t.u.seq.walks = s.u.seq.walks ∧ t.log = s.log)
      ∧ (s.get Obj.DEFERRED_LIMIT ≤ s.u.seq.edits.length → s.get Obj.EDITS_REFUSED + 1 < 2 ^ 32 → ∃ t : State, exec (.seqSetLength e) s = .next t.told ∧ t.shows r 3 0x0664 ∧ t.out = es
        ∧ t.get Obj.EDITS_REFUSED = s.get Obj.EDITS_REFUSED + 1 ∧ t.u.seq.seqs = s.u.seq.seqs ∧ t.bytes = s.bytes ∧ t.log = s.log))
    ∧ (∀ e r es x, e.asks 3 s = some (r, es) → s.seqAt (seqKey r.ctx r.seq) = some x → x.opened = true → x.closing = false → r.force = true → r.length < x.length →
        let ws := (s.walksOn (seqKey r.ctx r.seq)).filter (fun w => decide (r.length < w.len))
        ws ≠ [] → (∀ w ∈ ws, (Tab.get? s.u.tt.jobs w.job).isSome) → (∀ d ∈ s.u.seq.edits, d.key ≠ seqKey r.ctx r.seq) →
      ∃ t : State, exec (.seqSetLength e) s = .next t.told ∧ (∀ w ∈ ws, t.jobEnded w.job St.TABLE_CHANGED 0x0620) ∧ t.shows r 1 0
        ∧ (∃ y, t.seqAt (seqKey r.ctx r.seq) = some y ∧ y.length = r.length ∧ y.epoch = (x.epoch + 1) % 4294967296 ∧ y.entries = x.entries)
        ∧ ∀ w ∈ ws, ∀ v ∈ t.u.seq.walks, v.job ≠ w.job)
    ∧ (∀ job, exec (.editApplyTimeout job) s = .next ((s.withUnits fun u => { u with
        seq := { u.seq with edits := u.seq.edits.map fun d => if d.job = some job ∧ d.noLimit = false then { d with job := none } else d } }).sending []))
    ∧ (∀ f job sq n x w, f < 66 → Tab.get? s.u.tt.jobs job = some x → (s.walksOn (seqKey x.ctx sq)).find? (fun w => decide (w.job = job)) = some w →
      let tag := (x.ctx, sq, n, w.epoch)
      let rest := (s.fieldRec f).lab.filter fun t => decide (t.1 ≠ x.ctx ∨ t.2.1 ≠ sq ∨ t.2.2.1 ≠ n)
      (tag ∈ (s.fieldRec f).lab → exec (.labMissFill f job sq n false) s = .next ((((s.sending []).counted 64 Obj.LAB_HITS 1).withField f fun r => { r with lab := tag :: rest }).told))
      ∧ (tag ∉ (s.fieldRec f).lab → ∀ y q, s.entryFor (seqKey x.ctx sq) n w.epoch = some y → s.seqAt (seqKey x.ctx sq) = some q → s.lossOf (q.table + n / 128) = none →
        (rest.length = (s.fieldRec f).lab.length → s.pageOk x.ctx q y.k y.kf true = true → s.pageOk x.ctx q y.v y.vf false = true →
          exec (.labMissFill f job sq n false) s = .next ((((s.sending []).counted 64 Obj.LAB_MISSES 1).withField f fun r => { r with lab := (tag :: rest).take 64 }).told))
        ∧ (∃ t : State, exec (.labMissFill f job sq n true) s = .next t.told ∧ t.jobEnded job St.CONFIG_INVALID 0x0603)))

/-- Stream commands (R267, R279, R280): one that the stream's state does not allow is aborted; while a chunk runs, a command that the stream's state allows waits for its end; with none running it takes effect at once: START
makes a FREE stream READY with its state of birth, its counters at zero and its directory entry; PAUSE and RESUME go to PAUSED and READY; RESET returns the state of
birth; END frees it; CHECKPOINT notes the step and the state; RESTORE brings them back; EVICT writes a STORE state home. Choices of the model that it rests on: log
entries 50, 52 and 99. -/
def Obligations.StreamsTakeCommands : Prop :=
  ∀ (s : State) (ses n : Nat), ses < 16 → n < 4096 →
    (s.get (Obj.STREAM_STATE n) = 0 ∨ bit (s.get (Obj.ADMIT_SESSIONS (s.get (Obj.S_CONTEXT n)))) ses = true) → s.get (Obj.PENDING_COMMAND n) = 0 →
    (∀ c v, (c, v) ∈ [(Instr.streamStart ses n, 1), (.streamPause ses n, 2), (.streamResume ses n, 3), (.streamReset ses n, 4), (.streamEnd ses n, 5), (.streamCheckpoint ses n, 6), (.streamRestore ses n, 7), (.streamEvict ses n, 8)] →
        s.admits ses (Obj.STREAM_COMMAND n) v .host → s.streamAllows n v = false →
      exec c s = .next ((s.aborted ses Ab.STATE_FORBIDS (Obj.STREAM_COMMAND n)).sending (replies ses Ab.STATE_FORBIDS)).told)
    ∧ (∀ c v, (c, v) ∈ [(Instr.streamPause ses n, 2), (.streamResume ses n, 3), (.streamReset ses n, 4), (.streamEnd ses n, 5), (.streamCheckpoint ses n, 6), (.streamRestore ses n, 7), (.streamEvict ses n, 8)] →
        s.admits ses (Obj.STREAM_COMMAND n) v .host → s.streamAllows n v = true → (s.stream n).chunk.isSome →
      exec c s = .next ((s.putObj (Obj.PENDING_COMMAND n) v).sending (replies ses 0)).told)
    ∧ ((s.stream n).chunk = none →
      (s.admits ses (Obj.STREAM_COMMAND n) 1 .host → s.streamAllows n 1 = true → s.homeTiles n ≠ 0 → ∀ d, s.allocFault (s.get (Obj.S_CONTEXT n)) (s.homeTiles n) = some d →
        exec (.streamStart ses n) s = .next ((s.putObj (Obj.LOST_CAUSE n) 0x0715).sending (replies ses 0)).told)
      ∧ (s.admits ses (Obj.STREAM_COMMAND n) 1 .host → s.streamAllows n 1 = true → (s.homeTiles n = 0 ∨ s.allocFault (s.get (Obj.S_CONTEXT n)) (s.homeTiles n) = none) →
        ∃ t : State, exec (.streamStart ses n) s = .next t.told ∧ t.get (Obj.STREAM_STATE n) = 1 ∧ t.get (Obj.STEP_COUNT n) = 0 ∧ t.get (Obj.REF_EXP n) = 0 ∧ t.get (Obj.LOST_CAUSE n) = 0
          ∧ (t.stream n).home = (s.freeNumbers (s.homeTiles n), s.homeTiles n) ∧ (t.stream n).ckpt = none
          ∧ Tab.get? t.u.streamDir (s.get (Obj.S_CONTEXT n) * 4096 + s.get (Obj.S_LOCAL n)) = some n ∧ t.out = replies ses 0)
      ∧ (s.admits ses (Obj.STREAM_COMMAND n) 2 .host → s.streamAllows n 2 = true → exec (.streamPause ses n) s = .next ((s.putObj (Obj.STREAM_STATE n) 3).sending (replies ses 0)).told)
      ∧ (s.admits ses (Obj.STREAM_COMMAND n) 3 .host → s.streamAllows n 3 = true → exec (.streamResume ses n) s = .next ((s.putObj (Obj.STREAM_STATE n) 1).sending (replies ses 0)).told)
      ∧ (s.admits ses (Obj.STREAM_COMMAND n) 4 .host → s.streamAllows n 4 = true → ∃ t : State, exec (.streamReset ses n) s = .next t.told
          ∧ t.get (Obj.STEP_COUNT n) = 0 ∧ t.get (Obj.REF_EXP n) = 0 ∧ t.get (Obj.LOST_CAUSE n) = 0
          ∧ t.get (Obj.STREAM_STATE n) = (if s.get (Obj.STREAM_STATE n) = 3 then 3 else 1) ∧ t.out = replies ses 0)
      ∧ (s.admits ses (Obj.STREAM_COMMAND n) 5 .host → s.streamAllows n 5 = true → ∃ t : State, exec (.streamEnd ses n) s = .next t.told
          ∧ t.get (Obj.STREAM_STATE n) = 0 ∧ t.get (Obj.STATE_HOME n) = 0 ∧ t.get (Obj.CHECKPOINT_STEP n) = 2 ^ 64 - 1 ∧ (t.stream n).data = [] ∧ (t.stream n).home = (0, 0) ∧ (t.stream n).ckpt = none)
      ∧ (s.admits ses (Obj.STREAM_COMMAND n) 6 .host → s.streamAllows n 6 = true → ∀ image b k, image = (if s.resident n then (s.stream n).res.flatMap Accum.image else (s.stream n).data) → (s.stream n).ckpt = some (b, k) →
          k = ceilDiv image.length 4096 →
        ∃ t : State, exec (.streamCheckpoint ses n) s = .next t.told ∧ t.get (Obj.CHECKPOINT_STEP n) = s.get (Obj.STEP_COUNT n) ∧ (t.stream n).ckptData = image
          ∧ (t.stream n).ckptRef = s.get (Obj.REF_EXP n) ∧ (t.stream n).ckpt = some (b, k) ∧ t.get (Obj.STREAM_STATE n) = s.get (Obj.STREAM_STATE n))
      ∧ (s.admits ses (Obj.STREAM_COMMAND n) 7 .host → s.streamAllows n 7 = true → ∀ b k, (s.stream n).ckpt = some (b, k) → s.runLost b k = none →
        ∃ t : State, exec (.streamRestore ses n) s = .next t.told ∧ t.get (Obj.STEP_COUNT n) = s.get (Obj.CHECKPOINT_STEP n) ∧ ((s.stream n).ckptRes = false → (t.stream n).data = (s.stream n).ckptData)
          ∧ t.get (Obj.REF_EXP n) = (s.stream n).ckptRef % 2 ^ 64 ∧ t.get (Obj.LOST_CAUSE n) = 0 ∧ t.get (Obj.STREAM_STATE n) = (if s.get (Obj.STREAM_STATE n) = 3 then 3 else 1))
      ∧ (s.admits ses (Obj.STREAM_COMMAND n) 8 .host → s.streamAllows n 8 = true → s.get (Obj.RESIDENCY_NOW n) = 1 → (s.stream n).engines = [] → s.get (Obj.SWAPS_OUT n) + 1 < 2 ^ 32 →
        ∃ t : State, exec (.streamEvict ses n) s = .next t.told ∧ t.get (Obj.RESIDENCY_NOW n) = 0 ∧ t.get (Obj.STATE_FIELD n) = 0xFF ∧ t.get (Obj.SWAPS_OUT n) = s.get (Obj.SWAPS_OUT n) + 1
          ∧ t.get (Obj.STREAM_STATE n) = s.get (Obj.STREAM_STATE n)))
    ∧ (s.get (Obj.RESIDENCY_NOW n) = 1 → (s.stream n).chunk = none → (s.stream n).engines = [] → s.get (Obj.SWAPS_OUT n) + 1 < 2 ^ 32 →
        ∃ t : State, exec (.streamSwapOut n) s = .next t.told ∧ t.get (Obj.RESIDENCY_NOW n) = 0 ∧ t.get (Obj.STATE_FIELD n) = 0xFF ∧ t.get (Obj.SWAPS_OUT n) = s.get (Obj.SWAPS_OUT n) + 1)
    ∧ (∀ f, f < 66 → s.get (Obj.RESIDENCY_MODE n) = 1 → s.get (Obj.RESIDENCY_NOW n) = 0 → s.get (Obj.STREAM_STATE n) ≠ 0 → s.get (Obj.STREAM_STATE n) ≠ 4 → (s.stream n).chunk = none → s.fieldActive f = true →
        s.get (Obj.DOM_STATE f) = 2 → s.get (Obj.FALLOW_STATUS f) = 0 → ceilDiv (s.stateBytes n) 65536 ≤ (s.freeGrans f).length → s.runLost (s.stream n).home.1 (s.stream n).home.2 = none →
        (s.stream n).forced = false → s.get (Obj.SWAPS_IN n) + 1 < 2 ^ 32 →
      ∃ t : State, exec (.streamSwapIn n f) s = .next t ∧ t.get (Obj.RESIDENCY_NOW n) = 1 ∧ t.get (Obj.STATE_FIELD n) = f ∧ t.get (Obj.SWAPS_IN n) = s.get (Obj.SWAPS_IN n) + 1
        ∧ Tab.get? (t.fieldRec f).held n = some (0, ceilDiv (s.stateBytes n) 65536)
        ∧ (∀ a, (∀ g ∈ (s.freeGrans f).take (ceilDiv (s.stateBytes n) 65536), a < storeBase f + g * 65536 ∨ storeBase f + (g + 1) * 65536 ≤ a) → Memory.read t.bytes a = Memory.read s.bytes a) ∧ t.log = s.log ∧ t.out = []
        ∧ ∀ k, k ≠ Obj.RESIDENCY_NOW n → k ≠ Obj.STATE_FIELD n → k ≠ Obj.SWAPS_IN n → t.get k = s.get k)

/-! ## The Sieve and the planner -/

/-- A slice of the Sieve's first operation (R300 to R310): its time is counted; an operation that is to stop ends; the last slice of a decode counts the candidates formed, the
boxes kept and those cut, writes the list to the declared output tiles and no other byte, and ends the job DONE; that of a crop counts the boxes without area and writes their
crops; tables that do not have the declared number of anchors, and output tiles that the job may not write, end it. No more boxes are kept than declared. Choices of the model
that it rests on: log entries 104, 105, 106, 151 and 152. -/
def Obligations.SievesRun : Prop :=
  ∀ (s : State) (job ns : Nat) (x : Job) (o : SieveOp), s.sieveOrder.head? = some (job, x) → x.decl.op = some (.sieve o) → s.get (Obj.DOM_STATE 76) = 2 → s.u.pow.overcurrent = false →
    ns ≤ 2000 → s.get Obj.SIEVE_BUSY_NS + ns < 2 ^ 64 → s.get Obj.SIEVE_OPS + 1 < 2 ^ 64 →
    let b := (s.sending []).counted 64 Obj.SIEVE_BUSY_NS ns
    (∀ f last, x.stop = some f → exec (.sieveSlice job ns last) s = .next (b.ended job f.1 f.2).told)
    ∧ (x.stop = none → exec (.sieveSlice job ns none) s = .next b.told)
    ∧ (∀ d, x.stop = none →
      let short := o.crop = false ∧ ((o.grid = false ∧ o.variant ≠ 2 ∧ d.tableLen ≠ o.anchors) ∨ d.scoreLen ≠ o.anchors ∨ d.rows.length ≠ o.anchors)
      (short → exec (.sieveSlice job ns (some d)) s = .next (b.ended job St.CONFIG_INVALID 0x0811).told)
      ∧ (¬ short → ∀ f, s.outFault x.ctx d.outs = some f → exec (.sieveSlice job ns (some d)) s = .next (b.ended job f.1 f.2).told)
      ∧ (¬ short → s.outFault x.ctx d.outs = none → s.get Obj.SEED_STOCK_EN = 0 → o.crop = false →
        let r := sieveBoxes o (fp (s.get Obj.DW_CLAMP)) d
        s.get Obj.CANDIDATES + r.1 < 2 ^ 64 → s.get Obj.BOXES_KEPT + r.2.1 < 2 ^ 64 → s.get Obj.BOXES_TRUNCATED + r.2.2.1 < 2 ^ 64 →
        ∃ t : State, exec (.sieveSlice job ns (some d)) s = .next (t.ended job St.DONE 0).told ∧ t.get Obj.SIEVE_OPS = s.get Obj.SIEVE_OPS + 1 ∧ t.get Obj.SIEVE_BUSY_NS = s.get Obj.SIEVE_BUSY_NS + ns
          ∧ t.get Obj.CANDIDATES = s.get Obj.CANDIDATES + r.1 ∧ t.get Obj.BOXES_KEPT = s.get Obj.BOXES_KEPT + r.2.1 ∧ t.get Obj.BOXES_TRUNCATED = s.get Obj.BOXES_TRUNCATED + r.2.2.1
          ∧ s.onlyTiles t x.ctx d.outs ∧ s.wrote t x.ctx d.outs r.2.2.2 ∧ (s.plainOuts x.ctx d.outs → t.log = s.log ∧ t.out = []))
      ∧ (s.outFault x.ctx d.outs = none → s.get Obj.SEED_STOCK_EN = 0 → o.crop = true → s.get Obj.DEGENERATE_BOXES + (d.boxes.filter degenerate).length < 2 ^ 32 →
        ∃ t : State, exec (.sieveSlice job ns (some d)) s = .next (t.ended job St.DONE 0).told ∧ t.get Obj.SIEVE_OPS = s.get Obj.SIEVE_OPS + 1
          ∧ t.get Obj.DEGENERATE_BOXES = s.get Obj.DEGENERATE_BOXES + (d.boxes.filter degenerate).length
          ∧ s.onlyTiles t x.ctx d.outs ∧ s.wrote t x.ctx d.outs (sieveCrops o d).1 ∧ (s.plainOuts x.ctx d.outs → t.log = s.log ∧ t.out = [])))
    ∧ (∀ clamp d, (sieveBoxes o clamp d).2.1 ≤ o.maxOut ∧ (sieveBoxes o clamp d).2.1 + (sieveBoxes o clamp d).2.2.1 ≤ (sieveBoxes o clamp d).1)

/-- The map's epochs (R346 to R350, R360, R365): a batch that may be applied, with room for an epoch, makes a new newest epoch of no earlier ToV, with a tile for every
brick that it changed and the other bricks as they were, and is counted; without room it becomes the pending one, merged with what was pending; an empty one changes nothing but
its job; one with a brick outside the map, and one for which there are no tiles, end their job; a clear makes an epoch wholly UNKNOWN; a road map that no run of its model uses is
emptied, any other once the last of them ends. Choices of the model that it rests on: log entries 106 and 107. -/
def Obligations.MapEpochsAdvance : Prop :=
  ∀ s : State,
    (∀ job tov ops x, Wf.mapBatchCommit job tov ops = true → Tab.get? s.u.tt.jobs job = some x → s.groupPending 0x2901 = false → (x.phase = .running ∨ x.phase = .draining) → s.get (Obj.DOM_STATE 75) = 2 →
        (x.decl.op = none ∨ (x.decl.op = some .batch ∧ s.planOrder.head? = some (job, x) ∧ x.stop = none ∧ s.u.pow.overcurrent = false)) →
      let ends (t : State) : State := let u := t.withJob job fun y => { y with output := true }
        if x.decl.op = none then u else u.ended job St.DONE 0
      let tiles := s.indexTiles + ((ops.map MapOp.brick).eraseDups).length
      let reads := ops.filterMap fun o => match o with
        | .min b _ => some b
        | _ => none
      ((4096 < ops.length ∨ ∃ o ∈ ops, s.bricks ≤ o.brick) → exec (.mapBatchCommit job tov ops) s = .next ((s.sending []).ended job St.CONFIG_INVALID 0x0A06).told)
      ∧ (ops = [] → exec (.mapBatchCommit job tov ops) s = .next (ends (s.sending [])).told)
      ∧ (ops ≠ [] → ops.length ≤ 4096 → (∀ o ∈ ops, o.brick < s.bricks) → s.mapLoss s.batchBase reads = none →
        (∀ d, s.allocFault (s.get Obj.MAP_CONTEXT) tiles = some d →
          exec (.mapBatchCommit job tov ops) s = .next (((s.sending []).counted 32 Obj.UPDATES_REFUSED 1).ended job St.CONFIG_INVALID d).told)
        ∧ (s.allocFault (s.get Obj.MAP_CONTEXT) tiles = none → (∀ h ∈ (s.newHomes tiles).1, ∃ k, h = .slot k) →
          let covers (e base : Epoch) : Prop := e.tov = max tov base.tov ∧ (∀ b, (Tab.get? e.index b).isSome ↔ ((Tab.get? base.index b).isSome ∨ b ∈ ops.map MapOp.brick))
            ∧ (∀ b, b ∉ ops.map MapOp.brick → Tab.get? e.index b = Tab.get? base.index b)
          (s.u.plan.pending = none → s.u.plan.epochs.length < s.get Obj.EPOCHS_MAX → s.get Obj.EPOCH_NEWEST + 1 < 2 ^ 64 → s.get Obj.UPDATES_APPLIED + 1 < 2 ^ 64 →
            ∃ t : State, exec (.mapBatchCommit job tov ops) s = .next (ends t).told ∧ t.get Obj.EPOCH_NEWEST = s.get Obj.EPOCH_NEWEST + 1 ∧ t.get Obj.UPDATES_APPLIED = s.get Obj.UPDATES_APPLIED + 1
              ∧ covers t.newest s.newest ∧ t.get Obj.BRICKS_WRITTEN = t.newest.index.length % 2 ^ 64 ∧ t.u.plan.pending = none ∧ t.log = s.log ∧ t.out = [])
          ∧ ((s.u.plan.pending ≠ none ∨ s.get Obj.EPOCHS_MAX ≤ s.u.plan.epochs.length) → s.get Obj.UPDATES_MERGED + 1 < 2 ^ 32 →
            ∃ t : State, exec (.mapBatchCommit job tov ops) s = .next (ends t).told ∧ t.get Obj.UPDATES_MERGED = s.get Obj.UPDATES_MERGED + 1
              ∧ (∃ e, t.u.plan.pending = some e ∧ covers e s.batchBase) ∧ t.u.plan.epochs = s.u.plan.epochs ∧ t.get Obj.EPOCH_NEWEST = s.get Obj.EPOCH_NEWEST ∧ t.log = s.log ∧ t.out = []))))
    ∧ (∀ ses, ses < 16 → s.admits ses Obj.MAP_CLEAR 1 .sup →
      (s.u.plan.pending = none → s.u.plan.epochs.length < s.get Obj.EPOCHS_MAX → s.get Obj.EPOCH_NEWEST + 1 < 2 ^ 64 →
        ∃ t : State, exec (.mapClear ses 1) s = .next t ∧ t.get Obj.EPOCH_NEWEST = s.get Obj.EPOCH_NEWEST + 1 ∧ t.newest.index = [] ∧ t.newest.tov = s.newest.tov
          ∧ t.get Obj.BRICKS_WRITTEN = 0 ∧ t.bytes = s.bytes ∧ t.log = s.log ∧ t.out = replies ses 0)
      ∧ ((s.u.plan.pending ≠ none ∨ s.get Obj.EPOCHS_MAX ≤ s.u.plan.epochs.length) → ∃ t : State, exec (.mapClear ses 1) s = .next t
          ∧ (∃ e, t.u.plan.pending = some e ∧ e.index = [] ∧ e.tov = s.batchBase.tov) ∧ t.u.plan.epochs = s.u.plan.epochs ∧ t.objs = s.objs ∧ t.bytes = s.bytes ∧ t.log = s.log ∧ t.out = replies ses 0))
    ∧ (∀ ses n, ses < 16 → n < 4 → s.admits ses (Obj.ROADMAP_CLEAR n) 1 .sup →
      let used := ∃ r ∈ s.u.plan.runs, ∃ y p, Tab.get? s.u.tt.jobs r.1 = some y ∧ y.decl.op = some (.run p) ∧ p.model = n
      (¬ used → exec (.roadmapClear ses n 1) s = .next ((((s.sending []).withUnits fun u => { u with plan := { u.plan with
        clearRoad := u.plan.clearRoad.filter (· != n), roads := Tab.del u.plan.roads n } }).putObj (Obj.ROADMAP_NODES n) 0).also (replies ses 0)))
      ∧ (used → exec (.roadmapClear ses n 1) s = .next (((s.sending []).withUnits fun u => { u with plan := { u.plan with
        clearRoad := n :: u.plan.clearRoad.filter (· != n) } }).also (replies ses 0))))

/-- The planner's operation whose turn it is (R356 to R364): one that is to stop ends; a query whose epoch exists writes its answer to its output tiles alone, is counted and
ends DONE, one whose epoch does not ends MAP_CHANGED; a slice of a run counts its misses; a run whose start or whose every goal is not clear ends NO_PATH, one whose start and a
goal are clear goes on; the end of its search leaves candidates that are clear paths from the start to a goal and short enough, the same ones whenever what the search depends on
is the same; a run with none, or none that passes, ends NO_PATH; one with a candidate that passes is counted done. Choices of the model that it rests on: log entries 104, 105,
106, 165 and 166. -/
def Obligations.PlannerServes : Prop :=
  ∀ (s : State) (job : Nat) (x : Job), s.planOrder.head? = some (job, x) → s.get (Obj.DOM_STATE 75) = 2 → s.u.pow.overcurrent = false →
    (∀ f spheres pairs outs misses st, x.stop = some f → ∀ i, i ∈ [Instr.sphereQuery job spheres outs, .segmentQuery job pairs outs, .plannerSlice job misses st] → exec i s = .next ((s.sending []).ended job f.1 f.2).told)
    ∧ (∀ dcl outs spheres, x.stop = none → x.decl.op = some (.spheres dcl) → spheres.length ≤ 65536 →
      (s.queryEpoch dcl = none → exec (.sphereQuery job spheres outs) s = .next ((s.sending []).ended job St.MAP_CHANGED 0x0A10).told)
      ∧ (∀ n e, s.queryEpoch dcl = some (n, e) → s.outFault x.ctx outs = none → s.mapLoss e (spheres.flatMap s.sphereBricks) = none → s.get Obj.SEED_STOCK_EN = 0 →
          s.get Obj.QUERY_SPHERES + spheres.length < 2 ^ 64 →
        ∃ t : State, exec (.sphereQuery job spheres outs) s = .next (t.ended job St.DONE 0).told ∧ t.get Obj.QUERY_SPHERES = s.get Obj.QUERY_SPHERES + spheres.length
          ∧ s.onlyTiles t x.ctx outs ∧ s.wrote t x.ctx outs (queryHead n e ++ spheres.flatMap (s.sphereBytes e)) ∧ (s.plainOuts x.ctx outs → t.log = s.log ∧ t.out = [])))
    ∧ (∀ n dcl outs pairs, x.stop = none → x.decl.op = some (.segments n dcl) → pairs.length ≤ 1024 →
      let poses := pairs.map fun q => segmentPoses (s.model n) (s.get Obj.CHECK_STEP_MM) q.1 q.2
      (s.queryEpoch dcl = none → exec (.segmentQuery job pairs outs) s = .next ((s.sending []).ended job St.MAP_CHANGED 0x0A10).told)
      ∧ (∀ k e, s.queryEpoch dcl = some (k, e) → s.outFault x.ctx outs = none → s.mapLoss e (poses.flatten.flatMap s.poseBricks) = none → s.get Obj.SEED_STOCK_EN = 0 →
        ∃ t : State, exec (.segmentQuery job pairs outs) s = .next (t.ended job St.DONE 0).told ∧ s.onlyTiles t x.ctx outs
          ∧ s.wrote t x.ctx outs (queryHead k e ++ poses.flatMap (s.segmentBytes e (s.model n))) ∧ (s.plainOuts x.ctx outs → t.log = s.log ∧ t.out = [])))
    ∧ (∀ p r misses, x.stop = none → x.decl.op = some (.run p) → Tab.get? s.u.plan.runs job = some r → s.get Obj.BRICK_MISSES + misses < 2 ^ 64 → s.get Obj.E2E_CHECKED + 1 < 2 ^ 64 →
        s.get Obj.RUNS_NO_PATH + 1 < 2 ^ 32 → s.get Obj.RUNS_DONE + 1 < 2 ^ 64 →
      let b := (s.sending []).counted 64 Obj.BRICK_MISSES misses
      let e := Tab.at s.u.plan.epochs r.epoch {}
      let pose (q : List Nat) : Pose := poseOf r.model .zero (q.map fp)
      let noPath (i : Instr) (outs : List (Nat × List Byte)) (bad : Bool) (reason : Nat) : Prop := s.outFault x.ctx outs = none → s.get Obj.SEED_STOCK_EN = 0 →
        ∃ t : State, exec i s = .next (t.ended job St.NO_PATH (0x0A20 + reason)).told ∧ t.get Obj.RUNS_NO_PATH = s.get Obj.RUNS_NO_PATH + 1 ∧ t.get Obj.E2E_CHECKED = s.get Obj.E2E_CHECKED + 1
          ∧ s.onlyTiles t x.ctx outs ∧ (bad = true → t.bytes = s.bytes) ∧ (bad = false → s.plainOuts x.ctx outs → t.log = s.log ∧ t.out = [])
      exec (.plannerSlice job misses .work) s = .next b.told
      ∧ (∀ outs bad, r.begun = false → s.mapLoss e ((p.start :: p.goals.map (·.1)).flatMap fun q => s.poseBricks (pose q)) = none →
        let i := Instr.plannerSlice job misses (.begin outs bad)
        (s.poseClear e r.model (pose p.start) = false → noPath i outs bad 3)
        ∧ (s.poseClear e r.model (pose p.start) = true → (∀ g ∈ p.goals, s.poseClear e r.model (pose g.1) = false) → noPath i outs bad 4)
        ∧ (s.poseClear e r.model (pose p.start) = true → (∃ g ∈ p.goals, s.poseClear e r.model (pose g.1) = true) → exec i s
            = .next (b.withUnits fun u => { u with plan := { u.plan with runs := Tab.upd u.plan.runs job r fun z => { z with begun := true } } }).told))
      ∧ (r.begun = true → r.cands = none →
        let f := s.searched e p r
        s.mapLoss e (f.1.flatMap fun w => (pathPoses r.model (s.get Obj.CHECK_STEP_MM) w).flatMap s.poseBricks) = none →
        ∃ t : State, exec (.plannerSlice job misses .search) s = .next t.told
          ∧ t.objs = (if p.method = 1 then b.putObj (Obj.ROADMAP_NODES p.model) f.2.2.2.1.length else b).objs ∧ t.bytes = s.bytes ∧ t.log = s.log ∧ t.out = []
          ∧ ∃ z cs, Tab.get? t.u.plan.runs job = some z ∧ z.cands = some cs ∧ z.samples = f.2.1 ∧ z.samples ≤ p.samples ∧ z.nodes = f.2.2.1 ∧ z.full = f.2.2.2.2 ∧ cs.length ≤ p.target
            ∧ (z.dropped = true ↔ ∃ c ∈ f.1, p.waypoints < c.length)
            ∧ ∀ c, c ∈ cs.map (·.1) ↔ (c ∈ f.1 ∧ s.isCand e r.model p c = true ∧ c.length ≤ p.waypoints))
      ∧ (∀ outs bad, r.cands = some [] → noPath (.plannerSlice job misses (.validate outs bad)) outs bad (if r.full then 5 else if r.dropped then 6 else 1))
      ∧ (∀ outs bad cs, r.cands = some cs → cs ≠ [] →
        let same := s.get Obj.EPOCH_NEWEST == r.epoch
        let v := s.validate r same s.newest 0 cs
        (same = false → s.mapLoss s.newest ((cs.take (v.1 + 1)).flatMap fun c => ((pathPoses r.model (s.get Obj.CHECK_STEP_MM) c.1).filter (s.touches r.dirty)).flatMap s.poseBricks) = none) →
        (v.2.2 = none → noPath (.plannerSlice job misses (.validate outs bad)) outs bad 2)
        ∧ (v.2.2.isSome → s.outFault x.ctx outs = none → s.get Obj.SEED_STOCK_EN = 0 →
          ∃ t : State, exec (.plannerSlice job misses (.validate outs bad)) s = .next (t.ended job St.DONE 0).told
            ∧ t.get Obj.RUNS_DONE = s.get Obj.RUNS_DONE + 1 ∧ t.get Obj.E2E_CHECKED = s.get Obj.E2E_CHECKED + 1 ∧ s.onlyTiles t x.ctx outs)))
    ∧ (∀ (t : State) p q r e, s.searchKey p r = t.searchKey p q → r.model = q.model → (∀ ps, s.poseClear e r.model ps = t.poseClear e q.model ps) →
        s.get (Obj.ROADMAP_LIMIT p.model) = t.get (Obj.ROADMAP_LIMIT p.model) → Tab.at s.u.plan.roads p.model [] = Tab.at t.u.plan.roads p.model [] →
        s.get Obj.CHECK_STEP_MM = t.get Obj.CHECK_STEP_MM → s.searched e p r = t.searched e p q)

/-! ## Time, fusion, control -/

/-- The time base (R311 to R314): a message of the selected source shows its offset and the rate, what it has learnt with a slew within the limit; beyond the step threshold, in
a state that lets time step, device time steps by it, counted and reported; otherwise time is not set: a first one acquires, the sixteenth in a row within the threshold locks, the
fourth in a row beyond four times it ends the lock; so does the source's time-out, and the base goes to HOLDOVER at the rate learnt last, counted and reported; TB_SET sets the
nanoseconds in a state that lets it, and is aborted in any other; TIME_NOW answers device time and latches its fraction for the session. Choices of the model that it rests on: log
entries 105, 111 and 182. -/
def Obligations.TimeBaseFollows : Prop :=
  ∀ s : State,
    (∀ kind t learnt slew, (kind = 1 ∨ kind = 2) →
      let off : Int := (if kind = 2 then t + Int.ofNat (s.get Obj.DC_EPOCH_OFFSET_NS) else t) - Int.ofNat s.ns
      let top := Int.ofNat (s.get Obj.SLEW_MAX_PPM) * 1000
      let rate := ofSigned 32 (learnt + max (-top) (min top slew)) % 2 ^ 64
      let st := s.get Obj.TB_STATE
      let begins := st = Tb.FREE ∨ st = Tb.HOLDOVER
      let far := s.get Obj.STEP_THRESHOLD_NS < off.natAbs
      let near := off.natAbs ≤ s.get Obj.LOCK_THRESHOLD_NS
      let inRun := if near then (if begins then 1 else s.u.time.inRun + 1) else 0
      let outRun := if 4 * s.get Obj.LOCK_THRESHOLD_NS < off.natAbs then s.u.time.outRun + 1 else 0
      ((s.get Obj.TB_SOURCE ≠ kind ∨ s.dev = Dev.STANDBY) → exec (.ptpMessage kind t learnt slew) s = .next (s.sending []))
      ∧ (s.get Obj.TB_SOURCE = kind → s.dev ≠ Dev.STANDBY → s.get Obj.TB_STEPS + 1 < 2 ^ 32 → s.get Obj.TB_LOCK_LOSSES + 1 < 2 ^ 32 →
        ∃ u : State, exec (.ptpMessage kind t learnt slew) s = .next u ∧ u.get Obj.TB_OFFSET_NS = ofSigned 64 off % 2 ^ 64 ∧ u.u.time.learnt = learnt ∧ u.bytes = s.bytes
        ∧ (s.maySetTime = true → far → u.time = (Int.ofNat s.time + off * 4294967296).toNat ∧ u.get Obj.TB_STEPS = s.get Obj.TB_STEPS + 1 ∧ u.get Obj.TB_RATE_PPB = rate
          ∧ u.get Obj.TB_STATE = (if begins then Tb.ACQUIRING else st) ∧ u.lastEvent Ev.TB_STEP 0xFFFF (ofSigned 64 off) 0 ∧ u.log.total = s.log.total + 1)
        ∧ ((s.maySetTime = false ∨ ¬ far) → u.time = s.time ∧ u.get Obj.TB_STEPS = s.get Obj.TB_STEPS
          ∧ ((begins ∨ st = Tb.ACQUIRING) → u.get Obj.TB_STATE = (if 16 ≤ inRun then Tb.LOCKED else Tb.ACQUIRING) ∧ u.u.time.inRun = inRun ∧ u.get Obj.TB_RATE_PPB = rate ∧ u.log = s.log ∧ u.out = [])
          ∧ (st = Tb.LOCKED → outRun < 4 → u.get Obj.TB_STATE = Tb.LOCKED ∧ u.u.time.inRun = inRun ∧ u.u.time.outRun = outRun ∧ u.get Obj.TB_RATE_PPB = rate ∧ u.log = s.log ∧ u.out = [])
          ∧ (st = Tb.LOCKED → 4 ≤ outRun → u.get Obj.TB_STATE = Tb.HOLDOVER ∧ u.get Obj.TB_LOCK_LOSSES = s.get Obj.TB_LOCK_LOSSES + 1 ∧ u.get Obj.TB_RATE_PPB = ofSigned 32 learnt % 2 ^ 64
            ∧ u.lastEvent Ev.TB_HOLDOVER 0xFFFF (ofSigned 64 off % 2 ^ 64) 0 ∧ u.log.total = s.log.total + 1))))
    ∧ exec .sourceTimeout s = .next (if s.get Obj.TB_STATE = Tb.LOCKED then
        (((s.puts [(Obj.TB_STATE, Tb.HOLDOVER), (Obj.TB_RATE_PPB, ofSigned 32 s.u.time.learnt)]).sending []).withTime fun x => { x with
          holdFrom := s.time, inRun := 0, outRun := 0 }).counted 32 Obj.TB_LOCK_LOSSES 1 |>.logged Ev.TB_HOLDOVER 0xFFFF (s.get Obj.TB_OFFSET_NS) 0
        else s.sending [])
    ∧ (∀ ses v, Wf.tbSet ses v = true → s.admits ses Obj.TB_SET v .sup →
      (s.maySetTime = true → s.time < 2 ^ 96 → s.get Obj.TB_STEPS + 1 < 2 ^ 32 → ∃ u : State, exec (.tbSet ses v) s = .next u
        ∧ u.time = v * 4294967296 + s.time % 4294967296 ∧ u.get Obj.TB_STEPS = s.get Obj.TB_STEPS + 1 ∧ u.lastEvent Ev.TB_STEP 0xFFFF (ofSigned 64 (Int.ofNat v - Int.ofNat s.ns)) 0
        ∧ (∀ k, k ≠ Obj.TB_STEPS → u.get k = s.get k) ∧ u.bytes = s.bytes)
      ∧ (s.maySetTime = false → exec (.tbSet ses v) s = .next ((s.aborted ses Ab.STATE_FORBIDS Obj.TB_SET).sending (replies ses Ab.STATE_FORBIDS))))
    ∧ (∀ ses, ses < 16 → s.reads ses Obj.TIME_NOW → exec (.timeNowRead ses) s = .next ((s.putObj (Obj.TIME_NOW_FRAC ses) s.frac).sending [.reply ses 0 (le 8 s.ns)]))

/-- Triggers and captures (R316 to R321): a pulse in progress whose width has gone by ends with the output at rest; a pulse whose start has come, a single one or one of a train,
begins, is counted, dated and sent; before that nothing happens. A level change that the filter takes for a glitch does nothing; an accepted edge is counted, stamped and joins the
FIFO, or is dropped where the FIFO is full or where it follows another within 40 ns; a read takes the oldest entry out and answers with it, or with 0. Choices of the model that it
rests on: log entry 82. -/
def Obligations.EdgesAreTimed : Prop :=
  ∀ (s : State) (n : Nat), n < 16 →
    ((s.trig n).high = true → s.ns < (s.trig n).ends → exec (.triggerEdge n) s = .next (s.sending []))
    ∧ ((s.trig n).high = true → (s.trig n).ends ≤ s.ns → s.groupPending (0x2210 + n) = false → exec (.triggerEdge n) s = .next ((s.withTime fun x => { x with
        trig := Tab.upd x.trig n {} fun y => { y with high := false } }).sending [.trigger n (s.trigLevel n false)]))
    ∧ ((s.trig n).high = false →
      let start := s.get (Obj.TRIG_START n)
      let period := s.get (Obj.TRIG_PERIOD_NS n)
      let k := if s.get (Obj.TRIG_MODE n) = 2 ∧ period ≠ 0 then (s.ns - start) / period else 0
      let at' := start + k * period
      (s.trigRuns n = true → s.trigPending n = true → start ≤ s.ns → (s.trig n).next ≤ k → s.groupPending (0x2210 + n) = false →
        exec (.triggerEdge n) s = .next ((((s.sending [.trigger n (s.trigLevel n true)]).counted 64 (Obj.TRIG_PULSES n) 1).putObj (Obj.TRIG_LAST_EDGE n) at').withTime
          fun x => { x with trig := Tab.upd x.trig n {} fun y => { y with high := true, next := k + 1, sent := y.sent + 1, ends := at' + s.get (Obj.TRIG_WIDTH_NS n) } }))
      ∧ ((s.trigRuns n = false ∨ s.trigPending n = false ∨ s.ns < start ∨ k < (s.trig n).next) → exec (.triggerEdge n) s = .next (s.sending [])))
    ∧ (∀ ns frac held rising lost learnt slew, frac < 65536 →
      let c := Tab.at s.u.time.cap n {}
      let drops := lost = true ∧ ∃ t, c.edge = some t ∧ ns < t + 40
      ((s.dev < Dev.PREOP ∨ held < s.get (Obj.CAP_FILTER_NS n)) → exec (.captureEdge n ns frac held rising lost learnt slew) s = .next (s.sending []))
      ∧ (Dev.PREOP ≤ s.dev → s.get (Obj.CAP_FILTER_NS n) ≤ held → (n = 0 → rising = true → s.get Obj.TB_SOURCE ≠ 3) → (∀ i < 64, s.get (Obj.SRC_KIND i) ≠ 3 ∨ s.get (Obj.SRC_LOCATOR i) % 16 ≠ n) →
          s.get (Obj.CAP_COUNT n) + 1 < 2 ^ 64 → s.get (Obj.CAP_DROPPED n) + 1 < 2 ^ 32 →
        let wanted := bit (s.get (Obj.CAP_EDGES n)) (if rising then 0 else 1)
        ∃ t : State, exec (.captureEdge n ns frac held rising lost learnt slew) s = .next (if wanted = true ∧ ¬ drops then t.fires 7 n ns frac else t).told
          ∧ t.get (Obj.CAP_LEVEL n) = (if rising then 1 else 0) ∧ (Tab.at t.u.time.cap n {}).edge = some ns ∧ t.bytes = s.bytes ∧ t.log = s.log ∧ t.out = []
          ∧ (wanted = true → ¬ drops → t.get (Obj.CAP_COUNT n) = s.get (Obj.CAP_COUNT n) + 1 ∧ (Tab.at t.u.time.cap n {}).last = some (ns, frac)
            ∧ (c.fifo.length < 64 → (Tab.at t.u.time.cap n {}).fifo = c.fifo ++ [(ns, frac, rising)] ∧ t.get (Obj.CAP_FIFO_FILL n) = c.fifo.length + 1 ∧ t.get (Obj.CAP_DROPPED n) = s.get (Obj.CAP_DROPPED n))
            ∧ (64 ≤ c.fifo.length → (Tab.at t.u.time.cap n {}).fifo = c.fifo ∧ t.get (Obj.CAP_FIFO_FILL n) = s.get (Obj.CAP_FIFO_FILL n) ∧ t.get (Obj.CAP_DROPPED n) = s.get (Obj.CAP_DROPPED n) + 1))
          ∧ ((wanted = false ∨ drops) → t.get (Obj.CAP_COUNT n) = s.get (Obj.CAP_COUNT n) ∧ (Tab.at t.u.time.cap n {}).fifo = c.fifo ∧ (Tab.at t.u.time.cap n {}).last = c.last
            ∧ t.get (Obj.CAP_DROPPED n) = s.get (Obj.CAP_DROPPED n) + (if wanted then 1 else 0))
          ∧ ∀ k, k ≠ Obj.CAP_LEVEL n → k ≠ Obj.CAP_COUNT n → k ≠ Obj.CAP_FIFO_FILL n → k ≠ Obj.CAP_DROPPED n → t.get k = s.get k))
    ∧ (∀ ses, ses < 16 → s.reads ses (Obj.CAP_READ n) →
      ((Tab.at s.u.time.cap n {}).fifo = [] → exec (.capRead ses n) s = .next ((s.putObj (Obj.CAP_READ_INFO ses n) 0).sending [.reply ses 0 (le 8 0)]))
      ∧ (∀ e rest, (Tab.at s.u.time.cap n {}).fifo = e :: rest → exec (.capRead ses n) s = .next
        (((s.withTime fun x => { x with cap := Tab.upd x.cap n {} fun c => { c with fifo := rest } }).puts [(Obj.CAP_FIFO_FILL n, rest.length),
          (Obj.CAP_READ_INFO ses n, e.2.1 * 65536 + 2 + (if e.2.2 then 1 else 0))]).sending [.reply ses 0 (le 8 e.1)])))

/-- Fusion (R326 to R341): a sample whose header, and whose sensor's own header where one is declared, pass their checks joins the inputs of its filter, one that comes late with no
window open is dropped, one that fails is counted and reported and joins none; so for a measurement that a program publishes, whose header the device makes, and one that does
not have its kind's values is refused. An input of the propagating source, once it is due, moves the filter's estimate; another is fused and makes the filter valid where
no other contradicts it, is left out where the rest of its group outvote it, and begins a conflict where two disagree; an estimate that diverges is reset and reported. A due
output is published and counted, unless its record's CRC is found wrong; a filter starts from its model's data, stops and is reset. Choices of the model that it rests on: log
entries 105, 108, 109, 110 and 181. -/
def Obligations.FusionRuns : Prop :=
  ∀ s : State,
    (∀ src header payload m, src < 64 → header.length = 32 → s.feeds src = true → (s.get (Obj.SRC_KIND src) = 1 ∨ s.get (Obj.SRC_KIND src) = 2) → s.groupPending (sourceCtl src) = false →
        s.get (Obj.SRC_SAMPLES src) + 1 < 2 ^ 64 → s.get Obj.E2E_CHECKED + 1 < 2 ^ 64 →
      let at' (i n : Nat) : Nat := ofLe ((header.drop i).take n)
      let c := at' 2 2
      let delta := s.get (Obj.SRC_MAX_DELTA src)
      let f := s.get (Obj.SRC_FILTER src)
      let sensor := sensorHeader payload
      let outer := headerFault (Tab.get? s.u.fus.counters src) c delta (at' 8 4 == crc 4 (header.take 8 ++ header.drop 12 ++ payload))
      let inner := if s.get (Obj.SRC_E2E_MODE src) = 0 then none
        else headerFault (Tab.get? s.u.fus.sensors src) sensor.1 delta (sensor.2.2 && sensor.2.1 == s.get (Obj.SRC_SENSOR_DATA_ID src))
      let taken (t : State) : Prop := t.get (Obj.SRC_SAMPLES src) = s.get (Obj.SRC_SAMPLES src) + 1 ∧ t.get Obj.E2E_CHECKED = s.get Obj.E2E_CHECKED + 1 ∧ t.bytes = s.bytes
      (outer = none → inner = none → (∀ l, (s.filter f).last = some l → l ≤ at' 16 8) →
        ∃ t : State, exec (.fusionSampleArrival src header payload m) s = .next t.told ∧ taken t ∧ Tab.get? t.u.fus.counters src = some c
          ∧ (t.filter f).queue.Perm ({ src := src, tov := at' 16 8, frac := at' 24 2, m := m } :: (s.filter f).queue) ∧ (t.filter f).hist = (s.filter f).hist ∧ t.log = s.log ∧ t.out = [])
      ∧ (∀ l, outer = none → inner = none → (s.filter f).last = some l → at' 16 8 < l → s.get (Obj.RETRO_WINDOW_MS f) = 0 → s.get (Obj.SRC_LATE_DROPPED src) + 1 < 2 ^ 32 →
        ∃ t : State, exec (.fusionSampleArrival src header payload m) s = .next t.told ∧ taken t ∧ t.get (Obj.SRC_LATE_DROPPED src) = s.get (Obj.SRC_LATE_DROPPED src) + 1
          ∧ t.u.fus.filters = s.u.fus.filters ∧ t.log = s.log ∧ t.out = [])
      ∧ (∀ w, (outer.map fun w => (c, w)).or (inner.map fun w => (sensor.1, w)) = some w → Tab.at s.u.safe.e2e src 0 + 1 < s.get Obj.E2E_FAIL_LIMIT → s.get Obj.E2E_FAILED + 1 < 2 ^ 32 →
          s.get (Obj.SRC_E2E_FAILS src) + 1 < 2 ^ 32 →
        ∃ t : State, exec (.fusionSampleArrival src header payload m) s = .next t.told ∧ taken t ∧ t.get (Obj.SRC_E2E_FAILS src) = s.get (Obj.SRC_E2E_FAILS src) + 1
          ∧ t.get Obj.E2E_FAILED = s.get Obj.E2E_FAILED + 1 ∧ t.lastEvent Ev.E2E_FAIL src w.1 w.2 ∧ t.log.total = s.log.total + 1 ∧ t.u.fus.filters = s.u.fus.filters))
    ∧ (∀ job y src tov frac m, src < 64 → frac < 65536 → Tab.get? s.u.tt.jobs job = some y → src ∈ y.decl.sources → (y.phase = .running ∨ y.phase = .draining) → s.groupPending (sourceCtl src) = false →
      (s.measFits src m = false → exec (.programMeasurement job src tov frac m) s = .next ((s.sending []).counted 32 Obj.PROGRAM_REFUSED 1).told)
      ∧ (s.measFits src m = true → s.feeds src = true → s.get (Obj.SRC_KIND src) = 4 → s.get (Obj.SRC_E2E_MODE src) = 0 → s.get (Obj.SRC_SAMPLES src) + 1 < 2 ^ 64 →
          headerFault (Tab.get? s.u.fus.counters src) (Tab.at s.u.fus.made src 0) (s.get (Obj.SRC_MAX_DELTA src)) true = none → (∀ l, (s.filter (s.get (Obj.SRC_FILTER src))).last = some l → l ≤ tov) →
        ∃ t : State, exec (.programMeasurement job src tov frac m) s = .next t.told ∧ t.get (Obj.SRC_SAMPLES src) = s.get (Obj.SRC_SAMPLES src) + 1
          ∧ (t.filter (s.get (Obj.SRC_FILTER src))).queue.Perm ({ src := src, tov := tov, frac := frac, m := m } :: (s.filter (s.get (Obj.SRC_FILTER src))).queue)
          ∧ Tab.get? t.u.fus.made src = some ((Tab.at s.u.fus.made src 0 + 1) % 65536) ∧ t.bytes = s.bytes ∧ t.log = s.log ∧ t.out = []))
    ∧ (∀ n i rest bad, n < 8 → s.filterOn n = true → s.groupPending (filterCtl n) = false → (s.filter n).queue = i :: rest → i.src < 64 → s.get (Obj.SRC_FILTER i.src) = n →
        i.tov + s.get (Obj.ALIGN_DELAY_NS n) < s.ns → (s.get (Obj.SRC_MEAS_KIND i.src) = 6 → (s.filter n).hist.foldl (fun m e => min m e.tov) ((s.filter n).last.getD (s.filter n).started) ≤ i.m.earlier) → (∀ h ∈ (s.filter n).hist, laterTov (h.tov, h.frac) (i.tov, i.frac) = false) →
        s.get (Obj.SRC_FUSED i.src) + 1 < 2 ^ 64 → s.get (Obj.UPDATES n) + 1 < 2 ^ 64 → s.get (Obj.DIVERGENCES n) + 1 < 2 ^ 32 →
        (∀ o ∈ s.outputsOf n, s.get (Obj.OUT_ON_UPDATE o) = 0 ∧ s.groupPending (outputCtl o) = false) →
      let hist := (s.filter n).hist
      let v := s.eventOf i.src i.tov i.frac i.m
      let tried := s.ran n hist (s.filter n).base { v with fused := true }
      let c := { v with nu := tried.1.nu }
      let stored (t : State) (w : FusEvent) : Prop := (t.filter n).queue = rest ∧ (t.filter n).hist.head? = some w ∧ t.bytes = s.bytes
        ∧ (w.isReset = false → t.log = s.log ∧ t.out = [] ∧ t.get (Obj.DIVERGENCES n) = s.get (Obj.DIVERGENCES n))
        ∧ (w.isReset = true → t.get (Obj.FILTER_STATE n) = 3 ∧ t.get (Obj.DIVERGENCES n) = s.get (Obj.DIVERGENCES n) + 1 ∧ t.lastEvent Ev.FILTER_DIVERGED n i.tov 0)
      (v.group = 64 → ∃ t : State, exec (.fusionInputRelease n bad) s = .next t.told ∧ stored t (s.ran n hist (s.filter n).base v).1 ∧ t.get (Obj.SRC_LAST_TOV i.src) = i.tov % 2 ^ 64
          ∧ t.get (Obj.SRC_FUSED i.src) = s.get (Obj.SRC_FUSED i.src) + 1 ∧ t.get (Obj.UPDATES n) = s.get (Obj.UPDATES n)
          ∧ ((s.ran n hist (s.filter n).base v).1.isReset = false → t.get (Obj.FILTER_STATE n) = s.get (Obj.FILTER_STATE n)))
      ∧ (v.group ≠ 64 → s.verdict (s.gateSet n hist c) c = .pass → (∀ e ∈ s.gateSet n hist c, s.inConflict e.src = false) →
          (s.get (Obj.SRC_INNOV_GATE_EN i.src) = 0 ∨ (fp (s.get (Obj.SRC_GATE_CHI2 i.src))).lt tried.2 = false) →
        ∃ t : State, exec (.fusionInputRelease n bad) s = .next t.told ∧ stored t tried.1 ∧ t.get (Obj.SRC_LAST_TOV i.src) = i.tov % 2 ^ 64 ∧ t.get (Obj.SRC_FUSED i.src) = s.get (Obj.SRC_FUSED i.src) + 1
          ∧ t.get (Obj.UPDATES n) = s.get (Obj.UPDATES n) + 1 ∧ (tried.1.isReset = false → t.get (Obj.FILTER_STATE n) = 2))
      ∧ (v.group ≠ 64 → s.verdict (s.gateSet n hist c) c = .outlier → s.get (Obj.SRC_EXCLUDED i.src) + 1 < 2 ^ 32 →
        ∃ t : State, exec (.fusionInputRelease n bad) s = .next t.told ∧ stored t (s.ran n hist (s.filter n).base v).1 ∧ t.get (Obj.SRC_EXCLUDED i.src) = s.get (Obj.SRC_EXCLUDED i.src) + 1
          ∧ t.get (Obj.SRC_FUSED i.src) = s.get (Obj.SRC_FUSED i.src) ∧ t.get (Obj.UPDATES n) = s.get (Obj.UPDATES n))
      ∧ (v.group ≠ 64 → s.verdict (s.gateSet n hist c) c = .conflict → ∃ t : State, exec (.fusionInputRelease n bad) s = .next t.told ∧ (∀ e ∈ s.gateSet n hist c, e.src < 64 → t.inConflict e.src = true)
          ∧ t.get (Obj.SRC_FUSED i.src) = s.get (Obj.SRC_FUSED i.src) ∧ t.get (Obj.UPDATES n) = s.get (Obj.UPDATES n)))
    ∧ (∀ o k bad, o < 64 → s.groupPending (outputCtl o) = false → s.get (Obj.OUT_FILTER o) < 8 → s.groupPending (filterCtl (s.get (Obj.OUT_FILTER o))) = false → s.filterOn (s.get (Obj.OUT_FILTER o)) = true →
        s.get (Obj.OUT_PERIOD_NS o) ≠ 0 →
      let f := s.filter (s.get (Obj.OUT_FILTER o))
      let tov := k * s.get (Obj.OUT_PERIOD_NS o)
      let due := f.started ≤ tov ∧ tov + s.get (Obj.ALIGN_DELAY_NS (s.get (Obj.OUT_FILTER o))) ≤ s.ns ∧ (∀ i ∈ f.queue, tov < i.tov) ∧ ∀ p ∈ (s.outRec o).pubs, p.1 < tov
      (¬ due → exec (.periodicPublication o k bad) s = .next (s.sending []).told)
      ∧ (due → bad = true → ∃ t : State, exec (.periodicPublication o k bad) s = .next t.told ∧ t.get (Obj.OUT_PUBLISHED o) = s.get (Obj.OUT_PUBLISHED o) ∧ (t.outRec o).pubs = (s.outRec o).pubs)
      ∧ (due → bad = false → s.get (Obj.OUT_PUBLISHED o) + 1 < 2 ^ 64 → s.get Obj.E2E_CHECKED + 1 < 2 ^ 64 → s.get (Obj.OUT_MSIX_EN o) = 0 →
        ∃ t : State, exec (.periodicPublication o k bad) s = .next (t.fires 4 o tov 0).told ∧ t.get (Obj.OUT_PUBLISHED o) = s.get (Obj.OUT_PUBLISHED o) + 1
          ∧ t.get Obj.E2E_CHECKED = s.get Obj.E2E_CHECKED + 1 ∧ (t.outRec o).pubs.head? = some (tov, 0, 0) ∧ (t.outRec o).contrib = 0 ∧ (t.outRec o).excluded = 0 ∧ t.bytes = s.bytes
          ∧ ((s.get (Obj.OUT_HOST_EN o) = 0 ∨ s.hostReachable = false) → (f.last.any fun l => decide (tov < l)) = true → t.log = s.log ∧ t.out = [])
          ∧ (s.get (Obj.OUT_HOST_EN o) ≠ 0 → s.hostReachable = true → (f.last.any fun l => decide (tov < l)) = true →
            let a := s.get (Obj.OUT_HOST_BASE o) + (s.get (Obj.OUT_PUBLISHED o) + 1) % 4294967296 % 256 * 256
            ∃ bs : List Byte, bs.length = 256 ∧ t.out = [.hostWrite (a + 12) (bs.drop 12), .hostWrite a (bs.take 12)])))
    ∧ (∀ ses n, ses < 16 → n < 8 → s.groupPending (filterCtl n) = false →
      (s.admits ses (Obj.FILTER_COMMAND n) 1 .sup → (s.dev = Dev.OP ∨ s.dev = Dev.HOLD) → s.get (Obj.FILTER_MODEL n) ≠ 0 →
        (s.filterOn n = true → exec (.filterStart ses n) s = .next (s.sending (replies ses 0)))
        ∧ (s.filterOn n = false → ∃ t : State, exec (.filterStart ses n) s = .next t ∧ t.get (Obj.FILTER_STATE n) = 1
          ∧ t.filter n = { started := s.ns, base := s.initEst n (s.ns, s.frac) [] } ∧ t.bytes = s.bytes ∧ t.log = s.log ∧ t.out = replies ses 0))
      ∧ (s.admits ses (Obj.FILTER_COMMAND n) 1 .sup → ((s.dev ≠ Dev.OP ∧ s.dev ≠ Dev.HOLD) ∨ s.get (Obj.FILTER_MODEL n) = 0) →
        exec (.filterStart ses n) s = .next ((s.aborted ses Ab.STATE_FORBIDS (Obj.FILTER_COMMAND n)).sending (replies ses Ab.STATE_FORBIDS)))
      ∧ (s.admits ses (Obj.FILTER_COMMAND n) 2 .sup → s.u.dict.pendingGroups = [] → exec (.filterStop ses n) s = .next ((((s.puts [(Obj.FILTER_STATE n, 0), (Obj.HISTORY_SPAN_MS n, 0)]).withFilter n fun f => { f with
          queue := [], hist := [], base := {}, last := none }).sending (replies ses 0))))
      ∧ (s.admits ses (Obj.FILTER_COMMAND n) 3 .sup → s.filterOn n = false → exec (.filterReset ses n) s = .next (s.sending (replies ses 0)))
      ∧ (s.admits ses (Obj.FILTER_COMMAND n) 3 .sup → s.filterOn n = true →
        let tov := max s.ns ((s.filter n).last.getD 0)
        (∀ h ∈ (s.filter n).hist, laterTov (h.tov, h.frac) (tov, 0) = false) → ∃ t : State, exec (.filterReset ses n) s = .next t ∧ t.get (Obj.FILTER_STATE n) = 3
          ∧ (∃ w, (t.filter n).hist.head? = some w ∧ w.tov = tov ∧ w.est.x = (s.initEst n (tov, 0) []).x ∧ w.est.p = (s.initEst n (tov, 0) []).p)
          ∧ (∀ k, k ≠ Obj.FILTER_STATE n → k ≠ Obj.HISTORY_SPAN_MS n → k ≠ Obj.FUSION_OPS → t.get k = s.get k) ∧ t.bytes = s.bytes ∧ t.log = s.log ∧ t.out = replies ses 0))

/-- Closed-loop control (R370, R376, R379, R381 to R393): a sample in time of an active channel is used, its command departs and its latency is shown, an
implausible one is counted and handled as missing; a sample that has not come by its deadline is counted missing and the channel goes on by its loss mode, one too many in a row
being a FAULT, which is reported; a reference from a session or from a job of its context is taken up, and folded in
by the next background update; a job that writes a reference it may not write ends (R390); a channel starts, stops and leaves its FAULT by its commands, and a command that
its state does not allow is aborted. Choices of the model that it rests on: log entries 57, 112 and 184. -/
def Obligations.ChannelsControl : Prop :=
  ∀ (s : State) (c : Nat), c < 288 →
    (∀ lat d, lat < 4294967296 → s.waits c = true → s.served c = true → (s.dev = Dev.OP ∨ s.dev = Dev.HOLD) → s.delivered (s.ioMap c) = some d → (∀ u, (s.chan c).used = some u → u ≤ d.1) →
        (∀ e ∈ (s.chan c).missing, e.1 ≠ d.1) → d.2.2.2 ≤ s.instant (s.ioMap c) d.1 + s.get (Obj.MISS_AFTER_NS c) → s.get (Obj.SAMPLES c) + 1 < 2 ^ 64 →
      (∀ ys, s.sampleIn (s.ioMap c) = some ys → (s.get (Obj.CH_STATE c) = 1 ∨ s.get (Obj.CH_STATE c) = 2 ∨ (s.get (Obj.CH_STATE c) = 0 ∧ (s.chan c).begin = true)) →
        ∃ t : State, exec (.controlSampleArrival c lat none) s = .next (t.fires 3 c d.2.1 d.2.2.1).told ∧ t.get (Obj.LAST_TOV c) = d.2.1 % 2 ^ 64 ∧ t.get (Obj.LAT_LAST_NS c) = lat
          ∧ t.get (Obj.SAMPLES c) = s.get (Obj.SAMPLES c) + 1 ∧ t.get (Obj.CONSEC_MISSED c) = 0 ∧ (t.chan c).used = some d.1 ∧ (t.chan c).consec = 0)
      ∧ (s.sampleIn (s.ioMap c) = none → s.get (Obj.IMPLAUSIBLE c) + 1 < 2 ^ 32 → s.get (Obj.MISSED c) + 1 < 2 ^ 32 →
        ∃ t : State, exec (.controlSampleArrival c lat none) s = .next t.told ∧ t.get (Obj.IMPLAUSIBLE c) = s.get (Obj.IMPLAUSIBLE c) + 1 ∧ t.get (Obj.MISSED c) = s.get (Obj.MISSED c) + 1
          ∧ (t.chan c).used = some d.1 ∧ (t.chan c).seen = some d.1))
    ∧ (∀ k lat, lat < 4294967296 → s.takes c = true → (s.dev = Dev.OP ∨ s.dev = Dev.HOLD) → s.instant (s.ioMap c) k + s.get (Obj.MISS_AFTER_NS c) ≤ s.ns → (∀ j, (s.chan c).seen = some j → j < k) →
        (∀ d, s.delivered (s.ioMap c) = some d → d.1 < k ∨ s.instant (s.ioMap c) k + s.get (Obj.MISS_AFTER_NS c) < d.2.2.2) → (s.chan c).begin = false →
        (s.chan c).bg = none → (s.chan c).fold = none → s.get (Obj.SAMPLES c) + 1 < 2 ^ 64 → s.get (Obj.MISSED c) + 1 < 2 ^ 32 → s.get (Obj.CONSEC_MISSED c) + 1 < 256 →
      ∃ t : State, exec (.sampleMissed c k lat) s = .next ((path c k (s.instant (s.ioMap c) k + s.get (Obj.MISS_AFTER_NS c) + lat) none (some (s.get (Obj.LOSS_MODE c)))).run t).told
        ∧ t.get (Obj.MISSED c) = s.get (Obj.MISSED c) + 1 ∧ t.get (Obj.SAMPLES c) = s.get (Obj.SAMPLES c) + 1 ∧ t.get (Obj.CONSEC_MISSED c) = s.get (Obj.CONSEC_MISSED c) + 1
        ∧ (t.chan c).seen = some k ∧ (t.chan c).consec = (s.chan c).consec + 1 ∧ t.bytes = s.bytes
        ∧ ((s.chan c).consec + 1 ≤ s.get (Obj.MAX_MISSED c) → t.get (Obj.CH_STATE c) = s.get (Obj.CH_STATE c) ∧ t.log = s.log ∧ t.out = [])
        ∧ ((s.get (Obj.CH_STATE c) = 1 ∨ s.get (Obj.CH_STATE c) = 2) → s.get (Obj.MAX_MISSED c) < (s.chan c).consec + 1 →
          t.get (Obj.CH_STATE c) = 3 ∧ t.lastEvent Ev.CHANNEL_FAULT c (s.get (Obj.CONSEC_MISSED c) + 1) (s.get (Obj.FAULT_MODE c)) ∧ t.log.total = s.log.total + 1))
    ∧ (∀ vals tov, (s.chan c).newRef = some (vals, tov) → (s.chan c).bg = none → (s.chan c).fold = none → ∃ t : State, exec (.backgroundUpdateDone c) s = .next t ∧ t.get (Obj.REF_TOV c) = tov % 2 ^ 64 ∧ (t.chan c).ref = vals
        ∧ (t.chan c).newRef = none ∧ t.bytes = s.bytes ∧ t.log = s.log ∧ t.out = [])
    ∧ (∀ ses, ses < 16 → s.admits ses (Obj.REF_GO c) 1 .host →
        exec (.refGo ses c) s = .next ((s.withChan c fun x => { x with newRef := some ((List.range (min 8 (s.coeffs c).nr)).map fun i => s.get (Obj.REF c i), s.ns) }).sending (replies ses 0)))
    ∧ (∀ job j tov vals, Tab.get? s.u.tt.jobs job = some j → (j.phase = .running ∨ j.phase = .draining) →
      (j.ctx = s.get (Obj.REF_CONTEXT c) → s.get (Obj.CH_STATE c) ≠ 0 → vals.length = (s.coeffs c).nr → (∀ v ∈ vals, (fp v).isFin = true) →
        exec (.jobReferenceWrite job c tov vals) s = .next ((s.withChan c fun x => { x with newRef := some (vals, tov) }).sending []).told)
      ∧ (j.ctx ≠ s.get (Obj.REF_CONTEXT c) → exec (.jobReferenceWrite job c tov vals) s = .next ((s.sending []).ended job St.ACCESS_DENIED 0x0B01).told)
      ∧ (j.ctx = s.get (Obj.REF_CONTEXT c) → (s.get (Obj.CH_STATE c) = 0 ∨ vals.length ≠ (s.coeffs c).nr ∨ ∃ v ∈ vals, (fp v).isFin = false) →
        exec (.jobReferenceWrite job c tov vals) s = .next ((s.sending []).ended job St.CONFIG_INVALID 0x0B00).told))
    ∧ (∀ ses, ses < 16 →
      (s.admits ses (Obj.CH_COMMAND c) 1 .sup → (s.dev = Dev.OP ∨ s.dev = Dev.HOLD) → s.get (Obj.CH_STATE c) = 0 →
        exec (.chStart ses c) s = .next (((s.withChan c fun x => { x with begin := true, load := true, ramp := false, consec := 0 }).puts [(Obj.CONSEC_MISSED c, 0), (Obj.LAT_MAX_NS c, 0)]).sending (replies ses 0)))
      ∧ (s.admits ses (Obj.CH_COMMAND c) 2 .sup → (s.get (Obj.CH_STATE c) = 1 ∨ s.get (Obj.CH_STATE c) = 2 ∨ s.get (Obj.CH_STATE c) = 3) →
        exec (.chStop ses c) s = .next (((s.putObj (Obj.CH_STATE c) 4).withChan c fun x => { x with begin := false }).sending (replies ses 0)))
      ∧ (s.admits ses (Obj.CH_COMMAND c) 3 .sup → s.get (Obj.CH_STATE c) = 3 → s.groupPending (chanCtl c) = false →
        ∃ t : State, exec (.chClear ses c) s = .next t ∧ t.get (Obj.CH_STATE c) = 0 ∧ (t.chan c).begin = false)
      ∧ (∀ i v, ((i = .chStart ses c ∧ v = 1 ∧ ((s.dev ≠ Dev.OP ∧ s.dev ≠ Dev.HOLD) ∨ s.get (Obj.CH_STATE c) ≠ 0))
          ∨ (i = .chStop ses c ∧ v = 2 ∧ s.get (Obj.CH_STATE c) ≠ 1 ∧ s.get (Obj.CH_STATE c) ≠ 2 ∧ s.get (Obj.CH_STATE c) ≠ 3) ∨ (i = .chClear ses c ∧ v = 3 ∧ s.get (Obj.CH_STATE c) ≠ 3)) →
        s.admits ses (Obj.CH_COMMAND c) v .sup → exec i s = .next ((s.aborted ses Ab.STATE_FORBIDS (Obj.CH_COMMAND c)).sending (replies ses Ab.STATE_FORBIDS))))

/-! ## Links -/

/-- The host link and Ethernet (R39, R470 to R480, R498): a PCIe link that comes up with Bus Master Enable opens session 0, one that goes down closes it, is counted and ends
the jobs whose access fails with it;
a function-level reset closes it and keeps every other object; a retired lane is taken by the spare, or its port is lost where there is none, its
port's link down, and reported; a port's link comes up at a rate
and goes down; a port that carries IP answers a request; a request without an acknowledgement is sent again up to seven times; an exchange of a collective
is taken into its tile, combined with what the tile holds on the hops of a reduction, and goes on to the next member unless the ring ends there; a mismatch, a queue pair in error,
a CHECK that does not hold or a time-out counts and ends the job. Choices of the model that it rests on: log entries 115, 116, 117 and 167. -/
def Obligations.HostAndNetworkLinks : Prop :=
  ∀ s : State,
    (∀ rate width aerC aerU jobs, rate ≤ 6 → width ≤ 8 →
      (s.u.links.perst = true → s.get (Obj.DOM_STATE 70) = 2 → s.isOpen 0 = false → s.dev ≠ Dev.STANDBY →
        exec (.pcieLinkChange true true false rate width aerC aerU jobs) s = .next ((((((s.withLinks fun y => { y with l0 := true, bme := true, d3 := false }).puts
          [(Obj.PCIE_RATE, rate), (Obj.PCIE_WIDTH, width)]).sending []).counted 32 Obj.AER_CORRECTABLE aerC).counted 32 Obj.AER_UNCORRECTABLE aerU).opened 0 1 0 0).told)
      ∧ (s.u.links.l0 = true → s.isOpen 0 = true →
        exec (.pcieLinkChange false false false rate width aerC aerU jobs) s = .next (((jobs.eraseDups.filter fun j => (Tab.get? s.u.tt.jobs j).isSome).foldl
          (fun (t : State) j => (t.counted 32 Obj.HOST_ACCESS_FAILS 1).ended j St.ACCESS_DENIED 0x0F01) (((((((s.withLinks fun y => { y with l0 := false, bme := false, d3 := false }).puts
          [(Obj.PCIE_RATE, 0), (Obj.PCIE_WIDTH, 0)]).sending []).counted 32 Obj.LINK_DOWNS 1).counted 32 Obj.AER_CORRECTABLE aerC).counted 32 Obj.AER_UNCORRECTABLE aerU).closed 0))).told))
    ∧ (s.isOpen 0 = true → exec .functionLevelReset s = .next ((((s.withLinks fun y => { y with bme := false, d3 := false }).withUnits fun u => { u with
        dict := { u.dict with holdoff := [], raised := [] } }).sending []).closed 0))
    ∧ exec .perstRelease s = .next ((s.withLinks fun y => { y with perst := true }).sending [])
    ∧ (∀ lane cause, lane < 4 →
        let gone (t : State) (why : Nat) : Prop := lane ∈ t.u.links.retired ∧ t.get (Obj.PORT_LINK (s.portOfLane lane)) = 0 ∧ t.bytes = s.bytes
          ∧ (s.get Obj.SPARE_LANE_USED = 0xFF → t.get Obj.SPARE_LANE_USED = lane ∧ t.u.links.dead = s.u.links.dead ∧ t.lastEvent Ev.ETH_LANE_RETIRED lane why 1)
          ∧ (s.get Obj.SPARE_LANE_USED ≠ 0xFF → t.get Obj.SPARE_LANE_USED = s.get Obj.SPARE_LANE_USED ∧ s.portOfLane lane ∈ t.u.links.dead ∧ t.lastEvent Ev.ETH_LANE_RETIRED lane why 0)
        (cause < 2 → s.get (Obj.DOM_STATE 71) = 2 → ∃ t : State, exec (.ethLaneRetireAuto lane cause) s = .next t ∧ gone t cause)
        ∧ (∀ ses port k, ses < 16 → port < 4 → k ≤ 3 → s.admits ses (Obj.LANE_RETIRE port) k .svc → (s.lanesOf port)[k]? = some lane → ∃ t : State, exec (.laneRetire ses port k) s = .next t ∧ gone t 2))
    ∧ (∀ port rate, port < 4 → rate ≤ 5 →
      (rate ≠ 0 → s.get (Obj.PORT_ENABLE port) ≠ 0 → s.get (Obj.DOM_STATE 71) = 2 → port ∉ s.u.links.dead → s.lanesOf port ≠ [] → exec (.ethPortLinkChange port rate) s = .next ((s.putObj (Obj.PORT_LINK port) rate).sending []))
      ∧ (rate ≠ 0 → (s.get (Obj.PORT_ENABLE port) = 0 ∨ s.get (Obj.DOM_STATE 71) ≠ 2 ∨ port ∈ s.u.links.dead ∨ s.lanesOf port = []) → exec (.ethPortLinkChange port rate) s = .next (s.sending []))
      ∧ (rate = 0 → s.get (Obj.PORT_LINK port) = 0 → exec (.ethPortLinkChange port 0) s = .next (s.sending []))
      ∧ (rate = 0 → s.get (Obj.PORT_LINK port) ≠ 0 → (s.get Obj.TB_SOURCE ≠ 1 ∨ s.get Obj.PTP_PORT ≠ port ∨ s.get Obj.TB_STATE ≠ Tb.LOCKED) → exec (.ethPortLinkChange port 0) s = .next (((s.putObj (Obj.PORT_LINK port) 0).sending []).counted 32 (Obj.PORT_LINK_DOWNS port) 1))
      ∧ (∀ reply, exec (.arpOrIcmpEchoRequest port reply) s
        = .next (s.sending (if s.get (Obj.PORT_LINK port) ≠ 0 ∧ s.get (Obj.IP_ADDR port) ≠ 0 then [.frame (.ethernet port) reply] else []))))
    ∧ (∀ qp x jobs, qp < 4294967296 → Tab.at s.u.links.qps qp {} = x → x.failed = false →
      (x.retries < 7 → exec (.roceAckTimeout qp jobs) s = .next ((s.withLinks fun y => { y with qps := Tab.set y.qps qp { x with retries := x.retries + 1 } }).sending [.frame (.roce qp) []]).told)
      ∧ (7 ≤ x.retries → exec (.roceAckTimeout qp jobs) s = .next (jobs.eraseDups.foldl (fun t j => (collFails j St.TIER_FAIL 0x0F10).run t)
        ((s.withLinks fun y => { y with qps := Tab.set y.qps qp { x with failed := true } }).sending [])).told))
    ∧ (∀ job j c, Tab.get? s.u.tt.jobs job = some j → j.decl.coll = some c → c.group < 8 →
      let qp := s.get (Obj.COLL_QP_NEXT c.group)
      let prev := s.get (Obj.COLL_QP_PREV c.group)
      let failed (q : Nat) : Prop := (Tab.at s.u.links.qps q {}).failed = true
      let fails (st detail : Nat) : Host.Outcome State Fault Refusal := .next (((s.sending []).counted 32 (Obj.COLL_FAILS c.group) 1).ended job st detail).told
      (∀ x, Wf.collectiveExchange job x = true → j.phase ≠ .ready →
        let meets := c.group = x.group ∧ c.bytes = x.bytes ∧ opsMeet c.op x.op = true
        let whole := x.data = [] ∨ ofLe (x.tag.drop 28) = crc32c (tileSlice x.data 0)
        (¬ meets → exec (.collectiveExchange job x) s = fails St.CONFIG_INVALID 0x0F12)
        ∧ (meets → (failed qp ∨ failed prev) → exec (.collectiveExchange job x) s = fails St.TIER_FAIL 0x0F10)
        ∧ (meets → ¬ failed qp → ¬ failed prev → ¬ whole → exec (.collectiveExchange job x) s = fails St.TIER_FAIL 0x0F13)
        ∧ (meets → ¬ failed qp → ¬ failed prev → whole → x.data ≠ [] → ∀ a, c.tiles[x.place]? = some a → s.writeFault j.ctx a x.tag = none → s.get Obj.SEED_STOCK_EN = 0 →
          let h := hops (s.members c.group) c.op
          let combine := x.hop < h.2
          (combine → s.lossOf (tileNo a) = none ∧ reducible x.tag = true) →
          let bs := if combine then (reduceTiles x.tag (s.payload (tileNo a)) x.data fun i => s.free i 64).1 else tileSlice x.data 0
          ∃ u : State, exec (.collectiveExchange job x) s = .next u.told ∧ s.onlyTiles u j.ctx [(a, [])] ∧ s.wrote u j.ctx [(a, x.tag)] bs
            ∧ (Tab.at u.u.links.qps qp {}).retries = 0 ∧ (Tab.at u.u.links.qps prev {}).retries = 0
            ∧ (s.plainTile (tileNo a) → u.log = s.log ∧ u.out = if x.hop + 1 < h.1 then [.frame (.roce qp) bs] else [])))
      ∧ (s.get Obj.COLL_NO_LIMIT = 0 → exec (.collectiveTimeout job) s = .next (((s.sending []).counted 32 (Obj.COLL_FAILS c.group) 1).ended job St.TIER_FAIL 0x0F11).told))

/-- EtherCAT lines and the slave port (R315, R371, R482 to R489): a cycle begins at SYNC0; the line's group applies, its input frames leave with device time, once, from both ports while
the ring is broken, and the command frame with them where no channel writes to the line; an input frame that passes its checks is the line's input image, one that does not is counted under the check it fails; a change of the ring is shown; a LOST
line comes back by the probe that all slaves answer; the slave port's link opens and closes session 1. Choices of the model that it rests on: log entries 58 and 113. -/
def Obligations.FieldBusLinks : Prop :=
  ∀ (s : State) (l : Nat), l < 2 →
    (∀ k, s.lineRuns l = true → s.sync0 l k ≤ s.ns → (∀ j, (s.line l).cycle = some j → j < k) →
      let b := (s.withLine l fun x => { x with cycle := some k }).sending []
      exec (.ecatSync0 l k) s = .next (if s.groupPending (lineCtl l) then (applyLine l).run b else b))
    ∧ (∀ k, (s.line l).cycle = some k → s.lineRuns l = true → s.sync0 l k + s.get (Obj.INPUT_LAUNCH_NS l) ≤ s.ns → (s.line l).launched ≠ some k →
        let b := (s.withLine l fun x => { x with launched := some k }).sending
          (List.replicate (if 2 ≤ s.get (Obj.LINE_STATE l) then 2 else 1) (.frame (.ecatInput l) (le 8 (s.ns - s.get Obj.DC_EPOCH_OFFSET_NS))))
        exec (.ecatInputLaunch l) s = .next (if s.chans.any (s.writesLine l) then b else (launchCommand l k s.ns).run b))
    ∧ (∀ k j image, Wf.ecatInputFrame l k image true true = true → (s.line l).launched = some j → s.lineRuns l = true →
      (j = k → exec (.ecatInputFrame l k image true true) s = .next (((s.image (lineIn l) 4096 image).withLine l fun x => { x with frame := some (k, s.ns) }).sending []))
      ∧ (∀ fcs wkc, j < k → exec (.ecatInputFrame l k image fcs wkc) s = .next (s.sending []))
      ∧ (∀ wkc, k ≤ j → exec (.ecatInputFrame l k image false wkc) s = .next ((s.sending []).counted 32 (Obj.FCS_ERRORS l) 1))
      ∧ (∀ wkc, k < j → exec (.ecatInputFrame l k image true wkc) s = .next ((s.sending []).counted 32 (Obj.FRAMES_STALE l) 1))
      ∧ (j = k → exec (.ecatInputFrame l k image true false) s = .next ((s.sending []).counted 32 (Obj.WKC_ERRORS l) 1)))
    ∧ (∀ st delay found, Wf.ecatRingChange l st delay found = true → s.get (Obj.LINE_STATE l) ≠ 0 → s.get (Obj.LINE_STATE l) ≠ 3 →
        exec (.ecatRingChange l st delay found) s = .next ((s.puts [(Obj.LINE_STATE l, st), (Obj.RING_DELAY_NS l, delay), (Obj.SLAVES_FOUND l, found)]).sending []))
    ∧ (∀ found st delay, Wf.ecatLineProbe l found st delay true = true → s.get (Obj.LINE_STATE l) = 3 →
      exec (.ecatLineProbe l found st delay false) s = .next ((s.putObj (Obj.SLAVES_FOUND l) found).sending [])
      ∧ (∃ t : State, exec (.ecatLineProbe l found st delay true) s = .next t ∧ t.objs = (s.puts [(Obj.SLAVES_FOUND l, found), (Obj.LINE_STATE l, st), (Obj.RING_DELAY_NS l, delay)]).objs
          ∧ (t.line l).al = (if s.get (Obj.AUTO_RECOVER l) = 0 then 1 else s.lineAl l) ∧ t.bytes = s.bytes ∧ t.log = s.log ∧ t.out = []))
    ∧ (s.u.links.slaveUp = true →
        let a := ((s.withLinks fun x => { x with slaveUp := false }).sending []).counted 32 Obj.SLAVE_LINK_DOWNS 1
        let b := if s.isOpen 1 then a.closed 1 else a
        exec .slaveLinkLoss s = .next (if s.get Obj.TB_SOURCE = 2 ∧ s.get Obj.TB_STATE = Tb.LOCKED then holdover.run b else b))
    ∧ (∀ station, station < 65536 → s.u.links.slaveUp = false → s.dev ≠ Dev.STANDBY →
        let a := ((s.withLinks fun x => { x with slaveUp := true }).putObj Obj.STATION_ADDRESS station).sending []
        exec (.slaveLinkReturn station) s = .next (if 2 ≤ s.dev then a.opened 1 2 1 station else a))

/-- Camera and SPI ports (R322, R323, R490 to R495, R528): a frame that starts is stamped and counted, a gap in its number too; a line of the port's type joins it, so
does embedded data that the port takes, a packet of another type is dropped and counted; its end stores it in a free slot, a damaged one that the port drops is only counted, so is one that ends by its time-out; an SPI
transfer that is due sends `SPI_TX`, and its end makes what came back the port's sample; a port whose bank leaves its supply range is shut and reported, and opens again.
Choices of the model that it rests on: log entries 59, 60, 114 and 115. -/
def Obligations.SensorPortsTransfer : Prop :=
  ∀ (s : State) (p : Nat), p < 8 →
    (s.get (Obj.CSI_ENABLE p) ≠ 0 → Dev.PREOP ≤ s.dev → ∀ vc, vc < 16 → vc = s.get (Obj.CSI_VC p) → s.groupPending (csiCtl p) = false →
      (∀ num, num < 65536 → (s.csi p).frame = none → s.get (Obj.ARRIVALS p) + 1 < 2 ^ 64 → s.get (Obj.FRAME_GAPS p) + 1 < 2 ^ 32 → ∃ t : State, exec (.csiFrameStart p vc num 0) s = .next t.told
          ∧ t.get (Obj.ARRIVALS p) = s.get (Obj.ARRIVALS p) + 1
          ∧ t.get (Obj.FRAME_GAPS p) = s.get (Obj.FRAME_GAPS p) + (if (s.csi p).last.any (fun n => (if n = 65535 then 1 else n + 1) != num) then 1 else 0)
          ∧ (∃ f, (t.csi p).frame = some f ∧ f.number = num ∧ f.started = s.ns ∧ f.tov = (s.stamp p (s.ns, s.frac)).1.1 ∧ f.lines = []) ∧ t.bytes = s.bytes ∧ t.log = s.log ∧ t.out = [])
      ∧ (∀ dt ok data f, Wf.csiLinePacket p vc dt 0 ok data = true → (s.csi p).frame = some f →
        let embedded := dt = 0x12 ∧ s.get (Obj.CSI_EMBEDDED p) ≠ 0
        (dt ≠ s.get (Obj.CSI_DT p) → embedded → exec (.csiLinePacket p vc dt 0 ok data) s = .next ((s.withCsi p fun x => { x with frame := x.frame.map fun g => { g with
            lines := g.lines ++ [data ++ List.replicate (64 * ceilDiv data.length 64 - data.length) 0], flags := if ok then g.flags else setBit g.flags 1 } }).sending []))
        ∧ (dt = s.get (Obj.CSI_DT p) → (dt ∈ csiTypes ∨ embedded) → exec (.csiLinePacket p vc dt 0 ok data) s = .next ((s.withCsi p fun x => { x with frame := x.frame.map fun g => { g with
            width := data.length, lines := g.lines ++ [data ++ List.replicate (64 * ceilDiv data.length 64 - data.length) 0], count := g.count + 1, flags := if ok then g.flags else setBit g.flags 1 } }).sending []))
        ∧ ((dt ≠ s.get (Obj.CSI_DT p) ∨ dt ∉ csiTypes) → ¬ embedded → exec (.csiLinePacket p vc dt 0 ok data) s = .next ((s.sending []).counted 32 (Obj.PACKETS_DROPPED p) 1))
        ∧ exec (.csiLinePacket p vc dt 2 ok data) s = .next (((s.sending []).counted 32 (Obj.PACKETS_DROPPED p) 1).withCsi p fun x => { x with frame := x.frame.map fun g => { g with flags := setBit g.flags 2 } }))
      ∧ (∀ f, (s.csi p).frame = some f → (s.dev = Dev.OP ∨ s.dev = Dev.HOLD) → s.get (Obj.FRAMES_DAMAGED p) + 1 < 2 ^ 32 →
        (s.get (Obj.CSI_DROP_DAMAGED p) ≠ 0 → s.get (Obj.CSI_HEIGHT p) ≠ 0 → s.get (Obj.CSI_HEIGHT p) ≠ f.count →
          exec (.csiFrameEnd p vc 0) s = .next (((s.withCsi p fun y => { y with frame := none }).sending []).counted 32 (Obj.FRAMES_DAMAGED p) 1).told)
        ∧ (s.get (Obj.CSI_DROP_DAMAGED p) ≠ 0 → f.started + 1000 * s.get (Obj.CSI_FRAME_TIMEOUT_US p) ≤ s.ns →
          exec (.csiFrameTimeout p) s = .next (((s.withCsi p fun y => { y with frame := none }).sending []).counted 32 (Obj.FRAMES_DAMAGED p) 1).told)
        ∧ ((s.get (Obj.CSI_HEIGHT p) = 0 ∨ s.get (Obj.CSI_HEIGHT p) = f.count) → s.oldestSlot p = none →
          exec (.csiFrameEnd p vc 0) s = .next (((s.withCsi p fun y => { y with frame := none }).sending []).counted 32 (Obj.FRAMES_BUSY p) 1).told)
        ∧ ((s.get (Obj.CSI_HEIGHT p) = 0 ∨ s.get (Obj.CSI_HEIGHT p) = f.count) → ∀ i o, s.oldestSlot p = some (i, o) → o.pix.2 = ceilDiv f.lines.flatten.length 4096 → o.desc.2 = ceilDiv (64 + 4 * o.pix.2) 4096 → s.armed = [] →
            (∀ e ∈ s.u.tt.runs, e.1 < s.u.tt.nextRun) → s.get (Obj.FRAMES_STORED p) + 1 < 2 ^ 64 → ∃ t : State, exec (.csiFrameEnd p vc 0) s = .next t.told
          ∧ t.get (Obj.FRAMES_STORED p) = s.get (Obj.FRAMES_STORED p) + 1 ∧ (t.csi p).frame = none ∧ (t.csi p).counter = (s.csi p).counter + 1
          ∧ ((t.csi p).slots[i]?).map (·.filled) = ((s.csi p).slots[i]?).map (fun _ => (s.csi p).counter + 1))
        ∧ (s.ns < f.started + 1000 * s.get (Obj.CSI_FRAME_TIMEOUT_US p) → exec (.csiFrameTimeout p) s = .next (s.sending []).told)))
    ∧ (∀ k edge, Dev.PREOP ≤ s.dev → s.get (Obj.SPI_ROLE p) = 0 → s.get (Obj.SPI_LENGTH p) ≠ 0 → (s.spi p).vioOut = false → (s.spi p).busy = none →
      (if edge = true then s.get (Obj.SPI_EDGE_INPUT p) < 16 ∧ (Tab.at s.u.time.cap (s.get (Obj.SPI_EDGE_INPUT p)) {}).last.isSome
        else s.get (Obj.SPI_PERIOD_NS p) ≠ 0 ∧ (s.spi p).next ≤ k ∧ s.get (Obj.SPI_PHASE_NS p) + k * s.get (Obj.SPI_PERIOD_NS p) ≤ s.ns) →
      let n := if edge then (s.spi p).next else k
      exec (.spiSampleTransfer p k edge) s = .next ((((s.withSpi p fun y => { y with busy := some (n, s.stamp (8 + p) (s.ns, s.frac)), next := n + 1 }).sending
        [.frame (.spi p) ((s.spiTx p).take (s.get (Obj.SPI_LENGTH p)))]).counted 64 (Obj.SPI_TRANSFERS p) 1)))
    ∧ (∀ bytes n tov frac missed, Wf.spiTransferEnd p bytes = true → (s.spi p).busy = some (n, (tov, frac), missed) → s.groupPending (spiCtl p) = false →
      ((s.spi p).vioOut = false →
        let b := ((s.withSpi p fun y => { y with busy := none, sample := some (n, tov, frac, s.ns) }).sending []).counted 64 (Obj.ARRIVALS (8 + p)) 1
        exec (.spiTransferEnd p bytes) s = .next ((if missed then b.counted 32 (Obj.LINK_MISSES (8 + p)) 1 else b).image (spiIn p) 64 (bytes.take (s.get (Obj.SPI_LENGTH p)))))
      ∧ ((s.spi p).vioOut = true → exec (.spiTransferEnd p bytes) s = .next ((s.withSpi p fun y => { y with busy := none }).sending [])))
    ∧ (∀ mv, let k := if p < 4 then Obj.VIO_SPI_A_MV else Obj.VIO_SPI_B_MV
      (s.dev = Dev.STANDBY → exec (.vioOutOfRange p mv) s = .next (s.sending []))
      ∧ (s.dev ≠ Dev.STANDBY → exec (.vioOutOfRange p mv) s = .next (let b := (s.putObj k (mv % 65536)).sending []
          if (s.spi p).vioOut then b else (b.withSpi p fun x => { x with vioOut := true }).logged Ev.VIO_OUT_OF_RANGE p mv 0))
      ∧ exec (.vioBackInRange p mv) s = .next (((s.putObj k (mv % 65536)).withSpi p fun x => { x with vioOut := false }).sending []))
/-! ## Start-up, firmware and security -/

/-- Power (R436, R508 to R511, R539): the input in its range powers the module with the straps shown, time at 0 and no session open, and begins a boot for cause 0 unless a
junction shutdown still waits for its sensors to cool, the carrier holds PWR_GOOD low or RESET_N is low; out of range it does nothing; PWR_GOOD rising leaves STANDBY where
nothing else holds it, driven low by the carrier it holds STANDBY or is logged; a loss of power leaves STANDBY with the events on their way in flash; a shutdown for a
junction or for the input voltage logs its trip with the bit of its condition, raises cause 11 and goes to STANDBY, PWR_GOOD low; the restart that ends it begins a boot and
comes only when it may; a pulse on RESET_N shorter than 10 µs does nothing, one of at least 10 µs begins a boot for cause 1; in STANDBY and while it holds the boot, its
level is what holds. Choices of the model that it rests on: log entries 119, 120 and 122. -/
def Obligations.PowerAndResets : Prop :=
  ∀ s : State,
    (∀ addr refclk mv, addr < 8 → (mv ≤ 38000 ∨ 60000 < mv) → exec (.powerOn addr refclk mv) s = .next (s.sending []))
    ∧ (∀ addr refclk mv, addr < 8 → 38000 < mv → mv ≤ 60000 → s.get Obj.BOOT_COUNT + 1 < 2 ^ 32 →
      ∃ t : State, exec (.powerOn addr refclk mv) s = .next t ∧ t.get Obj.INPUT_MV = mv ∧ t.get Obj.BLADE_MV = mv ∧ t.get Obj.SENSE_VALID = 1
        ∧ t.get Obj.PMBUS_ADDRESS = 0x40 + addr ∧ t.get Obj.REFCLK_SEL_LEVEL = (if refclk then 1 else 0) ∧ t.time = 0 ∧ t.u.boot.powered = true
        ∧ t.log.total = 0 ∧ t.log.flash = s.log.flash ∧ (∀ n < 16, t.isOpen n = false) ∧ (∀ a < 2 ^ 60, Memory.read t.bytes a = 0)
        ∧ ((s.u.boot.shut ≠ some 0 ∨ s.coolRestart = true) → t.u.boot.pwrGood = true ∧ t.u.boot.shut = none ∧ Emit.pin .pwrGood true ∈ t.out
          ∧ (s.u.boot.carrierLow = false → s.u.boot.resetLow = false → t.dev = Dev.INIT ∧ t.get Obj.RESET_CAUSE = 0 ∧ t.get Obj.BOOT_COUNT = s.get Obj.BOOT_COUNT + 1))
        ∧ ((s.u.boot.shut = some 0 ∧ s.coolRestart = false) → t.u.boot.pwrGood = false ∧ t.u.boot.shut = some 0)
        ∧ ((s.u.boot.shut = some 0 ∧ s.coolRestart = false) ∨ s.u.boot.carrierLow = true ∨ s.u.boot.resetLow = true →
          t.dev = Dev.STANDBY ∧ t.get Obj.BOOT_COUNT = s.get Obj.BOOT_COUNT))
    ∧ (s.u.boot.powered = false → exec .powerLoss s = .next (s.sending []))
    ∧ (s.u.boot.powered = true →
      ∃ t : State, exec .powerLoss s = .next t ∧ t.dev = Dev.STANDBY ∧ t.u.boot.powered = false ∧ t.u.boot.pwrGood = false ∧ (∀ n < 16, t.isOpen n = false)
        ∧ t.u.boot.shut = (if s.u.boot.shut = some 0 then some 0 else none)
        ∧ t.log.flash = (s.log.toFlash.reverse ++ s.log.flash).take 256 ∧ t.log.toFlash = [] ∧ (∀ a < 2 ^ 60, Memory.read t.bytes a = 0))
    ∧ (exec .powerGoodRise s = .next (
        if s.dev = Dev.STANDBY ∧ s.u.boot.powered = true ∧ s.u.boot.pwrGood = true ∧ s.resetHeld = false then
          ((s.sending []).withBoot fun b => { b with carrierLow := false }).booted s.u.boot.cause false
        else (s.sending []).withBoot fun b => { b with carrierLow := false }))
    ∧ (s.dev = Dev.STANDBY → exec .pwrGoodDriven s = .next ((s.sending []).withBoot fun b => { b with carrierLow := true }))
    ∧ (s.dev ≠ Dev.STANDBY → exec .pwrGoodDriven s = .next ((s.sending []).logged Ev.PWR_GOOD_DRIVEN 0xFFFF 0 0))
    ∧ (∀ mv, s.dev = Dev.STANDBY → s.u.boot.powered = true → mv < 2 ^ 64 →
        ((s.u.boot.shut = some 1 ∧ 38000 ≤ mv ∧ mv ≤ 60000) ∨ (s.u.boot.shut = some 0 ∧ s.u.boot.rearmed = true ∧ s.coolRestart = true)) →
      let t := ((s.putObj Obj.INPUT_MV mv).sending [.pin .pwrGood true]).withBoot fun b => { b with pwrGood := true, shut := none, rearmed := false }
      exec (.shutdownRestart mv) s = .next (if s.u.boot.carrierLow = false ∧ s.resetHeld = false then t.booted s.u.boot.cause false else t))
    ∧ (∀ mv, s.dev ≠ Dev.STANDBY ∨ s.u.boot.powered = false ∨ s.u.boot.shut = none ∨ (s.u.boot.shut = some 1 ∧ (mv < 38000 ∨ 60000 < mv))
        ∨ (s.u.boot.shut = some 0 ∧ (s.u.boot.rearmed = false ∨ s.coolRestart = false)) →
      exec (.shutdownRestart mv) s = .next (s.sending []))
    ∧ (∀ sensor (temp : Int), s.dev ≠ Dev.STANDBY → sensor < 128 → s.u.pow.failed.contains sensor = false → 1200 ≤ temp →
      exec (.junctionShutdown sensor temp) s = .next ((((((s.sending []).withPow fun w => { w with temps := Tab.set w.temps sensor temp }).loggedThermal
        Ev.HW_TRIP 2 (ofSigned 64 temp) (s.get Obj.INPUT_MV)).alerted 0 128).raised 11 2).standby (some 0) 4))
    ∧ (∀ mw mv, s.dev ≠ Dev.STANDBY → (mv < 38000 ∨ 60000 < mv) →
      exec (.inputVoltageTrip mw mv) s = .next (((((((s.puts [(Obj.INPUT_MV, mv), (Obj.INPUT_MW, mw)]).sending []).loggedVoltage
        Ev.HW_TRIP 3 mw mv).counted 32 Obj.VOLTAGE_EVENTS 1).alerted (if mv < 38000 then 16 else 128) 0).raised 11 3).standby (some 1) 4))
    ∧ (∀ sensor (temp : Int), sensor < 128 → s.dev = Dev.STANDBY ∨ s.u.pow.failed.contains sensor = true ∨ temp < 1200 →
      exec (.junctionShutdown sensor temp) s = .next (s.sending []))
    ∧ (∀ mw mv, s.dev = Dev.STANDBY ∨ (38000 ≤ mv ∧ mv ≤ 60000) → exec (.inputVoltageTrip mw mv) s = .next (s.sending []))
    ∧ (∀ why cause, let t := s.standby why cause
      t.dev = Dev.STANDBY ∧ t.u.boot.shut = why ∧ t.u.boot.cause = cause ∧ t.u.boot.pwrGood = false ∧ (∀ n < 16, t.isOpen n = false) ∧ (∀ a < 2 ^ 60, Memory.read t.bytes a = 0)
        ∧ (∀ d < 80, t.get (Obj.DOM_STATE d) = 0) ∧ t.get Obj.OUT_STATE = 0
        ∧ t.log.flash = (s.log.toFlash.reverse ++ s.log.flash).take 256 ∧ t.log.ring = s.log.ring ∧ t.u.tt = {} ∧ (s.u.boot.pwrGood = true → Emit.pin .pwrGood false ∈ t.out))
    ∧ (∀ ns, ns < 1000 → s.u.boot.resetLow = false → exec (.resetNPulse ns false) s = .next (s.sending []))
    ∧ (∀ ns stays, ns < 10000 → s.dev ≠ Dev.STANDBY → s.resetHeld = false → exec (.resetNPulse ns stays) s = .next (s.sending []))
    ∧ (∀ ns stays, 10000 ≤ ns → s.dev ≠ Dev.STANDBY → s.resetHeld = false →
      exec (.resetNPulse ns stays) s = .next (((s.sending []).booted 1 false).withBoot fun b => { b with resetLow := stays }))
    ∧ (∀ ns, s.dev = Dev.STANDBY ∨ s.u.boot.resetLow = true →
      exec (.resetNPulse ns true) s = .next ((s.sending []).withBoot fun b => { b with resetLow := true }))
    ∧ (∀ ns, s.dev = Dev.STANDBY → 1000 ≤ ns ∨ s.u.boot.resetLow = true →
      let t := (s.sending []).withBoot fun b => { b with resetLow := false, rearmed := b.rearmed || (decide (10000 ≤ ns) && b.powered) }
      exec (.resetNPulse ns false) s = .next (
        if s.get Obj.PIN_CONTROL_ACTIVE = 0 ∧ s.u.boot.powered = true ∧ s.u.boot.pwrGood = true ∧ s.u.boot.carrierLow = false then t.booted s.u.boot.cause false else t))
    ∧ (∀ ns, s.dev = Dev.INIT → s.u.boot.resetLow = true → s.get Obj.PIN_CONTROL_ACTIVE = 0 →
      exec (.resetNPulse ns false) s = .next ((s.sending []).withBoot fun b => { b with resetLow := false, start := s.time }))

/-- The boot (R442 to R445, R448, R451, R452): what the beginning of one leaves; an identity shows the device's ID and its certificate, and one that is not reconstructed ends
the boot in recovery; of each of the four kinds in turn the slot that R452 names becomes the active one, or where it fails during boot the other, if that is eligible, with
bit 9 of `BOOT_STATUS`; a kind of 1 to 3 with none ends the boot in recovery, kind 4 in default settings, and one of kind 4 gives what it holds to the objects; what fails
in the training is named in `BOOT_STATUS`, and a marked row is repaired while its bank has its repair left; channels trained and the chain complete, the device enters
PRE-OPERATIONAL with the first row of fields waking and the cores that passed in their roles. Choices of the model that it rests on: log entries 121, 123 and 126. -/
def Obligations.BootChainRuns : Prop :=
  ∀ s : State,
    (∀ cause warm, cause < 2 ^ 64 → s.get Obj.BOOT_COUNT + 1 < 2 ^ 32 → let t := s.booted cause warm
      t.dev = Dev.INIT ∧ t.get Obj.RESET_CAUSE = cause ∧ t.get Obj.BOOT_COUNT = s.get Obj.BOOT_COUNT + 1 ∧ t.log.total = 0 ∧ t.log.ring = [] ∧ t.log.flash = s.log.flash
        ∧ (∀ n < 16, t.isOpen n = false ∧ t.level n = 0) ∧ (∀ a < 2 ^ 60, Memory.read t.bytes a = 0) ∧ t.shadow = [] ∧ t.time = s.time ∧ t.u.tt = {} ∧ t.u.boot.warm = warm
        ∧ t.get Obj.OUT_STATE = 0 ∧ (∀ d < 80, t.get (Obj.DOM_STATE d) = if d = 77 then 2 else 0) ∧ t.u.streams = [] ∧ t.u.boot.start = s.time ∧ t.u.boot.identity = false)
    ∧ (s.booting = true → s.u.boot.identity = false → ∀ cert issuers, issuers.length ≤ 2 → (∀ c ∈ issuers, c.length = 272) →
      (cert.length = 272 →
        ∃ t : State, exec (.identityReconstructed true cert issuers) s = .next t ∧ t.u.boot.identity = true ∧ t.u.boot.issuers = issuers
          ∧ t.oct Obj.DEVICE_ID 16 = (sha384 ((cert.drop 72).take 97)).take 16 ∧ t.oct Obj.IDENTITY_CERT 272 = cert
          ∧ t.get (Obj.DOM_STATE 70) = 2 ∧ t.dev = Dev.INIT ∧ t.bytes = s.bytes ∧ t.log = s.log ∧ t.out = [])
      ∧ (cert.length = 272 ∨ cert = [] →
        ∃ t : State, exec (.identityReconstructed false cert issuers) s = .next t.told ∧ t.u.boot.recovery = true ∧ t.dev = Dev.SERVICE ∧ bit (t.get Obj.BOOT_STATUS) 0 = true
          ∧ bit (t.get Obj.BOOT_STATUS) 7 = true ∧ t.log = s.log
          ∧ t.oct Obj.DEVICE_ID 16 = (if cert = [] then List.replicate 16 0 else (sha384 ((cert.drop 72).take 97)).take 16)))
    ∧ (s.booting = true → s.u.boot.identity = true → ∀ kind s0 s1 fails, 1 ≤ kind → kind ≤ 4 → s.u.boot.kinds.length + 1 = kind →
      let at' : Nat → Option Img := fun n => if n = 0 then s.slotAt kind 0 s0 else s.slotAt kind 1 s1
      let first := s.chooseSlot kind (at' 0) (at' 1)
      (∀ n x, n ≤ 1 → at' n = some x →
        ((first = some n ∧ fails = false) ∨ (first = some (1 - n) ∧ fails = true ∧ s.eligible kind (at' n) = true)) →
        ∃ t : State, exec (.imageVerify kind s0 s1 fails) s = .next t ∧ t.get (Obj.IMG_ACTIVE_SLOT (kind - 1)) = n ∧ t.u.boot.kinds = s.u.boot.kinds ++ [kind]
          ∧ (fails = true → bit (t.get Obj.BOOT_STATUS) 9 = true)
          ∧ (kind = 2 → ∀ d, 66 ≤ d → d ≤ 69 → t.get (Obj.DOM_STATE d) = 2) ∧ (kind = 3 → t.get Obj.POLICY_STATE = 1)
          ∧ (kind = 4 → t.u.boot.settingsDigest = x.digest ∧ ∀ k v, (k, v) ∈ x.vals → (∀ e ∈ x.vals, e.1 = k → e.2 = v) → v < 2 ^ 64 → storable k = true →
              s.u.boot.restore.any (fun sub => inRange sub (k / 256 % 65536)) = false → t.get k = v)
          ∧ t.dev = Dev.INIT ∧ t.bytes = s.bytes ∧ t.log = s.log)
      ∧ ((first = none ∨ (∃ n, first = some n ∧ fails = true ∧ s.eligible kind (at' (1 - n)) = false)) →
        (kind ≤ 3 →
          ∃ t : State, exec (.imageVerify kind s0 s1 fails) s = .next t.told ∧ t.u.boot.recovery = true ∧ t.dev = Dev.SERVICE ∧ bit (t.get Obj.BOOT_STATUS) kind = true
            ∧ bit (t.get Obj.BOOT_STATUS) 7 = true)
        ∧ (kind = 4 →
          ∃ t : State, exec (.imageVerify 4 s0 s1 fails) s = .next t ∧ t.dev = Dev.INIT ∧ t.u.boot.kinds = s.u.boot.kinds ++ [4] ∧ bit (t.get Obj.BOOT_STATUS) 4 = true
            ∧ t.lastEvent Ev.SETTINGS_DEFAULTS 0xFFFF 0 (t.get Obj.BOOT_STATUS))))
    ∧ (∀ ns failed, ns < 2 ^ 32 → (∀ c ∈ failed, c < 64) → s.booting = true → s.get (Obj.DOM_STATE 66) = 2 → s.u.boot.trained = false →
        (s.u.boot.warm && s.u.boot.everTrained) = false →
      let bad := failed.eraseDups.filter fun c => !s.u.mem.retiredOrder.contains c
      let t := ((if bad = [] then s.putObj Obj.T_TRAINING_NS ns else s.puts [(Obj.T_TRAINING_NS, ns), (Obj.BOOT_STATUS, s.get Obj.BOOT_STATUS ||| 32)]).withBoot fun b => { b with
        trained := true, everTrained := true, badChannels := bad }).sending []
      exec (.lpddrTrainingDone ns failed []) s = .next t
      ∧ (∀ ch row bank, ch < 64 → bank < 8 → s.u.mem.marked.contains (ch, row) = true →
        ∃ t' : State, exec (.lpddrTrainingDone ns failed [(ch, row, bank)]) s = .next t' ∧ t'.u.boot = t.u.boot
          ∧ (s.u.mem.repaired.contains (ch, bank) = true → t' = t)
          ∧ (s.u.mem.repaired.contains (ch, bank) = false → s.get (Obj.CH_ROWS_REPAIRED ch) + 1 < 2 ^ 64 →
            t'.get (Obj.CH_ROWS_REPAIRED ch) = s.get (Obj.CH_ROWS_REPAIRED ch) + 1 ∧ t'.get (Obj.CH_ROWS_MARKED ch) = s.get (Obj.CH_ROWS_MARKED ch) - 1
              ∧ t'.u.mem.marked.contains (ch, row) = false ∧ t'.u.mem.repaired = (ch, bank) :: s.u.mem.repaired)))
    ∧ (∀ bad, (∀ k ∈ bad, k < 4) → s.booting = true → s.u.boot.kinds.length = 4 → (s.u.boot.trained = true ∨ (s.u.boot.warm = true ∧ s.u.boot.everTrained = true)) →
      ∃ t : State, exec (.initComplete bad) s = .next t.told ∧ t.dev = Dev.PREOP ∧ t.get (Obj.DOM_STATE 78) = 2 ∧ (∀ f < 11, t.get (Obj.DOM_STATE f) = 1)
        ∧ (∀ d, 73 ≤ d → d ≤ 76 → t.get (Obj.DOM_STATE d) = 3) ∧ t.u.boot.auto = true
        ∧ (∀ k < 4, (t.coreRole k = 3 ↔ k ∈ bad)) ∧ t.get Obj.RESERVE_LEFT = (if bad = [] then 1 else 0)
        ∧ (((List.range 4).filter fun k => !bad.contains k).length < 3 → t.get Obj.VOTE_MODE = 2 ∧ bit (t.get Obj.BOOT_STATUS) 6 = true)
        ∧ (s.u.mem.retiredOrder = [] → s.u.boot.badChannels = [] → t.get Obj.CHANNELS_ACTIVE = 64 ∧ (s.u.boot.headland < 64 → t.get Obj.HEADLAND_FREE = s.u.boot.headland)))

/-- The device states (R440, R441, R445, R488, R538): each command of DEVICE_COMMAND, from a session of its level in a state that admits it, has its transition, and in
another state or on another condition it is refused with 0x0F00000E; the part enters OPERATIONAL by itself where that is set and all that it waits for holds, and not before;
an EtherCAT master asks for states as session 1 would, and what the part refuses is answered with AL status code 0x0011. Choices of the model that it rests on: log entries
88 and 136. -/
def Obligations.DeviceCommands : Prop :=
  ∀ (s : State) (ses : Nat), ses < 16 →
    (exec .autoOperational s = .next (
        if s.dev = Dev.PREOP ∧ s.u.boot.auto = true ∧ s.get Obj.AUTO_OPERATIONAL ≠ 0 ∧ s.get Obj.T_FIELDS_NS ≠ 0 ∧ s.blocking = false ∧ s.get Obj.LATCHED_CAUSES = 0 then
          (s.sending []).entered.told
        else s.sending []))
    ∧ (s.admits ses Obj.DEVICE_COMMAND 1 .sup →
      (s.dev = Dev.PREOP → s.blocking = false → s.get Obj.LATCHED_CAUSES = 0 → exec (.cmdOperational ses) s = .next ((s.sending []).entered.told.also (replies ses 0)))
      ∧ (s.dev ≠ Dev.PREOP ∨ s.blocking = true ∨ s.get Obj.LATCHED_CAUSES ≠ 0 →
        exec (.cmdOperational ses) s = .next ((s.aborted ses Ab.STATE_FORBIDS Obj.DEVICE_COMMAND).sending (replies ses Ab.STATE_FORBIDS))))
    ∧ (s.admits ses Obj.DEVICE_COMMAND 2 .sup →
      (s.dev = Dev.OP → exec (.cmdPreOperational ses) s = .next (((s.sending []).stoodDown.inState Dev.PREOP).told.also (replies ses 0)))
      ∧ (s.dev ≠ Dev.OP → exec (.cmdPreOperational ses) s = .next ((s.aborted ses Ab.STATE_FORBIDS Obj.DEVICE_COMMAND).sending (replies ses Ab.STATE_FORBIDS))))
    ∧ (s.admits ses Obj.DEVICE_COMMAND 3 .svc →
      (s.dev = Dev.PREOP → exec (.cmdService ses) s = .next ((s.sending []).service.told.also (replies ses 0)))
      ∧ (s.dev = Dev.HOLD → exec (.cmdService ses) s = .next ((s.sending []).stoodDown.service.told.also (replies ses 0)))
      ∧ (s.dev ≠ Dev.PREOP → s.dev ≠ Dev.HOLD →
        exec (.cmdService ses) s = .next ((s.aborted ses Ab.STATE_FORBIDS Obj.DEVICE_COMMAND).sending (replies ses Ab.STATE_FORBIDS))))
    ∧ (s.admits ses Obj.DEVICE_COMMAND 4 .svc →
      (s.dev = Dev.SERVICE → s.get Obj.DEBUG_SINCE_BOOT < 3 → s.u.boot.recovery = false →
        exec (.cmdLeaveService ses) s = .next (((((s.puts [(Obj.DEBUG_LEVEL, 0), (Obj.DOM_STATE 79, 3)]).withBoot fun b => { b with debugOf := none }).sending []).inState
          Dev.PREOP).told.also (replies ses 0)))
      ∧ (s.dev ≠ Dev.SERVICE ∨ 3 ≤ s.get Obj.DEBUG_SINCE_BOOT ∨ s.u.boot.recovery = true →
        exec (.cmdLeaveService ses) s = .next ((s.aborted ses Ab.STATE_FORBIDS Obj.DEVICE_COMMAND).sending (replies ses Ab.STATE_FORBIDS))))
    ∧ (s.admits ses Obj.DEVICE_COMMAND 5 .svc → exec (.cmdWarmReset ses) s = .next (((s.sending []).booted 3 true).also (replies ses 0)))
    ∧ (s.admits ses Obj.DEVICE_COMMAND 6 .svc → exec (.cmdColdReset ses) s = .next (((s.sending []).booted 2 false).also (replies ses 0)))
    ∧ (∀ al, al = 1 ∨ al = 2 ∨ al = 3 ∨ al = 4 ∨ al = 8 → s.isOpen 1 = false ∨ (al = 2 ∧ s.dev = Dev.PREOP) → exec (.alStateRequest al) s = .next (s.sending []))
    ∧ (s.admits 1 Obj.DEVICE_COMMAND 1 .sup → s.dev = Dev.PREOP → s.blocking = false → s.get Obj.LATCHED_CAUSES = 0 →
      exec (.alStateRequest 8) s = .next ((s.sending []).entered.told))
    ∧ (s.admits 1 Obj.DEVICE_COMMAND 2 .sup → s.dev = Dev.OP → exec (.alStateRequest 2) s = .next (((s.sending []).stoodDown.inState Dev.PREOP).told))
    ∧ (s.admits 1 Obj.DEVICE_COMMAND 3 .svc →
      (s.dev = Dev.PREOP → exec (.alStateRequest 3) s = .next (s.sending []).service.told)
      ∧ (s.dev = Dev.HOLD → exec (.alStateRequest 3) s = .next (s.sending []).stoodDown.service.told))
    ∧ (s.isOpen 1 = true → ∀ al,
        (al = 1 ∨ al = 4 ∨ (al = 2 ∧ s.dev ≠ Dev.OP ∧ s.dev ≠ Dev.PREOP) ∨ (al = 2 ∧ s.dev = Dev.OP ∧ s.level 1 = 0)
          ∨ (al = 8 ∧ (s.dev ≠ Dev.PREOP ∨ s.blocking = true ∨ s.get Obj.LATCHED_CAUSES ≠ 0 ∨ s.level 1 = 0))
          ∨ (al = 3 ∧ ((s.dev ≠ Dev.PREOP ∧ s.dev ≠ Dev.HOLD) ∨ s.level 1 ≠ 2))) →
      exec (.alStateRequest al) s = .next (((s.sending []).counted 32 Obj.AL_REFUSED 1).also [.frame .alStatus [0x11, 0]]))

/-- Images in service (R14, R41, R52 to R54, R451 to R454): what a write of a DOMAIN brings, an inline value or what its descriptor names, which is nothing where the host
cannot be reached; a write of IMG_WRITE starts the write to flash, and is refused while one runs, where an inline image's security version lies below the counter or its
kind is another; what passes the checks of R454 lies in the other slot with the version of its header and clears a preference for the slot that runs, what fails them
leaves REASON and an event, what could not be fetched leaves the slot as it was; a store done lies in the other slot of kind 4, and what was to be restored before it is;
IMG_ACTIVATE of a sound slot prefers it at the next boot, of kind 3 asks for a handover, and of any other slot is refused; a commit raises the counter to the security
version of what runs, but never counter 4. Program units (R453, R456, R462, R463): a write of PROG_IMAGE begins a load; a unit that passes its checks, with room left,
takes the next handle and the program log its digest; one that fails leaves REASON and an event; a unit that nothing names is unloaded, any other is not; a commit raises
the program counter to the highest security version loaded. Choices of the model that it rests on: log entries 62, 123, 124, 125 and 180. -/
def Obligations.ImagesAndPrograms : Prop :=
  (∀ (s : State) (addr len crc : Nat) (d : List Byte),
      s.late (.inline d) = some (some d, true)
      ∧ (0 < len → s.hostReachable = true → s.late (.desc addr len crc (some d)) = some (some d, d.length == len && crc32c d == crc))
      ∧ (0 < len → s.hostReachable = false → s.late (.desc addr len crc (some d)) = some (none, true))
      ∧ (0 < len → s.late (.desc addr len crc none) = some (none, true)))
  ∧ (∀ (s : State) (ses kind : Nat), ses < 16 → 1 ≤ kind → kind ≤ 4 → let n := 1 - s.get (Obj.IMG_ACTIVE_SLOT (kind - 1))
      (s.admits ses (Obj.IMG_WRITE (kind - 1)) 0 .svc →
        let refused := fun code => Host.Outcome.next ((s.aborted ses code (Obj.IMG_WRITE (kind - 1))).sending (replies ses code))
        (∀ v data crcOk, s.u.boot.writing = none → s.late v = some (data, crcOk) →
          (∀ d, v = .inline d → s.get (Obj.IMG_COUNTER (kind - 1)) ≤ numAt d 12 4 ∧ numAt d 4 1 = kind) →
          exec (.imgWrite ses kind v) s = .next ((((s.withBoot fun b => { b with
            writing := some (.image kind data crcOk) }).puts [(Obj.IMG_WRITE_STATUS (kind - 1), 1), (Obj.IMG_REASON (kind - 1), 0)])).sending (replies ses 0)))
        ∧ (∀ d, s.u.boot.writing = none → numAt d 12 4 < s.get (Obj.IMG_COUNTER (kind - 1)) → exec (.imgWrite ses kind (.inline d)) s = refused Ab.IMAGE_ROLLBACK)
        ∧ (∀ d, s.u.boot.writing = none → s.get (Obj.IMG_COUNTER (kind - 1)) ≤ numAt d 12 4 → numAt d 4 1 ≠ kind →
          exec (.imgWrite ses kind (.inline d)) s = refused Ab.RANGE)
        ∧ (∀ v, s.late v ≠ none → s.u.boot.writing ≠ none → exec (.imgWrite ses kind v) s = refused Ab.FLASH_BUSY))
      ∧ (∀ data crcOk sigOk chainOk vals blobs, s.u.boot.writing = some (.image kind data crcOk) →
        let code := s.imageCode kind (s.get (Obj.IMG_COUNTER (kind - 1))) data crcOk false sigOk chainOk
        ∃ t : State, exec (.imageWriteVerified sigOk chainOk vals blobs) s = .next t ∧ t.u.boot.writing = none ∧ t.get (Obj.IMG_REASON (kind - 1)) = code
          ∧ t.get (Obj.IMG_WRITE_STATUS (kind - 1)) = (if code = 0 then 3 else 4)
          ∧ (data = none → code = 0x1469 ∧ t.u.boot.slots = s.u.boot.slots)
          ∧ (∀ d, data = some d → ∃ x, Tab.get? t.u.boot.slots (kind * 2 + n) = some x ∧ x.version = numAt d 8 4 ∧ x.rollback = numAt d 12 4 ∧ x.target = imgTarget d
            ∧ x.digest = (d.drop 40).take 48 ∧ x.sound = (code == 0) ∧ (kind = 4 → x.vals = vals ∧ x.blobs = blobs) ∧ (kind = 1 → x.payload = imgPayload d))
          ∧ (code = 0 → t.log = s.log ∧ (kind ≠ 3 → Tab.get? t.u.boot.prefer kind ≠ some (1 - n))) ∧ (code ≠ 0 → t.lastEvent Ev.IMAGE_REFUSED kind 0 code) ∧ t.bytes = s.bytes)
      ∧ (∀ x m, kind = 4 → s.u.boot.writing = some (.store x m) →
        ∃ t : State, exec .settingsStoreDone s = .next t ∧ t.u.boot.writing = none ∧ t.u.boot.restore = s.u.boot.restore.take (s.u.boot.restore.length - m)
          ∧ Tab.get? t.u.boot.slots (8 + n) = some x
          ∧ t.get (Obj.IMG_COUNTER 3) = max x.rollback (s.get (Obj.IMG_COUNTER 3)) % 2 ^ 64 ∧ t.bytes = s.bytes ∧ t.log = s.log ∧ t.out = [])
      ∧ (s.admits ses (Obj.IMG_ACTIVATE (kind - 1)) 1 .svc →
        let refused := fun code => Host.Outcome.next ((s.aborted ses code (Obj.IMG_ACTIVATE (kind - 1))).sending (replies ses code))
        let turning := kind = 3 ∧ (s.u.boot.asked = true ∨ s.get Obj.POLICY_STATE = 2 ∨ s.get Obj.POLICY_STATE = 3)
        (Tab.get? s.u.boot.slots (kind * 2 + n) = none → exec (.imgActivate ses kind 1) s = refused Ab.STATE_FORBIDS)
        ∧ (∀ x, Tab.get? s.u.boot.slots (kind * 2 + n) = some x →
          (turning → exec (.imgActivate ses kind 1) s = refused Ab.STATE_FORBIDS)
          ∧ (¬ turning → x.rollback < s.get (Obj.IMG_COUNTER (kind - 1)) → exec (.imgActivate ses kind 1) s = refused Ab.IMAGE_ROLLBACK)
          ∧ (¬ turning → s.get (Obj.IMG_COUNTER (kind - 1)) ≤ x.rollback → x.sound = false → exec (.imgActivate ses kind 1) s = refused Ab.STATE_FORBIDS)
          ∧ (¬ turning → s.get (Obj.IMG_COUNTER (kind - 1)) ≤ x.rollback → x.sound = true →
            exec (.imgActivate ses kind 1) s = .next ((s.withBoot fun b => if kind = 3 then { b with asked := true } else { b with prefer := Tab.set b.prefer kind n }).sending
              (replies ses 0)))))
      ∧ (s.admits ses (Obj.IMG_COUNTER_COMMIT (kind - 1)) 1 .svc →
        (∀ x, s.running kind = some x → kind ≠ 4 →
          exec (.imgCounterCommit ses kind 1) s = .next ((s.putObj (Obj.IMG_COUNTER (kind - 1)) (max x.rollback (s.get (Obj.IMG_COUNTER (kind - 1))))).sending (replies ses 0)))
        ∧ ((s.running kind = none ∨ kind = 4) → exec (.imgCounterCommit ses kind 1) s = .next (s.sending (replies ses 0)))))
  ∧ (∀ (s : State) (ses : Nat), ses < 16 →
      (∀ v data crcOk, s.admits ses (Obj.PROG_IMAGE ses) 0 .sup → s.late v = some (data, crcOk) →
        exec (.progImage ses v) s = .next (((s.withBoot fun b => { b with loads := b.loads ++ [(ses, data, crcOk)] }).puts
          [(Obj.PROG_LOAD_STATUS ses, 1), (Obj.PROG_HANDLE ses, 0), (Obj.PROG_REASON ses, 0)]).sending (replies ses 0)))
      ∧ (∀ data crcOk sigOk chainOk decl, s.u.boot.loads.find? (fun e => e.1 == ses) = some (ses, data, crcOk) →
          (s.u.boot.loads.filter fun e => e.1 == ses).length = 1 → s.u.boot.nextProg < 2 ^ 64 →
        let d := data.getD []
        let first := s.imageCode 6 (s.get Obj.PROG_COUNTER) data crcOk (s.ownerFlag 1) sigOk chainOk
        let room := s.u.tt.progs.length < 256 ∧ ceilDiv d.length 1024 ≤ s.programSpace
        (∀ x, decl = some x → first = 0 → x.semsAgree = true → room →
          ∃ t : State, exec (.progLoadDone ses sigOk chainOk decl) s = .next t ∧ Tab.get? t.u.tt.progs s.u.boot.nextProg = some { x with kib := ceilDiv d.length 1024 }
            ∧ t.u.boot.nextProg = s.u.boot.nextProg + 1 ∧ t.get (Obj.PROG_LOAD_STATUS ses) = 2 ∧ t.get (Obj.PROG_HANDLE ses) = s.u.boot.nextProg
            ∧ t.u.boot.loads = s.u.boot.loads.filter (fun e => e.1 != ses) ∧ Tab.get? t.u.boot.rollbacks s.u.boot.nextProg = some (numAt d 12 4)
            ∧ t.u.boot.progLog = sha384 ((if s.u.boot.progLog.isEmpty then List.replicate 48 0 else s.u.boot.progLog) ++ (d.drop 40).take 48)
            ∧ t.bytes = s.bytes ∧ t.log = s.log ∧ t.out = [])
        ∧ (∀ code, ((first ≠ 0 ∧ code = first) ∨ (first = 0 ∧ (decl.map UnitDecl.semsAgree).getD false = false ∧ code = 0x1465)
            ∨ (first = 0 ∧ (decl.map UnitDecl.semsAgree).getD false = true ∧ ¬ room ∧ code = 0x1466)) →
          ∃ t : State, exec (.progLoadDone ses sigOk chainOk decl) s = .next t ∧ t.u.tt = s.u.tt ∧ t.get (Obj.PROG_LOAD_STATUS ses) = 3
            ∧ t.u.boot.loads = s.u.boot.loads.filter (fun e => e.1 != ses) ∧ t.u.boot.progLog = s.u.boot.progLog
            ∧ t.get (Obj.PROG_REASON ses) = code ∧ t.get (Obj.PROG_HANDLE ses) = 0 ∧ t.lastEvent Ev.IMAGE_REFUSED 6 0 code ∧ t.log.total = s.log.total + 1))
      ∧ (∀ h, s.admits ses Obj.PROG_UNLOAD h .sup →
        ((Tab.get? s.u.tt.progs h).isSome = true → s.progNamed h = false →
          exec (.progUnload ses h) s = .next (((s.withTt fun t => { t with progs := Tab.del t.progs h }).withBoot fun b => { b with rollbacks := Tab.del b.rollbacks h }).sending
            (replies ses 0)))
        ∧ ((Tab.get? s.u.tt.progs h).isSome = true → s.progNamed h = true →
          exec (.progUnload ses h) s = .next ((s.aborted ses Ab.STATE_FORBIDS Obj.PROG_UNLOAD).sending (replies ses Ab.STATE_FORBIDS)))
        ∧ (Tab.get? s.u.tt.progs h = none → exec (.progUnload ses h) s = .next ((s.aborted ses Ab.RANGE Obj.PROG_UNLOAD).sending (replies ses Ab.RANGE))))
      ∧ (s.admits ses Obj.PROG_COUNTER_COMMIT 1 .svc →
        exec (.progCounterCommit ses 1) s = .next ((s.putObj Obj.PROG_COUNTER (s.u.boot.rollbacks.foldl (fun m e => max m e.2) (s.get Obj.PROG_COUNTER))).sending (replies ses 0))))

/-- Policy firmware (R446, R452, R461): a handover that is asked for begins at its point; the new image ready runs in trial in the slot that becomes active, and at the
trial's end for good; an image not ready in time, or one whose watchdog expires in trial, is handed back with an event; out of a trial the ROM restarts the image, which
runs on once it is ready and is restarted again if it is not, but not a fourth time in 60 s; where none of them is due nothing happens. Choices of the model that it rests on: log entry 125. -/
def Obligations.PolicyHandovers : Prop :=
  ∀ s : State, let n := s.get (Obj.IMG_ACTIVE_SLOT 2)
    let recent := s.u.boot.restarts.filter (fun t => decide (s.time ≤ t + 60000000000 * 4294967296))
    let restarts : Instr → Prop := fun i => (recent.length < 3 → s.get Obj.POLICY_RESTARTS + 1 < 2 ^ 32 →
        ∃ t : State, exec i s = .next t ∧ t.get Obj.POLICY_STATE = 2 ∧ t.get Obj.POLICY_RESTARTS = s.get Obj.POLICY_RESTARTS + 1 ∧ t.u.boot.newSlot = n
          ∧ t.lastEvent Ev.POLICY_RESTART 0xFFFF (s.get (Obj.IMG_RUNNING_DIGEST 2)) (recent.length + 1) ∧ t.u.boot.restarts = s.time :: recent)
      ∧ (3 ≤ recent.length → exec i s = .next (((s.putObj Obj.POLICY_STATE 4).sending []).logged Ev.POLICY_FAILED 0xFFFF 0 0))
    (s.u.boot.asked = true → s.get Obj.POLICY_STATE ≠ 2 →
      exec .handoverPoint s = .next (((s.putObj Obj.POLICY_STATE 2).withBoot fun b => { b with asked := false, newSlot := 1 - n, handover := s.time }).sending []))
    ∧ (s.get Obj.POLICY_STATE = 2 → s.u.boot.newSlot ≤ 1 → s.u.boot.newSlot ≠ n →
      ∃ t : State, exec .policyReady s = .next t ∧ t.get Obj.POLICY_STATE = 3 ∧ t.get (Obj.IMG_ACTIVE_SLOT 2) = s.u.boot.newSlot ∧ t.u.boot.switches = s.u.boot.switches + 1
        ∧ t.bytes = s.bytes ∧ t.log = s.log ∧ t.out = [])
    ∧ (s.get Obj.POLICY_STATE = 2 → s.u.boot.newSlot ≠ n →
      ∃ t : State, exec .handoverReadyTimeout s = .next t ∧ t.get Obj.POLICY_STATE = 1 ∧ t.get (Obj.IMG_ACTIVE_SLOT 2) = n
        ∧ t.lastEvent Ev.POLICY_HANDBACK 0xFFFF s.u.boot.newSlot 0 ∧ t.log.total = s.log.total + 1 ∧ t.bytes = s.bytes)
    ∧ (s.get Obj.POLICY_STATE = 3 →
      exec .policyTrialEnd s = .next (((s.puts [(Obj.POLICY_STATE, 1), (Obj.IMG_SLOT_STATE 2, s.get (Obj.IMG_SLOT_STATE 2) - s.get (Obj.IMG_SLOT_STATE 2) / 4 ^ n % 4 * 4 ^ n + 1 * 4 ^ n)]).withBoot
        fun b => { b with prefer := Tab.set b.prefer 3 n }).sending []))
    ∧ (s.get Obj.POLICY_STATE = 3 →
      ∃ t : State, exec .policyWatchdogExpiry s = .next t ∧ t.get Obj.POLICY_STATE = 1 ∧ t.get (Obj.IMG_ACTIVE_SLOT 2) = 1 - n ∧ t.lastEvent Ev.POLICY_HANDBACK 0xFFFF n 0)
    ∧ (s.get Obj.POLICY_STATE = 2 → s.u.boot.newSlot = n →
      restarts .handoverReadyTimeout
      ∧ ∃ t : State, exec .policyReady s = .next t ∧ t.get Obj.POLICY_STATE = 1 ∧ t.get (Obj.IMG_ACTIVE_SLOT 2) = n ∧ t.u.boot.switches = s.u.boot.switches + 1
        ∧ t.bytes = s.bytes ∧ t.log = s.log ∧ t.out = [])
    ∧ (s.get Obj.POLICY_STATE = 1 → restarts .policyWatchdogExpiry)
    ∧ ((s.u.boot.asked = false ∨ s.get Obj.POLICY_STATE = 2) → exec .handoverPoint s = .next (s.sending []))
    ∧ (s.get Obj.POLICY_STATE ≠ 2 → exec .policyReady s = .next (s.sending []) ∧ exec .handoverReadyTimeout s = .next (s.sending []))
    ∧ (s.get Obj.POLICY_STATE ≠ 3 → exec .policyTrialEnd s = .next (s.sending []))
    ∧ (s.get Obj.POLICY_STATE ≠ 3 → s.get Obj.POLICY_STATE ≠ 1 → exec .policyWatchdogExpiry s = .next (s.sending []))

/-- Attestation, levels and debug (R24, R39, R40, R448, R455, R457, R459, R537): ATTEST_GO starts a report, which once signed lies in the session's object with the fields
of R455 in front; in recovery it is refused; a read of AUTH_CHALLENGE draws a new challenge, but not in INIT; a token that passes raises the session's level, one that
fails is refused and makes the challenge void, and no session writes another's ELEVATE or DROP_LEVEL; DROP_LEVEL returns the session to its opening level with its
cleanup, or closes it; debug begins with its token in SERVICE, level 3 with TEST_EN high, and ends with DEBUG_END. Choices of the model that it rests on: log entries 62,
79, 80, 127, 178 and 179. -/
def Obligations.TrustIsGiven : Prop :=
  ∀ (s : State) (ses : Nat), ses < 16 →
    (s.admits ses (Obj.ATTEST_GO ses) 1 .host → s.u.boot.recovery = false → exec (.attestGo ses 1) s = .next ((s.putObj (Obj.ATTEST_STATUS ses) 1).sending (replies ses 0)))
    ∧ (s.admits ses (Obj.ATTEST_GO ses) 1 .host → s.u.boot.recovery = true →
      exec (.attestGo ses 1) s = .next ((s.aborted ses Ab.STATE_FORBIDS (Obj.ATTEST_GO ses)).sending (replies ses Ab.STATE_FORBIDS)))
    ∧ ((s.isOpen ses = false ∨ s.get (Obj.ATTEST_STATUS ses) ≠ 1) → exec (.attestReportReady ses) s = .next (s.sending []))
    ∧ ((s.isOpen ses = false ∨ s.dev = Dev.STANDBY) → exec (.authChallenge ses) s = .next (s.sending []))
    ∧ (s.isOpen ses = true → s.dev = Dev.INIT →
      exec (.authChallenge ses) s = .next ((s.aborted ses Ab.STATE (Obj.AUTH_CHALLENGE ses)).sending [.reply ses Ab.STATE (abortBytes ses 32)]))
    ∧ (s.isOpen ses = true → s.get (Obj.ATTEST_STATUS ses) = 1 →
      ∃ t : State, exec (.attestReportReady ses) s = .next t ∧ t.get (Obj.ATTEST_STATUS ses) = 2
        ∧ (∀ i < 50, t.get (Obj.ATTEST_REPORT ses + i) = ofLe (((s.reportHead ses).drop (8 * i)).take 8)) ∧ t.bytes = s.bytes ∧ t.log = s.log ∧ t.out = [])
    ∧ (s.isOpen ses = true → s.dev ≠ Dev.STANDBY → s.dev ≠ Dev.INIT →
      ∃ t : State, exec (.authChallenge ses) s = .next t ∧ (t.session ses).challenge = some (s.freeFrom 0 32) ∧ t.out = [.reply ses 0 (s.freeFrom 0 32)]
        ∧ t.freeCtr = s.freeCtr + 4 ∧ t.level ses = s.level ses ∧ t.bytes = s.bytes ∧ t.log = s.log)
    ∧ (∀ k : Token, s.admits ses (Obj.ELEVATE ses) 0 .host →
      (s.tokenPasses ses 1 (5 + k.level) 4 k = true →
        ∃ t : State, exec (.elevate ses ses k) s = .next t ∧ t.level ses = k.level ∧ (t.session ses).token = true ∧ (t.session ses).challenge = none
          ∧ t.bytes = s.bytes ∧ t.log = s.log ∧ t.out = replies ses 0)
      ∧ (s.tokenPasses ses 1 (5 + k.level) 4 k = false → exec (.elevate ses ses k) s
        = .next (((s.withSes ses fun x => { x with challenge := none }).aborted ses Ab.AUTH_FAILED (Obj.ELEVATE ses)).sending (replies ses Ab.AUTH_FAILED))))
    ∧ (∀ (k : Token) (n : Nat), n < 16 → n ≠ ses →
      (s.admits ses (Obj.ELEVATE n) 0 .host → exec (.elevate ses n k) s = .next ((s.aborted ses Ab.ACCESS_LEVEL (Obj.ELEVATE n)).sending (replies ses Ab.ACCESS_LEVEL)))
      ∧ (s.admits ses (Obj.DROP_LEVEL n) 1 .host →
        exec (.dropLevel ses n 1) s = .next ((s.aborted ses Ab.ACCESS_LEVEL (Obj.DROP_LEVEL n)).sending (replies ses Ab.ACCESS_LEVEL))))
    ∧ (let down := (((s.sending []).cleaned ses).putObj (Obj.LEVEL ses) (s.session ses).openLevel).withSes ses fun x => { x with token := false }
      (s.admits ses (Obj.DROP_LEVEL ses) 1 .host →
        (s.get (Obj.TRANSPORT ses) ≠ 3 → exec (.dropLevel ses ses 1) s = .next (down.also (replies ses 0)))
        ∧ (s.get (Obj.TRANSPORT ses) = 3 → exec (.dropLevel ses ses 1) s = .next (((s.sending []).closed ses).also (replies ses 0)))))
    ∧ (∀ k : Token, s.admits ses Obj.DEBUG_TOKEN 0 .svc →
      let refused := fun code => Host.Outcome.next (((s.withSes ses fun x => { x with challenge := none }).aborted ses code Obj.DEBUG_TOKEN).sending (replies ses code))
      (s.tokenPasses ses 2 3 3 k = false → exec (.debugToken ses k) s = refused Ab.AUTH_FAILED)
      ∧ (s.tokenPasses ses 2 3 3 k = true → (s.dev ≠ Dev.SERVICE ∨ (k.level = 3 ∧ s.get Obj.TEST_EN_LEVEL = 0)) → exec (.debugToken ses k) s = refused Ab.STATE_FORBIDS))
    ∧ (∀ k : Token, s.admits ses Obj.DEBUG_TOKEN 0 .svc → s.tokenPasses ses 2 3 3 k = true → s.dev = Dev.SERVICE → (k.level = 3 → s.get Obj.TEST_EN_LEVEL ≠ 0) →
      exec (.debugToken ses k) s = .next ((((s.withSes ses fun x => { x with challenge := none }).puts [(Obj.DEBUG_LEVEL, k.level),
        (Obj.DEBUG_SINCE_BOOT, max k.level (s.get Obj.DEBUG_SINCE_BOOT))]).withBoot fun b => { b with debugOf := some ses }).sending (replies ses 0)))
    ∧ (s.admits ses Obj.DEBUG_END 1 .svc → exec (.debugEnd ses 1) s = .next (((s.putObj Obj.DEBUG_LEVEL 0).withBoot fun b => { b with debugOf := none }).sending (replies ses 0)))

/-! ## The module -/

/-- The PMBus port and its neighbours (R503, R519 to R521): on a powered module each read command answers with its value, and the answer is all that it does;
CLEAR_FAULTS clears what has ended; a limit in range takes effect, one above the ceiling is clamped, another is flagged as invalid data, an unsupported command as such;
ALERT_RESPONSE answers while ALERT_N is asserted; the input sense is judged against the blade's, and not twice; a character on the console is taken while debug runs. A
module without power answers nothing and takes nothing. Choices of the model that it rests on: log entry 133. -/
def Obligations.PmbusAnswers : Prop :=
  ∀ s : State, let answers (bs : List Byte) := Host.Outcome.next (φ := Fault) (ρ := Refusal) (s.sending [.pmbus bs])
    (s.u.boot.powered = false → ∀ c, c ∈ [Instr.capability, .statusWord, .statusInput, .statusTemperature, .statusCml, .readVin, .readIin, .readTemperature1, .readTemperature2, .readPin,
      .pmbusRevision, .mfrId, .mfrModel, .mfrDeviceState, .mfrActiveCauses, .mfrPinLimit none, .mfrPinLimitEn none, .clearFaults, .alertResponse] → exec c s = .next (s.sending []))
    ∧ (s.u.boot.powered = false → ∀ v code sense blade, code < 256 → ∀ c, c ∈ [Instr.mfrPinLimit (some v), .mfrPinLimitEn (some v), .pmbusUnsupportedCommand code,
      .senseInvalid sense blade, .senseValidReturn sense blade] → exec c s = .next (s.sending []))
    ∧ (s.u.boot.powered = true →
      (exec .capability s = answers [0xB0] ∧ exec .statusWord s = answers (le 2 s.statusWord) ∧ exec .statusInput s = answers (le 1 s.u.pow.statusInput)
        ∧ exec .statusTemperature s = answers (le 1 s.u.pow.statusTemp) ∧ exec .statusCml s = answers (le 1 s.u.pow.statusCml))
      ∧ (exec .readVin s = answers (le 2 (linear11 (s.get Obj.INPUT_MV) 1000)) ∧ exec .readIin s = answers (le 2 (linear11 (s.get Obj.INPUT_MW) (s.get Obj.INPUT_MV)))
        ∧ exec .readTemperature1 s = answers (le 2 (linear11 s.tjMax 10)) ∧ exec .readTemperature2 s = answers (le 2 (linear11 s.u.pow.plate 10))
        ∧ exec .readPin s = answers (le 2 (linear11 (s.get Obj.INPUT_MW) 1000)))
      ∧ (exec .pmbusRevision s = answers [0x33] ∧ exec .mfrId s = answers [7, 0x54, 0x52, 0x45, 0x4C, 0x4E, 0x41, 0x4C]
        ∧ exec .mfrModel s = answers ([7, 0x4D, 0x42, 0x58, 0x2D] ++ if s.get Obj.ORDERING_CODE = 1 then [0x30, 0x36, 0x34] else [0x31, 0x32, 0x38])
        ∧ exec .mfrDeviceState s = answers (le 1 s.dev) ∧ exec .mfrActiveCauses s = answers (4 :: le 4 (s.get Obj.ACTIVE_CAUSES))
        ∧ exec (.mfrPinLimit none) s = answers (le 2 (s.get Obj.PMBUS_LIMIT_W)) ∧ exec (.mfrPinLimitEn none) s = answers (le 1 (s.get Obj.PMBUS_LIMIT_EN)))
      ∧ (let input := s.u.pow.statusInput &&& ((if s.get Obj.INPUT_MV < 38000 then 16 else 0) + (if 60000 < s.get Obj.INPUT_MV then 128 else 0) + (if s.u.pow.overcurrent then 4 else 0))
        let temp := s.u.pow.statusTemp &&& ((if s.anyHot then 64 else 0) + (if s.u.pow.junction || s.u.boot.shut == some 0 then 128 else 0))
        let quiet := input == 0 && temp == 0
        exec .clearFaults s = .next ((s.withPow fun x => { x with statusInput := input, statusTemp := temp, statusCml := 0, alert := x.alert && !quiet }).sending
          (if s.u.pow.alert && quiet then [.pin .alertN true] else [])))
      ∧ (∀ v, 60 ≤ v → v ≤ 180 → v ≤ s.get Obj.HW_CEILING_W → exec (.mfrPinLimit (some v)) s = .next (((s.putObj Obj.PMBUS_LIMIT_W v).sending []).recovered.offered))
      ∧ (∀ v, 60 ≤ v → v ≤ 180 → s.get Obj.HW_CEILING_W < v → exec (.mfrPinLimit (some v)) s
        = .next ((((s.putObj Obj.PMBUS_LIMIT_W (s.get Obj.HW_CEILING_W)).sending []).logged Ev.CLAMP 0xFFFF v (Obj.PMBUS_LIMIT_W % 2 ^ 24)).recovered.offered))
      ∧ (∀ v, (v < 60 ∨ 180 < v) → exec (.mfrPinLimit (some v)) s = .next ((s.withPow fun x => { x with statusCml := setBit x.statusCml 6 }).sending []))
      ∧ (∀ v, v ≤ 1 → exec (.mfrPinLimitEn (some v)) s = .next (((s.putObj Obj.PMBUS_LIMIT_EN v).sending []).recovered.offered))
      ∧ (∀ v, 1 < v → exec (.mfrPinLimitEn (some v)) s = .next ((s.withPow fun x => { x with statusCml := setBit x.statusCml 6 }).sending []))
      ∧ (∀ code < 256, exec (.pmbusUnsupportedCommand code) s = .next ((s.withPow fun x => { x with statusCml := setBit x.statusCml 7 }).sending []))
      ∧ (s.u.pow.alert = true → exec .alertResponse s = answers (le 1 (s.get Obj.PMBUS_ADDRESS)))
      ∧ (s.u.pow.alert = false → exec .alertResponse s = .next (s.sending []))
      ∧ (∀ sense blade, s.get Obj.SENSE_VALID ≠ 0 → 2000 < max sense blade - min sense blade → exec (.senseInvalid sense blade) s
        = .next ((((s.puts [(Obj.SENSE_VALID, 0), (Obj.INPUT_MV, blade), (Obj.BLADE_MV, blade)]).sending []).loggedVoltage Ev.SENSE_INVALID 0xFFFF sense blade)))
      ∧ (∀ sense blade, s.get Obj.SENSE_VALID = 0 ∨ max sense blade - min sense blade ≤ 2000 → exec (.senseInvalid sense blade) s = .next (s.sending []))
      ∧ (∀ sense blade, 2000 < max sense blade - min sense blade → exec (.senseValidReturn sense blade) s = .next (s.sending []))
      ∧ (∀ sense blade, max sense blade - min sense blade ≤ 2000 → exec (.senseValidReturn sense blade) s
        = .next ((s.puts [(Obj.SENSE_VALID, 1), (Obj.INPUT_MV, sense), (Obj.BLADE_MV, blade)]).sending [])))
    ∧ (∀ ch, s.get Obj.DEBUG_LEVEL ≠ 0 → exec (.uartRxCharacter ch) s = .next ((s.withBoot fun b => { b with console := b.console ++ [ch] }).sending []))
    ∧ (∀ ch, s.get Obj.DEBUG_LEVEL = 0 → exec (.uartRxCharacter ch) s = .next (s.sending []))

/-- Boundary scan (R522 to R527): a change of TEST_EN and Test-Logic-Reset bring IDCODE; with the TAP on, a pin-control instruction is accepted while RESET_N holds the
device, is counted and drives the contacts from the boundary register, and is otherwise decoded as BYPASS, counted and logged; SAMPLE_PRELOAD shifts the boundary register
out and in, IDCODE the identification code, BYPASS one bit of delay; what is not pin control ends a pin-control instruction in force: the contacts are released, and where
RESET_N does not hold the device its boot runs on from here or STANDBY is left. With the TAP off a scan does nothing. Choices of the model that it rests on: log entry 134. -/
def Obligations.BoundaryScan : Prop :=
  ∀ (s : State) (din cap : Nat),
    (s.get Obj.PIN_CONTROL_ACTIVE = 0 → s.unpinned = s)
    ∧ (s.get Obj.PIN_CONTROL_ACTIVE ≠ 0 → let t := (s.putObj Obj.PIN_CONTROL_ACTIVE 0).withTap fun x => { x with driven := none }
      (s.u.boot.resetLow = true → s.unpinned = t)
      ∧ (s.u.boot.resetLow = false → s.dev = Dev.INIT → s.unpinned = t.withBoot fun b => { b with start := s.time })
      ∧ (s.u.boot.resetLow = false → s.dev = Dev.STANDBY → s.unpinned =
        if s.u.boot.powered = true ∧ s.u.boot.pwrGood = true ∧ s.u.boot.carrierLow = false then t.booted s.u.boot.cause false else t))
    ∧ (∀ high, exec (.testEnChange high) s = .next ((s.puts [(Obj.TEST_EN_LEVEL, if high then 1 else 0), (Obj.TAP_RESET, 1), (Obj.IR_ACTIVE, 4)]).sending []).unpinned)
    ∧ exec .tapTestLogicReset s = .next ((s.puts [(Obj.TAP_RESET, 1), (Obj.IR_ACTIVE, 4)]).sending []).unpinned
    ∧ (s.tapOn = true → s.pinControlOk = true → s.get Obj.PIN_CONTROL_ENTRIES + 1 < 2 ^ 32 →
      let held (op : Nat) := s.puts [(Obj.TAP_RESET, 0), (Obj.IR_ACTIVE, op), (Obj.PIN_CONTROL_ACTIVE, 1), (Obj.PIN_CONTROL_ENTRIES, s.get Obj.PIN_CONTROL_ENTRIES + 1)]
      let tested (op : Nat) := ((held op).withTap fun _ => { cells := din % 2 ^ 726, driven := some (din % 2 ^ 726) }).sending
        [.tdo 1, .contacts op s.u.tap.cells, .tdo (cap % 2 ^ 726), .contacts op (din % 2 ^ 726)]
      exec (.extest din cap) s = .next (tested 0) ∧ exec (.extestPulse din cap) s = .next (tested 2) ∧ exec (.extestTrain din cap) s = .next (tested 3)
        ∧ exec (.clamp din cap) s = .next (((held 5).withTap fun t => { t with driven := some t.cells }).sending [.tdo 1, .contacts 5 s.u.tap.cells, .tdo (din * 2)])
        ∧ exec (.highz din cap) s = .next (((held 6).withTap fun t => { t with driven := none }).sending [.tdo 1, .contacts 6 0, .tdo (din * 2)]))
    ∧ (s.tapOn = true → s.pinControlOk = false →
      let refused (op : Nat) := (((((s.puts [(Obj.TAP_RESET, 0), (Obj.IR_ACTIVE, 0xFF)]).sending [.tdo 5]).unpinned).counted 32 Obj.PIN_CONTROL_REFUSED 1).logged
        Ev.PIN_CONTROL_REFUSED 0xFFFF op 0).also [.tdo (din * 2)]
      exec (.extest din cap) s = .next (refused 0) ∧ exec (.extestPulse din cap) s = .next (refused 2) ∧ exec (.extestTrain din cap) s = .next (refused 3)
        ∧ exec (.clamp din cap) s = .next (refused 5) ∧ exec (.highz din cap) s = .next (refused 6))
    ∧ (s.tapOn = true → let plain (op : Nat) := ((s.puts [(Obj.TAP_RESET, 0), (Obj.IR_ACTIVE, op)]).sending [.tdo (1 + if s.pinControlOk then 0 else 4)]).unpinned
      exec (.samplePreload din cap) s = .next (((plain 1).also [.tdo (cap % 2 ^ 726)]).withTap fun t => { t with cells := din % 2 ^ 726 })
        ∧ exec (.idcode din cap) s = .next ((plain 4).also [.tdo (s.get Obj.IDCODE_VALUE + din * 2 ^ 32)])
        ∧ exec (.bypass din cap) s = .next ((plain 0xFF).also [.tdo (din * 2)]))
    ∧ (s.tapOn = false → ∀ c, c ∈ [Instr.extest din cap, .extestPulse din cap, .extestTrain din cap, .clamp din cap, .highz din cap, .samplePreload din cap, .idcode din cap, .bypass din cap] →
      exec c s = .next (s.sending []))


/-! ## Rules stated whole -/

/-- R50: a commit on a CLEAN or APPLIED group, by any session of the group's level, passes and applies nothing: it increments `COMMIT_COUNT` and changes nothing else; a
discard on one changes nothing. The group is named by its index, a furrow's as the session has it selected (R207); a stream's group takes the sessions that R267 admits. -/
def Obligations.CleanGroupAppliesNothing : Prop :=
  ∀ (s : State) (ses i : Nat), ses < 16 → Wf.group i = true → let g := s.groupKey ses i; s.streamShut ses i = false →
    s.get (Obj.FURROW_SELECT ses) < 256 → s.get (Obj.DICTATION_SELECT ses) < 256 → (s.get (Obj.COMMIT_STATUS g) = 0 ∨ s.get (Obj.COMMIT_STATUS g) = 3) →
    (s.admits ses (commitKey g) 1 (groupLvl i) →
      exec (.groupCommit ses i) s = .next (((s.putObj (Obj.COMMIT_COUNT g) ((s.get (Obj.COMMIT_COUNT g) + 1) % 2 ^ 32)).sending (replies ses 0)).told))
    ∧ (s.admits ses (commitKey g) 2 (groupLvl i) → exec (.groupDiscard ses i) s = .next (s.sending (replies ses 0)))

/-- R191: a `RETIRE_REQUEST` on a channel that is not active aborts with 0x0F00_000E `STATE_FORBIDS`. -/
def Obligations.RetireRequestNeedsActiveChannel : Prop :=
  ∀ (s : State) (ch ses : Nat), ch < 64 → ses < 16 → s.admits ses (Obj.RETIRE_REQUEST ch) 1 .svc → s.get (Obj.CHANNEL_ROLE ch) ≠ 0 →
    exec (.retireRequest ses ch 1) s = .next ((s.aborted ses 0x0F00000E (Obj.RETIRE_REQUEST ch)).sending (replies ses 0x0F00000E))

/-- R458: when a token's lifetime ends, the session acts as if `DROP_LEVEL` had been written, or, for a debug token, as if `DEBUG_END` had been written: the session's
level returns to its opening level with its cleanup, an MDP session closes; debug ends. Where the written command would be admitted, it does the same and answers. -/
def Obligations.TokenLifetimeEnds : Prop :=
  ∀ (s : State) (ses : Nat), ses < 16 →
    (s.isOpen ses = true → (s.session ses).token = true →
      (s.get (Obj.TRANSPORT ses) ≠ 3 → exec (.tokenLifetimeExpiry ses false) s
        = .next (((((s.sending []).cleaned ses).putObj (Obj.LEVEL ses) (s.session ses).openLevel).withSes ses fun x => { x with token := false })))
      ∧ (s.get (Obj.TRANSPORT ses) = 3 → exec (.tokenLifetimeExpiry ses false) s = .next ((s.sending []).closed ses))
      ∧ (s.admits ses (Obj.DROP_LEVEL ses) 1 .host →
        ∃ t : State, exec (.tokenLifetimeExpiry ses false) s = .next t ∧ exec (.dropLevel ses ses 1) s = .next (t.also (replies ses 0))))
    ∧ (s.u.boot.debugOf = some ses →
      exec (.tokenLifetimeExpiry ses true) s = .next (((s.putObj Obj.DEBUG_LEVEL 0).withBoot fun b => { b with debugOf := none }).sending [])
      ∧ (s.admits ses Obj.DEBUG_END 1 .svc →
        ∃ t : State, exec (.tokenLifetimeExpiry ses true) s = .next t ∧ exec (.debugEnd ses 1) s = .next (t.also (replies ses 0))))
end

