-- ==== Sys2Proof/Laws/Slots.lean ====
section
/-! SUPPORT. The sparse stores: what a slot or a byte reads as after an update, and that every update keeps the canonical form. -/

namespace Sys2Proof.Machine

/-! ## The dictionary stores -/

theorem Slots.find?_ins (m : Slots) (k : Nat) (w : Word) (j : Nat) :
    Slots.find? (Slots.ins m k w) j = if j = k then some w else Slots.find? m j := by
  induction m with
  | nil => simp only [Slots.ins, Slots.find?, eq_comm]
  | cons e t ih =>
    obtain ⟨i, v⟩ := e
    unfold Slots.ins
    split
    · simp only [Slots.find?, eq_comm (a := k)]
    · split
      · subst_vars; by_cases hj : j = i
        · simp [Slots.find?, hj]
        · simp [Slots.find?, hj, Ne.symm hj]
      · by_cases hi : i = j <;> by_cases hj : j = k <;> simp_all [Slots.find?]

theorem Slots.find?_del (m : Slots) (k j : Nat) :
    Slots.find? (Slots.del m k) j = if j = k then none else Slots.find? m j := by
  induction m with
  | nil => simp [Slots.del, Slots.find?]
  | cons e t ih =>
    obtain ⟨i, v⟩ := e
    simp only [Slots.del] at ih ⊢
    by_cases h : i = k
    · subst h; simp only [ne_eq, not_true_eq_false, decide_false, Bool.false_eq_true, not_false_eq_true, List.filter_cons_of_neg, ih, Slots.find?]
      by_cases hj : j = i
      · simp [hj]
      · simp [hj, Ne.symm hj]
    · simp only [ne_eq, h, not_false_eq_true, decide_true, List.filter_cons_of_pos, Slots.find?, ih]
      split <;> simp_all

theorem Obj.reset_lt (k : Nat) : Obj.reset k < 2 ^ 64 := by
  unfold Obj.reset
  dsimp only
  split
  · split <;> omega
  · split
    · omega
    · split <;> omega

theorem Slots.find?_put (m : Slots) (k : Nat) (w : Word) (j : Nat) :
    (match Slots.find? (Slots.put m k w) j with
      | some x => x.toNat
      | none => Obj.reset j) =
    if j = k then w.toNat else match Slots.find? m j with
      | some x => x.toNat
      | none => Obj.reset j := by
  unfold Slots.put
  by_cases h : w = BitVec.ofNat 64 (Obj.reset k)
  · rw [if_pos h, Slots.find?_del]
    by_cases hj : j = k
    · subst hj
      have := Obj.reset_lt j
      simp only [↓reduceIte, h, BitVec.toNat_ofNat]
      omega
    · simp [hj]
  · rw [if_neg h, Slots.find?_ins]
    by_cases hj : j = k <;> simp [hj]

theorem Slots.mem_ins {m : Slots} {k : Nat} {w : Word} {e : Nat × Word} (h : e ∈ Slots.ins m k w) : e = (k, w) ∨ e ∈ m := by
  induction m with
  | nil => simpa [Slots.ins] using h
  | cons x t ih =>
    obtain ⟨i, v⟩ := x
    unfold Slots.ins at h
    split at h
    · simpa using h
    · split at h
      · rcases List.mem_cons.1 h with h | h <;> simp [h]
      · rcases List.mem_cons.1 h with h | h
        · simp [h]
        · rcases ih h with h | h <;> simp [h]

theorem Slots.rising_ins {m : Slots} (k : Nat) (w : Word) (h : m.Pairwise (fun a b => a.1 < b.1)) :
    (Slots.ins m k w).Pairwise (fun a b => a.1 < b.1) := by
  induction m with
  | nil => simp [Slots.ins]
  | cons x t ih =>
    obtain ⟨i, v⟩ := x
    rw [List.pairwise_cons] at h
    unfold Slots.ins
    split
    · rename_i hk
      refine List.pairwise_cons.2 ⟨?_, List.pairwise_cons.2 h⟩
      intro e he
      rcases List.mem_cons.1 he with he | he
      · simp [he, hk]
      · exact Nat.lt_trans hk (h.1 e he)
    · split
      · rename_i hk; subst hk; exact List.pairwise_cons.2 h
      · refine List.pairwise_cons.2 ⟨?_, ih h.2⟩
        intro e he
        rcases Slots.mem_ins he with he | he
        · subst he; dsimp only; omega
        · exact h.1 e he

theorem Slots.wf_put {m : Slots} (k : Nat) (w : Word) (h : Slots.wf m = true) : Slots.wf (Slots.put m k w) = true := by
  simp only [Slots.wf, Bool.and_eq_true, decide_eq_true_eq, List.all_eq_true] at h ⊢
  unfold Slots.put
  split
  · exact ⟨h.1.filter _, fun e he => h.2 e (List.mem_of_mem_filter he)⟩
  · rename_i hw
    refine ⟨Slots.rising_ins k w h.1, fun e he => ?_⟩
    rcases Slots.mem_ins he with he | he
    · simpa [he] using hw
    · exact h.2 e he

theorem Slots.wf_filter {m : Slots} (f : Nat × Word → Bool) (h : Slots.wf m = true) : Slots.wf (m.filter f) = true := by
  simp only [Slots.wf, Bool.and_eq_true, decide_eq_true_eq, List.all_eq_true] at h ⊢
  exact ⟨h.1.filter _, fun e he => h.2 e (List.mem_of_mem_filter he)⟩

theorem Slots.sorted_ins {m : Slots} (k : Nat) (w : Word) (h : Slots.sorted m = true) : Slots.sorted (Slots.ins m k w) = true := by
  simp only [Slots.sorted, decide_eq_true_eq] at h ⊢
  exact Slots.rising_ins k w h

theorem Slots.sorted_filter {m : Slots} (f : Nat × Word → Bool) (h : Slots.sorted m = true) : Slots.sorted (m.filter f) = true := by
  simp only [Slots.sorted, decide_eq_true_eq] at h ⊢
  exact h.filter _

/-! ## Memory -/

theorem Memory.read_ins (m : Memory) (a : Nat) (b : Byte) (x : Nat) :
    Memory.read (Memory.ins m a b) x = if x = a then b else Memory.read m x := by
  induction m with
  | nil => simp only [Memory.ins, Memory.read, eq_comm]
  | cons e t ih =>
    obtain ⟨i, v⟩ := e
    unfold Memory.ins
    split
    · simp only [Memory.read, eq_comm (a := a)]
    · split
      · subst_vars; by_cases hj : x = i
        · simp [Memory.read, hj]
        · simp [Memory.read, hj, Ne.symm hj]
      · by_cases hi : i = x <;> by_cases hj : x = a <;> simp_all [Memory.read]

theorem Memory.read_filter (m : Memory) (p : Nat → Bool) (x : Nat) :
    Memory.read (m.filter (fun e => p e.1)) x = if p x = true then Memory.read m x else 0 := by
  induction m with
  | nil => simp [Memory.read]
  | cons e t ih =>
    obtain ⟨i, v⟩ := e
    rw [List.filter_cons]
    by_cases hp : p i = true
    · simp only [hp, ↓reduceIte, Memory.read, ih]
      by_cases hi : i = x
      · subst hi; simp [hp]
      · simp [hi]
    · simp only [hp, Bool.false_eq_true, ↓reduceIte, ih, Memory.read]
      by_cases hi : i = x
      · subst hi; simp [hp]
      · simp [hi]

/-- A byte reads as it was written, and every other byte as before. -/
theorem Memory.read_write (m : Memory) (a : Nat) (b : Byte) (x : Nat) :
    Memory.read (Memory.write m a b) x = if x = a then b else Memory.read m x := by
  unfold Memory.write
  split
  · rename_i h
    rw [Memory.read_filter m (fun y => decide (y ≠ a))]
    by_cases hx : x = a <;> simp [hx, h]
  · exact Memory.read_ins m a b x

/-- Bytes outside a run that is written read as before. -/
theorem Memory.read_writeAll_out (bs : List Byte) : ∀ (m : Memory) (a x : Nat), x < a ∨ a + bs.length ≤ x →
    Memory.read (Memory.writeAll m a bs) x = Memory.read m x := by
  induction bs with
  | nil => intro m a x _; rfl
  | cons b t ih =>
    intro m a x h
    simp only [Memory.writeAll, List.length_cons] at h ⊢
    rw [ih _ _ _ (by omega), Memory.read_write, if_neg (by omega)]

/-- Bytes inside a run that is written read as they were written. -/
theorem Memory.read_writeAll_in (bs : List Byte) : ∀ (m : Memory) (a i : Nat), (h : i < bs.length) →
    Memory.read (Memory.writeAll m a bs) (a + i) = bs[i] := by
  induction bs with
  | nil => intro m a i h; simp at h
  | cons b t ih =>
    intro m a i h
    simp only [Memory.writeAll]
    cases i with
    | zero => rw [Memory.read_writeAll_out _ _ _ _ (by omega), Memory.read_write]; simp
    | succ n =>
      have := ih (Memory.write m a b) (a + 1) n (by simpa using h)
      simpa [Nat.add_assoc, Nat.add_comm 1 n] using this

/-- What a run of zeroed bytes reads as. -/
theorem Memory.read_wipe (m : Memory) (lo n x : Nat) :
    Memory.read (Memory.wipe m lo n) x = if x < lo ∨ lo + n ≤ x then Memory.read m x else 0 := by
  unfold Memory.wipe
  rw [Memory.read_filter m (fun y => decide (y < lo ∨ lo + n ≤ y))]
  simp

theorem Memory.mem_ins {m : Memory} {a : Nat} {b : Byte} {e : Host.Cell} (h : e ∈ Memory.ins m a b) : e = (a, b) ∨ e ∈ m := by
  induction m with
  | nil => simpa [Memory.ins] using h
  | cons x t ih =>
    obtain ⟨i, v⟩ := x
    unfold Memory.ins at h
    split at h
    · simpa using h
    · split at h
      · rcases List.mem_cons.1 h with h | h <;> simp [h]
      · rcases List.mem_cons.1 h with h | h
        · simp [h]
        · rcases ih h with h | h <;> simp [h]

theorem Memory.rising_ins {m : Memory} (a : Nat) (b : Byte) (h : m.Pairwise (fun x y => x.1 < y.1)) :
    (Memory.ins m a b).Pairwise (fun x y => x.1 < y.1) := by
  induction m with
  | nil => simp [Memory.ins]
  | cons x t ih =>
    obtain ⟨i, v⟩ := x
    rw [List.pairwise_cons] at h
    unfold Memory.ins
    split
    · rename_i hk
      refine List.pairwise_cons.2 ⟨?_, List.pairwise_cons.2 h⟩
      intro e he
      rcases List.mem_cons.1 he with he | he
      · simp [he, hk]
      · exact Nat.lt_trans hk (h.1 e he)
    · split
      · rename_i hk; subst hk; exact List.pairwise_cons.2 h
      · refine List.pairwise_cons.2 ⟨?_, ih h.2⟩
        intro e he
        rcases Memory.mem_ins he with he | he
        · subst he; dsimp only; omega
        · exact h.1 e he

theorem Memory.wf_filter {m : Memory} (f : Host.Cell → Bool) (h : Memory.wf m = true) : Memory.wf (m.filter f) = true := by
  simp only [Memory.wf, Bool.and_eq_true, decide_eq_true_eq, List.all_eq_true] at h ⊢
  exact ⟨h.1.filter _, fun e he => h.2 e (List.mem_of_mem_filter he)⟩

theorem Memory.wf_write {m : Memory} (a : Nat) (b : Byte) (h : Memory.wf m = true) : Memory.wf (Memory.write m a b) = true := by
  unfold Memory.write
  split
  · exact Memory.wf_filter _ h
  · rename_i hb
    simp only [Memory.wf, Bool.and_eq_true, decide_eq_true_eq, List.all_eq_true] at h ⊢
    refine ⟨Memory.rising_ins a b h.1, fun e he => ?_⟩
    rcases Memory.mem_ins he with he | he
    · simpa [he] using hb
    · exact h.2 e he

theorem Memory.wf_writeAll (bs : List Byte) : ∀ {m : Memory} (a : Nat), Memory.wf m = true → Memory.wf (Memory.writeAll m a bs) = true := by
  induction bs with
  | nil => intro m a h; exact h
  | cons b t ih => intro m a h; exact ih (a + 1) (Memory.wf_write a b h)

theorem Memory.wf_wipe {m : Memory} (lo n : Nat) (h : Memory.wf m = true) : Memory.wf (Memory.wipe m lo n) = true :=
  Memory.wf_filter _ h

end Sys2Proof.Machine
end

