-- ==== Sys2Proof/Laws/State.lean ====
section
/-! SUPPORT. What each elementary act leaves of each field of the state, and what the state's readings become: one lemma per
field per act, so that no proof unfolds a record update. -/

namespace Sys2Proof.Machine

variable (s : State)

/-! ## put -/

@[simp] theorem run_put_pending (k v : Nat) : ((Act.put k v).run s).pending = s.pending := rfl
@[simp] theorem run_put_shadow (k v : Nat) : ((Act.put k v).run s).shadow = s.shadow := rfl
@[simp] theorem run_put_bytes (k v : Nat) : ((Act.put k v).run s).bytes = s.bytes := rfl
@[simp] theorem run_put_time (k v : Nat) : ((Act.put k v).run s).time = s.time := rfl
@[simp] theorem run_put_freeCtr (k v : Nat) : ((Act.put k v).run s).freeCtr = s.freeCtr := rfl
@[simp] theorem run_put_log (k v : Nat) : ((Act.put k v).run s).log = s.log := rfl
@[simp] theorem run_put_out (k v : Nat) : ((Act.put k v).run s).out = s.out := rfl
@[simp] theorem run_put_u (k v : Nat) : ((Act.put k v).run s).u = s.u := rfl
@[simp] theorem run_put_ns (k v : Nat) : ((Act.put k v).run s).ns = s.ns := rfl
@[simp] theorem run_put_frac (k v : Nat) : ((Act.put k v).run s).frac = s.frac := rfl
@[simp] theorem run_put_free (k v : Nat) (i w : Nat) : ((Act.put k v).run s).free i w = s.free i w := rfl
@[simp] theorem run_put_session (k v : Nat) (n : Nat) : ((Act.put k v).run s).session n = s.session n := rfl

/-! ## putShadow -/

@[simp] theorem run_putShadow_pending (k v : Nat) : ((Act.putShadow k v).run s).pending = s.pending := rfl
@[simp] theorem run_putShadow_objs (k v : Nat) : ((Act.putShadow k v).run s).objs = s.objs := rfl
@[simp] theorem run_putShadow_bytes (k v : Nat) : ((Act.putShadow k v).run s).bytes = s.bytes := rfl
@[simp] theorem run_putShadow_time (k v : Nat) : ((Act.putShadow k v).run s).time = s.time := rfl
@[simp] theorem run_putShadow_freeCtr (k v : Nat) : ((Act.putShadow k v).run s).freeCtr = s.freeCtr := rfl
@[simp] theorem run_putShadow_log (k v : Nat) : ((Act.putShadow k v).run s).log = s.log := rfl
@[simp] theorem run_putShadow_out (k v : Nat) : ((Act.putShadow k v).run s).out = s.out := rfl
@[simp] theorem run_putShadow_u (k v : Nat) : ((Act.putShadow k v).run s).u = s.u := rfl
@[simp] theorem run_putShadow_get (k v : Nat) (j : Nat) : ((Act.putShadow k v).run s).get j = s.get j := rfl
@[simp] theorem run_putShadow_ns (k v : Nat) : ((Act.putShadow k v).run s).ns = s.ns := rfl
@[simp] theorem run_putShadow_frac (k v : Nat) : ((Act.putShadow k v).run s).frac = s.frac := rfl
@[simp] theorem run_putShadow_free (k v : Nat) (i w : Nat) : ((Act.putShadow k v).run s).free i w = s.free i w := rfl
@[simp] theorem run_putShadow_session (k v : Nat) (n : Nat) : ((Act.putShadow k v).run s).session n = s.session n := rfl

/-! ## dropShadow -/

@[simp] theorem run_dropShadow_pending (k v : Nat) : ((Act.dropShadow k v).run s).pending = s.pending := rfl
@[simp] theorem run_dropShadow_objs (k v : Nat) : ((Act.dropShadow k v).run s).objs = s.objs := rfl
@[simp] theorem run_dropShadow_bytes (k v : Nat) : ((Act.dropShadow k v).run s).bytes = s.bytes := rfl
@[simp] theorem run_dropShadow_time (k v : Nat) : ((Act.dropShadow k v).run s).time = s.time := rfl
@[simp] theorem run_dropShadow_freeCtr (k v : Nat) : ((Act.dropShadow k v).run s).freeCtr = s.freeCtr := rfl
@[simp] theorem run_dropShadow_log (k v : Nat) : ((Act.dropShadow k v).run s).log = s.log := rfl
@[simp] theorem run_dropShadow_out (k v : Nat) : ((Act.dropShadow k v).run s).out = s.out := rfl
@[simp] theorem run_dropShadow_u (k v : Nat) : ((Act.dropShadow k v).run s).u = s.u := rfl
@[simp] theorem run_dropShadow_get (k v : Nat) (j : Nat) : ((Act.dropShadow k v).run s).get j = s.get j := rfl
@[simp] theorem run_dropShadow_ns (k v : Nat) : ((Act.dropShadow k v).run s).ns = s.ns := rfl
@[simp] theorem run_dropShadow_frac (k v : Nat) : ((Act.dropShadow k v).run s).frac = s.frac := rfl
@[simp] theorem run_dropShadow_free (k v : Nat) (i w : Nat) : ((Act.dropShadow k v).run s).free i w = s.free i w := rfl
@[simp] theorem run_dropShadow_session (k v : Nat) (n : Nat) : ((Act.dropShadow k v).run s).session n = s.session n := rfl

/-! ## poke -/

@[simp] theorem run_poke_pending (a : Nat) (bs : List Byte) : ((Act.poke a bs).run s).pending = s.pending := rfl
@[simp] theorem run_poke_objs (a : Nat) (bs : List Byte) : ((Act.poke a bs).run s).objs = s.objs := rfl
@[simp] theorem run_poke_shadow (a : Nat) (bs : List Byte) : ((Act.poke a bs).run s).shadow = s.shadow := rfl
@[simp] theorem run_poke_time (a : Nat) (bs : List Byte) : ((Act.poke a bs).run s).time = s.time := rfl
@[simp] theorem run_poke_freeCtr (a : Nat) (bs : List Byte) : ((Act.poke a bs).run s).freeCtr = s.freeCtr := rfl
@[simp] theorem run_poke_log (a : Nat) (bs : List Byte) : ((Act.poke a bs).run s).log = s.log := rfl
@[simp] theorem run_poke_out (a : Nat) (bs : List Byte) : ((Act.poke a bs).run s).out = s.out := rfl
@[simp] theorem run_poke_u (a : Nat) (bs : List Byte) : ((Act.poke a bs).run s).u = s.u := rfl
@[simp] theorem run_poke_get (a : Nat) (bs : List Byte) (j : Nat) : ((Act.poke a bs).run s).get j = s.get j := rfl
@[simp] theorem run_poke_shadowOf (a : Nat) (bs : List Byte) (j : Nat) : ((Act.poke a bs).run s).shadowOf j = s.shadowOf j := rfl
@[simp] theorem run_poke_ns (a : Nat) (bs : List Byte) : ((Act.poke a bs).run s).ns = s.ns := rfl
@[simp] theorem run_poke_frac (a : Nat) (bs : List Byte) : ((Act.poke a bs).run s).frac = s.frac := rfl
@[simp] theorem run_poke_free (a : Nat) (bs : List Byte) (i w : Nat) : ((Act.poke a bs).run s).free i w = s.free i w := rfl
@[simp] theorem run_poke_session (a : Nat) (bs : List Byte) (n : Nat) : ((Act.poke a bs).run s).session n = s.session n := rfl

/-! ## wipe -/

@[simp] theorem run_wipe_pending (k v : Nat) : ((Act.wipe k v).run s).pending = s.pending := rfl
@[simp] theorem run_wipe_objs (k v : Nat) : ((Act.wipe k v).run s).objs = s.objs := rfl
@[simp] theorem run_wipe_shadow (k v : Nat) : ((Act.wipe k v).run s).shadow = s.shadow := rfl
@[simp] theorem run_wipe_time (k v : Nat) : ((Act.wipe k v).run s).time = s.time := rfl
@[simp] theorem run_wipe_freeCtr (k v : Nat) : ((Act.wipe k v).run s).freeCtr = s.freeCtr := rfl
@[simp] theorem run_wipe_log (k v : Nat) : ((Act.wipe k v).run s).log = s.log := rfl
@[simp] theorem run_wipe_out (k v : Nat) : ((Act.wipe k v).run s).out = s.out := rfl
@[simp] theorem run_wipe_u (k v : Nat) : ((Act.wipe k v).run s).u = s.u := rfl
@[simp] theorem run_wipe_get (k v : Nat) (j : Nat) : ((Act.wipe k v).run s).get j = s.get j := rfl
@[simp] theorem run_wipe_shadowOf (k v : Nat) (j : Nat) : ((Act.wipe k v).run s).shadowOf j = s.shadowOf j := rfl
@[simp] theorem run_wipe_ns (k v : Nat) : ((Act.wipe k v).run s).ns = s.ns := rfl
@[simp] theorem run_wipe_frac (k v : Nat) : ((Act.wipe k v).run s).frac = s.frac := rfl
@[simp] theorem run_wipe_free (k v : Nat) (i w : Nat) : ((Act.wipe k v).run s).free i w = s.free i w := rfl
@[simp] theorem run_wipe_session (k v : Nat) (n : Nat) : ((Act.wipe k v).run s).session n = s.session n := rfl

/-! ## log -/

@[simp] theorem run_log_pending (c i d0 d1 : Nat) : ((Act.log c i d0 d1).run s).pending = s.pending := rfl
@[simp] theorem run_log_objs (c i d0 d1 : Nat) : ((Act.log c i d0 d1).run s).objs = s.objs := rfl
@[simp] theorem run_log_shadow (c i d0 d1 : Nat) : ((Act.log c i d0 d1).run s).shadow = s.shadow := rfl
@[simp] theorem run_log_bytes (c i d0 d1 : Nat) : ((Act.log c i d0 d1).run s).bytes = s.bytes := rfl
@[simp] theorem run_log_time (c i d0 d1 : Nat) : ((Act.log c i d0 d1).run s).time = s.time := rfl
@[simp] theorem run_log_freeCtr (c i d0 d1 : Nat) : ((Act.log c i d0 d1).run s).freeCtr = s.freeCtr := rfl
@[simp] theorem run_log_out (c i d0 d1 : Nat) : ((Act.log c i d0 d1).run s).out = s.out := rfl
@[simp] theorem run_log_u (c i d0 d1 : Nat) : ((Act.log c i d0 d1).run s).u = s.u := rfl
@[simp] theorem run_log_get (c i d0 d1 : Nat) (j : Nat) : ((Act.log c i d0 d1).run s).get j = s.get j := rfl
@[simp] theorem run_log_shadowOf (c i d0 d1 : Nat) (j : Nat) : ((Act.log c i d0 d1).run s).shadowOf j = s.shadowOf j := rfl
@[simp] theorem run_log_ns (c i d0 d1 : Nat) : ((Act.log c i d0 d1).run s).ns = s.ns := rfl
@[simp] theorem run_log_frac (c i d0 d1 : Nat) : ((Act.log c i d0 d1).run s).frac = s.frac := rfl
@[simp] theorem run_log_free (c n d0 d1 : Nat) (i w : Nat) : ((Act.log c n d0 d1).run s).free i w = s.free i w := rfl
@[simp] theorem run_log_session (c i d0 d1 : Nat) (n : Nat) : ((Act.log c i d0 d1).run s).session n = s.session n := rfl

/-! ## logNotes -/

@[simp] theorem run_logNotes_pending (f : EventLog → EventLog) : ((Act.logNotes f).run s).pending = s.pending := rfl
@[simp] theorem run_logNotes_objs (f : EventLog → EventLog) : ((Act.logNotes f).run s).objs = s.objs := rfl
@[simp] theorem run_logNotes_shadow (f : EventLog → EventLog) : ((Act.logNotes f).run s).shadow = s.shadow := rfl
@[simp] theorem run_logNotes_bytes (f : EventLog → EventLog) : ((Act.logNotes f).run s).bytes = s.bytes := rfl
@[simp] theorem run_logNotes_time (f : EventLog → EventLog) : ((Act.logNotes f).run s).time = s.time := rfl
@[simp] theorem run_logNotes_freeCtr (f : EventLog → EventLog) : ((Act.logNotes f).run s).freeCtr = s.freeCtr := rfl
@[simp] theorem run_logNotes_out (f : EventLog → EventLog) : ((Act.logNotes f).run s).out = s.out := rfl
@[simp] theorem run_logNotes_u (f : EventLog → EventLog) : ((Act.logNotes f).run s).u = s.u := rfl
@[simp] theorem run_logNotes_get (f : EventLog → EventLog) (j : Nat) : ((Act.logNotes f).run s).get j = s.get j := rfl
@[simp] theorem run_logNotes_shadowOf (f : EventLog → EventLog) (j : Nat) : ((Act.logNotes f).run s).shadowOf j = s.shadowOf j := rfl
@[simp] theorem run_logNotes_ns (f : EventLog → EventLog) : ((Act.logNotes f).run s).ns = s.ns := rfl
@[simp] theorem run_logNotes_frac (f : EventLog → EventLog) : ((Act.logNotes f).run s).frac = s.frac := rfl
@[simp] theorem run_logNotes_free (f : EventLog → EventLog) (i w : Nat) : ((Act.logNotes f).run s).free i w = s.free i w := rfl
@[simp] theorem run_logNotes_session (f : EventLog → EventLog) (n : Nat) : ((Act.logNotes f).run s).session n = s.session n := rfl

/-! ## newLog -/

@[simp] theorem run_newLog_pending : (Act.newLog.run s).pending = s.pending := rfl
@[simp] theorem run_newLog_objs : (Act.newLog.run s).objs = s.objs := rfl
@[simp] theorem run_newLog_shadow : (Act.newLog.run s).shadow = s.shadow := rfl
@[simp] theorem run_newLog_bytes : (Act.newLog.run s).bytes = s.bytes := rfl
@[simp] theorem run_newLog_time : (Act.newLog.run s).time = s.time := rfl
@[simp] theorem run_newLog_freeCtr : (Act.newLog.run s).freeCtr = s.freeCtr := rfl
@[simp] theorem run_newLog_out : (Act.newLog.run s).out = s.out := rfl
@[simp] theorem run_newLog_u : (Act.newLog.run s).u = s.u := rfl
@[simp] theorem run_newLog_get (j : Nat) : (Act.newLog.run s).get j = s.get j := rfl
@[simp] theorem run_newLog_shadowOf (j : Nat) : (Act.newLog.run s).shadowOf j = s.shadowOf j := rfl
@[simp] theorem run_newLog_ns : (Act.newLog.run s).ns = s.ns := rfl
@[simp] theorem run_newLog_frac : (Act.newLog.run s).frac = s.frac := rfl
@[simp] theorem run_newLog_free (i w : Nat) : (Act.newLog.run s).free i w = s.free i w := rfl
@[simp] theorem run_newLog_session (n : Nat) : (Act.newLog.run s).session n = s.session n := rfl

/-! ## emit -/

@[simp] theorem run_emit_pending (e : Emit) : ((Act.emit e).run s).pending = s.pending := rfl
@[simp] theorem run_emit_objs (e : Emit) : ((Act.emit e).run s).objs = s.objs := rfl
@[simp] theorem run_emit_shadow (e : Emit) : ((Act.emit e).run s).shadow = s.shadow := rfl
@[simp] theorem run_emit_bytes (e : Emit) : ((Act.emit e).run s).bytes = s.bytes := rfl
@[simp] theorem run_emit_time (e : Emit) : ((Act.emit e).run s).time = s.time := rfl
@[simp] theorem run_emit_freeCtr (e : Emit) : ((Act.emit e).run s).freeCtr = s.freeCtr := rfl
@[simp] theorem run_emit_log (e : Emit) : ((Act.emit e).run s).log = s.log := rfl
@[simp] theorem run_emit_u (e : Emit) : ((Act.emit e).run s).u = s.u := rfl
@[simp] theorem run_emit_get (e : Emit) (j : Nat) : ((Act.emit e).run s).get j = s.get j := rfl
@[simp] theorem run_emit_shadowOf (e : Emit) (j : Nat) : ((Act.emit e).run s).shadowOf j = s.shadowOf j := rfl
@[simp] theorem run_emit_ns (e : Emit) : ((Act.emit e).run s).ns = s.ns := rfl
@[simp] theorem run_emit_frac (e : Emit) : ((Act.emit e).run s).frac = s.frac := rfl
@[simp] theorem run_emit_free (e : Emit) (i w : Nat) : ((Act.emit e).run s).free i w = s.free i w := rfl
@[simp] theorem run_emit_session (e : Emit) (n : Nat) : ((Act.emit e).run s).session n = s.session n := rfl

/-! ## draw -/

@[simp] theorem run_draw_pending (n : Nat) : ((Act.draw n).run s).pending = s.pending := rfl
@[simp] theorem run_draw_objs (n : Nat) : ((Act.draw n).run s).objs = s.objs := rfl
@[simp] theorem run_draw_shadow (n : Nat) : ((Act.draw n).run s).shadow = s.shadow := rfl
@[simp] theorem run_draw_bytes (n : Nat) : ((Act.draw n).run s).bytes = s.bytes := rfl
@[simp] theorem run_draw_time (n : Nat) : ((Act.draw n).run s).time = s.time := rfl
@[simp] theorem run_draw_log (n : Nat) : ((Act.draw n).run s).log = s.log := rfl
@[simp] theorem run_draw_out (n : Nat) : ((Act.draw n).run s).out = s.out := rfl
@[simp] theorem run_draw_u (n : Nat) : ((Act.draw n).run s).u = s.u := rfl
@[simp] theorem run_draw_get (n : Nat) (j : Nat) : ((Act.draw n).run s).get j = s.get j := rfl
@[simp] theorem run_draw_shadowOf (n : Nat) (j : Nat) : ((Act.draw n).run s).shadowOf j = s.shadowOf j := rfl
@[simp] theorem run_draw_ns (n : Nat) : ((Act.draw n).run s).ns = s.ns := rfl
@[simp] theorem run_draw_frac (n : Nat) : ((Act.draw n).run s).frac = s.frac := rfl
@[simp] theorem run_draw_session (k : Nat) (n : Nat) : ((Act.draw k).run s).session n = s.session n := rfl

/-! ## setTime -/

@[simp] theorem run_setTime_pending (n : Nat) : ((Act.setTime n).run s).pending = s.pending := rfl
@[simp] theorem run_setTime_objs (n : Nat) : ((Act.setTime n).run s).objs = s.objs := rfl
@[simp] theorem run_setTime_shadow (n : Nat) : ((Act.setTime n).run s).shadow = s.shadow := rfl
@[simp] theorem run_setTime_bytes (n : Nat) : ((Act.setTime n).run s).bytes = s.bytes := rfl
@[simp] theorem run_setTime_freeCtr (n : Nat) : ((Act.setTime n).run s).freeCtr = s.freeCtr := rfl
@[simp] theorem run_setTime_log (n : Nat) : ((Act.setTime n).run s).log = s.log := rfl
@[simp] theorem run_setTime_out (n : Nat) : ((Act.setTime n).run s).out = s.out := rfl
@[simp] theorem run_setTime_u (n : Nat) : ((Act.setTime n).run s).u = s.u := rfl
@[simp] theorem run_setTime_get (n : Nat) (j : Nat) : ((Act.setTime n).run s).get j = s.get j := rfl
@[simp] theorem run_setTime_shadowOf (n : Nat) (j : Nat) : ((Act.setTime n).run s).shadowOf j = s.shadowOf j := rfl
@[simp] theorem run_setTime_free (n : Nat) (i w : Nat) : ((Act.setTime n).run s).free i w = s.free i w := rfl
@[simp] theorem run_setTime_session (k : Nat) (n : Nat) : ((Act.setTime k).run s).session n = s.session n := rfl

/-! ## units -/

@[simp] theorem run_units_pending (f : Units → Units) : ((Act.units f).run s).pending = s.pending := rfl
@[simp] theorem run_units_objs (f : Units → Units) : ((Act.units f).run s).objs = s.objs := rfl
@[simp] theorem run_units_shadow (f : Units → Units) : ((Act.units f).run s).shadow = s.shadow := rfl
@[simp] theorem run_units_bytes (f : Units → Units) : ((Act.units f).run s).bytes = s.bytes := rfl
@[simp] theorem run_units_time (f : Units → Units) : ((Act.units f).run s).time = s.time := rfl
@[simp] theorem run_units_freeCtr (f : Units → Units) : ((Act.units f).run s).freeCtr = s.freeCtr := rfl
@[simp] theorem run_units_log (f : Units → Units) : ((Act.units f).run s).log = s.log := rfl
@[simp] theorem run_units_out (f : Units → Units) : ((Act.units f).run s).out = s.out := rfl
@[simp] theorem run_units_get (f : Units → Units) (j : Nat) : ((Act.units f).run s).get j = s.get j := rfl
@[simp] theorem run_units_shadowOf (f : Units → Units) (j : Nat) : ((Act.units f).run s).shadowOf j = s.shadowOf j := rfl
@[simp] theorem run_units_ns (f : Units → Units) : ((Act.units f).run s).ns = s.ns := rfl
@[simp] theorem run_units_frac (f : Units → Units) : ((Act.units f).run s).frac = s.frac := rfl
@[simp] theorem run_units_free (f : Units → Units) (i w : Nat) : ((Act.units f).run s).free i w = s.free i w := rfl

/-! ## resetObjs -/

@[simp] theorem run_resetObjs_pending (f : Nat → Bool) : ((Act.resetObjs f).run s).pending = s.pending := rfl
@[simp] theorem run_resetObjs_bytes (f : Nat → Bool) : ((Act.resetObjs f).run s).bytes = s.bytes := rfl
@[simp] theorem run_resetObjs_time (f : Nat → Bool) : ((Act.resetObjs f).run s).time = s.time := rfl
@[simp] theorem run_resetObjs_freeCtr (f : Nat → Bool) : ((Act.resetObjs f).run s).freeCtr = s.freeCtr := rfl
@[simp] theorem run_resetObjs_log (f : Nat → Bool) : ((Act.resetObjs f).run s).log = s.log := rfl
@[simp] theorem run_resetObjs_out (f : Nat → Bool) : ((Act.resetObjs f).run s).out = s.out := rfl
@[simp] theorem run_resetObjs_u (f : Nat → Bool) : ((Act.resetObjs f).run s).u = s.u := rfl
@[simp] theorem run_resetObjs_ns (f : Nat → Bool) : ((Act.resetObjs f).run s).ns = s.ns := rfl
@[simp] theorem run_resetObjs_frac (f : Nat → Bool) : ((Act.resetObjs f).run s).frac = s.frac := rfl
@[simp] theorem run_resetObjs_free (f : Nat → Bool) (i w : Nat) : ((Act.resetObjs f).run s).free i w = s.free i w := rfl
@[simp] theorem run_resetObjs_session (f : Nat → Bool) (n : Nat) : ((Act.resetObjs f).run s).session n = s.session n := rfl

/-! ## What changes -/

@[simp] theorem run_put_get (k v j : Nat) : ((Act.put k v).run s).get j = if j = k then v % 2 ^ 64 else s.get j := by
  have h := Slots.find?_put s.objs k (BitVec.ofNat 64 v) j
  rw [BitVec.toNat_ofNat] at h
  exact h

@[simp] theorem run_emit_out (e : Emit) : ((Act.emit e).run s).out = s.out ++ [e] := rfl
@[simp] theorem run_draw_freeCtr (n : Nat) : ((Act.draw n).run s).freeCtr = s.freeCtr + n := rfl
@[simp] theorem run_setTime_time (n : Nat) : ((Act.setTime n).run s).time = n := rfl
@[simp] theorem run_units_u (f : Units → Units) : ((Act.units f).run s).u = f s.u := rfl
@[simp] theorem run_poke_bytes (a : Nat) (bs : List Byte) : ((Act.poke a bs).run s).bytes = Memory.writeAll s.bytes a bs := rfl
@[simp] theorem run_wipe_bytes (k v : Nat) : ((Act.wipe k v).run s).bytes = Memory.wipe s.bytes k v := rfl

/-- A shadow slot reads what was written to it, and every other one as before. -/
@[simp] theorem run_putShadow_shadowOf (k v j : Nat) :
    ((Act.putShadow k v).run s).shadowOf j = if j = k then v % 2 ^ 64 else s.shadowOf j := by
  have h : Slots.find? ((Act.putShadow k v).run s).shadow j = if j = k then some (BitVec.ofNat 64 v) else Slots.find? s.shadow j :=
    Slots.find?_ins s.shadow k _ j
  unfold State.shadowOf
  rw [h]
  by_cases hj : j = k <;> simp [hj]

/-! ## Composition -/

@[simp] theorem run_skip : Act.skip.run s = s := rfl
@[simp] theorem run_seq (a b : Act) : (Act.seq a b).run s = b.run (a.run s) := rfl
@[simp] theorem run_read (f : State → Act) : (Act.read f).run s = (f s).run s := rfl
@[simp] theorem run_all_nil : (Act.all []).run s = s := rfl
@[simp] theorem run_all_cons (a : Act) (as : List Act) : (Act.all (a :: as)).run s = (Act.all as).run (a.run s) := rfl
@[simp] theorem run_each_nil {α : Type} (f : α → Act) : (Act.each [] f).run s = s := rfl
@[simp] theorem run_each_cons {α : Type} (x : α) (xs : List α) (f : α → Act) :
    (Act.each (x :: xs) f).run s = (Act.each xs f).run ((f x).run s) := rfl
@[simp] theorem run_when (c : Bool) (a : Act) : (Act.when c a).run s = if c then a.run s else s := by
  cases c <;> rfl
@[simp] theorem run_modify (k : Nat) (f : Nat → Nat) : (Act.modify k f).run s = (Act.put k (f (s.get k))).run s := rfl
@[simp] theorem run_wrap (w k n : Nat) : (Act.wrap w k n).run s = (Act.put k ((s.get k + n) % 2 ^ w)).run s := rfl
@[simp] theorem run_sat (w k n : Nat) : (Act.sat w k n).run s = (Act.put k (min (s.get k + n) (2 ^ w - 1))).run s := rfl

/-- What each of some acts keeps, all of them in turn keep. -/
theorem run_each_keeps {α β : Type} (p : State → β) (f : α → Act) (xs : List α) (h : ∀ x ∈ xs, ∀ t, p ((f x).run t) = p t) :
    ∀ s, p ((Act.each xs f).run s) = p s := by
  induction xs with
  | nil => intro s; rfl
  | cons x xs ih =>
    intro s
    rw [run_each_cons, ih (fun y hy => h y (List.mem_cons_of_mem _ hy)), h x (List.mem_cons_self ..)]

/-- A counter below its limit counts. -/
theorem run_count {w k n : Nat} (h : s.get k + n < 2 ^ w) : (Act.count w k n).run s = (Act.put k (s.get k + n)).run s := by
  simp [Act.count, h]

/-! ## The state a command begins in -/

@[simp] theorem begun_pending : s.begun.pending = s.pending := rfl
@[simp] theorem begun_objs : s.begun.objs = s.objs := rfl
@[simp] theorem begun_shadow : s.begun.shadow = s.shadow := rfl
@[simp] theorem begun_bytes : s.begun.bytes = s.bytes := rfl
@[simp] theorem begun_time : s.begun.time = s.time := rfl
@[simp] theorem begun_freeCtr : s.begun.freeCtr = s.freeCtr := rfl
@[simp] theorem begun_log : s.begun.log = s.log := rfl
@[simp] theorem begun_out : s.begun.out = [] := rfl
@[simp] theorem begun_u : s.begun.u = s.u := rfl
@[simp] theorem begun_get (k : Nat) : s.begun.get k = s.get k := rfl
@[simp] theorem begun_shadowOf (k : Nat) : s.begun.shadowOf k = s.shadowOf k := rfl
@[simp] theorem begun_ns : s.begun.ns = s.ns := rfl
@[simp] theorem begun_frac : s.begun.frac = s.frac := rfl
@[simp] theorem begun_free (i w : Nat) : s.begun.free i w = s.free i w := rfl
@[simp] theorem begun_session (n : Nat) : s.begun.session n = s.session n := rfl
@[simp] theorem begun_dev : s.begun.dev = s.dev := rfl
@[simp] theorem begun_isOpen (n : Nat) : s.begun.isOpen n = s.isOpen n := rfl
@[simp] theorem begun_level (n : Nat) : s.begun.level n = s.level n := rfl

/-- A command whose operands name units that exist carries its act out. -/
theorem need_next {c : Bool} (h : c = true) (a : Act) : need c s a = .next (a.run s.begun) := by
  simp [need, h]

/-- A command whose operands name no such unit stops. -/
theorem need_fault {c : Bool} (h : c = false) (a : Act) : need c s a = .fault .noSuchUnit := by
  simp [need, h]

end Sys2Proof.Machine
end

