-- ==== Sys2Proof/Laws/Act.lean ====
section
/-! SUPPORT. What every act keeps, by induction on the act, and that every command is an act under the check of its operands. -/

namespace Sys2Proof.Machine

/-- No act touches the queue of commands. -/
theorem run_pending (a : Act) : ∀ s : State, (a.run s).pending = s.pending := by
  induction a with
  | seq a b iha ihb => intro s; rw [run_seq, ihb, iha]
  | read f ih => intro s; rw [run_read, ih]
  | _ => intro s; rfl

/-- Every act keeps the canonical form of the stores. -/
theorem run_canonical (a : Act) : ∀ s : State, s.canonical = true → (a.run s).canonical = true := by
  induction a with
  | seq a b iha ihb => intro s h; exact ihb _ (iha _ h)
  | read f ih => intro s h; exact ih s s h
  | put k v =>
    intro s h
    simp only [State.canonical, Bool.and_eq_true] at h ⊢
    exact ⟨⟨Slots.wf_put k _ h.1.1, h.1.2⟩, h.2⟩
  | putShadow k v =>
    intro s h
    simp only [State.canonical, Bool.and_eq_true] at h ⊢
    exact ⟨⟨h.1.1, Slots.sorted_ins k _ h.1.2⟩, h.2⟩
  | dropShadow lo hi =>
    intro s h
    simp only [State.canonical, Bool.and_eq_true] at h ⊢
    exact ⟨⟨h.1.1, Slots.sorted_filter _ h.1.2⟩, h.2⟩
  | poke a bs =>
    intro s h
    simp only [State.canonical, Bool.and_eq_true] at h ⊢
    exact ⟨⟨h.1.1, h.1.2⟩, Memory.wf_writeAll bs a h.2⟩
  | wipe lo n =>
    intro s h
    simp only [State.canonical, Bool.and_eq_true] at h ⊢
    exact ⟨⟨h.1.1, h.1.2⟩, Memory.wf_wipe lo n h.2⟩
  | resetObjs keep =>
    intro s h
    simp only [State.canonical, Bool.and_eq_true] at h ⊢
    exact ⟨⟨Slots.wf_filter _ h.1.1, rfl⟩, h.2⟩
  | _ => intro s h; exact h

/-- Every command carries out an act where its operands name units that exist, and stops where they do not. -/
theorem exec_need (i : Instr) (s : State) : ∃ a, exec i s = need (Instr.wf i) s a := by
  cases i <;> exact ⟨_, rfl⟩

end Sys2Proof.Machine
end

