-- ==== Sys2Proof/Laws/Tab.lean ====
section
/-! SUPPORT. Sparse tables of records: what stands under a number after an update, and the units' records after the acts that change one of them. -/

namespace Sys2Proof.Machine

variable {α : Type}

@[simp] theorem Tab.get?_set (t : Tab α) (k : Nat) (a : α) (j : Nat) : Tab.get? (Tab.set t k a) j = if j = k then some a else Tab.get? t j := by
  induction t with
  | nil => simp only [Tab.set, Tab.get?, eq_comm]
  | cons e t ih =>
    obtain ⟨i, b⟩ := e
    unfold Tab.set
    split
    · simp only [Tab.get?, eq_comm (a := k)]
    · split
      · subst_vars
        by_cases hj : j = i
        · simp [Tab.get?, hj]
        · simp [Tab.get?, hj, Ne.symm hj]
      · by_cases hi : i = j <;> by_cases hj : j = k <;> simp_all [Tab.get?]

@[simp] theorem Tab.get?_del (t : Tab α) (k j : Nat) : Tab.get? (Tab.del t k) j = if j = k then none else Tab.get? t j := by
  induction t with
  | nil => simp [Tab.del, Tab.get?]
  | cons e t ih =>
    obtain ⟨i, b⟩ := e
    simp only [Tab.del] at ih ⊢
    by_cases h : i = k
    · rw [List.filter_cons_of_neg (by simp [h]), ih]
      by_cases hj : j = k
      · simp [hj]
      · simp [hj, Tab.get?, h, Ne.symm hj]
    · rw [List.filter_cons_of_pos (by simp [h])]
      simp only [Tab.get?, ih]
      by_cases hi : i = j
      · subst hi; simp [h]
      · simp [hi]

@[simp] theorem Tab.at_set (t : Tab α) (k : Nat) (a d : α) (j : Nat) : Tab.at (Tab.set t k a) j d = if j = k then a else Tab.at t j d := by
  unfold Tab.at; rw [Tab.get?_set]; split <;> rfl

@[simp] theorem Tab.at_upd (t : Tab α) (k : Nat) (f : α → α) (d : α) (j : Nat) :
    Tab.at (Tab.upd t k d f) j d = if j = k then f (Tab.at t k d) else Tab.at t j d := by
  unfold Tab.upd; rw [Tab.at_set]

@[simp] theorem Tab.get?_upd (t : Tab α) (k : Nat) (f : α → α) (d : α) (j : Nat) :
    Tab.get? (Tab.upd t k d f) j = if j = k then some (f (Tab.at t k d)) else Tab.get? t j := by
  unfold Tab.upd; rw [Tab.get?_set]

/-- Of the sessions' records, an act on one changes that one. -/
@[simp] theorem run_ses_session (s : State) (n : Nat) (f : Session → Session) (m : Nat) :
    ((Act.ses n f).run s).session m = if m = n then f (s.session n) else s.session m := by
  simp [Act.ses, State.session, Act.run]

/-- Of the fields' records, an act on one changes that one. -/
@[simp] theorem run_field_fieldRec (s : State) (n : Nat) (f : FieldS → FieldS) (m : Nat) :
    ((Act.field n f).run s).fieldRec m = if m = n then f (s.fieldRec n) else s.fieldRec m := by
  simp [Act.field, State.fieldRec, Act.run]

end Sys2Proof.Machine
end

