-- ==== Sys2Proof/Laws/Ops.lean ====
section
/-! SUPPORT. What the shared operations of Machine/Ops.lean leave alone and what they change: counters, MSI-X messages, the event log, the record of an abort. -/

namespace Sys2Proof.Machine

/-! ## Counters -/

section
variable (s : State) (w k n : Nat)

theorem run_count_cases : (Act.count w k n).run s = (Act.put k (s.get k + n)).run s ∧ s.get k + n < 2 ^ w
    ∨ (Act.count w k n).run s = (Act.draw 1).run ((Act.put k (s.free 0 w)).run s) ∧ ¬ s.get k + n < 2 ^ w := by
  by_cases h : s.get k + n < 2 ^ w
  · exact .inl ⟨run_count s h, h⟩
  · exact .inr ⟨by simp [Act.count, h], h⟩

@[simp] theorem run_count_shadow : ((Act.count w k n).run s).shadow = s.shadow := by
  rcases run_count_cases s w k n with ⟨h, -⟩ | ⟨h, -⟩ <;> rw [h] <;> rfl
@[simp] theorem run_count_bytes : ((Act.count w k n).run s).bytes = s.bytes := by
  rcases run_count_cases s w k n with ⟨h, -⟩ | ⟨h, -⟩ <;> rw [h] <;> rfl
@[simp] theorem run_count_time : ((Act.count w k n).run s).time = s.time := by
  rcases run_count_cases s w k n with ⟨h, -⟩ | ⟨h, -⟩ <;> rw [h] <;> rfl
@[simp] theorem run_count_ns : ((Act.count w k n).run s).ns = s.ns := by simp [State.ns]
@[simp] theorem run_count_frac : ((Act.count w k n).run s).frac = s.frac := by simp [State.frac]
@[simp] theorem run_count_log : ((Act.count w k n).run s).log = s.log := by
  rcases run_count_cases s w k n with ⟨h, -⟩ | ⟨h, -⟩ <;> rw [h] <;> rfl
@[simp] theorem run_count_out : ((Act.count w k n).run s).out = s.out := by
  rcases run_count_cases s w k n with ⟨h, -⟩ | ⟨h, -⟩ <;> rw [h] <;> rfl
@[simp] theorem run_count_u : ((Act.count w k n).run s).u = s.u := by
  rcases run_count_cases s w k n with ⟨h, -⟩ | ⟨h, -⟩ <;> rw [h] <;> rfl
@[simp] theorem run_count_pending : ((Act.count w k n).run s).pending = s.pending := by
  rcases run_count_cases s w k n with ⟨h, -⟩ | ⟨h, -⟩ <;> rw [h] <;> rfl

/-- A counter below its limit reads one sum, and every other slot as before. -/
theorem run_count_get {j : Nat} (h : j ≠ k) : ((Act.count w k n).run s).get j = s.get j := by
  rcases run_count_cases s w k n with ⟨e, -⟩ | ⟨e, -⟩ <;> rw [e] <;> simp [h]

/-- A counter that stays below its limit, of at most 64 bits, reads the sum. -/
theorem run_count_get_self (hw : w ≤ 64) (h : s.get k + n < 2 ^ w) : ((Act.count w k n).run s).get k = s.get k + n := by
  rw [run_count s h, run_put_get, if_pos rfl]
  exact Nat.mod_eq_of_lt (Nat.lt_of_lt_of_le h (Nat.pow_le_pow_right (by decide) hw))

end

/-! ## Messages and events -/

/-- The parts of the state that a logged event and a message leave alone: objects, shadows, memory, time, free values, the queue. -/
def State.still (s : State) : Slots × Slots × List Host.Cell × Nat × Nat × List Instr := (s.objs, s.shadow, s.bytes, s.time, s.freeCtr, s.pending)

theorem run_msixSend_still (v : Nat) (s : State) : ((msixSend v).run s).still = s.still := by
  simp only [msixSend, run_read, run_all_cons, run_all_nil, run_when]
  split <;> split <;> rfl

theorem run_msixRaise_still (v : Nat) (s : State) : ((msixRaise v).run s).still = s.still := by
  simp only [msixRaise, run_read]
  split
  · rfl
  · exact run_msixSend_still v s

theorem run_msixSend_log (v : Nat) (s : State) : ((msixSend v).run s).log = s.log := by
  simp only [msixSend, run_read, run_all_cons, run_all_nil, run_when]
  split <;> split <;> rfl

theorem run_msixRaise_log (v : Nat) (s : State) : ((msixRaise v).run s).log = s.log := by
  simp only [msixRaise, run_read]
  split
  · rfl
  · exact run_msixSend_log v s

/-- Of the units' records, a message touches only the dictionary engine's, where its holdoffs are. -/
theorem run_msixRaise_units (v : Nat) (s : State) : ∃ d, ((msixRaise v).run s).u = { s.u with dict := d } := by
  simp only [msixRaise, run_read]
  split
  · exact ⟨_, rfl⟩
  · simp only [msixSend, run_read, run_all_cons, run_all_nil, run_when]
    split <;> split <;> exact ⟨_, rfl⟩

theorem run_when_still {c : Bool} {a : Act} {s : State} (h : (a.run s).still = s.still) : ((Act.when c a).run s).still = s.still := by
  cases c <;> [rfl; exact h]

theorem run_sendNotify_still (ses kind : Nat) (rs : List (List Byte)) (s : State) : ((sendNotify ses kind rs).run s).still = s.still := rfl

theorem run_logEnter_still (code inst d0 d1 : Nat) (s : State) : ((logEnter code inst d0 d1).run s).still = s.still := by
  simp only [logEnter, run_all_cons, run_all_nil]
  exact (run_when_still rfl).trans rfl

theorem run_logSends_still (code : Nat) (s : State) : ((logSends code).run s).still = s.still := by
  unfold logSends
  simp only [run_read]
  split
  · rfl
  · simp only [run_all_cons, run_all_nil]
    rw [run_when_still (run_msixRaise_still _ _),
      run_when_still (run_each_keeps State.still _ _ (fun x _ t => run_when_still (run_sendNotify_still _ _ _ _)) _), run_when_still rfl, run_when_still rfl]

/-- What a logged event leaves alone. -/
theorem run_logEv_still (code inst d0 d1 : Nat) (s : State) : ((logEv code inst d0 d1).run s).still = s.still := by
  simp only [logEv, run_all_cons, run_all_nil]
  rw [run_logSends_still, run_logEnter_still]

/-- What a logged event that `ERROR_REGISTER` notes leaves alone. -/
theorem run_logNoted_still {note : Act} (hn : ∀ s, (note.run s).still = s.still) (code inst d0 d1 : Nat) (s : State) :
    ((logNoted note code inst d0 d1).run s).still = s.still := by
  simp only [logNoted, run_all_cons, run_all_nil]
  rw [run_logSends_still, hn, run_logEnter_still]

@[simp] theorem run_logEv_objs (c i d0 d1 : Nat) (s : State) : ((logEv c i d0 d1).run s).objs = s.objs := congrArg (·.1) (run_logEv_still c i d0 d1 s)
@[simp] theorem run_logEv_shadow (c i d0 d1 : Nat) (s : State) : ((logEv c i d0 d1).run s).shadow = s.shadow := congrArg (·.2.1) (run_logEv_still c i d0 d1 s)
@[simp] theorem run_logEv_bytes (c i d0 d1 : Nat) (s : State) : ((logEv c i d0 d1).run s).bytes = s.bytes := congrArg (·.2.2.1) (run_logEv_still c i d0 d1 s)
@[simp] theorem run_logEv_time (c i d0 d1 : Nat) (s : State) : ((logEv c i d0 d1).run s).time = s.time := congrArg (·.2.2.2.1) (run_logEv_still c i d0 d1 s)
@[simp] theorem run_logEv_get (c i d0 d1 : Nat) (s : State) (k : Nat) : ((logEv c i d0 d1).run s).get k = s.get k := by simp [State.get]
@[simp] theorem run_logEv_ns (c i d0 d1 : Nat) (s : State) : ((logEv c i d0 d1).run s).ns = s.ns := by simp [State.ns]

end Sys2Proof.Machine
end

