-- ==== Sys2Proof/Laws/Settle.lean ====
section
/-! SUPPORT. What a write with a row of its own comes to, and what `settle` does where nothing is left to tell. -/

namespace Sys2Proof.Machine

/-! ## The words of Safety.lean as acts -/

theorem putObj_run (s : State) (k v : Nat) : s.putObj k v = (Act.put k v).run s := rfl
@[simp] theorem puts_nil (s : State) : s.puts [] = s := rfl
@[simp] theorem puts_cons (s : State) (e : Nat × Nat) (es : List (Nat × Nat)) : s.puts (e :: es) = ((Act.put e.1 e.2).run s).puts es := rfl
@[simp] theorem begun_admits (s : State) (ses k v : Nat) (l : Lvl) : s.begun.admits ses k v l ↔ s.admits ses k v l := Iff.rfl
@[simp] theorem begun_quiet (s : State) : s.begun.quiet ↔ s.quiet := Iff.rfl

/-- What is read of a state in which one slot took a value. -/
@[simp] theorem putObj_get (s : State) (k v j : Nat) : (s.putObj k v).get j = if j = k then v % 2 ^ 64 else s.get j := run_put_get s k v j

/-- Slots that none of the pairs names keep their values. -/
theorem puts_get_of_not_mem (es : List (Nat × Nat)) : ∀ (s : State) (j : Nat), (∀ e ∈ es, e.1 ≠ j) → (s.puts es).get j = s.get j := by
  induction es with
  | nil => intro s j _; rfl
  | cons e es ih =>
    intro s j h
    rw [puts_cons, ih _ _ (fun x hx => h x (List.mem_cons_of_mem _ hx)), run_put_get, if_neg]
    exact fun hj => h e (List.mem_cons_self ..) hj.symm

theorem puts_u (es : List (Nat × Nat)) : ∀ s : State, (s.puts es).u = s.u := by
  induction es with
  | nil => intro s; rfl
  | cons e es ih => intro s; rw [puts_cons, ih]; rfl

/-! ## Guarded writes -/

/-- A write that reaches its object and that the object takes. -/
theorem guarded_ok {s : State} {ses k v : Nat} {l : Lvl} {r : Bool} {body : State → WriteRes} (h : s.admits ses k v l) (hr : r = true)
    (hb : (body s).1 = 0) :
    (guarded ses k v l r body).run s = { (body s).2.run s with out := ((body s).2.run s).out ++ replies ses 0 } := by
  obtain ⟨ho, hd, hs, ha⟩ := h
  subst hr
  have hc : ¬ (ses = 0 ∧ (s.session 0).slots.isSome = true) := fun h => by simp [hs h.1] at h
  unfold guarded
  rw [run_read, if_neg (by simp [ho, hd]), if_neg hc]
  simp only [ha, ne_eq, not_true_eq_false, ↓reduceIte]
  by_cases h0 : ses = 0
  · subst h0; simp [answer, hb, replies, Act.all]
  · simp [answer, hb, replies, Act.all, Act.when, h0, Act.run]

/-- A write that reaches its object and that is turned away with a code: the session's abort record and the reply, nothing else. -/
theorem guarded_no {s : State} {ses k v : Nat} {l : Lvl} {r : Bool} {body : State → WriteRes} {c : Nat} (h : s.admits ses k v l)
    (hb : (if r = true then body s else .no Ab.RANGE) = .no c) (hc : c ≠ 0) :
    (guarded ses k v l r body).run s = { (recordAbort ses c k).run s with out := s.out ++ replies ses c } := by
  obtain ⟨ho, hd, hs, ha⟩ := h
  have hc' : ¬ (ses = 0 ∧ (s.session 0).slots.isSome = true) := fun h => by simp [hs h.1] at h
  have hb' : (if ¬ r = true then WriteRes.no Ab.RANGE else body s) = .no c := by rw [← hb]; cases r <;> rfl
  unfold guarded
  rw [run_read, if_neg (by simp [ho, hd]), if_neg hc']
  simp only [ha, ne_eq, not_true_eq_false, ↓reduceIte]
  rw [hb']
  by_cases h0 : ses = 0
  · subst h0; simp [answer, WriteRes.no, hc, replies, Act.all, Act.run, recordAbort, Act.wrap, Act.modify]
  · simp [answer, WriteRes.no, hc, replies, Act.all, Act.when, h0, Act.run, recordAbort, Act.wrap, Act.modify]

/-! ## Settling -/

theorem settleRounds_quiet {s : State} (h : s.quiet) : ∀ n, (settleRounds n).run s = s := by
  intro n
  obtain ⟨h1, h2, h3, h4, h5, -⟩ := h
  cases n with
  | zero => rfl
  | succ n => simp [settleRounds, h1, h2, h3, h4, h5]

theorem fallow_none {s : State} (h : s.quiet) : (List.range 66).filter (fun f => s.get (Obj.FALLOW_STATUS f) == 1) = [] := by
  simpa [List.filter_eq_nil_iff] using h.2.2.2.2.2.2.1

/-- Where nothing is left to tell, nothing happens. -/
theorem settle_quiet {s : State} (h : s.quiet) : settle.run s = s := by
  have hr := settleRounds_quiet h
  have hf := fallow_none h
  obtain ⟨-, -, -, -, -, hs, hw, hp, hx⟩ := h
  have h1 : s.u.streams.filter (fun e => !e.2.engines.isEmpty) = [] := by
    simp only [List.filter_eq_nil_iff]; intro e he; simp [hs e he]
  have h2 : (List.range 66).filter (fun f => s.get (Obj.FALLOW_STATUS f) == 1 && !(s.fieldRec f).held.isEmpty) = [] := by
    simp only [List.filter_eq_nil_iff, List.mem_range]; intro f hf'; simp [hw f hf']
  have h3 : s.u.tt.furrows.filter (fun e => e.2.oldScratch.isSome) = [] := by
    simp only [List.filter_eq_nil_iff]; intro e he; simp [hx e he]
  have hA : streamsFollow.run s = s := by simp [streamsFollow, streamsLeave, h1, h2]
  have hB : fallowSettle.run s = s := by simp [fallowSettle, hf]
  have hC : groupsFollow.run s = s := by simp [groupsFollow, hp]
  have hD : freeScratch.run s = s := by simp [freeScratch, h3]
  simp only [settle, run_all_cons, run_all_nil, hr, hA, hB, hC, hD]

/-- A command that ends with `settle`: what its act does, told. -/
theorem need_told (s : State) {c : Bool} (h : c = true) (a : Act) : need c s (.all [a, settle]) = .next (a.run s.begun).told := by
  rw [need_next s h, run_all_cons, run_all_cons, run_all_nil, State.told]

/-- The same where the act is read off the state. -/
theorem need_read_told (s : State) {c : Bool} (h : c = true) (f : State → Act) :
    need c s (.read fun s => .all [f s, settle]) = .next ((f s.begun).run s.begun).told := by
  rw [need_next s h, run_read, run_all_cons, run_all_cons, run_all_nil, State.told]

theorem told_quiet {s : State} (h : s.quiet) : s.told = s := settle_quiet h

end Sys2Proof.Machine
end

