-- ==== Sys2Proof/Tests/Slice0.lean ====
section
/-! SUPPORT. Tests: terms that are not well-formed are refused; single commands whose outcome the spec gives; for every statement with hypotheses, a state and operands that meet them. -/

set_option maxRecDepth 100000
set_option Elab.async false

namespace Sys2Proof.Tests
open Sys2Proof.Machine

/-- The homes of a list that a check finds local are slots. -/
theorem all_slots : (l : List Home) → (l.all fun h => match h with
    | .slot _ => true
    | .lease _ _ => false) = true → ∀ h ∈ l, ∃ k, h = Home.slot k
  | _, _, .slot k, _ => ⟨k, rfl⟩
  | _, p, .lease _ _, m => nomatch List.all_eq_true.mp p _ m

/-- A tile that a check finds local, alone and with plain bytes is a plain tile. -/
theorem plain_tile (s : State) (t : Nat) (p : (match Tab.get? s.u.mem.tiles t with
    | none => true
    | some x => (match x.home with
      | .slot _ => true
      | .lease _ _ => false) && x.replica.isNone && x.migrating.isNone && !bit (tagByte x.tag 2) 0) = true) : s.plainTile t := by
  intro x h
  simp only [h, Bool.and_eq_true, Option.isNone_iff_eq_none, Bool.not_eq_true'] at p
  obtain ⟨⟨⟨a, b⟩, c⟩, d⟩ := p
  refine ⟨?_, b, c, d⟩
  cases hx : x.home <;> simp_all

/-- The time of a state does not make a pose clear. -/
theorem pose_clear_time (s : State) (n : Nat) (e : Epoch) (m : List Byte) (ps : Pose) : ({ s with time := n } : State).poseClear e m ps = s.poseClear e m ps := rfl

/-- The same of a tile that may be absent. -/
theorem all_plain (s : State) (o : Option Nat) (p : (o.all fun t => match Tab.get? s.u.mem.tiles t with
    | none => true
    | some x => (match x.home with
      | .slot _ => true
      | .lease _ _ => false) && x.replica.isNone && x.migrating.isNone && !bit (tagByte x.tag 2) 0) = true) : ∀ d, o = some d → s.plainTile d := by
  rintro d rfl
  exact plain_tile s d p

/-- A state with these values in these slots and these records of its units. -/
def st (kvs : List (Nat × Nat)) (f : Units → Units) : State := (State.reset.puts kvs).withUnits f

/-- The slots of an OPERATIONAL device with session 2 open over MDP at a level. -/
def op (lvl : Nat) : List (Nat × Nat) := [(Obj.DEVICE_STATE, 3), (Obj.TRANSPORT 2, 3), (Obj.LEVEL 2, lvl)]

/-- An OPERATIONAL device with session 2 open at a level. -/
def opSt (lvl : Nat) (kvs : List (Nat × Nat)) : State := st (op lvl ++ kvs) id

/-- The row of the object at an index and subindex. -/
def rowOf (idx sub : Nat) : Row := match placeOf idx sub with
  | .obj r _ => r
  | _ => ⟨0, 0, 0, 0, .u8, .ro, .host, .any, 0, [], false⟩

/-- A MDP session for requests, of the level given, and the head of its only operation. -/
def mdp (lvl : Nat) : State := opSt lvl [(Obj.IDLE_TIMEOUT_MS 2, 5000), (Obj.DOM_STATE 71, 2)]
def head1 : MdpHead := { ses := 2, seq := 7, ops := [(1, 8)], op := 0 }

/-- The head of a REQUEST with one operation. -/
def headOf (op size : Nat) : MdpHead := { head1 with ops := [(op, size)] }

/-- A HELLO with one certificate of role 6, and the state that is left by a check of its form. -/
def hello1 : List Byte := le 2 0x444D ++ [1, 0, 0xFF, 0, 0, 0] ++ le 8 0
def helloBody1 : List Byte := List.replicate 32 3 ++ [4] ++ List.replicate 96 5 ++ [1, 0, 0] ++ ([1, 6, 0xFF, 0] ++ List.replicate 268 0)

/-- A command in the queue of an OPERATIONAL device, an open inline buffer, and a session that waits for its FINISH. -/
def queued : State := { opSt 1 [] with pending := [.slotClaim 2 5] }
def inlining : State := (mdp 1).withUnits fun u => { u with dict := { u.dict with ses := [(2, { inline := some ⟨0x2010, 1, 10, 0, [1]⟩ })] } }
def waiting2 : State := st [(Obj.DEVICE_STATE, 3), (Obj.DOM_STATE 71, 2)] fun u => { u with dict := { u.dict with ses := [(2, { waiting := true, role := 6, certKey := 77 })] } }

/-- A unit with one entry of one stage on one field, loaded as program 9; a context 3 that admits session 2; a FILLING slot 5 of the session. -/
def decl1 : Decl := { fields := 1 }
def entry1 : Entry := { stages := [decl1] }
def unit1 : UnitDecl := { entries := [entry1] }
def posting (kvs : List (Nat × Nat)) : State := st (op 1 ++ [(Obj.CTX_STATE 3, 1), (Obj.ADMIT_SESSIONS 3, 4), (Obj.POST_ALLOWANCE 3, 8), (Obj.CTX_CLASS 3, 2),
  (Obj.STATE 5, 1), (Obj.OWNER_SESSION 5, 2), (Obj.CONTEXT 5, 3), (Obj.PROGRAM 5, 9)] ++ kvs) fun u => { u with tt := { u.tt with progs := [(9, unit1)] } }

/-- A job 4 of a run 6, with this record; field 0 powered. -/
def job1 : Job := { run := 6, stage := 0, ctx := 3, decl := { fields := 1 }, cls := 2 }
def run1 : Run := { owner := .slot 5, ctx := 3, prog := 9, entry := 0, stages := [{ fields := 1 }], cls := 2, posted := 0 }
def working (j : Job) (kvs : List (Nat × Nat)) (f : TtS → TtS) : State := st (op 1 ++ [(Obj.CTX_STATE 3, 1), (Obj.CTX_CLASS 3, 2), (Obj.DOM_STATE 0, 2)] ++ kvs) fun u => { u with
  tt := f { u.tt with runs := [(6, run1)], jobs := [(4, j)], nextRun := 7, nextJob := 5 } }

/-- A barrier of two engines, and one at which the first has arrived; and what an arrival makes of one. -/
def bar1 : Barrier := { job := 4, n := 2 }
def bar2 : Barrier := { bar1 with arrived := 1 }
def met (s : State) (r : Barrier) (owed : Nat) : Barrier :=
  { r with arrived := min r.n (r.arrived + 1), owed := r.owed + owed, since := if r.arrived = 0 then s.time else r.since }

/-- A pass of one term on engine 1 of field 0. -/
def pass1 : Pass := { field := 0, engine := 1, a := { fmt := 0, els := [[3]] }, b := { fmt := 0, els := [[5]] }, k := 1, drain := .format 0 false false 64 }

/-- A memory of 1,000 payload slots with tile 7 of context 3 in slot 5, of the record given. -/
def tile1 : Tile := { ctx := 3, home := .slot 5, tag := List.replicate 32 0 }
def memory (lvl : Nat) (x : Tile) (kvs : List (Nat × Nat)) (f : MemS → MemS) : State := st (op lvl ++ [(Obj.CTX_STATE 3, 1), (Obj.PAYLOAD_SLOTS, 1000), (Obj.PAYLOAD_BASE, 0x5E000000),
  (Obj.TAG_BASE, 0x22000000), (Obj.MAP_ENTRIES, 1000), (Obj.HEADLAND_BASE, 63 * 122880 * 16384), (Obj.TRANSPORT 0, 1), (Obj.TILE_ALLOWANCE 3, 50)] ++ kvs)
  fun u => { u with mem := f { u.mem with tiles := [(7, x)] }, boot := { u.boot with firstPolicy := [] } }

/-- A read of 64 bytes of tile 7 to host address 4096 by job 4, and a write of the whole tile. -/
def move1 : Move := { field := 0, job := some 4, tile := 7 * 65536, write := false, host := some 4096, bytes := 64, err := .none, addr := 0, row := 0, tag := [], data := [] }
def store1 : Move := { move1 with write := true, host := none, bytes := 4096, tag := List.replicate 32 0, data := List.replicate 4096 1 }

/-- Job 4 runs with this memory, and the request in slot 5 names a host buffer that is input and output; tile 7's stored CHECK is that of a payload of zeros. -/
def moving (x : Tile) (kvs : List (Nat × Nat)) : State := { (memory 1 x ([(Obj.ARG_COUNT 5, 1), (Obj.ARG_META 5 0, 2 ^ 59), (Obj.ARG_ADDR 5 0, 4096), (Obj.ARG_LEN_CHECK 5 0, 8192)] ++ kvs) id).withUnits
    fun u => { u with tt := { u.tt with jobs := [(4, { job1 with phase := .running })], runs := [(6, run1)], nextRun := 7, nextJob := 5 } } with
  bytes := [(0x220000BC, 0x89), (0x220000BD, 0x41), (0x220000BE, 0xF9), (0x220000BF, 0x98)] }

/-- Context 3 with a directory tile 1, a table tile 2 and page tiles 7 and 8 in FP8 (FORMAT 3), the sequences given, and session 2 that asks for an edit by these values. -/
def pageTag : List Byte := 3 :: List.replicate 31 0
def seq1 : Seq := { table := 2, tiles := 1, capacity := 4, length := 0 }
def page1 : SeqEntry := ⟨7 * 65536, 8 * 65536, 3, 3, 0⟩
def editing (q : SeqS) (kvs : List (Nat × Nat)) : State := (memory 1 { tile1 with tag := pageTag } ([(Obj.ADMIT_SESSIONS 3, 4), (Obj.SEQ_ROOT 3, 65536), (Obj.EDIT_CONTEXT 2, 3), (Obj.EDIT_SEQUENCE 2, 0),
  (Obj.EDIT_K_TILE 2, 7 * 65536), (Obj.EDIT_V_TILE 2, 8 * 65536), (Obj.EDIT_FORMATS 2, 0x33)] ++ kvs) fun m => { m with tiles := [(1, { ctx := 3, home := .slot 1 }), (2, { ctx := 3, home := .slot 2 })] ++ m.tiles
    ++ [(8, { ctx := 3, home := .slot 8, tag := pageTag })] }).withUnits fun u => { u with seq := q }
def asked (page head length force geometry : Nat) : EditReq := ⟨3, 0, page, head, length, force != 0, 7 * 65536, 8 * 65536, 0x33, geometry, [0, 0, 0, 0], some 2, none, none⟩

/-- Stream 5 of context 3, with the values and the record given. -/
def flowing (x : StreamS) (kvs : List (Nat × Nat)) : State := (memory 1 tile1 ([(Obj.ADMIT_SESSIONS 3, 4), (Obj.S_CONTEXT 5, 3), (Obj.STATE_ELEMENTS 5, 16), (Obj.STATE_FORMAT 5, 0), (Obj.STATE_MODE 5, 0)] ++ kvs) id).withUnits
  fun u => { u with streams := [(5, x)] }

/-- A job 4 of context 3 that runs an operation of a fixed-function unit, with both units powered. -/
def unitJob (o : UnitOp) : Job := { job1 with phase := .running, decl := { op := some o } }
def serving (x : Job) (kvs : List (Nat × Nat)) (p : PlanS) : State := (memory 1 tile1 ([(Obj.DOM_STATE 75, 2), (Obj.DOM_STATE 76, 2), (Obj.SEED_STOCK_EN, 0), (Obj.MAP_CONTEXT, 3)] ++ kvs) id).withUnits fun u => { u with
  tt := { u.tt with jobs := [(4, x)], runs := [(6, run1)], nextRun := 7, nextJob := 5 }, plan := p }

/-- A decode of one anchor, a crop, and what they read. -/
def decode1 : SieveOp := { anchors := 1, maxOut := 4, topk := 4, iouMax := 0x3F000000 }
def crop1 : SieveOp := { crop := true }
def anchor1 : SieveRow := { anchor := [0x3F800000, 0x3F800000, 0x40000000, 0x40000000], deltas := [0, 0, 0, 0], scores := [0x3F000000] }
def decoded1 : SieveData := { rows := [anchor1], tableLen := 1, scoreLen := 1, outs := [(7 * 65536, List.replicate 32 0)] }
def cropped1 : SieveData := { boxes := [[0, 0, 0, 0]], map := [0], outs := [(7 * 65536, List.replicate 32 0)] }

/-- A planning run and its record: with no sphere, and with one sphere at the map's origin. -/
def plan1 : PlanRun := { model := 0, start := [0], goals := [([0], [0])] }
def planning : PlanRunS := { epoch := 1, model := List.replicate 64 0 }
def ball : List Byte := [0, 0, 1, 0] ++ List.replicate 44 0
def planning2 : PlanRunS := { planning with model := ball }

/-- A state in which a planning run waits for its work, and the same a moment later. -/
def running1 : State := serving (unitJob (.run plan1)) [] { runs := [(4, planning)] }
def running2 : State := { running1 with time := 7 }

/-- A state of level 2 whose time base, fusion, control and links hold these records. -/
def timed (kvs : List (Nat × Nat)) (x : TimeS) : State := st (op 2 ++ kvs) fun u => { u with time := x }
def fusing (kvs : List (Nat × Nat)) (x : FilterS) : State := (memory 2 tile1 ([(Obj.SEED_STOCK_EN, 0), (Obj.SRC_KIND 9, 1), (Obj.SRC_FILTER 9, 3), (Obj.FILTER_STATE 3, 1), (Obj.FILTER_MODEL 3, 1), (Obj.SRC_MEAS_KIND 9, 4), (Obj.SRC_E2E_MODE 9, 0),
  (Obj.PROPAGATE_SOURCE 3, 9), (Obj.SRC_MAX_DELTA 9, 1), (Obj.STATE_DIM 3, 1), (Obj.E2E_FAIL_LIMIT, 3), (Obj.OUT_FILTER 7, 3)] ++ kvs) id).withUnits fun u => { u with fus := { u.fus with filters := [(3, x)] } }
def meas1 : Meas := { vals := [0x3F800000] }
def input1 : FusInput := { src := 9, tov := 10, frac := 0, m := meas1 }
def est1 : Est := { x := [0x3F800000], p := [0x3F800000], tov := 10 }
/-- The header of a sample: its counter and its ToV. -/
def sampleHead (c tov : Nat) (payload : List Byte) : List Byte :=
  let a := le 2 0 ++ le 2 c ++ le 4 0
  let b := le 4 0 ++ le 8 tov ++ le 8 0
  a ++ le 4 (crc 4 (a ++ b ++ payload)) ++ b
/-- A linear measurement of the one state, and filter 3 with what the two other sources of its group have contributed by then. -/
def seen1 (src nu : Nat) : FusEvent := { src := src, group := 0, tov := 10, frac := 0, nu := [nu], est := est1 }
def gating (kvs : List (Nat × Nat)) (z : Nat) (h : List FusEvent) : State := { fusing ([(Obj.OUT_FILTER 7, 8), (Obj.PROPAGATE_SOURCE 3, 8), (Obj.SRC_MEAS_KIND 9, 7), (Obj.GATE_WINDOW_NS 3, 5)]
    ++ ([9, 10, 11].flatMap fun i => [(Obj.SRC_GATE_EN i, 1), (Obj.SRC_GATE_CHI2 i, 0x3F800000), (Obj.SRC_SIGMA i 0, 0x3F800000)]) ++ kvs)
    { queue := [{ src := 9, tov := 10, frac := 0, m := { vals := [z], h := [0x3F800000] } }], hist := h, base := est1 } with time := 20 * 4294967296 }
def input2 : FusInput := { src := 9, tov := 10, frac := 0, m := { vals := [0x3F800000], h := [0x3F800000] } }
def input3 : FusInput := { src := 9, tov := 10, frac := 0, m := { vals := [0x42C80000], h := [0x3F800000] } }
/-- What the gate compares of an input that filter `n` releases. -/
def tried (s : State) (n : Nat) (i : FusInput) : FusEvent :=
  let v := s.eventOf i.src i.tov i.frac i.m
  { v with nu := (s.ran n (s.filter n).hist (s.filter n).base { v with fused := true }).1.nu }
def sources1 : Job := { job1 with phase := .running, decl := { sources := [9] } }

/-- Channel 260 with a compensator's set and a map of one 16-bit input from line 0, which delivered sample 5. -/
def map1 : List Byte := [1, 0, 1, 0] ++ List.replicate 12 0 ++ le 4 0 ++ [1, 0, 0, 0] ++ le 4 0x3F800000 ++ le 4 0 ++ le 4 0xC7000000 ++ le 4 0x47000000
def map2 : List Byte := [1, 0, 1, 0] ++ List.replicate 12 0 ++ le 4 0 ++ [1, 0, 0, 0] ++ le 4 0x3F800000 ++ le 4 0 ++ le 4 0x3F800000 ++ le 4 0x47000000
def set1 : List Byte := [2, 2, 1, 1, 1] ++ List.replicate 59 0
def controlling (kvs : List (Nat × Nat)) (x : ChanS) (l : LineS) (io : List Byte := map1) : State := (working { job1 with phase := .running } ([(Obj.LEVEL 2, 2), (Obj.REF_CONTEXT 260, 3), (Obj.MISS_AFTER_NS 260, 500), (Obj.LINE_CYCLE_NS 0, 1000),
  (Obj.MAX_MISSED 260, 5)] ++ kvs) id).withUnits fun u => { u with
  ctrl := { ch := [(260, x)] }, links := { u.links with lines := [(0, l)] }, dict := { u.dict with blobs := [(Obj.COEFFS 260, set1), (Obj.IO_MAP 260, io)] } }

/-- A state of a level whose links and boot hold these records. -/
def linked (lvl : Nat) (kvs : List (Nat × Nat)) (x : LinkS) : State := (memory lvl tile1 ([(Obj.SEED_STOCK_EN, 0), (Obj.DOM_STATE 71, 2)] ++ kvs) id).withUnits fun u => { u with links := x }
def coll1 : CollDecl := { group := 2, op := 2, bytes := 4096, tiles := [7 * 65536] }
def exch1 : Exchange := { op := 2, group := 2, bytes := 4096, tag := [0, 1] ++ List.replicate 26 0 ++ [0x7F, 0x6B, 0x18, 0x42], data := List.replicate 4096 1 }
def collJob : Job := { job1 with phase := .running, decl := { coll := some coll1 } }
def colliding (kvs : List (Nat × Nat)) (x : Job) : State := (linked 1 ([(Obj.COLL_QP_NEXT 2, 5), (Obj.COLL_QP_PREV 2, 6)] ++ kvs) {}).withUnits fun u => { u with dict := { u.dict with blobs := [(Obj.COLL_MEMBERS 2, [1, 0, 2, 0, 3, 0])] }, tt := { u.tt with jobs := [(4, x)], runs := [(6, run1)], nextRun := 7, nextJob := 5 } }
def frame1 : CsiFrame := { tov := 10, frac := 0, arrived := 10, missed := false, number := 6, lines := [List.replicate 64 1], count := 1, started := 0 }

/-- A state whose boot record is this, and one whose TAP is on. -/
def bootSt (kvs : List (Nat × Nat)) (x : BootS) : State := st (op 2 ++ kvs) fun u => { u with boot := x }
def img1 : Img := { version := 5, rollback := 2, target := List.replicate 16 0 }
def img2 : Img := { img1 with version := 6 }
def img3 : Img := { img1 with sound := false }
def img4 : Img := { img1 with vals := [(Obj.GLEANER_PASS_S, 40)] }
/-- An image of a kind with no payload and no chain: of version 5 and security version 2. -/
def header1 (kind : Nat) : List Byte := le 4 0x4D42494D ++ [BitVec.ofNat 8 kind, 1, 0, 0] ++ le 4 5 ++ le 4 2 ++ le 8 0 ++ List.replicate 16 0 ++ sha384 [] ++ List.replicate 168 0
def token1 : Token := { kind := 1, level := 1, lifetime := 60, device := List.replicate 16 0, challenge := List.replicate 32 9, certs := [[1, 6, 0xFF, 0] ++ List.replicate 268 0] }
def token3 : Token := { token1 with kind := 2, certs := [[1, 3, 0xFF, 0] ++ List.replicate 268 0] }
def challenged (kvs : List (Nat × Nat)) : State := st (op 0 ++ kvs) fun u => { u with dict := { u.dict with ses := [(2, { challenge := some (List.replicate 32 9) })] } }
def trusted (kvs : List (Nat × Nat)) : State := st (op 1 ++ kvs) fun u => { u with dict := { u.dict with ses := [(2, { token := true })] } }
/-- An image of kind 1 with one certificate of a root signer. -/
def header2 : List Byte := le 4 0x4D42494D ++ [1, 1, 0, 0] ++ le 4 5 ++ le 4 2 ++ le 4 0 ++ le 4 272 ++ List.replicate 16 0 ++ sha384 [] ++ List.replicate 168 0 ++ [1, 1, 0xFF, 0] ++ List.replicate 268 0
/-- The state in which the operation of `head1` is answered, and one whose group 0x2F40 has just been committed. -/
def answering (s : State) : State := { s with u := { s.u with dict := { s.u.dict with ses := Tab.upd s.u.dict.ses 2 {} fun x => { x with
  rxHigh := 7, lastReq := s.time, cur := some { seq := 7, tooLong := false, aborted := false, results := [] } } } }, out := [] }
def closing1 (s : State) : State := { s.putObj (Obj.COMMIT_STATUS 12096) 2 with u := { s.u with dict := { s.u.dict with
  pendingGroups := s.u.dict.pendingGroups.filter (· != 12096) ++ [12096] } } }

/-- The command goes on, and what it leaves has this property. -/
def after (o : Host.Outcome State Fault Refusal) (p : State → Bool) : Bool := match o with
  | .next t => p t
  | _ => false



/-- States and operands that meet the hypotheses of `Obligations.StepRunsFront`, clause by clause. -/
theorem wit_StepRunsFront :
    (queued.pending = [Instr.slotClaim 2 5])
    ∧ (State.reset.pending = []) := by
  refine ⟨by decide +kernel, ?_⟩
  decide +kernel

/-- States and operands that meet the hypotheses of `Obligations.EveryCommandCompletes`, clause by clause. -/
theorem wit_EveryCommandCompletes :
    (Instr.eventFlashCopy.wf = true)
    ∧ ((Instr.slotClaim 2 5000).wf = false) := by
  refine ⟨by decide +kernel, ?_⟩
  decide +kernel

/-- States and operands that meet the hypotheses of `Obligations.StepKeepsCanonical`, clause by clause. -/
theorem wit_StepKeepsCanonical :
    (queued.canonical = true ∧ after (step queued) (fun _ => true) = true) := by
  decide +kernel

/-- States and operands that meet the hypotheses of `Obligations.ResetState`, clause by clause. -/
theorem wit_ResetState :
    (Obj.isGroupIndex 12096 = true) := by
  decide +kernel
def sUnadmittedWritesChangeNothing0 : State := opSt 0 [(Obj.TRANSPORT 2, 0)]
def sUnadmittedWritesChangeNothing1 : State := opSt 0 [(Obj.DEVICE_STATE, 0)]
def sUnadmittedWritesChangeNothing2 : State := opSt 0 []

/-- States and operands that meet the hypotheses of `Obligations.UnadmittedWritesChangeNothing`, clause by clause. -/
theorem wit_UnadmittedWritesChangeNothing :
    ((Instr.eventAck 2 0).wf = true
        ∧ ownWrite (Instr.eventAck 2 0) sUnadmittedWritesChangeNothing0 = some { ses := 2, k := Obj.EVENT_ACK, v := 0, l := Lvl.saf, told := false : OwnWrite }
        ∧ (sUnadmittedWritesChangeNothing0.isOpen { ses := 2, k := Obj.EVENT_ACK, v := 0, l := Lvl.saf, told := false : OwnWrite }.ses = false ∨ sUnadmittedWritesChangeNothing0.dev = Dev.STANDBY))
    ∧ ((Instr.eventAck 2 0).wf = true
        ∧ ownWrite (Instr.eventAck 2 0) sUnadmittedWritesChangeNothing1 = some { ses := 2, k := Obj.EVENT_ACK, v := 0, l := Lvl.saf, told := false : OwnWrite }
        ∧ (sUnadmittedWritesChangeNothing1.isOpen { ses := 2, k := Obj.EVENT_ACK, v := 0, l := Lvl.saf, told := false : OwnWrite }.ses = false ∨ sUnadmittedWritesChangeNothing1.dev = Dev.STANDBY))
    ∧ ((Instr.eventAck 2 0).wf = true
        ∧ ownWrite (Instr.eventAck 2 0) sUnadmittedWritesChangeNothing2 = some { ses := 2, k := Obj.EVENT_ACK, v := 0, l := Lvl.saf, told := false : OwnWrite }
        ∧ Ab.ACCESS_LEVEL = accessCode sUnadmittedWritesChangeNothing2 { ses := 2, k := Obj.EVENT_ACK, v := 0, l := Lvl.saf, told := false : OwnWrite }.ses { ses := 2, k := Obj.EVENT_ACK, v := 0, l := Lvl.saf, told := false : OwnWrite }.k { ses := 2, k := Obj.EVENT_ACK, v := 0, l := Lvl.saf, told := false : OwnWrite }.v { ses := 2, k := Obj.EVENT_ACK, v := 0, l := Lvl.saf, told := false : OwnWrite }.l
        ∧ sUnadmittedWritesChangeNothing2.isOpen { ses := 2, k := Obj.EVENT_ACK, v := 0, l := Lvl.saf, told := false : OwnWrite }.ses = true
        ∧ sUnadmittedWritesChangeNothing2.dev ≠ Dev.STANDBY
        ∧ ({ ses := 2, k := Obj.EVENT_ACK, v := 0, l := Lvl.saf, told := false : OwnWrite }.ses = 0 → (sUnadmittedWritesChangeNothing2.session 0).slots = none)
        ∧ Ab.ACCESS_LEVEL ≠ 0) := by
  iterate 2 refine ⟨by decide +kernel, ?_⟩
  decide +kernel
def sPlainWritesReachObjects0 : State := opSt 1 []
def sPlainWritesReachObjects1 : State := opSt 1 [(Obj.TRANSPORT 0, 1), (Obj.LEVEL 0, 3)]
def sPlainWritesReachObjects2 : State := opSt 1 [(Obj.TRANSPORT 0, 1)]

/-- States and operands that meet the hypotheses of `Obligations.PlainWritesReachObjects`, clause by clause. -/
theorem wit_PlainWritesReachObjects :
    (placeOf 8576 3 = Found.obj (rowOf 8576 3) 3 ∧ (rowOf 8576 3).acc = Acc.rw ∧ (rowOf 8576 3).span = 1 ∧ (rowOf 8576 3).typ ≠ Typ.domain
        ∧ (∀ (n : Nat), (rowOf 8576 3).typ ≠ Typ.oct n ∧ (rowOf 8576 3).typ ≠ Typ.vis n) ∧ 1 < 256 ^ (rowOf 8576 3).typ.bytes ∧ (rowOf 8576 3).holds 1 = true
        ∧ sPlainWritesReachObjects0.admits 2 (sPlainWritesReachObjects0.keyOf 2 8576 3 3) 1 (rowOf 8576 3).lvl ∧ Dev.PREOP ≤ sPlainWritesReachObjects0.dev
        ∧ ¬(8576 = 8192 ∧ 3 = 2)
        ∧ (∀ (w : WVal), (if 8576 < 9984 then ownLow 2 8576 3 { n := 1, words := [1] : Taken } w sPlainWritesReachObjects0 else ownHigh 2 8576 3 (sPlainWritesReachObjects0.keyOf 2 8576 3 3) { n := 1, words := [1] : Taken } sPlainWritesReachObjects0) = none))
    ∧ (placeOf 8576 3 = Found.obj (rowOf 8576 3) 3 ∧ (rowOf 8576 3).acc = Acc.rw ∧ (rowOf 8576 3).span = 1 ∧ (rowOf 8576 3).typ ≠ Typ.domain
        ∧ (∀ (n : Nat), (rowOf 8576 3).typ ≠ Typ.oct n ∧ (rowOf 8576 3).typ ≠ Typ.vis n) ∧ 1 < 256 ^ (rowOf 8576 3).typ.bytes ∧ (rowOf 8576 3).holds 1 = true
        ∧ sPlainWritesReachObjects1.admits 0 (sPlainWritesReachObjects1.keyOf 0 8576 3 3) 1 (rowOf 8576 3).lvl ∧ Dev.PREOP ≤ sPlainWritesReachObjects1.dev
        ∧ ¬(8576 = 8192 ∧ 3 = 2)
        ∧ (∀ (w : WVal), (if 8576 < 9984 then ownLow 0 8576 3 { n := 1, words := [1] : Taken } w sPlainWritesReachObjects1 else ownHigh 0 8576 3 (sPlainWritesReachObjects1.keyOf 0 8576 3 3) { n := 1, words := [1] : Taken } sPlainWritesReachObjects1) = none)
        ∧ (rowOf 8576 3).typ.bytes ≤ 8)
    ∧ (placeOf 8321 1 = Found.obj (rowOf 8321 1) 1 ∧ 1 < (rowOf 8321 1).span ∧ sPlainWritesReachObjects2.isOpen 0 = true ∧ sPlainWritesReachObjects2.dev ≠ Dev.STANDBY
        ∧ (sPlainWritesReachObjects2.session 0).slots = none) := by
  iterate 2 refine ⟨by and_intros <;> first | decide +kernel | exact fun _ => ⟨nofun, nofun⟩ | exact fun _ => rfl, ?_⟩
  decide +kernel
def sRequestsAreAnswered0 : State := mdp 1
def mdpheadRequestsAreAnswered0 : MdpHead := { head1 with ops := [(3, 8)] }
def mdpheadRequestsAreAnswered1 : MdpHead := { head1 with ops := [(4, 2)] }
def mdpheadRequestsAreAnswered2 : MdpHead := { head1 with ops := [(2, 1)] }

/-- States and operands that meet the hypotheses of `Obligations.RequestsAreAnswered`, clause by clause. -/
theorem wit_RequestsAreAnswered :
    (2 ≤ head1.ses ∧ head1.ses < 16 ∧ head1.op = 0 ∧ sRequestsAreAnswered0.mdpServed = true ∧ sRequestsAreAnswered0.get (Obj.TRANSPORT head1.ses) = 3
        ∧ sRequestsAreAnswered0.get (Obj.IDLE_TIMEOUT_MS head1.ses) ≠ 0 ∧ (sRequestsAreAnswered0.session head1.ses).rxHigh < head1.seq ∧ head1.ops = [(1, 8)]
        ∧ readObject 2 12293 9 8 (answering (mdp 1)) = (0, le 8 0, .skip))
    ∧ (2 ≤ mdpheadRequestsAreAnswered0.ses ∧ mdpheadRequestsAreAnswered0.ses < 16 ∧ mdpheadRequestsAreAnswered0.op = 0 ∧ sRequestsAreAnswered0.mdpServed = true
        ∧ sRequestsAreAnswered0.get (Obj.TRANSPORT mdpheadRequestsAreAnswered0.ses) = 3
        ∧ sRequestsAreAnswered0.get (Obj.IDLE_TIMEOUT_MS mdpheadRequestsAreAnswered0.ses) ≠ 0
        ∧ (sRequestsAreAnswered0.session mdpheadRequestsAreAnswered0.ses).rxHigh < mdpheadRequestsAreAnswered0.seq ∧ mdpheadRequestsAreAnswered0.ops = [(3, 8)])
    ∧ (2 ≤ mdpheadRequestsAreAnswered1.ses ∧ mdpheadRequestsAreAnswered1.ses < 16 ∧ mdpheadRequestsAreAnswered1.op = 0 ∧ inlining.mdpServed = true
        ∧ inlining.get (Obj.TRANSPORT mdpheadRequestsAreAnswered1.ses) = 3 ∧ inlining.get (Obj.IDLE_TIMEOUT_MS mdpheadRequestsAreAnswered1.ses) ≠ 0
        ∧ (inlining.session mdpheadRequestsAreAnswered1.ses).rxHigh < mdpheadRequestsAreAnswered1.seq ∧ mdpheadRequestsAreAnswered1.ops = [(4, [2, 3].length)]
        ∧ 1 ≤ [2, 3].length ∧ [2, 3].length ≤ 255
        ∧ (inlining.session mdpheadRequestsAreAnswered1.ses).inline = some { idx := 8208, sub := 1, total := 10, crc := 0, data := [1] : Inline }
        ∧ { idx := 8208, sub := 1, total := 10, crc := 0, data := [1] : Inline }.idx = 8208 ∧ { idx := 8208, sub := 1, total := 10, crc := 0, data := [1] : Inline }.sub = 1
        ∧ { idx := 8208, sub := 1, total := 10, crc := 0, data := [1] : Inline }.data.length + [2, 3].length < { idx := 8208, sub := 1, total := 10, crc := 0, data := [1] : Inline }.total)
    ∧ (2 ≤ mdpheadRequestsAreAnswered2.ses ∧ mdpheadRequestsAreAnswered2.ses < 16 ∧ mdpheadRequestsAreAnswered2.op = 0 ∧ sRequestsAreAnswered0.mdpServed = true
        ∧ sRequestsAreAnswered0.get (Obj.TRANSPORT mdpheadRequestsAreAnswered2.ses) = 3
        ∧ sRequestsAreAnswered0.get (Obj.IDLE_TIMEOUT_MS mdpheadRequestsAreAnswered2.ses) ≠ 0
        ∧ (sRequestsAreAnswered0.session mdpheadRequestsAreAnswered2.ses).rxHigh < mdpheadRequestsAreAnswered2.seq ∧ mdpheadRequestsAreAnswered2.ops = [(2, 1)]
        ∧ (WVal.num 1 1).isInline = false ∧ (WVal.num 1 1).isSdo = false ∧ coversObject 8576 3 1 = true
        ∧ writeObject 2 8576 3 Ab.LENGTH (.num 1 1) (answering (mdp 1)) = (0, Act.all [.draw 0, putWords Obj.EVENT_MSIX_EN [1]])
        ∧ (∀ t : State, ((Act.all [.draw 0, putWords Obj.EVENT_MSIX_EN [1]]).run t).session 2 = t.session 2 ∧ ((Act.all [.draw 0, putWords Obj.EVENT_MSIX_EN [1]]).run t).out = t.out ∧ ((Act.all [.draw 0, putWords Obj.EVENT_MSIX_EN [1]]).run t).get (Obj.IDLE_TIMEOUT_MS 2) = t.get (Obj.IDLE_TIMEOUT_MS 2))) := by
  refine ⟨by and_intros <;> first | decide +kernel | exact rfl, ?_⟩
  iterate 2 refine ⟨by decide +kernel, ?_⟩
  and_intros <;> first | decide +kernel | exact rfl | exact fun t => ⟨rfl, rfl, run_put_get t _ _ _⟩
def sSessionsOpenAndClose0 : State := opSt 1 [(Obj.TRANSPORT 2, 0), (Obj.DOM_STATE 71, 2)]
def sSessionsOpenAndClose1 : State := opSt 1 [(Obj.STATE 5, 1), (Obj.OWNER_SESSION 5, 2)]

/-- States and operands that meet the hypotheses of `Obligations.SessionsOpenAndClose`, clause by clause. -/
theorem wit_SessionsOpenAndClose :
    (sSessionsOpenAndClose0.mdpServed = true ∧ helloForm hello1 helloBody1 = true ∧ helloChain helloBody1 = [List.drop 132 helloBody1]
        ∧ sSessionsOpenAndClose0.chainShape [List.drop 132 helloBody1] = true ∧ 5 ≤ numAt (List.drop 132 helloBody1) 1 1 ∧ numAt (List.drop 132 helloBody1) 1 1 ≤ 8
        ∧ sSessionsOpenAndClose0.freeSession = some 2)
    ∧ ((waiting2.session 2).waiting = true ∧ waiting2.mdpServed = true ∧ 5 ≤ (waiting2.session 2).role ∧ (waiting2.session 2).role ≤ 8)
    ∧ ((waiting2.session 2).waiting = true)
    ∧ (sSessionsOpenAndClose1.get (Obj.TRANSPORT 2) = 3) := by
  iterate 3 refine ⟨by decide +kernel, ?_⟩
  decide +kernel
def sGroupsCommitDiscardApply0 : State := opSt 1 [(Obj.COMMIT_STATUS 0x2F40, 1), (Obj.SHADOW_OWNER 0x2F40, 2), (Obj.SPI_DIVIDER 0, 2)]
def sGroupsCommitDiscardApply1 : State := st (op 1 ++ [(Obj.COMMIT_STATUS 0x2F40, 1), (Obj.SHADOW_OWNER 0x2F40, 2), (Obj.SPI_DIVIDER 0, 8)]) fun u => { u with links := { u.links with spi := [(0, { busy := some (0, (1, 0), true) })] } }
def sGroupsCommitDiscardApply2 : State := opSt 1 [(Obj.COMMIT_STATUS 0x2120, 1), (Obj.SHADOW_OWNER 0x2120, 2)]
def sGroupsCommitDiscardApply3 : State := opSt 1 [(Obj.COMMIT_STATUS 0x2120, 4), (Obj.SHADOW_OWNER 0x2120, 2)]
def sGroupsCommitDiscardApply4 : State := { opSt 1 [(Obj.COMMIT_STATUS 0x2120, 2), (Obj.SHADOW_OWNER 0x2120, 2)] with shadow := [(0x210101, 5#64)] }
def sGroupsCommitDiscardApply5 : State := opSt 1 []
def sGroupsCommitDiscardApply6 : State := { opSt 3 [(Obj.COMMIT_STATUS 0x2D40, 2), (Obj.SHADOW_OWNER 0x2D40, 2), (Obj.DOM_STATE 78, 3)] with shadow := [(0x2D4001, 5#64)] }

/-- States and operands that meet the hypotheses of `Obligations.GroupsCommitDiscardApply`, clause by clause. -/
theorem wit_GroupsCommitDiscardApply :
    (Wf.group 12096 = true ∧ sGroupsCommitDiscardApply0.groupShut 2 12096 = 0 ∧ sGroupsCommitDiscardApply0.admits 2 (commitKey 12096) 1 (groupLvl 12096)
        ∧ (sGroupsCommitDiscardApply0.get (Obj.COMMIT_STATUS 12096) = 1 ∨ sGroupsCommitDiscardApply0.get (Obj.COMMIT_STATUS 12096) = 4)
        ∧ checkGroup sGroupsCommitDiscardApply0 2 12096 = some (3906, 2))
    ∧ (Wf.group 12096 = true ∧ sGroupsCommitDiscardApply1.groupShut 2 12096 = 0 ∧ sGroupsCommitDiscardApply1.admits 2 (commitKey 12096) 1 (groupLvl 12096)
        ∧ (sGroupsCommitDiscardApply1.get (Obj.COMMIT_STATUS 12096) = 1 ∨ sGroupsCommitDiscardApply1.get (Obj.COMMIT_STATUS 12096) = 4)
        ∧ checkGroup sGroupsCommitDiscardApply1 2 12096 = none ∧ (closing1 sGroupsCommitDiscardApply1).atBoundary 12096 = false)
    ∧ (Wf.group 8480 = true ∧ sGroupsCommitDiscardApply2.groupShut 2 8480 = 0 ∧ sGroupsCommitDiscardApply2.admits 2 (commitKey 8480) 2 (groupLvl 8480)
        ∧ (sGroupsCommitDiscardApply2.get (Obj.COMMIT_STATUS 8480) = 1 ∨ sGroupsCommitDiscardApply2.get (Obj.COMMIT_STATUS 8480) = 4))
    ∧ (Wf.group 8480 = true ∧ sGroupsCommitDiscardApply3.groupShut 2 8480 = 0 ∧ sGroupsCommitDiscardApply3.admits 2 (commitKey 8480) 2 (groupLvl 8480)
        ∧ (sGroupsCommitDiscardApply3.get (Obj.COMMIT_STATUS 8480) = 1 ∨ sGroupsCommitDiscardApply3.get (Obj.COMMIT_STATUS 8480) = 4))
    ∧ (Wf.groupApply 8480 = true ∧ sGroupsCommitDiscardApply4.groupPending 8480 = true ∧ sGroupsCommitDiscardApply4.atBoundary 8480 = true)
    ∧ (Wf.groupApply 8480 = true ∧ (sGroupsCommitDiscardApply5.groupPending 8480 && sGroupsCommitDiscardApply5.atBoundary 8480) = false)
    ∧ (Wf.groupApply 8480 = true)
    ∧ (Wf.groupApply 11584 = true ∧ 11584 ≤ 11584 ∧ 11584 ≤ 11599)
    ∧ (Wf.groupApply 8480 = true ∧ List.Pairwise (fun a b => a.fst < b.fst) sGroupsCommitDiscardApply4.shadow
        ∧ (∀ (e : Nat × Word), e ∈ sGroupsCommitDiscardApply4.shadow → ctlOf (e.fst / 256) = 8480 → e.fst % 256 < 248))
    ∧ (Wf.groupApply 8480 = true ∧ List.Pairwise (fun a b => a.fst < b.fst) sGroupsCommitDiscardApply4.shadow
        ∧ (∀ (e : Nat × Word), e ∈ sGroupsCommitDiscardApply4.shadow → ctlOf (e.fst / 256) = 8480 → e.fst % 256 < 248) ∧ 2162945 / 256 = idxOf 8480 ∧ 2162945 % 256 < 248)
    ∧ (Wf.groupApply 8480 = true ∧ List.Pairwise (fun a b => a.fst < b.fst) sGroupsCommitDiscardApply4.shadow
        ∧ (∀ (e : Nat × Word), e ∈ sGroupsCommitDiscardApply4.shadow → ctlOf (e.fst / 256) = 8480 → e.fst % 256 < 248) ∧ 7 / 256 ≠ idxOf 8480 ∧ 7 / 256 ≠ 8480) := by
  iterate 10 refine ⟨by decide +kernel, ?_⟩
  decide +kernel
def sSettingsAndEventLog0 : State := opSt 3 []
def sSettingsAndEventLog1 : State := opSt 1 [(Obj.SATURATED + 3, 7)]
def sSettingsAndEventLog2 : State := { opSt 3 [] with log := { total := 1, toFlash := [(⟨0, 0, 3, 0x0601, 0, 0, 0, 1⟩, 1)] } }
def sSettingsAndEventLog3 : State := st [(Obj.TRANSPORT 0, 1), (Obj.VECTOR_HOLDOFF_NS 3, 100)] fun u => { u with dict := { u.dict with holdoff := [3], raised := [3] } }

/-- States and operands that meet the hypotheses of `Obligations.SettingsAndEventLog`, clause by clause. -/
theorem wit_SettingsAndEventLog :
    (sGroupsCommitDiscardApply5.admits 2 (Obj.STORE_PARAMETERS (2 - 1)) 1702257011 Lvl.sup ∧ sGroupsCommitDiscardApply5.u.boot.writing = none)
    ∧ (sGroupsCommitDiscardApply5.admits 2 (Obj.RESTORE_DEFAULTS (2 - 1)) 1684107116 Lvl.sup)
    ∧ (sSettingsAndEventLog0.admits 2 Obj.EVENT_ACK 7 Lvl.saf)
    ∧ (sSettingsAndEventLog1.admits 2 Obj.ARITH_CLEAR 1 Lvl.sup)
    ∧ (sSettingsAndEventLog2.log.toFlash = [({ ns := 0, frac := 0, sev := 3, code := 1537, inst := 0, data0 := 0, data1 := 0, seq := 1 : Event }, 1)]
        ∧ sSettingsAndEventLog2.u.boot.writing = none ∧ sSettingsAndEventLog2.u.mem.overdue.contains (4, 0) = false)
    ∧ (sSettingsAndEventLog3.u.dict.holdoff.contains 3 = true ∧ sSettingsAndEventLog3.u.dict.raised.contains 3 = true ∧ sSettingsAndEventLog3.hostReachable = true
        ∧ sSettingsAndEventLog3.get (Obj.VECTOR_HOLDOFF_NS 3) ≠ 0)
    ∧ ((sGroupsCommitDiscardApply5.logged 1537 3 5 6).log.ring.head? = some { ns := 0, frac := 0, sev := 3, code := 1537, inst := 3, data0 := 5, data1 := 6, seq := 1 : Event }) := by
  iterate 6 refine ⟨by decide +kernel, ?_⟩
  decide +kernel
def sSlotTransitions0 : State := opSt 0 []
def sSlotTransitions1 : State := opSt 0 [(Obj.STATE 5, 4), (Obj.OWNER_SESSION 5, 2)]
def sSlotTransitions2 : State := opSt 0 [(Obj.STATE 5, 1), (Obj.OWNER_SESSION 5, 2)]
def sSlotTransitions3 : State := opSt 0 [(Obj.STATE 5, 5), (Obj.OWNER_SESSION 5, 2)]
def sSlotTransitions4 : State := opSt 1 [(Obj.STATE 5, 5), (Obj.OWNER_SESSION 5, 0xFF)]
def sSlotTransitions5 : State := opSt 0 [(Obj.STATE 5, 2), (Obj.OWNER_SESSION 5, 2)]
def sSlotTransitions6 : State := st (op 0 ++ [(Obj.STATE 5, 5), (Obj.OWNER_SESSION 5, 2)]) fun u => { u with tt := { u.tt with runs := [(6, run1)] } }
def sSlotTransitions7 : State := working job1 [(Obj.STATE 5, 2), (Obj.OWNER_SESSION 5, 2)] id
def sSlotTransitions8 : State := working { job1 with phase := .running, place := [0] } [(Obj.STATE 5, 3), (Obj.OWNER_SESSION 5, 9)] id

/-- States and operands that meet the hypotheses of `Obligations.SlotTransitions`, clause by clause. -/
theorem wit_SlotTransitions :
    ((Instr.slotClaim 2 5 = Instr.slotClaim 2 5 ∨ Instr.slotClaim 2 5 = Instr.slotReuse 2 5) ∧ sSlotTransitions0.admits 2 (Obj.STATE 5) 1 Lvl.host
        ∧ sSlotTransitions0.get (Obj.STATE 5) = 0)
    ∧ ((Instr.slotReuse 2 5 = Instr.slotClaim 2 5 ∨ Instr.slotReuse 2 5 = Instr.slotReuse 2 5) ∧ sSlotTransitions1.admits 2 (Obj.STATE 5) 1 Lvl.host
        ∧ sSlotTransitions1.get (Obj.STATE 5) = 4 ∧ sSlotTransitions1.get (Obj.OWNER_SESSION 5) = 2)
    ∧ ((Instr.slotReuse 2 5 = Instr.slotClaim 2 5 ∨ Instr.slotReuse 2 5 = Instr.slotReuse 2 5) ∧ sSlotTransitions2.admits 2 (Obj.STATE 5) 1 Lvl.host
        ∧ sSlotTransitions2.get (Obj.STATE 5) ≠ 0 ∧ sSlotTransitions2.get (Obj.STATE 5) ≠ 4)
    ∧ ((Instr.slotClaim 2 5 = Instr.slotClaim 2 5 ∨ Instr.slotClaim 2 5 = Instr.slotReuse 2 5) ∧ sSlotTransitions3.admits 2 (Obj.STATE 5) 1 Lvl.host
        ∧ sSlotTransitions3.get (Obj.STATE 5) ≠ 0 ∧ sSlotTransitions3.get (Obj.STATE 5) ≠ 4)
    ∧ ((Instr.slotDiscard 2 5 = Instr.slotDiscard 2 5 ∨ Instr.slotDiscard 2 5 = Instr.slotRelease 2 5) ∧ sSlotTransitions2.admits 2 (Obj.STATE 5) 0 Lvl.host
        ∧ (sSlotTransitions2.get (Obj.STATE 5) = 1 ∧ sSlotTransitions2.get (Obj.OWNER_SESSION 5) = 2 ∨ (sSlotTransitions2.get (Obj.STATE 5) = 4 ∨ sSlotTransitions2.get (Obj.STATE 5) = 5 ∧ sSlotTransitions2.runsFor 5 = []) ∧ (sSlotTransitions2.get (Obj.OWNER_SESSION 5) = 2 ∨ sSlotTransitions2.get (Obj.OWNER_SESSION 5) = 255 ∧ 1 ≤ sSlotTransitions2.level 2)))
    ∧ ((Instr.slotRelease 2 5 = Instr.slotDiscard 2 5 ∨ Instr.slotRelease 2 5 = Instr.slotRelease 2 5) ∧ sSlotTransitions1.admits 2 (Obj.STATE 5) 0 Lvl.host
        ∧ (sSlotTransitions1.get (Obj.STATE 5) = 1 ∧ sSlotTransitions1.get (Obj.OWNER_SESSION 5) = 2 ∨ (sSlotTransitions1.get (Obj.STATE 5) = 4 ∨ sSlotTransitions1.get (Obj.STATE 5) = 5 ∧ sSlotTransitions1.runsFor 5 = []) ∧ (sSlotTransitions1.get (Obj.OWNER_SESSION 5) = 2 ∨ sSlotTransitions1.get (Obj.OWNER_SESSION 5) = 255 ∧ 1 ≤ sSlotTransitions1.level 2)))
    ∧ ((Instr.slotRelease 2 5 = Instr.slotDiscard 2 5 ∨ Instr.slotRelease 2 5 = Instr.slotRelease 2 5) ∧ sSlotTransitions4.admits 2 (Obj.STATE 5) 0 Lvl.host
        ∧ (sSlotTransitions4.get (Obj.STATE 5) = 1 ∧ sSlotTransitions4.get (Obj.OWNER_SESSION 5) = 2 ∨ (sSlotTransitions4.get (Obj.STATE 5) = 4 ∨ sSlotTransitions4.get (Obj.STATE 5) = 5 ∧ sSlotTransitions4.runsFor 5 = []) ∧ (sSlotTransitions4.get (Obj.OWNER_SESSION 5) = 2 ∨ sSlotTransitions4.get (Obj.OWNER_SESSION 5) = 255 ∧ 1 ≤ sSlotTransitions4.level 2)))
    ∧ ((Instr.slotRelease 2 5 = Instr.slotDiscard 2 5 ∨ Instr.slotRelease 2 5 = Instr.slotRelease 2 5) ∧ sSlotTransitions5.admits 2 (Obj.STATE 5) 0 Lvl.host
        ∧ sSlotTransitions5.get (Obj.STATE 5) ≠ 1 ∧ sSlotTransitions5.get (Obj.STATE 5) ≠ 4 ∧ (sSlotTransitions5.get (Obj.STATE 5) = 5 → sSlotTransitions5.runsFor 5 ≠ []))
    ∧ ((Instr.slotRelease 2 5 = Instr.slotDiscard 2 5 ∨ Instr.slotRelease 2 5 = Instr.slotRelease 2 5) ∧ sSlotTransitions6.admits 2 (Obj.STATE 5) 0 Lvl.host
        ∧ sSlotTransitions6.get (Obj.STATE 5) ≠ 1 ∧ sSlotTransitions6.get (Obj.STATE 5) ≠ 4 ∧ (sSlotTransitions6.get (Obj.STATE 5) = 5 → sSlotTransitions6.runsFor 5 ≠ []))
    ∧ (sSlotTransitions7.admits 2 (Obj.STATE 5) 5 Lvl.host ∧ (sSlotTransitions7.get (Obj.STATE 5) = 2 ∨ sSlotTransitions7.get (Obj.STATE 5) = 3)
        ∧ (sSlotTransitions7.get (Obj.OWNER_SESSION 5) = 2 ∨ 1 ≤ sSlotTransitions7.level 2))
    ∧ (sSlotTransitions8.admits 2 (Obj.STATE 5) 5 Lvl.host ∧ (sSlotTransitions8.get (Obj.STATE 5) = 2 ∨ sSlotTransitions8.get (Obj.STATE 5) = 3)
        ∧ (sSlotTransitions8.get (Obj.OWNER_SESSION 5) = 2 ∨ 1 ≤ sSlotTransitions8.level 2))
    ∧ (sSlotTransitions5.admits 2 (Obj.STATE 5) 5 Lvl.host ∧ (sSlotTransitions5.get (Obj.STATE 5) = 2 ∨ sSlotTransitions5.get (Obj.STATE 5) = 3)
        ∧ (sSlotTransitions5.get (Obj.OWNER_SESSION 5) = 2 ∨ 1 ≤ sSlotTransitions5.level 2) ∧ sSlotTransitions5.runsFor 5 = [] ∧ sSlotTransitions5.quiet)
    ∧ (sSlotTransitions1.admits 2 (Obj.STATE 5) 5 Lvl.host ∧ sSlotTransitions1.get (Obj.STATE 5) ≠ 2 ∧ sSlotTransitions1.get (Obj.STATE 5) ≠ 3) := by
  iterate 12 refine ⟨by decide +kernel, ?_⟩
  decide +kernel
def sPostsRun0 : State := posting []
def sPostsRun1 : State := posting [(Obj.FLAGS 5, 8)]
def sPostsRun2 : State := posting [(Obj.PROGRAM 5, 8)]

/-- States and operands that meet the hypotheses of `Obligations.PostsRun`, clause by clause. -/
theorem wit_PostsRun :
    (sPostsRun0.get (Obj.STATE 5) = 1 ∧ sPostsRun0.get (Obj.OWNER_SESSION 5) = 2 ∧ sPostsRun0.admits 2 (Obj.STATE 5) 2 Lvl.host ∧ sPostsRun0.quiet
        ∧ (sPostsRun0.putObj (Obj.SEQUENCE 5) ((sPostsRun0.get (Obj.SEQUENCE 5) + 1) % 2 ^ 32)).postRefused 2 5 = none ∧ sPostsRun0.armed = []
        ∧ sPostsRun0.entryOf (sPostsRun0.get (Obj.PROGRAM 5)) (sPostsRun0.get (Obj.ENTRY 5)) = some entry1 ∧ entry1.stages = [decl1] ∧ decl1.fields ≠ 0 ∧ decl1.op = none
        ∧ decl1.chunk = none ∧ decl1.deps = [] ∧ (∀ (u : UnitDecl), sPostsRun0.unit (sPostsRun0.get (Obj.PROGRAM 5)) = some u → u.sems = [])
        ∧ (∀ (j : Nat × Job), j ∈ sPostsRun0.u.tt.jobs → j.snd.run ≠ sPostsRun0.u.tt.nextRun))
    ∧ (sPostsRun1.get (Obj.STATE 5) = 1 ∧ sPostsRun1.get (Obj.OWNER_SESSION 5) = 2 ∧ sPostsRun1.admits 2 (Obj.STATE 5) 2 Lvl.host ∧ sPostsRun1.quiet
        ∧ (sPostsRun1.putObj (Obj.SEQUENCE 5) ((sPostsRun1.get (Obj.SEQUENCE 5) + 1) % 2 ^ 32)).postRefused 2 5 = none ∧ sPostsRun1.armed = []
        ∧ sPostsRun1.entryOf (sPostsRun1.get (Obj.PROGRAM 5)) (sPostsRun1.get (Obj.ENTRY 5)) = some entry1 ∧ entry1.stages = [decl1] ∧ decl1.fields ≠ 0 ∧ decl1.op = none
        ∧ decl1.chunk = none ∧ decl1.deps = [] ∧ (∀ (u : UnitDecl), sPostsRun1.unit (sPostsRun1.get (Obj.PROGRAM 5)) = some u → u.sems = [])
        ∧ (∀ (j : Nat × Job), j ∈ sPostsRun1.u.tt.jobs → j.snd.run ≠ sPostsRun1.u.tt.nextRun))
    ∧ (sPostsRun2.get (Obj.STATE 5) = 1 ∧ sPostsRun2.get (Obj.OWNER_SESSION 5) = 2 ∧ sPostsRun2.admits 2 (Obj.STATE 5) 2 Lvl.host ∧ sPostsRun2.quiet
        ∧ (sPostsRun2.putObj (Obj.SEQUENCE 5) ((sPostsRun2.get (Obj.SEQUENCE 5) + 1) % 2 ^ 32)).postRefused 2 5 = some (St.CONFIG_INVALID, 32)
        ∧ bit (sPostsRun2.get (Obj.FLAGS 5)) 1 = false ∧ bit (sPostsRun2.get (Obj.FLAGS 5)) 2 = false) := by
  iterate 2 refine ⟨by decide +kernel, ?_⟩
  decide +kernel
def sPassesDrain0 : State := working { job1 with phase := .running, place := [0], grans := [(0, 0)], engs := [(0, 1)] } [] id
def jobPassesDrain0 : Job := { job1 with phase := .running, place := [0], grans := [(0, 0)], engs := [(0, 1)] }
def passPassesDrain0 : Pass := { pass1 with mismatch := true }
def sPassesDrain1 : State := working { job1 with phase := .running, place := [0] } [] id
def jobPassesDrain1 : Job := { job1 with phase := .running, place := [0] }
def passPassesDrain1 : Pass := { pass1 with a := { fmt := 13, els := [[3]], books := [(3 * 562949953421312, 0)] } }
def passPassesDrain2 : Pass := { pass1 with drain := .wide true 0 }

/-- States and operands that meet the hypotheses of `Obligations.PassesDrain`, clause by clause. -/
theorem wit_PassesDrain :
    (Wf.pass passPassesDrain0 = true ∧ sPassesDrain0.u.tt.jobs.get? 4 = some jobPassesDrain0
        ∧ (((sPassesDrain0.jobsOn passPassesDrain0.field).any fun e => decide (e.fst = 4 ∧ (e.snd.phase = Phase.running ∨ e.snd.phase = Phase.draining))) = true)
        ∧ bit (sPassesDrain0.get (Obj.ENGINE_ACTIVE_MASK passPassesDrain0.field)) passPassesDrain0.engine = true ∧ sPassesDrain0.u.pow.overcurrent = false
        ∧ passPassesDrain0.mismatch = true)
    ∧ (Wf.pass pass1 = true ∧ sPassesDrain1.u.tt.jobs.get? 4 = some jobPassesDrain1
        ∧ (((sPassesDrain1.jobsOn pass1.field).any fun e => decide (e.fst = 4 ∧ (e.snd.phase = Phase.running ∨ e.snd.phase = Phase.draining))) = true)
        ∧ bit (sPassesDrain1.get (Obj.ENGINE_ACTIVE_MASK pass1.field)) pass1.engine = true ∧ sPassesDrain1.u.pow.overcurrent = false ∧ pass1.mismatch = false
        ∧ (pass1.allUses jobPassesDrain1).all (sPassesDrain1.mayUse jobPassesDrain1 pass1.field) = false)
    ∧ (Wf.pass passPassesDrain1 = true ∧ sPassesDrain0.u.tt.jobs.get? 4 = some jobPassesDrain0
        ∧ (((sPassesDrain0.jobsOn passPassesDrain1.field).any fun e => decide (e.fst = 4 ∧ (e.snd.phase = Phase.running ∨ e.snd.phase = Phase.draining))) = true)
        ∧ bit (sPassesDrain0.get (Obj.ENGINE_ACTIVE_MASK passPassesDrain1.field)) passPassesDrain1.engine = true ∧ sPassesDrain0.u.pow.overcurrent = false
        ∧ passPassesDrain1.mismatch = false ∧ (passPassesDrain1.allUses jobPassesDrain0).all (sPassesDrain0.mayUse jobPassesDrain0 passPassesDrain1.field) = true
        ∧ List.findSome? sPassesDrain0.bookFault passPassesDrain1.operands = some (St.CONFIG_INVALID, 1027))
    ∧ (Wf.pass pass1 = true ∧ sPassesDrain0.u.tt.jobs.get? 4 = some jobPassesDrain0
        ∧ (((sPassesDrain0.jobsOn pass1.field).any fun e => decide (e.fst = 4 ∧ (e.snd.phase = Phase.running ∨ e.snd.phase = Phase.draining))) = true)
        ∧ bit (sPassesDrain0.get (Obj.ENGINE_ACTIVE_MASK pass1.field)) pass1.engine = true ∧ sPassesDrain0.u.pow.overcurrent = false ∧ pass1.mismatch = false
        ∧ (pass1.allUses jobPassesDrain0).all (sPassesDrain0.mayUse jobPassesDrain0 pass1.field) = true ∧ List.findSome? sPassesDrain0.bookFault pass1.operands = none)
    ∧ (Wf.pass pass1 = true ∧ sPassesDrain0.u.tt.jobs.get? 4 = some jobPassesDrain0
        ∧ (((sPassesDrain0.jobsOn pass1.field).any fun e => decide (e.fst = 4 ∧ (e.snd.phase = Phase.running ∨ e.snd.phase = Phase.draining))) = true)
        ∧ bit (sPassesDrain0.get (Obj.ENGINE_ACTIVE_MASK pass1.field)) pass1.engine = true ∧ sPassesDrain0.u.pow.overcurrent = false ∧ pass1.vecOnly = false
        ∧ pass1.harrow = none ∧ pass1.outputs ≠ 0 ∧ pass1.drain ≠ Drain.resident
        ∧ ((sPassesDrain0.sending []).counted 64 (Obj.ECC_CORRECTED pass1.field) pass1.corrected).get (Obj.ARRAY_STEPS pass1.field) + pass1.steps.fst < 2 ^ 64)
    ∧ (Wf.pass passPassesDrain2 = true ∧ sPassesDrain0.u.tt.jobs.get? 4 = some jobPassesDrain0
        ∧ (((sPassesDrain0.jobsOn passPassesDrain2.field).any fun e => decide (e.fst = 4 ∧ (e.snd.phase = Phase.running ∨ e.snd.phase = Phase.draining))) = true)
        ∧ bit (sPassesDrain0.get (Obj.ENGINE_ACTIVE_MASK passPassesDrain2.field)) passPassesDrain2.engine = true ∧ sPassesDrain0.u.pow.overcurrent = false
        ∧ passPassesDrain2.vecOnly = false ∧ passPassesDrain2.harrow = none ∧ passPassesDrain2.outputs ≠ 0 ∧ passPassesDrain2.drain ≠ Drain.resident
        ∧ ((sPassesDrain0.sending []).counted 64 (Obj.ECC_CORRECTED passPassesDrain2.field) passPassesDrain2.corrected).get (Obj.ARRAY_STEPS passPassesDrain2.field) + passPassesDrain2.steps.fst < 2 ^ 64)
    ∧ (Wf.pass pass1 = true ∧ sPassesDrain0.u.tt.jobs.get? 4 = some jobPassesDrain0
        ∧ (((sPassesDrain0.jobsOn pass1.field).any fun e => decide (e.fst = 4 ∧ (e.snd.phase = Phase.running ∨ e.snd.phase = Phase.draining))) = true)
        ∧ bit (sPassesDrain0.get (Obj.ENGINE_ACTIVE_MASK pass1.field)) pass1.engine = true ∧ sPassesDrain0.u.pow.overcurrent = false ∧ pass1.vecOnly = false
        ∧ pass1.harrow = none ∧ pass1.outputs ≠ 0 ∧ pass1.drain ≠ Drain.resident
        ∧ ((sPassesDrain0.sending []).counted 64 (Obj.ECC_CORRECTED pass1.field) pass1.corrected).get (Obj.ARRAY_STEPS pass1.field) + pass1.steps.fst < 2 ^ 64
        ∧ ({ inStore := false, engine := 1, offset := 64 : Place }, 4) ∈ pass1.drainsTo pass1.outputs
        ∧ 0 < (pass1.drain.image (((sPassesDrain0.sending []).counted 64 (Obj.ECC_CORRECTED pass1.field) pass1.corrected).tileOut pass1) fun i => ((sPassesDrain0.sending []).counted 64 (Obj.ECC_CORRECTED pass1.field) pass1.corrected).free (2 + i) 64).fst.length)
    ∧ (Wf.pass pass1 = true ∧ sPassesDrain0.u.tt.jobs.get? 4 = some jobPassesDrain0
        ∧ (((sPassesDrain0.jobsOn pass1.field).any fun e => decide (e.fst = 4 ∧ (e.snd.phase = Phase.running ∨ e.snd.phase = Phase.draining))) = true)
        ∧ bit (sPassesDrain0.get (Obj.ENGINE_ACTIVE_MASK pass1.field)) pass1.engine = true ∧ sPassesDrain0.u.pow.overcurrent = false ∧ pass1.vecOnly = false
        ∧ pass1.harrow = none ∧ pass1.outputs ≠ 0 ∧ pass1.drain ≠ Drain.resident
        ∧ ((sPassesDrain0.sending []).counted 64 (Obj.ECC_CORRECTED pass1.field) pass1.corrected).get (Obj.ARRAY_STEPS pass1.field) + pass1.steps.fst < 2 ^ 64
        ∧ pass1.a.writes pass1.k = [] ∧ pass1.b.writes pass1.k = []
        ∧ (∀ (d : Place × Nat), d ∈ pass1.drainsTo pass1.outputs → 5 < Place.addr pass1.field d.fst ∨ Place.addr pass1.field d.fst + (pass1.drain.image (((sPassesDrain0.sending []).counted 64 (Obj.ECC_CORRECTED pass1.field) pass1.corrected).tileOut pass1) fun i => ((sPassesDrain0.sending []).counted 64 (Obj.ECC_CORRECTED pass1.field) pass1.corrected).free (2 + i) 64).fst.length ≤ 5))
    ∧ (Wf.pass pass1 = true ∧ sPassesDrain0.u.tt.jobs.get? 4 = some jobPassesDrain0
        ∧ (((sPassesDrain0.jobsOn pass1.field).any fun e => decide (e.fst = 4 ∧ (e.snd.phase = Phase.running ∨ e.snd.phase = Phase.draining))) = true)
        ∧ bit (sPassesDrain0.get (Obj.ENGINE_ACTIVE_MASK pass1.field)) pass1.engine = true ∧ sPassesDrain0.u.pow.overcurrent = false ∧ pass1.vecOnly = false
        ∧ pass1.harrow = none ∧ pass1.outputs ≠ 0 ∧ pass1.drain ≠ Drain.resident
        ∧ ((sPassesDrain0.sending []).counted 64 (Obj.ECC_CORRECTED pass1.field) pass1.corrected).get (Obj.ARRAY_STEPS pass1.field) + pass1.steps.fst < 2 ^ 64
        ∧ 0 ≠ pass1.engine) := by
  iterate 8 refine ⟨by decide +kernel, ?_⟩
  decide +kernel
def sFaultsRetireUnits0 : State := opSt 1 []
def sFaultsRetireUnits1 : State := opSt 1 [(Obj.ENGINE_RETIRED_MASK 3, 32)]
def sFaultsRetireUnits2 : State := opSt 1 [(Obj.FIELD_ROLE 3, 2)]
def sFaultsRetireUnits3 : State := opSt 1 [(Obj.AUTO_FALLOW_EN, 0)]
def sFaultsRetireUnits4 : State := working job1 [(Obj.AUTO_FALLOW_EN, 0)] id

/-- States and operands that meet the hypotheses of `Obligations.FaultsRetireUnits`, clause by clause. -/
theorem wit_FaultsRetireUnits :
    (Wf.engineFault 3 5 768 0 none = true)
    ∧ (Wf.engineFault 3 5 768 0 none = true ∧ (sFaultsRetireUnits1.fieldActive 3 = false ∨ bit (sFaultsRetireUnits1.get (Obj.ENGINE_RETIRED_MASK 3)) 5 = true))
    ∧ (Wf.engineFault 3 5 768 0 none = true ∧ (sFaultsRetireUnits2.fieldActive 3 = false ∨ bit (sFaultsRetireUnits2.get (Obj.ENGINE_RETIRED_MASK 3)) 5 = true))
    ∧ (sFaultsRetireUnits3.fieldActive 3 = true ∧ bit (sFaultsRetireUnits3.get (Obj.ENGINE_RETIRED_MASK 3)) 5 = false
        ∧ bit (sFaultsRetireUnits3.get (Obj.ENGINE_ACTIVE_MASK 3)) 5 = true ∧ sFaultsRetireUnits3.heir 3 5 = some 32 ∧ sFaultsRetireUnits3.get Obj.AUTO_FALLOW_EN = 0
        ∧ sFaultsRetireUnits3.get (Obj.ENGINE_FAULTS 3) + 1 < 2 ^ 32 ∧ sFaultsRetireUnits3.get Obj.SUBSTITUTIONS + 1 < 2 ^ 32
        ∧ sFaultsRetireUnits3.get (Obj.ENGINE_RETIRED_MASK 3) < 2 ^ 34 ∧ sFaultsRetireUnits3.get (Obj.ENGINE_ACTIVE_MASK 3) < 2 ^ 34)
    ∧ (sFaultsRetireUnits0.fieldActive 3 = true ∧ sFaultsRetireUnits0.spareField = none ∧ sFaultsRetireUnits0.get (Obj.FALLOW_STATUS 3) = 0 ∧ sFaultsRetireUnits0.jobsOn 3 = [])
    ∧ (sFaultsRetireUnits3.fieldActive 3 = true ∧ bit (sFaultsRetireUnits3.get (Obj.ENGINE_RETIRED_MASK 3)) 5 = false
        ∧ bit (sFaultsRetireUnits3.get (Obj.ENGINE_ACTIVE_MASK 3)) 5 = true ∧ sFaultsRetireUnits3.heir 3 5 = some 32 ∧ sFaultsRetireUnits3.get Obj.AUTO_FALLOW_EN = 0
        ∧ sFaultsRetireUnits3.get (Obj.ENGINE_FAULTS 3) + 1 < 2 ^ 32 ∧ sFaultsRetireUnits3.get Obj.SUBSTITUTIONS + 1 < 2 ^ 32
        ∧ sFaultsRetireUnits3.get (Obj.ENGINE_RETIRED_MASK 3) < 2 ^ 34 ∧ sFaultsRetireUnits3.get (Obj.ENGINE_ACTIVE_MASK 3) < 2 ^ 34
        ∧ (7 < slateBase 3 32 ∨ slateBase 3 32 + 65536 ≤ 7))
    ∧ (sFaultsRetireUnits4.fieldActive 3 = true ∧ bit (sFaultsRetireUnits4.get (Obj.ENGINE_RETIRED_MASK 3)) 5 = false
        ∧ bit (sFaultsRetireUnits4.get (Obj.ENGINE_ACTIVE_MASK 3)) 5 = true ∧ sFaultsRetireUnits4.heir 3 5 = some 32 ∧ sFaultsRetireUnits4.get Obj.AUTO_FALLOW_EN = 0
        ∧ sFaultsRetireUnits4.get (Obj.ENGINE_FAULTS 3) + 1 < 2 ^ 32 ∧ sFaultsRetireUnits4.get Obj.SUBSTITUTIONS + 1 < 2 ^ 32
        ∧ sFaultsRetireUnits4.get (Obj.ENGINE_RETIRED_MASK 3) < 2 ^ 34 ∧ sFaultsRetireUnits4.get (Obj.ENGINE_ACTIVE_MASK 3) < 2 ^ 34
        ∧ (4, job1) ∈ (sFaultsRetireUnits4.engineLost 3 5 768 0 none).u.tt.jobs) := by
  iterate 6 refine ⟨by decide +kernel, ?_⟩
  decide +kernel
def sBarriersCount0 : State := working { job1 with phase := .running, place := [0], decl := { fields := 1, barriers := [2] }, bars := [1] } [] fun t => { t with bars := [(1, bar1)] }
def jobBarriersCount0 : Job := { job1 with phase := .running, place := [0], decl := { fields := 1, barriers := [2] }, bars := [1] }
def sBarriersCount1 : State := working { job1 with phase := .running, place := [0], decl := { fields := 1, barriers := [2] }, bars := [1] } [] fun t => { t with bars := [(1, bar2)] }
def sBarriersCount2 : State := working { job1 with phase := .running, place := [0], decl := { fields := 1, barriers := [2] }, bars := [1] } [] fun t => { t with bars := [(1, bar1)], wave := [[1], [2]] }

/-- States and operands that meet the hypotheses of `Obligations.BarriersCount`, clause by clause. -/
theorem wit_BarriersCount :
    (sBarriersCount0.u.tt.jobs.get? 4 = some jobBarriersCount0 ∧ (jobBarriersCount0.phase = Phase.running ∨ jobBarriersCount0.phase = Phase.draining)
        ∧ 0 < jobBarriersCount0.decl.barriers.length ∧ jobBarriersCount0.bars[0]? = some 1 ∧ sBarriersCount0.u.tt.bars.get? 1 = some bar1
        ∧ ((met sBarriersCount0 bar1 0).arrived < bar1.n ∨ (met sBarriersCount0 bar1 0).owed ≠ 0))
    ∧ (sBarriersCount1.u.tt.jobs.get? 4 = some jobBarriersCount0 ∧ (jobBarriersCount0.phase = Phase.running ∨ jobBarriersCount0.phase = Phase.draining)
        ∧ 0 < jobBarriersCount0.decl.barriers.length ∧ jobBarriersCount0.bars[0]? = some 1 ∧ sBarriersCount1.u.tt.bars.get? 1 = some bar2
        ∧ ((met sBarriersCount1 bar2 3).arrived < bar2.n ∨ (met sBarriersCount1 bar2 3).owed ≠ 0))
    ∧ (sBarriersCount1.u.tt.jobs.get? 4 = some jobBarriersCount0 ∧ (jobBarriersCount0.phase = Phase.running ∨ jobBarriersCount0.phase = Phase.draining)
        ∧ 0 < jobBarriersCount0.decl.barriers.length ∧ jobBarriersCount0.bars[0]? = some 1 ∧ sBarriersCount1.u.tt.bars.get? 1 = some bar2
        ∧ bar2.n ≤ (met sBarriersCount1 bar2 0).arrived ∧ (met sBarriersCount1 bar2 0).owed = 0)
    ∧ (sBarriersCount2.u.tt.jobs.get? 4 = some jobBarriersCount0 ∧ (jobBarriersCount0.phase = Phase.running ∨ jobBarriersCount0.phase = Phase.draining)
        ∧ 0 < jobBarriersCount0.decl.barriers.length ∧ jobBarriersCount0.bars[0]? = some 1 ∧ sBarriersCount2.u.tt.bars.get? 1 = some bar1) := by
  iterate 3 refine ⟨by decide +kernel, ?_⟩
  decide +kernel
def sFieldsAreMaintained0 : State := st (op 2 ++ [(Obj.FIELD_ROLE 65, 1)]) fun u => { u with fields := [(3, { tested := true }), (65, { tested := true })] }
def sFieldsAreMaintained1 : State := opSt 2 [(Obj.FIELD_ROLE 3, 2), (Obj.FALLOW_STATUS 3, 2)]
def sFieldsAreMaintained2 : State := st (op 2 ++ [(Obj.FIELD_ROLE 65, 1), (Obj.FALLOW_STATUS 3, 1)]) fun u => { u with fields := [(3, { tested := true, takeover := some 65 }), (65, { tested := true })] }
def sFieldsAreMaintained3 : State := opSt 2 [(Obj.FIELD_ROLE 3, 2), (Obj.FALLOW_STATUS 3, 3), (Obj.ROWS_MARKED 3, 4)]
def sFieldsAreMaintained4 : State := working { job1 with phase := .moving, place := [0] } [] id
def jobFieldsAreMaintained0 : Job := { job1 with phase := .moving, place := [0] }
def sFieldsAreMaintained5 : State := opSt 2 []
def sFieldsAreMaintained6 : State := opSt 2 [(Obj.DOM_STATE 3, 2)]
def sFieldsAreMaintained7 : State := st (op 2 ++ [(Obj.DOM_STATE 3, 2), (Obj.ENGINE_RETIRED_MASK 3, 2^34 - 1 - 4), (Obj.ENGINE_ACTIVE_MASK 3, 0)]) fun u => { u with fields := [(3, { calib := [7] })] }

/-- States and operands that meet the hypotheses of `Obligations.FieldsAreMaintained`, clause by clause. -/
theorem wit_FieldsAreMaintained :
    (sFieldsAreMaintained0.admits 2 (Obj.FALLOW_REQUEST 3) 1 Lvl.svc ∧ sFieldsAreMaintained0.putRefused 3 = false ∧ sFieldsAreMaintained0.spareField = some 65)
    ∧ (sFieldsAreMaintained1.admits 2 (Obj.FALLOW_REQUEST 3) 2 Lvl.svc ∧ sFieldsAreMaintained1.get (Obj.FIELD_ROLE 3) = 2 ∧ sFieldsAreMaintained1.get (Obj.FALLOW_STATUS 3) = 2)
    ∧ (List.find? (fun e => decide (e.snd.takeover = some 65)) sFieldsAreMaintained2.u.fields = some (3, { tested := true, takeover := some 65 : FieldS })
        ∧ sFieldsAreMaintained2.get (Obj.FIELD_ROLE 65) = 1 ∧ sFieldsAreMaintained2.jobsOn (3, { tested := true, takeover := some 65 : FieldS }).fst = []
        ∧ sFieldsAreMaintained2.get Obj.SUBSTITUTIONS + 1 < 2 ^ 32)
    ∧ (Wf.fieldSelftestDone 3 4 [5, 16, 21] true = true ∧ sFieldsAreMaintained3.get (Obj.FALLOW_STATUS 3) = 3
        ∧ popcount 34 (sFieldsAreMaintained3.get (Obj.ENGINE_RETIRED_MASK 3) ||| 4) ≤ 2 ∧ sFieldsAreMaintained3.get (Obj.ENGINE_RETIRED_MASK 3) < 2 ^ 34)
    ∧ (sFieldsAreMaintained4.u.tt.jobs.get? 4 = some jobFieldsAreMaintained0 ∧ jobFieldsAreMaintained0.phase = Phase.moving ∧ jobFieldsAreMaintained0.stop = none
        ∧ (∀ (g : Nat), g ∈ jobFieldsAreMaintained0.place → sFieldsAreMaintained4.get (Obj.FALLOW_STATUS g) ≠ 1))
    ∧ ((neighbour 3 1).isSome = true)
    ∧ (neighbour 0 0 = none)
    ∧ (sFieldsAreMaintained6.get (Obj.DOM_STATE 3) = 2 ∧ (false = false ∨ sFieldsAreMaintained6.u.mem.overdue.contains (1, 3) = true))
    ∧ (sFieldsAreMaintained6.get (Obj.DOM_STATE 3) = 2 ∧ true = true ∧ sFieldsAreMaintained6.u.mem.overdue.contains (1, 3) = false)
    ∧ (bit (sFieldsAreMaintained7.get (Obj.ENGINE_RETIRED_MASK 3)) 2 = false ∧ sFieldsAreMaintained7.get (Obj.DOM_STATE 3) = 2
        ∧ (sFieldsAreMaintained7.engineHolder 3 2 = none ∨ sFieldsAreMaintained7.u.mem.overdue.contains (2, 3 * 34 + 2) = true)
        ∧ ((List.range 34).all fun i => bit (sFieldsAreMaintained7.get (Obj.ENGINE_RETIRED_MASK 3)) i || (2 :: List.filter (fun x => x != 2) (sFieldsAreMaintained7.fieldRec 3).calib).contains i) = true)
    ∧ ((false = false ∨ sFieldsAreMaintained5.u.mem.overdue.contains (3, 3) = true))
    ∧ (Wf.backgroundOverdue 2 3 = true) := by
  iterate 11 refine ⟨by decide +kernel, ?_⟩
  decide +kernel
def sTilesMove0 : State := moving tile1 []
def moveTilesMove0 : Move := { move1 with tile := 8 * 65536 }
def jobTilesMove0 : Job := { job1 with phase := .running }
def sTilesMove1 : State := moving tile1 [(Obj.SEED_STOCK_EN, 0)]
def sTilesMove2 : State := (moving tile1 []).withUnits fun u => { u with tt := { u.tt with jobs := [(4, { job1 with phase := .running, grans := [(0, 0)] })] } }
def moveTilesMove1 : Move := { move1 with side := .place ⟨true, 0, 65472⟩, bytes := 64 }
def jobTilesMove1 : Job := { job1 with phase := .running, grans := [(0, 0)] }

/-- States and operands that meet the hypotheses of `Obligations.TilesMove`, clause by clause. -/
theorem wit_TilesMove :
    (Wf.drillMoveDone moveTilesMove0 = true ∧ moveTilesMove0.job = some 4 ∧ sTilesMove0.u.tt.jobs.get? 4 = some jobTilesMove0 ∧ moveTilesMove0.bytes ≠ 0
        ∧ sTilesMove0.moveFault jobTilesMove0 moveTilesMove0 = some (St.ACCESS_DENIED, 1028))
    ∧ (Wf.drillMoveDone move1 = true ∧ move1.job = some 4 ∧ sTilesMove0.u.tt.jobs.get? 4 = some jobTilesMove0 ∧ move1.bytes ≠ 0
        ∧ sTilesMove0.moveFault jobTilesMove0 move1 = none ∧ sTilesMove0.hostNamed jobTilesMove0 move1 move1.toHost = true ∧ move1.barrier = none
        ∧ sTilesMove0.u.mem.tiles.get? (tileNo move1.tile) = some tile1 ∧ tile1.home = Home.slot 5 ∧ move1.side = MoveSide.home ∧ move1.write = false
        ∧ move1.err = MoveErr.none ∧ move1.host = some 4096 ∧ move1.compress = false ∧ move1.joined = [] ∧ tile1.lost = none
        ∧ jobTilesMove0.seen.get? (tileNo move1.tile) = none ∧ bit (tagByte (sTilesMove0.homeTag tile1.home) 2) 1 = false
        ∧ ofLe (List.drop 28 (sTilesMove0.homeTag tile1.home)) = crc32c (sTilesMove0.homeData tile1.home))
    ∧ (Wf.drillMoveDone store1 = true ∧ store1.job = some 4 ∧ sTilesMove1.u.tt.jobs.get? 4 = some jobTilesMove0 ∧ store1.bytes ≠ 0
        ∧ sTilesMove1.moveFault jobTilesMove0 store1 = none ∧ sTilesMove1.hostNamed jobTilesMove0 store1 store1.toHost = true ∧ store1.barrier = none
        ∧ sTilesMove1.u.mem.tiles.get? (tileNo store1.tile) = some tile1 ∧ tile1.home = Home.slot 5 ∧ store1.side = MoveSide.home ∧ store1.write = true ∧ store1.host = none
        ∧ store1.compress = false ∧ store1.data.length = 4096 ∧ tile1.migrating = none ∧ tile1.replica = none ∧ sTilesMove1.get Obj.SEED_STOCK_EN = 0
        ∧ sTilesMove1.disjointAt tile1.home)
    ∧ (Wf.drillMoveDone moveTilesMove1 = true ∧ moveTilesMove1.job = some 4 ∧ sTilesMove2.u.tt.jobs.get? 4 = some jobTilesMove1 ∧ moveTilesMove1.bytes ≠ 0
        ∧ sTilesMove2.moveFault jobTilesMove1 moveTilesMove1 = none ∧ sTilesMove2.hostNamed jobTilesMove1 moveTilesMove1 moveTilesMove1.toHost = true
        ∧ moveTilesMove1.barrier = none ∧ moveTilesMove1.host = some 4096 ∧ moveTilesMove1.write = false
        ∧ moveTilesMove1.side = MoveSide.place { inStore := true, offset := 65472 : Place })
    ∧ (sTilesMove0.u.tt.jobs.get? 4 = some jobTilesMove0)
    ∧ (sTilesMove0.u.tt.jobs.get? 4 = some jobTilesMove0
        ∧ ((sTilesMove0.sending []).tilesFreed (List.filter (sTilesMove0.mayFree jobTilesMove0.ctx) [])).allocFault jobTilesMove0.ctx 51 = some 1024)
    ∧ (sTilesMove0.u.tt.jobs.get? 4 = some jobTilesMove0
        ∧ ((sTilesMove0.sending []).tilesFreed (List.filter (sTilesMove0.mayFree jobTilesMove0.ctx) [7])).allocFault jobTilesMove0.ctx 3 = none
        ∧ (((sTilesMove0.sending []).tilesFreed (List.filter (sTilesMove0.mayFree jobTilesMove0.ctx) [7])).newHomes 3).fst.length = 3)
    ∧ (sTilesMove0.u.tt.jobs.get? 4 = some jobTilesMove0) := by
  iterate 7 refine ⟨by decide +kernel, ?_⟩
  decide +kernel
def sChannelsAreMaintained0 : State := memory 1 tile1 [] id
def sChannelsAreMaintained1 : State := memory 1 tile1 [] fun m => { m with windows := [(5, 0), (6, 0)] }

/-- States and operands that meet the hypotheses of `Obligations.ChannelsAreMaintained`, clause by clause. -/
theorem wit_ChannelsAreMaintained :
    (64 % 64 = 0 ∧ 64 < sChannelsAreMaintained0.capacity ∧ sChannelsAreMaintained0.get Obj.GLEANER_PASS_S ≠ 0
        ∧ sChannelsAreMaintained0.mayWork 0 (sChannelsAreMaintained0.servingChan 64) false)
    ∧ (64 % 64 = 0 ∧ 64 < sChannelsAreMaintained0.capacity ∧ sChannelsAreMaintained0.get Obj.GLEANER_PASS_S ≠ 0
        ∧ ¬sChannelsAreMaintained0.mayWork 0 (sChannelsAreMaintained0.servingChan 64) true)
    ∧ (sChannelsAreMaintained0.u.mem.dueWindows = []
        ∧ (List.filter (fun w => decide (sChannelsAreMaintained0.time < w.snd + 1000 * 4294967296)) sChannelsAreMaintained0.u.mem.windows).length < 2
        ∧ (∀ (w : Nat × Nat), w ∈ List.filter (fun w => decide (sChannelsAreMaintained0.time < w.snd + 1000 * 4294967296)) sChannelsAreMaintained0.u.mem.windows → w.fst ≠ 3))
    ∧ (sChannelsAreMaintained0.u.mem.dueWindows = []
        ∧ (List.filter (fun w => decide (sChannelsAreMaintained0.time < w.snd + 1000 * 4294967296)) sChannelsAreMaintained0.u.mem.windows).length < 2
        ∧ (∀ (w : Nat × Nat), w ∈ List.filter (fun w => decide (sChannelsAreMaintained0.time < w.snd + 1000 * 4294967296)) sChannelsAreMaintained0.u.mem.windows → w.fst ≠ 3))
    ∧ (sChannelsAreMaintained0.u.mem.dueWindows = []
        ∧ (List.filter (fun w => decide (sChannelsAreMaintained0.time < w.snd + 1000 * 4294967296)) sChannelsAreMaintained0.u.mem.windows).length < 2
        ∧ (∀ (w : Nat × Nat), w ∈ List.filter (fun w => decide (sChannelsAreMaintained0.time < w.snd + 1000 * 4294967296)) sChannelsAreMaintained0.u.mem.windows → w.fst ≠ 3))
    ∧ (2 ≤ (List.filter (fun w => decide (sChannelsAreMaintained1.time < w.snd + 1000 * 4294967296)) sChannelsAreMaintained1.u.mem.windows).length
        ∧ (Instr.zqCalibration 3 70 = Instr.zqCalibration 3 70 ∧ MaintOp.zq = MaintOp.zq ∨ Instr.zqCalibration 3 70 = Instr.dqsTracking 3 2 70 ∧ MaintOp.zq = MaintOp.dqs 2 ∨ Instr.zqCalibration 3 70 = Instr.catchupRefresh 3 70 ∧ MaintOp.zq = MaintOp.catchup)) := by
  iterate 5 refine ⟨by decide +kernel, ?_⟩
  decide +kernel
def sTilesMigrate0 : State := memory 1 tile1 [(Obj.SURVEYOR_PERIOD_US, 100), (Obj.MIGRATE_LIMIT_MBPS, 1000), (Obj.POLICY_STATE, 1)] id
def sTilesMigrate1 : State := memory 1 { tile1 with migrating := some (.slot 9) } [] id
def tileTilesMigrate0 : Tile := { tile1 with migrating := some (.slot 9) }
def sTilesMigrate2 : State := memory 1 { tile1 with retry := some (.slot 9), aborts := 3 } [(Obj.SURVEYOR_PERIOD_US, 100), (Obj.MIGRATE_LIMIT_MBPS, 1000)] id
def tileTilesMigrate1 : Tile := { tile1 with retry := some (.slot 9), aborts := 3 }
def sTilesMigrate3 : State := memory 1 { tile1 with shared := true } [(Obj.SEED_STOCK_EN, 1)] id
def tileTilesMigrate2 : Tile := { tile1 with shared := true }
def sTilesMigrate4 : State := memory 1 { tile1 with shared := true, replica := some (.slot 6) } [(Obj.SEED_STOCK_EN, 1)] id
def tileTilesMigrate3 : Tile := { tile1 with shared := true, replica := some (.slot 6) }

/-- States and operands that meet the hypotheses of `Obligations.TilesMigrate`, clause by clause. -/
theorem wit_TilesMigrate :
    (sTilesMigrate0.u.mem.tiles.get? 7 = some tile1 ∧ sTilesMigrate0.get Obj.SURVEYOR_PERIOD_US ≠ 0 ∧ sTilesMigrate0.get Obj.MIGRATE_LIMIT_MBPS ≠ 0
        ∧ sTilesMigrate0.policyRuns = true ∧ tile1.lost = none ∧ tile1.migrating = none
        ∧ (∀ (r : Home), tile1.replica = some r → sTilesMigrate0.apart (Home.slot 9) r = true) ∧ 4096 ≤ sTilesMigrate0.migrateBytes
        ∧ sTilesMigrate0.homeFree (Home.slot 9) = true ∧ sTilesMigrate0.tileHeld 7 = false ∧ (∀ (e : Nat × Tile), e ∈ sTilesMigrate0.u.mem.tiles → e.snd.shared = false))
    ∧ (sTilesMigrate1.u.mem.tiles.get? 7 = some tileTilesMigrate0 ∧ tileTilesMigrate0.migrating = some (Home.slot 9) ∧ sTilesMigrate1.mayWork 5 0 false
        ∧ sTilesMigrate1.disjointAt (Home.slot 9))
    ∧ (sTilesMigrate1.u.mem.tiles.get? 7 = some tileTilesMigrate0 ∧ tileTilesMigrate0.migrating = some (Home.slot 9) ∧ sTilesMigrate1.mayWork 5 0 false)
    ∧ (sTilesMigrate1.u.mem.tiles.get? 7 = some tileTilesMigrate0 ∧ tileTilesMigrate0.migrating = some (Home.slot 9) ∧ ¬sTilesMigrate1.mayWork 5 0 true)
    ∧ (sTilesMigrate2.u.mem.tiles.get? 7 = some tileTilesMigrate1 ∧ tileTilesMigrate1.retry = some (Home.slot 9) ∧ tileTilesMigrate1.migrating = none
        ∧ tileTilesMigrate1.lost = none ∧ (∀ (r : Home), tileTilesMigrate1.replica = some r → sTilesMigrate2.apart (Home.slot 9) r = true) ∧ tileTilesMigrate1.aborts < 4
        ∧ sTilesMigrate2.homeFree (Home.slot 9) = true ∧ sTilesMigrate2.tileHeld 7 = false ∧ (sTilesMigrate2.u.mem.begun + 1) * 4096 ≤ sTilesMigrate2.migrateBytes)
    ∧ (sTilesMigrate3.u.mem.tiles.get? 7 = some tileTilesMigrate2 ∧ tileTilesMigrate2.lost = none ∧ sTilesMigrate3.homeFree (Home.slot 6) = true
        ∧ sTilesMigrate3.disjointAt (Home.slot 6) ∧ sTilesMigrate3.get Obj.SEED_STOCK_EN ≠ 0 ∧ sTilesMigrate3.apart (Home.slot 6) tileTilesMigrate2.home = true)
    ∧ (sTilesMigrate4.u.mem.tiles.get? 7 = some tileTilesMigrate3 ∧ tileTilesMigrate3.lost = none ∧ sTilesMigrate4.homeFree (Home.slot 9) = true
        ∧ sTilesMigrate4.disjointAt (Home.slot 9) ∧ (∀ (r : Home), tileTilesMigrate3.replica = some r → sTilesMigrate4.apart (Home.slot 9) r = true)) := by
  iterate 6 refine ⟨by decide +kernel, ?_⟩
  decide +kernel
def sChannelsRetire0 : State := memory 2 tile1 [(Obj.HEADLAND_BASE, 60 * 122880 * 16384)] id
def sChannelsRetire1 : State := memory 2 tile1 [(Obj.CHANNEL_ROLE 3, 1)] fun m => { m with switched := [(3, (0, 10))], relocs := [⟨3, 7741440, [], [], [(7741440, 495452160, 7741440)]⟩] }
def sChannelsRetire2 : State := memory 2 tile1 [(Obj.CHANNEL_ROLE 3, 1)] fun m => { m with switched := [(3, (1, 10))], relocs := [⟨3, 7741440, [], [], [(7741440, 495452160, 7741440)]⟩] }
def sChannelsRetire3 : State := opSt 1 []

/-- States and operands that meet the hypotheses of `Obligations.ChannelsRetire`, clause by clause. -/
theorem wit_ChannelsRetire :
    (sChannelsRetire0.admits 2 (Obj.RETIRE_REQUEST 3) 1 Lvl.svc ∧ sChannelsRetire0.get (Obj.CHANNEL_ROLE 3) = 0 ∧ sChannelsRetire0.retireFits 3 = true)
    ∧ (sChannelsRetire1.u.mem.switched.get? 3 = some (0, 10) ∧ 10 + 1000 < sChannelsRetire1.pieces 3)
    ∧ (sChannelsRetire2.u.mem.switched.get? 3 = some (1, 10) ∧ sChannelsRetire2.pieces 3 ≤ 10 + 10000000)
    ∧ (sChannelsRetire3.get (Obj.CHANNEL_ROLE 3) < 2 ∧ sChannelsRetire3.u.mem.tiles = []) := by
  iterate 3 refine ⟨by decide +kernel, ?_⟩
  decide +kernel
def sLeasesAndPeers0 : State := memory 1 tile1 [(Obj.LEND_LIMIT_MIB, 64), (Obj.POLICY_STATE, 1)] id
def sLeasesAndPeers1 : State := memory 1 tile1 [(Obj.LEND_LIMIT_MIB, 0), (Obj.POLICY_STATE, 1)] id
def sLeasesAndPeers2 : State := memory 1 tile1 [] fun m => { m with lent := [(1, ⟨4, 0, 0, 8, none⟩)] }
def sLeasesAndPeers3 : State := memory 1 tile1 [] fun m => { m with lent := [(1, ⟨4, 0, 0, 8, some (500, 2)⟩)] }
def sLeasesAndPeers4 : State := opSt 1 [(Obj.LEASE_STATE 3, 1), (Obj.PEER_TIMEOUT_US, 10)]
def sLeasesAndPeers5 : State := opSt 1 [(Obj.LEASE_STATE 3, 1)]
def sLeasesAndPeers6 : State := opSt 1 [(Obj.LEASE_STATE 3, 1), (Obj.PEER_TIMEOUT_US, 0)]
def sLeasesAndPeers7 : State := opSt 1 [(Obj.LEASE_STATE 3, 1), (Obj.PEER_TIMEOUT_US, 1)]
def sLeasesAndPeers8 : State := memory 1 tile1 [(Obj.LEASE_STATE 3, 1)] id
def sLeasesAndPeers9 : State := opSt 1 [(Obj.LEASE_STATE 3, 2)]

/-- States and operands that meet the hypotheses of `Obligations.LeasesAndPeers`, clause by clause. -/
theorem wit_LeasesAndPeers :
    (sLeasesAndPeers0.admits 2 Obj.LEASE_REQUEST_MIB 1 Lvl.sup
        ∧ min (1 * 1048576) (min ((sLeasesAndPeers0.get Obj.LEND_LIMIT_MIB - sLeasesAndPeers0.lentMib) * 1048576) (min sLeasesAndPeers0.slotsFree sLeasesAndPeers0.lendable * 4096)) / 4160 ≠ 0
        ∧ sLeasesAndPeers0.policyRuns = true)
    ∧ (sLeasesAndPeers1.admits 2 Obj.LEASE_REQUEST_MIB 1 Lvl.sup
        ∧ (min (1 * 1048576) (min ((sLeasesAndPeers1.get Obj.LEND_LIMIT_MIB - sLeasesAndPeers1.lentMib) * 1048576) (min sLeasesAndPeers1.slotsFree sLeasesAndPeers1.lendable * 4096)) / 4160 = 0 ∨ sLeasesAndPeers1.policyRuns = false))
    ∧ (sLeasesAndPeers2.u.mem.lent.get? 1 = some { slots := 4, base := 0, peer := 0, first := 8 : Lent } ∧ sLeasesAndPeers2.admits 2 Obj.LEASE_RELEASE 1 Lvl.sup
        ∧ { slots := 4, base := 0, peer := 0, first := 8 : Lent }.peer = (sLeasesAndPeers2.session 2).certKey)
    ∧ (sLeasesAndPeers2.u.mem.lent.get? 1 = some { slots := 4, base := 0, peer := 0, first := 8 : Lent } ∧ 3 < { slots := 4, base := 0, peer := 0, first := 8 : Lent }.slots
        ∧ (List.replicate 4160 7).length = 4160)
    ∧ (sLeasesAndPeers2.u.mem.lent.get? 1 = some { slots := 4, base := 0, peer := 0, first := 8 : Lent } ∧ 3 < { slots := 4, base := 0, peer := 0, first := 8 : Lent }.slots)
    ∧ (sLeasesAndPeers2.u.mem.lent.get? 1 = some { slots := 4, base := 0, peer := 0, first := 8 : Lent } ∧ sLeasesAndPeers2.get Obj.RECALL_NOTICE_MS ≠ 0)
    ∧ (sLeasesAndPeers3.u.mem.lent.get? 1 = some { slots := 4, base := 0, peer := 0, first := 8, recalled := some (500, 2) : Lent }
        ∧ { slots := 4, base := 0, peer := 0, first := 8, recalled := some (500, 2) : Lent }.recalled = some (500, 2))
    ∧ (sLeasesAndPeers3.u.mem.lent.get? 1 = some { slots := 4, base := 0, peer := 0, first := 8, recalled := some (500, 2) : Lent }
        ∧ { slots := 4, base := 0, peer := 0, first := 8, recalled := some (500, 2) : Lent }.recalled = some (500, 2))
    ∧ (sLeasesAndPeers4.get Obj.PEER_TIMEOUT_US ≠ 0 ∧ (false || true) = true)
    ∧ (sLeasesAndPeers5.u.mem.tiles.get? 7 = none)
    ∧ (sLeasesAndPeers6.u.mem.tiles.get? 7 = none ∧ sLeasesAndPeers6.get Obj.PEER_TIMEOUT_US = 0)
    ∧ (sLeasesAndPeers7.u.mem.tiles.get? 7 = none ∧ sLeasesAndPeers7.get Obj.PEER_TIMEOUT_US ≠ 0)
    ∧ (sLeasesAndPeers8.u.mem.tiles.get? 7 = some tile1 ∧ tile1.lost = none ∧ tile1.replica = none)
    ∧ ((sLeasesAndPeers5.get (Obj.LEASE_STATE 3) = 1 ∨ sLeasesAndPeers5.get (Obj.LEASE_STATE 3) = 2) ∧ sLeasesAndPeers5.u.mem.tiles = [])
    ∧ ((sLeasesAndPeers9.get (Obj.LEASE_STATE 3) = 1 ∨ sLeasesAndPeers9.get (Obj.LEASE_STATE 3) = 2) ∧ sLeasesAndPeers9.u.mem.tiles = []) := by
  iterate 14 refine ⟨by decide +kernel, ?_⟩
  decide +kernel
def sContextsOpenAndClose0 : State := opSt 1 [(Obj.ENGINE_NS 3, 7)]
def sContextsOpenAndClose1 : State := opSt 1 [(Obj.CTX_STATE 3, 1)]
def sContextsOpenAndClose2 : State := working { job1 with phase := .running } [] id
def sContextsOpenAndClose3 : State := memory 1 tile1 [(Obj.CTX_STATE 3, 1)] id
def sContextsOpenAndClose4 : State := st (op 1 ++ [(Obj.CTX_STATE 3, 1)]) fun u => { u with tt := { u.tt with sems := [(1, { ctx := 3, prog := 9, rank := 0, count := 1, max := 1 })] } }

/-- States and operands that meet the hypotheses of `Obligations.ContextsOpenAndClose`, clause by clause. -/
theorem wit_ContextsOpenAndClose :
    (sContextsOpenAndClose0.admits 2 (Obj.CTX_STATE 3) 1 Lvl.sup ∧ sContextsOpenAndClose0.get (Obj.CTX_STATE 3) = 0)
    ∧ (sContextsOpenAndClose1.admits 2 (Obj.CTX_STATE 3) 1 Lvl.sup ∧ sContextsOpenAndClose1.get (Obj.CTX_STATE 3) = 1)
    ∧ (sContextsOpenAndClose0.admits 2 (Obj.CTX_STATE 4095) 0 Lvl.sup ∧ sContextsOpenAndClose0.get (Obj.CTX_STATE 4095) = 0)
    ∧ (sContextsOpenAndClose2.admits 2 (Obj.CTX_STATE 3) 0 Lvl.sup ∧ sContextsOpenAndClose2.get (Obj.CTX_STATE 3) = 1 ∧ sContextsOpenAndClose2.ctxBusy 3 = true)
    ∧ (sContextsOpenAndClose3.admits 2 (Obj.CTX_STATE 3) 0 Lvl.sup ∧ sContextsOpenAndClose3.get (Obj.CTX_STATE 3) = 1 ∧ sContextsOpenAndClose3.ctxBusy 3 = false
        ∧ sContextsOpenAndClose3.u.dict.pendingGroups = [])
    ∧ (sContextsOpenAndClose4.admits 2 (Obj.CTX_STATE 3) 0 Lvl.sup ∧ sContextsOpenAndClose4.get (Obj.CTX_STATE 3) = 1 ∧ sContextsOpenAndClose4.ctxBusy 3 = false
        ∧ sContextsOpenAndClose4.u.dict.pendingGroups = [] ∧ (∀ (e : Nat × Machine.Seq), e ∈ sContextsOpenAndClose4.u.seq.seqs → e.fst / 65536 ≠ 3)
        ∧ (∀ (e : Nat × Tile), e ∈ sContextsOpenAndClose4.u.mem.tiles → e.snd.ctx ≠ 3))
    ∧ (sContextsOpenAndClose0.admits 2 (Obj.CTX_CLEAR 3) 1 Lvl.sup) := by
  iterate 6 refine ⟨by decide +kernel, ?_⟩
  decide +kernel
def sJobsAreDispatched0 : State := working { job1 with decl := { fields := 1, tiles := [9 * 65536] } } [(Obj.FIELD_ALLOWANCE 3, 4), (Obj.PREFERRED_MV 3, 750)] id
def jobJobsAreDispatched0 : Job := { job1 with decl := { fields := 1, tiles := [9 * 65536] } }
def sJobsAreDispatched1 : State := working job1 [(Obj.FIELD_ALLOWANCE 3, 4), (Obj.PREFERRED_MV 3, 750)] id

/-- States and operands that meet the hypotheses of `Obligations.JobsAreDispatched`, clause by clause. -/
theorem wit_JobsAreDispatched :
    ((sJobsAreDispatched0.sending []).accrued.u.tt.jobs.get? 4 = some jobJobsAreDispatched0 ∧ Wf.jobDispatch 4 [0] [] [] = true ∧ jobJobsAreDispatched0.phase = Phase.ready
        ∧ (sJobsAreDispatched0.sending []).accrued.groupPending (16384 + jobJobsAreDispatched0.ctx) = false
        ∧ (sJobsAreDispatched0.sending []).accrued.mayDispatch jobJobsAreDispatched0 = true ∧ jobJobsAreDispatched0.short = false
        ∧ (sJobsAreDispatched0.sending []).accrued.firingWaits jobJobsAreDispatched0 = false
        ∧ (sJobsAreDispatched0.sending []).accrued.another 4 jobJobsAreDispatched0 = false ∧ jobJobsAreDispatched0.decl.op = none
        ∧ (sJobsAreDispatched0.sending []).accrued.dispatchFault jobJobsAreDispatched0 [] [] = some (St.ACCESS_DENIED, 1028) ∧ St.ACCESS_DENIED ≠ St.KEY_FORMAT
        ∧ St.ACCESS_DENIED ≠ St.TABLE_CHANGED)
    ∧ ((sJobsAreDispatched1.sending []).accrued.u.tt.jobs.get? 4 = some job1 ∧ Wf.jobDispatch 4 [0] [] [] = true ∧ job1.phase = Phase.ready
        ∧ (sJobsAreDispatched1.sending []).accrued.groupPending (16384 + job1.ctx) = false ∧ (sJobsAreDispatched1.sending []).accrued.mayDispatch job1 = true
        ∧ job1.short = false ∧ (sJobsAreDispatched1.sending []).accrued.firingWaits job1 = false ∧ (sJobsAreDispatched1.sending []).accrued.another 4 job1 = false
        ∧ job1.decl.op = none ∧ (sJobsAreDispatched1.sending []).accrued.dispatchFault job1 [] [] = none ∧ (sJobsAreDispatched1.sending []).accrued.chunkStream job1 = none
        ∧ (sJobsAreDispatched1.sending []).accrued.allowed job1 = true ∧ (sJobsAreDispatched1.sending []).accrued.placeFits job1 [0] = true
        ∧ List.length (sJobsAreDispatched1.sending []).accrued.u.tt.bars + job1.decl.barriers.length ≤ 256
        ∧ (sJobsAreDispatched1.sending []).accrued.answerRail job1.decl.fields job1.decl.power ((sJobsAreDispatched1.sending []).accrued.get (Obj.PREFERRED_MV job1.ctx)) [0].eraseDups = some ((sJobsAreDispatched1.sending []).accrued.get (Obj.PREFERRED_MV job1.ctx))) := by
  refine ⟨by decide +kernel, ?_⟩
  decide +kernel
def sJobsPauseResumeAndEnd0 : State := working { job1 with phase := .draining, place := [0] } [] id
def jobJobsPauseResumeAndEnd0 : Job := { job1 with phase := .draining, place := [0] }
def sJobsPauseResumeAndEnd1 : State := working { job1 with phase := .draining, place := [0], stop := some (0x20, 3) } [] id
def jobJobsPauseResumeAndEnd1 : Job := { job1 with phase := .draining, place := [0], stop := some (0x20, 3) }
def sJobsPauseResumeAndEnd2 : State := working { job1 with phase := .saving, place := [0], units := 40 } [] id
def jobJobsPauseResumeAndEnd2 : Job := { job1 with phase := .saving, place := [0], units := 40 }
def sJobsPauseResumeAndEnd3 : State := working { job1 with phase := .paused, saved := true } [(Obj.FIELD_ALLOWANCE 3, 4), (Obj.PREFERRED_MV 3, 750)] id
def jobJobsPauseResumeAndEnd3 : Job := { job1 with phase := .paused, saved := true }
def sJobsPauseResumeAndEnd4 : State := working { job1 with phase := .running, place := [0] } [] id
def jobJobsPauseResumeAndEnd4 : Job := { job1 with phase := .running, place := [0] }
def sJobsPauseResumeAndEnd5 : State := working { job1 with short := true } [] id
def jobJobsPauseResumeAndEnd5 : Job := { job1 with short := true }

/-- States and operands that meet the hypotheses of `Obligations.JobsPauseResumeAndEnd`, clause by clause. -/
theorem wit_JobsPauseResumeAndEnd :
    (sJobsPauseResumeAndEnd0.u.tt.jobs.get? 4 = some jobJobsPauseResumeAndEnd0 ∧ jobJobsPauseResumeAndEnd0.phase = Phase.draining ∧ jobJobsPauseResumeAndEnd0.evac = false
        ∧ jobJobsPauseResumeAndEnd0.decl.fullSave = false ∧ jobJobsPauseResumeAndEnd0.decl.op = none ∧ jobJobsPauseResumeAndEnd0.stop = none)
    ∧ (sJobsPauseResumeAndEnd1.u.tt.jobs.get? 4 = some jobJobsPauseResumeAndEnd1 ∧ jobJobsPauseResumeAndEnd1.phase = Phase.draining ∧ jobJobsPauseResumeAndEnd1.evac = false
        ∧ jobJobsPauseResumeAndEnd1.decl.fullSave = false ∧ jobJobsPauseResumeAndEnd1.decl.op = none ∧ jobJobsPauseResumeAndEnd1.stop = some (32, 3)
        ∧ sJobsPauseResumeAndEnd1.overRange 4 [] = false)
    ∧ (sJobsPauseResumeAndEnd2.u.tt.jobs.get? 4 = some jobJobsPauseResumeAndEnd2 ∧ jobJobsPauseResumeAndEnd2.phase = Phase.saving)
    ∧ (sJobsPauseResumeAndEnd3.u.tt.jobs.get? 4 = some jobJobsPauseResumeAndEnd3 ∧ Wf.jobResume 4 [0] = true ∧ jobJobsPauseResumeAndEnd3.phase = Phase.paused
        ∧ sJobsPauseResumeAndEnd3.groupPending (16384 + jobJobsPauseResumeAndEnd3.ctx) = false ∧ sJobsPauseResumeAndEnd3.mayDispatch jobJobsPauseResumeAndEnd3 = true
        ∧ jobJobsPauseResumeAndEnd3.short = false ∧ sJobsPauseResumeAndEnd3.allowed jobJobsPauseResumeAndEnd3 = true
        ∧ sJobsPauseResumeAndEnd3.placeFits jobJobsPauseResumeAndEnd3 [0] = true
        ∧ sJobsPauseResumeAndEnd3.answerRail jobJobsPauseResumeAndEnd3.decl.fields jobJobsPauseResumeAndEnd3.decl.power (sJobsPauseResumeAndEnd3.get (Obj.PREFERRED_MV jobJobsPauseResumeAndEnd3.ctx)) [0].eraseDups = some (sJobsPauseResumeAndEnd3.get (Obj.PREFERRED_MV jobJobsPauseResumeAndEnd3.ctx)))
    ∧ (sJobsPauseResumeAndEnd4.u.tt.jobs.get? 4 = some jobJobsPauseResumeAndEnd4 ∧ Wf.jobEnd 4 { status := 0, detail := 0 : JobResult } = true
        ∧ (jobJobsPauseResumeAndEnd4.phase = Phase.running ∨ jobJobsPauseResumeAndEnd4.phase = Phase.draining) ∧ jobJobsPauseResumeAndEnd4.merged = none
        ∧ jobJobsPauseResumeAndEnd4.wait = none ∧ jobJobsPauseResumeAndEnd4.decl.op = none
        ∧ sJobsPauseResumeAndEnd4.overRange 4 { status := 0, detail := 0 : JobResult }.steps = false ∧ { status := 0, detail := 0 : JobResult }.steps = []
        ∧ (∀ (y : Run) (f k : Nat), sJobsPauseResumeAndEnd4.u.tt.runs.get? jobJobsPauseResumeAndEnd4.run = some y → y.owner = Owner.golden f k → sJobsPauseResumeAndEnd4.goldLoss y = none))
    ∧ (sJobsPauseResumeAndEnd5.u.tt.jobs.get? 4 = some jobJobsPauseResumeAndEnd5 ∧ jobJobsPauseResumeAndEnd5.phase = Phase.ready ∧ jobJobsPauseResumeAndEnd5.short = true) := by
  iterate 4 refine ⟨by decide +kernel, ?_⟩
  refine ⟨by and_intros <;> first | decide +kernel | (intro y f k h e; cases h; cases e), ?_⟩
  decide +kernel
def sFurrowsArmAndFire0 : State := opSt 1 [(Obj.FURROW_STATE 0, 1), (Obj.F_CONTEXT 0, 3), (Obj.CTX_STATE 3, 1)]
def sFurrowsArmAndFire1 : State := opSt 1 [(Obj.FURROW_STATE 0, 2)]
def sFurrowsArmAndFire2 : State := st (op 1 ++ [(Obj.FURROW_STATE 0, 2)]) fun u => { u with tt := { u.tt with runs := [(6, run1)], furrows := [(0, { queue := [6] })] } }
def sFurrowsArmAndFire3 : State := opSt 1 [(Obj.FURROW_STATE 0, 1), (Obj.F_CONTEXT 0, 3)]
def sFurrowsArmAndFire4 : State := st (op 1 ++ [(Obj.FURROW_STATE 1, 2), (Obj.F_PROGRAM 1, 9), (Obj.F_CONTEXT 1, 3), (Obj.CTX_STATE 3, 1), (Obj.TRIGGER_KIND 1, 2), (Obj.TRIGGER_PERIOD_NS 1, 1000)]) fun u => { u with tt := { u.tt with progs := [(9, unit1)] } }

/-- States and operands that meet the hypotheses of `Obligations.FurrowsArmAndFire`, clause by clause. -/
theorem wit_FurrowsArmAndFire :
    (sFurrowsArmAndFire0.selected 2 < 256 ∧ sFurrowsArmAndFire0.admits 2 (Obj.FURROW_COMMAND (sFurrowsArmAndFire0.selected 2)) 1 Lvl.sup
        ∧ sFurrowsArmAndFire0.get (Obj.FURROW_STATE (sFurrowsArmAndFire0.selected 2)) = 1
        ∧ sFurrowsArmAndFire0.get (Obj.CTX_STATE (sFurrowsArmAndFire0.get (Obj.F_CONTEXT (sFurrowsArmAndFire0.selected 2)))) = 1)
    ∧ (sFurrowsArmAndFire1.selected 2 < 256 ∧ sFurrowsArmAndFire1.admits 2 (Obj.FURROW_COMMAND (sFurrowsArmAndFire1.selected 2)) 2 Lvl.sup
        ∧ sFurrowsArmAndFire1.get (Obj.FURROW_STATE (sFurrowsArmAndFire1.selected 2)) = 2)
    ∧ (sFurrowsArmAndFire2.selected 2 < 256 ∧ sFurrowsArmAndFire2.admits 2 (Obj.FURROW_COMMAND (sFurrowsArmAndFire2.selected 2)) 2 Lvl.sup
        ∧ sFurrowsArmAndFire2.get (Obj.FURROW_STATE (sFurrowsArmAndFire2.selected 2)) = 2)
    ∧ (sFurrowsArmAndFire3.selected 2 < 256 ∧ sFurrowsArmAndFire3.admits 2 (Obj.FURROW_COMMAND (sFurrowsArmAndFire3.selected 2)) 3 Lvl.sup
        ∧ sFurrowsArmAndFire3.get (Obj.FURROW_STATE (sFurrowsArmAndFire3.selected 2)) = 1)
    ∧ (sFurrowsArmAndFire4.get (Obj.FURROW_STATE 1) = 2 ∧ (sFurrowsArmAndFire4.furrow 1).stopping = false ∧ sFurrowsArmAndFire4.dev ≠ Dev.HOLD
        ∧ sFurrowsArmAndFire4.u.dict.pendingGroups = [] ∧ (sFurrowsArmAndFire4.furrow 1).sinceFiring = 0 ∧ (sFurrowsArmAndFire4.furrow 1).queue = []
        ∧ sFurrowsArmAndFire4.get (Obj.GOLDEN_EVERY 1) = 0 ∧ sFurrowsArmAndFire4.get (Obj.FIRINGS 1) + 1 < 2 ^ 64
        ∧ sFurrowsArmAndFire4.entryOf (sFurrowsArmAndFire4.get (Obj.F_PROGRAM 1)) (sFurrowsArmAndFire4.get (Obj.F_ENTRY 1)) = some entry1 ∧ entry1.stages = [decl1]
        ∧ decl1.fields ≠ 0 ∧ decl1.op = none ∧ decl1.chunk = none ∧ decl1.deps = []
        ∧ (∀ (j : Nat × Job), j ∈ sFurrowsArmAndFire4.u.tt.jobs → j.snd.run ≠ sFurrowsArmAndFire4.u.tt.nextRun))
    ∧ (sFurrowsArmAndFire4.get (Obj.FURROW_STATE 1) = 2 ∧ (sFurrowsArmAndFire4.furrow 1).stopping = false ∧ sFurrowsArmAndFire4.dev ≠ Dev.HOLD
        ∧ sFurrowsArmAndFire4.u.dict.pendingGroups = [] ∧ (sFurrowsArmAndFire4.furrow 1).sinceFiring = 0 ∧ (sFurrowsArmAndFire4.furrow 1).queue = []
        ∧ sFurrowsArmAndFire4.get (Obj.GOLDEN_EVERY 1) = 0 ∧ sFurrowsArmAndFire4.get (Obj.FIRINGS 1) + 1 < 2 ^ 64
        ∧ sFurrowsArmAndFire4.entryOf (sFurrowsArmAndFire4.get (Obj.F_PROGRAM 1)) (sFurrowsArmAndFire4.get (Obj.F_ENTRY 1)) = some entry1 ∧ entry1.stages = [decl1]
        ∧ decl1.fields ≠ 0 ∧ decl1.op = none ∧ decl1.chunk = none ∧ decl1.deps = []
        ∧ (∀ (j : Nat × Job), j ∈ sFurrowsArmAndFire4.u.tt.jobs → j.snd.run ≠ sFurrowsArmAndFire4.u.tt.nextRun) ∧ sFurrowsArmAndFire4.get (Obj.TRIGGER_KIND 1) = 2
        ∧ sFurrowsArmAndFire4.get (Obj.TRIGGER_PERIOD_NS 1) ≠ 0) := by
  iterate 5 refine ⟨by decide +kernel, ?_⟩
  decide +kernel
def sSemaphoresCount0 : State := working { job1 with phase := .running, place := [0], decl := { fields := 1, sems := [⟨2, 1, 1⟩] } } [] fun t => { t with sems := [(1, { ctx := 3, prog := 9, rank := 2, count := 1, max := 1 })] }
def jobSemaphoresCount0 : Job := { job1 with phase := .running, place := [0], decl := { fields := 1, sems := [⟨2, 1, 1⟩] } }
def sSemaphoresCount1 : State := working { job1 with phase := .running, place := [0], decl := { fields := 1, sems := [⟨2, 1, 1⟩] } } [] fun t => { t with sems := [(1, { ctx := 3, prog := 9, rank := 2, count := 0, max := 1 })] }
def sSemaphoresCount2 : State := working { job1 with phase := .running, place := [0], decl := { fields := 1, sems := [⟨2, 1, 1⟩] }, held := [1] } [] fun t => { t with sems := [(1, { ctx := 3, prog := 9, rank := 2, count := 0, max := 1 })] }
def jobSemaphoresCount1 : Job := { job1 with phase := .running, place := [0], decl := { fields := 1, sems := [⟨2, 1, 1⟩] }, held := [1] }
def sSemaphoresCount3 : State := working { job1 with phase := .running, place := [0], decl := { fields := 1, sems := [⟨2, 1, 1⟩] }, wait := some 1, noLimit := true } [] fun t => { t with sems := [(1, { ctx := 3, prog := 9, rank := 2, count := 0, max := 1, waiters := [4] })] }
def jobSemaphoresCount2 : Job := { job1 with phase := .running, place := [0], decl := { fields := 1, sems := [⟨2, 1, 1⟩] }, wait := some 1, noLimit := true }
def sSemaphoresCount4 : State := working { job1 with phase := .running, place := [0], decl := { fields := 1, sems := [⟨2, 1, 1⟩] }, wait := some 1 } [] fun t => { t with sems := [(1, { ctx := 3, prog := 9, rank := 2, count := 0, max := 1, waiters := [4] })] }
def jobSemaphoresCount3 : Job := { job1 with phase := .running, place := [0], decl := { fields := 1, sems := [⟨2, 1, 1⟩] }, wait := some 1 }

/-- States and operands that meet the hypotheses of `Obligations.SemaphoresCount`, clause by clause. -/
theorem wit_SemaphoresCount :
    (sSemaphoresCount0.u.tt.jobs.get? 4 = some jobSemaphoresCount0 ∧ sSemaphoresCount0.u.tt.sems.get? 1 = some { ctx := 3, prog := 9, rank := 2, count := 1, max := 1 : Sem }
        ∧ Wf.semaphoreAcquire 4 2 100 false = true ∧ jobSemaphoresCount0.active = true ∧ sSemaphoresCount0.semFor jobSemaphoresCount0 2 = some 1
        ∧ (∀ (h : Nat), h ∈ jobSemaphoresCount0.held → h < 1) ∧ 1 ≤ { ctx := 3, prog := 9, rank := 2, count := 1, max := 1 : Sem }.count)
    ∧ (sSemaphoresCount1.u.tt.jobs.get? 4 = some jobSemaphoresCount0 ∧ sSemaphoresCount1.u.tt.sems.get? 1 = some { ctx := 3, prog := 9, rank := 2, count := 0, max := 1 : Sem }
        ∧ (0 ≠ 0 ∨ true = true) ∧ jobSemaphoresCount0.active = true ∧ sSemaphoresCount1.semFor jobSemaphoresCount0 2 = some 1
        ∧ (∀ (h : Nat), h ∈ jobSemaphoresCount0.held → h < 1) ∧ { ctx := 3, prog := 9, rank := 2, count := 0, max := 1 : Sem }.count = 0 ∧ jobSemaphoresCount0.stop = none)
    ∧ (sSemaphoresCount2.u.tt.jobs.get? 4 = some jobSemaphoresCount1 ∧ sSemaphoresCount2.u.tt.sems.get? 1 = some { ctx := 3, prog := 9, rank := 2, count := 0, max := 1 : Sem }
        ∧ jobSemaphoresCount1.active = true ∧ sSemaphoresCount2.semFor jobSemaphoresCount1 2 = some 1
        ∧ { ctx := 3, prog := 9, rank := 2, count := 0, max := 1 : Sem }.count < { ctx := 3, prog := 9, rank := 2, count := 0, max := 1 : Sem }.max
        ∧ { ctx := 3, prog := 9, rank := 2, count := 0, max := 1 : Sem }.waiters = [])
    ∧ (sSemaphoresCount3.u.tt.jobs.get? 4 = some jobSemaphoresCount2
        ∧ sSemaphoresCount3.u.tt.sems.get? 1 = some { ctx := 3, prog := 9, rank := 2, count := 0, max := 1, waiters := [4] : Sem } ∧ jobSemaphoresCount2.wait = some 1
        ∧ jobSemaphoresCount2.noLimit = true)
    ∧ (sSemaphoresCount4.u.tt.jobs.get? 4 = some jobSemaphoresCount3
        ∧ sSemaphoresCount4.u.tt.sems.get? 1 = some { ctx := 3, prog := 9, rank := 2, count := 0, max := 1, waiters := [4] : Sem } ∧ jobSemaphoresCount3.wait = some 1
        ∧ jobSemaphoresCount3.noLimit = false ∧ { ctx := 3, prog := 9, rank := 2, count := 0, max := 1, waiters := [4] : Sem }.waiters.contains 4 = true) := by
  iterate 4 refine ⟨by decide +kernel, ?_⟩
  decide +kernel
def sTimetableAccounts0 : State := opSt 1 []
def sTimetableAccounts1 : State := { (working { job1 with phase := .running, place := [0], wait := some 1 } [(Obj.BLOCK_REPORT_MS, 1)] id) with time := 4294967296000001 }
def jobTimetableAccounts0 : Job := { job1 with phase := .running, place := [0], wait := some 1 }
def sTimetableAccounts2 : State := { (working { job1 with phase := .running, place := [0], bars := [0] } [(Obj.BLOCK_REPORT_MS, 1)] fun t => { t with bars := [(0, { job := 4, n := 2, arrived := 1 })] }) with time := 4294967296000001 }
def jobTimetableAccounts1 : Job := { job1 with phase := .running, place := [0], bars := [0] }

/-- States and operands that meet the hypotheses of `Obligations.TimetableAccounts`, clause by clause. -/
theorem wit_TimetableAccounts :
    (Wf.energyInterval 3 500 = true ∧ sTimetableAccounts0.get (Obj.DOM_ENERGY_UJ 3) + 500 < 2 ^ 64)
    ∧ (sTimetableAccounts1.u.tt.jobs.get? 4 = some jobTimetableAccounts0 ∧ sTimetableAccounts1.get Obj.BLOCK_REPORT_MS ≠ 0 ∧ jobTimetableAccounts0.wait = some 1
        ∧ jobTimetableAccounts0.reported = false
        ∧ sTimetableAccounts1.get Obj.BLOCK_REPORT_MS * 4294967296000000 < sTimetableAccounts1.time - jobTimetableAccounts0.waitFrom)
    ∧ (sTimetableAccounts2.u.tt.jobs.get? 4 = some jobTimetableAccounts1 ∧ sTimetableAccounts2.get Obj.BLOCK_REPORT_MS ≠ 0 ∧ jobTimetableAccounts1.wait = none
        ∧ jobTimetableAccounts1.bars = [0] ∧ sTimetableAccounts2.u.tt.bars.get? 0 = some { job := 4, n := 2, arrived := 1 : Barrier }
        ∧ { job := 4, n := 2, arrived := 1 : Barrier }.arrived ≠ 0 ∧ { job := 4, n := 2, arrived := 1 : Barrier }.reported = false
        ∧ sTimetableAccounts2.get Obj.BLOCK_REPORT_MS * 4294967296000000 < sTimetableAccounts2.time - { job := 4, n := 2, arrived := 1 : Barrier }.since) := by
  iterate 2 refine ⟨by decide +kernel, ?_⟩
  decide +kernel
def sCausesAreRaised0 : State := opSt 1 []
def sCausesAreRaised1 : State := opSt 1 [(Obj.DEVICE_STATE, 4)]
def sCausesAreRaised2 : State := opSt 1 [(Obj.DEVICE_STATE, 2), (Obj.OUT_STATE, 3)]
def sCausesAreRaised3 : State := opSt 1 [(Obj.E2E_ACTION, 0), (Obj.OUT_STATE, 3)]
def sCausesAreRaised4 : State := opSt 1 [(Obj.OUT_STATE, 3)]
def sCausesAreRaised5 : State := working { job1 with phase := .running, place := [0] } [] id
def jobCausesAreRaised0 : Job := { job1 with phase := .running, place := [0] }

/-- States and operands that meet the hypotheses of `Obligations.CausesAreRaised`, clause by clause. -/
theorem wit_CausesAreRaised :
    (sCausesAreRaised0.causeActive 3 0 = false ∧ sCausesAreRaised0.get Obj.SAFETY_EVENTS + 1 < 2 ^ 32
        ∧ (sCausesAreRaised0.dev = Dev.OP → sCausesAreRaised0.reaction 3 0 ≠ 0 → sCausesAreRaised0.u.tt.jobs = [] ∧ ∀ (e : Nat × Furrow), e ∈ sCausesAreRaised0.u.tt.furrows → e.snd.queue = []))
    ∧ (sCausesAreRaised1.causeActive 3 0 = false ∧ sCausesAreRaised1.get Obj.SAFETY_EVENTS + 1 < 2 ^ 32 ∧ sCausesAreRaised1.dev ≠ Dev.OP)
    ∧ (sCausesAreRaised2.causeActive 3 0 = false ∧ sCausesAreRaised2.get Obj.SAFETY_EVENTS + 1 < 2 ^ 32 ∧ sCausesAreRaised2.dev ≠ Dev.OP ∧ sCausesAreRaised2.dev ≠ Dev.HOLD)
    ∧ (sCausesAreRaised2.causeActive 3 0 = false ∧ sCausesAreRaised2.get Obj.SAFETY_EVENTS + 1 < 2 ^ 32 ∧ sCausesAreRaised2.dev ≠ Dev.OP ∧ sCausesAreRaised2.dev ≠ Dev.HOLD)
    ∧ (sCausesAreRaised2.causeActive 3 0 = false ∧ sCausesAreRaised2.get Obj.SAFETY_EVENTS + 1 < 2 ^ 32 ∧ sCausesAreRaised2.dev ≠ Dev.OP ∧ sCausesAreRaised2.dev ≠ Dev.HOLD)
    ∧ (sCausesAreRaised2.causeActive 3 0 = false ∧ sCausesAreRaised2.get Obj.SAFETY_EVENTS + 1 < 2 ^ 32 ∧ sCausesAreRaised2.dev ≠ Dev.OP ∧ sCausesAreRaised2.dev ≠ Dev.HOLD
        ∧ Obj.IN_STATE ≠ Obj.ACTIVE_CAUSES ∧ Obj.IN_STATE ≠ Obj.LATCHED_CAUSES ∧ Obj.IN_STATE ≠ Obj.SAFETY_EVENTS ∧ Obj.IN_STATE ≠ Obj.OUT_STATE)
    ∧ (sCausesAreRaised3.causeActive 5 7 = false ∧ sCausesAreRaised3.get Obj.SAFETY_EVENTS + 1 < 2 ^ 32 ∧ sCausesAreRaised3.dev = Dev.OP ∧ sCausesAreRaised3.reaction 5 7 = 0)
    ∧ (sCausesAreRaised4.causeActive 3 0 = false ∧ sCausesAreRaised4.get Obj.SAFETY_EVENTS + 1 < 2 ^ 32 ∧ sCausesAreRaised4.dev = Dev.OP ∧ sCausesAreRaised4.reaction 3 0 ≠ 0
        ∧ sCausesAreRaised4.u.tt.jobs = [] ∧ (∀ (e : Nat × Furrow), e ∈ sCausesAreRaised4.u.tt.furrows → e.snd.queue = []))
    ∧ (sCausesAreRaised4.causeActive 3 0 = false ∧ sCausesAreRaised4.get Obj.SAFETY_EVENTS + 1 < 2 ^ 32 ∧ sCausesAreRaised4.dev = Dev.OP ∧ sCausesAreRaised4.reaction 3 0 ≠ 0
        ∧ sCausesAreRaised4.u.tt.jobs = [] ∧ (∀ (e : Nat × Furrow), e ∈ sCausesAreRaised4.u.tt.furrows → e.snd.queue = []))
    ∧ (sCausesAreRaised4.causeActive 3 0 = false ∧ sCausesAreRaised4.get Obj.SAFETY_EVENTS + 1 < 2 ^ 32 ∧ sCausesAreRaised4.dev = Dev.OP ∧ sCausesAreRaised4.reaction 3 0 ≠ 0
        ∧ sCausesAreRaised4.u.tt.jobs = [] ∧ (∀ (e : Nat × Furrow), e ∈ sCausesAreRaised4.u.tt.furrows → e.snd.queue = []))
    ∧ (sCausesAreRaised4.causeActive 3 0 = false ∧ sCausesAreRaised4.get Obj.SAFETY_EVENTS + 1 < 2 ^ 32 ∧ sCausesAreRaised4.dev = Dev.OP ∧ sCausesAreRaised4.reaction 3 0 ≠ 0
        ∧ sCausesAreRaised4.u.tt.jobs = [] ∧ (∀ (e : Nat × Furrow), e ∈ sCausesAreRaised4.u.tt.furrows → e.snd.queue = []) ∧ sCausesAreRaised4.reaction 3 0 = 2)
    ∧ (sCausesAreRaised4.causeActive 3 0 = false ∧ sCausesAreRaised4.get Obj.SAFETY_EVENTS + 1 < 2 ^ 32 ∧ sCausesAreRaised4.dev = Dev.OP ∧ sCausesAreRaised4.reaction 3 0 ≠ 0
        ∧ sCausesAreRaised4.u.tt.jobs = [] ∧ (∀ (e : Nat × Furrow), e ∈ sCausesAreRaised4.u.tt.furrows → e.snd.queue = []))
    ∧ (sCausesAreRaised4.causeActive 3 0 = false ∧ sCausesAreRaised4.get Obj.SAFETY_EVENTS + 1 < 2 ^ 32 ∧ sCausesAreRaised4.dev = Dev.OP ∧ sCausesAreRaised4.reaction 3 0 ≠ 0
        ∧ sCausesAreRaised4.u.tt.jobs = [] ∧ (∀ (e : Nat × Furrow), e ∈ sCausesAreRaised4.u.tt.furrows → e.snd.queue = []))
    ∧ (sCausesAreRaised4.causeActive 3 0 = false ∧ sCausesAreRaised4.get Obj.SAFETY_EVENTS + 1 < 2 ^ 32 ∧ sCausesAreRaised4.dev = Dev.OP ∧ sCausesAreRaised4.reaction 3 0 ≠ 0
        ∧ sCausesAreRaised4.u.tt.jobs = [] ∧ (∀ (e : Nat × Furrow), e ∈ sCausesAreRaised4.u.tt.furrows → e.snd.queue = []) ∧ sCausesAreRaised4.u.safe.driving = false)
    ∧ (sCausesAreRaised4.causeActive 1 0 = false ∧ sCausesAreRaised4.get Obj.SAFETY_EVENTS + 1 < 2 ^ 32 ∧ sCausesAreRaised4.dev = Dev.OP ∧ sCausesAreRaised4.reaction 1 0 ≠ 0
        ∧ sCausesAreRaised4.u.tt.jobs = [] ∧ (∀ (e : Nat × Furrow), e ∈ sCausesAreRaised4.u.tt.furrows → e.snd.queue = []))
    ∧ (sCausesAreRaised5.causeActive 3 0 = false ∧ sCausesAreRaised5.get Obj.SAFETY_EVENTS + 1 < 2 ^ 32 ∧ sCausesAreRaised5.dev = Dev.OP ∧ sCausesAreRaised5.reaction 3 0 ≠ 0
        ∧ sCausesAreRaised5.u.tt.jobs = [(4, jobCausesAreRaised0)] ∧ jobCausesAreRaised0.phase = Phase.running ∧ jobCausesAreRaised0.decl.fullSave = false
        ∧ jobCausesAreRaised0.wait = none ∧ sCausesAreRaised5.u.tt.runs.get? jobCausesAreRaised0.run = some run1 ∧ sCausesAreRaised5.keptRun run1 = false
        ∧ (∀ (e : Nat × Furrow), e ∈ sCausesAreRaised5.u.tt.furrows → e.snd.queue = [])) := by
  iterate 15 refine ⟨by decide +kernel, ?_⟩
  decide +kernel
def sVoterFindsOddCores0 : State := opSt 1 [(Obj.CORE_ROLES, 0x40)]
def sVoterFindsOddCores1 : State := opSt 1 [(Obj.CORE_ROLES, 0x40), (Obj.ODD_LIMIT, 3)]
def sVoterFindsOddCores2 : State := opSt 1 [(Obj.CORE_ROLES, 0xF0)]
def sVoterFindsOddCores3 : State := st (op 1 ++ [(Obj.CORE_ROLES, 0x48), (Obj.VOTE_MODE, 1)]) fun u => { u with safe := { u.safe with resync := some 1 } }
def sVoterFindsOddCores4 : State := st (op 1 ++ [(Obj.CORE_ROLES, 0xC8), (Obj.VOTE_MODE, 1)]) fun u => { u with safe := { u.safe with resync := some 1 } }

/-- States and operands that meet the hypotheses of `Obligations.VoterFindsOddCores`, clause by clause. -/
theorem wit_VoterFindsOddCores :
    (Wf.safetyTick [some 5, some 5, some 5, none] 20 none = true ∧ sVoterFindsOddCores0.u.safe.slice = none
        ∧ (∀ (k : Nat), k ∈ List.filter (fun k => sVoterFindsOddCores0.coreRole k == 0) (List.range 4) → ∀ (j : Nat), j ∈ List.filter (fun k => sVoterFindsOddCores0.coreRole k == 0) (List.range 4) → (fun k => [some 5, some 5, some 5, none].getD k none) k = (fun k => [some 5, some 5, some 5, none].getD k none) j))
    ∧ (Wf.safetyTick [some 5, some 5, some 5, none] 20 none = true ∧ sVoterFindsOddCores0.u.safe.slice = none
        ∧ (∀ (k : Nat), k ∈ List.filter (fun k => sVoterFindsOddCores0.coreRole k == 0) (List.range 4) → ∀ (j : Nat), j ∈ List.filter (fun k => sVoterFindsOddCores0.coreRole k == 0) (List.range 4) → (fun k => [some 5, some 5, some 5, none].getD k none) k = (fun k => [some 5, some 5, some 5, none].getD k none) j))
    ∧ (Wf.safetyTick [some 5, some 6, some 7, none] 20 none = true ∧ sVoterFindsOddCores0.u.safe.slice = none
        ∧ List.filter (fun k => sVoterFindsOddCores0.coreRole k == 0) (List.range 4) = [0, 1, 2]
        ∧ (fun k => [some 5, some 6, some 7, none].getD k none) 0 ≠ (fun k => [some 5, some 6, some 7, none].getD k none) 1
        ∧ (fun k => [some 5, some 6, some 7, none].getD k none) 0 ≠ (fun k => [some 5, some 6, some 7, none].getD k none) 2
        ∧ (fun k => [some 5, some 6, some 7, none].getD k none) 1 ≠ (fun k => [some 5, some 6, some 7, none].getD k none) 2)
    ∧ (Wf.safetyTick [some 5, none, some 5, none] 20 none = true ∧ sVoterFindsOddCores1.u.safe.slice = none
        ∧ (List.filter (fun k => sVoterFindsOddCores1.coreRole k == 0) (List.range 4)).length = 3
        ∧ [0, 2, 1].Perm (List.filter (fun k => sVoterFindsOddCores1.coreRole k == 0) (List.range 4)) ∧ (fun k => [some 5, none, some 5, none].getD k none) 0 = some 5
        ∧ (fun k => [some 5, none, some 5, none].getD k none) 2 = some 5 ∧ (fun k => [some 5, none, some 5, none].getD k none) 1 ≠ some 5
        ∧ sVoterFindsOddCores1.get Obj.ODD_EVENTS + 1 < 2 ^ 32
        ∧ (List.filter (fun e => e.snd == 1) (List.filter (fun e => decide (sVoterFindsOddCores1.time ≤ e.fst + 86400000000000 * 4294967296)) sVoterFindsOddCores1.u.safe.odd)).length + 1 < sVoterFindsOddCores1.get Obj.ODD_LIMIT)
    ∧ (Wf.safetyTick [some 5, some 6, none, none] 20 none = true ∧ sVoterFindsOddCores2.u.safe.slice = none
        ∧ List.filter (fun k => sVoterFindsOddCores2.coreRole k == 0) (List.range 4) = [0, 1]
        ∧ (fun k => [some 5, some 6, none, none].getD k none) 0 ≠ (fun k => [some 5, some 6, none, none].getD k none) 1)
    ∧ (Wf.safetyTick [some 5, none, some 5, none] 20 none = true ∧ sVoterFindsOddCores3.u.safe.slice = none ∧ sVoterFindsOddCores3.u.safe.resync = some 1
        ∧ sVoterFindsOddCores3.get Obj.RESYNCS + 1 < 2 ^ 32 ∧ Wf.resyncDone 50000 = true)
    ∧ (Wf.safetyTick [some 5, none, some 5, none] 20 none = true ∧ sVoterFindsOddCores3.u.safe.slice = none ∧ sVoterFindsOddCores3.u.safe.resync = some 1
        ∧ sVoterFindsOddCores3.get Obj.RESYNCS + 1 < 2 ^ 32 ∧ List.find? (fun i => sVoterFindsOddCores3.coreRole i == 1) (List.range 4) = some 3)
    ∧ (Wf.safetyTick [some 5, none, some 5, none] 20 none = true ∧ sVoterFindsOddCores4.u.safe.slice = none ∧ sVoterFindsOddCores4.u.safe.resync = some 1
        ∧ sVoterFindsOddCores4.get Obj.RESYNCS + 1 < 2 ^ 32 ∧ (∀ (i : Nat), i < 4 → sVoterFindsOddCores4.coreRole i ≠ 1)) := by
  iterate 7 refine ⟨by decide +kernel, ?_⟩
  decide +kernel
def sSafetyInputsAndOutputs0 : State := opSt 1 [(Obj.IN_STATE, 3)]
def sSafetyInputsAndOutputs1 : State := st (op 1) fun u => { u with safe := { u.safe with bothOpen := true, active := [(2 * 65536, 2)] } }
def sSafetyInputsAndOutputs2 : State := opSt 1 [(Obj.IN_STATE, 1)]

/-- States and operands that meet the hypotheses of `Obligations.SafetyInputsAndOutputs`, clause by clause. -/
theorem wit_SafetyInputsAndOutputs :
    (sSafetyInputsAndOutputs0.u.safe.slice = none ∧ sSafetyInputsAndOutputs0.causeActive 2 0 = false)
    ∧ (sSafetyInputsAndOutputs1.u.safe.slice = none)
    ∧ (sSafetyInputsAndOutputs0.u.safe.slice = none)
    ∧ (sSafetyInputsAndOutputs0.u.safe.slice = none)
    ∧ (sSafetyInputsAndOutputs2.u.safe.slice = none ∧ (sSafetyInputsAndOutputs2.get Obj.IN_STATE = 1 ∨ sSafetyInputsAndOutputs2.get Obj.IN_STATE = 2)
        ∧ sSafetyInputsAndOutputs2.causeActive 3 0 = false)
    ∧ (sSafetyInputsAndOutputs2.u.safe.slice = none ∧ sSafetyInputsAndOutputs2.u.safe.driving = false)
    ∧ (sSafetyInputsAndOutputs2.u.safe.slice = none ∧ sSafetyInputsAndOutputs2.u.safe.driving = false)
    ∧ (sSafetyInputsAndOutputs2.u.safe.slice = none)
    ∧ (sCausesAreRaised4.u.safe.slice = none ∧ bit (sCausesAreRaised4.get Obj.OUT_STATE) 1 = true)
    ∧ (sCausesAreRaised4.u.safe.slice = none ∧ bit (sCausesAreRaised4.get Obj.OUT_STATE) 1 = true) := by
  iterate 9 refine ⟨by decide +kernel, ?_⟩
  decide +kernel
def sSafetyWrites0 : State := st (op 3) fun u => { u with safe := { u.safe with active := [(2 * 65536, 2)] } }
def sSafetyWrites1 : State := st (op 3 ++ [(Obj.LATCHED_CAUSES, 6)]) fun u => { u with safe := { u.safe with latchedHigh := 4 } }
def sSafetyWrites2 : State := opSt 3 [(Obj.DEVICE_STATE, 2), (Obj.LATCHED_CAUSES, 6)]
def sSafetyWrites3 : State := st (op 3 ++ [(Obj.DEVICE_STATE, 4), (Obj.LATCHED_CAUSES, 6)]) fun u => { u with safe := { u.safe with driving := true } }
def sSafetyWrites4 : State := opSt 3 [(Obj.IN_STATE, 3)]
def sSafetyWrites5 : State := st (op 3 ++ [(Obj.SAFE_HOLD_REQUEST, 1)]) fun u => { u with safe := { u.safe with active := [(12 * 65536, 1)] } }
def sSafetyWrites6 : State := opSt 3 []

/-- States and operands that meet the hypotheses of `Obligations.SafetyWrites`, clause by clause. -/
theorem wit_SafetyWrites :
    (sSafetyWrites0.admits 2 Obj.SAFETY_ACK 1 Lvl.saf ∧ sSafetyWrites0.blocking = true)
    ∧ (sSafetyWrites1.admits 2 Obj.SAFETY_ACK 1 Lvl.saf ∧ sSafetyWrites1.blocking = false ∧ sSafetyWrites1.dev = Dev.OP)
    ∧ (sSafetyWrites2.admits 2 Obj.SAFETY_ACK 1 Lvl.saf ∧ sSafetyWrites2.blocking = false ∧ sSafetyWrites2.dev ≠ Dev.OP ∧ sSafetyWrites2.dev ≠ Dev.HOLD)
    ∧ (sSafetyWrites3.admits 2 Obj.SAFETY_ACK 1 Lvl.saf ∧ sSafetyWrites3.blocking = false ∧ sSafetyWrites3.dev = Dev.HOLD ∧ sSafetyWrites3.u.safe.othersLow = false
        ∧ sSafetyWrites3.quiet ∧ sSafetyWrites3.u.ctrl.ch = [])
    ∧ (sSafetyWrites4.admits 2 Obj.OUTPUTS_ENABLE 1 Lvl.saf ∧ sSafetyWrites4.dev = Dev.OP ∧ sSafetyWrites4.get Obj.IN_STATE = 3)
    ∧ (sSafetyWrites5.admits 2 Obj.SAFE_HOLD_REQUEST 0 Lvl.saf)
    ∧ (sSafetyWrites6.admits 2 Obj.SAFE_HOLD_REQUEST 2 Lvl.saf ∧ sSafetyWrites6.causeActive 12 0 = false) := by
  iterate 6 refine ⟨by decide +kernel, ?_⟩
  decide +kernel
def sChecksAndQuiz0 : State := opSt 3 [(Obj.DOM_STATE 78, 2), (Obj.CV_PERIOD_MS 1, 100), (Obj.CV_KIND 1, 0), (Obj.CV_ALGORITHM 1, 2), (Obj.CV_LENGTH 1, 0), (Obj.CV_EXPECTED 1, 0)]
def sChecksAndQuiz1 : State := opSt 3 [(Obj.DOM_STATE 78, 2), (Obj.CV_PERIOD_MS 1, 100), (Obj.CV_KIND 1, 0), (Obj.CV_ALGORITHM 1, 2), (Obj.CV_LENGTH 1, 0), (Obj.CV_EXPECTED 1, 77)]
def sChecksAndQuiz2 : State := opSt 3 [(Obj.CV_KIND 1, 0), (Obj.CV_ALGORITHM 1, 3), (Obj.CV_LENGTH 1, 9), (Obj.CV_EXPECTED 1, 0xE3069283)]
def sChecksAndQuiz3 : State := opSt 3 [(Obj.SLICES_PER_PASS 0, 100)]
def sChecksAndQuiz4 : State := st (op 3 ++ [(Obj.SLICES_PER_PASS 4, 100)]) fun u => { u with safe := { u.safe with slice := some (4, 3) } }
def sChecksAndQuiz5 : State := st (op 3 ++ [(Obj.SLICES_PER_PASS 4, 1), (Obj.LATENT_MASK, 16)]) fun u => { u with safe := { u.safe with slice := some (4, 3) } }
def sChecksAndQuiz6 : State := { (opSt 3 []) with time := 4294967296 * 400000000000000 }

/-- States and operands that meet the hypotheses of `Obligations.ChecksAndQuiz`, clause by clause. -/
theorem wit_ChecksAndQuiz :
    (Wf.checkUnitRun 1 [] none = true ∧ (sChecksAndQuiz0.get (Obj.CV_KIND 1) = 0 → ([] : List Nat).length = sChecksAndQuiz0.get (Obj.CV_LENGTH 1))
        ∧ sChecksAndQuiz0.cvWant 1 none = some 0 ∧ Dev.PREOP ≤ sChecksAndQuiz0.dev ∧ sChecksAndQuiz0.get (Obj.DOM_STATE 78) = 2
        ∧ sChecksAndQuiz0.get (Obj.CV_PERIOD_MS 1) ≠ 0 ∧ crc (sChecksAndQuiz0.get (Obj.CV_ALGORITHM 1)) [] = 0)
    ∧ (Wf.checkUnitRun 1 [] none = true ∧ (sChecksAndQuiz1.get (Obj.CV_KIND 1) = 0 → ([] : List Nat).length = sChecksAndQuiz1.get (Obj.CV_LENGTH 1))
        ∧ sChecksAndQuiz1.cvWant 1 none = some 77 ∧ Dev.PREOP ≤ sChecksAndQuiz1.dev ∧ sChecksAndQuiz1.get (Obj.DOM_STATE 78) = 2
        ∧ sChecksAndQuiz1.get (Obj.CV_PERIOD_MS 1) ≠ 0 ∧ crc (sChecksAndQuiz1.get (Obj.CV_ALGORITHM 1)) [] ≠ 77)
    ∧ (Wf.checkUnitRun 1 [49, 50, 51, 52, 53, 54, 55, 56, 57] none = true
        ∧ (sChecksAndQuiz2.get (Obj.CV_KIND 1) = 0 → [49, 50, 51, 52, 53, 54, 55, 56, 57].length = sChecksAndQuiz2.get (Obj.CV_LENGTH 1))
        ∧ sChecksAndQuiz2.cvWant 1 none = some 3808858755 ∧ sChecksAndQuiz2.admits 2 (Obj.CV_RUN 1) 1 Lvl.saf
        ∧ crc (sChecksAndQuiz2.get (Obj.CV_ALGORITHM 1)) [49, 50, 51, 52, 53, 54, 55, 56, 57] = 3808858755)
    ∧ (¬7 ∈ sSafetyWrites6.u.safe.overLimit)
    ∧ (sChecksAndQuiz3.u.safe.resync = none ∧ sChecksAndQuiz3.u.safe.slice = none ∧ 3 < sChecksAndQuiz3.get (Obj.SLICES_PER_PASS 0)
        ∧ (∀ (f e : Nat), some (0, 5) = some (f, e) → e ∈ sChecksAndQuiz3.freeEngines f) ∧ (∀ (i : Nat), i < 16 → sChecksAndQuiz3.quizDue 0 ≤ sChecksAndQuiz3.quizDue i))
    ∧ (sChecksAndQuiz3.u.safe.resync = none ∧ sChecksAndQuiz3.u.safe.slice = none ∧ 3 < sChecksAndQuiz3.get (Obj.SLICES_PER_PASS 0)
        ∧ (∀ (f e : Nat), none = some (f, e) → e ∈ sChecksAndQuiz3.freeEngines f) ∧ (∀ (i : Nat), i < 16 → sChecksAndQuiz3.quizDue 0 ≤ sChecksAndQuiz3.quizDue i))
    ∧ (sChecksAndQuiz4.u.safe.slice = some (4, 3)
        ∧ (3 :: List.filter (fun x => x != 3) (sChecksAndQuiz4.u.safe.quiz.at 4 [])).length < sChecksAndQuiz4.get (Obj.SLICES_PER_PASS 4))
    ∧ (sChecksAndQuiz5.u.safe.slice = some (4, 3)
        ∧ sChecksAndQuiz5.get (Obj.SLICES_PER_PASS 4) ≤ (3 :: List.filter (fun x => x != 3) (sChecksAndQuiz5.u.safe.quiz.at 4 [])).length
        ∧ sChecksAndQuiz5.get (Obj.QUIZ_PASSES 4) + 1 < 2 ^ 32)
    ∧ (sChecksAndQuiz4.u.safe.slice = some (4, 3) ∧ (4 ≠ 10 ∨ sChecksAndQuiz4.u.pow.failed.contains 5 = true) ∧ sChecksAndQuiz4.causeActive 8 4 = false)
    ∧ (sChecksAndQuiz6.quizDue 4 ≤ sChecksAndQuiz6.ns ∧ sChecksAndQuiz6.causeActive 7 4 = false)
    ∧ (sSafetyWrites6.ns < sSafetyWrites6.quizDue 4) := by
  iterate 4 refine ⟨by decide +kernel, ?_⟩
  iterate 2 refine ⟨by and_intros <;> first | decide +kernel | (intro f e h; cases h; try decide +kernel), ?_⟩
  iterate 4 refine ⟨by decide +kernel, ?_⟩
  decide +kernel
def sRailsStep0 : State := st (op 1 ++ [(Obj.DOM_STATE 3, 2), (Obj.DOM_RAIL_MV 3, 700)]) fun u => { u with pow := { u.pow with steps := [(3, { mv := 750, pacer := 20, oldMv := 700, oldPacer := 10, frozen := true })] } }
def stepRailsStep0 : Step := { mv := 750, pacer := 20, oldMv := 700, oldPacer := 10, frozen := true }
def sRailsStep1 : State := st (op 1 ++ [(Obj.DOM_STATE 3, 2), (Obj.DOM_RAIL_MV 3, 700)]) fun u => { u with pow := { u.pow with steps := [(3, { mv := 750, pacer := 20, oldMv := 700, oldPacer := 10 })] } }
def stepRailsStep1 : Step := { mv := 750, pacer := 20, oldMv := 700, oldPacer := 10 }
def sRailsStep2 : State := st (op 1 ++ [(Obj.DOM_STATE 3, 2), (Obj.DOM_RAIL_MV 3, 740)]) fun u => { u with pow := { u.pow with steps := [(3, { mv := 750, pacer := 20, oldMv := 700, oldPacer := 10 })] } }
def sRailsStep3 : State := opSt 1 [(Obj.DOM_STATE 3, 0)]
def sRailsStep4 : State := opSt 1 [(Obj.DOM_STATE 79, 2)]
def sRailsStep5 : State := st (op 1 ++ [(Obj.DOM_STATE 3, 2), (Obj.DOM_RAIL_MV 3, 700)]) fun u => { u with pow := { u.pow with steps := [(3, { mv := 750, pacer := 20, oldMv := 700, oldPacer := 10, droops := [0, 0, 0, 0, 0, 0, 0] })] } }
def stepRailsStep2 : Step := { mv := 750, pacer := 20, oldMv := 700, oldPacer := 10, droops := [0, 0, 0, 0, 0, 0, 0] }
def sRailsStep6 : State := st (op 1 ++ [(Obj.DOM_STATE 3, 2), (Obj.DOM_RAIL_MV 3, 710)]) fun u => { u with pow := { u.pow with steps := [(3, { mv := 750, pacer := 20, oldMv := 700, oldPacer := 10, droops := [0, 0, 0, 0, 0, 0, 0, 0] })] } }
def stepRailsStep3 : Step := { mv := 750, pacer := 20, oldMv := 700, oldPacer := 10, droops := [0, 0, 0, 0, 0, 0, 0, 0] }
def sRailsStep7 : State := opSt 1 []
def sRailsStep8 : State := st (op 1 ++ [(Obj.DOM_STATE 3, 2), (Obj.DOM_RAIL_MV 3, 750)]) fun u => { u with pow := { u.pow with steps := [(3, { mv := 750, pacer := 20, oldMv := 700, oldPacer := 10, frozen := true })] } }
def sRailsStep9 : State := st (op 1) fun u => { u with pow := { u.pow with heldOff := [3] } }

/-- States and operands that meet the hypotheses of `Obligations.RailsStep`, clause by clause. -/
theorem wit_RailsStep :
    (sRailsStep0.u.pow.steps.get? 3 = some stepRailsStep0 ∧ stepRailsStep0.frozen = true)
    ∧ (sRailsStep1.u.pow.steps.get? 3 = some stepRailsStep1 ∧ stepRailsStep1.frozen = false
        ∧ ((if sRailsStep1.get (Obj.DOM_RAIL_MV 3) < stepRailsStep1.mv then min stepRailsStep1.mv (sRailsStep1.get (Obj.DOM_RAIL_MV 3) + 10) else max stepRailsStep1.mv (sRailsStep1.get (Obj.DOM_RAIL_MV 3) - 10)) ≠ stepRailsStep1.mv))
    ∧ (sRailsStep2.u.pow.steps.get? 3 = some stepRailsStep1 ∧ stepRailsStep1.frozen = false
        ∧ ((if sRailsStep2.get (Obj.DOM_RAIL_MV 3) < stepRailsStep1.mv then min stepRailsStep1.mv (sRailsStep2.get (Obj.DOM_RAIL_MV 3) + 10) else max stepRailsStep1.mv (sRailsStep2.get (Obj.DOM_RAIL_MV 3) - 10)) = stepRailsStep1.mv))
    ∧ (sRailsStep3.powered 3 = false)
    ∧ (sRailsStep4.powered 79 = true ∧ sRailsStep4.get (Obj.DOM_DROOPS 79) + 1 < 2 ^ 32 ∧ sRailsStep4.u.pow.steps.get? 79 = none)
    ∧ (sRailsStep5.powered 3 = true ∧ sRailsStep5.get (Obj.DOM_DROOPS 3) + 1 < 2 ^ 32 ∧ sRailsStep5.u.pow.steps.get? 3 = some stepRailsStep2
        ∧ [0, 0, 0, 0, 0, 0, 0, 0] = sRailsStep5.time :: List.filter (fun t => decide (sRailsStep5.time ≤ t + 4294967296000000)) stepRailsStep2.droops
        ∧ ([0, 0, 0, 0, 0, 0, 0, 0].length ≤ 8 ∨ stepRailsStep2.back = true))
    ∧ (sRailsStep6.powered 3 = true ∧ sRailsStep6.get (Obj.DOM_DROOPS 3) + 1 < 2 ^ 32 ∧ sRailsStep6.u.pow.steps.get? 3 = some stepRailsStep3
        ∧ [0, 0, 0, 0, 0, 0, 0, 0, 0] = sRailsStep6.time :: List.filter (fun t => decide (sRailsStep6.time ≤ t + 4294967296000000)) stepRailsStep3.droops
        ∧ 8 < [0, 0, 0, 0, 0, 0, 0, 0, 0].length ∧ stepRailsStep3.back = false ∧ sRailsStep6.get (Obj.DOM_STEP_ABANDONS 3) + 1 < 2 ^ 32)
    ∧ (sRailsStep8.u.pow.steps.get? 3 = some stepRailsStep0)
    ∧ (3 ∈ sRailsStep9.u.pow.heldOff) := by
  iterate 8 refine ⟨by decide +kernel, ?_⟩
  decide +kernel
def sBudgetsAreKept0 : State := opSt 1 [(Obj.HW_CEILING_W, 90)]
def sBudgetsAreKept1 : State := opSt 1 [(Obj.BUDGET_W, 100)]
def sBudgetsAreKept2 : State := opSt 1 [(Obj.REG_PHASES_SPARE, 2)]
def sBudgetsAreKept3 : State := opSt 1 [(Obj.PLATE_MAX_C, 500)]
def sBudgetsAreKept4 : State := opSt 1 [(Obj.DOM_STATE 3, 2)]
def sBudgetsAreKept5 : State := st (op 1) fun u => { u with pow := { u.pow with clamp := true } }
def sBudgetsAreKept6 : State := working { job1 with phase := .running, place := [0], mv := 750, decl := { fields := 1, phases := [600, 700] } } [(Obj.PREFERRED_MV 3, 750)] id
def jobBudgetsAreKept0 : Job := { job1 with phase := .running, place := [0], mv := 750, decl := { fields := 1, phases := [600, 700] } }
def sBudgetsAreKept7 : State := working { job1 with phase := .running, place := [0], mayPause := false } [] id

/-- States and operands that meet the hypotheses of `Obligations.BudgetsAreKept`, clause by clause. -/
theorem wit_BudgetsAreKept :
    (Wf.budgetW 2 3 60 = true ∧ (sRailsStep7.admits 2 (if 3 = 3 then Obj.BUDGET_W else Obj.HOST_LIMIT_W) 60 (if 3 = 3 then Lvl.sup else Lvl.host))
        ∧ 60 ≤ sRailsStep7.get Obj.HW_CEILING_W)
    ∧ (Wf.budgetW 2 5 180 = true ∧ (sRailsStep7.admits 2 (if 5 = 3 then Obj.BUDGET_W else Obj.HOST_LIMIT_W) 180 (if 5 = 3 then Lvl.sup else Lvl.host))
        ∧ 180 ≤ sRailsStep7.get Obj.HW_CEILING_W)
    ∧ (Wf.budgetW 2 3 100 = true ∧ (sBudgetsAreKept0.admits 2 (if 3 = 3 then Obj.BUDGET_W else Obj.HOST_LIMIT_W) 100 (if 3 = 3 then Lvl.sup else Lvl.host))
        ∧ sBudgetsAreKept0.get Obj.HW_CEILING_W < 100)
    ∧ (sRailsStep7.admits 2 Obj.HOST_LIMIT_EN 1 Lvl.host)
    ∧ (Wf.powerSample 200000 48000 2 [(79, 500)] = true ∧ 1020 * sRailsStep7.budget < 200000)
    ∧ (Wf.powerSample 102000 48000 2 [] = true ∧ 1000 * sBudgetsAreKept1.budget ≤ 102000 ∧ 102000 ≤ 1020 * sBudgetsAreKept1.budget)
    ∧ (Wf.powerSample 5000 48000 2 [] = true ∧ 5000 < 1000 * sBudgetsAreKept1.budget)
    ∧ (¬3 ∈ sBudgetsAreKept2.u.pow.phases ∧ 0 < sBudgetsAreKept2.get Obj.REG_PHASES_SPARE)
    ∧ (400 ≤ toSigned 16 (sBudgetsAreKept3.get Obj.PLATE_MAX_C))
    ∧ (sBudgetsAreKept4.u.pow.clamp = false)
    ∧ (sBudgetsAreKept5.u.pow.clamp = true)
    ∧ (900 % 10 = 0 ∧ sRailsStep7.admits 2 (Obj.DOM_SET_MV 76) 900 Lvl.sup ∧ 74 ≤ 76 ∧ 76 ≤ 76)
    ∧ (550 % 10 = 0 ∧ sRailsStep7.admits 2 (Obj.DOM_SET_MV 5) 550 Lvl.sup ∧ (5 < 74 ∨ 76 < 5))
    ∧ (sBudgetsAreKept6.u.tt.jobs.get? 4 = some jobBudgetsAreKept0 ∧ jobBudgetsAreKept0.decl.phases[1]? = some 700 ∧ jobBudgetsAreKept0.phase = Phase.running)
    ∧ (sRailsStep7.u.tt.jobs = [] ∧ sRailsStep7.u.pow.railCap = [] ∧ sRailsStep7.u.pow.pacerCap = []) := by
  iterate 14 refine ⟨by decide +kernel, ?_⟩
  decide +kernel
def sGatesHeatAndTrips0 : State := { (opSt 1 [(Obj.DOM_STATE 75, 2)]) with time := 2000000000000000000 }
def sGatesHeatAndTrips1 : State := { st (op 1 ++ [(Obj.DOM_STATE 3, 2)]) (fun u => { u with fields := [(3, { tested := true })] }) with time := 2000000000000000000, bytes := [(slateBase 3 0 + 5, 7), (storeBase 3, 8)] }
def sGatesHeatAndTrips2 : State := opSt 1 [(Obj.DOM_STATE 79, 1)]
def sGatesHeatAndTrips3 : State := working { job1 with phase := .running, place := [3], mv := 750 } [(Obj.DOM_STATE 3, 1)] id
def sGatesHeatAndTrips4 : State := opSt 1 [(Obj.DOM_STATE 75, 1)]
def sGatesHeatAndTrips5 : State := opSt 1 [(Obj.DOM_STATE 5, 2)]
def sGatesHeatAndTrips6 : State := st (op 1) fun u => { u with pow := { u.pow with overcurrent := true }, safe := { u.safe with active := [(11 * 65536, 2)] } }
def sGatesHeatAndTrips7 : State := st (op 1) fun u => { u with pow := { u.pow with junction := true, thermtrip := true, temps := [(5, 950)] }, safe := { u.safe with active := [(11 * 65536 + 1, 2)] } }
def sGatesHeatAndTrips8 : State := st (op 1) fun u => { u with pow := { u.pow with junction := true, thermtrip := true }, safe := { u.safe with active := [(11 * 65536 + 1, 2)] } }

/-- States and operands that meet the hypotheses of `Obligations.GatesHeatAndTrips`, clause by clause. -/
theorem wit_GatesHeatAndTrips :
    (sGatesHeatAndTrips0.get (Obj.DOM_STATE 75) = 2 ∧ sGatesHeatAndTrips0.mayGate 75 = true)
    ∧ (sGatesHeatAndTrips1.get (Obj.DOM_STATE 3) = 2 ∧ sGatesHeatAndTrips1.mayGate 3 = true)
    ∧ (sGatesHeatAndTrips2.get (Obj.DOM_STATE 79) = 1 ∧ ¬79 ∈ sGatesHeatAndTrips2.u.pow.blind)
    ∧ ((3 < 66 ∨ 3 = 74 ∨ 3 = 75 ∨ 3 = 76) ∧ sGatesHeatAndTrips3.get (Obj.DOM_STATE 3) = 1 ∧ ¬3 ∈ sGatesHeatAndTrips3.u.pow.blind)
    ∧ ((75 < 66 ∨ 75 = 74 ∨ 75 = 75 ∨ 75 = 76) ∧ sGatesHeatAndTrips4.get (Obj.DOM_STATE 75) = 1 ∧ ¬75 ∈ sGatesHeatAndTrips4.u.pow.blind)
    ∧ (¬5 ∈ sRailsStep7.u.pow.failed
        ∧ ((sRailsStep7.withPow fun x => { steps := x.steps, heldOff := x.heldOff, droop := x.droop, overcurrent := x.overcurrent, junction := x.junction, clamp := x.clamp, hot := x.hot, temps := x.temps.set 5 400, failed := x.failed, stuck := x.stuck, stand := x.stand, blind := x.blind, belowMs := x.belowMs, alert := x.alert, thermtrip := x.thermtrip, plate := x.plate, railCap := x.railCap, pacerCap := x.pacerCap, diffs := x.diffs, quiet := x.quiet, phases := x.phases, statusInput := x.statusInput, statusTemp := x.statusTemp, statusCml := x.statusCml : PowS }).sending []).reading 5 < 1000)
    ∧ (¬5 ∈ sGatesHeatAndTrips5.u.pow.failed
        ∧ 1000 ≤ ((sGatesHeatAndTrips5.withPow fun x => { steps := x.steps, heldOff := x.heldOff, droop := x.droop, overcurrent := x.overcurrent, junction := x.junction, clamp := x.clamp, hot := x.hot, temps := x.temps.set 5 1003, failed := x.failed, stuck := x.stuck, stand := x.stand, blind := x.blind, belowMs := x.belowMs, alert := x.alert, thermtrip := x.thermtrip, plate := x.plate, railCap := x.railCap, pacerCap := x.pacerCap, diffs := x.diffs, quiet := x.quiet, phases := x.phases, statusInput := x.statusInput, statusTemp := x.statusTemp, statusCml := x.statusCml : PowS }).sending []).reading 5
        ∧ ¬sGatesHeatAndTrips5.hotKey 5 ∈ sGatesHeatAndTrips5.u.pow.hot)
    ∧ (sRailsStep7.u.pow.hot = [] ∧ (∀ (d : Nat), d ∈ [66, 67, 68, 69, 70, 71, 72, 77, 78, 79] → sRailsStep7.get (Obj.DOM_PACER d) = 32))
    ∧ (sRailsStep7.u.pow.overcurrent = false)
    ∧ (sGatesHeatAndTrips6.u.pow.overcurrent = true)
    ∧ (¬127 ∈ sRailsStep7.u.pow.failed ∧ sRailsStep7.u.pow.junction = false)
    ∧ (sGatesHeatAndTrips7.u.pow.junction = true ∧ (¬∀ (i : Nat), i < 128 → ¬i ∈ sGatesHeatAndTrips7.u.pow.failed → sGatesHeatAndTrips7.reading i < 950))
    ∧ (sGatesHeatAndTrips8.u.pow.junction = true ∧ (∀ (i : Nat), i < 128 → ¬i ∈ sGatesHeatAndTrips8.u.pow.failed → sGatesHeatAndTrips8.reading i < 950)) := by
  iterate 12 refine ⟨by decide +kernel, ?_⟩
  decide +kernel
def sSequencesAreEdited0 : State := editing {} [(Obj.EDIT_OP 2, 1), (Obj.EDIT_PAGE 2, 64), (Obj.EDIT_GEOMETRY 2, 64 + 65536 + 8 * 16777216)]
def sSequencesAreEdited1 : State := editing { seqs := [(196608, { seq1 with opened := false, epoch := 4294967295 })] } [(Obj.EDIT_OP 2, 1), (Obj.EDIT_PAGE 2, 128), (Obj.TILE_ALLOWANCE 3, 68), (Obj.EDIT_GEOMETRY 2, 256 + 64 * 65536 + 128 * 16777216)]
def sSequencesAreEdited2 : State := editing { seqs := [(196608, seq1)] } [(Obj.EDIT_OP 2, 1)]
def sSequencesAreEdited3 : State := editing {} [(Obj.EDIT_OP 2, 1), (Obj.EDIT_PAGE 2, 1048577), (Obj.EDIT_GEOMETRY 2, 64 + 65536 + 8 * 16777216)]
def sSequencesAreEdited4 : State := editing { seqs := [(196608, seq1)] } [(Obj.EDIT_OP 2, 2), (Obj.EDIT_PAGE 2, 4)]
def sSequencesAreEdited5 : State := editing { seqs := [(196608, seq1)] } [(Obj.EDIT_OP 2, 3), (Obj.EDIT_LENGTH 2, 33)]
def sSequencesAreEdited6 : State := editing { seqs := [(196608, seq1)] } [(Obj.EDIT_OP 2, 2), (Obj.EDIT_PAGE 2, 3)]
def sSequencesAreEdited7 : State := editing { seqs := [(196608, { seq1 with entries := [(1, page1)] })] } [(Obj.EDIT_OP 2, 2), (Obj.EDIT_PAGE 2, 1)]
def seqSequencesAreEdited0 : Seq := { seq1 with entries := [(1, page1)] }
def sSequencesAreEdited8 : State := editing { seqs := [(196608, { seq1 with entries := [(0, page1)] })] } [(Obj.EDIT_OP 2, 3), (Obj.EDIT_LENGTH 2, 6)]
def seqSequencesAreEdited1 : Seq := { seq1 with entries := [(0, page1)] }
def sSequencesAreEdited9 : State := editing { seqs := [(196608, { seq1 with entries := [(0, page1)], length := 6 })] } [(Obj.EDIT_OP 2, 3), (Obj.EDIT_LENGTH 2, 2)]
def seqSequencesAreEdited2 : Seq := { seq1 with entries := [(0, page1)], length := 6 }
def sSequencesAreEdited10 : State := editing { seqs := [(196608, seq1)] } [(Obj.EDIT_OP 2, 4)]

/-- States and operands that meet the hypotheses of `Obligations.SequencesAreEdited`, clause by clause. -/
theorem wit_SequencesAreEdited :
    ((Editor.ses 2).asks 1 sSequencesAreEdited0 = some (asked 64 0 0 0 (64 + 65536 + 8 * 16777216), [Emit.reply 2 0 []])
        ∧ sSequencesAreEdited0.get Obj.EDITS_APPLIED + 1 < 2 ^ 64
        ∧ ((asked 64 0 0 0 (64 + 65536 + 8 * 16777216)).force = true → ∀ (d : Edit), d ∈ sSequencesAreEdited0.u.seq.edits → d.key ≠ seqKey (asked 64 0 0 0 (64 + 65536 + 8 * 16777216)).ctx (asked 64 0 0 0 (64 + 65536 + 8 * 16777216)).seq)
        ∧ (∀ (d : Nat), sSequencesAreEdited0.seqDir (asked 64 0 0 0 (64 + 65536 + 8 * 16777216)).ctx (asked 64 0 0 0 (64 + 65536 + 8 * 16777216)).seq = some d → sSequencesAreEdited0.plainTile d)
        ∧ sSequencesAreEdited0.seqAt (seqKey (asked 64 0 0 0 (64 + 65536 + 8 * 16777216)).ctx (asked 64 0 0 0 (64 + 65536 + 8 * 16777216)).seq) = none
        ∧ (∀ (p : Machine.Seq), none = some p → p.opened = false) ∧ (asked 64 0 0 0 (64 + 65536 + 8 * 16777216)).geometry % 65536 ∈ [64, 128, 256]
        ∧ 0 < (asked 64 0 0 0 (64 + 65536 + 8 * 16777216)).geometry / 65536 % 256 ∧ (asked 64 0 0 0 (64 + 65536 + 8 * 16777216)).geometry / 65536 % 256 ≤ 64
        ∧ (asked 64 0 0 0 (64 + 65536 + 8 * 16777216)).geometry / 16777216 % 256 ∈ [8, 16, 32, 64, 128] ∧ 0 < (asked 64 0 0 0 (64 + 65536 + 8 * 16777216)).page
        ∧ (asked 64 0 0 0 (64 + 65536 + 8 * 16777216)).page ≤ 1048576
        ∧ (sSequencesAreEdited0.seqDir (asked 64 0 0 0 (64 + 65536 + 8 * 16777216)).ctx (asked 64 0 0 0 (64 + 65536 + 8 * 16777216)).seq).isSome = true
        ∧ sSequencesAreEdited0.allocFault (asked 64 0 0 0 (64 + 65536 + 8 * 16777216)).ctx (ceilDiv ((asked 64 0 0 0 (64 + 65536 + 8 * 16777216)).page * ((asked 64 0 0 0 (64 + 65536 + 8 * 16777216)).geometry / 65536 % 256)) 128) = none
        ∧ (∀ (h : Home), h ∈ (sSequencesAreEdited0.newHomes (ceilDiv ((asked 64 0 0 0 (64 + 65536 + 8 * 16777216)).page * ((asked 64 0 0 0 (64 + 65536 + 8 * 16777216)).geometry / 65536 % 256)) 128)).fst → ∃ k, h = Home.slot k))
    ∧ ((Editor.ses 2).asks 1 sSequencesAreEdited1 = some (asked 128 0 0 0 (256 + 64 * 65536 + 128 * 16777216), [Emit.reply 2 0 []])
        ∧ sSequencesAreEdited1.get Obj.EDITS_APPLIED + 1 < 2 ^ 64
        ∧ ((asked 128 0 0 0 (256 + 64 * 65536 + 128 * 16777216)).force = true → ∀ (d : Edit), d ∈ sSequencesAreEdited1.u.seq.edits → d.key ≠ seqKey (asked 128 0 0 0 (256 + 64 * 65536 + 128 * 16777216)).ctx (asked 128 0 0 0 (256 + 64 * 65536 + 128 * 16777216)).seq)
        ∧ (∀ (d : Nat), sSequencesAreEdited1.seqDir (asked 128 0 0 0 (256 + 64 * 65536 + 128 * 16777216)).ctx (asked 128 0 0 0 (256 + 64 * 65536 + 128 * 16777216)).seq = some d → sSequencesAreEdited1.plainTile d)
        ∧ sSequencesAreEdited1.seqAt (seqKey (asked 128 0 0 0 (256 + 64 * 65536 + 128 * 16777216)).ctx (asked 128 0 0 0 (256 + 64 * 65536 + 128 * 16777216)).seq) = some (let __src := seq1; { opened := false, closing := __src.closing, length := __src.length, epoch := 4294967295, table := __src.table, tiles := __src.tiles, d := __src.d, heads := __src.heads, t := __src.t, capacity := __src.capacity, books := __src.books, entries := __src.entries : Machine.Seq })
        ∧ (∀ (p : Machine.Seq), some (let __src := seq1; { opened := false, closing := __src.closing, length := __src.length, epoch := 4294967295, table := __src.table, tiles := __src.tiles, d := __src.d, heads := __src.heads, t := __src.t, capacity := __src.capacity, books := __src.books, entries := __src.entries : Machine.Seq }) = some p → p.opened = false)
        ∧ (asked 128 0 0 0 (256 + 64 * 65536 + 128 * 16777216)).geometry % 65536 ∈ [64, 128, 256]
        ∧ 0 < (asked 128 0 0 0 (256 + 64 * 65536 + 128 * 16777216)).geometry / 65536 % 256
        ∧ (asked 128 0 0 0 (256 + 64 * 65536 + 128 * 16777216)).geometry / 65536 % 256 ≤ 64
        ∧ (asked 128 0 0 0 (256 + 64 * 65536 + 128 * 16777216)).geometry / 16777216 % 256 ∈ [8, 16, 32, 64, 128]
        ∧ 0 < (asked 128 0 0 0 (256 + 64 * 65536 + 128 * 16777216)).page ∧ (asked 128 0 0 0 (256 + 64 * 65536 + 128 * 16777216)).page ≤ 1048576
        ∧ (sSequencesAreEdited1.seqDir (asked 128 0 0 0 (256 + 64 * 65536 + 128 * 16777216)).ctx (asked 128 0 0 0 (256 + 64 * 65536 + 128 * 16777216)).seq).isSome = true
        ∧ sSequencesAreEdited1.allocFault (asked 128 0 0 0 (256 + 64 * 65536 + 128 * 16777216)).ctx (ceilDiv ((asked 128 0 0 0 (256 + 64 * 65536 + 128 * 16777216)).page * ((asked 128 0 0 0 (256 + 64 * 65536 + 128 * 16777216)).geometry / 65536 % 256)) 128) = none
        ∧ (∀ (h : Home), h ∈ (sSequencesAreEdited1.newHomes (ceilDiv ((asked 128 0 0 0 (256 + 64 * 65536 + 128 * 16777216)).page * ((asked 128 0 0 0 (256 + 64 * 65536 + 128 * 16777216)).geometry / 65536 % 256)) 128)).fst → ∃ k, h = Home.slot k))
    ∧ ((Editor.ses 2).asks 1 sSequencesAreEdited2 = some (asked 0 0 0 0 0, [Emit.reply 2 0 []]) ∧ sSequencesAreEdited2.get Obj.EDITS_APPLIED + 1 < 2 ^ 64
        ∧ ((asked 0 0 0 0 0).force = true → ∀ (d : Edit), d ∈ sSequencesAreEdited2.u.seq.edits → d.key ≠ seqKey (asked 0 0 0 0 0).ctx (asked 0 0 0 0 0).seq)
        ∧ (∀ (d : Nat), sSequencesAreEdited2.seqDir (asked 0 0 0 0 0).ctx (asked 0 0 0 0 0).seq = some d → sSequencesAreEdited2.plainTile d)
        ∧ ((1 = 1 ∧ ∃ x, sSequencesAreEdited2.seqAt (seqKey (asked 0 0 0 0 0).ctx (asked 0 0 0 0 0).seq) = some x ∧ x.opened = true) ∨ 1 ∈ [2, 3, 4] ∧ ∀ (x : Machine.Seq), sSequencesAreEdited2.seqAt (seqKey (asked 0 0 0 0 0).ctx (asked 0 0 0 0 0).seq) = some x → x.opened = false ∨ x.closing = true)
        ∧ (Instr.seqOpen (Editor.ses 2), 1) ∈ [(Instr.seqOpen (Editor.ses 2), 1), (Instr.seqWriteEntry (Editor.ses 2), 2), (Instr.seqSetLength (Editor.ses 2), 3), (Instr.seqClose (Editor.ses 2), 4)])
    ∧ ((Editor.ses 2).asks 1 sSequencesAreEdited3 = some (asked 1048577 0 0 0 (64 + 65536 + 8 * 16777216), [Emit.reply 2 0 []])
        ∧ sSequencesAreEdited3.get Obj.EDITS_APPLIED + 1 < 2 ^ 64
        ∧ ((asked 1048577 0 0 0 (64 + 65536 + 8 * 16777216)).force = true → ∀ (d : Edit), d ∈ sSequencesAreEdited3.u.seq.edits → d.key ≠ seqKey (asked 1048577 0 0 0 (64 + 65536 + 8 * 16777216)).ctx (asked 1048577 0 0 0 (64 + 65536 + 8 * 16777216)).seq)
        ∧ (∀ (d : Nat), sSequencesAreEdited3.seqDir (asked 1048577 0 0 0 (64 + 65536 + 8 * 16777216)).ctx (asked 1048577 0 0 0 (64 + 65536 + 8 * 16777216)).seq = some d → sSequencesAreEdited3.plainTile d)
        ∧ (∀ (x : Machine.Seq), sSequencesAreEdited3.seqAt (seqKey (asked 1048577 0 0 0 (64 + 65536 + 8 * 16777216)).ctx (asked 1048577 0 0 0 (64 + 65536 + 8 * 16777216)).seq) = some x → x.opened = false)
        ∧ (¬(asked 1048577 0 0 0 (64 + 65536 + 8 * 16777216)).geometry % 65536 ∈ [64, 128, 256] ∨ (asked 1048577 0 0 0 (64 + 65536 + 8 * 16777216)).geometry / 65536 % 256 = 0 ∨ 64 < (asked 1048577 0 0 0 (64 + 65536 + 8 * 16777216)).geometry / 65536 % 256 ∨ ¬(asked 1048577 0 0 0 (64 + 65536 + 8 * 16777216)).geometry / 16777216 % 256 ∈ [8, 16, 32, 64, 128] ∨ (asked 1048577 0 0 0 (64 + 65536 + 8 * 16777216)).page = 0 ∨ 1048576 < (asked 1048577 0 0 0 (64 + 65536 + 8 * 16777216)).page ∨ sSequencesAreEdited3.seqDir (asked 1048577 0 0 0 (64 + 65536 + 8 * 16777216)).ctx (asked 1048577 0 0 0 (64 + 65536 + 8 * 16777216)).seq = none))
    ∧ ((Editor.ses 2).asks 2 sSequencesAreEdited4 = some (asked 4 0 0 0 0, [Emit.reply 2 0 []]) ∧ sSequencesAreEdited4.get Obj.EDITS_APPLIED + 1 < 2 ^ 64
        ∧ ((asked 4 0 0 0 0).force = true → ∀ (d : Edit), d ∈ sSequencesAreEdited4.u.seq.edits → d.key ≠ seqKey (asked 4 0 0 0 0).ctx (asked 4 0 0 0 0).seq)
        ∧ (∀ (d : Nat), sSequencesAreEdited4.seqDir (asked 4 0 0 0 0).ctx (asked 4 0 0 0 0).seq = some d → sSequencesAreEdited4.plainTile d)
        ∧ sSequencesAreEdited4.seqAt (seqKey (asked 4 0 0 0 0).ctx (asked 4 0 0 0 0).seq) = some seq1 ∧ seq1.opened = true ∧ seq1.closing = false
        ∧ (seq1.heads ≤ (asked 4 0 0 0 0).head ∨ seq1.capacity ≤ (asked 4 0 0 0 0).page ∨ sSequencesAreEdited4.pageOk (asked 4 0 0 0 0).ctx seq1 (asked 4 0 0 0 0).k ((asked 4 0 0 0 0).formats % 16) true = false ∨ sSequencesAreEdited4.pageOk (asked 4 0 0 0 0).ctx seq1 (asked 4 0 0 0 0).v ((asked 4 0 0 0 0).formats / 16 % 16) false = false))
    ∧ ((Editor.ses 2).asks 3 sSequencesAreEdited5 = some (asked 0 0 33 0 0, [Emit.reply 2 0 []]) ∧ sSequencesAreEdited5.get Obj.EDITS_APPLIED + 1 < 2 ^ 64
        ∧ ((asked 0 0 33 0 0).force = true → ∀ (d : Edit), d ∈ sSequencesAreEdited5.u.seq.edits → d.key ≠ seqKey (asked 0 0 33 0 0).ctx (asked 0 0 33 0 0).seq)
        ∧ (∀ (d : Nat), sSequencesAreEdited5.seqDir (asked 0 0 33 0 0).ctx (asked 0 0 33 0 0).seq = some d → sSequencesAreEdited5.plainTile d)
        ∧ sSequencesAreEdited5.seqAt (seqKey (asked 0 0 33 0 0).ctx (asked 0 0 33 0 0).seq) = some seq1 ∧ seq1.opened = true ∧ seq1.closing = false
        ∧ seq1.length ≤ (asked 0 0 33 0 0).length
        ∧ (seq1.capacity * seq1.t < (asked 0 0 33 0 0).length ∨ ∃ i, i < ceilDiv (asked 0 0 33 0 0).length seq1.t * seq1.heads ∧ seq1.entries.get? i = none))
    ∧ ((Editor.ses 2).asks 2 sSequencesAreEdited6 = some (asked 3 0 0 0 0, [Emit.reply 2 0 []]) ∧ sSequencesAreEdited6.get Obj.EDITS_APPLIED + 1 < 2 ^ 64
        ∧ ((asked 3 0 0 0 0).force = true → ∀ (d : Edit), d ∈ sSequencesAreEdited6.u.seq.edits → d.key ≠ seqKey (asked 3 0 0 0 0).ctx (asked 3 0 0 0 0).seq)
        ∧ (∀ (d : Nat), sSequencesAreEdited6.seqDir (asked 3 0 0 0 0).ctx (asked 3 0 0 0 0).seq = some d → sSequencesAreEdited6.plainTile d)
        ∧ sSequencesAreEdited6.seqAt (seqKey (asked 3 0 0 0 0).ctx (asked 3 0 0 0 0).seq) = some seq1 ∧ seq1.opened = true ∧ seq1.closing = false
        ∧ sSequencesAreEdited6.plainTile (seq1.table + ((asked 3 0 0 0 0).page * seq1.heads + (asked 3 0 0 0 0).head) / 128) ∧ (asked 3 0 0 0 0).head < seq1.heads
        ∧ (asked 3 0 0 0 0).page < seq1.capacity ∧ sSequencesAreEdited6.pageOk (asked 3 0 0 0 0).ctx seq1 (asked 3 0 0 0 0).k ((asked 3 0 0 0 0).formats % 16) true = true
        ∧ sSequencesAreEdited6.pageOk (asked 3 0 0 0 0).ctx seq1 (asked 3 0 0 0 0).v ((asked 3 0 0 0 0).formats / 16 % 16) false = true
        ∧ seq1.entries.get? ((asked 3 0 0 0 0).page * seq1.heads + (asked 3 0 0 0 0).head) = none)
    ∧ ((Editor.ses 2).asks 2 sSequencesAreEdited7 = some (asked 1 0 0 0 0, [Emit.reply 2 0 []]) ∧ sSequencesAreEdited7.get Obj.EDITS_APPLIED + 1 < 2 ^ 64
        ∧ ((asked 1 0 0 0 0).force = true → ∀ (d : Edit), d ∈ sSequencesAreEdited7.u.seq.edits → d.key ≠ seqKey (asked 1 0 0 0 0).ctx (asked 1 0 0 0 0).seq)
        ∧ (∀ (d : Nat), sSequencesAreEdited7.seqDir (asked 1 0 0 0 0).ctx (asked 1 0 0 0 0).seq = some d → sSequencesAreEdited7.plainTile d)
        ∧ sSequencesAreEdited7.seqAt (seqKey (asked 1 0 0 0 0).ctx (asked 1 0 0 0 0).seq) = some seqSequencesAreEdited0 ∧ seqSequencesAreEdited0.opened = true
        ∧ seqSequencesAreEdited0.closing = false
        ∧ sSequencesAreEdited7.plainTile (seqSequencesAreEdited0.table + ((asked 1 0 0 0 0).page * seqSequencesAreEdited0.heads + (asked 1 0 0 0 0).head) / 128)
        ∧ (asked 1 0 0 0 0).head < seqSequencesAreEdited0.heads ∧ (asked 1 0 0 0 0).page < seqSequencesAreEdited0.capacity
        ∧ sSequencesAreEdited7.pageOk (asked 1 0 0 0 0).ctx seqSequencesAreEdited0 (asked 1 0 0 0 0).k ((asked 1 0 0 0 0).formats % 16) true = true
        ∧ sSequencesAreEdited7.pageOk (asked 1 0 0 0 0).ctx seqSequencesAreEdited0 (asked 1 0 0 0 0).v ((asked 1 0 0 0 0).formats / 16 % 16) false = true
        ∧ seqSequencesAreEdited0.entries.get? ((asked 1 0 0 0 0).page * seqSequencesAreEdited0.heads + (asked 1 0 0 0 0).head) = some page1
        ∧ (∀ (w : Walk), w ∈ sSequencesAreEdited7.walksOn (seqKey (asked 1 0 0 0 0).ctx (asked 1 0 0 0 0).seq) → w.len ≤ (asked 1 0 0 0 0).page * seqSequencesAreEdited0.t))
    ∧ ((Editor.ses 2).asks 3 sSequencesAreEdited8 = some (asked 0 0 6 0 0, [Emit.reply 2 0 []]) ∧ sSequencesAreEdited8.get Obj.EDITS_APPLIED + 1 < 2 ^ 64
        ∧ ((asked 0 0 6 0 0).force = true → ∀ (d : Edit), d ∈ sSequencesAreEdited8.u.seq.edits → d.key ≠ seqKey (asked 0 0 6 0 0).ctx (asked 0 0 6 0 0).seq)
        ∧ (∀ (d : Nat), sSequencesAreEdited8.seqDir (asked 0 0 6 0 0).ctx (asked 0 0 6 0 0).seq = some d → sSequencesAreEdited8.plainTile d)
        ∧ sSequencesAreEdited8.seqAt (seqKey (asked 0 0 6 0 0).ctx (asked 0 0 6 0 0).seq) = some seqSequencesAreEdited1 ∧ seqSequencesAreEdited1.opened = true
        ∧ seqSequencesAreEdited1.closing = false
        ∧ ((seqSequencesAreEdited1.length ≤ (asked 0 0 6 0 0).length ∧ (asked 0 0 6 0 0).length ≤ seqSequencesAreEdited1.capacity * seqSequencesAreEdited1.t ∧ ∀ (i : Nat), i < ceilDiv (asked 0 0 6 0 0).length seqSequencesAreEdited1.t * seqSequencesAreEdited1.heads → (seqSequencesAreEdited1.entries.get? i).isSome = true) ∨ (asked 0 0 6 0 0).length < seqSequencesAreEdited1.length ∧ ∀ (w : Walk), w ∈ sSequencesAreEdited8.walksOn (seqKey (asked 0 0 6 0 0).ctx (asked 0 0 6 0 0).seq) → w.len ≤ (asked 0 0 6 0 0).length))
    ∧ ((Editor.ses 2).asks 3 sSequencesAreEdited9 = some (asked 0 0 2 0 0, [Emit.reply 2 0 []]) ∧ sSequencesAreEdited9.get Obj.EDITS_APPLIED + 1 < 2 ^ 64
        ∧ ((asked 0 0 2 0 0).force = true → ∀ (d : Edit), d ∈ sSequencesAreEdited9.u.seq.edits → d.key ≠ seqKey (asked 0 0 2 0 0).ctx (asked 0 0 2 0 0).seq)
        ∧ (∀ (d : Nat), sSequencesAreEdited9.seqDir (asked 0 0 2 0 0).ctx (asked 0 0 2 0 0).seq = some d → sSequencesAreEdited9.plainTile d)
        ∧ sSequencesAreEdited9.seqAt (seqKey (asked 0 0 2 0 0).ctx (asked 0 0 2 0 0).seq) = some seqSequencesAreEdited2 ∧ seqSequencesAreEdited2.opened = true
        ∧ seqSequencesAreEdited2.closing = false
        ∧ ((seqSequencesAreEdited2.length ≤ (asked 0 0 2 0 0).length ∧ (asked 0 0 2 0 0).length ≤ seqSequencesAreEdited2.capacity * seqSequencesAreEdited2.t ∧ ∀ (i : Nat), i < ceilDiv (asked 0 0 2 0 0).length seqSequencesAreEdited2.t * seqSequencesAreEdited2.heads → (seqSequencesAreEdited2.entries.get? i).isSome = true) ∨ (asked 0 0 2 0 0).length < seqSequencesAreEdited2.length ∧ ∀ (w : Walk), w ∈ sSequencesAreEdited9.walksOn (seqKey (asked 0 0 2 0 0).ctx (asked 0 0 2 0 0).seq) → w.len ≤ (asked 0 0 2 0 0).length))
    ∧ ((Editor.ses 2).asks 4 sSequencesAreEdited10 = some (asked 0 0 0 0 0, [Emit.reply 2 0 []]) ∧ sSequencesAreEdited10.get Obj.EDITS_APPLIED + 1 < 2 ^ 64
        ∧ ((asked 0 0 0 0 0).force = true → ∀ (d : Edit), d ∈ sSequencesAreEdited10.u.seq.edits → d.key ≠ seqKey (asked 0 0 0 0 0).ctx (asked 0 0 0 0 0).seq)
        ∧ (∀ (d : Nat), sSequencesAreEdited10.seqDir (asked 0 0 0 0 0).ctx (asked 0 0 0 0 0).seq = some d → sSequencesAreEdited10.plainTile d)
        ∧ sSequencesAreEdited10.seqAt (seqKey (asked 0 0 0 0 0).ctx (asked 0 0 0 0 0).seq) = some seq1 ∧ seq1.opened = true ∧ seq1.closing = false
        ∧ sSequencesAreEdited10.walksOn (seqKey (asked 0 0 0 0 0).ctx (asked 0 0 0 0 0).seq) = []) := by
  iterate 2 refine ⟨by and_intros <;> first | decide +kernel | (refine all_plain _ _ ?_; decide +kernel) | (refine all_slots _ ?_; decide +kernel), ?_⟩
  iterate 4 refine ⟨by and_intros <;> first | decide +kernel | (refine all_plain _ _ ?_; decide +kernel), ?_⟩
  iterate 2 refine ⟨by and_intros <;> first | decide +kernel | (refine all_plain _ _ ?_; decide +kernel) | (refine plain_tile _ _ ?_; decide +kernel), ?_⟩
  iterate 2 refine ⟨by and_intros <;> first | decide +kernel | (refine all_plain _ _ ?_; decide +kernel), ?_⟩
  and_intros <;> first | decide +kernel | (refine all_plain _ _ ?_; decide +kernel)
def sEditsWaitForWalks0 : State := editing { seqs := [(196608, { seq1 with entries := [(0, page1)], length := 6 })], walks := [⟨4, 196608, 6, 0⟩] } [(Obj.EDIT_OP 2, 3), (Obj.EDIT_LENGTH 2, 2)]
def sEditsWaitForWalks1 : State := editing { seqs := [(196608, { seq1 with entries := [(0, page1)], length := 6 })], walks := [⟨4, 196608, 6, 0⟩] } [(Obj.EDIT_OP 2, 3), (Obj.EDIT_LENGTH 2, 2), (Obj.DEFERRED_LIMIT, 0)]
def sEditsWaitForWalks2 : State := (editing { seqs := [(196608, { seq1 with entries := [(0, page1)], length := 6 })], walks := [⟨4, 196608, 6, 0⟩] } [(Obj.EDIT_OP 2, 3), (Obj.EDIT_LENGTH 2, 2), (Obj.EDIT_FORCE 2, 1)]).withUnits fun u => { u with tt := { u.tt with jobs := [(4, { job1 with phase := .running })], runs := [(6, run1)], nextRun := 7, nextJob := 5 } }
def sEditsWaitForWalks3 : State := editing { edits := [{ key := 196608, epoch := 1, old := .length 6, ses := none, job := some 4, noLimit := false }] } []
def sEditsWaitForWalks4 : State := (editing { seqs := [(196608, { seq1 with entries := [(0, page1)], length := 6 })], walks := [⟨4, 196608, 6, 0⟩] } []).withUnits fun u => { u with fields := [(0, { lab := [(3, 0, 0, 0)] })], tt := { u.tt with jobs := [(4, job1)], runs := [(6, run1)] } }
def sEditsWaitForWalks5 : State := (editing { seqs := [(196608, { seq1 with entries := [(0, page1)], length := 6 })], walks := [⟨4, 196608, 6, 0⟩] } []).withUnits fun u => { u with tt := { u.tt with jobs := [(4, job1)], runs := [(6, run1)] } }

/-- States and operands that meet the hypotheses of `Obligations.EditsWaitForWalks`, clause by clause. -/
theorem wit_EditsWaitForWalks :
    ((Editor.ses 2).asks 3 sEditsWaitForWalks0 = some (asked 0 0 2 0 0, [Emit.reply 2 0 []])
        ∧ sEditsWaitForWalks0.seqAt (seqKey (asked 0 0 2 0 0).ctx (asked 0 0 2 0 0).seq) = some seqSequencesAreEdited2 ∧ seqSequencesAreEdited2.opened = true
        ∧ seqSequencesAreEdited2.closing = false ∧ (asked 0 0 2 0 0).force = false ∧ (asked 0 0 2 0 0).length < seqSequencesAreEdited2.length
        ∧ (∃ w, w ∈ sEditsWaitForWalks0.walksOn (seqKey (asked 0 0 2 0 0).ctx (asked 0 0 2 0 0).seq) ∧ (asked 0 0 2 0 0).length < w.len)
        ∧ (∀ (d : Nat), sEditsWaitForWalks0.seqDir (asked 0 0 2 0 0).ctx (asked 0 0 2 0 0).seq = some d → sEditsWaitForWalks0.plainTile d)
        ∧ sEditsWaitForWalks0.u.seq.edits.length < sEditsWaitForWalks0.get Obj.DEFERRED_LIMIT)
    ∧ ((Editor.ses 2).asks 3 sEditsWaitForWalks1 = some (asked 0 0 2 0 0, [Emit.reply 2 0 []])
        ∧ sEditsWaitForWalks1.seqAt (seqKey (asked 0 0 2 0 0).ctx (asked 0 0 2 0 0).seq) = some seqSequencesAreEdited2 ∧ seqSequencesAreEdited2.opened = true
        ∧ seqSequencesAreEdited2.closing = false ∧ (asked 0 0 2 0 0).force = false ∧ (asked 0 0 2 0 0).length < seqSequencesAreEdited2.length
        ∧ (∃ w, w ∈ sEditsWaitForWalks1.walksOn (seqKey (asked 0 0 2 0 0).ctx (asked 0 0 2 0 0).seq) ∧ (asked 0 0 2 0 0).length < w.len)
        ∧ (∀ (d : Nat), sEditsWaitForWalks1.seqDir (asked 0 0 2 0 0).ctx (asked 0 0 2 0 0).seq = some d → sEditsWaitForWalks1.plainTile d)
        ∧ sEditsWaitForWalks1.get Obj.DEFERRED_LIMIT ≤ sEditsWaitForWalks1.u.seq.edits.length ∧ sEditsWaitForWalks1.get Obj.EDITS_REFUSED + 1 < 2 ^ 32)
    ∧ ((Editor.ses 2).asks 3 sEditsWaitForWalks2 = some (asked 0 0 2 1 0, [Emit.reply 2 0 []])
        ∧ sEditsWaitForWalks2.seqAt (seqKey (asked 0 0 2 1 0).ctx (asked 0 0 2 1 0).seq) = some seqSequencesAreEdited2 ∧ seqSequencesAreEdited2.opened = true
        ∧ seqSequencesAreEdited2.closing = false ∧ (asked 0 0 2 1 0).force = true ∧ (asked 0 0 2 1 0).length < seqSequencesAreEdited2.length
        ∧ List.filter (fun w => decide ((asked 0 0 2 1 0).length < w.len)) (sEditsWaitForWalks2.walksOn (seqKey (asked 0 0 2 1 0).ctx (asked 0 0 2 1 0).seq)) ≠ []
        ∧ (∀ (w : Walk), w ∈ List.filter (fun w => decide ((asked 0 0 2 1 0).length < w.len)) (sEditsWaitForWalks2.walksOn (seqKey (asked 0 0 2 1 0).ctx (asked 0 0 2 1 0).seq)) → (sEditsWaitForWalks2.u.tt.jobs.get? w.job).isSome = true)
        ∧ (∀ (d : Edit), d ∈ sEditsWaitForWalks2.u.seq.edits → d.key ≠ seqKey (asked 0 0 2 1 0).ctx (asked 0 0 2 1 0).seq))
    ∧ (sEditsWaitForWalks4.u.tt.jobs.get? 4 = some job1
        ∧ List.find? (fun w => decide (w.job = 4)) (sEditsWaitForWalks4.walksOn (seqKey job1.ctx 0)) = some { job := 4, key := 196608, len := 6, epoch := 0 : Walk }
        ∧ (job1.ctx, 0, 0, { job := 4, key := 196608, len := 6, epoch := 0 : Walk }.epoch) ∈ (sEditsWaitForWalks4.fieldRec 0).lab)
    ∧ (sEditsWaitForWalks5.u.tt.jobs.get? 4 = some job1
        ∧ List.find? (fun w => decide (w.job = 4)) (sEditsWaitForWalks5.walksOn (seqKey job1.ctx 0)) = some { job := 4, key := 196608, len := 6, epoch := 0 : Walk }
        ∧ ¬(job1.ctx, 0, 0, { job := 4, key := 196608, len := 6, epoch := 0 : Walk }.epoch) ∈ (sEditsWaitForWalks5.fieldRec 65).lab
        ∧ sEditsWaitForWalks5.entryFor (seqKey job1.ctx 0) 0 { job := 4, key := 196608, len := 6, epoch := 0 : Walk }.epoch = some page1
        ∧ sEditsWaitForWalks5.seqAt (seqKey job1.ctx 0) = some seqSequencesAreEdited2 ∧ sEditsWaitForWalks5.lossOf (seqSequencesAreEdited2.table + 0 / 128) = none
        ∧ ((List.filter (fun t => decide (t.fst ≠ job1.ctx ∨ t.snd.fst ≠ 0 ∨ t.snd.snd.fst ≠ 0)) (sEditsWaitForWalks5.fieldRec 65).lab).length = (sEditsWaitForWalks5.fieldRec 65).lab.length)
        ∧ sEditsWaitForWalks5.pageOk job1.ctx seqSequencesAreEdited2 page1.k page1.kf true = true
        ∧ sEditsWaitForWalks5.pageOk job1.ctx seqSequencesAreEdited2 page1.v page1.vf false = true)
    ∧ (sEditsWaitForWalks5.u.tt.jobs.get? 4 = some job1
        ∧ List.find? (fun w => decide (w.job = 4)) (sEditsWaitForWalks5.walksOn (seqKey job1.ctx 0)) = some { job := 4, key := 196608, len := 6, epoch := 0 : Walk }
        ∧ ¬(job1.ctx, 0, 0, { job := 4, key := 196608, len := 6, epoch := 0 : Walk }.epoch) ∈ (sEditsWaitForWalks5.fieldRec 65).lab
        ∧ sEditsWaitForWalks5.entryFor (seqKey job1.ctx 0) 0 { job := 4, key := 196608, len := 6, epoch := 0 : Walk }.epoch = some page1
        ∧ sEditsWaitForWalks5.seqAt (seqKey job1.ctx 0) = some seqSequencesAreEdited2 ∧ sEditsWaitForWalks5.lossOf (seqSequencesAreEdited2.table + 0 / 128) = none) := by
  iterate 2 refine ⟨by and_intros <;> first | decide +kernel | (refine all_plain _ _ ?_; decide +kernel), ?_⟩
  iterate 3 refine ⟨by decide +kernel, ?_⟩
  decide +kernel
def sStreamsTakeCommands0 : State := flowing { chunk := some 4 } [(Obj.STREAM_STATE 5, 2)]
def sStreamsTakeCommands1 : State := flowing { applied := true } [(Obj.STATE_ELEMENTS 5, 1048576)]
def sStreamsTakeCommands2 : State := flowing { applied := true } []
def sStreamsTakeCommands3 : State := flowing { applied := true } [(Obj.STREAM_STATE 5, 1)]
def sStreamsTakeCommands4 : State := flowing { applied := true } [(Obj.STREAM_STATE 5, 3)]
def sStreamsTakeCommands5 : State := flowing { applied := true, home := (20, 1) } [(Obj.STREAM_STATE 5, 3), (Obj.STEP_COUNT 5, 9)]
def sStreamsTakeCommands6 : State := flowing { applied := true, data := [1, 2], ckpt := some (30, 1) } [(Obj.STREAM_STATE 5, 1), (Obj.STEP_COUNT 5, 9)]
def sStreamsTakeCommands7 : State := flowing { applied := true, data := [1, 2], ckpt := some (30, 1), ckptData := [5] } [(Obj.STREAM_STATE 5, 4), (Obj.STEP_COUNT 5, 9), (Obj.CHECKPOINT_STEP 5, 7)]
def sStreamsTakeCommands8 : State := flowing { applied := true } [(Obj.STREAM_STATE 5, 1), (Obj.RESIDENCY_MODE 5, 1), (Obj.RESIDENCY_NOW 5, 1), (Obj.STATE_FIELD 5, 2)]
def sStreamsTakeCommands9 : State := flowing { applied := true } [(Obj.STREAM_STATE 5, 1), (Obj.RESIDENCY_MODE 5, 1), (Obj.DOM_STATE 2, 2)]

/-- States and operands that meet the hypotheses of `Obligations.StreamsTakeCommands`, clause by clause. -/
theorem wit_StreamsTakeCommands :
    ((sStreamsTakeCommands0.get (Obj.STREAM_STATE 5) = 0 ∨ bit (sStreamsTakeCommands0.get (Obj.ADMIT_SESSIONS (sStreamsTakeCommands0.get (Obj.S_CONTEXT 5)))) 2 = true)
        ∧ sStreamsTakeCommands0.get (Obj.PENDING_COMMAND 5) = 0
        ∧ (Instr.streamStart 2 5, 1) ∈ [(Instr.streamStart 2 5, 1), (Instr.streamPause 2 5, 2), (Instr.streamResume 2 5, 3), (Instr.streamReset 2 5, 4), (Instr.streamEnd 2 5, 5), (Instr.streamCheckpoint 2 5, 6), (Instr.streamRestore 2 5, 7), (Instr.streamEvict 2 5, 8)]
        ∧ sStreamsTakeCommands0.admits 2 (Obj.STREAM_COMMAND 5) 1 Lvl.host ∧ sStreamsTakeCommands0.streamAllows 5 1 = false)
    ∧ ((sStreamsTakeCommands0.get (Obj.STREAM_STATE 5) = 0 ∨ bit (sStreamsTakeCommands0.get (Obj.ADMIT_SESSIONS (sStreamsTakeCommands0.get (Obj.S_CONTEXT 5)))) 2 = true)
        ∧ sStreamsTakeCommands0.get (Obj.PENDING_COMMAND 5) = 0
        ∧ (Instr.streamReset 2 5, 4) ∈ [(Instr.streamPause 2 5, 2), (Instr.streamResume 2 5, 3), (Instr.streamReset 2 5, 4), (Instr.streamEnd 2 5, 5), (Instr.streamCheckpoint 2 5, 6), (Instr.streamRestore 2 5, 7), (Instr.streamEvict 2 5, 8)]
        ∧ sStreamsTakeCommands0.admits 2 (Obj.STREAM_COMMAND 5) 4 Lvl.host ∧ sStreamsTakeCommands0.streamAllows 5 4 = true
        ∧ (sStreamsTakeCommands0.stream 5).chunk.isSome = true)
    ∧ ((sStreamsTakeCommands1.get (Obj.STREAM_STATE 5) = 0 ∨ bit (sStreamsTakeCommands1.get (Obj.ADMIT_SESSIONS (sStreamsTakeCommands1.get (Obj.S_CONTEXT 5)))) 2 = true)
        ∧ sStreamsTakeCommands1.get (Obj.PENDING_COMMAND 5) = 0 ∧ (sStreamsTakeCommands1.stream 5).chunk = none
        ∧ sStreamsTakeCommands1.admits 2 (Obj.STREAM_COMMAND 5) 1 Lvl.host ∧ sStreamsTakeCommands1.streamAllows 5 1 = true ∧ sStreamsTakeCommands1.homeTiles 5 ≠ 0
        ∧ sStreamsTakeCommands1.allocFault (sStreamsTakeCommands1.get (Obj.S_CONTEXT 5)) (sStreamsTakeCommands1.homeTiles 5) = some 1024)
    ∧ ((sStreamsTakeCommands2.get (Obj.STREAM_STATE 5) = 0 ∨ bit (sStreamsTakeCommands2.get (Obj.ADMIT_SESSIONS (sStreamsTakeCommands2.get (Obj.S_CONTEXT 5)))) 2 = true)
        ∧ sStreamsTakeCommands2.get (Obj.PENDING_COMMAND 5) = 0 ∧ (sStreamsTakeCommands2.stream 5).chunk = none
        ∧ sStreamsTakeCommands2.admits 2 (Obj.STREAM_COMMAND 5) 1 Lvl.host ∧ sStreamsTakeCommands2.streamAllows 5 1 = true
        ∧ (sStreamsTakeCommands2.homeTiles 5 = 0 ∨ sStreamsTakeCommands2.allocFault (sStreamsTakeCommands2.get (Obj.S_CONTEXT 5)) (sStreamsTakeCommands2.homeTiles 5) = none))
    ∧ ((sStreamsTakeCommands3.get (Obj.STREAM_STATE 5) = 0 ∨ bit (sStreamsTakeCommands3.get (Obj.ADMIT_SESSIONS (sStreamsTakeCommands3.get (Obj.S_CONTEXT 5)))) 2 = true)
        ∧ sStreamsTakeCommands3.get (Obj.PENDING_COMMAND 5) = 0 ∧ (sStreamsTakeCommands3.stream 5).chunk = none
        ∧ sStreamsTakeCommands3.admits 2 (Obj.STREAM_COMMAND 5) 2 Lvl.host ∧ sStreamsTakeCommands3.streamAllows 5 2 = true)
    ∧ ((sStreamsTakeCommands4.get (Obj.STREAM_STATE 5) = 0 ∨ bit (sStreamsTakeCommands4.get (Obj.ADMIT_SESSIONS (sStreamsTakeCommands4.get (Obj.S_CONTEXT 5)))) 2 = true)
        ∧ sStreamsTakeCommands4.get (Obj.PENDING_COMMAND 5) = 0 ∧ (sStreamsTakeCommands4.stream 5).chunk = none
        ∧ sStreamsTakeCommands4.admits 2 (Obj.STREAM_COMMAND 5) 3 Lvl.host ∧ sStreamsTakeCommands4.streamAllows 5 3 = true)
    ∧ ((sStreamsTakeCommands5.get (Obj.STREAM_STATE 5) = 0 ∨ bit (sStreamsTakeCommands5.get (Obj.ADMIT_SESSIONS (sStreamsTakeCommands5.get (Obj.S_CONTEXT 5)))) 2 = true)
        ∧ sStreamsTakeCommands5.get (Obj.PENDING_COMMAND 5) = 0 ∧ (sStreamsTakeCommands5.stream 5).chunk = none
        ∧ sStreamsTakeCommands5.admits 2 (Obj.STREAM_COMMAND 5) 4 Lvl.host ∧ sStreamsTakeCommands5.streamAllows 5 4 = true)
    ∧ ((sStreamsTakeCommands4.get (Obj.STREAM_STATE 5) = 0 ∨ bit (sStreamsTakeCommands4.get (Obj.ADMIT_SESSIONS (sStreamsTakeCommands4.get (Obj.S_CONTEXT 5)))) 2 = true)
        ∧ sStreamsTakeCommands4.get (Obj.PENDING_COMMAND 5) = 0 ∧ (sStreamsTakeCommands4.stream 5).chunk = none
        ∧ sStreamsTakeCommands4.admits 2 (Obj.STREAM_COMMAND 5) 5 Lvl.host ∧ sStreamsTakeCommands4.streamAllows 5 5 = true)
    ∧ ((sStreamsTakeCommands6.get (Obj.STREAM_STATE 5) = 0 ∨ bit (sStreamsTakeCommands6.get (Obj.ADMIT_SESSIONS (sStreamsTakeCommands6.get (Obj.S_CONTEXT 5)))) 2 = true)
        ∧ sStreamsTakeCommands6.get (Obj.PENDING_COMMAND 5) = 0 ∧ (sStreamsTakeCommands6.stream 5).chunk = none
        ∧ sStreamsTakeCommands6.admits 2 (Obj.STREAM_COMMAND 5) 6 Lvl.host ∧ sStreamsTakeCommands6.streamAllows 5 6 = true
        ∧ ([1, 2] = if sStreamsTakeCommands6.resident 5 = true then List.flatMap Accum.image (sStreamsTakeCommands6.stream 5).res else (sStreamsTakeCommands6.stream 5).data)
        ∧ (sStreamsTakeCommands6.stream 5).ckpt = some (30, 1) ∧ 1 = ceilDiv [1, 2].length 4096)
    ∧ ((sStreamsTakeCommands7.get (Obj.STREAM_STATE 5) = 0 ∨ bit (sStreamsTakeCommands7.get (Obj.ADMIT_SESSIONS (sStreamsTakeCommands7.get (Obj.S_CONTEXT 5)))) 2 = true)
        ∧ sStreamsTakeCommands7.get (Obj.PENDING_COMMAND 5) = 0 ∧ (sStreamsTakeCommands7.stream 5).chunk = none
        ∧ sStreamsTakeCommands7.admits 2 (Obj.STREAM_COMMAND 5) 7 Lvl.host ∧ sStreamsTakeCommands7.streamAllows 5 7 = true
        ∧ (sStreamsTakeCommands7.stream 5).ckpt = some (30, 1) ∧ sStreamsTakeCommands7.runLost 30 1 = none)
    ∧ ((sStreamsTakeCommands8.get (Obj.STREAM_STATE 5) = 0 ∨ bit (sStreamsTakeCommands8.get (Obj.ADMIT_SESSIONS (sStreamsTakeCommands8.get (Obj.S_CONTEXT 5)))) 2 = true)
        ∧ sStreamsTakeCommands8.get (Obj.PENDING_COMMAND 5) = 0 ∧ (sStreamsTakeCommands8.stream 5).chunk = none
        ∧ sStreamsTakeCommands8.admits 2 (Obj.STREAM_COMMAND 5) 8 Lvl.host ∧ sStreamsTakeCommands8.streamAllows 5 8 = true
        ∧ sStreamsTakeCommands8.get (Obj.RESIDENCY_NOW 5) = 1 ∧ (sStreamsTakeCommands8.stream 5).engines = [] ∧ sStreamsTakeCommands8.get (Obj.SWAPS_OUT 5) + 1 < 2 ^ 32)
    ∧ ((sStreamsTakeCommands8.get (Obj.STREAM_STATE 5) = 0 ∨ bit (sStreamsTakeCommands8.get (Obj.ADMIT_SESSIONS (sStreamsTakeCommands8.get (Obj.S_CONTEXT 5)))) 2 = true)
        ∧ sStreamsTakeCommands8.get (Obj.PENDING_COMMAND 5) = 0 ∧ sStreamsTakeCommands8.get (Obj.RESIDENCY_NOW 5) = 1 ∧ (sStreamsTakeCommands8.stream 5).chunk = none
        ∧ (sStreamsTakeCommands8.stream 5).engines = [] ∧ sStreamsTakeCommands8.get (Obj.SWAPS_OUT 5) + 1 < 2 ^ 32)
    ∧ ((sStreamsTakeCommands9.get (Obj.STREAM_STATE 5) = 0 ∨ bit (sStreamsTakeCommands9.get (Obj.ADMIT_SESSIONS (sStreamsTakeCommands9.get (Obj.S_CONTEXT 5)))) 2 = true)
        ∧ sStreamsTakeCommands9.get (Obj.PENDING_COMMAND 5) = 0 ∧ sStreamsTakeCommands9.get (Obj.RESIDENCY_MODE 5) = 1 ∧ sStreamsTakeCommands9.get (Obj.RESIDENCY_NOW 5) = 0
        ∧ sStreamsTakeCommands9.get (Obj.STREAM_STATE 5) ≠ 0 ∧ sStreamsTakeCommands9.get (Obj.STREAM_STATE 5) ≠ 4 ∧ (sStreamsTakeCommands9.stream 5).chunk = none
        ∧ sStreamsTakeCommands9.fieldActive 2 = true ∧ sStreamsTakeCommands9.get (Obj.DOM_STATE 2) = 2 ∧ sStreamsTakeCommands9.get (Obj.FALLOW_STATUS 2) = 0
        ∧ ceilDiv (sStreamsTakeCommands9.stateBytes 5) 65536 ≤ (sStreamsTakeCommands9.freeGrans 2).length
        ∧ sStreamsTakeCommands9.runLost (sStreamsTakeCommands9.stream 5).home.fst (sStreamsTakeCommands9.stream 5).home.snd = none
        ∧ (sStreamsTakeCommands9.stream 5).forced = false ∧ sStreamsTakeCommands9.get (Obj.SWAPS_IN 5) + 1 < 2 ^ 32) := by
  iterate 12 refine ⟨by decide +kernel, ?_⟩
  decide +kernel
def sSievesRun0 : State := serving { (unitJob (.sieve decode1)) with stop := some (32, 3) } [] {}
def jobSievesRun0 : Job := { (unitJob (.sieve decode1)) with stop := some (32, 3) }
def sSievesRun1 : State := serving (unitJob (.sieve decode1)) [] {}
def sievedataSievesRun0 : SieveData := { decoded1 with tableLen := 2 }
def sievedataSievesRun1 : SieveData := { decoded1 with outs := [(9 * 65536, List.replicate 32 0)] }
def sSievesRun2 : State := serving (unitJob (.sieve crop1)) [] {}

/-- States and operands that meet the hypotheses of `Obligations.SievesRun`, clause by clause. -/
theorem wit_SievesRun :
    (sSievesRun0.sieveOrder.head? = some (4, jobSievesRun0) ∧ jobSievesRun0.decl.op = some (UnitOp.sieve decode1) ∧ sSievesRun0.get (Obj.DOM_STATE 76) = 2
        ∧ sSievesRun0.u.pow.overcurrent = false ∧ sSievesRun0.get Obj.SIEVE_BUSY_NS + 2000 < 2 ^ 64 ∧ sSievesRun0.get Obj.SIEVE_OPS + 1 < 2 ^ 64
        ∧ jobSievesRun0.stop = some (32, 3))
    ∧ (sSievesRun1.sieveOrder.head? = some (4, unitJob (UnitOp.sieve decode1)) ∧ (unitJob (UnitOp.sieve decode1)).decl.op = some (UnitOp.sieve decode1)
        ∧ sSievesRun1.get (Obj.DOM_STATE 76) = 2 ∧ sSievesRun1.u.pow.overcurrent = false ∧ sSievesRun1.get Obj.SIEVE_BUSY_NS + 100 < 2 ^ 64
        ∧ sSievesRun1.get Obj.SIEVE_OPS + 1 < 2 ^ 64 ∧ (unitJob (UnitOp.sieve decode1)).stop = none)
    ∧ (sSievesRun1.sieveOrder.head? = some (4, unitJob (UnitOp.sieve decode1)) ∧ (unitJob (UnitOp.sieve decode1)).decl.op = some (UnitOp.sieve decode1)
        ∧ sSievesRun1.get (Obj.DOM_STATE 76) = 2 ∧ sSievesRun1.u.pow.overcurrent = false ∧ sSievesRun1.get Obj.SIEVE_BUSY_NS + 100 < 2 ^ 64
        ∧ sSievesRun1.get Obj.SIEVE_OPS + 1 < 2 ^ 64 ∧ (unitJob (UnitOp.sieve decode1)).stop = none
        ∧ (decode1.crop = false ∧ (decode1.grid = false ∧ decode1.variant ≠ 2 ∧ sievedataSievesRun0.tableLen ≠ decode1.anchors ∨ sievedataSievesRun0.scoreLen ≠ decode1.anchors ∨ sievedataSievesRun0.rows.length ≠ decode1.anchors)))
    ∧ (sSievesRun1.sieveOrder.head? = some (4, unitJob (UnitOp.sieve decode1)) ∧ (unitJob (UnitOp.sieve decode1)).decl.op = some (UnitOp.sieve decode1)
        ∧ sSievesRun1.get (Obj.DOM_STATE 76) = 2 ∧ sSievesRun1.u.pow.overcurrent = false ∧ sSievesRun1.get Obj.SIEVE_BUSY_NS + 100 < 2 ^ 64
        ∧ sSievesRun1.get Obj.SIEVE_OPS + 1 < 2 ^ 64 ∧ (unitJob (UnitOp.sieve decode1)).stop = none
        ∧ (¬(decode1.crop = false ∧ (decode1.grid = false ∧ decode1.variant ≠ 2 ∧ sievedataSievesRun1.tableLen ≠ decode1.anchors ∨ sievedataSievesRun1.scoreLen ≠ decode1.anchors ∨ sievedataSievesRun1.rows.length ≠ decode1.anchors)))
        ∧ sSievesRun1.outFault (unitJob (UnitOp.sieve decode1)).ctx sievedataSievesRun1.outs = some (St.ACCESS_DENIED, 1028))
    ∧ (sSievesRun1.sieveOrder.head? = some (4, unitJob (UnitOp.sieve decode1)) ∧ (unitJob (UnitOp.sieve decode1)).decl.op = some (UnitOp.sieve decode1)
        ∧ sSievesRun1.get (Obj.DOM_STATE 76) = 2 ∧ sSievesRun1.u.pow.overcurrent = false ∧ sSievesRun1.get Obj.SIEVE_BUSY_NS + 100 < 2 ^ 64
        ∧ sSievesRun1.get Obj.SIEVE_OPS + 1 < 2 ^ 64 ∧ (unitJob (UnitOp.sieve decode1)).stop = none
        ∧ (¬(decode1.crop = false ∧ (decode1.grid = false ∧ decode1.variant ≠ 2 ∧ decoded1.tableLen ≠ decode1.anchors ∨ decoded1.scoreLen ≠ decode1.anchors ∨ decoded1.rows.length ≠ decode1.anchors)))
        ∧ sSievesRun1.outFault (unitJob (UnitOp.sieve decode1)).ctx decoded1.outs = none ∧ sSievesRun1.get Obj.SEED_STOCK_EN = 0 ∧ decode1.crop = false
        ∧ sSievesRun1.get Obj.CANDIDATES + (sieveBoxes decode1 (fp (sSievesRun1.get Obj.DW_CLAMP)) decoded1).fst < 2 ^ 64
        ∧ sSievesRun1.get Obj.BOXES_KEPT + (sieveBoxes decode1 (fp (sSievesRun1.get Obj.DW_CLAMP)) decoded1).snd.fst < 2 ^ 64
        ∧ sSievesRun1.get Obj.BOXES_TRUNCATED + (sieveBoxes decode1 (fp (sSievesRun1.get Obj.DW_CLAMP)) decoded1).snd.snd.fst < 2 ^ 64)
    ∧ (sSievesRun2.sieveOrder.head? = some (4, unitJob (UnitOp.sieve crop1)) ∧ (unitJob (UnitOp.sieve crop1)).decl.op = some (UnitOp.sieve crop1)
        ∧ sSievesRun2.get (Obj.DOM_STATE 76) = 2 ∧ sSievesRun2.u.pow.overcurrent = false ∧ sSievesRun2.get Obj.SIEVE_BUSY_NS + 100 < 2 ^ 64
        ∧ sSievesRun2.get Obj.SIEVE_OPS + 1 < 2 ^ 64 ∧ (unitJob (UnitOp.sieve crop1)).stop = none
        ∧ sSievesRun2.outFault (unitJob (UnitOp.sieve crop1)).ctx cropped1.outs = none ∧ sSievesRun2.get Obj.SEED_STOCK_EN = 0 ∧ crop1.crop = true
        ∧ sSievesRun2.get Obj.DEGENERATE_BOXES + (List.filter degenerate cropped1.boxes).length < 2 ^ 32)
    ∧ (sSievesRun1.sieveOrder.head? = some (4, unitJob (UnitOp.sieve decode1)) ∧ (unitJob (UnitOp.sieve decode1)).decl.op = some (UnitOp.sieve decode1)
        ∧ sSievesRun1.get (Obj.DOM_STATE 76) = 2 ∧ sSievesRun1.u.pow.overcurrent = false ∧ sSievesRun1.get Obj.SIEVE_BUSY_NS + 100 < 2 ^ 64
        ∧ sSievesRun1.get Obj.SIEVE_OPS + 1 < 2 ^ 64) := by
  iterate 6 refine ⟨by decide +kernel, ?_⟩
  decide +kernel
def sMapEpochsAdvance0 : State := serving { job1 with phase := .running } [] {}
def jobMapEpochsAdvance0 : Job := { job1 with phase := .running }
def sMapEpochsAdvance1 : State := serving { job1 with phase := .running } [(Obj.TILE_ALLOWANCE 3, 1)] {}
def sMapEpochsAdvance2 : State := serving (unitJob .batch) [] { pending := some {} }
def sMapEpochsAdvance3 : State := opSt 1 []
def sMapEpochsAdvance4 : State := opSt 1 [(Obj.EPOCHS_MAX, 1)]
def sMapEpochsAdvance5 : State := opSt 1 [(Obj.ROADMAP_NODES 1, 9)]
def sMapEpochsAdvance6 : State := serving (unitJob (.run plan1)) [] { runs := [(4, planning)] }

/-- States and operands that meet the hypotheses of `Obligations.MapEpochsAdvance`, clause by clause. -/
theorem wit_MapEpochsAdvance :
    (Wf.mapBatchCommit 4 50 [MapOp.forget 4294967295] = true ∧ sMapEpochsAdvance0.u.tt.jobs.get? 4 = some jobMapEpochsAdvance0 ∧ sMapEpochsAdvance0.groupPending 10497 = false
        ∧ (jobMapEpochsAdvance0.phase = Phase.running ∨ jobMapEpochsAdvance0.phase = Phase.draining) ∧ sMapEpochsAdvance0.get (Obj.DOM_STATE 75) = 2
        ∧ (jobMapEpochsAdvance0.decl.op = none ∨ jobMapEpochsAdvance0.decl.op = some UnitOp.batch ∧ sMapEpochsAdvance0.planOrder.head? = some (4, jobMapEpochsAdvance0) ∧ jobMapEpochsAdvance0.stop = none ∧ sMapEpochsAdvance0.u.pow.overcurrent = false)
        ∧ (4096 < [MapOp.forget 4294967295].length ∨ ∃ o, o ∈ [MapOp.forget 4294967295] ∧ sMapEpochsAdvance0.bricks ≤ o.brick))
    ∧ (Wf.mapBatchCommit 4 50 [] = true ∧ sMapEpochsAdvance0.u.tt.jobs.get? 4 = some jobMapEpochsAdvance0 ∧ sMapEpochsAdvance0.groupPending 10497 = false
        ∧ (jobMapEpochsAdvance0.phase = Phase.running ∨ jobMapEpochsAdvance0.phase = Phase.draining) ∧ sMapEpochsAdvance0.get (Obj.DOM_STATE 75) = 2
        ∧ (jobMapEpochsAdvance0.decl.op = none ∨ jobMapEpochsAdvance0.decl.op = some UnitOp.batch ∧ sMapEpochsAdvance0.planOrder.head? = some (4, jobMapEpochsAdvance0) ∧ jobMapEpochsAdvance0.stop = none ∧ sMapEpochsAdvance0.u.pow.overcurrent = false))
    ∧ (Wf.mapBatchCommit 4 50 [MapOp.forget 0] = true ∧ sMapEpochsAdvance1.u.tt.jobs.get? 4 = some jobMapEpochsAdvance0 ∧ sMapEpochsAdvance1.groupPending 10497 = false
        ∧ (jobMapEpochsAdvance0.phase = Phase.running ∨ jobMapEpochsAdvance0.phase = Phase.draining) ∧ sMapEpochsAdvance1.get (Obj.DOM_STATE 75) = 2
        ∧ (jobMapEpochsAdvance0.decl.op = none ∨ jobMapEpochsAdvance0.decl.op = some UnitOp.batch ∧ sMapEpochsAdvance1.planOrder.head? = some (4, jobMapEpochsAdvance0) ∧ jobMapEpochsAdvance0.stop = none ∧ sMapEpochsAdvance1.u.pow.overcurrent = false)
        ∧ [MapOp.forget 0] ≠ [] ∧ [MapOp.forget 0].length ≤ 4096 ∧ (∀ (o : MapOp), o ∈ [MapOp.forget 0] → o.brick < sMapEpochsAdvance1.bricks)
        ∧ sMapEpochsAdvance1.mapLoss sMapEpochsAdvance1.batchBase (List.filterMap (fun o => match o with | MapOp.min b vs => some b | x => none) [MapOp.forget 0]) = none
        ∧ sMapEpochsAdvance1.allocFault (sMapEpochsAdvance1.get Obj.MAP_CONTEXT) (sMapEpochsAdvance1.indexTiles + (List.map MapOp.brick [MapOp.forget 0]).eraseDups.length) = some 1024)
    ∧ (Wf.mapBatchCommit 4 50 [MapOp.forget 0] = true ∧ sMapEpochsAdvance0.u.tt.jobs.get? 4 = some jobMapEpochsAdvance0 ∧ sMapEpochsAdvance0.groupPending 10497 = false
        ∧ (jobMapEpochsAdvance0.phase = Phase.running ∨ jobMapEpochsAdvance0.phase = Phase.draining) ∧ sMapEpochsAdvance0.get (Obj.DOM_STATE 75) = 2
        ∧ (jobMapEpochsAdvance0.decl.op = none ∨ jobMapEpochsAdvance0.decl.op = some UnitOp.batch ∧ sMapEpochsAdvance0.planOrder.head? = some (4, jobMapEpochsAdvance0) ∧ jobMapEpochsAdvance0.stop = none ∧ sMapEpochsAdvance0.u.pow.overcurrent = false)
        ∧ [MapOp.forget 0] ≠ [] ∧ [MapOp.forget 0].length ≤ 4096 ∧ (∀ (o : MapOp), o ∈ [MapOp.forget 0] → o.brick < sMapEpochsAdvance0.bricks)
        ∧ sMapEpochsAdvance0.mapLoss sMapEpochsAdvance0.batchBase (List.filterMap (fun o => match o with | MapOp.min b vs => some b | x => none) [MapOp.forget 0]) = none
        ∧ sMapEpochsAdvance0.allocFault (sMapEpochsAdvance0.get Obj.MAP_CONTEXT) (sMapEpochsAdvance0.indexTiles + (List.map MapOp.brick [MapOp.forget 0]).eraseDups.length) = none
        ∧ (∀ (h : Home), h ∈ (sMapEpochsAdvance0.newHomes (sMapEpochsAdvance0.indexTiles + (List.map MapOp.brick [MapOp.forget 0]).eraseDups.length)).fst → ∃ k, h = Home.slot k)
        ∧ sMapEpochsAdvance0.u.plan.pending = none ∧ List.length sMapEpochsAdvance0.u.plan.epochs < sMapEpochsAdvance0.get Obj.EPOCHS_MAX
        ∧ sMapEpochsAdvance0.get Obj.EPOCH_NEWEST + 1 < 2 ^ 64 ∧ sMapEpochsAdvance0.get Obj.UPDATES_APPLIED + 1 < 2 ^ 64)
    ∧ (Wf.mapBatchCommit 4 50 [MapOp.forget 0] = true ∧ sMapEpochsAdvance2.u.tt.jobs.get? 4 = some (unitJob UnitOp.batch) ∧ sMapEpochsAdvance2.groupPending 10497 = false
        ∧ ((unitJob UnitOp.batch).phase = Phase.running ∨ (unitJob UnitOp.batch).phase = Phase.draining) ∧ sMapEpochsAdvance2.get (Obj.DOM_STATE 75) = 2
        ∧ ((unitJob UnitOp.batch).decl.op = none ∨ (unitJob UnitOp.batch).decl.op = some UnitOp.batch ∧ sMapEpochsAdvance2.planOrder.head? = some (4, unitJob UnitOp.batch) ∧ (unitJob UnitOp.batch).stop = none ∧ sMapEpochsAdvance2.u.pow.overcurrent = false)
        ∧ [MapOp.forget 0] ≠ [] ∧ [MapOp.forget 0].length ≤ 4096 ∧ (∀ (o : MapOp), o ∈ [MapOp.forget 0] → o.brick < sMapEpochsAdvance2.bricks)
        ∧ sMapEpochsAdvance2.mapLoss sMapEpochsAdvance2.batchBase (List.filterMap (fun o => match o with | MapOp.min b vs => some b | x => none) [MapOp.forget 0]) = none
        ∧ sMapEpochsAdvance2.allocFault (sMapEpochsAdvance2.get Obj.MAP_CONTEXT) (sMapEpochsAdvance2.indexTiles + (List.map MapOp.brick [MapOp.forget 0]).eraseDups.length) = none
        ∧ (∀ (h : Home), h ∈ (sMapEpochsAdvance2.newHomes (sMapEpochsAdvance2.indexTiles + (List.map MapOp.brick [MapOp.forget 0]).eraseDups.length)).fst → ∃ k, h = Home.slot k)
        ∧ (sMapEpochsAdvance2.u.plan.pending ≠ none ∨ sMapEpochsAdvance2.get Obj.EPOCHS_MAX ≤ List.length sMapEpochsAdvance2.u.plan.epochs)
        ∧ sMapEpochsAdvance2.get Obj.UPDATES_MERGED + 1 < 2 ^ 32)
    ∧ (sMapEpochsAdvance3.admits 2 Obj.MAP_CLEAR 1 Lvl.sup ∧ sMapEpochsAdvance3.u.plan.pending = none
        ∧ List.length sMapEpochsAdvance3.u.plan.epochs < sMapEpochsAdvance3.get Obj.EPOCHS_MAX ∧ sMapEpochsAdvance3.get Obj.EPOCH_NEWEST + 1 < 2 ^ 64)
    ∧ (sMapEpochsAdvance4.admits 2 Obj.MAP_CLEAR 1 Lvl.sup
        ∧ (sMapEpochsAdvance4.u.plan.pending ≠ none ∨ sMapEpochsAdvance4.get Obj.EPOCHS_MAX ≤ List.length sMapEpochsAdvance4.u.plan.epochs))
    ∧ (sMapEpochsAdvance5.admits 2 (Obj.ROADMAP_CLEAR 1) 1 Lvl.sup
        ∧ (¬∃ r, r ∈ sMapEpochsAdvance5.u.plan.runs ∧ ∃ y p, sMapEpochsAdvance5.u.tt.jobs.get? r.fst = some y ∧ y.decl.op = some (UnitOp.run p) ∧ p.model = 1))
    ∧ (sMapEpochsAdvance6.admits 2 (Obj.ROADMAP_CLEAR 0) 1 Lvl.sup
        ∧ (∃ r, r ∈ sMapEpochsAdvance6.u.plan.runs ∧ ∃ y p, sMapEpochsAdvance6.u.tt.jobs.get? r.fst = some y ∧ y.decl.op = some (UnitOp.run p) ∧ p.model = 0)) := by
  iterate 3 refine ⟨by decide +kernel, ?_⟩
  iterate 2 refine ⟨by and_intros <;> first | decide +kernel | (refine all_slots _ ?_; decide +kernel), ?_⟩
  iterate 2 refine ⟨by decide +kernel, ?_⟩
  refine ⟨by and_intros <;> first | decide +kernel | (rintro ⟨r, h, _⟩; cases h), ?_⟩
  and_intros <;> first | decide +kernel | exact ⟨(4, _), List.mem_cons_self .., _, _, rfl, rfl, rfl⟩
def sPlannerServes0 : State := serving { (unitJob (.run plan1)) with stop := some (32, 3) } [] {}
def jobPlannerServes0 : Job := { (unitJob (.run plan1)) with stop := some (32, 3) }
def sPlannerServes1 : State := serving (unitJob (.spheres (some 9))) [] {}
def sPlannerServes2 : State := serving (unitJob (.spheres none)) [] {}
def sPlannerServes3 : State := serving (unitJob (.segments 0 (some 9))) [] {}
def sPlannerServes4 : State := serving (unitJob (.segments 0 none)) [] {}
def sPlannerServes5 : State := serving (unitJob (.run plan1)) [] { runs := [(4, planning2)] }
def sPlannerServes6 : State := serving (unitJob (.run { plan1 with goals := [] })) [] { runs := [(4, planning)] }
def planrunPlannerServes0 : PlanRun := { plan1 with goals := [] }
def sPlannerServes7 : State := serving (unitJob (.run plan1)) [] { runs := [(4, { planning with begun := true })] }
def planrunsPlannerServes0 : PlanRunS := { planning with begun := true }
def sPlannerServes8 : State := serving (unitJob (.run plan1)) [] { runs := [(4, { planning with begun := true, cands := some [] })] }
def planrunsPlannerServes1 : PlanRunS := { planning with begun := true, cands := some [] }
def sPlannerServes9 : State := serving (unitJob (.run plan1)) [(Obj.EPOCH_NEWEST, 2)] { epochs := [(1, {}), (2, {})], runs := [(4, { planning2 with begun := true, dirty := [0], cands := some [([[0], [0]], 5)] })] }
def planrunsPlannerServes2 : PlanRunS := { planning2 with begun := true, dirty := [0], cands := some [([[0], [0]], 5)] }
def sPlannerServes10 : State := serving (unitJob (.run plan1)) [] { runs := [(4, { planning with begun := true, cands := some [([[0], [0]], 5)] })] }
def planrunsPlannerServes3 : PlanRunS := { planning with begun := true, cands := some [([[0], [0]], 5)] }

/-- States and operands that meet the hypotheses of `Obligations.PlannerServes`, clause by clause. -/
theorem wit_PlannerServes :
    (sPlannerServes0.planOrder.head? = some (4, jobPlannerServes0) ∧ sPlannerServes0.get (Obj.DOM_STATE 75) = 2 ∧ sPlannerServes0.u.pow.overcurrent = false
        ∧ jobPlannerServes0.stop = some (32, 3)
        ∧ Instr.plannerSlice 4 2 PlanStep.work ∈ [Instr.sphereQuery 4 [] [], Instr.segmentQuery 4 [] [], Instr.plannerSlice 4 2 PlanStep.work])
    ∧ (sPlannerServes1.planOrder.head? = some (4, unitJob (UnitOp.spheres (some 9))) ∧ sPlannerServes1.get (Obj.DOM_STATE 75) = 2 ∧ sPlannerServes1.u.pow.overcurrent = false
        ∧ (unitJob (UnitOp.spheres (some 9))).stop = none ∧ (unitJob (UnitOp.spheres (some 9))).decl.op = some (UnitOp.spheres (some 9)) ∧ ([] : List Nat).length ≤ 65536
        ∧ sPlannerServes1.queryEpoch (some 9) = none)
    ∧ (sPlannerServes2.planOrder.head? = some (4, unitJob (UnitOp.spheres none)) ∧ sPlannerServes2.get (Obj.DOM_STATE 75) = 2 ∧ sPlannerServes2.u.pow.overcurrent = false
        ∧ (unitJob (UnitOp.spheres none)).stop = none ∧ (unitJob (UnitOp.spheres none)).decl.op = some (UnitOp.spheres none) ∧ ([] : List Nat).length ≤ 65536
        ∧ sPlannerServes2.queryEpoch none = some (1, { : Epoch }) ∧ sPlannerServes2.outFault (unitJob (UnitOp.spheres none)).ctx [(7 * 65536, List.replicate 32 0)] = none
        ∧ sPlannerServes2.mapLoss { : Epoch } (List.flatMap sPlannerServes2.sphereBricks []) = none ∧ sPlannerServes2.get Obj.SEED_STOCK_EN = 0
        ∧ sPlannerServes2.get Obj.QUERY_SPHERES + ([] : List Nat).length < 2 ^ 64)
    ∧ (sPlannerServes3.planOrder.head? = some (4, unitJob (UnitOp.segments 0 (some 9))) ∧ sPlannerServes3.get (Obj.DOM_STATE 75) = 2 ∧ sPlannerServes3.u.pow.overcurrent = false
        ∧ (unitJob (UnitOp.segments 0 (some 9))).stop = none ∧ (unitJob (UnitOp.segments 0 (some 9))).decl.op = some (UnitOp.segments 0 (some 9))
        ∧ ([] : List Nat).length ≤ 1024 ∧ sPlannerServes3.queryEpoch (some 9) = none)
    ∧ (sPlannerServes4.planOrder.head? = some (4, unitJob (UnitOp.segments 0 none)) ∧ sPlannerServes4.get (Obj.DOM_STATE 75) = 2 ∧ sPlannerServes4.u.pow.overcurrent = false
        ∧ (unitJob (UnitOp.segments 0 none)).stop = none ∧ (unitJob (UnitOp.segments 0 none)).decl.op = some (UnitOp.segments 0 none) ∧ ([] : List Nat).length ≤ 1024
        ∧ sPlannerServes4.queryEpoch none = some (1, { : Epoch })
        ∧ sPlannerServes4.outFault (unitJob (UnitOp.segments 0 none)).ctx [(7 * 65536, List.replicate 32 0)] = none
        ∧ sPlannerServes4.mapLoss { : Epoch } (List.flatMap sPlannerServes4.poseBricks (List.map (fun q => segmentPoses (sPlannerServes4.model 0) (sPlannerServes4.get Obj.CHECK_STEP_MM) q.fst q.snd) ([] : List (List Nat × List Nat))).flatten) = none
        ∧ sPlannerServes4.get Obj.SEED_STOCK_EN = 0)
    ∧ (sMapEpochsAdvance6.planOrder.head? = some (4, unitJob (UnitOp.run plan1)) ∧ sMapEpochsAdvance6.get (Obj.DOM_STATE 75) = 2 ∧ sMapEpochsAdvance6.u.pow.overcurrent = false
        ∧ (unitJob (UnitOp.run plan1)).stop = none ∧ (unitJob (UnitOp.run plan1)).decl.op = some (UnitOp.run plan1) ∧ sMapEpochsAdvance6.u.plan.runs.get? 4 = some planning
        ∧ sMapEpochsAdvance6.get Obj.BRICK_MISSES + 2 < 2 ^ 64 ∧ sMapEpochsAdvance6.get Obj.E2E_CHECKED + 1 < 2 ^ 64 ∧ sMapEpochsAdvance6.get Obj.RUNS_NO_PATH + 1 < 2 ^ 32
        ∧ sMapEpochsAdvance6.get Obj.RUNS_DONE + 1 < 2 ^ 64)
    ∧ (sPlannerServes5.planOrder.head? = some (4, unitJob (UnitOp.run plan1)) ∧ sPlannerServes5.get (Obj.DOM_STATE 75) = 2 ∧ sPlannerServes5.u.pow.overcurrent = false
        ∧ (unitJob (UnitOp.run plan1)).stop = none ∧ (unitJob (UnitOp.run plan1)).decl.op = some (UnitOp.run plan1) ∧ sPlannerServes5.u.plan.runs.get? 4 = some planning2
        ∧ sPlannerServes5.get Obj.BRICK_MISSES + 2 < 2 ^ 64 ∧ sPlannerServes5.get Obj.E2E_CHECKED + 1 < 2 ^ 64 ∧ sPlannerServes5.get Obj.RUNS_NO_PATH + 1 < 2 ^ 32
        ∧ sPlannerServes5.get Obj.RUNS_DONE + 1 < 2 ^ 64 ∧ planning2.begun = false
        ∧ sPlannerServes5.mapLoss (sPlannerServes5.u.plan.epochs.at planning2.epoch { : Epoch }) (List.flatMap (fun q => sPlannerServes5.poseBricks ((fun q => poseOf planning2.model Machine.Num.zero (List.map fp q)) q)) (plan1.start :: List.map (fun x => x.fst) plan1.goals)) = none
        ∧ sPlannerServes5.poseClear (sPlannerServes5.u.plan.epochs.at planning2.epoch { : Epoch }) planning2.model ((fun q => poseOf planning2.model Machine.Num.zero (List.map fp q)) plan1.start) = false
        ∧ sPlannerServes5.outFault (unitJob (UnitOp.run plan1)).ctx [(7 * 65536, List.replicate 32 0)] = none ∧ sPlannerServes5.get Obj.SEED_STOCK_EN = 0)
    ∧ (sPlannerServes6.planOrder.head? = some (4, unitJob (UnitOp.run (let __src := plan1; { model := __src.model, start := __src.start, goals := [], method := __src.method, samples := __src.samples, target := __src.target, shortcuts := __src.shortcuts, seed := __src.seed, waypoints := __src.waypoints : PlanRun })))
        ∧ sPlannerServes6.get (Obj.DOM_STATE 75) = 2 ∧ sPlannerServes6.u.pow.overcurrent = false
        ∧ (unitJob (UnitOp.run (let __src := plan1; { model := __src.model, start := __src.start, goals := [], method := __src.method, samples := __src.samples, target := __src.target, shortcuts := __src.shortcuts, seed := __src.seed, waypoints := __src.waypoints : PlanRun }))).stop = none
        ∧ (unitJob (UnitOp.run (let __src := plan1; { model := __src.model, start := __src.start, goals := [], method := __src.method, samples := __src.samples, target := __src.target, shortcuts := __src.shortcuts, seed := __src.seed, waypoints := __src.waypoints : PlanRun }))).decl.op = some (UnitOp.run planrunPlannerServes0)
        ∧ sPlannerServes6.u.plan.runs.get? 4 = some planning ∧ sPlannerServes6.get Obj.BRICK_MISSES + 2 < 2 ^ 64 ∧ sPlannerServes6.get Obj.E2E_CHECKED + 1 < 2 ^ 64
        ∧ sPlannerServes6.get Obj.RUNS_NO_PATH + 1 < 2 ^ 32 ∧ sPlannerServes6.get Obj.RUNS_DONE + 1 < 2 ^ 64 ∧ planning.begun = false
        ∧ sPlannerServes6.mapLoss (sPlannerServes6.u.plan.epochs.at planning.epoch { : Epoch }) (List.flatMap (fun q => sPlannerServes6.poseBricks ((fun q => poseOf planning.model Machine.Num.zero (List.map fp q)) q)) (planrunPlannerServes0.start :: List.map (fun x => x.fst) planrunPlannerServes0.goals)) = none
        ∧ sPlannerServes6.poseClear (sPlannerServes6.u.plan.epochs.at planning.epoch { : Epoch }) planning.model ((fun q => poseOf planning.model Machine.Num.zero (List.map fp q)) planrunPlannerServes0.start) = true
        ∧ (∀ (g : List Nat × List Nat), g ∈ planrunPlannerServes0.goals → sPlannerServes6.poseClear (sPlannerServes6.u.plan.epochs.at planning.epoch { : Epoch }) planning.model ((fun q => poseOf planning.model Machine.Num.zero (List.map fp q)) g.fst) = false)
        ∧ sPlannerServes6.outFault (unitJob (UnitOp.run (let __src := plan1; { model := __src.model, start := __src.start, goals := [], method := __src.method, samples := __src.samples, target := __src.target, shortcuts := __src.shortcuts, seed := __src.seed, waypoints := __src.waypoints : PlanRun }))).ctx [(7 * 65536, List.replicate 32 0)] = none
        ∧ sPlannerServes6.get Obj.SEED_STOCK_EN = 0)
    ∧ (sMapEpochsAdvance6.planOrder.head? = some (4, unitJob (UnitOp.run plan1)) ∧ sMapEpochsAdvance6.get (Obj.DOM_STATE 75) = 2 ∧ sMapEpochsAdvance6.u.pow.overcurrent = false
        ∧ (unitJob (UnitOp.run plan1)).stop = none ∧ (unitJob (UnitOp.run plan1)).decl.op = some (UnitOp.run plan1) ∧ sMapEpochsAdvance6.u.plan.runs.get? 4 = some planning
        ∧ sMapEpochsAdvance6.get Obj.BRICK_MISSES + 2 < 2 ^ 64 ∧ sMapEpochsAdvance6.get Obj.E2E_CHECKED + 1 < 2 ^ 64 ∧ sMapEpochsAdvance6.get Obj.RUNS_NO_PATH + 1 < 2 ^ 32
        ∧ sMapEpochsAdvance6.get Obj.RUNS_DONE + 1 < 2 ^ 64 ∧ planning.begun = false
        ∧ sMapEpochsAdvance6.mapLoss (sMapEpochsAdvance6.u.plan.epochs.at planning.epoch { : Epoch }) (List.flatMap (fun q => sMapEpochsAdvance6.poseBricks ((fun q => poseOf planning.model Machine.Num.zero (List.map fp q)) q)) (plan1.start :: List.map (fun x => x.fst) plan1.goals)) = none
        ∧ sMapEpochsAdvance6.poseClear (sMapEpochsAdvance6.u.plan.epochs.at planning.epoch { : Epoch }) planning.model ((fun q => poseOf planning.model Machine.Num.zero (List.map fp q)) plan1.start) = true
        ∧ (∃ g, g ∈ plan1.goals ∧ sMapEpochsAdvance6.poseClear (sMapEpochsAdvance6.u.plan.epochs.at planning.epoch { : Epoch }) planning.model ((fun q => poseOf planning.model Machine.Num.zero (List.map fp q)) g.fst) = true))
    ∧ (sPlannerServes7.planOrder.head? = some (4, unitJob (UnitOp.run plan1)) ∧ sPlannerServes7.get (Obj.DOM_STATE 75) = 2 ∧ sPlannerServes7.u.pow.overcurrent = false
        ∧ (unitJob (UnitOp.run plan1)).stop = none ∧ (unitJob (UnitOp.run plan1)).decl.op = some (UnitOp.run plan1)
        ∧ sPlannerServes7.u.plan.runs.get? 4 = some planrunsPlannerServes0 ∧ sPlannerServes7.get Obj.BRICK_MISSES + 2 < 2 ^ 64
        ∧ sPlannerServes7.get Obj.E2E_CHECKED + 1 < 2 ^ 64 ∧ sPlannerServes7.get Obj.RUNS_NO_PATH + 1 < 2 ^ 32 ∧ sPlannerServes7.get Obj.RUNS_DONE + 1 < 2 ^ 64
        ∧ planrunsPlannerServes0.begun = true ∧ planrunsPlannerServes0.cands = none
        ∧ sPlannerServes7.mapLoss (sPlannerServes7.u.plan.epochs.at planrunsPlannerServes0.epoch { : Epoch }) (List.flatMap (fun w => List.flatMap sPlannerServes7.poseBricks (pathPoses planrunsPlannerServes0.model (sPlannerServes7.get Obj.CHECK_STEP_MM) w)) (sPlannerServes7.searched (sPlannerServes7.u.plan.epochs.at planrunsPlannerServes0.epoch { : Epoch }) plan1 planrunsPlannerServes0).fst) = none)
    ∧ (sPlannerServes8.planOrder.head? = some (4, unitJob (UnitOp.run plan1)) ∧ sPlannerServes8.get (Obj.DOM_STATE 75) = 2 ∧ sPlannerServes8.u.pow.overcurrent = false
        ∧ (unitJob (UnitOp.run plan1)).stop = none ∧ (unitJob (UnitOp.run plan1)).decl.op = some (UnitOp.run plan1)
        ∧ sPlannerServes8.u.plan.runs.get? 4 = some planrunsPlannerServes1 ∧ sPlannerServes8.get Obj.BRICK_MISSES + 2 < 2 ^ 64
        ∧ sPlannerServes8.get Obj.E2E_CHECKED + 1 < 2 ^ 64 ∧ sPlannerServes8.get Obj.RUNS_NO_PATH + 1 < 2 ^ 32 ∧ sPlannerServes8.get Obj.RUNS_DONE + 1 < 2 ^ 64
        ∧ planrunsPlannerServes1.cands = some [] ∧ sPlannerServes8.outFault (unitJob (UnitOp.run plan1)).ctx [(7 * 65536, List.replicate 32 0)] = none
        ∧ sPlannerServes8.get Obj.SEED_STOCK_EN = 0)
    ∧ (sPlannerServes9.planOrder.head? = some (4, unitJob (UnitOp.run plan1)) ∧ sPlannerServes9.get (Obj.DOM_STATE 75) = 2 ∧ sPlannerServes9.u.pow.overcurrent = false
        ∧ (unitJob (UnitOp.run plan1)).stop = none ∧ (unitJob (UnitOp.run plan1)).decl.op = some (UnitOp.run plan1)
        ∧ sPlannerServes9.u.plan.runs.get? 4 = some planrunsPlannerServes2 ∧ sPlannerServes9.get Obj.BRICK_MISSES + 2 < 2 ^ 64
        ∧ sPlannerServes9.get Obj.E2E_CHECKED + 1 < 2 ^ 64 ∧ sPlannerServes9.get Obj.RUNS_NO_PATH + 1 < 2 ^ 32 ∧ sPlannerServes9.get Obj.RUNS_DONE + 1 < 2 ^ 64
        ∧ planrunsPlannerServes2.cands = some [([[0], [0]], 5)] ∧ [([[0], [0]], 5)] ≠ []
        ∧ ((sPlannerServes9.get Obj.EPOCH_NEWEST == planrunsPlannerServes2.epoch) = false → sPlannerServes9.mapLoss sPlannerServes9.newest (List.flatMap (fun c => List.flatMap sPlannerServes9.poseBricks (List.filter (sPlannerServes9.touches planrunsPlannerServes2.dirty) (pathPoses planrunsPlannerServes2.model (sPlannerServes9.get Obj.CHECK_STEP_MM) c.fst))) (List.take ((sPlannerServes9.validate planrunsPlannerServes2 (sPlannerServes9.get Obj.EPOCH_NEWEST == planrunsPlannerServes2.epoch) sPlannerServes9.newest 0 [([[0], [0]], 5)]).fst + 1) [([[0], [0]], 5)])) = none)
        ∧ (sPlannerServes9.validate planrunsPlannerServes2 (sPlannerServes9.get Obj.EPOCH_NEWEST == planrunsPlannerServes2.epoch) sPlannerServes9.newest 0 [([[0], [0]], 5)]).snd.snd = none
        ∧ sPlannerServes9.outFault (unitJob (UnitOp.run plan1)).ctx [(7 * 65536, List.replicate 32 0)] = none ∧ sPlannerServes9.get Obj.SEED_STOCK_EN = 0)
    ∧ (sPlannerServes10.planOrder.head? = some (4, unitJob (UnitOp.run plan1)) ∧ sPlannerServes10.get (Obj.DOM_STATE 75) = 2 ∧ sPlannerServes10.u.pow.overcurrent = false
        ∧ (unitJob (UnitOp.run plan1)).stop = none ∧ (unitJob (UnitOp.run plan1)).decl.op = some (UnitOp.run plan1)
        ∧ sPlannerServes10.u.plan.runs.get? 4 = some planrunsPlannerServes3 ∧ sPlannerServes10.get Obj.BRICK_MISSES + 2 < 2 ^ 64
        ∧ sPlannerServes10.get Obj.E2E_CHECKED + 1 < 2 ^ 64 ∧ sPlannerServes10.get Obj.RUNS_NO_PATH + 1 < 2 ^ 32 ∧ sPlannerServes10.get Obj.RUNS_DONE + 1 < 2 ^ 64
        ∧ planrunsPlannerServes3.cands = some [([[0], [0]], 5)] ∧ [([[0], [0]], 5)] ≠ []
        ∧ ((sPlannerServes10.get Obj.EPOCH_NEWEST == planrunsPlannerServes3.epoch) = false → sPlannerServes10.mapLoss sPlannerServes10.newest (List.flatMap (fun c => List.flatMap sPlannerServes10.poseBricks (List.filter (sPlannerServes10.touches planrunsPlannerServes3.dirty) (pathPoses planrunsPlannerServes3.model (sPlannerServes10.get Obj.CHECK_STEP_MM) c.fst))) (List.take ((sPlannerServes10.validate planrunsPlannerServes3 (sPlannerServes10.get Obj.EPOCH_NEWEST == planrunsPlannerServes3.epoch) sPlannerServes10.newest 0 [([[0], [0]], 5)]).fst + 1) [([[0], [0]], 5)])) = none)
        ∧ (sPlannerServes10.validate planrunsPlannerServes3 (sPlannerServes10.get Obj.EPOCH_NEWEST == planrunsPlannerServes3.epoch) sPlannerServes10.newest 0 [([[0], [0]], 5)]).snd.snd.isSome = true
        ∧ sPlannerServes10.outFault (unitJob (UnitOp.run plan1)).ctx [(7 * 65536, List.replicate 32 0)] = none ∧ sPlannerServes10.get Obj.SEED_STOCK_EN = 0)
    ∧ (running1.planOrder.head? = some (4, unitJob (UnitOp.run plan1)) ∧ running1.get (Obj.DOM_STATE 75) = 2 ∧ running1.u.pow.overcurrent = false
        ∧ running1.searchKey plan1 planning = running2.searchKey plan1 planning ∧ planning.model = planning.model
        ∧ (∀ (ps : Pose), running1.poseClear { : Epoch } planning.model ps = running2.poseClear { : Epoch } planning.model ps)
        ∧ running1.get (Obj.ROADMAP_LIMIT plan1.model) = running2.get (Obj.ROADMAP_LIMIT plan1.model)
        ∧ running1.u.plan.roads.at plan1.model [] = running2.u.plan.roads.at plan1.model [] ∧ running1.get Obj.CHECK_STEP_MM = running2.get Obj.CHECK_STEP_MM) := by
  iterate 13 refine ⟨by decide +kernel, ?_⟩
  and_intros <;> first | decide +kernel | exact fun ps => (pose_clear_time running1 7 _ _ ps).symm
def sTimeBaseFollows0 : State := timed [(Obj.DEVICE_STATE, 2), (Obj.TB_SOURCE, 1)] {}
def sTimeBaseFollows1 : State := timed [(Obj.DEVICE_STATE, 2), (Obj.TB_SOURCE, 1), (Obj.STEP_THRESHOLD_NS, 100), (Obj.LOCK_THRESHOLD_NS, 50)] {}
def sTimeBaseFollows2 : State := timed [(Obj.DEVICE_STATE, 2), (Obj.TB_SOURCE, 2), (Obj.STEP_THRESHOLD_NS, 100), (Obj.LOCK_THRESHOLD_NS, 50), (Obj.DC_EPOCH_OFFSET_NS, 400)] {}
def sTimeBaseFollows3 : State := timed [(Obj.TB_STATE, 1), (Obj.TB_SOURCE, 1), (Obj.STEP_THRESHOLD_NS, 100), (Obj.LOCK_THRESHOLD_NS, 50)] { inRun := 15 }
def sTimeBaseFollows4 : State := timed [(Obj.TB_STATE, 2), (Obj.TB_SOURCE, 1), (Obj.STEP_THRESHOLD_NS, 100), (Obj.LOCK_THRESHOLD_NS, 50)] { outRun := 2 }
def sTimeBaseFollows5 : State := timed [(Obj.TB_STATE, 2), (Obj.TB_SOURCE, 1), (Obj.STEP_THRESHOLD_NS, 100), (Obj.LOCK_THRESHOLD_NS, 50)] { outRun := 3 }
def sTimeBaseFollows6 : State := timed [(Obj.TB_STATE, 2)] {}
def sTimeBaseFollows7 : State := timed [(Obj.DEVICE_STATE, 2)] {}
def sTimeBaseFollows8 : State := timed [] {}

/-- States and operands that meet the hypotheses of `Obligations.TimeBaseFollows`, clause by clause. -/
theorem wit_TimeBaseFollows :
    ((sTimeBaseFollows0.get Obj.TB_SOURCE ≠ 2 ∨ sTimeBaseFollows0.dev = Dev.STANDBY))
    ∧ (sTimeBaseFollows1.get Obj.TB_SOURCE = 1 ∧ sTimeBaseFollows1.dev ≠ Dev.STANDBY ∧ sTimeBaseFollows1.get Obj.TB_STEPS + 1 < 2 ^ 32
        ∧ sTimeBaseFollows1.get Obj.TB_LOCK_LOSSES + 1 < 2 ^ 32)
    ∧ (sTimeBaseFollows2.get Obj.TB_SOURCE = 2 ∧ sTimeBaseFollows2.dev ≠ Dev.STANDBY ∧ sTimeBaseFollows2.get Obj.TB_STEPS + 1 < 2 ^ 32
        ∧ sTimeBaseFollows2.get Obj.TB_LOCK_LOSSES + 1 < 2 ^ 32)
    ∧ (sTimeBaseFollows1.get Obj.TB_SOURCE = 1 ∧ sTimeBaseFollows1.dev ≠ Dev.STANDBY ∧ sTimeBaseFollows1.get Obj.TB_STEPS + 1 < 2 ^ 32
        ∧ sTimeBaseFollows1.get Obj.TB_LOCK_LOSSES + 1 < 2 ^ 32)
    ∧ (sTimeBaseFollows3.get Obj.TB_SOURCE = 1 ∧ sTimeBaseFollows3.dev ≠ Dev.STANDBY ∧ sTimeBaseFollows3.get Obj.TB_STEPS + 1 < 2 ^ 32
        ∧ sTimeBaseFollows3.get Obj.TB_LOCK_LOSSES + 1 < 2 ^ 32)
    ∧ (sTimeBaseFollows4.get Obj.TB_SOURCE = 1 ∧ sTimeBaseFollows4.dev ≠ Dev.STANDBY ∧ sTimeBaseFollows4.get Obj.TB_STEPS + 1 < 2 ^ 32
        ∧ sTimeBaseFollows4.get Obj.TB_LOCK_LOSSES + 1 < 2 ^ 32)
    ∧ (sTimeBaseFollows5.get Obj.TB_SOURCE = 1 ∧ sTimeBaseFollows5.dev ≠ Dev.STANDBY ∧ sTimeBaseFollows5.get Obj.TB_STEPS + 1 < 2 ^ 32
        ∧ sTimeBaseFollows5.get Obj.TB_LOCK_LOSSES + 1 < 2 ^ 32)
    ∧ (Wf.tbSet 2 1000 = true ∧ sTimeBaseFollows7.admits 2 Obj.TB_SET 1000 Lvl.sup ∧ sTimeBaseFollows7.maySetTime = true ∧ sTimeBaseFollows7.time < 2 ^ 96
        ∧ sTimeBaseFollows7.get Obj.TB_STEPS + 1 < 2 ^ 32)
    ∧ (Wf.tbSet 2 1000 = true ∧ sTimeBaseFollows8.admits 2 Obj.TB_SET 1000 Lvl.sup ∧ sTimeBaseFollows8.maySetTime = false)
    ∧ (sTimeBaseFollows8.reads 2 Obj.TIME_NOW) := by
  iterate 9 refine ⟨by decide +kernel, ?_⟩
  decide +kernel
def sEdgesAreTimed0 : State := timed [] { trig := [(4, { high := true, ends := 5 })] }
def sEdgesAreTimed1 : State := timed [] { trig := [(4, { high := true })] }
def sEdgesAreTimed2 : State := timed [(Obj.TRIG_MODE 4, 1), (Obj.TRIG_WIDTH_NS 4, 100)] {}
def sEdgesAreTimed3 : State := { (timed [(Obj.TRIG_MODE 4, 2), (Obj.TRIG_PERIOD_NS 4, 1000), (Obj.TRIG_COUNT 4, 4), (Obj.TRIG_WIDTH_NS 4, 100)] { trig := [(4, { next := 3, sent := 3 })] }) with time := 3000 * 4294967296 }
def sEdgesAreTimed4 : State := timed [(Obj.TRIG_MODE 4, 1), (Obj.TRIG_START 4, 1)] {}
def sEdgesAreTimed5 : State := timed [(Obj.CAP_FILTER_NS 4, 10)] {}
def sEdgesAreTimed6 : State := timed [(Obj.CAP_EDGES 4, 3)] {}
def sEdgesAreTimed7 : State := timed [(Obj.CAP_EDGES 4, 3)] { cap := [(4, { fifo := List.replicate 64 (10, 5, true), edge := some 60 })] }
def sEdgesAreTimed8 : State := timed [(Obj.CAP_EDGES 4, 3)] { cap := [(4, { edge := some 61 })] }
def sEdgesAreTimed9 : State := timed [] { cap := [(4, { fifo := [(10, 5, true), (20, 6, false)] })] }

/-- States and operands that meet the hypotheses of `Obligations.EdgesAreTimed`, clause by clause. -/
theorem wit_EdgesAreTimed :
    ((sEdgesAreTimed0.trig 4).high = true ∧ sEdgesAreTimed0.ns < (sEdgesAreTimed0.trig 4).ends)
    ∧ ((sEdgesAreTimed1.trig 4).high = true ∧ (sEdgesAreTimed1.trig 4).ends ≤ sEdgesAreTimed1.ns ∧ sEdgesAreTimed1.groupPending (8720 + 4) = false)
    ∧ ((sEdgesAreTimed2.trig 4).high = false ∧ sEdgesAreTimed2.trigRuns 4 = true ∧ sEdgesAreTimed2.trigPending 4 = true
        ∧ sEdgesAreTimed2.get (Obj.TRIG_START 4) ≤ sEdgesAreTimed2.ns
        ∧ ((sEdgesAreTimed2.trig 4).next ≤ if sEdgesAreTimed2.get (Obj.TRIG_MODE 4) = 2 ∧ sEdgesAreTimed2.get (Obj.TRIG_PERIOD_NS 4) ≠ 0 then (sEdgesAreTimed2.ns - sEdgesAreTimed2.get (Obj.TRIG_START 4)) / sEdgesAreTimed2.get (Obj.TRIG_PERIOD_NS 4) else 0)
        ∧ sEdgesAreTimed2.groupPending (8720 + 4) = false)
    ∧ ((sEdgesAreTimed3.trig 4).high = false ∧ sEdgesAreTimed3.trigRuns 4 = true ∧ sEdgesAreTimed3.trigPending 4 = true
        ∧ sEdgesAreTimed3.get (Obj.TRIG_START 4) ≤ sEdgesAreTimed3.ns
        ∧ ((sEdgesAreTimed3.trig 4).next ≤ if sEdgesAreTimed3.get (Obj.TRIG_MODE 4) = 2 ∧ sEdgesAreTimed3.get (Obj.TRIG_PERIOD_NS 4) ≠ 0 then (sEdgesAreTimed3.ns - sEdgesAreTimed3.get (Obj.TRIG_START 4)) / sEdgesAreTimed3.get (Obj.TRIG_PERIOD_NS 4) else 0)
        ∧ sEdgesAreTimed3.groupPending (8720 + 4) = false)
    ∧ ((sEdgesAreTimed4.trig 4).high = false
        ∧ (sEdgesAreTimed4.trigRuns 4 = false ∨ sEdgesAreTimed4.trigPending 4 = false ∨ sEdgesAreTimed4.ns < sEdgesAreTimed4.get (Obj.TRIG_START 4) ∨ (if sEdgesAreTimed4.get (Obj.TRIG_MODE 4) = 2 ∧ sEdgesAreTimed4.get (Obj.TRIG_PERIOD_NS 4) ≠ 0 then (sEdgesAreTimed4.ns - sEdgesAreTimed4.get (Obj.TRIG_START 4)) / sEdgesAreTimed4.get (Obj.TRIG_PERIOD_NS 4) else 0) < (sEdgesAreTimed4.trig 4).next))
    ∧ ((sEdgesAreTimed5.dev < Dev.PREOP ∨ 9 < sEdgesAreTimed5.get (Obj.CAP_FILTER_NS 4)))
    ∧ (Dev.PREOP ≤ sEdgesAreTimed6.dev ∧ sEdgesAreTimed6.get (Obj.CAP_FILTER_NS 4) ≤ 200 ∧ (4 = 0 → true = true → sEdgesAreTimed6.get Obj.TB_SOURCE ≠ 3)
        ∧ (∀ (i : Nat), i < 64 → sEdgesAreTimed6.get (Obj.SRC_KIND i) ≠ 3 ∨ sEdgesAreTimed6.get (Obj.SRC_LOCATOR i) % 16 ≠ 4)
        ∧ sEdgesAreTimed6.get (Obj.CAP_COUNT 4) + 1 < 2 ^ 64 ∧ sEdgesAreTimed6.get (Obj.CAP_DROPPED 4) + 1 < 2 ^ 32)
    ∧ (Dev.PREOP ≤ sEdgesAreTimed7.dev ∧ sEdgesAreTimed7.get (Obj.CAP_FILTER_NS 4) ≤ 200 ∧ (4 = 0 → false = true → sEdgesAreTimed7.get Obj.TB_SOURCE ≠ 3)
        ∧ (∀ (i : Nat), i < 64 → sEdgesAreTimed7.get (Obj.SRC_KIND i) ≠ 3 ∨ sEdgesAreTimed7.get (Obj.SRC_LOCATOR i) % 16 ≠ 4)
        ∧ sEdgesAreTimed7.get (Obj.CAP_COUNT 4) + 1 < 2 ^ 64 ∧ sEdgesAreTimed7.get (Obj.CAP_DROPPED 4) + 1 < 2 ^ 32)
    ∧ (Dev.PREOP ≤ sEdgesAreTimed8.dev ∧ sEdgesAreTimed8.get (Obj.CAP_FILTER_NS 4) ≤ 200 ∧ (4 = 0 → false = true → sEdgesAreTimed8.get Obj.TB_SOURCE ≠ 3)
        ∧ (∀ (i : Nat), i < 64 → sEdgesAreTimed8.get (Obj.SRC_KIND i) ≠ 3 ∨ sEdgesAreTimed8.get (Obj.SRC_LOCATOR i) % 16 ≠ 4)
        ∧ sEdgesAreTimed8.get (Obj.CAP_COUNT 4) + 1 < 2 ^ 64 ∧ sEdgesAreTimed8.get (Obj.CAP_DROPPED 4) + 1 < 2 ^ 32)
    ∧ (sTimeBaseFollows8.reads 2 (Obj.CAP_READ 15) ∧ (sTimeBaseFollows8.u.time.cap.at 15 { : CapS }).fifo = [])
    ∧ (sEdgesAreTimed9.reads 2 (Obj.CAP_READ 4) ∧ (sEdgesAreTimed9.u.time.cap.at 4 { : CapS }).fifo = [(10, 5, true), (20, 6, false)]) := by
  iterate 10 refine ⟨by decide +kernel, ?_⟩
  decide +kernel
def sFusionRuns0 : State := fusing [] {}
def sFusionRuns1 : State := fusing [(Obj.RETRO_WINDOW_MS 3, 0)] { last := some 20 }
def sFusionRuns2 : State := (fusing [(Obj.SRC_KIND 9, 4)] {}).withUnits fun u => { u with tt := { u.tt with jobs := [(4, sources1)], runs := [(6, run1)] } }
def sFusionRuns3 : State := { fusing [(Obj.OUT_FILTER 7, 8)] { queue := [input1] } with time := 20 * 4294967296 }
def sFusionRuns4 : State := gating [] 0x3F800000 []
def sFusionRuns5 : State := gating [] 0x42C80000 [seen1 11 0, seen1 10 0]
def sFusionRuns6 : State := gating [] 0x42C80000 [seen1 10 0]
def sFusionRuns7 : State := fusing [(Obj.OUT_PERIOD_NS 7, 1000)] {}
def sFusionRuns8 : State := { fusing [(Obj.OUT_PERIOD_NS 7, 1000)] {} with time := 2000 * 4294967296 }
def sFusionRuns9 : State := { fusing [(Obj.OUT_PERIOD_NS 7, 1000)] { last := some 5000 } with time := 2000 * 4294967296 }
def sFusionRuns10 : State := { fusing [(Obj.OUT_PERIOD_NS 7, 1000), (Obj.OUT_HOST_EN 7, 1)] { last := some 5000 } with time := 2000 * 4294967296 }
def sFusionRuns11 : State := fusing [(Obj.FILTER_STATE 3, 0)] {}
def sFusionRuns12 : State := fusing [(Obj.FILTER_STATE 3, 0), (Obj.FILTER_MODEL 3, 0)] {}

/-- States and operands that meet the hypotheses of `Obligations.FusionRuns`, clause by clause. -/
theorem wit_FusionRuns :
    ((sampleHead 0 10 []).length = 32 ∧ sFusionRuns0.feeds 9 = true ∧ (sFusionRuns0.get (Obj.SRC_KIND 9) = 1 ∨ sFusionRuns0.get (Obj.SRC_KIND 9) = 2)
        ∧ sFusionRuns0.groupPending (sourceCtl 9) = false ∧ sFusionRuns0.get (Obj.SRC_SAMPLES 9) + 1 < 2 ^ 64 ∧ sFusionRuns0.get Obj.E2E_CHECKED + 1 < 2 ^ 64
        ∧ headerFault (sFusionRuns0.u.fus.counters.get? 9) ((fun i n => ofLe (List.take n (List.drop i (sampleHead 0 10 [])))) 2 2) (sFusionRuns0.get (Obj.SRC_MAX_DELTA 9)) ((fun i n => ofLe (List.take n (List.drop i (sampleHead 0 10 [])))) 8 4 == crc 4 (List.take 8 (sampleHead 0 10 []) ++ List.drop 12 (sampleHead 0 10 []) ++ [])) = none
        ∧ ((if sFusionRuns0.get (Obj.SRC_E2E_MODE 9) = 0 then none else headerFault (sFusionRuns0.u.fus.sensors.get? 9) (sensorHeader []).fst (sFusionRuns0.get (Obj.SRC_MAX_DELTA 9)) ((sensorHeader []).snd.snd && (sensorHeader []).snd.fst == sFusionRuns0.get (Obj.SRC_SENSOR_DATA_ID 9))) = none)
        ∧ (∀ (l : Nat), (sFusionRuns0.filter (sFusionRuns0.get (Obj.SRC_FILTER 9))).last = some l → l ≤ (fun i n => ofLe (List.take n (List.drop i (sampleHead 0 10 [])))) 16 8))
    ∧ ((sampleHead 0 10 []).length = 32 ∧ sFusionRuns1.feeds 9 = true ∧ (sFusionRuns1.get (Obj.SRC_KIND 9) = 1 ∨ sFusionRuns1.get (Obj.SRC_KIND 9) = 2)
        ∧ sFusionRuns1.groupPending (sourceCtl 9) = false ∧ sFusionRuns1.get (Obj.SRC_SAMPLES 9) + 1 < 2 ^ 64 ∧ sFusionRuns1.get Obj.E2E_CHECKED + 1 < 2 ^ 64
        ∧ headerFault (sFusionRuns1.u.fus.counters.get? 9) ((fun i n => ofLe (List.take n (List.drop i (sampleHead 0 10 [])))) 2 2) (sFusionRuns1.get (Obj.SRC_MAX_DELTA 9)) ((fun i n => ofLe (List.take n (List.drop i (sampleHead 0 10 [])))) 8 4 == crc 4 (List.take 8 (sampleHead 0 10 []) ++ List.drop 12 (sampleHead 0 10 []) ++ [])) = none
        ∧ ((if sFusionRuns1.get (Obj.SRC_E2E_MODE 9) = 0 then none else headerFault (sFusionRuns1.u.fus.sensors.get? 9) (sensorHeader []).fst (sFusionRuns1.get (Obj.SRC_MAX_DELTA 9)) ((sensorHeader []).snd.snd && (sensorHeader []).snd.fst == sFusionRuns1.get (Obj.SRC_SENSOR_DATA_ID 9))) = none)
        ∧ (sFusionRuns1.filter (sFusionRuns1.get (Obj.SRC_FILTER 9))).last = some 20 ∧ (fun i n => ofLe (List.take n (List.drop i (sampleHead 0 10 [])))) 16 8 < 20
        ∧ sFusionRuns1.get (Obj.RETRO_WINDOW_MS (sFusionRuns1.get (Obj.SRC_FILTER 9))) = 0 ∧ sFusionRuns1.get (Obj.SRC_LATE_DROPPED 9) + 1 < 2 ^ 32)
    ∧ ((List.replicate 32 0).length = 32 ∧ sFusionRuns0.feeds 9 = true ∧ (sFusionRuns0.get (Obj.SRC_KIND 9) = 1 ∨ sFusionRuns0.get (Obj.SRC_KIND 9) = 2)
        ∧ sFusionRuns0.groupPending (sourceCtl 9) = false ∧ sFusionRuns0.get (Obj.SRC_SAMPLES 9) + 1 < 2 ^ 64 ∧ sFusionRuns0.get Obj.E2E_CHECKED + 1 < 2 ^ 64
        ∧ ((Option.map (fun w => ((fun i n => ofLe (List.take n (List.drop i (List.replicate 32 0)))) 2 2, w)) (headerFault (sFusionRuns0.u.fus.counters.get? 9) ((fun i n => ofLe (List.take n (List.drop i (List.replicate 32 0)))) 2 2) (sFusionRuns0.get (Obj.SRC_MAX_DELTA 9)) ((fun i n => ofLe (List.take n (List.drop i (List.replicate 32 0)))) 8 4 == crc 4 (List.take 8 (List.replicate 32 0) ++ List.drop 12 (List.replicate 32 0) ++ [1])))).or (Option.map (fun w => ((sensorHeader [1]).fst, w)) (if sFusionRuns0.get (Obj.SRC_E2E_MODE 9) = 0 then none else headerFault (sFusionRuns0.u.fus.sensors.get? 9) (sensorHeader [1]).fst (sFusionRuns0.get (Obj.SRC_MAX_DELTA 9)) ((sensorHeader [1]).snd.snd && (sensorHeader [1]).snd.fst == sFusionRuns0.get (Obj.SRC_SENSOR_DATA_ID 9)))) = some (0, 0))
        ∧ sFusionRuns0.u.safe.e2e.at 9 0 + 1 < sFusionRuns0.get Obj.E2E_FAIL_LIMIT ∧ sFusionRuns0.get Obj.E2E_FAILED + 1 < 2 ^ 32
        ∧ sFusionRuns0.get (Obj.SRC_E2E_FAILS 9) + 1 < 2 ^ 32)
    ∧ (sFusionRuns2.u.tt.jobs.get? 4 = some sources1 ∧ 9 ∈ sources1.decl.sources ∧ (sources1.phase = Phase.running ∨ sources1.phase = Phase.draining)
        ∧ sFusionRuns2.groupPending (sourceCtl 9) = false ∧ sFusionRuns2.measFits 9 { : Meas } = false)
    ∧ (sFusionRuns2.u.tt.jobs.get? 4 = some sources1 ∧ 9 ∈ sources1.decl.sources ∧ (sources1.phase = Phase.running ∨ sources1.phase = Phase.draining)
        ∧ sFusionRuns2.groupPending (sourceCtl 9) = false ∧ sFusionRuns2.measFits 9 meas1 = true ∧ sFusionRuns2.feeds 9 = true ∧ sFusionRuns2.get (Obj.SRC_KIND 9) = 4
        ∧ sFusionRuns2.get (Obj.SRC_E2E_MODE 9) = 0 ∧ sFusionRuns2.get (Obj.SRC_SAMPLES 9) + 1 < 2 ^ 64
        ∧ headerFault (sFusionRuns2.u.fus.counters.get? 9) (sFusionRuns2.u.fus.made.at 9 0) (sFusionRuns2.get (Obj.SRC_MAX_DELTA 9)) true = none
        ∧ (∀ (l : Nat), (sFusionRuns2.filter (sFusionRuns2.get (Obj.SRC_FILTER 9))).last = some l → l ≤ 10))
    ∧ (sFusionRuns3.filterOn 3 = true ∧ sFusionRuns3.groupPending (filterCtl 3) = false ∧ (sFusionRuns3.filter 3).queue = [input1] ∧ input1.src < 64
        ∧ sFusionRuns3.get (Obj.SRC_FILTER input1.src) = 3 ∧ input1.tov + sFusionRuns3.get (Obj.ALIGN_DELAY_NS 3) < sFusionRuns3.ns
        ∧ (sFusionRuns3.get (Obj.SRC_MEAS_KIND input1.src) = 6 → List.foldl (fun m e => min m e.tov) ((sFusionRuns3.filter 3).last.getD (sFusionRuns3.filter 3).started) (sFusionRuns3.filter 3).hist ≤ input1.m.earlier)
        ∧ (∀ (h : FusEvent), h ∈ (sFusionRuns3.filter 3).hist → laterTov (h.tov, h.frac) (input1.tov, input1.frac) = false)
        ∧ sFusionRuns3.get (Obj.SRC_FUSED input1.src) + 1 < 2 ^ 64 ∧ sFusionRuns3.get (Obj.UPDATES 3) + 1 < 2 ^ 64 ∧ sFusionRuns3.get (Obj.DIVERGENCES 3) + 1 < 2 ^ 32
        ∧ (∀ (o : Nat), o ∈ sFusionRuns3.outputsOf 3 → sFusionRuns3.get (Obj.OUT_ON_UPDATE o) = 0 ∧ sFusionRuns3.groupPending (outputCtl o) = false)
        ∧ (sFusionRuns3.eventOf input1.src input1.tov input1.frac input1.m).group = 64)
    ∧ (sFusionRuns4.filterOn 3 = true ∧ sFusionRuns4.groupPending (filterCtl 3) = false ∧ (sFusionRuns4.filter 3).queue = [input2] ∧ input2.src < 64
        ∧ sFusionRuns4.get (Obj.SRC_FILTER input2.src) = 3 ∧ input2.tov + sFusionRuns4.get (Obj.ALIGN_DELAY_NS 3) < sFusionRuns4.ns
        ∧ (sFusionRuns4.get (Obj.SRC_MEAS_KIND input2.src) = 6 → List.foldl (fun m e => min m e.tov) ((sFusionRuns4.filter 3).last.getD (sFusionRuns4.filter 3).started) (sFusionRuns4.filter 3).hist ≤ input2.m.earlier)
        ∧ (∀ (h : FusEvent), h ∈ (sFusionRuns4.filter 3).hist → laterTov (h.tov, h.frac) (input2.tov, input2.frac) = false)
        ∧ sFusionRuns4.get (Obj.SRC_FUSED input2.src) + 1 < 2 ^ 64 ∧ sFusionRuns4.get (Obj.UPDATES 3) + 1 < 2 ^ 64 ∧ sFusionRuns4.get (Obj.DIVERGENCES 3) + 1 < 2 ^ 32
        ∧ (∀ (o : Nat), o ∈ sFusionRuns4.outputsOf 3 → sFusionRuns4.get (Obj.OUT_ON_UPDATE o) = 0 ∧ sFusionRuns4.groupPending (outputCtl o) = false)
        ∧ (sFusionRuns4.eventOf input2.src input2.tov input2.frac input2.m).group ≠ 64
        ∧ sFusionRuns4.verdict (sFusionRuns4.gateSet 3 (sFusionRuns4.filter 3).hist (tried sFusionRuns4 3 input2)) (tried sFusionRuns4 3 input2) = Verdict.pass
        ∧ (∀ e ∈ sFusionRuns4.gateSet 3 (sFusionRuns4.filter 3).hist (tried sFusionRuns4 3 input2), sFusionRuns4.inConflict e.src = false)
        ∧ (sFusionRuns4.get (Obj.SRC_INNOV_GATE_EN 9) = 0 ∨ (fp (sFusionRuns4.get (Obj.SRC_GATE_CHI2 9))).lt (sFusionRuns4.ran 3 (sFusionRuns4.filter 3).hist (sFusionRuns4.filter 3).base { sFusionRuns4.eventOf 9 10 0 input2.m with fused := true }).2 = false))
    ∧ (sFusionRuns5.filterOn 3 = true ∧ sFusionRuns5.groupPending (filterCtl 3) = false ∧ (sFusionRuns5.filter 3).queue = [input3] ∧ input3.src < 64
        ∧ sFusionRuns5.get (Obj.SRC_FILTER input3.src) = 3 ∧ input3.tov + sFusionRuns5.get (Obj.ALIGN_DELAY_NS 3) < sFusionRuns5.ns
        ∧ (sFusionRuns5.get (Obj.SRC_MEAS_KIND input3.src) = 6 → List.foldl (fun m e => min m e.tov) ((sFusionRuns5.filter 3).last.getD (sFusionRuns5.filter 3).started) (sFusionRuns5.filter 3).hist ≤ input3.m.earlier)
        ∧ (∀ (h : FusEvent), h ∈ (sFusionRuns5.filter 3).hist → laterTov (h.tov, h.frac) (input3.tov, input3.frac) = false)
        ∧ sFusionRuns5.get (Obj.SRC_FUSED input3.src) + 1 < 2 ^ 64 ∧ sFusionRuns5.get (Obj.UPDATES 3) + 1 < 2 ^ 64 ∧ sFusionRuns5.get (Obj.DIVERGENCES 3) + 1 < 2 ^ 32
        ∧ (∀ (o : Nat), o ∈ sFusionRuns5.outputsOf 3 → sFusionRuns5.get (Obj.OUT_ON_UPDATE o) = 0 ∧ sFusionRuns5.groupPending (outputCtl o) = false)
        ∧ (sFusionRuns5.eventOf input3.src input3.tov input3.frac input3.m).group ≠ 64
        ∧ sFusionRuns5.verdict (sFusionRuns5.gateSet 3 (sFusionRuns5.filter 3).hist (tried sFusionRuns5 3 input3)) (tried sFusionRuns5 3 input3) = Verdict.outlier
        ∧ sFusionRuns5.get (Obj.SRC_EXCLUDED input3.src) + 1 < 2 ^ 32)
    ∧ (sFusionRuns6.filterOn 3 = true ∧ sFusionRuns6.groupPending (filterCtl 3) = false ∧ (sFusionRuns6.filter 3).queue = [input3] ∧ input3.src < 64
        ∧ sFusionRuns6.get (Obj.SRC_FILTER input3.src) = 3 ∧ input3.tov + sFusionRuns6.get (Obj.ALIGN_DELAY_NS 3) < sFusionRuns6.ns
        ∧ (sFusionRuns6.get (Obj.SRC_MEAS_KIND input3.src) = 6 → List.foldl (fun m e => min m e.tov) ((sFusionRuns6.filter 3).last.getD (sFusionRuns6.filter 3).started) (sFusionRuns6.filter 3).hist ≤ input3.m.earlier)
        ∧ (∀ (h : FusEvent), h ∈ (sFusionRuns6.filter 3).hist → laterTov (h.tov, h.frac) (input3.tov, input3.frac) = false)
        ∧ sFusionRuns6.get (Obj.SRC_FUSED input3.src) + 1 < 2 ^ 64 ∧ sFusionRuns6.get (Obj.UPDATES 3) + 1 < 2 ^ 64 ∧ sFusionRuns6.get (Obj.DIVERGENCES 3) + 1 < 2 ^ 32
        ∧ (∀ (o : Nat), o ∈ sFusionRuns6.outputsOf 3 → sFusionRuns6.get (Obj.OUT_ON_UPDATE o) = 0 ∧ sFusionRuns6.groupPending (outputCtl o) = false)
        ∧ (sFusionRuns6.eventOf input3.src input3.tov input3.frac input3.m).group ≠ 64
        ∧ sFusionRuns6.verdict (sFusionRuns6.gateSet 3 (sFusionRuns6.filter 3).hist (tried sFusionRuns6 3 input3)) (tried sFusionRuns6 3 input3) = Verdict.conflict)
    ∧ (sFusionRuns7.groupPending (outputCtl 7) = false ∧ sFusionRuns7.get (Obj.OUT_FILTER 7) < 8
        ∧ sFusionRuns7.groupPending (filterCtl (sFusionRuns7.get (Obj.OUT_FILTER 7))) = false ∧ sFusionRuns7.filterOn (sFusionRuns7.get (Obj.OUT_FILTER 7)) = true
        ∧ sFusionRuns7.get (Obj.OUT_PERIOD_NS 7) ≠ 0
        ∧ (¬((sFusionRuns7.filter (sFusionRuns7.get (Obj.OUT_FILTER 7))).started ≤ 2 * sFusionRuns7.get (Obj.OUT_PERIOD_NS 7) ∧ 2 * sFusionRuns7.get (Obj.OUT_PERIOD_NS 7) + sFusionRuns7.get (Obj.ALIGN_DELAY_NS (sFusionRuns7.get (Obj.OUT_FILTER 7))) ≤ sFusionRuns7.ns ∧ (∀ (i : FusInput), i ∈ (sFusionRuns7.filter (sFusionRuns7.get (Obj.OUT_FILTER 7))).queue → 2 * sFusionRuns7.get (Obj.OUT_PERIOD_NS 7) < i.tov) ∧ ∀ (p : Nat × Nat × Nat), p ∈ (sFusionRuns7.outRec 7).pubs → p.fst < 2 * sFusionRuns7.get (Obj.OUT_PERIOD_NS 7))))
    ∧ (sFusionRuns8.groupPending (outputCtl 7) = false ∧ sFusionRuns8.get (Obj.OUT_FILTER 7) < 8
        ∧ sFusionRuns8.groupPending (filterCtl (sFusionRuns8.get (Obj.OUT_FILTER 7))) = false ∧ sFusionRuns8.filterOn (sFusionRuns8.get (Obj.OUT_FILTER 7)) = true
        ∧ sFusionRuns8.get (Obj.OUT_PERIOD_NS 7) ≠ 0
        ∧ ((sFusionRuns8.filter (sFusionRuns8.get (Obj.OUT_FILTER 7))).started ≤ 2 * sFusionRuns8.get (Obj.OUT_PERIOD_NS 7) ∧ 2 * sFusionRuns8.get (Obj.OUT_PERIOD_NS 7) + sFusionRuns8.get (Obj.ALIGN_DELAY_NS (sFusionRuns8.get (Obj.OUT_FILTER 7))) ≤ sFusionRuns8.ns ∧ (∀ (i : FusInput), i ∈ (sFusionRuns8.filter (sFusionRuns8.get (Obj.OUT_FILTER 7))).queue → 2 * sFusionRuns8.get (Obj.OUT_PERIOD_NS 7) < i.tov) ∧ ∀ (p : Nat × Nat × Nat), p ∈ (sFusionRuns8.outRec 7).pubs → p.fst < 2 * sFusionRuns8.get (Obj.OUT_PERIOD_NS 7))
        ∧ true = true)
    ∧ (sFusionRuns9.groupPending (outputCtl 7) = false ∧ sFusionRuns9.get (Obj.OUT_FILTER 7) < 8
        ∧ sFusionRuns9.groupPending (filterCtl (sFusionRuns9.get (Obj.OUT_FILTER 7))) = false ∧ sFusionRuns9.filterOn (sFusionRuns9.get (Obj.OUT_FILTER 7)) = true
        ∧ sFusionRuns9.get (Obj.OUT_PERIOD_NS 7) ≠ 0
        ∧ ((sFusionRuns9.filter (sFusionRuns9.get (Obj.OUT_FILTER 7))).started ≤ 2 * sFusionRuns9.get (Obj.OUT_PERIOD_NS 7) ∧ 2 * sFusionRuns9.get (Obj.OUT_PERIOD_NS 7) + sFusionRuns9.get (Obj.ALIGN_DELAY_NS (sFusionRuns9.get (Obj.OUT_FILTER 7))) ≤ sFusionRuns9.ns ∧ (∀ (i : FusInput), i ∈ (sFusionRuns9.filter (sFusionRuns9.get (Obj.OUT_FILTER 7))).queue → 2 * sFusionRuns9.get (Obj.OUT_PERIOD_NS 7) < i.tov) ∧ ∀ (p : Nat × Nat × Nat), p ∈ (sFusionRuns9.outRec 7).pubs → p.fst < 2 * sFusionRuns9.get (Obj.OUT_PERIOD_NS 7))
        ∧ false = false ∧ sFusionRuns9.get (Obj.OUT_PUBLISHED 7) + 1 < 2 ^ 64 ∧ sFusionRuns9.get Obj.E2E_CHECKED + 1 < 2 ^ 64 ∧ sFusionRuns9.get (Obj.OUT_MSIX_EN 7) = 0)
    ∧ (sFusionRuns10.groupPending (outputCtl 7) = false ∧ sFusionRuns10.get (Obj.OUT_FILTER 7) < 8
        ∧ sFusionRuns10.groupPending (filterCtl (sFusionRuns10.get (Obj.OUT_FILTER 7))) = false ∧ sFusionRuns10.filterOn (sFusionRuns10.get (Obj.OUT_FILTER 7)) = true
        ∧ sFusionRuns10.get (Obj.OUT_PERIOD_NS 7) ≠ 0
        ∧ ((sFusionRuns10.filter (sFusionRuns10.get (Obj.OUT_FILTER 7))).started ≤ 2 * sFusionRuns10.get (Obj.OUT_PERIOD_NS 7) ∧ 2 * sFusionRuns10.get (Obj.OUT_PERIOD_NS 7) + sFusionRuns10.get (Obj.ALIGN_DELAY_NS (sFusionRuns10.get (Obj.OUT_FILTER 7))) ≤ sFusionRuns10.ns ∧ (∀ (i : FusInput), i ∈ (sFusionRuns10.filter (sFusionRuns10.get (Obj.OUT_FILTER 7))).queue → 2 * sFusionRuns10.get (Obj.OUT_PERIOD_NS 7) < i.tov) ∧ ∀ (p : Nat × Nat × Nat), p ∈ (sFusionRuns10.outRec 7).pubs → p.fst < 2 * sFusionRuns10.get (Obj.OUT_PERIOD_NS 7))
        ∧ false = false ∧ sFusionRuns10.get (Obj.OUT_PUBLISHED 7) + 1 < 2 ^ 64 ∧ sFusionRuns10.get Obj.E2E_CHECKED + 1 < 2 ^ 64 ∧ sFusionRuns10.get (Obj.OUT_MSIX_EN 7) = 0)
    ∧ (sFusionRuns0.groupPending (filterCtl 3) = false ∧ sFusionRuns0.admits 2 (Obj.FILTER_COMMAND 3) 1 Lvl.sup ∧ (sFusionRuns0.dev = Dev.OP ∨ sFusionRuns0.dev = Dev.HOLD)
        ∧ sFusionRuns0.get (Obj.FILTER_MODEL 3) ≠ 0 ∧ sFusionRuns0.filterOn 3 = true)
    ∧ (sFusionRuns11.groupPending (filterCtl 3) = false ∧ sFusionRuns11.admits 2 (Obj.FILTER_COMMAND 3) 1 Lvl.sup ∧ (sFusionRuns11.dev = Dev.OP ∨ sFusionRuns11.dev = Dev.HOLD)
        ∧ sFusionRuns11.get (Obj.FILTER_MODEL 3) ≠ 0 ∧ sFusionRuns11.filterOn 3 = false)
    ∧ (sFusionRuns12.groupPending (filterCtl 3) = false ∧ sFusionRuns12.admits 2 (Obj.FILTER_COMMAND 3) 1 Lvl.sup
        ∧ (sFusionRuns12.dev ≠ Dev.OP ∧ sFusionRuns12.dev ≠ Dev.HOLD ∨ sFusionRuns12.get (Obj.FILTER_MODEL 3) = 0))
    ∧ (sFusionRuns0.groupPending (filterCtl 3) = false ∧ sFusionRuns0.admits 2 (Obj.FILTER_COMMAND 3) 2 Lvl.sup ∧ sFusionRuns0.u.dict.pendingGroups = [])
    ∧ (sFusionRuns11.groupPending (filterCtl 3) = false ∧ sFusionRuns11.admits 2 (Obj.FILTER_COMMAND 3) 3 Lvl.sup ∧ sFusionRuns11.filterOn 3 = false)
    ∧ (sFusionRuns0.groupPending (filterCtl 3) = false ∧ sFusionRuns0.admits 2 (Obj.FILTER_COMMAND 3) 3 Lvl.sup ∧ sFusionRuns0.filterOn 3 = true
        ∧ (∀ (h : FusEvent), h ∈ (sFusionRuns0.filter 3).hist → laterTov (h.tov, h.frac) (max sFusionRuns0.ns ((sFusionRuns0.filter 3).last.getD 0), 0) = false)) := by
  iterate 18 refine ⟨by decide +kernel, ?_⟩
  decide +kernel
def sChannelsControl0 : State := controlling [(Obj.CH_STATE 260, 2)] {} { frame := some (5, 5100) }
def sChannelsControl1 : State := controlling [(Obj.CH_STATE 260, 2)] {} { frame := some (5, 5100) } map2
def sChannelsControl2 : State := { controlling [(Obj.CH_STATE 260, 2)] {} {} with time := 6000 * 4294967296 }
def sChannelsControl3 : State := { controlling [(Obj.CH_STATE 260, 2), (Obj.MAX_MISSED 260, 0)] {} {} with time := 6000 * 4294967296 }
def sChannelsControl4 : State := controlling [(Obj.CH_STATE 260, 2)] { newRef := some ([0x3F800000], 77) } {}
def sChannelsControl5 : State := controlling [(Obj.CH_STATE 260, 2)] {} {}
def jobChannelsControl0 : Job := { job1 with phase := .running }
def sChannelsControl6 : State := controlling [(Obj.CH_STATE 260, 2), (Obj.REF_CONTEXT 260, 8)] {} {}
def sChannelsControl7 : State := controlling [(Obj.CH_STATE 260, 0)] {} {}
def sChannelsControl8 : State := controlling [] {} {}
def sChannelsControl9 : State := controlling [(Obj.CH_STATE 287, 2)] {} {}
def sChannelsControl10 : State := controlling [(Obj.CH_STATE 260, 3)] {} {}

/-- States and operands that meet the hypotheses of `Obligations.ChannelsControl`, clause by clause. -/
theorem wit_ChannelsControl :
    (sChannelsControl0.waits 260 = true ∧ sChannelsControl0.served 260 = true ∧ (sChannelsControl0.dev = Dev.OP ∨ sChannelsControl0.dev = Dev.HOLD)
        ∧ sChannelsControl0.delivered (sChannelsControl0.ioMap 260) = some (5, 5000, 0, 5100)
        ∧ (∀ (u : Nat), (sChannelsControl0.chan 260).used = some u → u ≤ (5, 5000, 0, 5100).fst)
        ∧ (∀ (e : Nat × Blk), e ∈ (sChannelsControl0.chan 260).missing → e.fst ≠ (5, 5000, 0, 5100).fst)
        ∧ (5, 5000, 0, 5100).snd.snd.snd ≤ sChannelsControl0.instant (sChannelsControl0.ioMap 260) (5, 5000, 0, 5100).fst + sChannelsControl0.get (Obj.MISS_AFTER_NS 260)
        ∧ sChannelsControl0.get (Obj.SAMPLES 260) + 1 < 2 ^ 64 ∧ sChannelsControl0.sampleIn (sChannelsControl0.ioMap 260) = some [Machine.Num.fin false 0 (-149)]
        ∧ (sChannelsControl0.get (Obj.CH_STATE 260) = 1 ∨ sChannelsControl0.get (Obj.CH_STATE 260) = 2 ∨ sChannelsControl0.get (Obj.CH_STATE 260) = 0 ∧ (sChannelsControl0.chan 260).begin = true))
    ∧ (sChannelsControl1.waits 260 = true ∧ sChannelsControl1.served 260 = true ∧ (sChannelsControl1.dev = Dev.OP ∨ sChannelsControl1.dev = Dev.HOLD)
        ∧ sChannelsControl1.delivered (sChannelsControl1.ioMap 260) = some (5, 5000, 0, 5100)
        ∧ (∀ (u : Nat), (sChannelsControl1.chan 260).used = some u → u ≤ (5, 5000, 0, 5100).fst)
        ∧ (∀ (e : Nat × Blk), e ∈ (sChannelsControl1.chan 260).missing → e.fst ≠ (5, 5000, 0, 5100).fst)
        ∧ (5, 5000, 0, 5100).snd.snd.snd ≤ sChannelsControl1.instant (sChannelsControl1.ioMap 260) (5, 5000, 0, 5100).fst + sChannelsControl1.get (Obj.MISS_AFTER_NS 260)
        ∧ sChannelsControl1.get (Obj.SAMPLES 260) + 1 < 2 ^ 64 ∧ sChannelsControl1.sampleIn (sChannelsControl1.ioMap 260) = none
        ∧ sChannelsControl1.get (Obj.IMPLAUSIBLE 260) + 1 < 2 ^ 32 ∧ sChannelsControl1.get (Obj.MISSED 260) + 1 < 2 ^ 32)
    ∧ (sChannelsControl2.takes 260 = true ∧ (sChannelsControl2.dev = Dev.OP ∨ sChannelsControl2.dev = Dev.HOLD)
        ∧ sChannelsControl2.instant (sChannelsControl2.ioMap 260) 5 + sChannelsControl2.get (Obj.MISS_AFTER_NS 260) ≤ sChannelsControl2.ns
        ∧ (∀ (j : Nat), (sChannelsControl2.chan 260).seen = some j → j < 5)
        ∧ (∀ (d : Nat × Nat × Nat × Nat), sChannelsControl2.delivered (sChannelsControl2.ioMap 260) = some d → d.fst < 5 ∨ sChannelsControl2.instant (sChannelsControl2.ioMap 260) 5 + sChannelsControl2.get (Obj.MISS_AFTER_NS 260) < d.snd.snd.snd)
        ∧ (sChannelsControl2.chan 260).begin = false ∧ (sChannelsControl2.chan 260).bg = none ∧ (sChannelsControl2.chan 260).fold = none
        ∧ sChannelsControl2.get (Obj.SAMPLES 260) + 1 < 2 ^ 64 ∧ sChannelsControl2.get (Obj.MISSED 260) + 1 < 2 ^ 32
        ∧ sChannelsControl2.get (Obj.CONSEC_MISSED 260) + 1 < 256)
    ∧ (sChannelsControl3.takes 260 = true ∧ (sChannelsControl3.dev = Dev.OP ∨ sChannelsControl3.dev = Dev.HOLD)
        ∧ sChannelsControl3.instant (sChannelsControl3.ioMap 260) 5 + sChannelsControl3.get (Obj.MISS_AFTER_NS 260) ≤ sChannelsControl3.ns
        ∧ (∀ (j : Nat), (sChannelsControl3.chan 260).seen = some j → j < 5)
        ∧ (∀ (d : Nat × Nat × Nat × Nat), sChannelsControl3.delivered (sChannelsControl3.ioMap 260) = some d → d.fst < 5 ∨ sChannelsControl3.instant (sChannelsControl3.ioMap 260) 5 + sChannelsControl3.get (Obj.MISS_AFTER_NS 260) < d.snd.snd.snd)
        ∧ (sChannelsControl3.chan 260).begin = false ∧ (sChannelsControl3.chan 260).bg = none ∧ (sChannelsControl3.chan 260).fold = none
        ∧ sChannelsControl3.get (Obj.SAMPLES 260) + 1 < 2 ^ 64 ∧ sChannelsControl3.get (Obj.MISSED 260) + 1 < 2 ^ 32
        ∧ sChannelsControl3.get (Obj.CONSEC_MISSED 260) + 1 < 256)
    ∧ ((sChannelsControl4.chan 260).newRef = some ([1065353216], 77) ∧ (sChannelsControl4.chan 260).bg = none ∧ (sChannelsControl4.chan 260).fold = none)
    ∧ (sChannelsControl5.admits 2 (Obj.REF_GO 260) 1 Lvl.host)
    ∧ (sChannelsControl5.u.tt.jobs.get? 4 = some jobChannelsControl0 ∧ (jobChannelsControl0.phase = Phase.running ∨ jobChannelsControl0.phase = Phase.draining)
        ∧ jobChannelsControl0.ctx = sChannelsControl5.get (Obj.REF_CONTEXT 260) ∧ sChannelsControl5.get (Obj.CH_STATE 260) ≠ 0
        ∧ [1065353216].length = (sChannelsControl5.coeffs 260).nr ∧ (∀ (v : Nat), v ∈ [1065353216] → (fp v).isFin = true))
    ∧ (sChannelsControl6.u.tt.jobs.get? 4 = some jobChannelsControl0 ∧ (jobChannelsControl0.phase = Phase.running ∨ jobChannelsControl0.phase = Phase.draining)
        ∧ jobChannelsControl0.ctx ≠ sChannelsControl6.get (Obj.REF_CONTEXT 260))
    ∧ (sChannelsControl7.u.tt.jobs.get? 4 = some jobChannelsControl0 ∧ (jobChannelsControl0.phase = Phase.running ∨ jobChannelsControl0.phase = Phase.draining)
        ∧ jobChannelsControl0.ctx = sChannelsControl7.get (Obj.REF_CONTEXT 260)
        ∧ (sChannelsControl7.get (Obj.CH_STATE 260) = 0 ∨ [1065353216].length ≠ (sChannelsControl7.coeffs 260).nr ∨ ∃ v, v ∈ [1065353216] ∧ (fp v).isFin = false))
    ∧ (sChannelsControl8.admits 2 (Obj.CH_COMMAND 260) 1 Lvl.sup ∧ (sChannelsControl8.dev = Dev.OP ∨ sChannelsControl8.dev = Dev.HOLD)
        ∧ sChannelsControl8.get (Obj.CH_STATE 260) = 0)
    ∧ (sChannelsControl9.admits 2 (Obj.CH_COMMAND 287) 2 Lvl.sup
        ∧ (sChannelsControl9.get (Obj.CH_STATE 287) = 1 ∨ sChannelsControl9.get (Obj.CH_STATE 287) = 2 ∨ sChannelsControl9.get (Obj.CH_STATE 287) = 3))
    ∧ (sChannelsControl10.admits 2 (Obj.CH_COMMAND 260) 3 Lvl.sup ∧ sChannelsControl10.get (Obj.CH_STATE 260) = 3 ∧ sChannelsControl10.groupPending (chanCtl 260) = false)
    ∧ ((Instr.chClear 2 260 = Instr.chStart 2 260 ∧ 3 = 1 ∧ (sChannelsControl8.dev ≠ Dev.OP ∧ sChannelsControl8.dev ≠ Dev.HOLD ∨ sChannelsControl8.get (Obj.CH_STATE 260) ≠ 0) ∨ Instr.chClear 2 260 = Instr.chStop 2 260 ∧ 3 = 2 ∧ sChannelsControl8.get (Obj.CH_STATE 260) ≠ 1 ∧ sChannelsControl8.get (Obj.CH_STATE 260) ≠ 2 ∧ sChannelsControl8.get (Obj.CH_STATE 260) ≠ 3 ∨ Instr.chClear 2 260 = Instr.chClear 2 260 ∧ 3 = 3 ∧ sChannelsControl8.get (Obj.CH_STATE 260) ≠ 3)
        ∧ sChannelsControl8.admits 2 (Obj.CH_COMMAND 260) 3 Lvl.sup) := by
  iterate 12 refine ⟨by decide +kernel, ?_⟩
  decide +kernel
def sHostAndNetworkLinks0 : State := linked 1 [(Obj.TRANSPORT 0, 0), (Obj.DOM_STATE 70, 2)] { perst := true }
def sHostAndNetworkLinks1 : State := linked 1 [] { perst := true, l0 := true }
def sHostAndNetworkLinks2 : State := linked 1 [] {}
def sHostAndNetworkLinks3 : State := linked 3 [(Obj.SPARE_LANE_USED, 0xFF)] {}
def sHostAndNetworkLinks4 : State := linked 2 [(Obj.SPARE_LANE_USED, 0xFF), (Obj.DEVICE_STATE, 5)] {}
def sHostAndNetworkLinks5 : State := linked 1 [(Obj.PORT_ENABLE 2, 1)] {}
def sHostAndNetworkLinks6 : State := linked 1 [(Obj.PORT_ENABLE 2, 0)] {}
def sHostAndNetworkLinks7 : State := linked 1 [(Obj.PORT_LINK 2, 3)] {}
def sHostAndNetworkLinks8 : State := linked 1 [(Obj.PORT_LINK 2, 3), (Obj.IP_ADDR 2, 7)] {}
def sHostAndNetworkLinks9 : State := linked 1 [] { qps := [(5, { retries := 6 })] }
def sHostAndNetworkLinks10 : State := linked 1 [] { qps := [(5, { retries := 7 })] }
def sHostAndNetworkLinks11 : State := colliding [] collJob
def exchangeHostAndNetworkLinks0 : Exchange := { exch1 with bytes := 8 }
def exchangeHostAndNetworkLinks1 : Exchange := { exch1 with tag := List.replicate 32 0 }
def sHostAndNetworkLinks12 : State := colliding [(Obj.SEED_STOCK_EN, 0)] collJob
def sHostAndNetworkLinks13 : State := colliding [(Obj.SEED_STOCK_EN, 0)] { collJob with decl := { coll := some { coll1 with op := 5 } } }
def jobHostAndNetworkLinks0 : Job := { collJob with decl := { coll := some { coll1 with op := 5 } } }
def colldeclHostAndNetworkLinks0 : CollDecl := { coll1 with op := 5 }
def exchangeHostAndNetworkLinks2 : Exchange := { exch1 with op := 5 }
def sHostAndNetworkLinks14 : State := (colliding [] collJob).withUnits fun u => { u with links := { u.links with qps := [(6, { retries := 7, failed := true })] } }

/-- States and operands that meet the hypotheses of `Obligations.HostAndNetworkLinks`, clause by clause. -/
theorem wit_HostAndNetworkLinks :
    (sHostAndNetworkLinks0.u.links.perst = true ∧ sHostAndNetworkLinks0.get (Obj.DOM_STATE 70) = 2 ∧ sHostAndNetworkLinks0.isOpen 0 = false
        ∧ sHostAndNetworkLinks0.dev ≠ Dev.STANDBY)
    ∧ (sHostAndNetworkLinks1.u.links.l0 = true ∧ sHostAndNetworkLinks1.isOpen 0 = true)
    ∧ (sHostAndNetworkLinks1.isOpen 0 = true)
    ∧ (sHostAndNetworkLinks3.get (Obj.DOM_STATE 71) = 2)
    ∧ (sHostAndNetworkLinks4.admits 2 (Obj.LANE_RETIRE 2) 0 Lvl.svc ∧ (sHostAndNetworkLinks4.lanesOf 2)[0]? = some 2)
    ∧ (sHostAndNetworkLinks5.get (Obj.PORT_ENABLE 2) ≠ 0 ∧ sHostAndNetworkLinks5.get (Obj.DOM_STATE 71) = 2 ∧ ¬2 ∈ sHostAndNetworkLinks5.u.links.dead
        ∧ sHostAndNetworkLinks5.lanesOf 2 ≠ [])
    ∧ ((sHostAndNetworkLinks6.get (Obj.PORT_ENABLE 2) = 0 ∨ sHostAndNetworkLinks6.get (Obj.DOM_STATE 71) ≠ 2 ∨ 2 ∈ sHostAndNetworkLinks6.u.links.dead ∨ sHostAndNetworkLinks6.lanesOf 2 = []))
    ∧ (sHostAndNetworkLinks2.get (Obj.PORT_LINK 2) = 0)
    ∧ (sHostAndNetworkLinks7.get (Obj.PORT_LINK 2) ≠ 0
        ∧ (sHostAndNetworkLinks7.get Obj.TB_SOURCE ≠ 1 ∨ sHostAndNetworkLinks7.get Obj.PTP_PORT ≠ 2 ∨ sHostAndNetworkLinks7.get Obj.TB_STATE ≠ Tb.LOCKED))
    ∧ (sHostAndNetworkLinks9.u.links.qps.at 5 { : QpS } = { retries := 6 : QpS } ∧ { retries := 6 : QpS }.failed = false ∧ { retries := 6 : QpS }.retries < 7)
    ∧ (sHostAndNetworkLinks10.u.links.qps.at 5 { : QpS } = { retries := 7 : QpS } ∧ { retries := 7 : QpS }.failed = false ∧ 7 ≤ { retries := 7 : QpS }.retries)
    ∧ (sHostAndNetworkLinks11.u.tt.jobs.get? 4 = some collJob ∧ collJob.decl.coll = some coll1 ∧ coll1.group < 8 ∧ Wf.collectiveExchange 4 exchangeHostAndNetworkLinks0 = true
        ∧ collJob.phase ≠ Phase.ready
        ∧ ¬(coll1.group = exchangeHostAndNetworkLinks0.group ∧ coll1.bytes = exchangeHostAndNetworkLinks0.bytes ∧ opsMeet coll1.op exchangeHostAndNetworkLinks0.op = true))
    ∧ (sHostAndNetworkLinks11.u.tt.jobs.get? 4 = some collJob ∧ collJob.decl.coll = some coll1 ∧ coll1.group < 8 ∧ Wf.collectiveExchange 4 exchangeHostAndNetworkLinks1 = true
        ∧ collJob.phase ≠ Phase.ready
        ∧ coll1.group = exchangeHostAndNetworkLinks1.group ∧ coll1.bytes = exchangeHostAndNetworkLinks1.bytes ∧ opsMeet coll1.op exchangeHostAndNetworkLinks1.op = true
        ∧ ¬(fun q => (sHostAndNetworkLinks11.u.links.qps.at q { : QpS }).failed = true) (sHostAndNetworkLinks11.get (Obj.COLL_QP_NEXT coll1.group))
        ∧ ¬(fun q => (sHostAndNetworkLinks11.u.links.qps.at q { : QpS }).failed = true) (sHostAndNetworkLinks11.get (Obj.COLL_QP_PREV coll1.group))
        ∧ (¬(exchangeHostAndNetworkLinks1.data = [] ∨ ofLe (List.drop 28 exchangeHostAndNetworkLinks1.tag) = crc32c (tileSlice exchangeHostAndNetworkLinks1.data 0))))
    ∧ (sHostAndNetworkLinks12.u.tt.jobs.get? 4 = some collJob ∧ collJob.decl.coll = some coll1 ∧ coll1.group < 8 ∧ Wf.collectiveExchange 4 exch1 = true
        ∧ collJob.phase ≠ Phase.ready ∧ coll1.group = exch1.group ∧ coll1.bytes = exch1.bytes ∧ opsMeet coll1.op exch1.op = true
        ∧ ¬(fun q => (sHostAndNetworkLinks12.u.links.qps.at q { : QpS }).failed = true) (sHostAndNetworkLinks12.get (Obj.COLL_QP_NEXT coll1.group))
        ∧ ¬(fun q => (sHostAndNetworkLinks12.u.links.qps.at q { : QpS }).failed = true) (sHostAndNetworkLinks12.get (Obj.COLL_QP_PREV coll1.group))
        ∧ (exch1.data = [] ∨ ofLe (List.drop 28 exch1.tag) = crc32c (tileSlice exch1.data 0)) ∧ exch1.data ≠ [] ∧ coll1.tiles[exch1.place]? = some (7 * 65536)
        ∧ sHostAndNetworkLinks12.writeFault collJob.ctx (7 * 65536) exch1.tag = none ∧ sHostAndNetworkLinks12.get Obj.SEED_STOCK_EN = 0
        ∧ (exch1.hop < (hops (sHostAndNetworkLinks12.members coll1.group) coll1.op).snd → sHostAndNetworkLinks12.lossOf (tileNo (7 * 65536)) = none ∧ reducible exch1.tag = true))
    ∧ (sHostAndNetworkLinks11.u.tt.jobs.get? 4 = some collJob ∧ collJob.decl.coll = some coll1 ∧ coll1.group < 8 ∧ sHostAndNetworkLinks11.get Obj.COLL_NO_LIMIT = 0)
    ∧ (sHostAndNetworkLinks13.u.tt.jobs.get? 4 = some jobHostAndNetworkLinks0 ∧ jobHostAndNetworkLinks0.decl.coll = some colldeclHostAndNetworkLinks0
        ∧ colldeclHostAndNetworkLinks0.group < 8 ∧ Wf.collectiveExchange 4 exchangeHostAndNetworkLinks2 = true ∧ jobHostAndNetworkLinks0.phase ≠ Phase.ready
        ∧ colldeclHostAndNetworkLinks0.group = exchangeHostAndNetworkLinks2.group ∧ colldeclHostAndNetworkLinks0.bytes = exchangeHostAndNetworkLinks2.bytes ∧ opsMeet colldeclHostAndNetworkLinks0.op exchangeHostAndNetworkLinks2.op = true
        ∧ ¬(fun q => (sHostAndNetworkLinks13.u.links.qps.at q { : QpS }).failed = true) (sHostAndNetworkLinks13.get (Obj.COLL_QP_NEXT colldeclHostAndNetworkLinks0.group))
        ∧ ¬(fun q => (sHostAndNetworkLinks13.u.links.qps.at q { : QpS }).failed = true) (sHostAndNetworkLinks13.get (Obj.COLL_QP_PREV colldeclHostAndNetworkLinks0.group))
        ∧ (exchangeHostAndNetworkLinks2.data = [] ∨ ofLe (List.drop 28 exchangeHostAndNetworkLinks2.tag) = crc32c (tileSlice exchangeHostAndNetworkLinks2.data 0))
        ∧ exchangeHostAndNetworkLinks2.data ≠ [] ∧ colldeclHostAndNetworkLinks0.tiles[exchangeHostAndNetworkLinks2.place]? = some (7 * 65536)
        ∧ sHostAndNetworkLinks13.writeFault jobHostAndNetworkLinks0.ctx (7 * 65536) exchangeHostAndNetworkLinks2.tag = none
        ∧ sHostAndNetworkLinks13.get Obj.SEED_STOCK_EN = 0
        ∧ (exchangeHostAndNetworkLinks2.hop < (hops (sHostAndNetworkLinks13.members colldeclHostAndNetworkLinks0.group) colldeclHostAndNetworkLinks0.op).snd → sHostAndNetworkLinks13.lossOf (tileNo (7 * 65536)) = none ∧ reducible exchangeHostAndNetworkLinks2.tag = true))
    ∧ (sHostAndNetworkLinks14.u.tt.jobs.get? 4 = some collJob ∧ collJob.decl.coll = some coll1 ∧ coll1.group < 8 ∧ Wf.collectiveExchange 4 exch1 = true
        ∧ collJob.phase ≠ Phase.ready ∧ coll1.group = exch1.group ∧ coll1.bytes = exch1.bytes ∧ opsMeet coll1.op exch1.op = true
        ∧ ((fun q => (sHostAndNetworkLinks14.u.links.qps.at q { : QpS }).failed = true) (sHostAndNetworkLinks14.get (Obj.COLL_QP_NEXT coll1.group)) ∨ (fun q => (sHostAndNetworkLinks14.u.links.qps.at q { : QpS }).failed = true) (sHostAndNetworkLinks14.get (Obj.COLL_QP_PREV coll1.group)))) := by
  iterate 16 refine ⟨by decide +kernel, ?_⟩
  decide +kernel
def sFieldBusLinks0 : State := linked 1 [(Obj.LINE_ENABLE 1, 1), (Obj.LINE_STATE 1, 1)] {}
def sFieldBusLinks1 : State := (controlling [(Obj.INPUT_LAUNCH_NS 0, 0), (Obj.LINE_ENABLE 0, 1), (Obj.LINE_STATE 0, 2), (Obj.CH_STATE 260, 2)] {} { cycle := some 0 }).withUnits fun u => { u with dict := { u.dict with blobs := [(Obj.IO_MAP 260, [0, 1, 1, 0] ++ List.replicate 12 0 ++ [1] ++ List.replicate 39 0)] } }
def sFieldBusLinks2 : State := linked 1 [(Obj.LINE_ENABLE 1, 1), (Obj.LINE_STATE 1, 1)] { lines := [(1, { launched := some 7 })] }
def sFieldBusLinks3 : State := linked 1 [(Obj.LINE_ENABLE 1, 1), (Obj.LINE_STATE 1, 3)] {}
def sFieldBusLinks4 : State := linked 1 [(Obj.LINE_ENABLE 1, 1), (Obj.LINE_STATE 1, 3), (Obj.AUTO_RECOVER 1, 1)] {}
def sFieldBusLinks5 : State := linked 1 [(Obj.TRANSPORT 1, 2)] { slaveUp := true }

/-- States and operands that meet the hypotheses of `Obligations.FieldBusLinks`, clause by clause. -/
theorem wit_FieldBusLinks :
    (sFieldBusLinks0.lineRuns 1 = true ∧ sFieldBusLinks0.sync0 1 0 ≤ sFieldBusLinks0.ns ∧ (∀ (j : Nat), (sFieldBusLinks0.line 1).cycle = some j → j < 0))
    ∧ ((sFieldBusLinks1.line 0).cycle = some 0 ∧ sFieldBusLinks1.lineRuns 0 = true ∧ sFieldBusLinks1.sync0 0 0 + sFieldBusLinks1.get (Obj.INPUT_LAUNCH_NS 0) ≤ sFieldBusLinks1.ns
        ∧ (sFieldBusLinks1.line 0).launched ≠ some 0)
    ∧ (Wf.ecatInputFrame 1 7 (List.replicate 4096 2) true true = true ∧ (sFieldBusLinks2.line 1).launched = some 7 ∧ sFieldBusLinks2.lineRuns 1 = true)
    ∧ (Wf.ecatInputFrame 1 8 [1, 2] true true = true ∧ (sFieldBusLinks2.line 1).launched = some 7 ∧ sFieldBusLinks2.lineRuns 1 = true)
    ∧ (Wf.ecatInputFrame 1 7 [1, 2] true true = true ∧ (sFieldBusLinks2.line 1).launched = some 7 ∧ sFieldBusLinks2.lineRuns 1 = true)
    ∧ (Wf.ecatInputFrame 1 6 [1, 2] true true = true ∧ (sFieldBusLinks2.line 1).launched = some 7 ∧ sFieldBusLinks2.lineRuns 1 = true)
    ∧ (Wf.ecatInputFrame 1 7 [1, 2] true true = true ∧ (sFieldBusLinks2.line 1).launched = some 7 ∧ sFieldBusLinks2.lineRuns 1 = true)
    ∧ (Wf.ecatRingChange 1 3 500 12 = true ∧ sFieldBusLinks0.get (Obj.LINE_STATE 1) ≠ 0 ∧ sFieldBusLinks0.get (Obj.LINE_STATE 1) ≠ 3)
    ∧ (Wf.ecatLineProbe 1 12 1 500 true = true ∧ sFieldBusLinks3.get (Obj.LINE_STATE 1) = 3)
    ∧ (Wf.ecatLineProbe 1 512 2 500 true = true ∧ sFieldBusLinks4.get (Obj.LINE_STATE 1) = 3)
    ∧ (sFieldBusLinks5.u.links.slaveUp = true)
    ∧ (sHostAndNetworkLinks2.u.links.slaveUp = false ∧ sHostAndNetworkLinks2.dev ≠ Dev.STANDBY) := by
  iterate 11 refine ⟨by decide +kernel, ?_⟩
  decide +kernel
def sSensorPortsTransfer0 : State := linked 1 [(Obj.CSI_ENABLE 3, 1), (Obj.CSI_VC 3, 2)] { csi := [(3, { last := some 65535 })] }
def sSensorPortsTransfer1 : State := linked 1 [(Obj.CSI_ENABLE 3, 1), (Obj.CSI_VC 3, 2), (Obj.CSI_DT 3, 0x2A), (Obj.CSI_EMBEDDED 3, 1)] { csi := [(3, { frame := some frame1 })] }
def sSensorPortsTransfer2 : State := linked 1 [(Obj.CSI_ENABLE 3, 1), (Obj.CSI_VC 3, 2), (Obj.CSI_DT 3, 0x2A)] { csi := [(3, { frame := some frame1 })] }
def sSensorPortsTransfer3 : State := linked 1 [(Obj.CSI_ENABLE 3, 1), (Obj.CSI_VC 3, 2), (Obj.CSI_DROP_DAMAGED 3, 1), (Obj.CSI_HEIGHT 3, 2)] { csi := [(3, { frame := some frame1 })] }
def sSensorPortsTransfer4 : State := linked 1 [(Obj.CSI_ENABLE 3, 1), (Obj.CSI_VC 3, 2), (Obj.CSI_DROP_DAMAGED 3, 1), (Obj.CSI_FRAME_TIMEOUT_US 3, 0)] { csi := [(3, { frame := some frame1 })] }
def sSensorPortsTransfer5 : State := linked 1 [(Obj.CSI_ENABLE 3, 1), (Obj.CSI_VC 3, 2)] { csi := [(3, { frame := some frame1 })] }
def sSensorPortsTransfer6 : State := linked 1 [(Obj.CSI_ENABLE 3, 1), (Obj.CSI_VC 3, 2), (Obj.CSI_CONTEXT 3, 3)] { csi := [(3, { frame := some frame1, slots := [{ desc := (70, 1), pix := (71, 1) }] })] }
def sSensorPortsTransfer7 : State := linked 1 [(Obj.CSI_ENABLE 3, 1), (Obj.CSI_VC 3, 2), (Obj.CSI_FRAME_TIMEOUT_US 3, 1)] { csi := [(3, { frame := some frame1 })] }
def sSensorPortsTransfer8 : State := linked 1 [(Obj.SPI_LENGTH 3, 4), (Obj.SPI_PERIOD_NS 3, 100)] {}
def sSensorPortsTransfer9 : State := (linked 1 [(Obj.SPI_LENGTH 3, 4), (Obj.SPI_EDGE_INPUT 3, 15)] {}).withUnits fun u => { u with time := { u.time with cap := [(15, { last := some (5, 0) })] } }
def sSensorPortsTransfer10 : State := linked 1 [(Obj.SPI_LENGTH 3, 2)] { spi := [(3, { busy := some (5, (10, 0), true) })] }
def sSensorPortsTransfer11 : State := linked 1 [(Obj.SPI_LENGTH 3, 2)] { spi := [(3, { busy := some (5, (10, 0), false), vioOut := true })] }
def sSensorPortsTransfer12 : State := linked 1 [(Obj.DEVICE_STATE, 0)] {}
def sSensorPortsTransfer13 : State := linked 1 [] { spi := [(3, { vioOut := true })] }

/-- States and operands that meet the hypotheses of `Obligations.SensorPortsTransfer`, clause by clause. -/
theorem wit_SensorPortsTransfer :
    (sSensorPortsTransfer0.get (Obj.CSI_ENABLE 3) ≠ 0 ∧ Dev.PREOP ≤ sSensorPortsTransfer0.dev ∧ 2 = sSensorPortsTransfer0.get (Obj.CSI_VC 3)
        ∧ sSensorPortsTransfer0.groupPending (csiCtl 3) = false ∧ (sSensorPortsTransfer0.csi 3).frame = none ∧ sSensorPortsTransfer0.get (Obj.ARRIVALS 3) + 1 < 2 ^ 64
        ∧ sSensorPortsTransfer0.get (Obj.FRAME_GAPS 3) + 1 < 2 ^ 32)
    ∧ (sSensorPortsTransfer1.get (Obj.CSI_ENABLE 3) ≠ 0 ∧ Dev.PREOP ≤ sSensorPortsTransfer1.dev ∧ 2 = sSensorPortsTransfer1.get (Obj.CSI_VC 3)
        ∧ sSensorPortsTransfer1.groupPending (csiCtl 3) = false ∧ Wf.csiLinePacket 3 2 18 0 false [1, 2] = true ∧ (sSensorPortsTransfer1.csi 3).frame = some frame1
        ∧ 18 ≠ sSensorPortsTransfer1.get (Obj.CSI_DT 3) ∧ 18 = 18 ∧ sSensorPortsTransfer1.get (Obj.CSI_EMBEDDED 3) ≠ 0)
    ∧ (sSensorPortsTransfer2.get (Obj.CSI_ENABLE 3) ≠ 0 ∧ Dev.PREOP ≤ sSensorPortsTransfer2.dev ∧ 2 = sSensorPortsTransfer2.get (Obj.CSI_VC 3)
        ∧ sSensorPortsTransfer2.groupPending (csiCtl 3) = false ∧ Wf.csiLinePacket 3 2 42 0 false [1, 2] = true ∧ (sSensorPortsTransfer2.csi 3).frame = some frame1
        ∧ 42 = sSensorPortsTransfer2.get (Obj.CSI_DT 3) ∧ (42 ∈ csiTypes ∨ 42 = 18 ∧ sSensorPortsTransfer2.get (Obj.CSI_EMBEDDED 3) ≠ 0))
    ∧ (sSensorPortsTransfer2.get (Obj.CSI_ENABLE 3) ≠ 0 ∧ Dev.PREOP ≤ sSensorPortsTransfer2.dev ∧ 2 = sSensorPortsTransfer2.get (Obj.CSI_VC 3)
        ∧ sSensorPortsTransfer2.groupPending (csiCtl 3) = false ∧ Wf.csiLinePacket 3 2 43 0 true [1, 2] = true ∧ (sSensorPortsTransfer2.csi 3).frame = some frame1
        ∧ (43 ≠ sSensorPortsTransfer2.get (Obj.CSI_DT 3) ∨ ¬43 ∈ csiTypes) ∧ ¬(43 = 18 ∧ sSensorPortsTransfer2.get (Obj.CSI_EMBEDDED 3) ≠ 0))
    ∧ (sSensorPortsTransfer2.get (Obj.CSI_ENABLE 3) ≠ 0 ∧ Dev.PREOP ≤ sSensorPortsTransfer2.dev ∧ 2 = sSensorPortsTransfer2.get (Obj.CSI_VC 3)
        ∧ sSensorPortsTransfer2.groupPending (csiCtl 3) = false ∧ Wf.csiLinePacket 3 2 43 0 true [1, 2] = true ∧ (sSensorPortsTransfer2.csi 3).frame = some frame1)
    ∧ (sSensorPortsTransfer3.get (Obj.CSI_ENABLE 3) ≠ 0 ∧ Dev.PREOP ≤ sSensorPortsTransfer3.dev ∧ 2 = sSensorPortsTransfer3.get (Obj.CSI_VC 3)
        ∧ sSensorPortsTransfer3.groupPending (csiCtl 3) = false ∧ (sSensorPortsTransfer3.csi 3).frame = some frame1
        ∧ (sSensorPortsTransfer3.dev = Dev.OP ∨ sSensorPortsTransfer3.dev = Dev.HOLD) ∧ sSensorPortsTransfer3.get (Obj.FRAMES_DAMAGED 3) + 1 < 2 ^ 32
        ∧ sSensorPortsTransfer3.get (Obj.CSI_DROP_DAMAGED 3) ≠ 0 ∧ sSensorPortsTransfer3.get (Obj.CSI_HEIGHT 3) ≠ 0
        ∧ sSensorPortsTransfer3.get (Obj.CSI_HEIGHT 3) ≠ frame1.count)
    ∧ (sSensorPortsTransfer4.get (Obj.CSI_ENABLE 3) ≠ 0 ∧ Dev.PREOP ≤ sSensorPortsTransfer4.dev ∧ 2 = sSensorPortsTransfer4.get (Obj.CSI_VC 3)
        ∧ sSensorPortsTransfer4.groupPending (csiCtl 3) = false ∧ (sSensorPortsTransfer4.csi 3).frame = some frame1
        ∧ (sSensorPortsTransfer4.dev = Dev.OP ∨ sSensorPortsTransfer4.dev = Dev.HOLD) ∧ sSensorPortsTransfer4.get (Obj.FRAMES_DAMAGED 3) + 1 < 2 ^ 32
        ∧ sSensorPortsTransfer4.get (Obj.CSI_DROP_DAMAGED 3) ≠ 0 ∧ frame1.started + 1000 * sSensorPortsTransfer4.get (Obj.CSI_FRAME_TIMEOUT_US 3) ≤ sSensorPortsTransfer4.ns)
    ∧ (sSensorPortsTransfer5.get (Obj.CSI_ENABLE 3) ≠ 0 ∧ Dev.PREOP ≤ sSensorPortsTransfer5.dev ∧ 2 = sSensorPortsTransfer5.get (Obj.CSI_VC 3)
        ∧ sSensorPortsTransfer5.groupPending (csiCtl 3) = false ∧ (sSensorPortsTransfer5.csi 3).frame = some frame1
        ∧ (sSensorPortsTransfer5.dev = Dev.OP ∨ sSensorPortsTransfer5.dev = Dev.HOLD) ∧ sSensorPortsTransfer5.get (Obj.FRAMES_DAMAGED 3) + 1 < 2 ^ 32
        ∧ (sSensorPortsTransfer5.get (Obj.CSI_HEIGHT 3) = 0 ∨ sSensorPortsTransfer5.get (Obj.CSI_HEIGHT 3) = frame1.count) ∧ sSensorPortsTransfer5.oldestSlot 3 = none)
    ∧ (sSensorPortsTransfer6.get (Obj.CSI_ENABLE 3) ≠ 0 ∧ Dev.PREOP ≤ sSensorPortsTransfer6.dev ∧ 2 = sSensorPortsTransfer6.get (Obj.CSI_VC 3)
        ∧ sSensorPortsTransfer6.groupPending (csiCtl 3) = false ∧ (sSensorPortsTransfer6.csi 3).frame = some frame1
        ∧ (sSensorPortsTransfer6.dev = Dev.OP ∨ sSensorPortsTransfer6.dev = Dev.HOLD) ∧ sSensorPortsTransfer6.get (Obj.FRAMES_DAMAGED 3) + 1 < 2 ^ 32
        ∧ (sSensorPortsTransfer6.get (Obj.CSI_HEIGHT 3) = 0 ∨ sSensorPortsTransfer6.get (Obj.CSI_HEIGHT 3) = frame1.count)
        ∧ sSensorPortsTransfer6.oldestSlot 3 = some (0, { desc := (70, 1), pix := (71, 1) : CsiSlot })
        ∧ { desc := (70, 1), pix := (71, 1) : CsiSlot }.pix.snd = ceilDiv frame1.lines.flatten.length 4096
        ∧ { desc := (70, 1), pix := (71, 1) : CsiSlot }.desc.snd = ceilDiv (64 + 4 * { desc := (70, 1), pix := (71, 1) : CsiSlot }.pix.snd) 4096
        ∧ sSensorPortsTransfer6.armed = [] ∧ (∀ (e : Nat × Run), e ∈ sSensorPortsTransfer6.u.tt.runs → e.fst < sSensorPortsTransfer6.u.tt.nextRun)
        ∧ sSensorPortsTransfer6.get (Obj.FRAMES_STORED 3) + 1 < 2 ^ 64)
    ∧ (sSensorPortsTransfer7.get (Obj.CSI_ENABLE 3) ≠ 0 ∧ Dev.PREOP ≤ sSensorPortsTransfer7.dev ∧ 2 = sSensorPortsTransfer7.get (Obj.CSI_VC 3)
        ∧ sSensorPortsTransfer7.groupPending (csiCtl 3) = false ∧ (sSensorPortsTransfer7.csi 3).frame = some frame1
        ∧ (sSensorPortsTransfer7.dev = Dev.OP ∨ sSensorPortsTransfer7.dev = Dev.HOLD) ∧ sSensorPortsTransfer7.get (Obj.FRAMES_DAMAGED 3) + 1 < 2 ^ 32
        ∧ sSensorPortsTransfer7.ns < frame1.started + 1000 * sSensorPortsTransfer7.get (Obj.CSI_FRAME_TIMEOUT_US 3))
    ∧ (Dev.PREOP ≤ sSensorPortsTransfer8.dev ∧ sSensorPortsTransfer8.get (Obj.SPI_ROLE 3) = 0 ∧ sSensorPortsTransfer8.get (Obj.SPI_LENGTH 3) ≠ 0
        ∧ (sSensorPortsTransfer8.spi 3).vioOut = false ∧ (sSensorPortsTransfer8.spi 3).busy = none
        ∧ (if false = true then sSensorPortsTransfer8.get (Obj.SPI_EDGE_INPUT 3) < 16 ∧ (sSensorPortsTransfer8.u.time.cap.at (sSensorPortsTransfer8.get (Obj.SPI_EDGE_INPUT 3)) { : CapS }).last.isSome = true else sSensorPortsTransfer8.get (Obj.SPI_PERIOD_NS 3) ≠ 0 ∧ (sSensorPortsTransfer8.spi 3).next ≤ 0 ∧ sSensorPortsTransfer8.get (Obj.SPI_PHASE_NS 3) + 0 * sSensorPortsTransfer8.get (Obj.SPI_PERIOD_NS 3) ≤ sSensorPortsTransfer8.ns))
    ∧ (Dev.PREOP ≤ sSensorPortsTransfer9.dev ∧ sSensorPortsTransfer9.get (Obj.SPI_ROLE 3) = 0 ∧ sSensorPortsTransfer9.get (Obj.SPI_LENGTH 3) ≠ 0
        ∧ (sSensorPortsTransfer9.spi 3).vioOut = false ∧ (sSensorPortsTransfer9.spi 3).busy = none
        ∧ (if true = true then sSensorPortsTransfer9.get (Obj.SPI_EDGE_INPUT 3) < 16 ∧ (sSensorPortsTransfer9.u.time.cap.at (sSensorPortsTransfer9.get (Obj.SPI_EDGE_INPUT 3)) { : CapS }).last.isSome = true else sSensorPortsTransfer9.get (Obj.SPI_PERIOD_NS 3) ≠ 0 ∧ (sSensorPortsTransfer9.spi 3).next ≤ 0 ∧ sSensorPortsTransfer9.get (Obj.SPI_PHASE_NS 3) + 0 * sSensorPortsTransfer9.get (Obj.SPI_PERIOD_NS 3) ≤ sSensorPortsTransfer9.ns))
    ∧ (Wf.spiTransferEnd 3 [1, 2, 3] = true ∧ (sSensorPortsTransfer10.spi 3).busy = some (5, (10, 0), true) ∧ sSensorPortsTransfer10.groupPending (spiCtl 3) = false
        ∧ (sSensorPortsTransfer10.spi 3).vioOut = false)
    ∧ (Wf.spiTransferEnd 3 [1, 2, 3] = true ∧ (sSensorPortsTransfer11.spi 3).busy = some (5, (10, 0), false) ∧ sSensorPortsTransfer11.groupPending (spiCtl 3) = false
        ∧ (sSensorPortsTransfer11.spi 3).vioOut = true)
    ∧ (sSensorPortsTransfer12.dev = Dev.STANDBY)
    ∧ (sHostAndNetworkLinks2.dev ≠ Dev.STANDBY) := by
  iterate 15 refine ⟨by decide +kernel, ?_⟩
  decide +kernel
def sPowerAndResets0 : State := opSt 1 []
def sPowerAndResets1 : State := bootSt [(Obj.DEVICE_STATE, 0)] { powered := false }
def sPowerAndResets2 : State := bootSt [(Obj.DEVICE_STATE, 0)] { powered := false, shut := some 0 }
def sPowerAndResets3 : State := bootSt [(Obj.DEVICE_STATE, 0)] { carrierLow := true }
def sPowerAndResets4 : State := bootSt [(Obj.DEVICE_STATE, 0)] {}
def sPowerAndResets5 : State := bootSt [(Obj.DEVICE_STATE, 0)] { shut := some 1, pwrGood := false, cause := 4 }
def sPowerAndResets6 : State := bootSt [(Obj.DEVICE_STATE, 0)] { shut := some 0, rearmed := true, pwrGood := false, cause := 4 }
def sPowerAndResets7 : State := bootSt [(Obj.DEVICE_STATE, 1)] { resetLow := true }
def sPowerAndResets8 : State := (bootSt [(Obj.DEVICE_STATE, 0)] { powered := false, shut := some 0, pwrGood := false }).withPow fun w => { w with temps := [(92, 950)] }

/-- States and operands that meet the hypotheses of `Obligations.PowerAndResets`, clause by clause. -/
theorem wit_PowerAndResets :
    ((38000 ≤ 38000 ∨ 60000 < 38000))
    ∧ ((60001 ≤ 38000 ∨ 60000 < 60001))
    ∧ (sPowerAndResets1.get Obj.BOOT_COUNT + 1 < 2 ^ 32)
    ∧ (sPowerAndResets2.get Obj.BOOT_COUNT + 1 < 2 ^ 32)
    ∧ (sPowerAndResets1.u.boot.powered = false)
    ∧ (sPowerAndResets0.u.boot.powered = true)
    ∧ (sPowerAndResets4.dev = Dev.STANDBY)
    ∧ (sPowerAndResets0.dev ≠ Dev.STANDBY)
    ∧ (sPowerAndResets5.dev = Dev.STANDBY ∧ sPowerAndResets5.u.boot.powered = true
        ∧ (sPowerAndResets5.u.boot.shut = some 1 ∧ 38000 ≤ 38000 ∧ 38000 ≤ 60000 ∨ sPowerAndResets5.u.boot.shut = some 0 ∧ sPowerAndResets5.u.boot.rearmed = true ∧ sPowerAndResets5.coolRestart = true))
    ∧ (sPowerAndResets6.dev = Dev.STANDBY ∧ sPowerAndResets6.u.boot.powered = true
        ∧ (sPowerAndResets6.u.boot.shut = some 1 ∧ 38000 ≤ 48000 ∧ 48000 ≤ 60000 ∨ sPowerAndResets6.u.boot.shut = some 0 ∧ sPowerAndResets6.u.boot.rearmed = true ∧ sPowerAndResets6.coolRestart = true))
    ∧ ((sPowerAndResets5.dev ≠ Dev.STANDBY ∨ sPowerAndResets5.u.boot.powered = false ∨ sPowerAndResets5.u.boot.shut = none ∨ sPowerAndResets5.u.boot.shut = some 1 ∧ (60001 < 38000 ∨ 60000 < 60001) ∨ sPowerAndResets5.u.boot.shut = some 0 ∧ (sPowerAndResets5.u.boot.rearmed = false ∨ sPowerAndResets5.coolRestart = false)))
    ∧ (sPowerAndResets0.dev ≠ Dev.STANDBY ∧ sPowerAndResets0.u.pow.failed.contains 92 = false)
    ∧ (sPowerAndResets0.dev ≠ Dev.STANDBY ∧ (37999 < 38000 ∨ 60000 < 37999))
    ∧ (sPowerAndResets0.dev ≠ Dev.STANDBY ∧ (60001 < 38000 ∨ 60000 < 60001))
    ∧ ((sPowerAndResets0.dev = Dev.STANDBY ∨ sPowerAndResets0.u.pow.failed.contains 92 = true ∨ 1199 < 1200))
    ∧ ((sPowerAndResets0.dev = Dev.STANDBY ∨ 38000 ≤ 38000 ∧ 38000 ≤ 60000))
    ∧ (sPowerAndResets0.u.boot.pwrGood = true)
    ∧ (sPowerAndResets0.u.boot.resetLow = false)
    ∧ (sPowerAndResets0.dev ≠ Dev.STANDBY ∧ sPowerAndResets0.resetHeld = false)
    ∧ (sPowerAndResets0.dev ≠ Dev.STANDBY ∧ sPowerAndResets0.resetHeld = false)
    ∧ ((sPowerAndResets4.dev = Dev.STANDBY ∨ sPowerAndResets4.u.boot.resetLow = true))
    ∧ (sPowerAndResets4.dev = Dev.STANDBY ∧ (1000 ≤ 1000 ∨ sPowerAndResets4.u.boot.resetLow = true))
    ∧ (sPowerAndResets7.dev = Dev.INIT ∧ sPowerAndResets7.u.boot.resetLow = true ∧ sPowerAndResets7.get Obj.PIN_CONTROL_ACTIVE = 0)
    ∧ (sPowerAndResets8.get Obj.BOOT_COUNT + 1 < 2 ^ 32) := by
  iterate 23 refine ⟨by decide +kernel, ?_⟩
  decide +kernel
def sBootChainRuns0 : State := bootSt [(Obj.DEVICE_STATE, 1)] {}
def sBootChainRuns1 : State := bootSt [(Obj.DEVICE_STATE, 1)] { identity := true, kinds := [1] }
def sBootChainRuns2 : State := bootSt [(Obj.DEVICE_STATE, 1)] { identity := true, kinds := [1, 2] }
def sBootChainRuns3 : State := bootSt [(Obj.DEVICE_STATE, 1)] { identity := true, kinds := [1, 2, 3] }
def sBootChainRuns4 : State := bootSt [(Obj.DEVICE_STATE, 1), (Obj.DOM_STATE 66, 2)] {}
def sBootChainRuns5 : State := (bootSt [(Obj.DEVICE_STATE, 1), (Obj.DOM_STATE 66, 2), (Obj.CH_ROWS_MARKED 63, 1)] {}).withUnits fun u => { u with mem := { u.mem with marked := [(63, 9)] } }
def sBootChainRuns6 : State := bootSt [(Obj.DEVICE_STATE, 1)] { trained := true, kinds := [1, 2, 3, 4] }
def sBootChainRuns7 : State := (bootSt [(Obj.DEVICE_STATE, 1), (Obj.DOM_STATE 66, 2), (Obj.CH_ROWS_MARKED 63, 1)] {}).withUnits fun u => { u with mem := { u.mem with marked := [(63, 9)], repaired := [(63, 7)] } }

/-- States and operands that meet the hypotheses of `Obligations.BootChainRuns`, clause by clause. -/
theorem wit_BootChainRuns :
    (sPowerAndResets0.get Obj.BOOT_COUNT + 1 < 2 ^ 32)
    ∧ (sPowerAndResets0.get Obj.BOOT_COUNT + 1 < 2 ^ 32)
    ∧ (sPowerAndResets0.get Obj.BOOT_COUNT + 1 < 2 ^ 32)
    ∧ (sPowerAndResets0.get Obj.BOOT_COUNT + 1 < 2 ^ 32)
    ∧ (sBootChainRuns0.booting = true ∧ sBootChainRuns0.u.boot.identity = false ∧ [List.replicate 272 2].length ≤ 2
        ∧ (∀ (c : List Byte), c ∈ [List.replicate 272 2] → c.length = 272) ∧ (List.replicate 272 1).length = 272)
    ∧ (sBootChainRuns0.booting = true ∧ sBootChainRuns0.u.boot.identity = false ∧ ([] : List Nat).length ≤ 2 ∧ (∀ (c : List Byte), c ∈ [] → c.length = 272)
        ∧ ((List.replicate 272 1).length = 272 ∨ List.replicate 272 1 = []))
    ∧ (sBootChainRuns1.booting = true ∧ sBootChainRuns1.u.boot.identity = true ∧ sBootChainRuns1.u.boot.kinds.length + 1 = 2
        ∧ ((fun n => if n = 0 then sBootChainRuns1.slotAt 2 0 none else sBootChainRuns1.slotAt 2 1 (some img1)) 1 = some img1)
        ∧ (sBootChainRuns1.chooseSlot 2 ((fun n => if n = 0 then sBootChainRuns1.slotAt 2 0 none else sBootChainRuns1.slotAt 2 1 (some img1)) 0) ((fun n => if n = 0 then sBootChainRuns1.slotAt 2 0 none else sBootChainRuns1.slotAt 2 1 (some img1)) 1) = some 1 ∧ false = false ∨ sBootChainRuns1.chooseSlot 2 ((fun n => if n = 0 then sBootChainRuns1.slotAt 2 0 none else sBootChainRuns1.slotAt 2 1 (some img1)) 0) ((fun n => if n = 0 then sBootChainRuns1.slotAt 2 0 none else sBootChainRuns1.slotAt 2 1 (some img1)) 1) = some (1 - 1) ∧ false = true ∧ sBootChainRuns1.eligible 2 ((fun n => if n = 0 then sBootChainRuns1.slotAt 2 0 none else sBootChainRuns1.slotAt 2 1 (some img1)) 1) = true))
    ∧ (sBootChainRuns2.booting = true ∧ sBootChainRuns2.u.boot.identity = true ∧ sBootChainRuns2.u.boot.kinds.length + 1 = 3
        ∧ ((fun n => if n = 0 then sBootChainRuns2.slotAt 3 0 (some img1) else sBootChainRuns2.slotAt 3 1 (some img2)) 0 = some img1)
        ∧ (sBootChainRuns2.chooseSlot 3 ((fun n => if n = 0 then sBootChainRuns2.slotAt 3 0 (some img1) else sBootChainRuns2.slotAt 3 1 (some img2)) 0) ((fun n => if n = 0 then sBootChainRuns2.slotAt 3 0 (some img1) else sBootChainRuns2.slotAt 3 1 (some img2)) 1) = some 0 ∧ true = false ∨ sBootChainRuns2.chooseSlot 3 ((fun n => if n = 0 then sBootChainRuns2.slotAt 3 0 (some img1) else sBootChainRuns2.slotAt 3 1 (some img2)) 0) ((fun n => if n = 0 then sBootChainRuns2.slotAt 3 0 (some img1) else sBootChainRuns2.slotAt 3 1 (some img2)) 1) = some (1 - 0) ∧ true = true ∧ sBootChainRuns2.eligible 3 ((fun n => if n = 0 then sBootChainRuns2.slotAt 3 0 (some img1) else sBootChainRuns2.slotAt 3 1 (some img2)) 0) = true))
    ∧ (sBootChainRuns1.booting = true ∧ sBootChainRuns1.u.boot.identity = true ∧ sBootChainRuns1.u.boot.kinds.length + 1 = 2
        ∧ (sBootChainRuns1.chooseSlot 2 ((fun n => if n = 0 then sBootChainRuns1.slotAt 2 0 none else sBootChainRuns1.slotAt 2 1 none) 0) ((fun n => if n = 0 then sBootChainRuns1.slotAt 2 0 none else sBootChainRuns1.slotAt 2 1 none) 1) = none ∨ ∃ n, sBootChainRuns1.chooseSlot 2 ((fun n => if n = 0 then sBootChainRuns1.slotAt 2 0 none else sBootChainRuns1.slotAt 2 1 none) 0) ((fun n => if n = 0 then sBootChainRuns1.slotAt 2 0 none else sBootChainRuns1.slotAt 2 1 none) 1) = some n ∧ false = true ∧ sBootChainRuns1.eligible 2 ((fun n => if n = 0 then sBootChainRuns1.slotAt 2 0 none else sBootChainRuns1.slotAt 2 1 none) (1 - n)) = false))
    ∧ (sBootChainRuns3.booting = true ∧ sBootChainRuns3.u.boot.identity = true ∧ sBootChainRuns3.u.boot.kinds.length + 1 = 4
        ∧ (sBootChainRuns3.chooseSlot 4 ((fun n => if n = 0 then sBootChainRuns3.slotAt 4 0 none else sBootChainRuns3.slotAt 4 1 none) 0) ((fun n => if n = 0 then sBootChainRuns3.slotAt 4 0 none else sBootChainRuns3.slotAt 4 1 none) 1) = none ∨ ∃ n, sBootChainRuns3.chooseSlot 4 ((fun n => if n = 0 then sBootChainRuns3.slotAt 4 0 none else sBootChainRuns3.slotAt 4 1 none) 0) ((fun n => if n = 0 then sBootChainRuns3.slotAt 4 0 none else sBootChainRuns3.slotAt 4 1 none) 1) = some n ∧ true = true ∧ sBootChainRuns3.eligible 4 ((fun n => if n = 0 then sBootChainRuns3.slotAt 4 0 none else sBootChainRuns3.slotAt 4 1 none) (1 - n)) = false))
    ∧ ((∀ (c : Nat), c ∈ [3, 3] → c < 64) ∧ sBootChainRuns4.booting = true ∧ sBootChainRuns4.get (Obj.DOM_STATE 66) = 2 ∧ sBootChainRuns4.u.boot.trained = false
        ∧ (sBootChainRuns4.u.boot.warm && sBootChainRuns4.u.boot.everTrained) = false)
    ∧ ((∀ (c : Nat), c ∈ [] → c < 64) ∧ sBootChainRuns5.booting = true ∧ sBootChainRuns5.get (Obj.DOM_STATE 66) = 2 ∧ sBootChainRuns5.u.boot.trained = false
        ∧ (sBootChainRuns5.u.boot.warm && sBootChainRuns5.u.boot.everTrained) = false ∧ sBootChainRuns5.u.mem.marked.contains (63, 9) = true)
    ∧ ((∀ (k : Nat), k ∈ [3] → k < 4) ∧ sBootChainRuns6.booting = true ∧ sBootChainRuns6.u.boot.kinds.length = 4
        ∧ (sBootChainRuns6.u.boot.trained = true ∨ sBootChainRuns6.u.boot.warm = true ∧ sBootChainRuns6.u.boot.everTrained = true))
    ∧ (sBootChainRuns3.booting = true ∧ sBootChainRuns3.u.boot.identity = true ∧ sBootChainRuns3.u.boot.kinds.length + 1 = 4
        ∧ ((fun n => if n = 0 then sBootChainRuns3.slotAt 4 0 (some img4) else sBootChainRuns3.slotAt 4 1 none) 0 = some img4)
        ∧ (sBootChainRuns3.chooseSlot 4 ((fun n => if n = 0 then sBootChainRuns3.slotAt 4 0 (some img4) else sBootChainRuns3.slotAt 4 1 none) 0) ((fun n => if n = 0 then sBootChainRuns3.slotAt 4 0 (some img4) else sBootChainRuns3.slotAt 4 1 none) 1) = some 0 ∧ false = false ∨ sBootChainRuns3.chooseSlot 4 ((fun n => if n = 0 then sBootChainRuns3.slotAt 4 0 (some img4) else sBootChainRuns3.slotAt 4 1 none) 0) ((fun n => if n = 0 then sBootChainRuns3.slotAt 4 0 (some img4) else sBootChainRuns3.slotAt 4 1 none) 1) = some (1 - 0) ∧ false = true ∧ sBootChainRuns3.eligible 4 ((fun n => if n = 0 then sBootChainRuns3.slotAt 4 0 (some img4) else sBootChainRuns3.slotAt 4 1 none) 0) = true))
    ∧ ((∀ (c : Nat), c ∈ [] → c < 64) ∧ sBootChainRuns7.booting = true ∧ sBootChainRuns7.get (Obj.DOM_STATE 66) = 2 ∧ sBootChainRuns7.u.boot.trained = false
        ∧ (sBootChainRuns7.u.boot.warm && sBootChainRuns7.u.boot.everTrained) = false ∧ sBootChainRuns7.u.mem.marked.contains (63, 9) = true)
    ∧ ((∀ (k : Nat), k ∈ [2, 3] → k < 4) ∧ sBootChainRuns6.booting = true ∧ sBootChainRuns6.u.boot.kinds.length = 4
        ∧ (sBootChainRuns6.u.boot.trained = true ∨ sBootChainRuns6.u.boot.warm = true ∧ sBootChainRuns6.u.boot.everTrained = true)) := by
  iterate 15 refine ⟨by decide +kernel, ?_⟩
  decide +kernel
def sDeviceCommands0 : State := bootSt [(Obj.DEVICE_STATE, 2), (Obj.AUTO_OPERATIONAL, 1), (Obj.T_FIELDS_NS, 9)] { auto := true }
def sDeviceCommands1 : State := bootSt [(Obj.DEVICE_STATE, 2)] {}
def sDeviceCommands2 : State := bootSt [] {}
def sDeviceCommands3 : State := bootSt [(Obj.DEVICE_STATE, 4)] {}
def sDeviceCommands4 : State := bootSt [(Obj.DEVICE_STATE, 5), (Obj.DEBUG_SINCE_BOOT, 2)] {}
def sDeviceCommands5 : State := bootSt [(Obj.DEVICE_STATE, 5), (Obj.DEBUG_SINCE_BOOT, 3)] {}
def sDeviceCommands6 : State := bootSt [(Obj.DEVICE_STATE, 2), (Obj.TRANSPORT 1, 2), (Obj.LEVEL 1, 1)] {}
def sDeviceCommands7 : State := bootSt [(Obj.TRANSPORT 1, 2), (Obj.LEVEL 1, 1)] {}
def sDeviceCommands8 : State := bootSt [(Obj.DEVICE_STATE, 2), (Obj.TRANSPORT 1, 2), (Obj.LEVEL 1, 2)] {}
def sDeviceCommands9 : State := bootSt [(Obj.DEVICE_STATE, 4), (Obj.TRANSPORT 1, 2), (Obj.LEVEL 1, 2)] {}
def sDeviceCommands10 : State := bootSt [(Obj.TRANSPORT 1, 2)] {}

/-- States and operands that meet the hypotheses of `Obligations.DeviceCommands`, clause by clause. -/
theorem wit_DeviceCommands :
    (sDeviceCommands1.admits 2 Obj.DEVICE_COMMAND 1 Lvl.sup ∧ sDeviceCommands1.dev = Dev.PREOP ∧ sDeviceCommands1.blocking = false
        ∧ sDeviceCommands1.get Obj.LATCHED_CAUSES = 0)
    ∧ (sDeviceCommands2.admits 2 Obj.DEVICE_COMMAND 1 Lvl.sup
        ∧ (sDeviceCommands2.dev ≠ Dev.PREOP ∨ sDeviceCommands2.blocking = true ∨ sDeviceCommands2.get Obj.LATCHED_CAUSES ≠ 0))
    ∧ (sDeviceCommands2.admits 2 Obj.DEVICE_COMMAND 2 Lvl.sup ∧ sDeviceCommands2.dev = Dev.OP)
    ∧ (sDeviceCommands1.admits 2 Obj.DEVICE_COMMAND 2 Lvl.sup ∧ sDeviceCommands1.dev ≠ Dev.OP)
    ∧ (sDeviceCommands1.admits 2 Obj.DEVICE_COMMAND 3 Lvl.svc ∧ sDeviceCommands1.dev = Dev.PREOP)
    ∧ (sDeviceCommands3.admits 2 Obj.DEVICE_COMMAND 3 Lvl.svc ∧ sDeviceCommands3.dev = Dev.HOLD)
    ∧ (sDeviceCommands2.admits 2 Obj.DEVICE_COMMAND 3 Lvl.svc ∧ sDeviceCommands2.dev ≠ Dev.PREOP ∧ sDeviceCommands2.dev ≠ Dev.HOLD)
    ∧ (sDeviceCommands4.admits 2 Obj.DEVICE_COMMAND 4 Lvl.svc ∧ sDeviceCommands4.dev = Dev.SERVICE ∧ sDeviceCommands4.get Obj.DEBUG_SINCE_BOOT < 3
        ∧ sDeviceCommands4.u.boot.recovery = false)
    ∧ (sDeviceCommands5.admits 2 Obj.DEVICE_COMMAND 4 Lvl.svc
        ∧ (sDeviceCommands5.dev ≠ Dev.SERVICE ∨ 3 ≤ sDeviceCommands5.get Obj.DEBUG_SINCE_BOOT ∨ sDeviceCommands5.u.boot.recovery = true))
    ∧ (sDeviceCommands2.admits 2 Obj.DEVICE_COMMAND 5 Lvl.svc)
    ∧ (sDeviceCommands2.admits 2 Obj.DEVICE_COMMAND 6 Lvl.svc)
    ∧ ((sDeviceCommands1.isOpen 1 = false ∨ 8 = 2 ∧ sDeviceCommands1.dev = Dev.PREOP))
    ∧ (sDeviceCommands6.admits 1 Obj.DEVICE_COMMAND 1 Lvl.sup ∧ sDeviceCommands6.dev = Dev.PREOP ∧ sDeviceCommands6.blocking = false
        ∧ sDeviceCommands6.get Obj.LATCHED_CAUSES = 0)
    ∧ (sDeviceCommands7.admits 1 Obj.DEVICE_COMMAND 2 Lvl.sup ∧ sDeviceCommands7.dev = Dev.OP)
    ∧ (sDeviceCommands8.admits 1 Obj.DEVICE_COMMAND 3 Lvl.svc ∧ sDeviceCommands8.dev = Dev.PREOP)
    ∧ (sDeviceCommands9.admits 1 Obj.DEVICE_COMMAND 3 Lvl.svc ∧ sDeviceCommands9.dev = Dev.HOLD)
    ∧ (sDeviceCommands10.isOpen 1 = true) := by
  iterate 16 refine ⟨by decide +kernel, ?_⟩
  decide +kernel
def sImagesAndPrograms0 : State := bootSt [] {}
def sImagesAndPrograms1 : State := bootSt [(Obj.TRANSPORT 0, 1)] {}
def sImagesAndPrograms2 : State := bootSt [(Obj.IMG_COUNTER 0, 2)] {}
def sImagesAndPrograms3 : State := bootSt [(Obj.IMG_COUNTER 0, 3)] {}
def sImagesAndPrograms4 : State := bootSt [] { writing := some (.store img1 0) }
def sImagesAndPrograms5 : State := bootSt [] { writing := some (.image 1 (some (header1 1)) true) }
def sImagesAndPrograms6 : State := bootSt [] { writing := some (.image 1 (some header2) true) }
def sImagesAndPrograms7 : State := bootSt [] { writing := some (.image 4 none true) }
def sImagesAndPrograms8 : State := bootSt [] { writing := some (.store img1 1), restore := [2, 3] }
def sImagesAndPrograms9 : State := bootSt [(Obj.POLICY_STATE, 3)] { slots := [(7, img1)] }
def sImagesAndPrograms10 : State := bootSt [(Obj.IMG_COUNTER 1, 3)] { slots := [(5, img1)] }
def sImagesAndPrograms11 : State := bootSt [(Obj.IMG_COUNTER 1, 2)] { slots := [(5, img3)] }
def sImagesAndPrograms12 : State := bootSt [(Obj.POLICY_STATE, 1)] { slots := [(7, img1)] }
def sImagesAndPrograms13 : State := bootSt [(Obj.POLICY_STATE, 3)] { slots := [(5, img1)] }
def sImagesAndPrograms14 : State := bootSt [] { slots := [(4, img1)] }
def sImagesAndPrograms15 : State := bootSt [] { slots := [(8, img1)] }
def sImagesAndPrograms16 : State := bootSt [] { loads := [(2, some (header1 6), true)] }
def sImagesAndPrograms17 : State := bootSt [] { loads := [(2, some [1], true)] }
def sImagesAndPrograms18 : State := (bootSt [] { loads := [(2, some (header1 6), true)] }).withTt fun t => { t with progs := [(1, { unit1 with kib := 40960 })] }
def sImagesAndPrograms19 : State := posting [(Obj.STATE 5, 0)]
def sImagesAndPrograms20 : State := posting []
def sImagesAndPrograms21 : State := bootSt [] { rollbacks := [(9, 4)] }

/-- States and operands that meet the hypotheses of `Obligations.ImagesAndPrograms`, clause by clause. -/
theorem wit_ImagesAndPrograms :
    (sImagesAndPrograms1.hostReachable = true)
    ∧ (sImagesAndPrograms0.hostReachable = false)
    ∧ (sImagesAndPrograms1.admits 2 (Obj.IMG_WRITE (1 - 1)) 0 Lvl.svc ∧ sImagesAndPrograms1.u.boot.writing = none
        ∧ sImagesAndPrograms1.late (WVal.desc 4096 3 (crc32c [1, 2, 3]) (some [1, 2, 3])) = some (some [1, 2, 3], true)
        ∧ (∀ (d : List Byte), WVal.desc 4096 3 (crc32c [1, 2, 3]) (some [1, 2, 3]) = WVal.inline d → sImagesAndPrograms1.get (Obj.IMG_COUNTER (1 - 1)) ≤ numAt d 12 4 ∧ numAt d 4 1 = 1))
    ∧ (sImagesAndPrograms2.admits 2 (Obj.IMG_WRITE (1 - 1)) 0 Lvl.svc ∧ sImagesAndPrograms2.u.boot.writing = none
        ∧ sImagesAndPrograms2.late (WVal.inline (header1 1)) = some (some (header1 1), true)
        ∧ (∀ (d : List Byte), WVal.inline (header1 1) = WVal.inline d → sImagesAndPrograms2.get (Obj.IMG_COUNTER (1 - 1)) ≤ numAt d 12 4 ∧ numAt d 4 1 = 1))
    ∧ (sImagesAndPrograms3.admits 2 (Obj.IMG_WRITE (1 - 1)) 0 Lvl.svc ∧ sImagesAndPrograms3.u.boot.writing = none
        ∧ numAt (header1 1) 12 4 < sImagesAndPrograms3.get (Obj.IMG_COUNTER (1 - 1)))
    ∧ (sImagesAndPrograms2.admits 2 (Obj.IMG_WRITE (1 - 1)) 0 Lvl.svc ∧ sImagesAndPrograms2.u.boot.writing = none
        ∧ sImagesAndPrograms2.get (Obj.IMG_COUNTER (1 - 1)) ≤ numAt (header1 2) 12 4 ∧ numAt (header1 2) 4 1 ≠ 1)
    ∧ (sImagesAndPrograms4.admits 2 (Obj.IMG_WRITE (4 - 1)) 0 Lvl.svc ∧ sImagesAndPrograms4.late (WVal.inline (header1 4)) ≠ none ∧ sImagesAndPrograms4.u.boot.writing ≠ none)
    ∧ (sImagesAndPrograms5.u.boot.writing = some (FlashWrite.image 1 (some (header1 1)) true))
    ∧ (sImagesAndPrograms6.u.boot.writing = some (FlashWrite.image 1 (some header2) true))
    ∧ (sImagesAndPrograms7.u.boot.writing = some (FlashWrite.image 4 none true))
    ∧ (sImagesAndPrograms8.u.boot.writing = some (FlashWrite.store img1 1))
    ∧ (sImagesAndPrograms0.admits 2 (Obj.IMG_ACTIVATE (2 - 1)) 1 Lvl.svc
        ∧ sImagesAndPrograms0.u.boot.slots.get? (2 * 2 + (1 - sImagesAndPrograms0.get (Obj.IMG_ACTIVE_SLOT (2 - 1)))) = none)
    ∧ (sImagesAndPrograms9.admits 2 (Obj.IMG_ACTIVATE (3 - 1)) 1 Lvl.svc
        ∧ sImagesAndPrograms9.u.boot.slots.get? (3 * 2 + (1 - sImagesAndPrograms9.get (Obj.IMG_ACTIVE_SLOT (3 - 1)))) = some img1
        ∧ (3 = 3 ∧ (sImagesAndPrograms9.u.boot.asked = true ∨ sImagesAndPrograms9.get Obj.POLICY_STATE = 2 ∨ sImagesAndPrograms9.get Obj.POLICY_STATE = 3)))
    ∧ (sImagesAndPrograms10.admits 2 (Obj.IMG_ACTIVATE (2 - 1)) 1 Lvl.svc
        ∧ sImagesAndPrograms10.u.boot.slots.get? (2 * 2 + (1 - sImagesAndPrograms10.get (Obj.IMG_ACTIVE_SLOT (2 - 1)))) = some img1
        ∧ (¬(2 = 3 ∧ (sImagesAndPrograms10.u.boot.asked = true ∨ sImagesAndPrograms10.get Obj.POLICY_STATE = 2 ∨ sImagesAndPrograms10.get Obj.POLICY_STATE = 3)))
        ∧ img1.rollback < sImagesAndPrograms10.get (Obj.IMG_COUNTER (2 - 1)))
    ∧ (sImagesAndPrograms11.admits 2 (Obj.IMG_ACTIVATE (2 - 1)) 1 Lvl.svc
        ∧ sImagesAndPrograms11.u.boot.slots.get? (2 * 2 + (1 - sImagesAndPrograms11.get (Obj.IMG_ACTIVE_SLOT (2 - 1)))) = some img3
        ∧ (¬(2 = 3 ∧ (sImagesAndPrograms11.u.boot.asked = true ∨ sImagesAndPrograms11.get Obj.POLICY_STATE = 2 ∨ sImagesAndPrograms11.get Obj.POLICY_STATE = 3)))
        ∧ sImagesAndPrograms11.get (Obj.IMG_COUNTER (2 - 1)) ≤ img3.rollback ∧ img3.sound = false)
    ∧ (sImagesAndPrograms12.admits 2 (Obj.IMG_ACTIVATE (3 - 1)) 1 Lvl.svc
        ∧ sImagesAndPrograms12.u.boot.slots.get? (3 * 2 + (1 - sImagesAndPrograms12.get (Obj.IMG_ACTIVE_SLOT (3 - 1)))) = some img1
        ∧ (¬(3 = 3 ∧ (sImagesAndPrograms12.u.boot.asked = true ∨ sImagesAndPrograms12.get Obj.POLICY_STATE = 2 ∨ sImagesAndPrograms12.get Obj.POLICY_STATE = 3)))
        ∧ sImagesAndPrograms12.get (Obj.IMG_COUNTER (3 - 1)) ≤ img1.rollback ∧ img1.sound = true)
    ∧ (sImagesAndPrograms13.admits 2 (Obj.IMG_ACTIVATE (2 - 1)) 1 Lvl.svc
        ∧ sImagesAndPrograms13.u.boot.slots.get? (2 * 2 + (1 - sImagesAndPrograms13.get (Obj.IMG_ACTIVE_SLOT (2 - 1)))) = some img1
        ∧ (¬(2 = 3 ∧ (sImagesAndPrograms13.u.boot.asked = true ∨ sImagesAndPrograms13.get Obj.POLICY_STATE = 2 ∨ sImagesAndPrograms13.get Obj.POLICY_STATE = 3)))
        ∧ sImagesAndPrograms13.get (Obj.IMG_COUNTER (2 - 1)) ≤ img1.rollback ∧ img1.sound = true)
    ∧ (sImagesAndPrograms14.admits 2 (Obj.IMG_COUNTER_COMMIT (2 - 1)) 1 Lvl.svc ∧ sImagesAndPrograms14.running 2 = some img1)
    ∧ (sImagesAndPrograms15.admits 2 (Obj.IMG_COUNTER_COMMIT (4 - 1)) 1 Lvl.svc ∧ (sImagesAndPrograms15.running 4 = none ∨ 4 = 4))
    ∧ (sImagesAndPrograms0.admits 2 (Obj.PROG_IMAGE 2) 0 Lvl.sup ∧ sImagesAndPrograms0.late (WVal.inline (header1 6)) = some (some (header1 6), true))
    ∧ (List.find? (fun e => e.fst == 2) sImagesAndPrograms16.u.boot.loads = some (2, some (header1 6), true)
        ∧ (List.filter (fun e => e.fst == 2) sImagesAndPrograms16.u.boot.loads).length = 1 ∧ sImagesAndPrograms16.u.boot.nextProg < 2 ^ 64 ∧ some unit1 = some unit1
        ∧ sImagesAndPrograms16.imageCode 6 (sImagesAndPrograms16.get Obj.PROG_COUNTER) (some (header1 6)) true (sImagesAndPrograms16.ownerFlag 1) false false = 0
        ∧ unit1.semsAgree = true ∧ List.length sImagesAndPrograms16.u.tt.progs < 256 ∧ ceilDiv ((some (header1 6)).getD []).length 1024 ≤ sImagesAndPrograms16.programSpace)
    ∧ (List.find? (fun e => e.fst == 2) sImagesAndPrograms17.u.boot.loads = some (2, some [1], true)
        ∧ (List.filter (fun e => e.fst == 2) sImagesAndPrograms17.u.boot.loads).length = 1 ∧ sImagesAndPrograms17.u.boot.nextProg < 2 ^ 64
        ∧ (sImagesAndPrograms17.imageCode 6 (sImagesAndPrograms17.get Obj.PROG_COUNTER) (some [1]) true (sImagesAndPrograms17.ownerFlag 1) false false ≠ 0 ∧ 5219 = sImagesAndPrograms17.imageCode 6 (sImagesAndPrograms17.get Obj.PROG_COUNTER) (some [1]) true (sImagesAndPrograms17.ownerFlag 1) false false ∨ sImagesAndPrograms17.imageCode 6 (sImagesAndPrograms17.get Obj.PROG_COUNTER) (some [1]) true (sImagesAndPrograms17.ownerFlag 1) false false = 0 ∧ (Option.map UnitDecl.semsAgree (some unit1)).getD false = false ∧ 5219 = 5221 ∨ sImagesAndPrograms17.imageCode 6 (sImagesAndPrograms17.get Obj.PROG_COUNTER) (some [1]) true (sImagesAndPrograms17.ownerFlag 1) false false = 0 ∧ (Option.map UnitDecl.semsAgree (some unit1)).getD false = true ∧ ¬(List.length sImagesAndPrograms17.u.tt.progs < 256 ∧ ceilDiv ((some [1]).getD []).length 1024 ≤ sImagesAndPrograms17.programSpace) ∧ 5219 = 5222))
    ∧ (List.find? (fun e => e.fst == 2) sImagesAndPrograms16.u.boot.loads = some (2, some (header1 6), true)
        ∧ (List.filter (fun e => e.fst == 2) sImagesAndPrograms16.u.boot.loads).length = 1 ∧ sImagesAndPrograms16.u.boot.nextProg < 2 ^ 64
        ∧ (sImagesAndPrograms16.imageCode 6 (sImagesAndPrograms16.get Obj.PROG_COUNTER) (some (header1 6)) true (sImagesAndPrograms16.ownerFlag 1) false false ≠ 0 ∧ 5221 = sImagesAndPrograms16.imageCode 6 (sImagesAndPrograms16.get Obj.PROG_COUNTER) (some (header1 6)) true (sImagesAndPrograms16.ownerFlag 1) false false ∨ sImagesAndPrograms16.imageCode 6 (sImagesAndPrograms16.get Obj.PROG_COUNTER) (some (header1 6)) true (sImagesAndPrograms16.ownerFlag 1) false false = 0 ∧ (Option.map UnitDecl.semsAgree none).getD false = false ∧ 5221 = 5221 ∨ sImagesAndPrograms16.imageCode 6 (sImagesAndPrograms16.get Obj.PROG_COUNTER) (some (header1 6)) true (sImagesAndPrograms16.ownerFlag 1) false false = 0 ∧ (Option.map UnitDecl.semsAgree none).getD false = true ∧ ¬(List.length sImagesAndPrograms16.u.tt.progs < 256 ∧ ceilDiv ((some (header1 6)).getD []).length 1024 ≤ sImagesAndPrograms16.programSpace) ∧ 5221 = 5222))
    ∧ (List.find? (fun e => e.fst == 2) sImagesAndPrograms18.u.boot.loads = some (2, some (header1 6), true)
        ∧ (List.filter (fun e => e.fst == 2) sImagesAndPrograms18.u.boot.loads).length = 1 ∧ sImagesAndPrograms18.u.boot.nextProg < 2 ^ 64
        ∧ (sImagesAndPrograms18.imageCode 6 (sImagesAndPrograms18.get Obj.PROG_COUNTER) (some (header1 6)) true (sImagesAndPrograms18.ownerFlag 1) false false ≠ 0 ∧ 5222 = sImagesAndPrograms18.imageCode 6 (sImagesAndPrograms18.get Obj.PROG_COUNTER) (some (header1 6)) true (sImagesAndPrograms18.ownerFlag 1) false false ∨ sImagesAndPrograms18.imageCode 6 (sImagesAndPrograms18.get Obj.PROG_COUNTER) (some (header1 6)) true (sImagesAndPrograms18.ownerFlag 1) false false = 0 ∧ (Option.map UnitDecl.semsAgree (some unit1)).getD false = false ∧ 5222 = 5221 ∨ sImagesAndPrograms18.imageCode 6 (sImagesAndPrograms18.get Obj.PROG_COUNTER) (some (header1 6)) true (sImagesAndPrograms18.ownerFlag 1) false false = 0 ∧ (Option.map UnitDecl.semsAgree (some unit1)).getD false = true ∧ ¬(List.length sImagesAndPrograms18.u.tt.progs < 256 ∧ ceilDiv ((some (header1 6)).getD []).length 1024 ≤ sImagesAndPrograms18.programSpace) ∧ 5222 = 5222))
    ∧ (sImagesAndPrograms19.admits 2 Obj.PROG_UNLOAD 9 Lvl.sup ∧ (sImagesAndPrograms19.u.tt.progs.get? 9).isSome = true ∧ sImagesAndPrograms19.progNamed 9 = false)
    ∧ (sImagesAndPrograms20.admits 2 Obj.PROG_UNLOAD 9 Lvl.sup ∧ (sImagesAndPrograms20.u.tt.progs.get? 9).isSome = true ∧ sImagesAndPrograms20.progNamed 9 = true)
    ∧ (sImagesAndPrograms20.admits 2 Obj.PROG_UNLOAD 8 Lvl.sup ∧ sImagesAndPrograms20.u.tt.progs.get? 8 = none)
    ∧ (sImagesAndPrograms21.admits 2 Obj.PROG_COUNTER_COMMIT 1 Lvl.svc) := by
  iterate 2 refine ⟨by decide +kernel, ?_⟩
  iterate 2 refine ⟨by and_intros <;> first | decide +kernel | (intro d h; cases h; try decide +kernel), ?_⟩
  iterate 23 refine ⟨by decide +kernel, ?_⟩
  decide +kernel
def sPolicyHandovers0 : State := bootSt [] { asked := true }
def sPolicyHandovers1 : State := bootSt [(Obj.POLICY_STATE, 2)] { newSlot := 1 }
def sPolicyHandovers2 : State := bootSt [(Obj.POLICY_STATE, 3)] {}
def sPolicyHandovers3 : State := bootSt [(Obj.POLICY_STATE, 2)] { restarts := [0, 0] }
def sPolicyHandovers4 : State := bootSt [(Obj.POLICY_STATE, 1)] { restarts := [0, 0, 0] }
def sPolicyHandovers5 : State := bootSt [(Obj.POLICY_STATE, 2)] {}
def sPolicyHandovers6 : State := bootSt [(Obj.POLICY_STATE, 2)] { restarts := [0, 0, 0] }
def sPolicyHandovers7 : State := bootSt [(Obj.POLICY_STATE, 1)] { restarts := [0, 0] }

/-- States and operands that meet the hypotheses of `Obligations.PolicyHandovers`, clause by clause. -/
theorem wit_PolicyHandovers :
    (sPolicyHandovers0.u.boot.asked = true ∧ sPolicyHandovers0.get Obj.POLICY_STATE ≠ 2)
    ∧ (sPolicyHandovers1.get Obj.POLICY_STATE = 2 ∧ sPolicyHandovers1.u.boot.newSlot ≤ 1 ∧ sPolicyHandovers1.u.boot.newSlot ≠ sPolicyHandovers1.get (Obj.IMG_ACTIVE_SLOT 2))
    ∧ (sPolicyHandovers1.get Obj.POLICY_STATE = 2 ∧ sPolicyHandovers1.u.boot.newSlot ≠ sPolicyHandovers1.get (Obj.IMG_ACTIVE_SLOT 2))
    ∧ (sPolicyHandovers2.get Obj.POLICY_STATE = 3)
    ∧ (sPolicyHandovers2.get Obj.POLICY_STATE = 3)
    ∧ (sPolicyHandovers3.get Obj.POLICY_STATE = 2 ∧ sPolicyHandovers3.u.boot.newSlot = sPolicyHandovers3.get (Obj.IMG_ACTIVE_SLOT 2))
    ∧ (sPolicyHandovers4.get Obj.POLICY_STATE = 1)
    ∧ ((sImagesAndPrograms0.u.boot.asked = false ∨ sImagesAndPrograms0.get Obj.POLICY_STATE = 2))
    ∧ (sImagesAndPrograms0.get Obj.POLICY_STATE ≠ 2)
    ∧ (sImagesAndPrograms0.get Obj.POLICY_STATE ≠ 3)
    ∧ (sPolicyHandovers5.get Obj.POLICY_STATE ≠ 3 ∧ sPolicyHandovers5.get Obj.POLICY_STATE ≠ 1)
    ∧ (sPolicyHandovers6.get Obj.POLICY_STATE = 2 ∧ sPolicyHandovers6.u.boot.newSlot = sPolicyHandovers6.get (Obj.IMG_ACTIVE_SLOT 2))
    ∧ (sPolicyHandovers7.get Obj.POLICY_STATE = 1) := by
  iterate 12 refine ⟨by decide +kernel, ?_⟩
  decide +kernel
def sTrustIsGiven0 : State := opSt 0 []
def sTrustIsGiven1 : State := (opSt 0 []).withBoot fun b => { b with recovery := true }
def sTrustIsGiven2 : State := opSt 0 [(Obj.DEVICE_STATE, 1)]
def sTrustIsGiven3 : State := opSt 0 [(Obj.ATTEST_STATUS 2, 1)]
def sTrustIsGiven4 : State := challenged []
def tokenTrustIsGiven0 : Token := { token1 with sigOk := false }
def sTrustIsGiven5 : State := trusted [(Obj.TRANSPORT 2, 1)]
def sTrustIsGiven6 : State := trusted []
def sTrustIsGiven7 : State := challenged [(Obj.LEVEL 2, 2)]
def sTrustIsGiven8 : State := challenged [(Obj.DEVICE_STATE, 5), (Obj.LEVEL 2, 2)]
def tokenTrustIsGiven1 : Token := { token3 with level := 3 }
def sTrustIsGiven9 : State := challenged [(Obj.DEVICE_STATE, 5), (Obj.LEVEL 2, 2), (Obj.TEST_EN_LEVEL, 1)]
def sTrustIsGiven10 : State := bootSt [] { debugOf := some 2 }

/-- States and operands that meet the hypotheses of `Obligations.TrustIsGiven`, clause by clause. -/
theorem wit_TrustIsGiven :
    (sTrustIsGiven0.admits 2 (Obj.ATTEST_GO 2) 1 Lvl.host ∧ sTrustIsGiven0.u.boot.recovery = false)
    ∧ (sTrustIsGiven1.admits 2 (Obj.ATTEST_GO 2) 1 Lvl.host ∧ sTrustIsGiven1.u.boot.recovery = true)
    ∧ ((sTrustIsGiven0.isOpen 2 = false ∨ sTrustIsGiven0.get (Obj.ATTEST_STATUS 2) ≠ 1))
    ∧ ((sTrustIsGiven0.isOpen 3 = false ∨ sTrustIsGiven0.dev = Dev.STANDBY))
    ∧ (sTrustIsGiven2.isOpen 2 = true ∧ sTrustIsGiven2.dev = Dev.INIT)
    ∧ (sTrustIsGiven3.isOpen 2 = true ∧ sTrustIsGiven3.get (Obj.ATTEST_STATUS 2) = 1)
    ∧ (sTrustIsGiven0.isOpen 2 = true ∧ sTrustIsGiven0.dev ≠ Dev.STANDBY ∧ sTrustIsGiven0.dev ≠ Dev.INIT)
    ∧ (sTrustIsGiven4.admits 2 (Obj.ELEVATE 2) 0 Lvl.host ∧ sTrustIsGiven4.tokenPasses 2 1 (5 + token1.level) 4 token1 = true)
    ∧ (sTrustIsGiven4.admits 2 (Obj.ELEVATE 2) 0 Lvl.host ∧ sTrustIsGiven4.tokenPasses 2 1 (5 + tokenTrustIsGiven0.level) 4 tokenTrustIsGiven0 = false)
    ∧ (sTrustIsGiven4.admits 2 (Obj.ELEVATE 0) 0 Lvl.host)
    ∧ (sTrustIsGiven4.admits 2 (Obj.DROP_LEVEL 15) 1 Lvl.host)
    ∧ (sTrustIsGiven5.admits 2 (Obj.DROP_LEVEL 2) 1 Lvl.host ∧ sTrustIsGiven5.get (Obj.TRANSPORT 2) ≠ 3)
    ∧ (sTrustIsGiven6.admits 2 (Obj.DROP_LEVEL 2) 1 Lvl.host ∧ sTrustIsGiven6.get (Obj.TRANSPORT 2) = 3)
    ∧ (sTrustIsGiven7.admits 2 Obj.DEBUG_TOKEN 0 Lvl.svc ∧ sTrustIsGiven7.tokenPasses 2 2 3 3 token1 = false)
    ∧ (sTrustIsGiven8.admits 2 Obj.DEBUG_TOKEN 0 Lvl.svc ∧ sTrustIsGiven8.tokenPasses 2 2 3 3 tokenTrustIsGiven1 = true
        ∧ (sTrustIsGiven8.dev ≠ Dev.SERVICE ∨ tokenTrustIsGiven1.level = 3 ∧ sTrustIsGiven8.get Obj.TEST_EN_LEVEL = 0))
    ∧ (sTrustIsGiven9.admits 2 Obj.DEBUG_TOKEN 0 Lvl.svc ∧ sTrustIsGiven9.tokenPasses 2 2 3 3 tokenTrustIsGiven1 = true ∧ sTrustIsGiven9.dev = Dev.SERVICE
        ∧ (tokenTrustIsGiven1.level = 3 → sTrustIsGiven9.get Obj.TEST_EN_LEVEL ≠ 0))
    ∧ (sTrustIsGiven10.admits 2 Obj.DEBUG_END 1 Lvl.svc) := by
  iterate 16 refine ⟨by decide +kernel, ?_⟩
  decide +kernel
def sPmbusAnswers0 : State := bootSt [] { powered := false }
def sPmbusAnswers1 : State := st (op 1) fun u => { u with pow := { u.pow with alert := true, overcurrent := true, statusInput := 4 } }
def sPmbusAnswers2 : State := opSt 1 [(Obj.HW_CEILING_W, 100)]
def sPmbusAnswers3 : State := opSt 1 [(Obj.HW_CEILING_W, 180)]
def sPmbusAnswers4 : State := opSt 1 []
def sPmbusAnswers5 : State := st (op 1) fun u => { u with pow := { u.pow with alert := true } }
def sPmbusAnswers6 : State := opSt 1 [(Obj.SENSE_VALID, 1)]
def sPmbusAnswers7 : State := opSt 1 [(Obj.SENSE_VALID, 0)]
def sPmbusAnswers8 : State := opSt 1 [(Obj.DEBUG_LEVEL, 1)]

/-- States and operands that meet the hypotheses of `Obligations.PmbusAnswers`, clause by clause. -/
theorem wit_PmbusAnswers :
    (sPmbusAnswers0.u.boot.powered = false
        ∧ Instr.capability ∈ [Instr.capability, Instr.statusWord, Instr.statusInput, Instr.statusTemperature, Instr.statusCml, Instr.readVin, Instr.readIin, Instr.readTemperature1, Instr.readTemperature2, Instr.readPin, Instr.pmbusRevision, Instr.mfrId, Instr.mfrModel, Instr.mfrDeviceState, Instr.mfrActiveCauses, Instr.mfrPinLimit none, Instr.mfrPinLimitEn none, Instr.clearFaults, Instr.alertResponse])
    ∧ (sPmbusAnswers0.u.boot.powered = false
        ∧ Instr.mfrPinLimit (some 100) ∈ [Instr.mfrPinLimit (some 100), Instr.mfrPinLimitEn (some 100), Instr.pmbusUnsupportedCommand 255, Instr.senseInvalid 48000 51000, Instr.senseValidReturn 48000 51000])
    ∧ (sPmbusAnswers1.u.boot.powered = true)
    ∧ (sPmbusAnswers2.u.boot.powered = true ∧ 60 ≤ sPmbusAnswers2.get Obj.HW_CEILING_W)
    ∧ (sPmbusAnswers3.u.boot.powered = true ∧ 180 ≤ sPmbusAnswers3.get Obj.HW_CEILING_W)
    ∧ (sPmbusAnswers2.u.boot.powered = true ∧ sPmbusAnswers2.get Obj.HW_CEILING_W < 101)
    ∧ (sPmbusAnswers4.u.boot.powered = true ∧ (59 < 60 ∨ 180 < 59))
    ∧ (sPmbusAnswers4.u.boot.powered = true ∧ (181 < 60 ∨ 180 < 181))
    ∧ (sPmbusAnswers4.u.boot.powered = true)
    ∧ (sPmbusAnswers4.u.boot.powered = true)
    ∧ (sPmbusAnswers4.u.boot.powered = true)
    ∧ (sPmbusAnswers5.u.boot.powered = true ∧ sPmbusAnswers5.u.pow.alert = true)
    ∧ (sPmbusAnswers4.u.boot.powered = true ∧ sPmbusAnswers4.u.pow.alert = false)
    ∧ (sPmbusAnswers6.u.boot.powered = true ∧ sPmbusAnswers6.get Obj.SENSE_VALID ≠ 0 ∧ 2000 < max 48000 50001 - min 48000 50001)
    ∧ (sPmbusAnswers6.u.boot.powered = true ∧ (sPmbusAnswers6.get Obj.SENSE_VALID = 0 ∨ max 48000 50000 - min 48000 50000 ≤ 2000))
    ∧ (sPmbusAnswers7.u.boot.powered = true ∧ (sPmbusAnswers7.get Obj.SENSE_VALID = 0 ∨ max 48000 50001 - min 48000 50001 ≤ 2000))
    ∧ (sPmbusAnswers4.u.boot.powered = true ∧ 2000 < max 50001 48000 - min 50001 48000)
    ∧ (sPmbusAnswers4.u.boot.powered = true ∧ max 50000 48000 - min 50000 48000 ≤ 2000)
    ∧ (sPmbusAnswers8.get Obj.DEBUG_LEVEL ≠ 0)
    ∧ (sPmbusAnswers4.get Obj.DEBUG_LEVEL = 0) := by
  iterate 19 refine ⟨by decide +kernel, ?_⟩
  decide +kernel
def sBoundaryScan0 : State := bootSt [(Obj.PIN_CONTROL_ACTIVE, 1)] { resetLow := true }
def sBoundaryScan1 : State := bootSt [(Obj.PIN_CONTROL_ACTIVE, 1), (Obj.DEVICE_STATE, 1)] {}
def sBoundaryScan2 : State := bootSt [(Obj.PIN_CONTROL_ACTIVE, 1), (Obj.DEVICE_STATE, 0)] {}
def sBoundaryScan3 : State := bootSt [(Obj.DEVICE_STATE, 1), (Obj.TEST_EN_LEVEL, 1)] { resetLow := true }
def sBoundaryScan4 : State := bootSt [(Obj.TEST_EN_LEVEL, 1)] {}
def sBoundaryScan5 : State := bootSt [] {}

/-- States and operands that meet the hypotheses of `Obligations.BoundaryScan`, clause by clause. -/
theorem wit_BoundaryScan :
    (sPmbusAnswers4.get Obj.PIN_CONTROL_ACTIVE = 0)
    ∧ (sBoundaryScan0.get Obj.PIN_CONTROL_ACTIVE ≠ 0 ∧ sBoundaryScan0.u.boot.resetLow = true)
    ∧ (sBoundaryScan1.get Obj.PIN_CONTROL_ACTIVE ≠ 0 ∧ sBoundaryScan1.u.boot.resetLow = false ∧ sBoundaryScan1.dev = Dev.INIT)
    ∧ (sBoundaryScan2.get Obj.PIN_CONTROL_ACTIVE ≠ 0 ∧ sBoundaryScan2.u.boot.resetLow = false ∧ sBoundaryScan2.dev = Dev.STANDBY)
    ∧ (sBoundaryScan3.tapOn = true ∧ sBoundaryScan3.pinControlOk = true ∧ sBoundaryScan3.get Obj.PIN_CONTROL_ENTRIES + 1 < 2 ^ 32)
    ∧ (sBoundaryScan4.tapOn = true ∧ sBoundaryScan4.pinControlOk = false)
    ∧ (sBoundaryScan4.tapOn = true)
    ∧ (sBoundaryScan5.tapOn = false
        ∧ Instr.clamp 5 6 ∈ [Instr.extest 5 6, Instr.extestPulse 5 6, Instr.extestTrain 5 6, Instr.clamp 5 6, Instr.highz 5 6, Instr.samplePreload 5 6, Instr.idcode 5 6, Instr.bypass 5 6]) := by
  iterate 7 refine ⟨by decide +kernel, ?_⟩
  decide +kernel
def sCleanGroupAppliesNothing0 : State := opSt 1 [(Obj.COMMIT_STATUS 0x2F40, 3)]
def sCleanGroupAppliesNothing1 : State := opSt 1 [(Obj.FURROW_SELECT 2, 7)]
def sCleanGroupAppliesNothing2 : State := opSt 3 [(Obj.DICTATION_SELECT 2, 7)]
def sCleanGroupAppliesNothing3 : State := opSt 0 []
def sCleanGroupAppliesNothing4 : State := opSt 1 [(Obj.COMMIT_COUNT 0x2120, 4294967295)]

/-- States and operands that meet the hypotheses of `Obligations.CleanGroupAppliesNothing`, clause by clause. -/
theorem wit_CleanGroupAppliesNothing :
    (Wf.group 12096 = true ∧ sCleanGroupAppliesNothing0.streamShut 2 12096 = false ∧ sCleanGroupAppliesNothing0.get (Obj.FURROW_SELECT 2) < 256
        ∧ sCleanGroupAppliesNothing0.get (Obj.DICTATION_SELECT 2) < 256
        ∧ (sCleanGroupAppliesNothing0.get (Obj.COMMIT_STATUS (sCleanGroupAppliesNothing0.groupKey 2 12096)) = 0 ∨ sCleanGroupAppliesNothing0.get (Obj.COMMIT_STATUS (sCleanGroupAppliesNothing0.groupKey 2 12096)) = 3)
        ∧ sCleanGroupAppliesNothing0.admits 2 (commitKey (sCleanGroupAppliesNothing0.groupKey 2 12096)) 1 (groupLvl 12096))
    ∧ (Wf.group 12096 = true ∧ sCleanGroupAppliesNothing0.streamShut 2 12096 = false ∧ sCleanGroupAppliesNothing0.get (Obj.FURROW_SELECT 2) < 256
        ∧ sCleanGroupAppliesNothing0.get (Obj.DICTATION_SELECT 2) < 256
        ∧ (sCleanGroupAppliesNothing0.get (Obj.COMMIT_STATUS (sCleanGroupAppliesNothing0.groupKey 2 12096)) = 0 ∨ sCleanGroupAppliesNothing0.get (Obj.COMMIT_STATUS (sCleanGroupAppliesNothing0.groupKey 2 12096)) = 3)
        ∧ sCleanGroupAppliesNothing0.admits 2 (commitKey (sCleanGroupAppliesNothing0.groupKey 2 12096)) 2 (groupLvl 12096))
    ∧ (Wf.group 9601 = true ∧ sCleanGroupAppliesNothing1.streamShut 2 9601 = false ∧ sCleanGroupAppliesNothing1.get (Obj.FURROW_SELECT 2) < 256
        ∧ sCleanGroupAppliesNothing1.get (Obj.DICTATION_SELECT 2) < 256
        ∧ (sCleanGroupAppliesNothing1.get (Obj.COMMIT_STATUS (sCleanGroupAppliesNothing1.groupKey 2 9601)) = 0 ∨ sCleanGroupAppliesNothing1.get (Obj.COMMIT_STATUS (sCleanGroupAppliesNothing1.groupKey 2 9601)) = 3)
        ∧ sCleanGroupAppliesNothing1.admits 2 (commitKey (sCleanGroupAppliesNothing1.groupKey 2 9601)) 1 (groupLvl 9601))
    ∧ (Wf.group 11553 = true ∧ sCleanGroupAppliesNothing2.streamShut 2 11553 = false ∧ sCleanGroupAppliesNothing2.get (Obj.FURROW_SELECT 2) < 256
        ∧ sCleanGroupAppliesNothing2.get (Obj.DICTATION_SELECT 2) < 256
        ∧ (sCleanGroupAppliesNothing2.get (Obj.COMMIT_STATUS (sCleanGroupAppliesNothing2.groupKey 2 11553)) = 0 ∨ sCleanGroupAppliesNothing2.get (Obj.COMMIT_STATUS (sCleanGroupAppliesNothing2.groupKey 2 11553)) = 3)
        ∧ sCleanGroupAppliesNothing2.admits 2 (commitKey (sCleanGroupAppliesNothing2.groupKey 2 11553)) 1 (groupLvl 11553))
    ∧ (Wf.group 11553 = true ∧ sCleanGroupAppliesNothing2.streamShut 2 11553 = false ∧ sCleanGroupAppliesNothing2.get (Obj.FURROW_SELECT 2) < 256
        ∧ sCleanGroupAppliesNothing2.get (Obj.DICTATION_SELECT 2) < 256
        ∧ (sCleanGroupAppliesNothing2.get (Obj.COMMIT_STATUS (sCleanGroupAppliesNothing2.groupKey 2 11553)) = 0 ∨ sCleanGroupAppliesNothing2.get (Obj.COMMIT_STATUS (sCleanGroupAppliesNothing2.groupKey 2 11553)) = 3)
        ∧ sCleanGroupAppliesNothing2.admits 2 (commitKey (sCleanGroupAppliesNothing2.groupKey 2 11553)) 2 (groupLvl 11553))
    ∧ (Wf.group 20487 = true ∧ sCleanGroupAppliesNothing3.streamShut 2 20487 = false ∧ sCleanGroupAppliesNothing3.get (Obj.FURROW_SELECT 2) < 256
        ∧ sCleanGroupAppliesNothing3.get (Obj.DICTATION_SELECT 2) < 256
        ∧ (sCleanGroupAppliesNothing3.get (Obj.COMMIT_STATUS (sCleanGroupAppliesNothing3.groupKey 2 20487)) = 0 ∨ sCleanGroupAppliesNothing3.get (Obj.COMMIT_STATUS (sCleanGroupAppliesNothing3.groupKey 2 20487)) = 3)
        ∧ sCleanGroupAppliesNothing3.admits 2 (commitKey (sCleanGroupAppliesNothing3.groupKey 2 20487)) 1 (groupLvl 20487))
    ∧ (Wf.group 8480 = true ∧ sCleanGroupAppliesNothing4.streamShut 2 8480 = false ∧ sCleanGroupAppliesNothing4.get (Obj.FURROW_SELECT 2) < 256
        ∧ sCleanGroupAppliesNothing4.get (Obj.DICTATION_SELECT 2) < 256
        ∧ (sCleanGroupAppliesNothing4.get (Obj.COMMIT_STATUS (sCleanGroupAppliesNothing4.groupKey 2 8480)) = 0 ∨ sCleanGroupAppliesNothing4.get (Obj.COMMIT_STATUS (sCleanGroupAppliesNothing4.groupKey 2 8480)) = 3)
        ∧ sCleanGroupAppliesNothing4.admits 2 (commitKey (sCleanGroupAppliesNothing4.groupKey 2 8480)) 1 (groupLvl 8480)) := by
  iterate 6 refine ⟨by decide +kernel, ?_⟩
  decide +kernel
def sRetireRequestNeedsActiveChannel0 : State := opSt 2 [(Obj.CHANNEL_ROLE 5, 2)]

/-- States and operands that meet the hypotheses of `Obligations.RetireRequestNeedsActiveChannel`, clause by clause. -/
theorem wit_RetireRequestNeedsActiveChannel :
    (sRetireRequestNeedsActiveChannel0.admits 2 (Obj.RETIRE_REQUEST 5) 1 Lvl.svc ∧ sRetireRequestNeedsActiveChannel0.get (Obj.CHANNEL_ROLE 5) ≠ 0) := by
  decide +kernel
def sTokenLifetimeEnds0 : State := trusted [(Obj.TRANSPORT 2, 1)]
def sTokenLifetimeEnds1 : State := trusted []
def sTokenLifetimeEnds2 : State := bootSt [] { debugOf := some 2 }

/-- States and operands that meet the hypotheses of `Obligations.TokenLifetimeEnds`, clause by clause. -/
theorem wit_TokenLifetimeEnds :
    (sTokenLifetimeEnds0.isOpen 2 = true ∧ (sTokenLifetimeEnds0.session 2).token = true ∧ sTokenLifetimeEnds0.get (Obj.TRANSPORT 2) ≠ 3)
    ∧ (sTokenLifetimeEnds1.isOpen 2 = true ∧ (sTokenLifetimeEnds1.session 2).token = true ∧ sTokenLifetimeEnds1.get (Obj.TRANSPORT 2) = 3)
    ∧ (sTokenLifetimeEnds1.isOpen 2 = true ∧ (sTokenLifetimeEnds1.session 2).token = true ∧ sTokenLifetimeEnds1.admits 2 (Obj.DROP_LEVEL 2) 1 Lvl.host)
    ∧ (sTokenLifetimeEnds0.isOpen 2 = true ∧ (sTokenLifetimeEnds0.session 2).token = true ∧ sTokenLifetimeEnds0.admits 2 (Obj.DROP_LEVEL 2) 1 Lvl.host)
    ∧ (sTokenLifetimeEnds2.u.boot.debugOf = some 2)
    ∧ (sTokenLifetimeEnds2.u.boot.debugOf = some 2 ∧ sTokenLifetimeEnds2.admits 2 Obj.DEBUG_END 1 Lvl.svc) := by
  iterate 5 refine ⟨by decide +kernel, ?_⟩
  decide +kernel

/-! ## Terms that are not well-formed -/

theorem test_ill_formed_1 : ([
    .bar0SlotWrite 134217728 0 none none, .mdpFinish 1 false, .mdpFinish 16 false, .mdpRead (headOf 1 8) 65536 0 8,
    .mdpRead (headOf 1 8) 0 256 8, .mdpWrite (headOf 2 8) 65536 0 8 (.num 0 1), .mdpWrite (headOf 2 8) 0 256 8 (.num 0 1), .inlineStart (headOf 3 8) 65536 0 0 0,
    .inlineStart (headOf 3 8) 0 256 0 0, .inlineStart (headOf 3 8) 0 0 4294967296 0, .inlineStart (headOf 3 8) 0 0 0 4294967296, .inlineData (headOf 4 1) 65536 0 [0],
    .inlineData (headOf 4 1) 0 256 [0], .elevate 16 0 token1, .elevate 0 16 token1, .groupCommit 16 0x2120,
    .groupCommit 0 0x2000, .storeParameters 16 1 0, .storeParameters 0 0 0, .storeParameters 0 4 0,
    .slotClaim 16 0, .slotClaim 0 4096, .msixHoldoffExpiry 64, .eventAck 16 0,
    .enginePassDrain 0 { pass1 with k := 65537 }, .labMissFill 66 0 0 0 false, .engineStepTimeout 66 0 none, .engineStepTimeout 0 34 none,
    .engineFault 66 0 0x0300 0 none, .engineFault 0 34 0x0300 0 none, .engineFault 0 0 767 0 none, .engineFault 0 0 771 0 none,
    .engineFault 0 0 0x0300 32768 none, .fallowRequestPut 16 0, .fallowRequestPut 0 66, .flitReplay 66 0 false,
    .flitReplay 0 4 false, .scrubGranule 66 0 0 0 none false false false false, .scrubGranule 0 34 0 0 none false false false false, .scrubGranule 0 0 32768 0 none false false false false] : List Instr).all (fun i => !i.wf) = true := by decide

theorem test_ill_formed_2 : ([
    .scrubGranule 0 0 0 4 none false false false false, .backgroundOverdue 6 0, .perBankRefresh 64 0, .perBankRefresh 0 8,
    .zqCalibration 64 0, .zqCalibration 0 1001, .retireRequest 16 0 0, .retireRequest 0 64 0,
    .stripeSwitch 64 0, .peerLenderLost 8, .furrowTrigger 256 0 0 false, .energyInterval 70 0,
    .outputTestPulse 2 false, .checkUnitRun 16 [] none, .quizSliceStart 16 0 false none, .quizSliceDone false 128,
    .railIncrement 80, .phaseRetire 20, .domSetMv 16 0 0, .domSetMv 0 80 0,
    .budgetW 16 3 0, .budgetW 0 2 0, .budgetW 0 6 0, .phaseBoundary 0 8,
    .seqOpen (.ses 16), .streamSwapOut 4096, .streamSwapIn 4096 0, .streamSwapIn 0 66,
    .sieveSlice 0 2001 none, .roadmapClear 16 0 0, .roadmapClear 0 4 0, .ptpMessage 0 0 0 0,
    .ptpMessage 3 0 0 0, .tbSet 16 0, .tbSet 0 18446744073709551616, .captureEdge 16 0 0 0 false false 0 0,
    .captureEdge 0 0 65536 0 false false 0 0, .fusionSampleArrival 64 [] [] meas1, .periodicPublication 64 0 false, .filterStart 16 0] : List Instr).all (fun i => !i.wf) = true := by decide

theorem test_ill_formed_3 : ([
    .filterStart 0 8, .programMeasurement 0 64 0 0 meas1, .programMeasurement 0 0 0 65536 meas1, .controlSampleArrival 288 0 none,
    .controlSampleArrival 0 4294967296 none, .backgroundUpdateDone 288, .refGo 16 0, .refGo 0 288,
    .ecatSync0 2 0, .ecatInputFrame 2 0 [] false false, .ecatRingChange 2 1 0 0, .ecatRingChange 0 0 0 0,
    .ecatRingChange 0 4 0 0, .ecatRingChange 0 1 0 513, .ecatRingChange 0 1 4294967296 0, .ecatLineProbe 2 0 1 0 false,
    .ecatLineProbe 0 0 0 0 false, .ecatLineProbe 0 0 3 0 false, .ecatLineProbe 0 513 1 0 false, .ecatLineProbe 0 0 1 4294967296 false,
    .pcieLinkChange false false false 7 0 0 0 [], .pcieLinkChange false false false 0 9 0 0 [], .ethLaneRetireAuto 4 0, .ethLaneRetireAuto 0 2,
    .laneRetire 16 0 0, .laneRetire 0 4 0, .roceAckTimeout 4294967296 [], .csiFrameStart 8 0 0 0,
    .csiFrameStart 0 16 0 0, .csiFrameStart 0 0 65536 0, .csiFrameStart 0 0 0 3, .csiLinePacket 8 0 0 0 false [],
    .csiLinePacket 0 16 0 0 false [], .csiLinePacket 0 0 64 0 false [], .csiLinePacket 0 0 0 3 false [], .csiFrameEnd 8 0 0,
    .csiFrameEnd 0 16 0, .csiFrameEnd 0 0 3, .csiFrameTimeout 8, .spiTransferEnd 8 []] : List Instr).all (fun i => !i.wf) = true := by decide

theorem test_ill_formed_4 : ([
    .ethPortLinkChange 4 0, .ethPortLinkChange 0 6, .slaveLinkReturn 65536, .arpOrIcmpEchoRequest 4 [],
    .powerOn 8 false 0, .imageVerify 0 none none false, .imageVerify 5 none none false, .imgWrite 16 1 (.num 0 1),
    .imgWrite 0 0 (.num 0 1), .imgWrite 0 5 (.num 0 1), .progLoadDone 17 false false none, .pmbusUnsupportedCommand 256] : List Instr).all (fun i => !i.wf) = true := by decide

theorem test_ill_formed_requests : ([
    .objectWrite 16 0 0 (.num 0 1), .objectWrite 2 65536 0 (.num 0 1), .objectWrite 2 0 256 (.num 0 1), .objectWrite 0 0 0 (.inline []),
    .mdpRead { head1 with ses := 1 } 0 0 8, .mdpRead { head1 with ses := 16 } 0 0 8, .mdpRead { head1 with ops := [] } 0 0 8,
    .mdpRead { head1 with ops := List.replicate 65 (1, 8) } 0 0 8, .mdpRead { head1 with op := 1 } 0 0 8, .mdpRead { head1 with ops := [(1, 8), (5, 8)] } 0 0 8,
    .mdpRead (headOf 1 0) 0 0 0, .mdpRead (headOf 1 256) 0 0 256, .mdpRead (headOf 2 8) 0 0 8, .mdpRead head1 0 0 4,
    .mdpWrite (headOf 2 8) 0 0 4 (.num 0 1), .inlineStart (headOf 3 4) 0 0 0 0, .inlineData (headOf 4 2) 0 0 [0],
    .groupApply 0x2000, .groupApply 0x12120, .groupApply 0x1002581] : List Instr).all (fun i => !i.wf) = true := by decide

theorem test_ill_formed_lists : ([
    .enginePassDrain 0 { pass1 with field := 66 }, .enginePassDrain 0 { pass1 with engine := 34 }, .enginePassDrain 0 { pass1 with k := 2 },
    .enginePassDrain 0 { pass1 with a := { fmt := 0, els := List.replicate 17 [3] } }, .enginePassDrain 0 { pass1 with b := { fmt := 0, els := [[]] } },
    .enginePassDrain 0 { pass1 with feed := [0, 1, 2] }, .enginePassDrain 0 { pass1 with feed := [4] },
    .fieldSelftestDone 66 0 [] false, .fieldSelftestDone 0 17179869184 [] false, .fieldSelftestDone 0 0 [32768] false,
    .gleanerGranule 1 0 false false false false false, .dqsTracking 64 1 0, .dqsTracking 0 3 0, .dqsTracking 0 1 1001,
    .drillMoveDone { move1 with field := 66 }, .drillMoveDone { move1 with side := .lines 196545 }, .jobDispatch 0 [66] [] [],
    .safetyTick [] 0 none, .powerSample 0 0 0 [(80, 0)], .thermalStepTick [(128, 0)] none, .seqOpen (.job 0 65536 0 0 0 false 0 0 0 0 [] none),
    .mapBatchCommit 0 0 [.replace 0 []], .mapBatchCommit 0 0 [.min 0 [70000]], .spiTransferEnd 0 (List.replicate 65 0),
    .fusionSampleArrival 64 (List.replicate 32 0) [] meas1, .fusionSampleArrival 0 [] [] meas1,
    .collectiveExchange 0 { exch1 with group := 8 }, .identityReconstructed true [] [], .identityReconstructed false [0] [],
    .identityReconstructed false [] [[]], .identityReconstructed false [] (List.replicate 3 (List.replicate 272 0)),
    .lpddrTrainingDone 4294967296 [] [], .lpddrTrainingDone 0 [64] [], .lpddrTrainingDone 0 [] [(64, 0, 0)], .lpddrTrainingDone 0 [] [(0, 0, 8)],
    .initComplete [4], .alStateRequest 0] : List Instr).all (fun i => !i.wf) = true := by decide

theorem test_ill_formed_long (bs : List Byte) : (65535 < bs.length → (Instr.csiLinePacket 0 0 0x2A 0 true bs).wf = false)
    ∧ (4096 < bs.length → (Instr.ecatInputFrame 0 0 bs true true).wf = false) ∧ (4096 < bs.length → (Instr.collectiveExchange 0 { exch1 with data := bs }).wf = false) := by
  refine ⟨fun h => ?_, fun h => ?_, fun h => ?_⟩ <;> simp [Instr.wf, Wf.csiLinePacket, Wf.ecatInputFrame, Wf.collectiveExchange, exch1] <;> omega

/-! ## Values that the spec prints -/

/-- R409's check values over the nine ASCII bytes 123456789. -/
theorem test_check_values : (List.range 6).map (fun c => crc c [0x31, 0x32, 0x33, 0x34, 0x35, 0x36, 0x37, 0x38, 0x39])
    = [0x4B, 0x29B1, 0xCBF43926, 0xE3069283, 0x1697D06A, 0x6C40DF5F0B497347] := by decide

/-- R71's largest finite values and smallest subnormals: FP16, E4M3, E5M2, E3M2, E2M3, E2M1. -/
theorem test_format_ranges : ([(2, 0x7BFF, num 65504), (3, 0x7E, num 448), (4, 0x7B, num 57344), (5, 0x1F, num 28), (7, 7, num 6),
    (2, 1, .fin false 1 (-24)), (3, 1, .fin false 1 (-9)), (4, 1, .fin false 1 (-16)), (5, 1, .fin false 1 (-4)), (6, 1, .fin false 1 (-3)), (7, 1, .fin false 1 (-1))] : List (Nat × Nat × Machine.Num)).all
    (fun e => (decodeElt e.1 [] e.2.1).le e.2.2 && e.2.2.le (decodeElt e.1 [] e.2.1)) = true := by decide

/-! ## Single commands -/

/-- R55: a claim makes an IDLE slot FILLING for the session. -/
theorem test_slot_claim : after (exec (.slotClaim 2 5) (opSt 0 [])) (fun t => t.get (Obj.STATE 5) == 1 && t.get (Obj.OWNER_SESSION 5) == 2) = true := by decide
/-- R16: a write below its level aborts with 0x0F000001 and changes nothing. -/
theorem test_level : after (exec (.eventAck 2 0) (opSt 0 [])) (fun t => t.out == replies 2 0x0F000001 && t.log == {}) = true := by decide
/-- Field 3 steps from 700 to 750 mV. -/
def rail1 : State := st (op 1 ++ [(Obj.DOM_STATE 3, 2), (Obj.DOM_RAIL_MV 3, 700)]) fun u => { u with pow := { u.pow with steps := [(3, { mv := 750, pacer := 20, oldMv := 700, oldPacer := 10 })] } }
/-- R429: a rail moves 10 mV in 2 µs. -/
theorem test_rail : after (exec (.railIncrement 3) rail1) (fun t => t.get (Obj.DOM_RAIL_MV 3) == 710) = true := by decide
/-- R519: CAPABILITY answers 0xB0. -/
theorem test_capability : after (exec .capability (opSt 0 [])) (fun t => t.out == [.pmbus [0xB0]]) = true := by decide
/-- R321: a read of CAP_READ takes the oldest stamp. -/
theorem test_cap_read : after (exec (.capRead 2 4) (timed [] { cap := [(4, { fifo := [(10, 5, true), (20, 6, false)] })] })) (fun t => t.out == [.reply 2 0 (le 8 10)] && t.get (Obj.CAP_FIFO_FILL 4) == 1) = true := by decide
/-- R316: a pulse that ends takes its output to rest. -/
theorem test_trigger_edge : after (exec (.triggerEdge 4) (timed [] { trig := [(4, { high := true })] })) (fun t => !(t.trig 4).high) = true := by decide
/-- R312: TB_SET is refused in OPERATIONAL. -/
theorem test_tb_set : after (exec (.tbSet 2 1000) (opSt 1 [])) (fun t => t.time == 0 && t.out == replies 2 Ab.STATE_FORBIDS) = true := by decide
/-- R539: a pulse of less than 1 µs on RESET_N does nothing. -/
theorem test_reset_pulse : after (exec (.resetNPulse 999 false) (opSt 0 [])) (fun t => t.dev == 3) = true := by decide
/-- R457: a token whose signature fails raises nothing. -/
theorem test_token : after (exec (.elevate 2 2 { token1 with sigOk := false }) (challenged [])) (fun t => t.level 2 == 0 && t.out == replies 2 0x0F00000A) = true := by decide
/-- R1: a command that names no unit stops. -/
theorem test_no_unit : (match exec (.slotClaim 2 4096) (opSt 0 []) with
  | .fault .noSuchUnit => true
  | _ => false) = true := by decide

/-- A log of one event, and a state that meets the hypotheses of `Obligations.StepKeepsEventOrder`. -/
def ordered1 : State := { opSt 1 [] with log := { total := 1, ring := [⟨0, 0, 3, 0x0601, 0, 0, 0, 1⟩] } }
theorem wit_StepKeepsEventOrder : ordered1.log.inOrder ∧ after (step ordered1) (fun _ => true) = true :=
  ⟨⟨rfl, fun | 0, _ => rfl⟩, by decide⟩

end Sys2Proof.Tests
end

section
/-! PROOFS. A commit or a discard that meets a group with nothing staged (R50). -/

namespace Sys2Proof.Machine

/-! ## The groups that an index names -/

/-- Group indices are 16-bit dictionary indices (R44). -/
theorem index_lt_of_wf_group {i : Nat} (h : Wf.group i = true) : i < 65536 := by
  simp only [Wf.group, Obj.isGroupIndex, Bool.or_eq_true, Bool.and_eq_true, beq_iff_eq, decide_eq_true_eq] at h
  omega

/-- Whichever furrow a session has selected (R207), the control key keeps the index that the group was named by. -/
theorem groupKey_mod (s : State) (ses : Nat) {i : Nat} (h : i < 65536) : s.groupKey ses i % 65536 = i := by
  unfold State.groupKey furrowCtl dictationCtl
  split_ifs <;> omega

/-! ## A group that is CLEAN or APPLIED -/

section
variable {s : State} {ses c : Nat}

/-- Such a group has no owner to turn a session away (R45), and no application to wait for (R48). -/
theorem groupCode_of_clean (hst : s.get (Obj.COMMIT_STATUS c) = 0 ∨ s.get (Obj.COMMIT_STATUS c) = 3) : groupCode s ses c = 0 := by
  unfold groupCode
  rcases hst with h | h <;> simp [h]

variable (hopen : s.streamShut ses (c % 65536) = false) (hst : s.get (Obj.COMMIT_STATUS c) = 0 ∨ s.get (Obj.COMMIT_STATUS c) = 3)
include hopen hst

theorem groupShut_of_clean : s.groupShut ses c = 0 := by
  simp [State.groupShut, hopen, groupCode_of_clean hst]

theorem commitGroup_of_clean : commitGroup ses c s = .ok (.wrap 32 (Obj.COMMIT_COUNT c) 1) := by
  simp [commitGroup, groupShut_of_clean hopen hst, hst]

theorem discardGroup_of_clean : discardGroup ses c s = .ok .skip := by
  have hskip : (s.get (Obj.COMMIT_STATUS c) == 1 || s.get (Obj.COMMIT_STATUS c) == 4) = false := by
    rcases hst with h | h <;> simp [h]
  simp only [discardGroup, groupShut_of_clean hopen hst, hskip]
  rfl

end

/-! ## Writes that an object takes -/

/-- A write that the object takes with act `a`: the act is done on the state the command begins in, and the write is answered with code 0. -/
theorem guarded_takes {s : State} {ses k v : Nat} {l : Lvl} {body : State → WriteRes} {a : Act} (h : s.admits ses k v l)
    (hb : body s.begun = .ok a) :
    (guarded ses k v l true body).run s.begun = (a.run s.begun).also (replies ses 0) := by
  rw [guarded_ok ((begun_admits s ses k v l).mpr h) rfl (congrArg Prod.fst hb), hb]
  rfl

/-- A wrapping counter in a command that sends nothing before its answer. -/
theorem run_wrap_also (s : State) (w k n : Nat) (es : List Emit) :
    ((Act.wrap w k n).run s.begun).also es = (s.putObj k ((s.get k + n) % 2 ^ w)).sending es := rfl

/-! ## The two commands -/

/-- Settles O58: the group's status opens it to every session of its level, a commit then only counts, and a discard finds nothing to drop. -/
theorem cleanGroupAppliesNothing : Obligations.CleanGroupAppliesNothing := by
  unfold Obligations.CleanGroupAppliesNothing
  intro s ses i hses hwf g hshut _ _ hst
  have hopen : s.begun.streamShut ses (g % 65536) = false := by
    rw [groupKey_mod s ses (index_lt_of_wf_group hwf)]; exact hshut
  have hclean : s.begun.get (Obj.COMMIT_STATUS g) = 0 ∨ s.begun.get (Obj.COMMIT_STATUS g) = 3 := hst
  have hunits : (decide (ses < 16) && Wf.group i) = true := by simp [hses, hwf]
  constructor
  · intro hadm
    calc exec (.groupCommit ses i) s
        = .next ((guarded ses (commitKey g) 1 (groupLvl i) true (commitGroup ses g)).run s.begun).told := need_told s hunits _
      _ = .next (((s.putObj (Obj.COMMIT_COUNT g) ((s.get (Obj.COMMIT_COUNT g) + 1) % 2 ^ 32)).sending (replies ses 0)).told) := by
        rw [guarded_takes hadm (commitGroup_of_clean hopen hclean), run_wrap_also]
  · intro hadm
    calc exec (.groupDiscard ses i) s
        = .next ((guarded ses (commitKey g) 2 (groupLvl i) true (discardGroup ses g)).run s.begun) := need_next s hunits _
      _ = .next (s.sending (replies ses 0)) := by rw [guarded_takes hadm (discardGroup_of_clean hopen hclean)]; rfl

end Sys2Proof.Machine
end

section
/-! PROOFS. A retirement asked of a channel that is not active (R191). -/

namespace Sys2Proof.Machine

/-! ## Writes that an object turns away -/

/-- Recording an abort for a session writes that session's three abort slots (R24, R26). -/
theorem recordAbort_run (s : State) (ses code k : Nat) : (recordAbort ses code k).run s = s.aborted ses code k := rfl

/-- A write that the object turns away with code `c`: on the state the command begins in, the abort is recorded and the write answered with `c`. -/
theorem guarded_refuses {s : State} {ses k v c : Nat} {l : Lvl} {body : State → WriteRes} (h : s.admits ses k v l)
    (hb : body s.begun = .no c) (hc : c ≠ 0) :
    (guarded ses k v l true body).run s.begun = (s.aborted ses c k).sending (replies ses c) := by
  rw [guarded_no ((begun_admits s ses k v l).mpr h) ((if_pos rfl).trans hb) hc, recordAbort_run]
  rfl

/-! ## RETIRE_REQUEST -/

/-- A channel whose role is not 0 (active) turns the request away, whether or not its content would fit elsewhere. -/
theorem retireRequest_of_not_active {s : State} {ch : Nat} (h : s.get (Obj.CHANNEL_ROLE ch) ≠ 0) :
    retireRequest ch s = .no Ab.STATE_FORBIDS :=
  if_pos (.inl h)

/-- Settles O59: the write is admitted and in range, so the channel's role alone decides its answer. -/
theorem retireRequestNeedsActiveChannel : Obligations.RetireRequestNeedsActiveChannel := by
  unfold Obligations.RetireRequestNeedsActiveChannel
  intro s ch ses hch hses hadm hrole
  have hunits : Wf.retireRequest ses ch 1 = true := by simp [Wf.retireRequest, hses, hch]
  have hno : retireRequest ch s.begun = .no Ab.STATE_FORBIDS := retireRequest_of_not_active hrole
  calc exec (.retireRequest ses ch 1) s
      = .next ((guarded ses (Obj.RETIRE_REQUEST ch) 1 .svc true (retireRequest ch)).run s.begun) := need_next s hunits _
    _ = .next ((s.aborted ses Ab.STATE_FORBIDS (Obj.RETIRE_REQUEST ch)).sending (replies ses Ab.STATE_FORBIDS)) := by
      rw [guarded_refuses hadm hno (by decide)]

end Sys2Proof.Machine
end

section
/-! PROOFS. The end of a token's lifetime (R458): an act shared with the command that the rule names. -/

namespace Sys2Proof.Machine

/-! ## The two acts that end a token -/

/-- A session that is not an MDP session falls to its opening level, after its cleanup. -/
theorem dropNow_run_of_not_mdp {s : State} {n : Nat} (h : s.get (Obj.TRANSPORT n) ≠ 3) :
    (dropNow n).run s = ((s.cleaned n).putObj (Obj.LEVEL n) (s.session n).openLevel).withSes n fun x => { x with token := false } := by
  rw [dropNow, run_read, if_neg h]
  rfl

/-- An MDP session closes. -/
theorem dropNow_run_of_mdp {s : State} {n : Nat} (h : s.get (Obj.TRANSPORT n) = 3) : (dropNow n).run s = s.closed n := by
  rw [dropNow, run_read, if_pos h]
  rfl

theorem endDebug_run (s : State) : endDebug.run s = (s.putObj Obj.DEBUG_LEVEL 0).withBoot fun b => { b with debugOf := none } := rfl

/-! ## Commands that carry them out -/

section
variable {s : State} {ses : Nat} (hses : ses < 16)
include hses

/-- The end of an elevation token's lifetime drops the session's level. -/
theorem tokenLifetimeExpiry_drops (hopen : s.isOpen ses = true) (htoken : (s.session ses).token = true) :
    exec (.tokenLifetimeExpiry ses false) s = .next ((dropNow ses).run s.begun) := by
  have hunits : Wf.tokenLifetimeExpiry ses false = true := decide_eq_true hses
  refine (need_next s hunits _).trans ?_
  simp [hopen, htoken]

/-- The end of the lifetime of the debug token in force ends debug. -/
theorem tokenLifetimeExpiry_ends_debug (hof : s.u.boot.debugOf = some ses) :
    exec (.tokenLifetimeExpiry ses true) s = .next (endDebug.run s.begun) := by
  have hunits : Wf.tokenLifetimeExpiry ses true = true := decide_eq_true hses
  refine (need_next s hunits _).trans ?_
  simp [hof]

/-- A session's own `DROP_LEVEL`, admitted, drops its level and answers. -/
theorem dropLevel_drops (hadm : s.admits ses (Obj.DROP_LEVEL ses) 1 .host) :
    exec (.dropLevel ses ses 1) s = .next (((dropNow ses).run s.begun).also (replies ses 0)) := by
  have hunits : Wf.dropLevel ses ses 1 = true := by simp [Wf.dropLevel, hses]
  have hown : dropLevel ses ses s.begun = .ok (dropNow ses) := if_neg (not_not_intro rfl)
  calc exec (.dropLevel ses ses 1) s
      = .next ((guarded ses (Obj.DROP_LEVEL ses) 1 .host true (dropLevel ses ses)).run s.begun) := need_next s hunits _
    _ = .next (((dropNow ses).run s.begun).also (replies ses 0)) := by rw [guarded_takes hadm hown]

/-- `DEBUG_END`, admitted, ends debug and answers. -/
theorem debugEnd_ends_debug (hadm : s.admits ses Obj.DEBUG_END 1 .svc) :
    exec (.debugEnd ses 1) s = .next ((endDebug.run s.begun).also (replies ses 0)) := by
  have hunits : Wf.debugEnd ses 1 = true := decide_eq_true hses
  calc exec (.debugEnd ses 1) s
      = .next ((guarded ses Obj.DEBUG_END 1 .svc true debugEnd).run s.begun) := need_next s hunits _
    _ = .next ((endDebug.run s.begun).also (replies ses 0)) := by rw [guarded_takes hadm rfl]

end

/-- Settles O60: the end of a lifetime and the command that R458 names carry out one act, on the state in which a command begins; the command answers besides. -/
theorem tokenLifetimeEnds : Obligations.TokenLifetimeEnds := by
  unfold Obligations.TokenLifetimeEnds
  intro s ses hses
  constructor
  · intro hopen htoken
    have hdrops := tokenLifetimeExpiry_drops hses hopen htoken
    refine ⟨fun hne => ?_, fun hmdp => ?_, fun hadm => ⟨_, hdrops, dropLevel_drops hses hadm⟩⟩
    · rw [hdrops, dropNow_run_of_not_mdp (s := s.begun) hne]
      rfl
    · rw [hdrops, dropNow_run_of_mdp (s := s.begun) hmdp]
      rfl
  · intro hof
    have hends := tokenLifetimeExpiry_ends_debug hses hof
    refine ⟨?_, fun hadm => ⟨_, hends, debugEnd_ends_debug hses hadm⟩⟩
    rw [hends, endDebug_run]
    rfl

end Sys2Proof.Machine
end

section
/-! PROOFS. What every step keeps (canonical stores, the order of the event log), what every command answers, and what reset leaves. -/

namespace Sys2Proof.Machine

/-! ## Steps -/

/-- A step that answers a next state has carried out an act: on the state with the rest of the queue, or on the idle state. -/
theorem step_next_cases {s t : State} (h : step s = .next t) :
    (∃ a : Act, t = a.run s.idle) ∨ ∃ (a : Act) (cs : List Instr), t = a.run { s.begun with pending := cs } := by
  unfold step at h
  split at h
  · exact .inl ⟨_, (Host.Outcome.next.inj h).symm⟩
  · next c cs _ =>
    obtain ⟨a, ha⟩ := exec_need c { s with pending := cs }
    rw [ha, need] at h
    split at h
    · exact .inr ⟨a, cs, (Host.Outcome.next.inj h).symm⟩
    · exact nomatch h

/-- A property of states that every act keeps, and that time, queue and emissions do not bear on, every step keeps. -/
theorem step_keeps {P : State → Prop} (hact : ∀ (a : Act) s, P s → P (a.run s)) (hidle : ∀ s : State, P s → P s.idle)
    (hbegun : ∀ (s : State) cs, P s → P { s.begun with pending := cs }) {s t : State} (hs : P s) (h : step s = .next t) : P t := by
  rcases step_next_cases h with ⟨a, rfl⟩ | ⟨a, cs, rfl⟩
  · exact hact a _ (hidle s hs)
  · exact hact a _ (hbegun s cs hs)

/-- Settles O3: every elementary update keeps the canonical form, so every act and every step does. -/
theorem stepKeepsCanonical : Obligations.StepKeepsCanonical := by
  unfold Obligations.StepKeepsCanonical
  intro s t hs h
  exact step_keeps run_canonical (fun _ h => h) (fun _ _ h => h) hs h

/-! ## The event log -/

/-- A log without entries is in order. -/
theorem EventLog.inOrder_of_empty {l : EventLog} (ht : l.total = 0) (hr : l.ring = []) : l.inOrder := by
  refine ⟨by simp [ht, hr], fun i h => ?_⟩
  simp [hr] at h

/-- The order of a log is that of its number and its ring. -/
theorem EventLog.inOrder_congr {l m : EventLog} (ht : m.total = l.total) (hr : m.ring = l.ring) (h : l.inOrder) : m.inOrder := by
  unfold EventLog.inOrder at h ⊢
  rw [ht, hr]
  exact h

/-- An entry that takes the next number enters an ordered log at the front; the oldest leaves a full ring. -/
theorem EventLog.inOrder_enter {l : EventLog} (h : l.inOrder) {e : Event} (he : e.seq = l.total + 1) :
    EventLog.inOrder { l with total := l.total + 1, ring := (e :: l.ring).take 1008 } := by
  obtain ⟨hlen, hseq⟩ := h
  refine ⟨by simp only [List.length_take, List.length_cons]; omega, fun i hi => ?_⟩
  simp only [List.length_take, List.length_cons] at hi
  cases i with
  | zero => simpa using he
  | succ i => simpa using hseq i (by omega)

/-- No act breaks the order of the event log. -/
theorem run_inOrder (a : Act) : ∀ s : State, s.log.inOrder → (a.run s).log.inOrder := by
  induction a with
  | seq a b iha ihb => intro s h; exact ihb _ (iha _ h)
  | read f ih => intro s h; exact ih s s h
  | log code inst d0 d1 => intro s h; exact EventLog.inOrder_enter h rfl
  | logNotes f => intro s h; exact EventLog.inOrder_congr rfl rfl h
  | newLog => intro s _; exact EventLog.inOrder_of_empty rfl rfl
  | _ => intro s h; exact h

/-- Settles O5: a logged event takes the next number, and a new boot empties the log. -/
theorem stepKeepsEventOrder : Obligations.StepKeepsEventOrder := by
  unfold Obligations.StepKeepsEventOrder
  intro s t hs h
  exact step_keeps (P := fun s => s.log.inOrder) run_inOrder (fun _ h => h) (fun _ _ h => h) hs h

/-! ## Commands -/

/-- Settles O2: a command is an act under the check of its operands, and an act ends with the queue as it was. -/
theorem everyCommandCompletes : Obligations.EveryCommandCompletes := by
  unfold Obligations.EveryCommandCompletes
  intro c s
  obtain ⟨a, ha⟩ := exec_need c s
  rw [ha]
  exact ⟨fun h => ⟨_, need_next s h a, run_pending a s.begun⟩, fun h => need_fault s h a⟩

/-! ## Reset -/

theorem reset_get (k : Nat) : State.reset.get k = Obj.reset k := rfl

/-- A group's control block, in the subindices above its index's table, names no owner at reset. -/
theorem reset_SHADOW_OWNER {c : Nat} (hc : Obj.isGroupIndex c = true) (h : c < 65536) : Obj.reset (Obj.SHADOW_OWNER c) = 0xFF := by
  have hsub : Obj.SHADOW_OWNER c % 256 = 0xFD := by unfold Obj.SHADOW_OWNER; omega
  have hidx : Obj.SHADOW_OWNER c / 256 % 65536 = c := by unfold Obj.SHADOW_OWNER; omega
  simp [Obj.reset, hsub, hidx, hc]

/-- Settles O4: the stores of the reset state are empty, so that every slot reads its reset value. -/
theorem resetState : Obligations.ResetState := by
  unfold Obligations.ResetState
  refine ⟨rfl, rfl, ?_, reset_get, fun _ => rfl, ?_, fun c hc h => ?_, rfl, rfl⟩
  · decide
  · decide
  · rw [reset_get, reset_SHADOW_OWNER hc h]

end Sys2Proof.Machine
end

section
/-! PROOFS. Writes with a row of their own that do not reach their object (R16, R21, R39). -/

namespace Sys2Proof.Machine

/-- Such a command carries out one guarded write, and where it may leave something to tell, `settle` after it. -/
theorem exec_ownWrite {c : Instr} {s : State} {w : OwnWrite} (h : ownWrite c s = some w) :
    ∃ r body, exec c s = need (Instr.wf c) s
      (if w.told then .all [guarded w.ses w.k w.v w.l r body, settle] else guarded w.ses w.k w.v w.l r body) := by
  cases c <;> simp only [ownWrite, Option.some.injEq, reduceCtorEq] at h
  all_goals
    subst h
    exact ⟨_, _, rfl⟩

/-- What such a command comes to: its guarded write, told where it can leave something to tell. -/
theorem exec_ownWrite_next {c : Instr} {s : State} {w : OwnWrite} (hwf : Instr.wf c = true) (h : ownWrite c s = some w) :
    ∃ r body, exec c s = .next (((guarded w.ses w.k w.v w.l r body).run s.begun).toldIf w.told) := by
  obtain ⟨r, body, he⟩ := exec_ownWrite h
  refine ⟨r, body, ?_⟩
  rw [he, need_next s hwf]
  cases w.told
  · rfl
  · simp only [↓reduceIte, run_all_cons, run_all_nil, State.toldIf, State.told]

section
variable {s : State} {ses k v : Nat} {l : Lvl} {r : Bool} {body : State → WriteRes}

/-- In a closed session, or with the part in STANDBY, a write does nothing (R39). -/
theorem guarded_shut (h : s.isOpen ses = false ∨ s.dev = Dev.STANDBY) : (guarded ses k v l r body).run s = s := by
  have h' : ¬ s.isOpen ses = true ∨ s.dev = Dev.STANDBY := h.imp_left (by simp)
  rw [guarded, run_read, if_pos h', run_skip]

/-- A write that the access checks turn away is recorded and answered with their code. -/
theorem guarded_unadmitted (ho : s.isOpen ses = true) (hd : s.dev ≠ Dev.STANDBY) (hs : ses = 0 → (s.session 0).slots = none)
    (hc : accessCode s ses k v l ≠ 0) :
    (guarded ses k v l r body).run s = { (recordAbort ses (accessCode s ses k v l) k).run s with out := s.out ++ replies ses (accessCode s ses k v l) } := by
  have hshut : ¬ (¬ s.isOpen ses = true ∨ s.dev = Dev.STANDBY) := by simp [ho, hd]
  have hslots : ¬ (ses = 0 ∧ (s.session 0).slots.isSome = true) := fun h => by simp [hs h.1] at h
  rw [guarded, run_read, if_neg hshut, if_neg hslots]
  simp only [if_pos hc]
  by_cases h0 : ses = 0
  · subst h0
    simp [answer, WriteRes.no, hc, replies, Act.all, Act.run, recordAbort, Act.wrap, Act.modify]
  · simp [answer, WriteRes.no, hc, replies, Act.all, Act.when, h0, Act.run, recordAbort, Act.wrap, Act.modify]

end

/-- Settles O6: every such command is a guarded write, whose checks come before all else. -/
theorem unadmittedWritesChangeNothing : Obligations.UnadmittedWritesChangeNothing := by
  unfold Obligations.UnadmittedWritesChangeNothing
  intro c s w hwf hw
  obtain ⟨r, body, he⟩ := exec_ownWrite_next hwf hw
  constructor
  · intro hshut
    rw [he, guarded_shut (s := s.begun) hshut]
    rfl
  · rintro code rfl ho hd hs hc
    rw [he, guarded_unadmitted (s := s.begun) ho hd hs hc, recordAbort_run]
    rfl

end Sys2Proof.Machine
end

section
/-! PROOFS. Writes that reach an object of one number and are no more than a new value, and the first slot of a long object (R18, R19, R23 to R25). -/

namespace Sys2Proof.Machine

/-! ## Keys and types -/

/-- Whichever session or selection an object is reached by, its key keeps its index. -/
theorem keyOf_index (s : State) (ses first : Nat) {i sub : Nat} (hi : i < 65536) (hsub : sub < 256) : s.keyOf ses i first sub / 256 % 65536 = i := by
  have := groupKey_mod s ses hi
  unfold State.keyOf
  split_ifs <;> omega

/-- A type of numbers: every type but a DOMAIN and the strings (R13). -/
def Typ.isNumber : Typ → Bool
  | .domain | .oct _ | .vis _ => false
  | _ => true

theorem Typ.isNumber_of_ne {t : Typ} (hd : t ≠ .domain) (hs : ∀ n, t ≠ .oct n ∧ t ≠ .vis n) : t.isNumber = true := by
  cases t with
  | domain => exact absurd rfl hd
  | oct n => exact absurd rfl (hs n).1
  | vis n => exact absurd rfl (hs n).2
  | _ => rfl

/-- Numbers have one of the four widths of a BAR0 access (R23). -/
theorem Typ.bytes_of_isNumber {t : Typ} (h : t.isNumber = true) : t.bytes = 1 ∨ t.bytes = 2 ∨ t.bytes = 4 ∨ t.bytes = 8 := by
  cases t <;> simp_all [Typ.isNumber, Typ.bytes]

/-- A number below the width of its type is taken as it is. -/
theorem taken_num (s : State) {t : Typ} (h : t.isNumber = true) {v : Nat} (hv : v < 256 ^ t.bytes) (w : Nat) :
    s.taken t (.num v w) = some { n := v, words := [v] } := by
  cases t <;> simp_all [Typ.isNumber, State.taken, Nat.mod_eq_of_lt]

/-! ## Objects without a handler of their own -/

section
variable {ses i sub k : Nat} {t : Taken} {w : WVal} {s : State}

/-- Whether an object below 0x2700 has a handler of its own does not depend on the state. -/
theorem ownLow_eq_none_iff (s' : State) : ownLow ses i sub t w s' = none ↔ ownLow ses i sub t w s = none := by
  simp only [ownLow, ite_eq_iff', reduceCtorEq]

theorem ownHigh_eq_none_iff (s' : State) : ownHigh ses i sub k t s' = none ↔ ownHigh ses i sub k t s = none := by
  simp only [ownHigh, ite_eq_iff', reduceCtorEq]

/-- What a plain object is: one whose write is no more than a new value. -/
def Plain (ses i sub k : Nat) (t : Taken) (s : State) : Prop :=
  ∀ w, (if i < 0x2700 then ownLow ses i sub t w s else ownHigh ses i sub k t s) = none

theorem Plain.of_state (h : Plain ses i sub k t s) (s' : State) : Plain ses i sub k t s' := by
  intro w
  have hw := h w
  by_cases hi : i < 0x2700
  · rw [if_pos hi] at hw ⊢
    exact (ownLow_eq_none_iff s').2 hw
  · rw [if_neg hi] at hw ⊢
    exact (ownHigh_eq_none_iff s').2 hw

/-- Handlers alone take free values. -/
theorem Plain.ownDraws (h : Plain ses i sub k t s) (s' : State) : s'.ownDraws i sub = 0 := by
  have hw := h .upload
  unfold State.ownDraws
  split_ifs with hlow hhigh
  · simp [hlow, ownLow] at hw
  · obtain ⟨h1, h2, rfl⟩ := hhigh
    have hrest : ¬ i < 0x2700 ∧ i ≠ 0x2902 ∧ i ≠ 0x2D00 := by omega
    simp [ownHigh, h1, h2, hrest] at hw
  · rfl

end

/-! ## A write to such an object -/

@[simp] theorem run_putWords_single (k v : Nat) (s : State) : (putWords k [v]).run s = s.putObj k v := rfl

section
variable {s : State} {ses idx sub v : Nat} {r : Row} (hidx : idx < 65536) (hlo : 0 < sub) (hhi : sub < 0xF8) (hplace : placeOf idx sub = .obj r sub)
  (hacc : r.acc = .rw) (hnum : r.typ.isNumber = true) (hv : v < 256 ^ r.typ.bytes) (hrng : r.holds v = true)
  (hcode : accessCode s ses (s.keyOf ses idx sub sub) v r.lvl = 0) (hdev : Dev.PREOP ≤ s.dev) (hcmd : ¬ (idx = 0x2000 ∧ sub = 2))
  (hown : Plain ses idx sub (s.keyOf ses idx sub sub) { n := v, words := [v] } s)
include hidx hlo hhi hplace hacc hnum hv hrng hcode hdev hcmd hown

/-- The checks pass and the live slot takes the value. -/
theorem writeObject_plain (later w : Nat) :
    writeObject ses idx sub later (.num v w) s = .ok (.all [.draw 0, putWords (s.keyOf ses idx sub sub) [v]]) := by
  have hkey := keyOf_index s ses sub hidx (show sub < 256 by omega)
  have hreach : s.recoveryReaches idx = true := by
    by_contra h
    simp [accessCode, hkey, h] at hcode
  have hpass : ¬ (s.dev < Dev.PREOP ∨ ¬ s.recoveryReaches idx = true) := by simp [hreach, Nat.not_lt.2 hdev]
  have hraw : v % 256 ^ r.typ.bytes = v := Nat.mod_eq_of_lt hv
  have heffect : writeEffect ses idx sub (s.keyOf ses idx sub sub) r { n := v, words := [v] } (.num v w) s
      = .ok (putWords (s.keyOf ses idx sub sub) [v]) := by
    unfold writeEffect
    rw [if_neg (by omega), if_neg (by simp [hacc]), hown]
  unfold writeObject
  rw [if_neg hpass, hplace]
  simp only [ne_eq, not_true_eq_false, ↓reduceIte, hraw, if_neg hcmd, hcode, taken_num s hnum hv, heffect]
  simp [hacc, hrng, State.fetchCode, WriteRes.ok, hown.ownDraws]


end

/-! ## The commands -/

/-- A write that its object takes is answered with code 0. -/
theorem run_answer_ok (s : State) (ses k : Nat) (a : Act) : (answer ses k (.ok a)).run s = (a.run s).also (replies ses 0) := by
  by_cases h : ses = 0
  · subst h
    simp [answer, WriteRes.ok, State.also, replies]
  · simp [answer, WriteRes.ok, State.also, replies, h, Act.run]

/-- A command that answers a write of one slot, told. -/
theorem run_answered_put (s : State) (ses j k v : Nat) :
    (Act.all [answer ses j (.ok (.all [.draw 0, putWords k [v]])), settle]).run s.begun = ((s.puts [(k, v)]).sending (replies ses 0)).told := by
  rw [run_all_cons, run_answer_ok, run_all_cons, run_all_nil]
  rfl

/-- A number as wide as its object suits every transport. -/
theorem widthCode_of_own_width {idx sub : Nat} {r : Row} (hplace : placeOf idx sub = .obj r sub) (hnum : r.typ.isNumber = true) (ses v : Nat) :
    widthCode ses idx sub (.num v r.typ.bytes) = 0 := by
  have := Typ.bytes_of_isNumber hnum
  simp [widthCode, hplace, this]

/-- A BAR0 slot's address is a multiple of every width. -/
theorem bar0Width_slot (idx sub : Nat) {w : Nat} (hw : w = 1 ∨ w = 2 ∨ w = 4 ∨ w = 8) : bar0Width (idx * 2048 + sub * 8) w = true := by
  rcases hw with rfl | rfl | rfl | rfl <;> simp [bar0Width] <;> omega

/-- The index and the subindex of a BAR0 slot's address (R22). -/
theorem bar0Addr {idx sub : Nat} (hsub : sub < 256) :
    (idx * 2048 + sub * 8) / 2048 = idx ∧ (idx * 2048 + sub * 8) / 8 % 256 = sub ∧ (idx * 2048 + sub * 8) % 8 = 0 := by
  omega

/-- Settles O7: the checks of the write find nothing, the object has no handler, so its slot takes the value; a slot that does not complete its object is held. -/
theorem plainWritesReachObjects : Obligations.PlainWritesReachObjects := by
  unfold Obligations.PlainWritesReachObjects
  constructor
  · intro s ses idx sub v r hidx hlo hhi hplace hacc hspan hdom hstr hv hrng hadm hdev hcmd hown
    obtain ⟨hopen, hpow, hslots, hcode⟩ := hadm
    have hnum := Typ.isNumber_of_ne hdom hstr
    have hwrite := writeObject_plain (s := s.begun) hidx hlo hhi hplace hacc hnum hv hrng hcode hdev hcmd (Plain.of_state hown s.begun)
    have hshut : ¬ (¬ s.begun.isOpen ses = true ∨ s.begun.dev = Dev.STANDBY) := by simp [hopen, hpow]
    constructor
    · intro hses
      have hunits : Wf.objectWrite ses idx sub (.num v r.typ.bytes) = true := by
        simp [Wf.objectWrite, hses, hidx, WVal.isInline, WVal.isSdo]
        omega
      have hcol : ¬ (ses = 0 ∧ (s.begun.session 0).slots.isSome = true) := fun h => by simp [hslots h.1] at h
      have hsession : sessionWrite ses idx sub (.num v r.typ.bytes) s.begun = .ok (.all [.draw 0, putWords (s.keyOf ses idx sub sub) [v]]) := by
        simp [sessionWrite, widthCode_of_own_width hplace hnum, hwrite, State.keyOf, State.groupKey]
      calc exec (.objectWrite ses idx sub (.num v r.typ.bytes)) s = _ := need_next s hunits _
        _ = _ := by
          rw [run_read, if_neg hshut, if_neg (by simp [WVal.isSdo]), if_neg hcol, hsession, run_answered_put]
    · rintro rfl w fetch hw hfits
      have hunits : Wf.bar0SlotWrite (idx * 2048 + sub * 8) w (some v) fetch = true := by
        simp [Wf.bar0SlotWrite]
        omega
      obtain ⟨hi, hs, h8⟩ := bar0Addr (idx := idx) (show sub < 256 by omega)
      have hno : (s.begun.session 0).slots = none := hslots rfl
      calc exec (.bar0SlotWrite (idx * 2048 + sub * 8) w (some v) fetch) s = _ := need_next s hunits _
        _ = _ := by
          rw [run_read, if_neg (show ¬ s.begun.dev = Dev.STANDBY from hpow)]
          simp only [bar0Write, run_read, hi, hs, h8, hplace]
          rw [if_neg (not_not_intro (show s.begun.isOpen 0 = true from hopen)), if_neg (not_not_intro (bar0Width_slot idx sub hw)), if_pos hspan, hno]
          simp only [Option.isSome_none, Bool.false_eq_true, ↓reduceIte, ne_eq, not_true_eq_false, false_or, Nat.not_lt.2 hfits, hwrite _ w]
          exact congrArg _ (run_answered_put ..)
  · intro s idx sub v r fetch hidx hsub hplace hspan hopen hpow hno
    have hunits : Wf.bar0SlotWrite (idx * 2048 + sub * 8) 8 (some v) fetch = true := by
      simp [Wf.bar0SlotWrite]
      omega
    obtain ⟨hi, hs, h8⟩ := bar0Addr (idx := idx) hsub
    have hno' : (s.begun.session 0).slots = none := hno
    have hmore : (le 8 v).length < 8 * r.span := by
      have : (le 8 v).length = 8 := rfl
      omega
    calc exec (.bar0SlotWrite (idx * 2048 + sub * 8) 8 (some v) fetch) s = _ := need_next s hunits _
      _ = _ := by
        rw [run_read, if_neg (show ¬ s.begun.dev = Dev.STANDBY from hpow)]
        simp only [bar0Write, run_read, hi, hs, hplace]
        rw [if_neg (not_not_intro (show s.begun.isOpen 0 = true from hopen)), if_neg (not_not_intro (bar0Width_slot idx sub (.inr (.inr (.inr rfl))))), if_neg (by omega), hno']
        simp only [and_self, ↓reduceIte, slotArrives, run_read, List.nil_append, hmore]
        rfl

end Sys2Proof.Machine
end

section
/-! PROOFS. A REQUEST of one operation, new in its session, from its arrival to its RESPONSE (R33, R34, R36, R37). -/

namespace Sys2Proof.Machine

/-! ## The arrival -/

/-- `s` after a new REQUEST of at most 1,400 bytes of answer has arrived, before its first operation. -/
def State.requested (s : State) (h : MdpHead) : State :=
  { s with
    u := { s.u with dict := { s.u.dict with ses := Tab.upd s.u.dict.ses h.ses {} fun x => { x with
      rxHigh := h.seq, lastReq := s.time, cur := some { seq := h.seq, tooLong := false, aborted := false, results := [] } } } }
    out := [] }

theorem requested_session (s : State) (h : MdpHead) :
    (s.requested h).session h.ses = { s.session h.ses with
      rxHigh := h.seq, lastReq := s.time, cur := some { seq := h.seq, tooLong := false, aborted := false, results := [] } } := by
  simp [State.requested, State.session]

theorem requestArrives_new {s : State} {h : MdpHead} (ht : s.get (Obj.TRANSPORT h.ses) = 3) (hnew : (s.session h.ses).rxHigh < h.seq)
    (hfits : h.answerBytes ≤ 1400) : (requestArrives h).run s.begun = s.requested h := by
  have hlen : decide (1400 < h.answerBytes) = false := by simp [hfits]
  rw [requestArrives, run_read, if_neg (not_not_intro (show s.begun.get (Obj.TRANSPORT h.ses) = 3 from ht)), if_pos (show (s.begun.session h.ses).rxHigh < h.seq from hnew),
    hlen]
  rfl

/-! ## The RESPONSE -/

/-- `s` after the RESPONSE of session `ses` to its REQUEST in progress has left. -/
def State.responded (s : State) (ses : Nat) (q : Request) : State :=
  (s.withSes ses fun y => { y with txSeq := y.txSeq + 1, cur := none, cache := ((q.seq, y.txSeq + 1, q.results) :: y.cache).take 16 }).also
    [.response ses ((s.session ses).txSeq + 1) q.results]

theorem respond_run {s : State} {ses : Nat} {q : Request} (hq : (s.session ses).cur = some q) (hidle : s.get (Obj.IDLE_TIMEOUT_MS ses) ≠ 0) :
    (respond ses).run s = s.responded ses q := by
  have hstays : (s.get (Obj.IDLE_TIMEOUT_MS ses) == 0) = false := by simpa using hidle
  simp only [respond, run_read, hq, run_all_cons, run_all_nil, run_when, hstays, Bool.false_eq_true, ↓reduceIte]
  rfl

/-- `s` after the one operation of session `ses`'s REQUEST of this SEQUENCE has ended with code 0 and read bytes `bs`, answered. -/
def State.answeredOp (s : State) (ses seq : Nat) (bs : List Byte) : State :=
  ((addResult ses 0 bs).run s).responded ses { seq := seq, tooLong := false, aborted := false, results := [(0, bs)] }

theorem answeredOp_session (s : State) (ses seq : Nat) (bs : List Byte) :
    ((s.answeredOp ses seq bs).session ses).txSeq = (s.session ses).txSeq + 1 ∧ ((s.answeredOp ses seq bs).session ses).rxHigh = (s.session ses).rxHigh
      ∧ ((s.answeredOp ses seq bs).session ses).inline = (s.session ses).inline := by
  simp [State.answeredOp, State.responded, State.withSes, State.withUnits, State.also, State.session, addResult, Act.ses, Act.run]

theorem answeredOp_out (s : State) (ses seq : Nat) (bs : List Byte) :
    (s.answeredOp ses seq bs).out = s.out ++ [.response ses ((s.session ses).txSeq + 1) [(0, bs)]] := by
  simp [State.answeredOp, State.responded, State.withSes, State.withUnits, State.also, State.session, addResult, Act.ses, Act.run]

theorem answeredOp_kept (s : State) (ses seq : Nat) (bs : List Byte) : s.storesKept (s.answeredOp ses seq bs) := ⟨rfl, rfl, rfl, rfl, rfl⟩

/-! ## The operation -/

section
variable {s : State} {h : MdpHead} {o size : Nat} (hop : h.op = 0) (hops : h.ops = [(o, size)]) (hsize : size ≤ 255) (hserved : s.mdpServed = true)
  (ht : s.get (Obj.TRANSPORT h.ses) = 3) (hnew : (s.session h.ses).rxHigh < h.seq)
include hop hops hsize hserved ht hnew

/-- An operation whose object answers code 0, bytes `bs` and act `a`: the act is done and the REQUEST answered. -/
theorem mdpOp_answers {k : Nat} {body : State → Nat × List Byte × Act} {bs : List Byte} {a : Act} (hbody : body (s.requested h) = (0, bs, a))
    (hses : (a.run (s.requested h)).session h.ses = { (s.requested h).session h.ses with inline := ((a.run (s.requested h)).session h.ses).inline })
    (hidle : (a.run (s.requested h)).get (Obj.IDLE_TIMEOUT_MS h.ses) ≠ 0) :
    (mdpOp h k body).run s.begun = ((a.run (s.requested h)).answeredOp h.ses h.seq bs).told := by
  have hbytes : ¬ (¬ s.begun.mdpServed = true ∨ 1400 < h.bytes) := by
    have : h.bytes ≤ 32 + 6 + size := by
      simp only [MdpHead.bytes, hops, List.foldl]
      split <;> omega
    have hs : s.begun.mdpServed = true := hserved
    simp only [hs, not_true_eq_false, false_or]
    omega
  have hanswer : h.answerBytes ≤ 1400 := by
    simp only [MdpHead.answerBytes, hops, List.foldl]
    split <;> omega
  have hlast : (0 + 1 == h.nOps) = true := by simp [MdpHead.nOps, hops]
  have hcur : ((s.requested h).session h.ses).cur = some { seq := h.seq, tooLong := false, aborted := false, results := [] } := by rw [requested_session]
  have hresult : (((addResult h.ses 0 bs).run (a.run (s.requested h))).session h.ses).cur
      = some { seq := h.seq, tooLong := false, aborted := false, results := [(0, bs)] } := by
    rw [addResult, run_ses_session, if_pos rfl, hses]
    simp [hcur]
  have hstays : ((addResult h.ses 0 bs).run (a.run (s.requested h))).get (Obj.IDLE_TIMEOUT_MS h.ses) ≠ 0 := hidle
  rw [mdpOp, run_read, if_neg hbytes]
  simp only [run_all_cons, run_all_nil, run_when, hop, beq_self_eq_true, ↓reduceIte, requestArrives_new ht hnew hanswer, run_read, hcur, hlast]
  simp only [ne_eq, not_true_eq_false, List.length_nil, or_self, ↓reduceIte, Bool.false_eq_true, hbody, run_all_cons, run_all_nil, run_when, bne_self_eq_false]
  rw [respond_run hresult hstays]
  rfl

end

/-- The head of a REQUEST of one operation names units that exist. -/
theorem wf_mdp_single {h : MdpHead} {o size : Nat} (hlo : 2 ≤ h.ses) (hhi : h.ses < 16) (hop : h.op = 0) (hops : h.ops = [(o, size)]) (ho : 1 ≤ o ∧ o ≤ 4)
    (hsize : 1 ≤ size ∧ size ≤ 255) : Wf.mdp h o size = true := by
  simp [Wf.mdp, MdpHead.nOps, hop, hops, hlo, hhi, ho, hsize]

/-- Settles O8: each operation is the one act of its REQUEST, done on the state in which the REQUEST has arrived. -/
theorem requestsAreAnswered : Obligations.RequestsAreAnswered := by
  unfold Obligations.RequestsAreAnswered
  intro s h idx sub hlo hhi hop hserved ht hidle hnew hidx hsub b
  have hb : b = s.requested h := rfl
  have hwf {o size : Nat} (hops : h.ops = [(o, size)]) := wf_mdp_single hlo hhi hop hops
  refine ⟨fun size bs hops h1 h255 hread => ?_, fun total crc hops h0 hmax hcrc => ?_, fun data x hops h1 h255 hin hi hs hmore => ?_,
    fun size v a hops h1 h255 hinl hsdo hcov hwrite hkeeps => ?_⟩
  · have hunits : Wf.mdpRead h idx sub size = true := by simp [Wf.mdpRead, hwf hops (by omega) ⟨h1, h255⟩, hidx, hsub]
    obtain ⟨htx, hrx, -⟩ := answeredOp_session b h.ses h.seq bs
    have hrun := mdpOp_answers hop hops h255 hserved ht hnew (k := idx * 256 + sub) (body := readObject h.ses idx sub size) (a := .skip) hread rfl hidle
    refine ⟨b.answeredOp h.ses h.seq bs, (need_next s hunits _).trans (congrArg _ hrun), answeredOp_kept .., ?_, ?_, ?_⟩
    · rw [answeredOp_out, hb, requested_session]
      rfl
    · rw [hrx, hb, requested_session]
    · rw [htx, hb, requested_session]
  · have hunits : Wf.inlineStart h idx sub total crc = true := by
      have : total < 4294967296 := by omega
      simp [Wf.inlineStart, hwf hops (by omega) (by omega), hidx, hsub, hcrc, this]
    have hbody : (if total = 0 ∨ 67108864 < total then (Ab.RANGE, ([] : List Byte), Act.skip)
        else (0, [], .ses h.ses fun x => { x with inline := some { idx := idx, sub := sub, total := total, crc := crc, data := [] } }))
        = (0, [], .ses h.ses fun x => { x with inline := some { idx := idx, sub := sub, total := total, crc := crc, data := [] } }) := if_neg (by omega)
    refine ⟨_, (need_next s hunits _).trans (congrArg Host.Outcome.next (mdpOp_answers hop hops (by omega) hserved ht hnew hbody ?_ ?idle)), ?kept, ?_, ?_⟩
    case idle => exact hidle
    case kept => exact answeredOp_kept ..
    · rw [run_ses_session, if_pos rfl]
    · rw [answeredOp_out, run_ses_session, if_pos rfl, requested_session]
      rfl
    · rw [(answeredOp_session ..).2.2, run_ses_session, if_pos rfl]
  · have hunits : Wf.inlineData h idx sub data = true := by simp [Wf.inlineData, hwf hops (by omega) ⟨h1, h255⟩, hidx, hsub]
    have hlen : ¬ x.total < (x.data ++ data).length ∧ (x.data ++ data).length < x.total := by simp; omega
    have hold : (b.session h.ses).inline = some x := by rw [hb, requested_session]; exact hin
    refine ⟨_, (need_next s hunits _).trans (congrArg Host.Outcome.next (mdpOp_answers hop hops h255 hserved ht hnew
      (a := .ses h.ses fun y => { y with inline := some { x with data := x.data ++ data } }) (bs := []) ?_ ?_ ?idle)), ?kept, ?_, ?_⟩
    case idle => exact hidle
    case kept => exact answeredOp_kept ..
    · simp only [← hb, hold, hi, hs, ne_eq, not_true_eq_false, hlen, false_or, ↓reduceIte]
    · rw [run_ses_session, if_pos rfl]
    · rw [answeredOp_out, run_ses_session, if_pos rfl, requested_session]
      rfl
    · rw [(answeredOp_session ..).2.2, run_ses_session, if_pos rfl]
  · have hunits : Wf.mdpWrite h idx sub size v = true := by simp [Wf.mdpWrite, hwf hops (by omega) ⟨h1, h255⟩, hidx, hsub, hsdo]
    have hv : v.written = some v := by cases v <;> simp_all [WVal.written, WVal.isInline]
    obtain ⟨hses, hout, hid⟩ := hkeeps b
    refine ⟨_, (need_next s hunits _).trans (congrArg Host.Outcome.next (mdpOp_answers hop hops h255 hserved ht hnew (a := a) (bs := []) ?_ ?_ ?_)), rfl, rfl, rfl, rfl, ?_⟩
    · simp only [hv, ← hb, hwrite, hcov, not_true_eq_false, and_false, ↓reduceIte]
    · rw [← hb, hses]
    · rw [← hb, hid]
      exact hidle
    · rw [answeredOp_out, ← hb, hses, hout, hb, requested_session]
      rfl

end Sys2Proof.Machine
end

section
/-! PROOFS. What a composite act may touch: a check of its elementary updates, by recursion on the act, from which it follows what the act leaves alone. An operation
that many commands share is checked once, for any bounds that admit what it does. -/

namespace Sys2Proof.Machine

/-- The parts of the state beside the units' records. -/
inductive Part where
  | obj (k : Nat)
  | shadow
  | bytes
  | time
  | ctr
  | log
  | out
  deriving DecidableEq

/-- Every elementary update of the act keeps within the parts that `A` admits and the updates of the units' records that `R` admits. -/
def Act.Within (A : Part → Prop) (R : (Units → Units) → Prop) : Act → Prop
  | .skip => True
  | .seq a b => a.Within A R ∧ b.Within A R
  | .read f => ∀ s, (f s).Within A R
  | .put k _ => A (.obj k)
  | .putShadow _ _ | .dropShadow _ _ => A .shadow
  | .poke _ _ | .wipe _ _ => A .bytes
  | .log _ _ _ _ | .logNotes _ | .newLog => A .log
  | .emit _ => A .out
  | .draw _ => A .ctr
  | .setTime _ => A .time
  | .units f => R f
  | .resetObjs _ => (∀ k, A (.obj k)) ∧ A .shadow

/-- The act touches part `p` nowhere. -/
abbrev Act.Spares (p : Part) (a : Act) : Prop := a.Within (· ≠ p) fun _ => True

/-- The act keeps what `f` reads of the units' records. -/
abbrev Act.SparesUnit {β : Type} (f : Units → β) (a : Act) : Prop := a.Within (fun _ => True) fun g => ∀ u, f (g u) = f u

section
variable (A : Part → Prop) (R : (Units → Units) → Prop)

@[simp] theorem within_skip : Act.skip.Within A R ↔ True := Iff.rfl
@[simp] theorem within_seq (a b : Act) : (Act.seq a b).Within A R ↔ a.Within A R ∧ b.Within A R := Iff.rfl
@[simp] theorem within_read (f : State → Act) : (Act.read f).Within A R ↔ ∀ s, (f s).Within A R := Iff.rfl
@[simp] theorem within_put (k v : Nat) : (Act.put k v).Within A R ↔ A (.obj k) := Iff.rfl
@[simp] theorem within_putShadow (k v : Nat) : (Act.putShadow k v).Within A R ↔ A .shadow := Iff.rfl
@[simp] theorem within_dropShadow (k v : Nat) : (Act.dropShadow k v).Within A R ↔ A .shadow := Iff.rfl
@[simp] theorem within_poke (a : Nat) (bs : List Byte) : (Act.poke a bs).Within A R ↔ A .bytes := Iff.rfl
@[simp] theorem within_wipe (a n : Nat) : (Act.wipe a n).Within A R ↔ A .bytes := Iff.rfl
@[simp] theorem within_log (c i d0 d1 : Nat) : (Act.log c i d0 d1).Within A R ↔ A .log := Iff.rfl
@[simp] theorem within_logNotes (f : EventLog → EventLog) : (Act.logNotes f).Within A R ↔ A .log := Iff.rfl
@[simp] theorem within_newLog : Act.newLog.Within A R ↔ A .log := Iff.rfl
@[simp] theorem within_emit (e : Emit) : (Act.emit e).Within A R ↔ A .out := Iff.rfl
@[simp] theorem within_draw (n : Nat) : (Act.draw n).Within A R ↔ A .ctr := Iff.rfl
@[simp] theorem within_setTime (n : Nat) : (Act.setTime n).Within A R ↔ A .time := Iff.rfl
@[simp] theorem within_units (f : Units → Units) : (Act.units f).Within A R ↔ R f := Iff.rfl
@[simp] theorem within_resetObjs (f : Nat → Bool) : (Act.resetObjs f).Within A R ↔ (∀ k, A (.obj k)) ∧ A .shadow := Iff.rfl

@[simp] theorem within_all_nil : (Act.all []).Within A R ↔ True := Iff.rfl
@[simp] theorem within_all_cons (a : Act) (as : List Act) : (Act.all (a :: as)).Within A R ↔ a.Within A R ∧ (Act.all as).Within A R := Iff.rfl
@[simp] theorem within_when (c : Bool) (a : Act) : (Act.when c a).Within A R ↔ (c = true → a.Within A R) := by cases c <;> simp [Act.when]
@[simp] theorem within_ite (c : Prop) [Decidable c] (a b : Act) : (if c then a else b).Within A R ↔ (c → a.Within A R) ∧ (¬ c → b.Within A R) := by
  by_cases h : c <;> simp [h]
@[simp] theorem within_each {α : Type} (xs : List α) (f : α → Act) : (Act.each xs f).Within A R ↔ ∀ x ∈ xs, (f x).Within A R := by
  induction xs with
  | nil => simp [Act.each]
  | cons x xs ih => simpa [Act.each] using fun _ => ih
@[simp] theorem within_modify (k : Nat) (f : Nat → Nat) : (Act.modify k f).Within A R ↔ A (.obj k) :=
  ⟨fun h => h .reset, fun h _ => h⟩
@[simp] theorem within_wrap (w k n : Nat) : (Act.wrap w k n).Within A R ↔ A (.obj k) := by simp [Act.wrap]
@[simp] theorem within_sat (w k n : Nat) : (Act.sat w k n).Within A R ↔ A (.obj k) := by simp [Act.sat]

end

/-- What every elementary update within the bounds keeps, an act within the bounds keeps. -/
theorem Act.Within.keeps {β : Type} {p : State → β} {A : Part → Prop} {R : (Units → Units) → Prop}
    (hput : ∀ k, A (.obj k) → ∀ v s, p ((Act.put k v).run s) = p s)
    (hshadow : A .shadow → ∀ s m, p { s with shadow := m } = p s) (hbytes : A .bytes → ∀ s m, p { s with bytes := m } = p s)
    (htime : A .time → ∀ s n, p { s with time := n } = p s) (hctr : A .ctr → ∀ s n, p { s with freeCtr := n } = p s)
    (hlog : A .log → ∀ s l, p { s with log := l } = p s) (hout : A .out → ∀ s es, p { s with out := es } = p s)
    (hunits : ∀ f, R f → ∀ s, p ((Act.units f).run s) = p s)
    (hreset : (∀ k, A (.obj k)) → A .shadow → ∀ keep s, p ((Act.resetObjs keep).run s) = p s) :
    ∀ {a : Act}, a.Within A R → ∀ s, p (a.run s) = p s := by
  intro a
  induction a with
  | skip => intro _ s; rfl
  | seq a b iha ihb => intro h s; rw [run_seq, ihb h.2, iha h.1]
  | read f ih => intro h s; exact ih s (h s) s
  | put k v => intro h s; exact hput k h v s
  | putShadow k v => intro h s; exact hshadow h s _
  | dropShadow lo hi => intro h s; exact hshadow h s _
  | poke a bs => intro h s; exact hbytes h s _
  | wipe a n => intro h s; exact hbytes h s _
  | log c i d0 d1 => intro h s; exact hlog h s _
  | logNotes f => intro h s; exact hlog h s _
  | newLog => intro h s; exact hlog h s _
  | emit e => intro h s; exact hout h s _
  | draw n => intro h s; exact hctr h s _
  | setTime n => intro h s; exact htime h s _
  | units f => intro h s; exact hunits f h s
  | resetObjs keep => intro h s; exact hreset h.1 h.2 keep s

section
variable {a : Act} (s : State)

theorem Act.Spares.get {k : Nat} (h : a.Spares (.obj k)) : (a.run s).get k = s.get k :=
  Act.Within.keeps (p := fun t => t.get k)
    (fun j hj v t => by rw [run_put_get, if_neg fun e => hj (congrArg Part.obj e.symm)]) (fun _ _ _ => rfl) (fun _ _ _ => rfl) (fun _ _ _ => rfl) (fun _ _ _ => rfl)
    (fun _ _ _ => rfl) (fun _ _ _ => rfl) (fun _ _ _ => rfl) (fun h' _ _ _ => absurd rfl (h' k)) h s

theorem Act.Spares.shadow (h : a.Spares .shadow) : (a.run s).shadow = s.shadow :=
  Act.Within.keeps (p := State.shadow) (fun _ _ _ _ => rfl) (fun h' => absurd rfl h') (fun _ _ _ => rfl) (fun _ _ _ => rfl) (fun _ _ _ => rfl)
    (fun _ _ _ => rfl) (fun _ _ _ => rfl) (fun _ _ _ => rfl) (fun _ h' => absurd rfl h') h s

theorem Act.Spares.bytes (h : a.Spares .bytes) : (a.run s).bytes = s.bytes :=
  Act.Within.keeps (p := State.bytes) (fun _ _ _ _ => rfl) (fun _ _ _ => rfl) (fun h' => absurd rfl h') (fun _ _ _ => rfl) (fun _ _ _ => rfl)
    (fun _ _ _ => rfl) (fun _ _ _ => rfl) (fun _ _ _ => rfl) (fun _ _ _ _ => rfl) h s

theorem Act.Spares.time (h : a.Spares .time) : (a.run s).time = s.time :=
  Act.Within.keeps (p := State.time) (fun _ _ _ _ => rfl) (fun _ _ _ => rfl) (fun _ _ _ => rfl) (fun h' => absurd rfl h') (fun _ _ _ => rfl)
    (fun _ _ _ => rfl) (fun _ _ _ => rfl) (fun _ _ _ => rfl) (fun _ _ _ _ => rfl) h s

theorem Act.Spares.log (h : a.Spares .log) : (a.run s).log = s.log :=
  Act.Within.keeps (p := State.log) (fun _ _ _ _ => rfl) (fun _ _ _ => rfl) (fun _ _ _ => rfl) (fun _ _ _ => rfl) (fun _ _ _ => rfl)
    (fun h' => absurd rfl h') (fun _ _ _ => rfl) (fun _ _ _ => rfl) (fun _ _ _ _ => rfl) h s

theorem Act.Spares.out (h : a.Spares .out) : (a.run s).out = s.out :=
  Act.Within.keeps (p := State.out) (fun _ _ _ _ => rfl) (fun _ _ _ => rfl) (fun _ _ _ => rfl) (fun _ _ _ => rfl) (fun _ _ _ => rfl)
    (fun _ _ _ => rfl) (fun h' => absurd rfl h') (fun _ _ _ => rfl) (fun _ _ _ _ => rfl) h s

theorem Act.SparesUnit.unit {β : Type} {f : Units → β} (h : a.SparesUnit f) : f (a.run s).u = f s.u :=
  Act.Within.keeps (p := fun t => f t.u) (fun _ _ _ _ => rfl) (fun _ _ _ => rfl) (fun _ _ _ => rfl) (fun _ _ _ => rfl) (fun _ _ _ => rfl)
    (fun _ _ _ => rfl) (fun _ _ _ => rfl) (fun _ hf t => hf t.u) (fun _ _ _ _ => rfl) h s

end

/-- An act that writes no live slot keeps the live store. -/
theorem Act.objs_of_within {a : Act} {R : (Units → Units) → Prop} (h : a.Within (fun p => ∀ k, p ≠ .obj k) R) (s : State) : (a.run s).objs = s.objs :=
  Act.Within.keeps (p := State.objs) (fun k h' => absurd rfl (h' k)) (fun _ _ _ => rfl) (fun _ _ _ => rfl) (fun _ _ _ => rfl) (fun _ _ _ => rfl)
    (fun _ _ _ => rfl) (fun _ _ _ => rfl) (fun _ _ _ => rfl) (fun h' => absurd rfl ((show ∀ j, Part.obj 0 ≠ .obj j from h' 0) 0)) h s

/-- A session's record is the dictionary engine's. -/
theorem Act.ses_eq_dict (n : Nat) (f : Session → Session) : Act.ses n f = Act.dict fun d => { d with ses := Tab.upd d.ses n {} f } := rfl

section
variable (n : Nat) (f : Session → Session) (s : State)

@[simp] theorem run_ses_objs : ((Act.ses n f).run s).objs = s.objs := rfl
@[simp] theorem run_ses_shadow : ((Act.ses n f).run s).shadow = s.shadow := rfl
@[simp] theorem run_ses_bytes : ((Act.ses n f).run s).bytes = s.bytes := rfl
@[simp] theorem run_ses_time : ((Act.ses n f).run s).time = s.time := rfl
@[simp] theorem run_ses_log : ((Act.ses n f).run s).log = s.log := rfl
@[simp] theorem run_ses_out : ((Act.ses n f).run s).out = s.out := rfl
@[simp] theorem run_ses_get (k : Nat) : ((Act.ses n f).run s).get k = s.get k := rfl

end

/-! ## Live slots that take values in turn -/

section
variable {α : Type} (xs : List α) (k v : α → Nat) (s : State)

@[simp] theorem run_each_put_shadow : ((Act.each xs fun x => .put (k x) (v x)).run s).shadow = s.shadow := run_each_keeps State.shadow _ xs (fun _ _ _ => rfl) s
@[simp] theorem run_each_put_bytes : ((Act.each xs fun x => .put (k x) (v x)).run s).bytes = s.bytes := run_each_keeps State.bytes _ xs (fun _ _ _ => rfl) s
@[simp] theorem run_each_put_time : ((Act.each xs fun x => .put (k x) (v x)).run s).time = s.time := run_each_keeps State.time _ xs (fun _ _ _ => rfl) s
@[simp] theorem run_each_put_log : ((Act.each xs fun x => .put (k x) (v x)).run s).log = s.log := run_each_keeps State.log _ xs (fun _ _ _ => rfl) s
@[simp] theorem run_each_put_out : ((Act.each xs fun x => .put (k x) (v x)).run s).out = s.out := run_each_keeps State.out _ xs (fun _ _ _ => rfl) s
@[simp] theorem run_each_put_u : ((Act.each xs fun x => .put (k x) (v x)).run s).u = s.u := run_each_keeps State.u _ xs (fun _ _ _ => rfl) s

/-- A slot that is none of those that take a value keeps its own. -/
theorem run_each_put_get {j : Nat} (h : ∀ x ∈ xs, k x ≠ j) : ((Act.each xs fun x => .put (k x) (v x)).run s).get j = s.get j :=
  run_each_keeps (fun t => t.get j) _ xs (fun x hx t => by rw [run_put_get, if_neg (h x hx).symm]) s

end

end Sys2Proof.Machine
end

section
/-! PROOFS. MDP sessions from HELLO to their end (R30, R31, R33, R38). -/

namespace Sys2Proof.Machine

/-! ## Opening -/

/-- The objects that a session has of its own lie above those of the table of sessions. -/
theorem run_reset_own_get {ses k : Nat} (s : State) (hses : 1 ≤ ses) (hk : k < 16777216) (m : Slots) :
    ((Act.each (m.filter fun e => e.1 / 16777216 == ses && Obj.perSession (e.1 % 16777216)) fun e => .put e.1 (Obj.reset e.1)).run s).get k = s.get k := by
  refine run_each_put_get _ _ _ _ fun e he => ?_
  have hown : e.1 / 16777216 = ses := by
    simp only [List.mem_filter, Bool.and_eq_true, beq_iff_eq] at he
    exact he.2.1
  omega

theorem State.ns_lt (s : State) : s.ns < 18446744073709551616 := Nat.mod_lt _ (by decide)

section
variable (ses transport level peer : Nat) (s : State)

/-- What the table of sessions shows of a session that has opened (R39). -/
theorem sessionOpen_get (hlo : 1 ≤ ses) (hhi : ses < 16) :
    ((sessionOpen ses transport level peer).run s).get (Obj.TRANSPORT ses) = transport % 2 ^ 64
      ∧ ((sessionOpen ses transport level peer).run s).get (Obj.LEVEL ses) = level % 2 ^ 64
      ∧ ((sessionOpen ses transport level peer).run s).get (Obj.OPENED_TIME ses) = s.ns := by
  have hns := s.ns_lt
  have ht : Obj.TRANSPORT ses < 16777216 := by unfold Obj.TRANSPORT; omega
  have hl : Obj.LEVEL ses < 16777216 := by unfold Obj.LEVEL; omega
  simp [sessionOpen, run_reset_own_get, hlo, ht, hl, hns]

theorem sessionOpen_session : ((sessionOpen ses transport level peer).run s).session ses
    = { s.session ses with openLevel := level, certKey := peer, waiting := false, lastReq := s.time } := by
  simp [sessionOpen, State.session, Act.ses_eq_dict, Act.dict]

/-- Opening a session writes objects, its record and nothing else. -/
theorem sessionOpen_within {A : Part → Prop} {R : (Units → Units) → Prop} (hobj : ∀ k, A (.obj k)) (hdict : ∀ f, (Act.dict f).Within A R) :
    (sessionOpen ses transport level peer).Within A R := by
  simp [sessionOpen, Act.ses_eq_dict, hobj, hdict]

end

/-! ## Closing -/

section
variable (n : Nat) (s : State)

/-- A session's cleanup writes objects, shadows and the dictionary engine's record. -/
theorem sessionCleanup_within {A : Part → Prop} {R : (Units → Units) → Prop} (hobj : ∀ k, A (.obj k)) (hshadow : A .shadow)
    (hdict : ∀ f, (Act.dict f).Within A R) : (sessionCleanup n).Within A R := by
  simp [sessionCleanup, groupDiscard, groupClear, hobj, hshadow, hdict]

/-- Closing a session writes its record besides, and who waits for a load of a program. -/
theorem sessionClose_within {A : Part → Prop} {R : (Units → Units) → Prop} (hobj : ∀ k, A (.obj k)) (hshadow : A .shadow)
    (hdict : ∀ f, (Act.dict f).Within A R) (hboot : ∀ f, (Act.boot f).Within A R) :
    (sessionClose n).Within A R := by
  have hloads := hboot fun b => { b with loads := b.loads.map fun e => if e.1 = n then (16, e.2) else e }
  simp [sessionClose, Act.ses_eq_dict, sessionCleanup_within, hobj, hshadow, hdict]
  exact hloads

/-- What is left of a session that has closed. -/
theorem sessionClose_run : ((sessionClose n).run s).isOpen n = false ∧ ((sessionClose n).run s).level n = 0 ∧ ((sessionClose n).run s).session n = {}
    ∧ ((sessionClose n).run s).bytes = s.bytes ∧ ((sessionClose n).run s).log = s.log ∧ ((sessionClose n).run s).out = s.out := by
  refine ⟨?_, ?_, ?_, ?_, ?_, ?_⟩
  · simp [sessionClose, State.isOpen]
  · simp [sessionClose, State.level]
  · simp [sessionClose, State.session, Act.ses]
  · exact Act.Spares.bytes s (sessionClose_within n (by simp) (by simp) (fun _ => trivial) (fun _ => trivial))
  · exact Act.Spares.log s (sessionClose_within n (by simp) (by simp) (fun _ => trivial) (fun _ => trivial))
  · exact Act.Spares.out s (sessionClose_within n (by simp) (by simp) (fun _ => trivial) (fun _ => trivial))

end

/-! ## From HELLO to FINISH -/

section
variable {s : State} {ses : Nat}

/-- A HELLO that has its form and whose chain is good is assigned the lowest free session. -/
theorem mdpHello_accepted {header payload cert : List Byte} {rest : List (List Byte)} (hserved : s.mdpServed = true) (hform : helloForm header payload = true)
    (hchain : helloChain payload = cert :: rest) (hshape : s.chainShape (cert :: rest) = true) (hlo : 5 ≤ numAt cert 1 1) (hhi : numAt cert 1 1 ≤ 8)
    (hfree : s.freeSession = some ses) :
    exec (.mdpHello header payload true) s = .next ((Act.all [
      .ses ses (fun _ => {
        waiting := true, role := numAt cert 1 1, hello := payload, reply := s.helloReply ses
        certKey := ofLe ((sha384 ((cert.drop 72).take 97)).take 8) }),
      .emit (.helloReply ses (s.helloReply ses)), .draw 28]).run s.begun) := by
  have hform' : ¬ (¬ s.begun.mdpServed = true ∨ ¬ helloForm header payload = true) := by simp [hform, show s.begun.mdpServed = true from hserved]
  have hgood : ¬ (¬ (true && s.begun.chainShape (cert :: rest)) = true ∨ numAt cert 1 1 < 5 ∨ 8 < numAt cert 1 1) := by
    simp only [show s.begun.chainShape (cert :: rest) = true from hshape]
    simp
    omega
  refine (need_next s rfl _).trans ?_
  simp only [run_read, if_neg hform', show s.begun.freeSession = some ses from hfree, hchain, List.headD_cons, if_neg hgood]
  rfl

/-- A FINISH that verifies opens the session that waits for it. -/
theorem mdpFinish_verified (hses : 2 ≤ ses ∧ ses < 16) (hwait : (s.session ses).waiting = true) (hserved : s.mdpServed = true) :
    exec (.mdpFinish ses true) s = .next ((Act.all [
      sessionOpen ses 3 ((s.session ses).role - 5) (s.session ses).certKey,
      .ses ses (fun y => { y with txSeq := 1, keys := ((s.session ses).derive [0x63, 0x32, 0x64], (s.session ses).derive [0x64, 0x32, 0x63]) }),
      .emit (.response ses 1 [])]).run s.begun) := by
  have hunits : Wf.mdpFinish ses true = true := by simp [Wf.mdpFinish, hses]
  have hgood : ¬ (¬ (s.begun.session ses).waiting = true ∨ ¬ s.begun.mdpServed = true) := by simp [hwait, show s.begun.mdpServed = true from hserved]
  refine (need_next s hunits _).trans ?_
  simp only [run_read, if_neg hgood]
  rfl

end

/-- Settles O9: HELLO and FINISH as accepted, and the shared closing of a session. -/
theorem sessionsOpenAndClose : Obligations.SessionsOpenAndClose := by
  unfold Obligations.SessionsOpenAndClose
  intro s ses hlo hhi
  refine ⟨fun header payload cert rest hserved hform hchain hshape h5 h8 hfree => ?_, fun hwait hserved h5 h8 => ?_, fun hwait => ?_, fun hmdp code => ?_⟩
  · refine ⟨_, mdpHello_accepted hserved hform hchain hshape h5 h8 hfree, ⟨rfl, rfl, rfl, rfl, rfl⟩, rfl, ?_⟩
    simp [State.session, Act.ses]
  · obtain ⟨htr, hlev, htime⟩ := sessionOpen_get ses 3 ((s.session ses).role - 5) (s.session ses).certKey s.begun (by omega) hhi
    have hrole : ((s.session ses).role - 5) % 18446744073709551616 = (s.session ses).role - 5 := Nat.mod_eq_of_lt (by omega)
    refine ⟨_, mdpFinish_verified ⟨hlo, hhi⟩ hwait hserved, ?_, ?_, ?_, ?_, ?_, ?_, ?_, ?_, ?_, ?_⟩
    · simp [State.isOpen, htr]
    · simp [htr]
    · simp [State.level, hlev, hrole]
    · simp [sessionOpen_session]
    · simp
    · simp
    · simp [htime]
    · simpa using Act.Spares.bytes s.begun (sessionOpen_within _ _ _ _ (by simp) fun _ => trivial)
    · simpa using Act.Spares.log s.begun (sessionOpen_within _ _ _ _ (by simp) fun _ => trivial)
    · simpa using Act.Spares.out s.begun (sessionOpen_within _ _ _ _ (by simp) fun _ => trivial)
  · have hunits : Wf.mdpFinishTimeout ses = true := by simp [Wf.mdpFinishTimeout, hlo, hhi]
    refine ⟨(Act.ses ses fun _ => {}).run s.begun, (need_next s hunits _).trans ?_, ⟨rfl, rfl, rfl, rfl, rfl⟩, rfl, ?_⟩
    · simp only [run_read, run_when, begun_session, hwait, ↓reduceIte]
    · simp
  · have hclose : Wf.mdpClose ses code = true := by simp [Wf.mdpClose, hlo, hhi]
    have hidle : Wf.sessionIdleTimeout ses = true := by simp [Wf.sessionIdleTimeout, hlo, hhi]
    have hrun : (Act.read fun s => .when (s.get (Obj.TRANSPORT ses) == 3) (sessionClose ses)).run s.begun = (sessionClose ses).run s.begun := by simp [hmdp]
    exact ⟨_, (need_next s hclose _).trans (congrArg Host.Outcome.next hrun), (need_next s hidle _).trans (congrArg Host.Outcome.next hrun),
      sessionClose_run ses s.begun⟩

end Sys2Proof.Machine
end

section
/-! PROOFS. Staged groups commit, discard and apply (R46, R47, R50). -/

namespace Sys2Proof.Machine

/-! ## Slots kept by a filter of keys -/

theorem Slots.find?_filter (m : Slots) (p : Nat → Bool) (k : Nat) :
    Slots.find? (m.filter fun e => p e.1) k = if p k = true then Slots.find? m k else none := by
  induction m with
  | nil => simp [Slots.find?]
  | cons e t ih =>
    obtain ⟨i, v⟩ := e
    rw [List.filter_cons]
    by_cases hp : p i = true
    · simp only [hp, ↓reduceIte, Slots.find?, ih]
      by_cases hi : i = k
      · subst hi; simp [hp]
      · simp [hi]
    · simp only [hp, Bool.false_eq_true, ↓reduceIte, ih, Slots.find?]
      by_cases hi : i = k
      · subst hi; simp [hp]
      · simp [hi]

theorem Slots.find?_eq_none {m : Slots} {k : Nat} (h : ∀ e ∈ m, e.1 ≠ k) : Slots.find? m k = none := by
  induction m with
  | nil => rfl
  | cons e t ih =>
    obtain ⟨i, v⟩ := e
    rw [Slots.find?, if_neg (h _ (List.mem_cons_self ..)), ih fun e he => h e (List.mem_cons_of_mem _ he)]

/-- Live slots that take the values of a rising store read what it lists, and otherwise what they read before. -/
theorem run_each_put_rising {m : Slots} (hm : m.Pairwise fun a b => a.1 < b.1) (k : Nat) :
    ∀ s : State, ((Act.each m fun e => .put e.1 e.2.toNat).run s).get k = match Slots.find? m k with
      | some w => w.toNat
      | none => s.get k := by
  induction m with
  | nil => intro s; rfl
  | cons e t ih =>
    intro s
    obtain ⟨i, v⟩ := e
    obtain ⟨hhead, htail⟩ := List.pairwise_cons.1 hm
    rw [run_each_cons, ih htail, run_put_get, Slots.find?]
    by_cases hi : i = k
    · subst hi
      have hnone : Slots.find? t i = none := Slots.find?_eq_none fun e he => Nat.ne_of_gt (hhead e he)
      simpa [hnone] using v.isLt
    · rw [if_neg hi, if_neg (Ne.symm hi)]

/-! ## Dropping and taking a group's shadow -/

theorem shadowOf_eq_get {s : State} {k : Nat} (h : Slots.find? s.shadow k = none) : s.shadowOf k = s.get k := by
  rw [State.shadowOf, h]

/-- What the shadow store holds once a group's slots are dropped. -/
def groupDropped (c : Nat) (m : Slots) : Slots := m.filter fun e => decide (e.1 < idxOf c * 256 ∨ idxOf c * 256 + 256 ≤ e.1)

theorem find?_groupDropped {c k : Nat} (hk : k / 256 = idxOf c) (m : Slots) : Slots.find? (groupDropped c m) k = none := by
  rw [groupDropped, Slots.find?_filter m fun j => decide (j < idxOf c * 256 ∨ idxOf c * 256 + 256 ≤ j), if_neg]
  simp only [decide_eq_true_eq]
  omega

theorem groupDiscard_shadow (c : Nat) (s : State) : ((groupDiscard c).run s).shadow = groupDropped c s.shadow := rfl

theorem groupDiscard_get (c : Nat) (s : State) (k : Nat) : ((groupDiscard c).run s).get k
    = if k = Obj.COMMIT_STATUS c then 0 else if k = Obj.SHADOW_OWNER c then 0xFF else s.get k := by
  simp [groupDiscard, groupClear, Act.dict]

section
variable (c : Nat) (s : State)

theorem groupTake_shadow : ((groupTake c).run s).shadow = groupDropped c s.shadow := by
  show groupDropped c ((Act.each (s.shadow.filter fun e => decide (e.1 / 256 = idxOf c)) fun e => .put e.1 e.2.toNat).run s).shadow = _
  rw [run_each_put_shadow]

theorem groupTake_within {A : Part → Prop} {R : (Units → Units) → Prop} (hobj : ∀ k, A (.obj k)) (hshadow : A .shadow) (hdict : ∀ f, (Act.dict f).Within A R) :
    (groupTake c).Within A R := by
  simp [groupTake, groupClear, hobj, hshadow, hdict]

/-- The live slots of a group that has applied, in the order in which they were written. -/
theorem groupTake_get (k : Nat) : ((groupTake c).run s).get k =
    let t := (Act.each (s.shadow.filter fun e => decide (e.1 / 256 = idxOf c)) fun e => .put e.1 e.2.toNat).run s
    if k = Obj.APPLIED_TIME_FRAC c then s.frac else if k = Obj.APPLIED_TIME c then s.ns
    else if k = Obj.COMMIT_COUNT c then (t.get (Obj.COMMIT_COUNT c) + 1) % 2 ^ 32
    else if k = Obj.COMMIT_STATUS c then 3 else if k = Obj.SHADOW_OWNER c then 0xFF else t.get k := by
  have hns := s.ns_lt
  have hfrac : s.frac < 18446744073709551616 := by unfold State.frac; omega
  have hcount (x : Nat) : x % 4294967296 % 18446744073709551616 = x % 4294967296 := by omega
  simp [groupTake, groupClear, Act.dict, Nat.mod_eq_of_lt hns, Nat.mod_eq_of_lt hfrac, hcount]

end

/-! ## Which groups there are -/

/-- A group's control index and the index of its objects name each other. -/
theorem ctlOf_idxOf {c : Nat} (h : c ≠ 0x2101) : ctlOf (idxOf c) = c := by
  unfold ctlOf idxOf
  split_ifs <;> omega

theorem wf_groupApply_ne {g : Nat} (h : Wf.groupApply g = true) : g ≠ 0x2101 := by
  rintro rfl
  exact absurd h (by decide)

/-- Where the shadow store lists no slot of the group's control block, application gives the group's objects the shadow's values, and keeps every slot of another index. -/
theorem groupTake_applies {s : State} {g : Nat} (hg : g ≠ 0x2101) (hrise : s.shadow.Pairwise fun a b => a.1 < b.1)
    (hctl : ∀ e ∈ s.shadow, ctlOf (e.1 / 256) = g → e.1 % 256 < 0xF8) :
    let t := (groupTake g).run s
    t.get (Obj.COMMIT_STATUS g) = 3 ∧ t.get (Obj.SHADOW_OWNER g) = 0xFF ∧ t.get (Obj.COMMIT_COUNT g) = (s.get (Obj.COMMIT_COUNT g) + 1) % 2 ^ 32
      ∧ t.get (Obj.APPLIED_TIME g) = s.ns ∧ t.get (Obj.APPLIED_TIME_FRAC g) = s.frac
      ∧ (∀ k, k / 256 = idxOf g → k % 256 < 0xF8 → t.get k = s.shadowOf k ∧ t.shadowOf k = t.get k)
      ∧ ∀ k, k / 256 ≠ idxOf g → k / 256 ≠ g → t.get k = s.get k := by
  intro t
  have hkey (e : Nat × Word) (he : e ∈ s.shadow.filter fun e => decide (e.1 / 256 = idxOf g)) : e.1 / 256 = idxOf g ∧ e.1 % 256 < 0xF8 := by
    obtain ⟨hmem, hidx⟩ := List.mem_filter.1 he
    have hidx' : e.1 / 256 = idxOf g := by simpa using hidx
    exact ⟨hidx', hctl e hmem (by rw [hidx', ctlOf_idxOf hg])⟩
  have hother (k : Nat) (hk : k / 256 ≠ idxOf g ∨ 0xF8 ≤ k % 256) :
      ((Act.each (s.shadow.filter fun e => decide (e.1 / 256 = idxOf g)) fun e => .put e.1 e.2.toNat).run s).get k = s.get k := by
    refine run_each_put_get _ _ _ _ fun e he heq => ?_
    obtain ⟨h1, h2⟩ := hkey e he
    subst heq
    omega
  refine ⟨?_, ?_, ?_, ?_, ?_, fun k hk hsub => ⟨?_, ?_⟩, fun k hk hk' => ?_⟩
  · simp [t, groupTake_get]
  · simp [t, groupTake_get]
  · simp only [t, groupTake_get]
    rw [hother _ (.inr (by unfold Obj.COMMIT_COUNT; omega))]
    simp
  · simp [t, groupTake_get]
  · simp [t, groupTake_get]
  · have hctl (j : Nat) (hj : 0xF8 ≤ j % 256) : k ≠ j := by omega
    simp only [t, groupTake_get]
    rw [if_neg (hctl _ (by unfold Obj.APPLIED_TIME_FRAC; omega)), if_neg (hctl _ (by unfold Obj.APPLIED_TIME; omega)),
      if_neg (hctl _ (by unfold Obj.COMMIT_COUNT; omega)), if_neg (hctl _ (by unfold Obj.COMMIT_STATUS; omega)),
      if_neg (hctl _ (by unfold Obj.SHADOW_OWNER; omega)), run_each_put_rising (hrise.filter _),
      Slots.find?_filter s.shadow fun j => decide (j / 256 = idxOf g)]
    simp [hk, State.shadowOf] <;> rfl
  · refine shadowOf_eq_get ?_
    rw [groupTake_shadow, find?_groupDropped hk]
  · have hctl (j : Nat) (hj : j / 256 = g) : k ≠ j := by omega
    simp only [t, groupTake_get]
    rw [if_neg (hctl _ (by unfold Obj.APPLIED_TIME_FRAC; omega)), if_neg (hctl _ (by unfold Obj.APPLIED_TIME; omega)),
      if_neg (hctl _ (by unfold Obj.COMMIT_COUNT; omega)), if_neg (hctl _ (by unfold Obj.COMMIT_STATUS; omega)),
      if_neg (hctl _ (by unfold Obj.SHADOW_OWNER; omega)), hother k (.inl hk)]

/-! ## What a command sends beside its writes -/

theorem run_put_begun (s : State) (k v : Nat) : (Act.put k v).run s.begun = ((Act.put k v).run s).begun := rfl

@[simp] theorem also_get (s : State) (es : List Emit) (k : Nat) : (s.also es).get k = s.get k := rfl
@[simp] theorem also_bytes (s : State) (es : List Emit) : (s.also es).bytes = s.bytes := rfl
@[simp] theorem also_log (s : State) (es : List Emit) : (s.also es).log = s.log := rfl
@[simp] theorem also_out (s : State) (es : List Emit) : (s.also es).out = s.out ++ es := rfl
@[simp] theorem also_u (s : State) (es : List Emit) : (s.also es).u = s.u := rfl
@[simp] theorem also_shadow (s : State) (es : List Emit) : (s.also es).shadow = s.shadow := rfl
@[simp] theorem also_shadowOf (s : State) (es : List Emit) (k : Nat) : (s.also es).shadowOf k = s.shadowOf k := rfl

theorem begun_also (s : State) (es : List Emit) : s.begun.also es = s.sending es := rfl

/-! ## Commits and discards -/

/-- A write that is admitted is answered as the object takes it. -/
theorem guarded_admitted {s : State} {ses k v : Nat} {l : Lvl} {body : State → WriteRes} (h : s.admits ses k v l) :
    (guarded ses k v l true body).run s = (answer ses k (body s)).run s := by
  obtain ⟨ho, hd, hs, ha⟩ := h
  have hshut : ¬ (¬ s.isOpen ses = true ∨ s.dev = Dev.STANDBY) := by simp [ho, hd]
  have hslots : ¬ (ses = 0 ∧ (s.session 0).slots.isSome = true) := fun h => by simp [hs h.1] at h
  rw [guarded, run_read, if_neg hshut, if_neg hslots]
  simp only [ha, ne_eq, not_true_eq_false, ↓reduceIte]

/-- A write whose object does something and turns it away: the abort is recorded after what it does. -/
theorem run_answer_no (s : State) (ses k : Nat) {c : Nat} (hc : c ≠ 0) (a : Act) :
    (answer ses k (c, a)).run s = ((a.run s).aborted ses c k).also (replies ses c) := by
  by_cases h : ses = 0
  · subst h
    simp [answer, hc, State.also, replies, recordAbort_run]
  · simp [answer, hc, State.also, replies, h, recordAbort_run, Act.run]

section
variable {s : State} {ses g : Nat} (hg1 : g ≠ 0x2581) (hg2 : g ≠ 0x2D21)
include hg1 hg2

theorem groupKey_of_ne : s.groupKey ses g = g := by
  rw [State.groupKey, if_neg hg1, if_neg hg2]

end

section
variable {s : State} {ses g : Nat} (hshut : s.groupShut ses g = 0) (hst : s.get (Obj.COMMIT_STATUS g) = 1 ∨ s.get (Obj.COMMIT_STATUS g) = 4)
include hshut hst

theorem commitGroup_flawed {code sub : Nat} (hcode : code ≠ 0x0545) (hflaw : checkGroup s ses g = some (code, sub)) :
    commitGroup ses g s = (Ab.COMMIT_INCONSISTENT, .all [
      .put (Obj.COMMIT_STATUS g) 4, .put (Obj.COMMIT_ABORT g) code, .put (Obj.COMMIT_FAULT_OBJECT g) (idxOf g % 65536 * 256 + sub), .skip]) := by
  have hclean : ¬ (s.get (Obj.COMMIT_STATUS g) = 0 ∨ s.get (Obj.COMMIT_STATUS g) = 3) := by omega
  have hcycle : (code == 0x0545) = false := by simpa using hcode
  simp only [commitGroup, hshut, ne_eq, not_true_eq_false, ↓reduceIte, if_neg hclean, hflaw, hcycle]
  rfl

theorem commitGroup_good (hflaw : checkGroup s ses g = none) :
    commitGroup ses g s = .ok (.all [
      .put (Obj.COMMIT_STATUS g) 2, .dict (fun d => { d with pendingGroups := d.pendingGroups.filter (· != g) ++ [g] }), claimFor g, boundaryMet g]) := by
  have hclean : ¬ (s.get (Obj.COMMIT_STATUS g) = 0 ∨ s.get (Obj.COMMIT_STATUS g) = 3) := by omega
  simp only [commitGroup, hshut, ne_eq, not_true_eq_false, ↓reduceIte, if_neg hclean, hflaw]

theorem discardGroup_staged : discardGroup ses g s = .ok (groupDiscard g) := by
  have hstaged : (s.get (Obj.COMMIT_STATUS g) == 1 || s.get (Obj.COMMIT_STATUS g) == 4) = true := by simpa using hst
  simp only [discardGroup, hshut, ne_eq, not_true_eq_false, ↓reduceIte, hstaged]
  rfl

end

/-! ## Checks and what was sent -/

theorem begun_ancestors (s : State) : ∀ fuel seen front, s.begun.ancestors fuel seen front = s.ancestors fuel seen front := by
  intro fuel
  induction fuel with
  | zero => intro _ _; rfl
  | succ n ih =>
    intro seen front
    simp only [State.ancestors, ih]
    rfl

theorem begun_cyclic (s : State) (f : Nat) : s.begun.cyclic f = s.cyclic f := by
  simp only [State.cyclic, begun_ancestors]
  rfl

theorem begun_checkFurrow (s : State) (f : Nat) : checkFurrow s.begun f = checkFurrow s f := by
  simp only [checkFurrow, begun_cyclic]
  rfl

theorem begun_checkGroup (s : State) (ses c : Nat) : checkGroup s.begun ses c = checkGroup s ses c := by
  unfold checkGroup
  simp only [begun_checkFurrow]
  rfl

/-! ## The boundary -/

theorem boundaryMet_run (c : Nat) (s : State) :
    (boundaryMet c).run s = if (s.groupPending c && s.atBoundary c) = true then (applyGroup c).run s else s := by
  rw [boundaryMet, run_read, run_when]

theorem begun_atBoundary (s : State) (c : Nat) : s.begun.atBoundary c = s.atBoundary c := rfl

/-- Of the groups of these indices application asks no more than that their values are taken. -/
theorem applyGroup_takes {g : Nat} (h : g = 0x2120 ∨ (0x2810 ≤ g ∧ g ≤ 0x28BF) ∨ (0x2F60 ≤ g ∧ g ≤ 0x2F67)) : applyGroup g = groupTake g := by
  have hmod : g % 65536 = g := by omega
  simp only [applyGroup, applyIdle, hmod]
  rw [if_neg (by omega), if_neg (by omega), if_neg (by omega), if_neg (by omega), if_neg (by omega), if_neg (by omega), if_neg (by omega), if_neg (by omega),
    if_neg (by omega), if_neg (by omega)]

/-- A check-value unit's group wakes its domain where it sets a period. -/
theorem applyGroup_checkUnit {g : Nat} (h : 0x2D40 ≤ g ∧ g ≤ 0x2D4F) :
    applyGroup g = .all [groupTake g, .read fun s => .when (s.get (Obj.CV_PERIOD_MS (g - 0x2D40)) != 0) (needDomain 78)] := by
  have hmod : g % 65536 = g := by omega
  simp only [applyGroup, applyIdle, hmod]
  rw [if_neg (by omega), if_neg (by omega), if_neg (by omega), if_neg (by omega), if_neg (by omega), if_pos h, if_neg (by omega), if_neg (by omega),
    if_neg (by omega), if_neg (by omega)]

/-- Settles O10: a commit and a discard are guarded writes with the outcomes of their checks; application takes the shadow, then does what the block asks. -/
theorem groupsCommitDiscardApply : Obligations.GroupsCommitDiscardApply := by
  unfold Obligations.GroupsCommitDiscardApply
  constructor
  · intro s ses g hses hwf hg1 hg2
    have hunits : (decide (ses < 16) && Wf.group g) = true := by simp [hses, hwf]
    have hkey : s.groupKey ses g = g := groupKey_of_ne hg1 hg2
    refine ⟨fun hshut hadm hst code sub hcode hflaw => ?_, ?_, fun hshut hadm hst => ?_⟩
    · have hcommit := commitGroup_flawed (s := s.begun) hshut hst hcode ((begun_checkGroup ..).trans hflaw)
      have hcount (j : Nat) (hj : 0xF8 ≤ j % 256) : Obj.ABORT_COUNT ses ≠ j := by unfold Obj.ABORT_COUNT; omega
      calc exec (.groupCommit ses g) s
          = .next ((guarded ses (commitKey (s.groupKey ses g)) 1 (groupLvl g) true (commitGroup ses (s.groupKey ses g))).run s.begun).told := need_told s hunits _
        _ = _ := by
          rw [hkey, guarded_admitted ((begun_admits ..).mpr hadm), hcommit, run_answer_no _ _ _ (by decide)]
          simp only [State.aborted, run_all_cons, run_all_nil, run_skip, run_put_get]
          rw [if_neg (hcount _ (by unfold Obj.COMMIT_FAULT_OBJECT; omega)), if_neg (hcount _ (by unfold Obj.COMMIT_ABORT; omega)),
            if_neg (hcount _ (by unfold Obj.COMMIT_STATUS; omega))]
          simp only [puts_cons, puts_nil, run_put_begun, begun_also, begun_get]
    · intro hshut hadm hst hflaw hlt p hbound
      have hcommit := commitGroup_good (s := s.begun) hshut hst ((begun_checkGroup ..).trans hflaw)
      have hclaim (t : State) : (claimFor g).run t = t := by
        have hmod : g % 65536 = g := by omega
        simp only [claimFor, run_read, hmod]
        rw [if_neg hg2, if_neg (by omega), run_skip]
      have hstays : (boundaryMet g).run p.begun = p.begun := by
        rw [boundaryMet_run, begun_atBoundary, hbound, Bool.and_false, if_neg (by decide)]
      calc exec (.groupCommit ses g) s
          = .next ((guarded ses (commitKey (s.groupKey ses g)) 1 (groupLvl g) true (commitGroup ses (s.groupKey ses g))).run s.begun).told := need_told s hunits _
        _ = .next ((((boundaryMet g).run ((claimFor g).run p.begun)).also (replies ses 0)).told) := by
          rw [hkey, guarded_admitted ((begun_admits ..).mpr hadm), hcommit, run_answer_ok]
          rfl
        _ = _ := by
          rw [hclaim, hstays]
          rfl
    · have hdiscard := discardGroup_staged (s := s.begun) hshut hst
      refine ⟨((groupDiscard g).run s.begun).also (replies ses 0), ?_, ?_, ?_, fun k hk => ?_, fun k hk1 hk2 => ?_, ?_, ?_, ?_⟩
      · calc exec (.groupDiscard ses g) s
            = .next ((guarded ses (commitKey (s.groupKey ses g)) 2 (groupLvl g) true (discardGroup ses (s.groupKey ses g))).run s.begun) := need_next s hunits _
          _ = _ := by rw [hkey, guarded_admitted ((begun_admits ..).mpr hadm), hdiscard, run_answer_ok]
      · rw [also_get, groupDiscard_get, if_pos rfl]
      · simp [groupDiscard_get]
      · rw [also_get, also_shadowOf]
        exact shadowOf_eq_get (by rw [groupDiscard_shadow, find?_groupDropped hk])
      · rw [also_get, groupDiscard_get, if_neg hk1, if_neg hk2, begun_get]
      · simp [groupDiscard, groupClear, Act.dict]
      · simp [groupDiscard, groupClear, Act.dict]
      · simp [groupDiscard, groupClear, Act.dict]
  · intro s g hwf
    refine ⟨fun hpend hbound => ?_, fun hnot => ?_, fun hidx => ?_, fun hidx => ?_, fun hrise hctl => ?_⟩
    · have hmet : (s.begun.groupPending g && s.begun.atBoundary g) = true := by
        rw [begun_atBoundary, hbound, Bool.and_true]
        exact hpend
      refine (need_told s hwf _).trans ?_
      rw [boundaryMet_run, if_pos hmet]
      rfl
    · have hnot' : ¬ (s.begun.groupPending g && s.begun.atBoundary g) = true := by
        rw [begun_atBoundary]
        exact Bool.eq_false_iff.1 hnot
      refine (need_told s hwf _).trans ?_
      rw [boundaryMet_run, if_neg hnot']
      rfl
    · rw [State.groupApplied, applyGroup_takes hidx, State.groupTaken]
    · have hrun := congrArg (Act.run · s) (applyGroup_checkUnit hidx)
      simp only [run_all_cons, run_all_nil, run_read, run_when, bne_iff_ne, ne_eq, ite_not] at hrun
      exact hrun
    · obtain ⟨h1, h2, h3, h4, h5, h6, h7⟩ := groupTake_applies (wf_groupApply_ne hwf) hrise hctl
      exact ⟨h1, h2, h3, h4, h5, h6, h7, Act.Spares.bytes s (groupTake_within g (by simp) (by simp) fun _ => trivial),
        Act.Spares.log s (groupTake_within g (by simp) (by simp) fun _ => trivial), Act.Spares.out s (groupTake_within g (by simp) (by simp) fun _ => trivial)⟩

end Sys2Proof.Machine
end

section
/-! PROOFS. What a logged event does to the log and beside it (R64 to R68), and background activities (R179). -/

namespace Sys2Proof.Machine

/-! ## Bounds -/

section
variable {A : Part → Prop} {R : (Units → Units) → Prop}

theorem msixSend_within (v : Nat) (hout : A .out) (hdict : ∀ f, (Act.dict f).Within A R) : (msixSend v).Within A R := by
  simp [msixSend, hout, hdict]

theorem msixRaise_within (v : Nat) (hout : A .out) (hdict : ∀ f, (Act.dict f).Within A R) : (msixRaise v).Within A R := by
  simp [msixRaise, msixSend_within, hout, hdict]

theorem logSends_within (code : Nat) (hlog : A .log) (hout : A .out) (hdict : ∀ f, (Act.dict f).Within A R) : (logSends code).Within A R := by
  simp only [logSends, within_read]
  intro s
  split
  · trivial
  · simp [sendNotify, Act.ses_eq_dict, msixRaise_within, hlog, hout, hdict]

theorem logEnter_within (code inst d0 d1 : Nat) (hlog : A .log) : (logEnter code inst d0 d1).Within A R := by
  simp [logEnter, hlog]

/-- A logged event writes the log, what is sent, and the dictionary engine's record. -/
theorem logEv_within (code inst d0 d1 : Nat) (hlog : A .log) (hout : A .out) (hdict : ∀ f, (Act.dict f).Within A R) : (logEv code inst d0 d1).Within A R := by
  simp [logEv, logEnter_within, logSends_within, hlog, hout, hdict]

theorem logNoted_within {note : Act} (hnote : note.Within A R) (code inst d0 d1 : Nat) (hlog : A .log) (hout : A .out) (hdict : ∀ f, (Act.dict f).Within A R) :
    (logNoted note code inst d0 d1).Within A R := by
  simp [logNoted, logEnter_within, logSends_within, hlog, hout, hdict, hnote]

end

/-! ## The log -/

/-- The entry that an event logged now makes. -/
def State.eventNow (s : State) (code inst d0 d1 : Nat) : Event where
  ns := s.ns
  frac := s.frac
  sev := Ev.severity code
  code := code
  inst := inst
  data0 := d0 % 18446744073709551616
  data1 := d1 % 4294967296
  seq := s.log.total + 1

theorem logEnter_log (code inst d0 d1 : Nat) (s : State) :
    ((logEnter code inst d0 d1).run s).log.total = s.log.total + 1
      ∧ ((logEnter code inst d0 d1).run s).log.ring = (s.eventNow code inst d0 d1 :: s.log.ring).take 1008
      ∧ ((logEnter code inst d0 d1).run s).log.toFlash = s.log.toFlash := by
  simp only [logEnter, run_all_cons, run_all_nil, run_when]
  split <;> exact ⟨rfl, rfl, rfl⟩

/-- What an event sends leaves the log as it is, but for the copy that waits for flash. -/
theorem logSends_log (code : Nat) {s : State} {e : Event} {es : List Event} (h : s.log.ring = e :: es) :
    ((logSends code).run s).log = if 3 ≤ Ev.severity code then { s.log with toFlash := s.log.toFlash ++ [(e, s.get Obj.BOOT_COUNT)] } else s.log := by
  have hnotify (t : State) : ((Act.each (List.range 14) fun i =>
      Act.when (s.get (Obj.TRANSPORT (i + 2)) == 3 && decide (1 ≤ s.level (i + 2))) (sendNotify (i + 2) 1 [e.bytes])).run t).log = t.log :=
    Act.Spares.log t (by simp [sendNotify, Act.ses_eq_dict, Act.dict])
  have hmsix (c : Bool) (v : Nat) (t : State) : ((Act.when c (msixRaise v)).run t).log = t.log := by
    cases c
    · rfl
    · exact run_msixRaise_log v t
  have hwhen {a : Act} (ha : ∀ t, (a.run t).log = t.log) (c : Bool) (t : State) : ((Act.when c a).run t).log = t.log := by
    cases c
    · rfl
    · exact ha t
  simp only [logSends, run_read, h, run_all_cons, run_all_nil]
  rw [hmsix, hwhen hnotify, hwhen fun _ => rfl, run_when]
  by_cases hsev : 3 ≤ Ev.severity code
  · rw [if_pos hsev, if_pos (by simpa using hsev), ← h]
    rfl
  · rw [if_neg hsev, if_neg (by simpa using hsev)]

/-- What stands in the log after an event, whatever is noted of it before it is sent. -/
theorem logNoted_log {note : Act} (hnote : ∀ t, (note.run t).log.total = t.log.total ∧ (note.run t).log.ring = t.log.ring ∧ (note.run t).log.toFlash = t.log.toFlash)
    (code inst d0 d1 : Nat) (s : State) :
    let t := (logNoted note code inst d0 d1).run s
    t.log.total = s.log.total + 1 ∧ t.log.ring = s.eventNow code inst d0 d1 :: s.log.ring.take 1007
      ∧ t.log.toFlash.length = s.log.toFlash.length + if 3 ≤ Ev.severity code then 1 else 0 := by
  intro t
  obtain ⟨htot, hring, hfl⟩ := logEnter_log code inst d0 d1 s
  obtain ⟨hntot, hnring, hnfl⟩ := hnote ((logEnter code inst d0 d1).run s)
  have hhead : (note.run ((logEnter code inst d0 d1).run s)).log.ring = s.eventNow code inst d0 d1 :: s.log.ring.take 1007 := by rw [hnring, hring, List.take_succ_cons]
  have hsends := logSends_log code hhead
  have ht : t.log = _ := hsends
  rw [ht]
  split
  · refine ⟨hntot.trans htot, hhead, ?_⟩
    simp [hnfl, hfl]
  · exact ⟨hntot.trans htot, hhead, by rw [hnfl, hfl, Nat.add_zero]⟩

theorem logEv_eq_logNoted (code inst d0 d1 : Nat) (s : State) : (logEv code inst d0 d1).run s = (logNoted .skip code inst d0 d1).run s := rfl

section
variable (code inst d0 d1 : Nat) (s : State)

theorem logEv_log :
    let t := (logEv code inst d0 d1).run s
    t.log.total = s.log.total + 1 ∧ t.log.ring = s.eventNow code inst d0 d1 :: s.log.ring.take 1007
      ∧ t.log.toFlash.length = s.log.toFlash.length + if 3 ≤ Ev.severity code then 1 else 0 :=
  logNoted_log (fun _ => ⟨rfl, rfl, rfl⟩) code inst d0 d1 s

@[simp] theorem logEv_total : ((logEv code inst d0 d1).run s).log.total = s.log.total + 1 := (logEv_log code inst d0 d1 s).1

/-- The event that was logged is the latest. -/
theorem lastEvent_of_ring {t : State} (htot : t.log.total = s.log.total + 1) {es : List Event} (hring : t.log.ring = s.eventNow code inst d0 d1 :: es) :
    t.lastEvent code inst d0 d1 :=
  ⟨s.eventNow code inst d0 d1, by rw [hring]; rfl, rfl, rfl, rfl, rfl, rfl, htot.symm⟩

theorem logEv_lastEvent : ((logEv code inst d0 d1).run s).lastEvent code inst d0 d1 := by
  obtain ⟨htot, hring, -⟩ := logEv_log code inst d0 d1 s
  exact lastEvent_of_ring code inst d0 d1 s htot hring

@[simp] theorem logEv_pending : ((logEv code inst d0 d1).run s).pending = s.pending := run_pending _ s

end

/-- The latest event is one of the log alone. -/
theorem lastEvent_congr {s t : State} (h : t.log = s.log) {code inst d0 d1 : Nat} (hs : s.lastEvent code inst d0 d1) : t.lastEvent code inst d0 d1 := by
  unfold State.lastEvent
  rw [h]
  exact hs

/-! ## Background activities -/

section
variable {act unit : Nat} {busy : Bool} {a : Act} {s : State}

/-- A background activity that may work uses up its grant, if it had one, and works. -/
theorem background_works (h : s.mayWork act unit busy) :
    (background act unit busy a).run s = a.run (s.withMem fun m => { m with overdue := m.overdue.filter (· != (act, unit)) }) := by
  have hgo : ¬ (busy = true ∧ ¬ s.u.mem.overdue.contains (act, unit) = true) := by
    rintro ⟨hb, hc⟩
    rcases h with h | h
    · rw [h] at hb; exact Bool.noConfusion hb
    · exact hc h
  rw [background, run_read, if_neg hgo]
  rfl

/-- One that may not yields, and the yield is counted. -/
theorem background_yields (h : ¬ s.mayWork act unit busy) : (background act unit busy a).run s = s.counted 64 Obj.BG_YIELDS 1 := by
  have hstop : busy = true ∧ ¬ s.u.mem.overdue.contains (act, unit) = true := by
    rw [State.mayWork, not_or] at h
    exact ⟨by simpa using h.1, h.2⟩
  rw [background, run_read, if_pos hstop]
  rfl

/-- A unit that was not granted an activity has no grant to use up. -/
theorem withMem_overdue_of_not_contains (h : s.u.mem.overdue.contains (act, unit) = false) :
    s.withMem (fun m => { m with overdue := m.overdue.filter (· != (act, unit)) }) = s := by
  have hsame : s.u.mem.overdue.filter (· != (act, unit)) = s.u.mem.overdue := by
    rw [List.filter_eq_self]
    intro x hx
    simp only [bne_iff_ne, ne_eq]
    rintro rfl
    simp [hx] at h
  rw [State.withMem, State.withUnits, hsame]

end

end Sys2Proof.Machine
end

section
/-! PROOFS. Settings, acknowledgement, the flash ring, holdoffs and logged events (R51, R52, R63, R64, R66, R68, R86). -/

namespace Sys2Proof.Machine

/-- A command that is one guarded write, admitted and in range, whose object takes it with act `a`. -/
theorem exec_guarded_takes {s : State} {c : Bool} {ses k v : Nat} {l : Lvl} {r : Bool} {body : State → WriteRes} {a : Act} (hc : c = true) (hr : r = true)
    (h : s.admits ses k v l) (hb : body s.begun = .ok a) :
    need c s (guarded ses k v l r body) = .next ((a.run s.begun).also (replies ses 0)) := by
  subst hr
  rw [need_next s hc, guarded_admitted ((begun_admits ..).mpr h), hb, run_answer_ok]

/-- A copy of one event moves the oldest that waits to the front of the flash ring. -/
theorem flashCopy_one {s : State} {e : Event × Nat} {es : List (Event × Nat)} (h : s.log.toFlash = e :: es) :
    (flashCopy 1).run s = { s with log := { s.log with toFlash := es, flash := (e :: s.log.flash).take 256, flashCount := s.log.flashCount + 1 } } := by
  simp [flashCopy, Act.run, h]

/-- `s` after MSI-X message `v` has left and its holdoff begun (R63). -/
def State.msixHeld (s : State) (v : Nat) : State :=
  (s.withUnits fun u => { u with dict := { u.dict with holdoff := v :: u.dict.holdoff.filter (· != v) } }).also [.msix v]

/-- Settles O11: each command's act on the state it begins in; a logged event by the lemmas on the log. -/
theorem settingsAndEventLog : Obligations.SettingsAndEventLog := by
  unfold Obligations.SettingsAndEventLog
  intro s ses hses
  refine ⟨fun sub h1 h3 hadm hfree => ?_, fun sub h1 h3 hadm => ?_, fun v hadm => ?_, fun hadm => ?_, fun e es hwait hfree hgrant => ?_,
    fun v hv hrun hraised hhost hhold => ?_, fun code inst d0 d1 => ?_⟩
  · have hunits : Wf.storeParameters ses sub 0x65766173 = true := by simp [Wf.storeParameters, hses, h1, h3]
    have hidle : ¬ s.begun.u.boot.writing.isSome = true := by simp [hfree]
    refine (exec_guarded_takes hunits ?_ hadm (if_neg hidle)).trans ?_
    · rfl
    · rfl
  · have hunits : Wf.restoreDefaultParameters ses sub 0x64616F6C = true := by simp [Wf.restoreDefaultParameters, hses, h1, h3]
    exact exec_guarded_takes hunits rfl hadm (body := restoreDefaults sub) rfl
  · have hunits : Wf.eventAck ses v = true := by simp [Wf.eventAck, hses]
    exact exec_guarded_takes hunits rfl hadm (body := eventAck v) rfl
  · have hunits : Wf.arithClear ses 1 = true := by simp [Wf.arithClear, hses]
    exact exec_guarded_takes hunits rfl hadm (body := arithClear) rfl
  · have hbusy : s.u.boot.writing.isSome = false := by simp [hfree]
    refine (need_next s rfl _).trans ?_
    rw [run_read, begun_u, background_works (.inl hbusy), withMem_overdue_of_not_contains (s := s.begun) hgrant, flashCopy_one (s := s.begun) hwait]
    rfl
  · have hunits : Wf.msixHoldoffExpiry v = true := by simp [Wf.msixHoldoffExpiry, hv]
    have hsend (t : State) (hobjs : t.objs = s.objs) : (msixSend v).run t = t.msixHeld v := by
      have hget (k : Nat) : t.get k = s.get k := by rw [State.get, hobjs, State.get]
      have hopen : t.hostReachable = true := by rw [State.hostReachable, State.isOpen, hget]; exact hhost
      simp only [msixSend, run_read, run_all_cons, run_all_nil, run_when, hopen, hget, bne_iff_ne, ne_eq, hhold, not_false_eq_true, ↓reduceIte]
      rfl
    refine ⟨((Act.dict fun d => { d with holdoff := d.holdoff.filter (· != v), raised := d.raised.filter (· != v) }).run s.begun).msixHeld v,
      (need_next s hunits _).trans ?_, ⟨rfl, rfl, rfl, rfl, rfl⟩, rfl, ?_, rfl⟩
    · simp only [run_read, run_when, begun_u, hrun, hraised, ↓reduceIte, run_all_cons, run_all_nil]
      exact congrArg Host.Outcome.next (hsend _ rfl)
    · simp [State.msixHeld, State.also, State.withUnits, Act.dict, List.filter_filter]
  · obtain ⟨htot, hring, hflash⟩ := logEv_log code inst d0 d1 s
    refine ⟨htot, logEv_lastEvent code inst d0 d1 s, ?_, fun e he => ?_, hflash, run_logEv_objs .., run_logEv_shadow .., run_logEv_bytes .., run_logEv_time ..,
      logEv_pending ..⟩
    · rw [State.logged, hring, List.tail_cons]
    · rw [State.logged, hring, List.head?_cons] at he
      obtain rfl := Option.some.inj he
      exact ⟨rfl, rfl⟩

end Sys2Proof.Machine
end

section
/-! PROOFS. A run that has one stage: it is a ready job at once (R199 to R201). -/

namespace Sys2Proof.Machine

/-- What was set stands in the table. -/
theorem Tab.mem_set {α : Type} (t : Tab α) (k : Nat) (a : α) : (k, a) ∈ Tab.set t k a := by
  induction t with
  | nil => simp [Tab.set]
  | cons e t ih =>
    obtain ⟨i, b⟩ := e
    unfold Tab.set
    split_ifs <;> simp [ih]

/-- The job that stage `i` of run `r` becomes. -/
def State.stageJob (s : State) (r i : Nat) (run : Run) (d : Decl) : Job where
  run := r
  stage := i
  ctx := run.ctx
  decl := d
  cls := run.cls
  arrival := run.posted
  readyAt := s.time
  since := s.time
  want := s.get (Obj.PREFERRED_MV run.ctx)

/-- A stage that becomes ready changes the Timetable's record: it enters the job table under the next number, and may set its context's virtual time. -/
theorem stageReady_run (r i : Nat) (run : Run) (d : Decl) (s : State) : ∃ v, (stageReady r i run d).run s = s.withTt fun t => { t with
    vtime := v, jobs := Tab.set t.jobs t.nextJob (s.stageJob r i run d), nextJob := t.nextJob + 1 } :=
  ⟨_, rfl⟩

section
variable {x : Run} {d : Decl} (hstages : x.stages = [d])
include hstages

/-- The one stage of a new run has its inputs. -/
theorem Run.next_new (hdone : x.done = []) (hgone : x.gone = []) (hgoes : x.cancelled = false) (hdeps : d.deps = []) : x.next [] = some (0, d, true) := by
  simp [Run.next, hstages, hdone, hgone, hgoes, hdeps]

/-- Once that stage is a job nothing is left to take further. -/
theorem Run.next_taken {live : List Nat} (h : 0 ∈ live) : x.next live = none := by
  simp [Run.next, hstages, h]

section
variable {s : State} {r : Nat} (hrun : Tab.get? s.u.tt.runs r = some x) (hdone : x.done = []) (hgone : x.gone = [])
  (hgoes : x.cancelled = false) (hnew : ∀ j ∈ s.u.tt.jobs, j.2.run ≠ r) (hfields : d.fields ≠ 0) (hop : d.op = none) (hchunk : d.chunk = none) (hdeps : d.deps = [])
include hrun hdone hgone hgoes hnew hfields hop hchunk hdeps

/-- A run of one stage on engines, taken further for the first time: its stage is a ready job, and that is all there is to do. -/
theorem advanceRun_oneStage : (advanceRun r).run s = (stageReady r 0 x d).run s := by
  have hfirst : s.u.tt.jobs.filter (fun e => decide (e.2.run = r)) = [] := by simpa [List.filter_eq_nil_iff] using hnew
  have hstay : (advance r 2).run ((stageReady r 0 x d).run s) = (stageReady r 0 x d).run s := by
    obtain ⟨v, hready⟩ := stageReady_run r 0 x d s
    have hmem := Tab.mem_set s.u.tt.jobs s.u.tt.nextJob (s.stageJob r 0 x d)
    have hjob : 0 ∈ ((Tab.set s.u.tt.jobs s.u.tt.nextJob (s.stageJob r 0 x d)).filter (fun e => decide (e.2.run = r))).map (fun e => e.2.stage) :=
      List.mem_map_of_mem (f := fun e : Nat × Job => e.2.stage) (List.mem_filter.2 ⟨hmem, by simp [State.stageJob]⟩)
    have hany : (Tab.set s.u.tt.jobs s.u.tt.nextJob (s.stageJob r 0 x d)).any (fun e => decide (e.2.run = r)) = true :=
      List.any_eq_true.2 ⟨_, hmem, by simp [State.stageJob]⟩
    rw [hready, advance, run_read]
    simp only [State.withTt, State.withUnits, hrun, Run.next_taken hstages hjob, State.runOver, hany, run_when]
    simp
  have hlen : 2 * x.stages.length + 1 = 2 + 1 := by simp [hstages]
  simp only [advanceRun, run_read, hrun, hlen]
  rw [advance, run_read]
  simp only [hrun, hfirst, List.map_nil, Run.next_new hstages hdone hgone hgoes hdeps, Run.chunk, hchunk, Option.map_none, hfields, false_and, Bool.false_eq_true, or_self, ↓reduceIte, hop, run_all_cons, run_all_nil,
    run_skip, hstay]

end

/-- A new run of one stage joins the runs, and its stage the jobs. -/
theorem enterRun_oneStage {s : State} (hdone : x.done = []) (hgone : x.gone = []) (hgoes : x.cancelled = false) (hnew : ∀ j ∈ s.u.tt.jobs, j.2.run ≠ s.u.tt.nextRun)
    (hfields : d.fields ≠ 0) (hop : d.op = none) (hchunk : d.chunk = none) (hdeps : d.deps = []) :
    ∃ v, (advanceRun s.u.tt.nextRun).run (s.withTt fun t => { t with runs := Tab.set t.runs t.nextRun x, nextRun := t.nextRun + 1 })
      = s.withTt fun t => { t with
        runs := Tab.set t.runs t.nextRun x, nextRun := t.nextRun + 1, vtime := v
        jobs := Tab.set t.jobs t.nextJob (s.stageJob t.nextRun 0 x d), nextJob := t.nextJob + 1 } := by
  obtain ⟨v, hready⟩ := stageReady_run s.u.tt.nextRun 0 x d (s.withTt fun t => { t with runs := Tab.set t.runs t.nextRun x, nextRun := t.nextRun + 1 })
  exact ⟨v, (advanceRun_oneStage (s := s.withTt fun t => { t with runs := Tab.set t.runs t.nextRun x, nextRun := t.nextRun + 1 }) hstages
    (by simp [State.withTt, State.withUnits]) hdone hgone hgoes hnew hfields hop hchunk hdeps).trans hready⟩

end

end Sys2Proof.Machine
end

section
/-! PROOFS. A post admitted and a post refused (R57, R58). -/

namespace Sys2Proof.Machine

/-- Nothing is left to tell in a state that has the same of everything that is told. -/
theorem quiet_congr {s t : State} (h : s.quiet) (hobj : ∀ f < 66, t.get (Obj.FALLOW_STATUS f) = s.get (Obj.FALLOW_STATUS f)) (hended : t.u.tt.ended = s.u.tt.ended)
    (hjobs : t.u.tt.endedJobs = s.u.tt.endedJobs) (hfaults : t.u.tt.engineFaults = s.u.tt.engineFaults) (htrig : t.u.tt.dueTriggers = s.u.tt.dueTriggers)
    (hfur : t.u.tt.furrows = s.u.tt.furrows) (hsafe : t.u.safe = s.u.safe) (hstr : t.u.streams = s.u.streams) (hdict : t.u.dict = s.u.dict) : t.quiet := by
  obtain ⟨h1, h2, h3, h4, h5, h6, h7, h8, h9⟩ := h
  refine ⟨hended.trans h1, hjobs.trans h2, hfaults.trans h3, htrig.trans h4, ?_, ?_, fun f hf => ?_, ?_, ?_⟩
  · rw [hsafe, h5]
  · rw [hstr]; exact h6
  · rw [hobj f hf]; exact h7 f hf
  · rw [hdict, h8]
  · rw [hfur]; exact h9

/-- Values put in a state in which nothing was sent. -/
theorem puts_begun (kvs : List (Nat × Nat)) : ∀ s : State, s.begun.puts kvs = (s.puts kvs).begun := by
  induction kvs with
  | nil => intro s; rfl
  | cons e es ih => intro s; rw [puts_cons, puts_cons, run_put_begun, ih]

section
variable {s : State} {ses n : Nat}

/-- What POSTED does to a slot that its owner fills. -/
theorem slotState_post (hst : s.get (Obj.STATE n) = 1) (hown : s.get (Obj.OWNER_SESSION n) = ses) : slotState ses n 2 s = .ok (post ses n) := by
  simp [slotState, hst, hown]

/-- A post is the guarded write, admitted. -/
theorem exec_slotPost (hses : ses < 16) (hn : n < 4096) (hst : s.get (Obj.STATE n) = 1) (hown : s.get (Obj.OWNER_SESSION n) = ses)
    (hadm : s.admits ses (Obj.STATE n) 2 .host) : exec (.slotPost ses n) s = .next (((post ses n).run s.begun).also (replies ses 0)) := by
  have hunits : Wf.slotPost ses n = true := by simp [Wf.slotPost, hses, hn]
  exact exec_guarded_takes hunits rfl hadm (slotState_post (s := s.begun) hst hown)

/-- The run that a post of slot `n` makes of entry `e`. -/
def State.postedRun (s : State) (n : Nat) (e : Entry) : Run where
  owner := .slot n
  ctx := s.get (Obj.CONTEXT n)
  prog := s.get (Obj.PROGRAM n)
  entry := s.get (Obj.ENTRY n)
  stages := e.stages
  cls := if bit (s.get (Obj.FLAGS n)) 3 then 3 else s.get (Obj.CTX_CLASS (s.get (Obj.CONTEXT n)))
  strict := bit (s.get (Obj.FLAGS n)) 0
  posted := s.time
  tov := s.ns
  tovFrac := s.frac
  tag := s.get (Obj.USER_TAG n)
  seq := s.get (Obj.SEQUENCE n)
  args := s.slotArgs n
  demoted := bit (s.get (Obj.FLAGS n)) 3

/-- A unit that declares no semaphores is bound without any. -/
theorem bindSems_none {c h : Nat} (hsems : ∀ u, s.unit h = some u → u.sems = []) : (bindSems c h).run s = s := by
  rw [bindSems, run_read]
  cases hu : s.unit h with
  | none => rfl
  | some u => simp [hsems u hu]

/-- A post of a one-stage entry that runs by itself: its run, and its stage as a ready job. -/
theorem postRun_oneStage {e : Entry} {d : Decl} (hentry : s.entryOf (s.get (Obj.PROGRAM n)) (s.get (Obj.ENTRY n)) = some e) (hstages : e.stages = [d])
    (hfields : d.fields ≠ 0) (hop : d.op = none) (hchunk : d.chunk = none) (hdeps : d.deps = [])
    (hsems : ∀ u, s.unit (s.get (Obj.PROGRAM n)) = some u → u.sems = []) (hnew : ∀ j ∈ s.u.tt.jobs, j.2.run ≠ s.u.tt.nextRun) :
    ∃ v, (postRun n).run s = s.withTt fun t => { t with
      runs := Tab.set t.runs t.nextRun (s.postedRun n e), nextRun := t.nextRun + 1, vtime := v
      jobs := Tab.set t.jobs t.nextJob (s.stageJob t.nextRun 0 (s.postedRun n e) d), nextJob := t.nextJob + 1 } := by
  obtain ⟨v, hready⟩ := enterRun_oneStage (s := s) (x := s.postedRun n e) hstages rfl rfl rfl hnew hfields hop hchunk hdeps
  refine ⟨v, Eq.trans ?_ hready⟩
  simp only [postRun, run_read, hentry, run_all_cons, run_all_nil, bindSems_none hsems]
  rfl

/-- The post's number in its slot is counted before the post is checked. -/
def State.postCounted (s : State) (n : Nat) : State := s.putObj (Obj.SEQUENCE n) ((s.get (Obj.SEQUENCE n) + 1) % 2 ^ 32)

/-- An admitted post where no furrow is armed runs by itself. -/
theorem post_admitted (hpass : (s.postCounted n).postRefused ses n = none) (harm : s.armed = []) :
    (post ses n).run s = ((postRun n).run ((s.postCounted n).putObj (Obj.STATE n) 2)).told := by
  have hnone : (s.postCounted n).armed = [] := by
    have hmask (m : Nat) (hm : m < 4) : (s.postCounted n).get (Obj.ARMED_MASK m) = s.get (Obj.ARMED_MASK m) := by
      rw [State.postCounted, putObj_get, if_neg (by unfold Obj.ARMED_MASK Obj.SEQUENCE; omega)]
    rw [← harm]
    refine List.flatMap_congr fun m hm => ?_
    rw [hmask m (List.mem_range.1 hm)]
  have hwrap : (Act.wrap 32 (Obj.SEQUENCE n) 1).run s = s.postCounted n := rfl
  simp only [post, run_all_cons, run_all_nil, hwrap, run_read, hpass, hnone, List.filter_nil, postTo]
  rfl

/-- A refused one completes at once. -/
theorem post_refused {st d : Nat} (href : (s.postCounted n).postRefused ses n = some (st, d)) :
    (post ses n).run s = ((slotComplete n 4 (completionRecord ((s.postCounted n).get (Obj.SEQUENCE n)) st 4 0 ((s.postCounted n).get (Obj.USER_TAG n)) s.time s.time n d
      0 0 0 0)).run (s.postCounted n)).told := by
  have hwrap : (Act.wrap 32 (Obj.SEQUENCE n) 1).run s = s.postCounted n := rfl
  simp only [post, run_all_cons, run_all_nil, hwrap, run_read, href]
  rfl

/-- A slot whose completion goes neither to the host's memory nor to a vector takes the record in its objects. -/
theorem slotComplete_own {final : Nat} {r : List Byte} (hmsix : bit (s.get (Obj.FLAGS n)) 1 = false) (hhost : bit (s.get (Obj.FLAGS n)) 2 = false) :
    (slotComplete n final r).run s = (s.puts ((List.range 8).map fun i => (Obj.COMPLETION n 0 + i, ofLe ((r.drop (8 * i)).take 8)))).puts [(Obj.STATE n, final)] := by
  simp only [slotComplete, run_read, run_all_cons, run_all_nil, hmsix, hhost, Bool.false_and, run_when]
  rfl

end

/-- Settles O13: an admitted post is a run with its one stage ready, and there is nothing to tell; a refused one completes in its record. -/
theorem postsRun : Obligations.PostsRun := by
  unfold Obligations.PostsRun
  intro s ses n hses hn hst hown hadm hquiet p
  have hexec := exec_slotPost hses hn hst hown hadm
  refine ⟨fun e d hpass harm hentry hstages hfields hop hchunk hdeps hsems hnew => ?_, fun st d href hmsix hhost => ?_⟩
  · let q := (p.putObj (Obj.STATE n) 2).begun
    have hget (k : Nat) (h1 : k ≠ Obj.STATE n) (h2 : k ≠ Obj.SEQUENCE n) : q.get k = s.get k := by
      show ((s.putObj _ _).putObj _ _).get k = _
      rw [putObj_get, if_neg h1, putObj_get, if_neg h2]
    have hprog : q.get (Obj.PROGRAM n) = s.get (Obj.PROGRAM n) := hget _ (by simp) (by simp)
    have hent : q.get (Obj.ENTRY n) = s.get (Obj.ENTRY n) := hget _ (by simp) (by simp)
    have hctx : q.get (Obj.CONTEXT n) = s.get (Obj.CONTEXT n) := hget _ (by simp) (by simp)
    have hflags : q.get (Obj.FLAGS n) = s.get (Obj.FLAGS n) := hget _ (by simp) (by simp)
    have hcls (c : Nat) : q.get (Obj.CTX_CLASS c) = s.get (Obj.CTX_CLASS c) :=
      hget _ (by unfold Obj.CTX_CLASS Obj.STATE; omega) (by unfold Obj.CTX_CLASS Obj.SEQUENCE; omega)
    obtain ⟨v, hpost⟩ := postRun_oneStage (s := q) (n := n) (e := e) (d := d) (by rw [hprog, hent]; exact hentry) hstages hfields hop hchunk hdeps
      (by rw [hprog]; exact hsems) hnew
    let t := q.withTt fun t => { t with
      runs := Tab.set t.runs t.nextRun (q.postedRun n e), nextRun := t.nextRun + 1, vtime := v
      jobs := Tab.set t.jobs t.nextJob (q.stageJob t.nextRun 0 (q.postedRun n e) d), nextJob := t.nextJob + 1 }
    have hrest : t.quiet := quiet_congr hquiet (fun f hf =>
      hget _ (by unfold Obj.FALLOW_STATUS Obj.STATE; omega) (by unfold Obj.FALLOW_STATUS Obj.SEQUENCE; omega)) rfl rfl rfl rfl rfl rfl rfl rfl
    have hran : (post ses n).run s.begun = t := by
      rw [post_admitted (s := s.begun) hpass harm]
      exact (congrArg State.told hpost).trans (told_quiet hrest)
    rw [hran] at hexec
    refine ⟨_, hexec, rfl, rfl, rfl, rfl, q.stageJob s.u.tt.nextRun 0 (q.postedRun n e) d, ?_, rfl, rfl, rfl, rfl, hctx, ?_, rfl⟩
    · exact (Tab.get?_set ..).trans (if_pos rfl)
    · show (if bit (q.get _) 3 then 3 else q.get (Obj.CTX_CLASS (q.get _))) = _
      rw [hflags, hctx, hcls]
  · have htag : p.get (Obj.USER_TAG n) = s.get (Obj.USER_TAG n) := by simp [p]
    have hfl (b : Nat) (h : bit (s.get (Obj.FLAGS n)) b = false) : bit ((s.begun.postCounted n).get (Obj.FLAGS n)) b = false := by simpa [State.postCounted] using h
    have hrest (r : List Byte) : ((s.postCounted n).puts ((List.range 8).map fun i => (Obj.COMPLETION n 0 + i, ofLe ((r.drop (8 * i)).take 8)))
        |>.puts [(Obj.STATE n, 4)]).quiet := by
      refine quiet_congr hquiet (fun f hf => ?_) ?_ ?_ ?_ ?_ ?_ ?_ ?_ ?_
      · rw [puts_get_of_not_mem, puts_get_of_not_mem, State.postCounted, putObj_get, if_neg (by unfold Obj.FALLOW_STATUS Obj.SEQUENCE; omega)]
        · simp only [List.mem_map, List.mem_range]
          rintro _ ⟨i, hi, rfl⟩
          unfold Obj.FALLOW_STATUS Obj.COMPLETION
          omega
        · simp only [List.mem_singleton]
          rintro _ rfl
          unfold Obj.FALLOW_STATUS Obj.STATE
          omega
      all_goals rw [puts_u, puts_u]; rfl
    have hran := post_refused (s := s.begun) href
    rw [slotComplete_own (hfl 1 hmsix) (hfl 2 hhost), show s.begun.postCounted n = (s.postCounted n).begun from rfl, puts_begun, puts_begun,
      begun_get, begun_get, show (s.postCounted n).get (Obj.USER_TAG n) = s.get (Obj.USER_TAG n) from htag] at hran
    rw [hexec, hran, told_quiet ((begun_quiet _).mpr (hrest _)), begun_also]
    rfl

end Sys2Proof.Machine
end

section
/-! PROOFS. Furrow commands and accepted triggers (R208 to R213). -/

namespace Sys2Proof.Machine

/-- A command that is one guarded write and what it leaves told, admitted and in range, whose object takes it with act `a`. -/
theorem exec_guarded_told {s : State} {c : Bool} {ses k v : Nat} {l : Lvl} {r : Bool} {body : State → WriteRes} {a : Act} (hc : c = true) (hr : r = true)
    (h : s.admits ses k v l) (hb : body s.begun = .ok a) :
    need c s (.all [guarded ses k v l r body, settle]) = .next ((a.run s.begun).also (replies ses 0)).told := by
  subst hr
  rw [need_told s hc, guarded_admitted ((begun_admits ..).mpr h), hb, run_answer_ok]

@[simp] theorem run_furrow_get (s : State) (f k : Nat) (g : Furrow → Furrow) : ((Act.furrow f g).run s).get k = s.get k := rfl
@[simp] theorem run_furrow_furrow (s : State) (f n : Nat) (g : Furrow → Furrow) :
    ((Act.furrow f g).run s).furrow n = if n = f then g (s.furrow f) else s.furrow n := by
  simp [Act.furrow, Act.tt, State.furrow]

/-- Two slots, a furrow's record, and where `x` is not 0 two slots more. -/
theorem run_armed (s : State) (f k₁ v₁ k₂ k₃ v₃ k₄ v₄ x : Nat) (m : Nat → Nat) (g : Furrow → Furrow) (es : List Emit) :
    ((Act.all [.put k₁ v₁, .modify k₂ m, .furrow f g, .when (x != 0) (.all [.put k₃ v₃, .put k₄ v₄])]).run s.begun).also es
      = (((s.puts [(k₁, v₁), (k₂, m ((s.putObj k₁ v₁).get k₂))]).puts (if x = 0 then [] else [(k₃, v₃), (k₄, v₄)])).withTt fun t => { t with
        furrows := Tab.upd t.furrows f {} g }).sending es := by
  by_cases hx : x = 0
  · subst hx; rfl
  · simp only [hx, ↓reduceIte, bne_iff_ne, ne_eq, not_false_eq_true, run_all_cons, run_all_nil, run_when]
    rfl

/-- Live slots that take values in turn. -/
theorem run_each_puts {α : Type} (k v : α → Nat) (xs : List α) : ∀ s : State, (Act.each xs fun x => .put (k x) (v x)).run s = s.puts (xs.map fun x => (k x, v x)) := by
  induction xs with
  | nil => intro s; rfl
  | cons x xs ih => intro s; rw [run_each_cons, ih, List.map_cons, puts_cons]

/-! ## Commands -/

section
variable {s : State} {f : Nat}

/-- What arming a STOPPED furrow of an open context does. -/
theorem furrowCommand_arm (hst : s.get (Obj.FURROW_STATE f) = 1) (hctx : s.get (Obj.CTX_STATE (s.get (Obj.F_CONTEXT f))) = 1) :
    furrowCommand f 1 s = .ok (.all [
      .put (Obj.FURROW_STATE f) 2, .modify (Obj.ARMED_MASK (f / 64)) (fun m => setBit m (f % 64)),
      .furrow f (fun x => { x with sinceFiring := 0, ports := 0, portTov := none, goldenLost := true }),
      .when (s.get (Obj.GOLDEN_EVERY f) != 0) (.all [.put (Obj.GOLDEN_STATUS f) 0, .put (Obj.GOLDEN_FIRING f) 0xFFFFFFFFFFFFFFFF])]) := by
  simp [furrowCommand, hst, hctx]

theorem furrowCommand_stop (hst : s.get (Obj.FURROW_STATE f) = 2) :
    furrowCommand f 2 s = .ok (.all [.furrow f (fun x => { x with stopping := true }), furrowSettle f]) := by
  simp [furrowCommand, hst]

theorem furrowCommand_clear (hst : s.get (Obj.FURROW_STATE f) = 1) :
    furrowCommand f 3 s = .ok (.all [
      .put (Obj.FURROW_STATE f) 0, .each furrowGroup fun i => .put (Obj.FURROW_STATE f - 1 + i) (Obj.reset (Obj.FURROW_STATE f - 1 + i))]) := by
  simp only [furrowCommand]
  rw [if_neg (by decide), if_neg (by decide), if_pos hst]

/-- Ending a cause changes the island's record and `ACTIVE_CAUSES`. -/
theorem clearCause_within {A : Part → Prop} {R : (Units → Units) → Prop} (b i : Nat) (hact : A (.obj Obj.ACTIVE_CAUSES)) (hsafe : ∀ g, (Act.safe g).Within A R) :
    (clearCause b i).Within A R := by
  simp [clearCause, hact, hsafe]

/-- A furrow with firings left goes on. -/
theorem furrowSettle_waits (h : (s.furrow f).live ≠ [] ∨ (s.furrow f).queue ≠ []) : (furrowSettle f).run s = s := by
  have hleft : ((s.furrow f).stopping && (s.furrow f).live.isEmpty && (s.furrow f).queue.isEmpty) = false := by
    rcases h with h | h <;> simp [h]
  simp only [furrowSettle, run_read, hleft, run_when]
  rfl

/-- One that is to stop and has none left stops. -/
theorem furrowSettle_stops (hstop : (s.furrow f).stopping = true) (hlive : (s.furrow f).live = []) (hqueue : (s.furrow f).queue = []) :
    (furrowSettle f).run s = (Act.all [.furrow f (fun y => { y with stopping := false }), .put (Obj.FURROW_STATE f) 1,
      .modify (Obj.ARMED_MASK (f / 64)) (fun m => clearBit m (f % 64)), clearCause 6 f]).run s := by
  simp only [furrowSettle, run_read, hstop, hlive, hqueue, List.isEmpty_nil, Bool.and_self, run_when, ↓reduceIte]

theorem furrowSettle_within {A : Part → Prop} {R : (Units → Units) → Prop} (hobj : ∀ k, A (.obj k)) (htt : ∀ g, (Act.tt g).Within A R)
    (hsafe : ∀ g, (Act.safe g).Within A R) : (furrowSettle f).Within A R := by
  have hfur (g : Furrow → Furrow) : (Act.furrow f g).Within A R := htt _
  simp [furrowSettle, clearCause_within, hobj, hfur, hsafe]

end

/-! ## Triggers -/

/-- A firing of one stage, where no golden run is due: counted, in its furrow's queue, its stage a ready job. -/
theorem makeFiring_oneStage {s : State} {f : Nat} (tov frac : Nat) {e : Entry} {d : Decl}
    (hgold : s.get (Obj.GOLDEN_EVERY f) = 0) (hcount : s.get (Obj.FIRINGS f) + 1 < 2 ^ 64)
    (hentry : s.entryOf (s.get (Obj.F_PROGRAM f)) (s.get (Obj.F_ENTRY f)) = some e) (hstages : e.stages = [d]) (hfields : d.fields ≠ 0) (hop : d.op = none)
    (hchunk : d.chunk = none) (hdeps : d.deps = []) (hnew : ∀ j ∈ s.u.tt.jobs, j.2.run ≠ s.u.tt.nextRun) :
    ∃ x v, x.tov = tov ∧ x.tovFrac = frac ∧ x.owner = .firing f (s.get (Obj.FIRINGS f) + 1) ∧ x.ctx = s.get (Obj.F_CONTEXT f)
      ∧ (makeFiring f tov frac false).run s = (s.putObj (Obj.FIRINGS f) (s.get (Obj.FIRINGS f) + 1)).withTt fun t => { t with
        runs := Tab.set t.runs t.nextRun x, nextRun := t.nextRun + 1, furrows := Tab.upd t.furrows f {} fun y => { y with queue := y.queue ++ [t.nextRun] }
        vtime := v, jobs := Tab.set t.jobs t.nextJob (s.stageJob t.nextRun 0 x d), nextJob := t.nextJob + 1 } := by
  let x : Run := {
    owner := .firing f (s.get (Obj.FIRINGS f) + 1), ctx := s.get (Obj.F_CONTEXT f), prog := s.get (Obj.F_PROGRAM f), entry := s.get (Obj.F_ENTRY f)
    stages := e.stages, cls := s.get (Obj.CTX_CLASS (s.get (Obj.F_CONTEXT f))), posted := s.time, tov := tov, tovFrac := frac, binds := s.bound f
    tag := tov, seq := (s.get (Obj.FIRINGS f) + 1) % 4294967296, args := s.bound f }
  let q := (s.putObj (Obj.FIRINGS f) (s.get (Obj.FIRINGS f) + 1)).withTt fun t => { t with
    runs := Tab.set t.runs t.nextRun x, nextRun := t.nextRun + 1, furrows := Tab.upd t.furrows f {} fun y => { y with queue := y.queue ++ [t.nextRun] } }
  have hadv : (advanceRun s.u.tt.nextRun).run q = (stageReady s.u.tt.nextRun 0 x d).run q :=
    advanceRun_oneStage hstages ((Tab.get?_set ..).trans (if_pos rfl)) rfl rfl rfl hnew hfields hop hchunk hdeps
  obtain ⟨v, hready⟩ := stageReady_run s.u.tt.nextRun 0 x d q
  have hwant : q.stageJob s.u.tt.nextRun 0 x d = s.stageJob s.u.tt.nextRun 0 x d := by
    have hget : q.get (Obj.PREFERRED_MV x.ctx) = s.get (Obj.PREFERRED_MV x.ctx) := by
      show (s.putObj _ _).get _ = _
      rw [putObj_get, if_neg]
      unfold Obj.PREFERRED_MV Obj.FIRINGS
      omega
    simp only [State.stageJob, hget]
    rfl
  have hnone : (goldenDue f (s.get (Obj.FIRINGS f) + 1) e).run (s.putObj (Obj.FIRINGS f) (s.get (Obj.FIRINGS f) + 1))
      = s.putObj (Obj.FIRINGS f) (s.get (Obj.FIRINGS f) + 1) := by
    have hg : (s.putObj (Obj.FIRINGS f) (s.get (Obj.FIRINGS f) + 1)).get (Obj.GOLDEN_EVERY f) = 0 := by simp [hgold]
    rw [goldenDue, run_read, hg, if_pos (.inl rfl), run_skip]
  have hbit (b : Nat) : bit 0 b = false := by simp [bit]
  refine ⟨x, v, rfl, rfl, rfl, rfl, ?_⟩
  calc (makeFiring f tov frac false).run s = (advanceRun s.u.tt.nextRun).run q := by
        simp only [makeFiring, run_read, hentry, run_all_cons, run_all_nil, run_count s hcount, Option.map_none, Option.getD_none, hbit, Bool.false_eq_true, ↓reduceIte]
        rw [← putObj_run, hnone]
        rfl
    _ = _ := by
        rw [hadv, hready, hwant]
        rfl

/-- An accepted trigger where no group waits, none is to be divided away and nothing is queued makes a firing. -/
theorem trigger_fires {s : State} {f : Nat} (tov frac : Nat) (hst : s.get (Obj.FURROW_STATE f) = 2) (hstop : (s.furrow f).stopping = false) (hdev : s.dev ≠ Dev.HOLD)
    (hpend : s.u.dict.pendingGroups = []) (hsince : (s.furrow f).sinceFiring = 0) (hqueue : (s.furrow f).queue = []) :
    (trigger f tov frac false).run s = (makeFiring f tov frac false).run ((Act.furrow f fun x => { x with
      sinceFiring := if 0 + 1 < s.get (Obj.TRIGGER_DIVIDER f) then 0 + 1 else 0 }).run s) := by
  have hgo : ¬ (s.get (Obj.FURROW_STATE f) ≠ 2 ∨ (s.furrow f).stopping = true) := by simp [hst, hstop]
  have hkeep : ¬ (s.dev = Dev.HOLD ∧ ¬ s.kept f = true) := fun h => hdev h.1
  have hframe : (frameBoundary f).run s = s := by
    rw [frameBoundary, run_read, hpend]
    rfl
  rw [trigger, run_read, if_neg hgo, if_neg hkeep, run_all_cons, hframe, run_all_cons, run_all_nil, run_read]
  simp only [hsince, ne_eq, not_true_eq_false, ↓reduceIte, hqueue, run_all_cons, run_all_nil]

/-- Settles O26: the commands as guarded writes; an accepted trigger with nothing queued makes its firing. -/
theorem furrowsArmAndFire : Obligations.FurrowsArmAndFire := by
  unfold Obligations.FurrowsArmAndFire
  constructor
  · intro s ses hses f hf
    refine ⟨fun hadm hst hctx => ?_, fun hadm hst => ?_, fun hadm hst => ?_⟩
    · have hunits : Wf.furrowArm ses = true := by simp [Wf.furrowArm, hses]
      refine (exec_guarded_told hunits rfl hadm (furrowCommand_arm (s := s.begun) hst hctx)).trans (congrArg (fun t => Host.Outcome.next (State.told t)) ?_)
      rw [run_armed, putObj_get, if_neg (by unfold Obj.ARMED_MASK Obj.FURROW_STATE; omega)]
      rfl
    · have hunits : Wf.furrowStop ses = true := by simp [Wf.furrowStop, hses]
      have hexec := exec_guarded_told hunits rfl hadm (furrowCommand_stop (s := s.begun) hst)
      rw [run_all_cons, run_all_cons, run_all_nil] at hexec
      have hrec : ((Act.furrow f fun x => { x with stopping := true }).run s.begun).furrow f = { s.furrow f with stopping := true } := by
        rw [run_furrow_furrow, if_pos rfl]
        rfl
      refine ⟨_, hexec, ?_, ?_, ?_, fun ⟨hlive, hqueue⟩ => ?_, fun h => ?_⟩
      · rw [also_out, Act.Spares.out _ (furrowSettle_within (by simp) (fun _ => trivial) fun _ => trivial)]
        rfl
      · rw [also_bytes, Act.Spares.bytes _ (furrowSettle_within (by simp) (fun _ => trivial) fun _ => trivial)]
        rfl
      · rw [also_log, Act.Spares.log _ (furrowSettle_within (by simp) (fun _ => trivial) fun _ => trivial)]
        rfl
      · rw [furrowSettle_stops (by rw [hrec]) (by rw [hrec]; exact hlive) (by rw [hrec]; exact hqueue)]
        have hclear : (clearCause 6 f).Spares (.obj (Obj.FURROW_STATE f)) :=
          clearCause_within 6 f (by simp only [ne_eq, Part.obj.injEq]; unfold Obj.ACTIVE_CAUSES Obj.FURROW_STATE; omega) fun _ => trivial
        have hfur : (clearCause 6 f).SparesUnit fun u => u.tt.furrows := clearCause_within 6 f trivial fun _ _ => rfl
        rw [run_all_cons, run_all_cons, run_all_cons, run_all_cons, run_all_nil, also_get, hclear.get, run_modify, run_put_get,
          if_neg (by unfold Obj.ARMED_MASK Obj.FURROW_STATE; omega), run_put_get, if_pos rfl]
        refine ⟨rfl, ?_⟩
        rw [State.furrow, also_u, hfur.unit, run_put_u, run_put_u]
        exact congrArg Furrow.stopping ((run_furrow_furrow ..).trans (if_pos rfl))
      · rw [furrowSettle_waits (by rw [hrec]; exact h)]
        exact ⟨rfl, congrArg Furrow.stopping hrec⟩
    · have hunits : Wf.furrowClear ses = true := by simp [Wf.furrowClear, hses]
      refine (exec_guarded_takes hunits rfl hadm (furrowCommand_clear (s := s.begun) hst)).trans (congrArg Host.Outcome.next ?_)
      rw [run_all_cons, run_all_cons, run_all_nil, run_each_puts, run_put_begun, puts_begun, begun_also, puts_cons]
  · intro s f tov frac e d hf hfrac hst hstop hdev hpend hsince hqueue hgold hcount hentry hstages hfields hop hchunk hdeps hnew
    refine ⟨?_, fun k hkind hper => ?_⟩
    · have hunits : Wf.furrowTrigger f tov frac false = true := by simp [Wf.furrowTrigger, hf]
      let q := (Act.furrow f fun x => { x with sinceFiring := if 0 + 1 < s.get (Obj.TRIGGER_DIVIDER f) then 0 + 1 else 0 }).run s.begun
      obtain ⟨x, v, htov, hfrac', howner, hctx, hmake⟩ := makeFiring_oneStage (s := q) (f := f) tov frac hgold hcount hentry hstages hfields hop hchunk hdeps hnew
      have hran := (trigger_fires (s := s.begun) tov frac hst hstop hdev hpend hsince hqueue).trans hmake
      refine ⟨_, (need_told s hunits _).trans (congrArg (fun t => Host.Outcome.next (State.told t)) hran), ?_, ?_, fun k hk => ?_, rfl, rfl, rfl, ⟨x, ?_, htov, hfrac', howner⟩,
        q.stageJob s.u.tt.nextRun 0 x d, ?_, rfl, rfl, rfl, hctx⟩
      · show (q.putObj _ _).get _ = _
        rw [putObj_get, if_pos rfl]
        exact Nat.mod_eq_of_lt hcount
      · have hq : (q.furrow f).queue = [] := (congrArg Furrow.queue ((run_furrow_furrow ..).trans (if_pos rfl))).trans hqueue
        have hadd := congrArg Furrow.queue ((Tab.at_upd q.u.tt.furrows f (fun y => { y with queue := y.queue ++ [q.u.tt.nextRun] }) {} f).trans (if_pos rfl))
        exact hadd.trans (congrArg (· ++ [s.u.tt.nextRun]) hq)
      · show (q.putObj _ _).get _ = _
        rw [putObj_get, if_neg hk]
        rfl
      · exact (Tab.get?_set ..).trans (if_pos rfl)
      · exact (Tab.get?_set ..).trans (if_pos rfl)
    · have htick : Wf.tickTrigger f k = true := by simp [Wf.tickTrigger, hf]
      have htrig : Wf.furrowTrigger f (s.get (Obj.TRIGGER_PHASE_NS f) + k * s.get (Obj.TRIGGER_PERIOD_NS f)) 0 false = true := by simp [Wf.furrowTrigger, hf]
      have hdue : (s.get (Obj.TRIGGER_KIND f) == 2 && s.get (Obj.TRIGGER_PERIOD_NS f) != 0) = true := by simp [hkind, hper]
      refine (need_read_told s htick _).trans (Eq.trans ?_ (need_told s htrig _).symm)
      rw [run_when, begun_get, begun_get, begun_get, if_pos hdue]

end Sys2Proof.Machine
end

section
/-! PROOFS. What the memory system's operations on tiles may touch. -/

namespace Sys2Proof.Machine

section
variable {A : Part → Prop} {R : (Units → Units) → Prop}

theorem Part.obj_ne {j k : Nat} (h : j ≠ k) : Part.obj j ≠ Part.obj k := fun e => h (Part.obj.inj e)

/-- A counter writes its object, or draws a free value for it. -/
theorem within_count (w k n : Nat) (hk : A (.obj k)) (hctr : A .ctr) : (Act.count w k n).Within A R := by
  simp [Act.count, hk, hctr]

/-- Of the dictionary engine's record a logged event keeps the list of PENDING groups. -/
theorem logEv_pendingGroups (code inst d0 d1 : Nat) : (logEv code inst d0 d1).SparesUnit fun u => u.dict.pendingGroups := by
  simp only [logEv, logEnter, logSends, within_all_cons, within_all_nil, within_log, within_when, within_logNotes, within_read]
  refine ⟨by simp, fun s => ?_, trivial⟩
  split
  · trivial
  · simp [sendNotify, Act.ses, msixRaise, msixSend, Act.dict]

theorem pokeHome_within (t gen : Nat) (h : Home) (tag data : List Byte) (hbytes : A .bytes) (hout : A .out) (hmem : ∀ f, (Act.mem f).Within A R) :
    (pokeHome t gen h tag data).Within A R := by
  cases h <;> simp [pokeHome, hbytes, hout, hmem]

theorem zeroHome_within (t c : Nat) (h : Home) (hbytes : A .bytes) (hout : A .out)
    (hmem : ∀ n, (Act.mem fun m => { m with leaseCtr := Tab.upd m.leaseCtr n 0 (· + 1) }).Within A R) : (zeroHome t c h).Within A R := by
  have hlast (s : State) : (match h with
      | .slot _ => Act.skip
      | .lease n k => .all [
          .emit (.frame (.peerWrite n k) (s.sealedSlot n t 0 (ownerTag c) (List.replicate 4096 0))),
          .mem fun m => { m with leaseCtr := Tab.upd m.leaseCtr n 0 (· + 1) }]).Within A R := by
    cases h
    · trivial
    · simp only [within_all_cons, within_all_nil, within_emit, hout, hmem, and_self]
  simp only [zeroHome, within_read, within_all_cons, within_all_nil, within_wipe, within_poke, hbytes, true_and, and_true]
  exact hlast

section
variable (hbytes : A .bytes) (hout : A .out) (hctr : A .ctr) (haborts : A (.obj Obj.MIGRATE_ABORTS)) (hmoved : A (.obj Obj.BYTES_MIGRATED))
  (hmem : ∀ f, (Act.mem f).Within A R) (hfields : ∀ f : Tab FieldS → Tab FieldS, R fun u => { u with fields := f u.fields })
  (hlog : ∀ code inst d0 d1, (logEv code inst d0 d1).Within A R)
include hmem

theorem tile_within (t : Nat) (f : Tile → Tile) : (Act.tile t f).Within A R := hmem _

include hfields in
theorem freeTile_within (t : Nat) : (freeTile t).Within A R := by
  have hcopies := hfields fun x => x.map fun e => (e.1, { e.2 with copies := e.2.copies.filter (· != t) })
  simp [freeTile, hmem, hcopies]

include hbytes hout

include hfields in
theorem freeRun_within (base count : Nat) : (freeRun base count).Within A R := by
  simp only [freeRun, within_read, within_each]
  intro s i _
  split
  · simp only [within_all_cons, within_all_nil, zeroHome_within _ _ _ hbytes hout fun n => hmem _, freeTile_within hmem hfields, true_and, and_true]
    split
    · exact zeroHome_within _ _ _ hbytes hout fun n => hmem _
    · trivial
  · trivial

include hctr hmoved in
theorem seed_within (t : Nat) : (seed t).Within A R := by
  simp only [seed, within_read]
  intro s
  split
  · trivial
  · split
    · trivial
    · split
      · simp [hmem, tile_within hmem, pokeHome_within _ _ _ _ _ hbytes hout hmem, within_count _ _ _ hmoved hctr]
      · trivial

omit hbytes hout in
include hlog in
theorem homeFails_within (t detail : Nat) : (homeFails t detail).Within A R := by
  simp only [homeFails, within_read]
  intro s
  split
  · trivial
  · split
    · trivial
    · split <;> simp [tile_within hmem, hlog]

include hctr haborts hmoved hfields hlog

theorem storeTile_within (t : Nat) (tag body : List Byte) (whole : Bool) : (storeTile t tag body whole).Within A R := by
  simp only [storeTile, within_read]
  intro s
  split
  · trivial
  · rename_i x _
    have hcopies := hfields fun y => y.map fun e => (e.1, { e.2 with copies := e.2.copies.filter (· != t) })
    simp only [within_all_cons, within_all_nil, within_when, within_count _ _ _ haborts hctr, tile_within hmem, pokeHome_within _ _ _ _ _ hbytes hout hmem, within_units,
      hcopies, seed_within hbytes hout hctr hmoved hmem, homeFails_within hmem hlog, implies_true, true_and, and_true]
    cases x.replica with
    | none => trivial
    | some r => exact pokeHome_within _ _ _ _ _ hbytes hout hmem

theorem pokeTile_within (t offset : Nat) (bs : List Byte) : (pokeTile t offset bs).Within A R := by
  simp only [pokeTile, within_read]
  intro s
  split
  · trivial
  · simp [storeTile_within hbytes hout hctr haborts hmoved hmem hfields hlog]

variable (hseqs : ∀ f, (Act.seqs f).Within A R)

theorem pokeSeq_within (key : Nat) : (pokeSeq key).Within A R := by
  simp only [pokeSeq, within_read]
  intro s
  split
  · exact pokeTile_within hbytes hout hctr haborts hmoved hmem hfields hlog _ _ _
  · trivial

include hseqs in
theorem freeSeq_within (key : Nat) : (freeSeq key).Within A R := by
  simp only [freeSeq, within_read]
  intro s
  split
  · trivial
  · simp only [within_all_cons, within_all_nil, within_each, freeTile_within hmem hfields, pokeSeq_within hbytes hout hctr haborts hmoved hmem hfields hlog, implies_true,
      and_true, true_and]
    exact hseqs _

end

end

end Sys2Proof.Machine
end

section
/-! PROOFS. Contexts open, close and clear (R193, R197, R202). -/

namespace Sys2Proof.Machine

/-! ## What a context's close does to the tiles -/

theorem Tab.get?_ne_none {α : Type} {t : Tab α} {e : Nat × α} (h : e ∈ t) : Tab.get? t e.1 ≠ none := by
  induction t with
  | nil => simp at h
  | cons x t ih =>
    obtain ⟨i, b⟩ := x
    rw [Tab.get?]
    split_ifs with hi
    · simp
    · rcases List.mem_cons.1 h with rfl | h
      · exact absurd rfl hi
      · exact ih h

/-- Zeroing a home keeps the table of tiles. -/
theorem zeroHome_tiles (t c : Nat) (h : Home) (s : State) : ((zeroHome t c h).run s).u.mem.tiles = s.u.mem.tiles :=
  Act.SparesUnit.unit (f := fun u => u.mem.tiles) s (zeroHome_within t c h trivial trivial fun _ _ => rfl)

/-- Tile `k`'s homes zeroed, and its number freed: its entry is gone, and no other comes. -/
theorem freeRun_one_tiles {k : Nat} {s : State} {e : Nat × Tile} (h : e ∈ ((freeRun k 1).run s).u.mem.tiles) : e ∈ s.u.mem.tiles ∧ e.1 ≠ k := by
  have hone : (freeRun k 1).run s = (match Tab.get? s.u.mem.tiles k with
    | some x => Act.all [zeroHome k x.ctx x.home,
        match x.replica with
          | some r => zeroHome k x.ctx r
          | none => .skip,
        freeTile k]
    | none => Act.skip).run s := rfl
  rw [hone] at h
  cases hx : Tab.get? s.u.mem.tiles k with
  | none =>
    rw [hx] at h
    exact ⟨h, fun hk => Tab.get?_ne_none h (hk ▸ hx)⟩
  | some x =>
    have hfree (q : State) : ((freeTile k).run q).u.mem.tiles = Tab.del q.u.mem.tiles k := rfl
    rw [hx] at h
    simp only [run_all_cons, run_all_nil, hfree] at h
    have hsame : (Act.run (match x.replica with
        | some r => zeroHome k x.ctx r
        | none => .skip) ((zeroHome k x.ctx x.home).run s)).u.mem.tiles = s.u.mem.tiles := by
      split
      · rw [zeroHome_tiles, zeroHome_tiles]
      · rw [run_skip, zeroHome_tiles]
    rw [hsame, Tab.del, List.mem_filter] at h
    exact ⟨h.1, by simpa using h.2⟩

/-- A tile of a context that closes is zeroed and freed (R197). -/
def freeCtxTile (c : Nat) (e : Nat × Tile) : Act := .all [
  zeroHome e.1 c e.2.home,
  match e.2.replica with
    | some r => zeroHome e.1 c r
    | none => .skip,
  freeRun e.1 1]

/-- All its tiles are. -/
def freeCtxTiles (c : Nat) : Act := .read fun s => .each (s.u.mem.tiles.filter (fun e => e.2.ctx == c)) (freeCtxTile c)

theorem freeCtxTile_tiles {c : Nat} {x : Nat × Tile} {s : State} {e : Nat × Tile} (h : e ∈ ((freeCtxTile c x).run s).u.mem.tiles) : e ∈ s.u.mem.tiles ∧ e.1 ≠ x.1 := by
  simp only [freeCtxTile, run_all_cons, run_all_nil] at h
  obtain ⟨h, hne⟩ := freeRun_one_tiles h
  refine ⟨?_, hne⟩
  cases hr : x.2.replica with
  | none => rwa [hr, run_skip, zeroHome_tiles] at h
  | some r => rwa [hr, zeroHome_tiles, zeroHome_tiles] at h

/-- None of them is left. -/
theorem freeCtxTiles_tiles (c : Nat) (s : State) : ∀ e ∈ ((freeCtxTiles c).run s).u.mem.tiles, e.2.ctx ≠ c := by
  have hkeep (xs : List (Nat × Tile)) : ∀ (t : State) (e : Nat × Tile), e ∈ ((Act.each xs (freeCtxTile c)).run t).u.mem.tiles →
      e ∈ t.u.mem.tiles ∧ ∀ x ∈ xs, e.1 ≠ x.1 := by
    induction xs with
    | nil => exact fun t e h => ⟨h, by simp⟩
    | cons x xs ih =>
      intro t e h
      rw [run_each_cons] at h
      obtain ⟨h, hrest⟩ := ih _ e h
      obtain ⟨h, hx⟩ := freeCtxTile_tiles h
      exact ⟨h, by simpa using ⟨hx, fun a b hab => hrest (a, b) hab⟩⟩
  intro e he hc
  obtain ⟨hmem, hgone⟩ := hkeep _ s e he
  exact hgone e (List.mem_filter.2 ⟨hmem, by simpa using hc⟩) rfl

/-- What closing touches of a context's tiles. -/
theorem freeCtxTiles_within {A : Part → Prop} {R : (Units → Units) → Prop} (c : Nat) (hbytes : A .bytes) (hout : A .out) (hmem : ∀ f, (Act.mem f).Within A R)
    (hfields : ∀ f : Tab FieldS → Tab FieldS, R fun u => { u with fields := f u.fields }) : (freeCtxTiles c).Within A R := by
  have hzero (t : Nat) (h : Home) : (zeroHome t c h).Within A R := zeroHome_within _ _ _ hbytes hout fun n => hmem _
  simp only [freeCtxTiles, freeCtxTile, within_read, within_each, within_all_cons, within_all_nil, hzero, freeRun_within hbytes hout hmem hfields, true_and, and_true]
  intro s e _
  split
  · exact hzero _ _
  · trivial

/-! ## The writes of CTX_STATE -/

section
variable {s : State} {n : Nat}

/-- Where no group is PENDING none applies. -/
theorem groupsFollow_none (h : s.u.dict.pendingGroups = []) : groupsFollow.run s = s := by
  rw [groupsFollow, run_read, h]
  rfl

/-- The sequences of a context that closes are freed, and its semaphores given up. -/
def freeCtxSeqs (c : Nat) (s : State) : Act := .each (s.u.seq.seqs.filter (fun e => e.1 / 65536 == c && e.2.opened)) fun e => freeSeq e.1
def dropCtxSems (c : Nat) : Act := .tt fun t => { t with
  sems := t.sems.filter (fun e => e.2.ctx != c)
  vtime := Tab.del t.vtime c
  furrows := t.furrows.map (fun e =>
    let own (x : Option (Nat × Nat × Nat)) : Option (Nat × Nat × Nat) := if x.any (fun y => y.1 == c) then none else x
    (e.1, { e.2 with scratch := own e.2.scratch, newScratch := own e.2.newScratch })) }

theorem dropCtxSems_get (c k : Nat) : ((dropCtxSems c).run s).get k = s.get k := rfl
theorem dropCtxSems_mem (c : Nat) : ((dropCtxSems c).run s).u.mem = s.u.mem := rfl
theorem dropCtxSems_sems (c : Nat) : ((dropCtxSems c).run s).u.tt.sems = s.u.tt.sems.filter fun e => e.2.ctx != c := rfl

theorem freeCtxSeqs_within {A : Part → Prop} {R : (Units → Units) → Prop} (c : Nat) (s : State) (hbytes : A .bytes) (hout : A .out) (hctr : A .ctr)
    (haborts : A (.obj Obj.MIGRATE_ABORTS)) (hmoved : A (.obj Obj.BYTES_MIGRATED)) (hmem : ∀ f, (Act.mem f).Within A R)
    (hfields : ∀ f : Tab FieldS → Tab FieldS, R fun u => { u with fields := f u.fields }) (hlog : ∀ code inst d0 d1, (logEv code inst d0 d1).Within A R)
    (hseqs : ∀ f, (Act.seqs f).Within A R) : (freeCtxSeqs c s).Within A R := by
  simp only [freeCtxSeqs, within_each, freeSeq_within hbytes hout hctr haborts hmoved hmem hfields hlog hseqs, implies_true]

theorem ctxState_same {v : Nat} (h : s.get (Obj.CTX_STATE n) = v) : ctxState n v s = .ok .skip := if_pos h

theorem ctxState_open (h : s.get (Obj.CTX_STATE n) = 0) : ctxState n 1 s = .ok (.all [.put (Obj.CTX_STATE n) 1, ctxZero n]) := by
  simp [ctxState, h]

theorem ctxState_busy (h : s.get (Obj.CTX_STATE n) = 1) (hbusy : s.ctxBusy n = true) : ctxState n 0 s = .no Ab.STATE_FORBIDS := by
  simp [ctxState, h, hbusy]

theorem ctxState_close (h : s.get (Obj.CTX_STATE n) = 1) (hfree : s.ctxBusy n = false) :
    ctxState n 0 s = .ok (.all [.put (Obj.CTX_STATE n) 0, freeCtxSeqs n s, freeCtxTiles n, dropCtxSems n, groupsFollow]) := by
  simp only [ctxState, h, hfree]
  rfl

end

/-- A command that is one guarded write that its object turns away. -/
theorem exec_guarded_refused {s : State} {c : Bool} {ses k v code : Nat} {l : Lvl} {body : State → WriteRes} (hc : c = true) (h : s.admits ses k v l)
    (hb : body s.begun = .no code) (hcode : code ≠ 0) :
    need c s (guarded ses k v l true body) = .next ((s.aborted ses code k).sending (replies ses code)) := by
  rw [need_next s hc, guarded_admitted ((begun_admits ..).mpr h), hb, WriteRes.no, run_answer_no _ _ _ hcode, run_skip, State.aborted, begun_get, puts_begun, begun_also,
    State.aborted]

/-- Settles O23: opening, closing and clearing are guarded writes; what a close frees leaves no tile of the context. -/
theorem contextsOpenAndClose : Obligations.ContextsOpenAndClose := by
  unfold Obligations.ContextsOpenAndClose
  intro s ses n hses hn
  have hopen : Wf.contextOpen ses n = true := by simp [Wf.contextOpen, hses, hn]
  have hclose : Wf.contextClose ses n = true := by simp [Wf.contextClose, hses, hn]
  have hzero (t : State) : (ctxZero n).run t = t.puts ((List.range 9).map fun i => (Obj.ENGINE_NS n + i, 0)) := run_each_puts _ _ _ _
  refine ⟨fun hadm hst => ?_, fun hadm hst => ?_, fun hadm hst => ?_, fun hadm hst hbusy => ?_, fun hadm hst hfree hpend => ?_,
    fun hadm hst hfree hpend hseqs htiles => ?_, fun hadm => ?_⟩
  · refine (exec_guarded_takes hopen rfl hadm (ctxState_open (s := s.begun) hst)).trans ?_
    rw [run_all_cons, run_all_cons, run_all_nil, hzero, run_put_begun, puts_begun, begun_also, puts_cons]
  · exact exec_guarded_takes hopen rfl hadm (ctxState_same (s := s.begun) hst)
  · exact exec_guarded_takes hclose rfl hadm (ctxState_same (s := s.begun) hst)
  · exact exec_guarded_refused hclose hadm (ctxState_busy (s := s.begun) hst hbusy) (by decide)
  · have hseqs : (freeCtxSeqs n s.begun).Spares (.obj (Obj.CTX_STATE n)) :=
      freeCtxSeqs_within n s.begun (by simp) (by simp) (by simp) (Part.obj_ne (by unfold Obj.MIGRATE_ABORTS Obj.CTX_STATE; omega))
        (Part.obj_ne (by unfold Obj.BYTES_MIGRATED Obj.CTX_STATE; omega)) (fun _ => trivial) (fun _ => trivial)
        (fun _ _ _ _ => logEv_within _ _ _ _ (by simp) (by simp) fun _ => trivial) fun _ => trivial
    have hseqs' : (freeCtxSeqs n s.begun).SparesUnit fun u => u.dict.pendingGroups :=
      freeCtxSeqs_within n s.begun trivial trivial trivial trivial trivial (fun _ _ => rfl) (fun _ _ => rfl) logEv_pendingGroups fun _ _ => rfl
    have htiles : (freeCtxTiles n).Spares (.obj (Obj.CTX_STATE n)) := freeCtxTiles_within n (by simp) (by simp) (fun _ => trivial) fun _ => trivial
    have htiles' : (freeCtxTiles n).SparesUnit fun u => u.dict.pendingGroups := freeCtxTiles_within n trivial trivial (fun _ _ => rfl) fun _ _ => rfl
    let q := (freeCtxTiles n).run ((freeCtxSeqs n s.begun).run ((Act.put (Obj.CTX_STATE n) 0).run s.begun))
    have hnone : ((dropCtxSems n).run q).u.dict.pendingGroups = [] := (htiles'.unit _).trans ((hseqs'.unit _).trans hpend)
    have hexec := exec_guarded_takes hclose rfl hadm (ctxState_close (s := s.begun) hst hfree)
    rw [run_all_cons, run_all_cons, run_all_cons, run_all_cons, run_all_cons, run_all_nil, groupsFollow_none hnone] at hexec
    refine ⟨_, hexec, ?_, ?_, ?_⟩
    · rw [also_get, dropCtxSems_get, htiles.get, hseqs.get, run_put_get, if_pos rfl, Nat.zero_mod]
    · rw [also_u, dropCtxSems_mem]
      exact freeCtxTiles_tiles n _
    · rw [also_u, dropCtxSems_sems]
      exact fun e he => by simpa using (List.mem_filter.1 he).2
  · have hseqs' : freeCtxSeqs n s.begun = .skip := by
      have hnone : s.u.seq.seqs.filter (fun e => e.1 / 65536 == n && e.2.opened) = [] := by
        simp only [List.filter_eq_nil_iff, Bool.and_eq_true, beq_iff_eq]
        exact fun e he h => hseqs e he h.1
      exact congrArg (fun xs => Act.each xs fun e => freeSeq e.1) hnone
    have htiles' (t : State) (ht : t.u.mem = s.u.mem) : (freeCtxTiles n).run t = t := by
      have hnone : t.u.mem.tiles.filter (fun e => e.2.ctx == n) = [] := by
        simp only [ht, List.filter_eq_nil_iff, beq_iff_eq]
        exact htiles
      rw [freeCtxTiles, run_read, hnone]
      rfl
    have hexec := exec_guarded_takes hclose rfl hadm (ctxState_close (s := s.begun) hst hfree)
    rw [hseqs', run_all_cons, run_all_cons, run_all_cons, run_all_cons, run_all_cons, run_all_nil, run_skip,
      htiles' ((Act.put (Obj.CTX_STATE n) 0).run s.begun) rfl,
      groupsFollow_none (s := (dropCtxSems n).run ((Act.put (Obj.CTX_STATE n) 0).run s.begun)) hpend] at hexec
    exact ⟨_, hexec, rfl, rfl, rfl, rfl, rfl, rfl, rfl⟩
  · have hclear : Wf.ctxClear ses n 1 = true := by simp [Wf.ctxClear, hses, hn]
    refine (exec_guarded_takes hclear rfl hadm (body := ctxClear n) rfl).trans ?_
    rw [hzero, puts_begun, begun_also]

end Sys2Proof.Machine
end

section
/-! PROOFS. What engine time, grants and rail steps may touch (R202, R206, R228, R418 to R429). -/

namespace Sys2Proof.Machine

/-- The slots that engine time, grants and rail steps are shown in. -/
inductive PowerKey : Nat → Prop
  | downs : PowerKey Obj.BUDGET_STEP_DOWNS
  | domRail (d : Nat) : PowerKey (Obj.DOM_RAIL_MV d)
  | rail (d : Nat) (h : d < 66) : PowerKey (Obj.RAIL_MV d)
  | domPacer (d : Nat) : PowerKey (Obj.DOM_PACER d)
  | pacer (d : Nat) (h : d < 66) : PowerKey (Obj.PACER_STEP d)
  | target (d : Nat) : PowerKey (Obj.DOM_TARGET_MV d)
  | steps (d : Nat) : PowerKey (Obj.DOM_STEPS d)
  | busy (f : Nat) : PowerKey (Obj.BUSY_NS f)
  | engine (c : Nat) : PowerKey (Obj.ENGINE_NS c)
  | degraded (c : Nat) : PowerKey (Obj.DEGRADED_NS c)

/-- A job's record with other figures: engine time, flags and the grant. -/
structure Job.Figures where
  since : Nat
  engNs : Nat
  flags : Nat
  units : Nat
  mv : Nat

def Job.withFigures (x : Job) (f : Job.Figures) : Job := { x with since := f.since, engNs := f.engNs, flags := f.flags, units := f.units, mv := f.mv }

/-- The updates that engine time, grants and rail steps are made of keep within the bounds. -/
structure PowerWithin (A : Part → Prop) (R : (Units → Units) → Prop) : Prop where
  obj : ∀ k, PowerKey k → A (.obj k)
  ctr : A .ctr
  pow : ∀ f, (Act.pow f).Within A R
  job : ∀ j (f : Job → Job.Figures), (∀ x, (f x).units = x.units ∨ x.place = [] ∧ (f x).units = 0 ∨ x.place ≠ []) → (Act.job j fun x => x.withFigures (f x)).Within A R
  time : ∀ v w sp : TtS → _, (Act.tt fun t => { t with vtime := v t, window := w t, spent := sp t }).Within A R

section
variable {A : Part → Prop} {R : (Units → Units) → Prop} (h : PowerWithin A R)
include h

theorem PowerWithin.count (w k n : Nat) (hk : PowerKey k) : (Act.count w k n).Within A R := within_count w k n (h.obj k hk) h.ctr

theorem putRail_within (d v : Nat) : (putRail d v).Within A R := by
  simpa [putRail, h.obj _ (.domRail d)] using fun hd => h.obj _ (.rail d hd)

theorem putPacer_within (d v : Nat) : (putPacer d v).Within A R := by
  simpa [putPacer, h.obj _ (.domPacer d)] using fun hd => h.obj _ (.pacer d hd)

theorem spend_within (d j n : Nat) : (spend d j n).Within A R := by
  have hspend : spend d j n = Act.tt fun t => { t with
      vtime := t.vtime, window := t.window
      spent := (Tab.get? t.jobs j).elim t.spent fun x => Tab.upd t.spent (d * 4294967296 + j) (x.ctx, x.run, 0) (fun e => (e.1, e.2.1, e.2.2 + n)) } := by
    refine congrArg Act.tt (funext fun t => ?_)
    cases Tab.get? t.jobs j <;> rfl
  rw [hspend]
  exact h.time _ _ _

theorem accrue_within (j : Nat) : (accrue j).Within A R := by
  simp only [accrue, within_read]
  intro s
  split
  · trivial
  · rename_i x _
    have hjob (a b : Nat) (c : Bool) : (Act.job j fun y => { y with
        since := y.since + a, engNs := y.engNs + b, flags := if c then y.flags ||| Fl.DEGRADED_POINT else y.flags }).Within A R :=
      h.job j (fun y => ⟨y.since + a, y.engNs + b, if c then y.flags ||| Fl.DEGRADED_POINT else y.flags, y.units, y.mv⟩) fun _ => .inl rfl
    have htime (e : Nat) (m : Nat × Nat) := h.time (fun t => Tab.upd t.vtime x.ctx 0 (· + e)) (fun t => m :: t.window) fun t => t.spent
    simp only [within_ite, within_skip, implies_true, within_all_cons, within_all_nil, within_when, within_each, hjob, h.count _ _ _ (.engine _), h.count _ _ _ (.degraded _),
      h.count _ _ _ (.busy _), htime, spend_within h, and_true]

theorem accrueAll_within : accrueAll.Within A R := by
  simp [accrueAll, accrue_within h]

theorem regrant_within : regrant.Within A R := by
  have hunits (s : State) (j : Nat) : (Act.job j fun x => { x with units := s.unitsOf x }).Within A R :=
    h.job j (fun x => ⟨x.since, x.engNs, x.flags, s.unitsOf x, x.mv⟩) fun x => by
      by_cases hx : x.place = []
      · exact .inr (.inl ⟨hx, by simp [State.unitsOf, hx]⟩)
      · exact .inr (.inr hx)
  simp [regrant, hunits]

theorem beginStep_within (d mv p extra : Nat) : (beginStep d mv p extra).Within A R := by
  simp [beginStep, h.obj _ (.target d), h.count _ _ _ (.steps d), putPacer_within h, h.pow]

theorem settleField_within (before f : Nat) : (settleField before f).Within A R := by
  simp only [settleField, within_read]
  intro s
  split
  · trivial
  · simp [beginStep_within h]

theorem restore_within (d : Nat) : (restore d).Within A R := by
  simp only [restore, within_read, within_ite, within_skip, beginStep_within h, implies_true, true_and, and_true]
  intro s _ _
  split <;> exact beginStep_within h _ _ _ _

theorem settleAll_within (s : State) (fs : List Nat) : (settleAll s fs).Within A R := by
  simp [settleAll, settleField_within h]

theorem setJobRail_within (j mv : Nat) : (setJobRail j mv).Within A R := by
  have hmv : (Act.job j fun x => { x with mv := mv }).Within A R := h.job j (fun x => ⟨x.since, x.engNs, x.flags, x.units, mv⟩) fun _ => .inl rfl
  simp only [setJobRail, within_read]
  intro s
  split
  · trivial
  · simp [accrueAll_within h, hmv, regrant_within h, settleAll_within h]

theorem stepDown_within (j : Nat) : (stepDown j).Within A R := by
  simp only [stepDown, within_read, within_ite, within_skip, implies_true, true_and]
  intro s _
  split
  · trivial
  · simp [setJobRail_within h, h.count _ _ _ .downs]

theorem paceDown_within (j : Nat) : (paceDown j).Within A R := by
  simp only [paceDown, within_read, within_ite, within_skip, implies_true, true_and]
  intro s _
  split
  · trivial
  · simp [regrant_within h, settleAll_within h, h.pow, h.count _ _ _ .downs]

theorem recover_within : recover.Within A R := by
  simp [recover, stepDown_within h, paceDown_within h]

theorem offer_within (j : Nat) : (offer j).Within A R := by
  simp only [offer, within_read]
  intro s
  split
  · trivial
  · simp only [within_ite, within_skip, implies_true, true_and]
    intro _
    split
    · exact setJobRail_within h _ _
    · trivial

theorem offers_within (hshort : (Act.tt fun t => { t with jobs := t.jobs.map (fun e => (e.1, { e.2 with short := false })) }).Within A R) : offers.Within A R := by
  simp only [offers, within_read, within_ite, within_skip, implies_true, true_and, within_all_cons, within_all_nil, hshort, within_each, within_when, offer_within h, and_true,
    h.pow, regrant_within h, restore_within h]
  intro s _ e _ _ t
  split
  · simp [h.pow, regrant_within h, settleField_within h]
  · simp [h.pow, restore_within h]

end

/-! ## What they leave alone -/

/-- An update of a job's record that keeps `p` of every record keeps `p` of every job. -/
theorem job_keeps {β : Type} {p : Job → β} {f : Job → Job} (hf : ∀ x, p (f x) = p x) (i j : Nat) :
    (Act.job i f).SparesUnit fun u => (Tab.get? u.tt.jobs j).map p := by
  intro u
  show (Tab.get? (match Tab.get? u.tt.jobs i with
    | some x => { u.tt with jobs := Tab.set u.tt.jobs i (f x) }
    | none => u.tt).jobs j).map p = _
  cases hi : Tab.get? u.tt.jobs i with
  | none => rfl
  | some x =>
    simp only [Tab.get?_set]
    split_ifs with hj
    · subst hj; simp [hi, hf]
    · rfl

/-- Changes to the table of jobs keep what is not of it. -/
theorem job_keeps_unit {β : Type} {f : Units → β} (hf : ∀ u js, f { u with tt := { u.tt with jobs := js } } = f u) (j : Nat) (g : Job → Job) :
    (Act.job j g).SparesUnit f := by
  intro u
  show f { u with tt := match Tab.get? u.tt.jobs j with
    | some x => { u.tt with jobs := Tab.set u.tt.jobs j (g x) }
    | none => u.tt } = _
  split
  · exact hf u _
  · rfl

/-- Engine time, grants and rail steps keep of every job what is not a figure of them. -/
theorem powerWithin_job {β : Type} {p : Job → β} (hp : ∀ x f, p (x.withFigures f) = p x) (j : Nat) :
    PowerWithin (fun _ => True) fun g => ∀ u, (Tab.get? (g u).tt.jobs j).map p = (Tab.get? u.tt.jobs j).map p where
  obj _ _ := trivial
  ctr := trivial
  pow _ _ := rfl
  job i f _ := job_keeps (fun x => hp x (f x)) i j
  time _ _ _ _ := rfl

/-- They keep every part of the state but their slots, free values and the units' records. -/
theorem powerWithin_spares {p : Part} (hobj : ∀ k, PowerKey k → Part.obj k ≠ p) (hctr : Part.ctr ≠ p) : PowerWithin (· ≠ p) fun _ => True where
  obj := hobj
  ctr := hctr
  pow _ := trivial
  job _ _ _ := trivial
  time _ _ _ := trivial

/-- Of the units' records they keep what is neither the Bursar's nor of jobs and engine time. -/
theorem powerWithin_unit {β : Type} {f : Units → β} (hpow : ∀ u p, f { u with pow := p } = f u)
    (htt : ∀ u js v w sp, f { u with tt := { u.tt with jobs := js, vtime := v, window := w, spent := sp } } = f u) :
    PowerWithin (fun _ => True) fun g => ∀ u, f (g u) = f u where
  obj _ _ := trivial
  ctr := trivial
  pow _ u := hpow u _
  job j _ _ := job_keeps_unit (fun u js => htt u js u.tt.vtime u.tt.window u.tt.spent) j _
  time v w sp u := htt u u.tt.jobs (v u.tt) (w u.tt) (sp u.tt)

theorem powerWithin_bytes : PowerWithin (· ≠ .bytes) fun _ => True := powerWithin_spares (fun _ _ => nofun) nofun
theorem powerWithin_log : PowerWithin (· ≠ .log) fun _ => True := powerWithin_spares (fun _ _ => nofun) nofun
theorem powerWithin_out : PowerWithin (· ≠ .out) fun _ => True := powerWithin_spares (fun _ _ => nofun) nofun

end Sys2Proof.Machine
end

section
/-! PROOFS. Semaphores (R221, R222, R224). -/

namespace Sys2Proof.Machine

section
variable {A : Part → Prop} {R : (Units → Units) → Prop}

/-- Inheritance changes what a job inherits and whether it pauses again for it. -/
theorem inherit_within (h : PowerWithin A R) (hinherits : A (.obj Obj.INHERITANCES)) (hctx : ∀ c, A (.obj (Obj.CTX_INHERITED c)))
    (hjob : ∀ j n, (Act.job j fun x => { x with
      inh := n, inhPaused := x.inhPaused && n.isSome, phase := if n.isNone && x.inhPaused && x.phase == .running then .saving else x.phase }).Within A R) :
    inherit.Within A R := by
  have hround : ∀ fuel, (reinherit fuel).Within A R := by
    intro fuel
    induction fuel with
    | zero => trivial
    | succ n ih =>
      simp only [reinherit, within_read, within_ite, within_skip, within_all_cons, within_all_nil, within_each, within_when, accrueAll_within h, hjob,
        within_count _ _ _ hinherits h.ctr, within_count _ _ _ (hctx _) h.ctr, ih, implies_true, and_self]
  simp [inherit, hround]

end

/-- What inheritance leaves of a job: what it holds and what it waits for. -/
theorem inherit_job {β : Type} {p : Job → β} (hp : ∀ x f, p (x.withFigures f) = p x) (hinh : ∀ (x : Job) n b ph, p { x with inh := n, inhPaused := b, phase := ph } = p x)
    (s : State) (j : Nat) : (Tab.get? (inherit.run s).u.tt.jobs j).map p = (Tab.get? s.u.tt.jobs j).map p :=
  Act.SparesUnit.unit (f := fun u => (Tab.get? u.tt.jobs j).map p) s
    (inherit_within (powerWithin_job hp j) trivial (fun _ => trivial) fun i _ => job_keeps (fun x => hinh x _ _ _) i j)

theorem inherit_sems (s : State) : (inherit.run s).u.tt.sems = s.u.tt.sems :=
  Act.SparesUnit.unit (f := fun u => u.tt.sems) s
    (inherit_within (powerWithin_unit (f := fun u => u.tt.sems) (fun _ _ => rfl) fun _ _ _ _ _ => rfl) trivial (fun _ => trivial)
      fun j _ => job_keeps_unit (f := fun u => u.tt.sems) (fun _ _ => rfl) j _)

theorem inherit_bytes (s : State) : (inherit.run s).bytes = s.bytes :=
  Act.Spares.bytes s (inherit_within powerWithin_bytes nofun (fun _ => nofun) fun _ _ => trivial)

theorem inherit_log (s : State) : (inherit.run s).log = s.log :=
  Act.Spares.log s (inherit_within powerWithin_log nofun (fun _ => nofun) fun _ _ => trivial)

/-! ## Records of semaphores and jobs -/

section
variable {s : State} {job i : Nat} {x : Job} {y : Sem}

theorem run_job_of_get? (h : Tab.get? s.u.tt.jobs job = some x) (f : Job → Job) :
    (Act.job job f).run s = s.withTt fun t => { t with jobs := Tab.set t.jobs job (f x) } := by
  show s.withUnits (fun u => { u with tt := match Tab.get? u.tt.jobs job with
    | some x => { u.tt with jobs := Tab.set u.tt.jobs job (f x) }
    | none => u.tt }) = _
  simp only [State.withUnits, h]
  rfl

theorem run_sem_of_get? (h : Tab.get? s.u.tt.sems i = some y) (f : Sem → Sem) :
    (Act.sem i f).run s = s.withTt fun t => { t with sems := Tab.set t.sems i (f y) } := by
  show s.withUnits (fun u => { u with tt := match Tab.get? u.tt.sems i with
    | some x => { u.tt with sems := Tab.set u.tt.sems i (f x) }
    | none => u.tt }) = _
  simp only [State.withUnits, h]
  rfl

/-- A unit of a semaphore with no waiter comes back to its count. -/
theorem semReturn_of_noWaiter (h : Tab.get? s.u.tt.sems i = some y) (hwait : y.waiters = []) :
    (semReturn i).run s = s.withTt fun t => { t with sems := Tab.set t.sems i { y with count := y.count + 1 } } := by
  have hfirst : s.firstWaiter y.waiters = none := by rw [hwait]; rfl
  rw [semReturn, run_read]
  simp only [h, hfirst]
  exact run_sem_of_get? h _

/-- A semaphore and a job that holds it or waits for it change. -/
theorem run_sem_job (hx : Tab.get? s.u.tt.jobs job = some x) (hy : Tab.get? s.u.tt.sems i = some y) (f : Sem → Sem) (g : Job → Job) :
    (Act.job job g).run ((Act.sem i f).run s) = s.withTt fun t => { t with sems := Tab.set t.sems i (f y), jobs := Tab.set t.jobs job (g x) } := by
  rw [run_sem_of_get? hy]
  exact run_job_of_get? (s := s.withTt fun t => { t with sems := Tab.set t.sems i (f y) }) hx g

/-- After such a change and what it brings of inheritance: the job's record but for what inheritance may change, the semaphore, and the rest of the state. -/
theorem inherited_sem_job (f : Sem) (g : Job) :
    let q := s.withTt fun t => { t with sems := Tab.set t.sems i f, jobs := Tab.set t.jobs job g }
    (∃ z, Tab.get? (inherit.run q).u.tt.jobs job = some z ∧ z.wait = g.wait ∧ z.held = g.held) ∧ Tab.get? (inherit.run q).u.tt.sems i = some f
      ∧ (inherit.run q).bytes = s.bytes ∧ (inherit.run q).log = s.log := by
  intro q
  refine ⟨?_, ?_, inherit_bytes q, inherit_log q⟩
  · have hjob := inherit_job (p := fun z => (z.wait, z.held)) (fun _ _ => rfl) (fun _ _ _ _ => rfl) q job
    have hq : Tab.get? q.u.tt.jobs job = some g := (Tab.get?_set ..).trans (if_pos rfl)
    rw [hq, Option.map_some, Option.map_eq_some_iff] at hjob
    obtain ⟨z, hz, heq⟩ := hjob
    exact ⟨z, hz, (Prod.mk.inj heq).1, (Prod.mk.inj heq).2⟩
  · rw [inherit_sems]
    exact (Tab.get?_set ..).trans (if_pos rfl)

end

/-- A job that waits for semaphore `i` from now on: one that is to pause and holds none saves (R223). -/
def Job.blockedOn (x : Job) (i now : Nat) (lim : Bool) : Job := { x with
  wait := some i, waitFrom := now, reported := false, noLimit := lim
  phase := if x.phase = .draining ∧ x.held = [] ∧ x.stop = none ∧ ¬ x.evac then .saving else x.phase }

/-- Settles O27: the semaphore and the job change, and inheritance changes neither what the job holds nor what it waits for. -/
theorem semaphoresCount : Obligations.SemaphoresCount := by
  unfold Obligations.SemaphoresCount
  intro s job rank i x y hx hy
  refine ⟨fun us lim hunits hact hsem hheld hcount => ?_, fun us lim hlim hact hsem hheld hcount hstop => ?_, fun hact hsem hmax hwait => ?_, fun hwait hlim => ?_,
    fun hwait hlim hin => ?_⟩
  · refine (need_read_told s hunits _).trans (congrArg (fun t => Host.Outcome.next (State.told t)) ?_)
    have horder : x.held.any (fun h => decide (i ≤ h)) = false := by simpa using hheld
    simp only [begun_u, hx, hact, not_true_eq_false, ↓reduceIte, show s.begun.semFor x rank = some i from hsem, horder, Bool.false_eq_true, hy, hcount, run_all_cons,
      run_all_nil]
    exact (run_sem_job (s := s.begun) hx hy _ _).trans rfl
  · have hunits : Wf.semaphoreAcquire job rank us lim = true := rfl
    have horder : x.held.any (fun h => decide (i ≤ h)) = false := by simpa using hheld
    have hnow : ¬ 1 ≤ y.count := by omega
    have hwaits : ¬ (us = 0 ∧ ¬ lim = true) := by tauto
    obtain ⟨⟨z, hz, hzw, -⟩, hsems, hbytes, hlog⟩ := inherited_sem_job (s := s.begun) (job := job) (i := i) { y with waiters := y.waiters ++ [job] } (x.blockedOn i s.time lim)
    refine ⟨_, (need_read_told s hunits _).trans (congrArg (fun t => Host.Outcome.next (State.told t)) ?_), ⟨z, hz, hzw⟩, ⟨_, hsems, rfl, hcount⟩, hbytes, hlog⟩
    simp only [begun_u, hx, hact, not_true_eq_false, ↓reduceIte, show s.begun.semFor x rank = some i from hsem, horder, Bool.false_eq_true, hy, hnow, hwaits, hstop,
      run_all_cons, run_all_nil, run_skip]
    exact congrArg inherit.run (run_sem_job (s := s.begun) hx hy _ _)
  · have hunits : Wf.semaphoreRelease job rank = true := rfl
    have hroom : ¬ (y.max ≤ y.count ∧ y.waiters = []) := by omega
    obtain ⟨⟨z, hz, -, hzh⟩, hsems, hbytes, hlog⟩ := inherited_sem_job (s := s.begun) (job := job) (i := i) { y with count := y.count + 1 } { x with held := x.held.erase i }
    refine ⟨_, (need_read_told s hunits _).trans (congrArg (fun t => Host.Outcome.next (State.told t)) ?_), ⟨z, hz, hzh⟩, ⟨_, hsems, rfl⟩, hbytes, hlog⟩
    simp only [begun_u, hx, hact, not_true_eq_false, ↓reduceIte, show s.begun.semFor x rank = some i from hsem, hy, hroom, run_all_cons, run_all_nil]
    have hjob := run_job_of_get? (s := s.begun) hx fun z => { z with held := z.held.erase i }
    rw [hjob, semReturn_of_noWaiter (s := s.begun.withTt fun t => { t with jobs := Tab.set t.jobs job { x with held := x.held.erase i } }) hy hwait]
    rfl
  · have hunits : Wf.semaphoreTimeout job = true := rfl
    refine (need_read_told s hunits _).trans (congrArg (fun t => Host.Outcome.next (State.told t)) ?_)
    simp only [begun_u, hx]
    split
    · simp_all
    · rfl
  · have hunits : Wf.semaphoreTimeout job = true := rfl
    obtain ⟨⟨z, hz, hzw, -⟩, hsems, hbytes, hlog⟩ := inherited_sem_job (s := s.begun) (job := job) (i := i) { y with waiters := y.waiters.filter (· != job) } { x with wait := none, noLimit := false }
    refine ⟨_, (need_read_told s hunits _).trans (congrArg (fun t => Host.Outcome.next (State.told t)) ?_), ⟨z, hz, hzw⟩, ⟨_, hsems, rfl, rfl⟩, hbytes, hlog⟩
    have hrec : x = { x with wait := some i, noLimit := false } := by
      rw [← hlim, ← hwait]
    rw [hrec] at hx
    simp only [begun_u, hx, hy, Option.elim_some, hin, ↓reduceIte, run_all_cons, run_all_nil]
    exact congrArg inherit.run (run_sem_job (s := s.begun) hx hy _ _)

end Sys2Proof.Machine
end

section
/-! PROOFS. Floor windows, energy and block reports (R203, R229, R233). -/

namespace Sys2Proof.Machine

/-- A share of a domain's energy is counted for a context, and for a job or its run. -/
theorem charge_within {A : Part → Prop} {R : (Units → Units) → Prop} (j r c part : Nat) (hobj : A (.obj (Obj.ENERGY_UJ c))) (hctr : A .ctr)
    (htt : ∀ f, (Act.tt f).Within A R) : (charge j r c part).Within A R := by
  have hjob (f : Job → Job) : (Act.job j f).Within A R := htt _
  have hrun (f : Run → Run) : (Act.run' r f).Within A R := htt _
  simp [charge, within_count _ _ _ hobj hctr, hjob, hrun]

/-- The figure of a domain's energy is no slot of engine time, grants and rail steps. -/
theorem powerKey_ne_energy {k : Nat} (d : Nat) (h : PowerKey k) : k ≠ Obj.DOM_ENERGY_UJ d := by
  cases h <;> simp only [Obj.DOM_ENERGY_UJ, Obj.BUDGET_STEP_DOWNS, Obj.DOM_RAIL_MV, Obj.RAIL_MV, Obj.DOM_PACER, Obj.PACER_STEP, Obj.DOM_TARGET_MV, Obj.DOM_STEPS, Obj.BUSY_NS,
    Obj.ENGINE_NS, Obj.DEGRADED_NS, ne_eq] <;> omega

/-- What is counted when an energy interval of domain `d` ends. -/
def shareEnergy (d uj : Nat) : Act := .read fun s =>
  let mine := s.u.tt.spent.filter (fun e => e.1 / 4294967296 == d)
  let total := mine.foldl (fun a e => a + e.2.2.2) 0
  .all [
    .count 64 (Obj.DOM_ENERGY_UJ d) uj,
    .tt (fun t => { t with spent := t.spent.filter (fun e => e.1 / 4294967296 != d) }),
    .each mine (fun e => charge (e.1 % 4294967296) e.2.2.1 e.2.1 (uj * e.2.2.2 / max 1 total))]

theorem shareEnergy_within {A : Part → Prop} {R : (Units → Units) → Prop} (d uj : Nat) (hdom : A (.obj (Obj.DOM_ENERGY_UJ d))) (hobj : ∀ c, A (.obj (Obj.ENERGY_UJ c)))
    (hctr : A .ctr) (htt : ∀ f, (Act.tt f).Within A R) : (shareEnergy d uj).Within A R := by
  simp [shareEnergy, within_count _ _ _ hdom hctr, htt, charge_within _ _ _ _ (hobj _) hctr htt]

/-- The domain's figure takes the energy of the interval. -/
theorem shareEnergy_get {s : State} {d uj : Nat} (h : s.get (Obj.DOM_ENERGY_UJ d) + uj < 2 ^ 64) :
    ((shareEnergy d uj).run s).get (Obj.DOM_ENERGY_UJ d) = s.get (Obj.DOM_ENERGY_UJ d) + uj := by
  rw [shareEnergy, run_read, run_all_cons, run_all_cons, run_all_cons, run_all_nil]
  have hshares (t : State) (xs : List (Nat × Nat × Nat × Nat)) (n : Nat) :
      ((Act.each xs (fun e => charge (e.1 % 4294967296) e.2.2.1 e.2.1 (uj * e.2.2.2 / max 1 n))).run t).get (Obj.DOM_ENERGY_UJ d) = t.get (Obj.DOM_ENERGY_UJ d) := by
    refine Act.Spares.get t ((within_each _ _ _ _).2 fun e _ => charge_within _ _ _ _ (Part.obj_ne ?_) nofun fun _ => trivial)
    unfold Obj.ENERGY_UJ Obj.DOM_ENERGY_UJ
    omega
  rw [hshares]
  exact run_count_get_self s 64 _ uj (by decide) h

/-- Settles O28. -/
theorem timetableAccounts : Obligations.TimetableAccounts := by
  unfold Obligations.TimetableAccounts
  intro s
  refine ⟨?_, fun d uj hunits hlt => ?_, fun job x hx hms => ?_⟩
  · have hbytes := Act.Spares.bytes s.begun (accrueAll_within powerWithin_bytes)
    have hlog := Act.Spares.log s.begun (accrueAll_within powerWithin_log)
    have hout := Act.Spares.out s.begun (accrueAll_within powerWithin_out)
    exact ⟨(Act.tt fun t => { t with window := [] }).run (accrueAll.run s.begun), need_next s rfl _, rfl, hbytes, hlog, hout⟩
  · have hshare (t : State) : ((shareEnergy d uj).run t).bytes = t.bytes ∧ ((shareEnergy d uj).run t).log = t.log ∧ ((shareEnergy d uj).run t).out = t.out :=
      ⟨Act.Spares.bytes t (shareEnergy_within d uj nofun (fun _ => nofun) nofun fun _ => trivial),
        Act.Spares.log t (shareEnergy_within d uj nofun (fun _ => nofun) nofun fun _ => trivial),
        Act.Spares.out t (shareEnergy_within d uj nofun (fun _ => nofun) nofun fun _ => trivial)⟩
    have hsame : (accrueAll.run s.begun).get (Obj.DOM_ENERGY_UJ d) = s.get (Obj.DOM_ENERGY_UJ d) :=
      Act.Spares.get s.begun (accrueAll_within (powerWithin_spares (fun k hk => Part.obj_ne (powerKey_ne_energy d hk)) nofun))
    obtain ⟨hb, hl, ho⟩ := hshare (accrueAll.run s.begun)
    refine ⟨(shareEnergy d uj).run (accrueAll.run s.begun), need_next s hunits _, ?_, ?_, ?_, ?_⟩
    · rw [shareEnergy_get (by rw [hsame]; exact hlt), hsame]
    · rw [hb, Act.Spares.bytes s.begun (accrueAll_within powerWithin_bytes), begun_bytes]
    · rw [hl, Act.Spares.log s.begun (accrueAll_within powerWithin_log), begun_log]
    · rw [ho, Act.Spares.out s.begun (accrueAll_within powerWithin_out), begun_out]
  · intro ms
    have hunits : Wf.blockReport job = true := rfl
    refine ⟨fun i hwait hrep hlong => ?_, fun b y hwait hbars hy harr hrep hlong => ?_⟩
    · refine (need_next s hunits _).trans (congrArg Host.Outcome.next ?_)
      rw [run_read, begun_u, hx]
      simp only [hwait]
      have hdue : (!x.reported && decide (s.begun.get Obj.BLOCK_REPORT_MS * 4294967296000000 < s.begun.time - x.waitFrom)) = true := by
        rw [hrep, begun_get, begun_time, Bool.not_false, Bool.true_and, decide_eq_true_eq]
        exact hlong
      rw [if_neg (show ¬ s.begun.get Obj.BLOCK_REPORT_MS = 0 from hms), run_when, if_pos hdue, run_all_cons, run_all_cons, run_all_cons, run_all_nil, run_all_cons, run_all_nil, begun_time]
      rfl
    · refine (need_next s hunits _).trans (congrArg Host.Outcome.next ?_)
      rw [run_read, begun_u, hx]
      simp only [hwait, hbars, List.findSome?_cons, hy]
      have hdue : y.arrived ≠ 0 ∧ ¬ y.reported = true ∧ decide (s.begun.get Obj.BLOCK_REPORT_MS * 4294967296000000 < s.begun.time - y.since) = true :=
        ⟨harr, by simp [hrep], by rw [begun_get, begun_time, decide_eq_true_eq]; exact hlong⟩
      rw [if_neg (show ¬ s.begun.get Obj.BLOCK_REPORT_MS = 0 from hms), if_pos hdue]
      rw [run_all_cons, run_all_cons, run_all_cons, run_all_nil, run_all_cons, run_all_nil, begun_time]
      rfl

end Sys2Proof.Machine
end

section
/-! PROOFS. What the operations of dispatch leave of a job (R201). -/

namespace Sys2Proof.Machine

/-- What a unit's records satisfy and every elementary update within the bounds preserves, holds after an act within the bounds. -/
theorem Act.Within.holds {P : Units → Prop} {a : Act} (h : a.Within (fun _ => True) fun g => ∀ u, P u → P (g u)) : ∀ s, P s.u → P (a.run s).u := by
  induction a with
  | seq a b iha ihb => exact fun s hs => ihb h.2 _ (iha h.1 s hs)
  | read f ih => exact fun s hs => ih s (h s) s hs
  | units f => exact fun s hs => h s.u hs
  | _ => exact fun s hs => hs

/-- What a job is, where it stands and since when. -/
def Job.core (x : Job) : Decl × Nat × Nat × Phase × List Nat × Option Nat := (x.decl, x.run, x.ctx, x.phase, x.place, x.dispatched)

/-- The act keeps the core of job `j`. -/
abbrev Act.KeepsCore (j : Nat) (a : Act) : Prop := a.SparesUnit fun u => (Tab.get? u.tt.jobs j).map Job.core

section
variable (j : Nat)

theorem keepsCore_job {f : Job → Job} (i : Nat) (hf : ∀ x, (f x).core = x.core) : (Act.job i f).KeepsCore j := job_keeps hf i j

theorem keepsCore_tt {f : TtS → TtS} (hf : ∀ t, (f t).jobs = t.jobs) : (Act.tt f).KeepsCore j := fun u => by
  show (Tab.get? (f u.tt).jobs j).map Job.core = _
  rw [hf]

theorem keepsCore_run' (r : Nat) (f : Run → Run) : (Act.run' r f).KeepsCore j := keepsCore_tt j fun t => by split <;> rfl
theorem keepsCore_furrow (n : Nat) (f : Furrow → Furrow) : (Act.furrow n f).KeepsCore j := fun _ => rfl
theorem keepsCore_field (n : Nat) (f : FieldS → FieldS) : (Act.field n f).KeepsCore j := fun _ => rfl
theorem keepsCore_count (w k n : Nat) : (Act.count w k n).KeepsCore j := within_count _ _ _ trivial trivial

theorem keepsCore_power : PowerWithin (fun _ => True) fun g => ∀ u, (Tab.get? (g u).tt.jobs j).map Job.core = (Tab.get? u.tt.jobs j).map Job.core :=
  powerWithin_job (fun _ _ => rfl) j

theorem keepsCore_logEv (code inst d0 d1 : Nat) : (logEv code inst d0 d1).KeepsCore j := logEv_within _ _ _ _ trivial trivial fun _ _ => rfl

theorem keepsCore_accrueAll : accrueAll.KeepsCore j := accrueAll_within (keepsCore_power j)
theorem keepsCore_regrant : regrant.KeepsCore j := regrant_within (keepsCore_power j)
theorem keepsCore_settleAll (s : State) (fs : List Nat) : (settleAll s fs).KeepsCore j := settleAll_within (keepsCore_power j) s fs

theorem keepsCore_pokeSeq (key : Nat) : (pokeSeq key).KeepsCore j := by
  refine pokeSeq_within trivial trivial trivial trivial trivial (fun f => ?_) (fun f => ?_) (keepsCore_logEv j) key
  · exact fun _ => rfl
  · exact fun _ => rfl

theorem keepsCore_waitEnds (i : Nat) : (waitEnds i).KeepsCore j := by
  simp only [waitEnds, within_read]
  intro s
  split
  · trivial
  · simp only [within_all_cons, within_all_nil, keepsCore_count, and_true, true_and]
    exact keepsCore_job j i fun _ => rfl

theorem keepsCore_runStarts (r : Nat) : (runStarts r).KeepsCore j := by
  simp only [runStarts, within_read]
  intro s
  split
  · trivial
  · simp only [within_ite, within_skip, implies_true, true_and, within_all_cons, within_all_nil, keepsCore_run', and_true]
    intro _
    split
    · simp
    · simp only [within_all_cons, within_all_nil, keepsCore_furrow, and_true, true_and]
      split <;> simp
    · trivial

theorem keepsCore_latchWalks (i c : Nat) (rows : List LenRow) : (latchWalks i c rows).KeepsCore j := by
  simp only [latchWalks, within_all_cons, within_all_nil, within_each, keepsCore_pokeSeq, implies_true, and_true]
  exact fun _ => rfl

theorem keepsCore_takeSpace (c f : Nat) (es gs : List Nat) : (takeSpace c f es gs).KeepsCore j := by
  simp only [takeSpace, abortUnitSlice, within_read, within_all_cons, within_all_nil, within_each, within_wipe, implies_true, keepsCore_field, and_true]
  intro _ s
  split
  · simp only [within_when, within_all_cons, within_all_nil, keepsCore_count, and_true]
    exact fun _ _ => rfl
  · trivial

theorem keepsCore_takeField (i : Nat) (fs : List Nat) : (takeField i fs).KeepsCore j := by
  simp only [takeField, within_each, within_read]
  intro f _ s
  split
  · trivial
  · simp only [within_all_cons, within_all_nil, keepsCore_takeSpace, keepsCore_field, and_true, true_and]
    exact keepsCore_job j i fun _ => rfl

theorem keepsCore_restoreImage (i : Nat) : (restoreImage i).KeepsCore j := by
  simp only [restoreImage, within_read]
  intro s
  split
  · trivial
  · simp only [putBack, within_all_cons, within_all_nil, within_each, within_seq, within_wipe, within_poke, keepsCore_field, implies_true, and_true, true_and]
    exact keepsCore_job j i fun _ => rfl

theorem keepsCore_logMoves (i : Nat) : (logMoves i).KeepsCore j := by
  simp only [logMoves, within_read]
  intro s
  split
  · trivial
  · simp only [within_all_cons, within_all_nil, within_each, within_read, within_draw, keepsCore_count, keepsCore_logEv, implies_true, and_true, true_and]
    exact keepsCore_job j i fun _ => rfl

theorem keepsCore_wakeFields (place : List Nat) : (wakeFields place).KeepsCore j := by
  simp [wakeFields, keepsCore_count]

theorem keepsCore_startWave (ws : List (Nat × Nat)) : (startWave ws).KeepsCore j := by
  simp only [startWave, within_read]
  intro s
  split
  · trivial
  · simp only [within_all_cons, within_all_nil, within_put, keepsCore_count, and_true]
    exact keepsCore_tt j fun _ => rfl

end

/-! ## Standing on fields -/

section
variable {s : State} {j : Nat} {x : Job}

/-- The core of a job whose record changes. -/
theorem job_core_changes {c : Decl × Nat × Nat × Phase × List Nat × Option Nat} {f : Job → Job} (h : (Tab.get? s.u.tt.jobs j).map Job.core = some x.core)
    (hf : ∀ y, y.core = x.core → (f y).core = c) : (Tab.get? ((Act.job j f).run s).u.tt.jobs j).map Job.core = some c := by
  obtain ⟨y, hy, hcore⟩ := Option.map_eq_some_iff.1 h
  rw [run_job_of_get? hy]
  exact (congrArg (Option.map Job.core) ((Tab.get?_set ..).trans (if_pos rfl))).trans (congrArg some (hf y hcore))

/-- A job that stands on fields runs there, whatever it was before. -/
theorem standOn_core (h : Tab.get? s.u.tt.jobs j = some x) (place : List Nat) (mv : Nat) :
    (Tab.get? ((standOn j place mv).run s).u.tt.jobs j).map Job.core = some (x.decl, x.run, x.ctx, .running, place, x.dispatched) := by
  let q := (takeField j place).run (accrueAll.run s)
  have hq : (Tab.get? q.u.tt.jobs j).map Job.core = some x.core := by
    rw [(keepsCore_takeField j j place).unit, (keepsCore_accrueAll j).unit, h]
    rfl
  rw [standOn, run_read, h]
  simp only [run_all_cons, run_all_nil]
  rw [(keepsCore_count j _ _ _).unit, (keepsCore_settleAll j _ _).unit, (keepsCore_regrant j).unit, (keepsCore_wakeFields j _).unit, (keepsCore_logMoves j j).unit,
    (keepsCore_restoreImage j j).unit]
  refine job_core_changes hq fun y hy => ?_
  simp only [Job.core, Prod.mk.injEq] at hy ⊢
  obtain ⟨hdecl, hrun, hctx, -, -, hdisp⟩ := hy
  exact ⟨hdecl, hrun, hctx, trivial, trivial, hdisp⟩

/-- A job of no stream and with no tiles to load is dispatched now, on its fields. -/
theorem dispatch_core (h : Tab.get? s.u.tt.jobs j = some x) (hchunk : s.chunkStream x = none) (htiles : x.decl.tiles = []) (place : List Nat)
    (host : List (Nat × List Byte)) (rows : List LenRow) (mv : Nat) :
    (Tab.get? ((dispatch j place host rows mv).run s).u.tt.jobs j).map Job.core = some (x.decl, x.run, x.ctx, .running, place, some s.time) := by
  have hload (t : State) (ht : (Tab.get? t.u.tt.jobs j).map Job.core = some (x.decl, x.run, x.ctx, .running, place, some s.time)) : (loadResident j).run t = t := by
    obtain ⟨y, hy, hcore⟩ := Option.map_eq_some_iff.1 ht
    have hnone : y.decl.tiles = [] := (congrArg (fun c => c.1.tiles) hcore).trans htiles
    rw [loadResident, run_read, hy]
    simp only [hnone, List.length_nil, List.range_zero, List.zip_nil_left]
    exact run_each_keeps id _ _ (fun _ _ _ => rfl) t
  rw [dispatch, run_read, h]
  simp only [hchunk, List.filter_nil, run_all_cons, run_all_nil, run_skip, run_each_nil]
  refine (Act.SparesUnit.unit (f := fun u => (Tab.get? u.tt.jobs j).map Job.core) _ ?_).trans ?_
  · simp only [within_when, within_read]
    intro _ t
    split
    · exact keepsCore_startWave j _
    · trivial
  rw [(keepsCore_count j _ _ _).unit]
  have hstart : (Tab.get? ((runStarts x.run).run ((waitEnds j).run s)).u.tt.jobs j).map Job.core = some x.core := by
    rw [(keepsCore_runStarts j _).unit, (keepsCore_waitEnds j j).unit, h]
    rfl
  suffices hstand : ∀ t : State, (Tab.get? t.u.tt.jobs j).map Job.core = some (x.decl, x.run, x.ctx, x.phase, x.place, some s.time) →
      (Tab.get? ((loadResident j).run ((standOn j place mv).run t)).u.tt.jobs j).map Job.core = some (x.decl, x.run, x.ctx, .running, place, some s.time) by
    refine hstand _ ?_
    rw [(keepsCore_latchWalks j _ _ _).unit]
    refine (Act.SparesUnit.unit (f := fun u => (Tab.get? u.tt.jobs j).map Job.core) _ ((within_when ..).2 fun _ => keepsCore_count j _ _ _)).trans ?_
    refine job_core_changes (((keepsCore_tt j fun _ => rfl).unit _).trans hstart) fun y hy => ?_
    simp only [Job.core, Prod.mk.injEq] at hy ⊢
    obtain ⟨hdecl, hrun, hctx, hphase, hplace, -⟩ := hy
    exact ⟨hdecl, hrun, hctx, hphase, hplace, trivial⟩
  intro t ht
  obtain ⟨y, hy, hcore⟩ := Option.map_eq_some_iff.1 ht
  simp only [Job.core, Prod.mk.injEq] at hcore
  obtain ⟨hdecl, hrun, hctx, -, -, hdisp⟩ := hcore
  have hstand := standOn_core hy place mv
  rw [hdecl, hrun, hctx, hdisp] at hstand
  rw [hload _ hstand, hstand]

end

/-! ## The command -/

section
variable {s : State} {job : Nat} {place : List Nat} {host : List (Nat × List Byte)} {rows : List LenRow} {x : Job}

/-- What job `x`, ready to be considered, comes to at its dispatch: the status that its checks find, or else its grant. -/
def State.considers (s : State) (job : Nat) (x : Job) (place : List Nat) (host : List (Nat × List Byte)) (rows : List LenRow) : Act :=
  match s.dispatchFault x host rows with
  | some f => endAtDispatch job f.1 f.2
  | none => match x.decl.op with
    | some o => dispatchUnit job x o
    | none => .all [
        match s.chunkStream x with
          | some n => .when (s.groupPending (streamCtl n) && (s.stream n).chunk.isNone) (applyStream n)
          | none => .skip,
        .read fun s =>
          let goes : Bool := match s.chunkStream x with
            | some n => s.chunkGoes n job place
            | none => true
          if ¬ goes ∨ ¬ s.allowed x then .skip
          else if ¬ s.placeFits x place then preempt x place
          else if 256 < s.u.tt.bars.length + x.decl.barriers.length then .skip
          else withGrant job x place (dispatch job place host rows)]

theorem exec_jobDispatch {a : State} (ha : accrueAll.run s.begun = a) (hunits : Wf.jobDispatch job place host rows = true) (hx : Tab.get? a.u.tt.jobs job = some x)
    (hready : x.phase = .ready) (hpend : a.groupPending (0x4000 + x.ctx) = false) (hmay : a.mayDispatch x = true) (hshort : x.short = false)
    (hfiring : a.firingWaits x = false) (hother : a.another job x = false) :
    exec (.jobDispatch job place host rows) s = .next ((a.considers job x place host rows).run a).told := by
  have hstale : ¬ (x.phase == .ready && a.groupPending (0x4000 + x.ctx)) = true := by simp [hpend]
  have hgo : ¬ (x.phase ≠ .ready ∨ ¬ a.mayDispatch x = true ∨ x.short = true ∨ a.firingWaits x = true ∨ (x.decl.op.isNone && a.another job x) = true) := by
    simp [hready, hmay, hshort, hfiring, hother]
  refine (need_next s hunits _).trans (congrArg Host.Outcome.next ?_)
  rw [run_seq, run_read, run_all_cons, run_all_cons, run_all_nil, ha]
  refine congrArg State.told ?_
  simp only [hx, run_all_cons, run_all_nil, run_when, if_neg hstale, run_read, if_neg hgo]
  rfl

end

/-- Settles O24. -/
theorem jobsAreDispatched : Obligations.JobsAreDispatched := by
  unfold Obligations.JobsAreDispatched
  intro s job place host rows x a hx hunits hready hpend hmay hshort hfiring hother hop
  have hexec := exec_jobDispatch (a := a) rfl hunits hx hready hpend hmay hshort hfiring hother
  refine ⟨fun st d hfault hkey htab => ?_, fun hfault hchunk hallow hfits hbars hrail => ?_⟩
  · rw [hexec, State.considers, hfault]
    simp only [endAtDispatch, run_all_cons, run_all_nil, run_when, beq_iff_eq, hkey, htab, ↓reduceIte]
    rfl
  · have hroom : ¬ 256 < a.u.tt.bars.length + x.decl.barriers.length := Nat.not_lt.2 hbars
    let b := (Act.count 64 Obj.GRANT_ANSWERS 1).run a
    have hrun : (a.considers job x place host rows).run a = (dispatch job place host rows (a.get (Obj.PREFERRED_MV x.ctx))).run b := by
      simp only [State.considers, hfault, hop, hchunk, run_all_cons, run_all_nil, run_skip, run_read, hallow, hfits, not_true_eq_false, or_self, ↓reduceIte, hroom,
        withGrant, hrail]
      rfl
    refine ⟨_, hexec.trans (congrArg (fun t => Host.Outcome.next (State.told t)) hrun), fun htiles => ?_⟩
    have hunit : b.u = a.u := run_count_u ..
    have hsame : b.chunkStream x = none := by
      rw [← hchunk]
      simp only [State.chunkStream, State.streamFor, hunit]
    have htime : b.time = s.time := (run_count_time ..).trans (Act.Spares.time s.begun (accrueAll_within (powerWithin_spares (fun _ _ => nofun) nofun)))
    have hcore := dispatch_core (s := b) (by rw [hunit]; exact hx) hsame htiles place host rows (a.get (Obj.PREFERRED_MV x.ctx))
    obtain ⟨y, hy, heq⟩ := Option.map_eq_some_iff.1 hcore
    simp only [Job.core, Prod.mk.injEq] at heq
    obtain ⟨hdecl, hjrun, hctx, hphase, hplace, hdisp⟩ := heq
    exact ⟨y, hy, hphase, hplace, by rw [hdisp, htime], hdecl, hjrun, hctx⟩

end Sys2Proof.Machine
end

section
/-! PROOFS. How a job leaves the job table, and how its run goes on (R60 to R62, R200). -/

namespace Sys2Proof.Machine

/-- From `t` to `t'` no job that has ended is forgotten, and no job among `J` leaves the job table. -/
def TtS.Stays (J : Nat → Prop) (t t' : TtS) : Prop :=
  t.endedJobs ⊆ t'.endedJobs ∧ ∀ j, J j → (Tab.get? t.jobs j).isSome = true → (Tab.get? t'.jobs j).isSome = true

/-- The slots that the lives of jobs and runs are shown in. -/
inductive LifeKey : Nat → Prop
  | power {k : Nat} (h : PowerKey k) : LifeKey k
  | inherits : LifeKey Obj.INHERITANCES
  | inherited (c : Nat) : LifeKey (Obj.CTX_INHERITED c)
  | done (c : Nat) : LifeKey (Obj.JOBS_DONE c)
  | ended (c : Nat) : LifeKey (Obj.JOBS_ENDED c)
  | wait (c : Nat) : LifeKey (Obj.CTX_WAIT_NS c)
  | fault : LifeKey Obj.JOBS_FAULT_ENDED
  | retried : LifeKey Obj.JOBS_RETRIED
  | chunks (n : Nat) : LifeKey (Obj.CHUNKS_DONE n)
  | firings (f : Nat) : LifeKey (Obj.FIRINGS_DONE f)
  | argument (n a : Nat) : LifeKey (Obj.ARG_LEN_CHECK n a)
  | record (n i : Nat) (h : i < 8) : LifeKey (Obj.COMPLETION n 0 + i)
  | firingRecord (f i : Nat) (h : i < 8) : LifeKey (Obj.F_COMPLETION f 0 + i)
  | slot (n : Nat) : LifeKey (Obj.STATE n)
  | domain (d : Nat) : LifeKey (Obj.DOM_STATE d)
  | wakes (d : Nat) : LifeKey (Obj.DOM_WAKES d)

/-- The updates that the lives of jobs and runs are made of keep within the bounds, as long as no job among `J` ends. -/
structure LifeWithin (J : Nat → Prop) (A : Part → Prop) (R : (Units → Units) → Prop) : Prop where
  obj : ∀ k, LifeKey k → A (.obj k)
  ctr : A .ctr
  out : A .out
  dict : ∀ f, (Act.dict f).Within A R
  pow : ∀ f, (Act.pow f).Within A R
  field : ∀ n f, (Act.field n f).Within A R
  tt : ∀ f, (∀ t, TtS.Stays J t (f t)) → (Act.tt f).Within A R

/-- An update that keeps both tables. -/
theorem TtS.stays_same {J : Nat → Prop} {t t' : TtS} (hended : t'.endedJobs = t.endedJobs) (hjobs : t'.jobs = t.jobs) : TtS.Stays J t t' :=
  ⟨by rw [hended]; exact List.Subset.refl _, fun j _ h => by rw [hjobs]; exact h⟩

/-- The job table with a record written in it. -/
theorem TtS.stays_set {J : Nat → Prop} {t t' : TtS} {k : Nat} {x : Job} (hended : t'.endedJobs = t.endedJobs) (hjobs : t'.jobs = Tab.set t.jobs k x) : TtS.Stays J t t' :=
  ⟨by rw [hended]; exact List.Subset.refl _, fun j _ h => by
    rw [hjobs, Tab.get?_set]
    split
    · rfl
    · exact h⟩

theorem Tab.get?_map {α : Type} (t : Tab α) (f : α → α) (j : Nat) : Tab.get? (t.map fun e => (e.1, f e.2)) j = (Tab.get? t j).map f := by
  induction t with
  | nil => rfl
  | cons e es ih =>
    simp only [List.map_cons, Tab.get?, ih]
    split <;> rfl

section
variable {J : Nat → Prop} {A : Part → Prop} {R : (Units → Units) → Prop} (h : LifeWithin J A R)
include h

theorem LifeWithin.job (j : Nat) (f : Job → Job) : (Act.job j f).Within A R := h.tt _ fun t => by
  split
  · exact TtS.stays_set rfl rfl
  · exact TtS.stays_same rfl rfl

/-- Updates of the Timetable's records other than the two tables. -/
theorem LifeWithin.other {f : TtS → TtS} (hended : ∀ t, (f t).endedJobs = t.endedJobs) (hjobs : ∀ t, (f t).jobs = t.jobs) : (Act.tt f).Within A R :=
  h.tt _ fun t => TtS.stays_same (hended t) (hjobs t)

theorem LifeWithin.power : PowerWithin A R where
  obj k hk := h.obj k (.power hk)
  ctr := h.ctr
  pow := h.pow
  job j _ _ := h.job j _
  time _ _ _ := h.other (fun _ => rfl) fun _ => rfl

theorem LifeWithin.count (w : Nat) {k : Nat} (n : Nat) (hk : LifeKey k) : (Act.count w k n).Within A R := within_count w k n (h.obj k hk) h.ctr

theorem LifeWithin.offers : offers.Within A R := offers_within h.power <| h.tt _ fun t =>
  ⟨List.Subset.refl _, fun j _ hj => by
    simp only [Tab.get?_map t.jobs fun x => { x with short := false }, Option.isSome_map]
    exact hj⟩

theorem LifeWithin.inherit : inherit.Within A R := inherit_within h.power (h.obj _ .inherits) (fun c => h.obj _ (.inherited c)) fun j _ => h.job j _

theorem LifeWithin.sem (i : Nat) (f : Sem → Sem) : (Act.sem i f).Within A R := h.other (fun t => by split <;> rfl) fun t => by split <;> rfl

theorem run'_within (r : Nat) (f : Run → Run) : (Act.run' r f).Within A R := h.other (fun t => by split <;> rfl) fun t => by split <;> rfl

theorem stageReady_within (r i : Nat) (run : Run) (d : Decl) : (stageReady r i run d).Within A R := by
  simp only [stageReady, within_read]
  exact fun s => h.tt _ fun _ => TtS.stays_set rfl rfl

theorem putRecord_within {k : Nat} (r : List Byte) (hk : ∀ i < 8, LifeKey (k + i)) : (putRecord k r).Within A R := by
  simpa [putRecord] using fun i hi => h.obj _ (hk i hi)

theorem slotComplete_within (n final : Nat) (r : List Byte) : (slotComplete n final r).Within A R := by
  have hrecord := putRecord_within h r fun i hi => LifeKey.record n i hi
  simp only [slotComplete, within_read, within_all_cons, within_all_nil, within_put, within_when, within_emit, hrecord, msixRaise_within _ h.out h.dict, h.obj _ (.slot n), h.out,
    implies_true, and_self]

theorem outputChecks_within (x : Run) : (outputChecks x).Within A R := by
  simp only [outputChecks, within_read]
  intro s
  split
  · rename_i n _
    simp only [within_each, outputCheck, within_read, within_ite, within_skip, implies_true, true_and]
    intro i _ t _
    have hput := h.obj _ (.argument n i)
    split
    · split <;> simp [hput, h.ctr]
    · simp [hput]
    · simp [hput, h.ctr]
  · trivial

theorem finishRun_within (r : Nat) : (finishRun r).Within A R := by
  simp only [finishRun, within_read]
  intro s
  split
  · trivial
  · simp only [within_all_cons, within_all_nil, outputChecks_within h, true_and, and_true]
    refine ⟨h.other (fun _ => rfl) fun _ => rfl, ?_⟩
    split
    · exact slotComplete_within h _ _ _
    · rename_i f _ _
      simp only [within_all_cons, within_all_nil, h.count _ _ (.firings f), putRecord_within h _ fun i hi => .firingRecord f i hi, within_when, msixRaise_within _ h.out h.dict,
        implies_true, and_true, true_and]
      refine ⟨h.other (fun _ => rfl) fun _ => rfl, ?_⟩
      split
      · exact slotComplete_within h _ _ _
      · trivial
    · exact h.other (fun _ => rfl) fun _ => rfl

theorem publishFirings_within (f fuel : Nat) : (publishFirings f fuel).Within A R := by
  induction fuel with
  | zero => trivial
  | succ n ih =>
    simp only [publishFirings, within_read]
    intro s
    split
    · simp [finishRun_within h, ih]
    · trivial

theorem endRun_within (r : Nat) : (endRun r).Within A R := by
  simp only [endRun, within_read]
  intro s
  split
  · trivial
  · split
    · exact publishFirings_within h _ _
    · exact finishRun_within h _

theorem advance_within (r fuel : Nat) : (advance r fuel).Within A R := by
  induction fuel with
  | zero => trivial
  | succ n ih =>
    simp only [advance, within_read]
    intro s
    split
    · trivial
    · split
      · simp only [within_ite, within_all_cons, within_all_nil, run'_within h, stageReady_within h, h.count _ _ (.done _), ih, true_and, and_true]
        refine ⟨fun _ => ?_, fun _ => ?_⟩
        · split
          · split
            · exact h.count _ _ (.chunks _)
            · trivial
          · trivial
        · split
          · simp [needDomain, h.count _ _ (.wakes _), h.obj _ (.domain _)]
          · trivial
      · simp [run'_within h, ih]
      · simp [endRun_within h]

theorem advanceRun_within (r : Nat) : (advanceRun r).Within A R := by
  simp only [advanceRun, within_read]
  intro s
  split
  · exact advance_within h _ _
  · trivial

theorem semReturn_within (i : Nat) : (semReturn i).Within A R := by
  simp only [semReturn, within_read]
  intro s
  split
  · trivial
  · split
    · exact h.sem _ _
    · simp [h.sem, h.job]

theorem releaseSems_within (j : Nat) : (releaseSems j).Within A R := by
  simp only [releaseSems, within_read]
  intro s
  split
  · trivial
  · simp only [within_all_cons, within_all_nil, within_each, h.sem, semReturn_within h, h.job, implies_true, and_true]
    exact h.other (fun _ => rfl) fun _ => rfl

theorem releaseFields_within (j : Nat) : (releaseFields j).Within A R := by
  simp only [releaseFields, within_read]
  intro s
  split
  · trivial
  · simp only [within_all_cons, within_all_nil, within_each, accrueAll_within h.power, h.job, h.field, regrant_within h.power, settleAll_within h.power, implies_true, and_true,
      true_and]
    split
    · exact h.pow _
    · trivial

theorem releaseAll_within (j : Nat) : (releaseAll j).Within A R := by
  simp only [releaseAll, within_all_cons, within_all_nil, accrue_within h.power, releaseSems_within h, h.job, releaseFields_within h, and_true, true_and]
  exact h.other (fun _ => rfl) fun _ => rfl

theorem handOff_within (j : Nat) : (handOff j).Within A R := by
  simp only [handOff, within_read]
  intro s
  split
  · trivial
  · split
    · trivial
    · split
      · trivial
      · simp only [within_all_cons, within_all_nil, within_each, h.job, implies_true, and_true, true_and]
        exact h.other (fun _ => rfl) fun _ => rfl

/-- A job that may end. -/
theorem jobLeaves_within {j : Nat} (hj : ¬ J j) (status detail flags stall : Nat) : (jobLeaves j status detail flags stall).Within A R := by
  simp only [jobLeaves, within_read]
  intro s
  split
  · trivial
  · simp only [within_all_cons, within_all_nil, accrueAll_within h.power, handOff_within h, within_read, true_and, and_true]
    intro t
    split
    · trivial
    · simp only [within_all_cons, within_all_nil, releaseAll_within h, within_ite, h.count _ _ (.done _), h.count _ _ (.ended _), h.count _ _ (.wait _), h.count _ _ .fault,
        h.count _ _ .retried, within_when, run'_within h, h.inherit, implies_true, and_true, true_and]
      refine h.tt _ fun t => ⟨List.subset_append_left _ _, fun i hi hin => ?_⟩
      rw [Tab.get?_del, if_neg (fun e : i = j => hj (e ▸ hi))]
      exact hin

theorem endJob_within {j : Nat} (hj : ¬ J j) (status detail flags stall : Nat) : (endJob j status detail flags stall).Within A R := by
  simp only [endJob, within_read]
  intro s
  split
  · trivial
  · simp [jobLeaves_within h hj, advanceRun_within h, h.offers]

end

/-! ## What stays -/

theorem Act.Within.mono {A B : Part → Prop} {R Q : (Units → Units) → Prop} (hA : ∀ p, A p → B p) (hR : ∀ g, R g → Q g) {a : Act} (h : a.Within A R) : a.Within B Q := by
  induction a with
  | skip => trivial
  | seq a b iha ihb => exact ⟨iha h.1, ihb h.2⟩
  | read f ih => exact fun s => ih s (h s)
  | units f => exact hR f h
  | resetObjs f => exact ⟨fun k => hA _ (h.1 k), hA _ h.2⟩
  | _ => exact hA _ h

/-- The act forgets no job that has ended, and no job among `J` ends. -/
abbrev Act.KeepsJobs (J : Nat → Prop) (a : Act) : Prop := a.Within (fun _ => True) fun g => ∀ u, TtS.Stays J u.tt (g u).tt

theorem Act.KeepsJobs.stays {J : Nat → Prop} {a : Act} (h : a.KeepsJobs J) (s : State) : TtS.Stays J s.u.tt (a.run s).u.tt :=
  Act.Within.holds (P := fun u => TtS.Stays J s.u.tt u.tt) (Act.Within.mono (fun _ h => h) (fun _ hg u hu =>
    ⟨List.Subset.trans hu.1 (hg u).1, fun j hj hin => (hg u).2 j hj (hu.2 j hj hin)⟩) h) s ⟨List.Subset.refl _, fun _ _ h => h⟩

theorem lifeWithin_stays (J : Nat → Prop) : LifeWithin J (fun _ => True) fun g => ∀ u, TtS.Stays J u.tt (g u).tt where
  obj _ _ := trivial
  ctr := trivial
  out := trivial
  dict _ _ := TtS.stays_same rfl rfl
  pow _ _ := TtS.stays_same rfl rfl
  field _ _ _ := TtS.stays_same rfl rfl
  tt _ hf u := hf u.tt

/-- The lives of jobs keep every part of the state but slots, free values, what the part sends and the units' records. -/
theorem lifeWithin_spares {p : Part} (hobj : ∀ k, LifeKey k → Part.obj k ≠ p) (hctr : Part.ctr ≠ p) (hout : Part.out ≠ p) (J : Nat → Prop) : LifeWithin J (· ≠ p) fun _ => True where
  obj := hobj
  ctr := hctr
  out := hout
  dict _ := trivial
  pow _ := trivial
  field _ _ := trivial
  tt _ _ := trivial

/-- Job `j` is in the job table. -/
def State.hasJob (s : State) (j : Nat) : Prop := (Tab.get? s.u.tt.jobs j).isSome = true

theorem hasJob_of_get? {s : State} {j : Nat} {x : Job} (h : Tab.get? s.u.tt.jobs j = some x) : s.hasJob j := by simp [State.hasJob, h]

theorem Act.KeepsJobs.hasJob {J : Nat → Prop} {a : Act} (h : a.KeepsJobs J) {j : Nat} (hj : J j) {s : State} (hs : s.hasJob j) : (a.run s).hasJob j := (h.stays s).2 j hj hs

theorem Act.KeepsJobs.jobEnded {J : Nat → Prop} {a : Act} (h : a.KeepsJobs J) {j st d : Nat} {s : State} (hs : s.jobEnded j st d) : (a.run s).jobEnded j st d :=
  hs.imp fun _ hx => (h.stays s).1 hx

/-- A job of the table that ends is told as ended with the status. -/
theorem endJob_jobEnded {s : State} {j : Nat} (hs : s.hasJob j) (st d flags stall : Nat) : ((endJob j st d flags stall).run s).jobEnded j st d := by
  have hlife := lifeWithin_stays fun _ => True
  obtain ⟨x, hx⟩ := Option.isSome_iff_exists.1 hs
  rw [endJob, run_read, hx]
  simp only [run_all_cons, run_all_nil]
  refine Act.KeepsJobs.jobEnded hlife.offers (Act.KeepsJobs.jobEnded (advanceRun_within hlife _) ?_)
  have hleft : ((handOff j).run (accrueAll.run s)).hasJob j := Act.KeepsJobs.hasJob (handOff_within hlife j) trivial (Act.KeepsJobs.hasJob (accrueAll_within hlife.power) trivial hs)
  obtain ⟨y, hy⟩ := Option.isSome_iff_exists.1 hleft
  rw [jobLeaves, run_read, hx]
  simp only [run_all_cons, run_all_nil, run_read, hy]
  refine Act.KeepsJobs.jobEnded hlife.inherit (Act.KeepsJobs.jobEnded (run'_within hlife _ _) (Act.KeepsJobs.jobEnded (J := fun _ => True) ?_ (Act.KeepsJobs.jobEnded
    (J := fun _ => True) ?_ (Act.KeepsJobs.jobEnded (J := fun _ => True) ?_ (Act.KeepsJobs.jobEnded (J := fun _ => True) ?_ ?_)))))
  · exact (within_when ..).2 fun _ => hlife.count _ _ .retried
  · exact (within_when ..).2 fun _ => hlife.count _ _ .fault
  · exact (within_when ..).2 fun _ => hlife.count _ _ (.wait _)
  · exact (within_ite ..).2 ⟨fun _ => hlife.count _ _ (.done _), fun _ => hlife.count _ _ (.ended _)⟩
  · exact ⟨_, List.mem_append_right _ (List.mem_singleton.2 rfl)⟩

end Sys2Proof.Machine
end

section
/-! PROOFS. Jobs from their yield points to their end (R200, R205, R217 to R219). -/

namespace Sys2Proof.Machine

/-! ## The end of a chunk without steps -/

theorem overRange_nil (s : State) (j : Nat) : s.overRange j [] = false := by
  unfold State.overRange
  split
  · exact Bool.and_false _
  · rfl

theorem chunkSteps_nil (s : State) (j : Nat) : (chunkSteps j []).run s = s := by
  rw [chunkSteps, run_read]
  split <;> rfl

theorem endWith_jobEnded {s : State} {j : Nat} (hs : s.hasJob j) (st d flags stall : Nat) : ((endWith j [] st d flags stall).run s).jobEnded j st d := by
  rw [endWith, run_read, if_neg (by simp [overRange_nil])]
  simp only [run_all_cons, run_all_nil, chunkSteps_nil]
  exact endJob_jobEnded hs st d flags stall

/-! ## A property of one job -/

/-- Job `j` is in the table, with a record that satisfies `Q`. -/
def Units.jobIs (j : Nat) (Q : Job → Prop) (u : Units) : Prop := ∃ y, Tab.get? u.tt.jobs j = some y ∧ Q y

theorem jobIs_job {j : Nat} {Q : Job → Prop} {f : Job → Job} (hf : ∀ x, Q x → Q (f x)) (i : Nat) :
    (Act.job i f).Within (fun _ => True) fun g => ∀ u, u.jobIs j Q → (g u).jobIs j Q := by
  rintro u ⟨y, hy, hq⟩
  show ∃ z, Tab.get? (match Tab.get? u.tt.jobs i with
    | some x => { u.tt with jobs := Tab.set u.tt.jobs i (f x) }
    | none => u.tt).jobs j = some z ∧ Q z
  split
  · rename_i x hx
    by_cases hij : j = i
    · subst hij
      have hxy : x = y := Option.some.inj (hx.symm.trans hy)
      exact ⟨f x, (Tab.get?_set ..).trans (if_pos rfl), hf x (hxy ▸ hq)⟩
    · exact ⟨y, ((Tab.get?_set ..).trans (if_neg hij)).trans hy, hq⟩
  · exact ⟨y, hy, hq⟩

/-- What job `j` satisfies as long as only the figures of a job without fields may fall to 0. -/
theorem powerWithin_jobIs {j : Nat} {Q : Job → Prop}
    (hQ : ∀ x (f : Job.Figures), (f.units = x.units ∨ x.place = [] ∧ f.units = 0 ∨ x.place ≠ []) → Q x → Q (x.withFigures f)) :
    PowerWithin (fun _ => True) fun g => ∀ u, u.jobIs j Q → (g u).jobIs j Q where
  obj _ _ := trivial
  ctr := trivial
  pow _ _ h := h
  job i f hf := by
    rintro u ⟨y, hy, hq⟩
    show ∃ z, Tab.get? (match Tab.get? u.tt.jobs i with
      | some x => { u.tt with jobs := Tab.set u.tt.jobs i (x.withFigures (f x)) }
      | none => u.tt).jobs j = some z ∧ Q z
    split
    · rename_i x hx
      by_cases hij : j = i
      · subst hij
        have hxy : x = y := Option.some.inj (hx.symm.trans hy)
        exact ⟨_, (Tab.get?_set ..).trans (if_pos rfl), hQ x _ (hf x) (hxy ▸ hq)⟩
      · exact ⟨y, ((Tab.get?_set ..).trans (if_neg hij)).trans hy, hq⟩
    · exact ⟨y, hy, hq⟩
  time _ _ _ _ h := h

theorem offers_jobIs {j : Nat} {Q : Job → Prop}
    (hQ : ∀ x (f : Job.Figures), (f.units = x.units ∨ x.place = [] ∧ f.units = 0 ∨ x.place ≠ []) → Q x → Q (x.withFigures f))
    (hshort : ∀ x, Q x → Q { x with short := false }) : offers.Within (fun _ => True) fun g => ∀ u, u.jobIs j Q → (g u).jobIs j Q := by
  refine offers_within (powerWithin_jobIs hQ) ?_
  rintro u ⟨y, hy, hq⟩
  refine ⟨{ y with short := false }, ?_, hshort y hq⟩
  exact (Tab.get?_map u.tt.jobs (fun x => { x with short := false }) j).trans (congrArg _ hy)

/-- The job holds no field and no grant, and is declared as `d`. -/
def Job.Away (d : Decl) (x : Job) : Prop := x.place = [] ∧ x.units = 0 ∧ x.decl = d

theorem Job.away_withFigures (d : Decl) (x : Job) (f : Job.Figures) (hf : f.units = x.units ∨ x.place = [] ∧ f.units = 0 ∨ x.place ≠ []) (h : x.Away d) :
    (x.withFigures f).Away d := by
  obtain ⟨hplace, hunits, hdecl⟩ := h
  refine ⟨hplace, ?_, hdecl⟩
  rcases hf with hf | hf | hf
  · exact hf.trans hunits
  · exact hf.2
  · exact absurd hplace hf

/-- After its fields and its grant have come back. -/
theorem releaseFields_away {s : State} {j : Nat} {x : Job} (hx : Tab.get? s.u.tt.jobs j = some x) : ((releaseFields j).run s).u.jobIs j (Job.Away x.decl) := by
  have hpower := powerWithin_jobIs (j := j) (Job.away_withFigures x.decl)
  have hdecl : (Tab.get? (accrueAll.run s).u.tt.jobs j).map Job.decl = some x.decl := by
    rw [Act.SparesUnit.unit (f := fun u => (Tab.get? u.tt.jobs j).map Job.decl) s (accrueAll_within (powerWithin_job (fun _ _ => rfl) j)), hx]
    rfl
  obtain ⟨y, hy, hydecl⟩ := Option.map_eq_some_iff.1 hdecl
  rw [releaseFields, run_read, hx]
  simp only [run_all_cons, run_all_nil]
  refine Act.Within.holds (settleAll_within hpower _ _) _ (Act.Within.holds (regrant_within hpower) _ (Act.Within.holds (P := fun u => u.jobIs j (Job.Away x.decl)) ?_ _
    (Act.Within.holds (P := fun u => u.jobIs j (Job.Away x.decl)) ?_ _ ?_)))
  · split
    · exact fun _ h => h
    · trivial
  · simp only [within_each]
    exact fun _ _ _ h => h
  · rw [run_job_of_get? hy]
    exact ⟨_, (Tab.get?_set ..).trans (if_pos rfl), rfl, rfl, hydecl⟩

/-- A job that has been saved, without fields and grant. -/
def Job.Put (d : Decl) (x : Job) : Prop := (x.phase = .paused ∧ x.saved = true) ∧ x.Away d

/-! ## The commands -/

section
variable {s : State} {job : Nat} {x : Job}

theorem exec_jobYieldPoint_saves (hx : Tab.get? s.u.tt.jobs job = some x) (hphase : x.phase = .draining) (hevac : x.evac = false) (hfull : x.decl.fullSave = false)
    (hop : x.decl.op = none) (hstop : x.stop = none) (steps : List (List CarryStep)) :
    exec (.jobYieldPoint job steps) s = .next (((s.withJob job fun y => { y with mayPause := true, phase := .saving }).sending []).told) := by
  refine (need_read_told s rfl _).trans (congrArg (fun t => Host.Outcome.next (State.told t)) ?_)
  have hgo : ¬ (¬ (x.phase = .running ∨ x.phase = .draining) ∨ x.decl.fullSave = true ∨ x.decl.op.isSome = true) := by simp [hphase, hfull, hop]
  simp only [begun_u, hx, if_neg hgo, hstop]
  rw [run_job_of_get? (s := s.begun) hx, State.withJob, run_job_of_get? hx]
  simp only [hphase, hevac, ↓reduceIte, Bool.false_eq_true]
  rfl

theorem exec_jobYieldPoint_ends {st d : Nat} (hx : Tab.get? s.u.tt.jobs job = some x) (hphase : x.phase = .draining) (hfull : x.decl.fullSave = false)
    (hop : x.decl.op = none) (hstop : x.stop = some (st, d)) : ∃ t : State, exec (.jobYieldPoint job []) s = .next t.told ∧ t.jobEnded job st d := by
  have hgo : ¬ (¬ (x.phase = .running ∨ x.phase = .draining) ∨ x.decl.fullSave = true ∨ x.decl.op.isSome = true) := by simp [hphase, hfull, hop]
  refine ⟨(endWith job [] st d 0 0).run s.begun, (need_read_told s rfl _).trans (congrArg (fun t => Host.Outcome.next (State.told t)) ?_),
    endWith_jobEnded (hasJob_of_get? (s := s.begun) hx) ..⟩
  simp only [begun_u, hx, if_neg hgo, hstop]

theorem exec_jobSaveDone_pauses (hx : Tab.get? s.u.tt.jobs job = some x) (hphase : x.phase = .saving) :
    ∃ t : State, exec (.jobSaveDone job) s = .next t.told ∧ t.u.jobIs job (Job.Put x.decl) := by
  let q := s.begun.withTt fun t => { t with jobs := Tab.set t.jobs job { x with image := s.begun.imageOf x, left := (x.place, none) } }
  have hq : Tab.get? q.u.tt.jobs job = some { x with image := s.begun.imageOf x, left := (x.place, none) } := (Tab.get?_set ..).trans (if_pos rfl)
  obtain ⟨y, hy, haway⟩ := releaseFields_away hq
  have hkeep {a : Act} (ha : a.Within (fun _ => True) fun g => ∀ u : Units, u.jobIs job (Job.Put x.decl) → (g u).jobIs job (Job.Put x.decl)) {t : State}
      (ht : t.u.jobIs job (Job.Put x.decl)) : (a.run t).u.jobIs job (Job.Put x.decl) := Act.Within.holds ha t ht
  have hcount (w k n : Nat) : (Act.count w k n).Within (fun _ => True) fun g => ∀ u : Units, u.jobIs job (Job.Put x.decl) → (g u).jobIs job (Job.Put x.decl) :=
    within_count _ _ _ trivial trivial
  have hgo : ¬ x.phase ≠ .saving := not_not.2 hphase
  refine ⟨_, (need_read_told s rfl _).trans rfl, ?_⟩
  simp only [begun_u, hx, if_neg hgo, run_all_cons, run_all_nil]
  rw [run_job_of_get? (s := s.begun) hx]
  refine hkeep (offers_jobIs ?_ fun _ h => h) (hkeep ?_ (hkeep (hcount _ _ _) (hkeep ?_ ?_)))
  · exact fun z f hf hz => ⟨hz.1, Job.away_withFigures _ z f hf hz.2⟩
  · split
    · exact hcount _ _ _
    · trivial
  · exact (within_ite ..).2 ⟨fun _ => hcount _ _ _, fun _ => hcount _ _ _⟩
  · rw [run_job_of_get? hy]
    exact ⟨_, (Tab.get?_set ..).trans (if_pos rfl), ⟨rfl, rfl⟩, haway⟩

/-- The act keeps what job `j` is declared as. -/
abbrev Act.KeepsDecl (j : Nat) (a : Act) : Prop := a.SparesUnit fun u => (Tab.get? u.tt.jobs j).map Job.decl

theorem decl_job {f : Job → Job} (hf : ∀ x, (f x).decl = x.decl) (i j : Nat) : (Act.job i f).KeepsDecl j := job_keeps hf i j

/-- What becomes of a paused job's waits and counts as it is resumed. -/
def unpause (job : Nat) (x : Job) : Act := .read fun s =>
  let mine := (s.u.tt.sems.filter (fun e => e.2.handed.contains job)).map (·.1)
  .all [
    .each mine (fun i => .sem i (fun y => { y with handed := y.handed.filter (· != job) })),
    .job job (fun y => { y with
      wait := if mine.isEmpty then y.wait else none, held := mine ++ y.held, inhPaused := y.inh.isSome
      lostNs := y.lostNs + (s.time - y.pausedAt) / 4294967296 }),
    match x.pausedFor with
      | some c => .all [.count 64 (Obj.CTX_BYTES_MOVED c) x.decl.saveBytes, .job job (fun y => { y with pausedFor := none })]
      | none => .skip]

theorem unpause_keepsDecl (job : Nat) (x : Job) : (unpause job x).KeepsDecl job := by
  simp only [unpause, within_read, within_all_cons, within_all_nil, within_each, and_true]
  refine fun s => ⟨fun i _ u => ?_, ?_, ?_⟩
  · show (Tab.get? (match Tab.get? u.tt.sems i with
      | some y => { u.tt with sems := Tab.set u.tt.sems i { y with handed := y.handed.filter (· != job) } }
      | none => u.tt).jobs job).map Job.decl = _
    split <;> rfl
  · refine decl_job (fun y => ?_) job job
    rfl
  · split
    · refine ⟨within_count _ _ _ trivial trivial, decl_job (fun y => ?_) job job, trivial⟩
      rfl
    · trivial

theorem exec_jobResume_runs {place : List Nat} (hunits : Wf.jobResume job place = true) (hx : Tab.get? s.u.tt.jobs job = some x) (hphase : x.phase = .paused)
    (hpend : s.groupPending (0x4000 + x.ctx) = false) (hmay : s.mayDispatch x = true) (hshort : x.short = false) (hallow : s.allowed x = true)
    (hfits : s.placeFits x place = true)
    (hrail : s.answerRail x.decl.fields x.decl.power (s.get (Obj.PREFERRED_MV x.ctx)) place.eraseDups = some (s.get (Obj.PREFERRED_MV x.ctx))) :
    ∃ t : State, exec (.jobResume job place) s = .next t.told ∧ ∃ y, Tab.get? t.u.tt.jobs job = some y ∧ y.phase = .running ∧ y.place = place ∧ y.decl = x.decl := by
  let a := (Act.count 64 Obj.GRANT_ANSWERS 1).run s.begun
  let q := (unpause job x).run a
  have hq : (Tab.get? q.u.tt.jobs job).map Job.decl = some x.decl := by
    rw [Act.SparesUnit.unit (f := fun u => (Tab.get? u.tt.jobs job).map Job.decl) a (unpause_keepsDecl job x), run_count_u, begun_u, hx]
    rfl
  obtain ⟨y, hy, hdecl⟩ := Option.map_eq_some_iff.1 hq
  have hstale : ¬ (x.phase == .paused && s.begun.groupPending (0x4000 + x.ctx)) = true := by
    have : s.begun.groupPending (0x4000 + x.ctx) = false := hpend
    simp [this]
  have hgo : ¬ (x.phase ≠ .paused ∨ ¬ s.begun.mayDispatch x = true ∨ x.short = true ∨ ¬ s.begun.allowed x = true) := by
    have h1 : s.begun.mayDispatch x = true := hmay
    have h2 : s.begun.allowed x = true := hallow
    simp [hphase, h1, hshort, h2]
  have hroom : ¬ ¬ s.begun.placeFits x place = true := not_not.2 hfits
  have hpoint : s.begun.answerRail x.decl.fields x.decl.power (s.begun.get (Obj.PREFERRED_MV x.ctx)) place.eraseDups = some (s.begun.get (Obj.PREFERRED_MV x.ctx)) := hrail
  refine ⟨(standOn job place (s.get (Obj.PREFERRED_MV x.ctx))).run q, (need_next s hunits _).trans (congrArg Host.Outcome.next ?_), ?_⟩
  · rw [run_read, run_all_cons, run_all_cons, run_all_cons, run_all_nil]
    refine congrArg State.told ?_
    simp only [begun_u, hx, run_when, if_neg hstale, run_read, if_neg hgo, if_neg hroom, withGrant, run_all_cons, run_all_nil, if_pos hpoint]
    rfl
  · have hcore := standOn_core hy place (s.get (Obj.PREFERRED_MV x.ctx))
    obtain ⟨z, hz, heq⟩ := Option.map_eq_some_iff.1 hcore
    simp only [Job.core, Prod.mk.injEq] at heq
    obtain ⟨hzdecl, -, -, hzphase, hzplace, -⟩ := heq
    exact ⟨z, hz, hzphase, hzplace, hzdecl.trans hdecl⟩

theorem pokeTile_keepsJobs (J : Nat → Prop) (t offset : Nat) (bs : List Byte) : (pokeTile t offset bs).KeepsJobs J := by
  refine pokeTile_within trivial trivial trivial trivial trivial (fun f => ?_) (fun f => ?_) (fun code inst d0 d1 => logEv_within code inst d0 d1 trivial trivial fun f => ?_) t offset bs
  · exact fun _ => TtS.stays_same rfl rfl
  · exact fun _ => TtS.stays_same rfl rfl
  · exact fun _ => TtS.stays_same rfl rfl

/-- A stage that is the last of its run, or not, ends with its status where it would and no golden tile is lost. -/
theorem lastStage_jobEnded {ends : Act} {st d : Nat} (hends : ∀ t : State, t.hasJob job → (ends.run t).jobEnded job st d) (hs : s.hasJob job)
    (hgold : ∀ y f k, Tab.get? s.u.tt.runs x.run = some y → y.owner = .golden f k → s.goldLoss y = none) : ((lastStage job x ends).run s).jobEnded job st d := by
  have hlife := lifeWithin_stays fun _ => True
  rw [lastStage, run_read]
  split
  · exact hends s hs
  · rename_i y hy
    split
    · exact hends s hs
    · split
      · rename_i f k howner
        rw [hgold y f k hy howner]
        simp only [run_all_cons, run_all_nil]
        exact hends _ (Act.KeepsJobs.hasJob (run'_within hlife _ _) trivial hs)
      · simp only [run_all_cons, run_all_nil]
        refine hends _ (Act.KeepsJobs.hasJob (J := fun _ => True) ?_ trivial hs)
        split
        · exact pokeTile_keepsJobs _ _ _ _
        · trivial
      · exact hends s hs

theorem exec_jobEnd_ends {r : JobResult} (hx : Tab.get? s.u.tt.jobs job = some x) (hphase : x.phase = .running ∨ x.phase = .draining) (hmerged : x.merged = none)
    (hwait : x.wait = none) (hop : x.decl.op = none) (hsteps : r.steps = [])
    (hgold : ∀ y f k, Tab.get? s.u.tt.runs x.run = some y → y.owner = .golden f k → s.goldLoss y = none) :
    ∃ t : State, exec (.jobEnd job r) s = .next t.told ∧ t.jobEnded job r.status r.detail := by
  let q := (Act.job job fun y => { y with output := y.output || r.output }).run s.begun
  have hq : q = s.begun.withTt fun t => { t with jobs := Tab.set t.jobs job { x with output := x.output || r.output } } := run_job_of_get? (s := s.begun) hx _
  have hin : q.hasJob job := Act.KeepsJobs.hasJob ((lifeWithin_stays fun _ => True).job job _) trivial (hasJob_of_get? (s := s.begun) hx)
  have hgo : ¬ (¬ ((x.phase == .running || x.phase == .draining) && (x.phase == .running || x.phase == .draining)) = true ∨ x.wait.isSome = true ∨ x.decl.op.isSome = true) := by
    rcases hphase with h | h <;> simp [h, hwait, hop]
  have hends (t : State) (ht : t.hasJob job) : ((endWith job r.steps r.status r.detail r.flags r.stallNs).run t).jobEnded job r.status r.detail := by
    rw [hsteps]
    exact endWith_jobEnded ht ..
  refine ⟨_, (need_read_told s rfl _).trans rfl, ?_⟩
  simp only [begun_u, hx, hmerged, Option.bind_none, Option.getD_none, if_neg hgo, run_all_cons, run_all_nil]
  split
  · refine lastStage_jobEnded hends hin ?_
    rw [show (Act.job job fun y => { y with output := y.output || r.output }).run s.begun = _ from hq]
    exact hgold
  · exact hends _ hin

theorem exec_grantRetry (hx : Tab.get? s.u.tt.jobs job = some x) (hphase : x.phase = .ready) (hshort : x.short = true) :
    exec (.grantRetry job) s = .next (((s.sending []).counted 64 Obj.GRANT_BACKOFFS 1).withJob job fun y => { y with short := false }) := by
  refine (need_next s rfl _).trans (congrArg Host.Outcome.next ?_)
  have hgo : (x.phase == .ready && x.short) = true := by simp [hphase, hshort]
  simp only [run_read, begun_u, hx, run_when, if_pos hgo, run_all_cons, run_all_nil]
  rfl

end

/-- Settles O25. -/
theorem jobsPauseResumeAndEnd : Obligations.JobsPauseResumeAndEnd := by
  unfold Obligations.JobsPauseResumeAndEnd
  intro s job x hx
  refine ⟨fun hphase hevac hfull hop => ⟨fun hstop => exec_jobYieldPoint_saves hx hphase hevac hfull hop hstop, fun st d hstop _ =>
    exec_jobYieldPoint_ends hx hphase hfull hop hstop⟩, fun hphase => ?_,
    fun place hunits hphase hpend hmay hshort hallow hfits hrail => exec_jobResume_runs hunits hx hphase hpend hmay hshort hallow hfits hrail,
    fun r _ hphase hmerged hwait hop _ hsteps hgold => exec_jobEnd_ends hx hphase hmerged hwait hop hsteps hgold, exec_grantRetry hx⟩
  obtain ⟨t, hexec, y, hy, ⟨hpaused, hsaved⟩, hplace, hunits, hdecl⟩ := exec_jobSaveDone_pauses hx hphase
  exact ⟨t, hexec, y, hy, hpaused, hsaved, hplace, hunits, hdecl⟩

end Sys2Proof.Machine
end

section
/-! PROOFS. Barriers and the start wave (R135 to R137). -/

namespace Sys2Proof.Machine

theorem startWave_within {A : Part → Prop} {R : (Units → Units) → Prop} (waiting : List (Nat × Nat)) (hobj : ∀ k, A (.obj k)) (hctr : A .ctr)
    (hwave : ∀ ws : List (List Nat), (Act.tt fun t => { t with wave := t.wave ++ ws }).Within A R) : (startWave waiting).Within A R := by
  simp only [startWave, within_read]
  intro s
  split
  · trivial
  · simp [hobj, hwave, within_count _ _ _ (hobj _) hctr]

section
variable {s : State} {job b i : Nat} {x : Job} {r : Barrier}

/-- A barrier that is not to release: a participant is missing, or a write issued before an arrival is not complete. -/
theorem barrierReleases_waits {s : State} (hr : Tab.get? s.u.tt.bars i = some r) (h : r.arrived < r.n ∨ r.owed ≠ 0) : (barrierReleases x i).run s = s := by
  have hstays : ¬ (decide (r.n ≤ r.arrived) && r.owed == 0) = true := by
    simp only [Bool.and_eq_true, decide_eq_true_eq, beq_iff_eq]
    omega
  simp only [barrierReleases, run_read, hr, run_when, if_neg hstays]

theorem barrierReleases_releases {s : State} (hr : Tab.get? s.u.tt.bars i = some r) (hall : r.n ≤ r.arrived) (howed : r.owed = 0) :
    (barrierReleases x i).run s
      = (startWave (x.waiting r.n)).run (s.withTt fun t => { t with bars := Tab.set t.bars i { r with arrived := 0, phase := r.phase + 1, reported := false } }) := by
  have hgo : (decide (r.n ≤ r.arrived) && r.owed == 0) = true := by simp [hall, howed]
  simp only [barrierReleases, run_read, hr, run_when, if_pos hgo]
  rfl

/-- The barrier after an arrival at `now`, with `owed` writes issued before it. -/
def Barrier.arrives (r : Barrier) (owed now : Nat) : Barrier :=
  { r with arrived := min r.n (r.arrived + 1), owed := r.owed + owed, since := if r.arrived = 0 then now else r.since }

theorem exec_barrierArrival (hx : Tab.get? s.u.tt.jobs job = some x) (hphase : x.phase = .running ∨ x.phase = .draining) (hb : b < x.decl.barriers.length)
    (hi : x.bars[b]? = some i) (hr : Tab.get? s.u.tt.bars i = some r) (owed : Nat) :
    exec (.barrierArrival job b owed) s = .next ((barrierReleases x i).run (s.begun.withTt fun t => { t with bars := Tab.set t.bars i (r.arrives owed s.time) })).told := by
  refine (need_read_told s rfl _).trans (congrArg (fun t => Host.Outcome.next (State.told t)) ?_)
  have hgo : ¬ (x.phase ≠ .running ∧ x.phase ≠ .draining) := by tauto
  have hdecl : x.decl.barriers[b]? = some x.decl.barriers[b] := List.getElem?_eq_getElem hb
  simp only [begun_u, hx, if_neg hgo, hdecl, barrierMoves, run_read, hi, hr, run_seq]
  rfl

end

/-- Settles O16. -/
theorem barriersCount : Obligations.BarriersCount := by
  unfold Obligations.BarriersCount
  intro s job b i owed x r hx hphase hb hi hr r'
  have hexec := exec_barrierArrival hx hphase hb hi hr owed
  let q := s.begun.withTt fun t => { t with bars := Tab.set t.bars i r' }
  have hq : Tab.get? q.u.tt.bars i = some r' := (Tab.get?_set ..).trans (if_pos rfl)
  refine ⟨fun hwaits => hexec.trans (congrArg (fun t => Host.Outcome.next (State.told t)) (barrierReleases_waits hq hwaits)), fun hall howed => ?_,
    need_next s rfl _⟩
  have hrun := barrierReleases_releases (x := x) hq hall howed
  let rel := q.withTt fun t => { t with bars := Tab.set t.bars i { r' with arrived := 0, phase := r.phase + 1, reported := false } }
  have hbars : ((startWave (x.waiting r'.n)).run rel).u.tt.bars = rel.u.tt.bars :=
    Act.SparesUnit.unit (f := fun u => u.tt.bars) rel (startWave_within _ (fun _ => trivial) trivial fun _ _ => rfl)
  refine ⟨_, hexec.trans (congrArg (fun t => Host.Outcome.next (State.told t)) hrun), ?_, fun k hk => ?_, ?_, ?_, ?_, ?_⟩
  · rw [hbars]
    exact (Tab.get?_set ..).trans (if_pos rfl)
  · rw [hbars]
    exact ((Tab.get?_set ..).trans (if_neg hk)).trans ((Tab.get?_set ..).trans (if_neg hk))
  · exact Act.SparesUnit.unit (f := fun u => u.tt.jobs) rel (startWave_within _ (fun _ => trivial) trivial fun _ _ => rfl)
  · exact Act.Spares.bytes rel (startWave_within _ (fun _ => nofun) nofun fun _ => trivial)
  · exact Act.Spares.log rel (startWave_within _ (fun _ => nofun) nofun fun _ => trivial)
  · exact Act.Spares.out rel (startWave_within _ (fun _ => nofun) nofun fun _ => trivial)

end Sys2Proof.Machine
end

section
/-! PROOFS. Safety inputs, outputs and the line (R401 to R403). -/

namespace Sys2Proof.Machine

/-- No Quiz slice is in progress. -/
theorem abortSlice_none {s : State} (h : s.u.safe.slice = none) : abortSlice.run s = s := by
  rw [abortSlice, run_read, h]
  rfl

section
variable {s : State} (hslice : s.u.safe.slice = none)
include hslice

theorem exec_safetyInputChange (a b : Bool) : exec (.safetyInputChange a b) s = .next (State.told
    (((Act.when (a && b) (.read fun s => .all [clearCause 2 0, .when s.u.safe.bothOpen (clearCause 3 0)])).run
      ((Act.when (!a && !b) (.read fun s => .all [.safe (fun x => { x with bothOpen := true }), .when (!s.causeActive 2 0) (.count 32 Obj.IN_DEMANDS 1), raiseCause 2 0])).run
        ((s.putObj Obj.IN_STATE ((if a then 1 else 0) + (if b then 2 else 0))).sending []))))) := by
  refine (need_next s rfl _).trans (congrArg Host.Outcome.next ?_)
  rw [run_all_cons, abortSlice_none (s := s.begun) hslice, run_all_cons, run_put_begun, run_all_cons, run_all_cons, run_all_cons, run_all_nil]
  rfl

theorem exec_safetyInputChange_open (hact : s.causeActive 2 0 = false) : exec (.safetyInputChange false false) s
    = .next ((((s.putObj Obj.IN_STATE 0).sending []).withSafe fun x => { x with bothOpen := true }).counted 32 Obj.IN_DEMANDS 1 |>.raised 2 0).told := by
  rw [exec_safetyInputChange hslice]
  have hnew : (((s.putObj Obj.IN_STATE 0).sending []).causeActive 2 0) = false := hact
  simp only [Bool.and_self, Bool.not_false, run_when, Bool.false_eq_true, ↓reduceIte, run_read, run_all_cons, run_all_nil, Nat.add_zero, hnew]
  rfl

theorem exec_safetyInputChange_closed : exec (.safetyInputChange true true) s
    = .next (if s.u.safe.bothOpen then (((s.putObj Obj.IN_STATE 3).sending []).ceased 2 0).ceased 3 0 else ((s.putObj Obj.IN_STATE 3).sending []).ceased 2 0).told := by
  rw [exec_safetyInputChange hslice]
  have hopen : ((s.putObj Obj.IN_STATE 3).sending []).u.safe.bothOpen = s.u.safe.bothOpen := rfl
  simp only [Bool.and_self, Bool.not_true, run_when, Bool.false_eq_true, ↓reduceIte, run_read, run_all_cons, run_all_nil, Nat.reduceAdd, hopen]
  rfl

theorem exec_safetyInputChange_first : exec (.safetyInputChange true false) s = .next ((s.putObj Obj.IN_STATE 1).sending []).told := by
  rw [exec_safetyInputChange hslice]
  simp only [Bool.and_false, Bool.not_true, Bool.false_and, run_when, Bool.false_eq_true, ↓reduceIte, Nat.add_zero]

theorem exec_safetyInputChange_second : exec (.safetyInputChange false true) s = .next ((s.putObj Obj.IN_STATE 2).sending []).told := by
  rw [exec_safetyInputChange hslice]
  simp only [Bool.false_and, Bool.not_true, Bool.and_false, run_when, Bool.false_eq_true, ↓reduceIte, Nat.zero_add]

end

section
variable {s : State}

theorem exec_discrepancyTimeout_raises (hslice : s.u.safe.slice = none) (hin : s.get Obj.IN_STATE = 1 ∨ s.get Obj.IN_STATE = 2) (hact : s.causeActive 3 0 = false) :
    exec .discrepancyTimeout s = .next ((((s.sending []).withSafe fun x => { x with bothOpen := false }).counted 32 Obj.IN_DEMANDS 1).raised 3 0).told := by
  refine (need_read_told s rfl _).trans (congrArg (fun t => Host.Outcome.next (State.told t)) ?_)
  have hgo : ((s.begun.get Obj.IN_STATE == 1 || s.begun.get Obj.IN_STATE == 2) && !s.begun.causeActive 3 0) = true := by
    rw [show s.begun.causeActive 3 0 = false from hact, begun_get]
    rcases hin with h | h <;> simp [h]
  rw [run_when, if_pos hgo, run_all_cons, abortSlice_none (s := s.begun) hslice]
  rfl

theorem exec_safeHoldNChange_low (hdrive : s.u.safe.driving = false) : exec (.safeHoldNChange true) s
    = .next ((((s.withSafe fun x => { x with othersLow := true }).putObj Obj.HOLD_N_LEVEL 0).sending []).raised 1 0).told := by
  refine (need_next s rfl _).trans (congrArg Host.Outcome.next ?_)
  simp only [run_all_cons, run_all_nil, lineLevel, run_read, run_when]
  simp [Act.safe, hdrive]
  rfl

theorem exec_safeHoldNChange_high (hdrive : s.u.safe.driving = false) : exec (.safeHoldNChange false) s
    = .next ((((s.withSafe fun x => { x with othersLow := false }).putObj Obj.HOLD_N_LEVEL 1).sending []).ceased 1 0).told := by
  refine (need_next s rfl _).trans (congrArg Host.Outcome.next ?_)
  simp only [run_all_cons, run_all_nil, lineLevel, run_read, run_when]
  simp [Act.safe, hdrive]
  rfl

theorem exec_outputTestPulse {ch : Nat} (hch : ch < 2) (low : Bool) (hout : bit (s.get Obj.OUT_STATE) ch = true) : exec (.outputTestPulse ch low) s
    = .next ((s.withSafe fun x => { x with pulses := if low then ch :: x.pulses.filter (· != ch) else x.pulses.filter (· != ch) }).sending
        [.pin (if ch = 0 then .outA else .outB) (!low)]) := by
  refine (need_next s (decide_eq_true hch) _).trans (congrArg Host.Outcome.next ?_)
  rw [run_read, run_when, begun_get, if_pos hout]
  rfl

theorem exec_readbackFault {ch : Nat} (hch : ch < 2) : exec (.readbackFault ch) s = .next (((s.sending []).counted 32 Obj.OUT_FAULTS 1).raised 4 0).told := by
  refine (need_next s (decide_eq_true hch) _).trans (congrArg Host.Outcome.next ?_)
  rw [run_all_cons, run_all_cons, run_all_cons, run_all_nil]
  rfl

end

/-- Settles O31. -/
theorem safetyInputsAndOutputs : Obligations.SafetyInputsAndOutputs := by
  unfold Obligations.SafetyInputsAndOutputs
  intro s hslice
  refine ⟨exec_safetyInputChange_open hslice, exec_safetyInputChange_closed hslice, exec_safetyInputChange_first hslice, exec_safetyInputChange_second hslice,
    exec_discrepancyTimeout_raises hslice, fun hdrive => ⟨exec_safeHoldNChange_low hdrive, exec_safeHoldNChange_high hdrive⟩, fun ch hch => exec_readbackFault hch,
    fun ch hch hout => ⟨exec_outputTestPulse hch true hout, exec_outputTestPulse hch false hout⟩⟩

end Sys2Proof.Machine
end

section
/-! PROOFS. The device state changes (R39, R440), and outputs that are energised already (R400). -/

namespace Sys2Proof.Machine

/-! ## Nothing is left to tell -/

/-- The units' records hold nothing that is left to tell. -/
def Units.calm (u : Units) : Prop :=
  (u.tt.ended = [] ∧ u.tt.endedJobs = [] ∧ u.tt.engineFaults = [] ∧ u.tt.dueTriggers = []) ∧ u.safe.due = [] ∧ (∀ e ∈ u.streams, e.2.engines = [])
    ∧ u.dict.pendingGroups = [] ∧ ∀ e ∈ u.tt.furrows, e.2.oldScratch = none

theorem quiet_iff_calm (s : State) : s.quiet ↔ s.u.calm ∧ ∀ f < 66, s.get (Obj.FALLOW_STATUS f) ≠ 1 := by
  unfold Units.calm
  tauto

/-- Every elementary update of the act keeps what the records tell nothing of. -/
abbrev Act.KeepsCalm (a : Act) : Prop := a.Within (fun _ => True) fun g => ∀ u, u.calm → (g u).calm

theorem Act.KeepsCalm.quiet {a : Act} (h : a.KeepsCalm) {s : State} (hq : s.quiet) (hfallow : ∀ f < 66, (a.run s).get (Obj.FALLOW_STATUS f) = s.get (Obj.FALLOW_STATUS f)) :
    (a.run s).quiet := by
  obtain ⟨hcalm, hf⟩ := (quiet_iff_calm s).1 hq
  exact (quiet_iff_calm _).2 ⟨Act.Within.holds h s hcalm, fun f hlt => by rw [hfallow f hlt]; exact hf f hlt⟩

theorem keepsCalm_safe {f : SafeS → SafeS} (hf : ∀ x, (f x).due = x.due) : (Act.safe f).KeepsCalm := fun _ ⟨htt, hdue, hrest⟩ => ⟨htt, (hf _).trans hdue, hrest⟩

theorem keepsCalm_dict {f : DictS → DictS} (hf : ∀ d, (f d).pendingGroups = d.pendingGroups) : (Act.dict f).KeepsCalm :=
  fun _ ⟨htt, hdue, hstreams, hgroups, hfurrows⟩ => ⟨htt, hdue, hstreams, (hf _).trans hgroups, hfurrows⟩

theorem Tab.mem_of_mem_set {α : Type} {t : Tab α} {k : Nat} {a : α} {e : Nat × α} (h : e ∈ Tab.set t k a) : e ∈ t ∨ e = (k, a) := by
  induction t with
  | nil => exact .inr (List.mem_singleton.1 h)
  | cons x t ih =>
    simp only [Tab.set] at h
    split at h
    · exact (List.mem_cons.1 h).symm
    · split at h
      · exact (List.mem_cons.1 h).elim .inr fun h => .inl (List.mem_cons_of_mem _ h)
      · refine (List.mem_cons.1 h).elim (fun h => .inl (h ▸ List.mem_cons_self ..)) fun h => (ih h).imp_left (List.mem_cons_of_mem _)

theorem Tab.at_cases {α : Type} (t : Tab α) (k : Nat) (d : α) : Tab.at t k d = d ∨ (k, Tab.at t k d) ∈ t := by
  induction t with
  | nil => exact .inl rfl
  | cons x t ih =>
    simp only [Tab.at, Tab.get?] at ih ⊢
    split
    · rename_i hk
      exact .inr (hk ▸ List.mem_cons_self ..)
    · exact ih.imp_right (List.mem_cons_of_mem _)

/-- What the records of a table satisfy, and the default, they satisfy after an update that keeps it. -/
theorem Tab.forall_upd {α : Type} {P : α → Prop} {t : Tab α} {k : Nat} {d : α} {f : α → α} (hd : P d) (hf : ∀ a, P a → P (f a)) (h : ∀ e ∈ t, P e.2) :
    ∀ e ∈ Tab.upd t k d f, P e.2 := by
  intro e he
  rcases Tab.mem_of_mem_set he with he | rfl
  · exact h e he
  · rcases Tab.at_cases t k d with hat | hat
    · exact hf _ (hat.symm ▸ hd)
    · exact hf _ (h _ hat)

theorem keepsCalm_furrow (n : Nat) {f : Furrow → Furrow} (hf : ∀ x, (f x).oldScratch = x.oldScratch) : (Act.furrow n f).KeepsCalm :=
  fun _ ⟨htt, hdue, hstreams, hgroups, hfurrows⟩ =>
    ⟨htt, hdue, hstreams, hgroups, Tab.forall_upd (P := fun x : Furrow => x.oldScratch = none) rfl (fun x hx => (hf x).trans hx) hfurrows⟩

/-! ## The device state changes -/

/-- A slot of the table of sessions' row of session `ses`, as the opening of the session writes it. -/
abbrev Obj.ofSession (ses k : Nat) : Prop :=
  k = Obj.TRANSPORT ses ∨ k = Obj.LEVEL ses ∨ k = Obj.PEER_ID ses ∨ k = Obj.OPENED_TIME ses ∨ k = Obj.OPENED_TIME_FRAC ses ∨ k = Obj.ABORT_COUNT ses ∨ k = Obj.LAST_ABORT ses
    ∨ k = Obj.LAST_ABORT_OBJECT ses

/-- A slot that session `ses` has of its own. -/
abbrev Obj.ownOf (ses k : Nat) : Prop := k / 16777216 = ses ∧ Obj.perSession (k % 16777216) = true

/-- A slot that neither the opening of session 1 nor a change of the device state writes. -/
abbrev Obj.apartFromDev (k : Nat) : Prop := ¬ Obj.ownOf 1 k ∧ ¬ Obj.ofSession 1 k ∧ k ≠ Obj.DEVICE_STATE ∧ k ≠ Obj.STATE_CHANGES ∧ k ≠ Obj.AL_STATE

/-- Slots that take values in turn: a slot reads as before, or the value of one of the writes to it. -/
theorem run_each_put_get_cases {α : Type} (xs : List α) (k v : α → Nat) (j : Nat) : ∀ s : State,
    ((Act.each xs fun x => .put (k x) (v x)).run s).get j = s.get j ∨ ∃ x ∈ xs, k x = j ∧ ((Act.each xs fun x => .put (k x) (v x)).run s).get j = v x % 2 ^ 64 := by
  induction xs with
  | nil => exact fun _ => .inl rfl
  | cons x xs ih =>
    intro s
    rw [run_each_cons]
    rcases ih ((Act.put (k x) (v x)).run s) with h | ⟨y, hy, hk, hv⟩
    · by_cases hj : j = k x
      · exact .inr ⟨x, List.mem_cons_self .., hj.symm, h.trans ((run_put_get ..).trans (if_pos hj))⟩
      · exact .inl (h.trans ((run_put_get ..).trans (if_neg hj)))
    · exact .inr ⟨y, List.mem_cons_of_mem _ hy, hk, hv⟩

/-- A slot outside the table of sessions reads as before the opening, or its reset value where it is the session's own. -/
theorem sessionOpen_get_cases {ses k : Nat} (transport level peer : Nat) (s : State) (hrow : ¬ Obj.ofSession ses k) :
    ((sessionOpen ses transport level peer).run s).get k = s.get k
      ∨ Obj.ownOf ses k ∧ ((sessionOpen ses transport level peer).run s).get k = Obj.reset k := by
  simp only [Obj.ofSession, not_or] at hrow
  obtain ⟨h1, h2, h3, h4, h5, h6, h7, h8⟩ := hrow
  simp only [sessionOpen, run_read, run_all_cons, run_all_nil, run_put_get, h4, h5, h6, h7, h8, ↓reduceIte]
  rcases run_each_put_get_cases (s.objs.filter (fun e => e.1 / 16777216 == ses && Obj.perSession (e.1 % 16777216))) (fun e => e.1) (fun e => Obj.reset e.1) k
    ((Act.put (Obj.PEER_ID ses) peer).run ((Act.put (Obj.LEVEL ses) level).run ((Act.put (Obj.TRANSPORT ses) transport).run
      ((Act.ses ses fun x => { x with openLevel := level, certKey := peer, waiting := false, lastReq := s.time }).run s)))) with h | ⟨e, he, hk, hv⟩
  · refine .inl (h.trans ?_)
    simp only [run_put_get, h1, h2, h3, ↓reduceIte, run_ses_get]
  · have hown := (List.mem_filter.1 he).2
    simp only [Bool.and_eq_true, beq_iff_eq, hk] at hown
    refine .inr ⟨hown, hv.trans ?_⟩
    rw [hk, Nat.mod_eq_of_lt (Obj.reset_lt k)]

theorem sessionOpen_get_other {ses k : Nat} (transport level peer : Nat) (s : State) (hown : ¬ Obj.ownOf ses k) (hrow : ¬ Obj.ofSession ses k) :
    ((sessionOpen ses transport level peer).run s).get k = s.get k :=
  (sessionOpen_get_cases transport level peer s hrow).resolve_right fun h => hown h.1

theorem setDev_get_cases {k : Nat} (d : Nat) (s : State) (hrow : ¬ Obj.ofSession 1 k) (h1 : k ≠ Obj.DEVICE_STATE) (h2 : k ≠ Obj.STATE_CHANGES) (h3 : k ≠ Obj.AL_STATE) :
    ((setDev d).run s).get k = s.get k ∨ Obj.ownOf 1 k ∧ ((setDev d).run s).get k = Obj.reset k := by
  have hsame : ((Act.put Obj.AL_STATE (alOf d)).run ((Act.wrap 32 Obj.STATE_CHANGES 1).run ((Act.put Obj.DEVICE_STATE d).run s))).get k = s.get k := by
    simp only [run_wrap, run_put_get, h1, h2, h3, ↓reduceIte]
  simp only [setDev, run_all_cons, run_all_nil, run_read, run_when, run_units_get]
  split
  · rw [← hsame]
    exact sessionOpen_get_cases _ _ _ _ hrow
  · exact .inl hsame

theorem setDev_get_other {k : Nat} (d : Nat) (s : State) (h : Obj.apartFromDev k) : ((setDev d).run s).get k = s.get k := by
  obtain ⟨hown, hrow, h1, h2, h3⟩ := h
  exact (setDev_get_cases d s hrow h1 h2 h3).resolve_right fun h => hown h.1

theorem setDev_dev (d : Nat) (s : State) : ((setDev d).run s).dev = d % 2 ^ 64 := by
  have h2 : Obj.DEVICE_STATE ≠ Obj.STATE_CHANGES := by decide
  have h3 : Obj.DEVICE_STATE ≠ Obj.AL_STATE := by decide
  have hsame : ((Act.put Obj.AL_STATE (alOf d)).run ((Act.wrap 32 Obj.STATE_CHANGES 1).run ((Act.put Obj.DEVICE_STATE d).run s))).get Obj.DEVICE_STATE = d % 2 ^ 64 := by
    simp only [run_wrap, run_put_get, h2, h3, ↓reduceIte]
  simp only [State.dev, setDev, run_all_cons, run_all_nil, run_read, run_when, run_units_get]
  split
  · rw [sessionOpen_get_other _ _ _ _ (by decide) (by decide), hsame]
  · exact hsame

section
variable {A : Part → Prop} {R : (Units → Units) → Prop}

theorem setDev_within (d : Nat) (hobj : ∀ k, A (.obj k)) (hdict : ∀ f, (Act.dict f).Within A R)
    (hlinks : ∀ f : LinkS → LinkS, R fun u => { u with links := f u.links }) : (setDev d).Within A R := by
  have hlines (s : State) := hlinks fun l => { l with lines := l.lines.map (fun e => if s.get (Obj.LINE_STATE e.1) = 3 then e else (e.1, { e.2 with al := s.lineAl e.1 })) }
  simp only [setDev, within_all_cons, within_all_nil, within_put, within_wrap, within_read, within_when, within_units, hobj, sessionOpen_within _ _ _ _ hobj hdict, hlines,
    implies_true, and_self]

end

theorem sessionOpen_keepsCalm (ses transport level peer : Nat) : (sessionOpen ses transport level peer).KeepsCalm := by
  simp only [sessionOpen, within_read, within_all_cons, within_all_nil, within_put, within_each, implies_true, and_true, Act.ses_eq_dict]
  exact fun _ => keepsCalm_dict fun _ => rfl

theorem setDev_keepsCalm (d : Nat) : (setDev d).KeepsCalm := by
  simp only [setDev, within_all_cons, within_all_nil, within_put, within_wrap, within_read, within_when, within_units, sessionOpen_keepsCalm, implies_true, and_true, true_and]
  exact fun _ _ h => h

/-! ## Outputs that are energised already -/

/-- Both outputs energised, and both inputs closed, in an OPERATIONAL device whose store of slots is not in rising order. -/
def energisedUnsorted : State :=
  { State.reset with objs := [(Obj.DEVICE_STATE, 3), (Obj.TRANSPORT 2, 3), (Obj.LEVEL 2, 3), (Obj.IN_STATE, 3), (Obj.HOLD_N_LEVEL, 0), (Obj.OUT_STATE, 3)] }

/-- A write that energises outputs that are energised changes no slot. -/
theorem exec_outputsEnable_energised {s : State} {ses : Nat} (hses : ses < 16) (hadm : s.admits ses Obj.OUTPUTS_ENABLE 1 .saf) (hdev : s.dev = Dev.OP)
    (hin : s.get Obj.IN_STATE = 3) (hout : s.get Obj.OUT_STATE = 3) : exec (.outputsEnable ses 1) s = .next (s.sending (replies ses 0)) := by
  refine (exec_guarded_takes (decide_eq_true hses) rfl hadm (if_pos ⟨rfl, hdev, hin⟩)).trans (congrArg Host.Outcome.next ?_)
  rw [run_when, begun_get, if_neg (by simp [hout]), begun_also]

/-- Refutes O32: in a state whose store of slots is not in canonical form, OUTPUTS_ENABLE with both outputs energised already leaves the store as it is, while the statement
has `OUT_STATE` written in it once more, in its place in rising order. -/
theorem not_safetyWrites : ¬ Obligations.SafetyWrites := by
  unfold Obligations.SafetyWrites
  intro h
  have hadm : energisedUnsorted.admits 2 Obj.OUTPUTS_ENABLE 1 .saf := by decide +kernel
  have hin : energisedUnsorted.get Obj.IN_STATE = 3 := by decide +kernel
  have hout : energisedUnsorted.get Obj.OUT_STATE = 3 := by decide +kernel
  have hdev : energisedUnsorted.dev = Dev.OP := by decide +kernel
  obtain ⟨-, henable, -⟩ := h energisedUnsorted 2 (by decide)
  have heq := (exec_outputsEnable_energised (by decide) hadm hdev hin hout).symm.trans (henable hadm hdev hin)
  have hobjs : energisedUnsorted.objs = Slots.put energisedUnsorted.objs Obj.OUT_STATE 3 := congrArg State.objs (Host.Outcome.next.inj heq)
  exact absurd hobjs (by decide +kernel)

end Sys2Proof.Machine
end

section
/-! PROOFS. Causes and their reactions (R214, R398, R399, R403, R440, R535). -/

namespace Sys2Proof.Machine

/-! ## Bits -/

theorem State.get_lt (s : State) (k : Nat) : s.get k < 2 ^ 64 := by
  unfold State.get
  split
  · exact BitVec.isLt _
  · exact Obj.reset_lt k

/-- A bit that is clear leaves room for its value. -/
theorem add_two_pow_lt {m b w : Nat} (hm : m < 2 ^ w) (hb : b < w) (hclear : bit m b = false) : m + 2 ^ b < 2 ^ w := by
  obtain ⟨k, rfl⟩ := Nat.exists_eq_add_of_lt hb
  have hpow : 2 ^ (b + k + 1) = 2 ^ b * (2 * 2 ^ k) := by ring
  have hdiv : m / 2 ^ b < 2 * 2 ^ k := Nat.div_lt_of_lt_mul (hpow ▸ hm)
  have heven : m / 2 ^ b % 2 ≠ 1 := by simpa [bit] using hclear
  have hroom : m / 2 ^ b + 2 ≤ 2 * 2 ^ k := by omega
  calc m + 2 ^ b < 2 ^ b * (m / 2 ^ b + 1) + 2 ^ b := Nat.add_lt_add_right (Nat.lt_mul_div_succ m (Nat.two_pow_pos b)) _
    _ = 2 ^ b * (m / 2 ^ b + 2) := by ring
    _ ≤ 2 ^ b * (2 * 2 ^ k) := Nat.mul_le_mul_left _ hroom
    _ = 2 ^ (b + k + 1) := hpow.symm

theorem setBit_lt {m b w : Nat} (hm : m < 2 ^ w) (hb : b < w) : setBit m b < 2 ^ w := by
  unfold setBit
  split
  · exact hm
  · exact add_two_pow_lt hm hb (Bool.eq_false_iff.2 ‹_›)

theorem bit_setBit (m b : Nat) : bit (setBit m b) b = true := by
  unfold setBit
  split
  · assumption
  · rename_i h
    simp only [bit, decide_eq_true_eq] at h ⊢
    rw [Nat.add_div_right _ (Nat.two_pow_pos b)]
    omega

/-! ## A cause begins -/

/-- What a cause that begins leaves before its reaction: active, latched, counted and logged. -/
def raiseMarks (b i r : Nat) : Act := .all [
  .safe (fun x => { x with active := (b * 65536 + i, r) :: x.active.filter (fun e => decide (e.1 ≠ b * 65536 + i)) }),
  .modify Obj.ACTIVE_CAUSES (fun m => setBit m b), .modify Obj.LATCHED_CAUSES (fun m => setBit m b),
  .when (decide (1 ≤ r)) (.safe fun x => { x with latchedHigh := setBit x.latchedHigh b }),
  .count 32 Obj.SAFETY_EVENTS 1,
  .read fun s => logNoted (tripNote b i) (0x0E00 + b) (causeInstance b i) (s.get Obj.ACTIVE_CAUSES) b]

/-- Cause `b`, of reaction 1 or 2, is noted among those raised since the device entered SAFE-HOLD. -/
def noteSinceHold (b : Nat) : Act := .all [
  .read fun s => .when (s.dev == Dev.OP) (.safe fun x => { x with sinceHold := [] }),
  .read fun s => .when (s.dev == Dev.OP || s.dev == Dev.HOLD) (.safe fun x => { x with sinceHold := b :: x.sinceHold.filter (· != b) })]

/-- The reaction of a cause that begins. -/
def raiseReacts (b r : Nat) : Act := .all [.when (decide (1 ≤ r)) (.all [noteSinceHold b, enterHold, driveLine]), .when (r == 2) deEnergise]

theorem raised_of_new {s : State} {b i : Nat} (h : s.causeActive b i = false) :
    s.raised b i = (raiseReacts b (s.reaction b i)).run ((raiseMarks b i (s.reaction b i)).run s) := by
  have hreacts (t : State) : (raiseReacts b (s.reaction b i)).run t = (Act.when (s.reaction b i == 2) deEnergise).run ((Act.when (decide (1 ≤ s.reaction b i)) (.all [
      .read fun s => .when (s.dev == Dev.OP) (.safe fun x => { x with sinceHold := [] }),
      .read fun s => .when (s.dev == Dev.OP || s.dev == Dev.HOLD) (.safe fun x => { x with sinceHold := b :: x.sinceHold.filter (· != b) }), enterHold, driveLine])).run t) := by
    simp only [raiseReacts, noteSinceHold, run_all_cons, run_all_nil, run_when]
  rw [State.raised, raiseCause, run_read, if_neg (by rw [h]; exact Bool.false_ne_true), hreacts, raiseNow, run_read]
  simp only [raiseMarks, run_all_cons, run_all_nil]

section
variable {A : Part → Prop} {R : (Units → Units) → Prop}

theorem tripNote_within (b i : Nat) (hlog : A .log) : (tripNote b i).Within A R := by
  simp only [tripNote, within_when]
  intro _
  split <;> exact hlog

theorem tripNote_keeps (b i : Nat) (t : State) : ((tripNote b i).run t).log.total = t.log.total ∧ ((tripNote b i).run t).log.ring = t.log.ring
    ∧ ((tripNote b i).run t).log.toFlash = t.log.toFlash := by
  unfold tripNote
  cases b == 11
  · exact ⟨rfl, rfl, rfl⟩
  · rcases i with _ | _ | _ | _ | i <;> exact ⟨rfl, rfl, rfl⟩

theorem raiseMarks_within (b i r : Nat) (hact : A (.obj Obj.ACTIVE_CAUSES)) (hlatch : A (.obj Obj.LATCHED_CAUSES)) (hevents : A (.obj Obj.SAFETY_EVENTS)) (hctr : A .ctr)
    (hlog : A .log) (hout : A .out) (hdict : ∀ f, (Act.dict f).Within A R)
    (hsafe : ∀ a : SafeS → List (Nat × Nat), (Act.safe fun x => { x with active := a x }).Within A R)
    (hhigh : (Act.safe fun x => { x with latchedHigh := setBit x.latchedHigh b }).Within A R) : (raiseMarks b i r).Within A R := by
  have hactive := hsafe fun x => (b * 65536 + i, r) :: x.active.filter (fun e => decide (e.1 ≠ b * 65536 + i))
  simp only [raiseMarks, within_all_cons, within_all_nil, hactive, within_modify, hact, hlatch, within_when, hhigh, within_count _ _ _ hevents hctr, within_read,
    logNoted_within (tripNote_within b i hlog) _ _ _ _ hlog hout hdict, implies_true, and_self]

theorem driveLine_within (hline : A (.obj Obj.HOLD_N_LEVEL)) (hact : A (.obj Obj.ACTIVE_CAUSES)) (hout : A .out) (hsafe : ∀ f, (Act.safe f).Within A R) :
    driveLine.Within A R := by
  simp [driveLine, lineLevel, hline, hsafe, hout, clearCause_within _ _ hact hsafe]

theorem deEnergise_within (hstate : A (.obj Obj.OUT_STATE)) (hout : A .out) (hpulses : (Act.safe fun x => { x with pulses := [] }).Within A R) : deEnergise.Within A R := by
  simp [deEnergise, hstate, hout, hpulses]

end

section
variable (b i r : Nat) (s : State)

theorem raiseMarks_get {k : Nat} (h1 : k ≠ Obj.ACTIVE_CAUSES) (h2 : k ≠ Obj.LATCHED_CAUSES) (h3 : k ≠ Obj.SAFETY_EVENTS) : ((raiseMarks b i r).run s).get k = s.get k :=
  Act.Spares.get s (raiseMarks_within b i r (Part.obj_ne h1.symm) (Part.obj_ne h2.symm) (Part.obj_ne h3.symm) nofun nofun nofun (fun _ => trivial) (fun _ => trivial) trivial)

theorem raiseMarks_dev : ((raiseMarks b i r).run s).dev = s.dev := raiseMarks_get b i r s (by decide) (by decide) (by decide)

/-- The slots and the log before the reaction. -/
theorem raiseMarks_shows (hb : b < 15) (hcount : s.get Obj.SAFETY_EVENTS + 1 < 2 ^ 32) :
    let t := (raiseMarks b i r).run s
    t.get Obj.ACTIVE_CAUSES = setBit (s.get Obj.ACTIVE_CAUSES) b ∧ t.get Obj.LATCHED_CAUSES = setBit (s.get Obj.LATCHED_CAUSES) b
      ∧ t.get Obj.SAFETY_EVENTS = s.get Obj.SAFETY_EVENTS + 1 ∧ t.lastEvent (0x0E00 + b) (causeInstance b i) (setBit (s.get Obj.ACTIVE_CAUSES) b) b
      ∧ t.log.total = s.log.total + 1 := by
  intro t
  let p := (Act.all [.safe (fun x => { x with active := (b * 65536 + i, r) :: x.active.filter (fun e => decide (e.1 ≠ b * 65536 + i)) }),
    .modify Obj.ACTIVE_CAUSES (fun m => setBit m b), .modify Obj.LATCHED_CAUSES (fun m => setBit m b),
    .when (decide (1 ≤ r)) (.safe fun x => { x with latchedHigh := setBit x.latchedHigh b })]).run s
  let q := (Act.count 32 Obj.SAFETY_EVENTS 1).run p
  have hp (k : Nat) : p.get k = if k = Obj.LATCHED_CAUSES then setBit (s.get Obj.LATCHED_CAUSES) b else if k = Obj.ACTIVE_CAUSES then setBit (s.get Obj.ACTIVE_CAUSES) b
      else s.get k := by
    have hset (k : Nat) : setBit (s.get k) b % 2 ^ 64 = setBit (s.get k) b := Nat.mod_eq_of_lt (setBit_lt (s.get_lt k) (by omega))
    have hwhen (c : Bool) (u : State) : ((Act.when c (.safe fun x => { x with latchedHigh := setBit x.latchedHigh b })).run u).get k = u.get k := by cases c <;> rfl
    simp only [p, run_all_cons, run_all_nil, hwhen, run_modify, run_put_get]
    have h1 : Obj.LATCHED_CAUSES ≠ Obj.ACTIVE_CAUSES := by decide
    rw [if_neg h1]
    simp only [show ∀ f k, ((Act.safe f).run s).get k = s.get k from fun _ _ => rfl, hset]
  have hevents : p.get Obj.SAFETY_EVENTS = s.get Obj.SAFETY_EVENTS := by
    rw [hp, if_neg (by decide), if_neg (by decide)]
  have hactive : q.get Obj.ACTIVE_CAUSES = setBit (s.get Obj.ACTIVE_CAUSES) b := by
    rw [show q.get Obj.ACTIVE_CAUSES = p.get Obj.ACTIVE_CAUSES from run_count_get _ _ _ _ (by decide), hp, if_neg (by decide), if_pos rfl]
  have ht : t = (logNoted (tripNote b i) (0x0E00 + b) (causeInstance b i) (q.get Obj.ACTIVE_CAUSES) b).run q := rfl
  have hget (k : Nat) : t.get k = q.get k := by
    rw [ht]
    exact Act.Spares.get q (logNoted_within (tripNote_within b i nofun) _ _ _ _ nofun nofun fun _ => trivial)
  have hlog := logNoted_log (note := tripNote b i) (tripNote_keeps b i) (0x0E00 + b) (causeInstance b i) (q.get Obj.ACTIVE_CAUSES) b q
  rw [← ht] at hlog
  obtain ⟨htot, hring, -⟩ := hlog
  have hplog : p.log = s.log := Act.Spares.log s (by simp [Act.safe])
  have hqtot : q.log.total = s.log.total := congrArg EventLog.total ((run_count_log ..).trans hplog)
  refine ⟨(hget _).trans hactive, ?_, ?_, ?_, htot.trans (congrArg (· + 1) hqtot)⟩
  · rw [hget, show q.get Obj.LATCHED_CAUSES = p.get Obj.LATCHED_CAUSES from run_count_get _ _ _ _ (by decide), hp, if_pos rfl]
  · rw [hget, show q.get Obj.SAFETY_EVENTS = p.get Obj.SAFETY_EVENTS + 1 from run_count_get_self _ _ _ _ (by decide) (by rw [hevents]; exact hcount), hevents]
  · rw [← hactive]
    exact lastEvent_of_ring _ _ _ _ q htot hring

theorem raiseMarks_log_still : ((raiseMarks b i r).run s).bytes = s.bytes ∧ ((raiseMarks b i r).run s).time = s.time :=
  ⟨Act.Spares.bytes s (raiseMarks_within b i r nofun nofun nofun nofun nofun nofun (fun _ => trivial) (fun _ => trivial) trivial),
    Act.Spares.time s (raiseMarks_within b i r nofun nofun nofun nofun nofun nofun (fun _ => trivial) (fun _ => trivial) trivial)⟩

theorem raiseMarks_unit {β : Type} {f : Units → β} (hdict : ∀ u d, f { u with dict := d } = f u) (hsafe : ∀ u a h, f { u with safe := { u.safe with active := a, latchedHigh := h } } = f u) :
    f ((raiseMarks b i r).run s).u = f s.u :=
  Act.SparesUnit.unit (f := f) s (raiseMarks_within b i r trivial trivial trivial trivial trivial trivial (fun _ u => hdict u _) (fun a u => hsafe u (a u.safe) u.safe.latchedHigh)
    fun u => hsafe u u.safe.active _)

theorem raiseMarks_active : ((raiseMarks b i r).run s).u.safe.active = (b * 65536 + i, r) :: s.u.safe.active.filter (fun e => decide (e.1 ≠ b * 65536 + i)) := by
  simp only [raiseMarks, run_all_cons, run_all_nil, run_read]
  rw [Act.SparesUnit.unit (f := fun u => u.safe.active) _ (logNoted_within (tripNote_within b i trivial) _ _ _ _ trivial trivial fun _ _ => rfl), run_count_u, run_when]
  split <;> rfl

/-! ## Reactions -/

theorem driveLine_elsewhere {s : State} (h : s.dev ≠ Dev.HOLD) : driveLine.run s = s := by
  rw [driveLine, run_read]
  exact congrArg (Act.run · s) (if_neg (by simp [h]))

theorem enterHold_elsewhere {s : State} (h : s.dev ≠ Dev.OP) : enterHold.run s = s := by
  rw [enterHold, run_read, if_neg h]
  rfl

theorem raiseReacts_none : (raiseReacts b 0).run s = s := rfl

theorem noteSinceHold_op (h : s.dev = Dev.OP) : (noteSinceHold b).run s = s.withSafe fun x => { x with sinceHold := [b] } := by
  have h1 : (s.dev == Dev.OP) = true := by simpa using h
  have h2 (t : State) (ht : t.dev = Dev.OP) : (t.dev == Dev.OP || t.dev == Dev.HOLD) = true := by simp [ht]
  simp only [noteSinceHold, run_all_cons, run_all_nil, run_read, run_when, if_pos h1]
  exact (if_pos (h2 ((Act.safe fun x => { x with sinceHold := [] }).run s) h)).trans rfl

theorem noteSinceHold_elsewhere (hop : s.dev ≠ Dev.OP) (hhold : s.dev ≠ Dev.HOLD) : (noteSinceHold b).run s = s := by
  have h1 : ¬ (s.dev == Dev.OP) = true := by simpa using hop
  have h2 : ¬ (s.dev == Dev.OP || s.dev == Dev.HOLD) = true := by simp [hop, hhold]
  simp only [noteSinceHold, run_all_cons, run_all_nil, run_read, run_when, if_neg h1, if_neg h2]

theorem noteSinceHold_within {A : Part → Prop} {R : (Units → Units) → Prop} (hsafe : ∀ f, (Act.safe f).Within A R) : (noteSinceHold b).Within A R := by
  simp [noteSinceHold, hsafe]

theorem noteSinceHold_dev : ((noteSinceHold b).run s).dev = s.dev :=
  Act.Spares.get s (noteSinceHold_within b fun _ => trivial)

/-- In a state other than OPERATIONAL and SAFE-HOLD only the outputs react. -/
theorem raiseReacts_elsewhere (hop : s.dev ≠ Dev.OP) (hhold : s.dev ≠ Dev.HOLD) : (raiseReacts b r).run s = (Act.when (r == 2) deEnergise).run s := by
  rw [raiseReacts, run_all_cons, run_all_cons, run_all_nil]
  refine congrArg (Act.run _) ?_
  rw [run_when, run_all_cons, run_all_cons, run_all_cons, run_all_nil, noteSinceHold_elsewhere b s hop hhold, enterHold_elsewhere hop, driveLine_elsewhere hhold, ite_self]

/-- What a reaction may do beside entering SAFE-HOLD. -/
def reactsHeld (b r : Nat) : Act := .all [.when (decide (1 ≤ r)) (.all [noteSinceHold b, driveLine]), .when (r == 2) deEnergise]

theorem raiseReacts_held (hop : s.dev ≠ Dev.OP) : (raiseReacts b r).run s = (reactsHeld b r).run s := by
  have hskip : enterHold.run ((noteSinceHold b).run s) = (noteSinceHold b).run s := enterHold_elsewhere (by rw [noteSinceHold_dev]; exact hop)
  rw [raiseReacts, reactsHeld, run_all_cons, run_all_cons, run_all_nil, run_all_cons, run_all_cons, run_all_nil]
  refine congrArg (Act.run _) ?_
  rw [run_when, run_when, run_all_cons, run_all_cons, run_all_cons, run_all_nil, run_all_cons, run_all_cons, run_all_nil, hskip]

theorem reactsHeld_within {A : Part → Prop} {R : (Units → Units) → Prop} (hline : A (.obj Obj.HOLD_N_LEVEL)) (hact : A (.obj Obj.ACTIVE_CAUSES)) (hstate : A (.obj Obj.OUT_STATE))
    (hout : A .out) (hsafe : ∀ f, (Act.safe f).Within A R) : (reactsHeld b r).Within A R := by
  simp [reactsHeld, noteSinceHold_within b hsafe, driveLine_within hline hact hout hsafe, deEnergise_within hstate hout (hsafe _)]

/-- An OPERATIONAL device as it enters SAFE-HOLD for cause `b`, before its jobs are asked to end. -/
def State.heldFor (s : State) (b : Nat) : State := (setDev Dev.HOLD).run (s.withSafe fun x => { x with sinceHold := [b] })

theorem raiseReacts_op (hop : s.dev = Dev.OP) (hr : r ≠ 0) :
    (raiseReacts b r).run s = (Act.when (r == 2) deEnergise).run (driveLine.run (holdTimetable.run (s.heldFor b))) := by
  have h1 : decide (1 ≤ r) = true := decide_eq_true (Nat.one_le_iff_ne_zero.2 hr)
  have henter (t : State) (ht : t.dev = Dev.OP) : enterHold.run t = holdTimetable.run ((setDev Dev.HOLD).run t) := by
    rw [enterHold, run_read, if_pos ht, run_all_cons, run_all_cons, run_all_nil]
  rw [raiseReacts, h1, run_all_cons, run_all_cons, run_all_nil]
  refine congrArg (Act.run _) ?_
  rw [run_when, if_pos rfl, run_all_cons, run_all_cons, run_all_cons, run_all_nil, henter _ ((noteSinceHold_dev b s).trans hop), noteSinceHold_op b s hop]
  rfl

end

/-! ## Entering SAFE-HOLD -/

section
variable (b : Nat) (s : State)

theorem heldFor_dev : (s.heldFor b).dev = Dev.HOLD := setDev_dev _ _

theorem heldFor_get {k : Nat} (hk : Obj.apartFromDev k) : (s.heldFor b).get k = s.get k := setDev_get_other _ _ hk

theorem heldFor_bytes : (s.heldFor b).bytes = s.bytes := Act.Spares.bytes (s.withSafe _) (setDev_within _ (fun _ => nofun) (fun _ => trivial) fun _ => trivial)
theorem heldFor_time : (s.heldFor b).time = s.time := Act.Spares.time (s.withSafe _) (setDev_within _ (fun _ => nofun) (fun _ => trivial) fun _ => trivial)
theorem heldFor_log : (s.heldFor b).log = s.log := Act.Spares.log (s.withSafe _) (setDev_within _ (fun _ => nofun) (fun _ => trivial) fun _ => trivial)
theorem heldFor_tt : (s.heldFor b).u.tt = s.u.tt :=
  Act.SparesUnit.unit (f := fun u => u.tt) (s.withSafe _) (setDev_within _ (fun _ => trivial) (fun _ _ => rfl) fun _ _ => rfl)
theorem heldFor_safe : (s.heldFor b).u.safe = { s.u.safe with sinceHold := [b] } :=
  Act.SparesUnit.unit (f := fun u => u.safe) (s.withSafe _) (setDev_within _ (fun _ => trivial) (fun _ _ => rfl) fun _ _ => rfl)

end

/-- The furrows of a state have no firing queued. -/
theorem endQueues_none {s : State} {fs : Tab Furrow} (h : ∀ e ∈ fs, e.2.queue = []) (t : State) :
    (Act.each fs fun e => .when (!s.kept e.1) (.each e.2.queue fun r => endFiring r St.SAFETY_HOLD 0)).run t = t := by
  refine run_each_keeps id _ _ (fun e he u => ?_) t
  rw [h e he, run_when]
  exact ite_self _

/-- A device with no job and no queued firing has nothing to end as it enters SAFE-HOLD. -/
theorem holdTimetable_idle {s : State} (hjobs : s.u.tt.jobs = []) (hqueues : ∀ e ∈ s.u.tt.furrows, e.2.queue = []) : holdTimetable.run s = s := by
  rw [holdTimetable, run_read, run_all_cons, run_all_cons, run_all_nil, hjobs, run_each_nil, endQueues_none hqueues]

/-- A native job that runs for no kept furrow is asked to end. -/
theorem holdTimetable_stops {s : State} {j : Nat} {x : Job} {r : Run} (hjobs : s.u.tt.jobs = [(j, x)]) (hphase : x.phase = .running) (hfull : x.decl.fullSave = false)
    (hwait : x.wait = none) (hrun : Tab.get? s.u.tt.runs x.run = some r) (hkept : s.keptRun r = false) (hqueues : ∀ e ∈ s.u.tt.furrows, e.2.queue = []) :
    holdTimetable.run s = s.withTt fun t => { t with jobs := Tab.set t.jobs j { x with stop := some (St.SAFETY_HOLD, 0), phase := .draining } } := by
  have hx : Tab.get? s.u.tt.jobs j = some x := by rw [hjobs]; exact if_pos rfl
  have hends : ¬ (x.decl.fullSave = true ∨ x.wait.isSome = true ∧ x.held = []) := by simp [hfull, hwait]
  have hstop : (stopJob j St.SAFETY_HOLD 0).run s = s.withTt fun t => { t with jobs := Tab.set t.jobs j { x with stop := some (St.SAFETY_HOLD, 0), phase := .draining } } := by
    rw [stopJob, run_read, hx]
    simp only [hphase, true_or, ↓reduceIte, if_neg hends]
    rw [run_job_of_get? hx]
    simp only [hphase, ↓reduceIte]
  rw [holdTimetable, run_read, run_all_cons, run_all_cons, run_all_nil, endQueues_none hqueues, hjobs, run_each_cons, run_each_nil]
  simp only [hrun, hkept, Bool.not_false, run_when, ↓reduceIte, hstop]

/-- Entering SAFE-HOLD for a cause other than cause 1, the island drives the line, which ends cause 1. -/
theorem driveLine_drives {s : State} {b : Nat} (hdev : s.dev = Dev.HOLD) (hsince : s.u.safe.sinceHold = [b]) (hb : b ≠ 1) :
    let t := driveLine.run s
    t.u.safe.driving = true ∧ (∀ e ∈ s.u.safe.active, e.1 ≠ 65536 → e ∈ t.u.safe.active) ∧ (s.u.safe.driving = false → t.get Obj.HOLD_N_LEVEL = 0) := by
  intro t
  have hwant : (s.dev == Dev.HOLD && s.u.safe.sinceHold.any (· != 1)) = true := by simp [hdev, hsince, hb]
  have ht : t = (if (!s.u.safe.driving) = true then Act.all [.safe (fun x => { x with driving := true }), .emit (.pin .safeHoldN false), lineLevel, clearCause 1 0] else .skip).run s := by
    show (driveLine).run s = _
    rw [driveLine, run_read]
    simp only [hwant, Bool.true_and]
  cases hdrive : s.u.safe.driving with
  | true =>
    rw [hdrive] at ht
    rw [show t = s from ht]
    exact ⟨hdrive, fun e he _ => he, nofun⟩
  | false =>
    rw [hdrive] at ht
    let q := (Act.all [.safe (fun x => { x with driving := true }), .emit (.pin .safeHoldN false), lineLevel]).run s
    have htq : t = (clearCause 1 0).run q := ht
    have hq : q.get Obj.HOLD_N_LEVEL = 0 := by
      simp only [q, run_all_cons, run_all_nil, lineLevel, run_read, run_put_get, ↓reduceIte]
      rw [show ((Act.emit (.pin .safeHoldN false)).run ((Act.safe fun x => { x with driving := true }).run s)).u.safe.driving = true from rfl, Bool.true_or, if_pos rfl, Nat.zero_mod]
    refine ⟨?_, fun e he hne => ?_, fun _ => ?_⟩
    · rw [htq]
      exact (Act.SparesUnit.unit (f := fun u => u.safe.driving) q (by simp [clearCause, Act.safe])).trans rfl
    · have hact : t.u.safe.active = s.u.safe.active.filter fun e => decide (e.1 ≠ 1 * 65536 + 0) := by
        rw [htq, clearCause, run_read, run_all_cons, run_all_cons, run_all_nil]
        exact (Act.SparesUnit.unit (f := fun u => u.safe.active) _ (by simp)).trans rfl
      rw [hact]
      exact List.mem_filter.2 ⟨he, decide_eq_true hne⟩
    · rw [htq, Act.Spares.get q (k := Obj.HOLD_N_LEVEL) (by simp [clearCause, Act.safe])]
      exact hq

theorem driveLine_cause1 {s : State} (hsince : s.u.safe.sinceHold = [1]) : driveLine.run s = s := by
  have hwant : (s.dev == Dev.HOLD && s.u.safe.sinceHold.any (· != 1)) = false := by simp [hsince]
  rw [driveLine, run_read]
  simp only [hwant, Bool.false_and, Bool.false_eq_true, ↓reduceIte]
  rfl

theorem whenDeEnergise_within {A : Part → Prop} {R : (Units → Units) → Prop} (c : Bool) (hstate : A (.obj Obj.OUT_STATE)) (hout : A .out)
    (hpulses : (Act.safe fun x => { x with pulses := [] }).Within A R) : (Act.when c deEnergise).Within A R :=
  (within_when ..).2 fun _ => deEnergise_within hstate hout hpulses

theorem whenDeEnergise_out (r : Nat) (s : State) : ((Act.when (r == 2) deEnergise).run s).get Obj.OUT_STATE = if r = 2 then 0 else s.get Obj.OUT_STATE := by
  by_cases h : r = 2
  · rw [if_pos h, run_when, if_pos (by simp [h]), deEnergise, run_read, run_all_cons, run_all_cons, run_all_cons, run_all_nil]
    rw [Act.Spares.get _ (k := Obj.OUT_STATE) (by simp)]
    exact (run_put_get s Obj.OUT_STATE 0 _).trans (if_pos rfl)
  · rw [if_neg h, run_when, if_neg (by simpa using h)]

/-! ## What the reaction leaves -/

section
variable {s : State} {b i : Nat} (hb : b < 15) (hnew : s.causeActive b i = false) (hcount : s.get Obj.SAFETY_EVENTS + 1 < 2 ^ 32)
include hb hnew hcount

/-- In a state other than OPERATIONAL the reaction leaves the device state, the latch, the count and the log. -/
theorem raised_elsewhere (hop : s.dev ≠ Dev.OP) :
    let t := s.raised b i
    t.dev = s.dev ∧ t.get Obj.LATCHED_CAUSES = setBit (s.get Obj.LATCHED_CAUSES) b ∧ t.get Obj.SAFETY_EVENTS = s.get Obj.SAFETY_EVENTS + 1 ∧ t.bytes = s.bytes
      ∧ t.time = s.time ∧ t.lastEvent (0x0E00 + b) (causeInstance b i) (setBit (s.get Obj.ACTIVE_CAUSES) b) b ∧ t.log.total = s.log.total + 1 := by
  intro t
  let m := (raiseMarks b i (s.reaction b i)).run s
  obtain ⟨-, hlatch, hevents, hlast, htotal⟩ := raiseMarks_shows b i (s.reaction b i) s hb hcount
  obtain ⟨hbytes, htime⟩ := raiseMarks_log_still b i (s.reaction b i) s
  have hdev : m.dev = s.dev := raiseMarks_dev ..
  have ht : t = (reactsHeld b (s.reaction b i)).run m := (raised_of_new hnew).trans (raiseReacts_held _ _ _ (by rw [hdev]; exact hop))
  have hget {k : Nat} (h1 : k ≠ Obj.HOLD_N_LEVEL) (h2 : k ≠ Obj.ACTIVE_CAUSES) (h3 : k ≠ Obj.OUT_STATE) : t.get k = m.get k := by
    rw [ht]
    exact Act.Spares.get m (reactsHeld_within _ _ (Part.obj_ne h1.symm) (Part.obj_ne h2.symm) (Part.obj_ne h3.symm) nofun fun _ => trivial)
  have hlog : t.log = m.log := by
    rw [ht]
    exact Act.Spares.log m (reactsHeld_within _ _ nofun nofun nofun nofun fun _ => trivial)
  refine ⟨(hget (by decide) (by decide) (by decide)).trans hdev, (hget (by decide) (by decide) (by decide)).trans hlatch,
    (hget (by decide) (by decide) (by decide)).trans hevents, ?_, ?_, lastEvent_congr hlog hlast, by rw [hlog]; exact htotal⟩
  · rw [ht]
    exact (Act.Spares.bytes m (reactsHeld_within _ _ nofun nofun nofun nofun fun _ => trivial)).trans hbytes
  · rw [ht]
    exact (Act.Spares.time m (reactsHeld_within _ _ nofun nofun nofun nofun fun _ => trivial)).trans htime

/-- In a state other than OPERATIONAL and SAFE-HOLD nothing but the outputs reacts. -/
theorem raised_outside (hop : s.dev ≠ Dev.OP) (hhold : s.dev ≠ Dev.HOLD) :
    let t := s.raised b i
    t.causeActive b i = true ∧ t.get Obj.ACTIVE_CAUSES = setBit (s.get Obj.ACTIVE_CAUSES) b ∧ t.get Obj.OUT_STATE = (if s.reaction b i = 2 then 0 else s.get Obj.OUT_STATE)
      ∧ ∀ k, k ≠ Obj.ACTIVE_CAUSES → k ≠ Obj.LATCHED_CAUSES → k ≠ Obj.SAFETY_EVENTS → k ≠ Obj.OUT_STATE → t.get k = s.get k := by
  intro t
  let m := (raiseMarks b i (s.reaction b i)).run s
  have hdev : m.dev = s.dev := raiseMarks_dev ..
  have ht : t = (Act.when (s.reaction b i == 2) deEnergise).run m :=
    (raised_of_new hnew).trans (raiseReacts_elsewhere _ _ _ (by rw [hdev]; exact hop) (by rw [hdev]; exact hhold))
  have hget {k : Nat} (h : k ≠ Obj.OUT_STATE) : t.get k = m.get k := by
    rw [ht]
    exact Act.Spares.get m (whenDeEnergise_within _ (Part.obj_ne h.symm) nofun trivial)
  refine ⟨?_, (hget (by decide)).trans (raiseMarks_shows b i _ s hb hcount).1, ?_, fun k h1 h2 h3 h4 => (hget h4).trans (raiseMarks_get _ _ _ _ h1 h2 h3)⟩
  · have hact : t.u.safe.active = m.u.safe.active := by
      rw [ht]
      exact Act.SparesUnit.unit (f := fun u => u.safe.active) m (whenDeEnergise_within _ trivial trivial fun _ => rfl)
    rw [State.causeActive, hact, raiseMarks_active]
    simp
  · rw [ht, whenDeEnergise_out, raiseMarks_get _ _ _ _ (by decide) (by decide) (by decide)]

/-- In an OPERATIONAL device a cause without reaction does nothing more. -/
theorem raised_quietly (hop : s.dev = Dev.OP) (hr : s.reaction b i = 0) :
    let t := s.raised b i
    t.dev = Dev.OP ∧ t.get Obj.OUT_STATE = s.get Obj.OUT_STATE ∧ t.causeActive b i = true ∧ t.get Obj.LATCHED_CAUSES = setBit (s.get Obj.LATCHED_CAUSES) b
      ∧ t.get Obj.SAFETY_EVENTS = s.get Obj.SAFETY_EVENTS + 1 ∧ t.bytes = s.bytes ∧ t.time = s.time := by
  intro t
  have ht : t = (raiseMarks b i 0).run s := by
    have := raised_of_new hnew
    rw [hr, raiseReacts_none] at this
    exact this
  obtain ⟨-, hlatch, hevents, -, -⟩ := raiseMarks_shows b i 0 s hb hcount
  obtain ⟨hbytes, htime⟩ := raiseMarks_log_still b i 0 s
  rw [ht]
  refine ⟨(raiseMarks_dev b i 0 s).trans hop, raiseMarks_get _ _ _ _ (by decide) (by decide) (by decide), ?_, hlatch, hevents, hbytes, htime⟩
  rw [State.causeActive, raiseMarks_active]
  simp

omit hb hcount in
/-- The part of the reaction of an OPERATIONAL device that comes before its jobs are asked to end. -/
theorem raised_op (hop : s.dev = Dev.OP) (hr : s.reaction b i ≠ 0) :
    let h := ((raiseMarks b i (s.reaction b i)).run s).heldFor b
    s.raised b i = (Act.when (s.reaction b i == 2) deEnergise).run (driveLine.run (holdTimetable.run h)) ∧ h.u.tt = s.u.tt ∧ h.dev = Dev.HOLD
      ∧ (∀ k, Obj.apartFromDev k → k ≠ Obj.ACTIVE_CAUSES → k ≠ Obj.LATCHED_CAUSES → k ≠ Obj.SAFETY_EVENTS → h.get k = s.get k) := by
  intro h
  let m := (raiseMarks b i (s.reaction b i)).run s
  refine ⟨(raised_of_new hnew).trans (raiseReacts_op _ _ _ ((raiseMarks_dev ..).trans hop) hr), (heldFor_tt b m).trans ?_, heldFor_dev b m,
    fun k hk h1 h2 h3 => (heldFor_get b m hk).trans (raiseMarks_get _ _ _ _ h1 h2 h3)⟩
  exact raiseMarks_unit (f := fun u => u.tt) b i _ s (fun _ _ => rfl) fun _ _ _ => rfl

/-- An OPERATIONAL device without jobs and queued firings enters SAFE-HOLD. -/
theorem raised_holds (hop : s.dev = Dev.OP) (hr : s.reaction b i ≠ 0) (hjobs : s.u.tt.jobs = []) (hqueues : ∀ e ∈ s.u.tt.furrows, e.2.queue = []) (hi : i < 65536) :
    let t := s.raised b i
    (t.dev = Dev.HOLD ∧ t.lastEvent (0x0E00 + b) (causeInstance b i) (setBit (s.get Obj.ACTIVE_CAUSES) b) b ∧ t.log.total = s.log.total + 1
      ∧ (s.reaction b i = 2 → t.get Obj.OUT_STATE = 0)
      ∧ (b ≠ 1 → t.u.safe.driving = true ∧ t.causeActive b i = true ∧ (s.u.safe.driving = false → t.get Obj.HOLD_N_LEVEL = 0))
      ∧ (b = 1 → t.u.safe.driving = s.u.safe.driving))
    ∧ t.get Obj.LATCHED_CAUSES = setBit (s.get Obj.LATCHED_CAUSES) b ∧ t.get Obj.SAFETY_EVENTS = s.get Obj.SAFETY_EVENTS + 1 ∧ t.bytes = s.bytes ∧ t.time = s.time := by
  intro t
  let m := (raiseMarks b i (s.reaction b i)).run s
  let h := m.heldFor b
  obtain ⟨ht, htt, hdev, -⟩ := raised_op hnew hop hr
  obtain ⟨-, hlatch, hevents, hlast, htotal⟩ := raiseMarks_shows b i (s.reaction b i) s hb hcount
  obtain ⟨hbytes, htime⟩ := raiseMarks_log_still b i (s.reaction b i) s
  have hidle : holdTimetable.run h = h := holdTimetable_idle (by rw [htt]; exact hjobs) (by rw [htt]; exact hqueues)
  rw [hidle] at ht
  let d := driveLine.run h
  have ht : t = (Act.when (s.reaction b i == 2) deEnergise).run d := ht
  have hget {k : Nat} (h1 : k ≠ Obj.HOLD_N_LEVEL) (h2 : k ≠ Obj.ACTIVE_CAUSES) (h3 : k ≠ Obj.OUT_STATE) : t.get k = h.get k := by
    rw [ht, Act.Spares.get d (whenDeEnergise_within _ (Part.obj_ne h3.symm) nofun trivial)]
    exact Act.Spares.get h (driveLine_within (Part.obj_ne h1.symm) (Part.obj_ne h2.symm) nofun fun _ => trivial)
  have hlog : t.log = m.log := by
    rw [ht, Act.Spares.log d (whenDeEnergise_within _ nofun nofun trivial)]
    exact (Act.Spares.log h (driveLine_within nofun nofun nofun fun _ => trivial)).trans (heldFor_log b m)
  have htsafe {β : Type} {f : SafeS → β} (hf : ∀ x ps, f { x with pulses := ps } = f x) : f t.u.safe = f d.u.safe := by
    rw [ht]
    exact Act.SparesUnit.unit (f := fun u => f u.safe) d (whenDeEnergise_within _ trivial trivial fun u => hf u.safe _)
  have hsafe : h.u.safe = { m.u.safe with sinceHold := [b] } := heldFor_safe b m
  have hdrive : m.u.safe.driving = s.u.safe.driving := raiseMarks_unit (f := fun u => u.safe.driving) b i _ s (fun _ _ => rfl) fun _ _ _ => rfl
  refine ⟨⟨(hget (by decide) (by decide) (by decide)).trans hdev, lastEvent_congr hlog hlast, by rw [hlog]; exact htotal, fun hr2 => ?_, fun hb1 => ?_, fun hb1 => ?_⟩,
    ?_, ?_, ?_, ?_⟩
  · rw [ht, whenDeEnergise_out, if_pos hr2]
  · obtain ⟨hdriving, hactive, hlevel⟩ := driveLine_drives (s := h) (b := b) hdev (by rw [hsafe]) hb1
    refine ⟨(htsafe (f := fun x => x.driving) fun _ _ => rfl).trans hdriving, ?_, fun hs => ?_⟩
    · have hin : (b * 65536 + i, s.reaction b i) ∈ t.u.safe.active := by
        rw [htsafe (f := fun x => x.active) fun _ _ => rfl]
        refine hactive _ ?_ ?_
        · rw [hsafe]
          show _ ∈ m.u.safe.active
          rw [raiseMarks_active]
          exact List.mem_cons_self ..
        · show b * 65536 + i ≠ 65536
          omega
      rw [State.causeActive, List.any_eq_true]
      exact ⟨_, hin, decide_eq_true rfl⟩
    · rw [ht, Act.Spares.get d (whenDeEnergise_within _ (Part.obj_ne (by decide)) nofun trivial)]
      exact hlevel (by rw [hsafe]; exact hdrive.trans hs)
  · have hd : d = h := driveLine_cause1 (by rw [hsafe, hb1])
    rw [htsafe (f := fun x => x.driving) fun _ _ => rfl, hd, hsafe]
    exact hdrive
  · rw [hget (by decide) (by decide) (by decide)]
    exact (heldFor_get b m (by decide)).trans hlatch
  · rw [hget (by decide) (by decide) (by decide)]
    exact (heldFor_get b m (by decide)).trans hevents
  · rw [ht, Act.Spares.bytes d (whenDeEnergise_within _ nofun nofun trivial)]
    exact ((Act.Spares.bytes h (driveLine_within nofun nofun nofun fun _ => trivial)).trans (heldFor_bytes b m)).trans hbytes
  · rw [ht, Act.Spares.time d (whenDeEnergise_within _ nofun nofun trivial)]
    exact ((Act.Spares.time h (driveLine_within nofun nofun nofun fun _ => trivial)).trans (heldFor_time b m)).trans htime

omit hb hnew hcount in
theorem apartFromDev_F_CONTEXT (f : Nat) : Obj.apartFromDev (Obj.F_CONTEXT f) := by
  have hmod : Obj.F_CONTEXT f % 16777216 = 0x258103 := by unfold Obj.F_CONTEXT; omega
  refine ⟨fun hown => ?_, ?_⟩
  · have := hown.2
    rw [hmod] at this
    exact absurd this (by decide)
  · unfold Obj.ofSession Obj.F_CONTEXT Obj.TRANSPORT Obj.LEVEL Obj.PEER_ID Obj.OPENED_TIME Obj.OPENED_TIME_FRAC Obj.ABORT_COUNT Obj.LAST_ABORT Obj.LAST_ABORT_OBJECT Obj.DEVICE_STATE
      Obj.STATE_CHANGES Obj.AL_STATE
    omega

omit hb hnew hcount in
theorem apart_CTX_CLASS (c : Nat) : ¬ Obj.ofSession 1 (Obj.CTX_CLASS c) ∧ Obj.CTX_CLASS c ≠ Obj.DEVICE_STATE ∧ Obj.CTX_CLASS c ≠ Obj.STATE_CHANGES ∧ Obj.CTX_CLASS c ≠ Obj.AL_STATE
    ∧ Obj.CTX_CLASS c ≠ Obj.ACTIVE_CAUSES ∧ Obj.CTX_CLASS c ≠ Obj.LATCHED_CAUSES ∧ Obj.CTX_CLASS c ≠ Obj.SAFETY_EVENTS := by
  unfold Obj.ofSession Obj.CTX_CLASS Obj.TRANSPORT Obj.LEVEL Obj.PEER_ID Obj.OPENED_TIME Obj.OPENED_TIME_FRAC Obj.ABORT_COUNT Obj.LAST_ABORT Obj.LAST_ABORT_OBJECT Obj.DEVICE_STATE
    Obj.STATE_CHANGES Obj.AL_STATE Obj.ACTIVE_CAUSES Obj.LATCHED_CAUSES Obj.SAFETY_EVENTS
  omega

omit hb hnew hcount in
/-- Of session 1's own slots two lie where the class of a context would, and both are 0 at reset. -/
theorem reset_CTX_CLASS_own {c : Nat} (hown : Obj.ownOf 1 (Obj.CTX_CLASS c)) : Obj.reset (Obj.CTX_CLASS c) = 0 := by
  obtain ⟨hses, hper⟩ := hown
  have hkeys : Obj.CTX_CLASS c = 0x1261002 ∨ Obj.CTX_CLASS c = 0x1208102 := by
    simp only [Obj.perSession, Bool.or_eq_true, Bool.and_eq_true, beq_iff_eq, decide_eq_true_eq] at hper
    unfold Obj.CTX_CLASS at hper hses ⊢
    omega
  rcases hkeys with h | h <;> rw [h] <;> decide

omit hb hnew hcount in
/-- A furrow that was not kept is not kept once the device has entered SAFE-HOLD: no object that session 1 has of its own has a reset value of 1 where the class of a context
would stand. -/
theorem heldFor_kept {f : Nat} (hkept : s.kept f = false) (r : Nat) : (((raiseMarks b i r).run s).heldFor b).kept f = false := by
  let h := ((raiseMarks b i r).run s).heldFor b
  have hget {k : Nat} (hk : Obj.apartFromDev k) (h1 : k ≠ Obj.ACTIVE_CAUSES) (h2 : k ≠ Obj.LATCHED_CAUSES) (h3 : k ≠ Obj.SAFETY_EVENTS) : h.get k = s.get k :=
    (heldFor_get b _ hk).trans (raiseMarks_get _ _ _ _ h1 h2 h3)
  have hctx : h.get (Obj.F_CONTEXT f) = s.get (Obj.F_CONTEXT f) := hget (apartFromDev_F_CONTEXT f) (by unfold Obj.F_CONTEXT Obj.ACTIVE_CAUSES; omega)
    (by unfold Obj.F_CONTEXT Obj.LATCHED_CAUSES; omega) (by unfold Obj.F_CONTEXT Obj.SAFETY_EVENTS; omega)
  have hclass (c : Nat) : h.get (Obj.CTX_CLASS c) = s.get (Obj.CTX_CLASS c) ∨ h.get (Obj.CTX_CLASS c) = 0 := by
    obtain ⟨hrow, h1, h2, h3, h4, h5, h6⟩ := apart_CTX_CLASS c
    refine (setDev_get_cases _ _ hrow h1 h2 h3).imp (fun hsame => hsame.trans (raiseMarks_get _ _ _ _ h4 h5 h6)) fun hown => ?_
    exact hown.2.trans (reset_CTX_CLASS_own hown.1)
  unfold State.kept at hkept ⊢
  rw [hctx, hget (by decide) (by decide) (by decide) (by decide)]
  rcases hclass (s.get (Obj.F_CONTEXT f)) with hc | hc
  · rw [hc]
    exact hkept
  · rw [hc]
    simp

omit hb hcount in
theorem raised_stops {j : Nat} {x : Job} {r : Run} (hop : s.dev = Dev.OP) (hr : s.reaction b i ≠ 0) (hjobs : s.u.tt.jobs = [(j, x)]) (hphase : x.phase = .running)
    (hfull : x.decl.fullSave = false) (hwait : x.wait = none) (hrun : Tab.get? s.u.tt.runs x.run = some r) (hkept : s.keptRun r = false)
    (hqueues : ∀ e ∈ s.u.tt.furrows, e.2.queue = []) :
    let t := s.raised b i
    t.dev = Dev.HOLD ∧ ∃ y, Tab.get? t.u.tt.jobs j = some y ∧ y.stop = some (St.SAFETY_HOLD, 0) ∧ y.phase = .draining ∧ y.decl = x.decl := by
  intro t
  let h := ((raiseMarks b i (s.reaction b i)).run s).heldFor b
  obtain ⟨ht, htt, hdev, -⟩ := raised_op hnew hop hr
  have hhold : h.keptRun r = false := by
    unfold State.keptRun at hkept ⊢
    split at hkept
    · exact heldFor_kept hkept _
    · exact heldFor_kept hkept _
    · rfl
  have hstop := holdTimetable_stops (s := h) (by rw [htt]; exact hjobs) hphase hfull hwait (by rw [htt]; exact hrun) hhold (by rw [htt]; exact hqueues)
  rw [hstop] at ht
  let q := h.withTt fun t => { t with jobs := Tab.set t.jobs j { x with stop := some (St.SAFETY_HOLD, 0), phase := .draining } }
  have ht : t = (Act.when (s.reaction b i == 2) deEnergise).run (driveLine.run q) := ht
  refine ⟨?_, { x with stop := some (St.SAFETY_HOLD, 0), phase := .draining }, ?_, rfl, rfl, rfl⟩
  · rw [ht]
    exact (Act.Spares.get _ (whenDeEnergise_within _ (Part.obj_ne (by decide)) nofun trivial)).trans
      ((Act.Spares.get q (driveLine_within (Part.obj_ne (by decide)) (Part.obj_ne (by decide)) nofun fun _ => trivial)).trans hdev)
  · have htt' : t.u.tt = q.u.tt := by
      rw [ht, Act.SparesUnit.unit (f := fun u => u.tt) _ (whenDeEnergise_within _ trivial trivial fun _ => rfl)]
      exact Act.SparesUnit.unit (f := fun u => u.tt) q (driveLine_within trivial trivial trivial fun _ _ => rfl)
    rw [htt']
    exact (Tab.get?_set ..).trans (if_pos rfl)

end

/-- Settles O29. -/
theorem causesAreRaised : Obligations.CausesAreRaised := by
  unfold Obligations.CausesAreRaised
  intro s b i hb hi hnew hcount t
  have hlatched {u : State} (h : u.get Obj.LATCHED_CAUSES = setBit (s.get Obj.LATCHED_CAUSES) b) : bit (u.get Obj.LATCHED_CAUSES) b = true := by
    rw [h]
    exact bit_setBit _ _
  refine ⟨fun hjobs => ?_, fun hop => ?_, raised_outside hb hnew hcount, fun hop hr => ?_, fun hop hr hjobs hqueues => (raised_holds hb hnew hcount hop hr hjobs hqueues hi).1,
    fun j x r hop hr hjobs hphase hfull hwait hrun hkept hqueues => raised_stops hnew hop hr hjobs hphase hfull hwait hrun hkept hqueues⟩
  · by_cases hop : s.dev = Dev.OP
    · by_cases hr : s.reaction b i = 0
      · obtain ⟨-, -, -, hlatch, hevents, hbytes, htime⟩ := raised_quietly hb hnew hcount hop hr
        exact ⟨hlatched hlatch, hevents, hbytes, htime⟩
      · obtain ⟨-, hlatch, hevents, hbytes, htime⟩ := raised_holds hb hnew hcount hop hr (hjobs hop hr).1 (hjobs hop hr).2 hi
        exact ⟨hlatched hlatch, hevents, hbytes, htime⟩
    · obtain ⟨-, hlatch, hevents, hbytes, htime, -⟩ := raised_elsewhere hb hnew hcount hop
      exact ⟨hlatched hlatch, hevents, hbytes, htime⟩
  · obtain ⟨hdev, -, -, -, -, hlast, htotal⟩ := raised_elsewhere hb hnew hcount hop
    exact ⟨hdev, hlast, htotal⟩
  · obtain ⟨hdev, hout, hact, -⟩ := raised_quietly hb hnew hcount hop hr
    exact ⟨hdev, hout, hact⟩

end Sys2Proof.Machine
end

section
/-! PROOFS. The voter and its cores (R395 to R397), and what slots a cause that begins leaves alone. -/

namespace Sys2Proof.Machine

/-! ## Slots that a reaction leaves alone -/

section
variable {J : Nat → Prop} {A : Part → Prop} {R : (Units → Units) → Prop} (h : LifeWithin J A R) (hJ : ∀ j, ¬ J j)
include h hJ

theorem stopJob_within (j status detail : Nat) : (stopJob j status detail).Within A R := by
  simp only [stopJob, within_read]
  intro s
  split
  · trivial
  · simp only [within_ite, h.job, endJob_within h (hJ _), implies_true, and_self]

theorem endFiring_within (r status detail : Nat) : (endFiring r status detail).Within A R := by
  simp [endFiring, dropJobs, jobLeaves_within h (hJ _), run'_within h, finishRun_within h]

theorem holdTimetable_within : holdTimetable.Within A R := by
  simp only [holdTimetable, within_read, within_all_cons, within_all_nil, within_each, within_when, endFiring_within h hJ, implies_true, and_true]
  intro s e _
  split
  · simp [stopJob_within h hJ]
  · trivial

end

/-- A slot that no cause writes as it begins: none of causes, outputs, the line, the device state, session 1, jobs and runs. -/
def Obj.apartFromCauses (k : Nat) : Prop :=
  Obj.apartFromDev k ∧ ¬ LifeKey k ∧ k ≠ Obj.ACTIVE_CAUSES ∧ k ≠ Obj.LATCHED_CAUSES ∧ k ≠ Obj.SAFETY_EVENTS ∧ k ≠ Obj.HOLD_N_LEVEL ∧ k ≠ Obj.OUT_STATE

theorem raised_get_other {k : Nat} (hk : Obj.apartFromCauses k) (s : State) (b i : Nat) : (s.raised b i).get k = s.get k := by
  obtain ⟨hdev, hlife, h1, h2, h3, h4, h5⟩ := hk
  by_cases hact : s.causeActive b i = true
  · rw [State.raised, raiseCause, run_read, if_pos hact]
    rfl
  have hnew : s.causeActive b i = false := Bool.eq_false_iff.2 hact
  by_cases hop : s.dev = Dev.OP
  · by_cases hr : s.reaction b i = 0
    · rw [raised_of_new hnew, hr, raiseReacts_none, raiseMarks_get _ _ _ _ h1 h2 h3]
    · obtain ⟨ht, -, -, hget⟩ := raised_op hnew hop hr
      rw [ht, Act.Spares.get _ (whenDeEnergise_within _ (Part.obj_ne h5.symm) nofun trivial),
        Act.Spares.get _ (driveLine_within (Part.obj_ne h4.symm) (Part.obj_ne h1.symm) nofun fun _ => trivial)]
      refine (Act.Spares.get _ (holdTimetable_within (lifeWithin_spares (fun j hj => Part.obj_ne ?_) nofun nofun fun _ => False) fun _ => id)).trans (hget k hdev h1 h2 h3)
      exact fun e => hlife (e ▸ hj)
  · rw [raised_of_new hnew, raiseReacts_held _ _ _ (by rw [raiseMarks_dev]; exact hop),
      Act.Spares.get _ (reactsHeld_within _ _ (Part.obj_ne h4.symm) (Part.obj_ne h1.symm) (Part.obj_ne h5.symm) nofun fun _ => trivial), raiseMarks_get _ _ _ _ h1 h2 h3]

theorem ceased_get_other {k : Nat} (h : k ≠ Obj.ACTIVE_CAUSES) (s : State) (b i : Nat) : (s.ceased b i).get k = s.get k :=
  Act.Spares.get s (clearCause_within b i (Part.obj_ne h.symm) fun _ => trivial)

/-! ## Roles -/

theorem powerKey_ne_coreRoles {k : Nat} (h : PowerKey k) : k ≠ Obj.CORE_ROLES := by
  cases h <;> simp only [Obj.BUDGET_STEP_DOWNS, Obj.DOM_RAIL_MV, Obj.RAIL_MV, Obj.DOM_PACER, Obj.PACER_STEP, Obj.DOM_TARGET_MV, Obj.DOM_STEPS, Obj.BUSY_NS, Obj.ENGINE_NS,
    Obj.DEGRADED_NS, Obj.CORE_ROLES] <;> omega

theorem lifeKey_ne_coreRoles {k : Nat} (h : LifeKey k) : k ≠ Obj.CORE_ROLES := by
  cases h with
  | power hp => exact powerKey_ne_coreRoles hp
  | _ =>
    simp only [Obj.INHERITANCES, Obj.CTX_INHERITED, Obj.JOBS_DONE, Obj.JOBS_ENDED, Obj.CTX_WAIT_NS, Obj.JOBS_FAULT_ENDED, Obj.JOBS_RETRIED, Obj.CHUNKS_DONE, Obj.FIRINGS_DONE,
      Obj.ARG_LEN_CHECK, Obj.COMPLETION, Obj.F_COMPLETION, Obj.STATE, Obj.DOM_STATE, Obj.DOM_WAKES, Obj.CORE_ROLES]
    omega

theorem coreRoles_apart : Obj.apartFromCauses Obj.CORE_ROLES := ⟨by decide, fun h => lifeKey_ne_coreRoles h rfl, by decide⟩

theorem coreRole_congr {s t : State} (h : t.get Obj.CORE_ROLES = s.get Obj.CORE_ROLES) (k : Nat) : t.coreRole k = s.coreRole k := by
  rw [State.coreRole, h, State.coreRole]

/-- A core takes a role, and the others keep theirs. -/
theorem putRole_coreRole {k r m : Nat} (hk : k < 4) (hr : r < 4) (hm : m < 4) (s : State) : ((putRole k r).run s).coreRole m = if m = k then r else s.coreRole m := by
  have hv : s.get Obj.CORE_ROLES < 18446744073709551616 := s.get_lt _
  simp only [State.coreRole, putRole, run_modify, run_put_get, ↓reduceIte]
  generalize s.get Obj.CORE_ROLES = v at hv
  interval_cases k <;> interval_cases m <;> simp <;> omega

theorem putRole_within {A : Part → Prop} {R : (Units → Units) → Prop} (k r : Nat) (hroles : A (.obj Obj.CORE_ROLES)) : (putRole k r).Within A R := by
  simp [putRole, hroles]

/-! ## Resynchronisation -/

section
variable {s : State}

/-- `s` with core `k` resynchronised. -/
def State.resyncing (s : State) (k : Nat) : State :=
  (((putRole k 2).run s).putObj Obj.VOTE_MODE 1).withSafe fun x => { x with resync := some k, resyncFrom := s.time, slice := none, sliceUnit := none }

theorem resyncing_get (k j : Nat) : (s.resyncing k).get j = if j = Obj.VOTE_MODE then 1 else ((putRole k 2).run s).get j := by
  show (((putRole k 2).run s).putObj Obj.VOTE_MODE 1).get j = _
  rw [putObj_get, Nat.one_mod_two_pow_eq_one.2 (by decide)]

theorem resyncing_coreRole {k m : Nat} (hk : k < 4) (hm : m < 4) : (s.resyncing k).coreRole m = if m = k then 2 else s.coreRole m := by
  rw [← putRole_coreRole hk (by decide) hm]
  exact coreRole_congr ((resyncing_get k _).trans (if_neg (by decide))) m

theorem resyncing_get_other {k j : Nat} (h1 : j ≠ Obj.VOTE_MODE) (h2 : j ≠ Obj.CORE_ROLES) : (s.resyncing k).get j = s.get j := by
  rw [resyncing_get, if_neg h1, Act.Spares.get s (putRole_within k 2 (Part.obj_ne h2.symm))]

theorem resyncing_still (k : Nat) : (s.resyncing k).bytes = s.bytes ∧ (s.resyncing k).log = s.log ∧ (s.resyncing k).out = s.out := ⟨rfl, rfl, rfl⟩

theorem beginResync_run (k : Nat) (hslice : s.u.safe.slice = none) : (beginResync k).run s = s.resyncing k := by
  rw [beginResync, run_read]
  simp only [hslice, run_all_cons, run_all_nil, run_skip]
  rfl

/-- A core that is retired leaves the reserve core in its place. -/
theorem retireCore_reserve {k r : Nat} (hk : k < 4) (hres : (List.range 4).find? (fun i => s.coreRole i == 1) = some r) (hrk : r ≠ k) (hslice : s.u.safe.slice = none) :
    let t := (retireCore k).run s
    t.coreRole k = 3 ∧ t.coreRole r = 2 ∧ t.get Obj.RESERVE_LEFT = 0 ∧ t.get Obj.VOTE_MODE = 1 ∧ t.u.safe.resync = some r ∧ t.bytes = s.bytes ∧ t.log = s.log ∧ t.out = s.out := by
  intro t
  have hr : r < 4 := List.mem_range.1 (List.mem_of_find?_eq_some hres)
  let q := (Act.put Obj.RESERVE_LEFT 0).run ((Act.safe fun x => { x with resync := none }).run ((putRole k 3).run s))
  have ht : t = q.resyncing r := by
    show (retireCore k).run s = _
    rw [retireCore, run_read]
    simp only [hres, run_all_cons, run_all_nil]
    exact beginResync_run (s := q) r hslice
  have hq (m : Nat) (hm : m < 4) : q.coreRole m = if m = k then 3 else s.coreRole m := by
    rw [← putRole_coreRole hk (by decide) hm]
    refine coreRole_congr ?_ m
    exact (run_put_get ..).trans (if_neg (by decide))
  have hrole (m : Nat) (hm : m < 4) : t.coreRole m = if m = r then 2 else q.coreRole m := by
    rw [ht]
    exact resyncing_coreRole hr hm
  refine ⟨?_, ?_, ?_, ?_, by rw [ht]; rfl, by rw [ht]; rfl, by rw [ht]; rfl, by rw [ht]; rfl⟩
  · rw [hrole k hk, if_neg hrk.symm, hq k hk, if_pos rfl]
  · rw [hrole r hr, if_pos rfl]
  · rw [ht, resyncing_get_other (by decide) (by decide)]
    exact (run_put_get ..).trans (if_pos rfl)
  · rw [ht, resyncing_get, if_pos rfl]

theorem retireCore_alone {k : Nat} (hk : k < 4) (hres : ∀ i, i < 4 → s.coreRole i ≠ 1) :
    let t := (retireCore k).run s
    t.coreRole k = 3 ∧ t.get Obj.VOTE_MODE = 2 ∧ t.u.safe.resync = none ∧ t.lastEvent Ev.TWO_OF_TWO k (t.get Obj.CORE_ROLES) 0 ∧ t.log.total = s.log.total + 1
      ∧ t.bytes = s.bytes := by
  intro t
  have hnone : (List.range 4).find? (fun i => s.coreRole i == 1) = none := by
    rw [List.find?_eq_none]
    exact fun i hi => by simpa using hres i (List.mem_range.1 hi)
  let q := (Act.put Obj.VOTE_MODE 2).run ((Act.safe fun x => { x with resync := none }).run ((putRole k 3).run s))
  have ht : t = (logEv Ev.TWO_OF_TWO k (q.get Obj.CORE_ROLES) 0).run q := by
    show (retireCore k).run s = _
    rw [retireCore, run_read]
    simp only [hnone, run_all_cons, run_all_nil, run_read]
    rfl
  have hget (j : Nat) : t.get j = q.get j := by rw [ht, run_logEv_get]
  refine ⟨?_, ?_, ?_, ?_, ?_, ?_⟩
  · rw [coreRole_congr (hget _), ← if_pos (c := k = k) (t := 3) (e := s.coreRole k) rfl, ← putRole_coreRole hk (by decide) hk]
    refine coreRole_congr ?_ k
    exact (run_put_get ..).trans (if_neg (by decide))
  · rw [hget]
    exact (run_put_get ..).trans (if_pos rfl)
  · rw [ht]
    exact (Act.SparesUnit.unit (f := fun u => u.safe.resync) q (logEv_within _ _ _ _ trivial trivial fun _ _ => rfl)).trans rfl
  · rw [hget, ht]
    exact logEv_lastEvent _ _ _ _ q
  · rw [ht, logEv_total]
    rfl
  · rw [ht, run_logEv_bytes]
    rfl

/-- An odd core that has not been odd too often is resynchronised. -/
theorem oddCore_resyncs {k : Nat} (hk : k < 4) (hcount : s.get Obj.ODD_EVENTS + 1 < 2 ^ 32) (hslice : s.u.safe.slice = none)
    (hfew : ((s.u.safe.odd.filter fun e => decide (s.time ≤ e.1 + 86400000000000 * 4294967296)).filter fun e => e.2 == k).length + 1 < s.get Obj.ODD_LIMIT) :
    let t := (oddCore k).run s
    t.get Obj.ODD_EVENTS = s.get Obj.ODD_EVENTS + 1 ∧ t.coreRole k = 2 ∧ t.get Obj.VOTE_MODE = 1 ∧ t.u.safe.resync = some k ∧ (∀ m, m < 4 → m ≠ k → t.coreRole m = s.coreRole m)
      ∧ t.bytes = s.bytes ∧ t.log = s.log ∧ t.out = s.out := by
  intro t
  let day := (s.time, k) :: s.u.safe.odd.filter (fun e => decide (s.time ≤ e.1 + 86400000000000 * 4294967296))
  let q := (Act.safe fun x => { x with odd := day }).run ((Act.count 32 Obj.ODD_EVENTS 1).run s)
  have hroom : ¬ s.get Obj.ODD_LIMIT ≤ (day.filter (fun e => e.2 == k)).length := by
    simp only [day, List.filter_cons, beq_self_eq_true, ↓reduceIte, List.length_cons]
    omega
  have hqu : q.u = { s.u with safe := { s.u.safe with odd := day } } := congrArg (fun u : Units => { u with safe := { u.safe with odd := day } }) (run_count_u s 32 Obj.ODD_EVENTS 1)
  have ht : t = q.resyncing k := by
    show (oddCore k).run s = _
    rw [oddCore, run_read, run_all_cons, run_all_cons, run_all_cons, run_all_nil, if_neg hroom]
    exact beginResync_run (s := q) k (by rw [hqu]; exact hslice)
  have hrole (m : Nat) (hm : m < 4) : t.coreRole m = if m = k then 2 else s.coreRole m := by
    have hq : q.coreRole m = s.coreRole m := coreRole_congr (run_count_get s _ _ _ (by decide)) m
    rw [← hq, ht]
    exact resyncing_coreRole hk hm
  obtain ⟨hbytes, hlog, hout⟩ := resyncing_still (s := q) k
  refine ⟨?_, by rw [hrole k hk, if_pos rfl], ?_, by rw [ht]; rfl, fun m hm hmk => by rw [hrole m hm, if_neg hmk], ?_, ?_, ?_⟩
  · rw [ht, resyncing_get_other (by decide) (by decide)]
    exact run_count_get_self s _ _ _ (by decide) hcount
  · rw [ht, resyncing_get, if_pos rfl]
  · rw [ht, hbytes]
    simp only [q, Act.safe, run_units_bytes, run_count_bytes]
  · rw [ht, hlog]
    simp only [q, Act.safe, run_units_log, run_count_log]
  · rw [ht, hout]
    simp only [q, Act.safe, run_units_out, run_count_out]

end

/-! ## The voter -/

/-- The active cores. -/
def State.actives (s : State) : List Nat := (List.range 4).filter fun k => s.coreRole k == 0

theorem actives_congr {s t : State} (h : t.get Obj.CORE_ROLES = s.get Obj.CORE_ROLES) : t.actives = s.actives := by
  simp only [State.actives, State.coreRole, h]

section
variable {s : State} {outs : List (Option Nat)}

theorem vote_two {a b : Nat} (h : s.actives = [a, b]) : (vote outs).run s = if outs.getD a none ≠ outs.getD b none then s.raised 0 0 else s := by
  have h : (List.range 4).filter (fun k => s.coreRole k == 0) = [a, b] := h
  rw [vote, run_read]
  simp only [h, run_when, bne_iff_ne]
  rfl

theorem vote_three {a b c : Nat} (h : s.actives = [a, b, c]) : (vote outs).run s =
    (if outs.getD a none = outs.getD b none ∧ outs.getD b none = outs.getD c none then .skip
    else if outs.getD a none = outs.getD b none ∧ (outs.getD a none).isSome then oddCore c
    else if outs.getD a none = outs.getD c none ∧ (outs.getD a none).isSome then oddCore b
    else if outs.getD b none = outs.getD c none ∧ (outs.getD b none).isSome then oddCore a
    else raiseCause 0 0 : Act).run s := by
  have h : (List.range 4).filter (fun k => s.coreRole k == 0) = [a, b, c] := h
  rw [vote, run_read]
  simp only [h]

/-- With none, one or four cores active there is nothing to compare. -/
theorem vote_other (h2 : s.actives.length ≠ 2) (h3 : s.actives.length ≠ 3) : (vote outs).run s = s := by
  rw [vote, run_read]
  simp only
  split
  · rename_i h
    exact absurd (congrArg List.length h) h3
  · rename_i h
    exact absurd (congrArg List.length h) h2
  · rfl

theorem vote_agrees (h : ∀ k ∈ s.actives, ∀ j ∈ s.actives, outs.getD k none = outs.getD j none) : (vote outs).run s = s := by
  by_cases h2 : s.actives.length = 2
  · obtain ⟨a, b, hab⟩ := List.length_eq_two.1 h2
    rw [vote_two hab, if_neg]
    rw [hab] at h
    exact not_not.2 (h a (by simp) b (by simp))
  by_cases h3 : s.actives.length = 3
  · obtain ⟨a, b, c, habc⟩ := List.length_eq_three.1 h3
    rw [habc] at h
    rw [vote_three habc, if_pos ⟨h a (by simp) b (by simp), h b (by simp) c (by simp)⟩]
    rfl
  exact vote_other h2 h3

theorem vote_splits {i j k : Nat} (hact : s.actives = [i, j, k]) (hij : outs.getD i none ≠ outs.getD j none) (hik : outs.getD i none ≠ outs.getD k none)
    (hjk : outs.getD j none ≠ outs.getD k none) : (vote outs).run s = s.raised 0 0 := by
  rw [vote_three hact, if_neg fun h => hij h.1, if_neg fun h => hij h.1, if_neg fun h => hik h.1, if_neg fun h => hjk h.1]
  rfl

/-- Of three active cores one that gives what the other two do not is odd. -/
theorem vote_finds {i j k v : Nat} (hperm : [i, j, k].Perm s.actives) (hi : outs.getD i none = some v) (hj : outs.getD j none = some v)
    (hk : outs.getD k none ≠ some v) : (vote outs).run s = (oddCore k).run s := by
  obtain ⟨a, b, c, habc⟩ := List.length_eq_three.1 (hperm.length_eq ▸ rfl : s.actives.length = 3)
  rw [habc] at hperm
  rw [vote_three habc]
  have hcases : (c = k ∧ outs.getD a none = some v ∧ outs.getD b none = some v) ∨ (b = k ∧ outs.getD a none = some v ∧ outs.getD c none = some v)
      ∨ (a = k ∧ outs.getD b none = some v ∧ outs.getD c none = some v) := by
    have hnodup : [a, b, c].Nodup := habc ▸ List.Nodup.filter _ List.nodup_range
    have hvote (x : Nat) (hx : x ∈ [a, b, c]) (hne : x ≠ k) : outs.getD x none = some v := by
      have hin : x ∈ [i, j, k] := hperm.mem_iff.2 hx
      simp only [List.mem_cons, List.not_mem_nil, or_false] at hin
      rcases hin with rfl | rfl | rfl
      · exact hi
      · exact hj
      · exact absurd rfl hne
    have hk : k ∈ [a, b, c] := hperm.mem_iff.1 (by simp)
    simp only [List.nodup_cons, List.mem_cons, List.not_mem_nil, or_false, not_or, not_false_eq_true, List.nodup_nil, and_true] at hnodup
    obtain ⟨⟨hab, hac⟩, hbc⟩ := hnodup
    simp only [List.mem_cons, List.not_mem_nil, or_false] at hk
    rcases hk with rfl | rfl | rfl
    · exact .inr (.inr ⟨rfl, hvote b (by simp) (Ne.symm hab), hvote c (by simp) (Ne.symm hac)⟩)
    · exact .inr (.inl ⟨rfl, hvote a (by simp) hab, hvote c (by simp) (Ne.symm hbc)⟩)
    · exact .inl ⟨rfl, hvote a (by simp) hac, hvote b (by simp) hbc⟩
  rcases hcases with ⟨rfl, ha, hb⟩ | ⟨rfl, ha, hc⟩ | ⟨rfl, hb, hc⟩
  · rw [ha, hb, if_neg fun h => hk h.2.symm, if_pos ⟨rfl, rfl⟩]
  · rw [ha, hc, if_neg fun h => hk h.1.symm, if_neg fun h => hk h.1.symm, if_pos ⟨rfl, rfl⟩]
  · rw [hb, hc, if_neg fun h => hk h.1, if_neg fun h => hk h.1, if_neg fun h => hk h.1, if_pos ⟨rfl, rfl⟩]

end

/-! ## The commands -/

/-- After the tick has been entered in the safety tasks' budget. -/
def State.budgeted (s : State) (us : Nat) : State :=
  ((s.withSafe fun x => { x with taskUs := (s.time, us) :: x.taskUs.filter fun e => decide (s.time ≤ e.1 + 1000000000 * 4294967296) }).putObj Obj.TASK_BUDGET_US
    (((s.time, us) :: s.u.safe.taskUs.filter fun e => decide (s.time ≤ e.1 + 1000000000 * 4294967296)).foldl (fun m e => max m e.2) 0)).sending []

theorem begun_budgeted (s : State) (us : Nat) :
    (Act.put Obj.TASK_BUDGET_US (((s.begun.time, us) :: s.begun.u.safe.taskUs.filter fun e => decide (s.begun.time ≤ e.1 + 1000000000 * 4294967296)).foldl (fun m e => max m e.2) 0)).run
      ((Act.safe fun x => { x with taskUs := (s.begun.time, us) :: s.begun.u.safe.taskUs.filter fun e => decide (s.begun.time ≤ e.1 + 1000000000 * 4294967296) }).run s.begun)
    = s.budgeted us := by
  rw [show (Act.safe fun x => { x with taskUs := (s.begun.time, us) :: s.begun.u.safe.taskUs.filter fun e => decide (s.begun.time ≤ e.1 + 1000000000 * 4294967296) }).run s.begun
    = (s.withSafe fun x => { x with taskUs := (s.time, us) :: x.taskUs.filter fun e => decide (s.time ≤ e.1 + 1000000000 * 4294967296) }).begun from rfl, run_put_begun]
  rfl

section
variable {s : State} {outs : List (Option Nat)} {us : Nat}

theorem exec_safetyTick (hwf : Wf.safetyTick outs us none = true) (hslice : s.u.safe.slice = none) :
    exec (.safetyTick outs us none) s = .next ((vote outs).run (s.budgeted us)).told
    ∧ ∀ m, exec (.safetyTick outs us (some m)) s = .next ((vote outs).run (if m then (s.budgeted us).raised 13 0 else (s.budgeted us).ceased 13 0)).told := by
  refine ⟨(need_next s hwf _).trans (congrArg Host.Outcome.next ?_), fun m => (need_next s hwf _).trans (congrArg Host.Outcome.next ?_)⟩
  · simp only [run_read, run_all_cons, run_all_nil, run_skip, abortSlice_none (s := s.begun) hslice]
    exact congrArg (fun q => ((vote outs).run q).told) (begun_budgeted s us)
  · simp only [run_read, run_all_cons, run_all_nil, abortSlice_none (s := s.begun) hslice]
    refine congrArg (fun q => ((vote outs).run q).told) ?_
    rw [show (Act.put Obj.TASK_BUDGET_US _).run _ = _ from begun_budgeted s us]
    cases m <;> rfl

theorem budgeted_get {k : Nat} (h : k ≠ Obj.TASK_BUDGET_US) : (s.budgeted us).get k = s.get k := (putObj_get _ _ _ _).trans (if_neg h)

theorem budgeted_actives : (s.budgeted us).actives = s.actives :=
  actives_congr (budgeted_get (by decide))

theorem raised_actives (b i : Nat) : (s.raised b i).actives = s.actives :=
  actives_congr (raised_get_other coreRoles_apart s b i)

theorem ceased_actives (b i : Nat) : (s.ceased b i).actives = s.actives :=
  actives_congr (ceased_get_other (by decide) s b i)

/-- A core that has been resynchronised in time rejoins. -/
theorem exec_resyncDone {k ns : Nat} (hres : s.u.safe.resync = some k) (hk : k < 4) (hcount : s.get Obj.RESYNCS + 1 < 2 ^ 32) (hns : ns ≤ 80000) :
    ∃ t : State, exec (.resyncDone ns) s = .next t ∧ t.coreRole k = 0 ∧ t.get Obj.VOTE_MODE = 0
      ∧ t.get Obj.RESYNCS = s.get Obj.RESYNCS + 1 ∧ t.get Obj.LAST_RESYNC_NS = ns ∧ t.u.safe.resync = none ∧ t.bytes = s.bytes ∧ t.log = s.log ∧ t.out = [] := by
  let q := (Act.safe fun x => { x with resync := none }).run ((Act.put Obj.VOTE_MODE 0).run ((putRole k 0).run s.begun))
  have hq (j : Nat) : q.get j = if j = Obj.VOTE_MODE then 0 else ((putRole k 0).run s.begun).get j := run_put_get ((putRole k 0).run s.begun) Obj.VOTE_MODE 0 j
  have hget {j : Nat} (h1 : j ≠ Obj.LAST_RESYNC_NS) (h2 : j ≠ Obj.RESYNCS) : ((Act.put Obj.LAST_RESYNC_NS ns).run ((Act.count 32 Obj.RESYNCS 1).run q)).get j = q.get j :=
    ((run_put_get ..).trans (if_neg h1)).trans (run_count_get q _ _ _ h2)
  have hresyncs : q.get Obj.RESYNCS = s.get Obj.RESYNCS := by
    rw [hq, if_neg (by decide), Act.Spares.get s.begun (putRole_within k 0 (Part.obj_ne (by decide))), begun_get]
  refine ⟨(Act.put Obj.LAST_RESYNC_NS ns).run ((Act.count 32 Obj.RESYNCS 1).run q), (need_next s rfl _).trans (congrArg Host.Outcome.next ?_), ?_, ?_, ?_, ?_, ?_, ?_, ?_, ?_⟩
  · rw [run_read, begun_u, hres]
    simp only [if_neg (Nat.not_lt.2 hns)]
    rfl
  · rw [← if_pos (c := k = k) (t := 0) (e := s.begun.coreRole k) rfl, ← putRole_coreRole hk (by decide) hk]
    refine coreRole_congr ?_ k
    rw [hget (by decide) (by decide), hq, if_neg (by decide)]
  · rw [hget (by decide) (by decide), hq, if_pos rfl]
  · rw [run_put_get, if_neg (by decide), run_count_get_self q _ _ _ (by decide) (by rw [hresyncs]; exact hcount), hresyncs]
  · rw [run_put_get, if_pos rfl]
    exact Nat.mod_eq_of_lt (by omega)
  · rw [run_put_u, run_count_u]
    rfl
  · rw [run_put_bytes, run_count_bytes]
    rfl
  · rw [run_put_log, run_count_log]
    rfl
  · rw [run_put_out, run_count_out]
    rfl

theorem exec_resyncTimeout {k : Nat} (hres : s.u.safe.resync = some k) : exec .resyncTimeout s = .next ((retireCore k).run s.begun) := by
  refine (need_next s rfl _).trans (congrArg Host.Outcome.next ?_)
  rw [run_read, begun_u, hres]

end

/-- Settles O30. -/
theorem voterFindsOddCores : Obligations.VoterFindsOddCores := by
  unfold Obligations.VoterFindsOddCores
  intro s outs us hwf hslice active out b
  obtain ⟨htick, hmonitor⟩ := exec_safetyTick hwf hslice
  have hb : b.actives = active := budgeted_actives
  have hout (k : Nat) : out k = outs.getD k none := rfl
  refine ⟨fun hall => ⟨?_, fun m => ?_⟩, fun i j k hact hij hik hjk => ?_, fun i j k v hlen hperm hi hj hk hcount hfew => ?_, fun i j hact hij => ?_, fun k hres hk hcount =>
    ⟨fun ns hns _ => exec_resyncDone hres hk hcount hns, fun r hr hrk => ?_, fun hnone => ?_⟩⟩
  · rw [htick, vote_agrees]
    · rfl
    · rw [show (s.budgeted us).actives = active from hb]
      exact hall
  · rw [hmonitor, vote_agrees]
    · rfl
    · have hact : (if m then (s.budgeted us).raised 13 0 else (s.budgeted us).ceased 13 0).actives = active := by
        cases m
        · exact (ceased_actives 13 0).trans hb
        · exact (raised_actives 13 0).trans hb
      rw [hact]
      exact hall
  · rw [htick, vote_splits (s := s.budgeted us) (hb.trans hact) hij hik hjk]
    rfl
  · have hk4 : k < 4 := List.mem_range.1 (List.mem_filter.1 (hperm.mem_iff.1 (by simp))).1
    have hevents : (s.budgeted us).get Obj.ODD_EVENTS = s.get Obj.ODD_EVENTS := budgeted_get (by decide)
    have hlimit : (s.budgeted us).get Obj.ODD_LIMIT = s.get Obj.ODD_LIMIT := budgeted_get (by decide)
    obtain ⟨h1, h2, h3, h4, h5, h6, h7, h8⟩ := oddCore_resyncs (s := s.budgeted us) hk4 (by rw [hevents]; exact hcount) hslice (by rw [hlimit]; exact hfew)
    refine ⟨_, htick.trans (by rw [vote_finds (s := s.budgeted us) (hb.symm ▸ hperm) hi hj hk]), h1.trans (by rw [hevents]), h2, h3, h4, fun m hm hmk => ?_, h6, h7, h8⟩
    exact (h5 m hm hmk).trans (coreRole_congr (budgeted_get (by decide)) m)
  · rw [htick, vote_two (s := s.budgeted us) (hb.trans hact), if_pos hij]
    rfl
  · exact ⟨_, exec_resyncTimeout hres, retireCore_reserve (s := s.begun) hk hr hrk hslice⟩
  · exact ⟨_, exec_resyncTimeout hres, retireCore_alone (s := s.begun) hk hnone⟩

end Sys2Proof.Machine
end

section
/-! PROOFS. Check units, end-to-end windows and the Quiz (R398, R408 to R413). -/

namespace Sys2Proof.Machine

/-! ## Bits that are cleared -/

theorem bit_clearBit (m b : Nat) : bit (clearBit m b) b = false := by
  unfold clearBit
  split
  · rename_i h
    have hpos := Nat.two_pow_pos b
    simp only [bit, decide_eq_true_eq, decide_eq_false_iff_not] at h ⊢
    have hle : 2 ^ b ≤ m := by
      by_contra hlt
      rw [Nat.div_eq_of_lt (by omega)] at h
      omega
    have hsub : m / 2 ^ b = (m - 2 ^ b) / 2 ^ b + 1 := Nat.div_eq_sub_div hpos hle
    omega
  · exact Bool.eq_false_iff.2 ‹_›

theorem clearBit_le (m b : Nat) : clearBit m b ≤ m := by
  unfold clearBit
  split
  · exact Nat.sub_le _ _
  · exact le_refl m

/-! ## Check units -/

/-- What a unit's run is compared with is not of domain 78's record. -/
theorem cvWant_needing (s : State) {n : Nat} (hn : n < 16) (image : Option Nat) : (s.needing 78).cvWant n image = s.cvWant n image := by
  have hwithin {A : Part → Prop} {R : (Units → Units) → Prop} (hstate : A (.obj (Obj.DOM_STATE 78))) (hwakes : A (.obj (Obj.DOM_WAKES 78))) (hctr : A .ctr) :
      (needDomain 78).Within A R := by
    simp [needDomain, hstate, within_count _ _ _ hwakes hctr]
  have hu : (s.needing 78).u = s.u := Act.SparesUnit.unit (f := id) s (hwithin trivial trivial trivial)
  have hget {k : Nat} (h1 : k ≠ Obj.DOM_STATE 78) (h2 : k ≠ Obj.DOM_WAKES 78) : (s.needing 78).get k = s.get k :=
    Act.Spares.get s (hwithin (Part.obj_ne h1.symm) (Part.obj_ne h2.symm) nofun)
  have hcv {k : Nat} (h : k < 0x2E0000) : (s.needing 78).get k = s.get k := hget (by unfold Obj.DOM_STATE; omega) (by unfold Obj.DOM_WAKES; omega)
  have hfur {f k : Nat} (h : k < 0x2E0000) : (s.needing 78).get (f * 16777216 + k) = s.get (f * 16777216 + k) := hget (by unfold Obj.DOM_STATE; omega) (by unfold Obj.DOM_WAKES; omega)
  have hkind := hcv (k := Obj.CV_KIND n) (by unfold Obj.CV_KIND; omega)
  have hexpected := hcv (k := Obj.CV_EXPECTED n) (by unfold Obj.CV_EXPECTED; omega)
  have halgorithm := hcv (k := Obj.CV_ALGORITHM n) (by unfold Obj.CV_ALGORITHM; omega)
  have hitems (kind : Nat) : (s.needing 78).cvItems kind = s.cvItems kind := by
    unfold State.cvItems
    split
    · simp only [State.chans, State.blob, hu]
    · refine List.flatMap_congr fun f _ => List.flatMap_congr fun o ho => ?_
      have ho : o < 8 := List.mem_range.1 ho
      have hmap := hcv (k := Obj.MAP_ENTRIES) (by decide)
      have href : (s.needing 78).get (Obj.GOLDEN_REF f o) = s.get (Obj.GOLDEN_REF f o) := by
        rw [show Obj.GOLDEN_REF f o = f * 16777216 + (0x2D2120 + o) by unfold Obj.GOLDEN_REF; omega]
        exact hfur (by omega)
      have hctx : (s.needing 78).get (Obj.F_CONTEXT f) = s.get (Obj.F_CONTEXT f) := hfur (by decide)
      have hprogram : (s.needing 78).get (Obj.F_PROGRAM f) = s.get (Obj.F_PROGRAM f) := hfur (by decide)
      have hentry : (s.needing 78).get (Obj.F_ENTRY f) = s.get (Obj.F_ENTRY f) := hfur (by decide)
      simp only [href, State.furrowEntry, State.entryOf, State.unit, hctx, hprogram, hentry, State.tileOf, hmap, hu]
    · have hmodel : (s.needing 78).model = s.model := funext fun n => by simp only [State.model, hu]
      rw [hmodel]
    · rfl
  simp only [State.cvWant, hkind, hexpected, halgorithm, hitems, hu]

/-- After a unit's run, before what it is compared with tells. -/
def State.cvRan (s : State) (n r : Nat) : State :=
  ((s.withSafe fun x => { x with visit := Tab.upd x.visit n 0 (· + 1) }).putObj (Obj.CV_RESULT n) r).counted 64 (Obj.CV_RUNS n) 1

section
variable {s : State} {n v : Nat} {data : List Byte} {image : Option Nat}

theorem cvRun_run (hlen : s.get (Obj.CV_KIND n) = 0 → data.length = s.get (Obj.CV_LENGTH n)) (hwant : s.cvWant n image = some v) :
    (cvRun n data image).run s = (if crc (s.get (Obj.CV_ALGORITHM n)) data = v then clearCause 14 n
      else Act.all [.count 32 (Obj.CV_MISMATCHES n) 1, raiseCause 14 n, settle]).run (s.cvRan n (crc (s.get (Obj.CV_ALGORITHM n)) data)) := by
  rw [cvRun, run_read]
  simp only
  rw [if_neg fun h => h.2 (hlen h.1), hwant]
  rfl

theorem exec_checkUnitRun (hn : n < 16) (hlen : s.get (Obj.CV_KIND n) = 0 → data.length = s.get (Obj.CV_LENGTH n)) (hwant : s.cvWant n image = some v)
    (hdev : Dev.PREOP ≤ s.dev) (hdom : s.get (Obj.DOM_STATE 78) = 2) (hper : s.get (Obj.CV_PERIOD_MS n) ≠ 0) :
    exec (.checkUnitRun n data image) s = .next ((if crc (s.get (Obj.CV_ALGORITHM n)) data = v then clearCause 14 n
      else Act.all [.count 32 (Obj.CV_MISMATCHES n) 1, raiseCause 14 n, settle]).run ((s.sending []).cvRan n (crc (s.get (Obj.CV_ALGORITHM n)) data))) := by
  refine (need_next s (decide_eq_true hn) _).trans (congrArg Host.Outcome.next ?_)
  have hgo : (decide (Dev.PREOP ≤ s.begun.dev) && s.begun.get (Obj.DOM_STATE 78) == 2 && s.begun.get (Obj.CV_PERIOD_MS n) != 0) = true := by
    rw [begun_dev, begun_get, begun_get, decide_eq_true hdev, hdom, bne_iff_ne.2 hper]
    rfl
  rw [run_read, run_when, if_pos hgo]
  exact cvRun_run (s := s.begun) hlen hwant

theorem exec_cvRun (hn : n < 16) (hlen : s.get (Obj.CV_KIND n) = 0 → data.length = s.get (Obj.CV_LENGTH n)) (hwant : s.cvWant n image = some v) {ses : Nat} (hses : ses < 16)
    (hadm : s.admits ses (Obj.CV_RUN n) 1 .saf) (hr : crc (s.get (Obj.CV_ALGORITHM n)) data = v) : exec (.cvRun ses n 1 data image) s
      = .next (((((s.sending []).needing 78).cvRan n (crc (s.get (Obj.CV_ALGORITHM n)) data)).ceased 14 n).also (replies ses 0)) := by
  have hwf : Wf.cvRun ses n 1 data image = true := by simp [Wf.cvRun, hses, hn]
  refine (exec_guarded_takes hwf rfl hadm rfl).trans (congrArg (fun t => Host.Outcome.next (State.also t (replies ses 0))) ?_)
  have hget {k : Nat} (h : k < 0x2E0000) : (s.begun.needing 78).get k = s.get k :=
    Act.Spares.get s.begun (by
      have h1 : Obj.DOM_STATE 78 ≠ k := by unfold Obj.DOM_STATE; omega
      have h2 : Obj.DOM_WAKES 78 ≠ k := by unfold Obj.DOM_WAKES; omega
      simp [needDomain, within_count _ _ _ (A := (· ≠ Part.obj k)) (Part.obj_ne h2) nofun, h1])
  have hkind : (s.begun.needing 78).get (Obj.CV_KIND n) = s.get (Obj.CV_KIND n) := hget (by unfold Obj.CV_KIND; omega)
  have hlength : (s.begun.needing 78).get (Obj.CV_LENGTH n) = s.get (Obj.CV_LENGTH n) := hget (by unfold Obj.CV_LENGTH; omega)
  have halgorithm : (s.begun.needing 78).get (Obj.CV_ALGORITHM n) = s.get (Obj.CV_ALGORITHM n) := hget (by unfold Obj.CV_ALGORITHM; omega)
  have hrun := cvRun_run (s := s.begun.needing 78) (n := n) (data := data) (image := image) (v := v) (by rw [hkind, hlength]; exact hlen)
    ((cvWant_needing s.begun hn image).trans hwant)
  rw [halgorithm, if_pos hr] at hrun
  rw [run_all_cons, run_all_cons, run_all_nil]
  exact hrun

end

/-! ## A cause that has ended -/

theorem ceased_active (s : State) (b i : Nat) : (s.ceased b i).u.safe.active = s.u.safe.active.filter fun e => decide (e.1 ≠ b * 65536 + i) := by
  rw [State.ceased, clearCause, run_read, run_all_cons, run_all_cons, run_all_nil]
  exact (Act.SparesUnit.unit (f := fun u => u.safe.active) _ (by simp)).trans rfl

theorem ceased_inactive (s : State) (b i : Nat) : (s.ceased b i).causeActive b i = false := by
  rw [State.causeActive, ceased_active, List.any_eq_false]
  intro e he
  have hne := (List.mem_filter.1 he).2
  simpa using hne

theorem ceased_keeps_inactive {s : State} {b i : Nat} (h : s.causeActive b i = false) (b' i' : Nat) : (s.ceased b' i').causeActive b i = false := by
  rw [State.causeActive, ceased_active, List.any_eq_false]
  rw [State.causeActive, List.any_eq_false] at h
  exact fun e he => h e (List.mem_filter.1 he).1

theorem ceased_still (s : State) (b i : Nat) : (s.ceased b i).bytes = s.bytes ∧ (s.ceased b i).log = s.log ∧ (s.ceased b i).out = s.out
    ∧ (s.ceased b i).u.safe.slice = s.u.safe.slice :=
  ⟨Act.Spares.bytes s (clearCause_within b i nofun fun _ => trivial), Act.Spares.log s (clearCause_within b i nofun fun _ => trivial),
    Act.Spares.out s (clearCause_within b i nofun fun _ => trivial), Act.SparesUnit.unit (f := fun u => u.safe.slice) s (by simp [clearCause, Act.safe])⟩

/-! ## The Quiz -/

section
variable {s : State} {c k : Nat}

theorem exec_quizSliceStart {unit : Option (Nat × Nat)} (hc : c < 16) (hres : s.u.safe.resync = none) (hslice : s.u.safe.slice = none) (hk : k < s.get (Obj.SLICES_PER_PASS c))
    (hfree : ∀ f e, unit = some (f, e) → e ∈ s.freeEngines f) (hdue : ∀ i < 16, s.quizDue c ≤ s.quizDue i) (ready : Bool) :
    exec (.quizSliceStart c k ready unit) s = .next ((if ready then .count 32 (Obj.SLICES_DEFERRED c) 1
      else .safe fun x => { x with slice := some (c, k), sliceUnit := unit } : Act).run s.begun) := by
  refine (need_next s (decide_eq_true hc) _).trans (congrArg Host.Outcome.next ?_)
  have hgranted : (unit.any fun u => !(s.begun.freeEngines u.1).contains u.2) = false := by
    cases unit with
    | none => rfl
    | some u =>
      have : u.2 ∈ s.begun.freeEngines u.1 := hfree u.1 u.2 rfl
      simp [this]
  have hsoonest : (List.range 16).all (fun i => decide (s.begun.quizDue c ≤ s.begun.quizDue i)) = true := by
    rw [List.all_eq_true]
    exact fun i hi => decide_eq_true (hdue i (List.mem_range.1 hi))
  rw [run_read]
  simp only
  rw [hgranted, hsoonest, begun_u, hres, hslice, begun_get, if_neg]
  simp only [Option.isSome_none, Bool.false_eq_true, false_or, not_true_eq_false, or_false]
  omega

/-- A sensor known to have failed fails no more. -/
theorem when_sensorFails_run {i : Nat} (h : c ≠ 10 ∨ s.u.pow.failed.contains i = true) : (Act.when (c == 10) (sensorFails i)).run s = s := by
  rw [run_when]
  split
  · rename_i hc
    rw [sensorFails, run_read, if_pos (h.resolve_left fun hne => hne (beq_iff_eq.1 hc))]
    rfl
  · rfl

/-- What a slice that was flagged, or was not, comes to. -/
theorem exec_quizSliceDone {sensor : Nat} (hslice : s.u.safe.slice = some (c, k)) (hsensor : sensor < 128) (flagged : Bool) : exec (.quizSliceDone flagged sensor) s
    = .next ((if flagged then
        (if s.get (Obj.SLICES_PER_PASS c) ≤ (k :: (Tab.at s.u.safe.quiz c []).filter (· != k)).length then passComplete c
        else .safe fun x => { x with quiz := Tab.set x.quiz c (k :: (Tab.at s.u.safe.quiz c []).filter (· != k)) })
      else Act.all [
        .safe (fun x => { x with quiz := Tab.set x.quiz c ((Tab.at s.u.safe.quiz c []).filter (· != k)) }),
        .when (c == 10) (sensorFails sensor), .when (!s.causeActive 8 c) (.count 32 (Obj.QUIZ_FAILS c) 1), raiseCause 8 c, settle]).run
      (s.begun.withSafe fun x => { x with slice := none, sliceUnit := none })) := by
  refine (need_next s (decide_eq_true hsensor) _).trans (congrArg Host.Outcome.next ?_)
  rw [run_read, begun_u, hslice]
  simp only [begun_get, run_all_cons, run_all_nil]
  cases flagged
  · simp only [Bool.false_eq_true, ↓reduceIte, run_all_cons, run_all_nil]
    rfl
  · simp only [↓reduceIte]
    rfl

theorem passComplete_run (hc : c < 11) (hcount : s.get (Obj.QUIZ_PASSES c) + 1 < 2 ^ 32) :
    let t := (passComplete c).run s
    t.get (Obj.QUIZ_PASSES c) = s.get (Obj.QUIZ_PASSES c) + 1 ∧ t.get (Obj.LAST_PASS_TIME c) = s.ns ∧ bit (t.get Obj.LATENT_MASK) c = false
      ∧ t.causeActive 7 c = false ∧ t.causeActive 8 c = false ∧ t.u.safe.slice = s.u.safe.slice ∧ t.bytes = s.bytes ∧ t.log = s.log ∧ t.out = s.out := by
  intro t
  let q := (Act.count 32 (Obj.QUIZ_PASSES c) 1).run ((Act.safe fun x => { x with quiz := Tab.set x.quiz c [] }).run s)
  let m := (Act.modify Obj.LATENT_MASK fun m => clearBit m c).run ((Act.put (Obj.LAST_PASS_TIME c) s.ns).run q)
  have ht : t = (m.ceased 7 c).ceased 8 c := by
    show (passComplete c).run s = _
    rw [passComplete, run_read]
    simp only [run_all_cons, run_all_nil, checkerInst]
    rfl
  have hkeys : Obj.QUIZ_PASSES c ≠ Obj.ACTIVE_CAUSES ∧ Obj.LAST_PASS_TIME c ≠ Obj.ACTIVE_CAUSES ∧ Obj.QUIZ_PASSES c ≠ Obj.LATENT_MASK ∧ Obj.LAST_PASS_TIME c ≠ Obj.LATENT_MASK
      ∧ Obj.QUIZ_PASSES c ≠ Obj.LAST_PASS_TIME c := by
    unfold Obj.QUIZ_PASSES Obj.LAST_PASS_TIME Obj.ACTIVE_CAUSES Obj.LATENT_MASK
    omega
  obtain ⟨h1, h2, h3, h4, h5⟩ := hkeys
  have hget {j : Nat} (hj : j ≠ Obj.ACTIVE_CAUSES) : t.get j = m.get j := by
    rw [ht, ceased_get_other hj, ceased_get_other hj]
  have hstill : t.bytes = m.bytes ∧ t.log = m.log ∧ t.out = m.out ∧ t.u.safe.slice = m.u.safe.slice := by
    obtain ⟨b7, l7, o7, u7⟩ := ceased_still m 7 c
    obtain ⟨b8, l8, o8, u8⟩ := ceased_still (m.ceased 7 c) 8 c
    rw [ht, b8, l8, o8, u8]
    exact ⟨b7, l7, o7, u7⟩
  obtain ⟨hbytes, hlog, hout, hslice⟩ := hstill
  have hmget {j : Nat} (hj : j ≠ Obj.LATENT_MASK) : m.get j = ((Act.put (Obj.LAST_PASS_TIME c) s.ns).run q).get j := (run_put_get ..).trans (if_neg hj)
  have hmstill : m.bytes = q.bytes ∧ m.log = q.log ∧ m.out = q.out ∧ m.u = q.u := ⟨rfl, rfl, rfl, rfl⟩
  obtain ⟨hmbytes, hmlog, hmout, hmu⟩ := hmstill
  refine ⟨?_, ?_, ?_, ?_, ?_, ?_, ?_, ?_, ?_⟩
  · rw [hget h1, hmget h3, run_put_get, if_neg h5]
    exact run_count_get_self _ _ _ _ (by decide) hcount
  · rw [hget h2, hmget h4, run_put_get, if_pos rfl]
    exact Nat.mod_eq_of_lt s.ns_lt
  · rw [hget (by decide)]
    simp only [m, run_modify, run_put_get, ↓reduceIte]
    rw [Nat.mod_eq_of_lt (lt_of_le_of_lt (clearBit_le _ _) ?_)]
    · exact bit_clearBit _ _
    · rw [if_neg h4.symm]
      exact State.get_lt _ _
  · rw [ht]
    exact ceased_keeps_inactive (ceased_inactive m 7 c) 8 c
  · rw [ht]
    exact ceased_inactive _ 8 c
  · rw [hslice, hmu]
    simp only [q, run_count_u]
    rfl
  · rw [hbytes, hmbytes]
    exact run_count_bytes ..
  · rw [hlog, hmlog]
    exact run_count_log ..
  · rw [hout, hmout]
    exact run_count_out ..

end

/-- Settles O33, a unit's run, a window, a slice and an interval each by what its command comes to. -/
theorem checksAndQuiz : Obligations.ChecksAndQuiz := by
  unfold Obligations.ChecksAndQuiz
  intro s
  refine ⟨?_, fun source _ hin => ?_, fun c k unit hc hres hslice hk hfree hdue => ?_, fun c k sensor hslice hsensor => ⟨fun hmore => ?_, fun hlast hc hcount => ?_, fun hsens hact => ?_⟩,
    fun c hc => ⟨fun hdue hact => ?_, fun hdue => ?_⟩, Tests.test_check_values⟩
  · intro n data image v hwf hlen hwant r ran b
    refine ⟨fun hdev hdom hper => ?_, fun ses hses hadm hr => exec_cvRun (of_decide_eq_true hwf) hlen hwant hses hadm hr⟩
    have hexec := exec_checkUnitRun (of_decide_eq_true hwf) hlen hwant hdev hdom hper
    refine ⟨fun hr => hexec.trans ?_, fun hr => hexec.trans ?_⟩
    · rw [if_pos hr]
      rfl
    · rw [if_neg hr, run_all_cons, run_all_cons, run_all_cons, run_all_nil]
      rfl
  · refine (need_next s rfl _).trans (congrArg Host.Outcome.next ?_)
    have hnot : (!s.begun.u.safe.overLimit.contains source) = true := by
      simpa using hin
    rw [run_read, run_all_cons, run_all_cons, run_all_nil, run_when, if_pos hnot]
    rfl
  · exact ⟨exec_quizSliceStart hc hres hslice hk hfree hdue false, exec_quizSliceStart hc hres hslice hk hfree hdue true⟩
  · refine (exec_quizSliceDone hslice hsensor true).trans (congrArg Host.Outcome.next ?_)
    rw [if_pos rfl, if_neg (not_le.2 hmore)]
    rfl
  · refine ⟨_, exec_quizSliceDone hslice hsensor true, ?_⟩
    rw [if_pos rfl, if_pos hlast]
    exact passComplete_run (s := s.begun.withSafe fun x => { x with slice := none, sliceUnit := none }) hc hcount
  · refine (exec_quizSliceDone hslice hsensor false).trans (congrArg Host.Outcome.next ?_)
    have hnew : (!s.causeActive 8 c) = true := by rw [hact]; rfl
    rw [if_neg Bool.false_ne_true, run_all_cons, run_all_cons, run_all_cons, run_all_cons, run_all_cons, run_all_nil, when_sensorFails_run, run_when _ (!s.causeActive 8 c), if_pos hnew]
    · rfl
    · exact hsens
  · refine (need_next s (decide_eq_true hc) _).trans (congrArg Host.Outcome.next ?_)
    have hnew : (!s.begun.causeActive 7 (checkerInst c)) = true := by
      rw [Bool.not_eq_true']
      exact hact
    have hnow : decide (s.begun.quizDue c ≤ s.begun.ns) = true := decide_eq_true hdue
    rw [run_read, run_when, if_pos hnow, run_all_cons, run_all_cons, run_all_cons, run_all_cons, run_all_nil, run_when, if_pos hnew]
    rfl
  · refine (need_next s (decide_eq_true hc) _).trans (congrArg Host.Outcome.next ?_)
    have hlater : decide (s.begun.quizDue c ≤ s.begun.ns) = false := decide_eq_false (not_le.2 hdue)
    rw [run_read, run_when, hlater]
    rfl

end Sys2Proof.Machine
end

section
/-! PROOFS. The time base (R311 to R314). -/

namespace Sys2Proof.Machine

/-! ## Reads that do something -/

/-- A read that the session and the device state admit does what the object's read does, and answers. -/
theorem run_guardedRead {s : State} {ses k n : Nat} (h : s.reads ses k) (body : State → Nat × Act) :
    (guardedRead ses k n body).run s = (Act.emit (.reply ses 0 (le n (body s).1))).run ((body s).2.run s) := by
  obtain ⟨hopen, hdev, hstate, hrec⟩ := h
  rw [guardedRead, run_read, if_neg (by simp [hopen, hdev]), if_neg (by simp [hstate, hrec]), run_all_cons, run_all_cons, run_all_nil]

/-! ## A comparison with the source -/

section
variable (s : State) (offset learnt slew : Int)

/-- The time base begins to follow a source. -/
abbrev State.tbBegins (s : State) : Bool := s.get Obj.TB_STATE == Tb.FREE || s.get Obj.TB_STATE == Tb.HOLDOVER

/-- The rate in force once `learnt` and `slew` are known. -/
def State.tbRate (s : State) (learnt slew : Int) : Nat :=
  let top := Int.ofNat (s.get Obj.SLEW_MAX_PPM) * 1000
  ofSigned 32 (learnt + max (-top) (min top slew))

theorem putRate_run : (putRate learnt slew).run s = (s.withTime fun x => { x with learnt := learnt }).putObj Obj.TB_RATE_PPB (s.tbRate learnt slew) := rfl

variable {s} in
theorem tbRate_congr {t : State} (h : t.get Obj.SLEW_MAX_PPM = s.get Obj.SLEW_MAX_PPM) : t.tbRate learnt slew = s.tbRate learnt slew := by
  rw [State.tbRate, State.tbRate, h]

/-- The objects show the comparison; time and state are as they were but for a state that begins. -/
def State.compared (s : State) (offset learnt slew : Int) : State :=
  (Act.when s.tbBegins (.put Obj.TB_STATE Tb.ACQUIRING)).run (((s.putObj Obj.TB_OFFSET_NS (ofSigned 64 offset)).withTime fun x => { x with learnt := learnt }).putObj
    Obj.TB_RATE_PPB (s.tbRate learnt slew))

theorem compared_get {k : Nat} (hstate : k ≠ Obj.TB_STATE) : (s.compared offset learnt slew).get k =
    if k = Obj.TB_RATE_PPB then s.tbRate learnt slew % 2 ^ 64 else if k = Obj.TB_OFFSET_NS then ofSigned 64 offset % 2 ^ 64 else s.get k := by
  have h (b : Bool) (t : State) : ((Act.when b (.put Obj.TB_STATE Tb.ACQUIRING)).run t).get k = t.get k := by
    rw [run_when]
    split
    · exact (run_put_get ..).trans (if_neg hstate)
    · rfl
  rw [State.compared, h]
  exact (putObj_get ..).trans (if_congr Iff.rfl rfl (putObj_get ..))

theorem compared_state : (s.compared offset learnt slew).get Obj.TB_STATE = if s.tbBegins then Tb.ACQUIRING else s.get Obj.TB_STATE := by
  rw [State.compared, run_when]
  split
  · exact (run_put_get ..).trans (if_pos rfl)
  · exact (putObj_get ..).trans ((if_neg (by decide)).trans ((putObj_get ..).trans (if_neg (by decide))))

theorem compared_still : (s.compared offset learnt slew).time = s.time ∧ (s.compared offset learnt slew).bytes = s.bytes ∧ (s.compared offset learnt slew).log = s.log
    ∧ (s.compared offset learnt slew).out = s.out ∧ (s.compared offset learnt slew).u.time = { s.u.time with learnt := learnt } := by
  rw [State.compared, run_when]
  split <;> exact ⟨rfl, rfl, rfl, rfl, rfl⟩

/-- The count of comparisons in a row within the lock threshold. -/
def State.tbInRun (s : State) (offset : Int) : Nat :=
  if offset.natAbs ≤ s.get Obj.LOCK_THRESHOLD_NS then (if s.tbBegins then 1 else s.u.time.inRun + 1) else 0

/-- The count of comparisons in a row beyond four times the lock threshold. -/
def State.tbOutRun (s : State) (offset : Int) : Nat :=
  if 4 * s.get Obj.LOCK_THRESHOLD_NS < offset.natAbs then s.u.time.outRun + 1 else 0

theorem discipline_run : (discipline offset learnt slew).run s =
    (if s.maySetTime = true ∧ s.get Obj.STEP_THRESHOLD_NS < offset.natAbs then
      Act.all [stepTime offset, .clock fun x => { x with inRun := 0, outRun := 0 }]
    else Act.all [
      .clock (fun x => { x with inRun := s.tbInRun offset, outRun := s.tbOutRun offset }),
      .read fun t =>
        if t.get Obj.TB_STATE = Tb.ACQUIRING ∧ 16 ≤ s.tbInRun offset then .all [.put Obj.TB_STATE Tb.LOCKED, .clock fun x => { x with outRun := 0 }]
        else if t.get Obj.TB_STATE = Tb.LOCKED ∧ 4 ≤ s.tbOutRun offset then holdover
        else .skip]).run (s.compared offset learnt slew) := by
  have hin : (if (s.get Obj.TB_STATE == Tb.FREE || s.get Obj.TB_STATE == Tb.HOLDOVER) = true then (if Int.ofNat offset.natAbs ≤ Int.ofNat (s.get Obj.LOCK_THRESHOLD_NS) then 1 else 0)
      else if Int.ofNat offset.natAbs ≤ Int.ofNat (s.get Obj.LOCK_THRESHOLD_NS) then s.u.time.inRun + 1 else 0) = s.tbInRun offset := by
    simp only [State.tbInRun, State.tbBegins, Int.ofNat_eq_natCast, Nat.cast_le]
    split <;> split <;> rfl
  have hout : (if 4 * Int.ofNat (s.get Obj.LOCK_THRESHOLD_NS) < Int.ofNat offset.natAbs then s.u.time.outRun + 1 else 0) = s.tbOutRun offset := by
    have h : 4 * Int.ofNat (s.get Obj.LOCK_THRESHOLD_NS) < Int.ofNat offset.natAbs ↔ 4 * s.get Obj.LOCK_THRESHOLD_NS < offset.natAbs := by
      simp only [Int.ofNat_eq_natCast]
      omega
    simp only [State.tbOutRun, h]
  have hfar : Int.ofNat (s.get Obj.STEP_THRESHOLD_NS) < Int.ofNat offset.natAbs ↔ s.get Obj.STEP_THRESHOLD_NS < offset.natAbs := by
    simp only [Int.ofNat_eq_natCast, Nat.cast_lt]
  rw [discipline, run_read]
  have hcompared : (Act.when s.tbBegins (.put Obj.TB_STATE Tb.ACQUIRING)).run ((putRate learnt slew).run ((Act.put Obj.TB_OFFSET_NS (ofSigned 64 offset)).run s)) = s.compared offset learnt slew := by
    rw [putRate_run, State.compared, tbRate_congr learnt slew (t := (Act.put Obj.TB_OFFSET_NS (ofSigned 64 offset)).run s) (s := s) ((run_put_get ..).trans (if_neg (by decide)))]
    rfl
  simp only [hin, hout, hfar, run_all_cons, run_all_nil]
  rw [hcompared]

end

/-! ## Steps and holdover -/

/-- Device time steps, counted and logged. -/
theorem stepTime_run {s : State} (offset : Int) {t : State} (ht : (stepTime offset).run s = t) (hsteps : s.get Obj.TB_STEPS + 1 < 2 ^ 32) :
    t.time = (Int.ofNat s.time + offset * 4294967296).toNat ∧ t.get Obj.TB_STEPS = s.get Obj.TB_STEPS + 1 ∧ (∀ k, k ≠ Obj.TB_STEPS → t.get k = s.get k)
      ∧ t.lastEvent Ev.TB_STEP 0xFFFF (ofSigned 64 offset) 0 ∧ t.log.total = s.log.total + 1 ∧ t.bytes = s.bytes ∧ t.u.time = s.u.time := by
  let c := (Act.count 32 Obj.TB_STEPS 1).run { s with time := (Int.ofNat s.time + offset * 4294967296).toNat }
  replace ht : t = (logEv Ev.TB_STEP 0xFFFF (ofSigned 64 offset) 0).run c := ht.symm
  have hu : t.u.time = c.u.time := by
    rw [ht]
    exact Act.SparesUnit.unit (f := fun u => u.time) c (logEv_within _ _ _ _ trivial trivial fun _ => fun _ => rfl)
  refine ⟨?_, ?_, fun k hk => ?_, ?_, ?_, ?_, ?_⟩
  · rw [ht, run_logEv_time]
    exact run_count_time ..
  · rw [ht, run_logEv_get]
    exact run_count_get_self (s := { s with time := _ }) _ _ _ (by decide) hsteps
  · rw [ht, run_logEv_get]
    exact run_count_get (s := { s with time := _ }) _ _ _ hk
  · exact ht ▸ logEv_lastEvent ..
  · rw [ht, logEv_total]
    exact congrArg (fun l : EventLog => l.total + 1) (run_count_log ..)
  · rw [ht, run_logEv_bytes]
    exact run_count_bytes ..
  · rw [hu]
    exact congrArg Units.time (run_count_u ..)

/-- The base as LOCKED gives way to HOLDOVER, before it is counted and logged. -/
def State.drifting (s : State) : State :=
  (s.puts [(Obj.TB_STATE, Tb.HOLDOVER), (Obj.TB_RATE_PPB, ofSigned 32 s.u.time.learnt)]).withTime fun x => { x with holdFrom := s.time, inRun := 0, outRun := 0 }

theorem tbRate_noSlew (s : State) (learnt : Int) : s.tbRate learnt 0 = ofSigned 32 learnt := by
  have h : (0 : Int) ≤ Int.ofNat (s.get Obj.SLEW_MAX_PPM) * 1000 := by
    simp only [Int.ofNat_eq_natCast]
    omega
  simp only [State.tbRate]
  rw [min_eq_right h, max_eq_right (by omega), add_zero]

theorem holdover_run (s : State) : holdover.run s = (s.drifting.counted 32 Obj.TB_LOCK_LOSSES 1).logged Ev.TB_HOLDOVER 0xFFFF (s.get Obj.TB_OFFSET_NS) 0 := by
  rw [holdover, run_read]
  simp only [run_all_cons, run_all_nil, putRate_run, tbRate_noSlew]
  rfl

theorem holdover_keeps (s : State) {t : State} (ht : holdover.run s = t) (hlosses : s.get Obj.TB_LOCK_LOSSES + 1 < 2 ^ 32) :
    t.get Obj.TB_STATE = Tb.HOLDOVER ∧ t.get Obj.TB_LOCK_LOSSES = s.get Obj.TB_LOCK_LOSSES + 1 ∧ t.get Obj.TB_RATE_PPB = ofSigned 32 s.u.time.learnt % 2 ^ 64
      ∧ (∀ k, k ≠ Obj.TB_STATE → k ≠ Obj.TB_LOCK_LOSSES → k ≠ Obj.TB_RATE_PPB → t.get k = s.get k)
      ∧ t.lastEvent Ev.TB_HOLDOVER 0xFFFF (s.get Obj.TB_OFFSET_NS) 0 ∧ t.log.total = s.log.total + 1 ∧ t.bytes = s.bytes ∧ t.time = s.time
      ∧ t.u.time.learnt = s.u.time.learnt := by
  have hdrift (k : Nat) : s.drifting.get k = if k = Obj.TB_RATE_PPB then ofSigned 32 s.u.time.learnt % 2 ^ 64 else if k = Obj.TB_STATE then Tb.HOLDOVER else s.get k :=
    (putObj_get ..).trans (if_congr Iff.rfl rfl (putObj_get ..))
  have hget {k : Nat} (hk : k ≠ Obj.TB_LOCK_LOSSES) : (s.drifting.counted 32 Obj.TB_LOCK_LOSSES 1).get k = s.drifting.get k := run_count_get _ _ _ _ hk
  have hlost : (s.drifting.counted 32 Obj.TB_LOCK_LOSSES 1).get Obj.TB_LOCK_LOSSES = s.get Obj.TB_LOCK_LOSSES + 1 := by
    have h : s.drifting.get Obj.TB_LOCK_LOSSES = s.get Obj.TB_LOCK_LOSSES := (hdrift _).trans ((if_neg (by decide)).trans (if_neg (by decide)))
    exact (run_count_get_self s.drifting 32 _ 1 (by decide) (h ▸ hlosses)).trans (by rw [h])
  have hlearnt : ∀ x : State, (x.logged Ev.TB_HOLDOVER 0xFFFF (s.get Obj.TB_OFFSET_NS) 0).u.time = x.u.time := fun x =>
    Act.SparesUnit.unit (f := fun u => u.time) x (logEv_within _ _ _ _ trivial trivial fun _ => fun _ => rfl)
  replace ht : t = (s.drifting.counted 32 Obj.TB_LOCK_LOSSES 1).logged Ev.TB_HOLDOVER 0xFFFF (s.get Obj.TB_OFFSET_NS) 0 := ht.symm.trans (holdover_run s)
  have htget (k : Nat) : t.get k = (s.drifting.counted 32 Obj.TB_LOCK_LOSSES 1).get k := by
    rw [ht]
    exact run_logEv_get ..
  refine ⟨?_, ?_, ?_, fun k h1 h2 h3 => ?_, ?_, ?_, ?_, ?_, ?_⟩
  · rw [htget, hget (by decide), hdrift, if_neg (by decide), if_pos rfl]
  · rw [htget, hlost]
  · rw [htget, hget (by decide), hdrift, if_pos rfl]
  · rw [htget, hget h2, hdrift, if_neg h3, if_neg h1]
  · exact ht ▸ logEv_lastEvent ..
  · rw [ht]
    exact (logEv_total ..).trans (congrArg (fun l : EventLog => l.total + 1) (run_count_log ..))
  · rw [ht]
    exact (run_logEv_bytes ..).trans (run_count_bytes ..)
  · rw [ht]
    exact (run_logEv_time ..).trans (run_count_time ..)
  · rw [ht, hlearnt]
    show (s.drifting.counted 32 Obj.TB_LOCK_LOSSES 1).u.time.learnt = s.drifting.u.time.learnt
    rw [State.counted, run_count_u]

section
variable {s : State} {off learnt slew : Int}

theorem tbBegins_iff : s.tbBegins = true ↔ s.get Obj.TB_STATE = Tb.FREE ∨ s.get Obj.TB_STATE = Tb.HOLDOVER := by
  simp [State.tbBegins]

/-- The base after a comparison that steps time. -/
def State.tbStepped (s : State) (off learnt slew : Int) : State := ((stepTime off).run (s.compared off learnt slew)).withTime fun x => { x with inRun := 0, outRun := 0 }

theorem discipline_steps (hmay : s.maySetTime = true) (hfar : s.get Obj.STEP_THRESHOLD_NS < off.natAbs) : (discipline off learnt slew).run s = s.tbStepped off learnt slew := by
  rw [discipline_run, if_pos ⟨hmay, hfar⟩, run_all_cons, run_all_cons, run_all_nil]
  rfl

theorem tbStepped_keeps (hsteps : s.get Obj.TB_STEPS + 1 < 2 ^ 32) : (s.tbStepped off learnt slew).time = (Int.ofNat s.time + off * 4294967296).toNat
    ∧ (s.tbStepped off learnt slew).get Obj.TB_STEPS = s.get Obj.TB_STEPS + 1 ∧ (∀ k, k ≠ Obj.TB_STEPS → (s.tbStepped off learnt slew).get k = (s.compared off learnt slew).get k)
    ∧ (s.tbStepped off learnt slew).lastEvent Ev.TB_STEP 0xFFFF (ofSigned 64 off) 0 ∧ (s.tbStepped off learnt slew).log.total = s.log.total + 1
    ∧ (s.tbStepped off learnt slew).bytes = s.bytes ∧ (s.tbStepped off learnt slew).u.time.learnt = learnt := by
  unfold State.tbStepped
  obtain ⟨ctime, cbytes, clog, -, cunit⟩ := compared_still s off learnt slew
  have csteps : (s.compared off learnt slew).get Obj.TB_STEPS = s.get Obj.TB_STEPS :=
    (compared_get s off learnt slew (by decide)).trans ((if_neg (by decide)).trans (if_neg (by decide)))
  generalize ht : (stepTime off).run (s.compared off learnt slew) = t
  obtain ⟨htime, hcount, hget, hevent, htotal, hbytes, hunit⟩ := stepTime_run off ht (by rw [csteps]; exact hsteps)
  rw [ctime] at htime
  rw [csteps] at hcount
  rw [clog] at htotal
  rw [cunit] at hunit
  exact ⟨htime, hcount, hget, hevent, htotal, hbytes.trans cbytes, congrArg TimeS.learnt hunit⟩

/-- The state that a comparison finds, once it has begun to follow. -/
def State.tbFound (s : State) : Nat := if s.tbBegins then Tb.ACQUIRING else s.get Obj.TB_STATE

/-- The base after a comparison that steps nothing, before its state follows. -/
def State.tbCounted (s : State) (off learnt slew : Int) : State := (s.compared off learnt slew).withTime fun x => { x with inRun := s.tbInRun off, outRun := s.tbOutRun off }

theorem discipline_still (hno : ¬ (s.maySetTime = true ∧ s.get Obj.STEP_THRESHOLD_NS < off.natAbs)) : (discipline off learnt slew).run s =
    (if s.tbFound = Tb.ACQUIRING ∧ 16 ≤ s.tbInRun off then .all [.put Obj.TB_STATE Tb.LOCKED, .clock fun x => { x with outRun := 0 }]
      else if s.tbFound = Tb.LOCKED ∧ 4 ≤ s.tbOutRun off then holdover
      else .skip : Act).run (s.tbCounted off learnt slew) := by
  rw [discipline_run, if_neg hno, run_all_cons, run_all_cons, run_all_nil, run_read, State.tbFound, ← compared_state s off learnt slew]
  rfl

theorem tbCounted_get (k : Nat) : (s.tbCounted off learnt slew).get k = (s.compared off learnt slew).get k := rfl

theorem tbCounted_still : (s.tbCounted off learnt slew).time = s.time ∧ (s.tbCounted off learnt slew).bytes = s.bytes ∧ (s.tbCounted off learnt slew).log = s.log
    ∧ (s.tbCounted off learnt slew).out = s.out ∧ (s.tbCounted off learnt slew).u.time = { s.u.time with learnt := learnt, inRun := s.tbInRun off, outRun := s.tbOutRun off } := by
  obtain ⟨ctime, cbytes, clog, cout, cunit⟩ := compared_still s off learnt slew
  exact ⟨ctime, cbytes, clog, cout, congrArg (fun x : TimeS => { x with inRun := s.tbInRun off, outRun := s.tbOutRun off }) cunit⟩

end

section
variable {s u : State} {off learnt slew : Int}

theorem tbFound_acquiring (h : (s.get Obj.TB_STATE = Tb.FREE ∨ s.get Obj.TB_STATE = Tb.HOLDOVER) ∨ s.get Obj.TB_STATE = Tb.ACQUIRING) : s.tbFound = Tb.ACQUIRING := by
  rw [State.tbFound]
  split
  · rfl
  · exact h.resolve_left fun hb => absurd (tbBegins_iff.2 hb) ‹_›

theorem tbFound_locked (h : s.get Obj.TB_STATE = Tb.LOCKED) : s.tbFound = Tb.LOCKED := by
  rw [State.tbFound, if_neg (by simp [State.tbBegins, h]), h]

theorem compared_shows : (s.compared off learnt slew).get Obj.TB_OFFSET_NS = ofSigned 64 off % 2 ^ 64 ∧ (s.compared off learnt slew).get Obj.TB_RATE_PPB = s.tbRate learnt slew % 2 ^ 64
    ∧ (s.compared off learnt slew).get Obj.TB_STEPS = s.get Obj.TB_STEPS ∧ (s.compared off learnt slew).get Obj.TB_LOCK_LOSSES = s.get Obj.TB_LOCK_LOSSES := by
  have h {k : Nat} (hk : k ≠ Obj.TB_STATE) := compared_get s off learnt slew hk
  exact ⟨(h (by decide)).trans ((if_neg (by decide)).trans (if_pos rfl)), (h (by decide)).trans (if_pos rfl),
    (h (by decide)).trans ((if_neg (by decide)).trans (if_neg (by decide))), (h (by decide)).trans ((if_neg (by decide)).trans (if_neg (by decide)))⟩

/-- The base, locked where `p` holds. -/
def State.tbLocks (s : State) (p : Prop) [Decidable p] : State := if p then (s.putObj Obj.TB_STATE Tb.LOCKED).withTime fun x => { x with outRun := 0 } else s

theorem tbLocks_keeps {p : Prop} [Decidable p] {t : State} (ht : s.tbLocks p = t) : (∀ k, k ≠ Obj.TB_STATE → t.get k = s.get k) ∧ t.get Obj.TB_STATE = (if p then Tb.LOCKED else s.get Obj.TB_STATE)
    ∧ t.time = s.time ∧ t.bytes = s.bytes ∧ t.log = s.log ∧ t.out = s.out ∧ t.u.time.learnt = s.u.time.learnt ∧ t.u.time.inRun = s.u.time.inRun
    ∧ (¬ p → t.u.time.outRun = s.u.time.outRun) := by
  subst ht
  rw [State.tbLocks]
  split
  · exact ⟨fun k hk => (putObj_get s Obj.TB_STATE Tb.LOCKED k).trans (if_neg hk), (putObj_get s Obj.TB_STATE Tb.LOCKED _).trans (if_pos rfl), rfl, rfl, rfl, rfl, rfl, rfl, fun h => absurd ‹_› h⟩
  · exact ⟨fun _ _ => rfl, rfl, rfl, rfl, rfl, rfl, rfl, rfl, fun _ => rfl⟩

/-- A comparison within a run of good ones: it acquires, or locks. -/
theorem discipline_follows (hno : ¬ (s.maySetTime = true ∧ s.get Obj.STEP_THRESHOLD_NS < off.natAbs)) (hnot : ¬ (s.tbFound = Tb.LOCKED ∧ 4 ≤ s.tbOutRun off)) :
    (discipline off learnt slew).run s = (s.tbCounted off learnt slew).tbLocks (s.tbFound = Tb.ACQUIRING ∧ 16 ≤ s.tbInRun off) := by
  rw [discipline_still hno, if_neg hnot, State.tbLocks]
  split <;> rfl

theorem discipline_loses (hno : ¬ (s.maySetTime = true ∧ s.get Obj.STEP_THRESHOLD_NS < off.natAbs)) (hl : s.tbFound = Tb.LOCKED) (ho : 4 ≤ s.tbOutRun off) :
    (discipline off learnt slew).run s = holdover.run (s.tbCounted off learnt slew) := by
  rw [discipline_still hno]
  rw [if_neg fun h => absurd (hl.symm.trans h.1) (by decide), if_pos ⟨hl, ho⟩]

end

/-- Settles O43, a message by the three ends of its comparison: a step, a loss of lock, or neither. -/
theorem timeBaseFollows : Obligations.TimeBaseFollows := by
  unfold Obligations.TimeBaseFollows
  intro s
  refine ⟨?_, ?_, fun ses v hwf hadm => ⟨fun hmay htime hsteps => ?_, fun hmay => ?_⟩, fun ses hses hread => ?_⟩
  · intro kind t learnt slew hkind off top rate st begins far near inRun outRun
    have hwf : Wf.ptpMessage kind t learnt slew = true := by
      rcases hkind with rfl | rfl <;> rfl
    have hin : s.begun.tbInRun off = inRun := by
      simp only [State.tbInRun, tbBegins_iff]
      rfl
    have hout : s.begun.tbOutRun off = outRun := rfl
    refine ⟨fun hno : s.begun.get Obj.TB_SOURCE ≠ kind ∨ s.begun.dev = Dev.STANDBY => (need_next s hwf _).trans (congrArg Host.Outcome.next ?_), fun hsource hdev hsteps hlosses => ?_⟩
    · rw [run_read, if_pos hno]
      rfl
    · have hgo : ¬ (s.begun.get Obj.TB_SOURCE ≠ kind ∨ s.begun.dev = Dev.STANDBY) := not_or.2 ⟨not_not.2 hsource, hdev⟩
      refine ⟨(discipline off learnt slew).run s.begun, (need_next s hwf _).trans (congrArg Host.Outcome.next ?_), ?_⟩
      · rw [run_read, if_neg hgo]
        rfl
      · generalize hu : (discipline off learnt slew).run s.begun = u
        obtain ⟨hoff, hrate, hstepsAt, hlossesAt⟩ := compared_shows (s := s.begun) (off := off) (learnt := learnt) (slew := slew)
        obtain ⟨htime, hbytes, hlog, hout', hunit⟩ := tbCounted_still (s := s.begun) (off := off) (learnt := learnt) (slew := slew)
        have hstate := compared_state s.begun off learnt slew
        by_cases hstep : s.maySetTime = true ∧ far
        · rw [discipline_steps (s := s.begun) hstep.1 hstep.2] at hu
          subst hu
          obtain ⟨ktime, kcount, kget, kevent, ktotal, kbytes, klearnt⟩ := tbStepped_keeps (s := s.begun) (off := off) (learnt := learnt) (slew := slew) hsteps
          refine ⟨(kget _ (by decide)).trans hoff, klearnt, kbytes, fun _ _ => ⟨ktime, kcount, (kget _ (by decide)).trans hrate, ?_, kevent, ktotal⟩, fun h => absurd hstep ?_⟩
          · rw [kget _ (by decide), hstate]
            exact if_congr tbBegins_iff rfl rfl
          · exact fun ⟨hmay, hfar⟩ => h.elim (fun h => absurd (hmay.symm.trans h) (by decide)) fun h => h hfar
        · by_cases hloss : s.begun.tbFound = Tb.LOCKED ∧ 4 ≤ outRun
          · rw [discipline_loses (s := s.begun) hstep hloss.1 hloss.2] at hu
            obtain ⟨kstate, klosses, krate, kget, kevent, ktotal, kbytes, ktime, klearnt⟩ := holdover_keeps _ hu ((tbCounted_get _).trans hlossesAt ▸ hlosses)
            rw [tbCounted_get, hoff] at kevent
            rw [hunit] at krate
            have hfound (h : begins ∨ st = Tb.ACQUIRING) : False := absurd ((tbFound_acquiring (s := s.begun) h).symm.trans hloss.1) (by decide)
            refine ⟨?_, ?_, kbytes.trans hbytes, fun hmay hfar => absurd ⟨hmay, hfar⟩ hstep, fun _ => ⟨ktime.trans htime, ?_, fun h => (hfound h).elim, fun _ h => absurd hloss.2 (not_le.2 h),
              fun _ _ => ⟨kstate, ?_, krate, kevent, ?_⟩⟩⟩
            · exact (kget _ (by decide) (by decide) (by decide)).trans hoff
            · rw [klearnt, hunit]
            · exact (kget _ (by decide) (by decide) (by decide)).trans hstepsAt
            · exact klosses.trans (congrArg (· + 1) hlossesAt)
            · rw [ktotal, hlog]
              rfl
          · rw [discipline_follows (s := s.begun) hstep hloss] at hu
            obtain ⟨kget, kstate, ktime, kbytes, klog, kout, klearnt, kin, koutRun⟩ := tbLocks_keeps hu
            rw [tbCounted_get, hstate] at kstate
            rw [hunit] at klearnt kin koutRun
            have hlocked (h : st = Tb.LOCKED) : ¬ (s.begun.tbFound = Tb.ACQUIRING ∧ 16 ≤ s.begun.tbInRun off) := fun ⟨ha, _⟩ =>
              absurd (ha.symm.trans (tbFound_locked (s := s.begun) h)) (by decide)
            have hrate' : u.get Obj.TB_RATE_PPB = rate := (kget _ (by decide)).trans hrate
            refine ⟨(kget _ (by decide)).trans hoff, klearnt, kbytes.trans hbytes, fun hmay hfar => absurd ⟨hmay, hfar⟩ hstep, fun _ => ⟨ktime.trans htime, (kget _ (by decide)).trans hstepsAt,
              fun h => ⟨?_, kin.trans hin, hrate', klog.trans hlog, kout.trans hout'⟩,
              fun h _ => ⟨?_, kin.trans hin, koutRun (hlocked h), hrate', klog.trans hlog, kout.trans hout'⟩, fun h h4 => absurd ⟨tbFound_locked (s := s.begun) h, h4⟩ hloss⟩⟩
            · have hfound := tbFound_acquiring (s := s.begun) h
              exact kstate.trans (if_congr (by rw [hfound, hin]; simp) rfl hfound)
            · rw [kstate, if_neg (hlocked h)]
              exact tbFound_locked (s := s.begun) h
  · refine (need_next s rfl _).trans (congrArg Host.Outcome.next ?_)
    rw [run_read, run_when]
    simp only [begun_get, beq_iff_eq]
    split
    · exact holdover_run s.begun
    · rfl
  · have hexec := exec_guarded_takes (body := tbSet v) (a := stepTime (Int.ofNat v - Int.ofNat s.ns)) hwf rfl hadm (if_neg (not_not.2 hmay))
    generalize ht : (stepTime (Int.ofNat v - Int.ofNat s.ns)).run s.begun = u at hexec
    obtain ⟨hrun, hcount, hget, hevent, -, hbytes, -⟩ := stepTime_run _ ht hsteps
    refine ⟨_, hexec, ?_, hcount, hevent, hget, hbytes⟩
    · refine hrun.trans ?_
      have hns : s.ns = s.time / 4294967296 := Nat.mod_eq_of_lt (by omega)
      rw [hns, begun_time]
      simp only [Int.ofNat_eq_natCast]
      omega
  · exact exec_guarded_refused hwf hadm (if_pos (ne_true_of_eq_false hmay)) (by decide)
  · refine (need_next s (decide_eq_true hses) _).trans (congrArg Host.Outcome.next ?_)
    rw [run_guardedRead (s := s.begun) hread]
    rfl

end Sys2Proof.Machine
end

section
/-! PROOFS. Trigger pulses and captured edges (R316 to R321). -/

namespace Sys2Proof.Machine

/-! ## What triggers of furrows leave alone -/

/-- A slot that no firing writes: none that jobs and runs write, and no object of furrows. -/
def Obj.apartFromFirings (k : Nat) : Prop := ¬ LifeKey k ∧ k ≠ Obj.LATENT_MASK ∧ k / 256 % 65536 ≠ 0x2581 ∧ k / 256 % 65536 ≠ 0x2D21

section
variable {k : Nat} (hk : Obj.apartFromFirings k)
include hk

/-- A slot of a furrow's own objects is another. -/
theorem apartFromFirings_ne {k' : Nat} (h : k' / 256 % 65536 = 0x2581 ∨ k' / 256 % 65536 = 0x2D21) : Part.obj k' ≠ Part.obj k := by
  obtain ⟨-, -, h1, h2⟩ := hk
  refine Part.obj_ne fun e => ?_
  subst e
  exact h.elim h1 h2

theorem apartFromFirings_life (J : Nat → Prop) : LifeWithin J (· ≠ Part.obj k) fun _ => True :=
  lifeWithin_spares (fun j hj => Part.obj_ne fun e : j = k => hk.1 (e ▸ hj)) nofun nofun J

theorem groupTake_apartFromFirings {c : Nat} (hc : c % 65536 = 0x2581 ∨ c % 65536 = 0x2D21) : (groupTake c).Spares (.obj k) := by
  have hidx : idxOf c = c := if_neg fun h => by omega
  have hctl {k' : Nat} (h : k' / 256 = c) : Part.obj k' ≠ Part.obj k := apartFromFirings_ne hk (by rwa [h])
  simp only [Act.Spares, groupTake, groupClear, Act.dict, hidx, within_read, within_all_cons, within_all_nil, within_each, within_put, within_units, within_dropShadow, within_wrap,
    and_true]
  refine fun s => ⟨fun e he => hctl ?_, trivial, ⟨nofun, trivial, hctl ?_⟩, hctl ?_, hctl ?_, hctl ?_, hctl ?_⟩
  · simpa using (List.mem_filter.1 he).2
  all_goals
    simp only [Obj.SHADOW_OWNER, Obj.COMMIT_STATUS, Obj.COMMIT_COUNT, Obj.APPLIED_TIME, Obj.APPLIED_TIME_FRAC]
    omega

theorem furrowObj_ne (f : Nat) {i : Nat} (hi : i / 256 = 0x2581 ∨ i / 256 = 0x2D21) : Part.obj (f * 16777216 + i) ≠ Part.obj k :=
  apartFromFirings_ne hk (by omega)

theorem frameBoundary_apartFromFirings (f : Nat) : (frameBoundary f).Spares (.obj k) := by
  have hobj {i : Nat} (hi : i / 256 = 0x2581 ∨ i / 256 = 0x2D21) (f : Nat) := furrowObj_ne hk f hi
  have hbind (c h : Nat) : (bindSems c h).Within (· ≠ Part.obj k) fun _ => True := by
    simp only [bindSems, within_read]
    intro s
    split
    · trivial
    · simp [Act.tt]
  simp only [Act.Spares, frameBoundary, within_read, within_each]
  intro s c hc
  have hctl : c = furrowCtl f ∨ c = dictationCtl f := by simpa using (List.mem_filter.1 hc).2
  have htake := groupTake_apartFromFirings hk (c := c) (by unfold furrowCtl dictationCtl at hctl; omega)
  simp only [Act.Spares] at htake
  simp [applyFurrow, htake, hbind, Act.furrow, Act.tt, hobj]

theorem goldenDue_apartFromFirings (f n : Nat) (e : Entry) : (goldenDue f n e).Spares (.obj k) := by
  have h := apartFromFirings_life hk fun _ => False
  have hobj {i : Nat} (hi : i / 256 = 0x2581 ∨ i / 256 = 0x2D21) (f : Nat) := furrowObj_ne hk f hi
  have habandon : (goldenAbandon f).Within (· ≠ Part.obj k) fun _ => True := by
    simp only [goldenAbandon, within_read]
    intro s
    have hdrop (r : Nat) : (dropRun r).Within (· ≠ Part.obj k) fun _ => True := by
      simp [dropRun, dropJobs, jobLeaves_within h id, h.offers, Act.tt]
    have hlost : (Act.count 32 (Obj.GOLDEN_ABANDONED f) 1).Within (· ≠ Part.obj k) fun _ => True := within_count _ _ _ (hobj (by decide) f) nofun
    have hlatent : Part.obj Obj.LATENT_MASK ≠ Part.obj k := Part.obj_ne fun e => hk.2.1 e.symm
    split <;> simp [hdrop, hlost, hlatent, hobj, Act.furrow, Act.tt, Act.safe, dueCause]
  simp [Act.Spares, goldenDue, habandon, advanceRun_within h, Act.furrow, Act.tt]

theorem makeFiring_apartFromFirings (f tov frac : Nat) (revised : Bool) (slot : Option (Nat × Nat × Nat × List Nat)) : (makeFiring f tov frac revised slot).Spares (.obj k) := by
  have hgold := goldenDue_apartFromFirings hk
  simp only [Act.Spares] at hgold
  simp only [Act.Spares, makeFiring, within_read]
  intro s
  split
  · trivial
  · have hcount : (Act.count 64 (Obj.FIRINGS f) 1).Within (· ≠ Part.obj k) fun _ => True := within_count _ _ _ (furrowObj_ne hk f (by decide)) nofun
    simp [hcount, hgold, advanceRun_within (apartFromFirings_life hk fun _ => False), Act.furrow, Act.tt]

theorem trigger_apartFromFirings (f tov frac : Nat) (revised : Bool) (slot : Option (Nat × Nat × Nat × List Nat)) : (trigger f tov frac revised slot).Spares (.obj k) := by
  have hfiring := makeFiring_apartFromFirings hk f tov frac revised slot
  have hframe := frameBoundary_apartFromFirings hk f
  have hend (r : Nat) : (endFiring r St.SUPERSEDED 0).Within (· ≠ Part.obj k) fun _ => True := endFiring_within (apartFromFirings_life hk fun _ => False) (fun _ => id) _ _ _
  have hcount {i : Nat} (hi : i / 256 = 0x2581 ∨ i / 256 = 0x2D21) : (Act.count 32 (f * 16777216 + i) 1).Within (· ≠ Part.obj k) fun _ => True :=
    within_count _ _ _ (furrowObj_ne hk f hi) nofun
  simp only [Act.Spares] at hfiring hframe ⊢
  simp only [trigger, within_read, within_ite, within_all_cons, within_all_nil, Act.furrow, Act.tt, within_units, hframe, within_skip, and_true, implies_true, true_and]
  refine fun s _ => ⟨fun _ => hcount (by decide), fun _ t _ => ?_⟩
  split
  · simp only [within_ite, within_all_cons, within_all_nil, hend, hfiring, and_true, implies_true]
    exact fun _ => ⟨fun _ => hcount (by decide), fun _ => hcount (by decide)⟩
  · exact hfiring

theorem deliver_apartFromFirings (kind source tov frac : Nat) (revised : Bool) : (deliver kind source tov frac revised).Spares (.obj k) := by
  have h (f : Nat) := trigger_apartFromFirings hk f tov frac revised none
  simp only [Act.Spares] at h
  simp [Act.Spares, deliver, h]

end

/-! ## Triggers and captures -/

section
variable {s : State} {n : Nat}

/-- The place of device time in the pulse train of trigger `n`. -/
def State.trigPlace (s : State) (n : Nat) : Nat :=
  if s.get (Obj.TRIG_MODE n) = 2 ∧ s.get (Obj.TRIG_PERIOD_NS n) ≠ 0 then (s.ns - s.get (Obj.TRIG_START n)) / s.get (Obj.TRIG_PERIOD_NS n) else 0

theorem exec_triggerEdge (hn : n < 16) : exec (.triggerEdge n) s = .next ((
    if (s.trig n).high = true ∧ s.ns < (s.trig n).ends then .skip
    else if (s.trig n).high = true then Act.all [
      .trig n (fun y => { y with high := false }), .emit (.trigger n (s.trigLevel n false)),
      .read fun s => .when (s.groupPending (0x2210 + n) && s.trigIdle n) (applyTrigger n)]
    else if ¬ s.trigRuns n = true ∨ ¬ s.trigPending n = true ∨ s.ns < s.get (Obj.TRIG_START n) ∨ s.trigPlace n < (s.trig n).next then .skip
    else Act.all [
      .emit (.trigger n (s.trigLevel n true)),
      .count 64 (Obj.TRIG_PULSES n) 1, .put (Obj.TRIG_LAST_EDGE n) (s.get (Obj.TRIG_START n) + s.trigPlace n * s.get (Obj.TRIG_PERIOD_NS n)),
      .trig n (fun y => { y with
        high := true, next := s.trigPlace n + 1, sent := y.sent + 1
        ends := s.get (Obj.TRIG_START n) + s.trigPlace n * s.get (Obj.TRIG_PERIOD_NS n) + s.get (Obj.TRIG_WIDTH_NS n) }),
      .when (s.groupPending (0x2210 + n)) (applyTrigger n)]).run s.begun) :=
  need_next s (decide_eq_true hn) _

/-- No source takes its samples from input `n`. -/
theorem captureSources_none (h : ∀ i < 64, s.get (Obj.SRC_KIND i) ≠ 3 ∨ s.get (Obj.SRC_LOCATOR i) % 16 ≠ n) (ns frac : Nat) : (captureSources n ns frac).run s = s := by
  have hnone : ((List.range 64).filter fun i => s.get (Obj.SRC_KIND i) == 3 && s.get (Obj.SRC_LOCATOR i) % 16 == n) = [] := by
    rw [List.filter_eq_nil_iff]
    intro i hi
    have := h i (List.mem_range.1 hi)
    simp only [Bool.and_eq_true, beq_iff_eq]
    tauto
  rw [captureSources, run_read, hnone]
  rfl

variable (s n) in
/-- A level change of input `n` at `ns`, before it is taken or dropped. -/
def State.edgeSeen (ns : Nat) (rising : Bool) : State :=
  (s.withTime fun x => { x with cap := Tab.upd x.cap n {} fun c => { c with edge := some ns } }).putObj (Obj.CAP_LEVEL n) (if rising then 1 else 0)

variable (s n) in
/-- An edge of input `n` taken: counted, noted, and in its FIFO where that has room. -/
def State.edgeTaken (ns frac : Nat) (rising : Bool) : State :=
  let fifo := (Tab.at s.u.time.cap n {}).fifo
  let t := (s.counted 64 (Obj.CAP_COUNT n) 1).withTime fun x => { x with
    cap := Tab.upd x.cap n {} fun c => { c with last := some (ns, frac), fifo := if fifo.length < 64 then c.fifo ++ [(ns, frac, rising)] else c.fifo } }
  if fifo.length < 64 then t.putObj (Obj.CAP_FIFO_FILL n) (fifo.length + 1) else t.counted 32 (Obj.CAP_DROPPED n) 1

theorem edgeSeen_get {ns k : Nat} {rising : Bool} (hk : k ≠ Obj.CAP_LEVEL n) : (s.edgeSeen n ns rising).get k = s.get k := (putObj_get ..).trans (if_neg hk)

theorem edgeSeen_level (ns : Nat) (rising : Bool) : (s.edgeSeen n ns rising).get (Obj.CAP_LEVEL n) = if rising then 1 else 0 :=
  (putObj_get ..).trans ((if_pos rfl).trans (by cases rising <;> rfl))

theorem edgeSeen_cap (ns : Nat) (rising : Bool) : Tab.at (s.edgeSeen n ns rising).u.time.cap n {} = { Tab.at s.u.time.cap n {} with edge := some ns } :=
  (Tab.at_upd s.u.time.cap n (fun c => { c with edge := some ns }) {} n).trans (if_pos rfl)

theorem edgeSeen_still (ns : Nat) (rising : Bool) : (s.edgeSeen n ns rising).bytes = s.bytes ∧ (s.edgeSeen n ns rising).log = s.log ∧ (s.edgeSeen n ns rising).out = s.out :=
  ⟨rfl, rfl, rfl⟩

/-- The four slots of input `n` that an edge writes. -/
theorem cap_keys (n : Nat) : Obj.CAP_LEVEL n ≠ Obj.CAP_COUNT n ∧ Obj.CAP_LEVEL n ≠ Obj.CAP_FIFO_FILL n ∧ Obj.CAP_LEVEL n ≠ Obj.CAP_DROPPED n ∧ Obj.CAP_COUNT n ≠ Obj.CAP_FIFO_FILL n
    ∧ Obj.CAP_COUNT n ≠ Obj.CAP_DROPPED n ∧ Obj.CAP_FIFO_FILL n ≠ Obj.CAP_DROPPED n := by
  unfold Obj.CAP_LEVEL Obj.CAP_COUNT Obj.CAP_FIFO_FILL Obj.CAP_DROPPED
  omega

section
variable {t : State} {ns frac : Nat} {rising : Bool} (ht : s.edgeTaken n ns frac rising = t)
include ht

theorem edgeTaken_cap : Tab.at t.u.time.cap n {} = { Tab.at s.u.time.cap n {} with
    last := some (ns, frac), fifo := if (Tab.at s.u.time.cap n {}).fifo.length < 64 then (Tab.at s.u.time.cap n {}).fifo ++ [(ns, frac, rising)] else (Tab.at s.u.time.cap n {}).fifo } := by
  have hu : t.u.time.cap = Tab.upd s.u.time.cap n {} fun c => { c with
      last := some (ns, frac), fifo := if (Tab.at s.u.time.cap n {}).fifo.length < 64 then c.fifo ++ [(ns, frac, rising)] else c.fifo } := by
    subst ht
    have hc : (s.counted 64 (Obj.CAP_COUNT n) 1).u = s.u := run_count_u ..
    simp only [State.edgeTaken]
    split
    · simp only [State.putObj, State.withTime, State.withUnits, hc]
    · rw [State.counted, run_count_u]
      simp only [State.withTime, State.withUnits, hc]
  rw [hu, Tab.at_upd, if_pos rfl]

theorem edgeTaken_still : t.bytes = s.bytes ∧ t.log = s.log ∧ t.out = s.out := by
  subst ht
  simp only [State.edgeTaken]
  split
  · exact ⟨run_count_bytes .., run_count_log .., run_count_out ..⟩
  · exact ⟨(run_count_bytes ..).trans (run_count_bytes ..), (run_count_log ..).trans (run_count_log ..), (run_count_out ..).trans (run_count_out ..)⟩

theorem edgeTaken_get {k : Nat} (h1 : k ≠ Obj.CAP_COUNT n) (h2 : k ≠ Obj.CAP_FIFO_FILL n) (h3 : k ≠ Obj.CAP_DROPPED n) : t.get k = s.get k := by
  have hc : (s.counted 64 (Obj.CAP_COUNT n) 1).get k = s.get k := run_count_get _ _ _ _ h1
  subst ht
  simp only [State.edgeTaken]
  split
  · exact (putObj_get ..).trans ((if_neg h2).trans hc)
  · exact (run_count_get _ _ _ _ h3).trans hc

theorem edgeTaken_count (hcount : s.get (Obj.CAP_COUNT n) + 1 < 2 ^ 64) : t.get (Obj.CAP_COUNT n) = s.get (Obj.CAP_COUNT n) + 1 := by
  obtain ⟨-, -, -, h4, h5, -⟩ := cap_keys n
  have hc : (s.counted 64 (Obj.CAP_COUNT n) 1).get (Obj.CAP_COUNT n) = s.get (Obj.CAP_COUNT n) + 1 := run_count_get_self _ _ _ _ (by decide) hcount
  subst ht
  simp only [State.edgeTaken]
  split
  · exact (putObj_get ..).trans ((if_neg h4).trans hc)
  · exact (run_count_get _ _ _ _ h5).trans hc

theorem edgeTaken_room (h : (Tab.at s.u.time.cap n {}).fifo.length < 64) : t.get (Obj.CAP_FIFO_FILL n) = (Tab.at s.u.time.cap n {}).fifo.length + 1
    ∧ t.get (Obj.CAP_DROPPED n) = s.get (Obj.CAP_DROPPED n) := by
  obtain ⟨-, -, -, h4, h5, h6⟩ := cap_keys n
  subst ht
  simp only [State.edgeTaken, if_pos h]
  refine ⟨(putObj_get ..).trans ((if_pos rfl).trans (Nat.mod_eq_of_lt (by omega))), (putObj_get ..).trans ((if_neg h6.symm).trans ?_)⟩
  exact run_count_get s _ _ _ h5.symm

theorem edgeTaken_full (h : 64 ≤ (Tab.at s.u.time.cap n {}).fifo.length) (hdropped : s.get (Obj.CAP_DROPPED n) + 1 < 2 ^ 32) :
    t.get (Obj.CAP_FIFO_FILL n) = s.get (Obj.CAP_FIFO_FILL n) ∧ t.get (Obj.CAP_DROPPED n) = s.get (Obj.CAP_DROPPED n) + 1 := by
  obtain ⟨-, -, -, h4, h5, h6⟩ := cap_keys n
  have hc {k : Nat} (hk : k ≠ Obj.CAP_COUNT n) : (s.counted 64 (Obj.CAP_COUNT n) 1).get k = s.get k := run_count_get _ _ _ _ hk
  subst ht
  simp only [State.edgeTaken, if_neg (not_lt.2 h)]
  refine ⟨(run_count_get _ _ _ _ h6).trans (hc h4.symm), (run_count_get_self _ _ _ _ (by decide) ?_).trans ?_⟩
  · exact (congrArg (· + 1) (hc h5.symm)).trans_lt hdropped
  · exact congrArg (· + 1) (hc h5.symm)

end

/-- The edge follows another within 40 ns, and is lost. -/
def State.edgeLost (s : State) (n ns : Nat) (lost : Bool) : Bool := lost && (Tab.at s.u.time.cap n {}).edge.any fun t => decide (ns < t + 40)

theorem edgeLost_iff {ns : Nat} {lost : Bool} : s.edgeLost n ns lost = true ↔ lost = true ∧ ∃ t, (Tab.at s.u.time.cap n {}).edge = some t ∧ ns < t + 40 := by
  simp [State.edgeLost, Option.any_eq_true]

/-- No firing writes the kind or the locator of a source. -/
theorem source_apartFromFirings {i o : Nat} (hi : i < 64) (ho : o = 1 ∨ o = 2) : Obj.apartFromFirings (0x284000 + o + i * 256) := by
  refine ⟨fun h => ?_, by unfold Obj.LATENT_MASK; omega, by omega, by omega⟩
  generalize hk : 0x284000 + o + i * 256 = k at h
  cases h with
  | power hp =>
    cases hp <;> simp only [Obj.BUDGET_STEP_DOWNS, Obj.DOM_RAIL_MV, Obj.RAIL_MV, Obj.DOM_PACER, Obj.PACER_STEP, Obj.DOM_TARGET_MV, Obj.DOM_STEPS, Obj.BUSY_NS, Obj.ENGINE_NS,
      Obj.DEGRADED_NS] at hk <;> omega
  | _ =>
    simp only [Obj.INHERITANCES, Obj.CTX_INHERITED, Obj.JOBS_DONE, Obj.JOBS_ENDED, Obj.CTX_WAIT_NS, Obj.JOBS_FAULT_ENDED, Obj.JOBS_RETRIED, Obj.CHUNKS_DONE, Obj.FIRINGS_DONE,
      Obj.ARG_LEN_CHECK, Obj.COMPLETION, Obj.F_COMPLETION, Obj.STATE, Obj.DOM_STATE, Obj.DOM_WAKES] at hk
    omega

section
variable {ns frac held : Nat} {rising lost : Bool} (learnt slew : Int)

/-- What an edge of an input does once it has been seen, but for telling it. -/
theorem exec_captureEdge (hn : n < 16) (hfrac : frac < 65536) (hdev : Dev.PREOP ≤ s.dev) (hheld : s.get (Obj.CAP_FILTER_NS n) ≤ held)
    (hpps : n = 0 → rising = true → s.get Obj.TB_SOURCE ≠ 3) {w : Bool} (hw : bit (s.get (Obj.CAP_EDGES n)) (if rising then 0 else 1) = w) :
    exec (.captureEdge n ns frac held rising lost learnt slew) s = .next ((Act.all [
      .when (w && s.edgeLost n ns lost) (.count 32 (Obj.CAP_DROPPED n) 1),
      .when (w && !s.edgeLost n ns lost) (.all [
        .count 64 (Obj.CAP_COUNT n) 1,
        .clock (fun x => { x with
          cap := Tab.upd x.cap n {} (fun c => { c with
            last := some (ns, frac), fifo := if (Tab.at s.u.time.cap n {}).fifo.length < 64 then c.fifo ++ [(ns, frac, rising)] else c.fifo }) }),
        if (Tab.at s.u.time.cap n {}).fifo.length < 64 then .put (Obj.CAP_FIFO_FILL n) ((Tab.at s.u.time.cap n {}).fifo.length + 1) else .count 32 (Obj.CAP_DROPPED n) 1,
        deliver 7 n ns frac false, captureSources n ns frac])]).run (s.begun.edgeSeen n ns rising)).told := by
  subst hw
  have hgo : ¬ (s.begun.dev < Dev.PREOP ∨ held < s.begun.get (Obj.CAP_FILTER_NS n)) := not_or.2 ⟨not_lt.2 hdev, not_lt.2 hheld⟩
  have hpps' : (n == 0 && rising && !(s.edgeLost n ns lost) && s.begun.get Obj.TB_SOURCE == 3) = false := by
    rw [begun_get, Bool.eq_false_iff]
    simp only [ne_eq, Bool.and_eq_true, beq_iff_eq]
    exact fun h => hpps h.1.1.1 h.1.1.2 h.2
  refine (need_next s (by simp [Wf.captureEdge, hn, hfrac]) _).trans (congrArg Host.Outcome.next ?_)
  rw [run_read]
  simp only
  rw [if_neg hgo]
  have hlost : (lost && (Tab.at s.begun.u.time.cap n {}).edge.any fun t => decide (ns < t + 40)) = s.edgeLost n ns lost := rfl
  rw [hlost, hpps', run_all_cons, run_all_cons, run_all_cons, run_all_cons, run_all_cons, run_all_cons, run_all_nil, run_all_cons, run_all_cons, run_all_nil]
  rfl

/-- An edge that is not to be taken is counted as dropped where it is of a wanted kind. -/
theorem exec_captureEdge_drops (hn : n < 16) (hfrac : frac < 65536) (hdev : Dev.PREOP ≤ s.dev) (hheld : s.get (Obj.CAP_FILTER_NS n) ≤ held)
    (hpps : n = 0 → rising = true → s.get Obj.TB_SOURCE ≠ 3) {w : Bool} (hw : bit (s.get (Obj.CAP_EDGES n)) (if rising then 0 else 1) = w)
    (hno : w = false ∨ s.edgeLost n ns lost = true) :
    exec (.captureEdge n ns frac held rising lost learnt slew) s = .next ((Act.when w (.count 32 (Obj.CAP_DROPPED n) 1)).run (s.begun.edgeSeen n ns rising)).told := by
  have h1 : (w && s.edgeLost n ns lost) = w := by
    rcases hno with h | h <;> simp [h]
  have h2 : (w && !s.edgeLost n ns lost) = false := by
    rcases hno with h | h <;> simp [h]
  rw [exec_captureEdge learnt slew hn hfrac hdev hheld hpps hw, h1, h2]
  rfl

theorem exec_captureEdge_takes (hn : n < 16) (hfrac : frac < 65536) (hdev : Dev.PREOP ≤ s.dev) (hheld : s.get (Obj.CAP_FILTER_NS n) ≤ held)
    (hpps : n = 0 → rising = true → s.get Obj.TB_SOURCE ≠ 3) (hsources : ∀ i < 64, s.get (Obj.SRC_KIND i) ≠ 3 ∨ s.get (Obj.SRC_LOCATOR i) % 16 ≠ n)
    (hw : bit (s.get (Obj.CAP_EDGES n)) (if rising then 0 else 1) = true) (hlost : s.edgeLost n ns lost = false) :
    exec (.captureEdge n ns frac held rising lost learnt slew) s = .next (((s.begun.edgeSeen n ns rising).edgeTaken n ns frac rising).fires 7 n ns frac).told := by
  rw [exec_captureEdge learnt slew hn hfrac hdev hheld hpps hw, hlost]
  generalize ht : (s.begun.edgeSeen n ns rising).edgeTaken n ns frac rising = t
  have hget {k : Nat} (hk : k / 65536 = 0x28) (hk' : Obj.apartFromFirings k) : (t.fires 7 n ns frac).get k = s.get k := by
    have hdeliver : (t.fires 7 n ns frac).get k = t.get k := Act.Spares.get t (deliver_apartFromFirings hk' _ _ _ _ _)
    rw [hdeliver, edgeTaken_get ht, edgeSeen_get]
    · rfl
    all_goals
      simp only [Obj.CAP_LEVEL, Obj.CAP_COUNT, Obj.CAP_FIFO_FILL, Obj.CAP_DROPPED]
      omega
  have hcap : (Tab.at (s.begun.edgeSeen n ns rising).u.time.cap n {}).fifo = (Tab.at s.u.time.cap n {}).fifo := by
    rw [edgeSeen_cap]
    rfl
  have htaken : (Act.all [
        .count 64 (Obj.CAP_COUNT n) 1,
        .clock (fun x => { x with
          cap := Tab.upd x.cap n {} (fun c => { c with
            last := some (ns, frac), fifo := if (Tab.at s.u.time.cap n {}).fifo.length < 64 then c.fifo ++ [(ns, frac, rising)] else c.fifo }) }),
        if (Tab.at s.u.time.cap n {}).fifo.length < 64 then .put (Obj.CAP_FIFO_FILL n) ((Tab.at s.u.time.cap n {}).fifo.length + 1) else .count 32 (Obj.CAP_DROPPED n) 1]).run
        (s.begun.edgeSeen n ns rising) = t := by
    rw [← ht, State.edgeTaken, hcap, run_all_cons, run_all_cons, run_all_cons, run_all_nil]
    split <;> rfl
  refine congrArg (fun x => Host.Outcome.next (State.told x)) ?_
  simp only [run_all_cons, run_all_nil] at htaken
  simp only [Bool.and_false, Bool.not_false, Bool.and_true, run_all_cons, run_all_nil, run_when, Bool.false_eq_true, ↓reduceIte, htaken]
  refine captureSources_none (fun i hi => ?_) ns frac
  have hkind : ((deliver 7 n ns frac false).run t).get (Obj.SRC_KIND i) = s.get (Obj.SRC_KIND i) := hget (by unfold Obj.SRC_KIND; omega) (source_apartFromFirings hi (.inl rfl))
  have hlocator : ((deliver 7 n ns frac false).run t).get (Obj.SRC_LOCATOR i) = s.get (Obj.SRC_LOCATOR i) := hget (by unfold Obj.SRC_LOCATOR; omega) (source_apartFromFirings hi (.inr rfl))
  rw [hkind, hlocator]
  exact hsources i hi

end

end

/-- Settles O44, a capture by what its edge leaves before its FIFO is told of. -/
theorem edgesAreTimed : Obligations.EdgesAreTimed := by
  unfold Obligations.EdgesAreTimed
  intro s n hn
  refine ⟨fun hhigh hns => ?_, fun hhigh hends hpend => ?_, fun hlow => ?_, ?_, fun ses hses hread => ⟨fun hfifo => ?_, fun e rest hfifo => ?_⟩⟩
  · rw [exec_triggerEdge hn, if_pos ⟨hhigh, hns⟩]
    rfl
  · rw [exec_triggerEdge hn, if_neg fun h => absurd h.2 (not_lt.2 hends), if_pos hhigh, run_all_cons, run_all_cons, run_all_cons, run_all_nil, run_read, run_when, if_neg]
    · rfl
    · have hstill : ∀ t : State, t.objs = s.objs → (t.groupPending (0x2210 + n) && t.trigIdle n) ≠ true := fun t ht => by
        have : t.groupPending (0x2210 + n) = s.groupPending (0x2210 + n) := by simp only [State.groupPending, State.get, ht]
        simp [this, hpend]
      exact hstill _ rfl
  · have hnot : ¬ (s.trig n).high = true := ne_true_of_eq_false hlow
    intro start period k at'
    refine ⟨fun hruns hpending hstart hnext hgroup => ?_, fun hno => ?_⟩
    · rw [exec_triggerEdge hn, if_neg fun h => hnot h.1, if_neg hnot, if_neg (by simp [hruns, hpending]; exact ⟨hstart, hnext⟩), hgroup]
      rfl
    · have hnone : ¬ s.trigRuns n = true ∨ ¬ s.trigPending n = true ∨ s.ns < s.get (Obj.TRIG_START n) ∨ s.trigPlace n < (s.trig n).next := by
        simp only [Bool.not_eq_true]
        exact hno
      rw [exec_triggerEdge hn, if_neg fun h => hnot h.1, if_neg hnot, if_pos hnone]
      rfl
  · intro ns frac held rising lost learnt slew hfrac c drops
    have hwf : Wf.captureEdge n ns frac held rising lost learnt slew = true := by simp [Wf.captureEdge, hn, hfrac]
    refine ⟨fun hno : s.begun.dev < Dev.PREOP ∨ held < s.begun.get (Obj.CAP_FILTER_NS n) => (need_next s hwf _).trans (congrArg Host.Outcome.next ?_),
      fun hdev hheld hpps hsources hcount hdropped => ?_⟩
    · rw [run_read]
      simp only
      rw [if_pos hno]
      rfl
    · intro wanted
      obtain ⟨k1, k2, k3, k4, k5, k6⟩ := cap_keys n
      have hdrops : drops ↔ s.edgeLost n ns lost = true := edgeLost_iff.symm
      have hseen {k : Nat} (hk : k ≠ Obj.CAP_LEVEL n) : (s.begun.edgeSeen n ns rising).get k = s.get k := edgeSeen_get hk
      have hfifo : (Tab.at (s.begun.edgeSeen n ns rising).u.time.cap n {}).fifo = c.fifo := by
        rw [edgeSeen_cap]
        rfl
      by_cases htake : wanted = true ∧ s.edgeLost n ns lost = false
      · obtain ⟨hw, hlost⟩ := htake
        have hnot : ¬ drops := fun h => absurd (hdrops.1 h) (ne_true_of_eq_false hlost)
        have hexec := exec_captureEdge_takes learnt slew hn hfrac hdev hheld hpps hsources hw hlost
        generalize ht : (s.begun.edgeSeen n ns rising).edgeTaken n ns frac rising = t at hexec
        have hcap := edgeTaken_cap ht
        rw [edgeSeen_cap] at hcap
        obtain ⟨hbytes, hlog, hout⟩ := edgeTaken_still ht
        refine ⟨t, ?_, ?_, ?_, hbytes, hlog, hout, fun _ _ => ⟨?_, ?_, fun hroom => ⟨?_, ?_, ?_⟩, fun hfull => ⟨?_, ?_, ?_⟩⟩, fun h => ?_, fun k h1 h2 h3 h4 => ?_⟩
        · rw [hexec, if_pos ⟨hw, hnot⟩]
        · exact (edgeTaken_get ht k1 k2 k3).trans (edgeSeen_level ns rising)
        · rw [hcap]
        · exact (edgeTaken_count ht (hseen k1.symm ▸ hcount)).trans (congrArg (· + 1) (hseen k1.symm))
        · rw [hcap]
        · rw [hcap]
          exact if_pos hroom
        · exact (edgeTaken_room ht (hfifo ▸ hroom)).1.trans (congrArg (·.length + 1) hfifo)
        · exact (edgeTaken_room ht (hfifo ▸ hroom)).2.trans (hseen k3.symm)
        · rw [hcap]
          exact if_neg (not_lt.2 hfull)
        · exact (edgeTaken_full ht (hfifo ▸ hfull) (hseen k3.symm ▸ hdropped)).1.trans (hseen k2.symm)
        · exact (edgeTaken_full ht (hfifo ▸ hfull) (hseen k3.symm ▸ hdropped)).2.trans (congrArg (· + 1) (hseen k3.symm))
        · exact absurd h (not_or.2 ⟨by simp [hw], hnot⟩)
        · exact (edgeTaken_get ht h2 h3 h4).trans (hseen h1)
      · have hno : wanted = false ∨ s.edgeLost n ns lost = true := by
          rw [← Bool.not_eq_true, ← Bool.not_eq_false (b := s.edgeLost n ns lost)]
          exact not_and_or.1 htake
        have hexec := exec_captureEdge_drops learnt slew hn hfrac hdev hheld hpps (w := wanted) rfl hno
        generalize ht : (Act.when wanted (.count 32 (Obj.CAP_DROPPED n) 1)).run (s.begun.edgeSeen n ns rising) = t at hexec
        have hget {k : Nat} (hk : k ≠ Obj.CAP_DROPPED n) : t.get k = (s.begun.edgeSeen n ns rising).get k := by
          rw [← ht, run_when]
          split
          · exact run_count_get _ _ _ _ hk
          · rfl
        have hstill : t.bytes = s.bytes ∧ t.log = s.log ∧ t.out = [] ∧ t.u = (s.begun.edgeSeen n ns rising).u := by
          rw [← ht, run_when]
          split
          · exact ⟨run_count_bytes .., run_count_log .., run_count_out .., run_count_u ..⟩
          · exact ⟨rfl, rfl, rfl, rfl⟩
        obtain ⟨hbytes, hlog, hout, hu⟩ := hstill
        refine ⟨t, ?_, (hget k3).trans (edgeSeen_level ns rising), ?_, hbytes, hlog, hout, fun hw hnot => absurd htake (not_not.2 ⟨hw, ?_⟩), fun _ => ⟨(hget k5).trans (hseen k1.symm), ?_, ?_, ?_⟩,
          fun k h1 h2 h3 h4 => (hget h4).trans (hseen h1)⟩
        · rw [hexec, if_neg fun h => ?_]
          exact htake ⟨h.1, Bool.eq_false_iff.2 fun hl => h.2 (hdrops.2 hl)⟩
        · rw [hu, edgeSeen_cap]
        · exact Bool.eq_false_iff.2 fun hl => hnot (hdrops.2 hl)
        · rw [hu, edgeSeen_cap]
          rfl
        · rw [hu, edgeSeen_cap]
          rfl
        · rw [← ht, run_when]
          split
          · exact (run_count_get_self _ _ _ _ (by decide) (hseen k3.symm ▸ hdropped)).trans (congrArg (· + 1) (hseen k3.symm))
          · exact hseen k3.symm
  · refine (need_next s (by simp [Wf.capRead, hses, hn]) _).trans (congrArg Host.Outcome.next ?_)
    rw [run_guardedRead (s := s.begun) hread, capRead, begun_u, hfifo]
    rfl
  · refine (need_next s (by simp [Wf.capRead, hses, hn]) _).trans (congrArg Host.Outcome.next ?_)
    rw [run_guardedRead (s := s.begun) hread, capRead, begun_u, hfifo]
    simp only [run_all_cons, run_all_nil]
    rfl

end Sys2Proof.Machine
end

section
/-! PROOFS. The PMBus port, the sense line and the console (R503, R519 to R521). -/

namespace Sys2Proof.Machine

section
variable {s : State}

/-- A module without power answers nothing. -/
theorem pmbusAnswer_off (h : s.u.boot.powered = false) (f : State → List Byte) : need true s (pmbusAnswer f) = .next (s.sending []) := by
  rw [need_next s rfl, pmbusAnswer, run_read, run_when, begun_u, h]
  rfl

theorem pmbusAnswer_on (h : s.u.boot.powered = true) (f : State → List Byte) : need true s (pmbusAnswer f) = .next (s.sending [.pmbus (f s.begun)]) := by
  rw [need_next s rfl, pmbusAnswer, run_read, run_when, begun_u, h]
  rfl

/-- A command whose condition does not hold does nothing. -/
theorem need_when_no {c : Bool} (hc : c = true) (g : State → Bool) (a : State → Act) (h : g s.begun = false) : need c s (.read fun s => .when (g s) (a s)) = .next (s.sending []) := by
  rw [need_next s hc, run_read, run_when, h]
  rfl

theorem need_when_yes {c : Bool} (hc : c = true) (g : State → Bool) (a : State → Act) (h : g s.begun = true) : need c s (.read fun s => .when (g s) (a s)) = .next ((a s.begun).run s.begun) := by
  rw [need_next s hc, run_read, run_when, h]
  rfl

theorem budgetMoved_run (t : State) : budgetMoved.run t = t.recovered.offered := by
  rw [budgetMoved, run_all_cons, run_all_cons, run_all_nil, State.offered, State.recovered]

theorem faultsCleared_run (input temp : Nat) (quiet : Bool) : (Act.all [
      .pow (fun x => { x with statusInput := input, statusTemp := temp, statusCml := 0, alert := x.alert && !quiet }),
      .when (s.u.pow.alert && quiet) (.emit (.pin .alertN true))]).run s.begun
    = (s.withPow fun x => { x with statusInput := input, statusTemp := temp, statusCml := 0, alert := x.alert && !quiet }).sending
      (if s.u.pow.alert && quiet then [.pin .alertN true] else []) := by
  rw [run_all_cons, run_all_cons, run_all_nil, run_when]
  split <;> rfl

end

/-- Settles O56: a command answers or acts where the module has power, and otherwise does nothing. -/
theorem pmbusAnswers : Obligations.PmbusAnswers := by
  unfold Obligations.PmbusAnswers
  intro s answers
  have hlimit : exec (.mfrPinLimit none) s = need true s (pmbusAnswer fun s => le 2 (s.get Obj.PMBUS_LIMIT_W)) := rfl
  have henable : exec (.mfrPinLimitEn none) s = need true s (pmbusAnswer fun s => le 1 (s.get Obj.PMBUS_LIMIT_EN)) := rfl
  refine ⟨fun hoff => ?_, fun hoff v code sense blade hcode => ?_, fun hon => ⟨?_, ?_, ?_, ?_, ?_, ?_, ?_, ?_, ?_, ?_, ?_, ?_, ?_, ?_, ?_, ?_⟩, fun ch h => ?_, fun ch h => ?_⟩
  · simp only [List.forall_mem_cons, List.not_mem_nil, false_implies, implies_true, and_true]
    have hanswer (f : State → List Byte) := pmbusAnswer_off hoff f
    exact ⟨hanswer _, hanswer _, hanswer _, hanswer _, hanswer _, hanswer _, hanswer _, hanswer _, hanswer _, hanswer _, hanswer _, hanswer _, hanswer _, hanswer _, hanswer _, hlimit.trans (hanswer _), henable.trans (hanswer _),
      need_when_no rfl _ _ hoff, need_when_no rfl _ _ (by rw [begun_u, hoff]; rfl)⟩
  · simp only [List.forall_mem_cons, List.not_mem_nil, false_implies, implies_true, and_true]
    exact ⟨need_when_no rfl _ _ hoff, need_when_no rfl _ _ hoff, need_when_no (decide_eq_true hcode) _ _ hoff, need_when_no rfl _ _ (by rw [begun_u, hoff]; rfl),
      need_when_no rfl _ _ (by rw [begun_u, hoff]; rfl)⟩
  · have hanswer (f : State → List Byte) := pmbusAnswer_on hon f
    exact ⟨hanswer _, hanswer _, hanswer _, hanswer _, hanswer _⟩
  · have hanswer (f : State → List Byte) := pmbusAnswer_on hon f
    exact ⟨hanswer _, hanswer _, hanswer _, hanswer _, hanswer _⟩
  · have hanswer (f : State → List Byte) := pmbusAnswer_on hon f
    refine ⟨hanswer _, hanswer _, (hanswer _).trans ?_, hanswer _, hanswer _, hlimit.trans (hanswer _), henable.trans (hanswer _)⟩
    rw [begun_get]
    split <;> rfl
  · intro input temp quiet
    refine (need_when_yes rfl (fun s => s.u.boot.powered) _ hon).trans (congrArg Host.Outcome.next ?_)
    exact faultsCleared_run input temp quiet
  · intro v h60 h180 htop
    refine (need_when_yes rfl (fun s => s.u.boot.powered) _ hon).trans (congrArg Host.Outcome.next ?_)
    rw [if_neg (by omega), begun_get, min_eq_left htop, run_all_cons, run_all_cons, run_all_cons, run_all_nil, run_when, decide_eq_false (not_lt.2 htop), if_neg Bool.false_ne_true, budgetMoved_run]
    rfl
  · intro v h60 h180 htop
    refine (need_when_yes rfl (fun s => s.u.boot.powered) _ hon).trans (congrArg Host.Outcome.next ?_)
    rw [if_neg (by omega), begun_get, min_eq_right htop.le, run_all_cons, run_all_cons, run_all_cons, run_all_nil, run_when, decide_eq_true htop, if_pos rfl, budgetMoved_run]
    rfl
  · intro v hv
    refine (need_when_yes rfl (fun s => s.u.boot.powered) _ hon).trans (congrArg Host.Outcome.next ?_)
    rw [if_pos hv]
    rfl
  · intro v hv
    refine (need_when_yes rfl (fun s => s.u.boot.powered) _ hon).trans (congrArg Host.Outcome.next ?_)
    rw [if_neg (by omega), run_all_cons, run_all_cons, run_all_nil, budgetMoved_run]
    rfl
  · intro v hv
    refine (need_when_yes rfl (fun s => s.u.boot.powered) _ hon).trans (congrArg Host.Outcome.next ?_)
    rw [if_pos hv]
    rfl
  · exact fun code hcode => need_when_yes (decide_eq_true hcode) _ _ hon
  · exact fun h => need_when_yes rfl _ _ (by rw [begun_u, hon, h]; rfl)
  · exact fun h => need_when_no rfl _ _ (by rw [begun_u, hon, h]; rfl)
  · intro sense blade hvalid hfar
    exact need_when_yes rfl _ _ (by simp [hon, hvalid, hfar])
  · intro sense blade hno
    refine need_when_no rfl _ _ ?_
    rcases hno with hno | hno <;> simp [hno]
  · exact fun sense blade hfar => need_when_no rfl _ _ (by rw [decide_eq_false (not_le.2 hfar), Bool.and_false])
  · exact fun sense blade hnear => need_when_yes rfl _ _ (by simp [hon, hnear])
  · exact need_when_yes rfl _ _ (bne_iff_ne.2 h)
  · exact need_when_no rfl _ _ (by rw [begun_get, h]; rfl)

end Sys2Proof.Machine
end

section
/-! PROOFS. Boundary scan (R522 to R527). -/

namespace Sys2Proof.Machine

section
variable {s : State}

/-- The pins released, before what they held goes on. -/
def State.released (s : State) : State := (s.putObj Obj.PIN_CONTROL_ACTIVE 0).withTap fun x => { x with driven := none }

theorem released_get {k : Nat} (h : k ≠ Obj.PIN_CONTROL_ACTIVE) : s.released.get k = s.get k := (putObj_get s Obj.PIN_CONTROL_ACTIVE 0 k).trans (if_neg h)

theorem released_dev : s.released.dev = s.dev := released_get (by decide)

theorem released_held : s.released.resetHeld = s.u.boot.resetLow := by
  have h : s.released.get Obj.PIN_CONTROL_ACTIVE = 0 := (putObj_get s Obj.PIN_CONTROL_ACTIVE 0 _).trans (if_pos rfl)
  rw [State.resetHeld, h]
  exact Bool.or_false _

theorem unpinned_free (h : s.get Obj.PIN_CONTROL_ACTIVE = 0) : s.unpinned = s := by
  rw [State.unpinned, pinControlEnds, run_read, run_when, h]
  rfl

theorem unpinned_pinned (h : s.get Obj.PIN_CONTROL_ACTIVE ≠ 0) : s.unpinned = holdEnds.run s.released := by
  rw [State.unpinned, pinControlEnds, run_read, run_when, if_pos (bne_iff_ne.2 h), run_all_cons, run_all_cons, run_all_cons, run_all_nil]
  rfl

theorem holdEnds_held (h : s.resetHeld = true) : holdEnds.run s = s := by
  rw [holdEnds, run_read, if_pos h]
  rfl

theorem holdEnds_init (h : s.resetHeld = false) (hdev : s.dev = Dev.INIT) : holdEnds.run s = s.withBoot fun b => { b with start := s.time } := by
  rw [holdEnds, run_read, if_neg (ne_true_of_eq_false h), if_pos hdev]
  rfl

theorem holdEnds_standby (h : s.resetHeld = false) (hdev : s.dev = Dev.STANDBY) :
    holdEnds.run s = if s.u.boot.powered = true ∧ s.u.boot.pwrGood = true ∧ s.u.boot.carrierLow = false then s.booted s.u.boot.cause false else s := by
  rw [holdEnds, run_read, if_neg (ne_true_of_eq_false h), if_neg (by rw [hdev]; decide), leaveStandby, run_read, run_when]
  refine if_congr ?_ rfl rfl
  simp [hdev, h, and_assoc]

theorem tapReset_run (s : State) : tapReset.run s = (s.puts [(Obj.TAP_RESET, 1), (Obj.IR_ACTIVE, 4)]).unpinned := by
  rw [tapReset, run_all_cons, run_all_cons, run_all_cons, run_all_nil]
  rfl

theorem irPlain_run (op : Nat) (s : State) : (irPlain op).run s = (s.puts [(Obj.TAP_RESET, 0), (Obj.IR_ACTIVE, op)]).unpinned := by
  rw [irPlain, run_all_cons, run_all_cons, run_all_cons, run_all_nil]
  rfl

/-- A pin-control instruction accepted: in force and counted, before its effect. -/
theorem irPins_accepted (hon : s.tapOn = true) (hok : s.pinControlOk = true) (hcount : s.get Obj.PIN_CONTROL_ENTRIES + 1 < 2 ^ 32) (op din : Nat) (a : Act) :
    need true s (irPins op din a) = .next (a.run ((s.puts [(Obj.TAP_RESET, 0), (Obj.IR_ACTIVE, op), (Obj.PIN_CONTROL_ACTIVE, 1),
      (Obj.PIN_CONTROL_ENTRIES, s.get Obj.PIN_CONTROL_ENTRIES + 1)]).sending [.tdo 1])) := by
  refine (need_when_yes rfl (fun s => s.tapOn) _ hon).trans (congrArg Host.Outcome.next ?_)
  let t := (s.puts [(Obj.TAP_RESET, 0), (Obj.IR_ACTIVE, op), (Obj.PIN_CONTROL_ACTIVE, 1)]).sending [.tdo 1]
  have hget : t.get Obj.PIN_CONTROL_ENTRIES = s.get Obj.PIN_CONTROL_ENTRIES := puts_get_of_not_mem _ _ _ (by simp)
  have hcounted : (Act.count 32 Obj.PIN_CONTROL_ENTRIES 1).run t = t.putObj Obj.PIN_CONTROL_ENTRIES (s.get Obj.PIN_CONTROL_ENTRIES + 1) := by
    rw [run_count t (by rw [hget]; exact hcount), hget]
    rfl
  have hcapture : irCapture.run s.begun = s.sending [.tdo 1] := by
    rw [irCapture, run_read, show s.begun.pinControlOk = true from hok]
    rfl
  rw [if_pos (show s.begun.pinControlOk = true from hok), run_all_cons, hcapture, run_all_cons, run_all_nil, run_all_cons, run_all_cons, run_all_cons, run_all_cons, run_all_cons, run_all_nil]
  exact congrArg a.run hcounted

/-- A pin-control instruction refused: decoded as BYPASS, counted and logged. -/
theorem irPins_refused (hon : s.tapOn = true) (hno : s.pinControlOk = false) (op din : Nat) (a : Act) :
    need true s (irPins op din a) = .next ((((((s.puts [(Obj.TAP_RESET, 0), (Obj.IR_ACTIVE, 0xFF)]).sending [.tdo 5]).unpinned).counted 32 Obj.PIN_CONTROL_REFUSED 1).logged
      Ev.PIN_CONTROL_REFUSED 0xFFFF op 0).also [.tdo (din * 2)]) := by
  refine (need_when_yes rfl (fun s => s.tapOn) _ hon).trans (congrArg Host.Outcome.next ?_)
  have hno' : s.begun.pinControlOk = false := hno
  have hcapture : irCapture.run s.begun = s.sending [.tdo 5] := by
    rw [irCapture, run_read, hno']
    rfl
  rw [if_neg (ne_true_of_eq_false hno'), run_all_cons, hcapture, run_all_cons, run_all_nil, run_all_cons, run_all_cons, run_all_cons, run_all_cons, run_all_nil, irPlain_run]
  rfl

end

/-- Settles O57, a pin-control instruction by whether it is accepted. -/
theorem boundaryScan : Obligations.BoundaryScan := by
  unfold Obligations.BoundaryScan
  intro s din cap
  refine ⟨unpinned_free, fun hpin => ?_, fun high => ?_, ?_, fun hon hok hcount => ?_, fun hon hno => ?_, fun hon => ?_, fun hoff => ?_⟩
  · intro t
    have ht : t = s.released := rfl
    refine ⟨fun hlow => ?_, fun hhigh hdev => ?_, fun hhigh hdev => ?_⟩
    · rw [unpinned_pinned hpin, holdEnds_held (released_held.trans hlow), ht]
    · rw [unpinned_pinned hpin, holdEnds_init (released_held.trans hhigh) (released_dev.trans hdev)]
      rfl
    · rw [unpinned_pinned hpin, holdEnds_standby (released_held.trans hhigh) (released_dev.trans hdev)]
      rfl
  · refine (need_next s rfl _).trans (congrArg Host.Outcome.next ?_)
    rw [run_all_cons, run_all_cons, run_all_nil, tapReset_run]
    rfl
  · refine (need_next s rfl _).trans (congrArg Host.Outcome.next ?_)
    rw [tapReset_run]
    rfl
  · intro held tested
    have haccept (op : Nat) (a : Act) := irPins_accepted hon hok hcount op din a
    have htest (op : Nat) : need true s (externalTest op din cap) = .next (tested op) := by
      rw [externalTest, haccept, run_all_cons, run_all_cons, run_all_cons, run_all_nil]
      rfl
    refine ⟨htest 0, htest 2, htest 3, (haccept 5 _).trans (congrArg Host.Outcome.next ?_), (haccept 6 _).trans (congrArg Host.Outcome.next ?_)⟩
    · rw [run_all_cons, run_all_cons, run_all_nil]
      rfl
    · rw [run_all_cons, run_all_cons, run_all_cons, run_all_nil]
      rfl
  · have hrefuse (op : Nat) (a : Act) := irPins_refused hon hno op din a
    exact ⟨hrefuse 0 _, hrefuse 2 _, hrefuse 3 _, hrefuse 5 _, hrefuse 6 _⟩
  · intro plain
    refine ⟨?_, ?_, ?_⟩
    · refine (need_when_yes rfl (fun s => s.tapOn) _ hon).trans (congrArg Host.Outcome.next ?_)
      rw [run_all_cons, run_all_cons, run_all_cons, run_all_nil, irPlain_run]
      rfl
    · refine (need_when_yes rfl (fun s => s.tapOn) _ hon).trans (congrArg Host.Outcome.next ?_)
      rw [run_all_cons, run_all_cons, run_all_cons, run_all_nil, irPlain_run]
      rfl
    · refine (need_when_yes rfl (fun s => s.tapOn) _ hon).trans (congrArg Host.Outcome.next ?_)
      rw [run_all_cons, run_all_cons, run_all_cons, run_all_nil, irPlain_run]
      rfl
  · simp only [List.forall_mem_cons, List.not_mem_nil, false_implies, implies_true, and_true]
    have hoff' {c : Bool} (hc : c = true) (a : State → Act) : need c s (.read fun s => .when s.tapOn (a s)) = .next (s.sending []) := need_when_no hc (fun s => s.tapOn) a hoff
    exact ⟨hoff' rfl _, hoff' rfl _, hoff' rfl _, hoff' rfl _, hoff' rfl _, hoff' rfl _, hoff' rfl _, hoff' rfl _⟩

end Sys2Proof.Machine
end

section
/-! PROOFS. Policy firmware: handovers, trials and restarts (R446, R452, R461). -/

namespace Sys2Proof.Machine

/-- An octet string is written from its first slot on. -/
theorem putOct_within {A : Part → Prop} {R : (Units → Units) → Prop} {k : Nat} (h : ∀ j, k ≤ j → A (.obj j)) (bs : List Byte) : (putOct k bs).Within A R := by
  simp only [putOct, within_each, within_put]
  exact fun i _ => h _ (Nat.le_add_right k i)

section
variable {s t : State} {n : Nat}

theorem putSlotState_within {A : Part → Prop} {R : (Units → Units) → Prop} {kind : Nat} (h : A (.obj (Obj.IMG_SLOT_STATE (kind - 1)))) (n v : Nat) :
    (putSlotState kind n v).Within A R := by
  simp [putSlotState, h]

theorem policySlot_within {A : Part → Prop} {R : (Units → Units) → Prop} (hslot : A (.obj (Obj.IMG_ACTIVE_SLOT 2))) (hdigest : ∀ j, Obj.IMG_RUNNING_DIGEST 2 ≤ j → A (.obj j)) (n : Nat) :
    (policySlot n).Within A R := by
  simp only [policySlot, within_read, within_all_cons, within_all_nil, within_put, hslot, true_and, and_true]
  intro s
  split
  · exact putOct_within hdigest _
  · trivial

/-- The slot that becomes active, which the digest above it does not reach. -/
theorem policySlot_active (h : n < 2 ^ 64) : ((policySlot n).run s).get (Obj.IMG_ACTIVE_SLOT 2) = n := by
  rw [policySlot, run_read, run_all_cons, run_all_cons, run_all_nil]
  have hput : ((Act.put (Obj.IMG_ACTIVE_SLOT 2) n).run s).get (Obj.IMG_ACTIVE_SLOT 2) = n := (run_put_get ..).trans ((if_pos rfl).trans (Nat.mod_eq_of_lt h))
  split
  · have habove : ∀ j, Obj.IMG_RUNNING_DIGEST 2 ≤ j → Part.obj j ≠ Part.obj (Obj.IMG_ACTIVE_SLOT 2) := fun j hj => Part.obj_ne fun e => by
      unfold Obj.IMG_RUNNING_DIGEST at hj
      unfold Obj.IMG_ACTIVE_SLOT at e
      omega
    exact (Act.Spares.get _ (putOct_within habove _)).trans hput
  · exact hput

/-- Slot `bad` fails and `old` runs again, with its event. -/
theorem handBack_run {bad old : Nat} (hold : old < 2 ^ 64) (ht : (handBack bad old).run s = t) : t.get Obj.POLICY_STATE = 1 ∧ t.get (Obj.IMG_ACTIVE_SLOT 2) = old
    ∧ t.lastEvent Ev.POLICY_HANDBACK 0xFFFF bad 0 ∧ t.log.total = s.log.total + 1 ∧ t.bytes = s.bytes := by
  let q := (policySlot old).run ((putSlotState 3 bad 3).run s)
  have hq : q.log = s.log ∧ q.bytes = s.bytes := by
    have hslot {p : Part} (hp : ∀ j, Part.obj j ≠ p) : (policySlot old).Spares p := policySlot_within (hp _) (fun j _ => hp j) _
    have hstate {p : Part} (hp : ∀ j, Part.obj j ≠ p) : (putSlotState 3 bad 3).Spares p := putSlotState_within (hp _) _ _
    exact ⟨(Act.Spares.log _ (hslot fun _ => nofun)).trans (Act.Spares.log _ (hstate fun _ => nofun)), (Act.Spares.bytes _ (hslot fun _ => nofun)).trans (Act.Spares.bytes _ (hstate fun _ => nofun))⟩
  have ht' : t = (logEv Ev.POLICY_HANDBACK 0xFFFF bad 0).run (q.putObj Obj.POLICY_STATE 1) := by
    rw [← ht, handBack, run_all_cons, run_all_cons, run_all_cons, run_all_cons, run_all_nil]
    rfl
  subst ht'
  refine ⟨?_, ?_, logEv_lastEvent .., ?_, ?_⟩
  · rw [run_logEv_get, putObj_get, if_pos rfl]
    rfl
  · rw [run_logEv_get, putObj_get, if_neg (by decide)]
    exact policySlot_active hold
  · rw [logEv_total]
    exact congrArg (fun l : EventLog => l.total + 1) hq.1
  · rw [run_logEv_bytes]
    exact hq.2

/-- The restarts of the last 60 s. -/
def State.restartsNow (s : State) : List Nat := s.u.boot.restarts.filter fun t => decide (s.time ≤ t + 60000000000 * 4294967296)

theorem restartPolicy_fails (h : 3 ≤ s.restartsNow.length) : restartPolicy.run s = (s.putObj Obj.POLICY_STATE 4).logged Ev.POLICY_FAILED 0xFFFF 0 0 := by
  rw [restartPolicy, run_read]
  exact congrFun (congrArg Act.run (if_pos h)) s

theorem restartPolicy_run (h : s.restartsNow.length < 3) (hcount : s.get Obj.POLICY_RESTARTS + 1 < 2 ^ 32) (ht : restartPolicy.run s = t) :
    t.get Obj.POLICY_STATE = 2 ∧ t.get Obj.POLICY_RESTARTS = s.get Obj.POLICY_RESTARTS + 1 ∧ t.u.boot.newSlot = s.get (Obj.IMG_ACTIVE_SLOT 2)
      ∧ t.lastEvent Ev.POLICY_RESTART 0xFFFF (s.get (Obj.IMG_RUNNING_DIGEST 2)) (s.restartsNow.length + 1) ∧ t.u.boot.restarts = s.time :: s.restartsNow := by
  have ht' : ∃ e, (logEv Ev.POLICY_RESTART 0xFFFF (s.get (Obj.IMG_RUNNING_DIGEST 2)) (s.restartsNow.length + 1)).run
        ((s.withBoot fun b => { b with restarts := s.time :: s.restartsNow }).counted 32 Obj.POLICY_RESTARTS 1) = e
      ∧ (e.putObj Obj.POLICY_STATE 2).withBoot (fun b => { b with asked := false, newSlot := s.get (Obj.IMG_ACTIVE_SLOT 2), handover := e.time }) = t := by
    refine ⟨_, rfl, ?_⟩
    rw [← ht, restartPolicy, run_read]
    refine ((congrFun (congrArg Act.run (if_neg (not_le.2 h))) s).trans ?_).symm
    rw [run_all_cons, run_all_cons, run_all_cons, run_all_cons, run_all_nil]
    rfl
  obtain ⟨e, he, hte⟩ := ht'
  have hboot : e.u.boot = { s.u.boot with restarts := s.time :: s.restartsNow } := by
    rw [← he, Act.SparesUnit.unit (f := fun u => u.boot) _ (logEv_within _ _ _ _ trivial trivial fun _ => fun _ => rfl), State.counted, run_count_u]
    rfl
  have hcounted : e.get Obj.POLICY_RESTARTS = s.get Obj.POLICY_RESTARTS + 1 := by
    rw [← he, run_logEv_get]
    exact run_count_get_self _ _ _ _ (by decide) hcount
  have hevent : e.lastEvent Ev.POLICY_RESTART 0xFFFF (s.get (Obj.IMG_RUNNING_DIGEST 2)) (s.restartsNow.length + 1) := he ▸ logEv_lastEvent ..
  subst hte
  exact ⟨(putObj_get e Obj.POLICY_STATE 2 _).trans (if_pos rfl), (putObj_get e Obj.POLICY_STATE 2 _).trans ((if_neg (by decide)).trans hcounted), rfl, hevent,
    congrArg BootS.restarts hboot⟩

/-- What an image that is ready leaves, before its slot's state. -/
def State.policyIsReady (s : State) : State :=
  (s.putObj Obj.HANDOVER_LAST_NS (min 0xFFFFFFFF ((s.time - s.u.boot.handover) / 4294967296))).withBoot fun x => { x with switches := x.switches + 1 }

theorem exec_policyReady (h : s.get Obj.POLICY_STATE = 2) : exec .policyReady s = .next ((if s.u.boot.newSlot = s.get (Obj.IMG_ACTIVE_SLOT 2) then .put Obj.POLICY_STATE 1
      else Act.all [putSlotState 3 s.u.boot.newSlot 2, policySlot s.u.boot.newSlot, .put Obj.POLICY_STATE 3]).run s.begun.policyIsReady) := by
  refine (need_when_yes rfl (fun s => s.get Obj.POLICY_STATE == 2) _ (beq_iff_eq.2 h)).trans (congrArg Host.Outcome.next ?_)
  rw [run_all_cons, run_all_cons, run_all_cons, run_all_nil]
  rfl

/-- A new image's slot is in trial and active. -/
theorem policyTrial_run (hn : n < 2 ^ 64) (ht : (Act.all [putSlotState 3 n 2, policySlot n, .put Obj.POLICY_STATE 3]).run s = t) : t.get Obj.POLICY_STATE = 3
    ∧ t.get (Obj.IMG_ACTIVE_SLOT 2) = n ∧ t.u.boot = s.u.boot ∧ t.bytes = s.bytes ∧ t.log = s.log ∧ t.out = s.out := by
  have hwithin {A : Part → Prop} {R : (Units → Units) → Prop} (h : ∀ k, A (.obj k)) : (Act.all [putSlotState 3 n 2, policySlot n, .put Obj.POLICY_STATE 3]).Within A R := by
    simp [putSlotState_within (h _), policySlot_within (h _) (fun j _ => h j), h]
  refine ⟨?_, ?_, ht ▸ Act.SparesUnit.unit (f := fun u => u.boot) s (hwithin fun _ => trivial), ht ▸ Act.Spares.bytes s (hwithin fun _ => nofun),
    ht ▸ Act.Spares.log s (hwithin fun _ => nofun), ht ▸ Act.Spares.out s (hwithin fun _ => nofun)⟩
  · rw [← ht, run_all_cons, run_all_cons, run_all_cons, run_all_nil, run_put_get, if_pos rfl]
    rfl
  · rw [← ht, run_all_cons, run_all_cons, run_all_cons, run_all_nil, run_put_get, if_neg (by decide)]
    exact policySlot_active hn

end

/-- Settles O54: what is due in each state of the firmware, and nothing where none is. -/
theorem policyHandovers : Obligations.PolicyHandovers := by
  unfold Obligations.PolicyHandovers
  intro s n recent restarts
  have hlt : n < 2 ^ 64 := State.get_lt _ _
  have hrestarts {i : Instr} (h : exec i s = .next (restartPolicy.run s.begun)) : restarts i := by
    refine ⟨fun hfew hcount => ⟨_, h, restartPolicy_run (s := s.begun) hfew hcount rfl⟩, fun hmany => h.trans ?_⟩
    rw [restartPolicy_fails (s := s.begun) hmany]
    rfl
  have hready (h : s.get Obj.POLICY_STATE = 2) : exec .handoverReadyTimeout s = .next ((if s.u.boot.newSlot = n then restartPolicy else handBack s.u.boot.newSlot n).run s.begun) :=
    need_when_yes rfl (fun s => s.get Obj.POLICY_STATE == 2) _ (beq_iff_eq.2 h)
  refine ⟨fun hasked hstate => ?_, fun hstate hsmall hnew => ?_, fun hstate hnew => ?_, fun hstate => ?_, fun hstate => ?_, fun hstate hold => ⟨hrestarts ?_, ?_⟩, fun hstate => hrestarts ?_,
    fun hno => ?_, fun hno => ⟨?_, ?_⟩, fun hno => ?_, fun h3 h1 => ?_⟩
  · exact need_when_yes rfl _ _ (by simp [hasked, hstate])
  · have hexec := exec_policyReady hstate
    rw [if_neg hnew] at hexec
    obtain ⟨hrun, hslot, hboot, hbytes, hlog, hout⟩ := policyTrial_run (s := s.begun.policyIsReady) (n := s.u.boot.newSlot) (by omega) rfl
    exact ⟨_, hexec, hrun, hslot, congrArg BootS.switches hboot, hbytes, hlog, hout⟩
  · have hexec := hready hstate
    rw [if_neg hnew] at hexec
    exact ⟨_, hexec, handBack_run (s := s.begun) hlt rfl⟩
  · refine (need_when_yes rfl (fun s => s.get Obj.POLICY_STATE == 3) _ (beq_iff_eq.2 hstate)).trans (congrArg Host.Outcome.next ?_)
    have hkey : (s.putObj Obj.POLICY_STATE 1).get (Obj.IMG_SLOT_STATE 2) = s.get (Obj.IMG_SLOT_STATE 2) := (putObj_get s _ _ _).trans (if_neg (by decide))
    rw [run_all_cons, run_all_cons, run_all_cons, run_all_nil, putSlotState, run_modify]
    show ((((s.begun.putObj Obj.POLICY_STATE 1).putObj (Obj.IMG_SLOT_STATE 2) (let w := (s.putObj Obj.POLICY_STATE 1).get (Obj.IMG_SLOT_STATE 2); w - w / 4 ^ n % 4 * 4 ^ n + 1 * 4 ^ n)).withBoot
      fun b => { b with prefer := Tab.set b.prefer 3 n })) = _
    rw [hkey]
    rfl
  · have hexec : exec .policyWatchdogExpiry s = .next ((if s.get Obj.POLICY_STATE = 3 then handBack n (1 - n)
      else if s.get Obj.POLICY_STATE = 1 then restartPolicy else .skip : Act).run s.begun) := need_next s rfl _
    rw [if_pos hstate] at hexec
    obtain ⟨hrun, hslot, hevent, -, -⟩ := handBack_run (s := s.begun) (bad := n) (old := 1 - n) (by omega) rfl
    exact ⟨_, hexec, hrun, hslot, hevent⟩
  · rw [hready hstate, if_pos hold]
  · have hexec := exec_policyReady hstate
    rw [if_pos hold] at hexec
    have hget (k : Nat) : ((Act.put Obj.POLICY_STATE 1).run s.begun.policyIsReady).get k = if k = Obj.POLICY_STATE then 1 % 2 ^ 64 else s.begun.policyIsReady.get k := run_put_get ..
    refine ⟨_, hexec, (hget _).trans (if_pos rfl), (hget _).trans ((if_neg (by decide)).trans ?_), rfl, rfl, rfl, rfl⟩
    exact (putObj_get s.begun Obj.HANDOVER_LAST_NS _ _).trans (if_neg (by decide))
  · have hexec : exec .policyWatchdogExpiry s = .next ((if s.get Obj.POLICY_STATE = 3 then handBack n (1 - n)
      else if s.get Obj.POLICY_STATE = 1 then restartPolicy else .skip : Act).run s.begun) := need_next s rfl _
    rw [hexec, if_neg (by omega), if_pos hstate]
  · refine need_when_no rfl _ _ ?_
    rcases hno with h | h <;> simp [h]
  · exact need_when_no rfl (fun s => s.get Obj.POLICY_STATE == 2) _ (beq_eq_false_iff_ne.2 hno)
  · exact need_when_no rfl (fun s => s.get Obj.POLICY_STATE == 2) _ (beq_eq_false_iff_ne.2 hno)
  · exact need_when_no rfl (fun s => s.get Obj.POLICY_STATE == 3) _ (beq_eq_false_iff_ne.2 hno)
  · have hexec : exec .policyWatchdogExpiry s = .next ((if s.get Obj.POLICY_STATE = 3 then handBack n (1 - n)
      else if s.get Obj.POLICY_STATE = 1 then restartPolicy else .skip : Act).run s.begun) := need_next s rfl _
    rw [hexec, if_neg h3, if_neg h1]
    rfl

end Sys2Proof.Machine
end

section
/-! PROOFS. The transitions of the device states (R440, R441, R445, R488, R538). -/

namespace Sys2Proof.Machine

section
variable {s : State} {ses : Nat}

/-- A session whose write of `DEVICE_COMMAND` passes has the command's level. -/
theorem mayWrite_of_accessCode {k v : Nat} {l : Lvl} (h : accessCode s ses k v l = 0) : mayWrite (s.level ses) l = true := by
  unfold accessCode at h
  split at h
  · exact absurd h (by decide)
  · split at h
    · exact absurd h (by decide)
    · split at h
      · exact absurd h (by decide)
      · exact not_not.1 ‹_›

theorem deviceCommand_1 (hdev : s.dev = Dev.PREOP) (hblock : s.blocking = false) (hlatched : s.get Obj.LATCHED_CAUSES = 0) : deviceCommand 1 s = .ok (.all [enterOp, settle]) :=
  if_pos ⟨hdev, ne_true_of_eq_false hblock, hlatched⟩

theorem deviceCommand_1_no (h : s.dev ≠ Dev.PREOP ∨ s.blocking = true ∨ s.get Obj.LATCHED_CAUSES ≠ 0) : deviceCommand 1 s = .no Ab.STATE_FORBIDS :=
  if_neg fun ⟨h1, h2, h3⟩ => h.elim (fun h => h h1) fun h => h.elim h2 fun h => h h3

theorem deviceCommand_2 (hdev : s.dev = Dev.OP) : deviceCommand 2 s = .ok (.all [standDown, setDev Dev.PREOP, settle]) := if_pos hdev

theorem deviceCommand_2_no (hdev : s.dev ≠ Dev.OP) : deviceCommand 2 s = .no Ab.STATE_FORBIDS := if_neg hdev

theorem deviceCommand_3_preop (hdev : s.dev = Dev.PREOP) : deviceCommand 3 s = .ok (.all [enterService, settle]) := if_pos hdev

theorem deviceCommand_3_hold (hdev : s.dev = Dev.HOLD) : deviceCommand 3 s = .ok (.all [standDown, enterService, settle]) :=
  (if_neg (by rw [hdev]; decide)).trans (if_pos hdev)

theorem deviceCommand_3_no (h1 : s.dev ≠ Dev.PREOP) (h2 : s.dev ≠ Dev.HOLD) : deviceCommand 3 s = .no Ab.STATE_FORBIDS := (if_neg h1).trans (if_neg h2)

/-- What a request of the EtherCAT master asks for, as a value of `DEVICE_COMMAND`. -/
def State.alCommand (s : State) (al : Nat) : Nat := if al = 8 then 1 else if al = 2 ∧ s.dev = Dev.OP then 2 else if al = 3 then 3 else 0

theorem alCommand_2 (hdev : s.dev = Dev.OP) : s.alCommand 2 = 2 := by
  rw [State.alCommand, if_neg (by decide), if_pos ⟨rfl, hdev⟩]

theorem alCommand_2_no (hdev : s.dev ≠ Dev.OP) : s.alCommand 2 = 0 := by
  rw [State.alCommand, if_neg (by decide), if_neg fun h => hdev h.2, if_neg (by decide)]

theorem alCommand_8 : s.alCommand 8 = 1 := rfl

theorem alCommand_3 : s.alCommand 3 = 3 := by
  rw [State.alCommand, if_neg (by decide), if_neg fun h => absurd h.1 (by decide), if_pos rfl]

/-- What becomes of that request. -/
def State.alResult (s : State) (al : Nat) : WriteRes :=
  if s.alCommand al = 0 ∨ ¬ mayWrite (s.level 1) (commandLevel (s.alCommand al)) = true
      ∨ accessCode s 1 Obj.DEVICE_COMMAND (s.alCommand al) (commandLevel (s.alCommand al)) ≠ 0 then .no Ab.STATE_FORBIDS
    else deviceCommand (s.alCommand al) s

theorem exec_alStateRequest {al : Nat} (hal : al = 1 ∨ al = 2 ∨ al = 3 ∨ al = 4 ∨ al = 8) : exec (.alStateRequest al) s = .next ((
    if ¬ s.isOpen 1 = true ∨ (al = 2 ∧ s.dev = Dev.PREOP) then .skip
    else if (s.alResult al).1 = 0 then (s.alResult al).2
    else .all [.count 32 Obj.AL_REFUSED 1, .emit (.frame .alStatus (le 2 0x11))] : Act).run s.begun) := by
  have hwf : Wf.alStateRequest al = true := by simpa [Wf.alStateRequest, or_assoc] using hal
  exact need_next s hwf _

/-- A request that session 1 may make is carried out. -/
theorem exec_alStateRequest_takes {al v : Nat} {a : Act} (hal : al = 1 ∨ al = 2 ∨ al = 3 ∨ al = 4 ∨ al = 8) (hv : s.alCommand al = v) (hpos : v ≠ 0)
    (hadm : s.admits 1 Obj.DEVICE_COMMAND v (commandLevel v)) (hno : ¬ (al = 2 ∧ s.dev = Dev.PREOP)) (hb : deviceCommand v s = .ok a) :
    exec (.alStateRequest al) s = .next (a.run s.begun) := by
  obtain ⟨hopen, -, -, hcode⟩ := hadm
  have hres : s.alResult al = .ok a := by
    subst hv
    rw [State.alResult, if_neg, hb]
    exact fun h => h.elim hpos fun h => h.elim (fun h => h (mayWrite_of_accessCode hcode)) fun h => h hcode
  rw [exec_alStateRequest hal, if_neg fun h => h.elim (fun h => h hopen) hno, hres, WriteRes.ok, if_pos rfl]

/-- A request that the part refuses is counted and answered. -/
theorem exec_alStateRequest_refuses {al : Nat} (hal : al = 1 ∨ al = 2 ∨ al = 3 ∨ al = 4 ∨ al = 8) (hopen : s.isOpen 1 = true) (hno : ¬ (al = 2 ∧ s.dev = Dev.PREOP))
    (h : s.alCommand al = 0 ∨ mayWrite (s.level 1) (commandLevel (s.alCommand al)) = false ∨ deviceCommand (s.alCommand al) s = .no Ab.STATE_FORBIDS) :
    exec (.alStateRequest al) s = .next (((s.sending []).counted 32 Obj.AL_REFUSED 1).also [.frame .alStatus [0x11, 0]]) := by
  have hres : (s.alResult al).1 ≠ 0 := by
    have hcode : (WriteRes.no Ab.STATE_FORBIDS).1 ≠ 0 := by decide
    rw [State.alResult]
    split
    · exact hcode
    · rename_i hgo
      rcases h with h | h | h
      · exact absurd (Or.inl h) hgo
      · exact absurd (Or.inr (Or.inl (ne_true_of_eq_false h))) hgo
      · rw [h]
        exact hcode
  rw [exec_alStateRequest hal, if_neg fun h => h.elim (fun h => h hopen) hno, if_neg hres, run_all_cons, run_all_cons, run_all_nil]
  rfl

end

/-- Settles O52, each command by the state and the conditions in which it is taken. -/
theorem deviceCommands : Obligations.DeviceCommands := by
  unfold Obligations.DeviceCommands
  intro s ses hses
  have hses' : decide (ses < 16) = true := decide_eq_true hses
  refine ⟨?_, fun hadm => ⟨fun hdev hblock hlatched => ?_, fun hno => ?_⟩, fun hadm => ⟨fun hdev => ?_, fun hno => ?_⟩, fun hadm => ⟨fun hdev => ?_, fun hdev => ?_, fun h1 h2 => ?_⟩,
    fun hadm => ⟨fun hdev hdebug hrec => ?_, fun hno => ?_⟩, fun hadm => ?_, fun hadm => ?_, fun al hal hno => ?_, fun hadm hdev hblock hlatched => ?_, fun hadm hdev => ?_,
    fun hadm => ⟨fun hdev => ?_, fun hdev => ?_⟩, fun hopen al hal => ?_⟩
  · by_cases h : s.dev = Dev.PREOP ∧ s.u.boot.auto = true ∧ s.get Obj.AUTO_OPERATIONAL ≠ 0 ∧ s.get Obj.T_FIELDS_NS ≠ 0 ∧ s.blocking = false ∧ s.get Obj.LATCHED_CAUSES = 0
    · rw [if_pos h]
      obtain ⟨hdev, hauto, hset, hfields, hblock, hlatched⟩ := h
      refine (need_when_yes rfl (fun s => s.dev == Dev.PREOP && s.u.boot.auto && s.get Obj.AUTO_OPERATIONAL != 0 && s.get Obj.T_FIELDS_NS != 0 && !s.blocking && s.get Obj.LATCHED_CAUSES == 0)
        _ ?_).trans ?_
      · have hblock' : s.begun.blocking = false := hblock
        simp [hdev, hauto, hset, hfields, hblock', hlatched]
      · rw [run_all_cons, run_all_cons, run_all_nil]
        rfl
    · rw [if_neg h]
      refine need_when_no rfl _ _ (Bool.eq_false_iff.2 fun hgo => h ?_)
      have hgo' : (s.dev == Dev.PREOP && s.u.boot.auto && s.get Obj.AUTO_OPERATIONAL != 0 && s.get Obj.T_FIELDS_NS != 0 && !s.blocking && s.get Obj.LATCHED_CAUSES == 0) = true := hgo
      simpa [and_assoc] using hgo'
  · refine (exec_guarded_takes hses' rfl hadm (deviceCommand_1 (s := s.begun) hdev hblock hlatched)).trans ?_
    rw [run_all_cons, run_all_cons, run_all_nil]
    rfl
  · exact exec_guarded_refused hses' hadm (deviceCommand_1_no (s := s.begun) hno) (by decide)
  · refine (exec_guarded_takes hses' rfl hadm (deviceCommand_2 (s := s.begun) hdev)).trans ?_
    rw [run_all_cons, run_all_cons, run_all_cons, run_all_nil]
    rfl
  · exact exec_guarded_refused hses' hadm (deviceCommand_2_no (s := s.begun) hno) (by decide)
  · refine (exec_guarded_takes hses' rfl hadm (deviceCommand_3_preop (s := s.begun) hdev)).trans ?_
    rw [run_all_cons, run_all_cons, run_all_nil]
    rfl
  · refine (exec_guarded_takes hses' rfl hadm (deviceCommand_3_hold (s := s.begun) hdev)).trans ?_
    rw [run_all_cons, run_all_cons, run_all_cons, run_all_nil]
    rfl
  · exact exec_guarded_refused hses' hadm (deviceCommand_3_no (s := s.begun) h1 h2) (by decide)
  · refine (exec_guarded_takes (body := deviceCommand 4) hses' rfl hadm (if_pos ⟨hdev, hdebug, ne_true_of_eq_false hrec⟩)).trans ?_
    rw [run_all_cons, run_all_cons, run_all_cons, run_all_cons, run_all_nil]
    rfl
  · refine exec_guarded_refused (body := deviceCommand 4) hses' hadm (if_neg fun ⟨h1, h2, h3⟩ => ?_) (by decide)
    exact hno.elim (fun h => h h1) fun h => h.elim (fun h => absurd h2 (not_lt.2 h)) h3
  · exact exec_guarded_takes (body := deviceCommand 5) hses' rfl hadm rfl
  · exact exec_guarded_takes (body := deviceCommand 6) hses' rfl hadm rfl
  · rw [exec_alStateRequest hal, if_pos (hno.imp_left ne_true_of_eq_false)]
    rfl
  · refine (exec_alStateRequest_takes (al := 8) (by decide) alCommand_8 (by decide) hadm (fun h => absurd h.1 (by decide)) (deviceCommand_1 hdev hblock hlatched)).trans ?_
    rw [run_all_cons, run_all_cons, run_all_nil]
    rfl
  · refine (exec_alStateRequest_takes (al := 2) (by decide) (alCommand_2 hdev) (by decide) hadm (by rw [hdev]; decide) (deviceCommand_2 hdev)).trans ?_
    rw [run_all_cons, run_all_cons, run_all_cons, run_all_nil]
    rfl
  · refine (exec_alStateRequest_takes (al := 3) (by decide) alCommand_3 (by decide) hadm (fun h => absurd h.1 (by decide)) (deviceCommand_3_preop hdev)).trans ?_
    rw [run_all_cons, run_all_cons, run_all_nil]
    rfl
  · refine (exec_alStateRequest_takes (al := 3) (by decide) alCommand_3 (by decide) hadm (fun h => absurd h.1 (by decide)) (deviceCommand_3_hold hdev)).trans ?_
    rw [run_all_cons, run_all_cons, run_all_cons, run_all_nil]
    rfl
  · rcases hal with rfl | rfl | ⟨rfl, h1, h2⟩ | ⟨rfl, h1, h2⟩ | ⟨rfl, h⟩ | ⟨rfl, h⟩
    · exact exec_alStateRequest_refuses (by decide) hopen (fun h => absurd h.1 (by decide)) (.inl rfl)
    · exact exec_alStateRequest_refuses (by decide) hopen (fun h => absurd h.1 (by decide)) (.inl rfl)
    · exact exec_alStateRequest_refuses (by decide) hopen (fun h => h2 h.2) (.inl (alCommand_2_no h1))
    · have hv := alCommand_2 h1
      refine exec_alStateRequest_refuses (by decide) hopen (fun h => ?_) (.inr (.inl ?_))
      · exact absurd (h1.symm.trans h.2) (by decide)
      · rw [hv, h2]
        rfl
    · refine exec_alStateRequest_refuses (by decide) hopen (fun h => absurd h.1 (by decide)) (.inr ?_)
      rw [alCommand_8]
      rcases h with h | h | h | h
      · exact .inr (deviceCommand_1_no (.inl h))
      · exact .inr (deviceCommand_1_no (.inr (.inl h)))
      · exact .inr (deviceCommand_1_no (.inr (.inr h)))
      · exact .inl (by rw [h]; rfl)
    · refine exec_alStateRequest_refuses (by decide) hopen (fun h => absurd h.1 (by decide)) (.inr ?_)
      rw [alCommand_3]
      rcases h with ⟨h1, h2⟩ | h
      · exact .inr (deviceCommand_3_no h1 h2)
      · exact .inl (beq_eq_false_iff_ne.2 h)

end Sys2Proof.Machine
end

section
/-! PROOFS. Steps of rails and droops (R418, R429 to R431). -/

namespace Sys2Proof.Machine

section
variable {s t : State} {d : Nat}

theorem putRail_run (d v : Nat) (s : State) : (putRail d v).run s = s.puts (railSlots d v) := by
  rw [putRail, run_all_cons, run_all_cons, run_all_nil, run_when, railSlots]
  by_cases h : d < 66
  · rw [if_pos (decide_eq_true h), if_pos h]
    rfl
  · rw [if_neg (by simpa using h), if_neg h]
    rfl

theorem putPacer_run (d p : Nat) (s : State) : (putPacer d p).run s = s.puts (pacerSlots d p) := by
  rw [putPacer, run_all_cons, run_all_cons, run_all_nil, run_when, pacerSlots]
  by_cases h : d < 66
  · rw [if_pos (decide_eq_true h), if_pos h]
    rfl
  · rw [if_neg (by simpa using h), if_neg h]
    rfl

/-- A domain has reached the rail of its step. -/
def State.stepReached (s : State) (d : Nat) (st : Step) : State :=
  let t := (s.accrued.puts (pacerSlots d st.pacer)).withPow fun x => { x with steps := Tab.del x.steps d }
  ((if st.back then t else t.counted 32 (Obj.DOM_STEPS d) 1).arrived d).offered

theorem finishStep_run (d : Nat) (st : Step) (s : State) : (finishStep d st).run s = s.stepReached d st := by
  rw [finishStep, run_all_cons, run_all_cons, run_all_cons, run_all_cons, run_all_cons, run_all_cons, run_all_nil, putPacer_run, run_when, State.stepReached]
  cases st.back <;> rfl

theorem exec_railIncrement {st : Step} (hd : d < 80) (hst : Tab.get? s.u.pow.steps d = some st) {w : Nat}
    (hw : (if s.get (Obj.DOM_RAIL_MV d) < st.mv then min st.mv (s.get (Obj.DOM_RAIL_MV d) + 10) else max st.mv (s.get (Obj.DOM_RAIL_MV d) - 10)) = w) :
    exec (.railIncrement d) s = .next (if st.frozen then s.sending [] else if w = st.mv then ((s.puts (railSlots d w)).sending []).stepReached d st
      else (s.puts (railSlots d w)).sending []) := by
  subst hw
  refine (need_next s (decide_eq_true hd) _).trans (congrArg Host.Outcome.next ?_)
  rw [run_read, begun_u, hst]
  simp only [begun_get]
  by_cases h : st.frozen = true
  · rw [if_pos h, if_pos h]
    rfl
  · rw [if_neg h, if_neg h, run_all_cons, run_all_cons, run_all_nil, putRail_run, run_when, finishStep_run, puts_begun]
    exact if_congr beq_iff_eq rfl rfl

theorem exec_stepResume {st : Step} (hd : d < 80) (hst : Tab.get? s.u.pow.steps d = some st) {go : State}
    (hgo : (s.withPow fun x => { x with steps := Tab.set x.steps d { st with frozen := false } }).sending [] = go) :
    exec (.stepResume d) s = .next (if d ∈ s.u.pow.droop then s.sending [] else if s.get (Obj.DOM_RAIL_MV d) = st.mv then go.stepReached d st else go) := by
  subst hgo
  refine (need_next s (decide_eq_true hd) _).trans (congrArg Host.Outcome.next ?_)
  rw [run_read, begun_u, hst]
  simp only [begun_get, run_when]
  by_cases h : d ∈ s.u.pow.droop
  · rw [if_pos h, if_neg (by simpa using h)]
    rfl
  · rw [if_neg h, if_pos (by simpa using h), run_all_cons, run_all_cons, run_all_nil, run_when, finishStep_run]
    exact if_congr beq_iff_eq rfl rfl

/-! ## Droops -/

theorem run_pow_u (f : PowS → PowS) (s : State) : ((Act.pow f).run s).u = { s.u with pow := f s.u.pow } := rfl

/-- A droop of domain `d` is counted and noted. -/
def droopNoted (d : Nat) (wave : Bool) : Act := .all [
  .count 32 (Obj.DOM_DROOPS d) 1,
  .when (d == 73) (.count 32 Obj.CTRL_DROOPS 1),
  .when (decide (d < 66)) (.count 32 (Obj.DROOP_EVENTS d) 1),
  .when (decide (d < 66) && wave) (.count 32 Obj.WAVE_DROOPS 1),
  .pow (fun x => { x with droop := d :: x.droop.filter (· != d) })]

theorem droopNoted_run {wave : Bool} (hd : d < 80) (hcount : s.get (Obj.DOM_DROOPS d) + 1 < 2 ^ 32) (ht : (droopNoted d wave).run s = t) :
    t.get (Obj.DOM_DROOPS d) = s.get (Obj.DOM_DROOPS d) + 1 ∧ t.get (Obj.DOM_STEP_ABANDONS d) = s.get (Obj.DOM_STEP_ABANDONS d) ∧ d ∈ t.u.pow.droop
      ∧ t.u.pow.steps = s.u.pow.steps ∧ t.u.tt = s.u.tt ∧ t.bytes = s.bytes ∧ t.log = s.log ∧ t.out = s.out ∧ t.time = s.time := by
  have hkeys : Obj.DOM_DROOPS d ≠ Obj.CTRL_DROOPS ∧ Obj.DOM_DROOPS d ≠ Obj.DROOP_EVENTS d ∧ Obj.DOM_DROOPS d ≠ Obj.WAVE_DROOPS
      ∧ Obj.DOM_STEP_ABANDONS d ≠ Obj.CTRL_DROOPS ∧ Obj.DOM_STEP_ABANDONS d ≠ Obj.DROOP_EVENTS d ∧ Obj.DOM_STEP_ABANDONS d ≠ Obj.WAVE_DROOPS
      ∧ Obj.DOM_STEP_ABANDONS d ≠ Obj.DOM_DROOPS d := by
    simp only [Obj.DOM_DROOPS, Obj.CTRL_DROOPS, Obj.DROOP_EVENTS, Obj.WAVE_DROOPS, Obj.DOM_STEP_ABANDONS]
    omega
  obtain ⟨k1, k2, k3, k4, k5, k6, k7⟩ := hkeys
  have hget {k : Nat} (h1 : k ≠ Obj.CTRL_DROOPS) (h2 : k ≠ Obj.DROOP_EVENTS d) (h3 : k ≠ Obj.WAVE_DROOPS) : t.get k = ((Act.count 32 (Obj.DOM_DROOPS d) 1).run s).get k := by
    have hwithin : (Act.all [.when (d == 73) (.count 32 Obj.CTRL_DROOPS 1), .when (decide (d < 66)) (.count 32 (Obj.DROOP_EVENTS d) 1),
        .when (decide (d < 66) && wave) (.count 32 Obj.WAVE_DROOPS 1), .pow (fun x => { x with droop := d :: x.droop.filter (· != d) })]).Spares (.obj k) := by
      simp [Act.Spares, Act.pow, within_count (A := (· ≠ Part.obj k)) _ _ _ (Part.obj_ne h1.symm) nofun, within_count (A := (· ≠ Part.obj k)) _ _ _ (Part.obj_ne h2.symm) nofun,
        within_count (A := (· ≠ Part.obj k)) _ _ _ (Part.obj_ne h3.symm) nofun]
    rw [← ht]
    exact Act.Spares.get _ hwithin
  have hu : t.u = { s.u with pow := { s.u.pow with droop := d :: s.u.pow.droop.filter (· != d) } } := by
    rw [← ht, droopNoted]
    simp only [run_all_cons, run_all_nil]
    have hwhen (c : Bool) (w k n : Nat) (s : State) : ((Act.when c (.count w k n)).run s).u = s.u := by
      rw [run_when]
      split
      · exact run_count_u ..
      · rfl
    rw [run_pow_u, hwhen, hwhen, hwhen, run_count_u]
  have hspares {p : Part} (hobj : ∀ k, Part.obj k ≠ p) (hctr : Part.ctr ≠ p) : (droopNoted d wave).Spares p := by
    simp [Act.Spares, droopNoted, Act.pow, within_count (A := (· ≠ p)) _ _ _ (hobj _) hctr]
  refine ⟨(hget k1 k2 k3).trans (run_count_get_self _ _ _ _ (by decide) hcount), (hget k4 k5 k6).trans (run_count_get _ _ _ _ k7), ?_, ?_, ?_, ht ▸ Act.Spares.bytes s (hspares nofun nofun),
    ht ▸ Act.Spares.log s (hspares nofun nofun), ht ▸ Act.Spares.out s (hspares nofun nofun), ht ▸ Act.Spares.time s (hspares nofun nofun)⟩ <;> rw [hu]
  exact List.mem_cons_self

/-- The droops of the last millisecond, with the one now. -/
def State.droopsNow (s : State) (st : Step) : List Nat := s.time :: st.droops.filter fun t => decide (s.time ≤ t + 4294967296000000)

/-- A step that droops is frozen. -/
def State.frozenStep (s : State) (st : Step) : Step := { st with frozen := true, droops := s.droopsNow st }

theorem exec_droopDetect_calm (hd : d < 80) (hon : s.powered d = true) (hnone : Tab.get? s.u.pow.steps d = none) :
    exec (.droopDetect d) s = .next ((droopNoted d (!s.u.tt.wave.isEmpty)).run s.begun) := by
  refine (need_next s (decide_eq_true hd) _).trans (congrArg Host.Outcome.next ?_)
  have hon' : s.begun.powered d = true := hon
  rw [run_read, if_neg (not_not.2 hon'), droopNoted, begun_u, hnone]
  simp only [run_all_cons, run_all_nil]
  rfl

theorem exec_droopDetect {st : Step} (hd : d < 80) (hon : s.powered d = true) (hst : Tab.get? s.u.pow.steps d = some st) :
    exec (.droopDetect d) s = .next ((Act.all [.pow (fun x => { x with steps := Tab.set x.steps d (s.frozenStep st) }),
      .when (decide (8 < (s.droopsNow st).length) && !st.back) (abandon d (s.frozenStep st))]).run ((droopNoted d (!s.u.tt.wave.isEmpty)).run s.begun)) := by
  refine (need_next s (decide_eq_true hd) _).trans (congrArg Host.Outcome.next ?_)
  have hon' : s.begun.powered d = true := hon
  rw [run_read, if_neg (not_not.2 hon'), droopNoted, begun_u, hst]
  simp only [run_all_cons, run_all_nil]
  rfl

/-- The step back to the point before step `st`. -/
def Step.backOf (st : Step) : Step := { mv := st.oldMv, pacer := st.oldPacer, oldMv := st.oldMv, oldPacer := st.oldPacer, frozen := true, back := true }

/-- A step is given up, before what it frees is offered. -/
def stepGivenUp (d : Nat) (st : Step) (n : Nat) : Act := .all [
  .pow (fun x => { x with
    steps := Tab.set x.steps d st.backOf
    railCap := if decide (st.oldMv < st.mv) then Tab.set x.railCap d (min st.oldMv (Tab.at x.railCap d 900)) else x.railCap
    stuck := if !decide (st.oldMv < st.mv) && st.extra != 0 then Tab.set x.stuck d st.extra else x.stuck
    heldOff := d :: x.heldOff.filter (· != d) }),
  .put (Obj.DOM_TARGET_MV d) st.oldMv,
  regrant,
  .count 32 (Obj.DOM_STEP_ABANDONS d) 1,
  logEv Ev.STEP_ABANDONED d st.mv n]

theorem abandon_run (d : Nat) (st : Step) (s : State) :
    (abandon d st).run s = ((stepGivenUp d st (st.droops.filter fun t => decide (s.time ≤ t + 4294967296000000)).length).run s).offered := by
  rw [abandon, run_read, stepGivenUp]
  simp only [run_all_cons, run_all_nil]
  rfl

theorem regrant_within_jobs {A : Part → Prop} {R : (Units → Units) → Prop} (htt : ∀ f, (Act.tt f).Within A R) : regrant.Within A R := by
  simp [regrant, Act.job, htt]

theorem stepGivenUp_run {st : Step} {n : Nat} (hcount : s.get (Obj.DOM_STEP_ABANDONS d) + 1 < 2 ^ 32) (ht : (stepGivenUp d st n).run s = t) :
    t.get (Obj.DOM_DROOPS d) = s.get (Obj.DOM_DROOPS d) ∧ t.get (Obj.DOM_STEP_ABANDONS d) = s.get (Obj.DOM_STEP_ABANDONS d) + 1
      ∧ t.get (Obj.DOM_TARGET_MV d) = st.oldMv % 2 ^ 64 ∧ d ∈ t.u.pow.heldOff ∧ Tab.get? t.u.pow.steps d = some st.backOf
      ∧ t.lastEvent Ev.STEP_ABANDONED d st.mv n ∧ t.log.total = s.log.total + 1 ∧ t.bytes = s.bytes := by
  have hkeys : Obj.DOM_DROOPS d ≠ Obj.DOM_STEP_ABANDONS d ∧ Obj.DOM_TARGET_MV d ≠ Obj.DOM_STEP_ABANDONS d ∧ Obj.DOM_DROOPS d ≠ Obj.DOM_TARGET_MV d := by
    simp only [Obj.DOM_DROOPS, Obj.DOM_STEP_ABANDONS, Obj.DOM_TARGET_MV]
    omega
  obtain ⟨k1, k2, k3⟩ := hkeys
  rw [stepGivenUp] at ht
  simp only [run_all_cons, run_all_nil] at ht
  generalize hp : (Act.put (Obj.DOM_TARGET_MV d) st.oldMv).run _ = p at ht
  generalize hr : regrant.run p = r at ht
  generalize hc : (Act.count 32 (Obj.DOM_STEP_ABANDONS d) 1).run r = c at ht
  have hpget (k : Nat) : p.get k = if k = Obj.DOM_TARGET_MV d then st.oldMv % 2 ^ 64 else s.get k := by
    rw [← hp, run_put_get]
    rfl
  have hrget (k : Nat) : r.get k = p.get k := hr ▸ Act.Spares.get p (regrant_within_jobs fun _ => trivial)
  have hcget {k : Nat} (hk : k ≠ Obj.DOM_STEP_ABANDONS d) : c.get k = p.get k := by
    rw [← hc, run_count_get _ _ _ _ hk, hrget]
  have hpow : t.u.pow = p.u.pow := by
    have hlog : ((logEv Ev.STEP_ABANDONED d st.mv n).run c).u.pow = c.u.pow := Act.SparesUnit.unit (f := fun u => u.pow) c (logEv_within _ _ _ _ trivial trivial fun _ => fun _ => rfl)
    have hregrant : r.u.pow = p.u.pow := hr ▸ Act.SparesUnit.unit (f := fun u => u.pow) p (regrant_within_jobs fun _ => fun _ => rfl)
    rw [← ht, hlog, ← hc, run_count_u, hregrant]
  have hlog : c.log = s.log := by
    have hregrant : r.log = p.log := hr ▸ Act.Spares.log p (regrant_within_jobs fun _ => trivial)
    rw [← hc, run_count_log, hregrant, ← hp]
    rfl
  have hbytes : c.bytes = s.bytes := by
    have hregrant : r.bytes = p.bytes := hr ▸ Act.Spares.bytes p (regrant_within_jobs fun _ => trivial)
    rw [← hc, run_count_bytes, hregrant, ← hp]
    rfl
  have habandons : c.get (Obj.DOM_STEP_ABANDONS d) = s.get (Obj.DOM_STEP_ABANDONS d) + 1 := by
    have h : r.get (Obj.DOM_STEP_ABANDONS d) = s.get (Obj.DOM_STEP_ABANDONS d) := by rw [hrget, hpget, if_neg k2.symm]
    rw [← hc, run_count_get_self _ _ _ _ (by decide) (by rw [h]; exact hcount), h]
  have hget (k : Nat) : t.get k = c.get k := by rw [← ht, run_logEv_get]
  refine ⟨?_, (hget _).trans habandons, ?_, ?_, ?_, ht ▸ logEv_lastEvent .., ?_, ?_⟩
  · rw [hget, hcget k1, hpget, if_neg k3]
  · rw [hget, hcget k2, hpget, if_pos rfl]
  · rw [hpow, ← hp]
    exact List.mem_cons_self
  · rw [hpow, ← hp]
    exact (Tab.get?_set ..).trans (if_pos rfl)
  · rw [← ht, logEv_total, hlog]
  · rw [← ht, run_logEv_bytes, hbytes]

end

/-- Settles O34, a droop by the step that it freezes and the ninth that abandons it. -/
theorem railsStep : Obligations.RailsStep := by
  unfold Obligations.RailsStep
  intro s d hd counts reached
  refine ⟨fun st hst => ?_, fun hoff => ?_, fun hon hcount hnone => ?_, fun hon hcount st n hst hn => ?_, need_next s (decide_eq_true hd) _, ?_, fun hheld => ?_⟩
  · intro v w
    refine ⟨fun hf => ?_, fun hf hw => ?_, fun hf hw => ?_⟩
    · rw [exec_railIncrement hd hst (w := w) rfl, if_pos hf]
    · rw [exec_railIncrement hd hst (w := w) rfl, if_neg (ne_true_of_eq_false hf), if_neg hw]
    · rw [exec_railIncrement hd hst (w := w) rfl, if_neg (ne_true_of_eq_false hf), if_pos hw]
      rfl
  · have hoff' : ¬ s.begun.powered d = true := ne_true_of_eq_false hoff
    refine (need_next s (decide_eq_true hd) _).trans (congrArg Host.Outcome.next ?_)
    rw [run_read, if_pos hoff']
    rfl
  · generalize ht : (droopNoted d (!s.u.tt.wave.isEmpty)).run s.begun = t
    obtain ⟨h1, -, h2, h3, h4, h5, h6, h7, -⟩ := droopNoted_run (s := s.begun) hd hcount ht
    exact ⟨t, ht ▸ exec_droopDetect_calm hd hon hnone, h1, h2, h3, h4, h5, h6, h7⟩
  · generalize ht : (droopNoted d (!s.u.tt.wave.isEmpty)).run s.begun = t
    obtain ⟨h1, habandons, h2, h3, h4, h5, h6, h7, htime⟩ := droopNoted_run (s := s.begun) hd hcount ht
    have hexec := ht ▸ exec_droopDetect hd hon hst
    rw [run_all_cons, run_all_cons, run_all_nil, run_when] at hexec
    have hn' : s.droopsNow st = n := hn.symm
    rw [hn'] at hexec
    have hsteps : Tab.get? (Tab.set t.u.pow.steps d (s.frozenStep st)) d = some (s.frozenStep st) := (Tab.get?_set ..).trans (if_pos rfl)
    have hframe : s.frozenStep st = { st with frozen := true, droops := n } := by rw [State.frozenStep, hn']
    refine ⟨fun hfew => ?_, fun hmany hback hroom => ?_⟩
    · have hstay : ¬ (decide (8 < n.length) && !st.back) = true := by
        rcases hfew with h | h <;> simp [h]
      rw [if_neg hstay] at hexec
      exact ⟨_, hexec, h1, h2, hsteps.trans (congrArg some hframe), h4, h5, h6, h7⟩
    · have hgo : (decide (8 < n.length) && !st.back) = true := by simp [hmany, hback]
      rw [if_pos hgo, abandon_run] at hexec
      have hfilter : ((s.frozenStep st).droops.filter fun t' => decide (s.time ≤ t' + 4294967296000000)) = n := by
        rw [hframe]
        subst hn
        rw [List.filter_cons, if_pos (decide_eq_true (Nat.le_add_right _ _)), List.filter_filter]
        simp only [Bool.and_self]
      generalize hm : ((s.frozenStep st).droops.filter fun t' => decide (_ ≤ t' + 4294967296000000)).length = m at hexec
      have hmn : m = n.length := by
        rw [← hm, ← hfilter]
        exact congrArg (fun x => ((s.frozenStep st).droops.filter fun t' => decide (x ≤ t' + 4294967296000000)).length) htime
      generalize hq : (stepGivenUp d (s.frozenStep st) m).run _ = q at hexec
      obtain ⟨q1, q2, q3, q4, q5, q6, q7, q8⟩ := stepGivenUp_run (by exact habandons ▸ hroom) hq
      exact ⟨q, hexec, q1.trans h1, q2.trans (congrArg (· + 1) habandons), q3, q4, ⟨_, q5, rfl, rfl, rfl, rfl⟩, hmn ▸ q6, q7.trans (congrArg (fun l : EventLog => l.total + 1) h6), q8.trans h5⟩
  · intro st hst go
    exact exec_stepResume hd hst rfl
  · refine (need_when_yes (decide_eq_true hd) _ _ (by simpa using hheld)).trans (congrArg Host.Outcome.next ?_)
    rw [run_all_cons, run_all_cons, run_all_cons, run_all_nil]
    rfl

end Sys2Proof.Machine
end

section
/-! PROOFS. Maintenance of the channels (R179 to R183). -/

namespace Sys2Proof.Machine

section
variable {s : State} {ch wait : Nat} {op : MaintOp}

/-- The windows that are open now. -/
def State.windowsNow (s : State) : List (Nat × Nat) := s.u.mem.windows.filter fun w => decide (s.time < w.2 + 1000 * 4294967296)

/-- A window that starts: noted, counted, with the wait it gives. -/
def State.windowStarted (s : State) (ch wait : Nat) : State :=
  let o := (s.withMem fun m => { m with windows := (ch, s.time) :: s.windowsNow }).counted 64 Obj.MAINT_WINDOWS 1
  o.putObj Obj.MAINT_MAX_WAIT_NS (max (o.get Obj.MAINT_MAX_WAIT_NS) wait)

theorem windowStarted_time (s : State) (ch wait : Nat) : (s.windowStarted ch wait).time = s.time := run_count_time (s.withMem _) 64 Obj.MAINT_WINDOWS 1

theorem startWindows_starts {n : Nat} {rest : List (Nat × Nat × MaintOp)} (hdue : s.u.mem.dueWindows = (ch, wait, op) :: rest) (hfew : s.windowsNow.length < 2)
    (hfree : ∀ w ∈ s.windowsNow, w.1 ≠ ch) : (startWindows (n + 1)).run s
      = (startWindows n).run ((maintain ch op).run ((s.withMem fun m => { m with dueWindows := rest }).windowStarted ch wait)) := by
  have hgo : ¬ (2 ≤ s.windowsNow.length ∨ s.windowsNow.any (fun x => x.1 == ch) = true) := by
    simp only [not_or, not_le, List.any_eq_true, beq_iff_eq, not_exists, not_and]
    exact ⟨hfew, hfree⟩
  rw [startWindows, run_read, hdue]
  refine (congrFun (congrArg Act.run (if_neg hgo)) s).trans ?_
  rw [run_all_cons, run_all_cons, run_all_cons, run_all_cons, run_all_cons, run_all_nil]
  rfl

theorem startWindows_stops {n : Nat} {w : Nat × Nat × MaintOp} {rest : List (Nat × Nat × MaintOp)} (hdue : s.u.mem.dueWindows = w :: rest) (hmany : 2 ≤ s.windowsNow.length) :
    (startWindows (n + 1)).run s = s := by
  rw [startWindows, run_read, hdue]
  exact (congrFun (congrArg Act.run (if_pos (Or.inl hmany))) s).trans rfl

theorem window_starts (hdue : s.u.mem.dueWindows = []) (hfew : s.windowsNow.length < 2) (hfree : ∀ w ∈ s.windowsNow, w.1 ≠ ch) :
    (window ch wait op).run s = (maintain ch op).run (s.windowStarted ch wait) := by
  have hone : (s.withMem fun m => { m with dueWindows := m.dueWindows ++ [(ch, wait, op)] }).u.mem.dueWindows = [(ch, wait, op)] := by
    show s.u.mem.dueWindows ++ [(ch, wait, op)] = _
    rw [hdue]
    rfl
  have hback : ((s.withMem fun m => { m with dueWindows := m.dueWindows ++ [(ch, wait, op)] }).withMem fun m => { m with dueWindows := [] }) = s :=
    congrArg (fun d => s.withMem fun m => { m with dueWindows := d }) hdue.symm
  rw [window, run_read, run_all_cons, run_all_cons, run_all_nil, hdue]
  refine (startWindows_starts hone hfew hfree).trans ?_
  rw [hback]
  rfl

theorem window_waits (hmany : 2 ≤ s.windowsNow.length) :
    (window ch wait op).run s = s.withMem fun m => { m with dueWindows := m.dueWindows ++ [(ch, wait, op)] } := by
  rw [window, run_read, run_all_cons, run_all_cons, run_all_nil]
  obtain ⟨w, rest, h⟩ := List.exists_cons_of_ne_nil (List.append_ne_nil_of_right_ne_nil s.u.mem.dueWindows (List.cons_ne_nil (ch, wait, op) []))
  exact startWindows_stops (s := s.withMem fun m => { m with dueWindows := m.dueWindows ++ [(ch, wait, op)] }) h hmany

theorem exec_gleanerGranule {addr row : Nat} {c u e l busy : Bool} (haddr : addr % 64 = 0) (hcap : addr < s.capacity) (hpass : s.get Obj.GLEANER_PASS_S ≠ 0) :
    exec (.gleanerGranule addr row c u e l busy) s = .next ((background 0 (s.servingChan addr) busy (.all [
        .when c (.all [.count 64 Obj.GLEANER_CORRECTED 1, correctedAt addr row]),
        .when u (.all [.count 32 Obj.GLEANER_UNCORRECTED 1, uncorrectableAt addr row []]),
        .when e (.count 32 Obj.GLEANER_PASSES 1),
        .when (e && l) (.count 32 Obj.GLEANER_LATE 1)])).run s.begun).told := by
  have hgo : ¬ (s.begun.get Obj.GLEANER_PASS_S = 0 ∨ s.begun.capacity ≤ addr) := not_or.2 ⟨hpass, not_le.2 hcap⟩
  refine (need_next s (beq_iff_eq.2 haddr) _).trans (congrArg Host.Outcome.next ?_)
  rw [run_read, if_neg hgo, run_all_cons, run_all_cons, run_all_nil]
  rfl

end

/-- Settles O19: a granule found clean, a refresh, and a window that starts or waits. -/
theorem channelsAreMaintained : Obligations.ChannelsAreMaintained := by
  unfold Obligations.ChannelsAreMaintained
  intro s ch hch
  refine ⟨fun addr row busy haddr hcap hpass => ⟨fun hwork => ?_, fun hyield c u e l => ?_⟩, fun bank hbank => need_next s (by simp [Wf.perBankRefresh, hch, hbank]) _, ?_⟩
  · rw [exec_gleanerGranule haddr hcap hpass, background_works (s := s.begun) hwork, run_all_cons, run_all_cons, run_all_cons, run_all_cons, run_all_nil]
    rfl
  · rw [exec_gleanerGranule haddr hcap hpass, background_yields (s := s.begun) hyield]
    rfl
  · intro wait mult hwait hmult now o p
    have hwf : (decide (ch < 64) && decide (wait ≤ 1000)) = true := by simp [hch, hwait]
    have hwfDqs : Wf.dqsTracking ch mult wait = true := by simpa [Wf.dqsTracking, hch, hwait, or_assoc] using hmult
    have hexec {c : Bool} (hc : c = true) (op : MaintOp) : need c s (window ch wait op) = .next ((window ch wait op).run s.begun) := need_next s hc _
    refine ⟨fun hdue hfew hfree => ?_, fun hmany i op hi => ?_⟩
    · have hstarts {c : Bool} (hc : c = true) (op : MaintOp) : need c s (window ch wait op) = .next ((maintain ch op).run p) := by
        rw [hexec hc, window_starts (s := s.begun) hdue hfew hfree]
        rfl
      have htime : p.time = s.time := windowStarted_time s.begun ch wait
      have hzq : (maintain ch .zq).run p = p.putObj (Obj.LAST_ZQ_TIME ch) s.ns := congrArg (fun t => p.putObj (Obj.LAST_ZQ_TIME ch) (t / 4294967296 % 18446744073709551616)) htime
      have hcatchup : (maintain ch .catchup).run p = p.withMem fun m => { m with refreshed := (List.range 8).foldl (fun t b => Tab.set t (ch * 8 + b) s.time) m.refreshed } :=
        congrArg (fun time => p.withMem fun m => { m with refreshed := (List.range 8).foldl (fun t b => Tab.set t (ch * 8 + b) time) m.refreshed }) htime
      exact ⟨(hstarts hwf .zq).trans (congrArg Host.Outcome.next hzq), hstarts hwfDqs _, (hstarts hwf .catchup).trans (congrArg Host.Outcome.next hcatchup)⟩
    · have hwaits {c : Bool} (hc : c = true) (op : MaintOp) : need c s (window ch wait op)
          = .next ((s.withMem fun m => { m with dueWindows := m.dueWindows ++ [(ch, wait, op)] }).sending []) := by
        rw [hexec hc, window_waits (s := s.begun) hmany]
        rfl
      rcases hi with ⟨rfl, rfl⟩ | ⟨rfl, rfl⟩ | ⟨rfl, rfl⟩
      · exact hwaits hwf _
      · exact hwaits hwfDqs _
      · exact hwaits hwf _

end Sys2Proof.Machine
end

section
/-! PROOFS. Retirement of channels (R185 to R190). -/

namespace Sys2Proof.Machine

section
variable {s t : State} {ch : Nat} {A : Part → Prop} {R : (Units → Units) → Prop}

/-- What a grown headland touches: slots above and counters, tiles, bytes. -/
theorem growHeadland_within (n : Nat) (hbase : A (.obj Obj.HEADLAND_BASE)) (hslots : A (.obj Obj.PAYLOAD_SLOTS)) (hmoved : A (.obj Obj.MIGRATIONS)) (hbytesMoved : A (.obj Obj.BYTES_MIGRATED))
    (hctr : A .ctr) (hbytes : A .bytes) (hmem : ∀ f, (Act.mem f).Within A R) : (growHeadland n).Within A R := by
  have htile (t : Nat) (f : Tile → Tile) : (Act.tile t f).Within A R := hmem _
  have hslot (t gen r : Nat) (tag data : List Byte) : (pokeHome t gen (.slot r) tag data).Within A R := by simp [pokeHome, hbytes]
  have hevacuate (limit : Nat) : (evacuateSlots limit).Within A R := by
    simp only [evacuateSlots, within_read, within_each]
    intro s e _ s'
    split
    · simp [htile, hslot, within_count _ _ _ hmoved hctr, within_count _ _ _ hbytesMoved hctr]
    · trivial
  simp [growHeadland, hbase, hslots, htile, hevacuate]

theorem layReloc_within (ch : Nat) (hfree : A (.obj Obj.HEADLAND_FREE)) (hbase : A (.obj Obj.HEADLAND_BASE)) (hslots : A (.obj Obj.PAYLOAD_SLOTS)) (hmoved : A (.obj Obj.MIGRATIONS))
    (hbytesMoved : A (.obj Obj.BYTES_MIGRATED)) (hctr : A .ctr) (hbytes : A .bytes) (hmem : ∀ f, (Act.mem f).Within A R) : (layReloc ch).Within A R := by
  simp [layReloc, growHeadland_within _ hbase hslots hmoved hbytesMoved hctr hbytes hmem, hmem, hfree]

theorem evacuateSlots_noTiles (h : s.u.mem.tiles = []) (limit : Nat) : (evacuateSlots limit).run s = s := by
  rw [evacuateSlots, run_read, h]
  rfl

/-- Without tiles a grown headland drives none out. -/
theorem growHeadland_bytes (h : s.u.mem.tiles = []) (n : Nat) : ((growHeadland n).run s).bytes = s.bytes := by
  rw [growHeadland, run_read]
  simp only [h, List.filter_nil]
  split
  · rfl
  · rw [run_all_cons, run_all_cons, run_all_cons, run_all_cons, run_all_nil, evacuateSlots_noTiles]
    · rfl
    · exact h

theorem layReloc_bytes (h : s.u.mem.tiles = []) (ch : Nat) : ((layReloc ch).run s).bytes = s.bytes := by
  rw [layReloc, run_read, run_all_cons, run_all_cons, run_all_cons, run_all_nil]
  have hgrown : ((Act.when (s.retireFits ch) (growHeadland (s.unitsNeeded ch 3 s.units - s.units))).run s).bytes = s.bytes := by
    rw [run_when]
    split
    · exact growHeadland_bytes h _
    · rfl
  generalize (Act.when (s.retireFits ch) (growHeadland (s.unitsNeeded ch 3 s.units - s.units))).run s = g at hgrown ⊢
  exact hgrown

/-- A channel gone, with its event. -/
theorem retireDone_run {role cause : Nat} (hch : ch < 64) (hrole : role < 2 ^ 64) (ht : (retireDone ch role cause).run s = t) : t.get (Obj.CHANNEL_ROLE ch) = role
    ∧ t.lastEvent Ev.CHANNEL_RETIRED ch cause 0 ∧ t.log.total = s.log.total + 1 ∧ t.bytes = s.bytes := by
  have hkeys : Obj.CHANNEL_ROLE ch ≠ Obj.CHANNELS_ACTIVE ∧ Obj.CHANNEL_ROLE ch ≠ Obj.USABLE_MIB ∧ Obj.CHANNEL_ROLE ch ≠ Obj.BYTES_MIGRATED := by
    simp only [Obj.CHANNEL_ROLE, Obj.CHANNELS_ACTIVE, Obj.USABLE_MIB, Obj.BYTES_MIGRATED]
    omega
  obtain ⟨k1, k2, k3⟩ := hkeys
  rw [retireDone, run_read] at ht
  simp only [run_all_cons, run_all_nil] at ht
  generalize hg : (chanGone ch role).run s = g at ht
  generalize hc : (Act.count 64 Obj.BYTES_MIGRATED _).run g = c at ht
  have hgone : g.get (Obj.CHANNEL_ROLE ch) = role ∧ g.log = s.log ∧ g.bytes = s.bytes := by
    rw [← hg, chanGone, run_read]
    simp only [run_all_cons, run_all_nil, run_modify, run_put_get, k1, k2, ↓reduceIte]
    exact ⟨(run_put_get ..).trans ((if_pos rfl).trans (Nat.mod_eq_of_lt hrole)), rfl, rfl⟩
  obtain ⟨grole, glog, gbytes⟩ := hgone
  refine ⟨?_, ht ▸ logEv_lastEvent .., ?_, ?_⟩
  · rw [← ht, run_logEv_get, ← hc, run_count_get _ _ _ _ k3, grole]
  · rw [← ht, logEv_total, ← hc, run_count_log, glog]
  · rw [← ht, run_logEv_bytes, ← hc, run_count_bytes, gbytes]

/-- Retirement begins: its role, its progress, and the relocation laid out. -/
theorem retireStart_run {cause : Nat} (ht : (retireStart ch cause).run s = t) : t.get (Obj.CHANNEL_ROLE ch) = 1 ∧ t.get (Obj.RETIRE_PROGRESS ch) = 0
    ∧ Tab.get? t.u.mem.switched ch = some (cause, 0) ∧ (s.unitsNeeded ch 3 s.units = s.units → t.u.mem.relocs = s.u.mem.relocs ++ [s.relocOn s.units ch])
    ∧ t.log = s.log ∧ t.out = s.out := by
  rw [retireStart] at ht
  simp only [run_all_cons, run_all_nil] at ht
  generalize hl : (layReloc ch).run s = l at ht
  have hwithin {p : Part} (hobj : ∀ k, Part.obj k ≠ p) (hctr : Part.ctr ≠ p) (hbytes : Part.bytes ≠ p) : (layReloc ch).Spares p :=
    layReloc_within ch (hobj _) (hobj _) (hobj _) (hobj _) (hobj _) hctr hbytes fun _ => trivial
  have hkey : Obj.CHANNEL_ROLE ch ≠ Obj.RETIRE_PROGRESS ch := by
    simp only [Obj.CHANNEL_ROLE, Obj.RETIRE_PROGRESS]
    omega
  have hget (k v : Nat) (x : State) (f : MemS → MemS) : ((Act.mem f).run (x.putObj k v)).get k = v % 2 ^ 64 := (putObj_get x k v k).trans (if_pos rfl)
  have hlog : l.log = s.log := by
    rw [← hl]
    exact Act.Spares.log s (hwithin nofun nofun nofun)
  have hout : l.out = s.out := by
    rw [← hl]
    exact Act.Spares.out s (hwithin nofun nofun nofun)
  subst ht
  refine ⟨?_, hget _ 0 _ _, (Tab.get?_set ..).trans (if_pos rfl), fun hsame => ?_, hlog, hout⟩
  · exact (putObj_get (l.putObj (Obj.CHANNEL_ROLE ch) 1) (Obj.RETIRE_PROGRESS ch) 0 _).trans ((if_neg hkey).trans ((putObj_get l _ 1 _).trans (if_pos rfl)))
  · show l.u.mem.relocs = _
    rw [← hl, layReloc, run_read, run_all_cons, run_all_cons, run_all_cons, run_all_nil, run_when, hsame, Nat.sub_self]
    split
    · rfl
    · rfl

end

/-- Settles O21: how retirement begins, goes on and ends, and a channel that fails. -/
theorem channelsRetire : Obligations.ChannelsRetire := by
  unfold Obligations.ChannelsRetire
  intro s ch hch
  have hexec {stripes cause n : Nat} (h : Tab.get? s.u.mem.switched ch = some (cause, n)) : exec (.stripeSwitch ch stripes) s = .next ((
      if s.pieces ch ≤ n + stripes then .all [retireDone ch 2 cause, .put (Obj.RETIRE_PROGRESS ch) 100]
      else .all [
        .mem (fun m => { m with switched := Tab.set m.switched ch (cause, n + stripes) }),
        .put (Obj.RETIRE_PROGRESS ch) ((n + stripes) * 100 / s.pieces ch)] : Act).run s.begun) := by
    refine (need_next s (decide_eq_true hch) _).trans (congrArg Host.Outcome.next ?_)
    rw [run_read, begun_u, h]
    rfl
  refine ⟨fun ses hses hadm hrole hfits => ?_, fun cause n stripes h hmore => ?_, fun cause n stripes h hlast => ?_, fun hrole htiles => ?_⟩
  · have hgo : ¬ (s.begun.get (Obj.CHANNEL_ROLE ch) ≠ 0 ∨ ¬ s.begun.retireFits ch = true) := by
      have hfits' : s.begun.retireFits ch = true := hfits
      simp [hrole, hfits']
    have hexec := exec_guarded_takes (body := retireRequest ch) (a := retireStart ch 0) (show Wf.retireRequest ses ch 1 = true by simp [Wf.retireRequest, hses, hch]) rfl hadm (if_neg hgo)
    generalize ht : (retireStart ch 0).run s.begun = t at hexec
    obtain ⟨h1, h2, h3, h4, h5, h6⟩ := retireStart_run ht
    exact ⟨_, hexec, h1, h2, h3, h4, h5, congrArg (· ++ replies ses 0) h6⟩
  · rw [hexec h, if_neg (not_le.2 hmore)]
    rfl
  · have hrun := hexec (stripes := stripes) h
    rw [if_pos hlast, run_all_cons, run_all_cons, run_all_nil] at hrun
    generalize ht : (retireDone ch 2 cause).run s.begun = t at hrun
    obtain ⟨h1, h2, h3, h4⟩ := retireDone_run hch (by decide) ht
    have hkey : Obj.CHANNEL_ROLE ch ≠ Obj.RETIRE_PROGRESS ch := by
      simp only [Obj.CHANNEL_ROLE, Obj.RETIRE_PROGRESS]
      omega
    exact ⟨_, hrun, (putObj_get t _ 100 _).trans ((if_neg hkey).trans h1), (putObj_get t _ 100 _).trans (if_pos rfl), h2, h3, h4⟩
  · have hgo : ¬ 2 ≤ s.begun.get (Obj.CHANNEL_ROLE ch) := not_le.2 hrole
    have htiles' : s.begun.u.mem.tiles = [] := htiles
    have hrun : exec (.channelDead ch) s = .next ((retireDone ch 3 2).run ((Act.when (s.get (Obj.CHANNEL_ROLE ch) == 0) (layReloc ch)).run s.begun)).told := by
      refine (need_next s (decide_eq_true hch) _).trans (congrArg Host.Outcome.next ?_)
      rw [run_read]
      simp only [htiles', List.filter_nil]
      rw [if_neg hgo, run_all_cons, run_all_cons, run_all_cons, run_all_cons, run_all_cons, run_all_nil]
      rfl
    generalize hl : (Act.when (s.get (Obj.CHANNEL_ROLE ch) == 0) (layReloc ch)).run s.begun = l at hrun
    generalize ht : (retireDone ch 3 2).run l = t at hrun
    obtain ⟨h1, h2, h3, h4⟩ := retireDone_run hch (by decide) ht
    have hkeep : l.log = s.log ∧ l.bytes = s.bytes := by
      rw [← hl, run_when]
      split
      · exact ⟨Act.Spares.log _ (layReloc_within ch nofun nofun nofun nofun nofun nofun nofun fun _ => trivial), layReloc_bytes htiles' ch⟩
      · exact ⟨rfl, rfl⟩
    exact ⟨t, hrun, h1, h2, h3.trans (congrArg (fun l : EventLog => l.total + 1) hkeep.1), h4.trans hkeep.2⟩

end Sys2Proof.Machine
end

section
/-! PROOFS. A migration retried over a tile table out of order (R170, R171). -/

namespace Sys2Proof.Machine

/-- Tile 3 is to be retried at slot 2, the one free slot of three; the table of tiles is not in rising order. -/
def retryUnsorted : State :=
  (State.reset.puts [(Obj.PAYLOAD_SLOTS, 3), (Obj.SURVEYOR_PERIOD_US, 1000), (Obj.MIGRATE_LIMIT_MBPS, 1000)]).withMem fun m => { m with
    tiles := [(5, { ctx := 0, home := .slot 1 }), (3, { ctx := 0, home := .slot 0, retry := some (.slot 2) })] }

/-- What the retry leaves of the tile. -/
def retriedTile : Host.Outcome State Fault Refusal → Option (Option Home)
  | .next u => (Tab.get? u.u.mem.tiles 3).map (·.migrating)
  | _ => none

/-- Refutes O20: the map entry that the retry takes back is written in its place in rising order, so that in a table out of order the tile stands twice; it then counts two
slots, none is free any more, and the migration does not begin. -/
theorem not_tilesMigrate : ¬ Obligations.TilesMigrate := by
  unfold Obligations.TilesMigrate
  intro h
  obtain ⟨-, -, hretry, -⟩ := h retryUnsorted 3 { ctx := 0, home := .slot 0, retry := some (.slot 2) } rfl
  obtain ⟨u, hu, htile, -⟩ := hretry 2 rfl rfl rfl nofun (by decide) (by decide +kernel) rfl (by decide +kernel)
  have hbegun : retriedTile (exec (.migrationRetry 3) retryUnsorted) = some (some (.slot 2)) := by rw [hu, retriedTile, htile]; rfl
  exact absurd hbegun (by decide +kernel)

end Sys2Proof.Machine
end

section
/-! PROOFS. Leases that this module lends, and the peer tier as its borrower sees it (R165 to R169). -/

namespace Sys2Proof.Machine

section
variable {s : State}

theorem begun_mread (s : State) (a n : Nat) : s.begun.mread a n = s.mread a n := rfl
theorem begun_lentAddr (s : State) (x : Lent) (slot : Nat) : s.begun.lentAddr x slot = s.lentAddr x slot := rfl

/-- Five slots are written before the rest; stated for any keys, so that the kernel compares no two of them. -/
theorem run_fivePuts (s : State) (k₁ v₁ k₂ v₂ k₃ v₃ k₄ v₄ k₅ v₅ : Nat) (as : List Act) :
    (Act.all (.put k₁ v₁ :: .put k₂ v₂ :: .put k₃ v₃ :: .put k₄ v₄ :: .put k₅ v₅ :: as)).run s.begun
      = (Act.all as).run (s.puts [(k₁, v₁), (k₂, v₂), (k₃, v₃), (k₄, v₄), (k₅, v₅)]).begun := rfl

theorem also_run_mem (t : State) (g : MemS → MemS) (es : List Emit) : ((Act.all [.mem g]).run t.begun).also es = (t.withMem g).sending es := rfl

theorem withMem_congr {t : State} {f g : MemS → MemS} (h : f t.u.mem = g t.u.mem) : t.withMem f = t.withMem g :=
  congrArg (fun m => t.withMem fun _ => m) h

/-! ## Notices -/

/-- A notice to each of distinct sessions that `p` picks numbers each from its own count. -/
theorem run_each_sendNotify (p : Nat → Bool) (kind : Nat) (rs : List (List Byte)) (is : List Nat) (hnodup : is.Nodup) (s : State) :
    ((Act.each is fun i => .when (p i) (sendNotify (i + 2) kind rs)).run s).out
      = s.out ++ (is.filter p).map fun i => .notify (i + 2) ((s.session (i + 2)).txSeq + 1) kind rs := by
  induction is generalizing s with
  | nil => simp
  | cons i is ih =>
    obtain ⟨hi, hrest⟩ := List.nodup_cons.1 hnodup
    rw [run_each_cons, ih hrest, run_when]
    by_cases h : p i = true
    · have hses (j : Nat) (hj : j ∈ is) : ((sendNotify (i + 2) kind rs).run s).session (j + 2) = s.session (j + 2) := by
        rw [sendNotify, run_read, run_all_cons, run_all_cons, run_all_nil]
        exact (run_ses_session ..).trans (if_neg fun e => hi (by rwa [show i = j by omega]))
      have hmap : (is.filter p).map (fun j => Emit.notify (j + 2) ((((sendNotify (i + 2) kind rs).run s).session (j + 2)).txSeq + 1) kind rs)
          = (is.filter p).map fun j => Emit.notify (j + 2) ((s.session (j + 2)).txSeq + 1) kind rs :=
        List.map_congr_left fun j hj => by rw [hses j (List.mem_filter.1 hj).1]
      rw [if_pos h, hmap, List.filter_cons_of_pos h, List.map_cons]
      exact (List.append_assoc s.out [_] _)
    · rw [if_neg h, List.filter_cons_of_neg h]

theorem recallNotify_within {A : Part → Prop} {R : (Units → Units) → Prop} (lease : Nat) (hout : A .out) (hdict : ∀ f, (Act.dict f).Within A R) : (recallNotify lease).Within A R := by
  have hsend (ses kind : Nat) (rs : List (List Byte)) : (sendNotify ses kind rs).Within A R := by
    simp only [sendNotify, within_read, within_all_cons, within_all_nil, within_emit, hout, and_true, Act.ses_eq_dict]
    exact fun _ => hdict _
  simp only [recallNotify, within_read]
  intro s
  split
  · trivial
  · split
    · trivial
    · simp [hsend]

theorem recallNotify_keeps (lease : Nat) : s.storesKept ((recallNotify lease).run s) ∧ ((recallNotify lease).run s).u.mem = s.u.mem := by
  have hmem : (recallNotify lease).SparesUnit fun u => u.mem := recallNotify_within lease trivial fun _ => fun _ => rfl
  have hwithin {p : Part} (h : Part.out ≠ p) : (recallNotify lease).Spares p := recallNotify_within lease h fun _ => trivial
  have hobjs : (recallNotify lease).Within (fun p => ∀ k, p ≠ .obj k) fun _ => True := recallNotify_within lease (fun _ => nofun) fun _ => trivial
  exact ⟨⟨Act.objs_of_within hobjs s, Act.Spares.shadow s (hwithin nofun), Act.Spares.bytes s (hwithin nofun), Act.Spares.log s (hwithin nofun), run_pending _ s⟩, hmem.unit s⟩

theorem recallNotify_out {lease deadline slots : Nat} {x : Lent} (hx : Tab.get? s.u.mem.lent lease = some x) (hrec : x.recalled = some (deadline, slots)) :
    ((recallNotify lease).run s).out = s.out ++ ((List.range 14).filter fun i => s.get (Obj.TRANSPORT (i + 2)) == 3 && (s.session (i + 2)).certKey == x.peer).map fun i =>
      .notify (i + 2) ((s.session (i + 2)).txSeq + 1) 2 [recallRecord lease slots deadline] := by
  rw [recallNotify, run_read, hx]
  simp only
  rw [hrec]
  exact run_each_sendNotify _ _ _ _ List.nodup_range s

/-! ## Requests -/

/-- The slots that a request for `mib` MiB is granted. -/
def State.leaseGrant (s : State) (mib : Nat) : Nat :=
  min (mib * 1048576) (min ((s.get Obj.LEND_LIMIT_MIB - s.lentMib) * 1048576) (min s.slotsFree s.lendable * 4096)) / 4160

theorem begun_leaseGrant (s : State) (mib : Nat) : s.begun.leaseGrant mib = s.leaseGrant mib := by
  have hlent : s.begun.lentMib = s.lentMib := rfl
  have hfree : s.begun.slotsFree = s.slotsFree := rfl
  have hlend : s.begun.lendable = s.lendable := rfl
  rw [State.leaseGrant, begun_get, hlent, hfree, hlend, State.leaseGrant]

section
variable (ses : Nat) {mib qpn rkey base : Nat}

theorem leaseRequest_refuses (h : s.leaseGrant mib = 0 ∨ s.policyRuns = false) : leaseRequest ses mib qpn rkey base s = .ok (.all [
      .put (Obj.GRANT_SLOTS ses) 0, .put (Obj.GRANT_QPN ses) 0, .put (Obj.GRANT_RKEY ses) 0, .put (Obj.GRANT_BASE ses) 0, .put (Obj.GRANT_LEASE_ID ses) 0]) :=
  congrArg WriteRes.ok (if_pos (h.imp_right ne_true_of_eq_false))

theorem leaseRequest_grants (hslots : s.leaseGrant mib ≠ 0) (hruns : s.policyRuns = true) : leaseRequest ses mib qpn rkey base s = .ok (.all [
      .put (Obj.GRANT_SLOTS ses) (s.leaseGrant mib), .put (Obj.GRANT_QPN ses) qpn, .put (Obj.GRANT_RKEY ses) rkey, .put (Obj.GRANT_BASE ses) base,
      .put (Obj.GRANT_LEASE_ID ses) s.u.mem.nextLease,
      .mem (fun m => { m with
        lent := Tab.set m.lent s.u.mem.nextLease {
          slots := s.leaseGrant mib, base := base, peer := (s.session ses).certKey, first := (s.lendAt (ceilDiv (s.leaseGrant mib * 4160) 4096)).getD 0 }
        nextLease := if s.u.mem.nextLease = 65535 then 1 else s.u.mem.nextLease + 1 })]) :=
  congrArg WriteRes.ok (if_neg (not_or.2 ⟨hslots, not_not.2 hruns⟩))

theorem exec_leaseRequest_grants {ses : Nat} (hses : ses < 16) (hadm : s.admits ses Obj.LEASE_REQUEST_MIB mib .sup) (hslots : s.leaseGrant mib ≠ 0) (hruns : s.policyRuns = true) :
    exec (.leaseRequest ses mib qpn rkey base) s = .next (((s.puts [(Obj.GRANT_SLOTS ses, s.leaseGrant mib), (Obj.GRANT_QPN ses, qpn), (Obj.GRANT_RKEY ses, rkey),
      (Obj.GRANT_BASE ses, base), (Obj.GRANT_LEASE_ID ses, s.u.mem.nextLease)]).withMem fun m => { m with
        lent := Tab.set m.lent m.nextLease {
          slots := s.leaseGrant mib, base := base, peer := (s.session ses).certKey, first := (s.lendAt (ceilDiv (s.leaseGrant mib * 4160) 4096)).getD 0 }
        nextLease := if m.nextLease = 65535 then 1 else m.nextLease + 1 }).sending (replies ses 0)) := by
  have hgrant := begun_leaseGrant s mib
  refine (exec_guarded_takes (decide_eq_true hses) rfl hadm (leaseRequest_grants ses (qpn := qpn) (rkey := rkey) (base := base) (by rw [hgrant]; exact hslots) hruns)).trans ?_
  rw [hgrant, run_fivePuts, also_run_mem, begun_u]
  refine congrArg (fun t : State => Host.Outcome.next (t.sending (replies ses 0))) (withMem_congr ?_)
  rw [puts_u]
  rfl

end

/-- A recall notes its deadline and gives notice. -/
theorem exec_leaseRecall {lease slots : Nat} {x : Lent} (hx : Tab.get? s.u.mem.lent lease = some x) (hnotice : s.get Obj.RECALL_NOTICE_MS ≠ 0) :
    exec (.leaseRecall lease slots) s = .next ((recallNotify lease).run ((s.withMem fun m => { m with
      lent := Tab.upd m.lent lease { slots := 0, base := 0, peer := 0 } fun x => { x with recalled := some (s.ns + s.get Obj.RECALL_NOTICE_MS * 1000000, slots) } }).sending [])) := by
  refine (need_when_yes (s := s) rfl (fun s => (Tab.get? s.u.mem.lent lease).isSome) _ (by rw [begun_u, hx]; rfl)).trans (congrArg Host.Outcome.next ?_)
  rw [run_all_cons, run_all_cons, run_all_cons, run_all_nil, run_when, begun_get, beq_eq_false_iff_ne.2 hnotice]
  rfl

theorem recalled_get {lease : Nat} {x : Lent} {r : Option (Nat × Nat)} (hx : Tab.get? s.u.mem.lent lease = some x) :
    Tab.get? (Tab.upd s.u.mem.lent lease { slots := 0, base := 0, peer := 0 } fun x => { x with recalled := r }) lease = some { x with recalled := r } := by
  rw [Tab.get?_upd, if_pos rfl, Tab.at, hx]
  rfl

theorem exec_recallNoticeExpiry_lent {lease : Nat} {x : Lent} (hx : Tab.get? s.u.mem.lent lease = some x) (hrec : x.recalled.isSome = true) :
    exec (.recallNoticeExpiry lease true) s = .next (((s.withMem fun m => { m with lent := Tab.del m.lent lease }).sending []).told) := by
  have hdel : (fun m : MemS => match Tab.get? m.lent lease with
      | some x => if x.recalled.isSome then { m with lent := Tab.del m.lent lease } else m
      | none => m) s.u.mem = { s.u.mem with lent := Tab.del s.u.mem.lent lease } := by
    simp only [hx, hrec, ↓reduceIte]
  refine (need_next s rfl _).trans (congrArg Host.Outcome.next ?_)
  rw [if_pos rfl, run_all_cons, run_all_cons, run_all_nil]
  exact congrArg (fun m => State.told ((s.withMem fun _ => m).sending [])) hdel

/-! ## The borrower -/

theorem readFails_noTile {tile : Nat} (h : Tab.get? s.u.mem.tiles tile = none) (detail : Nat) (jobs : List Nat) : (readFails tile detail jobs).run s = s := by
  rw [readFails, run_read, h]
  rfl

/-- A tile that has no replica is lost with a failed access, which no job waited for. -/
theorem readFails_lost {tile : Nat} {x : Tile} (hx : Tab.get? s.u.mem.tiles tile = some x) (hlost : x.lost = none) (hrep : x.replica = none) (detail : Nat) :
    ∃ t, (readFails tile detail []).run s = t ∧ Tab.get? t.u.mem.tiles tile = some { x with lost := some detail, migrating := none }
      ∧ t.lastEvent Ev.TILE_LOST x.ctx (s.tileAddr tile) detail ∧ t.bytes = s.bytes := by
  let l := s.withMem fun m => { m with tiles := Tab.set m.tiles tile { x with lost := some detail, migrating := none } }
  have htile : (Act.tile tile fun y => { y with lost := some detail, migrating := none }).run s = l := by
    show (s.withMem fun m => match Tab.get? m.tiles tile with
      | some y => { m with tiles := Tab.set m.tiles tile { y with lost := some detail, migrating := none } }
      | none => m) = l
    simp only [State.withMem, State.withUnits, hx, l]
  have hrun : (readFails tile detail []).run s = (logEv Ev.TILE_LOST x.ctx (s.tileAddr tile) detail).run l := by
    rw [readFails, run_read, hx]
    simp only
    rw [if_neg fun h => by rw [hrep] at h; exact absurd h.2 Bool.false_ne_true, homeFails, run_all_cons, run_all_cons, run_all_nil, run_each_nil, run_read, hx]
    simp only
    rw [hlost, if_neg (by decide : ¬(none : Option Nat).isSome = true), hrep]
    simp only
    rw [run_all_cons, run_all_cons, run_all_nil, htile]
  have hmem : ((logEv Ev.TILE_LOST x.ctx (s.tileAddr tile) detail).run l).u.mem = l.u.mem :=
    Act.SparesUnit.unit (f := fun u => u.mem) l (logEv_within _ _ _ _ trivial trivial fun _ => fun _ => rfl)
  refine ⟨_, hrun, ?_, logEv_lastEvent .., run_logEv_bytes ..⟩
  rw [hmem]
  exact (Tab.get?_set ..).trans (if_pos rfl)

end

/-- Settles O22: what the lender's commands leave of its leases, and what the borrower's count and lose. -/
theorem leasesAndPeers : Obligations.LeasesAndPeers := by
  unfold Obligations.LeasesAndPeers
  refine ⟨fun s ses lease hses => ⟨?_, fun x hx => ⟨fun hadm hpeer => ?_, fun slot bs hslot hlen => ?_, fun slot hslot => ?_, fun slots hnotice => ?_, fun deadline slots hrec => ⟨?_, ?_⟩⟩⟩, ?_⟩
  · intro mib qpn rkey base hadm slots
    refine ⟨fun hslots hruns => ?_, fun hno => ?_⟩
    · exact exec_leaseRequest_grants hses hadm hslots hruns
    · refine (exec_guarded_takes (decide_eq_true hses) rfl hadm (leaseRequest_refuses ses (qpn := qpn) (rkey := rkey) (base := base) ?_)).trans ?_
      · rw [begun_leaseGrant]
        exact hno
      · rw [run_fivePuts, run_all_nil, begun_also]
  · refine exec_guarded_takes (body := leaseRelease ses lease) (a := .mem fun m => { m with lent := Tab.del m.lent lease }) (decide_eq_true hses) rfl hadm ?_
    rw [leaseRelease, begun_u, hx]
    exact if_pos hpeer
  · refine (need_next s rfl _).trans (congrArg Host.Outcome.next ?_)
    rw [run_read, begun_u, hx]
    simp only
    rw [if_neg (not_le.2 hslot), if_neg (not_not.2 hlen), begun_lentAddr, State.lentAddr]
    rfl
  · refine (need_next s rfl _).trans (congrArg Host.Outcome.next ?_)
    rw [run_read, begun_u, hx]
    simp only
    rw [if_neg (not_le.2 hslot), begun_mread, begun_lentAddr, State.lentAddr]
    rfl
  · obtain ⟨hkept, hmem⟩ := recallNotify_keeps (s := (s.withMem fun m => { m with
      lent := Tab.upd m.lent lease { slots := 0, base := 0, peer := 0 } fun x => { x with recalled := some (s.ns + s.get Obj.RECALL_NOTICE_MS * 1000000, slots) } }).sending []) lease
    refine ⟨_, exec_leaseRecall hx hnotice, hkept, ?_⟩
    rw [hmem]
    exact recalled_get hx
  · obtain ⟨hkept, hmem⟩ := recallNotify_keeps (s := s.begun) lease
    exact ⟨_, need_next s rfl _, hkept, hmem, recallNotify_out (s := s.begun) hx hrec⟩
  · exact exec_recallNoticeExpiry_lent hx (by rw [hrec]; rfl)
  · intro s n tile job hn c
    have hwf : decide (n < 8) = true := decide_eq_true hn
    have hdone (write auth : Bool) : exec (.peerAccessDone n tile write auth job) s = .next ((if s.get Obj.PEER_TIMEOUT_US = 0 then
          .all [.count 32 Obj.PEER_TIMEOUTS 1, readFails tile 0x0411 job.toList]
        else .when (!write && !auth) (.all [.count 32 Obj.PEER_AUTH_FAILS 1, readFails tile 0x0412 job.toList]) : Act).run c).told := by
      refine (need_next s hwf _).trans (congrArg Host.Outcome.next ?_)
      rw [run_read, run_all_cons, run_all_cons, run_all_cons, run_all_nil]
      rfl
    have htimeout (job : Option Nat) : exec (.peerAccessTimeout n tile job) s = .next ((readFails tile 0x0411 job.toList).run (c.counted 32 Obj.PEER_TIMEOUTS 1)).told := by
      refine (need_next s hwf _).trans (congrArg Host.Outcome.next ?_)
      rw [run_all_cons, run_all_cons, run_all_cons, run_all_cons, run_all_nil]
      rfl
    have hcu : c.u = s.u := run_count_u (s.sending []) _ _ _
    have hmu (w k : Nat) : (c.counted w k 1).u = s.u := (run_count_u c w k 1).trans hcu
    refine ⟨fun write auth hset hok => ?_, fun hnone => ⟨?_, fun hzero write auth => ?_, fun hset => ?_⟩, fun x hx hlost hrep => ?_, fun hlease htiles => ?_⟩
    · rw [hdone, if_neg hset, run_when, ← Bool.not_or, hok]
      rfl
    · rw [htimeout, readFails_noTile (by rw [hmu]; exact hnone)]
    · rw [hdone, if_pos hzero, run_all_cons, run_all_cons, run_all_nil]
      exact congrArg (fun t => Host.Outcome.next (State.told t)) (readFails_noTile (by rw [run_count_u, hcu]; exact hnone) _ _)
    · rw [hdone, if_neg hset, run_when, if_pos (show (!false && !false) = true from rfl), run_all_cons, run_all_cons, run_all_nil]
      exact congrArg (fun t => Host.Outcome.next (State.told t)) (readFails_noTile (by rw [run_count_u, hcu]; exact hnone) _ _)
    · obtain ⟨t, hrun, htile, hevent, hbytes⟩ := readFails_lost (s := c.counted 32 Obj.PEER_TIMEOUTS 1) (by rw [hmu]; exact hx) hlost hrep 0x0411
      refine ⟨t, (htimeout none).trans (congrArg (fun t => Host.Outcome.next (State.told t)) hrun), htile, ?_, ?_⟩
      · rwa [State.tileAddr, hmu] at hevent
      · exact hbytes.trans ((run_count_bytes ..).trans (run_count_bytes ..))
    · have hgo : (s.begun.get (Obj.LEASE_STATE n) == 1 || s.begun.get (Obj.LEASE_STATE n) == 2) = true := by simpa using hlease
      have hrevoked : (leaseRevoked n).run s.begun = (s.putObj (Obj.LEASE_STATE n) 3).sending [] := by
        rw [leaseRevoked, run_read]
        simp only [begun_u, htiles]
        rw [run_when, if_pos hgo]
        rfl
      have hlent : (Act.when (decide (n < 8)) (leaseRevoked n)).run s.begun = (s.putObj (Obj.LEASE_STATE n) 3).sending [] := by
        rw [run_when, if_pos hwf, hrevoked]
      refine ⟨(need_next s hwf _).trans (congrArg Host.Outcome.next ?_), (need_next s rfl _).trans (congrArg Host.Outcome.next ?_)⟩
      · rw [run_all_cons, run_all_cons, run_all_nil, hrevoked]
        rfl
      · rw [if_neg Bool.false_ne_true, run_all_cons, run_all_cons, run_all_nil, hlent]
        rfl

end Sys2Proof.Machine
end

section
/-! PROOFS. Attestation reports, challenges, tokens, the end of a level, and debug (R455 to R459). -/

namespace Sys2Proof.Machine

theorem run_emit_begun (s : State) (e : Emit) : (Act.emit e).run s.begun = s.sending [e] := rfl

/-! ## Octet strings -/

theorem le_length (n : Nat) : ∀ v, (le n v).length = n := by
  induction n with
  | zero => exact fun _ => rfl
  | succ n ih => exact fun v => congrArg Nat.succ (ih _)

theorem ofLe_lt (bs : List Byte) : ofLe bs < 2 ^ (8 * bs.length) := by
  induction bs with
  | nil => exact Nat.one_pos
  | cons b bs ih =>
    have hb := b.isLt
    rw [List.length_cons, Nat.mul_add, pow_add]
    simp only [ofLe]
    omega

theorem length_flatMap_le (n : Nat) (v : Nat → Nat) : ((List.range n).flatMap fun i => le 8 (v i)).length = 8 * n := by
  simp [List.length_flatMap, le_length, Nat.mul_comm]

theorem oct_length (s : State) (k n : Nat) : (s.oct k (8 * n)).length = 8 * n := by
  have hslots : ceilDiv (8 * n) 8 = n := by unfold ceilDiv; omega
  rw [State.oct, List.length_take, hslots, length_flatMap_le, Nat.min_self]

theorem freeFrom_length (s : State) (i n : Nat) : (s.freeFrom i (8 * n)).length = 8 * n := by
  have hslots : ceilDiv (8 * n) 8 = n := by unfold ceilDiv; omega
  rw [State.freeFrom, List.length_take, hslots, length_flatMap_le, Nat.min_self]

theorem padTo_length (n : Nat) (bs : List Byte) : (padTo n bs).length = n := by
  rw [padTo, List.length_append, List.length_take, List.length_replicate]
  omega

/-- Of slots that are written in turn, each at a key of its own, one reads what it was given. -/
theorem each_put_get {α : Type} {k v : α → Nat} {xs : List α} (hk : ∀ x ∈ xs, ∀ y ∈ xs, k x = k y → x = y) {x : α} (hx : x ∈ xs) (s : State) :
    ((Act.each xs fun x => .put (k x) (v x)).run s).get (k x) = v x % 2 ^ 64 := by
  induction xs generalizing s with
  | nil => exact absurd hx List.not_mem_nil
  | cons y ys ih =>
    rw [run_each_cons]
    by_cases hmem : x ∈ ys
    · exact ih (fun a ha b hb => hk a (List.mem_cons_of_mem _ ha) b (List.mem_cons_of_mem _ hb)) hmem _
    · obtain rfl : x = y := (List.mem_cons.1 hx).resolve_right hmem
      have hrest (z : α) (hz : z ∈ ys) (t : State) : ((Act.put (k z) (v z)).run t).get (k x) = t.get (k x) :=
        (run_put_get ..).trans (if_neg fun e => hmem (by rwa [hk x (List.mem_cons_self ..) z (List.mem_cons_of_mem _ hz) e]))
      rw [run_each_keeps (fun t => t.get (k x)) _ ys hrest, run_put_get, if_pos rfl]

/-- A slot of an octet string holds its eight bytes. -/
theorem putOct_get (s : State) (k : Nat) (bs : List Byte) {i : Nat} (hi : i < ceilDiv bs.length 8) : ((putOct k bs).run s).get (k + i) = ofLe ((bs.drop (8 * i)).take 8) := by
  have hlt : ofLe ((bs.drop (8 * i)).take 8) < 2 ^ 64 :=
    (ofLe_lt _).trans_le (Nat.pow_le_pow_right Nat.two_pos (Nat.mul_le_mul_left 8 (List.length_take_le 8 _)))
  rw [putOct, each_put_get (k := fun i => k + i) (fun _ _ _ _ e => Nat.add_left_cancel e) (List.mem_range.2 hi), Nat.mod_eq_of_lt hlt]

theorem putOct_get_of_lt (s : State) {k j : Nat} (bs : List Byte) (h : j < k ∨ k + ceilDiv bs.length 8 ≤ j) : ((putOct k bs).run s).get j = s.get j :=
  run_each_keeps (fun t => t.get j) _ _ (fun i hi t => (run_put_get ..).trans (if_neg (by have := List.mem_range.1 hi; omega))) s

/-- An octet string changes live slots only. -/
theorem putOct_objs (k : Nat) (bs : List Byte) : (putOct k bs).Within (fun p => ∃ j, p = .obj j) fun _ => False :=
  putOct_within (fun j _ => ⟨j, rfl⟩) bs

section
variable (s : State) (k : Nat) (bs : List Byte)

theorem putOct_bytes : ((putOct k bs).run s).bytes = s.bytes := Act.Spares.bytes s (putOct_within (fun _ _ => nofun) bs)
theorem putOct_log : ((putOct k bs).run s).log = s.log := Act.Spares.log s (putOct_within (fun _ _ => nofun) bs)
theorem putOct_out : ((putOct k bs).run s).out = s.out := Act.Spares.out s (putOct_within (fun _ _ => nofun) bs)
theorem putOct_u : ((putOct k bs).run s).u = s.u := Act.SparesUnit.unit (f := id) s (putOct_within (fun _ _ => trivial) bs)
theorem putOct_freeCtr : ((putOct k bs).run s).freeCtr = s.freeCtr := run_each_keeps State.freeCtr _ _ (fun _ _ _ => rfl) s

end

/-! ## Writes that are turned away with something done besides -/

theorem exec_guarded_code {s : State} {c : Bool} {ses k v code : Nat} {l : Lvl} {a : Act} {body : State → WriteRes} (hc : c = true) (h : s.admits ses k v l)
    (hb : body s.begun = (code, a)) (hcode : code ≠ 0) :
    need c s (guarded ses k v l true body) = .next (((a.run s.begun).aborted ses code k).also (replies ses code)) := by
  rw [need_next s hc, guarded_admitted ((begun_admits ..).mpr h), hb, run_answer_no _ _ _ hcode]

/-- A token that is refused is void with its challenge. -/
theorem voided_aborted (s : State) (ses code k : Nat) :
    (((voidChallenge ses).run s.begun).aborted ses code k).also (replies ses code) = ((s.withSes ses fun x => { x with challenge := none }).aborted ses code k).sending (replies ses code) := by
  have hvoid : (voidChallenge ses).run s.begun = (s.withSes ses fun x => { x with challenge := none }).begun := rfl
  rw [hvoid]
  generalize s.withSes ses _ = t
  rw [State.aborted, puts_begun, begun_get, begun_also, State.aborted]

section
variable {s : State} {ses : Nat}

/-! ## Attestation -/

theorem begun_oct (s : State) (k n : Nat) : s.begun.oct k n = s.oct k n := rfl
theorem begun_freeFrom (s : State) (i n : Nat) : s.begun.freeFrom i n = s.freeFrom i n := rfl

theorem begun_reportHead (s : State) (ses : Nat) : s.begun.reportHead ses = s.reportHead ses := by
  unfold State.reportHead
  rfl

theorem reportHead_length (s : State) (ses : Nat) : (s.reportHead ses).length = 400 := by
  have h16 : (s.oct Obj.DEVICE_ID 16).length = 16 := oct_length s _ 2
  have h32 : (s.oct (Obj.ATTEST_NONCE ses) 32).length = 32 := oct_length s _ 4
  have h48 (k : Nat) : (s.oct k 48).length = 48 := oct_length s k 6
  have hctr (v : Nat → Nat) : ((List.range 4).flatMap fun i => le 4 (v i)).length = 16 := by simp [List.length_flatMap, le_length]
  unfold State.reportHead
  generalize 0x4D424154 = magic
  simp only [List.length_append, le_length, h16, h32, h48, hctr, padTo_length]

theorem exec_attestReportReady (hses : ses < 16) (hopen : s.isOpen ses = true) (hst : s.get (Obj.ATTEST_STATUS ses) = 1) :
    ∃ t : State, exec (.attestReportReady ses) s = .next t ∧ t.get (Obj.ATTEST_STATUS ses) = 2
      ∧ (∀ i < 50, t.get (Obj.ATTEST_REPORT ses + i) = ofLe (((s.reportHead ses).drop (8 * i)).take 8)) ∧ t.bytes = s.bytes ∧ t.log = s.log ∧ t.out = [] := by
  have hready : (s.begun.isOpen ses && s.begun.get (Obj.ATTEST_STATUS ses) == 1) = true := by rw [begun_isOpen, hopen, begun_get, hst]; rfl
  have hlen : (s.reportHead ses ++ s.freeFrom 0 96).length = 496 := by
    rw [List.length_append, reportHead_length, freeFrom_length s 0 12]
  refine ⟨_, need_next s (decide_eq_true hses) _, ?_⟩
  rw [run_read, run_when, if_pos hready, run_all_cons, run_all_cons, run_all_cons, run_all_nil, begun_reportHead, begun_freeFrom]
  refine ⟨(run_put_get ..).trans (if_pos rfl), fun i hi => ?_, by rw [run_put_bytes, run_draw_bytes, putOct_bytes, begun_bytes],
    by rw [run_put_log, run_draw_log, putOct_log, begun_log], by rw [run_put_out, run_draw_out, putOct_out, begun_out]⟩
  have hkeep : ((s.reportHead ses ++ s.freeFrom 0 96).drop (8 * i)).take 8 = ((s.reportHead ses).drop (8 * i)).take 8 := by
    have hl := reportHead_length s ses
    rw [List.drop_append_of_le_length (by omega), List.take_append_of_le_length (by rw [List.length_drop]; omega)]
  rw [run_put_get, if_neg (by unfold Obj.ATTEST_REPORT Obj.ATTEST_STATUS; omega), run_draw_get, putOct_get _ _ _ (by rw [hlen]; exact hi.trans (by decide)), hkeep]

/-! ## Challenges -/

theorem exec_authChallenge_draws (hses : ses < 16) (hopen : s.isOpen ses = true) (hdev : s.dev ≠ Dev.STANDBY) (hinit : s.dev ≠ Dev.INIT) :
    ∃ t : State, exec (.authChallenge ses) s = .next t ∧ (t.session ses).challenge = some (s.freeFrom 0 32) ∧ t.out = [.reply ses 0 (s.freeFrom 0 32)]
      ∧ t.freeCtr = s.freeCtr + 4 ∧ t.level ses = s.level ses ∧ t.bytes = s.bytes ∧ t.log = s.log := by
  have hserved : ¬ (¬ s.begun.isOpen ses = true ∨ s.begun.dev = Dev.STANDBY) := not_or.2 ⟨not_not.2 hopen, hdev⟩
  have hreads : stateReads s.begun.dev 0x2080 = true := by rw [begun_dev, stateReads, if_neg hdev, if_neg hinit]
  refine ⟨_, need_next s (decide_eq_true hses) _, ?_⟩
  rw [run_read, if_neg hserved, if_neg (not_not.2 hreads), run_all_cons, run_all_cons, run_all_nil, authChallenge, begun_freeFrom,
    run_all_cons, run_all_cons, run_all_cons, run_all_nil]
  have hlevel (t : State) : ((putOct (Obj.AUTH_CHALLENGE ses) (s.freeFrom 0 32)).run t).get (Obj.LEVEL ses) = t.get (Obj.LEVEL ses) :=
    putOct_get_of_lt _ _ (by rw [freeFrom_length s 0 4]; unfold Obj.LEVEL Obj.AUTH_CHALLENGE ceilDiv; omega)
  refine ⟨?_, ?_, ?_, ?_, ?_, ?_⟩
  · rw [run_emit_session, run_ses_session, if_pos rfl]
  · rw [run_emit_out, run_ses_out, putOct_out]
    rfl
  · exact putOct_freeCtr ..
  · exact hlevel _
  · exact putOct_bytes ..
  · exact putOct_log ..

/-! ## Tokens -/

theorem elevate_fails {k : Token} (h : s.tokenPasses ses 1 (5 + k.level) 4 k = false) : elevate ses ses (some k) s = (Ab.AUTH_FAILED, voidChallenge ses) :=
  (if_neg (not_not.2 rfl)).trans (if_neg (ne_true_of_eq_false h))

theorem elevate_passes {k : Token} (h : s.tokenPasses ses 1 (5 + k.level) 4 k = true) :
    elevate ses ses (some k) s = .ok (.all [voidChallenge ses, .put (Obj.LEVEL ses) k.level, .ses ses fun x => { x with token := true }]) :=
  (if_neg (not_not.2 rfl)).trans (if_pos h)

/-- A token that passes is of level 1 to 3. -/
theorem level_of_tokenPasses {kind role perm : Nat} {k : Token} (h : s.tokenPasses ses kind role perm k = true) : k.level ≤ 3 := by
  simp only [State.tokenPasses, Bool.and_eq_true, decide_eq_true_eq] at h
  omega

theorem exec_elevate_passes (hses : ses < 16) {k : Token} (hadm : s.admits ses (Obj.ELEVATE ses) 0 .host) (h : s.tokenPasses ses 1 (5 + k.level) 4 k = true) :
    ∃ t : State, exec (.elevate ses ses k) s = .next t ∧ t.level ses = k.level ∧ (t.session ses).token = true ∧ (t.session ses).challenge = none
      ∧ t.bytes = s.bytes ∧ t.log = s.log ∧ t.out = replies ses 0 := by
  have hlevel : k.level % 2 ^ 64 = k.level := Nat.mod_eq_of_lt (by have := level_of_tokenPasses h; omega)
  refine ⟨_, exec_guarded_takes (by simp [Wf.elevate, hses]) rfl hadm (elevate_passes (s := s.begun) h), ?_⟩
  rw [run_all_cons, run_all_cons, run_all_cons, run_all_nil]
  refine ⟨?_, ?_, ?_, rfl, rfl, rfl⟩
  · show ((Act.put (Obj.LEVEL ses) k.level).run _).get (Obj.LEVEL ses) = k.level
    rw [run_put_get, if_pos rfl, hlevel]
  · show (((Act.ses ses _).run _).session ses).token = true
    rw [run_ses_session, if_pos rfl]
  · show (((Act.ses ses _).run _).session ses).challenge = none
    rw [run_ses_session, if_pos rfl, run_put_session, voidChallenge, run_ses_session, if_pos rfl]

theorem debugToken_fails {k : Token} (h : s.tokenPasses ses 2 3 3 k = false) : debugToken ses (some k) s = (Ab.AUTH_FAILED, voidChallenge ses) :=
  if_pos (ne_true_of_eq_false h)

theorem debugToken_forbidden {k : Token} (h : s.tokenPasses ses 2 3 3 k = true) (hst : s.dev ≠ Dev.SERVICE ∨ (k.level = 3 ∧ s.get Obj.TEST_EN_LEVEL = 0)) :
    debugToken ses (some k) s = (Ab.STATE_FORBIDS, voidChallenge ses) :=
  (if_neg (not_not.2 h)).trans (if_pos hst)

theorem debugToken_passes {k : Token} (h : s.tokenPasses ses 2 3 3 k = true) (hdev : s.dev = Dev.SERVICE) (hpin : k.level = 3 → s.get Obj.TEST_EN_LEVEL ≠ 0) :
    debugToken ses (some k) s = .ok (.all [voidChallenge ses, .put Obj.DEBUG_LEVEL k.level, .modify Obj.DEBUG_SINCE_BOOT (max k.level),
      .boot fun b => { b with debugOf := some ses }]) :=
  (if_neg (not_not.2 h)).trans (if_neg (not_or.2 ⟨not_not.2 hdev, fun e => hpin e.1 e.2⟩))

theorem debugBegun_run (s : State) (ses level : Nat) (es : List Emit) :
    ((Act.all [voidChallenge ses, .put Obj.DEBUG_LEVEL level, .modify Obj.DEBUG_SINCE_BOOT (max level), .boot fun b => { b with debugOf := some ses }]).run s.begun).also es
      = (((s.withSes ses fun x => { x with challenge := none }).puts [(Obj.DEBUG_LEVEL, level), (Obj.DEBUG_SINCE_BOOT, max level (s.get Obj.DEBUG_SINCE_BOOT))]).withBoot
        fun b => { b with debugOf := some ses }).sending es := by
  have hvoid : (voidChallenge ses).run s.begun = (s.withSes ses fun x => { x with challenge := none }).begun := rfl
  have hget : (s.withSes ses fun x => { x with challenge := none }).get Obj.DEBUG_SINCE_BOOT = s.get Obj.DEBUG_SINCE_BOOT := rfl
  rw [run_all_cons, run_all_cons, run_all_cons, run_all_cons, run_all_nil, hvoid, run_put_begun, run_modify, begun_get, run_put_get, if_neg (by decide), hget,
    run_put_begun, puts_cons, puts_cons, puts_nil]
  rfl

end

/-- Settles O55: reports, challenges, tokens, levels and debug, each command under its own conditions. -/
theorem trustIsGiven : Obligations.TrustIsGiven := by
  unfold Obligations.TrustIsGiven
  intro s ses hses
  have hwf : decide (ses < 16) = true := decide_eq_true hses
  have hother {n : Nat} (hn : n < 16) : (decide (ses < 16) && decide (n < 16)) = true := by simp [hses, hn]
  refine ⟨fun hadm hrec => ?_, fun hadm hrec => ?_, fun hno => ?_, fun hno => ?_, fun hopen hinit => ?_, exec_attestReportReady hses, exec_authChallenge_draws hses,
    fun k hadm => ⟨exec_elevate_passes hses hadm, fun hfail => ?_⟩, fun k n hn hne => ⟨fun hadm => ?_, fun hadm => ?_⟩, ?_, fun k hadm => ?_, fun k hadm hpass hdev hpin => ?_, fun hadm => ?_⟩
  · exact exec_guarded_takes (body := attestGo ses) hwf rfl hadm (if_neg (ne_true_of_eq_false hrec))
  · exact exec_guarded_refused (body := attestGo ses) hwf hadm (if_pos hrec) (by decide)
  · have hnot : ¬ (s.begun.isOpen ses && s.begun.get (Obj.ATTEST_STATUS ses) == 1) = true := by
      rw [begun_isOpen, begun_get]
      simp only [Bool.and_eq_true, beq_iff_eq, not_and]
      exact fun hopen => hno.resolve_left (ne_false_of_eq_true hopen)
    refine (need_next s hwf _).trans ?_
    rw [run_read, run_when, if_neg hnot]
    rfl
  · have hshut : ¬ s.begun.isOpen ses = true ∨ s.begun.dev = Dev.STANDBY := hno.imp_left ne_true_of_eq_false
    refine (need_next s hwf _).trans ?_
    rw [run_read, if_pos hshut]
    rfl
  · have hserved : ¬ (¬ s.begun.isOpen ses = true ∨ s.begun.dev = Dev.STANDBY) := not_or.2 ⟨not_not.2 hopen, by rw [begun_dev, hinit]; decide⟩
    have hreads : ¬ stateReads s.begun.dev 0x2080 = true := by rw [begun_dev, hinit]; decide
    refine (need_next s hwf _).trans ?_
    rw [run_read, if_neg hserved, if_pos hreads, run_all_cons, run_all_cons, run_all_nil, recordAbort_run, State.aborted, begun_get, puts_begun, run_emit_begun, State.aborted]
  · exact (exec_guarded_code (hother hses) hadm (elevate_fails (s := s.begun) hfail) (by decide)).trans (congrArg _ (voided_aborted ..))
  · exact exec_guarded_refused (hother hn) hadm (if_pos hne.symm) (by decide)
  · exact exec_guarded_refused (hother hn) hadm (if_pos hne.symm) (by decide)
  · refine fun hadm => ⟨fun hmdp => ?_, fun hmdp => ?_⟩
    · rw [dropLevel_drops hses hadm, dropNow_run_of_not_mdp (s := s.begun) hmdp]
      rfl
    · rw [dropLevel_drops hses hadm, dropNow_run_of_mdp (s := s.begun) hmdp]
      rfl
  · refine ⟨fun hfail => ?_, fun hpass hst => ?_⟩
    · exact (exec_guarded_code hwf hadm (debugToken_fails (s := s.begun) hfail) (by decide)).trans (congrArg _ (voided_aborted ..))
    · exact (exec_guarded_code hwf hadm (debugToken_forbidden (s := s.begun) hpass hst) (by decide)).trans (congrArg _ (voided_aborted ..))
  · exact (exec_guarded_takes hwf rfl hadm (debugToken_passes (s := s.begun) hpass hdev hpin)).trans (congrArg _ (debugBegun_run ..))
  · exact debugEnd_ends_debug hses hadm

end Sys2Proof.Machine
end

section
/-! PROOFS. Power, shutdowns and RESET_N: what a reset leaves, and when the device leaves STANDBY (R436, R445, R508 to R511). -/

namespace Sys2Proof.Machine

/-! ## What every act keeps of what has been sent -/

theorem run_out_prefix (a : Act) : ∀ s : State, s.out <+: (a.run s).out := by
  induction a with
  | seq a b iha ihb => exact fun s => (iha s).trans (ihb _)
  | read f ih => exact fun s => ih s s
  | emit e => exact fun s => List.prefix_append _ _
  | _ => exact fun s => List.prefix_refl _

/-! ## A reset -/

theorem find?_filter (keep : Nat → Bool) (m : Slots) (k : Nat) : Slots.find? (m.filter fun e => keep e.1) k = if keep k then Slots.find? m k else none := by
  induction m with
  | nil => rw [List.filter_nil, Slots.find?, ite_self]
  | cons e m ih =>
    obtain ⟨j, w⟩ := e
    by_cases hj : keep j = true
    · rw [List.filter_cons, if_pos (by exact hj), Slots.find?, ih, Slots.find?]
      by_cases e : j = k
      · rw [if_pos e, if_pos e, if_pos (e ▸ hj)]
      · rw [if_neg e, if_neg e]
    · rw [List.filter_cons, if_neg (by exact hj), ih, Slots.find?]
      by_cases e : j = k
      · rw [if_neg (e ▸ hj), if_neg (e ▸ hj)]
      · rw [if_neg e]

@[simp] theorem run_resetObjs_get (s : State) (keep : Nat → Bool) (k : Nat) : ((Act.resetObjs keep).run s).get k = if keep k then s.get k else Obj.reset k := by
  show (match Slots.find? (s.objs.filter fun e => keep e.1) k with
    | some w => w.toNat
    | none => Obj.reset k) = _
  rw [find?_filter]
  by_cases h : keep k = true
  · rw [if_pos h, if_pos h]
    rfl
  · rw [if_neg h, if_neg h]

/-- What a reset ends before it clears the stores: a write to flash, the outputs and the lines that the module drives. -/
def haltOutputs (power : Bool) (s : State) : Act := .all [
  s.cutOff, deEnergise,
  .when s.u.safe.driving (.emit (.pin .safeHoldN true)),
  .when s.u.pow.thermtrip (.emit (.pin .thermtripN true)),
  .when (power && s.u.pow.alert) (.emit (.pin .alertN true))]

theorem wipeAll_run (power : Bool) (s : State) : (wipeAll power).run s
    = (Act.each (List.range 80) fun d => .put (Obj.DOM_STATE d) 0).run (lineLevel.run ((Act.units fun u => u.afterReset power).run
      ((Act.wipe 0 1152921504606846976).run ((Act.resetObjs (keepObj power)).run ((haltOutputs power s).run s))))) := rfl

theorem haltOutputs_within {A : Part → Prop} {R : (Units → Units) → Prop} (power : Bool) (s : State) (hobj : A (.obj Obj.OUT_STATE)) (hout : A .out)
    (hsafe : ∀ f, (Act.safe f).Within A R) (hslots : ∀ f : BootS → BootS, (∀ b, ∃ x, f b = { b with slots := x }) → (Act.boot f).Within A R) : (haltOutputs power s).Within A R := by
  have hcut : s.cutOff.Within A R := by
    rw [State.cutOff]
    split
    · exact hslots _ fun b => ⟨_, rfl⟩
    · trivial
  simp [haltOutputs, deEnergise, hcut, hobj, hout, hsafe]

/-- What a reset leaves of the state that it meets (R445). -/
structure Wiped (power : Bool) (s t : State) : Prop where
  get : ∀ j, j ≠ Obj.HOLD_N_LEVEL → (∀ d < 80, j ≠ Obj.DOM_STATE d) → t.get j = if keepObj power j then s.get j else Obj.reset j
  dom : ∀ d < 80, t.get (Obj.DOM_STATE d) = 0
  bytes : ∀ a < 2 ^ 60, Memory.read t.bytes a = 0
  log : t.log = s.log
  time : t.time = s.time
  out : s.out <+: t.out
  tt : t.u.tt = {}
  temps : t.u.pow.temps = s.u.pow.temps
  powered : t.u.boot.powered = s.u.boot.powered
  pwrGood : t.u.boot.pwrGood = s.u.boot.pwrGood
  carrierLow : t.u.boot.carrierLow = s.u.boot.carrierLow
  resetLow : t.u.boot.resetLow = s.u.boot.resetLow
  shut : t.u.boot.shut = s.u.boot.shut

theorem wiped (power : Bool) (s : State) : Wiped power s ((wipeAll power).run s) := by
  have hout := run_out_prefix (wipeAll power) s
  have hspares {p : Part} (hobj : .obj Obj.OUT_STATE ≠ p) (h : Part.out ≠ p) : (haltOutputs power s).Spares p :=
    haltOutputs_within power s hobj h (fun _ => trivial) fun _ _ => trivial
  have hget (j : Nat) (h : j ≠ Obj.OUT_STATE) : ((haltOutputs power s).run s).get j = s.get j := Act.Spares.get s (hspares (by simpa using h.symm) nofun)
  have hlog : ((haltOutputs power s).run s).log = s.log := Act.Spares.log s (hspares nofun nofun)
  have htime : ((haltOutputs power s).run s).time = s.time := Act.Spares.time s (hspares nofun nofun)
  have hunit {β : Type} (f : Units → β) (hsafe : ∀ x u, f { u with safe := x } = f u) (hslots : ∀ x u, f { u with boot := { u.boot with slots := x } } = f u) :
      f ((haltOutputs power s).run s).u = f s.u :=
    Act.SparesUnit.unit (f := f) s (haltOutputs_within power s trivial trivial (fun g u => hsafe (g u.safe) u) fun g hg u => by
      obtain ⟨x, hx⟩ := hg u.boot
      show f { u with boot := g u.boot } = f u
      rw [hx, hslots])
  have hboot {β : Type} (f : BootS → β) (hslots : ∀ x b, f { b with slots := x } = f b) : f ((haltOutputs power s).run s).u.boot = f s.u.boot :=
    hunit (fun u => f u.boot) (fun _ _ => rfl) fun x u => hslots x u.boot
  have htemps : ((haltOutputs power s).run s).u.pow.temps = s.u.pow.temps := hunit (fun u => u.pow.temps) (fun _ _ => rfl) fun _ _ => rfl
  have hpowered := hboot (·.powered) fun _ _ => rfl
  have hgood := hboot (·.pwrGood) fun _ _ => rfl
  have hcarrier := hboot (·.carrierLow) fun _ _ => rfl
  have hlow := hboot (·.resetLow) fun _ _ => rfl
  have hshut := hboot (·.shut) fun _ _ => rfl
  rw [wipeAll_run] at hout ⊢
  generalize (haltOutputs power s).run s = w at *
  have hdoms : (Act.each (List.range 80) fun d => .put (Obj.DOM_STATE d) 0).Within (fun p => ∃ d < 80, p = .obj (Obj.DOM_STATE d)) fun _ => False :=
    (within_each ..).2 fun d hd => ⟨d, List.mem_range.1 hd, rfl⟩
  have hdomsKeep {β : Type} (f : State → β) (h : ∀ k v t, f ((Act.put k v).run t) = f t) (t : State) : f ((Act.each (List.range 80) fun d => .put (Obj.DOM_STATE d) 0).run t) = f t :=
    run_each_keeps f _ _ (fun d _ u => h _ _ u) t
  exact {
    get := fun j hj hd => by
      have hkeep : keepObj power Obj.OUT_STATE = false := by cases power <;> decide
      rw [run_each_keeps (fun t => t.get j) _ _ fun d hd' t => (run_put_get ..).trans (if_neg (hd d (List.mem_range.1 hd'))), lineLevel, run_read, run_put_get, if_neg hj,
        run_units_get, run_wipe_get, run_resetObjs_get]
      by_cases hout : j = Obj.OUT_STATE
      · rw [hout, hkeep]
        rfl
      · rw [hget j hout]
    dom := fun d hd => by
      rw [each_put_get (k := fun d => Obj.DOM_STATE d) (fun a _ b _ e => by simp only [Obj.DOM_STATE] at e; omega) (List.mem_range.2 hd)]
      rfl
    bytes := fun a ha => by
      rw [hdomsKeep State.bytes (fun _ _ _ => rfl), lineLevel, run_read, run_put_bytes, run_units_bytes, run_wipe_bytes, Memory.read_wipe, if_neg (by omega)]
    log := by rw [hdomsKeep State.log (fun _ _ _ => rfl), lineLevel, run_read, run_put_log, run_units_log, run_wipe_log, run_resetObjs_log, hlog]
    time := by rw [hdomsKeep State.time (fun _ _ _ => rfl), lineLevel, run_read, run_put_time, run_units_time, run_wipe_time, run_resetObjs_time, htime]
    out := hout
    tt := by rw [hdomsKeep State.u (fun _ _ _ => rfl)]; rfl
    temps := by rw [hdomsKeep State.u (fun _ _ _ => rfl)]; exact htemps
    powered := by rw [hdomsKeep State.u (fun _ _ _ => rfl)]; exact hpowered
    pwrGood := by rw [hdomsKeep State.u (fun _ _ _ => rfl)]; exact hgood
    carrierLow := by rw [hdomsKeep State.u (fun _ _ _ => rfl)]; exact hcarrier
    resetLow := by rw [hdomsKeep State.u (fun _ _ _ => rfl)]; exact hlow
    shut := by rw [hdomsKeep State.u (fun _ _ _ => rfl)]; exact hshut }

/-! ## Boots and STANDBY -/

section
variable {s t : State}

theorem Wiped.get_kept {power : Bool} (h : Wiped power s t) {j : Nat} (hline : j ≠ Obj.HOLD_N_LEVEL) (hdom : ∀ d < 80, j ≠ Obj.DOM_STATE d) (hkeep : keepObj power j = true) :
    t.get j = s.get j := by
  rw [h.get j hline hdom, if_pos hkeep]

theorem Wiped.get_reset {power : Bool} (h : Wiped power s t) {j : Nat} (hline : j ≠ Obj.HOLD_N_LEVEL) (hdom : ∀ d < 80, j ≠ Obj.DOM_STATE d) (hkeep : keepObj power j = false) :
    t.get j = Obj.reset j := by
  rw [h.get j hline hdom, hkeep]
  rfl

theorem Wiped.closed {power : Bool} (h : Wiped power s t) : ∀ n < 16, t.get (Obj.TRANSPORT n) = 0 := fun n hn => by
  have hkeep : ∀ power, ∀ n < 16, keepObj power (Obj.TRANSPORT n) = false := by decide
  have hzero : ∀ n < 16, Obj.reset (Obj.TRANSPORT n) = 0 := by decide
  rw [h.get_reset (by unfold Obj.TRANSPORT Obj.HOLD_N_LEVEL; omega) (fun d hd => by unfold Obj.TRANSPORT Obj.DOM_STATE; omega) (hkeep _ n hn), hzero n hn]

/-- What a boot does once the stores are cleared (R442, R453). -/
def bootBegins (s : State) (cause : Nat) (warm : Bool) : Act := .all [
  .newLog,
  .put Obj.DEVICE_STATE Dev.INIT, .put Obj.AL_STATE 1,
  .put Obj.RESET_CAUSE cause, .count 32 Obj.BOOT_COUNT 1,
  .put (Obj.DOM_STATE 77) 2,
  .boot (fun b => { b with start := s.time, warm := warm, shut := none, rearmed := false })]

theorem booted_eq (s : State) (cause : Nat) (warm : Bool) : s.booted cause warm = (bootBegins s cause warm).run ((wipeAll false).run s) := rfl

theorem bootBegins_within {A : Part → Prop} {R : (Units → Units) → Prop} (s : State) (cause : Nat) (warm : Bool) (hlog : A .log)
    (hobj : ∀ j ∈ [Obj.DEVICE_STATE, Obj.AL_STATE, Obj.RESET_CAUSE, Obj.BOOT_COUNT, Obj.DOM_STATE 77], A (.obj j)) (hctr : A .ctr) (hboot : ∀ f, (Act.boot f).Within A R) :
    (bootBegins s cause warm).Within A R := by
  have hcount := within_count (A := A) (R := R) 32 Obj.BOOT_COUNT 1 (hobj _ (by simp)) hctr
  simp only [bootBegins, within_all_cons, within_all_nil, within_put, within_newLog, hlog, hcount, hboot, and_true, true_and]
  exact ⟨hobj _ (by simp), hobj _ (by simp), hobj _ (by simp), hobj _ (by simp)⟩

/-- What a boot keeps of an object that the reset keeps. -/
theorem booted_get {j : Nat} (hline : j ≠ Obj.HOLD_N_LEVEL) (hdom : ∀ d < 80, j ≠ Obj.DOM_STATE d) (hkeep : keepObj false j = true)
    (hne : j ∉ [Obj.DEVICE_STATE, Obj.AL_STATE, Obj.RESET_CAUSE, Obj.BOOT_COUNT]) (cause : Nat) (warm : Bool) : (s.booted cause warm).get j = s.get j := by
  rw [booted_eq, Act.Spares.get _ (bootBegins_within s cause warm nofun (fun i hi e => ?_) nofun fun _ => trivial), (wiped false s).get_kept hline hdom hkeep]
  obtain rfl : i = j := Part.obj.inj e
  simp only [List.mem_cons, List.not_mem_nil, or_false] at hi hne
  have := hdom 77 (by decide)
  tauto

theorem booted_run (hcount : s.get Obj.BOOT_COUNT + 1 < 2 ^ 32) {cause : Nat} (hcause : cause < 2 ^ 64) (warm : Bool) (ht : s.booted cause warm = t) :
    t.dev = Dev.INIT ∧ t.get Obj.RESET_CAUSE = cause ∧ t.get Obj.BOOT_COUNT = s.get Obj.BOOT_COUNT + 1 := by
  have hw := wiped false s
  rw [booted_eq] at ht
  generalize (wipeAll false).run s = w at hw ht
  have hboots : w.get Obj.BOOT_COUNT = s.get Obj.BOOT_COUNT := hw.get_kept (by decide) (by decide) (by decide)
  rw [bootBegins, run_all_cons, run_all_cons, run_all_cons, run_all_cons] at ht
  generalize hv : (Act.put Obj.RESET_CAUSE cause).run _ = v at ht
  have hget : v.get Obj.BOOT_COUNT = s.get Obj.BOOT_COUNT := by
    rw [← hv, run_put_get, if_neg (by decide), run_put_get, if_neg (by decide), run_put_get, if_neg (by decide), run_newLog_get, hboots]
  have hstate : v.get Obj.DEVICE_STATE = Dev.INIT := by rw [← hv, run_put_get, if_neg (by decide), run_put_get, if_neg (by decide), run_put_get, if_pos rfl]; rfl
  have hreset : v.get Obj.RESET_CAUSE = cause := by rw [← hv, run_put_get, if_pos rfl, Nat.mod_eq_of_lt hcause]
  rw [run_all_cons, run_all_cons, run_all_cons, run_all_nil, run_count v (by rw [hget]; exact hcount), hget] at ht
  have hafter (j : Nat) (h : j ≠ Obj.DOM_STATE 77) (h' : j ≠ Obj.BOOT_COUNT) : t.get j = v.get j := by
    rw [← ht]
    exact (run_units_get ..).trans ((run_put_get ..).trans ((if_neg h).trans ((run_put_get ..).trans (if_neg h'))))
  refine ⟨(hafter Obj.DEVICE_STATE (by decide) (by decide)).trans hstate, (hafter _ (by decide) (by decide)).trans hreset, ?_⟩
  rw [← ht]
  exact (run_units_get ..).trans ((run_put_get ..).trans ((if_neg (by decide)).trans ((run_put_get ..).trans ((if_pos rfl).trans (Nat.mod_eq_of_lt (by omega))))))

theorem booted_keeps (cause : Nat) (warm : Bool) (ht : s.booted cause warm = t) : t.time = s.time ∧ t.log.total = 0 ∧ t.log.flash = s.log.flash ∧ (∀ n < 16, t.isOpen n = false)
    ∧ (∀ a < 2 ^ 60, Memory.read t.bytes a = 0) ∧ t.u.boot.powered = s.u.boot.powered ∧ t.u.boot.pwrGood = s.u.boot.pwrGood ∧ t.u.boot.shut = none ∧ s.out <+: t.out := by
  have hw := wiped false s
  rw [booted_eq] at ht
  generalize (wipeAll false).run s = w at hw ht
  have hspares {p : Part} (hlog : Part.log ≠ p) (hobj : ∀ j ∈ [Obj.DEVICE_STATE, Obj.AL_STATE, Obj.RESET_CAUSE, Obj.BOOT_COUNT, Obj.DOM_STATE 77], .obj j ≠ p) (hctr : Part.ctr ≠ p) :
      (bootBegins s cause warm).Spares p := bootBegins_within s cause warm hlog hobj hctr fun _ => trivial
  have hbytes : t.bytes = w.bytes := by rw [← ht]; exact Act.Spares.bytes w (hspares nofun (fun _ _ => nofun) nofun)
  have htime : t.time = w.time := by rw [← ht]; exact Act.Spares.time w (hspares nofun (fun _ _ => nofun) nofun)
  have hout : t.out = w.out := by rw [← ht]; exact Act.Spares.out w (hspares nofun (fun _ _ => nofun) nofun)
  rw [bootBegins, run_all_cons] at ht
  have hlog : t.log = (Act.newLog.run w).log := by
    rw [← ht, run_all_cons, run_all_cons, run_all_cons, run_all_cons, run_all_cons, run_all_cons, run_all_nil, Act.boot, run_units_log, run_put_log, run_count_log,
      run_put_log, run_put_log, run_put_log]
  have hboot : t.u.boot = { w.u.boot with start := s.time, warm := warm, shut := none, rearmed := false } := by
    rw [← ht, run_all_cons, run_all_cons, run_all_cons, run_all_cons, run_all_cons, run_all_cons, run_all_nil, Act.boot, run_units_u, run_put_u, run_count_u, run_put_u,
      run_put_u, run_put_u, run_newLog_u]
  have hopen (n : Nat) (hn : n < 16) : t.get (Obj.TRANSPORT n) = 0 := by
    have hkeep : (bootBegins s cause warm).Spares (.obj (Obj.TRANSPORT n)) := hspares nofun (fun j hj e => by
      obtain rfl : j = Obj.TRANSPORT n := Part.obj.inj e
      revert hj
      unfold Obj.TRANSPORT Obj.DEVICE_STATE Obj.AL_STATE Obj.RESET_CAUSE Obj.BOOT_COUNT Obj.DOM_STATE
      simp only [List.mem_cons, List.not_mem_nil, or_false]
      omega) nofun
    rw [← hw.closed n hn, ← ht, ← run_all_cons]
    exact Act.Spares.get w hkeep
  refine ⟨htime.trans hw.time, by rw [hlog]; rfl, by rw [hlog]; show w.log.flash = s.log.flash; rw [hw.log], fun n hn => bne_eq_false_iff_eq.2 (hopen n hn),
    fun a ha => by rw [hbytes]; exact hw.bytes a ha, by rw [hboot]; exact hw.powered, by rw [hboot]; exact hw.pwrGood, by rw [hboot], by rw [hout]; exact hw.out⟩

theorem run_boot (s : State) (f : BootS → BootS) : (Act.boot f).run s = s.withBoot f := rfl
theorem begun_booted (s : State) (cause : Nat) (warm : Bool) : (beginBoot cause warm).run s.begun = (s.sending []).booted cause warm := rfl

theorem leaveStandby_run (s : State) : leaveStandby.run s
    = if s.dev = Dev.STANDBY ∧ s.u.boot.powered = true ∧ s.u.boot.pwrGood = true ∧ s.u.boot.carrierLow = false ∧ s.resetHeld = false then s.booted s.u.boot.cause false else s := by
  rw [leaveStandby, run_read, run_when]
  refine if_congr ?_ rfl rfl
  simp [and_assoc]

/-- What entering STANDBY leaves (R436, R440, R509). -/
theorem standby_run (why : Option Nat) {cause : Nat} (ht : s.standby why cause = t) : t.dev = Dev.STANDBY ∧ t.u.boot.shut = why ∧ t.u.boot.cause = cause ∧ t.u.boot.pwrGood = false
    ∧ (∀ n < 16, t.isOpen n = false) ∧ (∀ a < 2 ^ 60, Memory.read t.bytes a = 0) ∧ (∀ d < 80, t.get (Obj.DOM_STATE d) = 0) ∧ t.get Obj.OUT_STATE = 0
    ∧ t.log.flash = (s.log.toFlash.reverse ++ s.log.flash).take 256 ∧ t.log.toFlash = [] ∧ t.log.ring = s.log.ring ∧ t.u.tt = {}
    ∧ (s.u.boot.pwrGood = true → Emit.pin .pwrGood false ∈ t.out) := by
  rw [State.standby, enterStandby, run_read, run_all_cons, run_all_cons, run_when] at ht
  generalize hv : (if s.u.boot.pwrGood = true then _ else _ : State) = v at ht
  have hw := wiped false v
  have hlog : v.log = { s.log with
      flash := (s.log.toFlash.reverse ++ s.log.flash).take 256, flashCount := s.log.flashCount + s.log.toFlash.length, toFlash := [] } := by
    have hcopied : ((flashCopy s.log.toFlash.length).run s).log = { s.log with
        flash := (s.log.toFlash.reverse ++ s.log.flash).take 256, flashCount := s.log.flashCount + s.log.toFlash.length, toFlash := [] } := by
      simp [flashCopy, Act.run]
    rw [← hv, apply_ite State.log, run_emit_log, ite_self, hcopied]
  have hout (h : s.u.boot.pwrGood = true) : Emit.pin .pwrGood false ∈ v.out := by
    rw [← hv, if_pos h, run_emit_out]
    exact List.mem_append_right _ (List.mem_singleton_self _)
  rw [run_all_cons] at ht
  generalize (wipeAll false).run v = w at hw ht
  rw [run_all_cons, run_all_cons, run_all_nil] at ht
  have hget (j : Nat) (h : j ≠ Obj.DEVICE_STATE) : t.get j = w.get j := by
    rw [← ht]
    exact (run_units_get ..).trans ((run_put_get ..).trans (if_neg h))
  have hboot : t.u.boot = { w.u.boot with pwrGood := false, shut := why, rearmed := false, cause := cause } := by rw [← ht]; rfl
  have htlog : t.log = v.log := by rw [← ht]; exact hw.log
  have hzero : Obj.reset Obj.OUT_STATE = 0 := by decide
  refine ⟨?_, by rw [hboot], by rw [hboot], by rw [hboot], fun n hn => ?_, fun a ha => ?_, fun d hd => ?_, ?_, by rw [htlog, hlog], by rw [htlog, hlog], by rw [htlog, hlog], ?_, fun h => ?_⟩
  · rw [← ht]
    exact (run_units_get ..).trans ((run_put_get ..).trans (if_pos rfl))
  · exact bne_eq_false_iff_eq.2 ((hget _ (by unfold Obj.TRANSPORT Obj.DEVICE_STATE; omega)).trans (hw.closed n hn))
  · rw [← ht]
    exact hw.bytes a ha
  · exact (hget _ (by unfold Obj.DOM_STATE Obj.DEVICE_STATE; omega)).trans (hw.dom d hd)
  · rw [hget _ (by decide), hw.get_reset (by decide) (by decide) (by decide), hzero]
  · rw [← ht]
    exact hw.tt
  · rw [← ht]
    exact hw.out.subset (hout h)

/-! ## POWER_ON -/

/-- What the module shows once its input has risen: the straps, the input, time at 0 (R508). -/
def strapped (addr : Nat) (refclk : Bool) (mv : Nat) : Act := .all [
  .newLog, .setTime 0,
  .put Obj.DEVICE_STATE Dev.STANDBY,
  .put Obj.PMBUS_ADDRESS (0x40 + addr), .put Obj.REFCLK_SEL_LEVEL (if refclk then 1 else 0),
  .put Obj.INPUT_MV mv, .put Obj.BLADE_MV mv, .put Obj.SENSE_VALID 1,
  .boot (fun b => { b with powered := true, pwrGood := false, cause := 0, rearmed := true })]

theorem exec_powerOn {addr mv : Nat} (haddr : addr < 8) (hlow : 38000 < mv) (hhigh : mv ≤ 60000) (refclk : Bool) (hv : (strapped addr refclk mv).run ((wipeAll true).run s.begun) = t) :
    exec (.powerOn addr refclk mv) s = .next (if t.u.boot.shut ≠ some 0 ∨ t.coolRestart = true then releasePwrGood.run t else t) := by
  have hmv : ¬ (mv ≤ 38000 ∨ 60000 < mv) := by omega
  refine (need_next s (decide_eq_true haddr) _).trans (congrArg Host.Outcome.next ?_)
  rw [if_neg hmv]
  refine Eq.trans (b := (Act.when (t.u.boot.shut != some 0 || t.coolRestart) releasePwrGood).run t) (by rw [← hv]; rfl) ?_
  rw [run_when]
  exact if_congr (by simp) rfl rfl

/-- What a module that has risen shows, whether it boots or waits. -/
structure Risen (s : State) (addr : Nat) (refclk : Bool) (mv : Nat) (t : State) : Prop where
  input : t.get Obj.INPUT_MV = mv
  blade : t.get Obj.BLADE_MV = mv
  sense : t.get Obj.SENSE_VALID = 1
  address : t.get Obj.PMBUS_ADDRESS = 0x40 + addr
  straps : t.get Obj.REFCLK_SEL_LEVEL = if refclk then 1 else 0
  time : t.time = 0
  powered : t.u.boot.powered = true
  total : t.log.total = 0
  flash : t.log.flash = s.log.flash
  shut : ∀ n < 16, t.isOpen n = false
  bytes : ∀ a < 2 ^ 60, Memory.read t.bytes a = 0

/-- A boot keeps what the module shows since it has risen. -/
theorem Risen.booted {addr mv : Nat} {refclk : Bool} {v : State} (h : Risen s addr refclk mv v) (cause : Nat) (warm : Bool) : Risen s addr refclk mv (v.booted cause warm) := by
  obtain ⟨htime, htotal, hflash, hopen, hbytes, hpowered, -⟩ := booted_keeps cause warm (rfl : v.booted cause warm = _)
  have hget {j : Nat} (hline : j ≠ Obj.HOLD_N_LEVEL) (hdom : ∀ d < 80, j ≠ Obj.DOM_STATE d) (hkeep : keepObj false j = true)
      (hne : j ∉ [Obj.DEVICE_STATE, Obj.AL_STATE, Obj.RESET_CAUSE, Obj.BOOT_COUNT]) : (v.booted cause warm).get j = v.get j := booted_get hline hdom hkeep hne cause warm
  exact {
    input := (hget (by decide) (by decide) (by decide) (by decide)).trans h.input
    blade := (hget (by decide) (by decide) (by decide) (by decide)).trans h.blade
    sense := (hget (by decide) (by decide) (by decide) (by decide)).trans h.sense
    address := (hget (by decide) (by decide) (by decide) (by decide)).trans h.address
    straps := (hget (by decide) (by decide) (by decide) (by decide)).trans h.straps
    time := htime.trans h.time
    powered := hpowered.trans h.powered
    total := htotal
    flash := hflash.trans h.flash
    shut := hopen
    bytes := hbytes }

/-- What the straps find after the reset of a power-on. -/
theorem strapped_run {addr mv : Nat} (haddr : addr < 8) (hhigh : mv ≤ 60000) (refclk : Bool) (hv : (strapped addr refclk mv).run ((wipeAll true).run s.begun) = t) :
    Risen s addr refclk mv t ∧ t.dev = Dev.STANDBY ∧ t.get Obj.BOOT_COUNT = s.get Obj.BOOT_COUNT ∧ t.get Obj.PIN_CONTROL_ACTIVE = 0 ∧ t.u.boot.cause = 0 ∧ t.u.boot.pwrGood = false
      ∧ t.u.boot.shut = s.u.boot.shut ∧ t.u.boot.carrierLow = s.u.boot.carrierLow ∧ t.u.boot.resetLow = s.u.boot.resetLow ∧ t.coolRestart = s.coolRestart := by
  have hw := wiped true s.begun
  generalize (wipeAll true).run s.begun = w at hw hv
  rw [strapped, run_all_cons, run_all_cons, run_all_cons, run_all_cons, run_all_cons, run_all_cons, run_all_cons, run_all_cons, run_all_cons, run_all_nil] at hv
  generalize hp : (Act.setTime 0).run (Act.newLog.run w) = p at hv
  have hpget (j : Nat) : p.get j = w.get j := by rw [← hp]; rfl
  have hget (j : Nat) : t.get j = (p.puts [(Obj.DEVICE_STATE, Dev.STANDBY), (Obj.PMBUS_ADDRESS, 0x40 + addr), (Obj.REFCLK_SEL_LEVEL, if refclk then 1 else 0),
      (Obj.INPUT_MV, mv), (Obj.BLADE_MV, mv), (Obj.SENSE_VALID, 1)]).get j := by
    rw [← hv, puts_cons, puts_cons, puts_cons, puts_cons, puts_cons, puts_cons, puts_nil]
    exact run_units_get ..
  have hother {j : Nat} (h : j ∉ [Obj.DEVICE_STATE, Obj.PMBUS_ADDRESS, Obj.REFCLK_SEL_LEVEL, Obj.INPUT_MV, Obj.BLADE_MV, Obj.SENSE_VALID]) : t.get j = w.get j :=
    (hget j).trans ((puts_get_of_not_mem _ _ _ fun e he hj => h (by rw [← hj]; exact List.mem_map_of_mem (f := Prod.fst) he)).trans (hpget j))
  have hu : t.u = { w.u with boot := { w.u.boot with powered := true, pwrGood := false, cause := 0, rearmed := true } } := by rw [← hv, ← hp]; rfl
  have hlog : t.log = (Act.newLog.run w).log := by rw [← hv, ← hp]; rfl
  have hcool : t.coolRestart = s.coolRestart := by
    have htemps : t.u.pow.temps = s.u.pow.temps := by rw [hu]; exact hw.temps
    rw [State.coolRestart, htemps, State.coolRestart]
  simp only [puts_cons, puts_nil, run_put_get] at hget
  have hpin : Obj.reset Obj.PIN_CONTROL_ACTIVE = 0 := by decide
  have hlevel : (if refclk = true then 1 else 0) < 2 ^ 64 := by cases refclk <;> decide
  refine ⟨?_, ?_, ?_, ?_, by rw [hu], by rw [hu], by rw [hu]; exact hw.shut, by rw [hu]; exact hw.carrierLow, by rw [hu]; exact hw.resetLow, hcool⟩
  · exact {
      input := by rw [hget]; simp [Obj.INPUT_MV, Obj.SENSE_VALID, Obj.BLADE_MV]; omega
      blade := by rw [hget]; simp [Obj.SENSE_VALID, Obj.BLADE_MV]; omega
      sense := by rw [hget]; rfl
      address := by rw [hget]; simp [Obj.INPUT_MV, Obj.SENSE_VALID, Obj.BLADE_MV, Obj.PMBUS_ADDRESS, Obj.REFCLK_SEL_LEVEL]; omega
      straps := by rw [hget]; simpa [Obj.INPUT_MV, Obj.SENSE_VALID, Obj.BLADE_MV, Obj.REFCLK_SEL_LEVEL] using Nat.mod_eq_of_lt hlevel
      time := by rw [← hv, ← hp]; rfl
      powered := by rw [hu]
      total := by rw [hlog]; rfl
      flash := by
        rw [hlog]
        show w.log.flash = s.log.flash
        rw [hw.log, begun_log]
      shut := fun n hn => bne_eq_false_iff_eq.2 ((hother (by
        unfold Obj.TRANSPORT Obj.DEVICE_STATE Obj.PMBUS_ADDRESS Obj.REFCLK_SEL_LEVEL Obj.INPUT_MV Obj.BLADE_MV Obj.SENSE_VALID
        simp only [List.mem_cons, List.not_mem_nil, or_false]
        omega)).trans (hw.closed n hn))
      bytes := fun a ha => by rw [← hv, ← hp]; exact hw.bytes a ha }
  · exact (hget Obj.DEVICE_STATE).trans rfl
  · exact (hother (by decide)).trans (hw.get_kept (by decide) (by decide) (by decide))
  · rw [hother (by decide), hw.get_reset (by decide) (by decide) (by decide), hpin]

theorem releasePwrGood_run (s : State) : releasePwrGood.run s
    = leaveStandby.run ((s.also [.pin .pwrGood true]).withBoot fun b => { b with pwrGood := true, shut := none, rearmed := false }) := rfl

theorem exec_powerOn_rises {addr mv : Nat} (haddr : addr < 8) (hlow : 38000 < mv) (hhigh : mv ≤ 60000) (refclk : Bool) (hcount : s.get Obj.BOOT_COUNT + 1 < 2 ^ 32) :
    ∃ t : State, exec (.powerOn addr refclk mv) s = .next t ∧ Risen s addr refclk mv t
      ∧ ((s.u.boot.shut ≠ some 0 ∨ s.coolRestart = true) → t.u.boot.pwrGood = true ∧ t.u.boot.shut = none ∧ Emit.pin .pwrGood true ∈ t.out
        ∧ (s.u.boot.carrierLow = false → s.u.boot.resetLow = false → t.dev = Dev.INIT ∧ t.get Obj.RESET_CAUSE = 0 ∧ t.get Obj.BOOT_COUNT = s.get Obj.BOOT_COUNT + 1))
      ∧ ((s.u.boot.shut = some 0 ∧ s.coolRestart = false) → t.u.boot.pwrGood = false ∧ t.u.boot.shut = some 0)
      ∧ ((s.u.boot.shut = some 0 ∧ s.coolRestart = false) ∨ s.u.boot.carrierLow = true ∨ s.u.boot.resetLow = true →
        t.dev = Dev.STANDBY ∧ t.get Obj.BOOT_COUNT = s.get Obj.BOOT_COUNT) := by
  have hexec := exec_powerOn haddr hlow hhigh refclk (rfl : (strapped addr refclk mv).run ((wipeAll true).run s.begun) = _)
  obtain ⟨hrisen, hdev, hboots, hpin, hcause, hgood, hshut, hcarrier, hreset, hcool⟩ := strapped_run haddr hhigh refclk (rfl : (strapped addr refclk mv).run ((wipeAll true).run s.begun) = _)
  generalize (strapped addr refclk mv).run ((wipeAll true).run s.begun) = v at *
  rw [hshut, hcool] at hexec
  by_cases hready : s.u.boot.shut ≠ some 0 ∨ s.coolRestart = true
  · have hwaits : ¬ (s.u.boot.shut = some 0 ∧ s.coolRestart = false) := fun h => hready.elim (fun h' => h' h.1) fun h' => by rw [h.2] at h'; exact Bool.false_ne_true h'
    rw [if_pos hready, releasePwrGood_run] at hexec
    generalize hv2 : ((v.also [.pin .pwrGood true]).withBoot fun b => { b with pwrGood := true, shut := none, rearmed := false }) = v2 at hexec
    have hrisen2 : Risen s addr refclk mv v2 := by rw [← hv2]; exact { hrisen with }
    have hout : Emit.pin .pwrGood true ∈ v2.out := by rw [← hv2]; exact List.mem_append_right _ (List.mem_singleton_self _)
    have hget (j : Nat) : v2.get j = v.get j := by rw [← hv2]; rfl
    have hboot : v2.u.boot = { v.u.boot with pwrGood := true, shut := none, rearmed := false } := by rw [← hv2]; rfl
    have hheld : v2.resetHeld = s.u.boot.resetLow := by rw [State.resetHeld, hget, hpin, hboot, hreset]; exact Bool.or_false _
    have hcond : (v2.dev = Dev.STANDBY ∧ v2.u.boot.powered = true ∧ v2.u.boot.pwrGood = true ∧ v2.u.boot.carrierLow = false ∧ v2.resetHeld = false)
        ↔ s.u.boot.carrierLow = false ∧ s.u.boot.resetLow = false := by
      have hdev2 : v2.dev = Dev.STANDBY := (hget _).trans hdev
      have hpow : v2.u.boot.powered = true := hrisen2.powered
      have hgood2 : v2.u.boot.pwrGood = true := by rw [hboot]
      have hcar : v2.u.boot.carrierLow = s.u.boot.carrierLow := by rw [hboot]; exact hcarrier
      rw [hheld, hcar]
      exact ⟨fun h => h.2.2.2, fun h => ⟨hdev2, hpow, hgood2, h⟩⟩
    have hcause2 : v2.u.boot.cause = 0 := by rw [hboot]; exact hcause
    rw [leaveStandby_run, if_congr hcond rfl rfl, hcause2] at hexec
    by_cases hfree : s.u.boot.carrierLow = false ∧ s.u.boot.resetLow = false
    · rw [if_pos hfree] at hexec
      have hstarts := booted_run (s := v2) (by rw [hget, hboots]; exact hcount) (cause := 0) (by decide) false rfl
      obtain ⟨-, -, -, -, -, -, hgoodK, hshutK, houtK⟩ := booted_keeps (s := v2) 0 false rfl
      rw [hget, hboots] at hstarts
      refine ⟨_, hexec, hrisen2.booted 0 false, fun _ => ⟨hgoodK.trans (by rw [hboot]), hshutK, houtK.subset hout, fun _ _ => hstarts⟩, fun h => absurd h hwaits, fun h => ?_⟩
      exact h.elim (fun h => absurd h hwaits) fun h => h.elim (fun h => absurd h (ne_true_of_eq_false hfree.1)) fun h => absurd h (ne_true_of_eq_false hfree.2)
    · rw [if_neg hfree] at hexec
      exact ⟨_, hexec, hrisen2, fun _ => ⟨by rw [hboot], by rw [hboot], hout, fun h1 h2 => absurd ⟨h1, h2⟩ hfree⟩, fun h => absurd h hwaits,
        fun _ => ⟨(hget _).trans hdev, (hget _).trans hboots⟩⟩
  · rw [if_neg hready] at hexec
    have hwaits : s.u.boot.shut = some 0 := not_not.1 (not_or.1 hready).1
    exact ⟨_, hexec, hrisen, fun h => absurd h hready, fun _ => ⟨hgood, hshut.trans hwaits⟩, fun _ => ⟨hdev, hboots⟩⟩

/-! ## Commands that wait, restart or do nothing -/

theorem exec_powerLoss_off (h : s.u.boot.powered = false) : exec .powerLoss s = .next (s.sending []) :=
  need_when_no rfl (fun s => s.u.boot.powered) _ h

theorem exec_powerLoss_on (h : s.u.boot.powered = true) : ∃ t : State, exec .powerLoss s = .next t ∧ t.dev = Dev.STANDBY ∧ t.u.boot.powered = false ∧ t.u.boot.pwrGood = false
    ∧ (∀ n < 16, t.isOpen n = false) ∧ t.u.boot.shut = (if s.u.boot.shut = some 0 then some 0 else none)
    ∧ t.log.flash = (s.log.toFlash.reverse ++ s.log.flash).take 256 ∧ t.log.toFlash = [] ∧ (∀ a < 2 ^ 60, Memory.read t.bytes a = 0) := by
  have hexec : exec .powerLoss s = .next ((Act.all [wipeAll true, .put Obj.DEVICE_STATE Dev.STANDBY, .boot fun b => { b with powered := false }]).run
      (s.begun.standby (if s.u.boot.shut = some 0 then some 0 else none) 0)) := need_when_yes rfl (fun s => s.u.boot.powered) _ h
  obtain ⟨-, hshut, -, hgood, -, -, -, -, hflash, htoFlash, -, -, -⟩ := standby_run (s := s.begun) (if s.u.boot.shut = some 0 then some 0 else none) (cause := 0) rfl
  generalize s.begun.standby _ 0 = v at *
  have hw := wiped true v
  rw [run_all_cons] at hexec
  generalize (wipeAll true).run v = w at *
  refine ⟨_, hexec, ?_, rfl, hw.pwrGood.trans hgood, fun n hn => ?_, hw.shut.trans hshut, ?_, ?_, hw.bytes⟩
  · rw [run_all_cons, run_all_cons, run_all_nil, State.dev, Act.boot, run_units_get, run_put_get, if_pos rfl]
    rfl
  · refine bne_eq_false_iff_eq.2 (Eq.trans ?_ (hw.closed n hn))
    rw [run_all_cons, run_all_cons, run_all_nil]
    exact (run_units_get ..).trans ((run_put_get ..).trans (if_neg (by unfold Obj.TRANSPORT Obj.DEVICE_STATE; omega)))
  · show w.log.flash = _
    rw [hw.log, hflash, begun_log]
  · show w.log.toFlash = []
    rw [hw.log, htoFlash]

/-- The condition under which a shutdown ends: the module is powered in STANDBY, and what it waits for has come (R539). -/
def State.mayRestart (s : State) (mv : Nat) : Bool := s.dev == Dev.STANDBY && s.u.boot.powered && match s.u.boot.shut with
  | some 1 => decide (38000 ≤ mv ∧ mv ≤ 60000)
  | some _ => s.u.boot.rearmed && s.coolRestart
  | none => false

theorem exec_shutdownRestart (mv : Nat) : exec (.shutdownRestart mv) s = .next (if s.mayRestart mv then releasePwrGood.run (s.putObj Obj.INPUT_MV mv).begun else s.begun) := by
  refine (need_next s rfl _).trans (congrArg Host.Outcome.next ?_)
  rw [run_read, run_when]
  rfl

theorem exec_resetNPulse (ns : Nat) (stays : Bool) : exec (.resetNPulse ns stays) s = .next ((
    if ns < 1000 ∧ ¬ stays ∧ ¬ s.u.boot.resetLow then .skip
    else if s.dev = Dev.STANDBY then .all [
      .boot (fun b => { b with resetLow := stays, rearmed := b.rearmed || (decide (10000 ≤ ns) && !stays && b.powered) }), holdEnds]
    else if s.resetHeld then .all [.boot (fun b => { b with resetLow := stays }), holdEnds]
    else if ns < 10000 then .skip
    else .all [beginBoot 1 false, .boot (fun b => { b with resetLow := stays })] : Act).run s.begun) := need_next s rfl _

end

/-- Settles O50: what powers the module, what holds it in STANDBY, and what begins a boot. -/
theorem powerAndResets : Obligations.PowerAndResets := by
  unfold Obligations.PowerAndResets
  intro s
  refine ⟨fun addr refclk mv haddr hmv => ?_, fun addr refclk mv haddr hlow hhigh hcount => ?_, exec_powerLoss_off, exec_powerLoss_on, ?_, fun hdev => ?_, fun hdev => ?_,
    fun mv hdev hpow hlt hmay => ?_, fun mv hno => ?_, fun sensor temp hdev hs hok hhot => ?_, fun mw mv hdev hout => ?_, fun sensor temp hs hno => ?_, fun mw mv hno => ?_,
    fun why cause => ?_, fun ns hns hlow => ?_, fun ns stays hns hdev hheld => ?_, fun ns stays hns hdev hheld => ?_, fun ns hheld => ?_, fun ns hdev hns => ?_, fun ns hdev hlow hpin => ?_⟩
  · refine (need_next s (decide_eq_true haddr) _).trans ?_
    rw [if_pos hmv]
    rfl
  · obtain ⟨t, hexec, hrisen, hready, hwaits, hheld⟩ := exec_powerOn_rises haddr hlow hhigh refclk hcount
    exact ⟨t, hexec, hrisen.input, hrisen.blade, hrisen.sense, hrisen.address, hrisen.straps, hrisen.time, hrisen.powered, hrisen.total, hrisen.flash, hrisen.shut, hrisen.bytes,
      hready, hwaits, hheld⟩
  · refine (need_next s rfl _).trans ?_
    rw [run_all_cons, run_all_cons, run_all_nil, leaveStandby_run]
    refine congrArg Host.Outcome.next (if_congr ?_ rfl rfl)
    exact ⟨fun ⟨h1, h2, h3, _, h5⟩ => ⟨h1, h2, h3, h5⟩, fun ⟨h1, h2, h3, h5⟩ => ⟨h1, h2, h3, rfl, h5⟩⟩
  · have hdev' : s.begun.dev = Dev.STANDBY := hdev
    refine (need_next s rfl _).trans ?_
    rw [run_read, if_pos hdev']
    rfl
  · have hdev' : ¬ s.begun.dev = Dev.STANDBY := hdev
    refine (need_next s rfl _).trans ?_
    rw [run_read, if_neg hdev']
    rfl
  · intro t
    have hyes : s.mayRestart mv = true := by
      rcases hmay with ⟨hshut, h1, h2⟩ | ⟨hshut, harm, hcool⟩
      · simp [State.mayRestart, hdev, hpow, hshut, h1, h2]
      · simp [State.mayRestart, hdev, hpow, hshut, harm, hcool]
    have hstays : (s.putObj Obj.INPUT_MV mv).dev = s.dev := (putObj_get ..).trans (if_neg (by decide))
    have hpin : (s.putObj Obj.INPUT_MV mv).get Obj.PIN_CONTROL_ACTIVE = s.get Obj.PIN_CONTROL_ACTIVE := (putObj_get ..).trans (if_neg (by decide))
    rw [exec_shutdownRestart, if_pos hyes, releasePwrGood_run, leaveStandby_run]
    refine congrArg Host.Outcome.next (if_congr ?_ rfl rfl)
    have hheld : t.resetHeld = s.resetHeld := by
      show (s.u.boot.resetLow || (s.putObj Obj.INPUT_MV mv).get Obj.PIN_CONTROL_ACTIVE != 0) = s.resetHeld
      rw [hpin]
      rfl
    exact ⟨fun ⟨_, _, _, h4, h5⟩ => ⟨h4, hheld.symm.trans h5⟩, fun ⟨h4, h5⟩ => ⟨hstays.trans hdev, hpow, rfl, h4, hheld.trans h5⟩⟩
  · have hno' : s.mayRestart mv = false := by
      rcases hno with h | h | h | ⟨hshut, h⟩ | ⟨hshut, h⟩
      · simp [State.mayRestart, h]
      · simp [State.mayRestart, h]
      · simp [State.mayRestart, h]
      · simp only [State.mayRestart, hshut]
        rw [decide_eq_false (by omega), Bool.and_false]
      · rcases h with h | h <;> simp [State.mayRestart, hshut, h]
    rw [exec_shutdownRestart, hno']
    rfl
  · refine (need_when_yes (decide_eq_true hs) (fun s => s.dev != Dev.STANDBY && !s.u.pow.failed.contains sensor && decide (1200 ≤ temp)) _ ?_).trans ?_
    · show (s.dev != Dev.STANDBY && !s.u.pow.failed.contains sensor && decide (1200 ≤ temp)) = true
      rw [bne_iff_ne.2 hdev, hok, decide_eq_true hhot]
      rfl
    · rw [run_all_cons, run_all_cons, run_all_cons, run_all_cons, run_all_cons, run_all_nil]
      rfl
  · refine (need_when_yes rfl (fun s => s.dev != Dev.STANDBY && decide (mv < 38000 ∨ 60000 < mv)) _ ?_).trans ?_
    · show (s.dev != Dev.STANDBY && decide (mv < 38000 ∨ 60000 < mv)) = true
      rw [bne_iff_ne.2 hdev, decide_eq_true hout]
      rfl
    · rw [run_all_cons, run_all_cons, run_all_cons, run_all_cons, run_all_cons, run_all_cons, run_all_cons, run_all_nil]
      rfl
  · refine need_when_no (decide_eq_true hs) (fun s => s.dev != Dev.STANDBY && !s.u.pow.failed.contains sensor && decide (1200 ≤ temp)) _ ?_
    show (s.dev != Dev.STANDBY && !s.u.pow.failed.contains sensor && decide (1200 ≤ temp)) = false
    rcases hno with h | h | h
    · rw [h]
      rfl
    · rw [h, Bool.not_true, Bool.and_false, Bool.false_and]
    · rw [decide_eq_false (not_le.2 h), Bool.and_false]
  · refine need_when_no rfl (fun s => s.dev != Dev.STANDBY && decide (mv < 38000 ∨ 60000 < mv)) _ ?_
    show (s.dev != Dev.STANDBY && decide (mv < 38000 ∨ 60000 < mv)) = false
    rcases hno with h | h
    · rw [h]
      rfl
    · rw [decide_eq_false (by omega), Bool.and_false]
  · obtain ⟨hdev, hshut, hcause, hgood, hopen, hbytes, hdom, hlines, hflash, -, hring, htt, hpin⟩ := standby_run (s := s) why (cause := cause) rfl
    exact ⟨hdev, hshut, hcause, hgood, hopen, hbytes, hdom, hlines, hflash, hring, htt, hpin⟩
  · rw [exec_resetNPulse, if_pos ⟨hns, Bool.false_ne_true, ne_true_of_eq_false hlow⟩]
    rfl
  · rw [exec_resetNPulse, if_neg hdev, if_neg (ne_true_of_eq_false hheld), if_pos hns, ite_self]
    rfl
  · rw [exec_resetNPulse, if_neg (by omega), if_neg hdev, if_neg (ne_true_of_eq_false hheld), if_neg (by omega), run_all_cons, run_all_cons, run_all_nil, run_boot, begun_booted]
  · have hholds (t : State) (h : t.u.boot.resetLow = true) : holdEnds.run t = t := holdEnds_held (by rw [State.resetHeld, h]; rfl)
    rw [exec_resetNPulse, if_neg (fun h => h.2.1 rfl)]
    by_cases hdev : s.dev = Dev.STANDBY
    · rw [if_pos hdev, run_all_cons, run_all_cons, run_all_nil, hholds _ rfl]
      show Host.Outcome.next ((s.sending []).withBoot fun b => { b with resetLow := true, rearmed := b.rearmed || (decide (10000 ≤ ns) && !true && b.powered) }) = _
      simp only [Bool.not_true, Bool.and_false, Bool.false_and, Bool.or_false]
    · have hlow := hheld.resolve_left hdev
      rw [if_neg hdev, if_pos (by rw [State.resetHeld, hlow]; rfl), run_all_cons, run_all_cons, run_all_nil, hholds _ rfl]
      rfl
  · intro t
    rw [exec_resetNPulse, if_neg (fun h => hns.elim (fun h' => absurd h.1 (not_lt.2 h')) fun h' => h.2.2 h'), if_pos hdev, run_all_cons, run_all_cons, run_all_nil]
    have ht : (Act.boot fun b => { b with resetLow := false, rearmed := b.rearmed || (decide (10000 ≤ ns) && !false && b.powered) }).run s.begun = t := by
      show ((s.sending []).withBoot fun b => { b with resetLow := false, rearmed := b.rearmed || (decide (10000 ≤ ns) && !false && b.powered) }) = t
      simp only [Bool.not_false, Bool.and_true, t]
    rw [ht]
    have hdev' : t.dev = Dev.STANDBY := hdev
    have hheld : t.resetHeld = (s.get Obj.PIN_CONTROL_ACTIVE != 0) := Bool.false_or _
    by_cases hpin : s.get Obj.PIN_CONTROL_ACTIVE = 0
    · rw [holdEnds_standby (by rw [hheld, hpin]; rfl) hdev']
      exact congrArg Host.Outcome.next (if_congr ⟨fun h => ⟨hpin, h⟩, fun h => h.2⟩ rfl rfl)
    · rw [holdEnds_held (by rw [hheld]; exact bne_iff_ne.2 hpin), if_neg (fun h => hpin h.1)]
  · have hdev' : ¬ s.dev = Dev.STANDBY := by rw [hdev]; decide
    rw [exec_resetNPulse, if_neg (fun h => h.2.2 hlow), if_neg hdev', if_pos (by rw [State.resetHeld, hlow]; rfl), run_all_cons, run_all_cons, run_all_nil]
    generalize hv : (Act.boot fun b => { b with resetLow := false }).run s.begun = v
    have hheld : v.resetHeld = false := by rw [← hv]; exact (Bool.false_or _).trans (bne_eq_false_iff_eq.2 hpin)
    have hinit : v.dev = Dev.INIT := by rw [← hv]; exact hdev
    rw [holdEnds_init hheld hinit, ← hv]
    rfl

end Sys2Proof.Machine
end

section
/-! PROOFS. Images written and activated in service, counters, program units (R451 to R456, R462, R463). -/

namespace Sys2Proof.Machine

/-! ## Live slots that take values leave the rest -/

section
variable (kvs : List (Nat × Nat))

theorem puts_bytes : ∀ s : State, (s.puts kvs).bytes = s.bytes := by
  induction kvs with
  | nil => exact fun _ => rfl
  | cons e es ih => exact fun s => by rw [puts_cons, ih, run_put_bytes]

theorem puts_log : ∀ s : State, (s.puts kvs).log = s.log := by
  induction kvs with
  | nil => exact fun _ => rfl
  | cons e es ih => exact fun s => by rw [puts_cons, ih, run_put_log]

theorem puts_out : ∀ s : State, (s.puts kvs).out = s.out := by
  induction kvs with
  | nil => exact fun _ => rfl
  | cons e es ih => exact fun s => by rw [puts_cons, ih, run_put_out]

end

section
variable {s t : State} {ses kind n : Nat}

/-! ## What a write brings -/

theorem late_desc {addr len crc : Nat} (data : Option (List Byte)) : s.late (.desc addr len crc data) = some (s.fetched len data, match s.fetched len data with
    | some d => d.length == len && crc32c d == crc
    | none => true) := rfl

theorem fetched_reachable {len : Nat} (hlen : 0 < len) (h : s.hostReachable = true) (data : Option (List Byte)) : s.fetched len data = data :=
  (if_neg (Nat.ne_of_gt hlen)).trans (if_pos h)

theorem fetched_unreachable {len : Nat} (hlen : 0 < len) (h : s.hostReachable = false) (data : Option (List Byte)) : s.fetched len data = none :=
  (if_neg (Nat.ne_of_gt hlen)).trans (if_neg (ne_true_of_eq_false h))

theorem fetched_none {len : Nat} (hlen : 0 < len) : s.fetched len none = none := (if_neg (Nat.ne_of_gt hlen)).trans (ite_self _)

theorem late_of_fetched {addr len crc : Nat} {data : Option (List Byte)} {d : List Byte} (h : s.fetched len data = some d) :
    s.late (.desc addr len crc data) = some (some d, d.length == len && crc32c d == crc) := by
  rw [late_desc, h]

theorem late_of_not_fetched {addr len crc : Nat} {data : Option (List Byte)} (h : s.fetched len data = none) : s.late (.desc addr len crc data) = some (none, true) := by
  rw [late_desc, h]

/-! ## IMG_WRITE -/

/-- An image that is not inline is checked once it has been fetched; the header of an inline one is checked within the write (R454). -/
theorem imgWrite_begins {v : WVal} {data : Option (List Byte)} {crcOk : Bool} (hfree : s.u.boot.writing = none) (hlate : s.late v = some (data, crcOk))
    (hinline : ∀ d, v = .inline d → s.get (Obj.IMG_COUNTER (kind - 1)) ≤ numAt d 12 4 ∧ numAt d 4 1 = kind) : imgWrite kind v s = .ok (imgWrite.go kind data crcOk) := by
  unfold imgWrite
  rw [hlate]
  simp only
  rw [hfree, if_neg (by decide)]
  cases v with
  | inline d =>
    obtain ⟨hcounter, hkind⟩ := hinline d rfl
    simp only
    rw [if_neg (not_lt.2 hcounter), if_neg (not_not.2 hkind)]
  | _ => rfl

theorem imgWrite_rollback {d : List Byte} (hfree : s.u.boot.writing = none) (h : numAt d 12 4 < s.get (Obj.IMG_COUNTER (kind - 1))) :
    imgWrite kind (.inline d) s = .no Ab.IMAGE_ROLLBACK := by
  unfold imgWrite
  simp only [State.late]
  rw [hfree, if_neg (by decide), if_pos h]

theorem imgWrite_range {d : List Byte} (hfree : s.u.boot.writing = none) (hcounter : s.get (Obj.IMG_COUNTER (kind - 1)) ≤ numAt d 12 4) (h : numAt d 4 1 ≠ kind) :
    imgWrite kind (.inline d) s = .no Ab.RANGE := by
  unfold imgWrite
  simp only [State.late]
  rw [hfree, if_neg (by decide), if_neg (not_lt.2 hcounter), if_pos h]

theorem imgWrite_busy {v : WVal} (hlate : s.late v ≠ none) (h : s.u.boot.writing ≠ none) : imgWrite kind v s = .no Ab.FLASH_BUSY := by
  obtain ⟨l, hl⟩ := Option.ne_none_iff_exists'.1 hlate
  unfold imgWrite
  rw [hl]
  exact if_pos (Option.isSome_iff_ne_none.2 h)

theorem imgWriteGo_run (data : Option (List Byte)) (crcOk : Bool) (es : List Emit) : ((imgWrite.go kind data crcOk).run s.begun).also es
    = (((s.withBoot fun b => { b with writing := some (.image kind data crcOk) }).puts [(Obj.IMG_WRITE_STATUS (kind - 1), 1), (Obj.IMG_REASON (kind - 1), 0)])).sending es := by
  have hboot : (Act.boot fun b => { b with writing := some (.image kind data crcOk) }).run s.begun = (s.withBoot fun b => { b with writing := some (.image kind data crcOk) }).begun := rfl
  rw [imgWrite.go, run_all_cons, run_all_cons, run_all_cons, run_all_nil, hboot, run_put_begun, run_put_begun, begun_also, puts_cons, puts_cons, puts_nil]

/-! ## Slots that take an image -/

theorem putImage_within {A : Part → Prop} {R : (Units → Units) → Prop} (kind n : Nat) (x : Img) (h0 : A (.obj (Obj.IMG_VERSION_0 (kind - 1)))) (h1 : A (.obj (Obj.IMG_VERSION_1 (kind - 1))))
    (hstate : A (.obj (Obj.IMG_SLOT_STATE (kind - 1)))) (hboot : (Act.boot fun b => { b with slots := Tab.set b.slots (kind * 2 + n) x }).Within A R) : (putImage kind n x).Within A R := by
  simp only [putImage, within_all_cons, within_all_nil, within_put, and_true]
  refine ⟨hboot, ?_, putSlotState_within hstate _ _⟩
  unfold verKey
  split
  · exact h0
  · exact h1

theorem putImage_u (kind n : Nat) (x : Img) : ((putImage kind n x).run s).u = { s.u with boot := { s.u.boot with slots := Tab.set s.u.boot.slots (kind * 2 + n) x } } := rfl

theorem newImage_within {A : Part → Prop} {R : (Units → Units) → Prop} (kind n : Nat) (hboot : ∀ f : BootS → BootS, (∀ b, ∃ x, f b = { b with prefer := x }) → (Act.boot f).Within A R) :
    (newImage kind n).Within A R := by
  simp only [newImage, within_when]
  exact fun _ => hboot _ fun b => ⟨_, rfl⟩

theorem newImage_prefer (hkind : kind ≠ 3) : Tab.get? ((newImage kind n).run s).u.boot.prefer kind ≠ some (1 - n) := by
  rw [newImage, run_when, if_pos (bne_iff_ne.2 hkind)]
  show Tab.get? (if Tab.get? s.u.boot.prefer kind = some (1 - n) then Tab.del s.u.boot.prefer kind else s.u.boot.prefer) kind ≠ some (1 - n)
  split
  · rw [Tab.get?_del, if_pos rfl]
    nofun
  · assumption

/-- The image that a slot takes from the bytes written, sound where they pass their checks. -/
def imgOf (kind code : Nat) (vals : List (Nat × Nat)) (blobs : List (Nat × List Byte)) (d : List Byte) : Img := {
  version := numAt d 8 4, rollback := numAt d 12 4, target := imgTarget d, digest := (d.drop 40).take 48
  payload := if kind = 1 then imgPayload d else []
  vals := if kind = 4 then vals else []
  blobs := if kind = 4 then blobs else []
  sound := code == 0 }

/-- The slot that was not active takes the image that was fetched. -/
def slotTakes (kind n code : Nat) (vals : List (Nat × Nat)) (blobs : List (Nat × List Byte)) : Option (List Byte) → Act
  | some d => putImage kind n (imgOf kind code vals blobs d)
  | none => .skip

theorem slotTakes_within {A : Part → Prop} {R : (Units → Units) → Prop} {code : Nat} {vals : List (Nat × Nat)} {blobs : List (Nat × List Byte)} (data : Option (List Byte))
    (h0 : A (.obj (Obj.IMG_VERSION_0 (kind - 1)))) (h1 : A (.obj (Obj.IMG_VERSION_1 (kind - 1)))) (hstate : A (.obj (Obj.IMG_SLOT_STATE (kind - 1))))
    (hboot : ∀ f : BootS → BootS, (∀ b, ∃ x, f b = { b with slots := x }) → (Act.boot f).Within A R) : (slotTakes kind n code vals blobs data).Within A R := by
  cases data with
  | none => exact trivial
  | some d => exact putImage_within _ _ _ h0 h1 hstate (hboot _ fun b => ⟨_, rfl⟩)

theorem exec_imageWriteVerified {data : Option (List Byte)} {crcOk : Bool} (hw : s.u.boot.writing = some (.image kind data crcOk)) (sigOk chainOk : Bool) (vals : List (Nat × Nat))
    (blobs : List (Nat × List Byte)) {code : Nat} (hcode : s.imageCode kind (s.get (Obj.IMG_COUNTER (kind - 1))) data crcOk false sigOk chainOk = code) :
    exec (.imageWriteVerified sigOk chainOk vals blobs) s = .next ((Act.all [
      .boot (fun b => { b with writing := none }),
      .put (Obj.IMG_WRITE_STATUS (kind - 1)) (if code = 0 then 3 else 4), .put (Obj.IMG_REASON (kind - 1)) code,
      slotTakes kind (1 - s.get (Obj.IMG_ACTIVE_SLOT (kind - 1))) code vals blobs data,
      if code = 0 then newImage kind (1 - s.get (Obj.IMG_ACTIVE_SLOT (kind - 1))) else logEv Ev.IMAGE_REFUSED kind 0 code]).run s.begun) := by
  have hcode' : s.begun.imageCode kind (s.begun.get (Obj.IMG_COUNTER (kind - 1))) data crcOk false sigOk chainOk = code := hcode
  refine (need_next s rfl _).trans (congrArg Host.Outcome.next ?_)
  rw [run_read, begun_u, hw]
  simp only
  rw [hcode', begun_get]
  cases data <;> rfl

theorem imageCode_lt (kind counter : Nat) (data : Option (List Byte)) (crcOk required sigOk chainOk : Bool) : s.imageCode kind counter data crcOk required sigOk chainOk < 2 ^ 64 := by
  unfold State.imageCode
  split
  · decide
  · simp only
    split_ifs <;> decide

theorem imageCode_none (kind counter : Nat) (crcOk required sigOk chainOk : Bool) : s.imageCode kind counter none crcOk required sigOk chainOk = 0x1469 := rfl

/-- What the write of an image leaves once it has been verified. -/
theorem imageWriteVerified_leaves {data : Option (List Byte)} {crcOk : Bool} (hw : s.u.boot.writing = some (.image kind data crcOk)) (sigOk chainOk : Bool) (vals : List (Nat × Nat))
    (blobs : List (Nat × List Byte)) {code : Nat} (hcode : s.imageCode kind (s.get (Obj.IMG_COUNTER (kind - 1))) data crcOk false sigOk chainOk = code)
    (hn : 1 - s.get (Obj.IMG_ACTIVE_SLOT (kind - 1)) = n) :
    ∃ t : State, exec (.imageWriteVerified sigOk chainOk vals blobs) s = .next t ∧ t.u.boot.writing = none ∧ t.get (Obj.IMG_REASON (kind - 1)) = code
      ∧ t.get (Obj.IMG_WRITE_STATUS (kind - 1)) = (if code = 0 then 3 else 4)
      ∧ (∀ d, data = some d → Tab.get? t.u.boot.slots (kind * 2 + n) = some (imgOf kind code vals blobs d)) ∧ (data = none → t.u.boot.slots = s.u.boot.slots)
      ∧ (code = 0 → t.log = s.log ∧ (kind ≠ 3 → Tab.get? t.u.boot.prefer kind ≠ some (1 - n))) ∧ (code ≠ 0 → t.lastEvent Ev.IMAGE_REFUSED kind 0 code) ∧ t.bytes = s.bytes := by
  have hexec := exec_imageWriteVerified hw sigOk chainOk vals blobs hcode
  have hlt : code < 2 ^ 64 := hcode ▸ imageCode_lt ..
  rw [hn, run_all_cons, run_all_cons, run_all_cons] at hexec
  generalize hp : (Act.put (Obj.IMG_REASON (kind - 1)) code).run _ = p at hexec
  have hreason : p.get (Obj.IMG_REASON (kind - 1)) = code := by rw [← hp, run_put_get, if_pos rfl, Nat.mod_eq_of_lt hlt]
  have hstatus : p.get (Obj.IMG_WRITE_STATUS (kind - 1)) = if code = 0 then 3 else 4 := by
    rw [← hp, run_put_get, if_neg (by unfold Obj.IMG_WRITE_STATUS Obj.IMG_REASON; omega), run_put_get, if_pos rfl]
    split <;> rfl
  have hboot : p.u.boot = { s.u.boot with writing := none } := by rw [← hp]; rfl
  have hrest : p.log = s.log ∧ p.bytes = s.bytes := by rw [← hp]; exact ⟨rfl, rfl⟩
  rw [run_all_cons] at hexec
  generalize hq : (slotTakes kind n code vals blobs data).run p = q at hexec
  have hspares {r : Part} (hobj : ∀ k, k = Obj.IMG_VERSION_0 (kind - 1) ∨ k = Obj.IMG_VERSION_1 (kind - 1) ∨ k = Obj.IMG_SLOT_STATE (kind - 1) → Part.obj k ≠ r) :
      (slotTakes kind n code vals blobs data).Spares r := slotTakes_within data (hobj _ (.inl rfl)) (hobj _ (.inr (.inl rfl))) (hobj _ (.inr (.inr rfl))) fun _ _ => trivial
  have hreason' : q.get (Obj.IMG_REASON (kind - 1)) = code := by
    rw [← hreason, ← hq]
    exact Act.Spares.get p (hspares fun k hk => Part.obj_ne (by unfold Obj.IMG_VERSION_0 Obj.IMG_VERSION_1 Obj.IMG_SLOT_STATE at hk; unfold Obj.IMG_REASON; omega))
  have hstatus' : q.get (Obj.IMG_WRITE_STATUS (kind - 1)) = if code = 0 then 3 else 4 := by
    rw [← hstatus, ← hq]
    exact Act.Spares.get p (hspares fun k hk => Part.obj_ne (by unfold Obj.IMG_VERSION_0 Obj.IMG_VERSION_1 Obj.IMG_SLOT_STATE at hk; unfold Obj.IMG_WRITE_STATUS; omega))
  have hlog : q.log = s.log := by rw [← hrest.1, ← hq]; exact Act.Spares.log p (hspares fun _ _ => nofun)
  have hbytes : q.bytes = s.bytes := by rw [← hrest.2, ← hq]; exact Act.Spares.bytes p (hspares fun _ _ => nofun)
  have hwriting : q.u.boot.writing = none := by
    have hkeep : q.u.boot.writing = p.u.boot.writing := by
      rw [← hq]
      exact Act.SparesUnit.unit (f := fun u => u.boot.writing) p (slotTakes_within data trivial trivial trivial fun f hf u => by
        obtain ⟨x, hx⟩ := hf u.boot
        show (f u.boot).writing = u.boot.writing
        rw [hx])
    rw [hkeep, hboot]
  have hslot (d : List Byte) (hd : data = some d) : Tab.get? q.u.boot.slots (kind * 2 + n) = some (imgOf kind code vals blobs d) := by
    rw [← hq, hd, slotTakes, putImage_u]
    exact (Tab.get?_set ..).trans (if_pos rfl)
  have hnone (hd : data = none) : q.u.boot.slots = s.u.boot.slots := by
    rw [← hq, hd]
    show p.u.boot.slots = s.u.boot.slots
    rw [hboot]
  rw [run_all_cons, run_all_nil] at hexec
  by_cases hzero : code = 0
  · rw [if_pos hzero] at hexec
    have hprefer {R : (Units → Units) → Prop} {A : Part → Prop} (h : ∀ f : BootS → BootS, (∀ b, ∃ x, f b = { b with prefer := x }) → (Act.boot f).Within A R) :
        (newImage kind n).Within A R := newImage_within kind n h
    have hspare {r : Part} : (newImage kind n).Spares r := hprefer fun _ _ => trivial
    have hunit {β : Type} (f : BootS → β) (h : ∀ b x, f { b with prefer := x } = f b) : f ((newImage kind n).run q).u.boot = f q.u.boot :=
      Act.SparesUnit.unit (f := fun u => f u.boot) q (hprefer fun g hg u => by
        obtain ⟨x, hx⟩ := hg u.boot
        show f (g u.boot) = f u.boot
        rw [hx, h])
    refine ⟨_, hexec, (hunit (·.writing) fun _ _ => rfl).trans hwriting, (Act.Spares.get q hspare).trans hreason', (Act.Spares.get q hspare).trans hstatus',
      fun d hd => ?_, fun hd => (hunit (·.slots) fun _ _ => rfl).trans (hnone hd), fun _ => ⟨(Act.Spares.log q hspare).trans hlog, newImage_prefer⟩, fun h => absurd hzero h,
      (Act.Spares.bytes q hspare).trans hbytes⟩
    rw [show ((newImage kind n).run q).u.boot.slots = q.u.boot.slots from hunit (·.slots) fun _ _ => rfl, hslot d hd]
  · rw [if_neg hzero] at hexec
    have hunit : ((logEv Ev.IMAGE_REFUSED kind 0 code).run q).u.boot = q.u.boot :=
      Act.SparesUnit.unit (f := fun u => u.boot) q (logEv_within _ _ _ _ trivial trivial fun _ => fun _ => rfl)
    have hget (k : Nat) : ((logEv Ev.IMAGE_REFUSED kind 0 code).run q).get k = q.get k :=
      Act.Spares.get q (logEv_within _ _ _ _ nofun nofun fun _ => trivial)
    exact ⟨_, hexec, by rw [hunit, hwriting], (hget _).trans hreason', (hget _).trans hstatus', fun d hd => by rw [hunit, hslot d hd], fun hd => by rw [hunit, hnone hd],
      fun h => absurd h hzero, fun _ => logEv_lastEvent .., (run_logEv_bytes ..).trans hbytes⟩

/-! ## A store that is done -/

theorem exec_settingsStoreDone {x : Img} {m : Nat} (hw : s.u.boot.writing = some (.store x m)) (hn : 1 - s.get (Obj.IMG_ACTIVE_SLOT 3) = n) :
    ∃ t : State, exec .settingsStoreDone s = .next t ∧ t.u.boot.writing = none ∧ t.u.boot.restore = s.u.boot.restore.take (s.u.boot.restore.length - m)
      ∧ Tab.get? t.u.boot.slots (8 + n) = some x
      ∧ t.get (Obj.IMG_COUNTER 3) = max x.rollback (s.get (Obj.IMG_COUNTER 3)) % 2 ^ 64 ∧ t.bytes = s.bytes ∧ t.log = s.log ∧ t.out = [] := by
  have hexec : exec .settingsStoreDone s = .next ((Act.all [
      .boot (fun b => { b with writing := none, restore := b.restore.take (b.restore.length - m) }),
      putImage 4 n x, newImage 4 n, .modify (Obj.IMG_COUNTER 3) (max x.rollback)]).run s.begun) := by
    refine (need_next s rfl _).trans (congrArg Host.Outcome.next ?_)
    rw [run_read, begun_u, hw, ← hn]
    rfl
  have hother {k : Nat} (h : k ≠ Obj.IMG_VERSION_0 3 ∧ k ≠ Obj.IMG_VERSION_1 3 ∧ k ≠ Obj.IMG_SLOT_STATE 3) (p : State) : ((newImage 4 n).run ((putImage 4 n x).run p)).get k = p.get k := by
    rw [Act.Spares.get _ (newImage_within 4 n fun _ _ => trivial),
      Act.Spares.get p (putImage_within 4 n x (Part.obj_ne h.1.symm) (Part.obj_ne h.2.1.symm) (Part.obj_ne h.2.2.symm) trivial)]
  have hcounter := hother (k := Obj.IMG_COUNTER 3) (by decide)
  have hlog (p : State) : ((newImage 4 n).run ((putImage 4 n x).run p)).log = p.log := by
    rw [Act.Spares.log _ (newImage_within 4 n fun _ _ => trivial), Act.Spares.log p (putImage_within 4 n x nofun nofun nofun trivial)]
  have hbytes (p : State) : ((newImage 4 n).run ((putImage 4 n x).run p)).bytes = p.bytes := by
    rw [Act.Spares.bytes _ (newImage_within 4 n fun _ _ => trivial), Act.Spares.bytes p (putImage_within 4 n x nofun nofun nofun trivial)]
  have hout (p : State) : ((newImage 4 n).run ((putImage 4 n x).run p)).out = p.out := by
    rw [Act.Spares.out _ (newImage_within 4 n fun _ _ => trivial), Act.Spares.out p (putImage_within 4 n x nofun nofun nofun trivial)]
  have hboot {β : Type} (f : BootS → β) (h : ∀ b y, f { b with prefer := y } = f b) (p : State) : f ((newImage 4 n).run ((putImage 4 n x).run p)).u.boot
      = f { p.u.boot with slots := Tab.set p.u.boot.slots (8 + n) x } := by
    refine (Act.SparesUnit.unit (f := fun u => f u.boot) _ (newImage_within 4 n fun g hg u => ?_)).trans ?_
    · obtain ⟨y, hy⟩ := hg u.boot
      show f (g u.boot) = f u.boot
      rw [hy, h]
    · rw [putImage_u]
  rw [run_all_cons, run_all_cons, run_all_cons, run_all_cons, run_all_nil, run_modify] at hexec
  generalize hp : (Act.boot _).run s.begun = p at hexec
  have hpboot : p.u.boot = { s.u.boot with writing := none, restore := s.u.boot.restore.take (s.u.boot.restore.length - m) } := by rw [← hp]; rfl
  have hpget (k : Nat) : p.get k = s.get k := by rw [← hp]; rfl
  have hprest : p.bytes = s.bytes ∧ p.log = s.log ∧ p.out = [] := by rw [← hp]; exact ⟨rfl, rfl, rfl⟩
  refine ⟨_, hexec, ?_, ?_, ?_, ?_, ?_, ?_, ?_⟩
  · rw [run_put_u, hboot (·.writing) (fun _ _ => rfl), hpboot]
  · rw [run_put_u, hboot (·.restore) (fun _ _ => rfl), hpboot]
  · rw [run_put_u, hboot (·.slots) (fun _ _ => rfl)]
    exact (Tab.get?_set ..).trans (if_pos rfl)
  · rw [run_put_get, if_pos rfl, hcounter, hpget]
  · rw [run_put_bytes, hbytes, hprest.1]
  · rw [run_put_log, hlog, hprest.2.1]
  · rw [run_put_out, hout, hprest.2.2]

/-! ## IMG_ACTIVATE and counters -/

/-- A slot that holds no image is not activated; one that does is, unless a handover is on its way, its version is too old, or it is not sound. -/
theorem imgActivate_none (hn : 1 - s.get (Obj.IMG_ACTIVE_SLOT (kind - 1)) = n) (h : Tab.get? s.u.boot.slots (kind * 2 + n) = none) : imgActivate kind s = .no Ab.STATE_FORBIDS := by
  unfold imgActivate
  simp only
  rw [hn, h]

theorem imgActivate_some {x : Img} (hn : 1 - s.get (Obj.IMG_ACTIVE_SLOT (kind - 1)) = n) (h : Tab.get? s.u.boot.slots (kind * 2 + n) = some x) : imgActivate kind s =
    if kind = 3 ∧ (s.u.boot.asked = true ∨ s.get Obj.POLICY_STATE = 2 ∨ s.get Obj.POLICY_STATE = 3) then .no Ab.STATE_FORBIDS
    else if x.rollback < s.get (Obj.IMG_COUNTER (kind - 1)) then .no Ab.IMAGE_ROLLBACK
    else if ¬ x.sound then .no Ab.STATE_FORBIDS
    else .ok (if kind = 3 then .boot (fun b => { b with asked := true }) else .boot (fun b => { b with prefer := Tab.set b.prefer kind n })) := by
  unfold imgActivate
  simp only
  rw [hn, h]

theorem activated_run (kind n : Nat) (es : List Emit) : ((if kind = 3 then Act.boot (fun b => { b with asked := true }) else .boot (fun b => { b with prefer := Tab.set b.prefer kind n })).run
    s.begun).also es = (s.withBoot fun b => if kind = 3 then { b with asked := true } else { b with prefer := Tab.set b.prefer kind n }).sending es := by
  by_cases h : kind = 3
  · simp only [if_pos h]
    rfl
  · simp only [if_neg h]
    rfl

theorem run_modify_begun (k : Nat) (f : Nat → Nat) : (Act.modify k f).run s.begun = (s.putObj k (f (s.get k))).begun := rfl

/-! ## Programs -/

theorem progImage_begins {v : WVal} {data : Option (List Byte)} {crcOk : Bool} (hlate : s.late v = some (data, crcOk)) : progImage ses v s = .ok (.all [
    .boot (fun b => { b with loads := b.loads ++ [(ses, data, crcOk)] }),
    .put (Obj.PROG_LOAD_STATUS ses) 1, .put (Obj.PROG_HANDLE ses) 0, .put (Obj.PROG_REASON ses) 0]) := by
  unfold progImage
  rw [hlate]

/-- Taking out the one entry of a session leaves the others. -/
theorem takeWhile_dropWhile_filter {α : Type} (q : α → Bool) : ∀ xs : List α, (xs.filter q).length = 1 →
    xs.takeWhile (fun e => !q e) ++ (xs.dropWhile fun e => !q e).drop 1 = xs.filter fun e => !q e := by
  intro xs
  induction xs with
  | nil => exact nofun
  | cons x xs ih =>
    intro h
    by_cases hx : q x = true
    · have hrest : xs.filter q = [] := by
        rw [List.filter_cons_of_pos hx, List.length_cons] at h
        exact List.eq_nil_of_length_eq_zero (Nat.succ.inj h)
      have hall : xs.filter (fun e => !q e) = xs := List.filter_eq_self.2 fun e he => by simpa using List.filter_eq_nil_iff.1 hrest e he
      simp [hx, hall]
    · rw [List.filter_cons_of_neg hx] at h
      simpa [hx] using ih h

theorem loadOutcome_run (hses : ses < 16) (h : s.u.boot.loads.any (fun e => e.1 == ses) = false) (status handle reason : Nat) :
    (loadOutcome ses status handle reason).run s = s.puts [(Obj.PROG_LOAD_STATUS ses, status), (Obj.PROG_HANDLE ses, handle), (Obj.PROG_REASON ses, reason)] := by
  rw [loadOutcome, run_read, run_when, if_pos (by rw [decide_eq_true hses, h]; rfl), run_all_cons, run_all_cons, run_all_cons, run_all_nil, puts_cons, puts_cons, puts_cons, puts_nil]

/-- What a session's objects tell of its load. -/
theorem loadTold_get (ses status handle reason : Nat) : (s.puts [(Obj.PROG_LOAD_STATUS ses, status), (Obj.PROG_HANDLE ses, handle), (Obj.PROG_REASON ses, reason)]).get
      (Obj.PROG_LOAD_STATUS ses) = status % 2 ^ 64
    ∧ (s.puts [(Obj.PROG_LOAD_STATUS ses, status), (Obj.PROG_HANDLE ses, handle), (Obj.PROG_REASON ses, reason)]).get (Obj.PROG_HANDLE ses) = handle % 2 ^ 64
    ∧ (s.puts [(Obj.PROG_LOAD_STATUS ses, status), (Obj.PROG_HANDLE ses, handle), (Obj.PROG_REASON ses, reason)]).get (Obj.PROG_REASON ses) = reason % 2 ^ 64 := by
  have h1 : Obj.PROG_LOAD_STATUS ses ≠ Obj.PROG_HANDLE ses := fun e => absurd (Nat.add_left_cancel e) (by decide)
  have h2 : Obj.PROG_LOAD_STATUS ses ≠ Obj.PROG_REASON ses := fun e => absurd (Nat.add_left_cancel e) (by decide)
  have h3 : Obj.PROG_HANDLE ses ≠ Obj.PROG_REASON ses := fun e => absurd (Nat.add_left_cancel e) (by decide)
  rw [puts_cons, puts_cons, puts_cons, puts_nil]
  refine ⟨?_, ?_, ?_⟩
  · rw [run_put_get, if_neg h2, run_put_get, if_neg h1, run_put_get, if_pos rfl]
  · rw [run_put_get, if_neg h3, run_put_get, if_pos rfl]
  · rw [run_put_get, if_pos rfl]

/-- The check code of a load, 0 where the unit is taken (R456, R462). -/
def State.loadCode (s : State) (data : Option (List Byte)) (crcOk sigOk chainOk : Bool) (decl : Option UnitDecl) : Nat :=
  if s.imageCode 6 (s.get Obj.PROG_COUNTER) data crcOk (s.ownerFlag 1) sigOk chainOk ≠ 0 then s.imageCode 6 (s.get Obj.PROG_COUNTER) data crcOk (s.ownerFlag 1) sigOk chainOk
  else if ¬ (decl.map UnitDecl.semsAgree).getD false then 0x1465
  else if 256 ≤ s.u.tt.progs.length ∨ s.programSpace < ceilDiv (data.getD []).length 1024 then 0x1466
  else 0

/-- A unit that passes takes handle `h`; one that does not leaves its reason (R462). -/
def unitTakes (ses h : Nat) (d : List Byte) (decl : Option UnitDecl) (code : Nat) : Act := match decl, code with
  | some x, 0 => .all [
      .tt (fun t => { t with progs := Tab.set t.progs h { x with kib := ceilDiv d.length 1024 } }),
      .boot (fun b => { b with
        nextProg := h + 1, progLoads := b.progLoads + 1
        rollbacks := Tab.set b.rollbacks h (numAt d 12 4)
        progLog := sha384 ((if b.progLog.isEmpty then List.replicate 48 0 else b.progLog) ++ (d.drop 40).take 48) }),
      loadOutcome ses 2 h 0]
  | _, _ => .all [loadOutcome ses 3 0 code, logEv Ev.IMAGE_REFUSED 6 0 code]

theorem unitTakes_refused (h : Nat) (d : List Byte) (decl : Option UnitDecl) {code : Nat} (hcode : code ≠ 0) :
    unitTakes ses h d decl code = .all [loadOutcome ses 3 0 code, logEv Ev.IMAGE_REFUSED 6 0 code] := by
  cases decl with
  | none => rfl
  | some x =>
    cases code with
    | zero => exact absurd rfl hcode
    | succ c => rfl

theorem exec_progLoadDone (hses : ses < 16) {data : Option (List Byte)} {crcOk : Bool} (hfind : s.u.boot.loads.find? (fun e => e.1 == ses) = some (ses, data, crcOk))
    (hone : (s.u.boot.loads.filter fun e => e.1 == ses).length = 1) (sigOk chainOk : Bool) (decl : Option UnitDecl) {code : Nat}
    (hcode : s.loadCode data crcOk sigOk chainOk decl = code) :
    exec (.progLoadDone ses sigOk chainOk decl) s = .next ((unitTakes ses s.u.boot.nextProg (data.getD []) decl code).run
      (s.withBoot fun b => { b with loads := s.u.boot.loads.filter fun e => e.1 != ses }).begun) := by
  have hloads : s.u.boot.loads.takeWhile (fun e => e.1 != ses) ++ (s.u.boot.loads.dropWhile fun e => e.1 != ses).drop 1 = s.u.boot.loads.filter fun e => e.1 != ses :=
    takeWhile_dropWhile_filter (fun e : Nat × Option (List Byte) × Bool => e.1 == ses) _ hone
  have hcode' : s.begun.loadCode data crcOk sigOk chainOk decl = code := hcode
  refine (need_next s (decide_eq_true (Nat.le_of_lt hses)) _).trans (congrArg Host.Outcome.next ?_)
  rw [run_read, begun_u, hfind, ← hcode', ← hloads]
  rfl

/-- The load of a unit that passes its checks, with room for it. -/
theorem progLoadDone_takes (hses : ses < 16) {data : Option (List Byte)} {crcOk : Bool} (hfind : s.u.boot.loads.find? (fun e => e.1 == ses) = some (ses, data, crcOk))
    (hone : (s.u.boot.loads.filter fun e => e.1 == ses).length = 1) (hnext : s.u.boot.nextProg < 2 ^ 64) {sigOk chainOk : Bool} {x : UnitDecl}
    (hcode : s.loadCode data crcOk sigOk chainOk (some x) = 0) :
    ∃ t : State, exec (.progLoadDone ses sigOk chainOk (some x)) s = .next t ∧ Tab.get? t.u.tt.progs s.u.boot.nextProg = some { x with kib := ceilDiv (data.getD []).length 1024 }
      ∧ t.u.boot.nextProg = s.u.boot.nextProg + 1 ∧ t.get (Obj.PROG_LOAD_STATUS ses) = 2 ∧ t.get (Obj.PROG_HANDLE ses) = s.u.boot.nextProg
      ∧ t.u.boot.loads = s.u.boot.loads.filter (fun e => e.1 != ses) ∧ Tab.get? t.u.boot.rollbacks s.u.boot.nextProg = some (numAt (data.getD []) 12 4)
      ∧ t.u.boot.progLog = sha384 ((if s.u.boot.progLog.isEmpty then List.replicate 48 0 else s.u.boot.progLog) ++ ((data.getD []).drop 40).take 48)
      ∧ t.bytes = s.bytes ∧ t.log = s.log ∧ t.out = [] := by
  have hexec := exec_progLoadDone hses hfind hone sigOk chainOk (some x) hcode
  rw [unitTakes, run_all_cons, run_all_cons, run_all_cons, run_all_nil] at hexec
  generalize hp : (Act.boot _).run ((Act.tt _).run _) = p at hexec
  have hboot : p.u.boot = { s.u.boot with
      loads := s.u.boot.loads.filter fun e => e.1 != ses, nextProg := s.u.boot.nextProg + 1, progLoads := s.u.boot.progLoads + 1
      rollbacks := Tab.set s.u.boot.rollbacks s.u.boot.nextProg (numAt (data.getD []) 12 4)
      progLog := sha384 ((if s.u.boot.progLog.isEmpty then List.replicate 48 0 else s.u.boot.progLog) ++ ((data.getD []).drop 40).take 48) } := by rw [← hp]; rfl
  have htt : p.u.tt = { s.u.tt with progs := Tab.set s.u.tt.progs s.u.boot.nextProg { x with kib := ceilDiv (data.getD []).length 1024 } } := by rw [← hp]; rfl
  have hbytes : p.bytes = s.bytes := by rw [← hp]; rfl
  have hlog : p.log = s.log := by rw [← hp]; rfl
  have hout : p.out = [] := by rw [← hp]; rfl
  have hnone : p.u.boot.loads.any (fun e => e.1 == ses) = false := by
    rw [hboot]
    exact List.any_eq_false.2 fun e he => by simpa using (List.mem_filter.1 he).2
  rw [loadOutcome_run hses hnone] at hexec
  obtain ⟨hstatus, hhandle, -⟩ := loadTold_get (s := p) ses 2 s.u.boot.nextProg 0
  refine ⟨_, hexec, ?_, ?_, hstatus, hhandle.trans (Nat.mod_eq_of_lt hnext), ?_, ?_, ?_, ?_, ?_, ?_⟩
  · rw [puts_u, htt]
    exact (Tab.get?_set ..).trans (if_pos rfl)
  · rw [puts_u, hboot]
  · rw [puts_u, hboot]
  · rw [puts_u, hboot]
    exact (Tab.get?_set ..).trans (if_pos rfl)
  · rw [puts_u, hboot]
  · rw [puts_bytes, hbytes]
  · rw [puts_log, hlog]
  · rw [puts_out, hout]

theorem progLoadDone_refuses (hses : ses < 16) {data : Option (List Byte)} {crcOk : Bool} (hfind : s.u.boot.loads.find? (fun e => e.1 == ses) = some (ses, data, crcOk))
    (hone : (s.u.boot.loads.filter fun e => e.1 == ses).length = 1) {sigOk chainOk : Bool} {decl : Option UnitDecl} {code : Nat}
    (hcode : s.loadCode data crcOk sigOk chainOk decl = code) (hne : code ≠ 0) (hlt : code < 2 ^ 64) :
    ∃ t : State, exec (.progLoadDone ses sigOk chainOk decl) s = .next t ∧ t.u.tt = s.u.tt ∧ t.get (Obj.PROG_LOAD_STATUS ses) = 3
      ∧ t.u.boot.loads = s.u.boot.loads.filter (fun e => e.1 != ses) ∧ t.u.boot.progLog = s.u.boot.progLog
      ∧ t.get (Obj.PROG_REASON ses) = code ∧ t.get (Obj.PROG_HANDLE ses) = 0 ∧ t.lastEvent Ev.IMAGE_REFUSED 6 0 code ∧ t.log.total = s.log.total + 1 := by
  have hexec := exec_progLoadDone hses hfind hone sigOk chainOk decl hcode
  rw [unitTakes_refused _ _ _ hne, run_all_cons, run_all_cons, run_all_nil] at hexec
  generalize hp : (s.withBoot fun b => { b with loads := s.u.boot.loads.filter fun e => e.1 != ses }).begun = p at hexec
  have hloads : p.u.boot.loads = s.u.boot.loads.filter fun e => e.1 != ses := by rw [← hp]; rfl
  have hnone : p.u.boot.loads.any (fun e => e.1 == ses) = false := by
    rw [hloads]
    exact List.any_eq_false.2 fun e he => by simpa using (List.mem_filter.1 he).2
  rw [loadOutcome_run hses hnone] at hexec
  obtain ⟨hstatus, hhandle, hreason⟩ := loadTold_get (s := p) ses 3 0 code
  have hlog : (p.puts [(Obj.PROG_LOAD_STATUS ses, 3), (Obj.PROG_HANDLE ses, 0), (Obj.PROG_REASON ses, code)]).log.total = s.log.total := by rw [puts_log, ← hp]; rfl
  have hu := puts_u [(Obj.PROG_LOAD_STATUS ses, 3), (Obj.PROG_HANDLE ses, 0), (Obj.PROG_REASON ses, code)] p
  generalize p.puts [(Obj.PROG_LOAD_STATUS ses, 3), (Obj.PROG_HANDLE ses, 0), (Obj.PROG_REASON ses, code)] = q at *
  have hget (k : Nat) : ((logEv Ev.IMAGE_REFUSED 6 0 code).run q).get k = q.get k := Act.Spares.get q (logEv_within _ _ _ _ nofun nofun fun _ => trivial)
  have hunit {β : Type} (f : Units → β) (h : ∀ u x, f { u with dict := x } = f u) : f ((logEv Ev.IMAGE_REFUSED 6 0 code).run q).u = f p.u :=
    (Act.SparesUnit.unit (f := f) q (logEv_within _ _ _ _ trivial trivial fun _ => fun _ => h _ _)).trans (congrArg f hu)
  refine ⟨_, hexec, ?_, (hget _).trans hstatus, ?_, ?_, (hget _).trans (hreason.trans (Nat.mod_eq_of_lt hlt)), (hget _).trans hhandle, logEv_lastEvent .., ?_⟩
  · rw [hunit (fun u => u.tt) fun _ _ => rfl, ← hp]
    rfl
  · rw [hunit (fun u => u.boot.loads) fun _ _ => rfl, hloads]
  · rw [hunit (fun u => u.boot.progLog) fun _ _ => rfl, ← hp]
    rfl
  · rw [logEv_total, hlog]

theorem loadCode_zero {data : Option (List Byte)} {crcOk sigOk chainOk : Bool} {x : UnitDecl}
    (hfirst : s.imageCode 6 (s.get Obj.PROG_COUNTER) data crcOk (s.ownerFlag 1) sigOk chainOk = 0) (hsems : x.semsAgree = true)
    (hroom : s.u.tt.progs.length < 256 ∧ ceilDiv (data.getD []).length 1024 ≤ s.programSpace) : s.loadCode data crcOk sigOk chainOk (some x) = 0 := by
  have hspace : ¬ (256 ≤ s.u.tt.progs.length ∨ s.programSpace < ceilDiv (data.getD []).length 1024) := by omega
  rw [State.loadCode, if_neg (not_not.2 hfirst), if_neg (show ¬ ¬ ((some x).map UnitDecl.semsAgree).getD false = true from not_not.2 hsems), if_neg hspace]

theorem loadCode_refused {data : Option (List Byte)} {crcOk sigOk chainOk : Bool} {decl : Option UnitDecl} {first code : Nat}
    (hfirst : s.imageCode 6 (s.get Obj.PROG_COUNTER) data crcOk (s.ownerFlag 1) sigOk chainOk = first)
    (h : (first ≠ 0 ∧ code = first) ∨ (first = 0 ∧ (decl.map UnitDecl.semsAgree).getD false = false ∧ code = 0x1465)
      ∨ (first = 0 ∧ (decl.map UnitDecl.semsAgree).getD false = true ∧ ¬ (s.u.tt.progs.length < 256 ∧ ceilDiv (data.getD []).length 1024 ≤ s.programSpace) ∧ code = 0x1466)) :
    s.loadCode data crcOk sigOk chainOk decl = code ∧ code ≠ 0 ∧ code < 2 ^ 64 := by
  have hlt : first < 2 ^ 64 := hfirst ▸ imageCode_lt ..
  rw [State.loadCode, hfirst]
  rcases h with ⟨hne, rfl⟩ | ⟨h0, hsems, rfl⟩ | ⟨h0, hsems, hroom, rfl⟩
  · exact ⟨if_pos hne, hne, hlt⟩
  · rw [if_neg (not_not.2 h0), if_pos (ne_true_of_eq_false hsems)]
    decide
  · rw [if_neg (not_not.2 h0), if_neg (not_not.2 hsems), if_pos (by omega)]
    decide

theorem progUnload_frees {h : Nat} (hthere : (Tab.get? s.u.tt.progs h).isSome = true) (hfree : s.progNamed h = false) : progUnload h s = .ok (.all [
    .tt (fun t => { t with progs := Tab.del t.progs h }), .boot (fun b => { b with rollbacks := Tab.del b.rollbacks h })]) := by
  rw [progUnload, if_neg (by rw [Option.isNone_iff_eq_none]; exact Option.isSome_iff_ne_none.1 hthere), if_neg (ne_true_of_eq_false hfree)]

theorem progUnload_named {h : Nat} (hthere : (Tab.get? s.u.tt.progs h).isSome = true) (hnamed : s.progNamed h = true) : progUnload h s = .no Ab.STATE_FORBIDS := by
  rw [progUnload, if_neg (by rw [Option.isNone_iff_eq_none]; exact Option.isSome_iff_ne_none.1 hthere), if_pos hnamed]

theorem progUnload_none {h : Nat} (hnone : Tab.get? s.u.tt.progs h = none) : progUnload h s = .no Ab.RANGE := by
  rw [progUnload, if_pos (by rw [hnone]; rfl)]

end

/-- Settles O53: each command of images, counters and units under its own conditions. -/
theorem imagesAndPrograms : Obligations.ImagesAndPrograms := by
  unfold Obligations.ImagesAndPrograms
  refine ⟨fun s addr len crc d => ⟨rfl, fun hlen hreach => late_of_fetched (fetched_reachable hlen hreach _), fun hlen hno => late_of_not_fetched (fetched_unreachable hlen hno _),
    fun hlen => late_of_not_fetched (fetched_none hlen)⟩, fun s ses kind hses h1 h4 => ?_, fun s ses hses => ⟨?_, ?_, ?_, ?_⟩⟩
  · have hwf : (decide (ses < 16) && decide (1 ≤ kind) && decide (kind ≤ 4)) = true := by simp [hses, h1, h4]
    intro n
    refine ⟨fun hadm => ?_, fun data crcOk sigOk chainOk vals blobs hw => ?_, fun x m hkind hw => ?_, fun hadm => ?_, fun hadm => ⟨fun x hrun hkind => ?_, fun hno => ?_⟩⟩
    · refine ⟨fun v data crcOk hfree hlate hinline => ?_, fun d hfree hlow => ?_, fun d hfree hcounter hkind => ?_, fun v hlate hbusy => ?_⟩
      · exact (exec_guarded_takes (body := imgWrite kind v) hwf rfl hadm (imgWrite_begins (s := s.begun) hfree hlate hinline)).trans (congrArg Host.Outcome.next (imgWriteGo_run ..))
      · exact exec_guarded_refused (body := imgWrite kind (.inline d)) hwf hadm (imgWrite_rollback (s := s.begun) hfree hlow) (by decide)
      · exact exec_guarded_refused (body := imgWrite kind (.inline d)) hwf hadm (imgWrite_range (s := s.begun) hfree hcounter hkind) (by decide)
      · exact exec_guarded_refused (body := imgWrite kind v) hwf hadm (imgWrite_busy (s := s.begun) hlate hbusy) (by decide)
    · intro code
      obtain ⟨t, hexec, hwriting, hreason, hstatus, hslot, hsame, hzero, hne, hbytes⟩ := imageWriteVerified_leaves hw sigOk chainOk vals blobs (code := code) rfl (n := n) rfl
      refine ⟨t, hexec, hwriting, hreason, hstatus, fun hdata => ⟨?_, hsame hdata⟩, fun d hd => ⟨_, hslot d hd, rfl, rfl, rfl, rfl, rfl, fun hkind => ?_, fun hkind => if_pos hkind⟩, hzero, hne, hbytes⟩
      · show s.imageCode kind _ data _ _ _ _ = _
        rw [hdata, imageCode_none]
      · exact ⟨if_pos hkind, if_pos hkind⟩
    · subst hkind
      exact exec_settingsStoreDone hw rfl
    · refine ⟨fun hnone => ?_, fun x hx => ⟨fun hturn => ?_, fun hturn hlow => ?_, fun hturn hcounter hsound => ?_, fun hturn hcounter hsound => ?_⟩⟩
      · exact exec_guarded_refused (body := imgActivate kind) hwf hadm (imgActivate_none (s := s.begun) rfl hnone) (by decide)
      · exact exec_guarded_refused (body := imgActivate kind) hwf hadm ((imgActivate_some (s := s.begun) rfl hx).trans (if_pos hturn)) (by decide)
      · exact exec_guarded_refused (body := imgActivate kind) hwf hadm ((imgActivate_some (s := s.begun) rfl hx).trans ((if_neg hturn).trans (if_pos hlow))) (by decide)
      · exact exec_guarded_refused (body := imgActivate kind) hwf hadm
          ((imgActivate_some (s := s.begun) rfl hx).trans ((if_neg hturn).trans ((if_neg (not_lt.2 hcounter)).trans (if_pos (ne_true_of_eq_false hsound))))) (by decide)
      · exact (exec_guarded_takes (body := imgActivate kind) hwf rfl hadm
          ((imgActivate_some (s := s.begun) rfl hx).trans ((if_neg hturn).trans ((if_neg (not_lt.2 hcounter)).trans (if_neg (not_not.2 hsound)))))).trans
          (congrArg Host.Outcome.next (activated_run ..))
    · refine (exec_guarded_takes (body := imgCounterCommit kind) (a := .modify (Obj.IMG_COUNTER (kind - 1)) (max x.rollback)) hwf rfl hadm ?_).trans ?_
      · have hrun' : s.begun.running kind = some x := hrun
        unfold imgCounterCommit
        rw [hrun']
        simp only [bne_iff_ne.2 hkind]
        rfl
      · rw [run_modify_begun, begun_also]
    · refine (exec_guarded_takes (body := imgCounterCommit kind) (a := .skip) hwf rfl hadm ?_).trans rfl
      unfold imgCounterCommit
      rcases hno with h | h
      · rw [show s.begun.running kind = none from h]
      · rw [h]
        cases s.begun.running 4 <;> rfl
  · intro v data crcOk hadm hlate
    refine (exec_guarded_takes (body := progImage ses v) (decide_eq_true hses) rfl hadm (progImage_begins (s := s.begun) hlate)).trans (congrArg Host.Outcome.next ?_)
    have hboot : (Act.boot fun b => { b with loads := b.loads ++ [(ses, data, crcOk)] }).run s.begun = (s.withBoot fun b => { b with loads := b.loads ++ [(ses, data, crcOk)] }).begun := rfl
    rw [run_all_cons, run_all_cons, run_all_cons, run_all_cons, run_all_nil, hboot, run_put_begun, run_put_begun, run_put_begun, begun_also, puts_cons, puts_cons, puts_cons, puts_nil]
  · intro data crcOk sigOk chainOk decl hfind hone hnext d first room
    refine ⟨fun x hdecl hfirst hsems hroom => ?_, fun code hcode => ?_⟩
    · subst hdecl
      exact progLoadDone_takes hses hfind hone hnext (loadCode_zero hfirst hsems hroom)
    · obtain ⟨hload, hne, hlt⟩ := loadCode_refused (s := s) (decl := decl) (first := first) rfl hcode
      exact progLoadDone_refuses hses hfind hone hload hne hlt
  · intro h hadm
    have hwf : decide (ses < 16) = true := decide_eq_true hses
    refine ⟨fun hthere hfree => ?_, fun hthere hnamed => ?_, fun hnone => ?_⟩
    · exact (exec_guarded_takes (body := progUnload h) hwf rfl hadm (progUnload_frees (s := s.begun) hthere hfree)).trans rfl
    · exact exec_guarded_refused (body := progUnload h) hwf hadm (progUnload_named (s := s.begun) hthere hnamed) (by decide)
    · exact exec_guarded_refused (body := progUnload h) hwf hadm (progUnload_none (s := s.begun) hnone) (by decide)
  · intro hadm
    refine (exec_guarded_takes (body := progCounterCommit) (decide_eq_true hses) rfl hadm rfl).trans ?_
    rw [run_modify_begun, begun_also]
    rfl

end Sys2Proof.Machine
end

section
/-! PROOFS. Domains that are gated and that wake, warnings, and trips (R415, R429, R433 to R436). -/

namespace Sys2Proof.Machine

/-! ## Acts in turn -/

/-- Acts of which none does anything do nothing. -/
theorem run_each_idle {α : Type} {f : α → Act} {xs : List α} {s : State} (h : ∀ x ∈ xs, (f x).run s = s) : (Act.each xs f).run s = s := by
  induction xs with
  | nil => rfl
  | cons x xs ih => rw [run_each_cons, h x (List.mem_cons_self ..), ih fun y hy => h y (List.mem_cons_of_mem _ hy)]

theorem puts_append (xs ys : List (Nat × Nat)) (s : State) : s.puts (xs ++ ys) = (s.puts xs).puts ys := List.foldl_append ..

theorem run_when_false {c : Bool} (h : c = false) (a : Act) (s : State) : (Act.when c a).run s = s := by rw [h]; rfl
theorem run_when_true {c : Bool} (h : c = true) (a : Act) (s : State) : (Act.when c a).run s = a.run s := by rw [h]; rfl

/-- A counter counts from its object and from the free values alone. -/
theorem run_count_objs_congr {s t : State} (hobjs : s.objs = t.objs) (hctr : s.freeCtr = t.freeCtr) (w k n : Nat) : ((Act.count w k n).run s).objs = ((Act.count w k n).run t).objs := by
  have hget (j : Nat) : s.get j = t.get j := by rw [State.get, hobjs, State.get]
  have hput (v : Nat) : ((Act.put k v).run s).objs = ((Act.put k v).run t).objs := congrArg (fun o => Slots.put o k (BitVec.ofNat 64 v)) hobjs
  rw [Act.count, run_read, run_read, hget]
  split
  · exact hput _
  · have hfree : s.free 0 w = t.free 0 w := by rw [State.free, hctr, State.free]
    rw [hfree]
    exact hput _

section
variable {A : Part → Prop} {R : (Units → Units) → Prop}

/-- Engine time is counted in the timetable and in its slots. -/
theorem accrueAll_timetable (hobj : ∀ k, PowerKey k → A (.obj k)) (hctr : A .ctr) (htt : ∀ f, (Act.tt f).Within A R) : accrueAll.Within A R := by
  have hcount (w k n : Nat) (hk : PowerKey k) : (Act.count w k n).Within A R := within_count w k n (hobj k hk) hctr
  have hjob (j : Nat) (f : Job → Job) : (Act.job j f).Within A R := htt _
  have hspend (d j n : Nat) : (spend d j n).Within A R := htt _
  have haccrue (j : Nat) : (accrue j).Within A R := by
    simp only [accrue, within_read]
    intro s
    split
    · trivial
    · simp only [within_ite, within_skip, implies_true, within_all_cons, within_all_nil, within_when, within_each, hjob, hcount _ _ _ (.engine _), hcount _ _ _ (.degraded _),
        hcount _ _ _ (.busy _), htt, hspend, and_true]
  simp [accrueAll, haccrue]

theorem pacer_within (hobj : ∀ k, PowerKey k → A (.obj k)) (d p : Nat) : (putPacer d p).Within A R := by
  simpa [putPacer, hobj _ (.domPacer d)] using fun hd => hobj _ (.pacer d hd)

theorem paceAll_within (hobj : ∀ k, PowerKey k → A (.obj k)) (p : Nat) : (paceAll p).Within A R := by
  simp [paceAll, pacer_within hobj]

theorem beginStep_steps (hobj : ∀ k, PowerKey k → A (.obj k)) (hctr : A .ctr) (hpow : ∀ f g : PowS → _, (Act.pow fun x => { x with steps := f x, stuck := g x }).Within A R) (d mv p extra : Nat) :
    (beginStep d mv p extra).Within A R := by
  have hstep (v q : Nat) := hpow (fun x => Tab.set x.steps d { mv := mv, pacer := p, oldMv := v, oldPacer := q, extra := extra, frozen := x.droop.contains d }) fun x => Tab.del x.stuck d
  have hdone := hpow (fun x => Tab.del x.steps d) fun x => Tab.del x.stuck d
  have hcount : (Act.count 32 (Obj.DOM_STEPS d) 1).Within A R := within_count _ _ _ (hobj _ (.steps d)) hctr
  simp only [beginStep, within_read]
  intro s
  split
  · simp only [within_all_cons, within_all_nil, within_put, within_when, hobj _ (.target d), pacer_within hobj, hcount, hdone, implies_true, and_true]
  · simp only [within_all_cons, within_all_nil, within_put, within_when, hobj _ (.target d), pacer_within hobj, hstep, implies_true, and_true]

theorem alertFor_within (input temp : Nat) (hout : A .out)
    (hpow : ∀ i t : PowS → Nat, (Act.pow fun x => { x with alert := true, statusInput := i x, statusTemp := t x }).Within A R) : (alertFor input temp).Within A R := by
  simp only [alertFor, within_read, within_all_cons, within_all_nil, within_when, within_emit, hout, implies_true, and_true]
  exact fun _ => hpow _ _

end

section
variable {s t : State} {d i : Nat}

theorem alertFor_run (input temp : Nat) (ht : (alertFor input temp).run s = t) : t.objs = s.objs ∧ t.freeCtr = s.freeCtr ∧ t.bytes = s.bytes ∧ t.log = s.log
    ∧ t.u = { s.u with pow := { s.u.pow with alert := true, statusInput := s.u.pow.statusInput ||| input, statusTemp := s.u.pow.statusTemp ||| temp } } := by
  rw [alertFor, run_read, run_all_cons, run_all_cons, run_all_nil, run_when] at ht
  subst ht
  split <;> exact ⟨rfl, rfl, rfl, rfl, rfl⟩

/-! ## Gates and wakes -/

/-- A field gated: its memories read zeros, and no other byte and no object but its state changes. -/
theorem fieldGated_run (ht : (Act.all [fieldGate d, .field d fun x => { x with copies := [], granule := [], slate := [] }]).run s = t) :
    (∀ a, slateBase d 0 ≤ a → a < slateBase d 0 + 34 * 65536 → Memory.read t.bytes a = 0) ∧ (∀ a, storeBase d ≤ a → a < storeBase d + 2097152 → Memory.read t.bytes a = 0)
    ∧ (∀ a, (a < slateBase d 0 ∨ slateBase d 0 + 34 * 65536 ≤ a) → (a < storeBase d ∨ storeBase d + 2097152 ≤ a) → Memory.read t.bytes a = Memory.read s.bytes a)
    ∧ (∀ k, k ≠ Obj.DOM_STATE d → t.get k = s.get k) ∧ t.log = s.log ∧ t.out = s.out := by
  have hbytes : t.bytes = Memory.wipe (Memory.wipe s.bytes (slateBase d 0) (34 * 65536)) (storeBase d) 2097152 := by rw [← ht]; rfl
  have hread (a : Nat) : Memory.read t.bytes a = if a < storeBase d ∨ storeBase d + 2097152 ≤ a then
      if a < slateBase d 0 ∨ slateBase d 0 + 34 * 65536 ≤ a then Memory.read s.bytes a else 0 else 0 := by
    rw [hbytes, Memory.read_wipe, Memory.read_wipe]
  refine ⟨fun a h1 h2 => ?_, fun a h1 h2 => ?_, fun a h1 h2 => ?_, fun k hk => ?_, by rw [← ht]; rfl, by rw [← ht]; rfl⟩
  · rw [hread, if_neg (c := a < slateBase d 0 ∨ _) (by omega), ite_self]
  · rw [hread, if_neg (by omega)]
  · rw [hread, if_pos h2, if_pos h1]
  · rw [← ht]
    show ((Act.put (Obj.DOM_STATE d) 0).run s).get k = s.get k
    rw [run_put_get, if_neg hk]

theorem exec_idleGate (hd : d < 80) (hon : s.get (Obj.DOM_STATE d) = 2) (hmay : s.mayGate d = true) :
    exec (.idleGate d) s = .next (((((if d < 66 then (Act.all [fieldGate d, .field d fun x => { x with copies := [], granule := [], slate := [] }]).run s.begun else s.begun : State)).putObj
      (Obj.DOM_STATE d) 3).withPow fun x => { x with steps := Tab.del x.steps d }).offered) := by
  have hgo : ¬ (s.begun.get (Obj.DOM_STATE d) ≠ 2 ∨ ¬ s.begun.mayGate d = true) := not_or.2 ⟨not_not.2 hon, not_not.2 hmay⟩
  refine (need_next s (decide_eq_true hd) _).trans (congrArg Host.Outcome.next ?_)
  rw [run_read, if_neg hgo, run_all_cons, run_all_cons, run_all_cons, run_all_cons, run_all_nil, run_when]
  by_cases h : d < 66
  · rw [if_pos h, if_pos (decide_eq_true h)]
    rfl
  · rw [if_neg h, if_neg (by simpa using h)]
    rfl

theorem fieldPoint_congr (h : t.u = s.u) (f : Nat) : t.fieldPoint f = s.fieldPoint f := by
  simp only [State.fieldPoint, State.jobsOn, State.placedJobs, State.railCap, h]

/-- The rail at which a variable domain comes up. -/
def State.wakeRail (s : State) (d : Nat) : Nat :=
  if 66 ≤ d then min (s.railCap d) (s.get (Obj.DOM_SET_MV d)) else if s.u.pow.junction then 550 else (s.fieldPoint d).getD (min (s.railCap d) (s.get (Obj.DOM_RAIL_MV d)))

theorem exec_domainWakeDone (hd : d < 80) (hwaking : s.get (Obj.DOM_STATE d) = 1) (hsees : d ∉ s.u.pow.blind) : exec (.domainWakeDone d) s = .next ((Act.all [
    .put (Obj.DOM_STATE d) 2,
    .when (d == 74 || d == 75 || d == 76) (.read fun s => .all [
      putRail d (min (s.railCap d) (s.get (Obj.DOM_SET_MV d))), .put (Obj.DOM_TARGET_MV d) (min (s.railCap d) (s.get (Obj.DOM_SET_MV d)))]),
    .when (decide (d < 66)) (.read fun s =>
      let v := if s.u.pow.junction then 550 else (s.fieldPoint d).getD (min (s.railCap d) (s.get (Obj.DOM_RAIL_MV d)))
      .all [putRail d v, .put (Obj.DOM_TARGET_MV d) v]),
    .when (decide (d < 66) || d == 74 || d == 75 || d == 76) (.read fun s => putPacer d (s.u.pow.ceilPacer (s.pacerCap d))),
    .pow (fun x => { x with steps := Tab.del x.steps d }),
    risen d]).run s.begun) := by
  have hgo : ¬ s.begun.get (Obj.DOM_STATE d) ≠ 1 := not_not.2 hwaking
  have hblind : s.begun.u.pow.blind.contains d = false := by simpa using hsees
  refine (need_next s (decide_eq_true hd) _).trans (congrArg Host.Outcome.next ?_)
  rw [run_read, if_neg hgo]
  simp only
  rw [hblind, Bool.false_and, run_all_cons, run_all_cons, run_when_false rfl]
  rfl

/-- A fixed-rail domain that has woken. -/
theorem domainWakeDone_fixed (hd : d < 80) (h66 : 66 ≤ d) (h4 : d ≠ 74) (h5 : d ≠ 75) (h6 : d ≠ 76) (hwaking : s.get (Obj.DOM_STATE d) = 1) (hsees : d ∉ s.u.pow.blind) :
    exec (.domainWakeDone d) s = .next ((((s.putObj (Obj.DOM_STATE d) 2).sending []).withPow fun x => { x with steps := Tab.del x.steps d }).arrived d) := by
  have hset : (d == 74 || d == 75 || d == 76) = false := by simp [h4, h5, h6]
  have hfield : decide (d < 66) = false := by simpa using h66
  rw [exec_domainWakeDone hd hwaking hsees, run_all_cons, run_all_cons, run_all_cons, run_all_cons, run_all_cons, run_all_cons, run_all_nil, run_when_false hset, run_when_false hfield,
    run_when_false (by rw [hfield, Bool.false_or, hset])]
  rfl

theorem putRail_begun (d v : Nat) (s : State) : (putRail d v).run s.begun = (s.puts (railSlots d v)).begun := by rw [putRail_run, puts_begun]
theorem putPacer_begun (d p : Nat) (s : State) : (putPacer d p).run s.begun = (s.puts (pacerSlots d p)).begun := by rw [putPacer_run, puts_begun]

/-- A variable domain comes up at its rail, with its pacer. -/
theorem domainWakeDone_variable (h : d < 66 ∨ d = 74 ∨ d = 75 ∨ d = 76) (hwaking : s.get (Obj.DOM_STATE d) = 1) (hsees : d ∉ s.u.pow.blind) :
    exec (.domainWakeDone d) s = .next ((((s.puts ([(Obj.DOM_STATE d, 2)] ++ railSlots d (s.wakeRail d) ++ [(Obj.DOM_TARGET_MV d, s.wakeRail d)]
      ++ pacerSlots d (s.u.pow.ceilPacer (s.pacerCap d)))).sending []).withPow fun x => { x with steps := Tab.del x.steps d }).arrived d) := by
  have hd : d < 80 := by omega
  let p := (Act.put (Obj.DOM_STATE d) 2).run s
  have hpu : p.u = s.u := rfl
  have hpget {k : Nat} (hk : k ≠ Obj.DOM_STATE d) : p.get k = s.get k := (run_put_get ..).trans (if_neg hk)
  have hrail : ∃ q : State, q = ((p.puts (railSlots d (s.wakeRail d))).puts [(Obj.DOM_TARGET_MV d, s.wakeRail d)])
      ∧ (Act.when (decide (d < 66)) (.read fun s =>
        let v := if s.u.pow.junction then 550 else (s.fieldPoint d).getD (min (s.railCap d) (s.get (Obj.DOM_RAIL_MV d)))
        .all [putRail d v, .put (Obj.DOM_TARGET_MV d) v])).run ((Act.when (d == 74 || d == 75 || d == 76) (.read fun s => .all [
          putRail d (min (s.railCap d) (s.get (Obj.DOM_SET_MV d))), .put (Obj.DOM_TARGET_MV d) (min (s.railCap d) (s.get (Obj.DOM_SET_MV d)))])).run p.begun) = q.begun := by
    refine ⟨_, rfl, ?_⟩
    by_cases hf : d < 66
    · have hset : (d == 74 || d == 75 || d == 76) = false := by simp; omega
      have hv : (if p.begun.u.pow.junction then 550 else (p.begun.fieldPoint d).getD (min (p.begun.railCap d) (p.begun.get (Obj.DOM_RAIL_MV d)))) = s.wakeRail d := by
        rw [show s.wakeRail d = _ from if_neg (not_le.2 hf), begun_get, hpget (by unfold Obj.DOM_RAIL_MV Obj.DOM_STATE; omega), fieldPoint_congr (s := s) rfl]
        rfl
      rw [run_when_false hset, run_when_true (decide_eq_true hf), run_read]
      simp only
      rw [hv, run_all_cons, run_all_cons, run_all_nil, putRail_begun, run_put_begun]
      rfl
    · have hset : (d == 74 || d == 75 || d == 76) = true := by
        rcases h with h | h | h | h
        · exact absurd h hf
        all_goals rw [h]; rfl
      have hv : min (p.begun.railCap d) (p.begun.get (Obj.DOM_SET_MV d)) = s.wakeRail d := by
        rw [show s.wakeRail d = _ from if_pos (not_lt.1 hf), begun_get, hpget (by unfold Obj.DOM_SET_MV Obj.DOM_STATE; omega)]
        rfl
      rw [run_when_true hset, run_when_false (by simpa using hf), run_read, hv, run_all_cons, run_all_cons, run_all_nil, putRail_begun, run_put_begun]
      rfl
  obtain ⟨q, hq, hrun⟩ := hrail
  have hpacer : (decide (d < 66) || d == 74 || d == 75 || d == 76) = true := by
    rcases h with h | h | h | h
    · rw [decide_eq_true h]
      rfl
    all_goals rw [h]; rfl
  have hqu : q.begun.u = s.u := by rw [begun_u, hq, puts_u, puts_u, hpu]
  have hcap : q.begun.u.pow.ceilPacer (q.begun.pacerCap d) = s.u.pow.ceilPacer (s.pacerCap d) := by rw [State.pacerCap, hqu, State.pacerCap]
  rw [exec_domainWakeDone hd hwaking hsees, run_all_cons, run_all_cons, run_all_cons, run_all_cons, run_all_cons, run_all_cons, run_all_nil, run_put_begun, hrun, run_when_true hpacer, run_read,
    hcap, putPacer_begun, hq, puts_append, puts_append, puts_append]
  rfl

/-! ## Warnings -/

theorem excursion_cool (h : s.reading i < 1000) : (excursion i).run s = s := by
  rw [excursion, run_read]
  simp only
  rw [if_pos (.inr (.inr h))]
  rfl

theorem logNoted_keeps {note : Act} {l : EventLog → EventLog} (hnote : note = .logNotes l) (code inst d0 d1 : Nat) (s : State) :
    ((logNoted note code inst d0 d1).run s).objs = s.objs ∧ ((logNoted note code inst d0 d1).run s).bytes = s.bytes ∧ ((logNoted note code inst d0 d1).run s).u.pow = s.u.pow := by
  have hwithin {A : Part → Prop} {R : (Units → Units) → Prop} (hlog : A .log) (hout : A .out) (hdict : ∀ f, (Act.dict f).Within A R) : (logNoted note code inst d0 d1).Within A R :=
    logNoted_within (by rw [hnote]; exact hlog) _ _ _ _ hlog hout hdict
  exact ⟨Act.objs_of_within (R := fun _ => True) (hwithin (fun _ => nofun) (fun _ => nofun) fun _ => trivial) s, Act.Spares.bytes s (hwithin nofun nofun fun _ => trivial),
    Act.SparesUnit.unit (f := fun u => u.pow) s (hwithin trivial trivial fun _ => fun _ => rfl)⟩

theorem logNoted_lastEvent {note : Act} {l : EventLog → EventLog} (hnote : note = .logNotes l) (hl : ∀ x, (l x).total = x.total ∧ (l x).ring = x.ring ∧ (l x).toFlash = x.toFlash)
    (code inst d0 d1 : Nat) (s : State) :
    ((logNoted note code inst d0 d1).run s).lastEvent code inst d0 d1 ∧ ((logNoted note code inst d0 d1).run s).log.total = s.log.total + 1 := by
  obtain ⟨htot, hring, -⟩ := logNoted_log (note := note) (fun t => by rw [hnote]; exact ⟨rfl, rfl, (hl t.log).2.2⟩) code inst d0 d1 s
  exact ⟨lastEvent_of_ring _ _ _ _ s htot hring, htot⟩

/-- A sensor at 100 °C or more begins an excursion, whose domain then steps down. -/
theorem excursion_begins (hhot : s.hotKey i ∉ s.u.pow.hot) (hok : i ∉ s.u.pow.failed) (h : 1000 ≤ s.reading i) :
    ∃ t : State, (excursion i).run s = (coolDomain false (s.hotKey i)).run t ∧ t.objs = (s.counted 32 Obj.WARN_EVENTS 1).objs ∧ t.u.pow.hot = s.u.pow.hot ++ [s.hotKey i]
      ∧ t.u.pow.alert = true ∧ t.u.pow.statusTemp = s.u.pow.statusTemp ||| 64
      ∧ t.lastEvent Ev.THERMAL_WARNING i (ofSigned 64 (s.reading i)) (if s.hotKey i < 128 then s.hotKey i else 0xFFFF) ∧ t.log.total = s.log.total + 1 ∧ t.bytes = s.bytes := by
  have hgo : ¬ (s.u.pow.hot.contains (s.hotKey i) = true ∨ s.u.pow.failed.contains i = true ∨ s.reading i < 1000) := by
    simp only [List.contains_iff_mem, not_or, not_lt]
    exact ⟨hhot, hok, h⟩
  have hrun : (excursion i).run s = (coolDomain false (s.hotKey i)).run ((logNoted noteThermal Ev.THERMAL_WARNING i (ofSigned 64 (s.reading i)) (if s.hotKey i < 128 then s.hotKey i
      else 0xFFFF)).run ((Act.count 32 Obj.WARN_EVENTS 1).run ((alertFor 0 64).run ((Act.pow fun x => { x with hot := x.hot ++ [s.hotKey i] }).run s)))) := by
    rw [excursion, run_read]
    simp only
    rw [if_neg hgo]
    rfl
  generalize hp : (Act.pow fun x => { x with hot := x.hot ++ [s.hotKey i] }).run s = p at hrun
  obtain ⟨haobjs, hactr, habytes, halog, hau⟩ := alertFor_run (s := p) 0 64 rfl
  generalize (alertFor 0 64).run p = q at *
  have hcount : ((Act.count 32 Obj.WARN_EVENTS 1).run q).objs = (s.counted 32 Obj.WARN_EVENTS 1).objs :=
    run_count_objs_congr (by rw [haobjs, ← hp]; rfl) (by rw [hactr, ← hp]; rfl) _ _ _
  have hcu : ((Act.count 32 Obj.WARN_EVENTS 1).run q).u = q.u := run_count_u ..
  have hclog : ((Act.count 32 Obj.WARN_EVENTS 1).run q).log = s.log := by rw [run_count_log, halog, ← hp]; rfl
  have hcbytes : ((Act.count 32 Obj.WARN_EVENTS 1).run q).bytes = s.bytes := by rw [run_count_bytes, habytes, ← hp]; rfl
  generalize (Act.count 32 Obj.WARN_EVENTS 1).run q = c at *
  obtain ⟨hobjs, hbytes, hpow⟩ := logNoted_keeps (note := noteThermal) rfl Ev.THERMAL_WARNING i (ofSigned 64 (s.reading i)) (if s.hotKey i < 128 then s.hotKey i else 0xFFFF) c
  obtain ⟨hlast, htotal⟩ := logNoted_lastEvent (note := noteThermal) rfl (fun _ => ⟨rfl, rfl, rfl⟩) Ev.THERMAL_WARNING i (ofSigned 64 (s.reading i))
    (if s.hotKey i < 128 then s.hotKey i else 0xFFFF) c
  refine ⟨_, hrun, hobjs.trans hcount, ?_, ?_, ?_, hlast, by rw [htotal, hclog], hbytes.trans hcbytes⟩
  · rw [hpow, hcu, hau, ← hp]
    rfl
  · rw [hpow, hcu, hau]
  · rw [hpow, hcu, hau, ← hp]
    rfl

theorem exec_thermalWarning (hi : i < 128) (temp : Int) : exec (.thermalWarning i temp) s = .next ((excursion i).run ((s.withPow fun x => { x with temps := Tab.set x.temps i temp }).sending [])) :=
  need_next s (decide_eq_true hi) _

/-- A tick at which nothing is hot and every fixed-rail pacer is at its top changes what the regulators read, and offers freed power. -/
theorem exec_thermalStepTick (hhot : s.u.pow.hot = []) (hpacer : ∀ d ∈ [66, 67, 68, 69, 70, 71, 72, 77, 78, 79], s.get (Obj.DOM_PACER d) = 32) (v : Option Int) :
    exec (.thermalStepTick [] v) s = .next ((match v with
      | some c => s.putObj Obj.VR_TEMP (ofSigned 16 c)
      | none => s).sending []).offered := by
  have hrest (p : State) (hu : p.u.pow.hot = []) (hpacer : ∀ d ∈ [66, 67, 68, 69, 70, 71, 72, 77, 78, 79], p.get (Obj.DOM_PACER d) = 32) :
      (Act.each [66, 67, 68, 69, 70, 71, 72, 77, 78, 79] warmFixed).run ((Act.read fun s => .each s.u.pow.hot tickHot).run p) = p := by
    rw [run_read, hu, run_each_nil]
    exact run_each_idle fun d hd => by rw [warmFixed, run_read, run_when_false (by rw [hpacer d hd]; rfl)]
  refine (need_next s rfl _).trans (congrArg Host.Outcome.next ?_)
  rw [run_all_cons, run_all_cons, run_all_cons, run_all_cons, run_all_cons, run_all_cons, run_all_cons, run_all_nil]
  rw [show (([] : List (Nat × Int)).map fun e => e.1).filter (fun i => decide (i < 66)) = [] from rfl, run_each_nil, run_each_nil]
  cases v with
  | none =>
    rw [run_skip, hrest]
    · rfl
    · exact hhot
    · exact hpacer
  | some c =>
    rw [hrest]
    · rfl
    · exact hhot
    · exact fun d hd => (run_put_get ..).trans ((if_neg (by unfold Obj.DOM_PACER Obj.VR_TEMP; omega)).trans (hpacer d hd))

/-! ## Trips -/

theorem exec_overcurrentTrip (h : s.u.pow.overcurrent = false) (mw mv : Nat) :
    ∃ t : State, exec (.overcurrentTrip mw mv) s = .next ((t.raised 11 0).told) ∧ t.u.pow.overcurrent = true
      ∧ t.lastEvent Ev.HW_TRIP 0 mw mv ∧ t.log.total = s.log.total + 1 ∧ t.u.pow.alert = true ∧ t.u.pow.statusInput = s.u.pow.statusInput ||| 4
      ∧ t.objs = (((((s.withPow fun x => { x with overcurrent := true, steps := x.steps.map fun e => (e.1, { e.2 with pacer := min 1 e.2.pacer }) }).sending []).accrued).paced 1).counted 32 Obj.OC_EVENTS 1).objs := by
  have hgo : (!s.begun.u.pow.overcurrent) = true := by rw [begun_u, h]; rfl
  have hexec : exec (.overcurrentTrip mw mv) s = .next (((logNoted noteCurrent Ev.HW_TRIP 0 mw mv).run ((alertFor 4 0).run
      (((((s.withPow fun x => { x with overcurrent := true, steps := x.steps.map fun e => (e.1, { e.2 with pacer := min 1 e.2.pacer }) }).sending []).accrued).paced 1).counted 32
        Obj.OC_EVENTS 1))).raised 11 0).told := by
    refine (need_next s rfl _).trans (congrArg Host.Outcome.next ?_)
    rw [run_read, run_all_cons, run_all_cons, run_all_nil, run_when_true hgo, run_all_cons, run_all_cons, run_all_cons, run_all_cons, run_all_cons, run_all_cons, run_all_cons, run_all_nil]
    rfl
  generalize hb : (s.withPow fun x => { x with overcurrent := true, steps := x.steps.map fun e => (e.1, { e.2 with pacer := min 1 e.2.pacer }) }).sending [] = b at hexec ⊢
  have haccrue : b.accrued.u.pow = b.u.pow ∧ b.accrued.log = b.log :=
    ⟨Act.SparesUnit.unit (f := fun u => u.pow) b (accrueAll_timetable (fun _ _ => trivial) trivial fun _ => fun _ => rfl),
      Act.Spares.log b (accrueAll_timetable (fun _ _ => nofun) nofun fun _ => trivial)⟩
  have hpace : (b.accrued.paced 1).u = b.accrued.u ∧ (b.accrued.paced 1).log = b.accrued.log :=
    ⟨Act.SparesUnit.unit (f := id) b.accrued (paceAll_within (fun _ _ => trivial) 1), Act.Spares.log b.accrued (paceAll_within (fun _ _ => nofun) 1)⟩
  generalize b.accrued.paced 1 = q at *
  have hcu : (q.counted 32 Obj.OC_EVENTS 1).u = q.u := run_count_u ..
  have hclog : (q.counted 32 Obj.OC_EVENTS 1).log = q.log := run_count_log ..
  generalize q.counted 32 Obj.OC_EVENTS 1 = c at *
  obtain ⟨haobjs, -, -, halog, hau⟩ := alertFor_run (s := c) 4 0 rfl
  generalize (alertFor 4 0).run c = e at *
  obtain ⟨hobjs, -, hpow⟩ := logNoted_keeps (note := noteCurrent) rfl Ev.HW_TRIP 0 mw mv e
  obtain ⟨hlast, htotal⟩ := logNoted_lastEvent (note := noteCurrent) rfl (fun _ => ⟨rfl, rfl, rfl⟩) Ev.HW_TRIP 0 mw mv e
  have hcpow : c.u.pow = b.u.pow := by rw [hcu, hpace.1, haccrue.1]
  refine ⟨_, hexec, ?_, hlast, ?_, ?_, ?_, hobjs.trans haobjs⟩
  · rw [hpow, hau]
    show c.u.pow.overcurrent = true
    rw [hcpow, ← hb]
    rfl
  · rw [htotal, halog, hclog, hpace.2, haccrue.2, ← hb]
    rfl
  · rw [hpow, hau]
  · rw [hpow, hau]
    show c.u.pow.statusInput ||| 4 = _
    rw [hcpow, ← hb]
    rfl

theorem exec_junctionTrip (hi : i < 128) (hok : i ∉ s.u.pow.failed) {temp : Int} (hhot : 1150 ≤ temp) (h : s.u.pow.junction = false) :
    ∃ t : State, exec (.junctionTrip i temp) s = .next ((t.raised 11 1).told) ∧ t.u.pow.junction = true ∧ t.u.pow.thermtrip = true
      ∧ t.lastEvent Ev.HW_TRIP 1 (ofSigned 64 temp) (s.get Obj.INPUT_MV) ∧ .pin .thermtripN false ∈ t.out := by
  have hgo : (!s.begun.u.pow.junction && !s.begun.u.pow.failed.contains i && decide (1150 ≤ temp)) = true := by
    rw [begun_u, h, decide_eq_true hhot]
    simpa using hok
  let warmed := (excursion i).run ((Act.pow fun x => { x with temps := Tab.set x.temps i temp }).run s.begun)
  have hexec : exec (.junctionTrip i temp) s = .next (((logNoted noteThermal Ev.HW_TRIP 1 (ofSigned 64 temp) (s.get Obj.INPUT_MV)).run ((alertFor 0 128).run ((Act.count 32 Obj.TRIP_EVENTS 1).run
      ((Act.emit (.pin .thermtripN false)).run ((Act.pow fun x => { x with junction := true }).run ((Act.read fun s => .each s.variable fun d => beginStep d 550 1 0).run ((paceAll 1).run
        (accrueAll.run ((Act.pow fun x => { x with thermtrip := true }).run warmed))))))))).raised 11 1).told := by
    refine (need_next s (decide_eq_true hi) _).trans (congrArg Host.Outcome.next ?_)
    rw [run_read, run_all_cons, run_all_cons, run_all_cons, run_all_cons, run_all_nil, run_when_true hgo, run_all_cons, run_all_cons, run_all_cons, run_all_cons, run_all_cons,
      run_all_cons, run_all_cons, run_all_cons, run_all_cons, run_all_cons, run_all_nil]
    rfl
  generalize hb : (Act.pow fun x => { x with thermtrip := true }).run warmed = b at hexec
  have hb' : b.u.pow.thermtrip = true := by rw [← hb]; rfl
  have hsteps : ((Act.read fun s => .each s.variable fun d => beginStep d 550 1 0).run ((paceAll 1).run (accrueAll.run b))).u.pow.thermtrip = true := by
    have hstep (d : Nat) : (beginStep d 550 1 0).SparesUnit fun u => u.pow.thermtrip := by
      refine beginStep_steps (fun _ _ => trivial) trivial (fun f g => ?_) d 550 1 0
      exact fun _ => rfl
    have hbegin : (Act.read fun s => .each s.variable fun d => beginStep d 550 1 0).SparesUnit fun u => u.pow.thermtrip :=
      fun s => (within_each ..).2 fun d _ => hstep d
    rw [hbegin.unit, Act.SparesUnit.unit (f := fun u => u.pow.thermtrip) _ (paceAll_within (fun _ _ => trivial) 1),
      Act.SparesUnit.unit (f := fun u => u.pow.thermtrip) _ (accrueAll_timetable (fun _ _ => trivial) trivial fun _ => fun _ => rfl), hb']
  generalize (Act.read fun s => .each s.variable fun d => beginStep d 550 1 0).run ((paceAll 1).run (accrueAll.run b)) = q at *
  generalize he : (Act.emit (.pin .thermtripN false)).run ((Act.pow fun x => { x with junction := true }).run q) = e at hexec
  have heu : e.u.pow.junction = true ∧ e.u.pow.thermtrip = true := by rw [← he]; exact ⟨rfl, hsteps⟩
  have heout : Emit.pin .thermtripN false ∈ e.out := by
    rw [← he, run_emit_out]
    exact List.mem_append_right _ (List.mem_singleton_self _)
  have hcu : ((Act.count 32 Obj.TRIP_EVENTS 1).run e).u = e.u := run_count_u ..
  have hcout := run_out_prefix (Act.count 32 Obj.TRIP_EVENTS 1) e
  generalize (Act.count 32 Obj.TRIP_EVENTS 1).run e = c at *
  obtain ⟨-, -, -, -, hau⟩ := alertFor_run (s := c) 0 128 rfl
  have haout := run_out_prefix (alertFor 0 128) c
  generalize (alertFor 0 128).run c = a at *
  obtain ⟨-, -, hpow⟩ := logNoted_keeps (note := noteThermal) rfl Ev.HW_TRIP 1 (ofSigned 64 temp) (s.get Obj.INPUT_MV) a
  obtain ⟨hlast, -⟩ := logNoted_lastEvent (note := noteThermal) rfl (fun _ => ⟨rfl, rfl, rfl⟩) Ev.HW_TRIP 1 (ofSigned 64 temp) (s.get Obj.INPUT_MV) a
  refine ⟨_, hexec, ?_, ?_, hlast, ((hcout.trans haout).trans (run_out_prefix _ a)).subset heout⟩
  · rw [hpow, hau]
    show c.u.pow.junction = true
    rw [hcu, heu.1]
  · rw [hpow, hau]
    show c.u.pow.thermtrip = true
    rw [hcu, heu.2]

theorem coolEverywhere_iff : ((List.range 128).all fun i => s.u.pow.failed.contains i || decide (s.reading i < 950)) = true ↔ ∀ i, i < 128 → i ∉ s.u.pow.failed → s.reading i < 950 := by
  simp only [List.all_eq_true, List.mem_range, Bool.or_eq_true, List.contains_iff_mem, decide_eq_true_eq]
  exact forall₂_congr fun i _ => or_iff_not_imp_left

end

theorem idleGate_fixed {s : State} {d : Nat} (hd : d < 80) (h66 : 66 ≤ d) (hon : s.get (Obj.DOM_STATE d) = 2) (hmay : s.mayGate d = true) :
    exec (.idleGate d) s = .next (((s.putObj (Obj.DOM_STATE d) 3).sending []).withPow fun x => { x with steps := Tab.del x.steps d }).offered := by
  rw [exec_idleGate hd hon hmay, if_neg (not_lt.2 h66)]
  rfl

theorem exec_overcurrentClear {s : State} (h : s.u.pow.overcurrent = true) :
    exec .overcurrentClear s = .next ((((s.withPow fun x => { x with overcurrent := false }).sending []).ceased 11 0).restored.offered) := by
  refine (need_when_yes rfl (fun s => s.u.pow.overcurrent) _ h).trans ?_
  rw [run_all_cons, run_all_cons, run_all_cons, run_all_cons, run_all_nil]
  rfl

theorem exec_junctionTripClear {s : State} (h : s.u.pow.junction = true) (hcool : ∀ i, i < 128 → i ∉ s.u.pow.failed → s.reading i < 950) :
    exec .junctionTripClear s = .next ((((s.withPow fun x => { x with junction := false, thermtrip := false }).sending [.pin .thermtripN true]).ceased 11 1).restored.offered) := by
  refine (need_when_yes rfl (fun s => s.u.pow.junction && (List.range 128).all fun i => s.u.pow.failed.contains i || decide (s.reading i < 950)) _
    (Bool.and_eq_true_iff.2 ⟨h, coolEverywhere_iff.2 hcool⟩)).trans ?_
  rw [run_all_cons, run_all_cons, run_all_cons, run_all_cons, run_all_cons, run_all_nil]
  rfl

theorem withPow_keeps (f : PowS → PowS) (s : State) : (s.withPow f).bytes = s.bytes ∧ (s.withPow f).log = s.log ∧ (s.withPow f).out = s.out ∧ ∀ k, (s.withPow f).get k = s.get k :=
  ⟨rfl, rfl, rfl, fun _ => rfl⟩

theorem idleGate_field {s : State} {d : Nat} (hd : d < 80) (hf : d < 66) (hon : s.get (Obj.DOM_STATE d) = 2) (hmay : s.mayGate d = true) :
    ∃ t : State, exec (.idleGate d) s = .next t.offered ∧ t.get (Obj.DOM_STATE d) = 3
      ∧ (∀ a, slateBase d 0 ≤ a → a < slateBase d 0 + 34 * 65536 → Memory.read t.bytes a = 0) ∧ (∀ a, storeBase d ≤ a → a < storeBase d + 2097152 → Memory.read t.bytes a = 0)
      ∧ (∀ a, (a < slateBase d 0 ∨ slateBase d 0 + 34 * 65536 ≤ a) → (a < storeBase d ∨ storeBase d + 2097152 ≤ a) → Memory.read t.bytes a = Memory.read s.bytes a)
      ∧ (∀ k, k ≠ Obj.DOM_STATE d → t.get k = s.get k) ∧ t.log = s.log ∧ t.out = [] := by
  have hexec := exec_idleGate hd hon hmay
  rw [if_pos hf] at hexec
  obtain ⟨hslates, hstore, hbytes, hget, hlog, hout⟩ := fieldGated_run (s := s.begun) (d := d) rfl
  generalize (Act.all [fieldGate d, .field d fun x => { x with copies := [], granule := [], slate := [] }]).run s.begun = g at *
  have hput (k : Nat) := putObj_get g (Obj.DOM_STATE d) 3 k
  have hplain : (g.putObj (Obj.DOM_STATE d) 3).bytes = g.bytes ∧ (g.putObj (Obj.DOM_STATE d) 3).log = g.log ∧ (g.putObj (Obj.DOM_STATE d) 3).out = g.out := ⟨run_put_bytes .., run_put_log .., run_put_out ..⟩
  generalize Obj.DOM_STATE d = key at *
  generalize g.putObj key 3 = p at *
  obtain ⟨hpbytes, hplog, hpout⟩ := hplain
  obtain ⟨htbytes, htlog, htout, htget⟩ := withPow_keeps (fun x => { x with steps := Tab.del x.steps d }) p
  generalize p.withPow (fun x => { x with steps := Tab.del x.steps d }) = t at *
  rw [hpbytes] at htbytes
  refine ⟨t, hexec, ?_, ?_, ?_, ?_, fun k hk => ?_, ?_, ?_⟩
  · rw [htget, hput, if_pos rfl, Nat.mod_eq_of_lt (by norm_num)]
  · rw [htbytes]
    exact hslates
  · rw [htbytes]
    exact hstore
  · rw [htbytes]
    exact hbytes
  · rw [htget, hput, if_neg hk]
    exact hget k hk
  · rw [htlog, hplog]
    exact hlog
  · rw [htout, hpout]
    exact hout

/-- Settles O36: gates and wakes of domains, excursions of their sensors, and the two trips with their clears. -/
theorem gatesHeatAndTrips : Obligations.GatesHeatAndTrips := by
  unfold Obligations.GatesHeatAndTrips
  intro s
  refine ⟨fun d hd hon hmay => ⟨fun h66 => ?_, fun hf => ?_⟩, fun d h66 hd h4 h5 h6 hwaking hsees => domainWakeDone_fixed hd h66 h4 h5 h6 hwaking hsees, fun d h hwaking hsees => ?_,
    fun i temp hi hok => ?_, fun v hhot hpacer => exec_thermalStepTick hhot hpacer v, fun mw mv h => exec_overcurrentTrip h mw mv, fun h => ?_,
    fun i temp hi hok hhot h => exec_junctionTrip hi hok hhot h, fun h hno => ?_, fun h hcool => ?_⟩
  · exact idleGate_fixed hd h66 hon hmay
  · exact idleGate_field hd hf hon hmay
  · exact domainWakeDone_variable h hwaking hsees
  · intro b
    refine ⟨fun hcool => ?_, fun hhot hkey => ?_⟩
    · rw [exec_thermalWarning hi]
      exact congrArg Host.Outcome.next (excursion_cool hcool)
    · obtain ⟨t, hrun, hrest⟩ := excursion_begins (s := b) (i := i) hkey hok hhot
      exact ⟨t, (exec_thermalWarning hi temp).trans (congrArg Host.Outcome.next hrun), hrest⟩
  · exact exec_overcurrentClear h
  · refine need_when_no rfl (fun s => s.u.pow.junction && (List.range 128).all fun i => s.u.pow.failed.contains i || decide (s.reading i < 950)) _ ?_
    exact Bool.eq_false_iff.2 fun e => hno (coolEverywhere_iff.1 (Bool.and_eq_true_iff.1 e).2)
  · exact exec_junctionTripClear h hcool

end Sys2Proof.Machine
end

section
/-! PROOFS. The clamp of a phase's point, reported for a context beyond the dictionary's (R428). -/

namespace Sys2Proof.Machine

/-- A running job of context 65,536 at 750 mV, whose one phase asks for 755 mV. -/
def jobPhased : Job := { run := 6, stage := 0, ctx := 65536, cls := 2, decl := { phases := [755] }, phase := .running, mv := 750 }

/-- A machine that runs it. -/
def phaseClamped : State := State.reset.withTt fun t => { t with jobs := [(4, jobPhased)] }

/-- The second figure of the latest event of an outcome. -/
def latestFigure : Host.Outcome State Fault Refusal → Option Nat
  | .next t => t.log.ring.head?.map (·.data1)
  | _ => none

/-- Refutes O35: the clamp of a phase's point reports the object's key in 24 bits, the statement has it in 32, and the key of `PREFERRED_MV` of a context
beyond those of the dictionary does not fit 24. -/
theorem not_budgetsAreKept : ¬ Obligations.BudgetsAreKept := by
  unfold Obligations.BudgetsAreKept
  intro h
  obtain ⟨-, -, -, -, -, -, -, -, hphase, -⟩ := h phaseClamped
  have hnext := hphase 4 0 jobPhased 755 (by decide) rfl rfl rfl
  have hfigure := congrArg latestFigure hnext
  exact absurd hfigure (by decide +kernel)

end Sys2Proof.Machine
end

section
/-! PROOFS. A stream whose home lies on a lease (R166, R273, R279). -/

namespace Sys2Proof.Machine

/-- Stream 5 of context 0 is READY, its home one tile on slot 0 of lease 1; session 2 may command it. -/
def streamLeased : State :=
  (State.reset.puts [(Obj.DEVICE_STATE, 3), (Obj.TRANSPORT 2, 3), (Obj.LEVEL 2, 1), (Obj.STREAM_STATE 5, 1), (Obj.ADMIT_SESSIONS 0, 4)]).withUnits fun u => { u with
    streams := [(5, { home := (3, 1) })], mem := { u.mem with tiles := [(3, { ctx := 0, home := .lease 1 0 })] } }

/-- The first thing that a command sends. -/
def firstSent : Host.Outcome State Fault Refusal → Option Emit
  | .next t => t.out.head?
  | _ => none

/-- What is told after a reply does not come before it. -/
theorem firstSent_told {t : State} {e : Emit} (h : t.out = [e]) : firstSent (.next t.told) = some e := by
  obtain ⟨more, hmore⟩ := run_out_prefix settle t
  show (settle.run t).out.head? = some e
  rw [← hmore, h]
  rfl

/-- Refutes O39: a reset of a stream whose home is on a lease writes the home to its lender, which sends a frame before the reply. -/
theorem not_streamsTakeCommands : ¬ Obligations.StreamsTakeCommands := by
  unfold Obligations.StreamsTakeCommands
  intro h
  obtain ⟨-, -, hrest, -⟩ := h streamLeased 2 5 (by decide) (by decide) (by decide +kernel) (by decide +kernel)
  obtain ⟨-, -, -, -, hreset, -⟩ := hrest (by decide +kernel)
  obtain ⟨t, ht, -, -, -, -, hout⟩ := hreset (by decide +kernel) (by decide +kernel)
  have hfirst := (congrArg firstSent ht).trans (firstSent_told hout)
  exact absurd hfirst (by decide +kernel)

end Sys2Proof.Machine
end

section
/-! PROOFS. The EtherCAT lines and the slave port's link (R481 to R489). -/

namespace Sys2Proof.Machine

section
variable {s : State} {l k : Nat}

theorem run_line_line (l : Nat) (f : LineS → LineS) (s : State) : ((Act.line l f).run s).line l = f (s.line l) := by
  show Tab.at (Tab.upd s.u.links.lines l {} f) l {} = f (Tab.at s.u.links.lines l {})
  rw [Tab.at_upd, if_pos rfl]

theorem exec_ecatSync0 (hl : l < 2) (hruns : s.lineRuns l = true) (hdue : s.sync0 l k ≤ s.ns) (hnew : ∀ j, (s.line l).cycle = some j → j < k) :
    exec (.ecatSync0 l k) s = .next (if s.groupPending (lineCtl l) then (applyLine l).run ((s.withLine l fun x => { x with cycle := some k }).sending [])
      else (s.withLine l fun x => { x with cycle := some k }).sending []) := by
  have hno : (s.line l).cycle.any (fun j => decide (k ≤ j)) = false := by
    cases hc : (s.line l).cycle with
    | none => rfl
    | some j => exact decide_eq_false (not_le.2 (hnew j hc))
  have hgo : ¬ (¬ s.begun.lineRuns l = true ∨ s.begun.ns < s.begun.sync0 l k ∨ (s.begun.line l).cycle.any (fun j => decide (k ≤ j)) = true) := by
    rintro (h | h | h)
    · exact h hruns
    · exact not_lt.2 hdue h
    · exact Bool.false_ne_true (hno.symm.trans h)
  refine (need_next s (decide_eq_true hl) _).trans (congrArg Host.Outcome.next ?_)
  rw [run_read, if_neg hgo, run_all_cons, run_all_cons, run_all_nil, run_when]
  rfl

theorem emitFrame_run (o : LinkOut) (data : List Byte) (s : State) :
    (emitFrame l o data).run s = s.also (List.replicate (if 2 ≤ s.get (Obj.LINE_STATE l) then 2 else 1) (.frame o data)) := by
  rw [emitFrame, run_read, run_all_cons, run_all_cons, run_all_nil, run_when]
  by_cases h : 2 ≤ s.get (Obj.LINE_STATE l)
  · rw [if_pos (decide_eq_true h), if_pos h]
    exact congrArg (fun es => { s with out := es }) (List.append_assoc ..)
  · rw [if_neg (by simpa using h), if_neg h]
    rfl

theorem exec_ecatInputLaunch (hl : l < 2) (hcycle : (s.line l).cycle = some k) (hruns : s.lineRuns l = true) (hdue : s.sync0 l k + s.get (Obj.INPUT_LAUNCH_NS l) ≤ s.ns)
    (hnew : (s.line l).launched ≠ some k) {b : State} (hb : b = (s.withLine l fun x => { x with launched := some k }).sending
      (List.replicate (if 2 ≤ s.get (Obj.LINE_STATE l) then 2 else 1) (.frame (.ecatInput l) (le 8 (s.ns - s.get Obj.DC_EPOCH_OFFSET_NS))))) :
    exec (.ecatInputLaunch l) s = .next (if s.chans.any (s.writesLine l) then b else (launchCommand l k s.ns).run b) := by
  have hcycle' : (s.begun.line l).cycle = some k := hcycle
  have hgo : ¬ (¬ s.begun.lineRuns l = true ∨ s.begun.ns < s.begun.sync0 l k + s.begun.get (Obj.INPUT_LAUNCH_NS l) ∨ (s.begun.line l).launched = some k) := by
    rintro (h | h | h)
    · exact h hruns
    · exact not_lt.2 hdue h
    · exact hnew h
  refine (need_next s (decide_eq_true hl) _).trans (congrArg Host.Outcome.next ?_)
  rw [run_read, hcycle']
  show (if _ then Act.skip else _ : Act).run s.begun = _
  rw [if_neg hgo, run_all_cons, run_all_cons, run_all_cons, run_all_nil, emitFrame_run, run_when]
  have hstate : (((Act.line l fun x => { x with launched := some k }).run s.begun).also
      (List.replicate (if 2 ≤ ((Act.line l fun x => { x with launched := some k }).run s.begun).get (Obj.LINE_STATE l) then 2 else 1)
        (.frame (.ecatInput l) (le 8 (s.begun.ns - s.begun.get Obj.DC_EPOCH_OFFSET_NS))))) = b := hb.symm
  rw [hstate]
  have hchans : s.begun.chans.any (s.begun.writesLine l) = s.chans.any (s.writesLine l) := rfl
  rw [hchans]
  cases s.chans.any (s.writesLine l) <;> rfl

/-- What an input frame comes to, by its age and its checks. -/
theorem exec_ecatInputFrame {image : List Byte} (hl : l < 2) (himage : image.length ≤ 4096) {j : Nat} (hj : (s.line l).launched = some j) (fcs wkc : Bool) :
    exec (.ecatInputFrame l k image fcs wkc) s = .next ((if ¬ s.begun.lineRuns l = true ∨ j < k then Act.skip
      else if ¬ fcs = true then .count 32 (Obj.FCS_ERRORS l) 1
      else if k < j then .count 32 (Obj.FRAMES_STALE l) 1
      else if ¬ wkc = true then .count 32 (Obj.WKC_ERRORS l) 1
      else .all [.wipe (lineIn l) 4096, .poke (lineIn l) image, .line l (fun x => { x with frame := some (k, s.ns) })]).run s.begun) := by
  have hj' : (s.begun.line l).launched = some j := hj
  refine (need_next s (Bool.and_eq_true_iff.2 ⟨decide_eq_true hl, decide_eq_true himage⟩) _).trans (congrArg Host.Outcome.next ?_)
  rw [run_read, hj']
  rfl

theorem exec_ecatRingChange {st delay found : Nat} (hwf : Wf.ecatRingChange l st delay found = true) (h0 : s.get (Obj.LINE_STATE l) ≠ 0) (h3 : s.get (Obj.LINE_STATE l) ≠ 3) :
    exec (.ecatRingChange l st delay found) s = .next ((s.puts [(Obj.LINE_STATE l, st), (Obj.RING_DELAY_NS l, delay), (Obj.SLAVES_FOUND l, found)]).sending []) := by
  refine (need_next s hwf _).trans (congrArg Host.Outcome.next ?_)
  rw [run_read, if_neg (not_or.2 ⟨h0, h3⟩ : ¬ (s.begun.get (Obj.LINE_STATE l) = 0 ∨ s.begun.get (Obj.LINE_STATE l) = 3)), run_all_cons, run_all_cons, run_all_cons, run_all_nil]
  rfl

theorem lineAl_congr {t : State} (hen : t.get (Obj.LINE_ENABLE l) = s.get (Obj.LINE_ENABLE l)) (hdev : t.dev = s.dev) : t.lineAl l = s.lineAl l := by
  rw [State.lineAl, State.lineAl, hen, hdev]

theorem exec_ecatLineProbe {found st delay : Nat} (hwf : Wf.ecatLineProbe l found st delay true = true) (h3 : s.get (Obj.LINE_STATE l) = 3) (answer : Bool) :
    exec (.ecatLineProbe l found st delay answer) s = .next ((Act.when answer (.all [.put (Obj.LINE_STATE l) st, .put (Obj.RING_DELAY_NS l) delay,
      if s.begun.get (Obj.AUTO_RECOVER l) ≠ 0 then driveSlaves l else .line l fun x => { x with al := 1 }])).run ((s.putObj (Obj.SLAVES_FOUND l) found).sending [])) := by
  refine (need_next s (show Wf.ecatLineProbe l found st delay answer = true from hwf) _).trans (congrArg Host.Outcome.next ?_)
  rw [run_read, if_neg (not_not.2 h3 : ¬ s.begun.get (Obj.LINE_STATE l) ≠ 3), run_all_cons, run_all_cons, run_all_nil]
  rfl

/-- A LOST line that all slaves answer is back, its slaves driven where it recovers by itself. -/
theorem lineRecovered_run {st delay : Nat} (hl : l < 2) (hst : st ≤ 2) {auto : Nat} {b t : State}
    (ht : (Act.all [.put (Obj.LINE_STATE l) st, .put (Obj.RING_DELAY_NS l) delay, if auto ≠ 0 then driveSlaves l else .line l fun x => { x with al := 1 }]).run b = t) :
    t.objs = (b.puts [(Obj.LINE_STATE l, st), (Obj.RING_DELAY_NS l, delay)]).objs ∧ (t.line l).al = (if auto = 0 then 1 else b.lineAl l) ∧ t.bytes = b.bytes ∧ t.log = b.log
      ∧ t.out = b.out := by
  rw [run_all_cons, run_all_cons, run_all_cons, run_all_nil] at ht
  have hother (j : Nat) (hj : j ≠ Obj.LINE_STATE l) (hj' : j ≠ Obj.RING_DELAY_NS l) : ((Act.put (Obj.RING_DELAY_NS l) delay).run ((Act.put (Obj.LINE_STATE l) st).run b)).get j = b.get j := by
    rw [run_put_get, if_neg hj', run_put_get, if_neg hj]
  have hstate : ((Act.put (Obj.RING_DELAY_NS l) delay).run ((Act.put (Obj.LINE_STATE l) st).run b)).get (Obj.LINE_STATE l) = st := by
    rw [run_put_get, if_neg fun e => by unfold Obj.LINE_STATE Obj.RING_DELAY_NS at e; omega, run_put_get, if_pos rfl]
    exact Nat.mod_eq_of_lt (by omega)
  have hal : ((Act.put (Obj.RING_DELAY_NS l) delay).run ((Act.put (Obj.LINE_STATE l) st).run b)).lineAl l = b.lineAl l :=
    lineAl_congr (hother _ (fun e => by unfold Obj.LINE_STATE Obj.LINE_ENABLE at e; omega) fun e => by unfold Obj.RING_DELAY_NS Obj.LINE_ENABLE at e; omega)
      (hother _ (fun e => by unfold Obj.LINE_STATE Obj.DEVICE_STATE at e; omega) fun e => by unfold Obj.RING_DELAY_NS Obj.DEVICE_STATE at e; omega)
  have hobjs : ((Act.put (Obj.RING_DELAY_NS l) delay).run ((Act.put (Obj.LINE_STATE l) st).run b)).objs = (b.puts [(Obj.LINE_STATE l, st), (Obj.RING_DELAY_NS l, delay)]).objs := rfl
  have hrest : ((Act.put (Obj.RING_DELAY_NS l) delay).run ((Act.put (Obj.LINE_STATE l) st).run b)).bytes = b.bytes
      ∧ ((Act.put (Obj.RING_DELAY_NS l) delay).run ((Act.put (Obj.LINE_STATE l) st).run b)).log = b.log
      ∧ ((Act.put (Obj.RING_DELAY_NS l) delay).run ((Act.put (Obj.LINE_STATE l) st).run b)).out = b.out := by
    rw [run_put_bytes, run_put_bytes, run_put_log, run_put_log, run_put_out, run_put_out]
    exact ⟨rfl, rfl, rfl⟩
  generalize (Act.put (Obj.RING_DELAY_NS l) delay).run ((Act.put (Obj.LINE_STATE l) st).run b) = q at *
  obtain ⟨hbytes, hlog, hout⟩ := hrest
  have hline (v : Nat) (ht : (Act.line l fun x => { x with al := v }).run q = t) : t.objs = q.objs ∧ (t.line l).al = v ∧ t.bytes = q.bytes ∧ t.log = q.log ∧ t.out = q.out := by
    subst ht
    exact ⟨rfl, by rw [run_line_line], rfl, rfl, rfl⟩
  by_cases hauto : auto = 0
  · rw [if_neg (not_not.2 hauto)] at ht
    rw [if_pos hauto, ← hobjs, ← hbytes, ← hlog, ← hout]
    exact hline 1 ht
  · have hnot : (q.get (Obj.LINE_STATE l) != 3) = true := by
      rw [hstate, bne_iff_ne]
      omega
    rw [if_pos hauto, driveSlaves, run_read, run_when, if_pos hnot] at ht
    rw [if_neg hauto, ← hobjs, ← hbytes, ← hlog, ← hout, ← hal]
    exact hline _ ht

theorem exec_slaveLinkLoss (h : s.u.links.slaveUp = true) {a : State} (ha : a = ((s.withLinks fun x => { x with slaveUp := false }).sending []).counted 32 Obj.SLAVE_LINK_DOWNS 1) :
    exec .slaveLinkLoss s = .next (if s.get Obj.TB_SOURCE = 2 ∧ s.get Obj.TB_STATE = Tb.LOCKED then holdover.run (if s.isOpen 1 then a.closed 1 else a)
      else if s.isOpen 1 then a.closed 1 else a) := by
  refine (need_when_yes rfl (fun s => s.u.links.slaveUp) _ h).trans ?_
  rw [run_all_cons, run_all_cons, run_all_cons, run_all_cons, run_all_nil, run_when, run_when]
  have hfirst : (Act.count 32 Obj.SLAVE_LINK_DOWNS 1).run ((Act.links fun x => { x with slaveUp := false }).run s.begun) = a := ha.symm
  rw [hfirst]
  have hboth : (s.begun.get Obj.TB_SOURCE == 2 && s.begun.get Obj.TB_STATE == Tb.LOCKED) = decide (s.get Obj.TB_SOURCE = 2 ∧ s.get Obj.TB_STATE = Tb.LOCKED) := by
    rw [Bool.decide_and]
    rfl
  rw [hboth]
  by_cases hlocked : s.get Obj.TB_SOURCE = 2 ∧ s.get Obj.TB_STATE = Tb.LOCKED
  · rw [if_pos (decide_eq_true hlocked), if_pos hlocked]
    rfl
  · rw [if_neg (by simpa using hlocked), if_neg hlocked]
    rfl

theorem exec_slaveLinkReturn {station : Nat} (hstation : station < 65536) (hdown : s.u.links.slaveUp = false) (hdev : s.dev ≠ Dev.STANDBY) {a : State}
    (ha : a = ((s.withLinks fun x => { x with slaveUp := true }).putObj Obj.STATION_ADDRESS station).sending []) :
    exec (.slaveLinkReturn station) s = .next (if 2 ≤ s.dev then a.opened 1 2 1 station else a) := by
  have hgo : (!s.begun.u.links.slaveUp && s.begun.dev != Dev.STANDBY) = true := by
    show (!s.u.links.slaveUp && s.dev != Dev.STANDBY) = true
    rw [hdown, bne_iff_ne.2 hdev]
    rfl
  refine (need_when_yes (decide_eq_true hstation) (fun s => !s.u.links.slaveUp && s.dev != Dev.STANDBY) _ hgo).trans ?_
  rw [run_all_cons, run_all_cons, run_all_cons, run_all_nil, run_when]
  have hfirst : (Act.put Obj.STATION_ADDRESS station).run ((Act.links fun x => { x with slaveUp := true }).run s.begun) = a := ha.symm
  rw [hfirst]
  by_cases h : 2 ≤ s.dev
  · rw [if_pos (decide_eq_true h : decide (2 ≤ s.begun.dev) = true), if_pos h]
    rfl
  · rw [if_neg (fun e => h (of_decide_eq_true e) : ¬ decide (2 ≤ s.begun.dev) = true), if_neg h]

end

/-- Settles O48: the cycle, launch and frames of a line, changes and probes of its ring, and the slave port's link. -/
theorem fieldBusLinks : Obligations.FieldBusLinks := by
  unfold Obligations.FieldBusLinks
  intro s l hl
  refine ⟨fun k hruns hdue hnew => exec_ecatSync0 hl hruns hdue hnew, fun k hcycle hruns hdue hnew => exec_ecatInputLaunch hl hcycle hruns hdue hnew rfl,
    fun k j image hwf hj hruns => ?_, fun st delay found hwf h0 h3 => exec_ecatRingChange hwf h0 h3, fun found st delay hwf h3 => ⟨?_, ?_⟩,
    fun hup => exec_slaveLinkLoss hup rfl, fun station hstation hdown hdev => exec_slaveLinkReturn hstation hdown hdev rfl⟩
  · have himage : image.length ≤ 4096 := of_decide_eq_true (Bool.and_eq_true_iff.1 hwf).2
    have hframe := exec_ecatInputFrame (s := s) (k := k) hl himage hj
    have hgo (h : k ≤ j) : ¬ (¬ s.begun.lineRuns l = true ∨ j < k) := not_or.2 ⟨not_not.2 hruns, not_lt.2 h⟩
    refine ⟨fun hjk => ?_, fun fcs wkc hjk => ?_, fun wkc hkj => ?_, fun wkc hkj => ?_, fun hjk => ?_⟩
    · rw [hframe true true, if_neg (hgo hjk.ge), if_neg (not_not.2 rfl), if_neg hjk.le.not_gt, if_neg (not_not.2 rfl), run_all_cons, run_all_cons, run_all_cons, run_all_nil]
      rfl
    · rw [hframe fcs wkc, if_pos (.inr hjk)]
      rfl
    · rw [hframe false wkc, if_neg (hgo hkj), if_pos Bool.false_ne_true]
      rfl
    · rw [hframe true wkc, if_neg (hgo hkj.le), if_neg (not_not.2 rfl), if_pos hkj]
      rfl
    · rw [hframe true false, if_neg (hgo hjk.ge), if_neg (not_not.2 rfl), if_neg hjk.le.not_gt, if_pos Bool.false_ne_true]
      rfl
  · exact exec_ecatLineProbe hwf h3 false
  · have hst : st ≤ 2 := by
      simp only [Wf.ecatLineProbe, Bool.and_eq_true, decide_eq_true_eq] at hwf
      omega
    obtain ⟨hobjs, hal, hbytes, hlog, hout⟩ := lineRecovered_run (delay := delay) (auto := s.begun.get (Obj.AUTO_RECOVER l)) (b := (s.putObj (Obj.SLAVES_FOUND l) found).sending []) hl hst rfl
    refine ⟨_, exec_ecatLineProbe hwf h3 true, hobjs, hal.trans ?_, hbytes, hlog, hout⟩
    have hput (j : Nat) (hj : j ≠ Obj.SLAVES_FOUND l) : ((s.putObj (Obj.SLAVES_FOUND l) found).sending []).get j = s.get j := (putObj_get ..).trans (if_neg hj)
    rw [lineAl_congr (hput _ fun e => by unfold Obj.SLAVES_FOUND Obj.LINE_ENABLE at e; omega) (hput _ fun e => by unfold Obj.SLAVES_FOUND Obj.DEVICE_STATE at e; omega)]
    rfl

end Sys2Proof.Machine
end

section
/-! PROOFS. The camera and SPI ports (R322, R323, R490 to R495, R528). -/

namespace Sys2Proof.Machine

/-! ## Frames -/

section
variable {A : Part → Prop} {R : (Units → Units) → Prop} (hbytes : A .bytes) (hout : A .out) (hctr : A .ctr) (haborts : A (.obj Obj.MIGRATE_ABORTS))
  (hmoved : A (.obj Obj.BYTES_MIGRATED)) (hmem : ∀ f, (Act.mem f).Within A R) (hfields : ∀ f : Tab FieldS → Tab FieldS, R fun u => { u with fields := f u.fields })
  (hlog : ∀ code inst d0 d1, (logEv code inst d0 d1).Within A R)
include hbytes hout hctr haborts hmoved hmem hfields hlog

theorem writeTile_within (t : Nat) (tag data : List Byte) : (writeTile t tag data).Within A R :=
  fun _ => storeTile_within hbytes hout hctr haborts hmoved hmem hfields hlog _ _ _ _

theorem fillRun_within (base count : Nat) (bs : List Byte) : (fillRun base count bs).Within A R :=
  (within_each ..).2 fun _ _ => writeTile_within hbytes hout hctr haborts hmoved hmem hfields hlog _ _ _

end

section
variable {s t : State} {p i : Nat} {f : CsiFrame} {bad : Bool}

theorem fillRun_get {k : Nat} (haborts : k ≠ Obj.MIGRATE_ABORTS) (hmoved : k ≠ Obj.BYTES_MIGRATED) (base count : Nat) (bs : List Byte) (s : State) :
    ((fillRun base count bs).run s).get k = s.get k :=
  Act.Spares.get s (fillRun_within (A := (· ≠ .obj k)) (R := fun _ => True) nofun nofun nofun (Part.obj_ne haborts.symm) (Part.obj_ne hmoved.symm) (fun _ => trivial) (fun _ => trivial)
    (fun code inst d0 d1 => logEv_within code inst d0 d1 nofun nofun fun _ => trivial) base count bs)

theorem fillRun_keeps (base count : Nat) (bs : List Byte) (s : State) :
    ((fillRun base count bs).run s).u.links = s.u.links ∧ ((fillRun base count bs).run s).u.tt = s.u.tt := by
  have hkeeps : (fillRun base count bs).SparesUnit fun u => (u.links, u.tt) :=
    fillRun_within (A := fun _ => True) (R := fun g => ∀ u : Units, ((g u).links, (g u).tt) = (u.links, u.tt)) trivial trivial trivial trivial trivial (fun _ _ => rfl) (fun _ _ => rfl)
      (fun code inst d0 d1 => logEv_within code inst d0 d1 trivial trivial fun _ => fun _ => rfl) base count bs
  exact Prod.mk.inj (hkeeps.unit (s := s))

theorem armed_congr (h : ∀ m < 4, t.get (Obj.ARMED_MASK m) = s.get (Obj.ARMED_MASK m)) : t.armed = s.armed := by
  rw [State.armed, State.armed, List.flatMap_def, List.flatMap_def]
  refine congrArg List.flatten (List.map_congr_left fun m hm => ?_)
  rw [h m (List.mem_range.1 hm)]

theorem deliverPort_unarmed (h : s.armed = []) (tov frac : Nat) : (deliverPort p tov frac).run s = s := by
  rw [deliverPort, run_read, h]
  rfl

theorem run_csi_csi (p : Nat) (g : CsiS → CsiS) (s : State) : ((Act.csi p g).run s).csi p = g (s.csi p) := by
  show Tab.at (Tab.upd s.u.links.csi p {} g) p {} = g (Tab.at s.u.links.csi p {})
  rw [Tab.at_upd, if_pos rfl]

theorem csi_congr (h : t.u.links = s.u.links) (p : Nat) : t.csi p = s.csi p := congrArg (fun l : LinkS => Tab.at l.csi p {}) h

/-- What closing a frame does with a slot it goes to, tiles in place (R492, R493). -/
def frameStored (p : Nat) (f : CsiFrame) (flags i d x : Nat) : Act := .read fun s => .all [
  fillRun x (ceilDiv f.lines.flatten.length 4096) f.lines.flatten,
  fillRun d (ceilDiv (64 + 4 * ceilDiv f.lines.flatten.length 4096) 4096) (s.descriptor p f flags (ceilDiv f.lines.flatten.length 4096) x f.lines.flatten),
  .csi p (fun y => { y with
    counter := y.counter + 1
    slots := y.slots.zipIdx.map (fun e => if e.2 = i then { desc := (d, ceilDiv (64 + 4 * ceilDiv f.lines.flatten.length 4096) 4096), pix := (x, ceilDiv f.lines.flatten.length 4096), filled := y.counter + 1 } else e.1) }),
  .count 64 (Obj.FRAMES_STORED p) 1,
  .read fun s =>
    let next := s.u.tt.nextRun
    .all [
      deliverPort p f.tov f.frac,
      .read fun s => .each (s.u.tt.runs.filter (fun e => decide (next ≤ e.1))) fun e => match e.2.owner with
        | .firing g _ => .each ((List.range 8).filter (bit (s.get (Obj.TRIGGER_SOURCE g)))) fun q => match s.latestSlot q with
          | some i => .csi q (fun y => { y with firing := (e.1, i) :: y.firing.filter (fun z => (Tab.get? s.u.tt.runs z.1).isSome) })
          | none => .skip
        | _ => .skip]]

/-- No frame is in progress: there is nothing to close. -/
theorem closeFrame_none (h : (s.csi p).frame = none) (bad : Bool) : (closeFrame p bad).run s = s := by
  rw [closeFrame, run_read, h]
  rfl

section
variable (hf : (s.csi p).frame = some f)
include hf

theorem closeFrame_dropped (hbad : (bad || (s.get (Obj.CSI_HEIGHT p) != 0 && s.get (Obj.CSI_HEIGHT p) != f.count)) = true) (hdrop : s.get (Obj.CSI_DROP_DAMAGED p) ≠ 0) :
    (closeFrame p bad).run s = (Act.count 32 (Obj.FRAMES_DAMAGED p) 1).run ((Act.csi p fun y => { y with frame := none }).run s) := by
  rw [closeFrame, run_read, hf]
  show (Act.all [_, _, _]).run s = _
  rw [run_all_cons, run_all_cons, run_all_cons, run_all_nil, run_when_true hbad, if_pos (.inr ⟨hbad, hdrop⟩)]
  rfl

variable (hwhole : (bad || (s.get (Obj.CSI_HEIGHT p) != 0 && s.get (Obj.CSI_HEIGHT p) != f.count)) = false) (hdev : s.dev = Dev.OP ∨ s.dev = Dev.HOLD)
include hwhole hdev

theorem closeFrame_whole : (closeFrame p bad).run s = (match s.oldestSlot p with
    | none => Act.count 32 (Obj.FRAMES_BUSY p) 1
    | some (i, o) =>
      if o.desc.2 = ceilDiv (64 + 4 * ceilDiv f.lines.flatten.length 4096) 4096 ∧ o.pix.2 = ceilDiv f.lines.flatten.length 4096 then
        frameStored p f ((if (bad || (s.get (Obj.CSI_HEIGHT p) != 0 && s.get (Obj.CSI_HEIGHT p) != f.count)) = true then 1 else 0) + f.flags) i o.desc.1 o.pix.1
      else if 8176 < ceilDiv f.lines.flatten.length 4096
          ∨ s.get (Obj.TILE_ALLOWANCE (s.get (Obj.CSI_CONTEXT p))) + o.desc.2 + o.pix.2
            < s.ctxTiles (s.get (Obj.CSI_CONTEXT p)) + ceilDiv (64 + 4 * ceilDiv f.lines.flatten.length 4096) 4096 + ceilDiv f.lines.flatten.length 4096
          ∨ s.slotsFree + s.peerFree + o.desc.2 + o.pix.2 < ceilDiv (64 + 4 * ceilDiv f.lines.flatten.length 4096) 4096 + ceilDiv f.lines.flatten.length 4096 then
        .count 32 (Obj.FRAMES_BUSY p) 1
      else .all [
        freeRun o.desc.1 o.desc.2, freeRun o.pix.1 o.pix.2,
        .read fun s' =>
          let d := s'.freeNumbers (ceilDiv (64 + 4 * ceilDiv f.lines.flatten.length 4096) 4096)
          .all [allocTiles (s.get (Obj.CSI_CONTEXT p)) (ceilDiv (64 + 4 * ceilDiv f.lines.flatten.length 4096) 4096), .read fun s' =>
            let x := s'.freeNumbers (ceilDiv f.lines.flatten.length 4096)
            .all [allocTiles (s.get (Obj.CSI_CONTEXT p)) (ceilDiv f.lines.flatten.length 4096),
              frameStored p f ((if (bad || (s.get (Obj.CSI_HEIGHT p) != 0 && s.get (Obj.CSI_HEIGHT p) != f.count)) = true then 1 else 0) + f.flags) i d x]]]).run
      ((Act.csi p fun y => { y with frame := none }).run s) := by
  have hgo : ¬ ((s.dev ≠ Dev.OP ∧ s.dev ≠ Dev.HOLD) ∨ ((bad || (s.get (Obj.CSI_HEIGHT p) != 0 && s.get (Obj.CSI_HEIGHT p) != f.count)) = true ∧ s.get (Obj.CSI_DROP_DAMAGED p) ≠ 0)) := by
    rintro (⟨h, h'⟩ | ⟨h, -⟩)
    · exact hdev.elim h h'
    · exact Bool.false_ne_true (hwhole.symm.trans h)
  rw [closeFrame, run_read, hf]
  show (Act.all [_, _, _]).run s = _
  rw [run_all_cons, run_all_cons, run_all_cons, run_all_nil, run_when_false hwhole, if_neg hgo]
  rfl

theorem closeFrame_busy (hnone : s.oldestSlot p = none) :
    (closeFrame p bad).run s = (Act.count 32 (Obj.FRAMES_BUSY p) 1).run ((Act.csi p fun y => { y with frame := none }).run s) := by
  rw [closeFrame_whole hf hwhole hdev, hnone]

theorem closeFrame_stored {o : CsiSlot} (hold : s.oldestSlot p = some (i, o)) (hpix : o.pix.2 = ceilDiv f.lines.flatten.length 4096) (hdesc : o.desc.2 = ceilDiv (64 + 4 * o.pix.2) 4096) :
    ∃ flags d x, (closeFrame p bad).run s = (frameStored p f flags i d x).run ((Act.csi p fun y => { y with frame := none }).run s) := by
  rw [closeFrame_whole hf hwhole hdev, hold]
  simp only
  rw [if_pos ⟨hdesc.trans (by rw [hpix]), hpix⟩]
  exact ⟨_, _, _, rfl⟩

end

/-- A frame that is stored is counted, and fills its slot. -/
theorem frameStored_run {flags d x : Nat} (harmed : s.armed = []) (hruns : ∀ e ∈ s.u.tt.runs, e.1 < s.u.tt.nextRun) (hp : p < 8) (hcount : s.get (Obj.FRAMES_STORED p) + 1 < 2 ^ 64)
    (ht : (frameStored p f flags i d x).run s = t) : t.get (Obj.FRAMES_STORED p) = s.get (Obj.FRAMES_STORED p) + 1 ∧ (t.csi p).frame = (s.csi p).frame
      ∧ (t.csi p).counter = (s.csi p).counter + 1 ∧ ((t.csi p).slots[i]?).map (·.filled) = ((s.csi p).slots[i]?).map fun _ => (s.csi p).counter + 1 := by
  rw [frameStored, run_read, run_all_cons, run_all_cons, run_all_cons, run_all_cons, run_all_cons, run_all_nil] at ht
  have hstored : Obj.FRAMES_STORED p ≠ Obj.MIGRATE_ABORTS ∧ Obj.FRAMES_STORED p ≠ Obj.BYTES_MIGRATED := by
    unfold Obj.FRAMES_STORED Obj.MIGRATE_ABORTS Obj.BYTES_MIGRATED
    omega
  have hmask (m : Nat) (hm : m < 4) : Obj.ARMED_MASK m ≠ Obj.MIGRATE_ABORTS ∧ Obj.ARMED_MASK m ≠ Obj.BYTES_MIGRATED ∧ Obj.ARMED_MASK m ≠ Obj.FRAMES_STORED p := by
    unfold Obj.ARMED_MASK Obj.FRAMES_STORED Obj.MIGRATE_ABORTS Obj.BYTES_MIGRATED
    omega
  obtain ⟨a, ha⟩ : ∃ a, (fillRun x (ceilDiv f.lines.flatten.length 4096) f.lines.flatten).run s = a := ⟨_, rfl⟩
  rw [ha] at ht
  generalize hb : (fillRun d _ _).run a = b at ht
  have hget {k : Nat} (h : k ≠ Obj.MIGRATE_ABORTS) (h' : k ≠ Obj.BYTES_MIGRATED) : b.get k = s.get k := by
    rw [← hb, fillRun_get h h', ← ha, fillRun_get h h']
  have hlinks : b.u.links = s.u.links := by rw [← hb, (fillRun_keeps ..).1, ← ha, (fillRun_keeps ..).1]
  have htt : b.u.tt = s.u.tt := by rw [← hb, (fillRun_keeps ..).2, ← ha, (fillRun_keeps ..).2]
  generalize hc : (Act.csi p _).run b = c at ht
  have hcsi := run_csi_csi p (fun y => { y with
    counter := y.counter + 1
    slots := y.slots.zipIdx.map (fun e => if e.2 = i then { desc := (d, ceilDiv (64 + 4 * ceilDiv f.lines.flatten.length 4096) 4096), pix := (x, ceilDiv f.lines.flatten.length 4096), filled := y.counter + 1 } else e.1) }) b
  rw [hc, csi_congr hlinks] at hcsi
  have hcget (k : Nat) : c.get k = b.get k := by rw [← hc]; rfl
  have hctt : c.u.tt = s.u.tt := by rw [← htt, ← hc]; rfl
  have hcstored : c.get (Obj.FRAMES_STORED p) = s.get (Obj.FRAMES_STORED p) := (hcget _).trans (hget hstored.1 hstored.2)
  generalize he : (Act.count 64 (Obj.FRAMES_STORED p) 1).run c = e at ht
  have heu : e.u = c.u := by rw [← he, run_count_u]
  have hestored : e.get (Obj.FRAMES_STORED p) = s.get (Obj.FRAMES_STORED p) + 1 := by
    rw [← he, run_count_get_self _ _ _ _ (by decide) (by rw [hcstored]; exact hcount), hcstored]
  have hearmed : e.armed = [] := (armed_congr fun m hm => by
    obtain ⟨h, h', h''⟩ := hmask m hm
    rw [← he, run_count_get _ _ _ _ h'', hcget, hget h h']).trans harmed
  have hett : e.u.tt = s.u.tt := by rw [heu, hctt]
  have hnone : e.u.tt.runs.filter (fun x => decide (e.u.tt.nextRun ≤ x.1)) = [] := by
    rw [List.filter_eq_nil_iff, hett]
    exact fun x hx h => absurd (hruns x hx) (not_lt.2 (of_decide_eq_true h))
  rw [run_read, run_all_cons, run_all_cons, run_all_nil, deliverPort_unarmed hearmed, run_read, hnone] at ht
  subst ht
  show e.get _ = _ ∧ (e.csi p).frame = _ ∧ (e.csi p).counter = _ ∧ ((e.csi p).slots[i]?).map _ = _
  rw [csi_congr (congrArg Units.links heu), hcsi]
  refine ⟨hestored, rfl, rfl, ?_⟩
  simp only [List.getElem?_map, List.getElem?_zipIdx, Option.map_map, Nat.zero_add]
  exact congrArg (fun g => Option.map g _) (funext fun y => by simp)

/-! ## Packets -/

theorem header_whole (hen : s.get (Obj.CSI_ENABLE p) ≠ 0) (hdev : Dev.PREOP ≤ s.dev) (ok : Act) : (header p 0 ok).run s = ok.run s := by
  rw [header, run_read, if_neg (not_or.2 ⟨hen, not_lt.2 hdev⟩), if_neg (by decide), run_all_cons, run_all_cons, run_all_nil]
  rfl

theorem header_broken (hen : s.get (Obj.CSI_ENABLE p) ≠ 0) (hdev : Dev.PREOP ≤ s.dev) (ok : Act) : (header p 2 ok).run s
    = (Act.csi p fun x => { x with frame := x.frame.map fun f => { f with flags := setBit f.flags 2 } }).run ((Act.count 32 (Obj.PACKETS_DROPPED p) 1).run s) := by
  rw [header, run_read, if_neg (not_or.2 ⟨hen, not_lt.2 hdev⟩), if_pos rfl, run_all_cons, run_all_cons, run_all_nil]

/-- A frame that starts with none in progress. -/
theorem exec_csiFrameStart {vc num : Nat} (hp : p < 8) (hen : s.get (Obj.CSI_ENABLE p) ≠ 0) (hdev : Dev.PREOP ≤ s.dev) (hvc : vc < 16) (hown : vc = s.get (Obj.CSI_VC p))
    (hgroup : s.groupPending (csiCtl p) = false) (hnum : num < 65536) (hnone : (s.csi p).frame = none) :
    exec (.csiFrameStart p vc num 0) s = .next ((Act.csi p fun x => { x with
        last := some num
        frame := some { tov := (s.stamp p (s.ns, s.frac)).1.1, frac := (s.stamp p (s.ns, s.frac)).1.2, arrived := s.ns, missed := (s.stamp p (s.ns, s.frac)).2, number := num, started := s.ns } }).run
      ((Act.when ((s.csi p).last.any fun n => (if n = 65535 then 1 else n + 1) != num) (.count 32 (Obj.FRAME_GAPS p) 1)).run ((countStamp p (s.stamp p (s.ns, s.frac)).2).run s.begun))).told := by
  have hwf : Wf.csiFrameStart p vc num 0 = true := by
    simp only [Wf.csiFrameStart, Bool.and_eq_true, decide_eq_true_eq]
    exact ⟨⟨⟨hp, hvc⟩, hnum⟩, by decide⟩
  have hquiet : (decide (Dev.PREOP ≤ s.begun.dev) && s.begun.groupPending (csiCtl p)) = false := Bool.and_eq_false_iff.2 (.inr hgroup)
  refine (need_next s hwf _).trans (congrArg Host.Outcome.next ?_)
  rw [run_all_cons, run_all_cons, run_all_cons, run_all_nil, run_read, run_when, hquiet]
  show settle.run ((header p 0 _).run s.begun) = _
  rw [header_whole (s := s.begun) hen hdev, run_read, if_neg (not_not.2 hown : ¬ vc ≠ s.begun.get (Obj.CSI_VC p)), run_all_cons, run_all_cons, run_all_cons, run_all_cons, run_all_nil,
    closeFrame_none (s := s.begun) hnone]
  rfl

/-- A frame that starts is counted, stamped, and its number compared with the last. -/
theorem frameStarts_run {n : Nat} {missed gap : Bool} {g : CsiFrame} (harrivals : s.get (Obj.ARRIVALS p) + 1 < 2 ^ 64) (hgaps : s.get (Obj.FRAME_GAPS p) + 1 < 2 ^ 32)
    (ht : (Act.csi p fun x => { x with last := some n, frame := some g }).run ((Act.when gap (.count 32 (Obj.FRAME_GAPS p) 1)).run ((countStamp p missed).run s)) = t) :
    t.get (Obj.ARRIVALS p) = s.get (Obj.ARRIVALS p) + 1 ∧ t.get (Obj.FRAME_GAPS p) = s.get (Obj.FRAME_GAPS p) + (if gap then 1 else 0) ∧ (t.csi p).frame = some g
      ∧ t.bytes = s.bytes ∧ t.log = s.log ∧ t.out = s.out := by
  have hkeys : Obj.ARRIVALS p ≠ Obj.LINK_MISSES p ∧ Obj.ARRIVALS p ≠ Obj.FRAME_GAPS p ∧ Obj.FRAME_GAPS p ≠ Obj.ARRIVALS p ∧ Obj.FRAME_GAPS p ≠ Obj.LINK_MISSES p := by
    unfold Obj.ARRIVALS Obj.LINK_MISSES Obj.FRAME_GAPS
    omega
  obtain ⟨hmisses, hag, hga, hgm⟩ := hkeys
  rw [countStamp, run_all_cons, run_all_cons, run_all_nil] at ht
  generalize ha : (Act.count 64 (Obj.ARRIVALS p) 1).run s = a at ht
  have hafter : a.get (Obj.ARRIVALS p) = s.get (Obj.ARRIVALS p) + 1 ∧ a.get (Obj.FRAME_GAPS p) = s.get (Obj.FRAME_GAPS p) ∧ a.bytes = s.bytes ∧ a.log = s.log ∧ a.out = s.out := by
    rw [← ha]
    exact ⟨run_count_get_self _ _ _ _ (by decide) harrivals, run_count_get _ _ _ _ hga, run_count_bytes .., run_count_log .., run_count_out ..⟩
  have hb : ∃ b, (Act.when missed (.count 32 (Obj.LINK_MISSES p) 1)).run a = b ∧ b.get (Obj.ARRIVALS p) = s.get (Obj.ARRIVALS p) + 1 ∧ b.get (Obj.FRAME_GAPS p) = s.get (Obj.FRAME_GAPS p)
      ∧ b.bytes = s.bytes ∧ b.log = s.log ∧ b.out = s.out := by
    refine ⟨_, rfl, ?_⟩
    cases missed
    · exact hafter
    · rw [run_when_true rfl, run_count_get _ _ _ _ hmisses, run_count_get _ _ _ _ hgm, run_count_bytes, run_count_log, run_count_out]
      exact hafter
  obtain ⟨b, hb, hba, hbg, hbbytes, hblog, hbout⟩ := hb
  rw [hb] at ht
  have hc : ∃ c, (Act.when gap (.count 32 (Obj.FRAME_GAPS p) 1)).run b = c ∧ c.get (Obj.ARRIVALS p) = s.get (Obj.ARRIVALS p) + 1
      ∧ c.get (Obj.FRAME_GAPS p) = s.get (Obj.FRAME_GAPS p) + (if gap then 1 else 0) ∧ c.bytes = s.bytes ∧ c.log = s.log ∧ c.out = s.out := by
    refine ⟨_, rfl, ?_⟩
    cases gap
    · exact ⟨hba, hbg, hbbytes, hblog, hbout⟩
    · rw [run_when_true rfl, run_count_get _ _ _ _ hag, run_count_get_self _ _ _ _ (by decide) (by rw [hbg]; exact hgaps), run_count_bytes, run_count_log, run_count_out, hbg]
      exact ⟨hba, rfl, hbbytes, hblog, hbout⟩
  obtain ⟨c, hc, hca, hcg, hcbytes, hclog, hcout⟩ := hc
  rw [hc] at ht
  subst ht
  exact ⟨hca, hcg, congrArg CsiS.frame (run_csi_csi ..), hcbytes, hclog, hcout⟩

/-- What a whole long packet of the port's channel comes to. -/
theorem exec_csiLinePacket {vc dt : Nat} {ok : Bool} {data : List Byte} (hwf : Wf.csiLinePacket p vc dt 0 ok data = true) (hen : s.get (Obj.CSI_ENABLE p) ≠ 0) (hdev : Dev.PREOP ≤ s.dev)
    (hown : vc = s.get (Obj.CSI_VC p)) :
    exec (.csiLinePacket p vc dt 0 ok data) s = .next ((if ¬ (dt == 0x12 && s.get (Obj.CSI_EMBEDDED p) != 0) = true ∧ (dt ≠ s.get (Obj.CSI_DT p) ∨ ¬ csiTypes.contains dt = true) then
        Act.count 32 (Obj.PACKETS_DROPPED p) 1
      else .csi p fun x => { x with frame := x.frame.map fun f => { f with
        width := if dt = s.get (Obj.CSI_DT p) then data.length else f.width
        lines := f.lines ++ [data ++ List.replicate (64 * ceilDiv data.length 64 - data.length) 0]
        count := if dt = s.get (Obj.CSI_DT p) then f.count + 1 else f.count
        flags := if ok then f.flags else setBit f.flags 1 } }).run s.begun) := by
  refine (need_next s hwf _).trans (congrArg Host.Outcome.next ?_)
  rw [header_whole (s := s.begun) hen hdev, run_read, if_neg (not_not.2 hown : ¬ vc ≠ s.begun.get (Obj.CSI_VC p))]
  rfl

theorem exec_csiLinePacket_broken {vc dt : Nat} {ok : Bool} {data : List Byte} (hwf : Wf.csiLinePacket p vc dt 2 ok data = true) (hen : s.get (Obj.CSI_ENABLE p) ≠ 0)
    (hdev : Dev.PREOP ≤ s.dev) :
    exec (.csiLinePacket p vc dt 2 ok data) s
      = .next (((s.sending []).counted 32 (Obj.PACKETS_DROPPED p) 1).withCsi p fun x => { x with frame := x.frame.map fun g => { g with flags := setBit g.flags 2 } }) := by
  refine (need_next s hwf _).trans (congrArg Host.Outcome.next ?_)
  rw [header_broken (s := s.begun) hen hdev]
  rfl

theorem exec_csiFrameEnd {vc : Nat} (hp : p < 8) (hen : s.get (Obj.CSI_ENABLE p) ≠ 0) (hdev : Dev.PREOP ≤ s.dev) (hvc : vc < 16) (hown : vc = s.get (Obj.CSI_VC p)) :
    exec (.csiFrameEnd p vc 0) s = .next ((closeFrame p false).run s.begun).told := by
  have hwf : Wf.csiFrameEnd p vc 0 = true := by
    simp only [Wf.csiFrameEnd, Bool.and_eq_true, decide_eq_true_eq]
    exact ⟨⟨hp, hvc⟩, by decide⟩
  refine (need_next s hwf _).trans (congrArg Host.Outcome.next ?_)
  rw [run_all_cons, run_all_cons, run_all_nil, header_whole (s := s.begun) hen hdev, run_read, run_when, if_pos (beq_iff_eq.2 hown : (vc == s.begun.get (Obj.CSI_VC p)) = true)]
  rfl

theorem exec_csiFrameTimeout (hp : p < 8) (hf : (s.csi p).frame = some f) :
    exec (.csiFrameTimeout p) s = .next ((Act.when (decide (f.started + 1000 * s.get (Obj.CSI_FRAME_TIMEOUT_US p) ≤ s.ns)) (closeFrame p true)).run s.begun).told := by
  have hf' : (s.begun.csi p).frame = some f := hf
  refine (need_next s (decide_eq_true hp) _).trans (congrArg Host.Outcome.next ?_)
  rw [run_all_cons, run_all_cons, run_all_nil, run_read, hf']
  rfl

end

/-! ## SPI -/

section
variable {s : State} {p : Nat}

theorem exec_spiSampleTransfer {k : Nat} {edge : Bool} (hp : p < 8) (hdev : Dev.PREOP ≤ s.dev) (hrole : s.get (Obj.SPI_ROLE p) = 0) (hlen : s.get (Obj.SPI_LENGTH p) ≠ 0)
    (hvio : (s.spi p).vioOut = false) (hfree : (s.spi p).busy = none)
    (hdue : if edge = true then s.get (Obj.SPI_EDGE_INPUT p) < 16 ∧ (Tab.at s.u.time.cap (s.get (Obj.SPI_EDGE_INPUT p)) {}).last.isSome
      else s.get (Obj.SPI_PERIOD_NS p) ≠ 0 ∧ (s.spi p).next ≤ k ∧ s.get (Obj.SPI_PHASE_NS p) + k * s.get (Obj.SPI_PERIOD_NS p) ≤ s.ns) :
    exec (.spiSampleTransfer p k edge) s = .next ((((s.withSpi p fun y => { y with busy := some (if edge then (s.spi p).next else k, s.stamp (8 + p) (s.ns, s.frac)), next := (if edge then (s.spi p).next else k) + 1 }).sending [.frame (.spi p) ((s.spiTx p).take (s.get (Obj.SPI_LENGTH p)))]).counted 64 (Obj.SPI_TRANSFERS p) 1)) := by
  have hdue' : (if edge then decide (s.begun.get (Obj.SPI_EDGE_INPUT p) < 16) && (Tab.at s.begun.u.time.cap (s.begun.get (Obj.SPI_EDGE_INPUT p)) {}).last.isSome
      else s.begun.get (Obj.SPI_PERIOD_NS p) != 0 && decide ((s.begun.spi p).next ≤ k)
        && decide (s.begun.get (Obj.SPI_PHASE_NS p) + k * s.begun.get (Obj.SPI_PERIOD_NS p) ≤ s.begun.ns) : Bool) = true := by
    cases edge
    · obtain ⟨hperiod, hnext, hat⟩ := hdue
      exact Bool.and_eq_true_iff.2 ⟨Bool.and_eq_true_iff.2 ⟨bne_iff_ne.2 hperiod, decide_eq_true hnext⟩, decide_eq_true hat⟩
    · exact Bool.and_eq_true_iff.2 ⟨decide_eq_true hdue.1, hdue.2⟩
  have hgo : ¬ (s.begun.dev < Dev.PREOP ∨ s.begun.get (Obj.SPI_ROLE p) ≠ 0 ∨ s.begun.get (Obj.SPI_LENGTH p) = 0 ∨ (s.begun.spi p).vioOut = true ∨ (s.begun.spi p).busy.isSome = true
      ∨ ¬ (if edge then decide (s.begun.get (Obj.SPI_EDGE_INPUT p) < 16) && (Tab.at s.begun.u.time.cap (s.begun.get (Obj.SPI_EDGE_INPUT p)) {}).last.isSome
        else s.begun.get (Obj.SPI_PERIOD_NS p) != 0 && decide ((s.begun.spi p).next ≤ k)
          && decide (s.begun.get (Obj.SPI_PHASE_NS p) + k * s.begun.get (Obj.SPI_PERIOD_NS p) ≤ s.begun.ns) : Bool) = true) := by
    have hvio' : (s.begun.spi p).vioOut = false := hvio
    have hfree' : (s.begun.spi p).busy = none := hfree
    rw [hdue', hvio', hfree']
    rintro (h | h | h | h | h | h)
    · exact not_lt.2 hdev h
    · exact h hrole
    · exact hlen h
    · exact Bool.false_ne_true h
    · exact Bool.false_ne_true h
    · exact h rfl
  refine (need_next s (decide_eq_true hp) _).trans (congrArg Host.Outcome.next ?_)
  rw [run_read, if_neg hgo, run_all_cons, run_all_cons, run_all_cons, run_all_nil]
  rfl

theorem exec_spiTransferEnd {bytes : List Byte} {n : Nat} {a : Nat × Nat} {missed : Bool} (hwf : Wf.spiTransferEnd p bytes = true) (hbusy : (s.spi p).busy = some (n, a, missed))
    (hgroup : s.groupPending (spiCtl p) = false) :
    exec (.spiTransferEnd p bytes) s = .next ((Act.when (!(s.spi p).vioOut) (.all [countStamp (8 + p) missed, .wipe (spiIn p) 64, .poke (spiIn p) (bytes.take (s.get (Obj.SPI_LENGTH p)))])).run
      ((Act.spi p fun y => { y with busy := none, sample := if y.vioOut then y.sample else some (n, a.1, a.2, s.ns) }).run s.begun)) := by
  have hbusy' : (s.begun.spi p).busy = some (n, a, missed) := hbusy
  have hgroup' : s.begun.groupPending (spiCtl p) = false := hgroup
  refine (need_next s hwf _).trans (congrArg Host.Outcome.next ?_)
  rw [run_read, hbusy']
  show (Act.all [_, _, _]).run s.begun = _
  rw [run_all_cons, run_all_cons, run_all_cons, run_all_nil, run_when_false hgroup']
  rfl

theorem withSpi_congr {f g : SpiS → SpiS} (h : f (s.spi p) = g (s.spi p)) : s.withSpi p f = s.withSpi p g := by
  have hupd : Tab.upd s.u.links.spi p {} f = Tab.upd s.u.links.spi p {} g := congrArg (Tab.set s.u.links.spi p) h
  exact congrArg (fun x => s.withLinks fun l => { l with spi := x }) hupd

theorem countStamp_run (p : Nat) (missed : Bool) (s : State) :
    (countStamp p missed).run s = if missed then (s.counted 64 (Obj.ARRIVALS p) 1).counted 32 (Obj.LINK_MISSES p) 1 else s.counted 64 (Obj.ARRIVALS p) 1 := by
  rw [countStamp, run_all_cons, run_all_cons, run_all_nil, run_when]
  rfl

theorem exec_vioOutOfRange (hp : p < 8) (mv : Nat) (hdev : s.dev ≠ Dev.STANDBY) {b : State} (hb : b = (s.putObj (if p < 4 then Obj.VIO_SPI_A_MV else Obj.VIO_SPI_B_MV) (mv % 65536)).sending []) :
    exec (.vioOutOfRange p mv) s = .next (if (s.spi p).vioOut then b else (b.withSpi p fun x => { x with vioOut := true }).logged Ev.VIO_OUT_OF_RANGE p mv 0) := by
  refine (need_when_yes (decide_eq_true hp) (fun s => s.dev != Dev.STANDBY) _ (bne_iff_ne.2 hdev)).trans ?_
  rw [run_all_cons, run_all_cons, run_all_nil, run_when]
  have hput : (putVio p mv).run s.begun = b := hb.symm
  have hvio : (s.begun.spi p).vioOut = (s.spi p).vioOut := rfl
  rw [hput, hvio]
  cases (s.spi p).vioOut
  · show Host.Outcome.next ((Act.all [_, _]).run b) = _
    rw [run_all_cons, run_all_cons, run_all_nil]
    rfl
  · rfl

end

/-- Settles O49: the starts, packets and ends of frames, SPI transfers, and a bank that leaves its range. -/
theorem sensorPortsTransfer : Obligations.SensorPortsTransfer := by
  unfold Obligations.SensorPortsTransfer
  intro s p hp
  refine ⟨fun hen hdev vc hvc hown hgroup => ⟨fun num hnum hnone harrivals hgaps => ?_, fun dt ok data f hwf hf => ?_, fun f hf hop _ => ?_⟩,
    fun k edge hdev hrole hlen hvio hfree hdue => exec_spiSampleTransfer hp hdev hrole hlen hvio hfree hdue, fun bytes n tov frac missed hwf hbusy hgroup => ⟨fun hvio => ?_, fun hvio => ?_⟩,
    fun mv => ⟨fun hdev => ?_, fun hdev => exec_vioOutOfRange hp mv hdev rfl, ?_⟩⟩
  · obtain ⟨ha, hg, hframe, hbytes, hlog, hout⟩ := frameStarts_run (s := s.begun) (n := num) (missed := (s.stamp p (s.ns, s.frac)).2)
      (gap := (s.csi p).last.any fun n => (if n = 65535 then 1 else n + 1) != num)
      (g := { tov := (s.stamp p (s.ns, s.frac)).1.1, frac := (s.stamp p (s.ns, s.frac)).1.2, arrived := s.ns, missed := (s.stamp p (s.ns, s.frac)).2, number := num, started := s.ns })
      harrivals hgaps rfl
    exact ⟨_, exec_csiFrameStart hp hen hdev hvc hown hgroup hnum hnone, ha, hg, ⟨_, hframe, rfl, rfl, rfl, rfl⟩, hbytes, hlog, hout⟩
  · have hembedded : (dt == 0x12 && s.get (Obj.CSI_EMBEDDED p) != 0) = true ↔ dt = 0x12 ∧ s.get (Obj.CSI_EMBEDDED p) ≠ 0 := by
      rw [Bool.and_eq_true_iff, beq_iff_eq, bne_iff_ne]
    refine ⟨fun hdt he => ?_, fun hdt htypes => ?_, fun hdt he => ?_, exec_csiLinePacket_broken hwf hen hdev⟩
    · rw [exec_csiLinePacket hwf hen hdev hown, if_neg fun h => h.1 (hembedded.2 he)]
      simp only [if_neg hdt]
      rfl
    · have hgo : ¬ (¬ (dt == 0x12 && s.get (Obj.CSI_EMBEDDED p) != 0) = true ∧ (dt ≠ s.get (Obj.CSI_DT p) ∨ ¬ csiTypes.contains dt = true)) := by
        rintro ⟨h, h' | h'⟩
        · exact h' hdt
        · exact htypes.elim (fun ht => h' (List.contains_iff_mem.2 ht)) fun he => h (hembedded.2 he)
      rw [exec_csiLinePacket hwf hen hdev hown, if_neg hgo]
      simp only [if_pos hdt]
      rfl
    · rw [exec_csiLinePacket hwf hen hdev hown, if_pos ⟨fun h => he (hembedded.1 h), hdt.imp id fun h h' => h (List.contains_iff_mem.1 h')⟩]
      rfl
  · have hwhole (h : s.get (Obj.CSI_HEIGHT p) = 0 ∨ s.get (Obj.CSI_HEIGHT p) = f.count) : (false || (s.get (Obj.CSI_HEIGHT p) != 0 && s.get (Obj.CSI_HEIGHT p) != f.count)) = false := by
      rcases h with h | h <;> simp [h]
    refine ⟨fun hdrop h0 hne => ?_, fun hdrop hlate => ?_, fun hok hnone => ?_, fun hok i o hold hpix hdesc harmed hruns hcount => ?_, fun hearly => ?_⟩
    · rw [exec_csiFrameEnd hp hen hdev hvc hown, closeFrame_dropped (s := s.begun) hf (Bool.or_eq_true_iff.2 (.inr (Bool.and_eq_true_iff.2 ⟨bne_iff_ne.2 h0, bne_iff_ne.2 hne⟩))) hdrop]
      rfl
    · rw [exec_csiFrameTimeout hp hf, run_when, if_pos (decide_eq_true hlate), closeFrame_dropped (s := s.begun) hf rfl hdrop]
      rfl
    · rw [exec_csiFrameEnd hp hen hdev hvc hown, closeFrame_busy (s := s.begun) hf (hwhole hok) hop hnone]
      rfl
    · obtain ⟨flags, d, x, hstored⟩ := closeFrame_stored (s := s.begun) hf (hwhole hok) hop hold hpix hdesc
      obtain ⟨hcounted, hframe, hcounter, hslots⟩ := frameStored_run (s := (Act.csi p fun y => { y with frame := none }).run s.begun) (f := f) (flags := flags) (i := i) (d := d) (x := x)
        harmed hruns hp hcount rfl
      rw [run_csi_csi] at hframe hcounter hslots
      exact ⟨_, (exec_csiFrameEnd hp hen hdev hvc hown).trans (by rw [hstored]), hcounted, hframe, hcounter, hslots⟩
    · rw [exec_csiFrameTimeout hp hf, run_when, if_neg (by simpa using hearly)]
      rfl
  · have hsame : (Act.spi p fun y => { y with busy := none, sample := if y.vioOut then y.sample else some (n, tov, frac, s.ns) }).run s.begun
        = (s.withSpi p fun y => { y with busy := none, sample := some (n, tov, frac, s.ns) }).sending [] :=
      congrArg (fun t : State => t.sending []) (withSpi_congr (by rw [hvio]; rfl))
    refine (exec_spiTransferEnd hwf hbusy hgroup).trans (congrArg Host.Outcome.next ?_)
    rw [run_when_true (by rw [hvio]; rfl), run_all_cons, run_all_cons, run_all_cons, run_all_nil, countStamp_run, hsame]
    rfl
  · refine (exec_spiTransferEnd hwf hbusy hgroup).trans (congrArg Host.Outcome.next ?_)
    rw [run_when_false (by rw [hvio]; rfl)]
    exact congrArg (fun t : State => t.sending []) (withSpi_congr (by rw [hvio]; rfl))
  · exact need_when_no (decide_eq_true hp) (fun s => s.dev != Dev.STANDBY) _ (bne_eq_false_iff_eq.2 hdev)
  · refine (need_next s (decide_eq_true hp) _).trans (congrArg Host.Outcome.next ?_)
    rw [run_all_cons, run_all_cons, run_all_nil]
    rfl

end Sys2Proof.Machine
end

section
/-! PROOFS. What a write of a tile leaves: the bytes of its home and replica, its record, and everything else as it was (R153, R154, R158). -/

namespace Sys2Proof.Machine

/-! ## Memory -/

theorem readAll_congr {m m' : Memory} {n : Nat} : ∀ {a : Nat}, (∀ i < n, Memory.read m (a + i) = Memory.read m' (a + i)) → Memory.readAll m a n = Memory.readAll m' a n := by
  induction n with
  | zero => intro a _; rfl
  | succ n ih =>
    intro a h
    have hrest : Memory.readAll m (a + 1) n = Memory.readAll m' (a + 1) n := ih fun i hi => by
      have := h (i + 1) (Nat.succ_lt_succ hi)
      rwa [Nat.add_left_comm a i 1, Nat.add_comm i] at this
    rw [Memory.readAll, Memory.readAll, hrest]
    exact congrArg (· :: _) (h 0 (Nat.succ_pos n))

theorem readAll_getElem? (m : Memory) (n : Nat) : ∀ (a i : Nat), i < n → (Memory.readAll m a n)[i]? = some (Memory.read m (a + i)) := by
  induction n with
  | zero => intro a i h; omega
  | succ n ih =>
    intro a i h
    cases i with
    | zero => rfl
    | succ i =>
      rw [Memory.readAll, List.getElem?_cons_succ, ih (a + 1) i (by omega), Nat.add_assoc, Nat.add_comm 1]

theorem readAll_length (m : Memory) (n : Nat) : ∀ a, (Memory.readAll m a n).length = n := by
  induction n with
  | zero => intro a; rfl
  | succ n ih => intro a; rw [Memory.readAll, List.length_cons, ih]

/-- Bytes read back as they were written. -/
theorem readAll_writeAll (m : Memory) (a : Nat) (bs : List Byte) : Memory.readAll (Memory.writeAll m a bs) a bs.length = bs := by
  refine List.ext_getElem? fun i => ?_
  by_cases h : i < bs.length
  · rw [readAll_getElem? _ _ _ _ h, Memory.read_writeAll_in _ _ _ _ h, List.getElem?_eq_getElem h]
  · rw [List.getElem?_eq_none (by rw [readAll_length]; omega), List.getElem?_eq_none (by omega)]

/-- A write that lies apart from what is read. -/
theorem readAll_writeAll_apart {m : Memory} {a b n : Nat} {bs : List Byte} (h : a + n ≤ b ∨ b + bs.length ≤ a) : Memory.readAll (Memory.writeAll m b bs) a n = Memory.readAll m a n :=
  readAll_congr fun _ _ => Memory.read_writeAll_out _ _ _ _ (by omega)

/-! ## Tiles and homes -/

section
variable {s t q : State} {n : Nat} {x : Tile}

theorem run_tile_of_get? (h : Tab.get? s.u.mem.tiles n = some x) (f : Tile → Tile) :
    (Act.tile n f).run s = s.withMem fun m => { m with tiles := Tab.set m.tiles n (f x) } := by
  show ({ s with u := { s.u with mem := match Tab.get? s.u.mem.tiles n with
    | some x => { s.u.mem with tiles := Tab.set s.u.mem.tiles n (f x) }
    | none => s.u.mem } } : State) = _
  rw [h]
  rfl

theorem run_tile_get? (h : Tab.get? s.u.mem.tiles n = some x) (f : Tile → Tile) : Tab.get? ((Act.tile n f).run s).u.mem.tiles n = some (f x) := by
  rw [run_tile_of_get? h]
  exact (Tab.get?_set ..).trans (if_pos rfl)

theorem run_tile_other {j : Nat} (hj : j ≠ n) (f : Tile → Tile) : Tab.get? ((Act.tile n f).run s).u.mem.tiles j = Tab.get? s.u.mem.tiles j := by
  cases h : Tab.get? s.u.mem.tiles n with
  | none =>
    show Tab.get? (match Tab.get? s.u.mem.tiles n with
      | some x => { s.u.mem with tiles := Tab.set s.u.mem.tiles n (f x) }
      | none => s.u.mem).tiles j = _
    rw [h]
  | some x =>
    rw [run_tile_of_get? h]
    exact (Tab.get?_set ..).trans (if_neg hj)

theorem homeAddr_congr (hp : t.get Obj.PAYLOAD_BASE = s.get Obj.PAYLOAD_BASE) (h : Home) : t.homeAddr h = s.homeAddr h := by
  cases h with
  | slot k => rw [State.homeAddr, State.homeAddr, State.slotAddr, State.slotAddr, hp]
  | lease m k => rfl

theorem homeTagAddr_congr (ht : t.get Obj.TAG_BASE = s.get Obj.TAG_BASE) (h : Home) : t.homeTagAddr h = s.homeTagAddr h := by
  cases h with
  | slot k => rw [State.homeTagAddr, State.homeTagAddr, State.tagAddr, State.tagAddr, ht]
  | lease m k => rfl

/-- Memory after a payload and a tag were written to a home. -/
def State.homeWritten (s : State) (m : Memory) (h : Home) (data tag : List Byte) : Memory := Memory.writeAll (Memory.writeAll m (s.homeAddr h) data) (s.homeTagAddr h) tag

theorem homeWritten_outside {m : Memory} {h : Home} {data tag : List Byte} {a : Nat} (hdata : a < s.homeAddr h ∨ s.homeAddr h + data.length ≤ a)
    (htag : a < s.homeTagAddr h ∨ s.homeTagAddr h + tag.length ≤ a) : Memory.read (s.homeWritten m h data tag) a = Memory.read m a := by
  rw [State.homeWritten, Memory.read_writeAll_out _ _ _ _ htag, Memory.read_writeAll_out _ _ _ _ hdata]

theorem storedTag_length (tag : List Byte) (c gen : Nat) (data : List Byte) : (storedTag tag c gen data).length = 32 := by
  unfold storedTag
  simp only [List.length_append, le_length]
  split <;> simp [le_length]

/-- A write to a home keeps all but its bytes, the lease's counter and what is sent. -/
theorem pokeHome_run (gen : Nat) (h : Home) (tag data : List Byte) (ht : (pokeHome n gen h tag data).run s = t) : t.bytes = s.homeWritten s.bytes h data tag ∧ t.objs = s.objs
    ∧ t.u.mem.tiles = s.u.mem.tiles ∧ t.log = s.log ∧ ((∃ k, h = .slot k) → t.out = s.out) := by
  subst ht
  cases h with
  | slot k => exact ⟨rfl, rfl, rfl, rfl, fun _ => rfl⟩
  | lease m k => exact ⟨rfl, rfl, rfl, rfl, fun ⟨_, he⟩ => nomatch he⟩

theorem seed_off (h : s.get Obj.SEED_STOCK_EN = 0 ∨ ∀ x, Tab.get? s.u.mem.tiles n = some x → x.shared = false) : (seed n).run s = s := by
  rw [seed, run_read]
  split
  · rfl
  · next x hx =>
    have hoff : ¬ x.shared = true ∨ s.get Obj.SEED_STOCK_EN = 0 := h.symm.imp (fun hshared => Bool.eq_false_iff.1 (hshared x hx)) id
    rw [if_pos (hoff.imp id .inl)]
    rfl

/-- What a failed home leaves: the tile's record tells of it, and an event. -/
theorem homeFails_run (detail : Nat) (hx : Tab.get? s.u.mem.tiles n = some x) (ht : (homeFails n detail).run s = t) : (∀ k, t.get k = s.get k) ∧ t.bytes = s.bytes
    ∧ (∀ j, j ≠ n → Tab.get? t.u.mem.tiles j = Tab.get? s.u.mem.tiles j)
    ∧ ∃ y, Tab.get? t.u.mem.tiles n = some y ∧ y.ctx = x.ctx ∧ y.gen = x.gen ∧ ∀ h, (y.home = h ∨ y.replica = some h) → (x.home = h ∨ x.replica = some h) := by
  rw [homeFails, run_read, hx] at ht
  simp only at ht
  by_cases hlost : x.lost.isSome = true
  · rw [if_pos hlost] at ht
    subst ht
    exact ⟨fun _ => rfl, rfl, fun _ _ => rfl, x, hx, rfl, rfl, fun _ => id⟩
  · rw [if_neg hlost] at ht
    cases hr : x.replica with
    | some r =>
      rw [hr] at ht
      subst ht
      exact ⟨fun _ => rfl, rfl, fun j hj => run_tile_other hj _, _, run_tile_get? hx _, rfl, rfl, fun h hh => hh.elim (fun e => .inr (congrArg some e)) nofun⟩
    | none =>
      rw [hr] at ht
      simp only at ht
      rw [run_all_cons, run_all_cons, run_all_nil] at ht
      have hmem : (logEv Ev.TILE_LOST x.ctx (s.tileAddr n) detail).SparesUnit fun u => u.mem := logEv_within _ _ _ _ trivial trivial fun _ => fun _ => rfl
      subst ht
      refine ⟨fun k => run_logEv_get .., run_logEv_bytes .., fun j hj => ?_, { x with lost := some detail, migrating := none }, ?_, rfl, rfl, fun h hh => ?_⟩
      · rw [hmem.unit]
        exact run_tile_other hj _
      · rw [hmem.unit]
        exact run_tile_get? hx _
      · rw [← hr]
        exact hh

/-- What a write of tile `n`, whose record was `x`, leaves. -/
structure State.Stored (s t : State) (n : Nat) (x : Tile) (tag body : List Byte) (whole : Bool) : Prop where
  get : ∀ k, k ≠ Obj.MIGRATE_ABORTS → t.get k = s.get k
  bytes : t.bytes = (match x.replica with
    | some r => s.homeWritten (s.homeWritten s.bytes x.home body (storedTag tag x.ctx ((x.gen + 1) % 4294967296) body)) r body (storedTag tag x.ctx ((x.gen + 1) % 4294967296) body)
    | none => s.homeWritten s.bytes x.home body (storedTag tag x.ctx ((x.gen + 1) % 4294967296) body))
  other : ∀ j, j ≠ n → Tab.get? t.u.mem.tiles j = Tab.get? s.u.mem.tiles j
  tile : ∃ y, Tab.get? t.u.mem.tiles n = some y ∧ y.ctx = x.ctx ∧ y.gen = (x.gen + 1) % 4294967296 ∧ ∀ h, (y.home = h ∨ y.replica = some h) → (x.home = h ∨ x.replica = some h)
  slot : ∀ k, x.home = .slot k → t.log = s.log ∧ (x.replica = none → t.out = s.out)
    ∧ ∃ y, Tab.get? t.u.mem.tiles n = some y ∧ y.gen = (x.gen + 1) % 4294967296 ∧ y.lost = (if whole then none else x.lost) ∧ y.home = x.home ∧ y.replica = x.replica

theorem stored_addrs (hget : ∀ k, k ≠ Obj.MIGRATE_ABORTS → t.get k = s.get k) : (∀ h, t.homeAddr h = s.homeAddr h) ∧ ∀ h, t.homeTagAddr h = s.homeTagAddr h :=
  ⟨homeAddr_congr (hget _ (by decide)), homeTagAddr_congr (hget _ (by decide))⟩

theorem storeTile_stored {tag body : List Byte} {whole : Bool} (hx : Tab.get? s.u.mem.tiles n = some x) (hseed : s.get Obj.SEED_STOCK_EN = 0 ∨ bit (tagByte tag 2) 0 = false)
    (ht : (storeTile n tag body whole).run s = t) : s.Stored t n x tag body whole := by
  rw [storeTile, run_read, hx] at ht
  simp only at ht
  rw [run_all_cons, run_all_cons, run_all_cons, run_all_cons, run_all_cons, run_all_cons, run_all_cons, run_all_nil] at ht
  generalize hgen : (x.gen + 1) % 4294967296 = gen at *
  generalize hst : storedTag tag x.ctx gen body = st at *
  -- an abort of the migration in progress is counted
  generalize ha : (Act.when x.migrating.isSome (.count 64 Obj.MIGRATE_ABORTS 1)).run s = a at ht
  have hafacts : (∀ k, k ≠ Obj.MIGRATE_ABORTS → a.get k = s.get k) ∧ a.bytes = s.bytes ∧ a.u = s.u ∧ a.log = s.log ∧ a.out = s.out := by
    cases hm : x.migrating.isSome
    · rw [run_when_false hm] at ha
      subst ha
      exact ⟨fun _ _ => rfl, rfl, rfl, rfl, rfl⟩
    · rw [run_when_true hm] at ha
      subst ha
      exact ⟨fun k hk => run_count_get _ _ _ _ hk, run_count_bytes .., run_count_u .., run_count_log .., run_count_out ..⟩
  obtain ⟨haget, habytes, hau, halog, haout⟩ := hafacts
  -- the tile's record
  have hxa : Tab.get? a.u.mem.tiles n = some x := by rw [hau]; exact hx
  generalize hb : (Act.tile n _).run a = b at ht
  have hbn : ∃ y, Tab.get? b.u.mem.tiles n = some y ∧ y.ctx = x.ctx ∧ y.gen = gen ∧ y.home = x.home ∧ y.replica = x.replica
      ∧ y.shared = bit (tagByte tag 2) 0 ∧ y.lost = if whole then none else x.lost := by
    rw [← hb]
    exact ⟨_, run_tile_get? hxa _, rfl, rfl, rfl, rfl, rfl, rfl⟩
  have hbother (j : Nat) (hj : j ≠ n) : Tab.get? b.u.mem.tiles j = Tab.get? s.u.mem.tiles j := by
    rw [← hb, run_tile_other hj, hau]
  have hbget (k : Nat) (hk : k ≠ Obj.MIGRATE_ABORTS) : b.get k = s.get k := by rw [← haget k hk, ← hb]; rfl
  have hbbytes : b.bytes = s.bytes := by rw [← habytes, ← hb]; rfl
  have hblog : b.log = s.log := by rw [← halog, ← hb]; rfl
  have hbout : b.out = s.out := by rw [← haout, ← hb]; rfl
  clear hb
  -- the home
  generalize hc : (pokeHome n gen x.home st body).run b = c at ht
  obtain ⟨hcbytes, hcobjs, hctiles, hclog, hcout⟩ := pokeHome_run gen x.home st body hc
  have hcget (k : Nat) (hk : k ≠ Obj.MIGRATE_ABORTS) : c.get k = s.get k := by rw [State.get, hcobjs]; exact hbget k hk
  -- the replica
  generalize hd : Act.run _ c = d at ht
  have hdfacts : d.bytes = (match x.replica with
        | some r => s.homeWritten (s.homeWritten s.bytes x.home body st) r body st
        | none => s.homeWritten s.bytes x.home body st)
      ∧ d.objs = c.objs ∧ d.u.mem.tiles = c.u.mem.tiles ∧ d.log = c.log ∧ (x.replica = none → d.out = c.out) := by
    have haddr := stored_addrs hbget
    have hcaddr := stored_addrs hcget
    have hhome : c.bytes = s.homeWritten s.bytes x.home body st := by rw [hcbytes, hbbytes, State.homeWritten, haddr.1, haddr.2, State.homeWritten]
    cases hr : x.replica with
    | none =>
      rw [hr] at hd
      subst hd
      exact ⟨hhome, rfl, rfl, rfl, fun _ => rfl⟩
    | some r =>
      rw [hr] at hd
      obtain ⟨hdbytes, hdobjs, hdtiles, hdlog, -⟩ := pokeHome_run gen r st body hd
      refine ⟨?_, hdobjs, hdtiles, hdlog, nofun⟩
      rw [hdbytes, hhome, State.homeWritten, hcaddr.1, hcaddr.2]
      rfl
  obtain ⟨hdbytes, hdobjs, hdtiles, hdlog, hdout⟩ := hdfacts
  have hdget (k : Nat) (hk : k ≠ Obj.MIGRATE_ABORTS) : d.get k = s.get k := by rw [State.get, hdobjs]; exact hcget k hk
  -- the copies of the old generation
  generalize he : (Act.units _).run d = e at ht
  have heget (k : Nat) : e.get k = d.get k := by rw [← he]; rfl
  have hetiles : e.u.mem.tiles = b.u.mem.tiles := by rw [← hctiles, ← hdtiles, ← he]; rfl
  have hebytes : e.bytes = d.bytes := by rw [← he]; rfl
  have helog : e.log = s.log := by rw [← hblog, ← hclog, ← hdlog, ← he]; rfl
  have heout : e.out = d.out := by rw [← he]; rfl
  obtain ⟨y, hy, hyctx, hygen, hyhome, hyrep, hyshared, hylost⟩ := hbn
  have hye : Tab.get? e.u.mem.tiles n = some y := by rw [hetiles]; exact hy
  have hseed' : e.get Obj.SEED_STOCK_EN = 0 ∨ ∀ x, Tab.get? e.u.mem.tiles n = some x → x.shared = false := by
    rw [heget, hdget _ (by decide)]
    refine hseed.imp id fun hbit x hx => ?_
    obtain rfl := Option.some.inj (hye.symm.trans hx)
    exact hyshared.trans hbit
  rw [seed_off hseed', run_when] at ht
  subst hst hgen
  generalize hlease : (_ && (s.get Obj.PEER_TIMEOUT_US == 0)) = lease at ht
  cases lease
  · obtain rfl : e = t := ht
    exact ⟨fun k hk => (heget k).trans (hdget k hk), hebytes.trans hdbytes, fun j hj => by rw [hetiles]; exact hbother j hj,
      ⟨y, hye, hyctx, hygen, fun h hh => by rwa [hyhome, hyrep] at hh⟩,
      fun k hk => ⟨helog, fun hr => heout.trans ((hdout hr).trans ((hcout ⟨k, hk⟩).trans hbout)), y, hye, hygen, hylost, hyhome, hyrep⟩⟩
  · obtain ⟨hfget, hfbytes, hfother, z, hz, hzctx, hzgen, hzhomes⟩ := homeFails_run _ hye ht
    exact ⟨fun k hk => (hfget k).trans ((heget k).trans (hdget k hk)), hfbytes.trans (hebytes.trans hdbytes), fun j hj => (hfother j hj).trans (by rw [hetiles]; exact hbother j hj),
      ⟨z, hz, hzctx.trans hyctx, hzgen.trans hygen, fun h hh => by have := hzhomes h hh; rwa [hyhome, hyrep] at this⟩,
      fun k hk => by rw [hk] at hlease; simp at hlease⟩

theorem storeTile_absent {tag body : List Byte} {whole : Bool} (hx : Tab.get? s.u.mem.tiles n = none) : (storeTile n tag body whole).run s = s := by
  rw [storeTile, run_read, hx]
  rfl

/-- A write of a tile touches no byte outside it. -/
theorem State.Stored.outside {tag body : List Byte} {whole : Bool} (h : s.Stored t n x tag body whole) (hx : Tab.get? s.u.mem.tiles n = some x) (hlen : body.length ≤ 4096) {a : Nat}
    (ha : ¬ s.inTile n a) : Memory.read t.bytes a = Memory.read s.bytes a := by
  have hhome (g : Home) (hg : x.home = g ∨ x.replica = some g) : (a < s.homeAddr g ∨ s.homeAddr g + body.length ≤ a)
      ∧ (a < s.homeTagAddr g ∨ s.homeTagAddr g + (storedTag tag x.ctx ((x.gen + 1) % 4294967296) body).length ≤ a) := by
    have hnot : ¬ ((s.homeAddr g ≤ a ∧ a < s.homeAddr g + 4096) ∨ (s.homeTagAddr g ≤ a ∧ a < s.homeTagAddr g + 32)) := fun hin => ha ⟨x, g, hx, hg, hin⟩
    rw [storedTag_length]
    omega
  rw [h.bytes]
  cases hr : x.replica with
  | none => exact homeWritten_outside (hhome _ (.inl rfl)).1 (hhome _ (.inl rfl)).2
  | some r =>
    exact (homeWritten_outside (hhome r (.inr hr)).1 (hhome r (.inr hr)).2).trans (homeWritten_outside (hhome _ (.inl rfl)).1 (hhome _ (.inl rfl)).2)

/-- The home holds what was written, where no replica and no tag lies over it. -/
theorem State.Stored.inside {tag body : List Byte} {whole : Bool} (h : s.Stored t n x tag body whole) (hrep : x.replica = none) (hlen : body.length = 4096) (hapart : s.disjointAt x.home) :
    t.mread (s.homeAddr x.home) 4096 = body := by
  rw [State.mread, h.bytes, hrep]
  show Memory.readAll (Memory.writeAll (Memory.writeAll s.bytes (s.homeAddr x.home) body) (s.homeTagAddr x.home) (storedTag ..)) (s.homeAddr x.home) 4096 = body
  rw [readAll_writeAll_apart (by rw [storedTag_length]; exact hapart.symm)]
  exact hlen ▸ readAll_writeAll ..

end

end Sys2Proof.Machine
end

section
/-! PROOFS. The host link, Ethernet, RoCE and collectives (R39, R470 to R480, R498). -/

namespace Sys2Proof.Machine

/-! ## Parts -/

/-- Holdover stays within objects of the time base, its counter, the log and what is sent. -/
theorem holdover_within {A : Part → Prop} {R : (Units → Units) → Prop} (hstate : A (.obj Obj.TB_STATE)) (hrate : A (.obj Obj.TB_RATE_PPB)) (hlosses : A (.obj Obj.TB_LOCK_LOSSES))
    (hctr : A .ctr) (hlog : A .log) (hout : A .out) (hclock : ∀ f, (Act.clock f).Within A R) (hdict : ∀ f, (Act.dict f).Within A R) : holdover.Within A R := by
  simp [holdover, putRate, hstate, hrate, hclock, within_count _ _ _ hlosses hctr, logEv_within _ _ _ _ hlog hout hdict]

theorem portDown_within {A : Part → Prop} {R : (Units → Units) → Prop} {p : Nat} (hlink : A (.obj (Obj.PORT_LINK p))) (hdowns : A (.obj (Obj.PORT_LINK_DOWNS p)))
    (hstate : A (.obj Obj.TB_STATE)) (hrate : A (.obj Obj.TB_RATE_PPB)) (hlosses : A (.obj Obj.TB_LOCK_LOSSES))
    (hctr : A .ctr) (hlog : A .log) (hout : A .out) (hclock : ∀ f, (Act.clock f).Within A R) (hdict : ∀ f, (Act.dict f).Within A R) : (portDown p).Within A R := by
  simp [portDown, hlink, within_count _ _ _ hdowns hctr, holdover_within hstate hrate hlosses hctr hlog hout hclock hdict]

/-- What is done for the members of a list that a guard picks is done for those picked. -/
theorem run_each_when {α : Type} (p : α → Bool) (a : α → Act) (xs : List α) : ∀ s : State, (Act.each xs fun x => .when (p x) (a x)).run s = (xs.filter p).foldl (fun t x => (a x).run t) s := by
  induction xs with
  | nil => intro s; rfl
  | cons x xs ih =>
    intro s
    rw [run_each_cons, ih]
    cases h : p x
    · rw [run_when_false rfl, List.filter_cons_of_neg (by simp [h])]
    · rw [run_when_true rfl, List.filter_cons_of_pos h, List.foldl_cons]

theorem run_each_foldl {α : Type} (a : α → Act) (xs : List α) : ∀ s : State, (Act.each xs a).run s = xs.foldl (fun t x => (a x).run t) s := by
  induction xs with
  | nil => intro s; rfl
  | cons x xs ih => intro s; rw [run_each_cons, ih, List.foldl_cons]

theorem length_flatMap_of_all {α β : Type} {f : α → List β} {n : Nat} {xs : List α} (h : ∀ x ∈ xs, (f x).length = n) : (xs.flatMap f).length = xs.length * n := by
  induction xs with
  | nil => simp
  | cons x xs ih =>
    rw [List.flatMap_cons, List.length_append, h x (List.mem_cons_self ..), ih fun y hy => h y (List.mem_cons_of_mem _ hy), List.length_cons, Nat.succ_mul, Nat.add_comm]

section
variable {s t : State}

/-! ## PCIe -/

theorem exec_pcieLinkUp {rate width aerC aerU : Nat} {jobs : List Nat} (hrate : rate ≤ 6) (hwidth : width ≤ 8) (hperst : s.u.links.perst = true) (hdom : s.get (Obj.DOM_STATE 70) = 2)
    (hshut : s.isOpen 0 = false) (hdev : s.dev ≠ Dev.STANDBY) :
    exec (.pcieLinkChange true true false rate width aerC aerU jobs) s = .next ((((((s.withLinks fun y => { y with l0 := true, bme := true, d3 := false }).puts
      [(Obj.PCIE_RATE, rate), (Obj.PCIE_WIDTH, width)]).sending []).counted 32 Obj.AER_CORRECTABLE aerC).counted 32 Obj.AER_UNCORRECTABLE aerU).opened 0 1 0 0).told := by
  have hwf : Wf.pcieLinkChange true true false rate width aerC aerU jobs = true := Bool.and_eq_true_iff.2 ⟨decide_eq_true hrate, decide_eq_true hwidth⟩
  have hup : (s.begun.u.links.perst && s.begun.get (Obj.DOM_STATE 70) == 2) = true := by
    rw [begun_u, begun_get, hperst, hdom]
    rfl
  have hshut' : s.begun.isOpen 0 = false := hshut
  have hdev' : (s.begun.dev != Dev.STANDBY) = true := bne_iff_ne.2 hdev
  refine (need_next s hwf _).trans (congrArg Host.Outcome.next ?_)
  rw [run_read]
  simp only [hup, hshut', hdev', Bool.not_true, Bool.not_false, Bool.and_true, Bool.and_false, Bool.true_and, if_true]
  rw [run_all_cons, run_all_cons, run_all_cons, run_all_cons, run_all_cons, run_all_cons, run_all_cons, run_all_cons, run_all_cons, run_all_cons, run_all_nil, run_when_false rfl,
    run_when_false rfl, run_when_false rfl, run_when_true rfl]
  rfl

theorem exec_pcieLinkDown {rate width aerC aerU : Nat} {jobs : List Nat} (hrate : rate ≤ 6) (hwidth : width ≤ 8) (hl0 : s.u.links.l0 = true) (hopen : s.isOpen 0 = true) :
    exec (.pcieLinkChange false false false rate width aerC aerU jobs) s = .next (((jobs.eraseDups.filter fun j => (Tab.get? s.u.tt.jobs j).isSome).foldl
      (fun (t : State) j => (t.counted 32 Obj.HOST_ACCESS_FAILS 1).ended j St.ACCESS_DENIED 0x0F01) (((((((s.withLinks fun y => { y with l0 := false, bme := false, d3 := false }).puts
      [(Obj.PCIE_RATE, 0), (Obj.PCIE_WIDTH, 0)]).sending []).counted 32 Obj.LINK_DOWNS 1).counted 32 Obj.AER_CORRECTABLE aerC).counted 32 Obj.AER_UNCORRECTABLE aerU).closed 0))).told := by
  have hwf : Wf.pcieLinkChange false false false rate width aerC aerU jobs = true := Bool.and_eq_true_iff.2 ⟨decide_eq_true hrate, decide_eq_true hwidth⟩
  have hl0' : s.begun.u.links.l0 = true := hl0
  have hopen' : s.begun.isOpen 0 = true := hopen
  refine (need_next s hwf _).trans (congrArg Host.Outcome.next ?_)
  rw [run_read]
  simp only [hl0', hopen', Bool.false_and, Bool.not_true, Bool.not_false, Bool.and_true, Bool.and_false, Bool.false_eq_true, if_false]
  rw [run_all_cons, run_all_cons, run_all_cons, run_all_cons, run_all_cons, run_all_cons, run_all_cons, run_all_cons, run_all_cons, run_all_cons, run_all_nil, run_when_true rfl,
    run_when_true rfl, run_when_true rfl, run_when_false rfl, run_each_when]
  rfl

theorem exec_functionLevelReset (hopen : s.isOpen 0 = true) : exec .functionLevelReset s = .next ((((s.withLinks fun y => { y with bme := false, d3 := false }).withUnits fun u => { u with
    dict := { u.dict with holdoff := [], raised := [] } }).sending []).closed 0) := by
  have hopen' : s.begun.isOpen 0 = true := hopen
  refine (need_next s rfl _).trans (congrArg Host.Outcome.next ?_)
  rw [run_read, run_all_cons, run_all_cons, run_all_cons, run_all_nil, run_when_true hopen']
  rfl

/-! ## Lanes and ports -/

theorem portOfLane_lt {lane : Nat} (h : lane < 4) : s.portOfLane lane < 4 := by
  unfold State.portOfLane
  split <;> omega

theorem portDown_link (p : Nat) : ((portDown p).run s).get (Obj.PORT_LINK p) = 0 := by
  rw [portDown, run_read, run_when]
  by_cases h : s.get (Obj.PORT_LINK p) = 0
  · rw [if_neg (by simp [h]), h]
  · rw [if_pos (bne_iff_ne.2 h), run_all_cons, run_all_cons, run_all_cons, run_all_nil]
    have hne : Obj.PORT_LINK p ≠ Obj.PORT_LINK_DOWNS p ∧ Obj.TB_STATE ≠ Obj.PORT_LINK p ∧ Obj.TB_RATE_PPB ≠ Obj.PORT_LINK p ∧ Obj.TB_LOCK_LOSSES ≠ Obj.PORT_LINK p := by
      unfold Obj.PORT_LINK Obj.PORT_LINK_DOWNS Obj.TB_STATE Obj.TB_RATE_PPB Obj.TB_LOCK_LOSSES
      omega
    obtain ⟨hdowns, hstate, hrate, hlosses⟩ := hne
    have hhold : holdover.Spares (.obj (Obj.PORT_LINK p)) :=
      holdover_within (Part.obj_ne hstate) (Part.obj_ne hrate) (Part.obj_ne hlosses) nofun nofun nofun (fun _ => trivial) fun _ => trivial
    rw [Act.Spares.get _ ((within_when ..).2 fun _ => hhold), run_count_get _ _ _ _ hdowns, run_put_get, if_pos rfl, Nat.zero_mod]

/-- A lane that retires: its port is down, the spare takes it or the port is lost, and the event tells which. -/
theorem retireLane_run {lane why : Nat} (hlane : lane < 4) (ht : (retireLane lane why).run s = t) : lane ∈ t.u.links.retired ∧ t.get (Obj.PORT_LINK (s.portOfLane lane)) = 0 ∧ t.bytes = s.bytes
    ∧ (s.get Obj.SPARE_LANE_USED = 0xFF → t.get Obj.SPARE_LANE_USED = lane ∧ t.u.links.dead = s.u.links.dead ∧ t.lastEvent Ev.ETH_LANE_RETIRED lane why 1)
    ∧ (s.get Obj.SPARE_LANE_USED ≠ 0xFF → t.get Obj.SPARE_LANE_USED = s.get Obj.SPARE_LANE_USED ∧ s.portOfLane lane ∈ t.u.links.dead ∧ t.lastEvent Ev.ETH_LANE_RETIRED lane why 0) := by
  rw [retireLane, run_read] at ht
  simp only at ht
  have hp := portOfLane_lt (s := s) hlane
  generalize s.portOfLane lane = p at *
  generalize hspare : (s.get Obj.SPARE_LANE_USED == 0xFF) = spare at ht
  rw [run_all_cons, run_all_cons, run_all_cons, run_all_cons, run_all_nil] at ht
  generalize ha : Act.run _ s = a at ht
  have hafacts : a.bytes = s.bytes ∧ a.u.links.retired = s.u.links.retired ∧ (spare = true → a.get Obj.SPARE_LANE_USED = lane ∧ a.u.links.dead = s.u.links.dead)
      ∧ (spare = false → a.get Obj.SPARE_LANE_USED = s.get Obj.SPARE_LANE_USED ∧ p ∈ a.u.links.dead) := by
    cases spare
    · subst ha
      exact ⟨rfl, rfl, nofun, fun _ => ⟨rfl, List.mem_cons_self ..⟩⟩
    · subst ha
      exact ⟨rfl, rfl, fun _ => ⟨(run_put_get ..).trans ((if_pos rfl).trans (Nat.mod_eq_of_lt (by omega))), rfl⟩, nofun⟩
  clear ha
  obtain ⟨habytes, -, htaken, hlost⟩ := hafacts
  generalize hb : (Act.links fun x => { x with retired := lane :: x.retired.filter (· != lane) }).run a = b at ht
  have hbfacts : b.bytes = s.bytes ∧ lane ∈ b.u.links.retired ∧ b.u.links.dead = a.u.links.dead ∧ b.get Obj.SPARE_LANE_USED = a.get Obj.SPARE_LANE_USED := by
    subst hb
    exact ⟨habytes, List.mem_cons_self .., rfl, rfl⟩
  clear hb
  obtain ⟨hbbytes, hbretired, hbdead, hbspare⟩ := hbfacts
  generalize hc : (portDown p).run b = c at ht
  have hclink : c.get (Obj.PORT_LINK p) = 0 := by rw [← hc]; exact portDown_link p
  have hcbytes : c.bytes = s.bytes := by
    rw [← hc, ← hbbytes]
    exact Act.Spares.bytes _ (portDown_within nofun nofun nofun nofun nofun nofun nofun nofun (fun _ => trivial) fun _ => trivial)
  have hclinks : c.u.links = b.u.links := by
    rw [← hc]
    exact Act.SparesUnit.unit (f := fun u => u.links) _
      (portDown_within trivial trivial trivial trivial trivial trivial trivial trivial (fun _ => fun _ => rfl) fun _ => fun _ => rfl)
  have hcspare : c.get Obj.SPARE_LANE_USED = a.get Obj.SPARE_LANE_USED := by
    have hne : Obj.PORT_LINK p ≠ Obj.SPARE_LANE_USED ∧ Obj.PORT_LINK_DOWNS p ≠ Obj.SPARE_LANE_USED := by
      unfold Obj.PORT_LINK Obj.PORT_LINK_DOWNS Obj.SPARE_LANE_USED
      omega
    rw [← hc, ← hbspare]
    exact Act.Spares.get _ (portDown_within (Part.obj_ne hne.1) (Part.obj_ne hne.2) (Part.obj_ne (by decide)) (Part.obj_ne (by decide)) (Part.obj_ne (by decide)) nofun nofun nofun
      (fun _ => trivial) fun _ => trivial)
  have htlinks : t.u.links = b.u.links := by
    rw [← hclinks, ← ht]
    exact Act.SparesUnit.unit (f := fun u => u.links) _ (logEv_within _ _ _ _ trivial trivial fun _ => fun _ => rfl)
  have htget (k : Nat) : t.get k = c.get k := by rw [← ht, run_logEv_get]
  refine ⟨by rw [htlinks]; exact hbretired, by rw [htget]; exact hclink, by rw [← ht, run_logEv_bytes]; exact hcbytes, fun h => ?_, fun h => ?_⟩
  · have hsp : spare = true := by rw [← hspare]; exact beq_iff_eq.2 h
    obtain ⟨hs, hd⟩ := htaken hsp
    refine ⟨by rw [htget, hcspare, hs], by rw [htlinks, hbdead, hd], ?_⟩
    rw [← ht, hsp]
    exact logEv_lastEvent ..
  · have hsp : spare = false := by rw [← hspare]; exact beq_eq_false_iff_ne.2 h
    obtain ⟨hs, hd⟩ := hlost hsp
    refine ⟨by rw [htget, hcspare, hs], by rw [htlinks, hbdead]; exact hd, ?_⟩
    rw [← ht, hsp]
    exact logEv_lastEvent ..

theorem exec_ethLaneRetireAuto {lane cause : Nat} (hlane : lane < 4) (hcause : cause < 2) (hdom : s.get (Obj.DOM_STATE 71) = 2) :
    exec (.ethLaneRetireAuto lane cause) s = .next ((retireLane lane cause).run s.begun) :=
  need_when_yes (Bool.and_eq_true_iff.2 ⟨decide_eq_true hlane, decide_eq_true hcause⟩) (fun s => s.get (Obj.DOM_STATE 71) == 2) _ (beq_iff_eq.2 hdom)

theorem exec_laneRetire {ses port k lane : Nat} (hses : ses < 16) (hport : port < 4) (hk : k ≤ 3) (hadm : s.admits ses (Obj.LANE_RETIRE port) k .svc)
    (hlanes : (s.lanesOf port)[k]? = some lane) : exec (.laneRetire ses port k) s = .next (((retireLane lane 2).run s.begun).also (replies ses 0)) := by
  have hlanes' : (s.begun.lanesOf port)[k]? = some lane := hlanes
  have hbody : laneRetire port k s.begun = .ok (retireLane lane 2) := by rw [laneRetire, hlanes']
  have hwf : Wf.laneRetire ses port k = true := Bool.and_eq_true_iff.2 ⟨decide_eq_true hses, decide_eq_true hport⟩
  exact exec_guarded_takes hwf (decide_eq_true hk) hadm hbody

theorem exec_ethPortLinkUp {port rate : Nat} (hport : port < 4) (hrate : rate ≤ 5) (hup : rate ≠ 0) :
    exec (.ethPortLinkChange port rate) s = .next (if s.get (Obj.PORT_ENABLE port) = 0 ∨ s.get (Obj.DOM_STATE 71) ≠ 2 ∨ port ∈ s.u.links.dead ∨ s.lanesOf port = [] then s.sending []
      else (s.putObj (Obj.PORT_LINK port) rate).sending []) := by
  have hiff : (s.begun.get (Obj.PORT_ENABLE port) = 0 ∨ s.begun.get (Obj.DOM_STATE 71) ≠ 2 ∨ s.begun.u.links.dead.contains port = true ∨ (s.begun.lanesOf port).isEmpty = true)
      ↔ (s.get (Obj.PORT_ENABLE port) = 0 ∨ s.get (Obj.DOM_STATE 71) ≠ 2 ∨ port ∈ s.u.links.dead ∨ s.lanesOf port = []) := by
    rw [List.contains_iff_mem, List.isEmpty_iff]
    rfl
  refine (need_next s (Bool.and_eq_true_iff.2 ⟨decide_eq_true hport, decide_eq_true hrate⟩) _).trans (congrArg Host.Outcome.next ?_)
  rw [run_read, if_neg hup]
  by_cases h : s.get (Obj.PORT_ENABLE port) = 0 ∨ s.get (Obj.DOM_STATE 71) ≠ 2 ∨ port ∈ s.u.links.dead ∨ s.lanesOf port = []
  · rw [if_pos h, if_pos (hiff.2 h)]
    rfl
  · rw [if_neg h, if_neg (mt hiff.1 h)]
    rfl

theorem exec_ethPortLinkDown {port : Nat} (hport : port < 4) : exec (.ethPortLinkChange port 0) s = .next ((portDown port).run s.begun) := by
  refine (need_next s (Bool.and_eq_true_iff.2 ⟨decide_eq_true hport, rfl⟩) _).trans (congrArg Host.Outcome.next ?_)
  rw [run_read, if_pos rfl]

theorem exec_arpOrIcmpEchoRequest {port : Nat} (hport : port < 4) (reply : List Byte) : exec (.arpOrIcmpEchoRequest port reply) s
    = .next (s.sending (if s.get (Obj.PORT_LINK port) ≠ 0 ∧ s.get (Obj.IP_ADDR port) ≠ 0 then [.frame (.ethernet port) reply] else [])) := by
  have hiff : (s.begun.get (Obj.PORT_LINK port) != 0 && s.begun.get (Obj.IP_ADDR port) != 0) = true ↔ s.get (Obj.PORT_LINK port) ≠ 0 ∧ s.get (Obj.IP_ADDR port) ≠ 0 := by
    rw [Bool.and_eq_true_iff, bne_iff_ne, bne_iff_ne]
    rfl
  refine (need_next s (decide_eq_true hport) _).trans (congrArg Host.Outcome.next ?_)
  rw [run_read, run_when]
  by_cases h : s.get (Obj.PORT_LINK port) ≠ 0 ∧ s.get (Obj.IP_ADDR port) ≠ 0
  · rw [if_pos h, if_pos (hiff.2 h)]
    rfl
  · rw [if_neg h, if_neg (mt hiff.1 h)]
    rfl

/-! ## RoCE -/

theorem exec_roceAckTimeout {qp : Nat} {x : QpS} {jobs : List Nat} (hqp : qp < 4294967296) (hx : Tab.at s.u.links.qps qp {} = x) (hok : x.failed = false) :
    exec (.roceAckTimeout qp jobs) s = .next ((if x.retries < 7 then Act.all [
        .links (fun y => { y with qps := Tab.set y.qps qp { x with retries := x.retries + 1 } }),
        .emit (.frame (.roce qp) [])]
      else .all [
        .links (fun y => { y with qps := Tab.set y.qps qp { x with failed := true } }),
        .each jobs.eraseDups fun j => collFails j St.TIER_FAIL 0x0F10]).run s.begun).told := by
  have hx' : Tab.at s.begun.u.links.qps qp {} = x := hx
  refine (need_next s (decide_eq_true hqp) _).trans (congrArg Host.Outcome.next ?_)
  rw [run_all_cons, run_all_cons, run_all_nil, run_read, hx']
  simp only [hok, Bool.false_eq_true, if_false]
  rfl

/-! ## Collectives -/

section
variable {job : Nat} {j : Job} {c : CollDecl} (hj : Tab.get? s.u.tt.jobs job = some j) (hc : j.decl.coll = some c)
include hj hc

theorem collFails_run (status detail : Nat) : (collFails job status detail).run s = (s.counted 32 (Obj.COLL_FAILS c.group) 1).ended job status detail := by
  obtain ⟨run, stage, ctx, decl, rest⟩ := j
  obtain ⟨_⟩ := decl
  cases hc
  rw [collFails, run_read, hj]
  show (Act.all [_, _]).run s = _
  rw [run_all_cons, run_all_cons, run_all_nil]
  rfl

/-- An exchange at a job that is not ready: its failures first, else its tile. -/
theorem exec_collectiveExchange {x : Exchange} (hwf : Wf.collectiveExchange job x = true) (hready : j.phase ≠ .ready) :
    exec (.collectiveExchange job x) s = .next ((if c.group ≠ x.group ∨ c.bytes ≠ x.bytes ∨ ¬ opsMeet c.op x.op = true then collFails job St.CONFIG_INVALID 0x0F12
      else if (Tab.at s.u.links.qps (s.get (Obj.COLL_QP_NEXT c.group)) {}).failed = true ∨ (Tab.at s.u.links.qps (s.get (Obj.COLL_QP_PREV c.group)) {}).failed = true then
        collFails job St.TIER_FAIL 0x0F10
      else if ¬ x.data.isEmpty = true ∧ ofLe (x.tag.drop 28) ≠ crc32c (tileSlice x.data 0) then collFails job St.TIER_FAIL 0x0F13
      else .all [
        .links (fun y => { y with qps := [s.get (Obj.COLL_QP_NEXT c.group), s.get (Obj.COLL_QP_PREV c.group)].foldl (fun t q => Tab.upd t q {} fun z => { z with retries := 0 }) y.qps }),
        collTakes job j c x]).run s.begun).told := by
  have hj' : Tab.get? s.begun.u.tt.jobs job = some j := hj
  refine (need_next s hwf _).trans (congrArg Host.Outcome.next ?_)
  rw [run_all_cons, run_all_cons, run_all_nil, run_read, hj']
  simp only [hc]
  rw [if_neg hready]
  rfl

theorem exec_collectiveTimeout (hlimit : s.get Obj.COLL_NO_LIMIT = 0) :
    exec (.collectiveTimeout job) s = .next (((s.sending []).counted 32 (Obj.COLL_FAILS c.group) 1).ended job St.TIER_FAIL 0x0F11).told := by
  have hlimit' : (s.begun.get Obj.COLL_NO_LIMIT == 0) = true := beq_iff_eq.2 hlimit
  refine (need_next s rfl _).trans (congrArg Host.Outcome.next ?_)
  rw [run_all_cons, run_all_cons, run_all_nil, run_read, run_when_true hlimit', collFails_run (s := s.begun) hj hc]
  rfl

end

/-- The payload that an exchange leaves in its tile `n`, and what its conversions count (R478). -/
def State.exchanged (s : State) (combine : Bool) (x : Exchange) (n : Nat) : List Byte × Counts :=
  if combine then reduceTiles x.tag (s.payload n) x.data (fun i => s.free i 64) else (tileSlice x.data 0, {})

theorem tileSlice_length (bs : List Byte) (i : Nat) : (tileSlice bs i).length = 4096 := by
  simp only [tileSlice, List.length_append, List.length_take, List.length_drop, List.length_replicate]
  omega

theorem wideBytes_length (free : Nat) (n : Num) : (wideBytes free n).length = 16 := by
  unfold wideBytes
  cases n with
  | nan neg => simp [le_length]
  | inf neg => simp [le_length]
  | fin neg m e =>
    simp only
    split <;> simp [le_length]

theorem reduceTiles_length {tag a b : List Byte} {free : Nat → Nat} (h : reducible tag = true) : (reduceTiles tag a b free).1.length = 4096 := by
  unfold reduceTiles
  by_cases h3 : tagByte tag 1 = 3
  · rw [if_pos h3]
    simp only
    rw [length_flatMap_of_all (n := 16) fun r _ => wideBytes_length ..]
    simp
  · rw [if_neg h3]
    simp only
    have hfmt : tagByte tag 0 % 16 = 0 ∨ tagByte tag 0 % 16 = 1 := by
      simp only [reducible, Bool.or_eq_true, Bool.and_eq_true, beq_iff_eq, decide_eq_true_eq] at h
      omega
    rw [length_flatMap_of_all (n := fmtBits (tagByte tag 0 % 16) / 8) fun r _ => le_length ..]
    rcases hfmt with hf | hf <;> simp [hf, fmtBits]

theorem exchanged_length {combine : Bool} {x : Exchange} (h : combine = true → reducible x.tag = true) (n : Nat) : (s.exchanged combine x n).1.length = 4096 := by
  cases combine
  · exact tileSlice_length ..
  · exact reduceTiles_length (h rfl)

theorem writeTile_whole {n : Nat} {tag data : List Byte} (h : data.length = 4096) : (writeTile n tag data).run s = (storeTile n tag data true).run s := by
  have hle : 4096 ≤ data.length := h.ge
  rw [writeTile, run_read]
  simp only [hle, decide_true, if_true]
  rw [List.take_of_length_le h.le]

theorem writeFault_tileOf {c a : Nat} {tag : List Byte} (h : s.writeFault c a tag = none) : s.tileOf c a = .inl (tileNo a) := by
  cases ht : s.tileOf c a with
  | inr f => simp [State.writeFault, ht] at h
  | inl n =>
    have hn : n = tileNo a := by
      unfold State.tileOf at ht
      simp only at ht
      split at ht
      · cases ht
      · split at ht
        · cases ht
        · split at ht
          · cases ht
          · split at ht
            · exact (Sum.inl.inj ht).symm
            · cases ht
    rw [hn]

/-- The tile of an exchange that passes takes it, and it goes on unless the ring ends here. -/
theorem collTakes_run {job : Nat} {j : Job} {c : CollDecl} {x : Exchange} {a : Nat} (hdata : x.data ≠ []) (ha : c.tiles[x.place]? = some a) (hfault : s.writeFault j.ctx a x.tag = none)
    (hcombine : x.hop < (hops (s.members c.group) c.op).2 → s.lossOf (tileNo a) = none ∧ reducible x.tag = true) :
    (collTakes job j c x).run s = (Act.all [
      countArith (s.exchanged (decide (x.hop < (hops (s.members c.group) c.op).2)) x (tileNo a)).2, .when (decide (x.hop < (hops (s.members c.group) c.op).2)) (.draw 1024),
      .job job (fun y => { y with output := true }),
      .when (decide (x.hop + 1 < (hops (s.members c.group) c.op).1)) (.emit (.frame (.roce (s.get (Obj.COLL_QP_NEXT c.group)))
        (s.exchanged (decide (x.hop < (hops (s.members c.group) c.op).2)) x (tileNo a)).1))]).run
      ((storeTile (tileNo a) x.tag (s.exchanged (decide (x.hop < (hops (s.members c.group) c.op).2)) x (tileNo a)).1 true).run s) := by
  have hplace : x.place < c.tiles.length := (List.getElem?_eq_some_iff.1 ha).1
  have hget : c.tiles.getD x.place 0 = a := by rw [List.getD_eq_getElem?_getD, ha]; rfl
  have hgo : ¬ (x.data.isEmpty = true ∨ c.tiles.length ≤ x.place) := by
    rw [List.isEmpty_iff]
    exact not_or.2 ⟨hdata, not_le.2 hplace⟩
  generalize hh : hops (s.members c.group) c.op = h at *
  have hloss : (if decide (x.hop < h.2) = true then s.lossOf (tileNo a) else none) = none := by
    split
    · next hlt => exact (hcombine (of_decide_eq_true hlt)).1
    · rfl
  have hred : ¬ (decide (x.hop < h.2) = true ∧ ¬ reducible x.tag = true) := fun ⟨hlt, hnot⟩ => hnot (hcombine (of_decide_eq_true hlt)).2
  have hlen : (s.exchanged (decide (x.hop < h.2)) x (tileNo a)).1.length = 4096 := exchanged_length (fun hlt => (hcombine (of_decide_eq_true hlt)).2) _
  rw [collTakes, run_read]
  simp only [hget, hh]
  rw [if_neg hgo, hfault]
  simp only
  rw [hloss]
  simp only
  rw [if_neg hred, run_all_cons]
  show _ = (Act.all _).run ((storeTile (tileNo a) x.tag (s.exchanged (decide (x.hop < h.2)) x (tileNo a)).1 true).run s)
  rw [← writeTile_whole hlen]
  rfl

end

theorem retries_reset {qps : Tab QpS} {q p : Nat} : (Tab.at ([q, p].foldl (fun t q => Tab.upd t q {} fun z => { z with retries := 0 }) qps) q {}).retries = 0
    ∧ (Tab.at ([q, p].foldl (fun t q => Tab.upd t q {} fun z => { z with retries := 0 }) qps) p {}).retries = 0 := by
  simp only [List.foldl_cons, List.foldl_nil]
  refine ⟨?_, by rw [Tab.at_upd, if_pos rfl]⟩
  rw [Tab.at_upd]
  split
  · rfl
  · rw [Tab.at_upd, if_pos rfl]

theorem countArith_within {A : Part → Prop} {R : (Units → Units) → Prop} (hobj : ∀ k, Obj.SATURATED ≤ k → k ≤ Obj.BOOK_STALLS → A (.obj k)) (hctr : A .ctr) (c : Counts) :
    (countArith c).Within A R := by
  simp only [countArith, within_all_cons, within_all_nil, and_true]
  refine ⟨?_, ?_, ?_, ?_, ?_, ?_, ?_, ?_⟩ <;> exact within_count _ _ _ (hobj _ (by decide) (by decide)) hctr

/-- What follows the write of an exchange's tile: its counts, the job's output, and the tile that goes on. -/
theorem exchangeGoesOn_run {s t : State} {counts : Counts} {combine goes : Bool} {job : Nat} {e : Emit}
    (ht : (Act.all [countArith counts, .when combine (.draw 1024), .job job (fun y => { y with output := true }), .when goes (.emit e)]).run s = t) :
    t.bytes = s.bytes ∧ t.log = s.log ∧ t.u.links = s.u.links ∧ t.out = s.out ++ if goes then [e] else [] := by
  rw [run_all_cons, run_all_cons, run_all_cons, run_all_cons, run_all_nil] at ht
  generalize ha : (countArith counts).run s = a at ht
  have hafacts : a.bytes = s.bytes ∧ a.log = s.log ∧ a.u.links = s.u.links ∧ a.out = s.out := by
    rw [← ha]
    exact ⟨Act.Spares.bytes _ (countArith_within (fun _ _ _ => nofun) nofun _), Act.Spares.log _ (countArith_within (fun _ _ _ => nofun) nofun _),
      Act.SparesUnit.unit (f := fun u => u.links) _ (countArith_within (fun _ _ _ => trivial) trivial _), Act.Spares.out _ (countArith_within (fun _ _ _ => nofun) nofun _)⟩
  obtain ⟨habytes, halog, halinks, haout⟩ := hafacts
  clear ha
  rw [← habytes, ← halog, ← halinks, ← haout]
  subst ht
  cases combine <;> cases goes
  · exact ⟨rfl, rfl, rfl, (List.append_nil _).symm⟩
  · exact ⟨rfl, rfl, rfl, rfl⟩
  · exact ⟨rfl, rfl, rfl, (List.append_nil _).symm⟩
  · exact ⟨rfl, rfl, rfl, rfl⟩

theorem storeTile_links (n : Nat) (tag body : List Byte) (whole : Bool) (s : State) : ((storeTile n tag body whole).run s).u.links = s.u.links := by
  have hkeeps : (storeTile n tag body whole).SparesUnit fun u => u.links :=
    storeTile_within (A := fun _ => True) (R := fun g => ∀ u : Units, (g u).links = u.links) trivial trivial trivial trivial trivial (fun _ _ => rfl) (fun _ _ => rfl)
      (fun code inst d0 d1 => logEv_within code inst d0 d1 trivial trivial fun _ => fun _ => rfl) _ _ _ _
  exact Act.SparesUnit.unit s hkeeps

/-- A job's write of one whole tile: the bytes of that tile alone, and in the home what was written. -/
theorem storeTile_wrote {s t : State} {c a : Nat} {tag body : List Byte} (htile : s.tileOf c a = .inl (tileNo a)) (hseed : s.get Obj.SEED_STOCK_EN = 0) (hlen : body.length = 4096)
    (ht : (storeTile (tileNo a) tag body true).run s = t) : s.onlyTiles t c [(a, [])] ∧ s.wrote t c [(a, tag)] body
      ∧ (s.plainTile (tileNo a) → t.log = s.log ∧ t.out = s.out) := by
  cases hx : Tab.get? s.u.mem.tiles (tileNo a) with
  | none =>
    rw [storeTile_absent hx] at ht
    subst ht
    refine ⟨fun _ _ => rfl, fun o n x ho hn hx' => ?_, fun _ => ⟨rfl, rfl⟩⟩
    obtain rfl := List.singleton_inj.1 ho
    obtain rfl := Sum.inl.inj (htile.symm.trans hn)
    rw [hx] at hx'
    cases hx'
  | some x =>
    have hstored := storeTile_stored hx (.inl hseed) ht
    refine ⟨fun b hb => hstored.outside hx hlen.le (hb _ (List.mem_singleton_self _) _ htile), fun o n y ho hn hy hplain hapart => ?_, fun hplain => ?_⟩
    · obtain rfl := List.singleton_inj.1 ho
      obtain rfl := Sum.inl.inj (htile.symm.trans hn)
      obtain rfl := Option.some.inj (hx.symm.trans hy)
      rw [hlen, Nat.sub_self, List.replicate_zero, List.append_nil, List.take_of_length_le hlen.le]
      exact hstored.inside (hplain x hx).2.1 hlen hapart
    · obtain ⟨⟨k, hk⟩, hrep, -⟩ := hplain x hx
      obtain ⟨hlog, hout, -⟩ := hstored.slot k hk
      exact ⟨hlog, hout hrep⟩

/-- What the tile of a whole exchange leaves. -/
theorem collTakes_leaves {s : State} {job : Nat} {j : Job} {c : CollDecl} {x : Exchange} {a : Nat} (hdata : x.data ≠ []) (ha : c.tiles[x.place]? = some a)
    (hfault : s.writeFault j.ctx a x.tag = none) (hseed : s.get Obj.SEED_STOCK_EN = 0) (hcombine : x.hop < (hops (s.members c.group) c.op).2 → s.lossOf (tileNo a) = none ∧ reducible x.tag = true)
    {t : State} (ht : (collTakes job j c x).run s = t) {bs : List Byte} (hbs : (s.exchanged (decide (x.hop < (hops (s.members c.group) c.op).2)) x (tileNo a)).1 = bs) :
    s.onlyTiles t j.ctx [(a, [])] ∧ s.wrote t j.ctx [(a, x.tag)] bs ∧ t.u.links = s.u.links
      ∧ (s.plainTile (tileNo a) → t.log = s.log ∧ t.out = s.out ++ if x.hop + 1 < (hops (s.members c.group) c.op).1 then [.frame (.roce (s.get (Obj.COLL_QP_NEXT c.group))) bs] else []) := by
  rw [collTakes_run hdata ha hfault hcombine] at ht
  have hlen : bs.length = 4096 := by
    rw [← hbs]
    exact exchanged_length (fun h => (hcombine (of_decide_eq_true h)).2) _
  rw [hbs] at ht
  obtain ⟨w, hw⟩ : ∃ w, (storeTile (tileNo a) x.tag bs true).run s = w := ⟨_, rfl⟩
  rw [hw] at ht
  obtain ⟨honly, hwrote, hplain⟩ := storeTile_wrote (writeFault_tileOf hfault) hseed hlen hw
  obtain ⟨hbytes, hlog, hlinks, hout⟩ := exchangeGoesOn_run ht
  refine ⟨fun b hb => ?_, fun o n y ho hn hy hp hd => ?_, by rw [hlinks, ← hw, storeTile_links], fun hp => ⟨hlog.trans (hplain hp).1, ?_⟩⟩
  · rw [hbytes]
    exact honly b hb
  · rw [State.mread, hbytes]
    exact hwrote o n y ho hn hy hp hd
  · rw [hout, (hplain hp).2]
    exact congrArg (s.out ++ ·) (if_congr decide_eq_true_iff rfl rfl)

/-- Settles O47: link changes and resets of the host link, lanes and ports, requests sent again, and exchanges of a collective. -/
theorem hostAndNetworkLinks : Obligations.HostAndNetworkLinks := by
  unfold Obligations.HostAndNetworkLinks
  intro s
  refine ⟨fun rate width aerC aerU jobs hrate hwidth => ⟨fun hperst hdom hshut hdev => exec_pcieLinkUp hrate hwidth hperst hdom hshut hdev,
      fun hl0 hopen => exec_pcieLinkDown hrate hwidth hl0 hopen⟩,
    fun hopen => exec_functionLevelReset hopen, need_next s rfl _, fun lane cause hlane => ?_, fun port rate hport hrate => ⟨fun h hen hdom hdead hlanes => ?_, fun h hno => ?_, fun _ hdown => ?_,
      fun _ hup htb => ?_, fun reply => exec_arpOrIcmpEchoRequest hport reply⟩, fun qp x jobs hqp hx hok => ⟨fun hlt => ?_, fun hge => ?_⟩, fun job j c hj hc hgroup => ⟨fun x hwf hready => ?_,
      fun hlimit => exec_collectiveTimeout hj hc hlimit⟩⟩
  · refine ⟨fun hcause hdom => ⟨_, exec_ethLaneRetireAuto hlane hcause hdom, retireLane_run (s := s.begun) hlane rfl⟩, fun ses port k hses hport hk hadm hlanes => ?_⟩
    have hexec := exec_laneRetire hses hport hk hadm hlanes
    obtain ⟨hretired, hlink, hbytes, hspare, hlost⟩ := retireLane_run (s := s.begun) (why := 2) hlane rfl
    generalize (retireLane lane 2).run s.begun = u at *
    exact ⟨_, hexec, hretired, hlink, hbytes, hspare, hlost⟩
  · rw [exec_ethPortLinkUp hport hrate h, if_neg]
    exact not_or.2 ⟨hen, not_or.2 ⟨not_not.2 hdom, not_or.2 ⟨hdead, hlanes⟩⟩⟩
  · rw [exec_ethPortLinkUp hport hrate h, if_pos hno]
  · rw [exec_ethPortLinkDown hport, portDown, run_read, run_when_false (bne_eq_false_iff_eq.2 hdown : (s.begun.get (Obj.PORT_LINK port) != 0) = false)]
    rfl
  · have hquiet : (s.begun.get Obj.TB_SOURCE == 1 && s.begun.get Obj.PTP_PORT == port && s.begun.get Obj.TB_STATE == Tb.LOCKED) = false := by
      simp only [begun_get, Bool.and_eq_false_iff, beq_eq_false_iff_ne, or_assoc]
      exact htb
    rw [exec_ethPortLinkDown hport, portDown, run_read, run_when_true (bne_iff_ne.2 hup : (s.begun.get (Obj.PORT_LINK port) != 0) = true), hquiet, run_all_cons, run_all_cons, run_all_cons,
      run_all_nil, run_when_false rfl]
    rfl
  · rw [exec_roceAckTimeout hqp hx hok, if_pos hlt, run_all_cons, run_all_cons, run_all_nil]
    rfl
  · rw [exec_roceAckTimeout hqp hx hok, if_neg (not_lt.2 hge), run_all_cons, run_all_cons, run_all_nil, run_each_foldl]
    rfl
  · have hexec := exec_collectiveExchange hj hc hwf hready
    have hfails (st detail : Nat) : (collFails job st detail).run s.begun = ((s.sending []).counted 32 (Obj.COLL_FAILS c.group) 1).ended job st detail := collFails_run (s := s.begun) hj hc st detail
    have hmeet (h : c.group = x.group ∧ c.bytes = x.bytes ∧ opsMeet c.op x.op = true) : ¬ (c.group ≠ x.group ∨ c.bytes ≠ x.bytes ∨ ¬ opsMeet c.op x.op = true) := by
      simp [h.1, h.2.1, h.2.2]
    refine ⟨fun hno => ?_, fun hmeets hdead => ?_, fun hmeets hqp hprev hbroken => ?_, fun hmeets hqp hprev hwhole hdata a ha hfault hseed hcombine => ?_⟩
    · have hno' : c.group ≠ x.group ∨ c.bytes ≠ x.bytes ∨ ¬ opsMeet c.op x.op = true := by
        by_contra h
        simp only [not_or, not_not] at h
        exact hno h
      rw [hexec, if_pos hno', hfails]
    · rw [hexec, if_neg (hmeet hmeets), if_pos hdead, hfails]
    · have hbroken' : ¬ x.data.isEmpty = true ∧ ofLe (x.tag.drop 28) ≠ crc32c (tileSlice x.data 0) := by
        rw [List.isEmpty_iff]
        exact not_or.1 hbroken
      rw [hexec, if_neg (hmeet hmeets), if_neg (not_or.2 ⟨hqp, hprev⟩), if_pos hbroken', hfails]
    · have hwhole' : ¬ (¬ x.data.isEmpty = true ∧ ofLe (x.tag.drop 28) ≠ crc32c (tileSlice x.data 0)) := by
        rw [List.isEmpty_iff]
        exact fun h => hwhole.elim h.1 h.2
      rw [if_neg (hmeet hmeets), if_neg (not_or.2 ⟨hqp, hprev⟩), if_neg hwhole', run_all_cons, run_all_cons, run_all_nil] at hexec
      have hbs : (s.exchanged (decide (x.hop < (hops (s.members c.group) c.op).2)) x (tileNo a)).1
          = if x.hop < (hops (s.members c.group) c.op).2 then (reduceTiles x.tag (s.payload (tileNo a)) x.data fun i => s.free i 64).1 else tileSlice x.data 0 := by
        by_cases h : x.hop < (hops (s.members c.group) c.op).2
        · rw [if_pos h, decide_eq_true h]
          rfl
        · rw [if_neg h, decide_eq_false h]
          rfl
      obtain ⟨honly, hwrote, hlinks, hplain⟩ := collTakes_leaves (job := job) (s := (Act.links fun y => { y with
        qps := [s.get (Obj.COLL_QP_NEXT c.group), s.get (Obj.COLL_QP_PREV c.group)].foldl (fun t q => Tab.upd t q {} fun z => { z with retries := 0 }) y.qps }).run s.begun)
        hdata ha hfault hseed hcombine rfl hbs
      refine ⟨_, hexec, honly, hwrote, ?_, ?_, hplain⟩
      · rw [hlinks]
        exact retries_reset.1
      · rw [hlinks]
        exact retries_reset.2

end Sys2Proof.Machine
end

section
/-! PROOFS. What the operations of the Sieve and the planner write to their output tiles (R153, R300, R356). -/

namespace Sys2Proof.Machine

/-! ## Writes of whole tiles, one after the other -/

/-- Tile `n` lies in a slot of this module and has no replica. -/
def State.slotTile (s : State) (n : Nat) : Prop := ∀ x, Tab.get? s.u.mem.tiles n = some x → (∃ k, x.home = .slot k) ∧ x.replica = none

theorem State.plainTile.slotTile {s : State} {n : Nat} (h : s.plainTile n) : s.slotTile n := fun x hx =>
  have ⟨hhome, hrep, _, _⟩ := h x hx
  ⟨hhome, hrep⟩

/-- What writes of tiles leave as it was: the map of every context, and where each tile lies; of the objects at most the count of aborted migrations changes. -/
structure State.MapKept (s t : State) : Prop where
  get : ∀ k, k ≠ Obj.MIGRATE_ABORTS → t.get k = s.get k
  tileOf : ∀ c a, t.tileOf c a = s.tileOf c a
  inTile : ∀ n a, t.inTile n a → s.inTile n a
  slotTile : ∀ n, s.slotTile n → t.slotTile n

theorem State.MapKept.refl (s : State) : s.MapKept s := ⟨fun _ _ => rfl, fun _ _ => rfl, fun _ _ => id, fun _ => id⟩

theorem State.MapKept.trans {s t u : State} (h : s.MapKept t) (g : t.MapKept u) : s.MapKept u :=
  ⟨fun k hk => (g.get k hk).trans (h.get k hk), fun c a => (g.tileOf c a).trans (h.tileOf c a), fun n a hin => h.inTile n a (g.inTile n a hin), fun n hn => g.slotTile n (h.slotTile n hn)⟩

theorem storeTile_moduleNo (n : Nat) (tag body : List Byte) (whole : Bool) (s : State) : ((storeTile n tag body whole).run s).u.boot.moduleNo = s.u.boot.moduleNo := by
  have hkeeps : (storeTile n tag body whole).SparesUnit fun u => u.boot.moduleNo :=
    storeTile_within (A := fun _ => True) (R := fun g => ∀ u : Units, (g u).boot.moduleNo = u.boot.moduleNo) trivial trivial trivial trivial trivial (fun _ _ => rfl) (fun _ _ => rfl)
      (fun code inst d0 d1 => logEv_within code inst d0 d1 trivial trivial fun _ => fun _ => rfl) _ _ _ _
  exact Act.SparesUnit.unit s hkeeps

theorem storeTile_mapKept {s t : State} {n : Nat} {tag body : List Byte} {whole : Bool} (hseed : s.get Obj.SEED_STOCK_EN = 0 ∨ bit (tagByte tag 2) 0 = false) (ht : (storeTile n tag body whole).run s = t) : s.MapKept t := by
  cases hx : Tab.get? s.u.mem.tiles n with
  | none =>
    rw [storeTile_absent hx] at ht
    subst ht
    exact .refl s
  | some x =>
    have hstored := storeTile_stored hx hseed ht
    have hmodule : t.u.boot.moduleNo = s.u.boot.moduleNo := by rw [← ht, storeTile_moduleNo]
    obtain ⟨y, hy, hctx, -, hhomes⟩ := hstored.tile
    obtain ⟨haddr, htag⟩ := stored_addrs hstored.get
    refine ⟨hstored.get, fun c a => ?_, fun k a => ?_, fun k hk => ?_⟩
    · rw [State.tileOf, State.tileOf, hmodule, hstored.get _ (by decide)]
      by_cases ha : a / 65536 % 4294967296 = n
      · simp only [ha, hy, hx, hctx]
      · simp only [hstored.other _ ha]
    · rintro ⟨z, h, hz, hh, hin⟩
      rw [haddr, htag] at hin
      by_cases hk : k = n
      · subst hk
        obtain rfl := Option.some.inj (hy.symm.trans hz)
        exact ⟨x, h, hx, hhomes h hh, hin⟩
      · rw [hstored.other k hk] at hz
        exact ⟨z, h, hz, hh, hin⟩
    · intro z hz
      by_cases hkn : k = n
      · subst hkn
        obtain ⟨⟨i, hi⟩, hrep⟩ := hk x hx
        obtain ⟨-, -, w, hw, -, -, hwhome, hwrep⟩ := hstored.slot i hi
        obtain rfl := Option.some.inj (hw.symm.trans hz)
        exact ⟨⟨i, hwhome.trans hi⟩, hwrep.trans hrep⟩
      · rw [hstored.other k hkn] at hz
        exact hk z hz

theorem tileOf_tileNo {s : State} {c a n : Nat} (h : s.tileOf c a = .inl n) : n = tileNo a := by
  unfold State.tileOf at h
  simp only at h
  split at h
  · cases h
  · split at h
    · cases h
    · split at h
      · cases h
      · split at h
        · exact (Sum.inl.inj h).symm
        · cases h

/-- Where a tile lies in a slot and has no replica, a write of it logs and sends nothing. -/
theorem storeTile_silent {s t : State} {n : Nat} {tag body : List Byte} {whole : Bool} (hseed : s.get Obj.SEED_STOCK_EN = 0 ∨ bit (tagByte tag 2) 0 = false) (hslot : s.slotTile n)
    (ht : (storeTile n tag body whole).run s = t) : t.log = s.log ∧ t.out = s.out := by
  cases hx : Tab.get? s.u.mem.tiles n with
  | none =>
    rw [storeTile_absent hx] at ht
    subst ht
    exact ⟨rfl, rfl⟩
  | some x =>
    obtain ⟨⟨k, hk⟩, hrep⟩ := hslot x hx
    obtain ⟨hlog, hout, -⟩ := (storeTile_stored hx hseed ht).slot k hk
    exact ⟨hlog, hout hrep⟩

/-! ## Output tiles -/

/-- Bytes with zeros after them up to a whole payload. -/
def padded (bs : List Byte) : List Byte := bs.take 4096 ++ List.replicate (4096 - bs.length) 0

theorem padded_length (bs : List Byte) : (padded bs).length = 4096 := by
  simp only [padded, List.length_append, List.length_take, List.length_replicate]
  omega

/-- One output tile: the write of the tile that the context knows by the address. -/
theorem writeOut_cons {s : State} {c : Nat} {o : Nat × List Byte} {os : List (Nat × List Byte)} {bs : List Byte} (hbs : bs ≠ []) :
    (writeOut c (o :: os) bs).run s = (writeOut c os (bs.drop 4096)).run (match s.tileOf c o.1 with
      | .inl n => (storeTile n o.2 (padded bs) true).run s
      | .inr _ => s) := by
  rw [writeOut, if_neg hbs, run_all_cons, run_all_cons, run_all_nil, run_read]
  cases s.tileOf c o.1 with
  | inl n => exact congrArg (writeOut c os (bs.drop 4096)).run (writeTile_whole (padded_length bs))
  | inr f => rfl

theorem writeOut_nil_bytes (c : Nat) (outs : List (Nat × List Byte)) (s : State) : (writeOut c outs []).run s = s := by
  cases outs with
  | nil => rfl
  | cons o os => rw [writeOut, if_pos rfl]; rfl

/-- One step of `writeOut`: the map is kept, no byte but the tile's changes, and a tile in a slot is written in silence. -/
theorem writeOut_step {s u : State} {c : Nat} {o : Nat × List Byte} {body : List Byte} (hseed : s.get Obj.SEED_STOCK_EN = 0) (hlen : body.length = 4096)
    (hu : (match s.tileOf c o.1 with
      | .inl n => (storeTile n o.2 body true).run s
      | .inr _ => s) = u) : s.MapKept u ∧ s.onlyTiles u c [o] ∧ s.wrote u c [o] body ∧ ((∀ n, s.tileOf c o.1 = .inl n → s.slotTile n) → u.log = s.log ∧ u.out = s.out) := by
  cases hn : s.tileOf c o.1 with
  | inr f =>
    rw [hn] at hu
    subst hu
    refine ⟨.refl s, fun _ _ => rfl, fun o' n x ho hn' => ?_, fun _ => ⟨rfl, rfl⟩⟩
    obtain rfl := List.singleton_inj.1 ho
    rw [hn] at hn'
    cases hn'
  | inl n =>
    rw [hn] at hu
    obtain rfl := tileOf_tileNo hn
    obtain ⟨honly, hwrote, -⟩ := storeTile_wrote hn hseed hlen hu
    refine ⟨storeTile_mapKept (.inl hseed) hu, fun a ha => honly a fun o' ho' => ?_, hwrote, fun hslot => storeTile_silent (.inl hseed) (hslot _ rfl) hu⟩
    obtain rfl := List.mem_singleton.1 ho'
    exact ha o (List.mem_singleton_self o)

/-- What the writes of an operation's output tiles leave. -/
theorem writeOut_leaves {c : Nat} : ∀ (outs : List (Nat × List Byte)) (bs : List Byte) {s t : State}, s.get Obj.SEED_STOCK_EN = 0 → (writeOut c outs bs).run s = t →
    s.MapKept t ∧ s.onlyTiles t c outs ∧ ((∀ o ∈ outs, ∀ n, s.tileOf c o.1 = .inl n → s.slotTile n) → t.log = s.log ∧ t.out = s.out) := by
  intro outs
  induction outs with
  | nil =>
    rintro bs s t _ rfl
    exact ⟨.refl s, fun _ _ => rfl, fun _ => ⟨rfl, rfl⟩⟩
  | cons o os ih =>
    intro bs s t hseed ht
    by_cases hbs : bs = []
    · rw [hbs, writeOut_nil_bytes] at ht
      subst ht
      exact ⟨.refl s, fun _ _ => rfl, fun _ => ⟨rfl, rfl⟩⟩
    · rw [writeOut_cons hbs] at ht
      generalize hu : (match s.tileOf c o.1 with
        | .inl n => (storeTile n o.2 (padded bs) true).run s
        | .inr _ => s) = u at ht
      obtain ⟨hkept, honly, -, hsilent⟩ := writeOut_step hseed (padded_length bs) hu
      obtain ⟨hkept', honly', hsilent'⟩ := ih _ ((hkept.get _ (by decide)).trans hseed) ht
      refine ⟨hkept.trans hkept', fun a ha => ?_, fun hslots => ?_⟩
      · have hrest : Memory.read t.bytes a = Memory.read u.bytes a := honly' a fun o' ho' n hn hin =>
          ha o' (List.mem_cons_of_mem _ ho') n ((hkept.tileOf _ _).symm.trans hn) (hkept.inTile n a hin)
        rw [hrest]
        refine honly a fun o' ho' n hn => ?_
        obtain rfl := List.mem_singleton.1 ho'
        exact ha _ List.mem_cons_self n hn
      · obtain ⟨hlog, hout⟩ := hsilent fun n hn => hslots o List.mem_cons_self n hn
        obtain ⟨hlog', hout'⟩ := hsilent' fun o' ho' n hn => hkept.slotTile n (hslots o' (List.mem_cons_of_mem _ ho') n ((hkept.tileOf _ _).symm.trans hn))
        exact ⟨hlog'.trans hlog, hout'.trans hout⟩

/-- An operation with one output tile that has something to write leaves it, with zeros after it, in the tile's slot. -/
theorem writeOut_wrote {s t : State} {c : Nat} {outs : List (Nat × List Byte)} {bs : List Byte} (hseed : s.get Obj.SEED_STOCK_EN = 0) (hbs : bs ≠ []) (ht : (writeOut c outs bs).run s = t) :
    s.wrote t c outs bs := by
  rintro o n x rfl hn hx hplain hapart
  rw [writeOut_cons hbs] at ht
  obtain ⟨-, -, hwrote, -⟩ := writeOut_step hseed (padded_length bs) ht
  have := hwrote o n x rfl hn hx hplain hapart
  rwa [padded_length, Nat.sub_self, List.replicate_zero, List.append_nil, List.take_of_length_le (padded_length bs).le] at this

/-- What an operation leaves that writes its output tiles and then touches neither memory, nor the log, nor what is sent. -/
theorem writeOut_outputs {s t u : State} {c : Nat} {outs : List (Nat × List Byte)} {bs : List Byte} (hseed : s.get Obj.SEED_STOCK_EN = 0) (hbs : bs ≠ []) (ht : (writeOut c outs bs).run s = t)
    (hbytes : u.bytes = t.bytes) (hlog : u.log = t.log) (hout : u.out = t.out) :
    s.onlyTiles u c outs ∧ s.wrote u c outs bs ∧ (s.plainOuts c outs → u.log = s.log ∧ u.out = s.out) := by
  obtain ⟨-, honly, hsilent⟩ := writeOut_leaves outs bs hseed ht
  have hwrote := writeOut_wrote hseed hbs ht
  refine ⟨fun a ha => ?_, fun o n x ho hn hx hplain hapart => ?_, fun hplain => ?_⟩
  · rw [hbytes]
    exact honly a ha
  · rw [State.mread, hbytes]
    exact hwrote o n x ho hn hx hplain hapart
  · rw [hlog, hout]
    exact hsilent fun o ho n hn => (hplain o ho n hn).slotTile

theorem outFault_congr {s t : State} {c : Nat} (hu : t.u = s.u) (hentries : t.get Obj.MAP_ENTRIES = s.get Obj.MAP_ENTRIES) (hstream : t.get (Obj.STREAM_ROOT c) = s.get (Obj.STREAM_ROOT c))
    (hseq : t.get (Obj.SEQ_ROOT c) = s.get (Obj.SEQ_ROOT c)) (outs : List (Nat × List Byte)) : t.outFault c outs = s.outFault c outs := by
  have htile (a : Nat) : t.tileOf c a = s.tileOf c a := by rw [State.tileOf, State.tileOf, hu, hentries]
  have hrecords : t.stream = s.stream := funext fun n => by rw [State.stream, State.stream, hu]
  have hstreams (n : Nat) : t.streamTile c n = s.streamTile c n := by rw [State.streamTile, State.streamTile, hstream, hu, hrecords]
  have hseqs (n : Nat) : t.seqTile c n = s.seqTile c n := by simp only [State.seqTile, hu, hseq]
  have hmaps (n : Nat) : t.mapTile n = s.mapTile n := by simp only [State.mapTile, hu]
  have hforeign (tag : List Byte) : t.foreignRef tag = s.foreignRef tag := by rw [State.foreignRef, State.foreignRef, hu]
  have hfault (o : Nat × List Byte) : t.writeFault c o.1 o.2 = s.writeFault c o.1 o.2 := by
    rw [State.writeFault, State.writeFault, htile]
    cases s.tileOf c o.1 with
    | inr f => rfl
    | inl n => simp only [hforeign, hstreams, hseqs, hmaps]
  rw [State.outFault, State.outFault]
  exact congrArg (outs.findSome? ·) (funext hfault)

/-- A count of a unit's object keeps what may be written. -/
theorem outFault_counted {s : State} {w k n c : Nat} (hk : k < 0x400000) (hentries : k ≠ Obj.MAP_ENTRIES) (outs : List (Nat × List Byte)) : (s.counted w k n).outFault c outs = s.outFault c outs :=
  outFault_congr (run_count_u ..) (run_count_get _ _ _ _ hentries.symm) (run_count_get _ _ _ _ (by unfold Obj.STREAM_ROOT; omega)) (run_count_get _ _ _ _ (by unfold Obj.SEQ_ROOT; omega)) outs

/-! ## Outputs after counts -/

/-- `t` has the memory and the tiles of `s`, and every context knows them by the same addresses. -/
structure State.SameMap (s t : State) : Prop where
  tiles : t.u.mem.tiles = s.u.mem.tiles
  bytes : t.bytes = s.bytes
  tileOf : t.tileOf = s.tileOf
  homeAddr : t.homeAddr = s.homeAddr
  homeTagAddr : t.homeTagAddr = s.homeTagAddr

theorem sameMap_counted (s : State) {w k n : Nat} (hpayload : k ≠ Obj.PAYLOAD_BASE) (htag : k ≠ Obj.TAG_BASE) (hentries : k ≠ Obj.MAP_ENTRIES) : s.SameMap (s.counted w k n) :=
  ⟨congrArg (fun u => u.mem.tiles) (run_count_u ..), run_count_bytes .., funext fun c => funext fun a => by rw [State.tileOf, State.tileOf, State.counted, run_count_u, run_count_get _ _ _ _ hentries.symm],
    funext (homeAddr_congr (run_count_get _ _ _ _ hpayload.symm)), funext (homeTagAddr_congr (run_count_get _ _ _ _ htag.symm))⟩

theorem State.SameMap.trans {s t u : State} (h : s.SameMap t) (g : t.SameMap u) : s.SameMap u :=
  ⟨g.tiles.trans h.tiles, g.bytes.trans h.bytes, g.tileOf.trans h.tileOf, g.homeAddr.trans h.homeAddr, g.homeTagAddr.trans h.homeTagAddr⟩

section
variable {s b : State} (h : s.SameMap b)
include h

theorem State.SameMap.onlyTiles_iff (t : State) (c : Nat) (outs : List (Nat × List Byte)) : b.onlyTiles t c outs ↔ s.onlyTiles t c outs := by
  obtain ⟨htiles, hbytes, htile, haddr, htag⟩ := h
  simp only [State.onlyTiles, State.inTile, htiles, hbytes, htile, haddr, htag]

theorem State.SameMap.wrote_iff (t : State) (c : Nat) (outs : List (Nat × List Byte)) (bs : List Byte) : b.wrote t c outs bs ↔ s.wrote t c outs bs := by
  obtain ⟨htiles, hbytes, htile, haddr, htag⟩ := h
  simp only [State.wrote, State.plainTile, htiles, htile, haddr, htag]

theorem State.SameMap.plainOuts_iff (c : Nat) (outs : List (Nat × List Byte)) : b.plainOuts c outs ↔ s.plainOuts c outs := by
  obtain ⟨htiles, hbytes, htile, haddr, htag⟩ := h
  simp only [State.plainOuts, State.plainTile, htiles, htile]

end

/-- What is said of the outputs of a state is said of one with the same map. -/
theorem State.SameMap.outputs {s b t : State} {c : Nat} {outs : List (Nat × List Byte)} {bs : List Byte} {P : Prop} (h : s.SameMap b)
    (hout : b.onlyTiles t c outs ∧ b.wrote t c outs bs ∧ (b.plainOuts c outs → P)) : s.onlyTiles t c outs ∧ s.wrote t c outs bs ∧ (s.plainOuts c outs → P) := by
  rwa [h.onlyTiles_iff, h.wrote_iff, h.plainOuts_iff] at hout

end Sys2Proof.Machine
end

section
/-! PROOFS. The Sieve's slices: time, endings, decodes and crops (R300 to R310). -/

namespace Sys2Proof.Machine

/-! ## Suppression -/

theorem suppress_length (o : SieveOp) : ∀ (n : Nat) (bs : List Box), (suppress o n bs).length ≤ n := by
  intro n
  induction n with
  | zero => intro bs; exact Nat.zero_le _
  | succ n ih =>
    intro bs
    cases bs with
    | nil => exact Nat.zero_le _
    | cons b bs => exact Nat.succ_le_succ (ih _)

theorem softSuppress_length (o : SieveOp) (sigma : Num) : ∀ (n : Nat) (bs : List Box), (softSuppress o sigma n bs).length ≤ n := by
  intro n
  induction n with
  | zero => intro bs; exact Nat.zero_le _
  | succ n ih =>
    intro bs
    cases bs with
    | nil => exact Nat.zero_le _
    | cons b bs => exact Nat.succ_le_succ (ih _)

theorem insertBy_length {α : Type} (le : α → α → Bool) (a : α) (xs : List α) : (insertBy le a xs).length = xs.length + 1 := by
  induction xs with
  | nil => rfl
  | cons b xs ih =>
    rw [insertBy]
    split
    · rfl
    · rw [List.length_cons, ih, List.length_cons]

theorem sortBy_length {α : Type} (le : α → α → Bool) (xs : List α) : (sortBy le xs).length = xs.length := by
  induction xs with
  | nil => rfl
  | cons a xs ih => exact (insertBy_length le a _).trans (congrArg (· + 1) ih)

/-- Every candidate is kept, cut, or suppressed, and no more than declared are kept (R305, R310). -/
theorem sieveBoxes_counts (o : SieveOp) (clamp : Num) (d : SieveData) :
    (sieveBoxes o clamp d).2.1 ≤ o.maxOut ∧ (sieveBoxes o clamp d).2.1 + (sieveBoxes o clamp d).2.2.1 ≤ (sieveBoxes o clamp d).1 := by
  unfold sieveBoxes
  simp only
  generalize candidates o clamp 0 0 d.rows = all
  have htop : ((sortBy Box.first all).take o.topk).length ≤ all.length := by
    rw [List.length_take, sortBy_length]
    exact Nat.min_le_right ..
  generalize (sortBy Box.first all).take o.topk = top at *
  generalize hkept : (match o.soft with
    | some g => softSuppress o (fp g) top.length top
    | none => suppress o top.length top) = kept
  have hlen : kept.length ≤ top.length := by
    rw [← hkept]
    cases o.soft with
    | none => exact suppress_length ..
    | some g => exact softSuppress_length ..
  have hsum (a t k m : Nat) (hk : k ≤ t) (ht : t ≤ a) : min m k + ((a - t) + (k - min m k)) ≤ a := by omega
  subst hkept
  rw [List.length_take]
  exact ⟨Nat.min_le_left .., hsum _ _ _ _ hlen htop⟩

/-! ## Slices -/

section
variable {s : State} {job ns : Nat} {x : Job} {o : SieveOp} (hhead : s.sieveOrder.head? = some (job, x)) (hop : x.decl.op = some (.sieve o)) (hdom : s.get (Obj.DOM_STATE 76) = 2)
  (hcurrent : s.u.pow.overcurrent = false) (hns : ns ≤ 2000)
include hhead hop hdom hcurrent hns

/-- A slice of the operation that comes first: its time is counted, and then what its record and its end ask for. -/
theorem exec_sieveSlice (last : Option SieveData) : exec (.sieveSlice job ns last) s = .next (((match x.stop, last with
      | some f, _ => endJob job f.1 f.2 0 0
      | none, some d => sieveEnds job x o d
      | none, none => .skip).run ((s.sending []).counted 64 Obj.SIEVE_BUSY_NS ns)).told) := by
  obtain ⟨rest, hrest⟩ : ∃ rest, s.sieveOrder = (job, x) :: rest := by
    cases h : s.sieveOrder with
    | nil => rw [h] at hhead; cases hhead
    | cons e es =>
      rw [h] at hhead
      obtain rfl := Option.some.inj hhead
      exact ⟨es, rfl⟩
  have hrest' : s.begun.sieveOrder = (job, x) :: rest := hrest
  have hgo : ¬ (job ≠ job ∨ s.begun.get (Obj.DOM_STATE 76) ≠ 2 ∨ s.begun.u.pow.overcurrent = true) := by
    rintro (h | h | h)
    · exact h rfl
    · exact h hdom
    · exact Bool.false_ne_true (hcurrent.symm.trans h)
  refine (need_next s (decide_eq_true hns) _).trans (congrArg Host.Outcome.next ?_)
  rw [run_read, run_all_cons, run_all_cons, run_all_nil, hrest']
  simp only
  rw [if_neg hgo, run_all_cons, run_all_cons, run_all_nil, hop]
  refine congrArg settle.run ?_
  cases x.stop with
  | some f => rfl
  | none => cases last <;> rfl

end

theorem sieveCrops_ne_nil (o : SieveOp) (d : SieveData) : (sieveCrops o d).1 ≠ [] := by
  unfold sieveCrops
  exact fun h => List.cons_ne_nil _ _ (List.append_eq_nil_iff.1 (List.append_eq_nil_iff.1 h).1).1

theorem sieveBoxes_ne_nil (o : SieveOp) (clamp : Num) (d : SieveData) : (sieveBoxes o clamp d).2.2.2 ≠ [] := by
  unfold sieveBoxes
  exact fun h => List.cons_ne_nil _ _ (List.append_eq_nil_iff.1 (List.append_eq_nil_iff.1 (List.append_eq_nil_iff.1 h).1).1).1

section
variable {b : State} {job : Nat} {x : Job} {o : SieveOp} {d : SieveData}

/-- A table that does not have the declared number of anchors. -/
abbrev SieveOp.short (o : SieveOp) (d : SieveData) : Prop :=
  o.crop = false ∧ ((o.grid = false ∧ o.variant ≠ 2 ∧ d.tableLen ≠ o.anchors) ∨ d.scoreLen ≠ o.anchors ∨ d.rows.length ≠ o.anchors)

theorem sieveEnds_short (h : o.short d) : (sieveEnds job x o d).run b = b.ended job St.CONFIG_INVALID 0x0811 := by
  rw [sieveEnds, run_read, if_pos (by simpa [SieveOp.short] using h)]
  rfl

theorem sieveEnds_fault {f : Nat × Nat} (h : ¬ o.short d) (hfault : b.outFault x.ctx d.outs = some f) : (sieveEnds job x o d).run b = b.ended job f.1 f.2 := by
  rw [sieveEnds, run_read, if_neg (by simpa [SieveOp.short] using h), hfault]
  rfl

end

/-- A decode that may write its list: the list, its counts, and the end of the job. -/
theorem sieveEnds_decode {b : State} {job : Nat} {x : Job} {o : SieveOp} {d : SieveData} (h : ¬ o.short d) (hcrop : o.crop = false) (hfault : b.outFault x.ctx d.outs = none) :
    (sieveEnds job x o d).run b = (((((((writeOut x.ctx d.outs (sieveBoxes o (fp (b.get Obj.DW_CLAMP)) d).2.2.2).run b).counted 64 Obj.CANDIDATES (sieveBoxes o (fp (b.get Obj.DW_CLAMP)) d).1).counted
        64 Obj.BOXES_KEPT (sieveBoxes o (fp (b.get Obj.DW_CLAMP)) d).2.1).counted 64 Obj.BOXES_TRUNCATED (sieveBoxes o (fp (b.get Obj.DW_CLAMP)) d).2.2.1).counted 64 Obj.SIEVE_OPS 1).withJob job
        fun y => { y with output := true }).ended job St.DONE 0 := by
  rw [sieveEnds, run_read, if_neg (by simpa [SieveOp.short] using h), hfault]
  simp only
  rw [if_neg (by simp [hcrop])]
  simp only [run_all_cons, run_all_nil]
  rfl

/-- Crops that may be written. -/
theorem sieveEnds_crops {b : State} {job : Nat} {x : Job} {o : SieveOp} {d : SieveData} (hcrop : o.crop = true) (hfault : b.outFault x.ctx d.outs = none) :
    (sieveEnds job x o d).run b = ((((((countArith (sieveCrops o d).2).run ((writeOut x.ctx d.outs (sieveCrops o d).1).run b)).counted 32 Obj.DEGENERATE_BOXES (d.boxes.filter degenerate).length).counted
        64 Obj.SIEVE_OPS 1).withJob job fun y => { y with output := true })).ended job St.DONE 0 := by
  rw [sieveEnds, run_read, if_neg (by simp [hcrop]), hfault]
  simp only
  rw [if_pos hcrop]
  simp only [run_all_cons, run_all_nil]
  rfl

theorem countArith_get (c : Counts) (s : State) {k : Nat} (h : k < Obj.SATURATED ∨ Obj.BOOK_STALLS < k) : ((countArith c).run s).get k = s.get k :=
  Act.Spares.get s (countArith_within (A := (· ≠ Part.obj k)) (fun j hlo hhi => Part.obj_ne (by omega)) nofun c)

theorem countArith_keeps (c : Counts) (s : State) : ((countArith c).run s).bytes = s.bytes ∧ ((countArith c).run s).log = s.log ∧ ((countArith c).run s).out = s.out :=
  ⟨Act.Spares.bytes s (countArith_within (fun _ _ _ => nofun) nofun c), Act.Spares.log s (countArith_within (fun _ _ _ => nofun) nofun c),
    Act.Spares.out s (countArith_within (fun _ _ _ => nofun) nofun c)⟩

theorem counted_keeps (s : State) (w k n : Nat) : (s.counted w k n).bytes = s.bytes ∧ (s.counted w k n).log = s.log ∧ (s.counted w k n).out = s.out :=
  ⟨run_count_bytes .., run_count_log .., run_count_out ..⟩

section
variable {s t : State} {job ns : Nat} {x : Job} {o : SieveOp} {d : SieveData}

/-- The boxes of a decode that may be written. -/
theorem sieveEnds_decode_leaves (hseed : s.get Obj.SEED_STOCK_EN = 0) (hops : s.get Obj.SIEVE_OPS + 1 < 2 ^ 64) (hcand : s.get Obj.CANDIDATES + (sieveBoxes o (fp (s.get Obj.DW_CLAMP)) d).1 < 2 ^ 64)
    (hkept : s.get Obj.BOXES_KEPT + (sieveBoxes o (fp (s.get Obj.DW_CLAMP)) d).2.1 < 2 ^ 64) (hcut : s.get Obj.BOXES_TRUNCATED + (sieveBoxes o (fp (s.get Obj.DW_CLAMP)) d).2.2.1 < 2 ^ 64)
    (hshort : ¬ o.short d) (hcrop : o.crop = false) (hfault : s.outFault x.ctx d.outs = none) :
    ∃ t : State, (sieveEnds job x o d).run s = t.ended job St.DONE 0 ∧
    t.get Obj.SIEVE_OPS = s.get Obj.SIEVE_OPS + 1 ∧ t.get Obj.SIEVE_BUSY_NS = s.get Obj.SIEVE_BUSY_NS ∧ t.get Obj.CANDIDATES = s.get Obj.CANDIDATES + (sieveBoxes o (fp (s.get Obj.DW_CLAMP)) d).1
      ∧ t.get Obj.BOXES_KEPT = s.get Obj.BOXES_KEPT + (sieveBoxes o (fp (s.get Obj.DW_CLAMP)) d).2.1 ∧ t.get Obj.BOXES_TRUNCATED = s.get Obj.BOXES_TRUNCATED + (sieveBoxes o (fp (s.get Obj.DW_CLAMP)) d).2.2.1
      ∧ s.onlyTiles t x.ctx d.outs ∧ s.wrote t x.ctx d.outs (sieveBoxes o (fp (s.get Obj.DW_CLAMP)) d).2.2.2 ∧ (s.plainOuts x.ctx d.outs → t.log = s.log ∧ t.out = s.out) := by
  have hends := sieveEnds_decode (job := job) hshort hcrop hfault
  generalize hb : (writeOut x.ctx d.outs (sieveBoxes o (fp (s.get Obj.DW_CLAMP)) d).2.2.2).run s = b at hends
  obtain ⟨hmap, -, -⟩ := writeOut_leaves _ _ hseed hb
  have hne := sieveBoxes_ne_nil o (fp (s.get Obj.DW_CLAMP)) d
  generalize sieveBoxes o (fp (s.get Obj.DW_CLAMP)) d = r at *
  generalize hb1 : b.counted 64 Obj.CANDIDATES r.1 = b1 at hends
  generalize hb2 : b1.counted 64 Obj.BOXES_KEPT r.2.1 = b2 at hends
  generalize hb3 : b2.counted 64 Obj.BOXES_TRUNCATED r.2.2.1 = b3 at hends
  generalize hb4 : b3.counted 64 Obj.SIEVE_OPS 1 = b4 at hends
  generalize ht : b4.withJob job (fun y => { y with output := true }) = t at hends
  have h1 (k : Nat) (hk : k ≠ Obj.CANDIDATES) : b1.get k = b.get k := hb1 ▸ run_count_get _ _ _ _ hk
  have h2 (k : Nat) (hk : k ≠ Obj.BOXES_KEPT) : b2.get k = b1.get k := hb2 ▸ run_count_get _ _ _ _ hk
  have h3 (k : Nat) (hk : k ≠ Obj.BOXES_TRUNCATED) : b3.get k = b2.get k := hb3 ▸ run_count_get _ _ _ _ hk
  have h4 (k : Nat) (hk : k ≠ Obj.SIEVE_OPS) : t.get k = b3.get k := by
    rw [← run_count_get b3 64 Obj.SIEVE_OPS 1 hk, ← ht, ← hb4]
    rfl
  have hcands : b1.get Obj.CANDIDATES = s.get Obj.CANDIDATES + r.1 := by
    rw [← hmap.get _ (by decide), ← hb1]
    exact run_count_get_self _ _ _ _ (by decide) (by rwa [hmap.get _ (by decide)])
  have hkepts : b2.get Obj.BOXES_KEPT = s.get Obj.BOXES_KEPT + r.2.1 := by
    have hbase : b1.get Obj.BOXES_KEPT = s.get Obj.BOXES_KEPT := (h1 _ (by decide)).trans (hmap.get _ (by decide))
    rw [← hbase, ← hb2]
    exact run_count_get_self _ _ _ _ (by decide) (by rwa [hbase])
  have hcuts : b3.get Obj.BOXES_TRUNCATED = s.get Obj.BOXES_TRUNCATED + r.2.2.1 := by
    have hbase : b2.get Obj.BOXES_TRUNCATED = s.get Obj.BOXES_TRUNCATED := (h2 _ (by decide)).trans ((h1 _ (by decide)).trans (hmap.get _ (by decide)))
    rw [← hbase, ← hb3]
    exact run_count_get_self _ _ _ _ (by decide) (by rwa [hbase])
  have hopss : t.get Obj.SIEVE_OPS = s.get Obj.SIEVE_OPS + 1 := by
    have hbase : b3.get Obj.SIEVE_OPS = s.get Obj.SIEVE_OPS := (h3 _ (by decide)).trans ((h2 _ (by decide)).trans ((h1 _ (by decide)).trans (hmap.get _ (by decide))))
    rw [← hbase, ← run_count_get_self b3 64 Obj.SIEVE_OPS 1 (by decide) (by rwa [hbase]), ← ht, ← hb4]
    rfl
  have hkeeps : t.bytes = b.bytes ∧ t.log = b.log ∧ t.out = b.out := by
    obtain ⟨hbytes1, hlog1, hout1⟩ := counted_keeps b 64 Obj.CANDIDATES r.1
    obtain ⟨hbytes2, hlog2, hout2⟩ := counted_keeps b1 64 Obj.BOXES_KEPT r.2.1
    obtain ⟨hbytes3, hlog3, hout3⟩ := counted_keeps b2 64 Obj.BOXES_TRUNCATED r.2.2.1
    obtain ⟨hbytes4, hlog4, hout4⟩ := counted_keeps b3 64 Obj.SIEVE_OPS 1
    rw [hb1] at hbytes1 hlog1 hout1
    rw [hb2] at hbytes2 hlog2 hout2
    rw [hb3] at hbytes3 hlog3 hout3
    rw [hb4] at hbytes4 hlog4 hout4
    rw [← hbytes1, ← hbytes2, ← hbytes3, ← hbytes4, ← hlog1, ← hlog2, ← hlog3, ← hlog4, ← hout1, ← hout2, ← hout3, ← hout4, ← ht]
    exact ⟨rfl, rfl, rfl⟩
  obtain ⟨hbytes, hlog, hout⟩ := hkeeps
  refine ⟨t, hends, hopss, ?_, ?_, ?_, (h4 _ (by decide)).trans hcuts, writeOut_outputs hseed hne hb hbytes hlog hout⟩
  · rw [h4 _ (by decide), h3 _ (by decide), h2 _ (by decide), h1 _ (by decide), hmap.get _ (by decide)]
  · rw [h4 _ (by decide), h3 _ (by decide), h2 _ (by decide), hcands]
  · rw [h4 _ (by decide), h3 _ (by decide), hkepts]

/-- The crops of a box list that may be written. -/
theorem sieveEnds_crops_leaves (hseed : s.get Obj.SEED_STOCK_EN = 0) (hops : s.get Obj.SIEVE_OPS + 1 < 2 ^ 64)
    (hboxes : s.get Obj.DEGENERATE_BOXES + (d.boxes.filter degenerate).length < 2 ^ 32) (hcrop : o.crop = true) (hfault : s.outFault x.ctx d.outs = none) :
    ∃ t : State, (sieveEnds job x o d).run s = t.ended job St.DONE 0 ∧
    t.get Obj.SIEVE_OPS = s.get Obj.SIEVE_OPS + 1 ∧ t.get Obj.DEGENERATE_BOXES = s.get Obj.DEGENERATE_BOXES + (d.boxes.filter degenerate).length
      ∧ s.onlyTiles t x.ctx d.outs ∧ s.wrote t x.ctx d.outs (sieveCrops o d).1 ∧ (s.plainOuts x.ctx d.outs → t.log = s.log ∧ t.out = s.out) := by
  have hends := sieveEnds_crops (job := job) hcrop hfault
  generalize hb : (writeOut x.ctx d.outs (sieveCrops o d).1).run s = b at hends
  obtain ⟨hmap, -, -⟩ := writeOut_leaves _ _ hseed hb
  obtain ⟨hbytes1, hlog1, hout1⟩ := countArith_keeps (sieveCrops o d).2 b
  have h1 (k : Nat) (hk : k < Obj.SATURATED ∨ Obj.BOOK_STALLS < k) : ((countArith (sieveCrops o d).2).run b).get k = b.get k := countArith_get _ _ hk
  generalize (countArith (sieveCrops o d).2).run b = b1 at *
  obtain ⟨hbytes2, hlog2, hout2⟩ := counted_keeps b1 32 Obj.DEGENERATE_BOXES (d.boxes.filter degenerate).length
  have h2 (k : Nat) (hk : k ≠ Obj.DEGENERATE_BOXES) : (b1.counted 32 Obj.DEGENERATE_BOXES (d.boxes.filter degenerate).length).get k = b1.get k := run_count_get _ _ _ _ hk
  have hdegenerate : (b1.counted 32 Obj.DEGENERATE_BOXES (d.boxes.filter degenerate).length).get Obj.DEGENERATE_BOXES = s.get Obj.DEGENERATE_BOXES + (d.boxes.filter degenerate).length := by
    have hbase : b1.get Obj.DEGENERATE_BOXES = s.get Obj.DEGENERATE_BOXES := (h1 _ (by decide)).trans (hmap.get _ (by decide))
    rw [← hbase]
    exact run_count_get_self _ _ _ _ (by decide) (by rwa [hbase])
  generalize b1.counted 32 Obj.DEGENERATE_BOXES (d.boxes.filter degenerate).length = b2 at *
  obtain ⟨hbytes3, hlog3, hout3⟩ := counted_keeps b2 64 Obj.SIEVE_OPS 1
  have hcount : (b2.counted 64 Obj.SIEVE_OPS 1).get Obj.SIEVE_OPS = s.get Obj.SIEVE_OPS + 1 := by
    have hbase : b2.get Obj.SIEVE_OPS = s.get Obj.SIEVE_OPS := (h2 _ (by decide)).trans ((h1 _ (by decide)).trans (hmap.get _ (by decide)))
    rw [← hbase]
    exact run_count_get_self _ _ _ _ (by decide) (by rwa [hbase])
  have h3 : (b2.counted 64 Obj.SIEVE_OPS 1).get Obj.DEGENERATE_BOXES = b2.get Obj.DEGENERATE_BOXES := run_count_get _ _ _ _ (by decide)
  generalize b2.counted 64 Obj.SIEVE_OPS 1 = b3 at *
  exact ⟨_, hends, hcount, h3.trans hdegenerate, writeOut_outputs hseed (sieveCrops_ne_nil o d) hb (hbytes3.trans (hbytes2.trans hbytes1)) (hlog3.trans (hlog2.trans hlog1)) (hout3.trans (hout2.trans hout1))⟩

end

/-- Settles O40: slices of the Sieve count their time, end where they are told to, and leave the boxes or crops of the operation that completes. -/
theorem sievesRun : Obligations.SievesRun := by
  unfold Obligations.SievesRun
  intro s job ns x o hhead hop hdom hcurrent hns hbusy hops
  have hexec (last : Option SieveData) := exec_sieveSlice hhead hop hdom hcurrent hns last
  have hget (k : Nat) (hk : k ≠ Obj.SIEVE_BUSY_NS) : ((s.sending []).counted 64 Obj.SIEVE_BUSY_NS ns).get k = s.get k := run_count_get (s.sending []) _ _ _ hk
  have hcounted : ((s.sending []).counted 64 Obj.SIEVE_BUSY_NS ns).get Obj.SIEVE_BUSY_NS = s.get Obj.SIEVE_BUSY_NS + ns := run_count_get_self (s.sending []) _ _ _ (by decide) hbusy
  have hfaults (outs : List (Nat × List Byte)) : ((s.sending []).counted 64 Obj.SIEVE_BUSY_NS ns).outFault x.ctx outs = s.outFault x.ctx outs := outFault_counted (by decide) (by decide) outs
  have hsilent : ((s.sending []).counted 64 Obj.SIEVE_BUSY_NS ns).log = s.log ∧ ((s.sending []).counted 64 Obj.SIEVE_BUSY_NS ns).out = [] := ⟨run_count_log .., run_count_out ..⟩
  have hsame : (s.sending []).SameMap ((s.sending []).counted 64 Obj.SIEVE_BUSY_NS ns) := sameMap_counted _ (by decide) (by decide) (by decide)
  generalize (s.sending []).counted 64 Obj.SIEVE_BUSY_NS ns = b at *
  refine ⟨fun f last hstop => ?_, fun hstop => ?_, fun d hstop => ⟨fun hshort => ?_, fun hshort f hfault => ?_, fun hshort hfault hseed hcrop hcand hkept hcut => ?_, fun hfault hseed hcrop hboxes => ?_⟩,
    fun clamp d => sieveBoxes_counts o clamp d⟩
  · rw [hexec, hstop]
    rfl
  · rw [hexec, hstop]
    rfl
  · rw [hexec, hstop]
    exact congrArg (fun u => Host.Outcome.next (State.told u)) (sieveEnds_short hshort)
  · rw [hexec, hstop]
    exact congrArg (fun u => Host.Outcome.next (State.told u)) (sieveEnds_fault hshort ((hfaults _).trans hfault))
  · have hclamp : b.get Obj.DW_CLAMP = s.get Obj.DW_CLAMP := hget _ (by decide)
    rw [← hclamp] at hcand hkept hcut ⊢
    obtain ⟨t, hends, hopss, hns', hcands, hkepts, hcuts, hout⟩ := sieveEnds_decode_leaves (s := b) (job := job) (x := x) ((hget _ (by decide)).trans hseed) (by rwa [hget _ (by decide)])
      (by rwa [hget _ (by decide)]) (by rwa [hget _ (by decide)]) (by rwa [hget _ (by decide)]) hshort hcrop ((hfaults _).trans hfault)
    rw [hget _ (by decide)] at hopss hcands hkepts hcuts
    rw [hsilent.1, hsilent.2] at hout
    refine ⟨t, ?_, hopss, hns'.trans hcounted, hcands, hkepts, hcuts, hsame.outputs hout⟩
    rw [hexec, hstop]
    exact congrArg (fun u => Host.Outcome.next (State.told u)) hends
  · obtain ⟨t, hends, hopss, hdegenerate, hout⟩ := sieveEnds_crops_leaves (s := b) (job := job) (x := x) (o := o) ((hget _ (by decide)).trans hseed) (by rwa [hget _ (by decide)])
      (by rwa [hget _ (by decide)]) hcrop ((hfaults _).trans hfault)
    rw [hget _ (by decide)] at hopss hdegenerate
    rw [hsilent.1, hsilent.2] at hout
    refine ⟨t, ?_, hopss, hdegenerate, hsame.outputs hout⟩
    rw [hexec, hstop]
    exact congrArg (fun u => Host.Outcome.next (State.told u)) hends

end Sys2Proof.Machine
end

section
/-! PROOFS. Queries and runs of the planner (R356 to R364). -/

namespace Sys2Proof.Machine

/-! ## End-to-end checks of a run's record (R408) -/

/-- What the lives of jobs and runs write lies apart from the planner's counters and from the count of end-to-end checks. -/
theorem lifeKey_apartFromRuns {k : Nat} (h : LifeKey k) : k ≠ Obj.RUNS_DONE ∧ k ≠ Obj.RUNS_NO_PATH ∧ k ≠ Obj.E2E_CHECKED := by
  simp only [Obj.RUNS_DONE, Obj.RUNS_NO_PATH, Obj.E2E_CHECKED]
  cases h with
  | power h =>
    cases h <;> simp only [Obj.BUDGET_STEP_DOWNS, Obj.DOM_RAIL_MV, Obj.RAIL_MV, Obj.DOM_PACER, Obj.PACER_STEP, Obj.DOM_TARGET_MV, Obj.DOM_STEPS, Obj.BUSY_NS, Obj.ENGINE_NS,
      Obj.DEGRADED_NS] <;> omega
  | _ =>
    simp only [Obj.INHERITANCES, Obj.CTX_INHERITED, Obj.JOBS_DONE, Obj.JOBS_ENDED, Obj.CTX_WAIT_NS, Obj.JOBS_FAULT_ENDED, Obj.JOBS_RETRIED, Obj.CHUNKS_DONE, Obj.FIRINGS_DONE,
      Obj.ARG_LEN_CHECK, Obj.COMPLETION, Obj.F_COMPLETION, Obj.STATE, Obj.DOM_STATE, Obj.DOM_WAKES]
    omega

/-- The counters of a run's end. -/
abbrev Obj.ofRunEnds (k : Nat) : Prop := k = Obj.RUNS_DONE ∨ k = Obj.RUNS_NO_PATH ∨ k = Obj.E2E_CHECKED

theorem ofRunEnds_apart {k : Nat} (h : Obj.ofRunEnds k) : Obj.apartFromCauses k := by
  rcases h with rfl | rfl | rfl
  · exact ⟨by decide, fun h => (lifeKey_apartFromRuns h).1 rfl, by decide⟩
  · exact ⟨by decide, fun h => (lifeKey_apartFromRuns h).2.1 rfl, by decide⟩
  · exact ⟨by decide, fun h => (lifeKey_apartFromRuns h).2.2 rfl, by decide⟩

/-- A cause that begins changes no byte. -/
theorem raised_bytes (s : State) (b i : Nat) : (s.raised b i).bytes = s.bytes := by
  by_cases hact : s.causeActive b i = true
  · rw [State.raised, raiseCause, run_read, if_pos hact]
    rfl
  · have hdev : (setDev Dev.HOLD).Within (· ≠ Part.bytes) fun _ => True := setDev_within _ (fun _ => nofun) (fun _ => trivial) fun _ => trivial
    have htable : holdTimetable.Within (· ≠ Part.bytes) fun _ => True := holdTimetable_within (lifeWithin_spares (p := .bytes) (fun _ _ => nofun) nofun nofun fun _ => False) fun _ => id
    have hreacts : (raiseReacts b (s.reaction b i)).Spares .bytes := by
      simp only [Act.Spares, raiseReacts, enterHold, within_all_cons, within_all_nil, within_when, within_read, within_ite, hdev, htable, noteSinceHold_within (A := (· ≠ Part.bytes)) (R := fun _ => True) b fun _ => trivial,
        driveLine_within (R := fun _ => True) (A := (· ≠ Part.bytes)) nofun nofun nofun fun _ => trivial, deEnergise_within (R := fun _ => True) (A := (· ≠ Part.bytes)) nofun nofun trivial,
        within_skip, implies_true, and_self]
    rw [raised_of_new (Bool.eq_false_iff.2 hact), Act.Spares.bytes _ hreacts]
    exact Act.Spares.bytes s (raiseMarks_within b i _ nofun nofun nofun nofun nofun nofun (fun _ => trivial) (fun _ => trivial) trivial)

/-- A record that fails its check is counted and logged; no byte changes and no counter of a run's end. -/
theorem e2eFailed_leaves {s t : State} (source counter why : Nat) (ht : (e2eFailed source counter why).run s = t) : t.bytes = s.bytes ∧ ∀ k, Obj.ofRunEnds k → t.get k = s.get k := by
  rw [e2eFailed, run_read, run_all_cons, run_all_cons, run_all_cons, run_all_cons, run_all_nil] at ht
  generalize ha : (Act.count 32 Obj.E2E_FAILED 1).run s = a at ht
  generalize hb : (logEv Ev.E2E_FAIL source counter why).run a = b at ht
  generalize hc : (Act.safe _).run b = c at ht
  have hbytes : c.bytes = s.bytes := by
    rw [← hc]
    show b.bytes = _
    rw [← hb, run_logEv_bytes, ← ha, run_count_bytes]
  have hget (k : Nat) (hk : Obj.ofRunEnds k) : c.get k = s.get k := by
    rw [← hc]
    show b.get k = _
    rw [← hb, run_logEv_get, ← ha]
    exact run_count_get _ _ _ _ (by rcases hk with rfl | rfl | rfl <;> decide)
  rw [run_when] at ht
  split at ht
  · rw [run_all_cons, run_all_cons, run_all_cons, run_all_nil] at ht
    generalize hd : (Act.safe _).run c = d at ht
    have hdbytes : d.bytes = s.bytes := by rw [← hd]; exact hbytes
    have hdget (k : Nat) (hk : Obj.ofRunEnds k) : d.get k = s.get k := by rw [← hd]; exact hget k hk
    generalize he : Act.run _ d = e at ht
    have hebytes : e.bytes = d.bytes := by rw [← he, run_when]; split <;> rfl
    have heget (k : Nat) (hk : Obj.ofRunEnds k) : e.get k = d.get k := by
      rw [← he, run_when]
      split
      · rw [run_put_get, if_neg (by rcases hk with rfl | rfl | rfl <;> decide)]
      · rfl
    subst ht
    exact ⟨(raised_bytes e 5 source).trans (hebytes.trans hdbytes), fun k hk => (raised_get_other (ofRunEnds_apart hk) e 5 source).trans ((heget k hk).trans (hdget k hk))⟩
  · subst ht
    exact ⟨hbytes, hget⟩

/-! ## The end of a run -/

/-- What the end of a run leaves before its job ends: one more end-to-end check, one more run done or without a path, and its record in its output tiles unless it was found wrong. -/
theorem endPlan_leaves {s : State} {job : Nat} {x : Job} {p : PlanRun} {r : PlanRunS} {reason checked : Nat} {best : Option (Nat × List (List Nat) × Nat)} {outs : List (Nat × List Byte)}
    {bad : Bool} (hfault : s.outFault x.ctx outs = none) (hseed : s.get Obj.SEED_STOCK_EN = 0) (hchecked : s.get Obj.E2E_CHECKED + 1 < 2 ^ 64) (hnone : s.get Obj.RUNS_NO_PATH + 1 < 2 ^ 32)
    (hdone : s.get Obj.RUNS_DONE + 1 < 2 ^ 64) :
    ∃ t : State, (endPlan job x p r reason checked best outs bad).run s = (if reason = 0 then t.ended job St.DONE 0 else t.ended job St.NO_PATH (0x0A20 + reason))
      ∧ t.get Obj.E2E_CHECKED = s.get Obj.E2E_CHECKED + 1 ∧ (reason = 0 → t.get Obj.RUNS_DONE = s.get Obj.RUNS_DONE + 1)
      ∧ (reason ≠ 0 → t.get Obj.RUNS_NO_PATH = s.get Obj.RUNS_NO_PATH + 1) ∧ s.onlyTiles t x.ctx outs ∧ (bad = true → t.bytes = s.bytes)
      ∧ (bad = false → s.plainOuts x.ctx outs → t.log = s.log ∧ t.out = s.out) := by
  rw [endPlan, run_read]
  simp only
  rw [hfault]
  simp only
  generalize State.pathRecord s p r _ _ _ _ _ _ = rec
  rw [run_all_cons, run_all_cons, run_all_cons, run_all_cons, run_all_cons, run_all_cons, run_all_cons, run_all_nil]
  -- the check is counted
  have hsame : s.SameMap (s.counted 64 Obj.E2E_CHECKED 1) := sameMap_counted s (by decide) (by decide) (by decide)
  have hacheck : (s.counted 64 Obj.E2E_CHECKED 1).get Obj.E2E_CHECKED = s.get Obj.E2E_CHECKED + 1 := run_count_get_self _ _ _ _ (by decide) hchecked
  have haget (k : Nat) (hk : k ≠ Obj.E2E_CHECKED) : (s.counted 64 Obj.E2E_CHECKED 1).get k = s.get k := run_count_get _ _ _ _ hk
  obtain ⟨habytes, halog, haout⟩ := counted_keeps s 64 Obj.E2E_CHECKED 1
  have hacts : e2eChecked.run s = s.counted 64 Obj.E2E_CHECKED 1 := rfl
  rw [hacts]
  generalize s.counted 64 Obj.E2E_CHECKED 1 = a at *
  -- the record is written, or its failure noted
  generalize hb : Act.run _ a = b
  have hbget (k : Nat) (hk : Obj.ofRunEnds k) : b.get k = a.get k := by
    cases bad with
    | true => exact (e2eFailed_leaves _ _ _ hb).2 k hk
    | false => exact (writeOut_leaves _ _ ((haget _ (by decide)).trans hseed) hb).1.get k (by rcases hk with rfl | rfl | rfl <;> decide)
  have hbonly : a.onlyTiles b x.ctx outs := by
    cases bad with
    | true => exact fun _ _ => by rw [(e2eFailed_leaves _ _ _ hb).1]
    | false => exact (writeOut_leaves _ _ ((haget _ (by decide)).trans hseed) hb).2.1
  have hbbytes (h : bad = true) : b.bytes = a.bytes := by
    subst h
    exact (e2eFailed_leaves _ _ _ hb).1
  have hbsilent (h : bad = false) (hplain : a.plainOuts x.ctx outs) : b.log = a.log ∧ b.out = a.out := by
    subst h
    exact (writeOut_leaves _ _ ((haget _ (by decide)).trans hseed) hb).2.2 fun o ho n hn => (hplain o ho n hn).slotTile
  clear hb
  -- the run is counted
  generalize hc : (Act.plan _).run _ = c
  have hcget (k : Nat) : c.get k = b.get k := by rw [← hc]; rfl
  have hckeeps : c.bytes = b.bytes ∧ c.log = b.log ∧ c.out = b.out := by rw [← hc]; exact ⟨rfl, rfl, rfl⟩
  clear hc
  generalize hd : Act.run (if reason = 0 then _ else _) c = d
  have hdkeeps : d.bytes = c.bytes ∧ d.log = c.log ∧ d.out = c.out := by
    rw [← hd]
    split <;> exact counted_keeps ..
  have hdcheck : d.get Obj.E2E_CHECKED = s.get Obj.E2E_CHECKED + 1 := by
    rw [← hacheck, ← hbget _ (.inr (.inr rfl)), ← hcget, ← hd]
    split <;> exact run_count_get _ _ _ _ (by decide)
  have hddone (h : reason = 0) : d.get Obj.RUNS_DONE = s.get Obj.RUNS_DONE + 1 := by
    have hbase : c.get Obj.RUNS_DONE = s.get Obj.RUNS_DONE := (hcget _).trans ((hbget _ (.inl rfl)).trans (haget _ (by decide)))
    rw [← hd, if_pos h, ← hbase]
    exact run_count_get_self _ _ _ _ (by decide) (by rwa [hbase])
  have hdnone (h : reason ≠ 0) : d.get Obj.RUNS_NO_PATH = s.get Obj.RUNS_NO_PATH + 1 := by
    have hbase : c.get Obj.RUNS_NO_PATH = s.get Obj.RUNS_NO_PATH := (hcget _).trans ((hbget _ (.inr (.inl rfl))).trans (haget _ (by decide)))
    rw [← hd, if_neg h, ← hbase]
    exact run_count_get_self _ _ _ _ (by decide) (by rwa [hbase])
  clear hd
  refine ⟨d.withJob job fun y => { y with output := true }, ?_, hdcheck, hddone, hdnone, ?_, fun h => ?_, fun h hplain => ?_⟩
  · split <;> rfl
  · have hmoved : a.onlyTiles (d.withJob job fun y => { y with output := true }) x.ctx outs := fun n hn => by
      show Memory.read d.bytes n = _
      rw [hdkeeps.1, hckeeps.1]
      exact hbonly n hn
    exact (hsame.onlyTiles_iff ..).1 hmoved
  · exact hdkeeps.1.trans (hckeeps.1.trans ((hbbytes h).trans habytes))
  · obtain ⟨hlog, hout⟩ := hbsilent h ((hsame.plainOuts_iff ..).2 hplain)
    exact ⟨hdkeeps.2.1.trans (hckeeps.2.1.trans (hlog.trans halog)), hdkeeps.2.2.trans (hckeeps.2.2.trans (hout.trans haout))⟩

/-! ## What the planner sees of the map -/

/-- `t` shows the planner what `s` does: it differs from it in one count at most. -/
structure State.SamePlan (s t : State) : Prop where
  u : t.u = s.u
  bytes : t.bytes = s.bytes
  get : ∀ k, k ≠ Obj.BRICK_MISSES → t.get k = s.get k

section
variable {s t : State} (h : s.SamePlan t)
include h

theorem State.SamePlan.voxelOf : t.voxelOf = s.voxelOf := by
  funext c
  simp only [State.voxelOf, State.voxelNo, h.get Obj.ORIGIN_X (by decide), h.get Obj.ORIGIN_Y (by decide), h.get Obj.ORIGIN_Z (by decide), h.get Obj.VOXEL_MM (by decide)]
theorem State.SamePlan.poseBricks : t.poseBricks = s.poseBricks := by
  have hbrick : t.brickAt = s.brickAt := by
    funext x y z
    rw [State.brickAt, State.brickAt, h.get Obj.BRICKS_X (by decide), h.get Obj.BRICKS_Y (by decide), h.get Obj.BRICKS_Z (by decide)]
  funext p
  rw [State.poseBricks, State.poseBricks, h.voxelOf, hbrick]

theorem State.SamePlan.voxel : t.voxel = s.voxel := by
  have hhome (g : Home) : t.homeAddr g = s.homeAddr g := homeAddr_congr (h.get _ (by decide)) g
  funext e x y z
  simp only [State.voxel, State.mread, hhome, h.u, h.bytes, h.get Obj.BRICKS_X (by decide), h.get Obj.BRICKS_Y (by decide), h.get Obj.BRICKS_Z (by decide)]
  rfl

theorem State.SamePlan.poseClear : t.poseClear = s.poseClear := by
  have hbound : t.bound0 = s.bound0 := by
    funext k
    rw [State.bound0, State.bound0, h.get Obj.VOXEL_MM (by decide)]
  have hlower : t.lowerBound = s.lowerBound := by
    funext e c
    rw [State.lowerBound, State.lowerBound, h.voxelOf, h.voxel, hbound, h.get Obj.UNKNOWN_FREE (by decide)]
  have hmargin : t.margin10 = s.margin10 := by
    funext e m delta i c
    rw [State.margin10, State.margin10, hlower, h.get Obj.CLEARANCE_MARGIN_MM (by decide)]
  funext e m p
  rw [State.poseClear, State.poseClear, State.poseMargin, State.poseMargin, hmargin]

theorem State.SamePlan.mapLoss : t.mapLoss = s.mapLoss := by
  have hloss : t.lossOf = s.lossOf := by
    funext n
    rw [State.lossOf, State.lossOf, h.u]
  funext e bricks
  rw [State.mapLoss, State.mapLoss, hloss]

end

/-- The search is the same wherever what it depends on is (R360). -/
theorem searched_congr {s t : State} {p : PlanRun} {r q : PlanRunS} {e : Epoch} (hkey : s.searchKey p r = t.searchKey p q) (hmodel : r.model = q.model)
    (hclear : ∀ ps, s.poseClear e r.model ps = t.poseClear e q.model ps) (hlimit : s.get (Obj.ROADMAP_LIMIT p.model) = t.get (Obj.ROADMAP_LIMIT p.model))
    (hroad : Tab.at s.u.plan.roads p.model [] = Tab.at t.u.plan.roads p.model []) (hstep : s.get Obj.CHECK_STEP_MM = t.get Obj.CHECK_STEP_MM) : s.searched e p r = t.searched e p q := by
  have hcand : s.isCand e r.model p = t.isCand e q.model p := by
    funext way
    rw [State.isCand, State.isCand, hmodel, hstep, ← hmodel, funext hclear, hmodel]
  rw [State.searched, State.searched, hkey, hroad, hlimit, hcand]

theorem State.SamePlan.searched {s t : State} (h : s.SamePlan t) (e : Epoch) (p : PlanRun) (r : PlanRunS) : t.searched e p r = s.searched e p r := by
  have hstep := h.get Obj.CHECK_STEP_MM (by decide)
  refine searched_congr ?_ rfl (fun ps => by rw [h.poseClear]) (h.get _ (by unfold Obj.ROADMAP_LIMIT Obj.BRICK_MISSES; omega)) (by rw [h.u]) hstep
  rw [State.searchKey, State.searchKey, hstep, h.get Obj.CLEARANCE_MARGIN_MM (by decide), h.u]

theorem State.SamePlan.validate {s t : State} (h : s.SamePlan t) (r : PlanRunS) (same : Bool) (e : Epoch) (cs : List (List (List Nat) × Nat)) :
    ∀ i, t.validate r same e i cs = s.validate r same e i cs := by
  have htouches : t.touches r.dirty = s.touches r.dirty := by
    funext p
    rw [State.touches, State.touches, h.poseBricks]
  induction cs with
  | nil => intro i; rfl
  | cons c cs ih =>
    intro i
    rw [State.validate, State.validate, h.get Obj.CHECK_STEP_MM (by decide), htouches, h.poseClear]
    simp only [ih]

/-- A count of the bricks missed leaves what the planner sees. -/
theorem samePlan_missed {s : State} {n : Nat} : s.SamePlan ((s.sending []).counted 64 Obj.BRICK_MISSES n) :=
  ⟨run_count_u (s.sending []) .., run_count_bytes (s.sending []) .., fun _ hk => run_count_get (s.sending []) _ _ _ hk⟩

/-! ## The operation whose turn it is -/

section
variable {s : State} {job : Nat} {x : Job} (hhead : s.planOrder.head? = some (job, x)) (hdom : s.get (Obj.DOM_STATE 75) = 2) (hcurrent : s.u.pow.overcurrent = false)
include hhead hdom hcurrent

/-- An operation that is to stop ends; the others go on. -/
theorem served_run (go : Job → Act) : (served job go).run s.begun = (match x.stop with
    | some f => endJob job f.1 f.2 0 0
    | none => go x).run (s.sending []) := by
  obtain ⟨rest, hrest⟩ : ∃ rest, s.planOrder = (job, x) :: rest := by
    cases h : s.planOrder with
    | nil => rw [h] at hhead; cases hhead
    | cons e es =>
      rw [h] at hhead
      obtain rfl := Option.some.inj hhead
      exact ⟨es, rfl⟩
  have hrest' : s.begun.planOrder = (job, x) :: rest := hrest
  have hgo : ¬ (job ≠ job ∨ s.begun.get (Obj.DOM_STATE 75) ≠ 2 ∨ s.begun.u.pow.overcurrent = true) := by
    rintro (h | h | h)
    · exact h rfl
    · exact h hdom
    · exact Bool.false_ne_true (hcurrent.symm.trans h)
  rw [served, run_read, hrest']
  simp only
  rw [if_neg hgo]
  rfl

theorem served_told (go : Job → Act) (hstop : x.stop = none) : settle.run ((served job go).run s.begun) = ((go x).run (s.sending [])).told := by
  rw [served_run hhead hdom hcurrent, hstop]
  rfl

theorem exec_sphereQuery (hstop : x.stop = none) {dcl : Option Nat} (hop : x.decl.op = some (.spheres dcl)) {spheres : List (Nat × Nat × Nat × Nat)} (hlen : spheres.length ≤ 65536)
    (outs : List (Nat × List Byte)) : exec (.sphereQuery job spheres outs) s = .next (((answerQuery job x dcl outs (.all [.count 64 Obj.QUERY_SPHERES spheres.length, .draw 2048])
      (fun s => spheres.flatMap s.sphereBricks) (fun s e => spheres.flatMap (s.sphereBytes e))).run (s.sending [])).told) := by
  refine (need_next s rfl _).trans (congrArg Host.Outcome.next ?_)
  rw [run_all_cons, run_all_cons, run_all_nil, served_told hhead hdom hcurrent _ hstop, hop]
  simp only
  rw [if_neg (not_lt.2 hlen)]

theorem exec_segmentQuery (hstop : x.stop = none) {n : Nat} {dcl : Option Nat} (hop : x.decl.op = some (.segments n dcl)) {pairs : List (List Nat × List Nat)} (hlen : pairs.length ≤ 1024)
    (outs : List (Nat × List Byte)) : exec (.segmentQuery job pairs outs) s = .next (((answerQuery job x dcl outs (.draw 2048)
      (fun u => (pairs.map fun q => segmentPoses (s.model n) (s.get Obj.CHECK_STEP_MM) q.1 q.2).flatten.flatMap u.poseBricks)
      (fun u e => (pairs.map fun q => segmentPoses (s.model n) (s.get Obj.CHECK_STEP_MM) q.1 q.2).flatMap (u.segmentBytes e (u.model n)))).run (s.sending [])).told) := by
  refine (need_next s rfl _).trans (congrArg Host.Outcome.next ?_)
  rw [run_all_cons, run_all_cons, run_all_nil, served_told hhead hdom hcurrent _ hstop, hop]
  simp only
  rw [run_read, if_neg (not_lt.2 hlen)]
  rfl

theorem exec_plannerSlice (hstop : x.stop = none) {p : PlanRun} (hop : x.decl.op = some (.run p)) {r : PlanRunS} (hrun : Tab.get? s.u.plan.runs job = some r) (misses : Nat) (step : PlanStep) :
    exec (.plannerSlice job misses step) s = .next (((planStep job x p r step).run ((s.sending []).counted 64 Obj.BRICK_MISSES misses)).told) := by
  have hrun' : Tab.get? (s.sending []).u.plan.runs job = some r := hrun
  refine (need_next s rfl _).trans (congrArg Host.Outcome.next ?_)
  rw [run_all_cons, run_all_cons, run_all_nil, served_told hhead hdom hcurrent _ hstop, run_read, hop, hrun']
  simp only
  rw [run_all_cons, run_all_cons, run_all_nil]
  rfl

end

/-! ## Queries -/

section
variable {s : State} {job : Nat} {x : Job} {dcl : Option Nat} {outs : List (Nat × List Byte)} {count : Act} {bricks : State → List Nat} {body : State → Epoch → List Byte}

theorem answerQuery_gone (h : s.queryEpoch dcl = none) : (answerQuery job x dcl outs count bricks body).run s = s.ended job St.MAP_CHANGED 0x0A10 := by
  rw [answerQuery, run_read, h]
  rfl

/-- A query that is answered: its output, its count, and the end of its job. -/
theorem answerQuery_run {n : Nat} {e : Epoch} (h : s.queryEpoch dcl = some (n, e)) (hfault : s.outFault x.ctx outs = none) (hloss : s.mapLoss e (bricks s) = none) :
    (answerQuery job x dcl outs count bricks body).run s
      = ((count.run ((writeOut x.ctx outs (queryHead n e ++ body s e)).run s)).withJob job fun y => { y with output := true }).ended job St.DONE 0 := by
  rw [answerQuery, run_read, h]
  simp only
  rw [hfault, hloss]
  simp only
  rw [run_all_cons, run_all_cons, run_all_cons, run_all_cons, run_all_nil]
  rfl

theorem answer_ne_nil (n : Nat) (e : Epoch) (bs : List Byte) : queryHead n e ++ bs ≠ [] :=
  fun h => List.cons_ne_nil _ _ (List.append_eq_nil_iff.1 (List.append_eq_nil_iff.1 (List.append_eq_nil_iff.1 h).1).1).1

/-- What a query that is answered leaves, where its count touches neither memory, nor the log, nor what is sent. -/
theorem answerQuery_leaves {n : Nat} {e : Epoch} (h : s.queryEpoch dcl = some (n, e)) (hfault : s.outFault x.ctx outs = none) (hloss : s.mapLoss e (bricks s) = none)
    (hseed : s.get Obj.SEED_STOCK_EN = 0) (hcount : ∀ t, (count.run t).bytes = t.bytes ∧ (count.run t).log = t.log ∧ (count.run t).out = t.out) :
    ∃ t : State, (answerQuery job x dcl outs count bricks body).run s = t.ended job St.DONE 0 ∧ (∃ w, s.MapKept w ∧ ∀ k, t.get k = (count.run w).get k)
      ∧ s.onlyTiles t x.ctx outs ∧ s.wrote t x.ctx outs (queryHead n e ++ body s e) ∧ (s.plainOuts x.ctx outs → t.log = s.log ∧ t.out = s.out) := by
  have hrun := answerQuery_run (job := job) (count := count) (body := body) h hfault hloss
  generalize hw : (writeOut x.ctx outs (queryHead n e ++ body s e)).run s = w at hrun
  obtain ⟨hbytes, hlog, hout⟩ := hcount w
  exact ⟨_, hrun, ⟨w, (writeOut_leaves _ _ hseed hw).1, fun _ => rfl⟩, writeOut_outputs hseed (answer_ne_nil _ _ _) hw hbytes hlog hout⟩

end

/-! ## Planning runs -/

/-- In `u` a run of `s` can end as in `s`: its outputs, its counters, the log and what is sent are as they were. -/
structure State.RunKept (s u : State) : Prop where
  map : s.SameMap u
  fault : ∀ c outs, u.outFault c outs = s.outFault c outs
  get : ∀ k, Obj.ofRunEnds k ∨ k = Obj.SEED_STOCK_EN → u.get k = s.get k
  log : u.log = s.log
  out : u.out = s.out

theorem State.RunKept.trans {s t u : State} (h : s.RunKept t) (g : t.RunKept u) : s.RunKept u :=
  ⟨h.map.trans g.map, fun c outs => (g.fault c outs).trans (h.fault c outs), fun k hk => (g.get k hk).trans (h.get k hk), g.log.trans h.log, g.out.trans h.out⟩

/-- A count of another object. -/
theorem runKept_counted (s : State) {w k n : Nat} (hk : k = Obj.BRICK_MISSES ∨ k = Obj.CANDIDATES_REJECTED ∨ k = Obj.POSES_RECHECKED) : s.RunKept (s.counted w k n) := by
  have hkeeps := counted_keeps s w k n
  refine ⟨sameMap_counted s ?_ ?_ ?_, fun c outs => outFault_counted ?_ ?_ outs, fun j hj => run_count_get _ _ _ _ ?_, hkeeps.2.1, hkeeps.2.2⟩
  · rcases hk with rfl | rfl | rfl <;> decide
  · rcases hk with rfl | rfl | rfl <;> decide
  · rcases hk with rfl | rfl | rfl <;> decide
  · rcases hk with rfl | rfl | rfl <;> decide
  · rcases hk with rfl | rfl | rfl <;> decide
  · rcases hj with (rfl | rfl | rfl) | rfl <;> rcases hk with rfl | rfl | rfl <;> decide

/-- A change of the runs. -/
theorem runKept_runs (s : State) (f : PlanS → Tab PlanRunS) : s.RunKept ((Act.plan fun y => { y with runs := f y }).run s) :=
  ⟨⟨rfl, rfl, rfl, rfl, rfl⟩, fun _ _ => rfl, fun _ _ => rfl, rfl, rfl⟩

section
variable {s u : State} {job : Nat} {x : Job} {p : PlanRun} {r : PlanRunS} {checked : Nat} {best : Option (Nat × List (List Nat) × Nat)} {outs : List (Nat × List Byte)} {bad : Bool}
  (hkept : s.RunKept u) (hfault : s.outFault x.ctx outs = none) (hseed : s.get Obj.SEED_STOCK_EN = 0) (hchecked : s.get Obj.E2E_CHECKED + 1 < 2 ^ 64)
  (hnone : s.get Obj.RUNS_NO_PATH + 1 < 2 ^ 32) (hdone : s.get Obj.RUNS_DONE + 1 < 2 ^ 64)
include hkept hfault hseed hchecked hnone hdone

/-- A run that ends without a path. -/
theorem endPlan_noPath {reason : Nat} (hreason : reason ≠ 0) : ∃ t : State, (endPlan job x p r reason checked best outs bad).run u = t.ended job St.NO_PATH (0x0A20 + reason)
    ∧ t.get Obj.RUNS_NO_PATH = s.get Obj.RUNS_NO_PATH + 1 ∧ t.get Obj.E2E_CHECKED = s.get Obj.E2E_CHECKED + 1
    ∧ s.onlyTiles t x.ctx outs ∧ (bad = true → t.bytes = s.bytes) ∧ (bad = false → s.plainOuts x.ctx outs → t.log = s.log ∧ t.out = s.out) := by
  obtain ⟨t, hrun, hcheck, -, hpath, honly, hbytes, hsilent⟩ := endPlan_leaves (job := job) (p := p) (r := r) (reason := reason) (checked := checked) (best := best) (bad := bad)
    ((hkept.fault _ _).trans hfault) ((hkept.get _ (.inr rfl)).trans hseed) (by rwa [hkept.get _ (.inl (.inr (.inr rfl)))]) (by rwa [hkept.get _ (.inl (.inr (.inl rfl)))])
    (by rwa [hkept.get _ (.inl (.inl rfl))])
  rw [if_neg hreason] at hrun
  rw [hkept.get _ (.inl (.inr (.inr rfl)))] at hcheck
  rw [hkept.get _ (.inl (.inr (.inl rfl)))] at hpath
  exact ⟨t, hrun, hpath hreason, hcheck, (hkept.map.onlyTiles_iff ..).1 honly, fun h => (hbytes h).trans hkept.map.bytes, fun h hplain => by
    rw [← hkept.log, ← hkept.out]
    exact hsilent h ((hkept.map.plainOuts_iff ..).2 hplain)⟩

/-- A run that ends with a path. -/
theorem endPlan_done : ∃ t : State, (endPlan job x p r 0 checked best outs bad).run u = t.ended job St.DONE 0
    ∧ t.get Obj.RUNS_DONE = s.get Obj.RUNS_DONE + 1 ∧ t.get Obj.E2E_CHECKED = s.get Obj.E2E_CHECKED + 1 ∧ s.onlyTiles t x.ctx outs := by
  obtain ⟨t, hrun, hcheck, hpath, -, honly, -, -⟩ := endPlan_leaves (job := job) (p := p) (r := r) (reason := 0) (checked := checked) (best := best) (bad := bad)
    ((hkept.fault _ _).trans hfault) ((hkept.get _ (.inr rfl)).trans hseed) (by rwa [hkept.get _ (.inl (.inr (.inr rfl)))]) (by rwa [hkept.get _ (.inl (.inr (.inl rfl)))])
    (by rwa [hkept.get _ (.inl (.inl rfl))])
  rw [if_pos rfl] at hrun
  rw [hkept.get _ (.inl (.inr (.inr rfl)))] at hcheck
  rw [hkept.get _ (.inl (.inl rfl))] at hpath
  exact ⟨t, hrun, hpath rfl, hcheck, (hkept.map.onlyTiles_iff ..).1 honly⟩

end

section
variable {s b : State} {job : Nat} {x : Job} {p : PlanRun} {r : PlanRunS} {outs : List (Nat × List Byte)} {bad : Bool} (h : s.SamePlan b)
include h

/-- The first slice of a run whose map is whole. -/
theorem planStep_begin (hbegun : r.begun = false) (hloss : s.mapLoss (Tab.at s.u.plan.epochs r.epoch {}) ((p.start :: p.goals.map (·.1)).flatMap
      fun q => s.poseBricks (poseOf r.model .zero (q.map fp))) = none) :
    (planStep job x p r (.begin outs bad)).run b = (if ¬ s.poseClear (Tab.at s.u.plan.epochs r.epoch {}) r.model (poseOf r.model .zero (p.start.map fp)) then endPlan job x p r 3 0 none outs bad
      else if ¬ p.goals.any (fun g => s.poseClear (Tab.at s.u.plan.epochs r.epoch {}) r.model (poseOf r.model .zero (g.1.map fp))) then endPlan job x p r 4 0 none outs bad
      else .plan fun y => { y with runs := Tab.upd y.runs job r fun z => { z with begun := true } }).run b := by
  rw [planStep, run_read, hbegun, h.u, h.mapLoss, h.poseBricks, h.poseClear]
  simp only
  rw [if_neg Bool.false_ne_true, hloss]

/-- What the end of its search leaves of a run, and of the road map of its model. -/
def PlanS.searchedBy (y : PlanS) (job : Nat) (p : PlanRun) (r : PlanRunS) (f : List (List (List Nat)) × Nat × Nat × List (List Nat) × Bool) : PlanS :=
  { y with
    runs := Tab.upd y.runs job r (fun z => { z with
      cands := some (rank r.model (f.1.filter fun c => decide (c.length ≤ p.waypoints))), dropped := decide ((f.1.filter fun c => decide (c.length ≤ p.waypoints)).length < f.1.length), full := f.2.2.2.2
      samples := f.2.1, nodes := f.2.2.1 })
    roads := if p.method = 1 then Tab.set y.roads p.model f.2.2.2.1 else y.roads }

theorem planStep_search (hbegun : r.begun = true) (hcands : r.cands = none) (hloss : s.mapLoss (Tab.at s.u.plan.epochs r.epoch {})
      ((s.searched (Tab.at s.u.plan.epochs r.epoch {}) p r).1.flatMap fun w => (pathPoses r.model (s.get Obj.CHECK_STEP_MM) w).flatMap s.poseBricks) = none) :
    (planStep job x p r .search).run b = (Act.when (p.method == 1) (.put (Obj.ROADMAP_NODES p.model) (s.searched (Tab.at s.u.plan.epochs r.epoch {}) p r).2.2.2.1.length)).run
      (b.withUnits fun u => { u with plan := u.plan.searchedBy job p r (s.searched (Tab.at s.u.plan.epochs r.epoch {}) p r) }) := by
  rw [planStep, run_read, hbegun, hcands, h.u, h.mapLoss, h.poseBricks, h.get Obj.CHECK_STEP_MM (by decide)]
  simp only [h.searched]
  rw [if_neg (by simp), hloss]
  simp only
  rw [run_all_cons, run_all_cons, run_all_nil]
  rfl

/-- The validation of a run with candidates, where the newest map is whole. -/
theorem planStep_validate {s₀ : State} (hkept : s₀.RunKept b) {cs : List (List (List Nat) × Nat)} (hcands : r.cands = some cs) (hne : cs ≠ [])
    (hloss : (s.get Obj.EPOCH_NEWEST == r.epoch) = false → s.mapLoss s.newest ((cs.take ((s.validate r (s.get Obj.EPOCH_NEWEST == r.epoch) s.newest 0 cs).1 + 1)).flatMap fun c =>
      ((pathPoses r.model (s.get Obj.CHECK_STEP_MM) c.1).filter (s.touches r.dirty)).flatMap s.poseBricks) = none) :
    ∃ u, s₀.RunKept u ∧ (planStep job x p r (.validate outs bad)).run b = (endPlan job x p r
      (if (s.validate r (s.get Obj.EPOCH_NEWEST == r.epoch) s.newest 0 cs).2.2.isSome then 0 else 2) (s.get Obj.EPOCH_NEWEST)
      (s.validate r (s.get Obj.EPOCH_NEWEST == r.epoch) s.newest 0 cs).2.2 outs bad).run u := by
  have hno : b.get Obj.EPOCH_NEWEST = s.get Obj.EPOCH_NEWEST := h.get _ (by decide)
  have hnewest : b.newest = s.newest := by rw [State.newest, State.newest, hno, h.u]
  have htouches : b.touches r.dirty = s.touches r.dirty := by
    funext q
    rw [State.touches, State.touches, h.poseBricks]
  obtain ⟨c, rest, rfl⟩ := List.exists_cons_of_ne_nil hne
  have hloss' : (if (s.get Obj.EPOCH_NEWEST == r.epoch) = true then none else s.mapLoss s.newest (((c :: rest).take ((s.validate r (s.get Obj.EPOCH_NEWEST == r.epoch) s.newest 0 (c :: rest)).1 + 1)).flatMap
      fun c => ((pathPoses r.model (s.get Obj.CHECK_STEP_MM) c.1).filter (s.touches r.dirty)).flatMap s.poseBricks)) = none := by
    split
    · rfl
    · next hsame => exact hloss (Bool.eq_false_iff.2 hsame)
  rw [planStep, run_read, hcands]
  simp only [hno, hnewest, htouches, h.mapLoss, h.poseBricks, h.validate, h.get Obj.CHECK_STEP_MM (by decide)]
  rw [hloss']
  simp only
  rw [run_all_cons, run_all_cons, run_all_cons, run_all_cons, run_all_nil]
  exact ⟨_, ((hkept.trans (runKept_runs b _)).trans (runKept_counted _ (.inr (.inl rfl)))).trans (runKept_counted _ (.inr (.inr rfl))), rfl⟩

end

theorem length_filter_lt_iff {α : Type} (p : α → Bool) (xs : List α) : (xs.filter p).length < xs.length ↔ ∃ x ∈ xs, p x = false := by
  rw [List.length_filter_lt_length_iff_exists]
  simp

theorem planStep_noCands {b : State} {job : Nat} {x : Job} {p : PlanRun} {r : PlanRunS} {outs : List (Nat × List Byte)} {bad : Bool} (hcands : r.cands = some []) :
    (planStep job x p r (.validate outs bad)).run b = (endPlan job x p r (if r.full then 5 else if r.dropped then 6 else 1) 0 none outs bad).run b := by
  rw [planStep, run_read, hcands]

theorem mem_insertBy {α : Type} {le : α → α → Bool} {a x : α} {xs : List α} : x ∈ insertBy le a xs ↔ x = a ∨ x ∈ xs := by
  induction xs with
  | nil => simp [insertBy]
  | cons b xs ih =>
    rw [insertBy]
    split
    · simp
    · rw [List.mem_cons, ih, List.mem_cons]
      tauto

theorem mem_sortBy {α : Type} {le : α → α → Bool} {x : α} {xs : List α} : x ∈ sortBy le xs ↔ x ∈ xs := by
  induction xs with
  | nil => exact Iff.rfl
  | cons a xs ih =>
    rw [List.mem_cons, ← ih]
    exact mem_insertBy

/-- Ranking keeps the candidates. -/
theorem mem_rank {m : List Byte} {cs : List (List (List Nat))} {c : List (List Nat)} : c ∈ (rank m cs).map (·.1) ↔ c ∈ cs := by
  simp [rank, mem_sortBy]

theorem rank_length (m : List Byte) (cs : List (List (List Nat))) : (rank m cs).length = cs.length := by
  simp [rank, sortBy_length]

/-- What a search finds: clear candidates, no more than asked for, of no more samples than allowed. -/
theorem searched_bounds (s : State) (e : Epoch) (p : PlanRun) (r : PlanRunS) : (s.searched e p r).1.length ≤ p.target ∧ (s.searched e p r).2.1 ≤ p.samples
    ∧ ∀ c ∈ (s.searched e p r).1, s.isCand e r.model p c = true := by
  refine ⟨?_, Nat.min_le_left .., fun c hc => ?_⟩
  · rw [State.searched, List.length_take]
    exact Nat.min_le_left ..
  · exact (List.mem_filter.1 (List.mem_of_mem_take hc)).2

/-- What the end of its search leaves of a run: candidates that are clear paths of no more waypoints than allowed, in rank order, and what was found beside them. -/
theorem search_leaves {s b t : State} {job : Nat} {x : Job} {p : PlanRun} {r : PlanRunS} {f : List (List (List Nat)) × Nat × Nat × List (List Nat) × Bool} {clear : List (List Nat) → Bool}
    (hkeeps : b.bytes = s.bytes ∧ b.log = s.log ∧ b.out = [])
    (ht : (planStep job x p r .search).run b = (Act.when (p.method == 1) (.put (Obj.ROADMAP_NODES p.model) f.2.2.2.1.length)).run
      (b.withUnits fun u => { u with plan := u.plan.searchedBy job p r f }))
    (htarget : f.1.length ≤ p.target) (hsamples : f.2.1 ≤ p.samples) (hclear : ∀ c ∈ f.1, clear c = true) (h : (planStep job x p r .search).run b = t) :
    t.objs = (if p.method = 1 then b.putObj (Obj.ROADMAP_NODES p.model) f.2.2.2.1.length else b).objs ∧ t.bytes = s.bytes ∧ t.log = s.log ∧ t.out = []
      ∧ ∃ z cs, Tab.get? t.u.plan.runs job = some z ∧ z.cands = some cs ∧ z.samples = f.2.1 ∧ z.samples ≤ p.samples ∧ z.nodes = f.2.2.1 ∧ z.full = f.2.2.2.2 ∧ cs.length ≤ p.target
        ∧ (z.dropped = true ↔ ∃ c ∈ f.1, p.waypoints < c.length) ∧ ∀ c, c ∈ cs.map (·.1) ↔ (c ∈ f.1 ∧ clear c = true ∧ c.length ≤ p.waypoints) := by
  rw [ht] at h
  have hshows : t.objs = (if p.method = 1 then b.putObj (Obj.ROADMAP_NODES p.model) f.2.2.2.1.length else b).objs ∧ t.bytes = b.bytes ∧ t.log = b.log ∧ t.out = b.out
      ∧ t.u.plan.runs = (b.u.plan.searchedBy job p r f).runs := by
    subst h
    by_cases hm : p.method = 1
    · rw [run_when_true (beq_iff_eq.2 hm), if_pos hm]
      exact ⟨rfl, rfl, rfl, rfl, rfl⟩
    · rw [run_when_false (beq_eq_false_iff_ne.2 hm), if_neg hm]
      exact ⟨rfl, rfl, rfl, rfl, rfl⟩
  obtain ⟨hobjs, hbytes, hlog, hout, hruns⟩ := hshows
  refine ⟨hobjs, hbytes.trans hkeeps.1, hlog.trans hkeeps.2.1, hout.trans hkeeps.2.2, ?_⟩
  rw [hruns, PlanS.searchedBy, Tab.get?_upd, if_pos rfl]
  refine ⟨_, rank r.model (f.1.filter fun c => decide (c.length ≤ p.waypoints)), rfl, rfl, rfl, hsamples, rfl, rfl, ?_, ?_, fun c => ?_⟩
  · rw [rank_length]
    exact (List.length_filter_le ..).trans htarget
  · rw [decide_eq_true_iff, length_filter_lt_iff]
    simp only [decide_eq_false_iff_not, not_le]
  · rw [mem_rank, List.mem_filter, decide_eq_true_iff]
    exact ⟨fun h => ⟨h.1, hclear c h.1, h.2⟩, fun h => ⟨h.1, h.2.2⟩⟩

/-- Settles O42: the planner's operations end where they are told to; queries are answered from their epoch; runs begin, search, validate and end with a path or without. -/
theorem plannerServes : Obligations.PlannerServes := by
  unfold Obligations.PlannerServes
  intro s job x hhead hdom hcurrent
  refine ⟨fun f spheres pairs outs misses st hstop i hi => ?_, fun dcl outs spheres hstop hop hlen => ⟨fun hq => ?_, fun n e hq hfault hloss hseed hcount => ?_⟩,
    fun n dcl outs pairs hstop hop hlen => ⟨fun hq => ?_, fun k e hq hfault hloss hseed => ?_⟩, fun p r misses hstop hop hrun hmiss hchecked hnone hdone => ?_,
    fun t p q r e hkey hmodel hclear hlimit hroad hstep => searched_congr hkey hmodel hclear hlimit hroad hstep⟩
  · have hserved (go : Job → Act) : (served job go).run s.begun = (s.sending []).ended job f.1 f.2 := by
      rw [served_run hhead hdom hcurrent, hstop]
      rfl
    simp only [List.mem_cons, List.not_mem_nil, or_false] at hi
    rcases hi with rfl | rfl | rfl <;> refine (need_next s rfl _).trans (congrArg Host.Outcome.next ?_) <;> rw [run_all_cons, run_all_cons, run_all_nil, hserved] <;> rfl
  · rw [exec_sphereQuery hhead hdom hcurrent hstop hop hlen, answerQuery_gone (s := s.sending []) hq]
  · rw [exec_sphereQuery hhead hdom hcurrent hstop hop hlen]
    obtain ⟨t, hrun, ⟨w, hmap, hget⟩, hout⟩ := answerQuery_leaves (s := s.sending []) (job := job) (x := x) (count := .all [.count 64 Obj.QUERY_SPHERES spheres.length, .draw 2048])
      (bricks := fun s => spheres.flatMap s.sphereBricks) (body := fun s e => spheres.flatMap (s.sphereBytes e)) hq hfault hloss hseed fun t => by
        rw [run_all_cons, run_all_cons, run_all_nil]
        exact counted_keeps t 64 Obj.QUERY_SPHERES spheres.length
    have hbase : w.get Obj.QUERY_SPHERES = s.get Obj.QUERY_SPHERES := hmap.get _ (by decide)
    refine ⟨t, by rw [hrun], ?_, hout⟩
    rw [hget, ← hbase, run_all_cons, run_all_cons, run_all_nil]
    exact run_count_get_self _ _ _ _ (by decide) (by rwa [hbase])
  · rw [exec_segmentQuery hhead hdom hcurrent hstop hop hlen, answerQuery_gone (s := s.sending []) hq]
  · rw [exec_segmentQuery hhead hdom hcurrent hstop hop hlen]
    generalize (pairs.map fun q => segmentPoses (s.model n) (s.get Obj.CHECK_STEP_MM) q.1 q.2) = poses at *
    obtain ⟨t, hrun, -, hout⟩ := answerQuery_leaves (s := s.sending []) (job := job) (x := x) (count := .draw 2048) (bricks := fun u => poses.flatten.flatMap u.poseBricks)
      (body := fun u e => poses.flatMap (u.segmentBytes e (u.model n))) hq hfault hloss hseed fun t => ⟨rfl, rfl, rfl⟩
    exact ⟨t, by rw [hrun], hout⟩
  · have hexec (step : PlanStep) := exec_plannerSlice hhead hdom hcurrent hstop hop hrun misses step
    have hplan : s.SamePlan ((s.sending []).counted 64 Obj.BRICK_MISSES misses) := samePlan_missed
    have hkept : (s.sending []).RunKept ((s.sending []).counted 64 Obj.BRICK_MISSES misses) := runKept_counted _ (.inl rfl)
    have hkeeps := counted_keeps (s.sending []) 64 Obj.BRICK_MISSES misses
    generalize (s.sending []).counted 64 Obj.BRICK_MISSES misses = b at *
    have hnoPath {u : State} (hu : (s.sending []).RunKept u) {outs : List (Nat × List Byte)} {bad : Bool} {step : PlanStep} {reason checked : Nat} {best : Option (Nat × List (List Nat) × Nat)}
        (hreason : reason ≠ 0) (hstep : (planStep job x p r step).run b = (endPlan job x p r reason checked best outs bad).run u) (hfault : s.outFault x.ctx outs = none)
        (hseed : s.get Obj.SEED_STOCK_EN = 0) : ∃ t : State, exec (.plannerSlice job misses step) s = .next (t.ended job St.NO_PATH (0x0A20 + reason)).told
          ∧ t.get Obj.RUNS_NO_PATH = s.get Obj.RUNS_NO_PATH + 1 ∧ t.get Obj.E2E_CHECKED = s.get Obj.E2E_CHECKED + 1
          ∧ s.onlyTiles t x.ctx outs ∧ (bad = true → t.bytes = s.bytes) ∧ (bad = false → s.plainOuts x.ctx outs → t.log = s.log ∧ t.out = []) := by
      obtain ⟨t, hrun, hrest⟩ := endPlan_noPath (job := job) (p := p) (r := r) (checked := checked) (best := best) (bad := bad) hu hfault hseed hchecked hnone hdone hreason
      refine ⟨t, ?_, hrest⟩
      rw [hexec, hstep, hrun]
    refine ⟨?_, fun outs bad hbegun hloss => ⟨fun hstart => ?_, fun hstart hgoals => ?_, fun hstart hgoal => ?_⟩, fun hbegun hcands hloss => ?_, fun outs bad hcands => ?_,
      fun outs bad cs hcands hne hloss => ⟨fun hfails => ?_, fun hpasses hfault hseed => ?_⟩⟩
    · rw [hexec]
      rfl
    · refine hnoPath (checked := 0) (best := none) hkept (by decide) ?_
      rw [planStep_begin hplan hbegun hloss, if_pos (by rw [hstart]; exact Bool.false_ne_true)]
    · have hnone : ¬ (p.goals.any fun g => s.poseClear (Tab.at s.u.plan.epochs r.epoch {}) r.model (poseOf r.model .zero (g.1.map fp))) = true := by
        simpa [List.any_eq_true] using hgoals
      refine hnoPath (checked := 0) (best := none) hkept (by decide) ?_
      rw [planStep_begin hplan hbegun hloss, if_neg (not_not.2 hstart), if_pos hnone]
    · have hany : (p.goals.any fun g => s.poseClear (Tab.at s.u.plan.epochs r.epoch {}) r.model (poseOf r.model .zero (g.1.map fp))) = true := List.any_eq_true.2 hgoal
      rw [hexec, planStep_begin hplan hbegun hloss, if_neg (not_not.2 hstart), if_neg (not_not.2 hany)]
      rfl
    · refine ⟨_, hexec .search, ?_⟩
      obtain ⟨htarget, hsamples, hclear⟩ := searched_bounds s (Tab.at s.u.plan.epochs r.epoch {}) p r
      exact search_leaves hkeeps (planStep_search hplan hbegun hcands hloss) htarget hsamples hclear rfl
    · refine hnoPath hkept ?_ (planStep_noCands hcands)
      split
      · decide
      · split <;> decide
    · obtain ⟨u, hu, hstep⟩ := planStep_validate (job := job) (x := x) (p := p) (outs := outs) (bad := bad) hplan hkept hcands hne hloss
      rw [hfails] at hstep
      exact hnoPath hu (by decide) hstep
    · obtain ⟨u, hu, hstep⟩ := planStep_validate (job := job) (x := x) (p := p) (outs := outs) (bad := bad) hplan hkept hcands hne hloss
      rw [if_pos hpasses] at hstep
      obtain ⟨t, hrun, hrest⟩ := endPlan_done (s := s.sending []) hu hfault hseed hchecked hnone hdone
      refine ⟨t, ?_, hrest⟩
      rw [hexec, hstep, hrun]

end Sys2Proof.Machine
end

section
/-! PROOFS. Tiles allocated and written for the planner's map: what they leave as it was (R159, R344, R346). -/

namespace Sys2Proof.Machine

/-! ## Tables -/

theorem Tab.mem_of_get? {α : Type} {t : Tab α} {k : Nat} {a : α} (h : Tab.get? t k = some a) : (k, a) ∈ t := by
  induction t with
  | nil => cases h
  | cons e es ih =>
    obtain ⟨j, b⟩ := e
    rw [Tab.get?] at h
    split at h
    · next hj =>
      obtain rfl := Option.some.inj h
      rw [hj]
      exact List.mem_cons_self
    · exact List.mem_cons_of_mem _ (ih h)

theorem Tab.isSome_iff_mem {α : Type} {t : Tab α} {k : Nat} : (Tab.get? t k).isSome ↔ k ∈ t.map (·.1) := by
  rw [Option.isSome_iff_exists, List.mem_map]
  constructor
  · rintro ⟨a, ha⟩
    exact ⟨(k, a), Tab.mem_of_get? ha, rfl⟩
  · rintro ⟨e, he, rfl⟩
    exact Option.ne_none_iff_exists'.1 (Tab.get?_ne_none he)

/-- A filter that keeps every record under a key keeps what is found there. -/
theorem Tab.get?_filter {α : Type} {t : Tab α} {q : Nat → Bool} {k : Nat} (hk : q k = true) : Tab.get? (t.filter fun e => q e.1) k = Tab.get? t k := by
  induction t with
  | nil => rfl
  | cons e es ih =>
    obtain ⟨j, b⟩ := e
    by_cases hj : j = k
    · subst hj
      rw [List.filter_cons_of_pos (by exact hk), Tab.get?, Tab.get?, if_pos rfl, if_pos rfl]
    · cases hq : q j
      · rw [List.filter_cons_of_neg (by simp [hq]), ih, Tab.get?, if_neg hj]
      · rw [List.filter_cons_of_pos (by exact hq), Tab.get?, Tab.get?, if_neg hj, if_neg hj, ih]

section
variable {α β : Type} (key : β → Nat) (val : Tab α → β → α)

/-- Records written one after the other: those keys are there, the others are as they were. -/
theorem Tab.get?_foldl_set (xs : List β) : ∀ (t : Tab α) (k : Nat),
    ((Tab.get? (xs.foldl (fun t e => Tab.set t (key e) (val t e)) t) k).isSome ↔ ((Tab.get? t k).isSome ∨ k ∈ xs.map key))
      ∧ (k ∉ xs.map key → Tab.get? (xs.foldl (fun t e => Tab.set t (key e) (val t e)) t) k = Tab.get? t k) := by
  induction xs with
  | nil => exact fun t k => ⟨by simp, fun _ => rfl⟩
  | cons x xs ih =>
    intro t k
    obtain ⟨hsome, hother⟩ := ih (Tab.set t (key x) (val t x)) k
    rw [Tab.get?_set] at hsome hother
    simp only [List.foldl_cons, List.map_cons, List.mem_cons, not_or]
    refine ⟨?_, fun h => (hother h.2).trans (if_neg h.1)⟩
    rw [hsome]
    by_cases hk : k = key x
    · simp [hk]
    · simp [hk]

/-- What holds of all records written and of those before holds of those after. -/
theorem Tab.foldl_set_forall {P : Nat → α → Prop} (xs : List β) : ∀ (t : Tab α), (∀ k a, Tab.get? t k = some a → P k a) → (∀ x ∈ xs, ∀ u, P (key x) (val u x)) →
    ∀ k a, Tab.get? (xs.foldl (fun t e => Tab.set t (key e) (val t e)) t) k = some a → P k a := by
  induction xs with
  | nil => exact fun t ht _ => ht
  | cons x xs ih =>
    intro t ht hx
    refine ih _ (fun k a ha => ?_) fun y hy => hx y (List.mem_cons_of_mem _ hy)
    rw [Tab.get?_set] at ha
    split at ha
    · next hk =>
      obtain rfl := Option.some.inj ha
      exact hk ▸ hx x List.mem_cons_self t
    · exact ht k a ha

end

theorem Tab.set_sorted {α : Type} {t : Tab α} {k : Nat} {a : α} (h : (t.map (·.1)).Pairwise (· < ·)) : ((Tab.set t k a).map (·.1)).Pairwise (· < ·) := by
  induction t with
  | nil => exact List.pairwise_singleton ..
  | cons e es ih =>
    obtain ⟨j, b⟩ := e
    simp only [List.map_cons, List.pairwise_cons] at h
    rw [Tab.set]
    split
    · next hlt =>
      simp only [List.map_cons, List.pairwise_cons]
      refine ⟨fun i hi => ?_, h⟩
      rcases List.mem_cons.1 hi with rfl | hi
      · exact hlt
      · exact hlt.trans (h.1 i hi)
    · split
      · next heq =>
        subst heq
        simpa only [List.map_cons, List.pairwise_cons] using h
      · next hlt hne =>
        simp only [List.map_cons, List.pairwise_cons]
        refine ⟨fun i hi => ?_, ih h.2⟩
        obtain ⟨x, hx, rfl⟩ := List.mem_map.1 hi
        rcases Tab.mem_of_mem_set hx with hx | rfl
        · exact h.1 _ (List.mem_map_of_mem hx)
        · exact lt_of_le_of_ne (not_lt.1 hlt) (Ne.symm hne)

theorem nodup_eraseDups {α : Type} [BEq α] [LawfulBEq α] (n : Nat) : ∀ xs : List α, xs.length ≤ n → xs.eraseDups.Nodup := by
  induction n with
  | zero =>
    intro xs h
    rw [List.length_eq_zero_iff.1 (Nat.le_zero.1 h), List.eraseDups_nil]
    exact List.nodup_nil
  | succ n ih =>
    intro xs h
    cases xs with
    | nil => rw [List.eraseDups_nil]; exact List.nodup_nil
    | cons x xs =>
      rw [List.eraseDups_cons, List.nodup_cons]
      refine ⟨?_, ih _ ((List.length_filter_le ..).trans (Nat.le_of_succ_le_succ h))⟩
      rw [List.mem_eraseDups, List.mem_filter]
      simp

/-- A table built from nothing has one record for each of the keys written. -/
theorem Tab.length_foldl_set {α β : Type} (key : β → Nat) (val : Tab α → β → α) (xs : List β) :
    (xs.foldl (fun t e => Tab.set t (key e) (val t e)) []).length = (xs.map key).eraseDups.length := by
  have hsorted : ∀ t : Tab α, (t.map (·.1)).Pairwise (· < ·) → ((xs.foldl (fun t e => Tab.set t (key e) (val t e)) t).map (·.1)).Pairwise (· < ·) := by
    induction xs with
    | nil => exact fun t ht => ht
    | cons x xs ih => exact fun t ht => ih _ (Tab.set_sorted ht)
  have hnodup := (hsorted [] List.Pairwise.nil).imp ne_of_lt
  have hmem (k : Nat) : k ∈ (xs.foldl (fun t e => Tab.set t (key e) (val t e)) []).map (·.1) ↔ k ∈ (xs.map key).eraseDups := by
    rw [← Tab.isSome_iff_mem, (Tab.get?_foldl_set key val xs [] k).1, List.mem_eraseDups]
    simp [Tab.get?]
  rw [← List.length_map (f := (·.1)), ((List.perm_ext_iff_of_nodup hnodup (nodup_eraseDups _ _ le_rfl)).2 hmem).length_eq]

/-! ## Numbers for new tiles -/

/-- The numbers that an allocation takes are free. -/
theorem freeNumbers_free (s : State) (n : Nat) {i : Nat} (hi : i < n) : Tab.get? s.u.mem.tiles (s.freeNumbers n + i) = none := by
  have hfree : (s.u.mem.tiles.map (·.1)).all (fun v => decide (v < s.freeNumbers n ∨ s.freeNumbers n + n ≤ v)) = true := by
    rw [State.freeNumbers]
    generalize s.u.mem.tiles.map (·.1) = used
    cases h : (0 :: used.map (· + 1)).find? (fun t => used.all (fun v => decide (v < t ∨ t + n ≤ v))) with
    | some t => exact List.find?_some (p := fun t => used.all fun v => decide (v < t ∨ t + n ≤ v)) h
    | none =>
      rw [List.find?_eq_none] at h
      rcases List.eq_nil_or_concat used with rfl | ⟨_, _, rfl⟩
      · rfl
      · generalize hused : List.concat _ _ = used at *
        obtain ⟨m, hm, hmax⟩ := used.toFinset.exists_max_image id ⟨_, List.mem_toFinset.2 (by rw [← hused, List.concat_eq_append]; exact List.mem_append_right _ (List.mem_singleton_self _))⟩
        refine absurd (List.all_eq_true.2 fun v hv => decide_eq_true (.inl ?_)) (h (m + 1) (List.mem_cons_of_mem _ (List.mem_map_of_mem (List.mem_toFinset.1 hm))))
        exact Nat.lt_succ_of_le (hmax v (List.mem_toFinset.2 hv))
  cases hget : Tab.get? s.u.mem.tiles (s.freeNumbers n + i) with
  | none => rfl
  | some a =>
    have := of_decide_eq_true (List.all_eq_true.1 hfree _ (List.mem_map_of_mem (f := (·.1)) (Tab.mem_of_get? hget)))
    omega

theorem sending_peerHomes (s : State) (es : List Emit) (n : Nat) : ∀ l taken, (s.sending es).peerHomes l taken n = s.peerHomes l taken n := by
  induction n with
  | zero => exact fun _ _ => rfl
  | succ n ih =>
    intro l taken
    rw [State.peerHomes, State.peerHomes, show (s.sending es).leaseSlotBeside taken = s.leaseSlotBeside taken from rfl]
    split
    · rw [ih]
    · rfl

/-- What was sent does not matter to where new tiles lie. -/
theorem sending_newHomes (s : State) (es : List Emit) (n : Nat) : (s.sending es).newHomes n = s.newHomes n := by
  rw [State.newHomes, State.newHomes, sending_peerHomes]
  rfl

/-! ## What the writes of the map's tiles leave -/

/-- `t` came of `s` by writes of tiles in slots of this module: objects but one counter, the planner's record, the log and what is sent are as they were, and so is where such tiles lie. -/
structure State.TilesWritten (s t : State) : Prop where
  get : ∀ k, k ≠ Obj.MIGRATE_ABORTS → t.get k = s.get k
  plan : t.u.plan = s.u.plan
  log : t.log = s.log
  out : t.out = s.out
  slotTile : ∀ n, s.slotTile n → t.slotTile n

theorem State.TilesWritten.refl (s : State) : s.TilesWritten s := ⟨fun _ _ => rfl, rfl, rfl, rfl, fun _ => id⟩

theorem State.TilesWritten.trans {s t u : State} (h : s.TilesWritten t) (g : t.TilesWritten u) : s.TilesWritten u :=
  ⟨fun k hk => (g.get k hk).trans (h.get k hk), g.plan.trans h.plan, g.log.trans h.log, g.out.trans h.out, fun n hn => g.slotTile n (h.slotTile n hn)⟩

theorem storeTile_plan (n : Nat) (tag body : List Byte) (whole : Bool) (s : State) : ((storeTile n tag body whole).run s).u.plan = s.u.plan := by
  have hkeeps : (storeTile n tag body whole).SparesUnit fun u => u.plan :=
    storeTile_within (A := fun _ => True) (R := fun g => ∀ u : Units, (g u).plan = u.plan) trivial trivial trivial trivial trivial (fun _ _ => rfl) (fun _ _ => rfl)
      (fun code inst d0 d1 => logEv_within code inst d0 d1 trivial trivial fun _ => fun _ => rfl) _ _ _ _
  exact Act.SparesUnit.unit s hkeeps

theorem storeTile_written {s : State} {n : Nat} {tag body : List Byte} {whole : Bool} (hseed : s.get Obj.SEED_STOCK_EN = 0 ∨ bit (tagByte tag 2) 0 = false) (hslot : s.slotTile n) :
    s.TilesWritten ((storeTile n tag body whole).run s) :=
  have hkept := storeTile_mapKept (n := n) (tag := tag) (body := body) (whole := whole) hseed rfl
  have hsilent := storeTile_silent (n := n) (tag := tag) (body := body) (whole := whole) hseed hslot rfl
  ⟨hkept.get, storeTile_plan .., hsilent.1, hsilent.2, hkept.slotTile⟩

/-- A planner's tile that lies in a slot is written in silence. -/
theorem planTile_written {s : State} {n fmt : Nat} {data : List Byte} (hslot : s.slotTile n) : s.TilesWritten ((planTile n fmt data).run s) := by
  have hbit : bit (tagByte (le 1 fmt ++ List.replicate 31 0) 2) 0 = false := by
    simp [tagByte, le, bit]
  rw [planTile, writeTile, run_read]
  exact storeTile_written (.inr hbit) hslot

theorem planTiles_written {α : Type} {no fmt : α → Nat} {data : α → List Byte} (xs : List α) : ∀ {s : State}, (∀ x ∈ xs, s.slotTile (no x)) →
    s.TilesWritten ((Act.each xs fun x => planTile (no x) (fmt x) (data x)).run s) := by
  induction xs with
  | nil => exact fun _ => .refl _
  | cons x xs ih =>
    intro s hslots
    have hfirst := planTile_written (fmt := fmt x) (data := data x) (hslots x List.mem_cons_self)
    rw [run_each_cons]
    exact hfirst.trans (ih fun y hy => hfirst.slotTile _ (hslots y (List.mem_cons_of_mem _ hy)))

theorem zeroHome_written (s : State) (n c k : Nat) : s.TilesWritten ((zeroHome n c (.slot k)).run s) := by
  have hbytes (m : Memory) : s.TilesWritten { s with bytes := m } := ⟨fun _ _ => rfl, rfl, rfl, rfl, fun _ => id⟩
  exact hbytes _

theorem zeroHomes_written {α : Type} {c : Nat} {no : α → Nat} {home : α → Home} (xs : List α) (hslots : ∀ x ∈ xs, ∃ k, home x = .slot k) :
    ∀ {s : State}, s.TilesWritten ((Act.each xs fun x => zeroHome (no x) c (home x)).run s) := by
  induction xs with
  | nil => exact .refl _
  | cons x xs ih =>
    intro s
    obtain ⟨k, hk⟩ := hslots x List.mem_cons_self
    rw [run_each_cons, hk]
    exact (zeroHome_written ..).trans (ih fun y hy => hslots y (List.mem_cons_of_mem _ hy))

/-- Tiles allocated in slots of this module. -/
theorem allocTiles_written {s : State} {c n : Nat} (hslots : ∀ h ∈ (s.newHomes n).1, ∃ k, h = .slot k) :
    s.TilesWritten ((allocTiles c n).run s) ∧ ∀ i < n, ((allocTiles c n).run s).slotTile (s.freeNumbers n + i) := by
  have hnew : ∀ e ∈ (List.range n).zip (s.newHomes n).1, ∃ k, e.2 = Home.slot k := fun e he => hslots _ (List.of_mem_zip he).2
  rw [allocTiles, run_read]
  simp only
  rw [run_all_cons, run_all_cons, run_all_nil]
  generalize hw : (Act.mem _).run s = w
  have htiles (i : Nat) (hi : s.slotTile i) : w.slotTile i := by
    intro x hx
    rw [← hw] at hx
    exact Tab.foldl_set_forall (fun e : Nat × Home => s.freeNumbers n + e.1) (fun _ e => ({ ctx := c, home := e.2, tag := ownerTag c } : Tile)) (P := fun k (y : Tile) => k = i → (∃ k, y.home = .slot k) ∧ y.replica = none)
      _ s.u.mem.tiles (fun k a ha hk => hi a (hk ▸ ha)) (fun e he _ _ => ⟨hnew e he, rfl⟩) i x hx rfl
  have hwritten : s.TilesWritten w := by
    subst hw
    exact ⟨fun _ _ => rfl, rfl, rfl, rfl, htiles⟩
  have hzero := zeroHomes_written (c := c) (no := fun e : Nat × Home => s.freeNumbers n + e.1) (home := fun e => e.2) _ hnew (s := w)
  exact ⟨hwritten.trans hzero, fun i hi => hzero.slotTile _ (htiles _ fun x hx => by rw [freeNumbers_free s n hi] at hx; cases hx)⟩

end Sys2Proof.Machine
end

section
/-! PROOFS. The map's epochs: batches, clears and road maps (R346 to R350, R360, R365). -/

namespace Sys2Proof.Machine

/-! ## Epochs -/

/-- `t` came of `s` by freeing tiles and showing epochs: memory, the log and what is sent are as they were, and every object but those that show the newest epoch. -/
structure State.EpochsShown (s t : State) : Prop where
  get : ∀ k, k ≠ Obj.EPOCH_NEWEST → k ≠ Obj.EPOCH_NEWEST_TOV → k ≠ Obj.EPOCHS_HELD → k ≠ Obj.BRICKS_WRITTEN → t.get k = s.get k
  bytes : t.bytes = s.bytes
  log : t.log = s.log
  out : t.out = s.out

theorem State.EpochsShown.trans {s t u : State} (h : s.EpochsShown t) (g : t.EpochsShown u) : s.EpochsShown u :=
  ⟨fun k h1 h2 h3 h4 => (g.get k h1 h2 h3 h4).trans (h.get k h1 h2 h3 h4), g.bytes.trans h.bytes, g.log.trans h.log, g.out.trans h.out⟩

theorem freeTiles_keeps (xs : List Nat) (s : State) : ((Act.each xs freeTile).run s).objs = s.objs ∧ ((Act.each xs freeTile).run s).bytes = s.bytes
    ∧ ((Act.each xs freeTile).run s).log = s.log ∧ ((Act.each xs freeTile).run s).out = s.out ∧ ((Act.each xs freeTile).run s).u.plan = s.u.plan :=
  ⟨run_each_keeps (fun t => t.objs) freeTile xs (fun _ _ _ => rfl) s, run_each_keeps (fun t => t.bytes) freeTile xs (fun _ _ _ => rfl) s,
    run_each_keeps (fun t => t.log) freeTile xs (fun _ _ _ => rfl) s, run_each_keeps (fun t => t.out) freeTile xs (fun _ _ _ => rfl) s,
    run_each_keeps (fun t => t.u.plan) freeTile xs (fun _ _ _ => rfl) s⟩

theorem putEpochs_run (s : State) : s.EpochsShown (putEpochs.run s) ∧ (putEpochs.run s).u = s.u ∧ (putEpochs.run s).get Obj.EPOCH_NEWEST = s.get Obj.EPOCH_NEWEST
    ∧ (putEpochs.run s).get Obj.BRICKS_WRITTEN = s.newest.index.length % 2 ^ 64 := by
  rw [putEpochs, run_read, run_all_cons, run_all_cons, run_all_cons, run_all_nil]
  refine ⟨⟨fun k _ h2 h3 h4 => ?_, rfl, rfl, rfl⟩, rfl, ?_, ?_⟩
  · rw [run_put_get, if_neg h4, run_put_get, if_neg h3, run_put_get, if_neg h2]
  · rw [run_put_get, if_neg (by decide), run_put_get, if_neg (by decide), run_put_get, if_neg (by decide)]
  · rw [run_put_get, if_pos rfl]

theorem becomeNewest_run {s t : State} {e : Epoch} (hnext : s.get Obj.EPOCH_NEWEST + 1 < 2 ^ 64) (ht : (becomeNewest e).run s = t) :
    s.EpochsShown t ∧ t.get Obj.EPOCH_NEWEST = s.get Obj.EPOCH_NEWEST + 1 ∧ Tab.get? t.u.plan.epochs (s.get Obj.EPOCH_NEWEST + 1) = some e ∧ t.u.plan.pending = s.u.plan.pending := by
  rw [becomeNewest, run_read] at ht
  simp only at ht
  rw [run_all_cons, run_all_cons, run_all_cons, run_all_nil] at ht
  generalize ha : (Act.plan _).run s = a at ht
  have haepochs : Tab.get? a.u.plan.epochs (s.get Obj.EPOCH_NEWEST + 1) = some e := by
    rw [← ha]
    exact (Tab.get?_set ..).trans (if_pos rfl)
  have hapend : a.u.plan.pending = s.u.plan.pending := by rw [← ha]; rfl
  have hashown : s.EpochsShown a := by rw [← ha]; exact ⟨fun _ _ _ _ _ => rfl, rfl, rfl, rfl⟩
  clear ha
  generalize hb : (Act.put Obj.EPOCH_NEWEST _).run a = b at ht
  have hbshown : a.EpochsShown b := by
    rw [← hb]
    exact ⟨fun k h _ _ _ => (run_put_get ..).trans (if_neg h), rfl, rfl, rfl⟩
  have hbget : b.get Obj.EPOCH_NEWEST = s.get Obj.EPOCH_NEWEST + 1 := by
    rw [← hb, run_put_get, if_pos rfl, Nat.mod_eq_of_lt hnext]
  have hbu : b.u = a.u := by rw [← hb]; rfl
  obtain ⟨hshown, hu, hget, -⟩ := putEpochs_run b
  rw [ht] at hshown hu hget
  exact ⟨hashown.trans (hbshown.trans hshown), hget.trans hbget, by rw [hu, hbu]; exact haepochs, by rw [hu, hbu]; exact hapend⟩

/-- Where no epoch is pending, the epochs that nothing needs go; the newest stays. -/
theorem reclaim_run {s t : State} {e : Epoch} {fuel : Nat} (hpend : s.u.plan.pending = none) (hnewest : Tab.get? s.u.plan.epochs (s.get Obj.EPOCH_NEWEST) = some e)
    (ht : (reclaim (fuel + 1)).run s = t) :
    s.EpochsShown t ∧ t.get Obj.EPOCH_NEWEST = s.get Obj.EPOCH_NEWEST ∧ t.newest = e ∧ t.get Obj.BRICKS_WRITTEN = e.index.length % 2 ^ 64 ∧ t.u.plan.pending = none := by
  rw [reclaim, run_read] at ht
  simp only at ht
  rw [run_all_cons, run_all_cons, run_all_cons, run_all_cons, run_all_nil] at ht
  generalize ha : (Act.plan _).run s = a at ht
  have haepochs : Tab.get? a.u.plan.epochs (s.get Obj.EPOCH_NEWEST) = some e := by
    rw [← ha, ← hnewest]
    exact Tab.get?_filter (q := fun n => n == s.get Obj.EPOCH_NEWEST || s.epochHeld n) (by rw [beq_self_eq_true]; rfl)
  have hapend : a.u.plan.pending = none := by rw [← hpend, ← ha]; rfl
  have hashown : s.EpochsShown a ∧ a.get Obj.EPOCH_NEWEST = s.get Obj.EPOCH_NEWEST := by rw [← ha]; exact ⟨⟨fun _ _ _ _ _ => rfl, rfl, rfl, rfl⟩, rfl⟩
  clear ha
  generalize hdead : List.filter _ _ = dead at ht
  obtain ⟨hobjs, hbytes, hlog, hout, hplan⟩ := freeTiles_keeps dead a
  generalize (Act.each dead freeTile).run a = b at *
  have hbget (k : Nat) : b.get k = a.get k := by rw [State.get, hobjs]; rfl
  have hbnewest : b.newest = e := by rw [State.newest, Tab.at, hplan, hbget, hashown.2, haepochs]; rfl
  obtain ⟨hshown, hu, hget, hwritten⟩ := putEpochs_run b
  rw [hbnewest] at hwritten
  generalize putEpochs.run b = c at *
  have hcpend : c.u.plan.pending = none := by rw [hu, hplan]; exact hapend
  rw [run_read, hcpend] at ht
  obtain rfl : c = t := ht
  refine ⟨hashown.1.trans (.trans ⟨fun k _ _ _ _ => hbget k, hbytes, hlog, hout⟩ hshown), ?_, ?_, hwritten, hcpend⟩
  · rw [hget, hbget, hashown.2]
  · rw [← hbnewest, State.newest, State.newest, hu, hget]

/-- A commit with room for an epoch makes it the newest (R350). -/
theorem commitEpoch_newest {s t : State} {e : Epoch} (hpend : s.u.plan.pending = none) (hroom : s.u.plan.epochs.length < s.get Obj.EPOCHS_MAX)
    (hnext : s.get Obj.EPOCH_NEWEST + 1 < 2 ^ 64) (ht : (commitEpoch e).run s = t) :
    s.EpochsShown t ∧ t.get Obj.EPOCH_NEWEST = s.get Obj.EPOCH_NEWEST + 1 ∧ t.newest = e ∧ t.get Obj.BRICKS_WRITTEN = e.index.length % 2 ^ 64 ∧ t.u.plan.pending = none := by
  rw [commitEpoch, run_read, if_neg (by rw [hpend]; exact not_or.2 ⟨Bool.false_ne_true, not_le.2 hroom⟩), run_all_cons, run_all_cons, run_all_nil] at ht
  generalize ha : (becomeNewest e).run s = a at ht
  obtain ⟨hshown, hget, hepochs, hapend⟩ := becomeNewest_run hnext ha
  obtain ⟨hshown', hget', hnewest, hwritten, hpend'⟩ := reclaim_run (hapend.trans hpend) (by rw [hget]; exact hepochs) ht
  exact ⟨hshown.trans hshown', hget'.trans hget, hnewest, hwritten, hpend'⟩

/-- Without room it becomes the pending one. -/
theorem commitEpoch_pending {s t : State} {e : Epoch} (hfull : s.u.plan.pending ≠ none ∨ s.get Obj.EPOCHS_MAX ≤ s.u.plan.epochs.length) (ht : (commitEpoch e).run s = t) :
    (∃ e', t.u.plan.pending = some e' ∧ e'.tov = e.tov ∧ e'.index = e.index) ∧ t.u.plan.epochs = s.u.plan.epochs ∧ t.objs = s.objs ∧ t.bytes = s.bytes ∧ t.log = s.log ∧ t.out = s.out := by
  rw [commitEpoch, run_read, if_pos (hfull.imp Option.ne_none_iff_isSome.1 id)] at ht
  simp only at ht
  rw [run_all_cons, run_all_cons, run_all_nil] at ht
  generalize hxs : List.filter (fun t => !e.all.contains t && _) _ = xs at ht
  generalize ha : (Act.plan _).run s = a at ht
  obtain ⟨hobjs, hbytes, hlog, hout, hplan⟩ := freeTiles_keeps xs a
  rw [ht] at hobjs hbytes hlog hout hplan
  rw [hplan, hobjs, hbytes, hlog, hout, ← ha]
  exact ⟨⟨_, rfl, rfl, rfl⟩, rfl, rfl, rfl, rfl, rfl⟩

/-! ## Batches -/

/-- An epoch that a batch makes of `base`. -/
abbrev Epoch.covers (tov : Nat) (ops : List MapOp) (e base : Epoch) : Prop :=
  e.tov = max tov base.tov ∧ (∀ b, (Tab.get? e.index b).isSome ↔ ((Tab.get? base.index b).isSome ∨ b ∈ ops.map MapOp.brick))
    ∧ ∀ b, b ∉ ops.map MapOp.brick → Tab.get? e.index b = Tab.get? base.index b

theorem batchBricks_length (s : State) (base : Epoch) (ops : List MapOp) : (s.batchBricks base ops).length = (ops.map MapOp.brick).eraseDups.length :=
  Tab.length_foldl_set MapOp.brick (fun t o => o.apply ((Tab.get? t o.brick).getD (s.brick base o.brick))) ops

theorem mem_batchBricks (s : State) (base : Epoch) (ops : List MapOp) (b : Nat) : b ∈ (s.batchBricks base ops).map (·.1) ↔ b ∈ ops.map MapOp.brick := by
  rw [← Tab.isSome_iff_mem, State.batchBricks, (Tab.get?_foldl_set MapOp.brick (fun t o => o.apply ((Tab.get? t o.brick).getD (s.brick base o.brick))) ops [] b).1]
  simp [Tab.get?]

/-- The epoch that a batch makes. -/
def State.batchEpoch (s : State) (tov : Nat) (ops : List MapOp) : Epoch :=
  let base := s.batchBase
  let bricks := s.batchBricks base ops
  let k := s.indexTiles
  let first := s.freeNumbers (k + bricks.length)
  { tov := max tov base.tov, index := ((List.range bricks.length).zip bricks).foldl (fun t e => Tab.set t e.2.1 (first + k + e.1)) base.index
    tiles := (List.range k).map (first + ·), changed := bricks.map (·.1) }

theorem batchEpoch_covers (s : State) (tov : Nat) (ops : List MapOp) : Epoch.covers tov ops (s.batchEpoch tov ops) s.batchBase := by
  have hkeys : ((List.range (s.batchBricks s.batchBase ops).length).zip (s.batchBricks s.batchBase ops)).map (fun e => e.2.1) = (s.batchBricks s.batchBase ops).map (·.1) := by
    rw [show (fun e : Nat × Nat × List Nat => e.2.1) = (·.1) ∘ Prod.snd from rfl, ← List.map_map, List.map_snd_zip (by rw [List.length_range])]
  refine ⟨rfl, fun b => ?_, fun b hb => ?_⟩
  · rw [← mem_batchBricks s s.batchBase ops, ← hkeys]
    exact (Tab.get?_foldl_set (fun e : Nat × Nat × List Nat => e.2.1) _ _ _ b).1
  · rw [← mem_batchBricks s s.batchBase ops, ← hkeys] at hb
    exact (Tab.get?_foldl_set (fun e : Nat × Nat × List Nat => e.2.1) _ _ _ b).2 hb

/-- A batch whose tiles lie in slots of this module writes them and commits its epoch. -/
theorem applyBatch_run {s : State} {c tov : Nat} {ops : List MapOp} (hslots : ∀ h ∈ (s.newHomes (s.indexTiles + (ops.map MapOp.brick).eraseDups.length)).1, ∃ k, h = .slot k) :
    ∃ w, s.TilesWritten w ∧ (applyBatch c tov ops).run s = (commitEpoch (s.batchEpoch tov ops)).run w := by
  rw [← batchBricks_length s s.batchBase ops] at hslots
  obtain ⟨halloc, hnew⟩ := allocTiles_written (c := c) hslots
  rw [applyBatch, run_read]
  simp only
  rw [run_all_cons, run_all_cons, run_all_cons, run_all_cons, run_all_nil]
  generalize (allocTiles c _).run s = a at *
  have hbricks := planTiles_written (no := fun b : Nat × Nat × List Nat => s.freeNumbers (s.indexTiles + (s.batchBricks s.batchBase ops).length) + s.indexTiles + b.1) (fmt := fun _ => 9)
    (data := fun b => b.2.2.flatMap (le 2)) ((List.range (s.batchBricks s.batchBase ops).length).zip (s.batchBricks s.batchBase ops)) (s := a) fun b hb => by
      have := List.mem_range.1 (List.of_mem_zip hb).1
      rw [Nat.add_assoc]
      exact hnew _ (Nat.add_lt_add_left this _)
  generalize (Act.each _ fun b : Nat × Nat × List Nat => _).run a = d at *
  refine ⟨_, (halloc.trans hbricks).trans (planTiles_written (no := fun i => s.freeNumbers (s.indexTiles + (s.batchBricks s.batchBase ops).length) + i) (fmt := fun _ => 8)
    (data := fun i => (List.range 1024).flatMap fun j => le 4 (Tab.at (s.batchEpoch tov ops).index (1024 * i + j) 0)) (List.range s.indexTiles) fun i hi => ?_), rfl⟩
  exact hbricks.slotTile _ (hnew i (Nat.lt_add_right _ (List.mem_range.1 hi)))

/-- What follows a batch of job record `x`: its output is noted, and a stage of the planner ends. -/
def batchDone (job : Nat) (x : Job) : Act :=
  if x.decl.op = none then .job job (fun y => { y with output := true }) else .all [.job job (fun y => { y with output := true }), endJob job St.DONE 0 0 0]

theorem batchDone_run (job : Nat) (x : Job) (t : State) : (batchDone job x).run t
    = if x.decl.op = none then t.withJob job (fun y => { y with output := true }) else (t.withJob job fun y => { y with output := true }).ended job St.DONE 0 := by
  rw [batchDone]
  split
  · rfl
  · rw [run_all_cons, run_all_cons, run_all_nil]
    rfl

section
variable {s : State} {job tov : Nat} {ops : List MapOp} {x : Job}

theorem exec_mapBatchCommit (hwf : Wf.mapBatchCommit job tov ops = true) (hx : Tab.get? s.u.tt.jobs job = some x) (hgroup : s.groupPending 0x2901 = false)
    (hphase : x.phase = .running ∨ x.phase = .draining) (hdom : s.get (Obj.DOM_STATE 75) = 2)
    (hop : x.decl.op = none ∨ (x.decl.op = some .batch ∧ s.planOrder.head? = some (job, x) ∧ x.stop = none ∧ s.u.pow.overcurrent = false)) :
    exec (.mapBatchCommit job tov ops) s = .next (((batch job tov ops (batchDone job x)).run (s.sending [])).told) := by
  have hx' : Tab.get? s.begun.u.tt.jobs job = some x := hx
  have hgo : ¬ (s.begun.groupPending 0x2901 = true ∨ ¬ (x.phase = .running ∨ x.phase = .draining)) := by
    rintro (h | h)
    · exact Bool.false_ne_true (hgroup.symm.trans h)
    · exact h hphase
  refine (need_next s hwf _).trans (congrArg Host.Outcome.next ?_)
  rw [run_read, run_all_cons, run_all_cons, run_all_nil, hx']
  simp only
  rw [if_neg hgo]
  refine congrArg settle.run ?_
  rcases hop with hop | ⟨hop, hhead, hstop, hcurrent⟩
  · rw [hop, batchDone, if_pos hop]
    exact run_when_true (beq_iff_eq.2 hdom) _ s.begun
  · rw [hop, batchDone, if_neg (by rw [hop]; exact Option.some_ne_none _)]
    simp only
    rw [served_run hhead hdom hcurrent, hstop]

theorem batch_outside {done : Act} (h : 4096 < ops.length ∨ ∃ o ∈ ops, s.bricks ≤ o.brick) : (batch job tov ops done).run s = s.ended job St.CONFIG_INVALID 0x0A06 := by
  rw [batch, run_read, if_pos (h.imp id fun ⟨o, ho, hb⟩ => List.any_eq_true.2 ⟨o, ho, decide_eq_true hb⟩)]
  rfl

theorem batch_empty {done : Act} : (batch job tov [] done).run s = done.run s := by
  rw [batch, run_read, if_neg (by simp), if_pos rfl]

/-- The bricks that a batch reads. -/
def mapReads (ops : List MapOp) : List Nat := ops.filterMap fun o => match o with
  | .min b _ => some b
  | _ => none

section
variable {done : Act} (hne : ops ≠ []) (hlen : ops.length ≤ 4096) (hbricks : ∀ o ∈ ops, o.brick < s.bricks) (hloss : s.mapLoss s.batchBase (mapReads ops) = none)
include hne hlen hbricks hloss

theorem batch_refused {d : Nat} (h : s.allocFault (s.get Obj.MAP_CONTEXT) (s.indexTiles + ((ops.map MapOp.brick).eraseDups).length) = some d) :
    (batch job tov ops done).run s = (s.counted 32 Obj.UPDATES_REFUSED 1).ended job St.CONFIG_INVALID d := by
  have hin : ¬ (4096 < ops.length ∨ ops.any (fun o => decide (s.bricks ≤ o.brick)) = true) := by
    simpa [not_or] using ⟨hlen, hbricks⟩
  rw [batch, run_read, if_neg hin, if_neg hne]
  simp only
  generalize hl : s.mapLoss s.batchBase _ = l
  obtain rfl : l = none := hl.symm.trans hloss
  rw [h]
  simp only
  rw [run_all_cons, run_all_cons, run_all_nil]
  rfl

theorem batch_applied (h : s.allocFault (s.get Obj.MAP_CONTEXT) (s.indexTiles + ((ops.map MapOp.brick).eraseDups).length) = none) :
    (batch job tov ops done).run s = done.run ((if s.u.plan.pending.isSome || decide (s.get Obj.EPOCHS_MAX ≤ s.u.plan.epochs.length) then Act.count 32 Obj.UPDATES_MERGED 1
      else .count 64 Obj.UPDATES_APPLIED 1).run ((applyBatch (s.get Obj.MAP_CONTEXT) tov ops).run s)) := by
  have hin : ¬ (4096 < ops.length ∨ ops.any (fun o => decide (s.bricks ≤ o.brick)) = true) := by
    simpa [not_or] using ⟨hlen, hbricks⟩
  rw [batch, run_read, if_neg hin, if_neg hne]
  simp only
  generalize hl : s.mapLoss s.batchBase _ = l
  obtain rfl : l = none := hl.symm.trans hloss
  rw [h]
  simp only
  rw [run_all_cons, run_all_cons, run_all_cons, run_all_nil]

end

/-- A batch with room for an epoch makes the newest. -/
theorem applyBatch_newest (hslots : ∀ h ∈ (s.newHomes (s.indexTiles + (ops.map MapOp.brick).eraseDups.length)).1, ∃ k, h = .slot k) (hpend : s.u.plan.pending = none)
    (hroom : s.u.plan.epochs.length < s.get Obj.EPOCHS_MAX) (hnext : s.get Obj.EPOCH_NEWEST + 1 < 2 ^ 64) (happlied : s.get Obj.UPDATES_APPLIED + 1 < 2 ^ 64) {c : Nat} {t : State}
    (ht : (Act.count 64 Obj.UPDATES_APPLIED 1).run ((applyBatch c tov ops).run s) = t) :
    t.get Obj.EPOCH_NEWEST = s.get Obj.EPOCH_NEWEST + 1 ∧ t.get Obj.UPDATES_APPLIED = s.get Obj.UPDATES_APPLIED + 1 ∧ Epoch.covers tov ops t.newest s.newest
      ∧ t.get Obj.BRICKS_WRITTEN = t.newest.index.length % 2 ^ 64 ∧ t.u.plan.pending = none ∧ t.log = s.log ∧ t.out = s.out := by
  obtain ⟨w, hw, hrun⟩ := applyBatch_run (c := c) (tov := tov) hslots
  rw [hrun] at ht
  generalize hv : (commitEpoch (s.batchEpoch tov ops)).run w = v at ht
  obtain ⟨hshown, hget, hnewest, hwritten, hvpend⟩ := commitEpoch_newest (by rw [hw.plan, hpend]) (by rw [hw.plan, hw.get _ (by decide)]; exact hroom) (by rw [hw.get _ (by decide)]; exact hnext) hv
  have hbase : v.get Obj.UPDATES_APPLIED = s.get Obj.UPDATES_APPLIED := (hshown.get _ (by decide) (by decide) (by decide) (by decide)).trans (hw.get _ (by decide))
  have hcovers := batchEpoch_covers s tov ops
  rw [State.batchBase, hpend] at hcovers
  have htget (k : Nat) (hk : k ≠ Obj.UPDATES_APPLIED) : t.get k = v.get k := by rw [← ht]; exact run_count_get _ _ _ _ hk
  have htu : t.u = v.u := by rw [← ht]; exact run_count_u ..
  have htnewest : t.newest = s.batchEpoch tov ops := by rw [← hnewest, State.newest, State.newest, htu, htget _ (by decide)]
  refine ⟨?_, ?_, ?_, ?_, by rw [htu]; exact hvpend, ?_, ?_⟩
  · rw [htget _ (by decide), hget, hw.get _ (by decide)]
  · rw [← hbase, ← ht]
    exact run_count_get_self _ _ _ _ (by decide) (by rwa [hbase])
  · rw [htnewest]
    exact hcovers
  · rw [htnewest, htget _ (by decide), hwritten]
  · rw [← ht, run_count_log, hshown.log, hw.log]
  · rw [← ht, run_count_out, hshown.out, hw.out]

/-- A batch without room joins the pending epoch. -/
theorem applyBatch_merged (hslots : ∀ h ∈ (s.newHomes (s.indexTiles + (ops.map MapOp.brick).eraseDups.length)).1, ∃ k, h = .slot k)
    (hfull : s.u.plan.pending ≠ none ∨ s.get Obj.EPOCHS_MAX ≤ s.u.plan.epochs.length) (hmerged : s.get Obj.UPDATES_MERGED + 1 < 2 ^ 32) {c : Nat} {t : State}
    (ht : (Act.count 32 Obj.UPDATES_MERGED 1).run ((applyBatch c tov ops).run s) = t) :
    t.get Obj.UPDATES_MERGED = s.get Obj.UPDATES_MERGED + 1 ∧ (∃ e, t.u.plan.pending = some e ∧ Epoch.covers tov ops e s.batchBase) ∧ t.u.plan.epochs = s.u.plan.epochs
      ∧ t.get Obj.EPOCH_NEWEST = s.get Obj.EPOCH_NEWEST ∧ t.log = s.log ∧ t.out = s.out := by
  obtain ⟨w, hw, hrun⟩ := applyBatch_run (c := c) (tov := tov) hslots
  rw [hrun] at ht
  generalize hv : (commitEpoch (s.batchEpoch tov ops)).run w = v at ht
  obtain ⟨⟨e, he, htov, hindex⟩, hepochs, hobjs, -, hlog, hout⟩ := commitEpoch_pending (by rw [hw.plan, hw.get _ (by decide)]; exact hfull) hv
  have hvget (k : Nat) (hk : k ≠ Obj.MIGRATE_ABORTS) : v.get k = s.get k := by rw [State.get, hobjs]; exact hw.get k hk
  have htu : t.u = v.u := by rw [← ht]; exact run_count_u ..
  refine ⟨?_, ⟨e, by rw [htu]; exact he, ?_⟩, ?_, ?_, ?_, ?_⟩
  · rw [← hvget _ (by decide), ← ht]
    exact run_count_get_self _ _ _ _ (by decide) (by rwa [hvget _ (by decide)])
  · rw [Epoch.covers, htov, hindex]
    exact batchEpoch_covers s tov ops
  · rw [htu, hepochs, hw.plan]
  · rw [← hvget _ (by decide), ← ht]
    exact run_count_get _ _ _ _ (by decide)
  · rw [← ht, run_count_log, hlog, hw.log]
  · rw [← ht, run_count_out, hout, hw.out]

end

/-! ## Clears -/

theorem clearMap_run (s : State) : clearMap.run s = (commitEpoch { tov := s.batchBase.tov, index := [], tiles := [], changed := s.batchBase.index.map (·.1) }).run s := by
  rw [clearMap, run_read]

theorem exec_mapClear {s : State} {ses : Nat} (hses : ses < 16) (hadm : s.admits ses Obj.MAP_CLEAR 1 .sup) : exec (.mapClear ses 1) s = .next ((clearMap.run s.begun).also (replies ses 0)) :=
  exec_guarded_takes (body := mapClear) (decide_eq_true hses) rfl hadm rfl

/-- A run in progress uses the road map of model `n`. -/
abbrev State.roadUsed (s : State) (n : Nat) : Prop := ∃ r ∈ s.u.plan.runs, ∃ y p, Tab.get? s.u.tt.jobs r.1 = some y ∧ y.decl.op = some (.run p) ∧ p.model = n

theorem roadUsed_iff (s : State) (n : Nat) : (s.u.plan.runs.any fun r => match (Tab.get? s.u.tt.jobs r.1).bind (·.decl.op) with
    | some (.run p) => p.model == n
    | _ => false) = true ↔ s.roadUsed n := by
  rw [List.any_eq_true]
  refine exists_congr fun r => and_congr_right fun _ => ?_
  cases hj : Tab.get? s.u.tt.jobs r.1 with
  | none => simp
  | some y =>
    cases hop : y.decl.op with
    | none => simp [hop]
    | some o => cases o <;> simp [hop]

theorem exec_roadmapClear {s : State} {ses n : Nat} (hses : ses < 16) (hn : n < 4) (hadm : s.admits ses (Obj.ROADMAP_CLEAR n) 1 .sup) : exec (.roadmapClear ses n 1) s
    = .next (((if (s.u.plan.runs.any fun r => match (Tab.get? s.u.tt.jobs r.1).bind (·.decl.op) with
      | some (.run p) => p.model == n
      | _ => false) then Act.plan fun y => { y with clearRoad := n :: y.clearRoad.filter (· != n) } else dropRoad n).run s.begun).also (replies ses 0)) :=
  exec_guarded_takes (body := roadmapClear n) (by simp [Wf.roadmapClear, hses, hn]) rfl hadm rfl

/-- Settles O41: batches end with a fault, or make the newest epoch or the pending one of all that they change; clears leave an empty epoch; a road map goes at once or when its last run ends. -/
theorem mapEpochsAdvance : Obligations.MapEpochsAdvance := by
  unfold Obligations.MapEpochsAdvance
  intro s
  refine ⟨fun job tov ops x hwf hx hgroup hphase hdom hop => ?_, fun ses hses hadm => ⟨fun hpend hroom hnext => ?_, fun hfull => ?_⟩, fun ses n hses hn hadm => ⟨fun hunused => ?_, fun hused => ?_⟩⟩
  · have hexec := exec_mapBatchCommit hwf hx hgroup hphase hdom hop
    refine ⟨fun h => ?_, fun h => ?_, fun hne hlen hbricks hloss => ⟨fun d hd => ?_, fun hok hslots => ⟨fun hpend hroom hnext happlied => ?_, fun hfull hmerged => ?_⟩⟩⟩
    · rw [hexec, batch_outside (s := s.sending []) h]
    · subst h
      rw [hexec, batch_empty, batchDone_run]
    · rw [hexec, batch_refused (s := s.sending []) hne hlen hbricks hloss hd]
    · have hroom' : ¬ (((s.sending []).u.plan.pending.isSome || decide ((s.sending []).get Obj.EPOCHS_MAX ≤ (s.sending []).u.plan.epochs.length)) = true) := by
        rw [Bool.or_eq_true, decide_eq_true_iff]
        exact not_or.2 ⟨fun h => Option.isSome_iff_ne_none.1 h hpend, not_le.2 hroom⟩
      have hrun := batch_applied (s := s.sending []) (job := job) (tov := tov) (done := batchDone job x) hne hlen hbricks hloss hok
      rw [if_neg hroom', batchDone_run] at hrun
      rw [hexec, hrun]
      exact ⟨_, rfl, applyBatch_newest (s := s.sending []) (ops := ops) (by rw [sending_newHomes]; exact hslots) hpend hroom hnext happlied rfl⟩
    · have hfull' : ((s.sending []).u.plan.pending.isSome || decide ((s.sending []).get Obj.EPOCHS_MAX ≤ (s.sending []).u.plan.epochs.length)) = true := by
        rw [Bool.or_eq_true, decide_eq_true_iff]
        exact hfull.imp Option.ne_none_iff_isSome.1 id
      have hrun := batch_applied (s := s.sending []) (job := job) (tov := tov) (done := batchDone job x) hne hlen hbricks hloss hok
      rw [if_pos hfull', batchDone_run] at hrun
      rw [hexec, hrun]
      exact ⟨_, rfl, applyBatch_merged (s := s.sending []) (ops := ops) (by rw [sending_newHomes]; exact hslots) hfull hmerged rfl⟩
  · rw [exec_mapClear hses hadm, clearMap_run]
    generalize ht : (commitEpoch _).run s.begun = t
    obtain ⟨hshown, hget, hnewest, hwritten, -⟩ := commitEpoch_newest (s := s.begun) hpend hroom hnext ht
    refine ⟨_, rfl, hget, ?_, ?_, hwritten, hshown.bytes, hshown.log, ?_⟩
    · exact congrArg Epoch.index hnewest
    · refine (congrArg Epoch.tov hnewest).trans ?_
      show s.batchBase.tov = _
      rw [State.batchBase, hpend]
      rfl
    · show t.out ++ _ = _
      rw [hshown.out]
      rfl
  · rw [exec_mapClear hses hadm, clearMap_run]
    generalize ht : (commitEpoch _).run s.begun = t
    obtain ⟨⟨e, he, htov, hindex⟩, hepochs, hobjs, hbytes, hlog, hout⟩ := commitEpoch_pending (s := s.begun) hfull ht
    refine ⟨_, rfl, ⟨e, he, hindex, htov⟩, hepochs, hobjs, hbytes, hlog, ?_⟩
    show t.out ++ _ = _
    rw [hout]
    rfl
  · rw [exec_roadmapClear hses hn hadm, if_neg (mt (roadUsed_iff s n).1 hunused), dropRoad, run_all_cons, run_all_cons, run_all_nil]
    rfl
  · rw [exec_roadmapClear hses hn hadm, if_pos ((roadUsed_iff s n).2 hused)]
    rfl

end Sys2Proof.Machine
end

section
/-! PROOFS. The Drill's moves, tile numbers and host time-outs (R155 to R163, R178, R192). -/

namespace Sys2Proof.Machine

/-! ## What a move accounts -/

section
variable {A : Part → Prop} {R : (Units → Units) → Prop}

/-- What is accounted of a move changes one counter and the Timetable's record. -/
theorem movedFor_within (hobj : ∀ c, A (.obj (Obj.CTX_BYTES_MOVED c))) (hctr : A .ctr) (htt : ∀ f, (Act.tt f).Within A R) (j o : Option Nat) (n : Nat) :
    (movedFor j o n).Within A R := by
  simp only [movedFor, within_read]
  intro s
  split
  · rw [within_all_cons, within_all_cons, within_all_cons, within_all_nil]
    refine ⟨htt _, within_count _ _ _ (hobj _) hctr, ?_, trivial⟩
    split
    · exact htt _
    · trivial
  · trivial

theorem sees_within (htt : ∀ f, (Act.tt f).Within A R) (j n : Nat) : (sees j n).Within A R := by
  simp only [sees, within_read]
  intro s
  split
  · exact (within_when ..).2 fun _ => htt _
  · trivial

end

section
variable (s : State) (j o : Option Nat) (n : Nat)

theorem movedFor_keeps : ((movedFor j o n).run s).bytes = s.bytes ∧ ((movedFor j o n).run s).log = s.log ∧ ((movedFor j o n).run s).out = s.out
    ∧ ((movedFor j o n).run s).u.mem = s.u.mem :=
  ⟨Act.Spares.bytes s (movedFor_within (A := (· ≠ .bytes)) (R := fun _ => True) (fun _ => nofun) nofun (fun _ => trivial) j o n),
    Act.Spares.log s (movedFor_within (A := (· ≠ .log)) (R := fun _ => True) (fun _ => nofun) nofun (fun _ => trivial) j o n),
    Act.Spares.out s (movedFor_within (A := (· ≠ .out)) (R := fun _ => True) (fun _ => nofun) nofun (fun _ => trivial) j o n),
    Act.SparesUnit.unit (f := fun u => u.mem) s
      (movedFor_within (A := fun _ => True) (R := fun g => ∀ u : Units, (g u).mem = u.mem) (fun _ => trivial) trivial (fun _ _ => rfl) j o n)⟩

end

/-- The job that moves bytes has them accounted. -/
theorem movedFor_job {s : State} {j : Nat} {x : Job} (hx : Tab.get? s.u.tt.jobs j = some x) (o : Option Nat) (n : Nat) :
    ∃ z, Tab.get? ((movedFor (some j) o n).run s).u.tt.jobs j = some z ∧ z.bytes = x.bytes + n := by
  have hspend (d : Nat) (t : State) : ((spend d j n).run t).u.tt.jobs = t.u.tt.jobs := by
    show (match Tab.get? t.u.tt.jobs j with
      | some x => { t.u.tt with spent := Tab.upd t.u.tt.spent (d * 4294967296 + j) (x.ctx, x.run, 0) (fun e => (e.1, e.2.1, e.2.2 + n)) }
      | none => t.u.tt).jobs = _
    split <;> rfl
  rw [movedFor, run_read]
  simp only [Option.bind_some, hx, Option.map_some]
  rw [run_all_cons, run_all_cons, run_all_cons, run_all_nil, run_job_of_get? hx]
  refine ⟨{ x with bytes := x.bytes + n }, ?_, rfl⟩
  generalize ha : (Act.count 64 (Obj.CTX_BYTES_MOVED x.ctx) n).run _ = a
  have hjobs : Tab.get? a.u.tt.jobs j = some { x with bytes := x.bytes + n } := by
    rw [← ha, run_count_u]
    exact (Tab.get?_set ..).trans (if_pos rfl)
  split
  · rw [hspend]
    exact hjobs
  · exact hjobs

/-! ## Moves of a job -/

section
variable {s : State} {m : Move} {j : Nat} {x : Job} (hwf : Wf.drillMoveDone m = true) (hj : m.job = some j) (hx : Tab.get? s.u.tt.jobs j = some x) (hbytes : m.bytes ≠ 0)
include hwf hj hx hbytes

theorem exec_drillMoveDone_fault {st d : Nat} (hfault : s.moveFault x m = some (st, d)) (hd : d ≠ 0x0430) : exec (.drillMoveDone m) s = .next ((s.sending []).ended j st d).told := by
  have hx' : Tab.get? s.begun.u.tt.jobs j = some x := hx
  have hfault' : s.begun.moveFault x m = some (st, d) := hfault
  refine (need_next s hwf _).trans (congrArg Host.Outcome.next ?_)
  rw [run_read, run_all_cons, run_all_cons, run_all_nil, hj]
  simp only [hx']
  rw [if_neg hbytes, hfault']
  simp only
  rw [run_all_cons, run_all_cons, run_all_nil, run_when_false (beq_eq_false_iff_ne.2 hd)]
  rfl

variable (hfault : s.moveFault x m = none) (hnamed : s.hostNamed x m m.toHost = true) (hbarrier : m.barrier = none)
include hfault hnamed hbarrier

/-- A move that nothing stops, issued before no arrival. -/
theorem exec_drillMoveDone : exec (.drillMoveDone m) s = .next ((if m.host.isSome ∧ m.side ≠ .home then Act.all [
      movedFor (some j) none m.bytes,
      if m.write then (match m.host with
        | some a => toHost j a (s.brings m)
        | none => .skip)
      else lands m m.data,
      .skip]
    else if m.write then .all [
      encoded (tileNo m.tile) { m with data := s.brings m } (movedFor (some j) (some (tileNo m.tile))),
      .job j (fun y => { y with output := true, seen := Tab.del y.seen (tileNo m.tile) }),
      .skip]
    else .all [readTile m (tileNo m.tile), .skip]).run s.begun).told := by
  have hx' : Tab.get? s.begun.u.tt.jobs j = some x := hx
  have hfault' : s.begun.moveFault x m = none := hfault
  have hnamed' : ¬ ¬ s.begun.hostNamed x m m.toHost = true := not_not.2 hnamed
  refine (need_next s hwf _).trans (congrArg Host.Outcome.next ?_)
  rw [run_read, run_all_cons, run_all_cons, run_all_nil, hj]
  simp only [hx', hbarrier]
  rw [if_neg hbytes, hfault']
  simp only
  rw [if_neg hbytes, if_neg hnamed']
  rfl

/-- Bytes that arrive from the host lie where they land. -/
theorem drillMoveDone_lands {a : Nat} {p : Place} (hhost : m.host = some a) (hwrite : m.write = false) (hside : m.side = .place p) :
    ∃ u : State, exec (.drillMoveDone m) s = .next u.told ∧ u.bytes = Memory.writeAll s.bytes (p.addr m.field) (m.data.take m.bytes) ∧ u.log = s.log ∧ u.out = [] := by
  have hmoved : m.host.isSome = true ∧ m.side ≠ .home := by
    rw [hhost, hside]
    exact ⟨rfl, nofun⟩
  obtain ⟨hb, hl, ho, -⟩ := movedFor_keeps s.begun (some j) none m.bytes
  refine ⟨_, exec_drillMoveDone hwf hj hx hbytes hfault hnamed hbarrier, ?_⟩
  rw [if_pos hmoved, hwrite, if_neg Bool.false_ne_true, lands, hside, run_all_cons, run_all_cons, run_all_cons, run_all_nil]
  generalize (movedFor (some j) none m.bytes).run s.begun = u at *
  exact ⟨congrArg (fun b => Memory.writeAll b (p.addr m.field) (m.data.take m.bytes)) hb, hl, ho⟩

/-- A whole tile written to its slot. -/
theorem drillMoveDone_writes {k : Nat} {y : Tile} (hy : Tab.get? s.u.mem.tiles (tileNo m.tile) = some y) (hhome : y.home = .slot k) (hside : m.side = .home) (hwrite : m.write = true)
    (hhost : m.host = none) (hcompress : m.compress = false) (hlen : m.data.length = 4096) (hrep : y.replica = none) (hseed : s.get Obj.SEED_STOCK_EN = 0) (hapart : s.disjointAt y.home) :
    ∃ u : State, exec (.drillMoveDone m) s = .next u.told ∧ u.mread (s.slotAddr k) 4096 = m.data
      ∧ (∀ a, (a < s.slotAddr k ∨ s.slotAddr k + 4096 ≤ a) → (a < s.tagAddr k ∨ s.tagAddr k + 32 ≤ a) → Memory.read u.bytes a = Memory.read s.bytes a)
      ∧ (∃ z, Tab.get? u.u.mem.tiles (tileNo m.tile) = some z ∧ z.gen = (y.gen + 1) % 2 ^ 32 ∧ z.lost = none ∧ z.home = y.home) ∧ u.log = s.log ∧ u.out = [] := by
  have hbrings : s.brings m = m.data := by rw [State.brings, hside]
  refine ⟨_, exec_drillMoveDone hwf hj hx hbytes hfault hnamed hbarrier, ?_⟩
  rw [if_neg (by rw [hhost]; exact fun h => Bool.false_ne_true h.1), hwrite, if_pos rfl, hbrings, run_all_cons, run_all_cons, run_all_cons, run_all_nil, encoded, run_read,
    if_pos (.inl (by rw [hcompress]; exact Bool.false_ne_true)), run_all_cons, run_all_cons, run_all_nil]
  obtain ⟨w, hw⟩ : ∃ w, (storeTile (tileNo m.tile) m.tag m.data true).run s.begun = w := ⟨_, rfl⟩
  have hwrite' : (writeTile (tileNo m.tile) m.tag m.data).run s.begun = w := (writeTile_whole hlen).trans hw
  rw [hwrite']
  have hstored := storeTile_stored (s := s.begun) (x := y) hy (.inl hseed) hw
  obtain ⟨hlog, hout, z, hz, hgen, hlost, hzhome, -⟩ := hstored.slot k hhome
  obtain ⟨hb, hl, ho, hm⟩ := movedFor_keeps w (some j) (some (tileNo m.tile)) m.bytes
  generalize (movedFor (some j) (some (tileNo m.tile)) m.bytes).run w = u at *
  show u.mread _ _ = _ ∧ (∀ a, _ → _ → Memory.read u.bytes a = _) ∧ (∃ z, Tab.get? u.u.mem.tiles _ = some z ∧ _) ∧ u.log = _ ∧ u.out = _
  rw [hm, hl, ho, hlog, hout hrep, State.mread, hb]
  refine ⟨?_, fun a hdata htag => ?_, ⟨z, hz, hgen, hlost, hzhome⟩, rfl, rfl⟩
  · have hinside := hstored.inside hrep hlen hapart
    rw [hhome] at hinside
    exact hinside
  · rw [hstored.bytes, hrep]
    exact homeWritten_outside (s := s.begun) (by rw [hlen, hhome]; exact hdata) (by rw [storedTag_length, hhome]; exact htag)

end

/-! ## Reads to the host -/

/-- What is sent to the host of a job's output. -/
theorem toHost_run {s : State} {j a : Nat} {bs : List Byte} {x : Job} (hx : Tab.get? s.u.tt.jobs j = some x) {t : State} (ht : (toHost j a bs).run s = t) :
    t.out = s.out ++ [.hostWrite a bs] ∧ t.bytes = s.bytes ∧ t.log = s.log ∧ Tab.get? t.u.tt.jobs j = some { x with output := true } := by
  rw [toHost, run_read, hx] at ht
  simp only at ht
  rw [run_all_cons, run_all_cons, run_all_cons, run_all_nil] at ht
  have hx' : Tab.get? ((Act.emit (.hostWrite a bs)).run s).u.tt.jobs j = some x := hx
  rw [run_job_of_get? hx'] at ht
  have hjobs : Tab.get? t.u.tt.jobs j = some { x with output := true } := by
    rw [← ht]
    show Tab.get? (match Tab.get? s.u.tt.runs x.run with
      | some r => { s.u.tt with jobs := Tab.set s.u.tt.jobs j { x with output := true }, runs := Tab.set s.u.tt.runs x.run { r with sent := (a, bs) :: r.sent } }
      | none => { s.u.tt with jobs := Tab.set s.u.tt.jobs j { x with output := true } }).jobs j = _
    split <;> exact (Tab.get?_set ..).trans (if_pos rfl)
  refine ⟨?_, ?_, ?_, hjobs⟩ <;> rw [← ht] <;> rfl

theorem sees_run {s : State} {j n : Nat} {x : Job} {y : Tile} (hx : Tab.get? s.u.tt.jobs j = some x) (hy : Tab.get? s.u.mem.tiles n = some y) (hseen : Tab.get? x.seen n = none) :
    (sees j n).run s = s.withTt fun r => { r with jobs := Tab.set r.jobs j { x with seen := Tab.set x.seen n ⟨y.gen, s.homeTag y.home, s.homeData y.home⟩ } } := by
  rw [sees, run_read, hx, hy]
  simp only [hseen]
  rfl

/-- A read of a plain whole tile gives the host its bytes. -/
theorem readGives_run {s t : State} {m : Move} {j a n : Nat} {x : Job} {y : Tile} (hj : m.job = some j) (hx : Tab.get? s.u.tt.jobs j = some x) (hy : Tab.get? s.u.mem.tiles n = some y)
    (hlost : y.lost = none) (hjoined : m.joined = []) (hseen : Tab.get? x.seen n = none) (hplain : bit (tagByte (s.homeTag y.home) 2) 1 = false) (hhost : m.host = some a)
    (hside : m.side = .home) (hcompress : m.compress = false) (ht : (readGives m n).run s = t) :
    t.out = s.out ++ [.hostWrite a ((s.homeData y.home).take (min m.bytes 4096))] ∧ t.bytes = s.bytes ∧ t.log = s.log
      ∧ ∃ z, Tab.get? t.u.tt.jobs j = some z ∧ z.output = true ∧ z.bytes = x.bytes + min m.bytes 4096 := by
  rw [readGives, run_read, hy] at ht
  simp only at ht
  rw [if_neg (by rw [hlost]; exact Bool.false_ne_true), hj, hjoined, run_all_cons, run_all_cons, run_all_nil] at ht
  change Act.run _ ((Act.each [j] fun j => sees j n).run s) = t at ht
  rw [run_each_cons, run_each_nil, sees_run hx hy hseen, run_read] at ht
  -- the first fetch is what the job sees
  generalize hb : s.withTt _ = b at ht
  have hbx : Tab.get? b.u.tt.jobs j = some { x with seen := Tab.set x.seen n ⟨y.gen, s.homeTag y.home, s.homeData y.home⟩ } := by
    rw [← hb]
    exact (Tab.get?_set ..).trans (if_pos rfl)
  have hsees : b.seenBy j n = (s.homeTag y.home, s.homeData y.home) := by
    rw [State.seenBy, hbx, Option.bind_some, Tab.get?_set, if_pos rfl]
  have hbkeeps : b.out = s.out ∧ b.bytes = s.bytes ∧ b.log = s.log := by
    rw [← hb]
    exact ⟨rfl, rfl, rfl⟩
  clear hb
  simp only [hsees, hplain] at ht
  rw [run_all_cons, run_all_cons, run_all_cons, run_all_cons, run_all_nil, run_when_false rfl, lands, hside, hhost] at ht
  simp only at ht
  rw [if_neg Bool.false_ne_true, if_neg (by rw [hcompress]; exact fun h => Bool.false_ne_true h.1)] at ht
  obtain ⟨z, hz, hzbytes⟩ := movedFor_job hbx (some n) (min m.bytes (movedBytes false (s.homeData y.home)))
  obtain ⟨hcbytes, hclog, hcout, -⟩ := movedFor_keeps b (some j) (some n) (min m.bytes (movedBytes false (s.homeData y.home)))
  generalize (movedFor (some j) (some n) (min m.bytes (movedBytes false (s.homeData y.home)))).run b = c at *
  rw [run_when_true (show (MoveSide.home == MoveSide.home) = true from rfl)] at ht
  obtain ⟨hout, htbytes, hlog, hjob⟩ := toHost_run hz ht
  exact ⟨by rw [hout, hcout, hbkeeps.1], by rw [htbytes, hcbytes, hbkeeps.2.1], by rw [hlog, hclog, hbkeeps.2.2], _, hjob, rfl, hzbytes⟩

theorem drillMoveDone_reads {s : State} {m : Move} {j a k : Nat} {x : Job} {y : Tile} (hwf : Wf.drillMoveDone m = true) (hj : m.job = some j) (hx : Tab.get? s.u.tt.jobs j = some x)
    (hbytes : m.bytes ≠ 0) (hfault : s.moveFault x m = none) (hnamed : s.hostNamed x m m.toHost = true) (hbarrier : m.barrier = none)
    (hy : Tab.get? s.u.mem.tiles (tileNo m.tile) = some y) (hhome : y.home = .slot k) (hside : m.side = .home) (hwrite : m.write = false) (herr : m.err = .none) (hhost : m.host = some a)
    (hcompress : m.compress = false) (hjoined : m.joined = []) (hlost : y.lost = none) (hseen : Tab.get? x.seen (tileNo m.tile) = none)
    (hplain : bit (tagByte (s.homeTag y.home) 2) 1 = false) (hcheck : ofLe ((s.homeTag y.home).drop 28) = crc32c (s.homeData y.home)) :
    ∃ u : State, exec (.drillMoveDone m) s = .next u.told ∧ u.out = [.hostWrite a ((s.mread (s.slotAddr k) 4096).take (min m.bytes 4096))]
      ∧ (∃ z, Tab.get? u.u.tt.jobs j = some z ∧ z.output = true ∧ z.bytes = x.bytes + min m.bytes 4096) ∧ u.bytes = s.bytes ∧ u.log = s.log := by
  refine ⟨_, exec_drillMoveDone hwf hj hx hbytes hfault hnamed hbarrier, ?_⟩
  have hread : (readTile m (tileNo m.tile)).run s.begun = (readGives m (tileNo m.tile)).run s.begun := by
    have hy' : Tab.get? s.begun.u.mem.tiles (tileNo m.tile) = some y := hy
    have hwhole : (ofLe ((s.begun.homeTag (.slot k)).drop 28) == crc32c (s.begun.homeData (.slot k)) && (!bit (tagByte (s.begun.homeTag (.slot k)) 2) 1 || codecOk (s.begun.homeData (.slot k)))) = true := by
      rw [Bool.and_eq_true, beq_iff_eq, Bool.or_eq_true, Bool.not_eq_true', ← hhome]
      exact ⟨hcheck, .inl hplain⟩
    rw [readTile, run_read, hy']
    simp only [hlost, herr, hhome]
    rw [if_pos hwhole]
  rw [if_neg (fun h => h.2 hside), hwrite, if_neg Bool.false_ne_true, run_all_cons, run_all_cons, run_all_nil, hread]
  obtain ⟨hout, hb, hl, hz⟩ := readGives_run (s := s.begun) hj hx hy hlost hjoined hseen hplain hhost hside hcompress rfl
  rw [hhome] at hout
  exact ⟨hout, hz, hb, hl⟩

/-! ## Tile numbers -/

theorem run_each_freeTile (xs : List Nat) : ∀ s : State, (Act.each xs freeTile).run s = s.tilesFreed xs := by
  induction xs with
  | nil => exact fun _ => rfl
  | cons x xs ih =>
    intro s
    rw [run_each_cons, ih]
    rfl

theorem tilesFreed_get? (xs : List Nat) (k : Nat) : ∀ s : State, Tab.get? (s.tilesFreed xs).u.mem.tiles k = if k ∈ xs then none else Tab.get? s.u.mem.tiles k := by
  induction xs with
  | nil => exact fun _ => rfl
  | cons x xs ih =>
    intro s
    have hfirst : Tab.get? ((freeTile x).run s).u.mem.tiles k = if k = x then none else Tab.get? s.u.mem.tiles k := Tab.get?_del ..
    show Tab.get? (State.tilesFreed ((freeTile x).run s) xs).u.mem.tiles k = _
    rw [ih, hfirst]
    by_cases hk : k = x
    · simp [hk]
    · simp [hk]

theorem tilesFreed_keeps (xs : List Nat) (s : State) : (s.tilesFreed xs).objs = s.objs ∧ (s.tilesFreed xs).log = s.log ∧ (s.tilesFreed xs).out = s.out := by
  rw [← run_each_freeTile]
  obtain ⟨hobjs, -, hlog, hout, -⟩ := freeTiles_keeps xs s
  exact ⟨hobjs, hlog, hout⟩

/-- What an allocation leaves: the new tiles, every other tile, the objects and the log; it sends nothing where they lie in this module. -/
theorem allocTiles_run {s t : State} {c n : Nat} (hlen : (s.newHomes n).1.length = n) (ht : (allocTiles c n).run s = t) :
    (∀ i < n, ∃ y, Tab.get? t.u.mem.tiles (s.freeNumbers n + i) = some y ∧ y.ctx = c ∧ y.lost = none ∧ y.replica = none)
      ∧ (∀ i, (i < s.freeNumbers n ∨ s.freeNumbers n + n ≤ i) → Tab.get? t.u.mem.tiles i = Tab.get? s.u.mem.tiles i)
      ∧ t.objs = s.objs ∧ t.log = s.log ∧ ((∀ h ∈ (s.newHomes n).1, ∃ k, h = .slot k) → t.out = s.out) := by
  have hout : (∀ h ∈ (s.newHomes n).1, ∃ k, h = .slot k) → t.out = s.out := fun h => by
    rw [← ht]
    exact (allocTiles_written h).1.out
  rw [allocTiles, run_read] at ht
  simp only at ht
  rw [run_all_cons, run_all_cons, run_all_nil] at ht
  generalize hnew : (List.range n).zip (s.newHomes n).1 = new at ht
  generalize hw : (Act.mem _).run s = w at ht
  have hkeys : new.map (fun e => s.freeNumbers n + e.1) = (List.range n).map (s.freeNumbers n + ·) := by
    rw [← hnew, show (fun e : Nat × Home => s.freeNumbers n + e.1) = (s.freeNumbers n + ·) ∘ Prod.fst from rfl, ← List.map_map, List.map_fst_zip (by rw [List.length_range, hlen])]
  have hmem (i : Nat) : i ∈ new.map (fun e => s.freeNumbers n + e.1) ↔ s.freeNumbers n ≤ i ∧ i < s.freeNumbers n + n := by
    rw [hkeys, List.mem_map]
    constructor
    · rintro ⟨a, ha, rfl⟩
      have := List.mem_range.1 ha
      omega
    · rintro ⟨h1, h2⟩
      exact ⟨i - s.freeNumbers n, List.mem_range.2 (by omega), by omega⟩
  have hset (i : Nat) := Tab.get?_foldl_set (fun e : Nat × Home => s.freeNumbers n + e.1) (fun _ e => ({ ctx := c, home := e.2, tag := ownerTag c } : Tile)) new s.u.mem.tiles i
  have hnewTile := Tab.foldl_set_forall (fun e : Nat × Home => s.freeNumbers n + e.1) (fun _ e => ({ ctx := c, home := e.2, tag := ownerTag c } : Tile))
    (P := fun k (y : Tile) => s.freeNumbers n ≤ k ∧ k < s.freeNumbers n + n → y.ctx = c ∧ y.lost = none ∧ y.replica = none) new s.u.mem.tiles
    (fun k a ha hk => by
      have hnone := freeNumbers_free s n (i := k - s.freeNumbers n) (by omega)
      rw [Nat.add_sub_cancel' hk.1, ha] at hnone
      cases hnone)
    (fun _ _ _ _ => ⟨rfl, rfl, rfl⟩)
  have hwtiles : w.u.mem.tiles = new.foldl (fun t e => Tab.set t (s.freeNumbers n + e.1) ({ ctx := c, home := e.2, tag := ownerTag c } : Tile)) s.u.mem.tiles := by rw [← hw]; rfl
  have htiles : t.u.mem.tiles = w.u.mem.tiles := by
    rw [← ht]
    exact run_each_keeps (fun t => t.u.mem.tiles) _ new (fun e _ u => Act.SparesUnit.unit (f := fun u => u.mem.tiles) u (zeroHome_within _ _ _ trivial trivial fun _ _ => rfl)) w
  have hobjs : t.objs = w.objs := by
    rw [← ht]
    exact run_each_keeps (fun t => t.objs) _ new (fun e _ u => Act.objs_of_within (zeroHome_within (R := fun _ => True) _ _ _ nofun nofun fun _ => trivial) u) w
  have hlog : t.log = w.log := by
    rw [← ht]
    exact run_each_keeps (fun t => t.log) _ new (fun e _ u => Act.Spares.log u (zeroHome_within (A := (· ≠ .log)) (R := fun _ => True) _ _ _ nofun nofun fun _ => trivial)) w
  refine ⟨fun i hi => ?_, fun i hi => ?_, by rw [hobjs, ← hw]; rfl, by rw [hlog, ← hw]; rfl, hout⟩
  · have hin : s.freeNumbers n ≤ s.freeNumbers n + i ∧ s.freeNumbers n + i < s.freeNumbers n + n := by omega
    obtain ⟨y, hy⟩ := Option.isSome_iff_exists.1 ((hset (s.freeNumbers n + i)).1.2 (.inr ((hmem _).2 hin)))
    exact ⟨y, by rw [htiles, hwtiles]; exact hy, hnewTile _ y hy hin⟩
  · rw [htiles, hwtiles]
    exact (hset i).2 fun h => by have := (hmem i).1 h; omega

theorem exec_tileNumberAllocation {s : State} {job n : Nat} {freed : List Nat} {x : Job} (hx : Tab.get? s.u.tt.jobs job = some x) : exec (.tileNumberAllocation job n freed) s
    = .next ((match ((s.sending []).tilesFreed (freed.filter (s.mayFree x.ctx))).allocFault x.ctx n with
      | some d => endJob job St.CONFIG_INVALID d 0 0
      | none => allocTiles x.ctx n).run ((s.sending []).tilesFreed (freed.filter (s.mayFree x.ctx)))).told := by
  have hx' : Tab.get? s.begun.u.tt.jobs job = some x := hx
  refine (need_next s rfl _).trans (congrArg Host.Outcome.next ?_)
  rw [run_read, run_all_cons, run_all_cons, run_all_nil, hx']
  simp only
  rw [run_all_cons, run_all_cons, run_all_nil, run_each_freeTile]
  rfl

theorem exec_hostCompletionTimeout (s : State) (job : Nat) : exec (.hostCompletionTimeout job) s = .next ((endJob job St.ACCESS_DENIED 0x0431 0 0).run s.begun).told := by
  refine (need_next s rfl _).trans (congrArg Host.Outcome.next ?_)
  rw [run_all_cons, run_all_cons, run_all_nil]
  rfl

/-- Settles O18: moves of a job that end it, read a tile to the host, write one, or land bytes; tile numbers freed and allocated; a host read without its completion. -/
theorem tilesMove : Obligations.TilesMove := by
  unfold Obligations.TilesMove
  refine ⟨fun s m j x hwf hj hx hbytes => ⟨fun st d hfault hd => exec_drillMoveDone_fault hwf hj hx hbytes hfault hd, fun hfault hnamed hbarrier => ⟨fun k y hy hhome hside => ⟨?_, ?_⟩, ?_⟩⟩,
    fun s job x hx => ⟨fun n freed => ⟨fun k => ?_, fun d hd => ?_, fun hok hlen => ?_⟩, ?_⟩⟩
  · intro a hwrite herr hhost hcompress hjoined hlost hseen hplain hcheck
    exact drillMoveDone_reads hwf hj hx hbytes hfault hnamed hbarrier hy hhome hside hwrite herr hhost hcompress hjoined hlost hseen hplain hcheck
  · intro hwrite hhost hcompress hlen _ hrep hseed hapart
    exact drillMoveDone_writes hwf hj hx hbytes hfault hnamed hbarrier hy hhome hside hwrite hhost hcompress hlen hrep hseed hapart
  · intro a p hhost hwrite hside
    exact drillMoveDone_lands hwf hj hx hbytes hfault hnamed hbarrier hhost hwrite hside
  · rw [tilesFreed_get?]
    refine if_congr ?_ rfl rfl
    rw [List.mem_filter, Bool.and_eq_true, List.contains_iff_mem]
  · rw [exec_tileNumberAllocation hx, hd]
    rfl
  · rw [exec_tileNumberAllocation hx, hok]
    obtain ⟨hobjs, hlog, hout⟩ := tilesFreed_keeps (freed.filter (s.mayFree x.ctx)) (s.sending [])
    obtain ⟨hnew, hothers, hobjs', hlog', hout'⟩ := allocTiles_run (c := x.ctx) hlen rfl
    exact ⟨_, rfl, hnew, hothers, hobjs'.trans hobjs, hlog'.trans hlog, fun h => (hout' h).trans hout⟩
  · exact ⟨_, exec_hostCompletionTimeout s job, endJob_jobEnded (s := s.begun) (Option.isSome_iff_exists.2 ⟨x, hx⟩) _ _ _ _⟩

end Sys2Proof.Machine
end

section
/-! PROOFS. Edits of a sequence whose number a directory of another context names (R235, R262). -/

namespace Sys2Proof.Machine

/-- Session 2 asks for length 2 of sequence 65536 of context 0, on which these walks are latched: its descriptor is that of sequence 0 of context 1, whose directory tile lies on a lease. -/
def editBeyond (walks : List Walk) : State :=
  (State.reset.puts [(Obj.DEVICE_STATE, 3), (Obj.TRANSPORT 2, 3), (Obj.LEVEL 2, 1), (Obj.ADMIT_SESSIONS 0, 4), (Obj.EDIT_OP 2, 3), (Obj.EDIT_SEQUENCE 2, 65536), (Obj.EDIT_LENGTH 2, 2),
    (Obj.DEFERRED_LIMIT, 4), (Obj.SEQ_ROOT 1, 196608)]).withUnits fun u => { u with
    seq := { u.seq with seqs := [(65536, { length := 6 })], walks := walks }, mem := { u.mem with tiles := [(3, { ctx := 1, home := .lease 1 0 })] } }

/-- The edit that session 2 asks for. -/
def editBeyondReq : EditReq :=
  { ctx := 0, seq := 65536, page := 0, head := 0, length := 2, force := false, k := 0, v := 0, formats := 0, geometry := 0, books := [0, 0, 0, 0], ses := some 2, job := none }

/-- Context 0 has no directory. -/
theorem beyond_seqDir (walks : List Walk) : (editBeyond walks).seqDir 0 65536 = none := by
  have hroot : (editBeyond walks).get (Obj.SEQ_ROOT 0) = 0 := (show (editBeyond []).get (Obj.SEQ_ROOT 0) = 0 by decide +kernel)
  rw [State.seqDir, hroot]
  rfl

/-- Refutes O37: nothing keeps `EDIT_SEQUENCE` in its range in every state; the descriptor of sequence 65536 of context 0 goes to a directory tile of context 1, whose lender is sent a frame before the reply. -/
theorem not_sequencesAreEdited : ¬ Obligations.SequencesAreEdited := by
  unfold Obligations.SequencesAreEdited
  intro h
  obtain ⟨-, -, -, hopen⟩ := h (editBeyond []) (.ses 2) 3 editBeyondReq [.reply 2 0 []] (by decide +kernel) (by decide +kernel) nofun (fun d hd => nomatch (beyond_seqDir _).symm.trans hd)
  obtain ⟨-, -, -, hlength, -⟩ := hopen { length := 6 } (by decide +kernel) rfl rfl
  obtain ⟨t, ht, ⟨-, -, -, -, hout⟩, -⟩ := hlength rfl (.inr ⟨by decide +kernel, by decide +kernel⟩)
  have hfirst := (congrArg firstSent ht).trans (firstSent_told hout)
  exact absurd hfirst (by decide +kernel)

/-- Refutes O38: so it is with an edit that a walk stands in the way of. -/
theorem not_editsWaitForWalks : ¬ Obligations.EditsWaitForWalks := by
  unfold Obligations.EditsWaitForWalks
  intro h
  obtain ⟨hwaits, -⟩ := h (editBeyond [⟨4, 65536, 6, 0⟩])
  obtain ⟨hdeferred, -⟩ := hwaits (.ses 2) editBeyondReq [.reply 2 0 []] { length := 6 } (by decide +kernel) (by decide +kernel) rfl rfl rfl (by decide) (by decide +kernel)
    (fun d hd => nomatch (beyond_seqDir _).symm.trans hd)
  obtain ⟨t, ht, -, hout, -⟩ := hdeferred (by decide +kernel)
  have hfirst := (congrArg firstSent ht).trans (firstSent_told hout)
  exact absurd hfirst (by decide +kernel)

end Sys2Proof.Machine
end

section
/-! PROOFS. Fields go fallow and come back, and background work in them (R125, R133, R144 to R148, R179). -/

namespace Sys2Proof.Machine

section
variable {s : State} {f : Nat}

/-! ## Going fallow -/

theorem beginFallow_replaced {g : Nat} {faulty : Bool} (h : s.spareField = some g) :
    (beginFallow f faulty).run s = (s.puts [(Obj.FALLOW_STATUS f, 1), (Obj.DOM_STATE g, 1)]).withField f fun r => { r with takeover := some g, faulty := faulty } := by
  rw [beginFallow, run_read, h]
  rfl

/-- A field that no job lies on has nothing to move. -/
theorem evacuate_idle (h : s.jobsOn f = []) : (evacuate f).run s = s := by
  rw [evacuate, run_read]
  cases s.replacement f with
  | none => rfl
  | some g => exact congrArg (fun l => (Act.each l _).run s) h

theorem fallowRequest_put (h : s.putRefused f = false) : fallowRequest f 1 s = .ok (beginFallow f false) :=
  (if_pos rfl).trans (if_neg (by rw [h]; decide))

theorem fallowRequest_return (hrole : s.get (Obj.FIELD_ROLE f) = 2) (hstatus : s.get (Obj.FALLOW_STATUS f) = 2) :
    fallowRequest f 2 s = .ok (.all [.put (Obj.FALLOW_STATUS f) 3, .put (Obj.DOM_STATE f) 1]) :=
  (if_neg (by decide)).trans (if_pos ⟨hrole, hstatus⟩)

theorem activeMask_lt (retired : Nat) : activeMask retired < 2 ^ 64 := by
  have hsum : activeMask retired = ((((List.range 34).filter fun i => !bit retired i).take 32).map (2 ^ ·)).sum := by
    rw [activeMask, List.sum_eq_foldl, List.foldl_map]
  have hsub : (((List.range 34).filter fun i => !bit retired i).take 32).Sublist (List.range 34) := (List.take_sublist 32 _).trans List.filter_sublist
  have hle := (hsub.map (2 ^ ·)).sum_le_sum (fun _ _ => Nat.zero_le _)
  rw [hsum]
  exact hle.trans_lt (by decide)

/-- `s` after spare field `f` took the role of another. -/
def State.tookRole (s : State) (f : Nat) : State :=
  ((s.puts [(Obj.FIELD_ROLE f, 0), (Obj.ENGINE_ACTIVE_MASK f, activeMask (s.get (Obj.ENGINE_RETIRED_MASK f))), (Obj.DOM_STATE f, 2)]).withField f
    fun r => { r with idleSince := s.time }).counted 32 Obj.SUBSTITUTIONS 1

theorem tookRole_u (s : State) (f : Nat) :
    (s.tookRole f).u = (s.withField f fun r => { r with idleSince := s.time }).u :=
  run_count_u ((s.puts _).withField f _) 32 Obj.SUBSTITUTIONS 1

theorem exec_spareFieldReady {e : Nat × FieldS} (hf : f < 66) (he : s.u.fields.find? (fun e => decide (e.2.takeover = some f)) = some e)
    (hrole : s.get (Obj.FIELD_ROLE f) = 1) (hjobs : s.jobsOn e.1 = []) : exec (.spareFieldReady f) s = .next (s.begun.tookRole f).told := by
  have hleft : (s.begun.tookRole f).jobsOn e.1 = [] := by
    rw [State.jobsOn, State.placedJobs, tookRole_u]
    exact hjobs
  refine (need_read_told s (decide_eq_true hf) _).trans (congrArg (fun t : State => Host.Outcome.next t.told) ?_)
  rw [show s.begun.u.fields.find? _ = _ from he]
  refine (run_when_true (beq_iff_eq.2 hrole) _ _).trans ?_
  rw [run_all_cons, run_all_cons, run_all_cons, run_all_cons, run_all_cons, run_all_cons, run_all_nil]
  exact evacuate_idle hleft

/-! ## The self-test on return -/

/-- One more failing line: its bank's next spare row takes its place, or it stays marked. -/
def spareRow (acc : Tab Nat × List Nat) (l : Nat) : Tab Nat × List Nat :=
  if Tab.at acc.1 (storeBank (64 * l)) 0 < 8 then (Tab.upd acc.1 (storeBank (64 * l)) 0 (· + 1), acc.2) else (acc.1, acc.2 ++ [l])

/-- What of field `f`'s lines is mapped, and what stays marked, with the lines `found` now. -/
def State.rowsMapped (s : State) (f : Nat) (found : List Nat) : Tab Nat × List Nat :=
  ((s.fieldRec f).badLines ++ found).eraseDups.foldl spareRow ((s.fieldRec f).spared, [])

/-- A line stays marked only where its bank has no spare row left. -/
def BanksFull (acc : Tab Nat × List Nat) : Prop := ∀ l ∈ acc.2, ¬ Tab.at acc.1 (storeBank (64 * l)) 0 < 8

theorem spareRow_full {acc : Tab Nat × List Nat} (h : BanksFull acc) (l : Nat) : BanksFull (spareRow acc l) := by
  intro m hm
  unfold spareRow at hm ⊢
  split
  case isTrue hroom =>
    rw [if_pos hroom] at hm
    have hfull := h m hm
    rw [Tab.at_upd]
    split
    case isTrue hbank => rw [← hbank] at hroom; exact absurd hroom hfull
    case isFalse => exact hfull
  case isFalse hfull =>
    rw [if_neg hfull] at hm
    rcases List.mem_append.1 hm with hm | hm
    · exact h m hm
    · rwa [List.mem_singleton.1 hm]

theorem rowsMapped_full (s : State) (f : Nat) (found : List Nat) : BanksFull (s.rowsMapped f found) := by
  unfold State.rowsMapped
  generalize ((s.fieldRec f).badLines ++ found).eraseDups = ls
  have hfrom : ∀ (ls : List Nat) (acc : Tab Nat × List Nat), BanksFull acc → BanksFull (ls.foldl spareRow acc) := by
    intro ls
    induction ls with
    | nil => exact fun _ h => h
    | cons l ls ih => exact fun acc h => ih _ (spareRow_full h l)
  exact hfrom ls _ (fun _ hl => absurd hl List.not_mem_nil)

theorem mapRows_run (s : State) (f : Nat) (found : List Nat) :
    (mapRows f found).run s = ((s.withField f fun x => { x with spared := (s.rowsMapped f found).1, badLines := (s.rowsMapped f found).2 }).putObj (Obj.ROWS_SPARED f)
      ((s.rowsMapped f found).1.foldl (fun a e => a + e.2) 0)).putObj (Obj.ROWS_MARKED f) (s.rowsMapped f found).2.length := by
  rw [mapRows, run_read]
  rfl

/-- `s` after field `f`, back from fallow, passed its self-test. -/
def State.backTested (s : State) (f bad : Nat) (rows : List Nat) : State :=
  (((mapRows f rows).run (s.putObj (Obj.ENGINE_RETIRED_MASK f) (s.get (Obj.ENGINE_RETIRED_MASK f) ||| bad))).withField f
    fun r => { r with tested := true, calib := [], idleSince := s.time }).puts [(Obj.FALLOW_STATUS f, 0), (Obj.FIELD_ROLE f, 1), (Obj.DOM_STATE f, 0)]

theorem backTested_get (s : State) (f bad : Nat) (rows : List Nat) (k : Nat) : (s.backTested f bad rows).get k
    = (s.puts [(Obj.ENGINE_RETIRED_MASK f, s.get (Obj.ENGINE_RETIRED_MASK f) ||| bad), (Obj.ROWS_SPARED f, (s.rowsMapped f rows).1.foldl (fun a e => a + e.2) 0),
      (Obj.ROWS_MARKED f, (s.rowsMapped f rows).2.length), (Obj.FALLOW_STATUS f, 0), (Obj.FIELD_ROLE f, 1), (Obj.DOM_STATE f, 0)]).get k := by
  have hfield (t : State) (g : FieldS → FieldS) : (t.withField f g).get k = t.get k := rfl
  have hrows (v : Nat) : (s.putObj (Obj.ENGINE_RETIRED_MASK f) v).rowsMapped f rows = s.rowsMapped f rows := rfl
  rw [State.backTested, mapRows_run]
  simp only [puts_cons, puts_nil, run_put_get, putObj_get, hfield, hrows]

theorem backTested_keeps (s : State) (f bad : Nat) (rows : List Nat) :
    (s.backTested f bad rows).bytes = s.bytes ∧ (s.backTested f bad rows).log = s.log ∧ (s.backTested f bad rows).out = s.out := by
  have hfield (t : State) (g : FieldS → FieldS) : (t.withField f g).bytes = t.bytes ∧ (t.withField f g).log = t.log ∧ (t.withField f g).out = t.out := ⟨rfl, rfl, rfl⟩
  have hput (t : State) (k v : Nat) : (t.putObj k v).bytes = t.bytes ∧ (t.putObj k v).log = t.log ∧ (t.putObj k v).out = t.out := ⟨rfl, rfl, rfl⟩
  simp only [State.backTested, mapRows_run, puts_bytes, puts_log, puts_out, hfield, hput, and_self]

theorem backTested_rows (s : State) (f bad : Nat) (rows : List Nat) :
    ((s.backTested f bad rows).fieldRec f).spared = (s.rowsMapped f rows).1 ∧ ((s.backTested f bad rows).fieldRec f).badLines = (s.rowsMapped f rows).2 := by
  have hrec : (s.backTested f bad rows).fieldRec f = { ((mapRows f rows).run (s.putObj (Obj.ENGINE_RETIRED_MASK f) (s.get (Obj.ENGINE_RETIRED_MASK f) ||| bad))).fieldRec f
      with tested := true, calib := [], idleSince := s.time } := (run_field_fieldRec _ f _ f).trans (if_pos rfl)
  have hmap : ((mapRows f rows).run (s.putObj (Obj.ENGINE_RETIRED_MASK f) (s.get (Obj.ENGINE_RETIRED_MASK f) ||| bad))).fieldRec f
      = { s.fieldRec f with spared := (s.rowsMapped f rows).1, badLines := (s.rowsMapped f rows).2 } := by
    rw [mapRows_run]
    exact (run_field_fieldRec _ f _ f).trans (if_pos rfl)
  rw [hrec, hmap]
  exact ⟨rfl, rfl⟩

theorem exec_fieldSelftestDone_back {bad : Nat} {rows : List Nat} (hwf : Wf.fieldSelftestDone f bad rows true = true) (hback : s.get (Obj.FALLOW_STATUS f) = 3)
    (hfew : popcount 34 (s.get (Obj.ENGINE_RETIRED_MASK f) ||| bad) ≤ 2) :
    exec (.fieldSelftestDone f bad rows true) s = .next (s.begun.backTested f bad rows).told := by
  have hb : (s.begun.get (Obj.FALLOW_STATUS f) == 3) = true := beq_iff_eq.2 hback
  have hp : (true && decide (popcount 34 (s.begun.get (Obj.ENGINE_RETIRED_MASK f) ||| bad) ≤ 2)) = true := by
    rw [begun_get, Bool.true_and]
    exact decide_eq_true hfew
  refine (need_next s hwf _).trans (congrArg Host.Outcome.next ?_)
  rw [run_read]
  dsimp only
  rw [if_neg (fun h => h.2 hb), if_pos hb, if_pos hp, run_all_cons, run_all_cons, run_all_cons, run_all_cons, run_all_cons, run_all_nil]
  rfl

/-! ## Background work -/

/-- `s` after an activity's granule used up the grant it may have had. -/
def State.grantUsed (s : State) (act unit : Nat) : State := s.withMem fun m => { m with overdue := m.overdue.filter (· != (act, unit)) }

theorem exec_flitReplay_edge {dir : Nat} {ok : Bool} (hf : f < 66) (hdir : dir < 4) (h : neighbour f dir = none) : exec (.flitReplay f dir ok) s = .next (s.sending []) := by
  refine (need_next s (by simp [Wf.flitReplay, hf, hdir]) _).trans (congrArg Host.Outcome.next ?_)
  rw [run_read, if_pos (by rw [h]; rfl)]
  rfl

theorem exec_flitReplay_whole {dir : Nat} (hf : f < 66) (hdir : dir < 4) (h : (neighbour f dir).isSome = true) : exec (.flitReplay f dir true) s = .next
    ((((s.sending []).counted 32 Obj.LANE_REPLAYS 1).withField f fun r => { r with flits := Tab.del r.flits dir }).told) := by
  have hlink : ¬ (neighbour f dir).isNone = true := by
    cases hn : neighbour f dir with
    | none => rw [hn] at h; exact absurd h (by decide)
    | some g => exact Bool.noConfusion
  refine (need_next s (by simp [Wf.flitReplay, hf, hdir]) _).trans (congrArg Host.Outcome.next ?_)
  rw [run_read]
  dsimp only
  rw [if_neg hlink, if_pos rfl, run_all_cons, run_all_cons, run_all_cons, run_all_nil]
  rfl

/-- What scrubbing a granule with a corrected error alone does. -/
def correctedGranule (f e line : Nat) (job : Option Nat) (late once : Bool) : Act := .all [
  .when true (.count 64 (Obj.ECC_CORRECTED f) 1), .when ((0 : Nat) == 1) (.all [.count 32 (Obj.ECC_UNCORRECTED f) 1, markLine f line]),
  .when ((0 : Nat) == 2) (engineFaulted f e 0x0301 0 job), .when ((0 : Nat) == 3) (engineFaulted f e 0x0302 line job),
  .when (false && !once) (.count 32 Obj.SCRUB_PASSES 1), .when (false && late && !once) (.count 32 Obj.SCRUB_LATE 1)]

theorem correctedGranule_run (e line : Nat) (job : Option Nat) (late once : Bool) :
    (correctedGranule f e line job late once).run s = s.counted 64 (Obj.ECC_CORRECTED f) 1 := by
  rw [correctedGranule, run_all_cons, run_all_cons, run_all_cons, run_all_cons, run_all_cons, run_all_cons, run_all_nil]
  rfl

theorem exec_scrubGranule {e line : Nat} {job : Option Nat} {late busy : Bool} (hf : f < 66) (he : e < 34) (hline : line < 32768) (hdom : s.get (Obj.DOM_STATE f) = 2) :
    exec (.scrubGranule f e line 0 job true false late busy) s
      = .next ((background 1 f busy (correctedGranule f e line job late (decide (s.get Obj.SCRUB_PASS_MS = 0)))).run s.begun).told := by
  refine (need_next s (by simp [Wf.scrubGranule, hf, he, hline]) _).trans (congrArg Host.Outcome.next ?_)
  rw [run_read]
  refine (congrArg (fun a : Act => a.run s.begun) (if_neg (c := _ ∧ _ ∨ _) ?_)).trans ?_
  · exact fun h => h.elim (fun h => h.2 rfl) (fun h => h hdom)
  rw [run_all_cons, run_all_cons, run_all_nil]
  rfl

theorem exec_calibrationStep_last {e : Nat} (hf : f < 66) (he : e < 34) (hretired : bit (s.get (Obj.ENGINE_RETIRED_MASK f)) e = false) (hdom : s.get (Obj.DOM_STATE f) = 2)
    (hgo : s.mayWork 2 (f * 34 + e) (s.engineHolder f e).isSome)
    (hlast : (List.range 34).all (fun i => bit (s.get (Obj.ENGINE_RETIRED_MASK f)) i || (e :: (s.fieldRec f).calib.filter (· != e)).contains i) = true) :
    exec (.calibrationStep f e) s
      = .next (((s.begun.grantUsed 2 (f * 34 + e)).withField f fun r => { r with calib := [] }).putObj (Obj.CALIB_LAST_TIME f) s.ns) := by
  have hrun : ¬ (bit (s.begun.get (Obj.ENGINE_RETIRED_MASK f)) e = true ∨ s.begun.get (Obj.DOM_STATE f) ≠ 2) :=
    not_or.2 ⟨ne_true_of_eq_false hretired, not_not.2 hdom⟩
  refine (need_next s (by simp [Wf.calibrationStep, hf, he]) _).trans (congrArg Host.Outcome.next ?_)
  rw [run_read, if_neg hrun, show s.begun.engineHolder f e = s.engineHolder f e from rfl, background_works (s := s.begun) hgo]
  dsimp only
  rw [show (List.range 34).all (fun i => bit (s.begun.get (Obj.ENGINE_RETIRED_MASK f)) i || (e :: (s.begun.fieldRec f).calib.filter (· != e)).contains i) = true from hlast,
    run_all_cons, run_all_cons, run_all_nil]
  rfl

end

/-- Settles O17: fields that go fallow and come back, and the background work in them. -/
theorem fieldsAreMaintained : Obligations.FieldsAreMaintained := by
  unfold Obligations.FieldsAreMaintained
  refine ⟨fun s f hf => ⟨?_, ?_, ?_, ?_, ?_⟩, fun s f hf => ⟨fun dir hdir => ⟨exec_flitReplay_whole hf hdir, fun h ok => exec_flitReplay_edge hf hdir h⟩, ?_, ?_, ?_, ?_⟩⟩
  · intro ses g hses hadm hput hspare
    refine (exec_guarded_told (body := fallowRequest f 1) (by simp [Wf.fallowRequestPut, hses, hf]) rfl hadm (fallowRequest_put (s := s.begun) hput)).trans ?_
    rw [beginFallow_replaced (s := s.begun) hspare]
    rfl
  · intro ses hses hadm hrole hstatus
    refine (exec_guarded_told (body := fallowRequest f 2) (by simp [Wf.fallowRequestReturn, hses, hf]) rfl hadm (fallowRequest_return (s := s.begun) hrole hstatus)).trans ?_
    rw [run_all_cons, run_all_cons, run_all_nil]
    rfl
  · intro e he hrole hjobs hsubs
    have hget (k : Nat) (hk : k ≠ Obj.SUBSTITUTIONS) : (s.begun.tookRole f).get k
        = (s.puts [(Obj.FIELD_ROLE f, 0), (Obj.ENGINE_ACTIVE_MASK f, activeMask (s.get (Obj.ENGINE_RETIRED_MASK f))), (Obj.DOM_STATE f, 2)]).get k :=
      run_count_get ((s.begun.puts _).withField f _) 32 Obj.SUBSTITUTIONS 1 hk
    have hmask := activeMask_lt (s.get (Obj.ENGINE_RETIRED_MASK f))
    refine ⟨_, exec_spareFieldReady hf he hrole hjobs, ?_, ?_, ?_, ?_, ?_, ?_, ?_⟩
    · rw [hget _ (by unfold Obj.FIELD_ROLE Obj.SUBSTITUTIONS; omega)]
      simp
    · rw [hget _ (by unfold Obj.DOM_STATE Obj.SUBSTITUTIONS; omega)]
      simp
    · rw [hget _ (by unfold Obj.ENGINE_ACTIVE_MASK Obj.SUBSTITUTIONS; omega)]
      simpa using hmask
    · have hsame : ((s.begun.puts [(Obj.FIELD_ROLE f, 0), (Obj.ENGINE_ACTIVE_MASK f, activeMask (s.get (Obj.ENGINE_RETIRED_MASK f))), (Obj.DOM_STATE f, 2)]).withField f
          fun r => { r with idleSince := s.time }).get Obj.SUBSTITUTIONS = s.get Obj.SUBSTITUTIONS := by
        refine puts_get_of_not_mem _ _ _ fun e he => ?_
        simp only [List.mem_cons, List.not_mem_nil, or_false] at he
        unfold Obj.FIELD_ROLE Obj.ENGINE_ACTIVE_MASK Obj.DOM_STATE at he
        unfold Obj.SUBSTITUTIONS
        rcases he with rfl | rfl | rfl <;> dsimp only <;> omega
      have hcount := run_count_get_self ((s.begun.puts [(Obj.FIELD_ROLE f, 0), (Obj.ENGINE_ACTIVE_MASK f, activeMask (s.get (Obj.ENGINE_RETIRED_MASK f))),
        (Obj.DOM_STATE f, 2)]).withField f fun r => { r with idleSince := s.time }) 32 Obj.SUBSTITUTIONS 1 (by norm_num) (by rw [hsame]; exact hsubs)
      rw [hsame] at hcount
      exact hcount
    · exact run_count_bytes _ 32 Obj.SUBSTITUTIONS 1
    · exact run_count_log _ 32 Obj.SUBSTITUTIONS 1
    · exact run_count_out _ 32 Obj.SUBSTITUTIONS 1
  · intro bad rows hwf hback hfew hmask
    have hbadLt : bad < 2 ^ 34 := by
      simp only [Wf.fieldSelftestDone, Bool.and_eq_true, decide_eq_true_eq] at hwf
      exact hwf.1.2
    have hor : s.get (Obj.ENGINE_RETIRED_MASK f) ||| bad < 2 ^ 64 := (Nat.or_lt_two_pow hmask hbadLt).trans (by norm_num)
    obtain ⟨hspared, hbad⟩ := backTested_rows s.begun f bad rows
    refine ⟨_, exec_fieldSelftestDone_back hwf hback hfew, ?_, ?_, ?_, ?_, ?_, ?_, ?_, backTested_keeps s.begun f bad rows⟩
    · rw [backTested_get]
      simp
    · rw [backTested_get]
      simp
    · rw [backTested_get]
      simp
    · rw [backTested_get]
      simpa using hor
    · rw [backTested_get, hspared]
      simp
    · rw [backTested_get, hbad]
      simp
    · intro l hl hroom hmarked
      rw [hspared] at hroom
      rw [hbad] at hmarked
      exact rowsMapped_full s.begun f rows l hmarked hroom
  · intro job x hjob hphase hstop haway
    have hnone : x.place.eraseDups.filter (fun f => s.begun.get (Obj.FALLOW_STATUS f) == 1) = [] :=
      List.filter_eq_nil_iff.2 fun g hg => fun h => haway g (List.mem_eraseDups.1 hg) (beq_iff_eq.1 h)
    have hruns : (if x.stop.isSome = true then Phase.draining else .running) = .running := by
      rw [hstop]
      rfl
    refine (need_read_told s rfl _).trans (congrArg (fun t : State => Host.Outcome.next t.told) ?_)
    rw [show Tab.get? s.begun.u.tt.jobs job = some x from hjob]
    dsimp only
    rw [if_neg (not_not.2 hphase), run_all_cons, run_all_cons, run_all_nil, hnone, run_each_nil, run_job_of_get? (s := s.begun) hjob, hruns,
      State.withJob, run_job_of_get? hjob]
    rfl
  · intro e line job late busy he hline hdom
    refine ⟨fun hwork => ?_, fun hbusy hgrant => ?_⟩
    · rw [exec_scrubGranule hf he hline hdom, background_works (s := s.begun) hwork, correctedGranule_run]
      rfl
    · rw [exec_scrubGranule hf he hline hdom, background_yields (s := s.begun) (not_or.2 ⟨by rw [hbusy]; decide, ne_true_of_eq_false hgrant⟩)]
      rfl
  · intro e he hretired hdom hgo hlast
    have hwork : s.mayWork 2 (f * 34 + e) (s.engineHolder f e).isSome := hgo.imp_left fun h => by rw [h]; rfl
    refine ⟨_, exec_calibrationStep_last hf he hretired hdom hwork hlast, ?_, ?_, fun k hk => ?_, rfl, rfl, rfl⟩
    · rw [putObj_get, if_pos rfl]
      exact Nat.mod_eq_of_lt (Nat.mod_lt _ (by norm_num))
    · exact congrArg FieldS.calib ((run_field_fieldRec _ f _ f).trans (if_pos rfl))
    · rw [putObj_get, if_neg hk]
      rfl
  · intro busy hwork
    refine ⟨((s.begun.grantUsed 3 f).withField f fun r => { r with telemetry := s.time }), ?_, ?_, ⟨rfl, rfl, rfl, rfl, rfl⟩, rfl⟩
    · refine (need_next s (decide_eq_true hf) _).trans (congrArg Host.Outcome.next ?_)
      rw [run_read, background_works (s := s.begun) hwork]
      rfl
    · exact congrArg FieldS.telemetry ((run_field_fieldRec _ f _ f).trans (if_pos rfl))
  · intro act unit hwf
    refine (need_next s hwf _).trans (congrArg Host.Outcome.next ?_)
    rw [run_all_cons, run_all_cons, run_all_nil]
    rfl

end Sys2Proof.Machine
end

section
/-! PROOFS. Passes that drain (R107, R114, R116, R117, R119, R120, R122). -/

namespace Sys2Proof.Machine

section
variable {s : State} {job : Nat} {x : Job} {p : Pass}

/-! ## The array's writes -/

theorem writeScales_none {f k : Nat} {o : Operand} (h : o.writes k = []) (rows : List FedRow) (t : State) : (writeScales f o rows).run t = t := by
  rw [Operand.writes] at h
  rw [writeScales]
  split
  case h_1 hq => rw [hq] at h; exact absurd h (List.cons_ne_nil _ _)
  case h_2 => rfl

/-- Scales that are declared an output are bytes of the field's stores, and nothing else. -/
theorem writeScales_bytes (f : Nat) (o : Operand) (rows : List FedRow) (t : State) : ∃ m, (writeScales f o rows).run t = { t with bytes := m } := by
  rw [writeScales]
  split
  case h_1 => exact ⟨_, rfl⟩
  case h_2 => exact ⟨t.bytes, rfl⟩

/-- A drain has one place. -/
theorem drainsTo_single (h : p.drain ≠ .resident) (n : Nat) : ∃ d, p.drainsTo n = [d] := by
  rw [Pass.drainsTo]
  cases hd : p.drain with
  | format f sat inStore offset => exact ⟨_, rfl⟩
  | wide inStore offset => exact ⟨_, rfl⟩
  | resident => exact absurd hd h

/-- What the array has done before its drain is counted: its steps, its accumulators and the book store. -/
def State.stepped (s : State) (p : Pass) (accs : List Accum) (books : List (Nat × Nat × Nat)) : State :=
  (s.counted 64 (Obj.ARRAY_STEPS p.field) p.steps.1).withField p.field fun r => { r with acc := Tab.set r.acc p.engine accs, books := books }

/-- A pass of the array whose drain leaves the engine, as the steps it takes. -/
theorem arrayed_run (hvec : p.vecOnly = false) (hharrow : p.harrow = none) (houts : p.outputs ≠ 0) (hdrain : p.drain ≠ .resident) :
    ∃ (accs : List Accum) (books : List (Nat × Nat × Nat)) (counts : Counts), accs.length = 256 ∧ s.arrayed job p
      = (Act.draw 258).run ((countArith counts).run ((Act.each (p.drainsTo p.outputs) fun d => .poke (d.1.addr p.field) (p.drain.image (s.tileOut p) fun i => s.free (2 + i) 64).1).run
        ((writeScales p.field p.b (s.prepared p.field p.b p.k 1)).run ((writeScales p.field p.a (s.prepared p.field p.a p.k 0)).run (s.stepped p accs books))))) := by
  have hleaves : (p.drain == .resident) = false := beq_eq_false_iff_ne.2 hdrain
  rw [State.arrayed, if_neg (by rw [hvec]; decide), arrayRuns, run_read]
  dsimp only
  rw [if_neg houts, hharrow, hleaves, run_all_cons, run_all_cons, run_all_cons, run_all_cons, run_all_cons, run_all_cons, run_all_cons, run_all_cons, run_all_cons, run_all_nil]
  exact ⟨_, _, _, by rw [List.length_map, List.length_range], rfl⟩

/-- What the bytes, the accumulators and the counts are after such a pass, whatever its image is. -/
theorem arrayed_leaves (hvec : p.vecOnly = false) (hharrow : p.harrow = none) (houts : p.outputs ≠ 0) (hdrain : p.drain ≠ .resident) :
    ∃ (d : Place × Nat) (m : Memory) (accs : List Accum), p.drainsTo p.outputs = [d] ∧ accs.length = 256
      ∧ (p.a.writes p.k = [] → p.b.writes p.k = [] → m = s.bytes)
      ∧ (s.arrayed job p).bytes = Memory.writeAll m (d.1.addr p.field) (p.drain.image (s.tileOut p) fun i => s.free (2 + i) 64).1
      ∧ (∀ k, k < Obj.SATURATED ∨ Obj.BOOK_STALLS < k → (s.arrayed job p).get k = (s.counted 64 (Obj.ARRAY_STEPS p.field) p.steps.1).get k)
      ∧ ((s.arrayed job p).fieldRec p.field).acc = Tab.set (s.fieldRec p.field).acc p.engine accs
      ∧ (s.arrayed job p).log = s.log ∧ (s.arrayed job p).out = s.out := by
  obtain ⟨d, hd⟩ := drainsTo_single hdrain p.outputs
  obtain ⟨accs, books, counts, hlen, hrun⟩ := arrayed_run (s := s) (job := job) hvec hharrow houts hdrain
  rw [hd, run_each_cons, run_each_nil] at hrun
  generalize (p.drain.image (s.tileOut p) fun i => s.free (2 + i) 64).1 = image at hrun ⊢
  obtain ⟨hbytes, hlog, hout⟩ := counted_keeps s 64 (Obj.ARRAY_STEPS p.field) p.steps.1
  have hrec : (s.stepped p accs books).fieldRec p.field = { s.fieldRec p.field with acc := Tab.set (s.fieldRec p.field).acc p.engine accs, books := books } := by
    rw [State.stepped, State.withField, run_field_fieldRec, if_pos rfl, State.fieldRec, State.counted, run_count_u]
    rfl
  have hget (k : Nat) : (s.stepped p accs books).get k = (s.counted 64 (Obj.ARRAY_STEPS p.field) p.steps.1).get k := rfl
  have hbytes' : (s.stepped p accs books).bytes = s.bytes := hbytes
  have hlog' : (s.stepped p accs books).log = s.log := hlog
  have hout' : (s.stepped p accs books).out = s.out := hout
  generalize s.stepped p accs books = t0 at hrun hrec hget hbytes' hlog' hout'
  obtain ⟨m, hm, hsame⟩ : ∃ m, (writeScales p.field p.b (s.prepared p.field p.b p.k 1)).run ((writeScales p.field p.a (s.prepared p.field p.a p.k 0)).run t0)
      = { t0 with bytes := m } ∧ (p.a.writes p.k = [] → p.b.writes p.k = [] → m = s.bytes) := by
    by_cases hnone : p.a.writes p.k = [] ∧ p.b.writes p.k = []
    · exact ⟨t0.bytes, by rw [writeScales_none hnone.1, writeScales_none hnone.2], fun _ _ => hbytes'⟩
    · obtain ⟨m1, h1⟩ := writeScales_bytes p.field p.a (s.prepared p.field p.a p.k 0) t0
      obtain ⟨m2, h2⟩ := writeScales_bytes p.field p.b (s.prepared p.field p.b p.k 1) { t0 with bytes := m1 }
      exact ⟨m2, by rw [h1, h2], fun ha hb => absurd ⟨ha, hb⟩ hnone⟩
  rw [hm] at hrun
  generalize hpoked : (Act.poke (d.1.addr p.field) image).run { t0 with bytes := m } = t1 at hrun
  obtain ⟨habytes, halog, haout⟩ := countArith_keeps counts t1
  have hau : ((countArith counts).run t1).u.fields = t1.u.fields :=
    Act.SparesUnit.unit (f := fun u => u.fields) t1 (countArith_within (fun _ _ _ => trivial) trivial counts)
  refine ⟨d, m, accs, hd, hlen, hsame, ?_, fun k hk => ?_, ?_, ?_, ?_⟩
  · rw [hrun, run_draw_bytes, habytes, ← hpoked, run_poke_bytes]
  · rw [hrun, run_draw_get, countArith_get counts t1 hk, ← hpoked]
    exact hget k
  · have hsee : ((Act.draw 258).run ((countArith counts).run t1)).fieldRec p.field = t0.fieldRec p.field := by
      rw [State.fieldRec, run_draw_u, hau, ← hpoked]
      rfl
    rw [hrun, hsee, hrec]
  · rw [hrun, run_draw_log, halog, ← hpoked]
    exact hlog'
  · rw [hrun, run_draw_out, haout, ← hpoked]
    exact hout'

/-! ## The pass -/

theorem exec_enginePassDrain (hwf : Wf.pass p = true)
    (hon : (s.jobsOn p.field).any (fun e => decide (e.1 = job ∧ (e.2.phase = .running ∨ e.2.phase = .draining))) = true)
    (hactive : bit (s.get (Obj.ENGINE_ACTIVE_MASK p.field)) p.engine = true) (htrip : s.u.pow.overcurrent = false) : exec (.enginePassDrain job p) s
      = .next (((if p.mismatch then engineFaulted p.field p.engine 0x0300 0 (some job) else passRuns job p : Act).run s.begun).told) := by
  have hgo : ((s.begun.jobsOn p.field).any (fun e => decide (e.1 = job ∧ (e.2.phase = .running ∨ e.2.phase = .draining)))
      && bit (s.begun.get (Obj.ENGINE_ACTIVE_MASK p.field)) p.engine && !s.begun.u.pow.overcurrent) = true :=
    Bool.and_eq_true_iff.2 ⟨Bool.and_eq_true_iff.2 ⟨hon, hactive⟩, by rw [begun_u, htrip]; rfl⟩
  refine (need_read_told s hwf _).trans (congrArg (fun t : State => Host.Outcome.next t.told) ?_)
  exact run_when_true hgo _ _

theorem passRuns_run (hx : Tab.get? s.u.tt.jobs job = some x) : (passRuns job p).run s
    = (if ¬ (p.allUses x).all (s.mayUse x p.field) then endJob job St.ACCESS_DENIED 0x0320 0 0
      else match p.operands.findSome? s.bookFault with
        | some f => endJob job f.1 f.2 0 0
        | none => .all [.when (!p.vecOnly) (arrayRuns job p), match p.att with
            | some w => attRuns job p.field x w
            | none => .skip, .each p.vec (vecRuns p.field)] : Act).run (s.counted 64 (Obj.ECC_CORRECTED p.field) p.corrected) := by
  rw [passRuns, run_read, hx]
  dsimp only
  rw [run_all_cons, run_all_cons, run_all_nil]
  rfl

theorem vectored_run (t : State) : (Act.each p.vec (vecRuns p.field)).run t = t.vectored p := run_each_foldl _ _ _

theorem workRuns_run (t : State) : (Act.all [.when (!p.vecOnly) (arrayRuns job p), match p.att with
    | some w => attRuns job p.field x w
    | none => .skip, .each p.vec (vecRuns p.field)]).run t = ((t.arrayed job p).attended job x p).vectored p := by
  have harray : (Act.when (!p.vecOnly) (arrayRuns job p)).run t = t.arrayed job p := by
    rw [State.arrayed]
    cases p.vecOnly <;> rfl
  rw [run_all_cons, run_all_cons, run_all_cons, run_all_nil, harray, vectored_run, State.attended]
  cases p.att <;> rfl

end

/-- Settles O14: the four endings of a pass, and what a pass that drains to a slate or the store leaves. -/
theorem passesDrain : Obligations.PassesDrain := by
  unfold Obligations.PassesDrain
  intro s job x p hwf hx hon hactive htrip c fits flaw
  have hfield : p.field < 66 := by
    simp only [Wf.pass, Bool.and_eq_true, decide_eq_true_eq] at hwf
    omega
  have hpass (hok : p.mismatch = false) : exec (.enginePassDrain job p) s = .next ((passRuns job p).run s.begun).told := by
    rw [exec_enginePassDrain hwf hon hactive htrip, if_neg (ne_true_of_eq_false hok)]
  refine ⟨fun hbad => ?_, fun hok hfits => ?_, fun hok hfits st d hflaw => ?_, fun hok hfits hflaw => ?_, fun hvec hharrow houts hdrain hsteps => ?_⟩
  · rw [exec_enginePassDrain hwf hon hactive htrip, if_pos hbad]
    rfl
  · have hmust : ¬ (p.allUses x).all (s.begun.mayUse x p.field) = true := ne_true_of_eq_false hfits
    rw [hpass hok, passRuns_run (s := s.begun) hx, if_pos hmust]
    rfl
  · have hmay : ¬ ¬ (p.allUses x).all (s.begun.mayUse x p.field) = true := not_not.2 hfits
    rw [hpass hok, passRuns_run (s := s.begun) hx, if_neg hmay, show p.operands.findSome? s.begun.bookFault = some (st, d) from hflaw]
    rfl
  · have hmay : ¬ ¬ (p.allUses x).all (s.begun.mayUse x p.field) = true := not_not.2 hfits
    rw [hpass hok, passRuns_run (s := s.begun) hx, if_neg hmay, show p.operands.findSome? s.begun.bookFault = none from hflaw]
    exact congrArg (fun t : State => Host.Outcome.next t.told) (workRuns_run _)
  · obtain ⟨d, m, accs, hd, hlen, hsame, hbytes, hget, hacc, hlog, hout⟩ := arrayed_leaves (s := c) (job := job) hvec hharrow houts hdrain
    intro t image
    refine ⟨?_, ?_, fun e he i hi => ?_, fun ha hb a hout' => ?_, fun e he => ?_, hlog, hout.trans (run_count_out _ 64 _ _)⟩
    · rw [hget _ (Or.inl (by unfold Obj.SATURATED Obj.ARRAY_STEPS; omega))]
      exact run_count_get_self c 64 (Obj.ARRAY_STEPS p.field) p.steps.1 (by norm_num) hsteps
    · rw [hacc, Tab.at_set, if_pos rfl]
      exact hlen
    · rw [hd] at he
      rw [List.mem_singleton.1 he, hbytes, Memory.read_writeAll_in _ _ _ _ hi]
      exact (List.getD_eq_getElem _ _ hi).symm
    · have haway := hout' d (by rw [hd]; exact List.mem_singleton_self d)
      rw [hbytes, Memory.read_writeAll_out _ _ _ _ haway, hsame ha hb]
    · rw [hacc, Tab.at_set, if_neg he]

end Sys2Proof.Machine
end

section
/-! PROOFS. The record that a fused output writes to the host (R335). -/

namespace Sys2Proof.Machine

/-- Output 7 of filter 3, which runs, publishes to the host at a ToV that the filter has passed. -/
def publishing : State :=
  { (State.reset.puts [(Obj.DEVICE_STATE, 3), (Obj.TRANSPORT 0, 1), (Obj.FILTER_STATE 3, 2), (Obj.OUT_FILTER 7, 3), (Obj.OUT_PERIOD_NS 7, 1000), (Obj.OUT_HOST_EN 7, 1)]).withUnits
      fun u => { u with fus := { u.fus with filters := [(3, { last := some 5000 })] } } with
    time := 2000 * 4294967296 }

/-- What is sent first stays ahead of all that is told after it. -/
theorem firstSent_first {t : State} {e : Emit} {es : List Emit} (h : t.out = e :: es) : firstSent (.next t.told) = some e := by
  obtain ⟨more, hmore⟩ := run_out_prefix settle t
  show (settle.run t).out.head? = some e
  rw [← hmore, h]
  rfl

theorem firstSent_fires {t : State} {e : Emit} {es : List Emit} (kind source tov frac : Nat) (h : t.out = e :: es) : firstSent (.next (t.fires kind source tov frac).told) = some e := by
  obtain ⟨more, hmore⟩ := run_out_prefix (deliver kind source tov frac false) t
  exact firstSent_first (es := es ++ more) (by rw [State.fires, ← hmore, h]; rfl)

theorem run_outRec_out (o : Nat) (f : OutS → OutS) (s : State) : ((Act.outRec o f).run s).out = s.out := rfl

theorem e2eHeader_length (counter dataId : Nat) (rest : List Byte) : (e2eHeader counter dataId rest).length = 12 := by
  simp only [e2eHeader, List.length_append, le_length]

/-- A record published to a host that can be reached is sent in two writes, the first without its header's bytes. -/
theorem publish_sends {s : State} {o tov frac : Nat} {e : Est} (hen : s.get (Obj.OUT_HOST_EN o) ≠ 0) (hreach : s.hostReachable = true) (hout : s.out = []) :
    ∃ (a : Nat) (more : List Emit), ((publish o tov frac 0 false e false).run s).out = .hostWrite a [] :: more := by
  have hshort : (s.fusedRecord o tov frac 0 ((s.get (Obj.OUT_PUBLISHED o) + 1) % 4294967296) false e).length = 12 := e2eHeader_length _ _ _
  have hon : (s.get (Obj.OUT_HOST_EN o) != 0) = true := bne_iff_ne.2 hen
  rw [publish, run_read]
  dsimp only
  generalize s.fusedRecord o tov frac 0 ((s.get (Obj.OUT_PUBLISHED o) + 1) % 4294967296) false e = bs at hshort ⊢
  have hdrop : bs.drop 12 = [] := List.drop_eq_nil_of_le hshort.le
  rw [if_neg Bool.noConfusion, hdrop, run_all_cons, run_all_cons, run_all_cons, run_all_nil, run_all_cons, run_all_cons, run_all_cons, run_all_cons, run_all_cons, run_all_cons, run_all_nil]
  generalize hq : (Act.outRec o _).run _ = q
  have hquiet : q.out = [] := by
    rw [← hq, run_outRec_out, run_each_puts, puts_out, run_when_false rfl, run_count_out, e2eChecked, run_count_out, run_count_out, hout]
  obtain ⟨sends, hsends⟩ := run_out_prefix (deliver 4 o tov frac false) ((Act.when (s.get (Obj.OUT_HOST_EN o) != 0) _).run q)
  rw [← hsends, run_when_true hon, run_all_cons, run_all_cons, run_all_nil, run_when_true hreach, run_all_cons, run_all_cons, run_all_nil]
  obtain ⟨msix, hmsix⟩ := run_out_prefix (.when (s.get (Obj.OUT_MSIX_EN o) != 0) (msixRaise (s.get (Obj.OUT_MSIX_VECTOR o))))
    ((Act.emit (.hostWrite (s.get (Obj.OUT_HOST_BASE o) + (s.get (Obj.OUT_PUBLISHED o) + 1) % 4294967296 % 256 * 256) (bs.take 12))).run
      ((Act.emit (.hostWrite (s.get (Obj.OUT_HOST_BASE o) + (s.get (Obj.OUT_PUBLISHED o) + 1) % 4294967296 % 256 * 256 + 12) [])).run q))
  rw [← hmsix, run_emit_out, run_emit_out, hquiet]
  exact ⟨_, _, rfl⟩

/-- That publication. -/
theorem exec_publishing : exec (.periodicPublication 7 1 false) publishing = .next ((publish 7 1000 0 0 false (publishing.begun.estAt 3 (1000, 0)) false).run publishing.begun).told := by
  have hidle (c : Nat) (h : publishing.groupPending c = false) : (takeIfPending c).run publishing.begun = publishing.begun := by
    rw [takeIfPending, run_read]
    exact run_when_false h _ _
  have htake : (Act.read fun s => .when (decide (2 ≤ s.dev)) (takeIfPending (outputCtl 7))).run publishing.begun = publishing.begun := by
    rw [run_read, run_when]
    split
    · exact hidle _ (by decide +kernel)
    · rfl
  have hdue : ¬ (publishing.begun.get (Obj.OUT_PERIOD_NS 7) = 0 ∨ 8 ≤ publishing.begun.get (Obj.OUT_FILTER 7) ∨ ¬ publishing.begun.filterOn (publishing.begun.get (Obj.OUT_FILTER 7)) = true
      ∨ ¬ (decide ((publishing.begun.filter (publishing.begun.get (Obj.OUT_FILTER 7))).started ≤ 1 * publishing.begun.get (Obj.OUT_PERIOD_NS 7)
          ∧ 1 * publishing.begun.get (Obj.OUT_PERIOD_NS 7) + publishing.begun.get (Obj.ALIGN_DELAY_NS (publishing.begun.get (Obj.OUT_FILTER 7))) ≤ publishing.begun.ns)
        && (publishing.begun.filter (publishing.begun.get (Obj.OUT_FILTER 7))).queue.all (fun i => decide (1 * publishing.begun.get (Obj.OUT_PERIOD_NS 7) < i.tov))
        && (publishing.begun.outRec 7).pubs.all (fun p => decide (p.1 < 1 * publishing.begun.get (Obj.OUT_PERIOD_NS 7)))) = true) := by decide +kernel
  have hfilter : publishing.begun.get (Obj.OUT_FILTER 7) = 3 := by decide +kernel
  have htov : 1 * publishing.begun.get (Obj.OUT_PERIOD_NS 7) = 1000 := by decide +kernel
  have hpassed : (publishing.begun.filter 3).last.all (fun l => decide (l ≤ 1000)) = false := by decide +kernel
  refine (need_next publishing (show Wf.periodicPublication 7 1 false = true by decide) _).trans (congrArg Host.Outcome.next ?_)
  rw [run_all_cons, run_all_cons, run_all_cons, run_all_nil, htake, run_read]
  dsimp only
  rw [if_neg hdue, hfilter, htov, run_all_cons, run_all_cons, run_all_cons, run_all_nil, hidle _ (by decide +kernel), run_when_false hpassed, run_read, State.told]

/-- Refutes O45: `e2eHeader` gives the 12 bytes of the header alone, so the record of a fused output is no more, and the first of its two writes to the host carries no byte, not 244. -/
theorem not_fusionRuns : ¬ Obligations.FusionRuns := by
  unfold Obligations.FusionRuns
  intro h
  obtain ⟨-, -, -, hpublish, -⟩ := h publishing
  obtain ⟨-, -, hgood⟩ := hpublish 7 1 false (by decide) (by decide +kernel) (by decide +kernel) (by decide +kernel) (by decide +kernel) (by decide +kernel)
  obtain ⟨t, ht, -, -, -, -, -, -, -, hhost⟩ := hgood (by decide +kernel) rfl (by decide +kernel) (by decide +kernel) (by decide +kernel)
  obtain ⟨bs, hlen, hout⟩ := hhost (by decide +kernel) (by decide +kernel) (by decide +kernel)
  have hfirst := (congrArg firstSent ht).trans (firstSent_fires 4 7 _ 0 hout)
  obtain ⟨a, more, hsent⟩ := publish_sends (s := publishing.begun) (o := 7) (tov := 1000) (frac := 0) (e := publishing.begun.estAt 3 (1000, 0)) (by decide +kernel) (by decide +kernel) rfl
  have hempty : firstSent (exec (.periodicPublication 7 1 false) publishing) = some (.hostWrite a []) := by
    rw [exec_publishing]
    exact firstSent_first hsent
  obtain ⟨-, hdrop⟩ := Emit.hostWrite.inj (Option.some.inj (hempty.symm.trans hfirst))
  have hrest := congrArg List.length hdrop
  rw [List.length_drop, hlen] at hrest
  exact absurd hrest (by decide)

end Sys2Proof.Machine
end

section
/-! PROOFS. What telling what is left to be told never raises: the count of missed samples of channel 256 (R381) and the voter's mode (R396). -/

namespace Sys2Proof.Machine

/-- The slots of the count of missed samples of channel 256 and of the voter's mode. -/
def Obj.untold (k : Nat) : Prop := k = Obj.MISSED 256 ∨ k = Obj.VOTE_MODE

/-- The act writes no value to slot `k`. -/
abbrev Act.Leaves (k : Nat) (a : Act) : Prop := a.Within (· ≠ Part.obj k) fun _ => True

theorem Act.Leaves.get {k : Nat} {a : Act} (h : a.Leaves k) (s : State) : (a.run s).get k = s.get k := Act.Spares.get s h

/-! ## The slots apart from those that the units' acts write -/

section
variable {k : Nat} (hk : Obj.untold k)
include hk

theorem untold_ne {j : Nat} (h : j ≠ 0x2C0021 ∧ j ≠ 0x2D0101) : Part.obj j ≠ Part.obj k := by
  refine Part.obj_ne ?_
  rcases hk with rfl | rfl
  · exact h.1
  · exact h.2

theorem untold_page : k / 256 = 0x2C00 ∨ k / 256 = 0x2D01 := by
  rcases hk with rfl | rfl
  · exact .inl rfl
  · exact .inr rfl

theorem untold_apartFromLives : ¬ LifeKey k := by
  rintro h
  have hval : k = 0x2C0021 ∨ k = 0x2D0101 := hk
  cases h with
  | power hp =>
    cases hp <;> simp only [Obj.BUDGET_STEP_DOWNS, Obj.DOM_RAIL_MV, Obj.RAIL_MV, Obj.DOM_PACER, Obj.PACER_STEP, Obj.DOM_TARGET_MV, Obj.DOM_STEPS, Obj.BUSY_NS, Obj.ENGINE_NS,
      Obj.DEGRADED_NS] at hval <;> omega
  | _ =>
    simp only [Obj.INHERITANCES, Obj.CTX_INHERITED, Obj.JOBS_DONE, Obj.JOBS_ENDED, Obj.CTX_WAIT_NS, Obj.JOBS_FAULT_ENDED, Obj.JOBS_RETRIED, Obj.CHUNKS_DONE, Obj.FIRINGS_DONE,
      Obj.ARG_LEN_CHECK, Obj.COMPLETION, Obj.F_COMPLETION, Obj.STATE, Obj.DOM_STATE, Obj.DOM_WAKES] at hval
    omega

theorem untold_apartFromFirings : Obj.apartFromFirings k := by
  have hpage := untold_page hk
  refine ⟨untold_apartFromLives hk, fun e => ?_, by omega, by omega⟩
  subst e
  exact absurd hpage (by decide)

theorem untold_apartFromCauses : Obj.apartFromCauses k := by
  have hlife := untold_apartFromLives hk
  rcases hk with rfl | rfl
  · exact ⟨by decide, hlife, by decide⟩
  · exact ⟨by decide, hlife, by decide⟩

theorem untold_life : LifeWithin (fun _ => False) (· ≠ Part.obj k) fun _ => True :=
  lifeWithin_spares (fun j hj => Part.obj_ne fun e : j = k => untold_apartFromLives hk (e ▸ hj)) nofun nofun _

theorem untold_furrow {i : Nat} (h : i % 16777216 ≠ 0x2C0021 ∧ i % 16777216 ≠ 0x2D0101) (f : Nat) : Part.obj (f * 16777216 + i) ≠ Part.obj k :=
  untold_ne hk (by omega)

theorem untold_stream {i : Nat} (h : 5242881 ≤ i) (n : Nat) : Part.obj (i + n * 256) ≠ Part.obj k := untold_ne hk (by omega)

theorem untold_count {j : Nat} (h : j ≠ 0x2C0021 ∧ j ≠ 0x2D0101) (w n : Nat) : (Act.count w j n).Leaves k := within_count _ _ _ (untold_ne hk h) nofun

end

theorem logEv_leaves (k code inst d0 d1 : Nat) : (logEv code inst d0 d1).Leaves k := logEv_within _ _ _ _ nofun nofun fun _ => trivial

/-- A group that applies writes the objects of its own block, and its control block. -/
theorem groupTake_leaves {k c : Nat} (hidx : idxOf c ≠ k / 256) (hctl : c ≠ k / 256) : (groupTake c).Leaves k := by
  have hown {j : Nat} (h : j / 256 = c) : Part.obj j ≠ Part.obj k := Part.obj_ne fun e => hctl (by rw [← h, e])
  simp only [groupTake, groupClear, Act.dict, within_read, within_all_cons, within_all_nil, within_each, within_put, within_units, within_dropShadow, within_wrap, and_true]
  refine fun s => ⟨fun e he => Part.obj_ne fun h => hidx ?_, trivial, ⟨nofun, trivial, hown ?_⟩, hown ?_, hown ?_, hown ?_, hown ?_⟩
  · rw [← h]
    exact (of_decide_eq_true (List.mem_filter.1 he).2).symm
  all_goals
    simp only [Obj.SHADOW_OWNER, Obj.COMMIT_STATUS, Obj.COMMIT_COUNT, Obj.APPLIED_TIME, Obj.APPLIED_TIME_FRAC]
    omega

/-! ## Tiles and sequences -/

section
variable {k : Nat} (hk : Obj.untold k)

theorem freeTile_leaves (k t : Nat) : (freeTile t).Leaves k := freeTile_within (A := (· ≠ Part.obj k)) (R := fun _ => True) (fun _ => trivial) (fun _ => trivial) t

theorem freeRun_leaves (k base count : Nat) : (freeRun base count).Leaves k := freeRun_within (A := (· ≠ Part.obj k)) (R := fun _ => True) nofun nofun (fun _ => trivial) (fun _ => trivial) base count

theorem allocTiles_leaves (k c n : Nat) : (allocTiles c n).Leaves k := by
  simp only [allocTiles, within_read, within_all_cons, within_all_nil, within_each, and_true]
  exact fun _ => ⟨trivial, fun _ _ => zeroHome_within _ _ _ nofun nofun fun _ => trivial⟩

include hk

theorem pokeTile_leaves (t offset : Nat) (bs : List Byte) : (pokeTile t offset bs).Leaves k :=
  pokeTile_within (A := (· ≠ Part.obj k)) (R := fun _ => True) nofun nofun nofun (untold_ne hk (by decide)) (untold_ne hk (by decide)) (fun _ => trivial) (fun _ => trivial) (logEv_leaves k) t offset bs

theorem pokeSeq_leaves (key : Nat) : (pokeSeq key).Leaves k :=
  pokeSeq_within (A := (· ≠ Part.obj k)) (R := fun _ => True) nofun nofun nofun (untold_ne hk (by decide)) (untold_ne hk (by decide)) (fun _ => trivial) (fun _ => trivial) (logEv_leaves k) key

theorem freeSeq_leaves (key : Nat) : (freeSeq key).Leaves k :=
  freeSeq_within (A := (· ≠ Part.obj k)) (R := fun _ => True) nofun nofun nofun (untold_ne hk (by decide)) (untold_ne hk (by decide)) (fun _ => trivial) (fun _ => trivial) (logEv_leaves k) (fun _ => trivial) key

theorem writeRun_leaves (base count fmt : Nat) (data : List Byte) : (writeRun base count fmt data).Leaves k :=
  (within_each ..).2 fun _ _ =>
    writeTile_within (A := (· ≠ Part.obj k)) (R := fun _ => True) nofun nofun nofun (untold_ne hk (by decide)) (untold_ne hk (by decide)) (fun _ => trivial) (fun _ => trivial) (logEv_leaves k) _ _ _

theorem retireEdit_leaves (d : Edit) : (retireEdit d).Leaves k := by
  have hcount := untold_count hk (j := Obj.EDITS_APPLIED) (by decide) 64 1
  have hstatus (n : Nat) : Part.obj (Obj.EDIT_STATUS n) ≠ Part.obj k := untold_furrow hk (by decide) n
  simp only [retireEdit, within_all_cons, within_all_nil, within_when, hcount, freeSeq_leaves hk, Act.seqs, within_units, implies_true, and_true, true_and]
  cases d.ses with
  | none => trivial
  | some n => exact hstatus n

theorem releaseWalks_leaves (j : Nat) : (releaseWalks j).Leaves k := by
  simp only [releaseWalks, retireReady, within_read, within_ite, within_all_cons, within_all_nil, within_each, within_skip, retireEdit_leaves hk, pokeSeq_leaves hk, Act.seqs,
    within_units, implies_true, and_self]

end

/-! ## Streams -/

section
variable {k : Nat} (hk : Obj.untold k)

theorem setState_leaves (k n : Nat) (data : List Byte) : (setState n data).Leaves k := by
  simp [setState, Act.stream]

include hk

theorem writeHome_leaves (n : Nat) : (writeHome n).Leaves k := fun _ => writeRun_leaves hk ..

theorem streamAccrue_leaves (n : Nat) : (streamAccrue n).Leaves k := by
  have hengine (c m : Nat) : (Act.count 64 (Obj.ENGINE_NS c) m).Leaves k := untold_count hk (by unfold Obj.ENGINE_NS; omega) _ _
  have hbusy (f m : Nat) : (Act.count 64 (Obj.BUSY_NS f) m).Leaves k := untold_count hk (by unfold Obj.BUSY_NS; omega) _ _
  simp only [streamAccrue, within_read, within_ite, within_all_cons, within_all_nil, within_skip, hengine, hbusy, Act.stream, Act.tt, within_units, implies_true, and_self]

theorem leaveField_leaves (n : Nat) : (leaveField n).Leaves k := by
  simp [leaveField, streamAccrue_leaves hk, untold_stream hk, Act.stream, Act.field]

theorem streamLost_leaves (n detail : Nat) : (streamLost n detail).Leaves k := by
  simp [streamLost, untold_stream hk]

theorem swapOut_leaves (n : Nat) (counts : Bool) : (swapOut n counts).Leaves k := by
  have hcount (m : Nat) : (Act.count 32 (Obj.SWAPS_OUT n) m).Leaves k := untold_count hk (by unfold Obj.SWAPS_OUT; omega) _ _
  simp [swapOut, writeHome_leaves hk, leaveField_leaves hk, hcount, Act.stream]

theorem streamZero_leaves (n : Nat) : (streamZero n).Leaves k := by
  simp [streamZero, untold_stream hk, Act.stream]

theorem putDirectory_leaves (n : Nat) (used : Bool) : (putDirectory n used).Leaves k := by
  simp [putDirectory, pokeTile_leaves hk]

theorem homeFollows_leaves (n : Nat) : (homeFollows n).Leaves k := by
  simp [homeFollows, writeHome_leaves hk]

theorem readyAgain_leaves (n : Nat) : (readyAgain n).Leaves k := by
  simp [readyAgain, untold_stream hk]

theorem streamStart_leaves (n : Nat) : (streamStart n).Leaves k := by
  simp [streamStart, untold_stream hk, allocTiles_leaves, streamZero_leaves hk, setState_leaves, writeHome_leaves hk, putDirectory_leaves hk, Act.stream]

theorem streamReset_leaves (n : Nat) : (streamReset n).Leaves k := by
  simp [streamReset, streamZero_leaves hk, setState_leaves, homeFollows_leaves hk, readyAgain_leaves hk]

theorem streamEnd_leaves (n : Nat) : (streamEnd n).Leaves k := by
  simp only [streamEnd, within_read, within_all_cons, within_all_nil, within_each, within_put, endJob_within (untold_life hk) id, leaveField_leaves hk, freeRun_leaves,
    putDirectory_leaves hk, untold_stream hk, Act.stream, within_units, implies_true, true_and, and_true, Nat.reduceLeDiff, ne_eq, not_false_eq_true]
  intro s
  split
  · exact freeRun_leaves k _ _
  · trivial

/-- What a checkpoint writes once its tiles are there. -/
theorem streamCheckpointTiles_leaves (n : Nat) (f : StreamS → StreamS) (image : List Byte) (step : Nat) : (Act.all [
    .stream n f,
    .read fun s => match (s.stream n).ckpt with
      | some (b, c) => writeRun b c (s.get (Obj.STATE_FORMAT n)) image
      | none => .skip,
    .put (Obj.CHECKPOINT_STEP n) step]).Leaves k := by
  refine ⟨trivial, fun s => ?_, untold_stream hk (by decide) n, trivial⟩
  beta_reduce
  split
  · exact writeRun_leaves hk ..
  · trivial

theorem streamCheckpoint_leaves (n : Nat) : (streamCheckpoint n).Leaves k := by
  refine (within_read ..).2 fun s => ?_
  extract_lets x image count same done
  have hdone : done.Leaves k := streamCheckpointTiles_leaves hk n _ image _
  split
  · exact hdone
  · refine ⟨?_, fun s' => ?_, trivial⟩
    · split
      · exact freeRun_leaves k _ _
      · trivial
    · simp only [within_ite, within_all_cons, within_all_nil, within_put, within_when, untold_stream hk, allocTiles_leaves, hdone, Act.stream, within_units, implies_true, and_true,
        Nat.reduceLeDiff, ne_eq, not_false_eq_true]

theorem streamRestore_leaves (n : Nat) : (streamRestore n).Leaves k := by
  simp only [streamRestore, within_read]
  intro s
  split
  · trivial
  · split
    · exact streamLost_leaves hk ..
    · simp [untold_stream hk, setState_leaves, homeFollows_leaves hk, readyAgain_leaves hk, Act.stream]

theorem streamDo_leaves (n v : Nat) : (streamDo n v).Leaves k := by
  simp only [streamDo]
  split
  · exact streamStart_leaves hk n
  · exact untold_stream hk (by decide) n
  · exact untold_stream hk (by decide) n
  · exact streamReset_leaves hk n
  · exact streamEnd_leaves hk n
  · exact streamCheckpoint_leaves hk n
  · exact streamRestore_leaves hk n
  · exact swapOut_leaves hk n false

/-- What the checkpoint of a stream becomes as the stream's form changes. -/
theorem convertCheckpoint_leaves (n : Nat) (f : State → StreamS → StreamS) (fmt m b i : Nat) (d : List Byte) : (Act.all [
    .read fun s => Act.all [
      .stream n (f s),
      .when (m != 0) (allocTiles (s.get (Obj.S_CONTEXT n)) m),
      .read fun s' => match (s'.stream n).ckpt with
        | some (b, k) => writeRun b k fmt d
        | none => .skip],
    freeRun b i]).Leaves k := by
  refine ⟨fun s => ⟨trivial, ?_, fun s' => ?_, trivial⟩, freeRun_leaves k b i, trivial⟩
  · simp only [within_when, allocTiles_leaves, implies_true]
  · beta_reduce
    split
    · exact writeRun_leaves hk ..
    · trivial

theorem streamConvert_leaves (n mode residency : Nat) : (streamConvert n mode residency).Leaves k := by
  refine (within_read ..).2 fun s => ?_
  extract_lets x fmt mode' count ref form moved
  simp only [within_all_cons, within_all_nil, within_when, within_read, within_put, within_draw, allocTiles_leaves, freeRun_leaves, leaveField_leaves hk, swapOut_leaves hk,
    writeHome_leaves hk, setState_leaves, untold_stream hk, Act.stream, within_units, implies_true, true_and, and_true, Nat.reduceLeDiff, ne_eq, not_false_eq_true, reduceCtorEq]
  intro _
  cases x.ckpt with
  | none => trivial
  | some c => exact (within_when ..).2 fun _ => convertCheckpoint_leaves hk n _ fmt _ c.1 c.2 _

theorem applyStream_leaves (n : Nat) : (applyStream n).Leaves k := by
  have hpage := untold_page hk
  have hidx : idxOf (streamCtl n) = streamCtl n := if_neg (by unfold streamCtl; omega)
  have htake : (groupTake (streamCtl n)).Leaves k := groupTake_leaves (by rw [hidx]; unfold streamCtl; omega) (by unfold streamCtl; omega)
  simp [applyStream, htake, streamConvert_leaves hk, Act.stream]

theorem chunkBoundary_leaves (n : Nat) : (chunkBoundary n).Leaves k := by
  simp [chunkBoundary, swapOut_leaves hk, applyStream_leaves hk, streamDo_leaves hk, untold_stream hk, Act.stream]

theorem chunkEnded_leaves (j : Nat) (x : Job) (status detail : Nat) : (chunkEnded j x status detail).Leaves k := by
  simp only [chunkEnded, within_read]
  intro s
  split
  · trivial
  · rename_i n _
    have hcount : (Act.count 64 (Obj.CHUNKS_DONE n) 1).Leaves k := untold_count hk (by unfold Obj.CHUNKS_DONE; omega) _ _
    simp [hcount, streamLost_leaves hk, chunkBoundary_leaves hk, untold_stream hk, Act.stream]

theorem engineGone_leaves (f e : Nat) : (engineGone f e).Leaves k := by
  simp [engineGone, streamLost_leaves hk, leaveField_leaves hk, Act.stream]

theorem abortUnitSlice_leaves (f : Nat) (es : List Nat) : (abortUnitSlice f es).Leaves k := by
  simp only [abortUnitSlice, within_read]
  intro s
  split
  · have hcount (c : Nat) : (Act.count 32 (Obj.SLICES_ABORTED c) 1).Leaves k := untold_count hk (by unfold Obj.SLICES_ABORTED; omega) _ _
    simp [hcount, Act.safe]
  · trivial

theorem takeEngines_leaves (n f : Nat) : (takeEngines n f).Leaves k := by
  simp [takeEngines, takeSpace, abortUnitSlice_leaves hk, untold_stream hk, Act.stream, Act.field]

theorem streamsFollow_leaves : streamsFollow.Leaves k := by
  simp only [streamsFollow, streamsLeave, within_read, within_all_cons, within_all_nil, within_each, streamAccrue_leaves hk, implies_true, true_and, and_true]
  intro s s' f _
  split
  · trivial
  · simp [streamAccrue_leaves hk, takeEngines_leaves hk, swapOut_leaves hk, Act.stream, Act.field]

end

/-! ## Fields, furrows, contexts, the map -/

section
variable {k : Nat} (hk : Obj.untold k)
include hk

theorem fallowSettle_leaves : fallowSettle.Leaves k := by
  simp only [fallowSettle, within_read, within_each]
  intro s f hf
  have hf66 : f < 66 := List.mem_range.1 (List.mem_filter.1 hf).1
  have hrole : Part.obj (Obj.FIELD_ROLE f) ≠ Part.obj k := untold_ne hk (by unfold Obj.FIELD_ROLE; omega)
  have hstatus : Part.obj (Obj.FALLOW_STATUS f) ≠ Part.obj k := untold_ne hk (by unfold Obj.FALLOW_STATUS; omega)
  have hmask : Part.obj (Obj.ENGINE_ACTIVE_MASK f) ≠ Part.obj k := untold_ne hk (by unfold Obj.ENGINE_ACTIVE_MASK; omega)
  have hdom : Part.obj (Obj.DOM_STATE f) ≠ Part.obj k := untold_ne hk (by unfold Obj.DOM_STATE; omega)
  simp [fallowDone, fieldGate, hrole, hstatus, hmask, hdom, logEv_leaves, Act.field, Act.pow]

theorem clearCause_leaves (b i : Nat) : (clearCause b i).Leaves k := clearCause_within b i (untold_ne hk (by decide)) fun _ => trivial

theorem goldenAbandon_leaves (f : Nat) : (goldenAbandon f).Leaves k := by
  have hdrop (r : Nat) : (dropRun r).Leaves k := by
    simp [dropRun, dropJobs, jobLeaves_within (untold_life hk) id, (untold_life hk).offers, Act.tt]
  have hlost : (Act.count 32 (Obj.GOLDEN_ABANDONED f) 1).Leaves k := within_count _ _ _ (untold_furrow hk (by decide) f) nofun
  have hlatent : Part.obj Obj.LATENT_MASK ≠ Part.obj k := untold_ne hk (by decide)
  simp only [goldenAbandon, within_read]
  intro s
  split <;> simp [hdrop, hlost, hlatent, untold_furrow hk, Act.furrow, Act.tt, Act.safe, dueCause]

theorem goldenEnded_leaves (f n : Nat) (x : Run) (status : Nat) : (goldenEnded f n x status).Leaves k := by
  have hruns : (Act.count 32 (Obj.GOLDEN_RUNS f) 1).Leaves k := within_count _ _ _ (untold_furrow hk (by decide) f) nofun
  have hfails : (Act.count 32 (Obj.GOLDEN_FAILS f) 1).Leaves k := within_count _ _ _ (untold_furrow hk (by decide) f) nofun
  have hlatent : Part.obj Obj.LATENT_MASK ≠ Part.obj k := untold_ne hk (by decide)
  simp [goldenEnded, goldenCovered, goldenAbandon_leaves hk, clearCause_leaves hk, logEv_leaves, hruns, hfails, hlatent, untold_furrow hk, Act.furrow, Act.tt, Act.safe, dueCause]

theorem applyFurrow_leaves {c : Nat} (hc : c % 65536 = 0x2581 ∨ c % 65536 = 0x2D21) : (applyFurrow c).Leaves k := by
  have htake : (groupTake c).Leaves k := groupTake_apartFromFirings (untold_apartFromFirings hk) hc
  have hbind (c h : Nat) : (bindSems c h).Leaves k := by
    simp only [bindSems, within_read]
    intro s
    split
    · trivial
    · simp [Act.tt]
  simp [applyFurrow, htake, hbind, untold_furrow hk, Act.furrow, Act.tt]

theorem applyContext_leaves (c : Nat) : (applyContext c).Leaves k := by
  have hpage := untold_page hk
  have hidx : idxOf (0x4000 + c) = 0x4000 + c := if_neg (by omega)
  have htake : (groupTake (0x4000 + c)).Leaves k := groupTake_leaves (by omega) (by omega)
  simp [applyContext, htake, (untold_life hk).inherit, Act.tt]

theorem putEpochs_leaves : putEpochs.Leaves k := by
  have hobj {j : Nat} (h : j ≠ 0x2C0021 ∧ j ≠ 0x2D0101) := untold_ne hk h
  simp [putEpochs, hobj]

theorem becomeNewest_leaves (e : Epoch) : (becomeNewest e).Leaves k := by
  have hnewest : Part.obj Obj.EPOCH_NEWEST ≠ Part.obj k := untold_ne hk (by decide)
  simp [becomeNewest, putEpochs_leaves hk, hnewest, Act.plan]

theorem reclaim_leaves (fuel : Nat) : (reclaim fuel).Leaves k := by
  induction fuel with
  | zero => trivial
  | succ fuel ih =>
    simp only [reclaim, within_read, within_all_cons, within_all_nil, within_each, freeTile_leaves, putEpochs_leaves hk, Act.plan, within_units, implies_true, true_and, and_true]
    intro s s'
    split
    · simp [becomeNewest_leaves hk, ih]
    · trivial

theorem applyMap_leaves : applyMap.Leaves k := by
  have hpage := untold_page hk
  have htake : (groupTake 0x2901).Leaves k := groupTake_leaves (by rw [show idxOf 0x2901 = 0x2901 from rfl]; omega) (by omega)
  simp [applyMap, htake, freeTile_leaves, becomeNewest_leaves hk, reclaim_leaves hk, Act.plan]

theorem runLeaves_leaves (j : Nat) (x : Job) : (runLeaves j x).Leaves k := by
  have hroad (n : Nat) : (dropRoad n).Leaves k := ⟨trivial, untold_ne hk (by unfold Obj.ROADMAP_NODES; omega), trivial⟩
  simp only [runLeaves, within_read]
  intro s
  split
  · simp [hroad, reclaim_leaves hk, Act.plan]
  · trivial

theorem collDone_leaves (x : Job) (status : Nat) : (collDone x status).Leaves k := by
  simp only [collDone]
  split
  · rename_i c _
    have hcount : (Act.count 64 (Obj.COLL_OPS c.group) 1).Leaves k := untold_count hk (by unfold Obj.COLL_OPS; omega) _ _
    simp [hcount]
  · trivial

/-- A group whose block has stopped applies. -/
theorem applyIdle_leaves {c : Nat} {s : State} (h : s.idleGroup c = true) : (applyIdle c).Leaves k := by
  have hpage := untold_page hk
  simp only [State.idleGroup] at h
  simp only [applyIdle]
  split
  case isTrue hf => exact applyFurrow_leaves hk hf
  case isFalse hf =>
    rw [if_neg hf] at h
    split
    case isTrue => exact applyContext_leaves hk _
    case isFalse hc =>
      rw [if_neg hc] at h
      split
      case isTrue => exact applyStream_leaves hk _
      case isFalse hs =>
        rw [if_neg hs] at h
        split
        case isTrue => exact applyMap_leaves hk
        case isFalse hm =>
          rw [if_neg hm] at h
          have hrange : 0x2F60 ≤ c % 65536 ∧ c % 65536 ≤ 0x2F67 := by
            by_contra hout
            rw [if_neg hout] at h
            exact absurd h (by decide)
          have hidx : idxOf c = c := if_neg (by omega)
          exact groupTake_leaves (by omega) (by omega)

omit hk in
theorem freeScratch_leaves (k : Nat) : freeScratch.Leaves k := by
  simp only [freeScratch, within_read, within_each, within_all_cons, within_all_nil, Act.furrow, Act.tt, within_units, and_true]
  intro s e _
  split
  · exact freeRun_leaves k _ _
  · trivial

end

/-! ## What raises no value -/

/-- The act leaves slot `k` at its value or at a lower one. -/
def Act.NoRise (k : Nat) (a : Act) : Prop := ∀ s : State, (a.run s).get k ≤ s.get k

section
variable {k : Nat}

theorem Act.Leaves.noRise {a : Act} (h : a.Leaves k) : a.NoRise k := fun s => (h.get s).le

theorem noRise_all_nil : (Act.all []).NoRise k := fun _ => le_rfl

theorem noRise_all_cons {a : Act} {as : List Act} (h : a.NoRise k) (hs : (Act.all as).NoRise k) : (Act.all (a :: as)).NoRise k := fun s => (hs _).trans (h s)

theorem noRise_each {α : Type} {f : α → Act} {xs : List α} (h : ∀ x ∈ xs, (f x).NoRise k) : (Act.each xs f).NoRise k := by
  induction xs with
  | nil => exact fun _ => le_rfl
  | cons x xs ih => exact noRise_all_cons (h x (List.mem_cons_self ..)) (ih fun y hy => h y (List.mem_cons_of_mem _ hy))

/-- A bit of a mask that is cleared raises no slot, whichever the mask is. -/
theorem modify_clearBit_noRise (j b : Nat) : (Act.modify j fun m => clearBit m b).NoRise k := by
  intro s
  rw [run_modify, run_put_get]
  split
  case isTrue h =>
    subst h
    exact (Nat.mod_le ..).trans (clearBit_le ..)
  case isFalse => exact le_rfl

variable (hk : Obj.untold k)
include hk

theorem furrowSettle_noRise (f : Nat) : (furrowSettle f).NoRise k := by
  intro s
  rw [furrowSettle, run_read, run_when]
  have hstate : (Act.put (Obj.FURROW_STATE f) 1).Leaves k := untold_furrow hk (by decide) f
  have hcause : (clearCause 6 f).Leaves k := clearCause_leaves hk 6 f
  have hfurrow (g : Furrow → Furrow) : (Act.furrow f g).Leaves k := trivial
  split
  · exact noRise_all_cons (hfurrow _).noRise (noRise_all_cons hstate.noRise (noRise_all_cons (modify_clearBit_noRise _ _) (noRise_all_cons hcause.noRise noRise_all_nil))) s
  · exact le_rfl

theorem runEnded_noRise (x : Run) (status : Nat) : (runEnded x status).NoRise k := by
  rw [runEnded]
  split
  case h_1 =>
    refine noRise_all_cons (Act.Leaves.noRise ?_) (noRise_all_cons (furrowSettle_noRise hk _) noRise_all_nil)
    simp [Act.tt]
  case h_2 => exact Act.Leaves.noRise (goldenEnded_leaves hk _ _ _ _)
  case h_3 => exact fun _ => le_rfl

theorem followRuns_noRise (fuel : Nat) : (followRuns fuel).NoRise k := by
  induction fuel with
  | zero => exact fun _ => le_rfl
  | succ fuel ih =>
    intro s
    rw [followRuns, run_read]
    dsimp only
    have htt (f : TtS → TtS) : (Act.tt f).Leaves k := trivial
    have hdeliver (d : Nat × Nat × Nat × Bool) : (deliver 6 d.1 d.2.1 d.2.2.1 d.2.2.2).Leaves k := deliver_apartFromFirings (untold_apartFromFirings hk) _ _ _ _ _
    split
    · exact le_rfl
    · exact noRise_all_cons (htt _).noRise (noRise_all_cons (noRise_each fun e _ => runEnded_noRise hk _ _)
        (noRise_all_cons (noRise_each fun d _ => (hdeliver d).noRise) (noRise_all_cons ih noRise_all_nil))) s

theorem raiseDue_noRise (fuel : Nat) : (raiseDue fuel).NoRise k := by
  induction fuel with
  | zero => exact fun _ => le_rfl
  | succ fuel ih =>
    intro s
    rw [raiseDue, run_read]
    have hsafe (f : SafeS → SafeS) : (Act.safe f).Leaves k := trivial
    split
    · exact le_rfl
    · exact noRise_all_cons (hsafe _).noRise (noRise_all_cons (fun t => (raised_get_other (untold_apartFromCauses hk) t _ _).le) (noRise_all_cons ih noRise_all_nil)) s

/-- What a round tells once runs and causes have been told. -/
theorem jobsTold_leaves : (Act.read fun s => .all [
    .tt (fun t => { t with endedJobs := [], engineFaults := [] }),
    .each s.u.tt.endedJobs (fun e => releaseWalks e.1), .each s.u.tt.endedJobs (fun e => collDone e.2.1 e.2.2.1), .each s.u.tt.endedJobs (fun e => runLeaves e.1 e.2.1),
    .each s.u.tt.endedJobs (fun e => chunkEnded e.1 e.2.1 e.2.2.1 e.2.2.2), .each s.u.tt.engineFaults (fun e => engineGone e.1 e.2)]).Leaves k := by
  simp only [within_read, within_all_cons, within_all_nil, within_each, Act.tt, within_units, releaseWalks_leaves hk, collDone_leaves hk, runLeaves_leaves hk, chunkEnded_leaves hk,
    engineGone_leaves hk, implies_true, and_self]

theorem settleRounds_noRise (fuel : Nat) : (settleRounds fuel).NoRise k := by
  induction fuel with
  | zero => exact fun _ => le_rfl
  | succ fuel ih =>
    intro s
    rw [settleRounds, run_read]
    split
    · exact le_rfl
    · exact noRise_all_cons (followRuns_noRise hk 300) (noRise_all_cons (raiseDue_noRise hk 64)
        (noRise_all_cons (jobsTold_leaves hk).noRise (noRise_all_cons ih noRise_all_nil))) s

theorem groupsFollow_leaves : groupsFollow.Leaves k := by
  simp only [groupsFollow, within_read, within_each, within_when, Bool.and_eq_true]
  exact fun _ _ _ _ h => applyIdle_leaves hk h.2

/-- Telling what is left to be told raises neither of the two slots. -/
theorem told_get_le (s : State) : s.told.get k ≤ s.get k :=
  noRise_all_cons (settleRounds_noRise hk 64) (noRise_all_cons (streamsFollow_leaves hk).noRise (noRise_all_cons (fallowSettle_leaves hk).noRise
    (noRise_all_cons (settleRounds_noRise hk 8) (noRise_all_cons (groupsFollow_leaves hk).noRise (noRise_all_cons (freeScratch_leaves k).noRise noRise_all_nil))))) s

end

end Sys2Proof.Machine
end

section
/-! PROOFS. What control channels count of an implausible sample (R376, R381), and what the end of the boot leaves the voter (R396, R445). -/

namespace Sys2Proof.Machine

/-- What the state that a command leads to shows in slot `k`. -/
def shownAfter (k : Nat) : Host.Outcome State Fault Refusal → Option Nat
  | .next t => some (t.get k)
  | _ => none

/-- A slot that telling never raises shows no more once a state has been told. -/
theorem shownAfter_told {k v : Nat} (hk : Obj.untold k) {t : State} (h : shownAfter k (.next t.told) = some v) : v ≤ t.get k := by
  obtain rfl := Option.some.inj h
  exact told_get_le hk t

/-- The I/O map of a channel of one value, whose source lane holds no number. -/
def lostLane : List Byte :=
  [1, 0, 2, 0] ++ List.replicate 12 0 ++ [0, 0, 0, 0, 1, 0, 0, 0, 0, 0, 0x80, 0x3F, 0, 0, 0, 0, 0, 0, 0x80, 0x3F, 0, 0, 0x80, 0x3F]

/-- Channel 256 serves a sample that cannot be read, while the group of its block is PENDING and its shadow holds 77 for the missed samples. -/
def missing : State :=
  { (State.reset.puts [(Obj.DEVICE_STATE, 3), (Obj.CH_STATE 256, 1), (Obj.MISS_AFTER_NS 256, 100), (Obj.COMMIT_STATUS 0x2C00, 2)]).withUnits
      fun u => { u with
        dict := { u.dict with pendingGroups := [0x2C00], blobs := [(Obj.IO_MAP 256, lostLane)] }
        ctrl := { ch := [(256, {})] }
        links := { u.links with spi := [(0, { sample := some (5, 10, 0, 20) })] } } with
    shadow := [(Obj.MISSED 256, 77#64)] }

theorem missing_shows : shownAfter (Obj.MISSED 256) (exec (.controlSampleArrival 256 3 none) missing) = some 77 := by decide +kernel

/-- The boot is complete but for a channel that the part does not have, listed as one that failed its training. -/
def oddChannel : State :=
  (State.reset.puts [(Obj.DEVICE_STATE, Dev.INIT)]).withUnits fun u => { u with boot := { u.boot with kinds := [1, 2, 3, 4], trained := true, badChannels := [2241] } }

theorem oddChannel_shows : shownAfter Obj.VOTE_MODE (exec (.initComplete [0, 1]) oddChannel) = some 3 := by decide +kernel

/-- Refutes O46: the group of the channel's block, PENDING when its sample is found implausible, applies as the sample is taken, and the missed samples read what its shadow holds, not one more than before. -/
theorem not_channelsControl : ¬ Obligations.ChannelsControl := by
  unfold Obligations.ChannelsControl
  intro h
  obtain ⟨harrives, -⟩ := h missing 256 (by decide)
  obtain ⟨-, hlost⟩ := harrives 3 (5, 10, 0, 20) (by decide) (by decide +kernel) (by decide +kernel) (.inl (by decide +kernel)) (by decide +kernel) (by decide +kernel)
    (by decide +kernel) (by decide +kernel) (by decide +kernel)
  obtain ⟨t, ht, -, hcounted, -⟩ := hlost (by decide +kernel) (by decide +kernel) (by decide +kernel)
  have hbefore : missing.get (Obj.MISSED 256) = 0 := by decide +kernel
  have hle : 77 ≤ t.get (Obj.MISSED 256) := shownAfter_told (.inl rfl) ((congrArg (shownAfter _) ht).symm.trans missing_shows)
  omega

/-- Refutes O51: a channel number beyond the part's, left in the list of channels that failed, is given the state of a failed channel in the slot that shows the voter's mode, which then reads 3. -/
theorem not_bootChainRuns : ¬ Obligations.BootChainRuns := by
  unfold Obligations.BootChainRuns
  intro h
  obtain ⟨-, -, -, -, hcomplete⟩ := h oddChannel
  obtain ⟨t, ht, -, -, -, -, -, -, -, hvoter, -⟩ := hcomplete [0, 1] (by decide) (by decide +kernel) (by decide +kernel) (.inl (by decide +kernel))
  obtain ⟨hmode, -⟩ := hvoter (by decide)
  have hle : 3 ≤ t.get Obj.VOTE_MODE := shownAfter_told (.inr rfl) ((congrArg (shownAfter _) ht).symm.trans oddChannel_shows)
  omega

end Sys2Proof.Machine
end
